-- ==== Sys2Proof/Word.lean ====
section
/-!
DEFINITION. The word types of the Q2048 register map and their plainest arithmetic.

Registers are 32 bits wide (R59), bit 0 is the least significant bit (R7) and every multi-byte value is
little-endian (R8).
-/

namespace Sys2Proof

/-- One 32-bit register or one 32-bit half of a wider value. -/
abbrev Word := BitVec 32

/-- One byte of hayloft storage. -/
abbrev Byte := BitVec 8

/-- A 32-byte ring entry or hayloft word, byte 0 in bits [7:0] (R8, R519). -/
abbrev Entry := BitVec 256

/-- A 40-byte vector word (R164), byte 0 in bits [7:0]. -/
abbrev VectorWord := BitVec 320

/-- Bit `i` of a natural number used as a bit mask. -/
def natBit (m i : Nat) : Bool := m.testBit i

/-- 1 for true and 0 for false. -/
def bit (b : Bool) : Nat := if b then 1 else 0

/-- A count that stops at `top` (the saturating counters of the manual). -/
def satAdd (top a b : Nat) : Nat := if a + b < top then a + b else top

/-- The 5-bit and wider two's-complement reading of the low `n` bits of `v`. -/
def signed (n v : Nat) : Int :=
  let m := v % 2 ^ n
  if m < 2 ^ (n - 1) then (m : Int) else (m : Int) - (2 ^ n : Nat)

/-- The low `n` bits of an integer, as a two's-complement code. -/
def twos (n : Nat) (v : Int) : Nat := (v % ((2 ^ n : Nat) : Int)).toNat

end Sys2Proof
end

