-- ==== Sys2Proof/Syntax.lean ====
section
/-!
DEFINITION. The commands that the part takes: one constructor for each row of the opcode table.

A command is a register access by a requester, an event on a pin or link, or an event of one of the part's own engines.
What an engine samples from outside (comparator outputs, converter codes, stamps, temperatures, the outcome of a check
of an image) is an operand of its command.
-/

namespace Sys2Proof

/-- The agents that issue register accesses (Register Pages): a PCI Express function, by its index (R563), a groom, or
the halter-port slave. -/
inductive Requester where
  | fn (f : Fin 18)
  | groom (g : Fin 8)
  | halter
  deriving DecidableEq, Repr

/-- Index of a requester: functions 0 to 17, grooms 18 to 25, halter 26. -/
def Requester.index : Requester → Nat
  | .fn f => f.val
  | .groom g => 18 + g.val
  | .halter => 26


/-- What the error correction of the hayloft finds at a read (R551). -/
inductive Ecc where
  | clean
  | corrected
  | uncorrectable
  deriving DecidableEq, Repr

/-- The instant of a comparator sample listed with the command of a vector: the strobes due by that vector's start, those
of the vector just before it and those of earlier ones (late strobes), and the ready/busy sample at its start. -/
inductive SampleAt where
  | stbA
  | stbB
  | lateA
  | lateB
  | ready
  deriving DecidableEq, Repr

/-- Comparator outputs of one channel at one instant, as the front end gives them; a channel that is not listed gives
neither output. -/
structure Sample where
  ch : Fin 2048
  inst : SampleAt
  h : Bool
  l : Bool
  deriving DecidableEq, Repr

/-- The sources of calibration gaps that offer channels (R454). -/
inductive GapSource where
  | calgap
  | window
  | idle
  | m10
  deriving DecidableEq, Repr

/-- What happens on a pseudo-channel in the refresh rules (R540 to R542): a refresh falls due, with a real-time burst on
the pseudo-channel or waiting for it, or without; no burst occupies or waits for it, so that an owed refresh is issued; a
burst of a port, in panic or not, reaches the 1 KiB boundary at which it would enter it. -/
inductive RefreshCase where
  | due (busy : Bool)
  | idle
  | boundary (panic : Bool)
  deriving DecidableEq, Repr

/-- A clock that the monitors report lost (R666). -/
inductive ClockLoss where
  | refclk
  | barnPll (b : Fin 8)
  | yardPll
  | chore
  deriving DecidableEq, Repr

/-- What the gatehouse boot meets (R585): what has been written into the external flash since the model last saw it, as pieces
with their flash addresses; which transfer ended with FLASH_ERR, 0 the directory, 1 the boot image, 2 the patch image (R620); and
whether the images are listed for the evaluated configuration (R601). -/
structure BootRead where
  flash : List (Nat × List (BitVec 8))
  fault : Option (Fin 3)
  listed : Bool
  deriving DecidableEq, Repr

/-- A request to the configuration space of a function (R559, R560, R565, R574, R577): identity and capability reads, the
error reporting of AER, and the writes that the manual gives a meaning. -/
inductive CfgRequest where
  | readId
  | readClass
  | readTableSize
  | readTotalVfs
  | readIntPin
  | readMaxPayload
  | readAer
  | clearAer (mask : BitVec 32)
  | ecrc (gen chk : Bool)
  | command (mse bme : Bool)
  | msix (en fmask : Bool)
  | vfControl (en mse : Bool)
  | power (d3 : Bool)
  deriving DecidableEq, Repr

/-- An access to entry `v` of a function's MSI-X table, to the word of the PBA that holds its bit, or to an offset of BAR2 outside
the three areas of R569, where `write` tells a write: the mask bit of the entry, its address and data words 0 to 2, reads of its
words 0 to 3. -/
inductive MsixOp where
  | mask (on : Bool)
  | write (w : Fin 3) (v : BitVec 32)
  | read (w : Fin 4)
  | pba
  | outside (write : Bool)
  deriving DecidableEq, Repr

/-- A read of a prime (R211): the directory word or the image header of an entry, or a granule of the start window, at its first
or at its second reading (R229). -/
inductive PrimeRead where
  | entry (i : Fin 1024)
  | header (i : Fin 1024)
  | granule (g : Fin 262144)
  | again (g : Fin 262144)
  deriving DecidableEq, Repr

/-- Width of a register access (R74): 32 or 64 bits, or any other. -/
inductive Width where
  | w32
  | w64
  | other
  deriving DecidableEq, Repr

/-- Instructions of the boundary-scan TAP that the model tells apart: those that act on the pins (R704), and BYPASS. -/
inductive TapInstr where
  | bypass
  | extest
  | extestPulse
  | extestTrain
  deriving DecidableEq, Repr

/-- What a stage of a service routine meets: what error correction finds in one 32-byte word of the hayloft (its address
divided by 32) and in the microword fetched at one address, and values that no rule of the manual derives from the state
(outcomes of self-tests, of a scrub and of the check of the micro-ROM). -/
structure Probe where
  hay : Option (BitVec 30 × Ecc)
  fetch : Ecc
  addr : BitVec 15
  inp : List Word
  deriving DecidableEq, Repr

/-- The commands of the opcode table. -/
inductive Instr where

  /-- VBAK reaches 1.6 V with VIN absent and the device enters M1 LANTERN (R47). -/
  | vbakPresent
  /-- The lantern supply falls below 1.5 V and resets everything, the lantern included (R625). -/
  | lanternPor
  /-- VIN comes within its operating range, VIN_POR releases and the device moves toward M2 (R637). -/
  | vinInRange
  /-- VIN falls below 2.5 V; the lantern writes its queue and a VIN_LOST entry, and the device goes to M1 or M0 (R664). -/
  | vinLost (t : BitVec 40)
  /-- RESET_N is sampled low on 48 consecutive chore cycles and the reset source asserts (R628). -/
  | resetNAssert
  /-- RESET_N is sampled high and its reach is released under the lock rule (R626). -/
  | resetNRelease
  /-- PERST_N goes low and resets the host-link ports, every pen, the locks, the keys and the groom cluster (R625). -/
  | perstNAssert
  /-- PERST_N goes high and link training may start (R635). -/
  | perstNRelease
  /-- A clock island's PLL reports lock and the island is released on its own clock (R634). -/
  | islandLock (isl : Fin 12)
  /-- An island has not reported lock 200 µs after its due release and stays in reset with LOCK_FAIL set (R634). -/
  | islandLockFail (isl : Fin 12)
  /-- Option loading of the 256 OTP rows completes, or ends with OPT_ERR, and the gatehouse boot starts (R631). -/
  | optionLoadDone (bad : Option (Fin 256))
  /-- The boot ends: the patch is loaded and the owner keys are generated, then M3 is entered, or the boot fails and the device stays in M2 (R585). -/
  | bootDone (o : BootRead)
  /-- In M3, once every barn timing base reports lock, the part arms barn 0 itself in STANDALONE mode (R156). -/
  | autoEpochArm
  /-- Training of a hayloft data-rate point completes or fails (R545). -/
  | trainingDone (p : Fin 3) (ok : Bool)
  /-- The sealed tack-room image is read and checked and loaded into bank A, or is found invalid (R468). -/
  | tackRoomLoadDone (faults : BitVec 2)
  /-- A host-link port reaches DL_Up (R567). -/
  | linkUp (k : Fin 2) (gen : Fin 8) (width : Fin 16)
  /-- A port goes DL_Down; its functions' configuration and its pens are reset and a logbook entry is written (R578). -/
  | linkDown (k : Fin 2)
  /-- A hot reset of a port resets the configuration of its functions and the pens mapped to it (R578). -/
  | hotReset (k : Fin 2)
  /-- A function-level reset applies the reset of the function's pen, or resets only the configuration state of a function with no owner (R577). -/
  | flr (f : Fin 18)
  /-- A configuration request completes with Request Retry Status before M4 and is served normally after (R566). -/
  | configRequest (f : Fin 18) (q : CfgRequest)
  /-- A request of an unsupported kind completes as Unsupported Request and HLK_UR_CNT is incremented (R560). -/
  | unsupportedRequest
  /-- A host read or write of the hayloft window is filtered by region and passed through the gatehouse cipher (R570). -/
  | bar4Access (f : Fin 18) (a : BitVec 35) (data : Option (List Byte)) (n : Fin 513) (ecc : Ecc)
  /-- An MSI-X vector is unmasked and sends its pending message if the PBA bit is set (R576). -/
  | msixUnmask (f : Fin 18) (v : Fin 4096) (op : MsixOp)
  /-- A write of HLK_FNMAP sets the owner of a function, or is refused while the function's memory space is enabled (R565). -/
  | fnmapWrite (r : Requester) (f : Fin 18) (v : Word)
  /-- A write of HLK_VEC divides the port's MSI-X vectors among its functions, subject to checks (R574). -/
  | vecWrite (r : Requester) (f : Fin 18) (v : Word)
  /-- A write to a register with no row of its own is checked for access, lock, width, ownership and value, and applied (R61). -/
  | registerWrite (r : Requester) (a : BitVec 26) (w : Width) (v : BitVec 64)
  /-- An access to a page the requester cannot reach returns all ones or has no effect, and is counted for the requester (R78). -/
  | unreachableAccess (r : Requester) (a : BitVec 26) (w : Width) (data : Option (BitVec 64))
  /-- A read of the low word of a wide RS value captures the whole value into the requester's snapshot (R80). -/
  | rsSnapshotRead (r : Requester) (a : BitVec 26) (w : Width)
  /-- A write of the highest word of a wide RW value commits the staged words at once (R81). -/
  | wideWriteCommit (r : Requester) (a : BitVec 26) (v : Word)
  /-- A write of PG_CTRL.EN enables the block, or idles it so that its operations are refused with DISABLED (R60). -/
  | pageEnable (r : Requester) (p : BitVec 14) (en : Bool)
  /-- A write of PG_CTRL.SRST = 1 starts a page soft reset, which parks the block's channels as a commanded park (R63). -/
  | pageSoftReset (r : Requester) (p : BitVec 14)
  /-- The page soft reset completes and SRST_BUSY clears (R63). -/
  | pageSoftResetDone (p : BitVec 14)
  /-- A write of PG_LOCK sets or clears LOCK or SLOCK, subject to the key and to supervisor rights (R65). -/
  | pageLockWrite (r : Requester) (p : BitVec 14) (v : Word)
  /-- The supervisor reassigns the owner of a page class, subject to R46 (R69). -/
  | pageOwnerWrite (r : Requester) (p : BitVec 14) (v : Word)
  /-- The supervisor requests device mode M5 SHED (R47). -/
  | modCmdM5 (r : Requester) (confirm : BitVec 8)
  /-- The supervisor requests device mode M10 FARRIER (R47). -/
  | modCmdM10 (r : Requester) (confirm : BitVec 8)
  /-- The supervisor ends M10 and returns to M4 once the farrier step in progress ends (R51). -/
  | modCmdM4 (r : Requester) (confirm : BitVec 8)
  /-- A recovery request from M11 applies the recovery reset, or ends FAILED while a cause is still present (R709). -/
  | modCmdM2 (r : Requester) (confirm : BitVec 8) (clock : Bool) (shield : Bool)
  /-- A domain requests domain mode M4 PARK (R47). -/
  | modPcmdM4 (r : Requester) (d : Fin 9) (confirm : BitVec 8)
  /-- A domain requests domain mode M6 CONTACT (R47). -/
  | modPcmdM6 (r : Requester) (d : Fin 9) (confirm : BitVec 8)
  /-- A domain requests domain mode M7 PARAMETRIC (R47). -/
  | modPcmdM7 (r : Requester) (d : Fin 9) (confirm : BitVec 8)
  /-- A domain requests domain mode M8 FUNCTIONAL (R47). -/
  | modPcmdM8 (r : Requester) (d : Fin 9) (confirm : BitVec 8)
  /-- A domain requests domain mode M9 CONCURRENT (R47). -/
  | modPcmdM9 (r : Requester) (d : Fin 9) (confirm : BitVec 8)
  /-- A device-mode transition in progress completes and its result is stored in MOD_RESULT (R53). -/
  | deviceTransitionDone
  /-- A domain-mode transition completes and its result is stored in MOD_PRESULT (R53). -/
  | domainTransitionDone (d : Fin 9)
  /-- A barn has not reached lock 200 µs into a wake and the device enters M11 with LOCK set (R50). -/
  | wakeLockTimeout (b : Fin 8)
  /-- A level change on an EV_IN input is recognised by the blocks that sample it (R184). -/
  | evInEdge (k : Fin 4) (rise : Bool)
  /-- Setting an STL_PARK bit parks the channel, preempting any batch in progress (R117). -/
  | channelPark (r : Requester) (st : Fin 128) (mask : BitVec 16)
  /-- Clearing an STL_PARK bit unparks the channel, subject to the mode and level checks (R118). -/
  | channelUnpark (r : Requester) (st : Fin 128) (mask : BitVec 16)
  /-- The switches of a parking channel are confirmed open, PARKED is set and the pull to VPARK connects (R117). -/
  | parkComplete (st : Fin 128) (c : Fin 16)
  /-- A write of STL_ASSIGN changes the sequencer, column and site of a parked channel, or is refused (R20). -/
  | assignWrite (r : Requester) (st : Fin 128) (c : Fin 16) (v : Word)
  /-- LVL_CTRL.LOAD checks the stall's preloads and copies them into the active registers, or refuses the strobe whole (R101). -/
  | loadStrobe (r : Requester) (st : Fin 128) (ldlvEn : Bool)
  /-- 2 µs after an accepted load strobe, SETTLING clears (R102). -/
  | settlingEnd (st : Fin 128)
  /-- A write of LVL_BCAST_VAL writes the code into the selected level preload of every masked channel (R125). -/
  | broadcastPreload (r : Requester) (st : Fin 128) (v : Word)
  /-- The driver's current limit has held for 200 ns; DRV_SHORT is set and, with SHORT_PARK, the channel is parked (R92). -/
  | driverShort (st : Fin 128) (c : Fin 16)
  /-- CMP_CTRL.CLR_CNT clears all 16 fail counters of the stall (R127). -/
  | failCountClear (r : Requester) (st : Fin 128)
  /-- SWM_CTRL.GO checks a switch batch against the interlocks and starts it, or refuses it (R106). -/
  | switchBatchGo (r : Requester) (st : Fin 128) (hot : Bool)
  /-- A batch that waited for the farrier's step starts once the step ends (R123). -/
  | switchBatchResume (st : Fin 128)
  /-- The closings of a batch are confirmed, the held outputs are released and SWM_RESULT is stored (R106). -/
  | switchBatchDone (st : Fin 128)
  /-- Position sense has not confirmed a switch within its step or the switch-opening time; the switch is commanded open and its channel is parked (R115). -/
  | switchFault (st : Fin 128) (n : Fin 48)
  /-- A write of SWM_WEAR_WARN re-evaluates the WORN flags of all 48 switches of the stall (R114). -/
  | wearWarnWrite (r : Requester) (st : Fin 128) (v : Word)
  /-- TMB_CTRL.ARM arms epoch capture in the held SYNC_MODE, and in MASTER mode launches SYNC_OUT; it is refused while sequencers run or TIM units are armed (R154). -/
  | epochArm (r : Requester) (mode : Fin 4)
  /-- The epoch is set on the second REFCLK edge after a STANDALONE arm, restarting the tick count (R155). -/
  | epochSet
  /-- A SYNC_IN pulse is recognised; it sets the epoch of an armed SLAVE or MASTER part or is counted as ignored (R708). -/
  | syncInPulse (margin : BitVec 16)
  /-- A period or edge write of a timing set starts its check, with an optional auto-advance of the column (R137). -/
  | timingSetWrite (r : Requester) (q : Fin 8) (reg : Fin 38) (v : Word)
  /-- The check of a written set ends and CHECKING and BAD are updated (R138). -/
  | timingSetCheckDone (q : Fin 8)
  /-- A late edge fires at its own vector's start plus T (R141). -/
  | lateEdgeFire (q : Fin 8) (ch : Fin 2048) (h : Bool) (l : Bool)
  /-- SEQ_CTRL.START checks the start conditions and arms the sequencer, or refuses the start (R192). -/
  | seqStart (r : Requester) (q : Fin 8)
  /-- SEQ_CTRL.STOP ends the run at the next vector boundary (R198). -/
  | seqStop (r : Requester) (q : Fin 8)
  /-- SEQ_CTRL.ABORT cuts the run off at once and it ends in HIZ (R198). -/
  | seqAbort (r : Requester) (q : Fin 8)
  /-- The start delay or the start tick is reached and vector 0 begins on a tick (R193). -/
  | vector0Begin (q : Fin 8)
  /-- A CONT vector is issued and the next vector follows in address order (R167). -/
  | cont (q : Fin 8) (obs : List Sample)
  /-- An RPT vector is issued n times (R171). -/
  | rpt (q : Fin 8) (obs : List Sample)
  /-- A LOOP vector pushes a loop entry unless it was reached by an ENDL (R173). -/
  | loop (q : Fin 8) (obs : List Sample)
  /-- An ENDL decrements the loop count and jumps back, or pops the entry (R173). -/
  | endl (q : Fin 8) (obs : List Sample)
  /-- A JMP transfers to its target, popping a loop entry with POP (R167). -/
  | jmp (q : Fin 8) (obs : List Sample)
  /-- A CALL pushes the return address and transfers to its target (R167). -/
  | call (q : Fin 8) (obs : List Sample)
  /-- A RET transfers to the popped return address (R167). -/
  | ret (q : Fin 8) (obs : List Sample)
  /-- A BRF branches on the fail condition of vector m − 24 over the active sites (R179). -/
  | brf (q : Fin 8) (obs : List Sample)
  /-- A BRE branches on the event sample E(m − 24) (R181). -/
  | bre (q : Fin 8) (obs : List Sample)
  /-- A HALT vector is issued and the run ends with CODE HALTED (R191). -/
  | halt (q : Fin 8) (obs : List Sample)
  /-- An LDLV vector gives a load strobe at its start to every enabled stall that follows the sequencer (R186). -/
  | ldlv (q : Fin 8) (obs : List Sample)
  /-- A TRIG vector pulses the selected trigger lines at offset T (R187). -/
  | trig (q : Fin 8) (obs : List Sample)
  /-- A CALGAP issues n gap vectors with windows closed and no edges placed (R188). -/
  | calgap (q : Fin 8) (obs : List Sample)
  /-- A MARK vector counts and posts a mark entry (R190). -/
  | mark (q : Fin 8) (obs : List Sample)
  /-- A PIF pushes an IF entry, narrows the mask to the sites whose condition is true, and skips if none is (R240). -/
  | pif (q : Fin 8) (obs : List Sample)
  /-- A PELSE switches the mask to the else sites, skipping if there are none (R241). -/
  | pelse (q : Fin 8) (obs : List Sample)
  /-- A PJOIN pops the IF entry and restores its saved mask (R242). -/
  | pjoin (q : Fin 8) (obs : List Sample)
  /-- An SWHILE pushes a WHILE entry and zeroes the iteration counters (R243). -/
  | swhile (q : Fin 8) (obs : List Sample)
  /-- A SEND counts an iteration, retires the sites that leave, and loops back or pops the entry (R244). -/
  | send (q : Fin 8) (obs : List Sample)
  /-- Every hold cause has cleared and the next vector begins on a tick (R197). -/
  | holdEnd (q : Fin 8) (t : BitVec 48)
  /-- The drain after the last vector ends; SEQ_RESULT is stored and the sequencer returns to IDLE (R199). -/
  | drainComplete (q : Fin 8)
  /-- The entries of a waiting POST snapshot are posted in ascending site order (R259). -/
  | snapshotPost (q : Fin 8)
  /-- A capture record is written into the hayloft and CAP_WPTR advances, or it is dropped because the buffer is full (R264). -/
  | captureRecordWritten
  /-- Every capture record of the run is in the hayloft and FLUSHED is set (R266). -/
  | captureFlushed (q : Fin 8)
  /-- A write of SEQ_START_ADDR while IDLE with a valid map sets MSTATE to FILLING (R213). -/
  | startAddrWrite (r : Requester) (q : Fin 8) (addr : BitVec 24)
  /-- The start window is resident and MSTATE returns to READY (R213). -/
  | startWindowLoaded (q : Fin 8)
  /-- SEQ_STRM_CTRL.PRIME discards the resident granules and starts reading and checking the segment directory (R211). -/
  | prime (r : Requester) (q : Fin 8)
  /-- The prime ends with the map built and the start window loading, or with a failure code (R211). -/
  | primeDone (q : Fin 8) (errs : List (PrimeRead × Ecc))
  /-- A write of the segment directory registers sets MSTATE to NOMAP (R216). -/
  | sdirWrite (r : Requester) (q : Fin 8) (which : Fin 3) (v : Word)
  /-- A requested granule arrives in the manger, or is requested again after an uncorrectable read (R222). -/
  | granuleResident (q : Fin 8) (g : Fin 262144) (ecc : Ecc)
  /-- A bit of TIM_ARM arms a native TIM unit, subject to checks (R322). -/
  | timArm (r : Requester) (st : Fin 128) (c : Fin 16)
  /-- TIM_ARM.VERNIER arms the stall's vernier unit (R313). -/
  | vernierArm (r : Requester) (st : Fin 128)
  /-- A bit of TIM_STOP ends the unit's run at once with END = STOP (R324). -/
  | timStop (r : Requester) (st : Fin 128) (c : Fin 17)
  /-- A selected event passes the gate and prescaler and is stamped, or is missed in the dead time (R298). -/
  | timEvent (st : Fin 128) (c : Fin 16) (t : BitVec 64) (strobe : Bool)
  /-- A comparator event on the vernier channel is stamped in the Qorip C96 format, or is missed (R314). -/
  | vernierEvent (st : Fin 128) (t : BitVec 64)
  /-- A TDR unit launches its step at the start of each REP period (R309). -/
  | tdrLaunch (st : Fin 128) (c : Fin 16) (rt : Option (BitVec 48))
  /-- The run's statistics are stored in TIM_RES with VALID = 1 (R326). -/
  | timResultStored (st : Fin 128) (c : Fin 16)
  /-- A stamp entry is posted, being full, or 1 µs after its last stamp, or at the end of the run (R320). -/
  | timEntryPost (st : Fin 128) (c : Fin 17)
  /-- A read of TIM_FIFO_LO pops the oldest stamp into the reader's snapshot (R329). -/
  | timFifoRead (r : Requester) (st : Fin 128) (c : Fin 16)
  /-- A read of TIM_VFIFO pops the oldest vernier stamp, or sets UNDERRUN (R327). -/
  | vernierFifoRead (r : Requester) (st : Fin 128)
  /-- A write of OUT_EN = 1 makes the PMU output live, subject to mode checks (R356). -/
  | pmuOutputEnable (r : Requester) (st : Fin 128) (u : Fin 4)
  /-- A write of OUT_EN = 0 takes the output to high impedance and the unit from CLAMP or SHUT to IDLE (R361). -/
  | pmuOutputDisable (r : Requester) (st : Fin 128) (u : Fin 4)
  /-- A write of PMU_CTRL.MODE loads the zero code of the new mode (R337). -/
  | pmuModeWrite (r : Requester) (st : Fin 128) (u : Fin 4) (fi : Bool)
  /-- A write of RANGE starts a make-before-break change, or applies at once with the output off (R343). -/
  | pmuRangeWrite (r : Requester) (st : Fin 128) (u : Fin 4) (range : Fin 8)
  /-- The range change completes and RANGED is set (R343). -/
  | pmuRangeDone (st : Fin 128) (u : Fin 4)
  /-- A write of PMU_FORCE applies at once, or at the load strobe with FSYNC (R347). -/
  | pmuForceWrite (r : Requester) (st : Fin 128) (u : Fin 4) (code : BitVec 18)
  /-- A write of PMU_VCLH or PMU_VCLL is checked for order and applied (R341). -/
  | pmuClampWrite (r : Requester) (st : Fin 128) (u : Fin 4) (high : Bool) (code : BitVec 16)
  /-- The current limit has held for 1 µs and the ILIM flag is set (R338). -/
  | pmuIlim (st : Fin 128) (u : Fin 4)
  /-- The limit has held for TIME µs with ACTION set; the output shuts and the unit enters SHUT (R339). -/
  | pmuShut (st : Fin 128) (u : Fin 4)
  /-- A voltage clamp has held for 1 µs and the VCLAMP flag is set (R340). -/
  | pmuVclamp (st : Fin 128) (u : Fin 4)
  /-- Remote sense is open or far from the force node for 10 µs and the PMU falls back to its internal path (R331). -/
  | senseOpen (st : Fin 128) (u : Fin 4)
  /-- A write of PMU_GANG.EN gangs or ungangs the four units of the stall (R348). -/
  | pmuGangWrite (r : Requester) (st : Fin 128) (en : Bool)
  /-- On the 1 MHz update tick every wave accumulator advances and the force code is updated (R351). -/
  | waveUpdate
  /-- A write of PMU_WT_DATA writes a wave-table entry, with an optional auto-advance (R353). -/
  | waveTableWrite (r : Requester) (st : Fin 128) (v : Word)
  /-- PMU_WT_IDX.DEFAULT starts reloading the default sine table of the unit (R353). -/
  | waveTableDefault (r : Requester) (st : Fin 128) (u : Fin 4)
  /-- The default sine reload completes and DEFAULT reads 0 (R364). -/
  | waveTableDefaultDone (st : Fin 128) (u : Fin 4)
  /-- A bit of CNV_ARM arms a converter, subject to checks (R376). -/
  | cnvArm (r : Requester) (st : Fin 128) (u : Fin 4)
  /-- A bit of CNV_STOP stops the converter, storing an invalid result if it was converting (R386). -/
  | cnvStop (r : Requester) (st : Fin 128) (u : Fin 4)
  /-- CNV_START_TICK is reached and the armed TICK converters wake (R374). -/
  | cnvTickTrigger (st : Fin 128)
  /-- 64,000 ticks after the trigger tick, the converter's aperture begins (R373). -/
  | apertureStart (st : Fin 128) (u : Fin 4)
  /-- The aperture ends and the residue phase resolves the result (R382). -/
  | apertureEnd (st : Fin 128) (u : Fin 4) (code : BitVec 24) (sat : BitVec 4) (neg : Bool)
  /-- A converter result is stored, posted to its ring, and the converter rearms or goes idle (R385). -/
  | cnvResultStored (st : Fin 128) (u : Fin 4)
  /-- A rising crossing at MAINS_REF ends a line period, which updates PER and the lock state (R370). -/
  | mainsCrossing (per : BitVec 32)
  /-- No valid period has ended within 30 ms; LOCKED clears and LOST is set (R371). -/
  | mainsLost
  /-- A write of BRN_REF_CTRL.EN turns the barn reference buffer on or off (R380). -/
  | refEnable (r : Requester) (b : Fin 8) (en : Bool)
  /-- 5 ms after enable the buffer's READY is set (R380). -/
  | refReady (b : Fin 8)
  /-- ACQ_CTRL.ARM arms the acquisition engine into FILL, subject to checks (R422). -/
  | acqArm (r : Requester) (b : Fin 8)
  /-- ACQ_CTRL.STOP ends the run, closing any record in POST (R423). -/
  | acqStop (r : Requester) (b : Fin 8)
  /-- ACQ_CTRL.FORCE gives a software trigger (R403). -/
  | acqForce (r : Requester) (b : Fin 8)
  /-- A slot ends and its samples are placed, reduced into points and posted (R398). -/
  | acqSlotEnd (b : Fin 8)
  /-- The tail entry is posted and 2 µs have passed; the engine returns to FILL or to IDLE (R420). -/
  | rearmEnd (b : Fin 8)
  /-- A write of WCH_CFG enables or configures a comparator pair, making the changed comparators UNRESOLVED (R432). -/
  | wchCfgWrite (r : Requester) (st : Fin 128) (c : Fin 16) (v : Word)
  /-- A write of WCH_THR sets the thresholds of a pair, checked for order (R429). -/
  | wchThrWrite (r : Requester) (st : Fin 128) (c : Fin 16) (v : Word)
  /-- On the sample tick each enabled comparator of the stall is evaluated at the end of its 2 µs window (R434). -/
  | wchSampleTick (st : Fin 128) (vs : List Int) (t : BitVec 64) (strobe : Bool)
  /-- An UNRESOLVED comparator's input leaves its band and the comparator resolves to CLEAR or CROSSED (R433). -/
  | wchResolve (st : Fin 128) (ix : Fin 32) (v : Int) (t : BitVec 64) (strobe : Bool)
  /-- A watch comparator crosses; it records the crossing, feeds its consumers and acts by ACT (R437). -/
  | wchCrossing (st : Fin 128) (ix : Fin 32) (v : Int) (t : BitVec 64) (strobe : Bool)
  /-- A crossed comparator releases and the rank-1 trip condition ends (R441). -/
  | wchRelease (st : Fin 128) (ix : Fin 32) (v : Int)
  /-- The 10 µs TRIP_N pulse of a trip onset ends outside M11 (R443). -/
  | tripNRelease
  /-- FAR_CTRL.RUN starts a farrier run by copying the active bank into the inactive bank (R450). -/
  | farrierRun (r : Requester)
  /-- FAR_CTRL.ABORT ends the run after the current step and discards the inactive bank (R472). -/
  | farrierAbort (r : Requester)
  /-- FAR_CTRL.STORE makes the gatehouse seal the active bank and write it to flash (R470). -/
  | farrierStore (r : Requester)
  /-- The STORE completes or fails and TAK_STORE_RESULT is stored (R470). -/
  | farrierStoreDone (ok : Bool)
  /-- The copy of the active bank completes and stepping begins (R460). -/
  | farrierCopyDone
  /-- The farrier borrows idle resources in a gap and starts a calibration step (R455). -/
  | farrierStepStart (st : Fin 128) (g : Fin 7) (inst : Fin 2048) (mask : BitVec 16) (src : GapSource) (t : BitVec 48)
  /-- A step ends, restores the channel's state and writes the instance's coefficients; the run ends when no steps remain (R457). -/
  | farrierStepEnd (st : Fin 128) (ok : Bool)
  /-- On the first tick on which every owning sequencer is quiet, the new bank becomes active and the epoch advances (R462). -/
  | farrierSwitchover (t : BitVec 48)
  /-- No switchover tick has been found within FAR_SW_TMO and SW_LATE is set (R463). -/
  | swLate
  /-- FAR_WIN_CFG.ARM arms a host calibration window (R454). -/
  | farrierWindowArm (r : Requester) (v : Word)
  /-- The window start tick is reached and the host window opens (R454). -/
  | farrierWindowOpen
  /-- The host window's length expires and the window closes (R454). -/
  | farrierWindowEnd
  /-- INDEX_N changes level, declaring the needles up or down and ending any UP or TDR step that it enabled (R458). -/
  | indexNChange (high : Bool)
  /-- Service record: does nothing (R485). -/
  | svNop (g : Fin 8) (ring : Option (Fin 32768)) (p : Probe)
  /-- Service record: reads up to four registers (R485). -/
  | svRegRead (g : Fin 8) (ring : Option (Fin 32768)) (p : Probe)
  /-- Service record: writes up to four registers (R485). -/
  | svRegWrite (g : Fin 8) (ring : Option (Fin 32768)) (p : Probe)
  /-- Service record: read-modify-write of one register (R485). -/
  | svRegRmw (g : Fin 8) (ring : Option (Fin 32768)) (p : Probe)
  /-- Service record: polls a register until a masked value matches (R485). -/
  | svRegPoll (g : Fin 8) (ring : Option (Fin 32768)) (p : Probe)
  /-- Service record: applies a list of register writes from the hayloft (R485). -/
  | svRegBatch (g : Fin 8) (ring : Option (Fin 32768)) (p : Probe)
  /-- Service record: copies a hayloft range (R485). -/
  | svHayCopy (g : Fin 8) (ring : Option (Fin 32768)) (p : Probe)
  /-- Service record: fills a hayloft range with a word (R485). -/
  | svHayFill (g : Fin 8) (ring : Option (Fin 32768)) (p : Probe)
  /-- Service record: computes the CRC-32 of a hayloft range (R485). -/
  | svHayCrc (g : Fin 8) (ring : Option (Fin 32768)) (p : Probe)
  /-- Service record: compares two hayloft ranges (R485). -/
  | svHayCompare (g : Fin 8) (ring : Option (Fin 32768)) (p : Probe)
  /-- Service record: waits a given time (R485). -/
  | svDelay (g : Fin 8) (ring : Option (Fin 32768)) (p : Probe)
  /-- Service record: waits for a selected event (R485). -/
  | svWaitEvent (g : Fin 8) (ring : Option (Fin 32768)) (p : Probe)
  /-- Service record: optionally primes, starts a sequencer and waits for the run to end (R485). -/
  | svSeqRun (g : Fin 8) (ring : Option (Fin 32768)) (p : Probe)
  /-- Service record: runs a list of sequencer runs (R485). -/
  | svSeqBatch (g : Fin 8) (ring : Option (Fin 32768)) (p : Probe)
  /-- Service record: writes a level over a channel scope, with an optional strobe (R485). -/
  | svLevels (g : Fin 8) (ring : Option (Fin 32768)) (p : Probe)
  /-- Service record: opens or closes switches by batches over a channel scope (R485). -/
  | svSwitch (g : Fin 8) (ring : Option (Fin 32768)) (p : Probe)
  /-- Service record: judges needle contact by TDR, PMU or both, and posts CONTACT entries (R486). -/
  | svContact (g : Fin 8) (ring : Option (Fin 32768)) (p : Probe)
  /-- Service record: runs TDR measurements over a channel scope (R485). -/
  | svTdr (g : Fin 8) (ring : Option (Fin 32768)) (p : Probe)
  /-- Service record: tests channels for shorts by forcing each in turn (R485). -/
  | svShorts (g : Fin 8) (ring : Option (Fin 32768)) (p : Probe)
  /-- Service record: compares local and remote sense over a PMU scope (R485). -/
  | svKelvin (g : Fin 8) (ring : Option (Fin 32768)) (p : Probe)
  /-- Service record: judges contact by the PMU method only (R486). -/
  | svContactPmu (g : Fin 8) (ring : Option (Fin 32768)) (p : Probe)
  /-- Service record: writes a mask of sites with channels not in contact (R485). -/
  | svOpenMap (g : Fin 8) (ring : Option (Fin 32768)) (p : Probe)
  /-- Service record: writes the last contact verdict of every channel (R485). -/
  | svContactReport (g : Fin 8) (ring : Option (Fin 32768)) (p : Probe)
  /-- Service record: waits for a level of INDEX_N (R485). -/
  | svIndexWait (g : Fin 8) (ring : Option (Fin 32768)) (p : Probe)
  /-- Service record: forces and measures on a PMU scope at one tick (R485). -/
  | svForceMeasure (g : Fin 8) (ring : Option (Fin 32768)) (p : Probe)
  /-- Service record: sweeps the force code linearly and measures each point (R485). -/
  | svSweep (g : Fin 8) (ring : Option (Fin 32768)) (p : Probe)
  /-- Service record: sweeps the force code logarithmically and measures each point (R485). -/
  | svSweepLog (g : Fin 8) (ring : Option (Fin 32768)) (p : Probe)
  /-- Service record: measures leakage at a high and a low point against a limit (R485). -/
  | svLeakage (g : Fin 8) (ring : Option (Fin 32768)) (p : Probe)
  /-- Service record: draws a current and checks a minimum voltage (R485). -/
  | svVohIoh (g : Fin 8) (ring : Option (Fin 32768)) (p : Probe)
  /-- Service record: forces a current in and checks a maximum voltage (R485). -/
  | svVolIol (g : Fin 8) (ring : Option (Fin 32768)) (p : Probe)
  /-- Service record: measures quiescent current at states marked by the pattern (R485). -/
  | svIddq (g : Fin 8) (ring : Option (Fin 32768)) (p : Probe)
  /-- Service record: ramps PMU supplies to a target code (R485). -/
  | svSupplyRamp (g : Fin 8) (ring : Option (Fin 32768)) (p : Probe)
  /-- Service record: ramps ganged supplies to a target (R485). -/
  | svGangSupply (g : Fin 8) (ring : Option (Fin 32768)) (p : Probe)
  /-- Service record: starts wave sources on a PMU scope (R485). -/
  | svWaveStart (g : Fin 8) (ring : Option (Fin 32768)) (p : Probe)
  /-- Service record: stops wave sources on a PMU scope (R485). -/
  | svWaveStop (g : Fin 8) (ring : Option (Fin 32768)) (p : Probe)
  /-- Service record: runs K conversions per converter at a given interval (R485). -/
  | svCnvBatch (g : Fin 8) (ring : Option (Fin 32768)) (p : Probe)
  /-- Service record: runs the acquisition engine as set until its records close (R485). -/
  | svAcqRecord (g : Fin 8) (ring : Option (Fin 32768)) (p : Probe)
  /-- Service record: writes watch-comparator thresholds and configuration over a scope (R485). -/
  | svWatchSetup (g : Fin 8) (ring : Option (Fin 32768)) (p : Probe)
  /-- Service record: self-tests watch-comparator pairs on parked channels (R485). -/
  | svWatchTest (g : Fin 8) (ring : Option (Fin 32768)) (p : Probe)
  /-- Service record: makes PMUs safe by disabling outputs and opening switches (R485). -/
  | svPmuSafe (g : Fin 8) (ring : Option (Fin 32768)) (p : Probe)
  /-- Service record: runs TIM units with given settings (R485). -/
  | svTimRun (g : Fin 8) (ring : Option (Fin 32768)) (p : Probe)
  /-- Service record: measures periods (R485). -/
  | svPeriod (g : Fin 8) (ring : Option (Fin 32768)) (p : Probe)
  /-- Service record: measures period jitter (R485). -/
  | svJitter (g : Fin 8) (ring : Option (Fin 32768)) (p : Probe)
  /-- Service record: measures skew in INTERVAL mode (R485). -/
  | svSkew (g : Fin 8) (ring : Option (Fin 32768)) (p : Probe)
  /-- Service record: measures delay against a trigger line in OFFSET mode (R485). -/
  | svDelayMeas (g : Fin 8) (ring : Option (Fin 32768)) (p : Probe)
  /-- Service record: measures frequency over a gate time (R485). -/
  | svFreq (g : Fin 8) (ring : Option (Fin 32768)) (p : Probe)
  /-- Service record: writes vernier stamps to the hayloft (R485). -/
  | svVernierDump (g : Fin 8) (ring : Option (Fin 32768)) (p : Probe)
  /-- Service record: reduces stamps in the hayloft to statistics (R485). -/
  | svStampReduce (g : Fin 8) (ring : Option (Fin 32768)) (p : Probe)
  /-- Service record: computes statistics of a field over ring entries (R485). -/
  | svStats (g : Fin 8) (ring : Option (Fin 32768)) (p : Probe)
  /-- Service record: builds a histogram of a field and posts it (R485). -/
  | svHistogram (g : Fin 8) (ring : Option (Fin 32768)) (p : Probe)
  /-- Service record: checks a field against low and high limits (R485). -/
  | svLimits (g : Fin 8) (ring : Option (Fin 32768)) (p : Probe)
  /-- Service record: bins sites from their FINAL results by a rule table (R485). -/
  | svBin (g : Fin 8) (ring : Option (Fin 32768)) (p : Probe)
  /-- Service record: writes a mask of the sites in one bin (R485). -/
  | svBinMap (g : Fin 8) (ring : Option (Fin 32768)) (p : Probe)
  /-- Service record: summarises site results into the hayloft (R485). -/
  | svSiteSummary (g : Fin 8) (ring : Option (Fin 32768)) (p : Probe)
  /-- Service record: combines two site masks logically (R485). -/
  | svMerge (g : Fin 8) (ring : Option (Fin 32768)) (p : Probe)
  /-- Service record: finds outliers of a field beyond k SD (R485). -/
  | svOutlier (g : Fin 8) (ring : Option (Fin 32768)) (p : Probe)
  /-- Service record: counts capture records per site (R485). -/
  | svCapScan (g : Fin 8) (ring : Option (Fin 32768)) (p : Probe)
  /-- Service record: builds a fail bitmap of one site (R485). -/
  | svBitmap (g : Fin 8) (ring : Option (Fin 32768)) (p : Probe)
  /-- Service record: allocates spare rows and columns to each failing site from the capture buffer (R505). -/
  | svRepair (g : Fin 8) (ring : Option (Fin 32768)) (p : Probe)
  /-- Service record: checks repair blocks against the captured cells (R485). -/
  | svRepairVerify (g : Fin 8) (ring : Option (Fin 32768)) (p : Probe)
  /-- Service record: writes a die map of bins (R485). -/
  | svWaferMap (g : Fin 8) (ring : Option (Fin 32768)) (p : Probe)
  /-- Service record: computes yield from FINAL site results (R485). -/
  | svYield (g : Fin 8) (ring : Option (Fin 32768)) (p : Probe)
  /-- Service record: sorts entry indices by a field (R485). -/
  | svSort (g : Fin 8) (ring : Option (Fin 32768)) (p : Probe)
  /-- Service record: counts failing sites and fails of a sequencer (R485). -/
  | svFailCount (g : Fin 8) (ring : Option (Fin 32768)) (p : Probe)
  /-- Service record: starts a farrier run and waits for its result (R483). -/
  | svCalItem (g : Fin 8) (ring : Option (Fin 32768)) (p : Probe)
  /-- Service record: stores the active tack-room bank to flash (R485). -/
  | svCalStore (g : Fin 8) (ring : Option (Fin 32768)) (p : Probe)
  /-- Service record: writes all switch wear counters to the hayloft (R485). -/
  | svWearReport (g : Fin 8) (ring : Option (Fin 32768)) (p : Probe)
  /-- Service record: writes all weathervane readings to the hayloft (R485). -/
  | svTempReport (g : Fin 8) (ring : Option (Fin 32768)) (p : Probe)
  /-- Service record: writes the logbook slots to the hayloft (R485). -/
  | svLogRead (g : Fin 8) (ring : Option (Fin 32768)) (p : Probe)
  /-- Service record: runs groom self-tests (R485). -/
  | svSelftest (g : Fin 8) (ring : Option (Fin 32768)) (p : Probe)
  /-- Service record: scrubs a hayloft range for ECC errors (R485). -/
  | svHbmScrub (g : Fin 8) (ring : Option (Fin 32768)) (p : Probe)
  /-- Service record: computes the CRC of the micro-ROM and counts its errors (R485). -/
  | svRomCheck (g : Fin 8) (ring : Option (Fin 32768)) (p : Probe)
  /-- Service record: runs a list of records in order (R485). -/
  | svChain (g : Fin 8) (ring : Option (Fin 32768)) (p : Probe)
  /-- Service record: completes when every earlier record of the owner has completed (R485). -/
  | svBarrier (g : Fin 8) (ring : Option (Fin 32768)) (p : Probe)
  /-- Service record: runs records if an earlier record ended with a given status (R485). -/
  | svIfStatus (g : Fin 8) (ring : Option (Fin 32768)) (p : Probe)
  /-- Service record: posts a signal entry to a ring (R485). -/
  | svSignal (g : Fin 8) (ring : Option (Fin 32768)) (p : Probe)
  /-- Service record: posts a timer entry after a delay (R485). -/
  | svTimer (g : Fin 8) (ring : Option (Fin 32768)) (p : Probe)
  /-- Service record: adds to one of the owner's counters (R485). -/
  | svCounter (g : Fin 8) (ring : Option (Fin 32768)) (p : Probe)
  /-- Service record: posts a mark entry before its result (R485). -/
  | svMark (g : Fin 8) (ring : Option (Fin 32768)) (p : Probe)
  /-- Service record: waits for capture flush and for pending ring entries (R485). -/
  | svFlush (g : Fin 8) (ring : Option (Fin 32768)) (p : Probe)
  /-- Service record: runs an operation SV_PATCH_0 to SV_PATCH_15 supplied by the patch image (R502). -/
  | svPatch (g : Fin 8) (ring : Option (Fin 32768)) (p : Probe)
  /-- A CANCEL record removes or aborts the owner's records that carry its TAG (R494). -/
  | cancelRecord (g : Fin 8) (ring : Option (Fin 32768))
  /-- Microword: an ALU operation on working registers that sets the flags (R498). -/
  | alu (g : Fin 8) (fetch : Ecc)
  /-- Microword: loads an immediate (R498). -/
  | ldi (g : Fin 8) (fetch : Ecc)
  /-- Microword: loads a register, returning a staged value if one is held (R491). -/
  | ld (g : Fin 8) (fetch : Ecc)
  /-- Microword: stages a register store (R491). -/
  | st (g : Fin 8) (fetch : Ecc)
  /-- Microword: loads a hayloft word (R498). -/
  | hld (g : Fin 8) (fetch : Ecc) (ecc : Ecc)
  /-- Microword: stores a hayloft word at once (R492). -/
  | hst (g : Fin 8) (fetch : Ecc) (ecc : Ecc)
  /-- Microword: sets an address register (R498). -/
  | seta (g : Fin 8) (fetch : Ecc)
  /-- Microword: a conditional branch (R498). -/
  | br (g : Fin 8) (fetch : Ecc)
  /-- Microword: calls a subroutine on the micro-stack (R499). -/
  | microCall (g : Fin 8) (fetch : Ecc)
  /-- Microword: returns from a subroutine (R499). -/
  | microRet (g : Fin 8) (fetch : Ecc)
  /-- Microword: a yield point, at which staged stores commit and preemption or abort may act (R489). -/
  | yield (g : Fin 8) (fetch : Ecc)
  /-- Microword: ends the routine with a status and posts the journal and the result (R481). -/
  | microEnd (g : Fin 8) (fetch : Ecc)
  /-- Microword: posts an entry to RRING (R498). -/
  | microPost (g : Fin 8) (fetch : Ecc)
  /-- Microword: reads the timing-base tick (R498). -/
  | microTick (g : Fin 8) (fetch : Ecc)
  /-- Microword: yields and suspends the routine for a time (R498). -/
  | sleep (g : Fin 8) (fetch : Ecc)
  /-- The sleep time of a routine has elapsed and it resumes (R498). -/
  | sleepEnd (g : Fin 8)
  /-- The staged stores of a yield point have been committed and the groom resumes, sleeps, switches or journals (R491). -/
  | commitDone (g : Fin 8)
  /-- A preempted context is restored on its groom (R490). -/
  | contextResume (g : Fin 8) (k : Fin 4)
  /-- A routine runs 2 × YB + 10 µs without a yield point and the groom takes a watchdog reset (R497). -/
  | groomWatchdog (g : Fin 8)
  /-- A write of GRM_CTRL.EN brings a groom online, or takes it offline once its routines complete (R508). -/
  | groomEnable (r : Requester) (g : Fin 8) (en : Bool)
  /-- RNG_ASG_CMD.GO assigns a range of rings to an owner, subject to checks (R513). -/
  | ringAssign (r : Requester) (owner : Fin 16)
  /-- A write of RNG_CTRL.EN = 1 checks the ring's storage and enables it with its indices zeroed (R517). -/
  | ringEnable (r : Requester) (n : Fin 32768)
  /-- A write of EN = 0 disables the ring at once, dropping any held entry (R518). -/
  | ringDisable (r : Requester) (n : Fin 32768)
  /-- A doorbell write advances CIDX of an OUT ring or PIDX of an IN ring (R526). -/
  | doorbell (f : Fin 18) (n : Fin 32768) (v : Option Word) (aligned : Bool)
  /-- A producer waiting under BACKP has its entry accepted once the ring has room (R525). -/
  | backpAccept (n : Fin 32768)
  /-- TIMER µs have passed since the first unsignalled entry and the ring sends its MSI-X message (R528). -/
  | ringTimer (n : Fin 32768)
  /-- HBM_CTRL.REMAP applies HBM_XMAP, subject to checks (R534). -/
  | remap (r : Requester)
  /-- The remap completes and REMAP reads 0 (R534). -/
  | remapDone
  /-- A write of HBM_RATE_CMD requests a data-rate point, which is switched to, held or refused (R547). -/
  | rateRequest (r : Requester) (p : Fin 4)
  /-- A held rate request starts after the current training or tracking step (R548). -/
  | heldRateStart
  /-- The pause ends with the point switched, or returned after TRAIN_FAIL, and the result is stored (R547). -/
  | rateSwitchDone
  /-- A refresh falls due on a pseudo-channel and is issued or postponed under the debt rules (R540). -/
  | refreshDue (pc : Fin 32) (c : RefreshCase)
  /-- Every 100 ms a tracking step runs on each pseudo-channel inside a refresh (R546). -/
  | trackingStep (on : Bool)
  /-- Every 1 ms HBM_TEMP is updated from the stack sensor, setting or clearing HOT (R558). -/
  | hbmTempUpdate (t : BitVec 16)
  /-- HBM_REPAIR_CMD.GO starts a soft post-package repair of a logged row, subject to checks (R555). -/
  | rowRepair (r : Requester) (idx : Fin 16)
  /-- The row repair completes and its result is stored (R555). -/
  | rowRepairDone
  /-- A write of PEN_RGN_CFG applies a hayloft region entry, subject to checks (R591). -/
  | regionWrite (r : Requester) (v : Word)
  /-- PEN_RST applies a pen reset to the pen's pages, stalls, sequencers, rings, records and keys (R625). -/
  | penReset (r : Requester) (pens : BitVec 8)
  /-- The pen reset completes and RESETTING clears (R577). -/
  | penResetDone (p : Fin 8)
  /-- GTH_SVN_CMD requests an advance of the anti-rollback counter (R588). -/
  | svnAdvance (r : Requester) (target : BitVec 7) (confirm : BitVec 8)
  /-- The OTP bits are programmed and GTH_SVN_RESULT is stored (R588). -/
  | svnAdvanceDone (ok : Bool)
  /-- GTH_DBG_CMD.NONCE generates a fresh debug nonce (R598). -/
  | debugNonce (r : Requester)
  /-- GTH_DBG_CMD.SUBMIT starts the check of the unlock record (R598). -/
  | debugSubmit (r : Requester)
  /-- The unlock record is accepted, which resets the pens, replaces the keys and opens the paths, or it is rejected (R598). -/
  | debugResult (otpOk : Bool)
  /-- An enabled tamper detector fires: every key is replaced and the device enters M11 (R600). -/
  | tamperEvent (src : Fin 5)
  /-- Halter slave frame: shifts out read-buffer entries (R607). -/
  | rd (idx : Fin 64) (n : Fin 65)
  /-- Halter slave frame: stages words to be written through the window (R612). -/
  | wr (idx : Fin 64) (ws : List Word)
  /-- Halter slave frame: requests reads of window registers into the read buffer (R611). -/
  | fetch (idx : Fin 64) (n : Fin 65)
  /-- Halter slave frame: sets the 256-byte window (R610). -/
  | win (idx : Fin 64) (ws : List Word)
  /-- A malformed or busy-time frame is rejected whole and counted (R608). -/
  | frameReject (count : Bool)
  /-- The staged words of a WR frame have been committed after HS_CS_N rose (R612). -/
  | wrCommitComplete
  /-- The reads of a FETCH frame complete and FSEQ advances (R613). -/
  | fetchComplete
  /-- HAL_MCTRL.GO starts a master transfer on a select output, subject to checks (R616). -/
  | masterTransfer (r : Requester) (v : Word)
  /-- The master transfer ends and HAL_MRESULT is stored (R616). -/
  | masterTransferDone (rx : List Word)
  /-- HS_CS_N falls during a master transfer, which stops with CONFLICT (R618). -/
  | multiMasterFault (n : Fin 4097) (rx : List Word)
  /-- Each 1 ms slot reads one sensor or supply, cross-checks it and judges warning, critical and supply limits (R641). -/
  | wvnSlot (v : BitVec 16)
  /-- The grace timer expires in WARN: ENFORCE holds sequencers and caps PMU limits (R648). -/
  | thermEnforce
  /-- A sequencer that reaches no segment boundary within 10 ms holds at its next vector boundary (R649). -/
  | forcedHold (q : Fin 8)
  /-- Loss of REFCLK, a PLL or the chore oscillator is detected; channels are parked and the part enters M11 (R666). -/
  | clockLoss (c : ClockLoss)
  /-- A queued logbook entry is written to the next slot (R660). -/
  | logEntryWrite (t : BitVec 40)
  /-- After M11 entry the queued entries and one M11_ENTRY entry are written and the logbook freezes (R662). -/
  | logFreeze (t : BitVec 40)
  /-- TICK bits [23:0] of the lantern tick wrap and a TICK_MARK entry is written (R658). -/
  | tickMark
  /-- The lantern oscillator has stopped for 10 ms and OSC_FAIL is set (R672). -/
  | oscFail
  /-- LOG_CTRL.THAW in M4 unfreezes the logbook and writes THAWED (R673). -/
  | thaw (r : Requester)
  /-- LOG_CTRL.CLEAR empties every slot and writes LOG_CLEARED (R673). -/
  | clear (r : Requester)
  /-- A write of LOG_MARK writes a HOST_MARK entry (R673). -/
  | hostMark (r : Requester) (data : BitVec 16)
  /-- A boundary-scan test instruction acts only while every channel is parked, or in M2 and M3, and otherwise loads BYPASS (R704). -/
  | extest (t : TapInstr)
  /-- The 150 ms of M3 expire without DL_Up on a port: for port A the device stays in M3, for port B in split mode the device enters M4 with DL_UP = 0 and the port keeps training (R567). -/
  | linkTrainingTimeout (k : Fin 2)
  /-- A groom takes a service record whose OP lies above 0x5F and posts a result with STATUS BAD_OP (R479). -/
  | badOp (g : Fin 8) (ring : Option (Fin 32768))
  /-- The groom cluster takes an IN-ring entry whose TYPE is not SVC_REC, or that reads with an uncorrectable error, skips it, advances CIDX and increments BADENT (R527). -/
  | badent (n : Fin 32768) (ecc : Ecc)
  /-- A groom's result or journal entry held under back-pressure is dropped after 100 µs and GRM_LOST is incremented (R496). -/
  | backpDrop (g : Fin 8)
  /-- Every 1 ms the cluster updates GRM_USED from each owner's use of groom time over the last 10 ms, which the scheduler of R488 reads (R510). -/
  | grmUsedUpdate (used : List (Fin 101))
  deriving DecidableEq, Repr

end Sys2Proof
end

