-- ==== Sys2Proof/Decode.lean ====
section
/-!
DEFINITION. Decoding of table words. The rows of this block's opcode table give no bits: a command comes with its
operands, no word spells it. So no word decodes to a command, and no encoder is asked of it.
-/

namespace Sys2Proof

/-- The command that a word of `nbits` bits spells by the table's bits: none, since no row gives bits. -/
def decodeTableWord (_nbits _w : Nat) : Option Instr := none

end Sys2Proof
end

