-- ==== Sys2Proof/Config.lean ====
section
/-!
DEFINITION. What the part leaves to its implementation, and the free values: constants with no body, so that no proof
can see which value the hardware gives. Each is applied to the model's own counter `State.free` (advanced whenever a
free value is used) or to the operands that it depends on. Assumption 3 lists every use.
-/

namespace Sys2Proof.Config

/-- A byte of hayloft storage whose contents the manual does not define: never written (R712), written under another
key (R593), or lost. First argument: the model's counter; second: the address. -/
opaque freeByte : Nat → Nat → Byte

/-- A 32-bit value that the manual leaves undefined, one for each value of the model's counter. -/
opaque freeWord : Nat → Word

/-- A yes or no that the manual leaves undefined, one for each value of the model's counter. -/
opaque freeBool : Nat → Bool

/-- A natural number that the manual leaves undefined, one for each value of the model's counter. -/
opaque freeNat : Nat → Nat

/-- Whether a mean of whole numbers that is not whole is rounded up (first argument the sum, second the count). -/
opaque roundsUp : Int → Nat → Bool

/-- Whether a reading in mV of a supply channel whose operating range the manual does not give is out of range. -/
opaque railOut : Nat → Int → Bool

/-- The micro-ROM, whose contents the manual does not publish: the microword at a ROM address (R498). -/
opaque romWord : Nat → BitVec 24

/-- The microaddress at which the ROM routine of each operation starts (R500). -/
opaque romDispatch : Nat → Nat

/-- The open-needle round trip of a channel, in 2⁻⁸ stamp units, sealed in the tack room (R486): with the coefficients
of a given identity (first argument), by channel. -/
opaque openTrip : Nat → Nat → Nat

/-- The same in the sealed image that the gatehouse loaded, by its identity and by channel; none without a DESKEW pass. -/
opaque sealedTrip : Nat → Nat → Option Nat

/-- The drive delay of a channel in 250 fs units (R148), with the deskew coefficients of a given identity (first argument),
by channel and slew code; no more than 6 ns of it is used (R150). -/
opaque driveDelay : Nat → Nat → Nat → Nat

/-- The compare delay of a channel in the same way (R148). -/
opaque compareDelay : Nat → Nat → Nat

/-- The part of the fixed pipeline latency of the edge generators that exceeds 6 ns, in 250 fs units (R148). -/
opaque pipeDelay : Nat

/-- The applied DAC code of a level (R96): with the correction curve of a given identity (first argument), by channel,
level index and target code. -/
opaque levelCode : Nat → Nat → Nat → Nat → Nat

/-- The applied DAC code of a PMU's force code (R336): with the force curve of a given identity (first argument), by unit, range,
mode (true: FI) and force code. -/
opaque forceCode : Nat → Nat → Nat → Bool → Nat → Nat

/-- How many ECDSA P-384 signatures of a message verify under Ovtarel's public key, and byte `i` of the `k`-th of them (R583,
R597). -/
opaque signatures : List Byte → Nat
opaque signature : List Byte → Nat → Nat → Byte

/-- Byte `i` of the SHA-384 digest of a message (R583). -/
opaque sha384 : List Byte → Nat → Byte

/-- AES-256-GCM under Ovtarel's class key, with the nonce, the additional authenticated data and the stored payload: byte `i` of
the decrypted payload and of the tag (R583). -/
opaque gcmPlain : List Byte → List Byte → List Byte → Nat → Byte
opaque gcmTag : List Byte → List Byte → List Byte → Nat → Byte

/-- Byte `i` of the HMAC-SHA-384 tag of header and body of a tack-room image, under the seal key of the part of a serial (R594). -/
opaque sealTag : Nat → List Byte → Nat → Byte

/-- The body of the tack-room image that seals a bank, whose layout is not published (R594): from the identity of what is behind
the bank, the identities of the instances measured since, and the DRIVE point trims. -/
opaque sealBody : Nat → List (Nat × Nat) → List (Nat × (Nat × List Nat)) → List Byte

end Sys2Proof.Config
end

