-- ==== Sys2Proof/Machine/Bits.lean ====
section
/-!
DEFINITION. Bit fields of 32-bit registers, and the packing of fields into ring entries.
-/

namespace Sys2Proof.Machine

/-- The field of `n` bits at bit `lo` of a register, as a number. -/
def fld (w : Word) (lo n : Nat) : Nat := w.toNat / 2 ^ lo % 2 ^ n

/-- Bit `i` of a register. -/
def tbit (w : Word) (i : Nat) : Bool := w.toNat.testBit i

/-- The register with the field of `n` bits at `lo` replaced by the low `n` bits of `v`. -/
def putFld (w : Word) (lo n v : Nat) : Word :=
  BitVec.ofNat 32 (w.toNat - fld w lo n * 2 ^ lo + v % 2 ^ n * 2 ^ lo)

/-- The register with bit `i` set to `b`. -/
def putBit (w : Word) (i : Nat) (b : Bool) : Word := putFld w i 1 (bit b)

/-- A 32-bit word from a number. -/
def word (v : Nat) : Word := BitVec.ofNat 32 v

/-- Bits `[32*i+31 : 32*i]` of a wide number. -/
def wordOf (v i : Nat) : Word := BitVec.ofNat 32 (v / 2 ^ (32 * i))

/-- A number laid out from (bit position, width, value) fields. -/
def pack (fs : List (Nat × Nat × Nat)) : Nat :=
  match fs with
  | [] => 0
  | (p, n, v) :: t => v % 2 ^ n * 2 ^ p + pack t

/-- A number laid out from (byte position, byte count, value) fields. -/
def packBytes (fs : List (Nat × Nat × Nat)) : Nat :=
  match fs with
  | [] => 0
  | (p, n, v) :: t => v % 2 ^ (8 * n) * 2 ^ (8 * p) + packBytes t

/-- Bits `[lo + n - 1 : lo]` of a number. -/
def nfld (v lo n : Nat) : Nat := v / 2 ^ lo % 2 ^ n

/-- `n` bytes of a number, least significant first (R8). -/
def bytesOf (n v : Nat) : List Byte :=
  match n with
  | 0 => []
  | n + 1 => BitVec.ofNat 8 v :: bytesOf n (v / 256)

/-- The number whose little-endian bytes are given (R8). -/
def ofBytes (bs : List Byte) : Nat :=
  match bs with
  | [] => 0
  | b :: t => b.toNat + 256 * ofBytes t

/-- The numbers `0` to `n - 1`. -/
def upto (n : Nat) : List Nat := List.range n

/-- The positions of the ones among the low `n` bits of `m`, rising. -/
def onesOf (m n : Nat) : List Nat := (List.range n).filter fun i => m.testBit i

/-- The mask with bit `i` set where `p i`, for `i < n`. -/
def maskOf (n : Nat) (p : Nat → Bool) : Nat :=
  (List.range n).foldl (fun m i => if p i then m + 2 ^ i else m) 0

/-- The number of ones among the low `n` bits of `m`. -/
def popCount (m n : Nat) : Nat := (onesOf m n).length

end Sys2Proof.Machine
end

