-- ==== Sys2Proof/Machine/Store.lean ====
section
/-!
DEFINITION. The one representation of every sparse store of the model (registers, hayloft bytes, per-instance
engine state): a list of key and value pairs in canonical form, keys strictly rising.

`get?`, `put` and `drop` are the plain store. `getD` and `setD` are the store with a default: a key that is not
listed reads as the default, and writing the default removes the entry, so that equal contents are equal lists.
-/

namespace Sys2Proof.Machine.Store

variable {α : Type}

/-- The value listed under `k`, if any. -/
def get? (m : List (Nat × α)) (k : Nat) : Option α :=
  match m with
  | [] => none
  | (k', v) :: t => if k = k' then some v else get? t k

/-- Remove every entry of `k`. -/
def drop (m : List (Nat × α)) (k : Nat) : List (Nat × α) :=
  match m with
  | [] => []
  | (k', v) :: t => if k = k' then drop t k else (k', v) :: drop t k

/-- Insert before the first larger key. -/
def insert (m : List (Nat × α)) (k : Nat) (v : α) : List (Nat × α) :=
  match m with
  | [] => [(k, v)]
  | (k', v') :: t => if k < k' then (k, v) :: (k', v') :: t else (k', v') :: insert t k v

/-- List `v` under `k`, replacing what was there. -/
def put (m : List (Nat × α)) (k : Nat) (v : α) : List (Nat × α) := insert (drop m k) k v

/-- The value under `k`, or the default of `k`. -/
def getD (d : Nat → α) (m : List (Nat × α)) (k : Nat) : α := (get? m k).getD (d k)

/-- Write `v` under `k`; writing the default removes the entry. -/
def setD [DecidableEq α] (d : Nat → α) (m : List (Nat × α)) (k : Nat) (v : α) : List (Nat × α) :=
  if v = d k then drop m k else put m k v

/-- Every key of the list is above `k`. -/
def above (k : Nat) (m : List (Nat × α)) : Bool := m.all fun e => decide (k < e.1)

/-- The keys rise strictly. -/
def sorted (m : List (Nat × α)) : Bool :=
  match m with
  | [] => true
  | (k, _) :: t => above k t && sorted t

/-- No entry equals the default of its key. -/
def noDefault [DecidableEq α] (d : Nat → α) (m : List (Nat × α)) : Bool :=
  m.all fun e => decide (e.2 ≠ d e.1)

/-- The canonical form of a store with default `d`. -/
def wf [DecidableEq α] (d : Nat → α) (m : List (Nat × α)) : Bool := sorted m && noDefault d m

/-- Keep the entries whose key satisfies `p`. -/
def keep (p : Nat → Bool) (m : List (Nat × α)) : List (Nat × α) :=
  match m with
  | [] => []
  | (k, v) :: t => if p k then (k, v) :: keep p t else keep p t

end Sys2Proof.Machine.Store
end

