-- ==== Sys2Proof/Machine/Pages.lean ====
section
/-!
DEFINITION. The register pages of BAR0: their kinds, type codes and placement (R33, R66, R67), and the registers of
each kind with their offsets, access classes, field masks and reset values, as the page-map and field tables of the
manual give them.

The manual lists the yard pages' addresses only in the page directory; their placement here is a DESIGN CHOICE
(assumption 1). Everything else is the manual's.
-/

namespace Sys2Proof.Machine

/-- The kinds of 4 KiB register page. `mod0` is MOD_0, `modp` is MOD_1 to MOD_9, `tset` and `site` are the timing and
site pages of a sequencer, `grm` the groom cluster page and `groom` the page of one groom. -/
inductive PageKind where
  | dir | mod0 | modp | pen | gth | hlk | hal | rst | wvn | log | lan | hbm | rng | cat | far | tak | yrd | grm | groom | seq | apg | tset | site | brn | tmb | acq | wch | stl | lvl | drv | cmp | swm | tim | pmu | cnv
  deriving DecidableEq, Repr

/-- PG_ID.TYPE (R66). -/
def PageKind.typeCode : PageKind → Nat
  | .dir => 1
  | .mod0 => 3
  | .modp => 3
  | .pen => 4
  | .gth => 5
  | .hlk => 6
  | .hal => 7
  | .rst => 8
  | .wvn => 9
  | .log => 0xA
  | .lan => 0xB
  | .hbm => 0xC
  | .rng => 0xD
  | .cat => 0xE
  | .far => 0xF
  | .tak => 0x10
  | .yrd => 2
  | .grm => 0x11
  | .groom => 0x11
  | .seq => 0x18
  | .apg => 0x19
  | .tset => 0x18
  | .site => 0x18
  | .brn => 0x20
  | .tmb => 0x21
  | .acq => 0x22
  | .wch => 0x23
  | .stl => 0x28
  | .lvl => 0x29
  | .drv => 0x2A
  | .cmp => 0x2B
  | .swm => 0x2C
  | .tim => 0x2D
  | .pmu => 0x2E
  | .cnv => 0x2F

/-- PG_CAPS of each page (the chapters' own values). Where the manual states none it reads 0 (assumption 2). -/
def PageKind.caps : PageKind → Nat
  | .dir => 0
  | .mod0 => 0
  | .modp => 0
  | .pen => 0
  | .gth => 0
  | .hlk => 0x1208
  | .hal => 0x104
  | .rst => 0xC0A
  | .wvn => 0x1848
  | .log => 0
  | .lan => 0
  | .hbm => 0x32018
  | .rng => 0
  | .cat => 0
  | .far => 0
  | .tak => 0
  | .yrd => 0
  | .grm => 0x600408
  | .groom => 0
  | .seq => 0x82040
  | .apg => 0x20081414
  | .tset => 0
  | .site => 0
  | .brn => 0
  | .tmb => 0
  | .acq => 0x100040
  | .wch => 0x110
  | .stl => 0x10
  | .lvl => 0x710
  | .drv => 0x10
  | .cmp => 0x10
  | .swm => 0x3010
  | .tim => 0x400110
  | .pmu => 0x1604
  | .cnv => 0x1804

/-- How many instances of each kind there are (R67). -/
def PageKind.count : PageKind → Nat
  | .dir => 1
  | .mod0 => 1
  | .modp => 9
  | .pen => 1
  | .gth => 1
  | .hlk => 1
  | .hal => 1
  | .rst => 1
  | .wvn => 1
  | .log => 1
  | .lan => 1
  | .hbm => 1
  | .rng => 1
  | .cat => 1
  | .far => 1
  | .tak => 1
  | .yrd => 1
  | .grm => 1
  | .groom => 8
  | .seq => 8
  | .apg => 8
  | .tset => 8
  | .site => 8
  | .brn => 8
  | .tmb => 8
  | .acq => 8
  | .wch => 128
  | .stl => 128
  | .lvl => 128
  | .drv => 128
  | .cmp => 128
  | .swm => 128
  | .tim => 128
  | .pmu => 128
  | .cnv => 128

/-- BAR0 offset of page instance `i` (R33, R67; yard pages: assumption 1). -/
def PageKind.base (k : PageKind) (i : Nat) : Nat :=
  match k with
  | .dir => 0
  | .mod0 => 0x1000
  | .modp => 0x2000 + i * 0x1000
  | .pen => 0xB000
  | .gth => 0xC000
  | .hlk => 0xD000
  | .hal => 0xE000
  | .rst => 0xF000
  | .wvn => 0x10000
  | .log => 0x11000
  | .lan => 0x12000
  | .hbm => 0x13000
  | .rng => 0x14000
  | .cat => 0x15000
  | .far => 0x16000
  | .tak => 0x17000
  | .yrd => 0x18000
  | .grm => 0x800000
  | .groom => 0x801000 + i * 0x1000
  | .seq => 0x100000 + i * 0x20000
  | .apg => 0x101000 + i * 0x20000
  | .tset => 0x102000 + i * 0x20000
  | .site => 0x103000 + i * 0x20000
  | .brn => 0x200000 + i * 0x40000
  | .tmb => 0x201000 + i * 0x40000
  | .acq => 0x202000 + i * 0x40000
  | .wch => 0x210000 + i / 16 * 0x40000 + i % 16 * 0x1000
  | .stl => 0x400000 + i * 0x8000
  | .lvl => 0x401000 + i * 0x8000
  | .drv => 0x402000 + i * 0x8000
  | .cmp => 0x403000 + i * 0x8000
  | .swm => 0x404000 + i * 0x8000
  | .tim => 0x405000 + i * 0x8000
  | .pmu => 0x406000 + i * 0x8000
  | .cnv => 0x407000 + i * 0x8000

/-- PG_ID.INSTANCE (R60): the instance number, k for page MOD_k, 8 for the groom cluster page. -/
def PageKind.instanceField (k : PageKind) (i : Nat) : Nat :=
  match k with
  | .modp => 1 + i
  | .grm => 8
  | _ => i

/-- One page: a kind and an instance. -/
structure PageRef where
  kind : PageKind
  inst : Nat
  deriving DecidableEq, Repr

/-- The yard page at page number `n` of the yard region (assumption 1). -/
def yardPage (n : Nat) : Option PageRef :=
  match n with
  | 0 => some ⟨.dir, 0⟩
  | 1 => some ⟨.mod0, 0⟩
  | 11 => some ⟨.pen, 0⟩
  | 12 => some ⟨.gth, 0⟩
  | 13 => some ⟨.hlk, 0⟩
  | 14 => some ⟨.hal, 0⟩
  | 15 => some ⟨.rst, 0⟩
  | 16 => some ⟨.wvn, 0⟩
  | 17 => some ⟨.log, 0⟩
  | 18 => some ⟨.lan, 0⟩
  | 19 => some ⟨.hbm, 0⟩
  | 20 => some ⟨.rng, 0⟩
  | 21 => some ⟨.cat, 0⟩
  | 22 => some ⟨.far, 0⟩
  | 23 => some ⟨.tak, 0⟩
  | 24 => some ⟨.yrd, 0⟩
  | n => if 2 ≤ n ∧ n ≤ 10 then some ⟨.modp, n - 2⟩ else none

/-- The stall page kinds in the order of R67. -/
def stallKind : Nat → PageKind
  | 0 => .stl | 1 => .lvl | 2 => .drv | 3 => .cmp | 4 => .swm | 5 => .tim | 6 => .pmu | _ => .cnv

/-- The page that holds BAR0 offset `a`, if one is present there (R33, R67). -/
def pageAt (a : Nat) : Option PageRef :=
  let n := a / 0x1000
  if a < 0x100000 then yardPage n
  else if a < 0x200000 then
    let q := (a - 0x100000) / 0x20000
    match (a - 0x100000) % 0x20000 / 0x1000 with
    | 0 => some ⟨.seq, q⟩
    | 1 => some ⟨.apg, q⟩
    | 2 => some ⟨.tset, q⟩
    | 3 => some ⟨.site, q⟩
    | _ => none
  else if a < 0x400000 then
    let b := (a - 0x200000) / 0x40000
    let k := (a - 0x200000) % 0x40000 / 0x1000
    if k = 0 then some ⟨.brn, b⟩ else if k = 1 then some ⟨.tmb, b⟩ else if k = 2 then some ⟨.acq, b⟩
    else if 16 ≤ k ∧ k < 32 then some ⟨.wch, 16 * b + (k - 16)⟩ else none
  else if a < 0x800000 then some ⟨stallKind ((a - 0x400000) % 0x8000 / 0x1000), (a - 0x400000) / 0x8000⟩
  else if a < 0x1000000 then
    if n = 0x800 then some ⟨.grm, 0⟩ else if 0x801 ≤ n ∧ n ≤ 0x808 then some ⟨.groom, n - 0x801⟩ else none
  else none

/-- One row of a page map: `n1 × n2` registers at `off + s1 * i + s2 * j`; their reset value is `reset + step * i`; `ro`
says that no write changes them (RO and RS). `rw`, `w1c`, `cmd` (W1S and WO) and `sup` (supervisor only) mask the fields
of each access class. -/
structure RegRow where
  off : Nat
  s1 : Nat
  n1 : Nat
  s2 : Nat
  n2 : Nat
  reset : Nat
  step : Nat
  ro : Bool
  rw : Nat
  w1c : Nat
  cmd : Nat
  sup : Nat
  deriving DecidableEq, Repr

/-- Index of offset `o` along a dimension of stride `s` and count `n`, if it falls on one. -/
def dimIndex (o s n : Nat) : Option (Nat × Nat) :=
  if s = 0 then some (0, o) else if o / s < n then some (o / s, o % s) else none

/-- The two indices at which offset `o` falls into the row, if it does. -/
def RegRow.indexOf (r : RegRow) (o : Nat) : Option (Nat × Nat) :=
  if o < r.off then none
  else
    match dimIndex (o - r.off) r.s1 r.n1 with
    | none => none
    | some (i, rest) =>
      match dimIndex rest r.s2 r.n2 with
      | some (j, 0) => some (i, j)
      | _ => none

/-- Registers of the common page header (R59, R60). PG_ID, PG_CAPS and PG_STAT are computed views. -/
def rowsHeader : List RegRow :=
  [
    ⟨0, 0, 1, 0, 1, 0, 0, true, 0, 0, 0, 0⟩,  -- PG_ID
    ⟨4, 0, 1, 0, 1, 0, 0, true, 0, 0, 0, 0⟩,  -- PG_CAPS
    ⟨8, 0, 1, 0, 1, 0, 0, false, 1, 0, 2, 0⟩,  -- PG_CTRL
    ⟨0xC, 0, 1, 0, 1, 0, 0, true, 0, 0, 0, 0⟩,  -- PG_STAT
    ⟨0x10, 0, 1, 0, 1, 0, 0, false, 0, 0xFFFFFFFF, 0, 0⟩,  -- PG_EVT
    ⟨0x14, 0, 1, 0, 1, 0, 0, false, 0xFFFFFFFF, 0, 0, 0⟩,  -- PG_EVT_EN
    ⟨0x18, 0, 1, 0, 1, 0, 0, false, 0, 0xFFFFFFFF, 0, 0⟩,  -- PG_ERR
    ⟨0x1C, 0, 1, 0, 1, 0, 0, true, 0, 0, 0, 0⟩,  -- PG_ERR_CNT
    ⟨0x20, 0, 1, 0, 1, 0xF, 0, false, 0xF, 0, 0, 0xF⟩,  -- PG_OWNER
    ⟨0x24, 0, 1, 0, 1, 0, 0, false, 3, 0, 0, 2⟩  -- PG_LOCK
  ]

/-- Registers of the DIR page at offsets 0x040 and above (R71). -/
def rowsDir : List RegRow :=
  [
    ⟨0x40, 0, 1, 0, 1, 0x122048, 0, true, 0, 0, 0, 0⟩,  -- DIR_PART
    ⟨0x44, 0, 1, 0, 1, 0, 0, true, 0, 0, 0, 0⟩,  -- DIR_NPAGES
    ⟨0x48, 0, 1, 0, 1, 0, 0, false, 0xFFF, 0, 0, 0⟩,  -- DIR_IDX
    ⟨0x4C, 0, 1, 0, 1, 0, 0, true, 0, 0, 0, 0⟩,  -- DIR_ENT_LO
    ⟨0x50, 0, 1, 0, 1, 0, 0, true, 0, 0, 0, 0⟩  -- DIR_ENT_HI
  ]

/-- Registers of the MOD0 page at offsets 0x040 and above (R55). -/
def rowsMod0 : List RegRow :=
  [
    ⟨0x40, 0, 1, 0, 1, 2, 0, true, 0, 0, 0, 0⟩,  -- MOD_DEV
    ⟨0x44, 0, 1, 0, 1, 0, 0, true, 0, 0, 0, 0⟩,  -- MOD_SET
    ⟨0x48, 0, 1, 0, 1, 0, 0, false, 0, 0, 0xFF0F, 0xFF0F⟩,  -- MOD_CMD
    ⟨0x4C, 0, 1, 0, 1, 0, 0, true, 0, 0, 0, 0⟩,  -- MOD_RESULT
    ⟨0x50, 0, 1, 0, 1, 0x22222222, 0, true, 0, 0, 0, 0⟩,  -- MOD_DOM
    ⟨0x54, 0, 1, 0, 1, 2, 0, true, 0, 0, 0, 0⟩,  -- MOD_DOM_SUP
    ⟨0x58, 0, 1, 0, 1, 1, 0, false, 0x1F1E, 0, 0, 0⟩,  -- MOD_WAKE_EN
    ⟨0x5C, 0, 1, 0, 1, 0, 0, false, 0, 0xF0F, 0, 0⟩,  -- MOD_WAKE_SRC
    ⟨0x60, 0, 1, 0, 1, 0, 0, true, 0, 0, 0, 0⟩  -- MOD_M11_CAUSE
  ]

/-- Registers of the MODP page at offsets 0x040 and above (R56). -/
def rowsModp : List RegRow :=
  [
    ⟨0x40, 0, 1, 0, 1, 2, 0, true, 0, 0, 0, 0⟩,  -- MOD_DEV
    ⟨0x44, 0, 1, 0, 1, 2, 0, true, 0, 0, 0, 0⟩,  -- MOD_PMODE
    ⟨0x48, 0, 1, 0, 1, 0, 0, false, 0, 0, 0xFF0F, 0⟩,  -- MOD_PCMD
    ⟨0x4C, 0, 1, 0, 1, 0, 0, true, 0, 0, 0, 0⟩  -- MOD_PRESULT
  ]

/-- Registers of the PEN page at offsets 0x040 and above (R603). -/
def rowsPen : List RegRow :=
  [
    ⟨0x40, 0, 1, 0, 1, 0, 0, false, 0, 0, 0xFF, 0⟩,  -- PEN_RST
    ⟨0x44, 0, 1, 0, 1, 0, 0, true, 0, 0, 0, 0⟩,  -- PEN_STAT
    ⟨0x48, 0, 1, 0, 1, 0, 0, false, 0x3F, 0, 0, 0⟩,  -- PEN_RGN_IDX
    ⟨0x4C, 0, 1, 0, 1, 0, 0, false, 0x7FFF, 0, 0, 0⟩,  -- PEN_RGN_BASE
    ⟨0x50, 0, 1, 0, 1, 0, 0, false, 0x7FFF, 0, 0, 0⟩,  -- PEN_RGN_LAST
    ⟨0x54, 0, 1, 0, 1, 0xF, 0, false, 0x8000003F, 0, 0, 0⟩,  -- PEN_RGN_CFG
    ⟨0x80, 4, 9, 0, 1, 0, 0, true, 0, 0, 0, 0⟩  -- PEN_KEY_EPOCH[o]
  ]

/-- Registers of the GTH page at offsets 0x040 and above (R604). -/
def rowsGth : List RegRow :=
  [
    ⟨0x40, 0, 1, 0, 1, 0, 0, true, 0, 0, 0, 0⟩,  -- GTH_STAT
    ⟨0x44, 0, 1, 0, 1, 0, 0, true, 0, 0, 0, 0⟩,  -- GTH_BOOT_RESULT
    ⟨0x48, 0, 1, 0, 1, 0, 0, true, 0, 0, 0, 0⟩,  -- GTH_SVN
    ⟨0x4C, 0, 1, 0, 1, 0, 0, true, 0, 0, 0, 0⟩,  -- GTH_IMG_SVN
    ⟨0x50, 0, 1, 0, 1, 0, 0, false, 0, 0, 0xFF7F, 0x7F⟩,  -- GTH_SVN_CMD
    ⟨0x54, 0, 1, 0, 1, 0, 0, true, 0, 0, 0, 0⟩,  -- GTH_SVN_RESULT
    ⟨0x58, 0, 1, 0, 1, 0, 0, false, 0, 0x1F, 0, 0x1F⟩,  -- GTH_TAMPER
    ⟨0x5C, 0, 1, 0, 1, 0x1F, 0, false, 0x1F, 0, 0, 0x1F⟩,  -- GTH_TAMPER_EN
    ⟨0x60, 4, 4, 0, 1, 0, 0, true, 0, 0, 0, 0⟩,  -- GTH_DBG_NONCE[w]
    ⟨0x70, 0, 1, 0, 1, 0, 0, false, 0, 0, 3, 0⟩,  -- GTH_DBG_CMD
    ⟨0x74, 0, 1, 0, 1, 0, 0, true, 0, 0, 0, 0⟩,  -- GTH_DBG_RESULT
    ⟨0x78, 0, 1, 0, 1, 0, 0, true, 0, 0, 0, 0⟩,  -- GTH_FLASH_DIR
    ⟨0x80, 4, 32, 0, 1, 0, 0, false, 0, 0, 0xFFFFFFFF, 0⟩,  -- GTH_DBG_REC[w]
    ⟨0x100, 0, 1, 0, 1, 0, 0, true, 0, 0, 0, 0⟩,  -- GTH_SERIAL_LO
    ⟨0x104, 0, 1, 0, 1, 0, 0, true, 0, 0, 0, 0⟩  -- GTH_SERIAL_HI
  ]

/-- Registers of the HLK page at offsets 0x040 and above (R580). -/
def rowsHlk : List RegRow :=
  [
    ⟨0x40, 0, 1, 0, 1, 0, 0, true, 0, 0, 0, 0⟩,  -- HLK_ID
    ⟨0x44, 0, 1, 0, 1, 0, 0, false, 1, 0, 0, 0⟩,  -- HLK_PORTCFG
    ⟨0x48, 4, 2, 0, 1, 0, 0, true, 0, 0, 0, 0⟩,  -- HLK_LSTAT[k]
    ⟨0x50, 0, 1, 0, 1, 0, 0, true, 0, 0, 0, 0⟩,  -- HLK_DOWN_CNT
    ⟨0x54, 0, 1, 0, 1, 0, 0, true, 0, 0, 0, 0⟩,  -- HLK_HOTRST_CNT
    ⟨0x58, 0, 1, 0, 1, 0, 0, true, 0, 0, 0, 0⟩,  -- HLK_FLR_CNT
    ⟨0x5C, 0, 1, 0, 1, 0, 0, true, 0, 0, 0, 0⟩,  -- HLK_UR_CNT
    ⟨0x60, 0, 1, 0, 1, 0, 0, true, 0, 0, 0, 0⟩,  -- HLK_MSG_DROP
    ⟨0x80, 0, 1, 0, 1, 0xF, 0, true, 0, 0, 0, 0⟩,  -- HLK_FNMAP[f]
    ⟨0x84, 4, 17, 0, 1, 0xE, 0, false, 0xF, 0, 0, 0⟩,  -- HLK_FNMAP[f]
    ⟨0x100, 0, 1, 0, 1, 0x200, 0, false, 0x1FFF, 0, 0, 0⟩,  -- HLK_VEC[f]
    ⟨0x104, 4, 8, 0, 1, 0x1C0, 0, false, 0x1FFF, 0, 0, 0⟩,  -- HLK_VEC[f]
    ⟨0x124, 0, 1, 0, 1, 0x200, 0, false, 0x1FFF, 0, 0, 0⟩,  -- HLK_VEC[f]
    ⟨0x128, 4, 8, 0, 1, 0x1C0, 0, false, 0x1FFF, 0, 0, 0⟩,  -- HLK_VEC[f]
    ⟨0x180, 4, 18, 0, 1, 0, 0, true, 0, 0, 0, 0⟩,  -- HLK_ACCERR[f]
    ⟨0x200, 4, 8, 0, 1, 0, 0, false, 0x8000001F, 0, 0, 0⟩,  -- HLK_SIG[o]
    ⟨0x220, 0, 1, 0, 1, 0x80000000, 0, false, 0x8000001F, 0, 0, 0⟩  -- HLK_SIG[o]
  ]

/-- Registers of the HAL page at offsets 0x040 and above (R623). -/
def rowsHal : List RegRow :=
  [
    ⟨0x40, 0, 1, 0, 1, 0, 0, true, 0, 0, 0, 0⟩,  -- HAL_SWIN
    ⟨0x44, 0, 1, 0, 1, 0, 0, true, 0, 0, 0, 0⟩,  -- HAL_SSTAT
    ⟨0x48, 0, 1, 0, 1, 0, 0, true, 0, 0, 0, 0⟩,  -- HAL_BADFRAME
    ⟨0x4C, 0, 1, 0, 1, 0, 0, true, 0, 0, 0, 0⟩,  -- HAL_ACCERR
    ⟨0x50, 0, 1, 0, 1, 0, 0, true, 0, 0, 0, 0⟩,  -- HAL_FRAMES
    ⟨0x54, 0, 1, 0, 1, 0, 0, true, 0, 0, 0, 0⟩,  -- HAL_MMFAULT
    ⟨0x58, 0, 1, 0, 1, 0, 0, true, 0, 0, 0, 0⟩,  -- HAL_BOOTCFG
    ⟨0x60, 0, 1, 0, 1, 0, 0, false, 0xFF0330, 0, 1, 0⟩,  -- HAL_MCTRL
    ⟨0x64, 0, 1, 0, 1, 8, 0, false, 0x1FFF, 0, 0, 0⟩,  -- HAL_MLEN
    ⟨0x68, 0, 1, 0, 1, 0, 0, true, 0, 0, 0, 0⟩,  -- HAL_MRESULT
    ⟨0x200, 4, 128, 0, 1, 0, 0, false, 0xFFFFFFFF, 0, 0, 0⟩,  -- HAL_TXBUF[w]
    ⟨0x400, 4, 128, 0, 1, 0, 0, true, 0, 0, 0, 0⟩  -- HAL_RXBUF[w]
  ]

/-- Registers of the RST page at offsets 0x040 and above (R639). -/
def rowsRst : List RegRow :=
  [
    ⟨0x40, 0, 1, 0, 1, 0, 0, true, 0, 0, 0, 0⟩,  -- RST_STAT
    ⟨0x44, 0, 1, 0, 1, 0, 0, true, 0, 0, 0, 0⟩,  -- RST_SRC
    ⟨0x48, 0, 1, 0, 1, 0, 0, true, 0, 0, 0, 0⟩,  -- RST_LAST
    ⟨0x4C, 0, 1, 0, 1, 0, 0, true, 0, 0, 0, 0⟩,  -- RST_ISL_PEND
    ⟨0x50, 0, 1, 0, 1, 0, 0, true, 0, 0, 0, 0⟩,  -- RST_ISL_LOCKFAIL
    ⟨0x54, 0, 1, 0, 1, 0, 0, true, 0, 0, 0, 0⟩,  -- RST_OPT
    ⟨0x58, 0, 1, 0, 1, 0, 0, true, 0, 0, 0, 0⟩,  -- RST_TOTAL
    ⟨0x60, 4, 5, 0, 1, 0, 0, true, 0, 0, 0, 0⟩  -- RST_CNT[k]
  ]

/-- Registers of the WVN page at offsets 0x040 and above (R655). -/
def rowsWvn : List RegRow :=
  [
    ⟨0x40, 0, 1, 0, 1, 1, 0, false, 1, 0, 0, 0⟩,  -- WVN_CTRL
    ⟨0x44, 0, 1, 0, 1, 4, 0, true, 0, 0, 0, 0⟩,  -- WVN_STAT
    ⟨0x48, 0, 1, 0, 1, 0x190, 0, false, 0xFFFF, 0, 0, 0⟩,  -- WVN_WARN
    ⟨0x4C, 0, 1, 0, 1, 0x1F4, 0, false, 0x3FFF, 0, 0, 0⟩,  -- WVN_GRACE
    ⟨0x50, 0, 1, 0, 1, 0, 0, true, 0, 0, 0, 0⟩,  -- WVN_ROUND
    ⟨0x54, 0, 1, 0, 1, 0, 0, true, 0, 0, 0, 0⟩,  -- WVN_BROKEN_LO
    ⟨0x58, 0, 1, 0, 1, 0, 0, true, 0, 0, 0, 0⟩,  -- WVN_BROKEN_MID
    ⟨0x5C, 0, 1, 0, 1, 0, 0, true, 0, 0, 0, 0⟩,  -- WVN_BROKEN_HI
    ⟨0x60, 0, 1, 0, 1, 0, 0, true, 0, 0, 0, 0⟩,  -- WVN_SUP_OOR
    ⟨0x64, 0, 1, 0, 1, 0, 0, true, 0, 0, 0, 0⟩,  -- WVN_ENF_CNT
    ⟨0x68, 0, 1, 0, 1, 0, 0, true, 0, 0, 0, 0⟩,  -- WVN_FORCED_HOLD
    ⟨0x6C, 0, 1, 0, 1, 0, 0, false, 0x7F, 0, 0, 0⟩,  -- WVN_IDX
    ⟨0x70, 0, 1, 0, 1, 0, 0, true, 0, 0, 0, 0⟩,  -- WVN_READ
    ⟨0x80, 0, 1, 0, 1, 0x500190, 0, false, 0x7FFFFF, 0, 0, 0⟩,  -- WVN_THR[i]
    ⟨0x84, 0, 1, 0, 1, 0x3C01A4, 0, false, 0x7FFFFF, 0, 0, 0⟩,  -- WVN_THR[i]
    ⟨0x88, 0, 1, 0, 1, 0x2801B8, 0, false, 0x7FFFFF, 0, 0, 0⟩,  -- WVN_THR[i]
    ⟨0x8C, 0, 1, 0, 1, 0x1401CC, 0, false, 0x7FFFFF, 0, 0, 0⟩,  -- WVN_THR[i]
    ⟨0x90, 0, 1, 0, 1, 0x501E0, 0, false, 0x7FFFFF, 0, 0, 0⟩,  -- WVN_THR[i]
    ⟨0x94, 0, 1, 0, 1, 0x6E7FFF, 0, false, 0x7FFFFF, 0, 0, 0⟩,  -- WVN_THR[i]
    ⟨0x98, 0, 1, 0, 1, 0x6E7FFF, 0, false, 0x7FFFFF, 0, 0, 0⟩,  -- WVN_THR[i]
    ⟨0x9C, 0, 1, 0, 1, 0x6E7FFF, 0, false, 0x7FFFFF, 0, 0, 0⟩,  -- WVN_THR[i]
    ⟨0xA0, 4, 8, 0, 1, 0, 0, true, 0, 0, 0, 0⟩  -- WVN_BARN[b]
  ]

/-- Registers of the LOG page at offsets 0x040 and above (R673). -/
def rowsLog : List RegRow :=
  [
    ⟨0x40, 0, 1, 0, 1, 0, 0, false, 0, 0, 0xFF03, 0⟩,  -- LOG_CTRL
    ⟨0x44, 0, 1, 0, 1, 0, 0, false, 0, 0, 0xFFFF, 0⟩  -- LOG_MARK
  ]

/-- Registers of the LAN page at offsets 0x040 and above (R671). -/
def rowsLan : List RegRow :=
  [
    ⟨0x40, 0, 1, 0, 1, 0, 0, true, 0, 0, 0, 0⟩,  -- LAN_STAT
    ⟨0x44, 0, 1, 0, 1, 0, 0, true, 0, 0, 0, 0⟩,  -- LAN_TICK_LO
    ⟨0x48, 0, 1, 0, 1, 0, 0, true, 0, 0, 0, 0⟩,  -- LAN_TICK_HI
    ⟨0x4C, 0, 1, 0, 1, 0, 0, false, 0x1FF, 0, 0, 0⟩,  -- LAN_LOG_IDX
    ⟨0x50, 0, 1, 0, 1, 0, 0, true, 0, 0, 0, 0⟩,  -- LAN_LOG_LO
    ⟨0x54, 0, 1, 0, 1, 0, 0, true, 0, 0, 0, 0⟩,  -- LAN_LOG_HI
    ⟨0x58, 0, 1, 0, 1, 0, 0, true, 0, 0, 0, 0⟩,  -- LAN_LOG_WPTR
    ⟨0x5C, 0, 1, 0, 1, 0, 0, true, 0, 0, 0, 0⟩,  -- LAN_LOG_FRZ
    ⟨0x60, 0, 1, 0, 1, 0, 0, true, 0, 0, 0, 0⟩,  -- LAN_LOG_LOST
    ⟨0x64, 0, 1, 0, 1, 0, 0, true, 0, 0, 0, 0⟩,  -- LAN_LOG_WRITTEN
    ⟨0x68, 0, 1, 0, 1, 0, 0, false, 0x1FFF, 0, 0, 0⟩,  -- LAN_WEAR_IDX
    ⟨0x6C, 0, 1, 0, 1, 0, 0, true, 0, 0, 0, 0⟩,  -- LAN_WEAR
    ⟨0x70, 0, 1, 0, 1, 0, 0, false, 0xF, 0, 0, 0⟩,  -- LAN_RST_IDX
    ⟨0x74, 0, 1, 0, 1, 0, 0, true, 0, 0, 0, 0⟩,  -- LAN_RST_CNT
    ⟨0x78, 0, 1, 0, 1, 0, 0, true, 0, 0, 0, 0⟩,  -- LAN_RST_TOTAL
    ⟨0x7C, 0, 1, 0, 1, 0, 0, true, 0, 0, 0, 0⟩  -- LAN_TAMPER
  ]

/-- Registers of the HBM page at offsets 0x040 and above (R557). -/
def rowsHbm : List RegRow :=
  [
    ⟨0x40, 0, 1, 0, 1, 0x1000, 0, false, 0xFF00, 0, 1, 0⟩,  -- HBM_CTRL
    ⟨0x44, 0, 1, 0, 1, 0, 0, true, 0, 0, 0, 0⟩,  -- HBM_STAT
    ⟨0x48, 0, 1, 0, 1, 0, 0, false, 0, 0, 3, 3⟩,  -- HBM_RATE_CMD
    ⟨0x4C, 0, 1, 0, 1, 0, 0, true, 0, 0, 0, 0⟩,  -- HBM_RATE_RESULT
    ⟨0x50, 0, 1, 0, 1, 0, 0, true, 0, 0, 0, 0⟩,  -- HBM_TRN
    ⟨0x54, 0, 1, 0, 1, 0, 0, true, 0, 0, 0, 0⟩,  -- HBM_PANIC
    ⟨0x58, 0, 1, 0, 1, 0, 0, true, 0, 0, 0, 0⟩,  -- HBM_PANIC_CNT
    ⟨0x5C, 0, 1, 0, 1, 0, 0, true, 0, 0, 0, 0⟩,  -- HBM_RFSH_DEBT
    ⟨0x60, 0, 1, 0, 1, 0, 0, true, 0, 0, 0, 0⟩,  -- HBM_RFSH_POST
    ⟨0x64, 0, 1, 0, 1, 0, 0, true, 0, 0, 0, 0⟩,  -- HBM_RFSH_SPLIT
    ⟨0x68, 0, 1, 0, 1, 0, 0, true, 0, 0, 0, 0⟩,  -- HBM_RFSH_FORCED
    ⟨0x6C, 0, 1, 0, 1, 0, 0, true, 0, 0, 0, 0⟩,  -- HBM_CE_CNT
    ⟨0x70, 0, 1, 0, 1, 0, 0, true, 0, 0, 0, 0⟩,  -- HBM_UE_CNT
    ⟨0x74, 0, 1, 0, 1, 0, 0, true, 0, 0, 0, 0⟩,  -- HBM_POISON_CNT
    ⟨0x78, 0, 1, 0, 1, 0, 0, true, 0, 0, 0, 0⟩,  -- HBM_ERR_ADDR_LO
    ⟨0x7C, 0, 1, 0, 1, 0, 0, true, 0, 0, 0, 0⟩,  -- HBM_ERR_ADDR_HI
    ⟨0x80, 0, 1, 0, 1, 0, 0, false, 0xF, 0, 0, 0⟩,  -- HBM_ROW_IDX
    ⟨0x84, 0, 1, 0, 1, 0, 0, true, 0, 0, 0, 0⟩,  -- HBM_ROW_LOG
    ⟨0x88, 0, 1, 0, 1, 0, 0, false, 0, 0, 0x8000000F, 0x8000000F⟩,  -- HBM_REPAIR_CMD
    ⟨0x8C, 0, 1, 0, 1, 0, 0, true, 0, 0, 0, 0⟩,  -- HBM_REPAIR_RESULT
    ⟨0x90, 0, 1, 0, 1, 0, 0, true, 0, 0, 0, 0⟩,  -- HBM_TEMP
    ⟨0xA0, 0, 1, 0, 1, 0x100401, 0, false, 0x1FFFFFF, 0, 0, 0⟩,  -- HBM_XMAP[j]
    ⟨0xA4, 0, 1, 0, 1, 0x200802, 0, false, 0x1FFFFFF, 0, 0, 0⟩,  -- HBM_XMAP[j]
    ⟨0xA8, 0, 1, 0, 1, 0x401004, 0, false, 0x1FFFFFF, 0, 0, 0⟩,  -- HBM_XMAP[j]
    ⟨0xAC, 0, 1, 0, 1, 0x802008, 0, false, 0x1FFFFFF, 0, 0, 0⟩,  -- HBM_XMAP[j]
    ⟨0xB0, 0, 1, 0, 1, 0x1004010, 0, false, 0x1FFFFFF, 0, 0, 0⟩,  -- HBM_XMAP[j]
    ⟨0xB4, 0, 1, 0, 1, 0x8020, 0, false, 0x1FFFFFF, 0, 0, 0⟩,  -- HBM_XMAP[j]
    ⟨0xB8, 0, 1, 0, 1, 0x10040, 0, false, 0x1FFFFFF, 0, 0, 0⟩,  -- HBM_XMAP[j]
    ⟨0xBC, 0, 1, 0, 1, 0x20080, 0, false, 0x1FFFFFF, 0, 0, 0⟩,  -- HBM_XMAP[j]
    ⟨0xC0, 0, 1, 0, 1, 0x40100, 0, false, 0x1FFFFFF, 0, 0, 0⟩,  -- HBM_XMAP[j]
    ⟨0xC4, 0, 1, 0, 1, 0x80200, 0, false, 0x1FFFFFF, 0, 0, 0⟩  -- HBM_XMAP[j]
  ]

/-- Registers of the RNG page at offsets 0x040 and above (R530). -/
def rowsRng : List RegRow :=
  [
    ⟨0x40, 0, 1, 0, 1, 0, 0, false, 0x7FFF7FFF, 0, 0, 0⟩,  -- RNG_ASG_RANGE
    ⟨0x44, 0, 1, 0, 1, 0xF, 0, false, 0xF, 0, 0x80000000, 0⟩,  -- RNG_ASG_CMD
    ⟨0x48, 0, 1, 0, 1, 0, 0, true, 0, 0, 0, 0⟩,  -- RNG_ERR_RING
    ⟨0x4C, 0, 1, 0, 1, 0, 0, true, 0, 0, 0, 0⟩,  -- RNG_ENABLED
    ⟨0x50, 4, 9, 0, 1, 0, 0, false, 0x80007FFF, 0, 0, 0⟩  -- RNG_EVT_RING[o]
  ]

/-- Registers of the CAT page at offsets 0x040 and above (R270). -/
def rowsCat : List RegRow :=
  [
    ⟨0x40, 0, 1, 0, 1, 0, 0, true, 0, 0, 0, 0⟩,  -- CAT_STAT
    ⟨0x44, 0, 1, 0, 1, 0, 0, true, 0, 0, 0, 0⟩,  -- CAT_REC_LO
    ⟨0x48, 0, 1, 0, 1, 0, 0, true, 0, 0, 0, 0⟩,  -- CAT_REC_HI
    ⟨0x4C, 0, 1, 0, 1, 0, 0, true, 0, 0, 0, 0⟩,  -- CAT_DROP
    ⟨0x50, 0, 1, 0, 1, 0, 0, true, 0, 0, 0, 0⟩  -- CAT_PEAK
  ]

/-- Registers of the FAR page at offsets 0x040 and above (R474). -/
def rowsFar : List RegRow :=
  [
    ⟨0x40, 0, 1, 0, 1, 0, 0, false, 0, 0, 7, 0⟩,  -- FAR_CTRL
    ⟨0x44, 0, 1, 0, 1, 0x707F, 0, false, 0x1717F, 0, 0, 0⟩,  -- FAR_CFG
    ⟨0x48, 0, 1, 0, 1, 0xFF, 0, false, 0xFF, 0, 0, 0⟩,  -- FAR_SCOPE
    ⟨0x4C, 0, 1, 0, 1, 0, 0, false, 0x1FF, 0, 0, 0⟩,  -- FAR_PEN_EN
    ⟨0x50, 0, 1, 0, 1, 0, 0, true, 0, 0, 0, 0⟩,  -- FAR_STAT
    ⟨0x54, 0, 1, 0, 1, 0, 0, true, 0, 0, 0, 0⟩,  -- FAR_RESULT_LO
    ⟨0x58, 0, 1, 0, 1, 0, 0, true, 0, 0, 0, 0⟩,  -- FAR_RESULT_HI
    ⟨0x5C, 0, 1, 0, 1, 0, 0, true, 0, 0, 0, 0⟩,  -- FAR_EPOCH
    ⟨0x60, 0, 1, 0, 1, 0, 0, false, 0xFFFFFFFF, 0, 0, 0⟩,  -- FAR_WIN_TICK_LO
    ⟨0x64, 0, 1, 0, 1, 0, 0, false, 0xFFFF, 0, 0, 0⟩,  -- FAR_WIN_TICK_HI
    ⟨0x68, 0, 1, 0, 1, 0, 0, false, 0x1FFFFFFF, 0, 0x80000000, 0⟩,  -- FAR_WIN_CFG
    ⟨0x6C, 0, 1, 0, 1, 0x3E8, 0, false, 0xFFFF, 0, 0, 0⟩,  -- FAR_SW_TMO
    ⟨0x70, 0, 1, 0, 1, 0, 0, true, 0, 0, 0, 0⟩,  -- FAR_STEPS
    ⟨0x74, 0, 1, 0, 1, 0, 0, true, 0, 0, 0, 0⟩,  -- FAR_STEP_ABORT
    ⟨0x78, 0, 1, 0, 1, 0, 0, true, 0, 0, 0, 0⟩,  -- FAR_LEFT
    ⟨0x80, 4, 7, 0, 1, 0, 0, true, 0, 0, 0, 0⟩  -- FAR_FAIL[g]
  ]

/-- Registers of the TAK page at offsets 0x040 and above (R476). -/
def rowsTak : List RegRow :=
  [
    ⟨0x40, 0, 1, 0, 1, 0, 0, true, 0, 0, 0, 0⟩,  -- TAK_STAT
    ⟨0x44, 0, 1, 0, 1, 0, 0, true, 0, 0, 0, 0⟩,  -- TAK_EPOCH_A
    ⟨0x48, 0, 1, 0, 1, 0, 0, true, 0, 0, 0, 0⟩,  -- TAK_EPOCH_B
    ⟨0x4C, 0, 1, 0, 1, 0, 0, true, 0, 0, 0, 0⟩,  -- TAK_STORE_RESULT
    ⟨0x50, 4, 8, 0, 1, 0, 0, true, 0, 0, 0, 0⟩,  -- TAK_TEMP[b]
    ⟨0x70, 0, 1, 0, 1, 0, 0, true, 0, 0, 0, 0⟩  -- TAK_DRIFT
  ]

/-- Registers of the GRM page at offsets 0x040 and above (R509). -/
def rowsGrm : List RegRow :=
  [
    ⟨0x40, 0, 1, 0, 1, 0xFF, 0, false, 0xFF, 0, 0, 0⟩,  -- GRM_CTRL
    ⟨0x44, 0, 1, 0, 1, 0, 0, true, 0, 0, 0, 0⟩,  -- GRM_STAT
    ⟨0x48, 0, 1, 0, 1, 0, 0, true, 0, 0, 0, 0⟩,  -- GRM_PATCH
    ⟨0x4C, 0, 1, 0, 1, 0, 0, false, 0x7F, 0, 0, 0⟩,  -- GRM_DISP_IDX
    ⟨0x50, 0, 1, 0, 1, 0, 0, true, 0, 0, 0, 0⟩,  -- GRM_DISP
    ⟨0x54, 0, 1, 0, 1, 0, 0, true, 0, 0, 0, 0⟩,  -- GRM_SBE_CNT
    ⟨0x58, 0, 1, 0, 1, 0, 0, true, 0, 0, 0, 0⟩,  -- GRM_MCHK_CNT
    ⟨0x5C, 0, 1, 0, 1, 0, 0, true, 0, 0, 0, 0⟩,  -- GRM_MCHK_LAST
    ⟨0x60, 0, 1, 0, 1, 0, 0, true, 0, 0, 0, 0⟩,  -- GRM_WDT_CNT
    ⟨0x80, 4, 8, 0, 1, 0, 0, false, 0x7F, 0, 0, 0⟩,  -- GRM_SHARE[o]
    ⟨0xA0, 0, 1, 0, 1, 0x64, 0, true, 0, 0, 0, 0⟩,  -- GRM_SHARE[o]
    ⟨0xC0, 4, 9, 0, 1, 0, 0, true, 0, 0, 0, 0⟩,  -- GRM_USED[o]
    ⟨0x100, 4, 9, 0, 1, 0, 0, true, 0, 0, 0, 0⟩,  -- GRM_BADREC[o]
    ⟨0x140, 4, 9, 0, 1, 0, 0, true, 0, 0, 0, 0⟩,  -- GRM_ACC_CNT[o]
    ⟨0x180, 4, 9, 0, 1, 0, 0, true, 0, 0, 0, 0⟩  -- GRM_LOST[o]
  ]

/-- Registers of the GROOM page at offsets 0x040 and above (R511). -/
def rowsGroom : List RegRow :=
  [
    ⟨0x40, 0, 1, 0, 1, 0, 0, true, 0, 0, 0, 0⟩,  -- GRM_CORE_STAT
    ⟨0x44, 0, 1, 0, 1, 0, 0, true, 0, 0, 0, 0⟩,  -- GRM_CORE_TAG
    ⟨0x48, 0, 1, 0, 1, 0, 0, true, 0, 0, 0, 0⟩,  -- GRM_CORE_PC
    ⟨0x4C, 0, 1, 0, 1, 0, 0, true, 0, 0, 0, 0⟩,  -- GRM_CORE_ELAPSED
    ⟨0x50, 0, 1, 0, 1, 0, 0, true, 0, 0, 0, 0⟩,  -- GRM_CORE_DONE
    ⟨0x54, 0, 1, 0, 1, 0, 0, true, 0, 0, 0, 0⟩  -- GRM_CORE_STAGED
  ]

/-- Registers of the SEQ page at offsets 0x040 and above (R202, R231). -/
def rowsSeq : List RegRow :=
  [
    ⟨0x40, 0, 1, 0, 1, 0, 0, false, 0x1330, 0, 7, 0⟩,  -- SEQ_CTRL
    ⟨0x44, 0, 1, 0, 1, 0, 0, true, 0, 0, 0, 0⟩,  -- SEQ_STAT
    ⟨0x48, 0, 1, 0, 1, 0, 0, true, 0, 0, 0, 0⟩,  -- SEQ_RESULT_LO
    ⟨0x4C, 0, 1, 0, 1, 0, 0, true, 0, 0, 0, 0⟩,  -- SEQ_RESULT_HI
    ⟨0x50, 0, 1, 0, 1, 0, 0, false, 0xFFFFFF, 0, 0, 0⟩,  -- SEQ_START_ADDR
    ⟨0x54, 0, 1, 0, 1, 0, 0, false, 0xFFFFFFFF, 0, 0, 0⟩,  -- SEQ_START_TICK_LO
    ⟨0x58, 0, 1, 0, 1, 0, 0, false, 0xFFFF, 0, 0, 0⟩,  -- SEQ_START_TICK_HI
    ⟨0x5C, 0, 1, 0, 1, 0, 0, true, 0, 0, 0, 0⟩,  -- SEQ_VCNT_LO
    ⟨0x60, 0, 1, 0, 1, 0, 0, true, 0, 0, 0, 0⟩,  -- SEQ_VCNT_HI
    ⟨0x64, 0, 1, 0, 1, 0, 0, true, 0, 0, 0, 0⟩,  -- SEQ_PC
    ⟨0x68, 0, 1, 0, 1, 0, 0, false, 0xFF, 0, 0, 0⟩,  -- SEQ_SWFLAG
    ⟨0x6C, 0, 1, 0, 1, 0, 0, true, 0, 0, 0, 0⟩,  -- SEQ_EV_NOW
    ⟨0x70, 0, 1, 0, 1, 0, 0, false, 0x80007FFF, 0, 0, 0⟩,  -- SEQ_MARK_RING
    ⟨0x74, 0, 1, 0, 1, 0, 0, true, 0, 0, 0, 0⟩,  -- SEQ_MARK_CNT
    ⟨0x78, 0, 1, 0, 1, 0, 0, true, 0, 0, 0, 0⟩,  -- SEQ_TRIG_CNT
    ⟨0x80, 4, 8, 0, 1, 0, 0, false, 0x833F, 0, 0, 0⟩,  -- SEQ_RB_SEL[n]
    ⟨0xA0, 4, 8, 0, 1, 0, 0, true, 0, 0, 0, 0⟩,  -- SEQ_LSTK[i]
    ⟨0xC0, 4, 8, 0, 1, 0, 0, true, 0, 0, 0, 0⟩,  -- SEQ_CSTK[i]
    ⟨0x200, 0, 1, 0, 1, 0x2000, 0, false, 0xFF02, 0, 1, 0⟩,  -- SEQ_STRM_CTRL
    ⟨0x204, 0, 1, 0, 1, 0, 0, true, 0, 0, 0, 0⟩,  -- SEQ_STRM_STAT
    ⟨0x208, 0, 1, 0, 1, 0, 0, true, 0, 0, 0, 0⟩,  -- SEQ_PRIME_RESULT
    ⟨0x20C, 0, 1, 0, 1, 0, 0, false, 0xFFFFFFC0, 0, 0, 0⟩,  -- SEQ_SDIR_LO
    ⟨0x210, 0, 1, 0, 1, 0, 0, false, 7, 0, 0, 0⟩,  -- SEQ_SDIR_HI
    ⟨0x214, 0, 1, 0, 1, 0, 0, false, 0x7FF, 0, 0, 0⟩,  -- SEQ_SDIR_N
    ⟨0x218, 0, 1, 0, 1, 0, 0, true, 0, 0, 0, 0⟩,  -- SEQ_PANIC_CNT
    ⟨0x21C, 0, 1, 0, 1, 0, 0, true, 0, 0, 0, 0⟩,  -- SEQ_STARVE_EVT
    ⟨0x220, 0, 1, 0, 1, 0, 0, true, 0, 0, 0, 0⟩,  -- SEQ_STARVE_CYC_LO
    ⟨0x224, 0, 1, 0, 1, 0, 0, true, 0, 0, 0, 0⟩,  -- SEQ_STARVE_CYC_HI
    ⟨0x228, 0, 1, 0, 1, 0, 0, true, 0, 0, 0, 0⟩,  -- SEQ_STRM_FAULT
    ⟨0x22C, 0, 1, 0, 1, 0, 0, true, 0, 0, 0, 0⟩,  -- SEQ_SEG_CNT
    ⟨0x230, 0, 1, 0, 1, 0, 0, true, 0, 0, 0, 0⟩  -- SEQ_MANGER_USE
  ]

/-- Registers of the APG page at offsets 0x040 and above (R292). -/
def rowsApg : List RegRow :=
  [
    ⟨0x40, 0, 1, 0, 1, 0, 0, true, 0, 0, 0, 0⟩,  -- APG_CUR_LO
    ⟨0x44, 0, 1, 0, 1, 0, 0, true, 0, 0, 0, 0⟩,  -- APG_CUR_HI
    ⟨0x48, 0, 1, 0, 1, 8, 0, true, 0, 0, 0, 0⟩,  -- APG_STAT
    ⟨0x4C, 0, 1, 0, 1, 0, 0, false, 7, 0, 0, 0⟩,  -- APG_DCTRL
    ⟨0x50, 0, 1, 0, 1, 0, 0, false, 0xFFFFFFFF, 0, 0, 0⟩,  -- APG_DBG
    ⟨0x54, 0, 1, 0, 1, 0, 0, false, 0xFFFFF, 0, 0, 0⟩,  -- APG_XMIN
    ⟨0x58, 0, 1, 0, 1, 0xFFFFF, 0, false, 0xFFFFF, 0, 0, 0⟩,  -- APG_XMAX
    ⟨0x5C, 0, 1, 0, 1, 0, 0, false, 0xFFFFF, 0, 0, 0⟩,  -- APG_XINIT
    ⟨0x60, 0, 1, 0, 1, 1, 0, false, 0x1FFFFF, 0, 0, 0⟩,  -- APG_XSTRIDE
    ⟨0x64, 0, 1, 0, 1, 0, 0, false, 0xFFFFF, 0, 0, 0⟩,  -- APG_YMIN
    ⟨0x68, 0, 1, 0, 1, 0xFFFFF, 0, false, 0xFFFFF, 0, 0, 0⟩,  -- APG_YMAX
    ⟨0x6C, 0, 1, 0, 1, 0, 0, false, 0xFFFFF, 0, 0, 0⟩,  -- APG_YINIT
    ⟨0x70, 0, 1, 0, 1, 1, 0, false, 0x1FFFFF, 0, 0, 0⟩,  -- APG_YSTRIDE
    ⟨0x74, 0, 1, 0, 1, 0xFF00, 0, false, 0xFFFFFF, 0, 0, 0⟩,  -- APG_ZRNG
    ⟨0x78, 0, 1, 0, 1, 0x3F3F3F3F, 0, false, 0x3F3F3F3F, 0, 0, 0⟩,  -- APG_TOPO_SEL_LO
    ⟨0x7C, 0, 1, 0, 1, 0x3F3F3F3F, 0, false, 0x3F3F3F3F, 0, 0, 0⟩,  -- APG_TOPO_SEL_HI
    ⟨0x80, 4, 8, 0, 1, 0, 0, false, 0xFFFFFFFF, 0, 0, 0⟩,  -- APG_TOPO[w]
    ⟨0x100, 4, 48, 0, 1, 0, 1, false, 0xBF3F, 0, 0, 0⟩,  -- APG_SCR[n]
    ⟨0x200, 4, 64, 0, 1, 0, 0, false, 0x1F3F03, 0, 0, 0⟩  -- APG_CMAP[c]
  ]

/-- Registers of the TSET page at offsets 0x040 and above (R162). -/
def rowsTset : List RegRow :=
  [
    ⟨0x40, 0, 1, 0, 1, 0, 0, true, 0, 0, 0, 0⟩,  -- SEQ_TS_STAT
    ⟨0x44, 0, 1, 0, 1, 0, 0, false, 0x13F1F, 0, 0, 0⟩,  -- SEQ_TS_IDX
    ⟨0x48, 4, 6, 0, 1, 0, 0, false, 0xFFFFFFFF, 0, 0, 0⟩,  -- SEQ_TS_EDGE[i]
    ⟨0x60, 0, 1, 0, 1, 0, 0, true, 0, 0, 0, 0⟩,  -- SEQ_CLASH_CNT
    ⟨0x64, 0, 1, 0, 1, 0, 0, true, 0, 0, 0, 0⟩,  -- SEQ_CLASH_LAST
    ⟨0x68, 0, 1, 0, 1, 0, 0, true, 0, 0, 0, 0⟩,  -- SEQ_CLASH_VEC
    ⟨0x6C, 0, 1, 0, 1, 0, 0, true, 0, 0, 0, 0⟩,  -- SEQ_TS_CHK
    ⟨0x80, 4, 32, 0, 1, 0x9C40, 0, false, 0xFFFFFFFF, 0, 0, 0⟩,  -- SEQ_TS_PER[t]
    ⟨0x100, 4, 16, 0, 1, 0, 0, false, 0x7FFD, 0, 0, 0⟩  -- SEQ_FMT[e]
  ]

/-- Registers of the SITE page at offsets 0x040 and above (R268). -/
def rowsSite : List RegRow :=
  [
    ⟨0x40, 0, 1, 0, 1, 0, 0, false, 7, 0, 0, 0⟩,  -- SITE_CTRL
    ⟨0x44, 0, 1, 0, 1, 0, 0, true, 0, 0, 0, 0⟩,  -- SITE_STAT
    ⟨0x48, 0, 1, 0, 1, 0, 0, false, 0x7FFF, 0, 0, 0⟩,  -- SITE_RING
    ⟨0x4C, 0, 1, 0, 1, 0, 0, false, 0x1FF, 0, 0, 0⟩,  -- SITE_IDX
    ⟨0x50, 4, 7, 0, 1, 0, 0, true, 0, 0, 0, 0⟩,  -- SITE_RES[i]
    ⟨0x6C, 0, 1, 0, 1, 0, 0, true, 0, 0, 0, 0⟩,  -- SITE_LOST
    ⟨0x70, 0, 1, 0, 1, 0, 0, true, 0, 0, 0, 0⟩,  -- SITE_POST_DROP
    ⟨0x74, 0, 1, 0, 1, 0, 0, false, 0xFFFFF000, 0, 0, 0⟩,  -- CAP_BASE_LO
    ⟨0x78, 0, 1, 0, 1, 0, 0, false, 7, 0, 0, 0⟩,  -- CAP_BASE_HI
    ⟨0x7C, 0, 1, 0, 1, 0x10, 0, false, 0x3F, 0, 0, 0⟩,  -- CAP_SIZE
    ⟨0x80, 0, 1, 0, 1, 0, 0, false, 0xFFFF, 0, 0, 0⟩,  -- CAP_LIMIT
    ⟨0x84, 0, 1, 0, 1, 0, 0, true, 0, 0, 0, 0⟩,  -- CAP_WPTR_LO
    ⟨0x88, 0, 1, 0, 1, 0, 0, true, 0, 0, 0, 0⟩,  -- CAP_WPTR_HI
    ⟨0x8C, 0, 1, 0, 1, 0, 0, true, 0, 0, 0, 0⟩,  -- CAP_STAT
    ⟨0x90, 0, 1, 0, 1, 0, 0, true, 0, 0, 0, 0⟩,  -- CAP_CNT
    ⟨0x94, 0, 1, 0, 1, 0, 0, true, 0, 0, 0, 0⟩,  -- CAP_DROP
    ⟨0x100, 4, 16, 0, 1, 0, 0, false, 0xFFFFFFFF, 0, 0, 0⟩,  -- SITE_ENROLL[w]
    ⟨0x140, 4, 16, 0, 1, 0, 0, true, 0, 0, 0, 0⟩,  -- SITE_ACT[w]
    ⟨0x180, 4, 16, 0, 1, 0, 0, true, 0, 0, 0, 0⟩  -- SITE_FAIL[w]
  ]

/-- Registers of the BRN page at offsets 0x040 and above (R391). -/
def rowsBrn : List RegRow :=
  [
    ⟨0x40, 0, 1, 0, 1, 0, 0, false, 1, 0, 0, 0⟩,  -- BRN_REF_CTRL
    ⟨0x44, 0, 1, 0, 1, 0, 0, true, 0, 0, 0, 0⟩,  -- BRN_REF_STAT
    ⟨0x48, 0, 1, 0, 1, 0, 0, false, 0x13, 0, 0, 0⟩,  -- BRN_LINE_CFG
    ⟨0x4C, 0, 1, 0, 1, 0x3D09000, 0, true, 0, 0, 0, 0⟩,  -- BRN_LINE_PER
    ⟨0x50, 0, 1, 0, 1, 0, 0, true, 0, 0, 0, 0⟩  -- BRN_LINE_STAT
  ]

/-- Registers of the TMB page at offsets 0x040 and above (R160). -/
def rowsTmb : List RegRow :=
  [
    ⟨0x40, 0, 1, 0, 1, 0, 0, false, 3, 0, 0x10, 0⟩,  -- TMB_CTRL
    ⟨0x44, 0, 1, 0, 1, 0, 0, true, 0, 0, 0, 0⟩,  -- TMB_STAT
    ⟨0x48, 0, 1, 0, 1, 0, 0, false, 0xFFFFFFFF, 0, 0, 0⟩,  -- TMB_SYNC_DLY
    ⟨0x4C, 0, 1, 0, 1, 0, 0, true, 0, 0, 0, 0⟩,  -- TMB_SYNC_MARGIN
    ⟨0x50, 0, 1, 0, 1, 0, 0, true, 0, 0, 0, 0⟩,  -- TMB_TICK_LO
    ⟨0x54, 0, 1, 0, 1, 0, 0, true, 0, 0, 0, 0⟩,  -- TMB_TICK_HI
    ⟨0x58, 0, 1, 0, 1, 0, 0, true, 0, 0, 0, 0⟩,  -- TMB_EPOCH_CNT
    ⟨0x5C, 0, 1, 0, 1, 0, 0, true, 0, 0, 0, 0⟩  -- TMB_SYNC_IGN
  ]

/-- Registers of the ACQ page at offsets 0x040 and above (R426). -/
def rowsAcq : List RegRow :=
  [
    ⟨0x40, 0, 1, 0, 1, 0, 0, false, 0, 0, 7, 0⟩,  -- ACQ_CTRL
    ⟨0x44, 0, 1, 0, 1, 0, 0, true, 0, 0, 0, 0⟩,  -- ACQ_STAT
    ⟨0x48, 0, 1, 0, 1, 0, 0, false, 0xFFFFFFFF, 0, 0, 0⟩,  -- ACQ_SMASK_LO
    ⟨0x4C, 0, 1, 0, 1, 0, 0, false, 0xFFFFFFFF, 0, 0, 0⟩,  -- ACQ_SMASK_HI
    ⟨0x50, 0, 1, 0, 1, 0, 0, false, 0x1FF37717, 0, 0, 0⟩,  -- ACQ_TRIG
    ⟨0x54, 0, 1, 0, 1, 0, 0, false, 0xFFFFFF, 0, 0, 0⟩,  -- ACQ_LEVEL
    ⟨0x58, 0, 1, 0, 1, 0, 0, false, 0xFFFFFF3F, 0, 0, 0⟩,  -- ACQ_LVCFG
    ⟨0x5C, 0, 1, 0, 1, 0, 0, false, 0xFFFF0033, 0, 0, 0⟩,  -- ACQ_QUAL
    ⟨0x60, 0, 1, 0, 1, 0, 0, false, 0x1FFFF, 0, 0, 0⟩,  -- ACQ_PRE
    ⟨0x64, 0, 1, 0, 1, 1, 0, false, 0xFFFFFF, 0, 0, 0⟩,  -- ACQ_POST
    ⟨0x68, 0, 1, 0, 1, 1, 0, false, 0xFFFF, 0, 0, 0⟩,  -- ACQ_K
    ⟨0x6C, 0, 1, 0, 1, 1, 0, false, 0xFFFF, 0, 0, 0⟩,  -- ACQ_NREC
    ⟨0x70, 0, 1, 0, 1, 0, 0, false, 0x80007FFF, 0, 0, 0⟩,  -- ACQ_RING
    ⟨0x74, 0, 1, 0, 1, 0, 0, true, 0, 0, 0, 0⟩,  -- ACQ_MISSED
    ⟨0x78, 0, 1, 0, 1, 0, 0, true, 0, 0, 0, 0⟩,  -- ACQ_REJECT
    ⟨0x7C, 0, 1, 0, 1, 0, 0, true, 0, 0, 0, 0⟩,  -- ACQ_RING_DROP
    ⟨0x80, 0, 1, 0, 1, 0, 0, true, 0, 0, 0, 0⟩,  -- ACQ_BADSTR_LO
    ⟨0x84, 0, 1, 0, 1, 0, 0, true, 0, 0, 0, 0⟩,  -- ACQ_BADSTR_HI
    ⟨0x88, 4, 6, 0, 1, 0, 0, true, 0, 0, 0, 0⟩,  -- ACQ_RES[w]
    ⟨0xA0, 0, 1, 0, 1, 0, 0, false, 0xFFFFFF3F, 0, 0, 0⟩,  -- ACQ_RD_IDX
    ⟨0xA4, 4, 4, 0, 1, 0, 0, true, 0, 0, 0, 0⟩,  -- ACQ_RD[w]
    ⟨0x100, 4, 64, 0, 1, 0, 0, false, 0xFF, 0, 0, 0⟩  -- ACQ_SKEW[i]
  ]

/-- Registers of the WCH page at offsets 0x040 and above (R448). -/
def rowsWch : List RegRow :=
  [
    ⟨0x40, 0, 1, 0, 1, 0, 0, false, 1, 0, 0, 0⟩,  -- WCH_CTRL
    ⟨0x44, 0, 1, 0, 1, 0x3E8, 0, false, 0x1FFFF, 0, 0, 0⟩,  -- WCH_TICK
    ⟨0x48, 0, 1, 0, 1, 0, 0, true, 0, 0, 0, 0⟩,  -- WCH_LIVE
    ⟨0x4C, 0, 1, 0, 1, 0, 0, true, 0, 0, 0, 0⟩,  -- WCH_UNRES
    ⟨0x50, 0, 1, 0, 1, 0, 0, false, 0, 0xFFFFFFFF, 0, 0⟩,  -- WCH_XING
    ⟨0x54, 0, 1, 0, 1, 0, 0, true, 0, 0, 0, 0⟩,  -- WCH_XING_CNT
    ⟨0x58, 0, 1, 0, 1, 0, 0, true, 0, 0, 0, 0⟩,  -- WCH_TRIP_CNT
    ⟨0x5C, 0, 1, 0, 1, 0, 0, false, 1, 0, 0, 1⟩,  -- WCH_ESC_EN
    ⟨0x100, 8, 16, 0, 1, 0, 0, false, 0x33F3F07, 0, 0, 0⟩,  -- WCH_CFG[c]
    ⟨0x104, 8, 16, 0, 1, 0xFFF, 0, false, 0xFFF0FFF, 0, 0, 0⟩  -- WCH_THR[c]
  ]

/-- Registers of the STL page at offsets 0x040 and above (R124). -/
def rowsStl : List RegRow :=
  [
    ⟨0x40, 0, 1, 0, 1, 0xFFFF, 0, false, 0xFFFF, 0, 0, 0⟩,  -- STL_PARK
    ⟨0x44, 0, 1, 0, 1, 0xFFFFFFFF, 0, true, 0, 0, 0, 0⟩,  -- STL_STAT
    ⟨0x80, 4, 16, 0, 1, 0, 0, false, 0x81FF073F, 0, 0, 0⟩  -- STL_ASSIGN[c]
  ]

/-- Registers of the LVL page at offsets 0x040 and above (R125). -/
def rowsLvl : List RegRow :=
  [
    ⟨0x40, 0, 1, 0, 1, 0, 0, false, 2, 0, 1, 0⟩,  -- LVL_CTRL
    ⟨0x44, 0, 1, 0, 1, 0, 0, true, 0, 0, 0, 0⟩,  -- LVL_STAT
    ⟨0x48, 0, 1, 0, 1, 0, 0, false, 0x7FFFF, 0, 0, 0⟩,  -- LVL_BCAST_SEL
    ⟨0x4C, 0, 1, 0, 1, 0, 0, false, 0, 0, 0xFFFF, 0⟩,  -- LVL_BCAST_VAL
    ⟨0x50, 0, 1, 0, 1, 0, 0, true, 0, 0, 0, 0⟩,  -- LVL_STROBE_CNT
    ⟨0x54, 0, 1, 0, 1, 0, 0, true, 0, 0, 0, 0⟩,  -- LVL_REFUSE_CNT
    ⟨0x100, 0x20, 16, 4, 7, 0x2EE0, 0, false, 0xFFFF, 0, 0, 0⟩,  -- LVL_PRE[c][i]
    ⟨0x300, 0x20, 16, 4, 7, 0x2EE0, 0, true, 0, 0, 0, 0⟩  -- LVL_ACT[c][i]
  ]

/-- Registers of the DRV page at offsets 0x040 and above (R126). -/
def rowsDrv : List RegRow :=
  [
    ⟨0x40, 0, 1, 0, 1, 3, 0, false, 3, 0, 0, 0⟩,  -- DRV_CTRL
    ⟨0x44, 0, 1, 0, 1, 0, 0, false, 0, 0xFFFF, 0, 0⟩,  -- DRV_SHORT
    ⟨0x48, 0, 1, 0, 1, 0, 0, true, 0, 0, 0, 0⟩,  -- DRV_SHORT_CNT
    ⟨0x4C, 0, 1, 0, 1, 0, 0, false, 0xFFFFFFFF, 0, 0, 0⟩  -- DRV_SLEW
  ]

/-- Registers of the CMP page at offsets 0x040 and above (R127). -/
def rowsCmp : List RegRow :=
  [
    ⟨0x40, 0, 1, 0, 1, 0, 0, false, 0, 0, 1, 0⟩,  -- CMP_CTRL
    ⟨0x44, 0, 1, 0, 1, 0, 0, false, 0xFFFF, 0, 0, 0⟩,  -- CMP_MASK
    ⟨0x48, 0, 1, 0, 1, 0, 0, true, 0, 0, 0, 0⟩,  -- CMP_LIVE
    ⟨0x80, 4, 16, 0, 1, 0, 0, true, 0, 0, 0, 0⟩  -- CMP_FCNT[c]
  ]

/-- Registers of the SWM page at offsets 0x040 and above (R128). -/
def rowsSwm : List RegRow :=
  [
    ⟨0x40, 0, 1, 0, 1, 0, 0, false, 2, 0, 1, 0⟩,  -- SWM_CTRL
    ⟨0x44, 0, 1, 0, 1, 0, 0, true, 0, 0, 0, 0⟩,  -- SWM_STAT
    ⟨0x48, 0, 1, 0, 1, 0, 0, true, 0, 0, 0, 0⟩,  -- SWM_RESULT
    ⟨0x4C, 0, 1, 0, 1, 0, 0, false, 0xFFFFFFFF, 0, 0, 0⟩,  -- SWM_TGT_DRV
    ⟨0x50, 0, 1, 0, 1, 0, 0, false, 0xFFFFFFFF, 0, 0, 0⟩,  -- SWM_TGT_PMU
    ⟨0x54, 0, 1, 0, 1, 0, 0, true, 0, 0, 0, 0⟩,  -- SWM_CUR_DRV
    ⟨0x58, 0, 1, 0, 1, 0, 0, true, 0, 0, 0, 0⟩,  -- SWM_CUR_PMU
    ⟨0x5C, 0, 1, 0, 1, 0, 0, true, 0, 0, 0, 0⟩,  -- SWM_CUR_CAL
    ⟨0x60, 0, 1, 0, 1, 0, 0, false, 0x3F, 0, 0, 0⟩,  -- SWM_WEAR_IDX
    ⟨0x64, 0, 1, 0, 1, 0, 0, true, 0, 0, 0, 0⟩,  -- SWM_WEAR
    ⟨0x68, 0, 1, 0, 1, 0x6B49D200, 0, false, 0xFFFFFFFF, 0, 0, 0xFFFFFFFF⟩,  -- SWM_WEAR_WARN
    ⟨0x6C, 0, 1, 0, 1, 0, 0, true, 0, 0, 0, 0⟩,  -- SWM_WORN_LO
    ⟨0x70, 0, 1, 0, 1, 0, 0, true, 0, 0, 0, 0⟩  -- SWM_WORN_HI
  ]

/-- Registers of the TIM page at offsets 0x040 and above (R328). -/
def rowsTim : List RegRow :=
  [
    ⟨0x40, 0, 1, 0, 1, 0, 0, false, 0, 0, 0x1FFFF, 0⟩,  -- TIM_ARM
    ⟨0x44, 0, 1, 0, 1, 0, 0, false, 0, 0, 0x1FFFF, 0⟩,  -- TIM_STOP
    ⟨0x48, 0, 1, 0, 1, 0, 0, true, 0, 0, 0, 0⟩,  -- TIM_STATE
    ⟨0x4C, 0, 1, 0, 1, 0, 0, false, 0x80007FFF, 0, 0, 0⟩,  -- TIM_RING
    ⟨0x50, 0, 1, 0, 1, 0x64, 0, false, 0x3FFFF, 0, 0, 0⟩,  -- TIM_TDR_CTRL
    ⟨0x54, 0, 1, 0, 1, 0, 0, true, 0, 0, 0, 0⟩,  -- TIM_LOST_CNT
    ⟨0x58, 0, 1, 0, 1, 0, 0, true, 0, 0, 0, 0⟩,  -- TIM_MISS_CNT
    ⟨0x5C, 0, 1, 0, 1, 0, 0, true, 0, 0, 0, 0⟩,  -- TIM_UNPAIR_CNT
    ⟨0x60, 0, 1, 0, 1, 0, 0, true, 0, 0, 0, 0⟩,  -- TIM_RING_DROP
    ⟨0x64, 0, 1, 0, 1, 0, 0, false, 0x7F, 0, 0, 0⟩,  -- TIM_VCFG
    ⟨0x68, 0, 1, 0, 1, 0, 0, true, 0, 0, 0, 0⟩,  -- TIM_VSTAT
    ⟨0x6C, 0, 1, 0, 1, 0, 0, true, 0, 0, 0, 0⟩,  -- TIM_VFIFO
    ⟨0x70, 0, 1, 0, 1, 0, 0, true, 0, 0, 0, 0⟩,  -- TIM_VMISS_CNT
    ⟨0x100, 0x10, 16, 0, 1, 0, 0, false, 0xF03F377, 0, 0, 0⟩,  -- TIM_CFG[c]
    ⟨0x104, 0x10, 16, 0, 1, 0, 0, false, 0xFFFFFF, 0, 0, 0⟩,  -- TIM_N[c]
    ⟨0x108, 0x10, 16, 0, 1, 0, 0, false, 0x77777, 0, 0, 0⟩,  -- TIM_TL[c]
    ⟨0x10C, 0x10, 16, 0, 1, 0, 0, true, 0, 0, 0, 0⟩,  -- TIM_FSTAT[c]
    ⟨0x200, 8, 16, 0, 1, 0, 0, true, 0, 0, 0, 0⟩,  -- TIM_FIFO_LO[c]
    ⟨0x204, 8, 16, 0, 1, 0, 0, true, 0, 0, 0, 0⟩,  -- TIM_FIFO_HI[c]
    ⟨0x400, 0x40, 16, 4, 9, 0, 0, true, 0, 0, 0, 0⟩  -- TIM_RES[c][w]
  ]

/-- Registers of the PMU page at offsets 0x040 and above (R363). -/
def rowsPmu : List RegRow :=
  [
    ⟨0x40, 0, 1, 0, 1, 0, 0, false, 1, 0, 0, 0⟩,  -- PMU_GANG
    ⟨0x44, 0, 1, 0, 1, 0, 0, false, 0x130FFF, 0, 0x1000000, 0⟩,  -- PMU_WT_IDX
    ⟨0x48, 0, 1, 0, 1, 0, 0, false, 0x3FFFF, 0, 0, 0⟩,  -- PMU_WT_DATA
    ⟨0x4C, 0, 1, 0, 1, 0, 0, true, 0, 0, 0, 0⟩,  -- PMU_ILIM_CNT
    ⟨0x100, 0x40, 4, 0, 1, 0x30, 0, false, 0x773, 0, 0, 0⟩,  -- PMU_CTRL[u]
    ⟨0x104, 0x40, 4, 0, 1, 0, 0, true, 0, 0, 0, 0⟩,  -- PMU_STAT[u]
    ⟨0x108, 0x40, 4, 0, 1, 0xBB80, 0, false, 0x3FFFF, 0, 0, 0⟩,  -- PMU_FORCE[u]
    ⟨0x10C, 0x40, 4, 0, 1, 0x640064, 0, false, 0xFFFF017F, 0, 0, 0⟩,  -- PMU_ILIM[u]
    ⟨0x110, 0x40, 4, 0, 1, 0xFA00, 0, false, 0xFFFF, 0, 0, 0⟩,  -- PMU_VCLH[u]
    ⟨0x114, 0x40, 4, 0, 1, 0, 0, false, 0xFFFF, 0, 0, 0⟩,  -- PMU_VCLL[u]
    ⟨0x118, 0x40, 4, 0, 1, 0, 0, false, 0x7731FFFF, 0, 0, 0⟩,  -- PMU_WAVE[u]
    ⟨0x11C, 0x40, 4, 0, 1, 0, 0, false, 0xFFFFFFFF, 0, 0, 0⟩,  -- PMU_FREQ[u]
    ⟨0x120, 0x40, 4, 0, 1, 0, 0, false, 0xFFF, 0, 0, 0⟩,  -- PMU_PHASE[u]
    ⟨0x124, 0x40, 4, 0, 1, 0, 0, false, 0, 0x3F, 0, 0⟩  -- PMU_FLAGS[u]
  ]

/-- Registers of the CNV page at offsets 0x040 and above (R393). -/
def rowsCnv : List RegRow :=
  [
    ⟨0x40, 0, 1, 0, 1, 0, 0, false, 0, 0, 0xF, 0⟩,  -- CNV_ARM
    ⟨0x44, 0, 1, 0, 1, 0, 0, false, 0, 0, 0xF, 0⟩,  -- CNV_STOP
    ⟨0x48, 0, 1, 0, 1, 0, 0, true, 0, 0, 0, 0⟩,  -- CNV_STATE
    ⟨0x4C, 0, 1, 0, 1, 0, 0, false, 0x80007FFF, 0, 0, 0⟩,  -- CNV_RING
    ⟨0x50, 0, 1, 0, 1, 0, 0, false, 0xFFFFFFFF, 0, 0, 0⟩,  -- CNV_START_TICK_LO
    ⟨0x54, 0, 1, 0, 1, 0, 0, false, 0xFFFF, 0, 0, 0⟩,  -- CNV_START_TICK_HI
    ⟨0x58, 0, 1, 0, 1, 0, 0, true, 0, 0, 0, 0⟩,  -- CNV_NOW_LO
    ⟨0x5C, 0, 1, 0, 1, 0, 0, true, 0, 0, 0, 0⟩,  -- CNV_NOW_HI
    ⟨0x60, 0, 1, 0, 1, 0, 0, true, 0, 0, 0, 0⟩,  -- CNV_RING_DROP
    ⟨0x100, 0x40, 4, 0, 1, 0, 0, false, 0x373777, 0, 0, 0⟩,  -- CNV_CFG[u]
    ⟨0x104, 0x40, 4, 0, 1, 0x100064, 0, false, 0x13FFFF, 0, 0, 0⟩,  -- CNV_APER[u]
    ⟨0x108, 0x40, 4, 0, 1, 0, 0, true, 0, 0, 0, 0⟩,  -- CNV_DROPPED[u]
    ⟨0x110, 0x40, 4, 0, 1, 0, 0, true, 0, 0, 0, 0⟩,  -- CNV_RES[u][w]
    ⟨0x114, 0x40, 4, 0, 1, 0x800000, 0, true, 0, 0, 0, 0⟩,  -- CNV_RES[u][w]
    ⟨0x118, 0x40, 4, 4, 3, 0, 0, true, 0, 0, 0, 0⟩  -- CNV_RES[u][w]
  ]

/-- The block registers of a page kind. -/
def PageKind.rows : PageKind → List RegRow
  | .dir => rowsDir
  | .mod0 => rowsMod0
  | .modp => rowsModp
  | .pen => rowsPen
  | .gth => rowsGth
  | .hlk => rowsHlk
  | .hal => rowsHal
  | .rst => rowsRst
  | .wvn => rowsWvn
  | .log => rowsLog
  | .lan => rowsLan
  | .hbm => rowsHbm
  | .rng => rowsRng
  | .cat => rowsCat
  | .far => rowsFar
  | .tak => rowsTak
  | .yrd => []
  | .grm => rowsGrm
  | .groom => rowsGroom
  | .seq => rowsSeq
  | .apg => rowsApg
  | .tset => rowsTset
  | .site => rowsSite
  | .brn => rowsBrn
  | .tmb => rowsTmb
  | .acq => rowsAcq
  | .wch => rowsWch
  | .stl => rowsStl
  | .lvl => rowsLvl
  | .drv => rowsDrv
  | .cmp => rowsCmp
  | .swm => rowsSwm
  | .tim => rowsTim
  | .pmu => rowsPmu
  | .cnv => rowsCnv

/-- Words of a ring descriptor (R515, R516). -/
def rowsRingDesc : List RegRow :=
  [
    ⟨0, 0, 1, 0, 1, 0xF080, 0, false, 0xFFF301FF, 0, 0, 0⟩,  -- RNG_CTRL
    ⟨4, 0, 1, 0, 1, 0, 0, false, 0xFFFFFF00, 0, 0, 0⟩,  -- RNG_BASE_LO
    ⟨8, 0, 1, 0, 1, 0, 0, false, 7, 0, 0, 0⟩,  -- RNG_BASE_HI
    ⟨0xC, 0, 1, 0, 1, 0, 0, true, 0, 0, 0, 0⟩,  -- RNG_PIDX
    ⟨0x10, 0, 1, 0, 1, 0, 0, true, 0, 0, 0, 0⟩,  -- RNG_CIDX
    ⟨0x14, 0, 1, 0, 1, 1, 0, false, 0xFFFFFFFF, 0, 0, 0⟩,  -- RNG_MOD
    ⟨0x18, 0, 1, 0, 1, 0, 0, true, 0, 0, 0, 0⟩,  -- RNG_DROP
    ⟨0x1C, 0, 1, 0, 1, 0, 0, true, 0, 0, 0, 0⟩  -- RNG_STAT
  ]

/-- The row of `rs` that holds offset `o`, with the indices of `o` in it. -/
def findRow (rs : List RegRow) (o : Nat) : Option (RegRow × Nat × Nat) :=
  match rs with
  | [] => none
  | r :: t =>
    match r.indexOf o with
    | some (i, j) => some (r, i, j)
    | none => findRow t o

/-- The register at offset `o` of a page of kind `k`, or none where the offset is reserved (R75). -/
def regRow (k : PageKind) (o : Nat) : Option (RegRow × Nat × Nat) :=
  if o < 0x40 then findRow rowsHeader o else findRow k.rows o

/-- Whether the pages of a kind reset with PG_CTRL.EN = 1 (R60): yard pages do; sequencer, APG, barn, stall and WCH
pages do not. The groom pages are yard blocks (assumption 2). -/
def PageKind.enabledAtReset : PageKind → Bool
  | .seq | .apg | .tset | .site | .brn | .tmb | .acq | .wch => false
  | .stl | .lvl | .drv | .cmp | .swm | .tim | .pmu | .cnv => false
  | _ => true

/-- First byte of the ring descriptor window (R33, R515). -/
def ringWindow : Nat := 0x1000000

/-- One past the last byte of the ring descriptor window. -/
def ringWindowEnd : Nat := 0x1100000

/-- The reset value of the register at offset `o` of a page of kind `k`. -/
def pageReset (k : PageKind) (o : Nat) : Nat :=
  if o = 8 then (if k.enabledAtReset then 1 else 0)
  else
    match regRow k o with
    | some (r, i, _) => r.reset + r.step * i
    | none => 0

/-- The value that the register at BAR0 offset `a` holds at reset (R11). -/
def regReset (a : Nat) : Word :=
  if ringWindow ≤ a ∧ a < ringWindowEnd then
    match findRow rowsRingDesc (a % 0x20) with
    | some (r, _, _) => BitVec.ofNat 32 r.reset
    | none => 0
  else
    match pageAt a with
    | some p => BitVec.ofNat 32 (pageReset p.kind (a % 0x1000))
    | none => 0

end Sys2Proof.Machine
end

