-- ==== Sys2Proof/Machine/Offsets.lean ====
section
/-!
DEFINITION. Offsets of the registers within their pages, named as the page maps name them (one name per page-map row;
an indexed register is a function of its index). The common header comes first (R59), then the ring descriptor (R515).
-/

namespace Sys2Proof.Machine.Off

abbrev pgId : Nat := 0x0
abbrev pgCaps : Nat := 0x4
abbrev pgCtrl : Nat := 0x8
abbrev pgStat : Nat := 0xC
abbrev pgEvt : Nat := 0x10
abbrev pgEvtEn : Nat := 0x14
abbrev pgErr : Nat := 0x18
abbrev pgErrCnt : Nat := 0x1C
abbrev pgOwner : Nat := 0x20
abbrev pgLock : Nat := 0x24
abbrev rngCtrl : Nat := 0x0
abbrev rngBaseLo : Nat := 0x4
abbrev rngBaseHi : Nat := 0x8
abbrev rngPidx : Nat := 0xC
abbrev rngCidx : Nat := 0x10
abbrev rngMod : Nat := 0x14
abbrev rngDrop : Nat := 0x18
abbrev rngStat : Nat := 0x1C

-- MOD0
abbrev modDev : Nat := 0x40
abbrev modSet : Nat := 0x44
abbrev modCmd : Nat := 0x48
abbrev modResult : Nat := 0x4C
abbrev modDom : Nat := 0x50
abbrev modDomSup : Nat := 0x54
abbrev modWakeEn : Nat := 0x58
abbrev modWakeSrc : Nat := 0x5C
abbrev modM11Cause : Nat := 0x60

-- MODP
abbrev modPmode : Nat := 0x44
abbrev modPcmd : Nat := 0x48
abbrev modPresult : Nat := 0x4C

-- DIR
abbrev dirPart : Nat := 0x40
abbrev dirNpages : Nat := 0x44
abbrev dirIdx : Nat := 0x48
abbrev dirEntLo : Nat := 0x4C
abbrev dirEntHi : Nat := 0x50

-- STL
abbrev stlPark : Nat := 0x40
abbrev stlStat : Nat := 0x44
abbrev stlAssign (c : Nat) : Nat := 0x80 + c * 0x4

-- LVL
abbrev lvlCtrl : Nat := 0x40
abbrev lvlStat : Nat := 0x44
abbrev lvlBcastSel : Nat := 0x48
abbrev lvlBcastVal : Nat := 0x4C
abbrev lvlStrobeCnt : Nat := 0x50
abbrev lvlRefuseCnt : Nat := 0x54
abbrev lvlPre (c i : Nat) : Nat := 0x100 + c * 0x20 + i * 0x4
abbrev lvlAct (c i : Nat) : Nat := 0x300 + c * 0x20 + i * 0x4

-- DRV
abbrev drvCtrl : Nat := 0x40
abbrev drvShort : Nat := 0x44
abbrev drvShortCnt : Nat := 0x48
abbrev drvSlew : Nat := 0x4C

-- CMP
abbrev cmpCtrl : Nat := 0x40
abbrev cmpMask : Nat := 0x44
abbrev cmpLive : Nat := 0x48
abbrev cmpFcnt (c : Nat) : Nat := 0x80 + c * 0x4

-- SWM
abbrev swmCtrl : Nat := 0x40
abbrev swmStat : Nat := 0x44
abbrev swmResult : Nat := 0x48
abbrev swmTgtDrv : Nat := 0x4C
abbrev swmTgtPmu : Nat := 0x50
abbrev swmCurDrv : Nat := 0x54
abbrev swmCurPmu : Nat := 0x58
abbrev swmCurCal : Nat := 0x5C
abbrev swmWearIdx : Nat := 0x60
abbrev swmWear : Nat := 0x64
abbrev swmWearWarn : Nat := 0x68
abbrev swmWornLo : Nat := 0x6C
abbrev swmWornHi : Nat := 0x70

-- TMB
abbrev tmbCtrl : Nat := 0x40
abbrev tmbStat : Nat := 0x44
abbrev tmbSyncDly : Nat := 0x48
abbrev tmbSyncMargin : Nat := 0x4C
abbrev tmbTickLo : Nat := 0x50
abbrev tmbTickHi : Nat := 0x54
abbrev tmbEpochCnt : Nat := 0x58
abbrev tmbSyncIgn : Nat := 0x5C

-- TSET
abbrev seqTsStat : Nat := 0x40
abbrev seqTsIdx : Nat := 0x44
abbrev seqTsEdge (i : Nat) : Nat := 0x48 + i * 0x4
abbrev seqClashCnt : Nat := 0x60
abbrev seqClashLast : Nat := 0x64
abbrev seqClashVec : Nat := 0x68
abbrev seqTsChk : Nat := 0x6C
abbrev seqTsPer (t : Nat) : Nat := 0x80 + t * 0x4
abbrev seqFmt (e : Nat) : Nat := 0x100 + e * 0x4

-- SEQ
abbrev seqCtrl : Nat := 0x40
abbrev seqStat : Nat := 0x44
abbrev seqResultLo : Nat := 0x48
abbrev seqResultHi : Nat := 0x4C
abbrev seqStartAddr : Nat := 0x50
abbrev seqStartTickLo : Nat := 0x54
abbrev seqStartTickHi : Nat := 0x58
abbrev seqVcntLo : Nat := 0x5C
abbrev seqVcntHi : Nat := 0x60
abbrev seqPc : Nat := 0x64
abbrev seqSwflag : Nat := 0x68
abbrev seqEvNow : Nat := 0x6C
abbrev seqMarkRing : Nat := 0x70
abbrev seqMarkCnt : Nat := 0x74
abbrev seqTrigCnt : Nat := 0x78
abbrev seqRbSel (n : Nat) : Nat := 0x80 + n * 0x4
abbrev seqLstk (i : Nat) : Nat := 0xA0 + i * 0x4
abbrev seqCstk (i : Nat) : Nat := 0xC0 + i * 0x4
abbrev seqStrmCtrl : Nat := 0x200
abbrev seqStrmStat : Nat := 0x204
abbrev seqPrimeResult : Nat := 0x208
abbrev seqSdirLo : Nat := 0x20C
abbrev seqSdirHi : Nat := 0x210
abbrev seqSdirN : Nat := 0x214
abbrev seqPanicCnt : Nat := 0x218
abbrev seqStarveEvt : Nat := 0x21C
abbrev seqStarveCycLo : Nat := 0x220
abbrev seqStarveCycHi : Nat := 0x224
abbrev seqStrmFault : Nat := 0x228
abbrev seqSegCnt : Nat := 0x22C
abbrev seqMangerUse : Nat := 0x230

-- SITE
abbrev siteCtrl : Nat := 0x40
abbrev siteStat : Nat := 0x44
abbrev siteRing : Nat := 0x48
abbrev siteIdx : Nat := 0x4C
abbrev siteRes (i : Nat) : Nat := 0x50 + i * 0x4
abbrev siteLost : Nat := 0x6C
abbrev sitePostDrop : Nat := 0x70
abbrev capBaseLo : Nat := 0x74
abbrev capBaseHi : Nat := 0x78
abbrev capSize : Nat := 0x7C
abbrev capLimit : Nat := 0x80
abbrev capWptrLo : Nat := 0x84
abbrev capWptrHi : Nat := 0x88
abbrev capStat : Nat := 0x8C
abbrev capCnt : Nat := 0x90
abbrev capDrop : Nat := 0x94
abbrev siteEnroll (w : Nat) : Nat := 0x100 + w * 0x4
abbrev siteAct (w : Nat) : Nat := 0x140 + w * 0x4
abbrev siteFail (w : Nat) : Nat := 0x180 + w * 0x4

-- CAT
abbrev catStat : Nat := 0x40
abbrev catRecLo : Nat := 0x44
abbrev catRecHi : Nat := 0x48
abbrev catDrop : Nat := 0x4C
abbrev catPeak : Nat := 0x50

-- APG
abbrev apgCurLo : Nat := 0x40
abbrev apgCurHi : Nat := 0x44
abbrev apgStat : Nat := 0x48
abbrev apgDctrl : Nat := 0x4C
abbrev apgDbg : Nat := 0x50
abbrev apgXmin : Nat := 0x54
abbrev apgXmax : Nat := 0x58
abbrev apgXinit : Nat := 0x5C
abbrev apgXstride : Nat := 0x60
abbrev apgYmin : Nat := 0x64
abbrev apgYmax : Nat := 0x68
abbrev apgYinit : Nat := 0x6C
abbrev apgYstride : Nat := 0x70
abbrev apgZrng : Nat := 0x74
abbrev apgTopoSelLo : Nat := 0x78
abbrev apgTopoSelHi : Nat := 0x7C
abbrev apgTopo (w : Nat) : Nat := 0x80 + w * 0x4
abbrev apgScr (n : Nat) : Nat := 0x100 + n * 0x4
abbrev apgCmap (c : Nat) : Nat := 0x200 + c * 0x4

-- TIM
abbrev timArm : Nat := 0x40
abbrev timStop : Nat := 0x44
abbrev timState : Nat := 0x48
abbrev timRing : Nat := 0x4C
abbrev timTdrCtrl : Nat := 0x50
abbrev timLostCnt : Nat := 0x54
abbrev timMissCnt : Nat := 0x58
abbrev timUnpairCnt : Nat := 0x5C
abbrev timRingDrop : Nat := 0x60
abbrev timVcfg : Nat := 0x64
abbrev timVstat : Nat := 0x68
abbrev timVfifo : Nat := 0x6C
abbrev timVmissCnt : Nat := 0x70
abbrev timCfg (c : Nat) : Nat := 0x100 + c * 0x10
abbrev timN (c : Nat) : Nat := 0x104 + c * 0x10
abbrev timTl (c : Nat) : Nat := 0x108 + c * 0x10
abbrev timFstat (c : Nat) : Nat := 0x10C + c * 0x10
abbrev timFifoLo (c : Nat) : Nat := 0x200 + c * 0x8
abbrev timFifoHi (c : Nat) : Nat := 0x204 + c * 0x8
abbrev timRes (c w : Nat) : Nat := 0x400 + c * 0x40 + w * 0x4

-- PMU
abbrev pmuGang : Nat := 0x40
abbrev pmuWtIdx : Nat := 0x44
abbrev pmuWtData : Nat := 0x48
abbrev pmuIlimCnt : Nat := 0x4C
abbrev pmuCtrl (u : Nat) : Nat := 0x100 + u * 0x40
abbrev pmuStat (u : Nat) : Nat := 0x104 + u * 0x40
abbrev pmuForce (u : Nat) : Nat := 0x108 + u * 0x40
abbrev pmuIlim (u : Nat) : Nat := 0x10C + u * 0x40
abbrev pmuVclh (u : Nat) : Nat := 0x110 + u * 0x40
abbrev pmuVcll (u : Nat) : Nat := 0x114 + u * 0x40
abbrev pmuWave (u : Nat) : Nat := 0x118 + u * 0x40
abbrev pmuFreq (u : Nat) : Nat := 0x11C + u * 0x40
abbrev pmuPhase (u : Nat) : Nat := 0x120 + u * 0x40
abbrev pmuFlags (u : Nat) : Nat := 0x124 + u * 0x40

-- BRN
abbrev brnRefCtrl : Nat := 0x40
abbrev brnRefStat : Nat := 0x44
abbrev brnLineCfg : Nat := 0x48
abbrev brnLinePer : Nat := 0x4C
abbrev brnLineStat : Nat := 0x50

-- CNV
abbrev cnvArm : Nat := 0x40
abbrev cnvStop : Nat := 0x44
abbrev cnvState : Nat := 0x48
abbrev cnvRing : Nat := 0x4C
abbrev cnvStartTickLo : Nat := 0x50
abbrev cnvStartTickHi : Nat := 0x54
abbrev cnvNowLo : Nat := 0x58
abbrev cnvNowHi : Nat := 0x5C
abbrev cnvRingDrop : Nat := 0x60
abbrev cnvCfg (u : Nat) : Nat := 0x100 + u * 0x40
abbrev cnvAper (u : Nat) : Nat := 0x104 + u * 0x40
abbrev cnvDropped (u : Nat) : Nat := 0x108 + u * 0x40
abbrev cnvRes (u w : Nat) : Nat := 0x110 + u * 0x40 + w * 0x4

-- ACQ
abbrev acqCtrl : Nat := 0x40
abbrev acqStat : Nat := 0x44
abbrev acqSmaskLo : Nat := 0x48
abbrev acqSmaskHi : Nat := 0x4C
abbrev acqTrig : Nat := 0x50
abbrev acqLevel : Nat := 0x54
abbrev acqLvcfg : Nat := 0x58
abbrev acqQual : Nat := 0x5C
abbrev acqPre : Nat := 0x60
abbrev acqPost : Nat := 0x64
abbrev acqK : Nat := 0x68
abbrev acqNrec : Nat := 0x6C
abbrev acqRing : Nat := 0x70
abbrev acqMissed : Nat := 0x74
abbrev acqReject : Nat := 0x78
abbrev acqRingDrop : Nat := 0x7C
abbrev acqBadstrLo : Nat := 0x80
abbrev acqBadstrHi : Nat := 0x84
abbrev acqRes (w : Nat) : Nat := 0x88 + w * 0x4
abbrev acqRdIdx : Nat := 0xA0
abbrev acqRd (w : Nat) : Nat := 0xA4 + w * 0x4
abbrev acqSkew (i : Nat) : Nat := 0x100 + i * 0x4

-- WCH
abbrev wchCtrl : Nat := 0x40
abbrev wchTick : Nat := 0x44
abbrev wchLive : Nat := 0x48
abbrev wchUnres : Nat := 0x4C
abbrev wchXing : Nat := 0x50
abbrev wchXingCnt : Nat := 0x54
abbrev wchTripCnt : Nat := 0x58
abbrev wchEscEn : Nat := 0x5C
abbrev wchCfg (c : Nat) : Nat := 0x100 + c * 0x8
abbrev wchThr (c : Nat) : Nat := 0x104 + c * 0x8

-- FAR
abbrev farCtrl : Nat := 0x40
abbrev farCfg : Nat := 0x44
abbrev farScope : Nat := 0x48
abbrev farPenEn : Nat := 0x4C
abbrev farStat : Nat := 0x50
abbrev farResultLo : Nat := 0x54
abbrev farResultHi : Nat := 0x58
abbrev farEpoch : Nat := 0x5C
abbrev farWinTickLo : Nat := 0x60
abbrev farWinTickHi : Nat := 0x64
abbrev farWinCfg : Nat := 0x68
abbrev farSwTmo : Nat := 0x6C
abbrev farSteps : Nat := 0x70
abbrev farStepAbort : Nat := 0x74
abbrev farLeft : Nat := 0x78
abbrev farFail (g : Nat) : Nat := 0x80 + g * 0x4

-- TAK
abbrev takStat : Nat := 0x40
abbrev takEpochA : Nat := 0x44
abbrev takEpochB : Nat := 0x48
abbrev takStoreResult : Nat := 0x4C
abbrev takTemp (b : Nat) : Nat := 0x50 + b * 0x4
abbrev takDrift : Nat := 0x70

-- GRM
abbrev grmCtrl : Nat := 0x40
abbrev grmStat : Nat := 0x44
abbrev grmPatch : Nat := 0x48
abbrev grmDispIdx : Nat := 0x4C
abbrev grmDisp : Nat := 0x50
abbrev grmSbeCnt : Nat := 0x54
abbrev grmMchkCnt : Nat := 0x58
abbrev grmMchkLast : Nat := 0x5C
abbrev grmWdtCnt : Nat := 0x60
abbrev grmShare (o : Nat) : Nat := 0x80 + o * 0x4
abbrev grmUsed (o : Nat) : Nat := 0xC0 + o * 0x4
abbrev grmBadrec (o : Nat) : Nat := 0x100 + o * 0x4
abbrev grmAccCnt (o : Nat) : Nat := 0x140 + o * 0x4
abbrev grmLost (o : Nat) : Nat := 0x180 + o * 0x4

-- RNG
abbrev rngAsgRange : Nat := 0x40
abbrev rngAsgCmd : Nat := 0x44
abbrev rngErrRing : Nat := 0x48
abbrev rngEnabled : Nat := 0x4C
abbrev rngEvtRing (o : Nat) : Nat := 0x50 + o * 0x4

-- HBM
abbrev hbmCtrl : Nat := 0x40
abbrev hbmStat : Nat := 0x44
abbrev hbmRateCmd : Nat := 0x48
abbrev hbmRateResult : Nat := 0x4C
abbrev hbmTrn : Nat := 0x50
abbrev hbmPanic : Nat := 0x54
abbrev hbmPanicCnt : Nat := 0x58
abbrev hbmRfshDebt : Nat := 0x5C
abbrev hbmRfshPost : Nat := 0x60
abbrev hbmRfshSplit : Nat := 0x64
abbrev hbmRfshForced : Nat := 0x68
abbrev hbmCeCnt : Nat := 0x6C
abbrev hbmUeCnt : Nat := 0x70
abbrev hbmPoisonCnt : Nat := 0x74
abbrev hbmErrAddrLo : Nat := 0x78
abbrev hbmErrAddrHi : Nat := 0x7C
abbrev hbmRowIdx : Nat := 0x80
abbrev hbmRowLog : Nat := 0x84
abbrev hbmRepairCmd : Nat := 0x88
abbrev hbmRepairResult : Nat := 0x8C
abbrev hbmTemp : Nat := 0x90
abbrev hbmXmap (j : Nat) : Nat := 0xA0 + j * 0x4

-- HLK
abbrev hlkId : Nat := 0x40
abbrev hlkPortcfg : Nat := 0x44
abbrev hlkLstat (k : Nat) : Nat := 0x48 + k * 0x4
abbrev hlkDownCnt : Nat := 0x50
abbrev hlkHotrstCnt : Nat := 0x54
abbrev hlkFlrCnt : Nat := 0x58
abbrev hlkUrCnt : Nat := 0x5C
abbrev hlkMsgDrop : Nat := 0x60
abbrev hlkFnmap (f : Nat) : Nat := 0x80 + f * 0x4
abbrev hlkVec (f : Nat) : Nat := 0x100 + f * 0x4
abbrev hlkAccerr (f : Nat) : Nat := 0x180 + f * 0x4
abbrev hlkSig (o : Nat) : Nat := 0x200 + o * 0x4

-- PEN
abbrev penRst : Nat := 0x40
abbrev penStat : Nat := 0x44
abbrev penRgnIdx : Nat := 0x48
abbrev penRgnBase : Nat := 0x4C
abbrev penRgnLast : Nat := 0x50
abbrev penRgnCfg : Nat := 0x54
abbrev penKeyEpoch (o : Nat) : Nat := 0x80 + o * 0x4

-- GTH
abbrev gthStat : Nat := 0x40
abbrev gthBootResult : Nat := 0x44
abbrev gthSvn : Nat := 0x48
abbrev gthImgSvn : Nat := 0x4C
abbrev gthSvnCmd : Nat := 0x50
abbrev gthSvnResult : Nat := 0x54
abbrev gthTamper : Nat := 0x58
abbrev gthTamperEn : Nat := 0x5C
abbrev gthDbgNonce (w : Nat) : Nat := 0x60 + w * 0x4
abbrev gthDbgCmd : Nat := 0x70
abbrev gthDbgResult : Nat := 0x74
abbrev gthFlashDir : Nat := 0x78
abbrev gthDbgRec (w : Nat) : Nat := 0x80 + w * 0x4
abbrev gthSerialLo : Nat := 0x100
abbrev gthSerialHi : Nat := 0x104

-- HAL
abbrev halSwin : Nat := 0x40
abbrev halSstat : Nat := 0x44
abbrev halBadframe : Nat := 0x48
abbrev halAccerr : Nat := 0x4C
abbrev halFrames : Nat := 0x50
abbrev halMmfault : Nat := 0x54
abbrev halBootcfg : Nat := 0x58
abbrev halMctrl : Nat := 0x60
abbrev halMlen : Nat := 0x64
abbrev halMresult : Nat := 0x68
abbrev halTxbuf (w : Nat) : Nat := 0x200 + w * 0x4
abbrev halRxbuf (w : Nat) : Nat := 0x400 + w * 0x4

-- RST
abbrev rstStat : Nat := 0x40
abbrev rstSrc : Nat := 0x44
abbrev rstLast : Nat := 0x48
abbrev rstIslPend : Nat := 0x4C
abbrev rstIslLockfail : Nat := 0x50
abbrev rstOpt : Nat := 0x54
abbrev rstTotal : Nat := 0x58
abbrev rstCnt (k : Nat) : Nat := 0x60 + k * 0x4

-- WVN
abbrev wvnCtrl : Nat := 0x40
abbrev wvnStat : Nat := 0x44
abbrev wvnWarn : Nat := 0x48
abbrev wvnGrace : Nat := 0x4C
abbrev wvnRound : Nat := 0x50
abbrev wvnBrokenLo : Nat := 0x54
abbrev wvnBrokenMid : Nat := 0x58
abbrev wvnBrokenHi : Nat := 0x5C
abbrev wvnSupOor : Nat := 0x60
abbrev wvnEnfCnt : Nat := 0x64
abbrev wvnForcedHold : Nat := 0x68
abbrev wvnIdx : Nat := 0x6C
abbrev wvnRead : Nat := 0x70
abbrev wvnThr (i : Nat) : Nat := 0x80 + i * 0x4
abbrev wvnBarn (b : Nat) : Nat := 0xA0 + b * 0x4

-- LAN
abbrev lanStat : Nat := 0x40
abbrev lanTickLo : Nat := 0x44
abbrev lanTickHi : Nat := 0x48
abbrev lanLogIdx : Nat := 0x4C
abbrev lanLogLo : Nat := 0x50
abbrev lanLogHi : Nat := 0x54
abbrev lanLogWptr : Nat := 0x58
abbrev lanLogFrz : Nat := 0x5C
abbrev lanLogLost : Nat := 0x60
abbrev lanLogWritten : Nat := 0x64
abbrev lanWearIdx : Nat := 0x68
abbrev lanWear : Nat := 0x6C
abbrev lanRstIdx : Nat := 0x70
abbrev lanRstCnt : Nat := 0x74
abbrev lanRstTotal : Nat := 0x78
abbrev lanTamper : Nat := 0x7C

-- LOG
abbrev logCtrl : Nat := 0x40
abbrev logMark : Nat := 0x44

-- GROOM
abbrev grmCoreStat : Nat := 0x40
abbrev grmCoreTag : Nat := 0x44
abbrev grmCorePc : Nat := 0x48
abbrev grmCoreElapsed : Nat := 0x4C
abbrev grmCoreDone : Nat := 0x50
abbrev grmCoreStaged : Nat := 0x54

end Sys2Proof.Machine.Off
end

