-- ==== Sys2Proof/Machine/State.lean ====
section
/-!
DEFINITION. The state of the Q2048 as plain data, and the state after reset.

Registers have ONE home: `State.regs`, keyed by BAR0 offset, in canonical form over their reset values. What a register
shows whole (counters, status codes, results) lives there and nowhere else. The fields beside it hold what no register
shows: engines between two events, the lantern, the hayloft, the pins, and the queue of waiting commands.
-/

namespace Sys2Proof.Machine

/-- The device modes (R35). -/
inductive DevMode where
  | m0 | m1 | m2 | m3 | m4 | m5 | m10 | m11
  deriving DecidableEq, Repr

/-- The domain modes (R36). -/
inductive DomMode where
  | m4 | m6 | m7 | m8 | m9
  deriving DecidableEq, Repr

/-- The mode layer (Operating Modes). -/
structure ModeSt where
  /-- The device mode (R35). -/
  dev : DevMode
  /-- A device transition in progress: its target, and whether a MOD_CMD request asked for it (R53). -/
  trans : Option (DevMode × Bool)
  /-- Domain mode of each domain, pen 0 to 7 and the supervisor domain 8, in M4 (R36). Default M4. -/
  doms : List (Nat × DomMode)
  /-- Domain transitions in progress, by domain (R53). -/
  domTrans : List (Nat × DomMode)
  /-- Islands, training and loads completed on the way from M3 to M4 (row 4 of R47): hayloft training done, tack
  room load done. -/
  trainDone : Bool
  tackLoaded : Bool
  /-- The part has armed its own STANDALONE epoch in this M3 (R156). -/
  autoArmed : Bool
  /-- A wake source came during the entry to M5: the wake proceeds once the entry is complete (R54). -/
  wakeDue : Option Nat
  /-- The device has been in M4 since it last came out of reset (R566). -/
  served : Bool
  deriving DecidableEq, Repr

/-- Status with which the last request of a host function completed (R78, R560, R566, R571). -/
inductive Completion where
  | success
  | retry
  | unsupported
  | abort
  | poisoned
  deriving DecidableEq, Repr

/-- Balls whose level the model holds (Package, Reset). -/
structure Pins where
  /-- VIN is within its operating range. -/
  vin : Bool
  /-- VBAK is present. -/
  vbak : Bool
  /-- RESET_N and PERST_N are taken as asserted. -/
  resetN : Bool
  perstN : Bool
  /-- Levels last recognised at EV_IN_0 to EV_IN_3, bit k for line k (R184). -/
  evIn : Nat
  /-- Level of INDEX_N: true is high. -/
  indexN : Bool
  /-- Open-drain outputs: true while the part pulls the ball low. -/
  tripLow : Bool
  alertLow : Bool
  wakeLow : Bool
  /-- First tick of the pulse last launched on SYNC_OUT, 128 ticks long (R151). -/
  syncOut : Option Nat
  /-- HS_SEL_0 to HS_SEL_3 driven low, bit n for output n (R616). -/
  selLow : Nat
  /-- HS_CS_N is low (R618). -/
  csLow : Bool
  deriving DecidableEq, Repr

/-- Configuration state of one PCI Express function (Host Link). -/
structure FnCfg where
  mse : Bool
  bme : Bool
  msixEn : Bool
  fmask : Bool
  vfEn : Bool
  /-- Memory Space Enable of the SR-IOV capability of a PF, and D3hot (R559, R565). -/
  vfMse : Bool
  d3 : Bool
  /-- Uncorrectable errors that AER reports, the header log of the first of them, and the enables of ECRC generation and check
  (R559, R571). -/
  aer : Word
  hdr : List Word
  ecrcGen : Bool
  ecrcChk : Bool
  deriving DecidableEq, Repr

/-- A message that has left the part: MSI-X vector `vec` of function `fn` (R575), a write of `data` to host address `addr`. -/
structure Msg where
  fn : Nat
  vec : Nat
  addr : Nat
  data : Word
  deriving DecidableEq, Repr

/-- Who offers an entry to a ring (R519). `site` and `mark` are the two producers of a sequencer, `groom` posts for an
owner. -/
inductive Producer where
  | site (q : Nat)
  | mark (q : Nat)
  | tim (s : Nat)
  | cnv (s : Nat)
  | acq (b : Nat)
  | groom (g owner : Nat)
  | page
  | device
  deriving DecidableEq, Repr

/-- An entry that a producer holds while its ring refuses it under BACKP (R525). -/
structure Held where
  prod : Producer
  ty : Nat
  body : Nat
  deriving DecidableEq, Repr

/-- State of a ring outside its descriptor words. -/
structure RingSt where
  /-- Entries accepted (OUT) or consumed (IN) since the last message (R528). -/
  since : Nat
  /-- A drop message has been sent since the last message for accepted entries (R528). -/
  dropMsg : Bool
  /-- The next accepted entry carries GAP (R525). -/
  gap : Bool
  /-- Entries waiting under BACKP, oldest first. -/
  held : List Held
  /-- Indices of waiting service records that a CANCEL has removed (R494). -/
  cancelled : List Nat
  /-- Doorbells of a command ring whose entries are not all consumed, oldest first: the producer index that each set, and
  its order among all doorbells and records (R488). -/
  bells : List (Nat × Nat)
  deriving DecidableEq, Repr

/-- A hayloft region entry of the PEN page (R589). -/
structure Region where
  base : Nat
  last : Nat
  owner : Nat
  kind : Nat
  en : Bool
  deriving DecidableEq, Repr

/-- The hayloft: stored bytes, the key under which each 32-byte word was written (R593), and poisoned words (R552). -/
structure Hayloft where
  cells : List Host.Cell
  tags : List (Nat × Nat)
  poison : List (Nat × Bool)
  /-- Bank mapping in force: HBM_XMAP as of the last remap, by index (R533, R534). -/
  xmap : List (Nat × Word)
  /-- Corrected errors of each row since reset, and the row log with its REPAIRED flags (R554). A row is keyed by
  row + 2¹⁵ × bank address. -/
  rowCe : List (Nat × Nat)
  rowLog : List (Nat × Bool)
  deriving DecidableEq, Repr

/-- The lantern (Logbook and Fault Domains). -/
structure Lantern where
  /-- The 40-bit lantern tick (R658). -/
  tick : Nat
  /-- Logbook slots; an empty slot reads 0 (R672). -/
  slots : List (Nat × BitVec 64)
  wptr : Nat
  wrapped : Bool
  frz : Nat
  frozen : Bool
  /-- The queue is closed: M11 has been entered and the freeze is not complete (R662). -/
  closed : Bool
  lost : Nat
  written : Nat
  /-- Entries queued and not yet written, oldest first (R660): bits [63:24] of R657. -/
  queue : List Nat
  onVbak : Bool
  oscFail : Bool
  /-- Wear counter 48 s + n (R665), and the WORN flag of each switch (R114). -/
  wear : List (Nat × Nat)
  worn : List (Nat × Bool)
  /-- Reset counter of each cause, total, RST_LAST (R629, R630). -/
  rstCnt : List (Nat × Nat)
  rstTotal : Nat
  rstLast : Nat
  /-- GTH_TAMPER (R600). -/
  tamper : Nat
  deriving DecidableEq, Repr

/-- The one-time-programmable option rows (R631), as the registers show them. -/
structure Otp where
  serial : Nat
  vendor : Nat
  split : Bool
  bootCfg : Nat
  flashDir : Nat
  /-- Programmed bits of the anti-rollback counter (R587). -/
  svn : Nat
  deriving DecidableEq, Repr

/-- A switch batch in progress (R106): its target, whether PMU switches move hot (R108), whether it still waits for the
farrier's step (R123), and the channels whose driver and PMU switches it moves. -/
structure Batch where
  tgtDrv : Nat
  tgtPmu : Nat
  hot : Bool
  waiting : Bool
  mvDrv : Nat
  mvPmu : Nat
  deriving DecidableEq, Repr

/-- State of a stall outside its pages. -/
structure StallSt where
  /-- The DRV_SLEW codes in force, copied from the register at the load strobe (R94, R99). -/
  slewAct : Word
  batch : Option Batch
  /-- PMU switches whose last make was hot (R113), bit c. -/
  hotMade : Nat
  /-- Switches n = 3c + k whose opening is not confirmed after a switch fault (R115). -/
  stuck : Nat
  /-- Channels held at high impedance by a rank-1 event (R28, R120). -/
  hiz : Nat
  /-- Switches n = 3c + k commanded open outside a batch, whose opening is not confirmed yet (R115, R117). -/
  opening : Nat
  /-- Tick of `State.now` of the last load strobe, and whether an LDLV gave it (R123). -/
  strobeAt : Option (Nat × Bool)
  /-- Tick of `State.now` of the first TDR launch of the runs in progress in the stall (R309). -/
  tdrFirst : Option Nat
  /-- The TIM unit of the stall whose turn to drain comes next; 16 is the vernier unit (R317). -/
  turn : Nat
  deriving DecidableEq, Repr
/-- An accepted ARM that waits for its epoch: the mode that governs it, and the tick of `State.now` of its acceptance (R151,
R708). -/
structure Arm where
  mode : Nat
  at_ : Nat
  deriving DecidableEq, Repr

/-- Action of a placed edge (R143): what a drive edge does, or what a strobe expects. -/
inductive EdgeAct where
  | openWin
  | low
  | high
  | flip
  | closeHiz
  | closeTerm
  | expLow
  | expHigh
  | expMid
  deriving DecidableEq, Repr

/-- A placed edge that has not fired: its needle-plane time in 250 fs units, its edge index, its action, and the vector
that owns it, counted from the start of the run (R141, R142). -/
structure Edge where
  time : Nat
  idx : Nat
  act : EdgeAct
  vec : Nat
  /-- Deskew coefficients of its channel in the bank active at the start of its vector (R149), and CMP_MASK of its channel
  at that boundary (R127). -/
  coef : Nat
  masked : Bool
  deriving DecidableEq, Repr

/-- Drive window of a channel (R90, R144). -/
inductive Window where
  | hiz
  | term
  | opened
  deriving DecidableEq, Repr

/-- Timing state of a channel. -/
structure ChanSt where
  level : Bool
  window : Window
  /-- Inhibit code presented in the vector last issued (R146). -/
  inh : Option Nat
  edges : List Edge
  /-- Times of the kept drive edges and strobes that still matter to R142. -/
  keptDrive : List Nat
  keptStrobe : List Nat
  /-- Tick and fine delay at which the stall last fired an edge of the channel, deskew included (R131, R148). -/
  fired : Option (Nat × Nat)
  /-- STB_A and STB_B times of the vectors of its sequencer that compare on the channel, its site being active (R301). -/
  strobes : List (Nat × Nat)
  deriving DecidableEq, Repr

/-- A segment of the map (R205, R207): base address, granules, hayloft address of its image, declared hint targets. -/
structure Seg where
  base : Nat
  ngran : Nat
  image : Nat
  hints : List Nat
  deriving DecidableEq, Repr

/-- A predicate stack entry (R240, R243). -/
inductive PredEntry where
  | cond (saved els : Nat) (past : Bool)
  | loop (saved limit : Nat) (counts : List (Nat × Nat))
  deriving DecidableEq, Repr

/-- First-fail record of a site (R254). -/
structure FirstFail where
  vcnt : Nat
  addr : Nat
  tag : Nat
  chan : Nat
  count : Nat
  stbA : Bool
  stbB : Bool
  deriving DecidableEq, Repr

/-- Per-site state of a sequencer (R236): one 512-bit mask for each one-bit item, and sparse counts. `sticky` stands as
of the vectors that have left the pipeline. -/
structure Sites where
  startEnr : Nat
  enrolled : Nat
  active : Nat
  sticky : Nat
  starved : Nat
  swto : Nat
  setfail : Nat
  killed : Nat
  caplost : Nat
  caplim : Nat
  stack : List PredEntry
  lastSw : List (Nat × Nat)
  fcnt : List (Nat × Nat)
  first : List (Nat × FirstFail)
  capCnt : List (Nat × Nat)
  deriving DecidableEq, Repr

/-- A failing strobe: channel, its site and column, and whether it is STB_B. -/
structure Fail where
  chan : Nat
  site : Nat
  col : Nat
  stbB : Bool
  deriving DecidableEq, Repr

/-- An issued vector in the fail and event pipeline (R177): its index, address, APG tag, site-active mask, SITEOP, the
strobe fails judged so far, and its event sample (EV_IN levels, software flags, and for each ready/busy
slot the ready sites and those that take part). -/
structure VecRec where
  index : Nat
  addr : Nat
  tag : Nat
  active : Nat
  siteop : Nat
  fails : List Fail
  evIn : Nat
  flags : Nat
  slots : List (Nat × Nat)
  /-- For POST: the site state that the vector leaves (R259). -/
  post : Option Sites
  deriving DecidableEq, Repr

/-- The state of an APG: registers, carries of the last issued vector, and save set (R271). -/
structure Apg where
  x : Nat
  y : Nat
  z : Nat
  inv : Bool
  xc : Bool
  yc : Bool
  sx : Nat
  sy : Nat
  sz : Nat
  sinv : Bool
  deriving DecidableEq, Repr

/-- Settings that a start fixes for its run (Effective: at the next start). -/
structure RunCfg where
  endHiz : Bool
  abortPolicy : Bool
  onEvent : Option Nat
  markRing : Word
  rbSel : List Word
  siteCtrl : Word
  siteRing : Nat
  capBase : Nat
  capSize : Nat
  capLimit : Nat
  bypass : Bool
  /-- START_MODE of the start (R193). -/
  mode : Nat
  /-- The tables as copied into the stalls at the start (R139): periods, format entries, and edges by the keys of
  `State.tsEdges`. -/
  periods : List Word
  formats : List Word
  edges : List (Nat × Word)
  deriving DecidableEq, Repr

/-- How a run ends: CODE, INFO, whether its end state is HIZ, and whether it posts FINAL entries (R198, R257). -/
structure RunEnd where
  code : Nat
  info : Nat
  hiz : Bool
  final : Bool
  deriving DecidableEq, Repr

/-- A sequencer outside its pages. -/
structure SeqSt where
  cfg : RunCfg
  /-- Tick at which vector 0 begins, once known (R193). -/
  startAt : Option Nat
  /-- Start of the next vector, in 250 fs units since the epoch (R133). -/
  vtime : Nat
  /-- Address of the next vector, issues of an RPT or CALGAP still to come, whether the next vector is reached by the
  backward jump of an ENDL (R173), and whether a vector has been issued since the start or the end
  of the last hold. -/
  next : Nat
  left : Nat
  fromEndl : Bool
  issued : Bool
  /-- STOP has been written while no vector was issued yet. -/
  stopping : Bool
  /-- The hold in progress is, or has been, a starvation hold (R227). -/
  starving : Bool
  /-- Start and end of the calibration gap in progress, in 250 fs units since the epoch (R188, R454). -/
  gap : Option (Nat × Nat)
  /-- The loop stack: address of the LOOP vector and remaining count, innermost first; the call stack (R172). -/
  loops : List (Nat × Nat)
  calls : List Nat
  pipe : List VecRec
  sites : Sites
  ending : Option RunEnd
  /-- A thermal hold is asked for at the next segment boundary, or at the next vector boundary (R648, R649). -/
  thermSeg : Bool
  thermVec : Bool
  /-- POST snapshots waiting, oldest first: the bodies of their entries (R259). -/
  snaps : List (List Nat)
  /-- The APG, and as it was at the start of the vector last issued (R291). -/
  apg : Apg
  apgPrev : Apg
  /-- A start has been accepted since the site page was reset; the number of the last run (R258). -/
  ran : Bool
  runNum : Nat
  /-- The segment map, if valid; the resident granules, each with its 64 vector words as they were read (R214); the last
  distinct granules issued, newest first; granules whose first read failed (R229). -/
  map : Option (List Seg)
  resident : List (Nat × Nat)
  recent : List Nat
  retried : List Nat
  deriving DecidableEq, Repr

/-- A capture record in the catch unit (R263): its sequencer, site and 128-bit content. -/
structure CapRec where
  seq : Nat
  site : Nat
  body : Nat
  deriving DecidableEq, Repr

/-- A logged stamp (R315): value, source, and whether stamps were lost before it. -/
structure Stamp where
  val : Nat
  src : Nat
  lost : Bool
  deriving DecidableEq, Repr

/-- A native TIM unit outside its page (Time-Interval Measurement). -/
structure TimUnit where
  /-- The unit is outside IDLE (R321). -/
  live : Bool
  /-- Ring to which the FIFO drains, fixed at the arm (R316). -/
  ring : Option Nat
  fifo : List Stamp
  /-- The next logged stamp carries LOST. -/
  lostNext : Bool
  /-- Samples or, in STAMP mode, stamps of the run, and their sums and extremes (R306). -/
  count : Nat
  sum : Int
  sumSq : Int
  low : Int
  high : Int
  /-- Last stamp of the run, raw time of the event stamped last and of the last event that the prescaler counted, and events
  still to skip (R298, R302). -/
  last : Option Nat
  lastRaw : Option Nat
  lastEvent : Option Nat
  skip : Nat
  /-- The last two stamps of the unit, of this run or an earlier one, and the last two reference pulses since the arm (R304),
  oldest first; whether the LINES window is open (R301), and the tick of the last pulse that closed it (R327). -/
  stamps : List Nat
  refs : List Nat
  opened : Bool
  closedAt : Option Nat
  /-- Pulses of its sequencer since the arm that are not reached yet: time in 250 fs units, lines (R301, R304, R323). -/
  pulses : List (Nat × Nat)
  /-- The run is the farrier's (R310); launch period in units of 10 ns and phase count, fixed at the arm, and ticks of
  `State.now` of the entry into ACQ and of the last launch (R309). -/
  farrier : Bool
  rep : Nat
  phases : Nat
  since : Nat
  launched : Option Nat
  miss : Bool
  unpaired : Bool
  bankSw : Bool
  /-- END of the result, and whether the result of the run is stored. -/
  endCode : Nat
  stored : Bool
  deriving DecidableEq, Repr

/-- A vernier unit (R313, R314). -/
structure Vernier where
  chan : Nat
  ring : Option Nat
  fifo : List Nat
  last : Option Nat
  lost : Bool
  deriving DecidableEq, Repr


/-- Where a PMU's wave source stands (R354). -/
inductive WavePhase where
  | off
  /-- EN is written and the next update loads the start phase; `prior`: the entry of a wave before is still applied. -/
  | starting (prior : Bool)
  /-- EN is written with START_TL: it waits for the trigger pulse. -/
  | waiting (prior : Bool)
  | running
  /-- A clamp has stopped it (R359): the accumulator stands, EN is still 1. -/
  | stopped
  deriving DecidableEq, Repr

/-- State of PMU `4 st + u` outside its page. -/
structure PmuSt where
  /-- Force code in force, before the wave (R336, R347), and the code applied with the wave (R352). -/
  force : Nat
  applied : Nat
  /-- Range in force (R343). -/
  range : Nat
  /-- A force code waiting for the end of a range change (R362). -/
  held : Option Nat
  /-- The limit stands at 5 % (R359), and a clamp that waits for the end of a range change (R361). -/
  cut : Bool
  clampNext : Bool
  /-- In CLAMP the park has taken the output to high impedance (R359). -/
  hiz : Bool
  /-- Remote sense has fallen back to the internal path (R331). -/
  fallback : Bool
  wave : WavePhase
  acc : Nat
  /-- AMP in force since the last update (R364), and tick of `State.now` of the placed pulse for which the wave waits. -/
  amp : Nat
  pulse : Option Nat
  /-- The default sine table is being reloaded (R353). -/
  reload : Bool
  deriving DecidableEq, Repr

/-- A record of an acquisition engine, in POST or REARM (Acquisition and Trigger Engines). -/
structure AcqRec where
  /-- Trigger tick, of State.now, and trigger slot (R403, R406), PRE_ACT and whether it falls short of PRE (R402, R407), and what
  the head entry carries. -/
  tick : Nat
  slot : Nat
  pre : Nat
  short : Bool
  dead : Nat
  missed : Nat
  /-- ACQ_RING_DROP at the trigger. -/
  drop0 : Nat
  headDone : Bool
  tailDone : Bool
  /-- Next point to post, and next entry of that point (R414). -/
  point : Int
  part : Nat
  npoint : Nat
  trunc : Bool
  /-- Post slots and END code, once POST is over. -/
  last : Option (Nat × Nat)
  endTick : Nat
  /-- Tick of State.now at which REARM was entered, and whether the result is stored. -/
  since : Nat
  stored : Bool
  /-- Post slots at which the memory cuts the record off (R415, R416). -/
  cap : Option Nat
  /-- ACQ_RING_DROP when the point entry was refused that waits at the ring (R415, R419). -/
  wait : Option Nat
  deriving DecidableEq, Repr

/-- An acquisition engine outside its page. -/
structure AcqSt where
  /-- Start of slot 0, a tick of State.now as every tick here, and length of a slot (R396). -/
  t0 : Option Nat
  len : Nat
  /-- First apertures begun before the reference stream's, by stream (R397). -/
  early : List (Nat × (Nat × Nat))
  /-- Streams that have begun, streams that have ended, and apertures ended by stream. -/
  begun : Nat
  ended : Nat
  apers : List (Nat × Nat)
  /-- Slots ended since the arm, and the slot in which FILL was entered last. -/
  slots : Nat
  fillSlot : Nat
  /-- Samples present, at 64 × slot + stream: CODE in [23:0], OVR or NBR in [24]. -/
  mem : List (Nat × Nat)
  /-- Samples of the LEVEL stream by slot, until the slot ends; the leaving condition has been satisfied (R404). -/
  level : List (Nat × Nat)
  ready : Bool
  armTick : Nat
  rcd : Option AcqRec
  /-- Records of this arm, triggers not taken since the last record, and DEAD of the next record. -/
  done : Nat
  missed : Nat
  dead : Nat
  /-- Ticks of the pulses on its trigger line that are placed and still to come (R403), and the tick of the last trigger. -/
  ahead : List Nat
  lastTrig : Option Nat
  /-- K, streams that take part and the ring, fixed at the arm (R395, R410, R414). -/
  k : Nat
  mask : Nat
  ring : Option Nat
  /-- Entries in the port's write buffer, or an upper bound of them while they cannot matter to its panic (R538). -/
  buf : Nat
  deriving DecidableEq, Repr

/-- A converter outside its page (Integrating Converters). -/
structure CnvUnit where
  /-- The run of the last arm goes on: no preemption has come since. -/
  live : Bool
  /-- Ticks of State.now of the accepted arm, of the trigger, of the aperture start, and the earliest one for a next trigger. -/
  armTick : Nat
  trig : Nat
  start : Nat
  notBefore : Nat
  /-- The tick count of the epoch at the aperture start (R372). -/
  startTick : Nat
  /-- Ring of the results, fixed at the arm (R387). -/
  ring : Option Nat
  /-- The conversion has reached its aperture; length, MEAS and range at its start. -/
  begun : Bool
  len : Nat
  meas : Bool
  range : Nat
  /-- Marks of the result: LINE_EST, LINE_HOLD, REF_NRDY, OVR, NBR, END, CODE. -/
  est : Bool
  hold : Bool
  nrdy : Bool
  ovr : Bool
  nbr : Bool
  endCode : Nat
  code : Nat
  /-- A neighbour has saturated and no aperture has ended since, and the end tick of the last NBR conversion (R383). -/
  nbrDue : Bool
  nbrEnd : Option Nat
  /-- The last aperture was cut: whether it had saturated may still come to be known. -/
  cutOpen : Bool
  /-- Ticks of State.now of the pulses on its trigger line that are placed and still to come (R187, R374). -/
  ahead : List Nat
  deriving DecidableEq, Repr

/-- The mains line measurement (R370, R371). -/
structure Line where
  /-- A crossing has been seen since reset; the last valid periods, newest first; the last locked PER. -/
  seen : Bool
  periods : List Nat
  locked : Option Nat
  deriving DecidableEq, Repr
/-- A calibration step in progress (R455). -/
structure FarStep where
  /-- Stall of the step, the group and the instance it measures, and the channels of the stall that it borrows. -/
  stall : Nat
  group : Nat
  inst : Nat
  mask : Nat
  /-- The step uses the calibration-bus switch of its channels (DOWN and UP, R456). -/
  bus : Bool
  src : GapSource
  /-- Needles up only by INDEX_N, for an UP or TDR step (R459). -/
  byIndex : Bool
  deriving DecidableEq, Repr

/-- Coefficients of a bank: the identity of the image or the factory set behind it, the identities of the instances measured since,
and the DRIVE point trims. -/
structure Coefs where
  base : Nat
  bank : List (Nat × Nat)
  trims : List (Nat × (Nat × List Nat))
  deriving DecidableEq, Repr

/-- The farrier outside its pages. -/
structure FarSt where
  /-- Settings of the run: GROUPS, SW_POLICY, UP_M10, BARNS, and whether DRIVE runs full curves. -/
  groups : Nat
  policy : Bool
  upM10 : Bool
  barns : Nat
  full : Bool
  /-- Groups that the run measures, fixed when stepping begins. -/
  runs : Nat
  /-- Steps done and instances with a bad measurement, at 4,096 × group + instance; steps in progress. -/
  done : List (Nat × Nat)
  bad : List Nat
  steps : List FarStep
  /-- The run ends with this code when its steps in progress have ended (R472, R51). -/
  ending : Option Nat
  /-- Temperature of each barn at the end of its last step in the run (R464). -/
  temps : List (Nat × Nat)
  /-- Host window armed: start tick, length in ticks, barns, UP. -/
  win : Option (Nat × Nat × Nat × Bool)
  /-- The tack room: which coefficients each bank holds, by instance, as an identity drawn when an instance passes; an
  unlisted instance holds what the sealed image or the factory gave. -/
  bankA : List (Nat × Nat)
  bankB : List (Nat × Nat)
  gen : Nat
  /-- Identity of what the sealed image gave, 0 for the one factory set; and for the identity of a DRIVE point trim the identity before it
  and the coarse segments of VIH, VIL and VTT in which it holds (R452). -/
  base : Nat
  trims : List (Nat × (Nat × List Nat))
  /-- Slot of the image that was loaded (R595), and what the bodies of the images seen so far hold. -/
  slot : Option Nat
  known : List (List Byte × Coefs)
  deriving DecidableEq, Repr
/-- A service record as a groom holds it (R477): its owner is that of its command ring (R478). -/
structure Record where
  owner : Nat
  op : Nat
  urgent : Bool
  jrnlAll : Bool
  cancel : Bool
  barrier : Bool
  tag : Nat
  rring : Nat
  /-- Command ring and entry index it was read from. -/
  ring : Nat
  index : Nat
  /-- P0 to P4. -/
  ps : List Word
  deriving DecidableEq, Repr

/-- A register write or a hayloft range written (R495). -/
structure Change where
  hayloft : Bool
  addr : Nat
  value : Nat
  deriving DecidableEq, Repr

/-- Where a routine stands at a yield point: not at one; its staged stores are being committed, after which it goes on,
ends with a STATUS, posts an entry of a type, or sleeps for a time in µs; at the yield point, its commit done; asleep. -/
inductive Yielding where
  | no
  | commit
  | commitEnd (status : Nat)
  | commitPost (ty : Nat)
  | commitSleep (us : Nat)
  | done
  | asleep
  deriving DecidableEq, Repr

/-- The context of a routine (Microcode). -/
structure Ctx where
  rcd : Record
  /-- W0 to W15, A0 to A3, H0 to H3. -/
  w : List (Nat × Word)
  a : List (Nat × Word)
  h : List (Nat × Nat)
  pc : Nat
  stack : List Nat
  fz : Bool
  fn : Bool
  fc : Bool
  /-- The access fault is set; the BAR0 offset of PG_ERR_CNT of the page that refused a committed write (R493). -/
  af : Bool
  refusal : Option Nat
  /-- Staged stores, oldest first (R491). -/
  staged : List (Nat × Word)
  /-- Commit log, oldest first, at most 256, and every change counted (R495). -/
  log : List Change
  changes : Nat
  /-- A cancel or reset abort waits for the yield point (R494). -/
  abort : Bool
  /-- What the routine does at its yield point (R507). -/
  after : Yielding
  /-- Order in which the cluster took the record: lower is earlier. -/
  serial : Nat
  /-- Ticks run before the last preemption, and the tick of State.now at which it started or resumed; none while preempted (R481). -/
  ran : Nat
  since : Option Nat
  /-- A match register has diverted the ROM routine to patch RAM: it goes on by its microwords (R502). -/
  diverted : Bool
  /-- Stage of a ROM operation, its working values and lists, and the result values so far (assumption 40). -/
  stage : Nat
  tmp : List Nat
  items : List Nat
  vs : List Word
  deriving DecidableEq, Repr

/-- A list of records run by SV_CHAIN or SV_IF_STATUS (R485): the record that runs it, where the list stands, and the
results so far. -/
structure Chain where
  ctx : Ctx
  base : Nat
  count : Nat
  next : Nat
  stop : Bool
  firstBad : Option Nat
  /-- The list is that of SV_IF_STATUS. -/
  cond : Bool
  deriving DecidableEq, Repr

/-- A groom. -/
structure GroomSt where
  ctx : Option Ctx
  /-- Preempted contexts, each with the record lists that enclose it, oldest first, at most four (R490). -/
  saved : List (Ctx × List Chain)
  /-- Enclosing record lists, innermost first. -/
  chains : List Chain
  deriving DecidableEq, Repr

/-- An entry that SV_TIMER has still to post (R485). -/
structure TimerDue where
  owner : Nat
  ring : Nat
  groom : Nat
  due : Nat
  deriving DecidableEq, Repr

/-- State of the groom cluster outside its pages. -/
structure Cluster where
  /-- Patch RAM words, match registers (ROM address, patch address) and dispatch entries that a patch supplied (R500 to
  R502). -/
  patchRam : List (Nat × BitVec 24)
  matchRegs : List (Nat × Nat)
  patchDisp : List (Nat × Word)
  /-- Operations disabled by machine checks, and the microaddresses of machine checks since reset (R503). -/
  disabled : List Nat
  mchecked : List Nat
  /-- Counters of SV_COUNTER at 16 × owner index + counter (R485). -/
  counters : List (Nat × Word)
  /-- Last contact verdict at 2,048 × owner index + channel, plus 1; 0: never judged (R487). -/
  verdicts : List (Nat × Nat)
  /-- Last result of each record: owner index × 2¹⁶ + TAG, and STATUS (R485, SV_IF_STATUS). -/
  results : List (Nat × Nat)
  /-- Entries still to be posted by SV_TIMER: owner, ring, groom, and the tick of `State.now` at which each falls due. -/
  timers : List TimerDue
  /-- Operations and microaddresses that their routines have reached, as 2¹⁵ × operation + address (R503). -/
  reached : List Nat
  /-- Number of the next record taken or doorbell of a command ring: lower is earlier (R485, R488). -/
  serial : Nat
  deriving DecidableEq, Repr

/-- The hayloft controller outside its page (Hayloft Memory Controller). -/
structure HbmSt where
  /-- Point of the rate request being carried out, and of the one held (R547, R548). -/
  want : Option Nat
  heldRate : Option Nat
  /-- A tracking step runs (R546). -/
  tracking : Bool
  /-- Refresh debt of each pseudo-channel (R539). -/
  debts : List (Nat × Nat)
  /-- Row-log entry under repair, and spare rows used of each bank (R555), by bank address. -/
  repairing : Option Nat
  spares : List (Nat × Nat)
  /-- Device messages that wait until the hayloft leaves self-refresh (R654): code and data. -/
  msgs : List (Nat × Nat)
  /-- The masks of an accepted REMAP that is not complete, by index (R534). -/
  mapDue : List Word
  /-- The pause in progress trains a point (R550). -/
  training : Bool
  deriving DecidableEq, Repr
/-- The gatehouse outside its page (Gatehouse and Security Functions). -/
structure GthSt where
  /-- A nonce waits for its SUBMIT; records rejected since the last reset of PERST_N reach or wider (R598). -/
  nonce : Bool
  rejected : Nat
  /-- A record has been accepted since that reset; the loaded images are among those listed (R601). -/
  unlocked : Bool
  listed : Bool
  /-- Security versions of the running boot image and of the loaded patch image (R588). -/
  bootSvn : Nat
  patchSvn : Option Nat
  /-- Target of an OTP programming in progress (R588, R633). -/
  programming : Option Nat
  /-- Sources of the tamper events that wait for the end of the programming, bit k for source k (R602). -/
  heldTamper : Nat
  /-- The record submitted: whether it passes the checks of R597 as it stood, and its SCOPE (R598, R604). -/
  submit : Option (Bool × Nat)
  deriving DecidableEq, Repr

/-- A master transfer in progress: its length, HOLD and the words that it shifts out, fixed at GO (R616). -/
structure Xfer where
  bits : Nat
  hold : Bool
  tx : List Word
  deriving DecidableEq, Repr

/-- The halter port's slave outside its page (Halter Serial Port). -/
structure HalterSt where
  /-- Read buffer, by window register (R611). -/
  rbuf : List (Nat × Word)
  /-- A FETCH in progress: IDX and n; a commit in progress: IDX and words (R611, R612). -/
  fetch : Option (Nat × Nat)
  commit : Option (Nat × List Word)
  /-- FSEQ, FERR, and the cause of the last frame's rejection (R613). -/
  fseq : Nat
  ferr : Bool
  rej : Option Nat
  /-- The frame now on the port caused a multi-master fault (R618). -/
  conflict : Bool
  /-- Words that the last accepted frame shifted out, slot 0 first (R607, R609). -/
  out : List Word
  /-- The master transfer that runs, and the words that the last one shifted out (R616). -/
  xfer : Option Xfer
  mosi : List Word
  deriving DecidableEq, Repr

/-- The reset controller and bring-up (Reset, Boot and Bring-Up). -/
structure RstSt where
  /-- Islands out of reset, bits as RST_ISL_PEND (R634, R640). -/
  isl : Nat
  /-- Option loading is in progress (R631); the gatehouse boots (R585). -/
  loading : Bool
  booting : Bool
  /-- VIN_POR has been counted since it asserted (R629). -/
  porCounted : Bool
  /-- Widest cause asserted in the reset episode in progress (R630). -/
  episode : Option Nat
  /-- The 150 ms bound of port B has expired (R567). -/
  bExpired : Bool
  /-- VBAK was lost while VIN was absent (R599, LANTERN). -/
  lanternLost : Bool
  /-- Pens whose reset runs by a source of its own, and not as part of a wider reset (R625, R629). -/
  pens : Nat
  /-- In M3 a barn, the hayloft controller or port A has failed its lock, its training or its link (R49). -/
  m3Fail : Bool
  /-- The chore oscillator has been lost, and with it the reset controller, the weathervane and the clock monitor; a VIN
  cycle ends it (R668). -/
  choreLost : Bool
  /-- The yard PLL has been lost, and with it the access of the host; a reset of RESET_N or wider ends it (R668). -/
  yardLost : Bool
  /-- Option loading is complete; pens whose reset runs, bit p; ports whose link is up, bit k; the split in force since M3
  (R577, R581, R603, R631): what RST_STAT, PEN_STAT, HLK_LSTAT and HLK_PORTCFG show until a soft reset of their page returns
  them to their reset values (R63). -/
  optDone : Bool
  penBusy : Nat
  links : Nat
  split : Bool
  /-- A hot reset of port B waits for the end of a pause (R579). -/
  hotHeld : Bool
  deriving DecidableEq, Repr

/-- The weathervane outside its page (Thermal Management and Housekeeping). -/
structure Weather where
  /-- Next slot of the round, and rounds completed since the reset, up to 3 (R641, R644). -/
  slot : Nat
  rounds : Nat
  /-- Raw and effective reading of each channel, in 0.25 °C or mV. -/
  raws : List (Nat × Int)
  effs : List (Nat × Int)
  /-- Consecutive slots at which a sensor differed from its neighbours (R643). -/
  diffs : List (Nat × Nat)
  /-- Tick of `State.now` at which the grace timer expires (R647). -/
  grace : Option Nat
  /-- TEMP and CAP of the eight WVN_THR entries in force since the last slot (R648, R656). -/
  thr : List (Int × Nat)
  deriving DecidableEq, Repr


/-- The whole machine. -/
structure State where
  /-- Timing-base ticks of 312.5 ps elapsed, the last epoch in units of 250 fs (R131, R155), and the epochs before it since the
  barns were last reset, newest first. -/
  now : Nat
  epoch : Nat
  epochLog : List Nat
  /-- The model's own counter for free values (assumption 3): no statement rests on its value. -/
  free : Nat
  /-- Registers by BAR0 offset; unlisted: the reset value (`regReset`). -/
  regs : List (Nat × Word)
  /-- Snapshots of RS values, by requester and register (R80), and staged words of wide RW values (R81). -/
  snaps : List (Nat × Word)
  stage : List (Nat × Word)
  /-- Data returned by the last read access, oldest word first. -/
  resp : List Word
  /-- MSI-X messages sent, oldest first. -/
  sent : List Msg
  pins : Pins
  mode : ModeSt
  lan : Lantern
  otp : Otp
  /-- Contents of the external flash on HS_SEL_0, by byte address; an unlisted byte is erased (R582, R620). -/
  flash : List (Nat × Byte)
  hay : Hayloft
  /-- Key identity of each owner, 0 to 8 (R592); each generation draws a fresh one. -/
  keys : List (Nat × Nat)
  keyGen : Nat
  regions : List (Nat × Region)
  rings : List (Nat × RingSt)
  /-- PCI Express configuration state of each function; MSI-X mask and pending bits at 4096 f + v. -/
  fns : List (Nat × FnCfg)
  vmask : List (Nat × Bool)
  /-- Address and data words of the MSI-X tables, at 3 (4096 f + v) + word (R569). -/
  msix : List (Nat × Word)
  pba : List (Nat × Bool)
  stalls : List (Nat × StallSt)
  /-- The assignment word that each channel follows since the last accepted start (R20); 0: none. -/
  follow : List (Nat × Word)
  /-- Edges of the timing sets at 6 (64 (32 q + set) + column) + i (R134), and sets waiting for their check (R138), at
  32 q + set. -/
  tsEdges : List (Nat × Word)
  tsDirty : List Nat
  /-- Epoch capture: the mode governing the accepted ARM while it waits (R151). -/
  armed : Option Arm
  chans : List (Nat × ChanSt)
  seqs : List (Nat × SeqSt)
  /-- Records in the buffer of the catch unit, oldest first (R265). -/
  catBuf : List CapRec
  /-- Native TIM units at 16 st + c, and vernier units by stall. -/
  tims : List (Nat × TimUnit)
  verniers : List (Nat × Vernier)
  /-- The last pulse of each sequencer on its trigger lines (R187): its time in 250 fs units and its lines. -/
  lastTrig : List (Nat × (Nat × Nat))
  /-- PMU units at 4 st + u, and wave-table entries at 4096 (4 st + u) + i (R352). -/
  pmus : List (Nat × PmuSt)
  waves : List (Nat × Nat)
  /-- Thermal cap of each barn in percent of range; unlisted: no cap (R342, R648). -/
  caps : List (Nat × Nat)
  /-- Acquisition engines by barn, converters at 4 st + u, and the mains line measurement. -/
  acqs : List (Nat × AcqSt)
  cnvs : List (Nat × CnvUnit)
  line : Line
  /-- Changes of the EV_IN levels, newest first: device tick and the levels from it on (R405). -/
  evHist : List (Nat × Nat)
  /-- An epoch has been set since the last reset of the barns: the tick count runs (R155). -/
  ticking : Bool
  /-- Trip conditions that watch comparators hold (R441), by stall: bit c upper, bit 16 + c lower. Tick of the last logged
  onset of each comparator, at 32 st + bit (R442). -/
  trips : List (Nat × Nat)
  onsets : List (Nat × (Nat × Nat))
  /-- Stalls whose comparators run sampled since their last tick (R434, R449). -/
  sampling : List (Nat × Bool)
  /-- Comparators of a stall whose thresholds were written in sampled operation: at the next tick (R449). -/
  wchPend : List (Nat × Nat)
  /-- Index registers held separately for each requester (DIR_IDX; LAN_LOG_IDX, LAN_WEAR_IDX and LAN_RST_IDX), by
  requester and register. -/
  idxs : List (Nat × Word)
  gth : GthSt
  halter : HalterSt
  rst : RstSt
  weather : Weather
  /-- Completion status of the last host request that has one; the instruction that the boundary-scan TAP holds (R704). -/
  cpl : Option Completion
  tap : TapInstr
  /-- The farrier and the tack room. -/
  far : FarSt
  /-- Grooms, and what the groom cluster keeps beside its pages (Groom Services). -/
  grooms : List (Nat × GroomSt)
  cluster : Cluster
  /-- The hayloft controller. -/
  hbm : HbmSt
  /-- Commands waiting, first in, first out. -/
  pending : List Instr
  deriving DecidableEq, Repr

/-- The faults of the machine: none. The manual stops the part on no command; every error it describes is an effect on
the state. No command raises one (safe). -/
inductive Fault where
  deriving DecidableEq, Repr

/-- Why a command has no meaning. -/
inductive Refusal where
  /-- The model gives the command no meaning (safe): raised by the dispatch alone, for a mnemonic of the opcode table. -/
  | notModelled (mnemonic : String)
  deriving DecidableEq, Repr

/-- The machine right after a power-on reset, the yard released (R625, R634, R637): device mode M2, every register at its
reset value, no engine at work, nothing stored; the lantern has counted LANTERN_POR and holds the RESET entry of that
episode (R629, R630). Assumption 7 names the values that the manual does not give. -/
def State.reset : State :=
  { now := 0, epoch := 0, epochLog := [], free := 0
    regs := [], snaps := [], stage := [], resp := [], sent := []
    pins := ⟨true, true, false, false, 0, true, false, false, false, none, 0, false⟩
    mode := ⟨.m2, none, [], [], false, false, false, none, false⟩
    lan := ⟨0, [], 0, false, 0, false, false, 0, 0, [0x801], false, false, [], [], [(0, 1)], 1, 0, 0⟩
    otp := ⟨0, 0, false, 0, 0, 0⟩, flash := []
    hay := ⟨[], [], [], [], [], []⟩, keys := [], keyGen := 9, regions := []
    rings := [], fns := [], vmask := [], msix := [], pba := [], stalls := [], follow := []
    tsEdges := [], tsDirty := [], armed := none, chans := [], seqs := [], catBuf := []
    tims := [], verniers := [], lastTrig := []
    pmus := [], waves := [], caps := []
    acqs := [], cnvs := [], line := ⟨false, [], none⟩, evHist := []
    ticking := false, trips := [], onsets := [], sampling := [], wchPend := [], idxs := []
    gth := ⟨false, 0, false, false, 0, none, none, 0, none⟩
    halter := ⟨[], none, none, 0, false, none, false, [], none, []⟩
    rst := ⟨256, true, false, false, none, false, false, 0, false, false, false, false, 0, 0, false, false⟩
    weather := ⟨0, 0, [], [], [], none, []⟩
    cpl := none, tap := .bypass
    far := ⟨0, false, false, 0, false, 0, [], [], [], none, [], none, [], [], 1, 0, [], none, []⟩
    grooms := [], cluster := ⟨[], [], [], [], [], [], [], [], [], [], 0⟩
    hbm := ⟨none, none, false, [], none, [], [], [], false⟩
    pending := [] }

end Sys2Proof.Machine
end

