-- ==== Sys2Proof/Machine/Ops.lean ====
section
/-!
DEFINITION. The named operations over the state: registers and their fields, saturating and wrapping counters, results
with SEQ and VALID (R83 to R87), owners (R68), modes (R36, R46), and the hayloft under its keys (R590 to R593).
-/

namespace Sys2Proof.Machine

/-! ### Registers -/

/-- The register at BAR0 offset `a`. -/
def State.reg (s : State) (a : Nat) : Word := Store.getD regReset s.regs a

/-- Store a register. -/
def State.setReg (s : State) (a : Nat) (v : Word) : State :=
  { s with regs := Store.setD regReset s.regs a v }

/-- BAR0 offset of the register at offset `o` of instance `i` of page kind `k`. Instance and offset are taken modulo the
number of instances and the size of a page, so that every such offset lies on a page of kind `k`. -/
def PageKind.addr (k : PageKind) (i o : Nat) : Nat := k.base (i % k.count) + o % 0x1000

/-- The register at offset `o` of instance `i` of page kind `k`. -/
def State.rd (s : State) (k : PageKind) (i o : Nat) : Word := s.reg (k.addr i o)

/-- Store the register at offset `o` of instance `i` of page kind `k`. -/
def State.wr (s : State) (k : PageKind) (i o : Nat) (v : Word) : State := s.setReg (k.addr i o) v

/-- A field of a page register, as a number. -/
def State.rf (s : State) (k : PageKind) (i o lo n : Nat) : Nat := fld (s.rd k i o) lo n

/-- Store a field of a page register. -/
def State.wf (s : State) (k : PageKind) (i o lo n v : Nat) : State := s.wr k i o (putFld (s.rd k i o) lo n v)

/-- One bit of a page register. -/
def State.rb (s : State) (k : PageKind) (i o b : Nat) : Bool := tbit (s.rd k i o) b

/-- Store one bit of a page register. -/
def State.wb (s : State) (k : PageKind) (i o b : Nat) (v : Bool) : State := s.wf k i o b 1 (bit v)

/-- Add to a counter field that saturates at its width. -/
def State.sat (s : State) (k : PageKind) (i o lo n add : Nat) : State :=
  s.wf k i o lo n (satAdd (2 ^ n - 1) (s.rf k i o lo n) add)

/-- Add to a counter field that wraps at its width. -/
def State.inc (s : State) (k : PageKind) (i o lo n add : Nat) : State :=
  s.wf k i o lo n (s.rf k i o lo n + add)

/-- Return every register of one page to its reset value, but for those whose offset `keep` names. -/
def State.resetPage (s : State) (k : PageKind) (i : Nat) (keep : Nat → Bool) : State :=
  let b := k.addr i 0
  { s with regs := Store.keep (fun a => decide (a < b) || decide (b + 0x1000 ≤ a) || keep (a - b)) s.regs }

/-- A value of 64 bits at most, held in a low and a high register. -/
def State.rd2 (s : State) (k : PageKind) (i lo hi : Nat) : Nat := (s.rd k i lo).toNat + 2 ^ 32 * (s.rd k i hi).toNat

/-- Store a value in a low and a high register. -/
def State.wr2 (s : State) (k : PageKind) (i lo hi v : Nat) : State := (s.wr k i lo (word v)).wr k i hi (word (v / 2 ^ 32))

/-- Spend one free value. -/
def State.useFree (s : State) : State := { s with free := s.free + 1 }

/-- The 48-bit tick count since the epoch (R132); 0 from a reset of the barns to the first epoch (R155). -/
def State.tick (s : State) : Nat := if s.ticking then (s.now * 1250 - s.epoch) / 1250 % 2 ^ 48 else 0

/-- Time has passed tick `t` of the epoch. -/
def State.atTick (s : State) (t : Nat) : State := { s with now := max s.now ((s.epoch + 1249) / 1250 + t) }

/-- Time has passed tick `n` of State.now. -/
def State.atNow (s : State) (n : Nat) : State := { s with now := max s.now n }

/-- Tick of `State.now` at which tick `k` of the epoch falls. -/
def State.nowTick (s : State) (k : Nat) : Nat := (s.epoch + 1249) / 1250 + k

/-- The tick count as it stood at tick `n` of State.now: that of the epoch then in force (R132, R155). -/
def State.tickOf (s : State) (n : Nat) : Nat :=
  match (s.epoch :: s.epochLog).find? fun e => decide (e ≤ n * 1250) with
  | some e => (n * 1250 - e) / 1250 % 2 ^ 48
  | none => 0

/-! ### Result registers (R83 to R87): SEQ in [7:0], CODE in [11:8], VALID in [16] -/

/-- Clear VALID of a result register: a new request starts (R84). -/
def State.startResult (s : State) (k : PageKind) (i o : Nat) : State := s.wb k i o 16 false

/-- Store a result: SEQ advances by 1 modulo 256, VALID is set, `rest` gives the other fields (R84). -/
def State.storeResult (s : State) (k : PageKind) (i o rest : Nat) : State :=
  s.wr k i o (word (pack [(0, 8, s.rf k i o 0 8 + 1), (16, 1, 1)] + rest))

/-! ### Owners and modes -/

/-- The acquisition engine of a barn belongs to a pen only while all 16 stalls do (R16). -/
def State.acqOwner (s : State) (b : Nat) : Nat :=
  let o := s.rf .stl (16 * b) Off.pgOwner 0 4
  if o < 8 ∧ (upto 16).all (fun i => s.rf .stl (16 * b + i) Off.pgOwner 0 4 == o) then o else 15

/-- The owner of a page, 0 to 7 for a pen and 15 for the supervisor (R68). The nine pages of a stall and the pages of a
sequencer have one owner each, held in the STL page and in the SEQ page. -/
def State.ownerOf (s : State) (k : PageKind) (i : Nat) : Nat :=
  match k with
  | .stl | .lvl | .drv | .cmp | .swm | .tim | .pmu | .cnv | .wch => s.rf .stl i Off.pgOwner 0 4
  | .seq | .apg | .tset | .site => s.rf .seq i Off.pgOwner 0 4
  | .acq => s.acqOwner i
  | .modp => if i < 8 then i else 15
  | _ => 15

/-- The page that holds the owner of a page whose PG_OWNER can be written (R68). -/
def ownerHome (k : PageKind) : Option PageKind :=
  match k with
  | .stl | .lvl | .drv | .cmp | .swm | .tim | .pmu | .cnv | .wch => some .stl
  | .seq | .apg | .tset | .site => some .seq
  | _ => none

/-- Index of an owner in the per-owner registers: pen 0 to 7, supervisor 8. -/
def ownerIx (o : Nat) : Nat := if o < 8 then o else 8

/-- The domain mode of an owner's domain, in M4 (R36). -/
def State.domMode (s : State) (o : Nat) : DomMode := Store.getD (fun _ => .m4) s.mode.doms (ownerIx o)

/-- Number of a device mode (R57). -/
def DevMode.num : DevMode → Nat
  | .m0 => 0 | .m1 => 1 | .m2 => 2 | .m3 => 3 | .m4 => 4 | .m5 => 5 | .m10 => 10 | .m11 => 11

/-- Number of a domain mode. -/
def DomMode.num : DomMode → Nat
  | .m4 => 4 | .m6 => 6 | .m7 => 7 | .m8 => 8 | .m9 => 9

/-- The mode under which a page's block operates (R36, R37): the domain mode in M4, else the device mode. -/
def State.modeOf (s : State) (o : Nat) : Nat :=
  if s.mode.dev = .m4 then (s.domMode o).num else s.mode.dev.num

/-- The device is in M4 with no transition in progress. -/
def State.quietM4 (s : State) : Bool := s.mode.dev = .m4 && s.mode.trans.isNone

/-- The reset of pen `p` runs (R603). -/
def State.penBusy (s : State) (p : Nat) : Bool := natBit s.rst.penBusy p

/-- PEN_STAT, and the pens whose reset runs. -/
def State.setPenBusy (s : State) (p : Nat) (v : Bool) : State :=
  let m := maskOf 8 fun i => if i = p then v else natBit s.rst.penBusy i
  { s with rst := { s.rst with penBusy := m } }.wb .pen 0 Off.penStat p v

/-- DL_UP of a port. -/
def State.linkUp (s : State) (k : Nat) : Bool := natBit s.rst.links k

/-- An owner counts as being in domain mode M4 (R46). -/
def State.ownerInM4 (s : State) (o : Nat) : Bool :=
  s.quietM4 && s.domMode o == .m4 && (Store.get? s.mode.domTrans (ownerIx o)).isNone &&
    (8 ≤ o || !s.penBusy o)

/-! ### Hayloft (R531, R589 to R593, R712) -/

/-- One past the last address of the stack (R531). -/
def hayEnd : Nat := 0x600000000

/-- The canonical form of the hayloft's bytes: addresses strictly rising. What an unlisted address reads as is a free value
(R712), so that no entry equals it. -/
def Memory.wf (m : List Host.Cell) : Bool := Store.sorted m

/-- A hayloft region entry; the default is disabled (R714). -/
def State.region (s : State) (i : Nat) : Region := Store.getD (fun _ => ⟨0, 0, 15, 0, false⟩) s.regions i

/-- Some enabled region of owner `o`, of a kind in `kinds`, wholly holds the `n` bytes at `a` (R590). -/
def State.inRegion (s : State) (o : Nat) (kinds : List Nat) (a n : Nat) : Bool :=
  decide (a + n ≤ hayEnd) &&
    s.regions.any fun e =>
      e.2.en && e.2.owner == o && kinds.contains e.2.kind &&
        decide (e.2.base * 2 ^ 20 ≤ a) && decide (a + n ≤ (e.2.last + 1) * 2 ^ 20)

/-- Region kinds (R589). -/
def patternKind : Nat := 0
def captureKind : Nat := 1
def generalKind : Nat := 2

/-- Every kind: rings, grooms and host BAR4 reach each of them (R589). -/
def anyKind : List Nat := [patternKind, captureKind, generalKind]

/-- The key identity of an owner (R592). -/
def State.keyOf (s : State) (o : Nat) : Nat := Store.getD (fun i => i) s.keys (ownerIx o)

/-- A byte read under the key of owner `o`: what was written under that key, else a free value (R593, R712). -/
def State.hayRead (s : State) (o a : Nat) : Byte :=
  match Store.get? s.hay.cells a, Store.get? s.hay.tags (a / 32) with
  | some b, some t => if t = s.keyOf o then b else Config.freeByte s.free a
  | _, _ => Config.freeByte s.free a

/-- Write one byte under the key of owner `o`. A word last written under another key becomes a word of this key, its
other bytes decrypting to nothing defined (R552, R593). -/
def State.hayWrite (s : State) (o a : Nat) (b : Byte) : State :=
  let w := a / 32
  let k := s.keyOf o
  let old := if Store.get? s.hay.tags w = some k then s.hay.cells else Store.keep (fun x => x / 32 != w) s.hay.cells
  { s with hay := { s.hay with cells := Store.put old a b, tags := Store.put s.hay.tags w k } }

/-- Write bytes at consecutive addresses. -/
def State.hayWriteBytes (s : State) (o a : Nat) (bs : List Byte) : State :=
  match bs with
  | [] => s
  | b :: t => (s.hayWrite o a b).hayWriteBytes o (a + 1) t

/-- Poison of the words of a write of `n` bytes at `a` (R552): a whole word clears it, a part of a poisoned word is
written poisoned again and counted. -/
def State.poisonWrite (s : State) (a n : Nat) : State :=
  s.hay.poison.foldl (fun x e =>
    let w := e.1
    if e.2 = false ∨ w < a / 32 ∨ a + n ≤ 32 * w then x
    else if a ≤ 32 * w ∧ 32 * w + 32 ≤ a + n then { x with hay := { x.hay with poison := Store.drop x.hay.poison w } }
    else x.sat .hbm 0 Off.hbmPoisonCnt 0 32 1) s

/-- Write bytes as one access (R551, R552). -/
def State.hayStore (s : State) (o a : Nat) (bs : List Byte) : State := (s.poisonWrite a bs.length).hayWriteBytes o a bs

/-- Write an `n`-byte little-endian value (R8). -/
def State.hayPut (s : State) (o a n v : Nat) : State := s.hayStore o a (bytesOf n v)

/-- Some word of the `n` bytes at `a` is poisoned (R552). -/
def State.poisoned (s : State) (a n : Nat) : Bool :=
  s.hay.poison.any fun e => e.2 && decide (a / 32 ≤ e.1) && decide (32 * e.1 < a + n)

/-- Mask of bank-address bit `j` after reset (R558). -/
def xmapReset (j : Nat) : Word := regReset (PageKind.hbm.base 0 + Off.hbmXmap j)

/-- Mask of bank-address bit `j` in force (R533, R534). -/
def State.xmapAct (s : State) (j : Nat) : Nat := (Store.getD xmapReset s.hay.xmap j).toNat

/-- Parity of the low `n` bits. -/
def parity (v n : Nat) : Bool := popCount v n % 2 == 1

/-- Bank address of a hayloft address: pseudo-channel in [4:0], bank group, bank, stack ID (R532, R533). -/
def State.bankOf (s : State) (a : Nat) : Nat := maskOf 10 fun j => parity (s.xmapAct j &&& a / 1024) 25

/-- Where the cells of address `a` lie once the reset mapping is in force again: same row, same bank address (R532, R533). -/
def State.unmapped (s : State) (a : Nat) : Nat :=
  let plain := maskOf 10 fun j => parity ((xmapReset j).toNat &&& a / 1024) 25
  a ^^^ 1024 * (s.bankOf a ^^^ plain)

/-- The hayloft as it stands once a reset has brought the reset mapping back (R544): bytes, keys and poison lie where their
cells now are. -/
def State.hayUnmap (s : State) : Hayloft :=
  let h := s.hay
  let wordOf := fun w => s.unmapped (32 * w) / 32
  if h.xmap.isEmpty then h
  else
    { h with
      cells := h.cells.foldl (fun m e => Store.put m (s.unmapped e.1) e.2) []
      tags := h.tags.foldl (fun m e => Store.put m (wordOf e.1) e.2) []
      poison := h.poison.foldl (fun m e => Store.put m (wordOf e.1) e.2) []
      xmap := [] }

/-- Key of the row of an address: row and bank address (R532). -/
def State.rowKey (s : State) (a : Nat) : Nat := a / 2 ^ 20 + 2 ^ 15 * s.bankOf a

/-- Read `n` bytes. -/
def State.hayBytes (s : State) (o a : Nat) : Nat → List Byte
  | 0 => []
  | n + 1 => s.hayRead o a :: s.hayBytes o (a + 1) n

/-- Read an `n`-byte little-endian value (R8). -/
def State.hayGet (s : State) (o a n : Nat) : Nat := ofBytes (s.hayBytes o a n)

/-- Forget everything stored: contents lost or not guaranteed (R534, R544, R712). -/
def State.hayForget (s : State) : State := { s with hay := { s.hay with cells := [], tags := [], poison := [] } }

/-- Draw a fresh key for an owner index and advance its epoch counter (R592). -/
def State.newKey (s : State) (ix : Nat) : State :=
  { s with keys := Store.put s.keys ix s.keyGen, keyGen := s.keyGen + 1 }.inc .pen 0 (Off.penKeyEpoch ix) 0 16 1

/-- Replace every owner's key (R592). -/
def State.newKeys (s : State) : State := (upto 9).foldl State.newKey s

/-! ### Per-instance state -/

/-- A stall at rest. -/
def StallSt.idle : StallSt := ⟨0, none, 0, 0, 0, 0, none, none, 0⟩

/-- The state of stall `i`. -/
def State.stall (s : State) (i : Nat) : StallSt := Store.getD (fun _ => StallSt.idle) s.stalls i

/-- Replace the state of stall `i`. -/
def State.setStall (s : State) (i : Nat) (v : StallSt) : State :=
  { s with stalls := Store.setD (fun _ => StallSt.idle) s.stalls i v }

/-- A ring at rest. -/
def RingSt.idle : RingSt := ⟨0, false, false, [], [], []⟩

/-- The state of ring `n` beside its descriptor. -/
def State.ring (s : State) (n : Nat) : RingSt := Store.getD (fun _ => RingSt.idle) s.rings n

/-- Replace the state of ring `n`. -/
def State.setRing (s : State) (n : Nat) (v : RingSt) : State :=
  { s with rings := Store.setD (fun _ => RingSt.idle) s.rings n v }

/-- Configuration of a function after reset: everything is disabled. -/
def FnCfg.reset : FnCfg := ⟨false, false, false, false, false, false, false, 0, [], false, false⟩

/-- Configuration of function `f`. -/
def State.fnCfg (s : State) (f : Nat) : FnCfg := Store.getD (fun _ => FnCfg.reset) s.fns f

/-- Replace the configuration of function `f`. -/
def State.setFnCfg (s : State) (f : Nat) (v : FnCfg) : State :=
  { s with fns := Store.setD (fun _ => FnCfg.reset) s.fns f v }

/-- Port of a function (R563). -/
def portOf (f : Nat) : Nat := if f < 9 then 0 else 1

/-- PF0 of a port. -/
def isPf (f : Nat) : Bool := f == 0 || f == 9

/-- The PF of the port of function `f`. -/
def pfOf (f : Nat) : Nat := 9 * portOf f

/-- Whether PCI Express function `f` exists: port B only in split mode (R563). -/
def State.fnExists (s : State) (f : Nat) : Bool := decide (f < 9) || s.rst.split

/-- A function of the port answers: port B only in split mode (R563), a VF only while its PF has VF Enable. -/
def State.fnAnswers (s : State) (f : Nat) : Bool := s.fnExists f && (isPf f || (s.fnCfg (pfOf f)).vfEn)

/-- The memory space of the function is mapped, as R565 asks: for a VF, by Memory Space Enable of its PF's SR-IOV
capability. -/
def State.memMapped (s : State) (f : Nat) : Bool := if isPf f then (s.fnCfg f).mse else (s.fnCfg (pfOf f)).vfMse

/-- The memory space of the function is enabled, as HLK_FNMAP shows it (R581): mapped, and not disabled by D3hot (R559). -/
def State.memOn (s : State) (f : Nat) : Bool := s.memMapped f && !(s.fnCfg f).d3

/-- The function takes memory requests: it answers, and its memory space is enabled (R559, R569). -/
def State.memServed (s : State) (f : Nat) : Bool := s.fnAnswers f && s.memOn f

/-- A groom at rest. -/
def GroomSt.idle : GroomSt := ⟨none, [], []⟩

/-- The state of groom `g`. -/
def State.groom (s : State) (g : Nat) : GroomSt := Store.getD (fun _ => GroomSt.idle) s.grooms g

/-- Replace the state of groom `g`. -/
def State.setGroom (s : State) (g : Nat) (v : GroomSt) : State :=
  { s with grooms := Store.setD (fun _ => GroomSt.idle) s.grooms g v }

/-- Groom `g` holds an entry that a ring under back-pressure has not yet accepted (R496). -/
def State.groomWaits (s : State) (g : Nat) : Bool :=
  s.rings.any fun e => e.2.held.any fun h =>
    match h.prod with
    | .groom g' _ => g' == g
    | _ => false

/-- Ticks that a routine has run up to tick `now`, preempted time excluded (R481). -/
def Ctx.runTicks (c : Ctx) (now : Nat) : Nat := c.ran + (match c.since with | some t => now - t | none => 0)

/-- ELAPSED of a routine at tick `now`: µs, saturating (R481, R511). Commands take no time beyond that of State.now (assumption 5). -/
def Ctx.elapsed (c : Ctx) (now : Nat) : Nat := min (2 ^ 32 - 1) (c.runTicks now / 3200)

/-- The routine of a groom that runs: that of its record, or between the records of a list that of the list. -/
def GroomSt.running (x : GroomSt) : Option Ctx :=
  match x.ctx with
  | some c => some c
  | none => x.chains.head?.map Chain.ctx

/-- The owner for whom groom `g` acts: that of the record it runs (R29), else the supervisor. -/
def State.groomOwner (s : State) (g : Nat) : Nat :=
  match (s.groom g).running with
  | some c => c.rcd.owner
  | none => 15

/-- A requester acts inside SV_CONTACT or SV_TDR (class C of R482). -/
def State.inContact (s : State) (r : Requester) : Bool :=
  match r with
  | .groom g =>
    match (s.groom g.val).ctx with
    | some c => c.rcd.op == 0x10 || c.rcd.op == 0x11
    | none => false
  | _ => false

/-- A requester acts inside SV_CONTACT (R356, R376). -/
def State.inSvContact (s : State) (r : Requester) : Bool :=
  match r with
  | .groom g =>
    match (s.groom g.val).ctx with
    | some c => c.rcd.op == 0x10
    | none => false
  | _ => false

/-- A sequencer is outside IDLE (R195). -/
def State.seqActive (s : State) (q : Nat) : Bool := s.rf .seq q Off.seqStat 0 3 != 0

/-- A sequencer runs: it is in RUN, HOLD or DRAIN. ARMED counts as running where R195 says so alone. -/
def State.seqRunning (s : State) (q : Nat) : Bool := decide (2 ≤ s.rf .seq q Off.seqStat 0 3)

/-- Some sequencer of the part is outside IDLE. -/
def State.anySeqActive (s : State) : Bool := (upto 8).any s.seqActive

/-- Some TIM unit of the part, native or vernier, is armed (R154, R327). -/
def State.anyTimArmed (s : State) : Bool :=
  (upto 128).any fun st => (s.rd .tim st Off.timState).toNat != 0 || s.rb .tim st Off.timVstat 8

/-- The timing base holds a valid epoch (R155), as the page of barn 0 shows it: the page that takes the ARM gates starts and arms
(DESIGN CHOICE, assumption 79). -/
def State.epochValid (s : State) : Bool := s.rb .tmb 0 Off.tmbStat 1

/-- A timing-set edge after reset (R163). -/
def edgeReset (k : Nat) : Word :=
  match k % 6 with
  | 2 => 20000 | 3 => 30000 | 4 => 20000 | 5 => 30000 | _ => 0

/-- Key of edge `i` of column `col` of set `t` of sequencer `q`. -/
def tsKey (q t col i : Nat) : Nat := 6 * (64 * (32 * q + t) + col) + i

/-- Edge `i` of column `col` of set `t` of sequencer `q`. -/
def State.tsEdge (s : State) (q t col i : Nat) : Nat :=
  (Store.getD edgeReset s.tsEdges (tsKey q t col i)).toNat

/-- Level of the wear counter of switch `n` of stall `st` (R665). -/
def State.wearOf (s : State) (i : Nat) : Nat := Store.getD (fun _ => 0) s.lan.wear i

end Sys2Proof.Machine
end

