-- ==== Sys2Proof/Machine/RingOps.lean ====
section
/-!
DEFINITION. Messages and ring entries: MSI-X sending (R575, R576), ring descriptors (R512, R516), offering an entry to a
ring (R518, R525), signalling (R528), page events (R523) and device messages (R524).
-/

namespace Sys2Proof.Machine

/-! ### MSI-X -/

/-- Whether a vector is masked: the mask bit of an entry is set after reset, as PCI Express gives it (assumption 4). -/
def State.vecMasked (s : State) (f v : Nat) : Bool := Store.getD (fun _ => true) s.vmask (4096 * f + v)

/-- Pending bit of a vector. -/
def State.pbaBit (s : State) (f v : Nat) : Bool := Store.getD (fun _ => false) s.pba (4096 * f + v)

/-- Set or clear a pending bit. -/
def State.setPba (s : State) (f v : Nat) (b : Bool) : State :=
  { s with pba := Store.setD (fun _ => false) s.pba (4096 * f + v) b }

/-- Word `w` of entry `v` of a function's MSI-X table, 0 to 2 (R569): 0 after reset (assumption 4). -/
def State.msixWord (s : State) (f v w : Nat) : Word := Store.getD (fun _ => 0) s.msix (3 * (4096 * f + v) + w)

/-- A message of vector `v` leaves for function `f`: a write of its data to its address. -/
def State.emit (s : State) (f v : Nat) : State :=
  { s with sent := s.sent ++ [⟨f, v, (s.msixWord f v 0).toNat + 2 ^ 32 * (s.msixWord f v 1).toNat, s.msixWord f v 2⟩] }

/-- Send the message of vector `v` of owner index `ix` (R575, R576). -/
def State.sendMsg (s : State) (ix v : Nat) : State :=
  let f := s.rf .hlk 0 (Off.hlkSig ix) 0 5
  let c := s.fnCfg f
  if s.rf .hlk 0 (Off.hlkVec f) 0 13 ≤ v ∨ s.rb .hlk 0 (Off.hlkSig ix) 31 = false ∨ c.msixEn = false ∨ c.bme = false ∨
      s.linkUp (portOf f) = false then
    s.sat .hlk 0 Off.hlkMsgDrop 0 32 1
  else if c.fmask || s.vecMasked f v then s.setPba f v true
  else s.emit f v

/-! ### Descriptors -/

/-- BAR0 offset of word `o` of the descriptor of ring `n` (R515); `n` and `o` are taken within the window. -/
def ringAddr (n o : Nat) : Nat := ringWindow + n % 0x8000 * 0x20 + o % 0x20

/-- A field of a descriptor word. -/
def State.ringF (s : State) (n o lo w : Nat) : Nat := fld (s.reg (ringAddr n o)) lo w

/-- Store a field of a descriptor word. -/
def State.ringSet (s : State) (n o lo w v : Nat) : State :=
  s.setReg (ringAddr n o) (putFld (s.reg (ringAddr n o)) lo w v)

def State.ringEn (s : State) (n : Nat) : Bool := s.ringF n Off.rngCtrl 0 1 == 1
def State.ringIn (s : State) (n : Nat) : Bool := s.ringF n Off.rngCtrl 1 1 == 1
def State.ringPolicy (s : State) (n : Nat) : Nat := s.ringF n Off.rngCtrl 2 2
def State.ringLog2 (s : State) (n : Nat) : Nat := s.ringF n Off.rngCtrl 4 5
def State.ringOwner (s : State) (n : Nat) : Nat := s.ringF n Off.rngCtrl 12 4
def State.pidx (s : State) (n : Nat) : Nat := (s.reg (ringAddr n Off.rngPidx)).toNat
def State.cidx (s : State) (n : Nat) : Nat := (s.reg (ringAddr n Off.rngCidx)).toNat

/-- Storage base of a ring. -/
def State.ringBase (s : State) (n : Nat) : Nat :=
  s.ringF n Off.rngBaseLo 8 24 * 2 ^ 8 + s.ringF n Off.rngBaseHi 0 3 * 2 ^ 32

/-- Capacity in entries (R512). -/
def State.ringCap (s : State) (n : Nat) : Nat := 2 ^ s.ringLog2 n / 32

/-- Entries held, modulo 2³² (R512). -/
def State.ringFill (s : State) (n : Nat) : Nat := (s.pidx n + 2 ^ 32 - s.cidx n) % 2 ^ 32

def State.ringFull (s : State) (n : Nat) : Bool := s.ringFill n == s.ringCap n

/-- RNG_STAT.FULL and WAITING follow the ring. -/
def State.ringFlags (s : State) (n : Nat) : State :=
  (s.ringSet n Off.rngStat 0 1 (bit (s.ringFull n))).ringSet n Off.rngStat 1 1 (bit !(s.ring n).held.isEmpty)

/-- RNG_DROP advances, saturating (R516). -/
def State.ringDrop (s : State) (n : Nat) : State :=
  s.ringSet n Off.rngDrop 0 32 (satAdd (2 ^ 32 - 1) (s.ringF n Off.rngDrop 0 32) 1)

/-- The ring's message for accepted or consumed entries; it re-arms the drop message (R528). -/
def State.ringSignal (s : State) (n : Nat) : State :=
  ((s.setRing n { s.ring n with since := 0, dropMsg := false })).sendMsg (ownerIx (s.ringOwner n)) (s.ringF n Off.rngCtrl 20 12)

/-- Count `k` more entries accepted or consumed, and send the message when they reach COAL (R528). -/
def State.ringCount (s : State) (n k : Nat) : State :=
  let s1 := s.setRing n { s.ring n with since := (s.ring n).since + k }
  if s.ringF n Off.rngCtrl 16 1 = 1 ∧ s.ringF n Off.rngMod 0 16 ≤ (s1.ring n).since then s1.ringSignal n else s1

/-- A drop or an overwrite signals once when IRQ_DROP is set (R528). -/
def State.ringDropSignal (s : State) (n : Nat) : State :=
  if s.ringF n Off.rngCtrl 16 1 = 1 ∧ s.ringF n Off.rngCtrl 17 1 = 1 ∧ (s.ring n).dropMsg = false then
    (s.setRing n { s.ring n with dropMsg := true }).sendMsg (ownerIx (s.ringOwner n)) (s.ringF n Off.rngCtrl 20 12)
  else s

/-- SRC_KIND and SRC_INST of a producer (R519). -/
def Producer.src : Producer → Nat × Nat
  | .site q => (1, q) | .mark q => (1, q) | .tim i => (2, i) | .cnv i => (3, i) | .acq b => (4, b)
  | .groom g _ => (5, g) | .page => (7, 0) | .device => (8, 0)

/-- A producer that loses an entry counts it under its own rules (R518; R258, R329, R388, R419, R496). -/
def State.countLoss (s : State) (p : Producer) : State :=
  match p with
  | .site q => s.sat .site q Off.siteLost 0 16 1
  | .tim i => s.sat .tim i Off.timRingDrop 0 32 1
  | .cnv i => s.sat .cnv i Off.cnvRingDrop 0 16 1
  | .acq b => s.sat .acq b Off.acqRingDrop 0 32 1
  | .groom _ o => s.sat .grm 0 (Off.grmLost (ownerIx o)) 0 16 1
  | .mark _ | .page | .device => s

/-- Write entry `i` of a ring: header (R519), body, then PIDX (R521). -/
def State.ringStore (s : State) (n : Nat) (p : Producer) (ty body : Nat) (gap : Bool) : State :=
  let i := s.pidx n
  let cap := s.ringCap n
  let hdr := pack [(0, 8, ty), (8, 4, p.src.1), (12, 7, p.src.2), (30, 1, bit gap), (31, 1, i / cap)]
  let s1 := s.hayPut (s.ringOwner n) (s.ringBase n + 32 * (i % cap)) 32 (hdr + 2 ^ 32 * (body / 2 ^ 32))
  let s2 := s1.setReg (ringAddr n Off.rngPidx) (word (i + 1))
  (s2.setRing n { s2.ring n with gap := false }).ringFlags n

/-- How an offer ends: accepted, dropped, or refused to a producer that waits. -/
inductive Offer where
  | accepted
  | dropped
  | waits
  deriving DecidableEq, Repr

/-- A refused or dropped entry: counted, GAP on the next accepted entry, signal (R525, R528). -/
def State.ringLose (s : State) (n : Nat) : State :=
  let s1 := s.ringDrop n
  ((s1.setRing n { s1.ring n with gap := true })).ringDropSignal n

/-- A pause of a rate request in which a point is trained (R547, R550). -/
def State.trainPause (s : State) : Bool := s.rb .hbm 0 Off.hbmStat 10 && s.hbm.training

/-- No ring entry can be written: a training pause (R550), or self-refresh (R543). -/
def State.ringPaused (s : State) : Bool := s.rb .hbm 0 Off.hbmStat 11 || s.trainPause

/-- A producer holds an entry that the ring has refused: its entries keep their order (R521). -/
def State.ringBehind (s : State) (n : Nat) (p : Producer) : Bool := (s.ring n).held.any fun h => h.prod == p

/-- Offer an entry to ring `n` (R518, R525, R529, R550). `wait` says that the producer holds a refused entry. `body` holds bytes
4 to 31 at their byte positions. The producer's own loss counter is advanced on a drop. -/
def State.offer (s : State) (n : Nat) (p : Producer) (wait : Bool) (ty body : Nat) : State × Offer :=
  if s.ringEn n = false ∨ s.ringIn n then ((s.ringLose n).countLoss p, .dropped)
  else if s.ringFull n || s.ringBehind n p || s.ringPaused then
    match (if s.ringPolicy n = 2 ∧ s.ringPaused then 0 else s.ringPolicy n) with
    | 1 =>
      if wait then
        ((s.setRing n { s.ring n with held := (s.ring n).held ++ [⟨p, ty, body⟩] }).ringFlags n, .waits)
      else ((s.ringLose n).countLoss p, .dropped)
    | 2 =>
      let s1 := (s.setReg (ringAddr n Off.rngCidx) (word (s.cidx n + 1))).ringDrop n
      let s2 := (s1.ringStore n p ty body true).ringDropSignal n
      (s2.ringCount n 1, .accepted)
    | _ => ((s.ringLose n).countLoss p, .dropped)
  else ((s.ringStore n p ty body (s.ring n).gap).ringCount n 1, .accepted)

/-- Offer an entry and keep only the state. -/
def State.post (s : State) (n : Nat) (p : Producer) (wait : Bool) (ty body : Nat) : State := (s.offer n p wait ty body).1

/-- The oldest held entry is accepted once the ring has room (R525). -/
def State.acceptHeld (s : State) (n : Nat) : State :=
  match (s.ring n).held with
  | [] => s
  | h :: t =>
    if s.ringEn n = false ∨ s.ringIn n ∨ s.ringFull n ∨ s.ringPaused then s
    else
      let s1 := s.setRing n { s.ring n with held := t }
      (s1.ringStore n h.prod h.ty h.body (s1.ring n).gap).ringCount n 1

/-- Disable a ring: EN is 0 and held entries are dropped (R518, R525). -/
def State.ringDisable (s : State) (n : Nat) : State :=
  let held := (s.ring n).held
  let s1 := s.ringSet n Off.rngCtrl 0 1 0
  let s2 := s1.setRing n { s1.ring n with held := [] }
  (held.foldl (fun x h => (x.ringLose n).countLoss h.prod) s2).ringFlags n

/-! ### Event rings -/

/-- Offer an entry to the event ring of owner index `ix`, if one is bound (R523, R524). -/
def State.eventPost (s : State) (ix : Nat) (p : Producer) (ty body : Nat) : State :=
  let w := s.rd .rng 0 (Off.rngEvtRing ix)
  if tbit w 31 then s.post (fld w 0 15) p false ty body else s

/-- Post a DEVICE_MSG with `code` and data bytes 8 to 31 to the event ring of every owner (R524). While the hayloft is in
self-refresh it waits (R654). -/
def State.deviceMsg (s : State) (code data : Nat) : State :=
  if s.rb .hbm 0 Off.hbmStat 11 then { s with hbm := { s.hbm with msgs := s.hbm.msgs ++ [(code, data)] } }
  else (upto 9).foldl (fun x ix => x.eventPost ix .device 0x0F (packBytes [(4, 2, code)] + 2 ^ 64 * data)) s

end Sys2Proof.Machine
end

