-- ==== Sys2Proof/Machine/Flags.lean ====
section
/-!
DEFINITION. The page header's flags (R59 to R62, R523): recording an error, raising an event, and the computed views
PG_ID, PG_CAPS and PG_STAT.
-/

namespace Sys2Proof.Machine

/-- Raise PG_EVT bit `n` of a page. A bit that becomes set while its PG_EVT_EN bit is set posts one PAGE_EVENT to the
event ring of the page's owner (R523). -/
def State.event (s : State) (k : PageKind) (i n : Nat) : State :=
  if s.rb k i Off.pgEvt n then s
  else
    let s1 := s.wb k i Off.pgEvt n true
    if s.rb k i Off.pgEvtEn n then
      s1.eventPost (ownerIx (s.ownerOf k i)) .page 0x0E
        (packBytes [(4, 4, k.base i), (8, 4, (s1.rd k i Off.pgEvt).toNat), (12, 4, 2 ^ n), (16, 6, s.tick)])
    else s1

/-- Record error cause `c` in a page (R61): the cause bit, the count, LAST_OFF and LAST_CAUSE, and ERR_EVT. -/
def State.err (s : State) (k : PageKind) (i c off : Nat) : State :=
  let s1 := s.wb k i Off.pgErr c true
  let s2 := s1.sat k i Off.pgErrCnt 0 16 1
  let s3 := (s2.wf k i Off.pgErrCnt 16 12 off).wf k i Off.pgErrCnt 28 4 (if c < 16 then c else 15)
  s3.event k i 0

/-- The generic error causes of PG_ERR (R60). -/
def errMode : Nat := 0
def errOwner : Nat := 1
def errLocked : Nat := 2
def errState : Nat := 3
def errRsvd : Nat := 4
def errWidth : Nat := 5
def errValue : Nat := 6
def errDisabled : Nat := 7

/-- PG_CTRL.EN of a page. -/
def State.pageEn (s : State) (k : PageKind) (i : Nat) : Bool := s.rb k i Off.pgCtrl 0

/-- LOCK or SLOCK of a page (R60). -/
def State.locked (s : State) (k : PageKind) (i : Nat) : Bool := s.rf k i Off.pgLock 0 2 != 0

/-- The block of a page is still at work on what it ends after EN = 0 (R60): a drain or a prime, channels that park, a run or
result of a unit, a transfer, a farrier run. -/
def State.blockBusy (s : State) (k : PageKind) (i : Nat) : Bool :=
  match k with
  | .seq => s.rf .seq i Off.seqStat 0 3 != 0 || s.rf .seq i Off.seqStrmStat 0 3 == 1
  | .stl | .lvl | .drv | .cmp | .swm =>
    (upto 16).any fun c => s.rb .stl i Off.stlPark c && !s.rb .stl i Off.stlStat c
  | .tim => s.rd .tim i Off.timState != 0 || s.rb .tim i Off.timVstat 8
  | .pmu => (upto 4).any fun u =>
      decide (2 ≤ s.rf .pmu i (Off.pmuStat u) 0 3) && decide (s.rf .pmu i (Off.pmuStat u) 0 3 ≤ 4)
  | .cnv => (upto 4).any fun u => decide (2 ≤ s.rf .cnv i Off.cnvState (3 * u) 3)
  | .acq => s.rf .acq i Off.acqStat 0 2 != 0
  | .far => s.rf .far 0 Off.farStat 0 3 != 0
  | .hal => s.rb .hal 0 Off.halMctrl 0
  | _ => false

/-- PG_STAT as it reads: ENABLED, SRST_BUSY, LOCKED, ERR, EVT (R60). -/
def State.pgStat (s : State) (k : PageKind) (i : Nat) : Word :=
  word (pack [(0, 1, bit (s.pageEn k i || s.blockBusy k i)), (1, 1, bit (s.rb k i Off.pgCtrl 1)), (2, 1, bit (s.locked k i)),
    (3, 1, bit ((s.rd k i Off.pgErr).toNat != 0)),
    (4, 1, bit ((s.rd k i Off.pgEvt &&& s.rd k i Off.pgEvtEn).toNat != 0))])

/-- PG_ID as it reads (R60). -/
def pgIdOf (k : PageKind) (i : Nat) : Word := word (pack [(0, 8, k.typeCode), (8, 8, k.instanceField i), (16, 4, 1)])

end Sys2Proof.Machine
end

