-- ==== Sys2Proof/Machine/LogOps.lean ====
section
/-!
DEFINITION. The lantern: offering, queueing and writing logbook entries (R657, R660 to R664) and switch wear (R113,
R114, R665).
-/

namespace Sys2Proof.Machine

/-- Cause codes of the logbook (R659). -/
def logReset : Nat := 0x01
def logVinLost : Nat := 0x02
def logM11 : Nat := 0x03
def logClock : Nat := 0x04
def logLockFail : Nat := 0x05
def logSupply : Nat := 0x06
def logSensor : Nat := 0x07
def logWatch : Nat := 0x10
def logSwitch : Nat := 0x11
def logGroomWdt : Nat := 0x20
def logGroomMchk : Nat := 0x21
def logHbmUe : Nat := 0x30
def logLinkDown : Nat := 0x31
def logBootFail : Nat := 0x40
def logOptErr : Nat := 0x41
def logTakInvalid : Nat := 0x42
def logUnlock : Nat := 0x43
def logTamper : Nat := 0x44
def logTickMark : Nat := 0x50
def logCleared : Nat := 0x51
def logHostMark : Nat := 0x52
def logThawed : Nat := 0x53

/-- Bits [63:24] of an entry: CAUSE, TYPE, INSTANCE, DATA (R657). -/
def logBody (cause ty inst data : Nat) : Nat := pack [(0, 8, cause), (8, 8, ty), (16, 8, inst), (24, 16, data)]

/-- LAN_LOG_LOST advances, saturating (R660, R663). -/
def State.logLose (s : State) : State := { s with lan := { s.lan with lost := satAdd 0xFFFF s.lan.lost 1 } }

/-- Offer an entry to the logbook: it joins the queue of 16, or is lost when the queue is full, closed or the logbook
frozen (R660, R662, R663). -/
def State.logOffer (s : State) (cause ty inst data : Nat) : State :=
  if s.lan.frozen || s.lan.closed || decide (16 ≤ s.lan.queue.length) then s.logLose
  else { s with lan := { s.lan with queue := s.lan.queue ++ [logBody cause ty inst data] } }

/-- The lantern tick has reached `t` (R658): it never runs back. -/
def State.lanAt (s : State) (t : Nat) : State := { s with lan := { s.lan with tick := max s.lan.tick t } }

/-- Write one entry to the next slot: TICK is the lantern tick at the write (R657, R660). -/
def State.logWrite (s : State) (body : Nat) : State :=
  let l := s.lan
  let e : BitVec 64 := BitVec.ofNat 64 (l.tick % 2 ^ 24 + 2 ^ 24 * body)
  { s with lan := { l with
      slots := Store.setD (fun _ => 0) l.slots l.wptr e
      wrapped := l.wrapped || (Store.getD (fun _ => 0) l.slots l.wptr != 0)
      wptr := (l.wptr + 1) % 512
      written := (l.written + 1) % 2 ^ 32 } }

/-- Write every queued entry, oldest first. -/
def State.logDrain (s : State) : State :=
  let s1 := s.lan.queue.foldl State.logWrite s
  { s1 with lan := { s1.lan with queue := [] } }

/-- A wear count of switch `n` of stall `st` at a break, cold 1 and hot 20 (R113), and the WORN flag (R114). -/
def State.wearCycle (s : State) (st n : Nat) (hot : Bool) : State :=
  let i := 48 * st + n
  let w := satAdd (2 ^ 32 - 1) (s.wearOf i) (if hot then 20 else 1)
  let was := Store.getD (fun _ => false) s.lan.worn i
  let s1 := { s with lan := { s.lan with wear := Store.setD (fun _ => 0) s.lan.wear i w } }
  if (s.rd .swm st Off.swmWearWarn).toNat ≤ w ∧ was = false then
    ({ s1 with lan := { s1.lan with worn := Store.setD (fun _ => false) s1.lan.worn i true } }).event .swm st 2
  else s1

end Sys2Proof.Machine
end

