-- ==== Sys2Proof/Machine/HayOps.lean ====
section
/-!
DEFINITION. Errors of the hayloft (R551 to R554): corrected and uncorrectable errors, the row log, and panic of a
real-time port (R538).
-/

namespace Sys2Proof.Machine

/-- Requester codes of HBM_ERR_ADDR_HI (R558). -/
def reqRefill : Nat := 0
def reqAcq : Nat := 1
def reqRing : Nat := 2
def reqGroom : Nat := 3
def reqHost : Nat := 4
def reqGate : Nat := 5

/-- HBM_ERR_ADDR takes an error (R558). -/
def State.hbmErrAddr (s : State) (a req : Nat) (ue : Bool) : State :=
  s.wr2 .hbm 0 Off.hbmErrAddrLo Off.hbmErrAddrHi (pack [(0, 35, a), (40, 1, bit ue), (44, 3, req)])

/-- An uncorrectable error at `a` (R553). -/
def State.hbmUe (s : State) (a req : Nat) : State :=
  let s1 := ((s.sat .hbm 0 Off.hbmUeCnt 0 32 1).hbmErrAddr a req true).event .hbm 0 3
  s1.logOffer logHbmUe PageKind.hbm.typeCode 0 (s.bankOf a % 32 + 256 * req)

/-- A corrected error at `a` (R551, R554). -/
def State.hbmCe (s : State) (a req : Nat) : State :=
  let k := s.rowKey a
  let n := Store.getD (fun _ => 0) s.hay.rowCe k + 1
  let s1 := (s.sat .hbm 0 Off.hbmCeCnt 0 32 1).hbmErrAddr a req false
  let s2 := { s1 with hay := { s1.hay with rowCe := Store.put s1.hay.rowCe k n } }
  if s.rf .hbm 0 Off.hbmCtrl 8 8 ≤ n ∧ s.hay.rowLog.any (fun e => e.1 == k) = false then
    if 16 ≤ s.hay.rowLog.length then s2.wb .hbm 0 Off.hbmStat 15 true
    else ({ s2 with hay := { s2.hay with rowLog := s2.hay.rowLog ++ [(k, false)] } }).event .hbm 0 4
  else s2

/-- The port with bit `b` of HBM_PANIC raises panic (R538). -/
def State.portPanic (s : State) (b : Nat) : State :=
  if s.rb .hbm 0 Off.hbmPanic b then s
  else ((s.wb .hbm 0 Off.hbmPanic b true).sat .hbm 0 Off.hbmPanicCnt 0 32 1).event .hbm 0 2

/-- The port clears panic. -/
def State.portCalm (s : State) (b : Nat) : State := s.wb .hbm 0 Off.hbmPanic b false

/-- Poisoned words among the `n` bytes at `a` (R552). -/
def State.deadWords (s : State) (a n : Nat) : List Nat :=
  (s.hay.poison.filter fun e => e.2 && decide (a / 32 ≤ e.1) && decide (32 * e.1 < a + n)).map Prod.fst

/-- A read of `n` bytes at `a`: each poisoned word reads uncorrectable, and beside them ECC finds nothing, a corrected or an
uncorrectable error (R551 to R553). In a read of more than one word the place of that error is a free value. -/
def State.eccRead (s : State) (a n req : Nat) (e : Ecc) : State × Bool :=
  let s1 := (s.deadWords a n).foldl (fun x w => x.hbmUe (32 * w) req) s
  let place := if n ≤ 32 then a else a + Config.freeNat s.free % n
  let s2 := if n ≤ 32 then s1 else s1.useFree
  match e with
  | .clean => (s1, s.poisoned a n)
  | .corrected => (s2.hbmCe place req, s.poisoned a n)
  | .uncorrectable => (s2.hbmUe place req, true)

/-- What error correction finds in a read or a partial write whose command does not say it: a free value (R551, R712). -/
def freeEcc (n : Nat) : Ecc :=
  match Config.freeNat n % 3 with
  | 0 => .clean
  | 1 => .corrected
  | _ => .uncorrectable

/-- The words that a write of `n` bytes at `a` covers only in part. -/
def partWords (a n : Nat) : List Nat :=
  let first := a / 32
  let last := (a + n - 1) / 32
  if n = 0 ∨ (a % 32 = 0 ∧ (a + n) % 32 = 0) then []
  else if first = last then [first]
  else (if a % 32 = 0 then [] else [first]) ++ (if (a + n) % 32 = 0 then [] else [last])

/-- A write whose part words are read, merged and written whole (R552): an uncorrectable error found there leaves the
merged word poisoned. `e` is what ECC finds in the first part word that is not poisoned. -/
def State.hayMerge (s : State) (o a : Nat) (bs : List Byte) (req : Nat) (e : Ecc) : State :=
  let parts := partWords a bs.length
  let dead := parts.filter fun w => Store.getD (fun _ => false) s.hay.poison w
  let live := parts.filter fun w => !Store.getD (fun _ => false) s.hay.poison w
  let s1 := dead.foldl (fun x w => x.hbmUe (32 * w) req) (s.hayStore o a bs)
  match live, e with
  | [], _ => s1
  | _ :: _, .clean => s1
  | w :: _, .corrected => s1.hbmCe (32 * w) req
  | w :: _, .uncorrectable =>
    ({ s1 with hay := { s1.hay with poison := Store.put s1.hay.poison w true } }.sat .hbm 0 Off.hbmPoisonCnt 0 32 1).hbmUe
      (32 * w) req

end Sys2Proof.Machine
end

