-- ==== Sys2Proof/Machine/Operands.lean ====
section
/-!
DEFINITION. Requesters and their accesses: whom a requester acts for (R29, R564, R89), which pages it reaches (R70, R40,
R577), how an access to a page it cannot reach is counted (R78), and the checks that every register write passes before
its effect (R65, R74 to R77, R82).
-/

namespace Sys2Proof.Machine

/-- The owner for whom a requester acts, 0 to 7 or 15, if any (R564, R29, R89). A function whose memory space is off takes no
access (R559); without the yard PLL the host has none (R668). -/
def State.acting (s : State) (r : Requester) : Option Nat :=
  match r with
  | .fn f =>
    if s.memServed f.val && !s.rst.yardLost then
      let o := s.rf .hlk 0 (Off.hlkFnmap f.val) 0 4
      if o < 8 ∨ o = 15 then some o else none
    else none
  | .groom g => some (s.groomOwner g.val)
  | .halter => if s.mode.dev = .m2 then some 15 else none

/-- The requester acts as the supervisor. -/
def State.isSup (s : State) (r : Requester) : Bool := s.acting r == some 15

/-- What a requester reaches of a page. -/
inductive Reach where
  | none
  | header
  | full
  deriving DecidableEq, Repr

/-- Pages that stay reachable in M5 (R40). -/
def reachInM5 : PageKind → Bool
  | .mod0 | .modp | .wch | .hlk | .rst | .lan => true
  | _ => false

/-- What requester `r` reaches of a page (R70, R40, R89, R564, R577, R614). While the yard is in reset or without its PLL the
halter slave reaches the lantern page alone (R634, R668). -/
def State.reach (s : State) (r : Requester) (k : PageKind) (i : Nat) : Reach :=
  if s.rst.yardLost then (if r = .halter ∧ k = .lan then .full else .none)
  else if s.mode.dev = .m5 && !reachInM5 k && r != .halter then .none
  else
    match r with
    | .halter =>
      if natBit s.rst.isl 8 = false then (if k = .lan then .full else .none)
      else if s.mode.dev = .m2 then (if s.ownerOf k i = 15 then .full else .header)
      else if s.mode.dev = .m5 then
        match k with
        | .lan => .full
        | .mod0 | .modp | .wch | .hlk | .rst => .header
        | _ => .none
      else
        match k with
        | .hal | .lan | .log => .full
        | _ => .header
    | r =>
      match s.acting r with
      | none => if k = .dir ∧ r.index < 18 ∧ s.memServed r.index then .full else .none
      | some o =>
        if o = 15 then (if k = .dir ∨ s.ownerOf k i = 15 then .full else .header)
        else if r.index < 18 ∧ s.penBusy o then .none
        else if k = .dir ∨ s.ownerOf k i = o then .full
        else .none

/-- Count an access handled under R78: for a function in HLK_ACCERR, for the halter slave in HAL_ACCERR, for a groom in
GRM_ACC_CNT of the owner it acts for. A request to a function whose memory space is off is an Unsupported Request (R560, R569;
assumption 38). -/
def State.accessError (s : State) (r : Requester) : State :=
  match r with
  | .fn f => if s.memServed f.val then s.sat .hlk 0 (Off.hlkAccerr f.val) 0 32 1 else s.sat .hlk 0 Off.hlkUrCnt 0 32 1
  | .halter => s.sat .hal 0 Off.halAccerr 0 32 1
  | .groom g => s.sat .grm 0 (Off.grmAccCnt (ownerIx (s.groomOwner g.val))) 0 16 1

/-- Status of the completion of a read by function `f` (R78, R560). -/
def State.readStatus (s : State) (f : Nat) : Completion := if s.memServed f then .success else .unsupported

/-- A write of `v` touches a supervisor-only field of a register that holds `old` (R77). -/
def touchesSup (row : RegRow) (old v : Word) : Bool :=
  ((old ^^^ v) &&& word (row.sup &&& row.rw)).toNat != 0 || (v &&& word (row.sup &&& row.w1c)).toNat != 0 ||
    row.sup &&& row.cmd != 0

/-- Key of the staged word of a requester and register (R81), and of a snapshot (R80). -/
def reqKey (r : Requester) (a : Nat) : Nat := r.index * 2 ^ 32 + a

/-- The word at BAR0 offset `a`, below the highest of a wide RW value, is staged for the requester (R81). -/
def State.stageAt (s : State) (r : Requester) (a : Nat) (v : Word) : State := { s with stage := Store.put s.stage (reqKey r a) v }

/-- The staged word, or the word in force (R81). -/
def State.stagedAt (s : State) (r : Requester) (a : Nat) : Word := (Store.get? s.stage (reqKey r a)).getD (s.reg a)

/-- After a commit the staging of the word holds the committed value (R81): that of every requester, where R81 speaks of the
staging without naming one (DESIGN CHOICE, assumption 17). -/
def State.unstageAt (s : State) (a : Nat) : State := { s with stage := Store.keep (fun x => x % 2 ^ 32 != a) s.stage }

/-- Snapshots, staged words and index registers of a page are gone: the page is reset (R63, R80), or its owner has changed
(R82). That the staging goes too is a DESIGN CHOICE (assumption 17). -/
def State.forgetPage (s : State) (k : PageKind) (i : Nat) : State :=
  let other := fun (x : Nat) => x % 2 ^ 32 / 0x1000 != k.base i / 0x1000
  { s with snaps := Store.keep other s.snaps, stage := Store.keep other s.stage, idxs := Store.keep other s.idxs }

/-- PG_OWNER of the page cannot be written (R68). -/
def fixedOwner (k : PageKind) (o : Nat) : Bool := o == Off.pgOwner && (ownerHome k).isNone

/-- The value against which a write of a supervisor-only field is held (R77): PG_OWNER reads the owner of the page. -/
def State.supView (s : State) (k : PageKind) (i o : Nat) : Word := if o = Off.pgOwner then word (s.ownerOf k i) else s.rd k i o

/-! ### The tack room -/

/-- Key of an instance of a calibration group. -/
def instKey (g inst : Nat) : Nat := 4096 * g + inst

/-- Bank B is active. -/
def State.bankB (s : State) : Bool := s.rb .tak 0 Off.takStat 0

/-- The contents of the active bank. -/
def State.activeBank (s : State) : List (Nat × Nat) := if s.bankB then s.far.bankB else s.far.bankA

/-- What a bank's coefficients of group `g` for an instance are: the identity of the pass that measured them, or of the sealed
image or the factory (assumption 25). Here those of the active bank. -/
def State.coefOf (s : State) (g inst : Nat) : Nat := Store.getD (fun _ => s.far.base) s.activeBank (instKey g inst)

/-- The longest delay that deskew corrects: 6 ns (R150). -/
def maxDelay : Nat := 24000

/-- A time in 250 fs units as the nearest stamp (R294, R304). -/
def stampOf (t : Nat) : Nat := (t * 16384 + 5000) / 10000 % 2 ^ 48

/-- The compare delay of a channel, with the coefficients of the bank active now, in stamp units (R148, R296). -/
def State.compareStamp (s : State) (ch : Nat) : Nat := stampOf (min maxDelay (Config.compareDelay (s.coefOf 3 (ch / 16)) ch))

/-- The stamp of a comparator event on channel `ch` at raw time `t`: the time at the needle plane (R296). -/
def State.needleStamp (s : State) (ch t : Nat) : Nat := (t + 2 ^ 48 - s.compareStamp ch) % 2 ^ 48

/-- The same in vernier units (R313): the stamp of the instant, by the relation of R314. -/
def State.needleVernier (s : State) (ch t : Nat) : Nat := (64 * t + 2 ^ 38 - s.compareStamp ch) / 64 % 2 ^ 32

/-- Every RW field of the row takes the written value and every W1C field written 1 is cleared (R60). -/
def mergeWrite (row : RegRow) (old v : Word) : Word :=
  ((old &&& ~~~ word row.rw) ||| (v &&& word row.rw)) &&& ~~~ (v &&& word row.w1c)

/-- Apply a plain write to a register of a page. -/
def State.plainWrite (s : State) (k : PageKind) (i o : Nat) (v : Word) : State :=
  match regRow k o with
  | some (row, _, _) => s.wr k i o (mergeWrite row (s.rd k i o) v)
  | none => s

/-- The checks common to every 32-bit register write, then its effect `eff` (R61, R65, R74 to R78, R82): reach, a page
soft reset in progress, reserved offset, supervisor-only fields, lock, read-only register. -/
def State.guarded (s : State) (r : Requester) (k : PageKind) (i o : Nat) (v : Word) (eff : State → State) : State :=
  if s.reach r k i = .none ∨ (s.reach r k i = .header ∧ 0x40 ≤ o) then s.accessError r
  else
    match regRow k o with
    | none => s.err k i errRsvd o
    | some (row, _, _) =>
      if s.rb k i Off.pgCtrl 1 ∧ row.w1c = 0 then s.err k i errState o
      else if fixedOwner k o then s
      else if s.isSup r = false ∧ touchesSup row (s.supView k i o) v then s.err k i errOwner o
      else if s.locked k i ∧ (o = Off.pgCtrl ∨ 0x40 ≤ o) then
        { s with stage := Store.drop s.stage (reqKey r (k.base i + o - 4)) }.err k i errLocked o
      else if row.ro then s
      else eff s

end Sys2Proof.Machine
end

