-- ==== Sys2Proof/Machine/TimOps.lean ====
section
/-!
DEFINITION. Time-Interval and Frequency Measurement (R294 to R329): arming, gating, prescaling and stamping, samples and
their exact statistics, FIFOs and entries, results, and the commands of the TIM page.
-/

namespace Sys2Proof.Machine

/-- The answer of a command. -/
abbrev Result := Host.Outcome State Fault Refusal

/-! ### Unit state -/

/-- A unit at rest. -/
def TimUnit.idle : TimUnit :=
  ⟨false, none, [], false, 0, 0, 0, 0, 0, none, none, none, 0, [], [], false, none, [], false, 100, 1, 0, none, false, false, false, 0, false⟩

/-- A vernier unit at rest. -/
def Vernier.idle : Vernier := ⟨0, none, [], none, false⟩

def State.tim (s : State) (st c : Nat) : TimUnit := Store.getD (fun _ => TimUnit.idle) s.tims (16 * st + c)

def State.setTim (s : State) (st c : Nat) (v : TimUnit) : State :=
  { s with tims := Store.setD (fun _ => TimUnit.idle) s.tims (16 * st + c) v }

def State.vernier (s : State) (st : Nat) : Vernier := Store.getD (fun _ => Vernier.idle) s.verniers st

def State.setVernier (s : State) (st : Nat) (v : Vernier) : State :=
  { s with verniers := Store.setD (fun _ => Vernier.idle) s.verniers st v }

/-- TIM_STATE codes (R321). -/
def tIdle : Nat := 0
def tWait : Nat := 1
def tAcq : Nat := 2
def tDrain : Nat := 3

def State.timState (s : State) (st c : Nat) : Nat := s.rf .tim st Off.timState (2 * c) 2
def State.setTimState (s : State) (st c v : Nat) : State := s.wf .tim st Off.timState (2 * c) 2 v

/-- Mode of a unit: TDR in a run of the farrier's (R310), else TIM_CFG.MODE (R329). -/
def State.timMode (s : State) (st c : Nat) : Nat := if (s.tim st c).farrier then 4 else s.rf .tim st (Off.timCfg c) 0 3

/-- Length of the run: 16 launches in a step of the farrier's (R453), else TIM_N (R305). -/
def State.timLen (s : State) (st c : Nat) : Nat := if (s.tim st c).farrier then 16 else s.rf .tim st (Off.timN c) 0 24

/-- Other fields of TIM_CFG (R329). -/
def State.timSrc (s : State) (st c : Nat) : Nat := s.rf .tim st (Off.timCfg c) 4 3
def State.timGate (s : State) (st c : Nat) : Nat := s.rf .tim st (Off.timCfg c) 8 2

/-- Mode codes (R303). -/
def tmStamp : Nat := 0
def tmPeriod : Nat := 1
def tmInterval : Nat := 2
def tmOffset : Nat := 3
def tmTdr : Nat := 4

/-- The unit of a channel is in a TDR run (R310). -/
def State.tdrRun (s : State) (ch : Nat) : Bool :=
  s.timState (ch / 16) (ch % 16) != tIdle && s.timMode (ch / 16) (ch % 16) == tmTdr

/-- The run of a unit ends (R324). -/
def State.timEnd (s : State) (st c code : Nat) : State :=
  if s.timState st c = tWait ∨ s.timState st c = tAcq then
    (s.setTim st c { s.tim st c with endCode := code }).setTimState st c tDrain
  else s

/-- The driver of a channel in a TDR run is at VIH: from a launch to REP / 2 after it (R309). -/
def State.tdrHigh (s : State) (ch : Nat) : Bool :=
  let u := s.tim (ch / 16) (ch % 16)
  match u.launched with
  | some l => decide (s.now < l + 16 * u.rep)
  | none => false

/-- END codes (R329). -/
def endCount : Nat := 0
def endStop : Nat := 1
def endPreempt : Nat := 2

/-- The vernier unit of a stall is disarmed. -/
def State.vernierStop (s : State) (st : Nat) : State := s.wb .tim st Off.timVstat 8 false

/-- Preemption of the units of the channels in mask `m` of a stall: a park, a rank-1 event (R324). -/
def State.timPreempt (s : State) (st m : Nat) : State :=
  let s1 := (onesOf m 16).foldl (fun x c => x.timEnd st c endPreempt) s
  if s1.rb .tim st Off.timVstat 8 ∧ natBit m (s1.vernier st).chan then s1.vernierStop st else s1

/-! ### Arming -/

/-- The assignment word that a channel follows; 0: none (R20). -/
def State.following (s : State) (ch : Nat) : Word := Store.getD (fun _ => 0) s.follow ch

/-- A channel follows a sequencer that is ARMED, running or in HOLD. -/
def State.followsLive (s : State) (ch : Nat) : Bool :=
  let w := s.following ch
  let q := s.rf .seq (fld w 8 3) Off.seqStat 0 3
  tbit w 31 && decide (1 ≤ q) && decide (q ≤ 3)

/-- The owner's domain mode is M6 to M9. -/
def State.measuring (s : State) (st : Nat) : Bool :=
  let m := s.modeOf (s.ownerOf .stl st)
  decide (6 ≤ m) && decide (m ≤ 9)

/-- The error of a TDR arm, if any (R310): by a requester, or, for none, by the farrier. -/
def State.tdrError (s : State) (r : Option Requester) (st c : Nat) : Option Nat :=
  let m := s.modeOf (s.ownerOf .stl st)
  let who := match r with | some q => s.inContact q | none => true
  if who = false then some errMode
  else if ¬ (m = 6 ∨ m = 10 ∨ (m = 9 ∧ s.followsLive (16 * st + c) = false)) then some errMode
  else if s.rb .stl st Off.stlPark c ∨ s.rb .swm st Off.swmCurDrv c = false ∨ s.rb .swm st Off.swmCurPmu c then some errState
  else none

/-- Ring to which the units of a stall drain from the next arm (R316). -/
def State.timRingNow (s : State) (st : Nat) : Option Nat :=
  if s.rb .tim st Off.timRing 31 then some (s.rf .tim st Off.timRing 0 15) else none

/-- The pulse of sequencer `q` that is placed and still to come: its vector has begun (R187). -/
def State.pulseComing (s : State) (q : Nat) : List (Nat × Nat) :=
  match Store.get? s.lastTrig q with
  | some p => if s.tick < p.1 / 1250 then [p] else []
  | none => []

/-- The pulse to come of the sequencer that a unit listens to (R323). -/
def State.pulseAhead (s : State) (st c : Nat) : List (Nat × Nat) := s.pulseComing (s.rf .tim st (Off.timTl c) 0 3)

/-- Ticks of State.now of the pulses to come on trigger line `l` of sequencer `q`. -/
def State.lineComing (s : State) (q l : Nat) : List Nat :=
  ((s.pulseComing q).filter fun p => p.2.testBit l).map fun p => s.nowTick (p.1 / 1250)

/-- A TDR run of the stall is in progress. -/
def State.tdrStall (s : State) (st : Nat) : Bool := (upto 16).any fun c => s.tdrRun (16 * st + c)

/-- Unit `c` is armed (R322): for the farrier, with a run of its own. The prescaler counts the first accepted event as the
first of 2^P (R302; DEDUCED, assumption 21). -/
def State.timArmed (s : State) (st c : Nat) (far : Bool) : State :=
  let u := s.tim st c
  let ctl := s.rd .tim st Off.timTdrCtrl
  let s0 := if s.tdrStall st then s else s.setStall st { s.stall st with tdrFirst := none }
  let s1 := s0.setTim st c
    { TimUnit.idle with
      live := true, ring := s.timRingNow st, fifo := u.fifo, lostNext := u.lostNext, stamps := u.stamps, since := s.now
      skip := 2 ^ s.rf .tim st (Off.timCfg c) 24 4 - 1, pulses := s.pulseAhead st c, farrier := far
      rep := if far then 100 else fld ctl 0 16, phases := 2 ^ fld ctl 16 2 }
  let s2 := (s1.wb .tim st (Off.timRes c 0) 16 false).wr .tim st (Off.timFstat c) 0
  s2.setTimState st c (if !far && s.rb .tim st (Off.timCfg c) 17 then tWait else tAcq)

/-- A bit of TIM_ARM, or, with no requester, the farrier in TDR mode, arms unit `c`, or is refused (R310, R322). -/
def timArmUnit (r : Option Requester) (st c : Nat) (s : State) : State :=
  let o := Off.timArm
  if s.pageEn .tim st = false then s.err .tim st errDisabled o
  else if s.measuring st = false ∧ (r.isSome ∨ s.mode.dev ≠ .m10) then s.err .tim st errMode o
  else if s.epochValid = false then s.err .tim st errState o
  else
    match (if r.isNone ∨ s.timMode st c = tmTdr then s.tdrError r st c else none) with
    | some e => s.err .tim st e o
    | none => if s.timState st c ≠ tIdle then s else s.timArmed st c r.isNone

/-- The farrier arms the units of the channels of a TDR step (R310, R453). -/
def State.farTimArm (s : State) (st m : Nat) : State := (onesOf m 16).foldl (fun x c => timArmUnit none st c x) s

/-- A TDR step of the farrier's has ended: its runs that have not end with it. -/
def State.farTimEnd (s : State) (st : Nat) : State :=
  (upto 16).foldl (fun x c => if (x.tim st c).farrier then x.timEnd st c endStop else x) s

/-- TIM_ARM.VERNIER arms the vernier unit under the same conditions (R322, R329). -/
def vernierArm (st : Nat) (s : State) : State :=
  let o := Off.timArm
  if s.pageEn .tim st = false then s.err .tim st errDisabled o
  else if s.measuring st = false then s.err .tim st errMode o
  else if s.epochValid = false then s.err .tim st errState o
  else if s.rb .tim st Off.timVstat 8 then s
  else
    let v := s.vernier st
    let ring := if s.rb .tim st Off.timVcfg 6 then s.timRingNow st else none
    let s1 := s.setVernier st { v with chan := s.rf .tim st Off.timVcfg 0 4, ring := ring, last := none }
    (s1.wb .tim st Off.timVstat 8 true).wb .tim st Off.timVstat 9 false

/-! ### Register writes -/

/-- A write of TIM_ARM: its bits in ascending order. -/
def timArmWrite (r : Requester) (st : Nat) (v : Word) (s : State) : State :=
  let s1 := (onesOf (fld v 0 16) 16).foldl (fun x c => timArmUnit (some r) st c x) s
  if tbit v 16 then vernierArm st s1 else s1

/-- A write of TIM_STOP (R324). -/
def timStopWrite (st : Nat) (v : Word) (s : State) : State :=
  let s1 := (onesOf (fld v 0 16) 16).foldl (fun x c => x.timEnd st c endStop) s
  if tbit v 16 then s1.vernierStop st else s1

/-- A write of TIM_CFG, TIM_N or TIM_TL of a unit (R299, R301, R303, R327). -/
def timUnitWrite (st c o : Nat) (v : Word) (s : State) : State :=
  if s.timState st c ≠ tIdle then s.err .tim st errState o
  else if o = Off.timCfg c ∧ (5 ≤ fld v 0 3 ∨ 6 ≤ fld v 4 3 ∨ fld v 8 2 = 3 ∨ (fld v 0 3 = tmInterval ∧ fld v 12 4 = c)) then
    s.err .tim st errValue o
  else if o = Off.timTl c ∧ s.ownerOf .seq (fld v 0 3) ≠ s.ownerOf .stl st then s.err .tim st errOwner o
  else s.plainWrite .tim st o v

/-- A write of TIM_RING: a ring of the stall's owner (R327). -/
def timRingWrite (st : Nat) (v : Word) (s : State) : State :=
  if s.ringOwner (fld v 0 15) = s.ownerOf .stl st then s.plainWrite .tim st Off.timRing v
  else s.err .tim st errOwner Off.timRing

/-- A write of TIM_TDR_CTRL (R329). -/
def tdrCtrlWrite (st : Nat) (v : Word) (s : State) : State :=
  if fld v 0 16 < 25 ∨ fld v 16 2 = 3 then s.err .tim st errValue Off.timTdrCtrl
  else s.plainWrite .tim st Off.timTdrCtrl v

/-! ### Samples and logging -/

/-- Difference of two stamps, a signed 48-bit value (R297). -/
def stampDiff (a b : Nat) : Int := signed 48 (a + 2 ^ 48 - b % 2 ^ 48)

/-- Time from stamp `b` to stamp `a`, modulo 2⁴⁸. -/
def stampAfter (a b : Nat) : Nat := (a + 2 ^ 48 - b) % 2 ^ 48

/-- A sample enters the statistics (R306). -/
def TimUnit.sample (u : TimUnit) (x : Int) : TimUnit :=
  { u with
    count := u.count + 1, sum := u.sum + x, sumSq := u.sumSq + x * x
    low := if u.count = 0 then x else min u.low x, high := if u.count = 0 then x else max u.high x }

/-- The run has reached its length (R305). -/
def State.timDone (s : State) (st c : Nat) : Bool :=
  let n := s.timLen st c
  let k := (s.tim st c).count
  if n = 0 then s.timMode st c != tmStamp && decide (16777215 ≤ k) else decide (n ≤ k)

/-- A stamp with no start or reference (R304). -/
def State.timUnpair (s : State) (st c : Nat) : State :=
  (s.sat .tim st Off.timUnpairCnt 0 32 1).setTim st c { s.tim st c with unpaired := true }

/-- Log a stamp in the FIFO of 64 (R315). -/
def State.timLog (s : State) (st c v src : Nat) : State :=
  let u := s.tim st c
  if s.timMode st c ≠ tmStamp ∧ s.rb .tim st (Off.timCfg c) 16 = false then s
  else if 64 ≤ u.fifo.length then
    let s1 := (s.setTim st c { u with lostNext := true }).sat .tim st Off.timLostCnt 0 32 1
    (s1.wb .tim st (Off.timFstat c) 9 true).event .tim st 2
  else s.setTim st c { u with fifo := u.fifo ++ [⟨v, src, u.lostNext⟩], lostNext := false }

/-- The last two of a rising list of stamps and a new one. -/
def lastTwo (l : List Nat) (v : Nat) : List Nat := (l ++ [v]).drop (l.length - 1)

/-- Unit `c` takes note of its stamp `v`, which is a start for the units that name it as their partner (R304). -/
def State.timNote (s : State) (st c v : Nat) : State :=
  s.setTim st c { s.tim st c with stamps := lastTwo (s.tim st c).stamps v }

/-- The latest time of `l` that precedes stamp `v`. -/
def latestBefore (l : List Nat) (v : Nat) : Option Nat := (l.filter fun p => decide (0 < stampDiff v p)).getLast?

/-- The sample of stamp `v`, if its mode gives one (R303, R304). `starts`: the last stamps of the partner, in any run of it;
one that the unit's own previous stamp does not precede is no start. -/
def TimUnit.sampleOf (u : TimUnit) (mode : Nat) (starts : List Nat) (v : Nat) : Option Int :=
  let fresh := starts.filter fun p => match u.stamps.getLast? with | some w => decide (0 < stampDiff p w) | none => true
  if mode = tmPeriod then u.last.map (stampDiff v)
  else if mode = tmInterval then (latestBefore fresh v).map (stampDiff v)
  else if mode = tmOffset then (latestBefore u.refs v).map (stampDiff v)
  else none

/-- An event is stamped `v` (R303 to R305, R315). -/
def State.timStamp (s : State) (st c v src : Nat) : State :=
  let m := s.timMode st c
  let u := s.tim st c
  let u1 := { u with last := some v }
  let s1 :=
    if m = tmStamp then s.setTim st c { u1 with count := u.count + 1 }
    else
      match u.sampleOf m (s.tim st (s.rf .tim st (Off.timCfg c) 12 4)).stamps v with
      | some x => s.setTim st c (u1.sample x)
      | none => if m = tmPeriod then s.setTim st c u1 else (s.setTim st c u1).timUnpair st c
  let s2 := (s1.timLog st c v src).timNote st c v
  if s2.timDone st c then s2.timEnd st c endCount else s2

/-! ### Statistics -/

/-- Integer square root, bit by bit from bit `n - 1`. -/
def isqrtBits (x : Nat) : Nat → Nat → Nat
  | 0, r => r
  | n + 1, r => isqrtBits x n (if (r + 2 ^ n) * (r + 2 ^ n) ≤ x then r + 2 ^ n else r)

/-- Floor of the square root of a number below 2²⁵⁶. -/
def isqrt (x : Nat) : Nat := isqrtBits x 128 0

/-- Quotient rounded to nearest, ties away from zero. -/
def roundDiv (a : Int) (b : Nat) : Int :=
  let q := ((2 * a.natAbs + b) / (2 * b) : Nat)
  if a < 0 then -(q : Int) else q

/-- MEAN in 2⁻⁸ units (R306). -/
def TimUnit.mean (u : TimUnit) : Int := if u.count = 0 then 0 else roundDiv (256 * u.sum) u.count

/-- SD in 2⁻⁸ units, rounded to nearest (R306, R307). -/
def TimUnit.sd (u : TimUnit) : Nat :=
  if u.count < 2 then 0
  else
    let num := (u.count * u.sumSq - u.sum * u.sum).toNat
    (isqrt (4 * 65536 * num / (u.count * (u.count - 1))) + 1) / 2

/-- The nine result words of a run (R306, R307, R329), but for SEQ and VALID. -/
def State.timWords (s : State) (st c : Nat) : List Nat :=
  let u := s.tim st c
  let sat := decide (2 ^ 32 ≤ u.sd)
  let n := if s.timMode st c = tmStamp then { u with sum := 0, low := 0, high := 0, sumSq := 0 } else u
  let mean := if s.timMode st c = tmStamp then 0 else n.mean
  let sd := if s.timMode st c = tmStamp then 0 else if sat then 2 ^ 32 - 1 else n.sd
  let lo := if u.count = 0 then 0 else n.low
  let hi := if u.count = 0 then 0 else n.high
  [pack [(17, 1, bit (decide (u.count < 2))), (18, 1, bit u.miss), (19, 1, bit u.unpaired), (20, 1, bit u.bankSw),
      (21, 1, bit (sat && s.timMode st c != tmStamp)), (22, 2, u.endCode), (24, 3, s.timMode st c)],
    if u.count < 2 ^ 24 then u.count else Config.freeNat s.free % 2 ^ 24,
    twos 32 mean, twos 32 (mean / 2 ^ 32), sd, twos 32 lo, twos 32 (lo / 2 ^ 32), twos 32 hi, twos 32 (hi / 2 ^ 32)]

/-! ### Entries -/

/-- A ring that cannot accept under BACKP: the stamps stay in the FIFO (R320). -/
def State.ringStuck (s : State) (n : Nat) : Bool :=
  s.ringEn n && !s.ringIn n && s.ringPolicy n == 1 && (s.ringFull n || s.ringPaused)

/-- A TIM or vernier unit holds stamps that ring `n` refuses under BACKP (R320, R525). -/
def State.timWaits (s : State) (n : Nat) : Bool :=
  s.ringStuck n && (s.tims.any (fun e => e.2.ring == some n && !e.2.fifo.isEmpty) ||
    s.verniers.any fun e => e.2.ring == some n && !e.2.fifo.isEmpty)

/-- The body of a native stamp entry of up to four stamps (R318). -/
def State.timEntry (s : State) (st c : Nat) (l : List Stamp) : Nat :=
  let v := fun k => ((l[k]?).map Stamp.val).getD 0
  packBytes [(4, 2, pack [(0, 11, 16 * st + c), (11, 2, l.length - 1), (13, 1, bit (((l[0]?).map Stamp.lost).getD false))]),
    (6, 6, v 0), (12, 6, v 1), (18, 6, v 2), (24, 6, v 3), (30, 2, pack [(0, 3, s.timMode st c), (3, 3, s.timSrc st c)])]

/-- One entry of unit `c` is posted, holding up to four stamps (R320). -/
def State.timPost (s : State) (st c : Nat) : State :=
  let u := s.tim st c
  match u.ring with
  | none => s
  | some n =>
    if u.fifo.isEmpty || s.ringStuck n then s
    else (s.setTim st c { u with fifo := u.fifo.drop 4 }).post n (.tim st) false 0x04 (s.timEntry st c (u.fifo.take 4))

/-- One vernier entry is posted, holding up to six stamps (R319, R320). -/
def State.vernierPost (s : State) (st : Nat) : State :=
  let u := s.vernier st
  match u.ring with
  | none => s
  | some n =>
    if u.fifo.isEmpty || s.ringStuck n then s
    else
      let l := u.fifo.take 6
      let v := fun k => (l[k]?).getD 0
      let body := packBytes [(4, 2, pack [(0, 7, st), (7, 4, u.chan), (11, 3, l.length), (14, 1, bit u.lost)]),
        (6, 4, v 0), (10, 4, v 1), (14, 4, v 2), (18, 4, v 3), (22, 4, v 4), (26, 4, v 5)]
      (s.setVernier st { u with fifo := u.fifo.drop 6, lost := false }).post n (.tim st) false 0x05 body

/-- A unit in DRAIN whose result is stored and whose entries are posted returns to IDLE (R321). -/
def State.timSettle (s : State) (st c : Nat) : State :=
  let u := s.tim st c
  if s.timState st c = tDrain ∧ u.stored ∧ (u.ring.isNone ∨ u.fifo.isEmpty) then
    (s.setTim st c { u with live := false, stored := false }).setTimState st c tIdle
  else s

/-- A pulse (time in 250 fs units since the epoch, lines) is reached: a unit that waits for it acquires, its LINES window opens
or closes, and it is a reference from now on (R301, R304, R323). With pulses on both lines on one tick, of one TRIG or of two, the
window is closed after that tick (R327). -/
def State.timPulse (s : State) (st c : Nat) (p : Nat × Nat) : State :=
  let w := s.rd .tim st (Off.timTl c)
  let line := fun lo => p.2.testBit (fld w lo 3)
  let u := s.tim st c
  let k := p.1 / 1250
  let u1 := { u with
    refs := if line 8 then lastTwo u.refs (stampOf p.1) else u.refs
    opened := if line 16 then false else if line 12 then u.closedAt != some k else u.opened
    closedAt := if line 16 then some k else u.closedAt }
  if line 4 ∧ s.timState st c = tWait then (s.setTim st c { u1 with since := s.nowTick k }).setTimState st c tAcq
  else s.setTim st c u1

/-- The pulses ahead of a unit for which `ok` holds are reached. -/
def State.timReach (s : State) (st c : Nat) (ok : Nat → Bool) : State :=
  let u := s.tim st c
  (u.pulses.filter fun p => ok p.1).foldl (fun x p => x.timPulse st c p)
    (s.setTim st c { u with pulses := u.pulses.filter fun p => !ok p.1 })

/-- The pulses up to the present tick are reached. -/
def State.timNow (s : State) (st c : Nat) : State := s.timReach st c fun t => decide (t / 1250 ≤ s.tick)

/-- TIM_STATE of a unit at the present tick (R323). -/
def State.timStateNow (s : State) (st c : Nat) : Nat := (s.timNow st c).timState st c

/-- A TRIG of sequencer `q` will pulse the lines of mask `m` at time `t` (250 fs units since the epoch): the armed units that
listen to it take note (R301, R304, R323). -/
def State.timTrigger (s : State) (q m t : Nat) : State :=
  s.tims.foldl (fun x e =>
    let st := e.1 / 16
    let c := e.1 % 16
    if e.2.live = false ∨ s.rf .tim st (Off.timTl c) 0 3 ≠ q then x
    else
      let y := x.timNow st c
      y.setTim st c { y.tim st c with pulses := (y.tim st c).pulses ++ [(t, m)] })
    { s with lastTrig := Store.put s.lastTrig q (t, m) }

/-- A tack-room switchover marks the runs in progress in the barns of mask `m` (R327). -/
def State.timBankSw (s : State) (m : Nat) : State :=
  s.tims.foldl (fun x e =>
    if x.timStateNow (e.1 / 16) (e.1 % 16) = tAcq ∧ natBit m (e.1 / 256) then
      x.setTim (e.1 / 16) (e.1 % 16) { x.tim (e.1 / 16) (e.1 % 16) with bankSw := true }
    else x) s

/-! ### Reads that pop -/

/-- A read of TIM_FIFO_LO[c] pops the oldest stamp into the reader's snapshot (R316, R329). -/
def timFifoPop (r : Requester) (st c : Nat) (s : State) : State :=
  let a := PageKind.tim.base st + Off.timFifoLo c
  let u := s.tim st c
  let put := fun (x : State) (lo hi : Nat) =>
    { x with snaps := Store.put (Store.put x.snaps (reqKey r a) (word lo)) (reqKey r (a + 4)) (word hi), resp := [word lo] }
  match u.fifo with
  | [] => put s 0 0
  | e :: t =>
    if u.ring.isSome then put s 0 0
    else put (s.setTim st c { u with fifo := t }) e.val
      (pack [(0, 16, e.val / 2 ^ 32), (16, 3, e.src), (19, 1, bit e.lost), (31, 1, 1)])

/-- A read of TIM_VFIFO pops the oldest vernier stamp, or sets UNDERRUN (R327). -/
def vernierFifoPop (st : Nat) (s : State) : State :=
  let u := s.vernier st
  match u.fifo with
  | [] => { s with resp := [0] }.wb .tim st Off.timVstat 9 true
  | e :: t => if u.ring.isSome then { s with resp := [0] } else { s.setVernier st { u with fifo := t } with resp := [word e] }

/-! ### Commands -/

/-- Bit `c` of TIM_ARM written 1 (R322). -/
def execTimArm (r : Requester) (st : Fin 128) (c : Fin 16) (s : State) : Result :=
  let v := word (2 ^ c.val)
  .next (s.guarded r .tim st Off.timArm v (timArmWrite r st v))

/-- TIM_ARM.VERNIER written 1 (R313). -/
def execVernierArm (r : Requester) (st : Fin 128) (s : State) : Result :=
  let v := word (2 ^ 16)
  .next (s.guarded r .tim st Off.timArm v (timArmWrite r st v))

/-- Bit `c` of TIM_STOP written 1; 16 is the vernier unit (R324). -/
def execTimStop (r : Requester) (st : Fin 128) (c : Fin 17) (s : State) : Result :=
  let v := word (2 ^ c.val)
  .next (s.guarded r .tim st Off.timStop v (timStopWrite st v))

/-- The event stamped `v` lies in the strobe window of a vector of its channel's sequencer (R301): after the stamp unit of
STB_A and before that of STB_B. In those two units the stamp does not tell, and `edge` does. The sequencer issues vectors, or
the vector that it issued last has not ended by then (R327). -/
def State.inStrobe (s : State) (ch v : Nat) (edge : Bool) : Bool :=
  let w := s.following ch
  let q := fld w 8 3
  let wins := ((Store.get? s.chans ch).map ChanSt.strobes).getD []
  let issuing := s.rf .seq q Off.seqStat 0 3 == 2 ||
    (match Store.get? s.seqs q with | some x => decide (stampDiff v (stampOf x.vtime) < 0) | none => false)
  tbit w 31 && issuing && wins.any fun p =>
    let a := stampDiff v (stampOf p.1)
    let b := stampDiff v (stampOf p.2)
    (decide (0 < a) && decide (b < 0)) || (edge && (a == 0 || b == 0))

/-- An event of the unit's source at raw time `t` (R296, R298 to R304); `edge` as in `State.inStrobe`. A pulse on its own tick
comes before it (R323, R327). -/
def State.timTake (s0 : State) (st c t : Nat) (edge : Bool) : State :=
  let v := s0.needleStamp (16 * st + c) t
  let s := s0.timReach st c fun p => decide (0 ≤ stampDiff v (p / 1250 * 2048 % 2 ^ 48))
  let u := s.tim st c
  let src := s.timSrc st c
  let gated :=
    match s.timGate st c with
    | 0 => true
    | 1 => s.inStrobe (16 * st + c) v edge
    | _ => u.opened
  let near : Option Nat → Nat → Bool := fun l d => match l with | some p => decide (p ≤ t) && decide (t < p + d) | none => false
  if s.timState st c ≠ tAcq ∨ s.timMode st c = tmTdr ∨ (s.rb .stl st Off.stlPark c ∧ src < 4) ∨ gated = false then s
  else if s.rf .tim st (Off.timCfg c) 24 4 ≠ 0 ∧ near u.lastEvent 4096 then s
  else if 0 < u.skip then s.setTim st c { u with skip := u.skip - 1, lastEvent := some t }
  else
    let s1 := s.setTim st c { u with skip := 2 ^ s.rf .tim st (Off.timCfg c) 24 4 - 1, lastEvent := some t }
    if near u.lastRaw 8192 then
      (s1.sat .tim st Off.timMissCnt 0 32 1).setTim st c { s1.tim st c with miss := true }
    else (s1.setTim st c { s1.tim st c with lastRaw := some t }).timStamp st c v src

/-- A front-end event of the unit's source at the given raw time in stamp units since the epoch (R299, R300); `strobe` as in
`State.inStrobe`. The events of the watch comparators are their own commands. -/
def execTimEvent (st : Fin 128) (c : Fin 16) (t : BitVec 64) (strobe : Bool) (s : State) : Result :=
  if s.timSrc st c < 4 then .next (s.timTake st c t.toNat strobe) else .next s

/-- A comparator event on the vernier channel at the given raw time in vernier units since the epoch (R296, R313, R314). -/
def execVernierEvent (st : Fin 128) (t : BitVec 64) (s : State) : Result :=
  let u := s.vernier st
  let v := s.needleVernier (16 * st + u.chan) t.toNat
  if s.rb .tim st Off.timVstat 8 = false ∨ s.rb .stl st Off.stlPark u.chan then .next s
  else
    let near := match u.last with | some p => decide (p ≤ t.toNat) && decide (t.toNat < p + 20480) | none => false
    if near then .next (s.sat .tim st Off.timVmissCnt 0 32 1)
    else if 16 ≤ u.fifo.length then .next (s.setVernier st { u with last := some t.toNat, lost := true })
    else .next ((s.setVernier st { u with last := some t.toNat, fifo := u.fifo ++ [v] }).event .tim st 3)

/-- Tick of `State.now` of the next launch of unit `c` (R309): a period after its last one, or, for its first, the first of its
phase after the stall's first launch that comes at or after its entry into ACQ. The stall's first launch is due now if none has
been made. -/
def State.nextLaunch (s : State) (st c : Nat) : Nat :=
  let u := s.tim st c
  let rep := 32 * u.rep
  match u.launched with
  | some l => l + rep
  | none =>
    let b := (s.stall st).tdrFirst.getD s.now + c % u.phases * rep / u.phases
    b + (u.since - b + rep - 1) / rep * rep

/-- A unit in TDR mode launches its next step, and the round trip of its first H rise, if there is one: its stamp is logged
and seen as any other (R304, R309, R315). -/
def execTdrLaunch (st : Fin 128) (c : Fin 16) (rt : Option (BitVec 48)) (s : State) : Result :=
  if s.timStateNow st c ≠ tAcq ∨ s.timMode st c ≠ tmTdr then .next s
  else
    let x := s.timNow st c
    let l := x.nextLaunch st c
    let s1 := x.setStall st { x.stall st with tdrFirst := some ((s.stall st).tdrFirst.getD s.now) }
    let s2 := { s1.setTim st c { s1.tim st c with launched := some l } with now := max s.now l }
    match rt with
    | none => .next s2
    | some r =>
      let v := ((l * 1250 - s.epoch) / 1250 * 2048 + r.toNat) % 2 ^ 48
      let s3 := s2.setTim st c { (s2.tim st c).sample r.toNat with last := some v }
      let s4 := (s3.timLog st c v 0).timNote st c v
      .next (if s4.timDone st c then s4.timEnd st c endCount else s4)

/-- The statistics of an ended run are stored (R306, R321, R326); the remaining entries are posted first (R320). No rule says
what the 24 bits of COUNT show of a STAMP run without length (R305) that has counted more: a free value (assumption 66). -/
def execTimResultStored (st : Fin 128) (c : Fin 16) (s0 : State) : Result :=
  if s0.timState st c ≠ tDrain ∨ (s0.tim st c).stored then .next s0
  else
    let w := s0.timWords st c
    let s := if (s0.tim st c).count < 2 ^ 24 then s0 else s0.useFree
    let s1 := s.storeResult .tim st (Off.timRes c 0) ((w[0]?).getD 0)
    let s2 := (List.range' 1 8).foldl (fun x i => x.wr .tim st (Off.timRes c i) (word ((w[i]?).getD 0))) s1
    let s3 := (upto 16).foldl (fun x _ => x.timPost st c) (s2.setTim st c { s2.tim st c with stored := true })
    .next ((s3.event .tim st 1).timSettle st c)

/-- Unit `c` of a stall (16: the vernier unit) holds a full entry that its ring takes (R320). -/
def State.entryFull (s : State) (st c : Nat) : Bool :=
  let ready := fun (r : Option Nat) => match r with | some n => !s.ringStuck n | none => false
  if c < 16 then ready (s.tim st c).ring && decide (4 ≤ (s.tim st c).fifo.length)
  else ready (s.vernier st).ring && decide (6 ≤ (s.vernier st).fifo.length)

/-- Unit `c` may drain: no unit whose turn comes before it, from `StallSt.turn` round, holds a full entry (R317). -/
def State.timTurn (s : State) (st c : Nat) : Bool :=
  let t := (s.stall st).turn
  (upto 17).all fun d => !s.entryFull st d || decide ((c + 17 - t) % 17 ≤ (d + 17 - t) % 17)

/-- A stamp entry is posted: of native unit `c`, or of the vernier unit for 16 (R320), when its turn has come (R317). That a
unit without a full entry takes no turn from another is a DESIGN CHOICE (assumption 81). -/
def execTimEntryPost (st : Fin 128) (c : Fin 17) (s : State) : Result :=
  if s.timTurn st c = false then .next s
  else
    let s1 := s.setStall st { s.stall st with turn := (c + 1) % 17 }
    if c.val < 16 then .next ((s1.timPost st c).timSettle st c) else .next (s1.vernierPost st)

/-- A read of TIM_FIFO_LO[c] (R329). -/
def execTimFifoRead (r : Requester) (st : Fin 128) (c : Fin 16) (s : State) : Result :=
  if s.reach r .tim st = .full then .next (timFifoPop r st c s)
  else .next { s.accessError r with resp := [0xFFFFFFFF] }

/-- A read of TIM_VFIFO (R327). -/
def execVernierFifoRead (r : Requester) (st : Fin 128) (s : State) : Result :=
  if s.reach r .tim st = .full then .next (vernierFifoPop st s)
  else .next { s.accessError r with resp := [0xFFFFFFFF] }

end Sys2Proof.Machine
end

