-- ==== Sys2Proof/Machine/AcqOps.lean ====
section
/-!
DEFINITION. Acquisition and Trigger Engines (R395 to R427): streams and slots, pre-trigger memory, triggers, points and
entries, states and dead time, and the commands of the ACQ page.
-/

namespace Sys2Proof.Machine

/-! ### Engine state -/

/-- An engine at rest. -/
def AcqSt.idle : AcqSt := ⟨none, 0, [], 0, 0, [], 0, 0, [], [], false, 0, none, 0, 0, 0, [], none, 1, 0, none, 0⟩

def State.acq (s : State) (b : Nat) : AcqSt := Store.getD (fun _ => AcqSt.idle) s.acqs b

def State.setAcq (s : State) (b : Nat) (v : AcqSt) : State :=
  { s with acqs := Store.setD (fun _ => AcqSt.idle) s.acqs b v }

/-- ACQ_STAT.STATE codes (R420). -/
def aIdle : Nat := 0
def aFill : Nat := 1
def aPost : Nat := 2
def aRearm : Nat := 3

def State.acqState (s : State) (b : Nat) : Nat := s.rf .acq b Off.acqStat 0 2
def State.setAcqState (s : State) (b v : Nat) : State := s.wf .acq b Off.acqStat 0 2 v

/-- Streams that take part (R395). -/
def State.acqMask (s : State) (b : Nat) : Nat := s.rd2 .acq b Off.acqSmaskLo Off.acqSmaskHi

/-- Streams that take part, ascending. -/
def State.acqStreams (s : State) (b : Nat) : List Nat := onesOf (s.acqMask b) 64

/-- Excluded streams (R397). -/
def State.acqBad (s : State) (b : Nat) : Nat := s.rd2 .acq b Off.acqBadstrLo Off.acqBadstrHi

/-- Streams that take part and are not excluded. -/
def State.acqGood (s : State) (b : Nat) : List Nat := (s.acqStreams b).filter fun i => !natBit (s.acqBad b) i

/-- Share of each stream, in slots (R400). -/
def State.acqShare (s : State) (b : Nat) : Nat := 65536 / (s.acqStreams b).length

/-- Skew of a stream (R398). -/
def State.acqSkewOf (s : State) (b i : Nat) : Int := signed 8 (s.rf .acq b (Off.acqSkew i) 0 8)

def AcqSt.apersOf (a : AcqSt) (i : Nat) : Nat := Store.getD (fun _ => 0) a.apers i

/-- The ring of the records, if any (R414). -/
def State.acqRingNo (s : State) (b : Nat) : Option Nat :=
  if s.rb .acq b Off.acqRing 31 then some (s.rf .acq b Off.acqRing 0 15) else none

/-- The slot whose aperture contains a tick of State.now; 0 before slot 0 begins (R406). -/
def AcqSt.slotOf (a : AcqSt) (t : Nat) : Nat :=
  match a.t0 with
  | none => 0
  | some z => if t < z then 0 else (t - z) / a.len

/-- The port's write buffer has emptied: between the records of an engine, and once it is idle (assumption 21). -/
def State.acqDrained (s : State) (b : Nat) : State :=
  let s1 := s.setAcq b { s.acq b with buf := 0 }
  if s1.rb .hbm 0 Off.hbmPanic (8 + b) then s1.portCalm (8 + b) else s1

/-- The engine enters FILL with an empty memory (R402). -/
def State.acqFill (s0 : State) (b : Nat) : State :=
  let s := s0.acqDrained b
  let a := s.acq b
  let s1 := s.setAcq b { a with mem := [], level := [], ready := false, rcd := none, fillSlot := max a.slots (a.slotOf s.now) }
  (s1.wf .acq b Off.acqStat 16 16 0).setAcqState b aFill

/-- The engine goes to IDLE; STOP reads 0. -/
def State.acqIdle (s : State) (b : Nat) : State :=
  ((s.acqDrained b).wb .acq b Off.acqCtrl 1 false).setAcqState b aIdle

/-! ### Points (R409 to R411) -/

/-- First slot of point `j`, and the slot after its last, in a record with `post` post slots. -/
def AcqRec.span (r : AcqRec) (k post : Nat) (j : Int) : Nat × Nat :=
  if 0 ≤ j then (r.slot + j.toNat * k, min (r.slot + (j.toNat + 1) * k) (r.slot + post))
  else
    let hi := r.slot - ((-j).toNat - 1) * k
    (max (hi - k) (r.slot - r.pre), hi)

/-- First point of a record. -/
def AcqRec.firstPoint (r : AcqRec) (k : Nat) : Int := -(((r.pre + k - 1) / k : Nat) : Int)

/-- The oldest point of a record that is not posted whole; `waits`: the entry offered last still waits at the ring (R400). -/
def AcqRec.oldest (r : AcqRec) (k : Nat) (waits : Bool) : Int :=
  max (r.firstPoint k) (if waits && r.part == 0 then r.point - 1 else r.point)

/-- Samples of stream `i` present in slots `lo` to `hi - 1`. -/
def AcqSt.samples (a : AcqSt) (i lo hi : Nat) : List Nat :=
  (upto (hi - lo)).filterMap fun n => Store.get? a.mem (64 * (lo + n) + i)

/-- A stream slot of a point entry, 12 bytes (R411, R418). -/
def AcqSt.streamSlot (a : AcqSt) (i lo hi : Nat) : Nat :=
  let l := a.samples i lo hi
  let v := l.map fun x => signed 24 x
  let n := l.length
  let mn := if n = 0 then 0x800000 else twos 24 (v.foldl min (v.headD 0))
  let mx := if n = 0 then 0x800000 else twos 24 (v.foldl max (v.headD 0))
  let me := if n = 0 then 0x800000 else twos 24 (roundDiv (v.foldl (fun x y => x + y) 0) n)
  pack [(0, 24, mn), (24, 24, mx), (48, 24, me), (72, 16, n), (88, 6, i), (94, 1, bit (l.any fun x => x.testBit 24)), (95, 1, 1)]

/-! ### Entries (R414 to R419) -/

/-- REC of the record in progress: the SEQ that its result will carry (R412). -/
def State.acqRecNo (s : State) (b : Nat) : Nat := (s.rf .acq b (Off.acqRes 0) 0 8 + 1) % 256

/-- Post slots of a record as far as they are fixed: POST_ACT once POST is over, else POST or where the memory cuts it. -/
def State.acqPosts (s : State) (b : Nat) (r : AcqRec) : Nat :=
  match r.last with
  | some (n, _) => n
  | none => min (s.rf .acq b Off.acqPost 0 24) (r.cap.getD (s.rf .acq b Off.acqPost 0 24))

def State.acqK (s : State) (b : Nat) : Nat := s.rf .acq b Off.acqK 0 16

/-- Entries of the record that the ring has refused or dropped. -/
def State.acqDropped (s : State) (b : Nat) (r : AcqRec) : Nat := (s.rd .acq b Off.acqRingDrop).toNat - r.drop0

/-- Body of a head entry (R417). -/
def State.acqHead (s : State) (b : Nat) (r : AcqRec) : Nat :=
  packBytes [(4, 1, s.acqRecNo b), (5, 1, bit r.short), (6, 1, b),
    (7, 1, (s.acqStreams b).length), (8, 6, s.tickOf r.tick), (14, 4, r.pre), (18, 4, s.rf .acq b Off.acqPost 0 24), (22, 2, s.acqK b),
    (24, 4, min r.dead (2 ^ 32 - 1)), (28, 2, min r.missed 0xFFFF), (30, 2, s.rf .acq b Off.acqTrig 0 3)]

/-- Body of entry `p` of the present point of a record (R418). -/
def State.acqPoint (s : State) (b : Nat) (r : AcqRec) : Nat :=
  let sp := r.span (s.acqK b) (s.acqPosts b r) r.point
  let st := fun n =>
    match (s.acqStreams b)[2 * r.part + n]? with
    | some i => (s.acq b).streamSlot i sp.1 sp.2
    | none => 0
  packBytes [(4, 1, s.acqRecNo b), (5, 3, twos 24 r.point), (8, 12, st 0), (20, 12, st 1)]

/-- Body of a tail entry (R419). -/
def State.acqTail (s : State) (b : Nat) (r : AcqRec) : Nat :=
  let e := r.last.getD (0, 0)
  packBytes [(4, 1, s.acqRecNo b),
    (5, 1, pack [(0, 1, bit r.trunc), (1, 1, bit (s.acqDropped b r != 0)), (2, 2, e.2)]), (8, 4, e.1), (12, 4, r.npoint),
    (16, 4, s.acqDropped b r), (20, 6, s.tickOf r.endTick)]

/-- An entry of the engine waits at its ring under back-pressure. -/
def State.acqWaits (s : State) (b n : Nat) : Bool := (s.ring n).held.any fun h => h.prod == .acq b

/-- The result of a closed record is stored (R427). -/
def State.acqStore (s : State) (b : Nat) (r : AcqRec) : State :=
  let e := r.last.getD (0, 0)
  let s1 := s.storeResult .acq b (Off.acqRes 0)
    (pack [(17, 1, bit r.short), (18, 1, bit r.trunc),
      (19, 1, bit (s.acqDropped b r != 0)), (20, 2, e.2)])
  let s2 := ((s1.wr .acq b (Off.acqRes 1) (word r.pre)).wr .acq b (Off.acqRes 2) (word e.1)).wr .acq b (Off.acqRes 3)
    (word (min r.dead (2 ^ 32 - 1)))
  let s3 := s2.wr2 .acq b (Off.acqRes 4) (Off.acqRes 5) (s.tickOf r.tick)
  s3.setAcq b { s3.acq b with rcd := some { r with stored := true } }

/-- What became of the point entry that waited at the ring: it counts in NPOINT unless the ring has dropped it, also where, `force`,
the rest of the record queues behind it (R419). -/
def State.acqSettled (s : State) (b n : Nat) (force : Bool) (r : AcqRec) : AcqRec :=
  match r.wait with
  | some d =>
    if s.acqWaits b n && !force then r
    else { r with wait := none, npoint := r.npoint + bit (decide ((s.rd .acq b Off.acqRingDrop).toNat = d)) }
  | none => r

/-- One more entry of the record is offered to ring `n`, if one is due and, unless `force`, none of the engine waits;
none: nothing is due. -/
def State.acqOffer (s : State) (b n : Nat) (force : Bool) : Option State :=
  let a := s.acq b
  match a.rcd.map (s.acqSettled b n force) with
  | none => none
  | some r =>
    let k := s.acqK b
    let posts := s.acqPosts b r
    let sp := r.span k posts r.point
    let exists_ := decide (r.point < 0) || decide (r.point.toNat * k < posts)
    let set := fun (x : State) (v : AcqRec) => x.setAcq b { x.acq b with rcd := some v, buf := min 1024 (a.buf + 1) }
    if r.tailDone || (s.acqWaits b n && !force) then none
    else if r.headDone = false then
      some (set (s.post n (.acq b) true 0x07 (s.acqHead b r)) { r with headDone := true })
    else if exists_ then
      if sp.2 ≤ a.slots ∨ r.last.isSome then
        let o := s.offer n (.acq b) true 0x08 (s.acqPoint b r)
        let lastPart := decide ((s.acqStreams b).length ≤ 2 * (r.part + 1))
        let r1 := { r with
          npoint := r.npoint + bit (decide (o.2 = Offer.accepted ∨ (force ∧ o.2 = Offer.waits)))
          wait := if o.2 = Offer.waits ∧ force = false then some (s.rd .acq b Off.acqRingDrop).toNat else r.wait }
        some (set o.1 (if lastPart then { r1 with point := r.point + 1, part := 0 } else { r1 with part := r.part + 1 }))
      else none
    else if r.last.isSome then
      some (set (s.post n (.acq b) true 0x09 (s.acqTail b r)) { r with tailDone := true })
    else none

/-- Offer every entry that is due; `fuel` bounds their number. -/
def State.acqPumpN (s : State) (b n : Nat) (force : Bool) : Nat → State
  | 0 => s
  | f + 1 =>
    match s.acqOffer b n force with
    | some x => x.acqPumpN b n force f
    | none => s

/-- First slot that the memory still needs: that of the oldest point not posted whole (R400, R415). -/
def State.acqNeeds (s : State) (b n : Nat) (r : AcqRec) : Nat :=
  (r.span (s.acqK b) (s.acqPosts b r) (r.oldest (s.acqK b) (s.acqWaits b n))).1

/-- The memory lets go of what has been reduced and posted (R400). -/
def State.acqRelease (s : State) (b n : Nat) : State :=
  match (s.acq b).rcd with
  | none => s
  | some r => s.setAcq b { s.acq b with mem := Store.keep (fun m => decide (64 * s.acqNeeds b n r ≤ m)) (s.acq b).mem }

/-- Panic of the engine's port (R538). How fast the hayloft empties the write buffer of 1,024 entries is not stated: once it can
hold more than 768 entries, or in panic, what it still holds is a free value. -/
def State.acqPort (s : State) (b : Nat) : State :=
  let a := s.acq b
  if a.buf ≤ 768 ∧ s.rb .hbm 0 Off.hbmPanic (8 + b) = false then s
  else
    let held := Config.freeNat s.free % (a.buf + 1)
    let s1 := s.useFree.setAcq b { a with buf := held }
    if 768 < held then s1.portPanic (8 + b) else if held < 256 then s1.portCalm (8 + b) else s1

/-- The engine posts what is due to the ring of its arm, and stores the result once its tail is posted or dropped (R414, R427):
after a preemption too, whose tail may still wait at the ring (`force`: it queues there behind a waiting entry). -/
def State.acqPump (s : State) (b : Nat) (force : Bool) : State :=
  let fuel := 33 * (2 * 65536 + (s.acq b).slots) + 2
  let s1 := match (s.acq b).ring with
    | some n => ((s.acqPumpN b n force fuel).acqRelease b n).acqPort b
    | none => s
  match (s1.acq b).rcd with
  | none => s1
  | some r =>
    let posted := match (s1.acq b).ring with
      | some n => r.tailDone && !s1.acqWaits b n
      | none => r.last.isSome
    if posted && !r.stored then s1.acqStore b r else s1

/-! ### Triggers (R403 to R408) -/

/-- POST ends and the record closes, with `n` post slots and END `code` (R420, R427); the END_TICK of a record with none is a free
value. -/
def State.acqClose (s : State) (b n code : Nat) (trunc : Bool) : State :=
  let a := s.acq b
  match a.rcd with
  | none => s
  | some r =>
    let z := if n = 0 then Config.freeNat s.free else a.t0.getD 0 + (r.slot + n) * a.len
    let s1 := if n = 0 then s.useFree else s
    let r1 := { r with last := some (n, code), trunc := trunc, endTick := z, since := s.now }
    (((s1.setAcq b { a with rcd := some r1 }).setAcqState b aRearm).acqPump b (code == 2)).event .acq b 2

/-- Post slots ended so far. -/
def AcqSt.postSlots (a : AcqSt) : Nat := match a.rcd with | some r => a.slots - r.slot | none => 0

/-- POST slots reached, or the record is cut off (R415, R416, R420). -/
def State.acqPostCheck (s : State) (b : Nat) : State :=
  let a := s.acq b
  match a.rcd with
  | none => s
  | some r =>
    if s.acqState b = aPost ∧ s.acqPosts b r ≤ a.postSlots then s.acqClose b (s.acqPosts b r) 0 r.cap.isSome else s

/-- Under back-pressure a sample for slot `n` finds the share of its stream full: the record is cut off at the last slot that
fits (R415). -/
def State.acqOverflow (s : State) (b n : Nat) : State :=
  match (s.acq b).rcd, (s.acq b).ring with
  | some r, some k =>
    let top := s.acqNeeds b k r + s.acqShare b
    if s.acqState b = aPost ∧ s.acqWaits b k ∧ top ≤ n ∧ top < r.slot + s.acqPosts b r then
      (s.setAcq b { s.acq b with rcd := some { r with cap := some (top - r.slot) } }).acqPostCheck b
    else s
  | _, _ => s

/-- The EV_IN levels recorded at tick `t` of State.now (R405). -/
def State.evAt (s : State) (t : Nat) : Nat :=
  match s.evHist.find? fun e => decide (e.1 ≤ t) with
  | some e => e.2
  | none => s.pins.evIn

/-- The levels from now on are `lev`. Earlier ones are kept while an engine runs, which may judge its qualifier by them. -/
def State.evRecord (s : State) (lev : Nat) : State :=
  let old := if (upto 8).all (fun b => s.acqState b == aIdle) then [] else if s.evHist.isEmpty then [(0, s.pins.evIn)] else s.evHist
  { s with evHist := if old.isEmpty then [] else (s.now, lev) :: old, pins := { s.pins with evIn := lev } }

/-- The qualifier passes at tick `t` of State.now (R405). -/
def State.acqQualified (s : State) (b t : Nat) : Bool :=
  let h := (s.evAt t).testBit (s.rf .acq b Off.acqQual 4 2)
  match s.rf .acq b Off.acqQual 0 2 with
  | 1 => h
  | 2 => !h
  | _ => true

/-- An event of the selected source at tick `t` of State.now: taken, rejected or missed (R405 to R408, R425). Two of one tick are one
trigger. -/
def State.acqEvent (s : State) (b t : Nat) : State :=
  let a := s.acq b
  if s.acqState b = aIdle ∨ t = a.armTick then s
  else
    let n := a.slotOf t
    if s.acqQualified b t = false ∨ n < a.fillSlot + s.rf .acq b Off.acqQual 16 16 then s.sat .acq b Off.acqReject 0 32 1
    else if a.lastTrig = some t then s
    else if s.acqState b = aFill then
      let pre := min (s.rf .acq b Off.acqPre 0 17) (n - a.fillSlot)
      let room := s.acqShare b - pre
      let r : AcqRec :=
        { tick := t, slot := n, pre := pre, short := decide (pre < s.rf .acq b Off.acqPre 0 17), dead := a.dead
          missed := a.missed, drop0 := (s.rd .acq b Off.acqRingDrop).toNat, headDone := false, tailDone := false
          point := 0, part := 0, npoint := 0, trunc := false, last := none, endTick := 0, since := 0, stored := false
          cap := if s.acqRingNo b = none ∧ room < s.rf .acq b Off.acqPost 0 24 then some room else none, wait := none }
      let r1 := { r with point := r.firstPoint (s.acqK b) }
      let s1 := s.setAcq b { a with rcd := some r1, missed := 0, lastTrig := some t }
      let s2 := (s1.startResult .acq b (Off.acqRes 0)).setAcqState b aPost
      (((s2.acqPump b false).event .acq b 1).acqOverflow b (a.slots - 1)).acqPostCheck b
    else ((s.sat .acq b Off.acqMissed 0 32 1).setAcq b { a with missed := a.missed + 1, lastTrig := some t }).event .acq b 3

/-- The pulses on its trigger line whose ticks have come reach the engine. -/
def State.acqReach (s : State) (b : Nat) : State :=
  let a := s.acq b
  if a.ahead.isEmpty then s
  else
    (a.ahead.filter fun t => decide (t ≤ s.now)).foldl (fun x t => x.acqEvent b t)
      (s.setAcq b { a with ahead := a.ahead.filter fun t => decide (s.now < t) })

def State.acqSrc (s : State) (b : Nat) : Nat := s.rf .acq b Off.acqTrig 0 3

/-- A pulse of sequencer `q` on the lines of mask `m` at tick `t` of State.now (R403). -/
def State.acqLine (s : State) (q m t : Nat) : State :=
  (upto 8).foldl (fun x b =>
    let w := x.rd .acq b Off.acqTrig
    if x.acqSrc b = 1 ∧ fld w 8 3 = q ∧ m.testBit (fld w 12 3) then
      let y := x.acqReach b
      if t ≤ x.now then y.acqEvent b t
      else if y.acqState b = aIdle then y
      else y.setAcq b { y.acq b with ahead := (y.acq b).ahead ++ [t] }
    else x) s

/-- An edge of EV_IN_k: rising or falling (R403). -/
def State.acqEdge (s : State) (k : Nat) (rise : Bool) : State :=
  (upto 8).foldl (fun x b =>
    let w := x.rd .acq b Off.acqTrig
    if x.acqSrc b = 2 ∧ fld w 16 2 = k ∧ tbit w 4 = !rise then x.acqEvent b x.now else x) s

/-- A crossing of the upper (`side` false) or lower watch comparator of channel `ch` (R403). -/
def State.acqWatch (s : State) (ch : Nat) (side : Bool) : State :=
  let b := ch / 256
  let w := s.rd .acq b Off.acqTrig
  if s.acqSrc b = 3 ∧ fld w 20 8 = ch % 256 ∧ tbit w 28 = side then s.acqEvent b s.now else s

/-- Judge the sample of slot `n` under the LEVEL source (R404). -/
def State.acqLevelStep (s : State) (b n : Nat) : State :=
  let a := s.acq b
  let i := s.rf .acq b Off.acqLvcfg 0 6
  if s.acqSrc b ≠ 4 ∨ (s.acqGood b).contains i = false then s
  else
    let s := s.setAcq b { a with level := Store.keep (fun m => decide (n < m)) a.level }
    match Store.get? a.level n with
    | none => s
    | some x =>
      let v := signed 24 x
      let thr := signed 24 (s.rf .acq b Off.acqLevel 0 24)
      let hy : Int := (s.rf .acq b Off.acqLvcfg 8 24 : Nat)
      let fall := s.rb .acq b Off.acqTrig 4
      let cross := a.ready && (if fall then decide (v ≤ thr) else decide (thr ≤ v))
      let leave := if fall then decide (thr + hy ≤ v) else decide (v ≤ thr - hy)
      let s1 := s.setAcq b { s.acq b with ready := leave || (a.ready && !cross) }
      if cross then s1.acqEvent b (a.t0.getD 0 + n * a.len) else s1

/-! ### Streams (R395 to R399) -/

/-- Stream of a converter: its barn and its number (R395). -/
def streamOf (st u : Nat) : Nat × Nat := (st / 16, 4 * (st % 16) + u)

/-- A converter in STREAM mode starts an aperture; an excluded stream contributes no sample (R396, R397). -/
def State.acqBegin (s : State) (st u start len : Nat) : State :=
  let b := (streamOf st u).1
  let i := (streamOf st u).2
  let a := s.acq b
  let bad := fun (x : State) j =>
    (x.setAcq b { x.acq b with mem := Store.keep (fun m => m % 64 != j) (x.acq b).mem }).wr2 .acq b Off.acqBadstrLo
      Off.acqBadstrHi (x.acqBad b ||| 2 ^ j)
  if s.acqState b = aIdle ∨ natBit (s.acqMask b) i = false ∨ natBit a.begun i then s
  else
    let a1 := { a with begun := a.begun ||| 2 ^ i }
    if (s.acqStreams b).head? = some i then
      let s1 := s.setAcq b { a1 with t0 := some start, len := len, early := [] }
      a.early.foldl (fun x e => if e.2 = (start, len) then x else bad x e.1) s1
    else
      match a.t0 with
      | none => s.setAcq b { a1 with early := Store.put a.early i (start, len) }
      | some z => if z = start ∧ a.len = len then s.setAcq b a1 else bad (s.setAcq b a1) i

/-- An aperture of a stream ends with a sample (R398, R399). The memory takes none beyond the last post slot (R425), where LEVEL
still judges its stream (R408). -/
def State.acqSample (s : State) (st u code : Nat) (flag : Bool) : State :=
  let b := (streamOf st u).1
  let i := (streamOf st u).2
  let a := s.acq b
  if s.acqState b = aIdle ∨ natBit (s.acqMask b) i = false ∨ natBit a.begun i = false ∨ natBit a.ended i ∨
      natBit (s.acqBad b) i then s
  else
    let k := a.apersOf i
    let slot := (k : Int) + s.acqSkewOf b i
    let a1 := { a with apers := Store.put a.apers i (k + 1) }
    if slot < 0 then s.setAcq b a1
    else
      let s1 := (s.setAcq b a1).acqOverflow b slot.toNat
      let x := s1.acq b
      let beyond := s1.acqState b != aFill && x.rcd.any fun r => decide (r.slot + s1.acqPosts b r ≤ slot.toNat)
      if code = 0x800000 then s1
      else
        let level := if s1.acqSrc b = 4 ∧ i = s1.rf .acq b Off.acqLvcfg 0 6 then Store.put x.level slot.toNat code else x.level
        let mem := if beyond then x.mem else Store.put x.mem (64 * slot.toNat + i) (code + 2 ^ 24 * bit flag)
        s1.setAcq b { x with level := level, mem := mem }

/-- Every stream that takes part has ended. -/
def State.acqAllEnded (s : State) (b : Nat) : Bool := (s.acqGood b).all fun i => natBit (s.acq b).ended i

/-- A converter leaves STREAM mode, whether or not an aperture of its run has begun since the arm: its stream ends (R420). -/
def State.acqEnd (s0 : State) (st u : Nat) : State :=
  let b := (streamOf st u).1
  let i := (streamOf st u).2
  let s := s0.acqReach b
  let a := s.acq b
  if s.acqState b = aIdle ∨ natBit (s.acqMask b) i = false then s
  else
    let s1 := s.setAcq b { a with ended := a.ended ||| 2 ^ i }
    if s1.acqAllEnded b = false then s1
    else if s.acqState b = aFill then s1.acqIdle b
    else if s.acqState b = aPost then s1.acqClose b a.postSlots 3 false
    else s1

/-! ### Arming and stopping -/

/-- An arm is refused whatever state the engine is in (R422): EN = 0, or the domain mode. -/
def State.acqArmShut (s : State) (b : Nat) : Option Nat :=
  let m := s.modeOf (s.acqOwner b)
  if s.pageEn .acq b = false then some errDisabled
  else if ¬ (m = 7 ∨ m = 9) then some errMode
  else none

/-- The error of an arm of an IDLE engine, if any (R422, R416). -/
def State.acqArmError (s : State) (b : Nat) : Option Nat :=
  if s.epochValid = false then some errState
  else if s.acqMask b = 0 then some errValue
  else if s.acqShare b < s.rf .acq b Off.acqPre 0 17 then some 16
  else if (s.acqRingNo b).any (fun n => s.ringOwner n != s.acqOwner b) then some errOwner
  else if s.acqRingNo b = none ∧ s.rf .acq b Off.acqNrec 0 16 ≠ 1 then some errValue
  else none

/-- A record whose tail still waits at its ring is stored before the engine arms anew (assumption 21). -/
def State.acqStoreOld (s : State) (b : Nat) : State :=
  match (s.acq b).rcd with
  | some r => if r.last.isSome && !r.stored then s.acqStore b r else s
  | none => s

/-- An accepted arm (R422): the memory is empty, K, the streams and the ring are fixed, and a pulse to come on the trigger line
is awaited (R403). -/
def State.acqArmed (s : State) (b : Nat) : State :=
  let s1 := ((s.acqStoreOld b).startResult .acq b (Off.acqRes 0)).wr2 .acq b Off.acqBadstrLo Off.acqBadstrHi 0
  let s2 := ((s1.wr .acq b Off.acqMissed 0).wr .acq b Off.acqReject 0).wr .acq b Off.acqRingDrop 0
  let w := s.rd .acq b Off.acqTrig
  let coming := if s.acqSrc b = 1 then s.lineComing (fld w 8 3) (fld w 12 3) else []
  (s2.setAcq b
    { AcqSt.idle with armTick := s.now, ahead := coming, k := s.acqK b, mask := s.acqMask b, ring := s.acqRingNo b }).acqFill b

/-- ARM written 1 (R422). The arm of an engine that is not IDLE has no effect and no error beside DISABLED and MODE. -/
def State.acqArm (s : State) (b : Nat) : State :=
  match s.acqArmShut b with
  | some e => s.err .acq b e Off.acqCtrl
  | none =>
    if s.acqState b ≠ aIdle then s
    else
      match s.acqArmError b with
      | some e => s.err .acq b e Off.acqCtrl
      | none => s.acqArmed b

/-- STOP written 1 (R423). -/
def State.acqStop (s : State) (b : Nat) : State :=
  if s.acqState b = aIdle then s
  else if s.acqState b = aFill then s.acqIdle b
  else if s.acqState b = aPost then (s.wb .acq b Off.acqCtrl 1 true).acqClose b (s.acq b).postSlots 1 false
  else s.wb .acq b Off.acqCtrl 1 true

/-- The owner leaves M7 and M9, M11 is entered, or the owner changes (R423): a record in POST closes with END PREEMPT. -/
def State.acqPreempt (s0 : State) (b : Nat) : State :=
  let s := s0.acqReach b
  if s.acqState b = aPost then (s.acqClose b (s.acq b).postSlots 2 false).acqIdle b
  else if s.acqState b = aIdle then s
  else s.acqIdle b

/-! ### Register writes -/

/-- A write of ACQ_CTRL: STOP wins over FORCE (R425, R427). -/
def acqCtrlWrite (b : Nat) (v : Word) (s0 : State) : State :=
  let s := s0.acqReach b
  let s1 := if tbit v 1 then s.acqStop b else if tbit v 2 then s.acqEvent b s.now else s
  if tbit v 0 then s1.acqArm b else s1

/-- The value check of an ACQ register (R427): the error, if any. -/
def State.acqValueError (s : State) (b o : Nat) (v : Word) : Option Nat :=
  if o = Off.acqTrig ∧ 5 ≤ fld v 0 3 then some errValue
  else if o = Off.acqTrig ∧ fld v 0 3 = 1 ∧ s.ownerOf .seq (fld v 8 3) ≠ s.acqOwner b then some errOwner
  else if o = Off.acqQual ∧ fld v 0 2 = 3 then some errValue
  else if o = Off.acqPre ∧ 65536 < fld v 0 17 then some errValue
  else if o = Off.acqPost ∧ fld v 0 24 = 0 then some errValue
  else if o = Off.acqK ∧ fld v 0 16 = 0 then some errValue
  else if o = Off.acqLvcfg ∧ 8388607 < fld v 8 24 then some errValue
  else if Off.acqSkew 0 ≤ o ∧ fld v 0 8 = 0x80 then some errValue
  else none

/-- A write of any other ACQ register (R425). -/
def acqRegWrite (b o : Nat) (v : Word) (s : State) : State :=
  if o = Off.acqRdIdx then s.plainWrite .acq b o v
  else if s.acqState b ≠ aIdle then s.err .acq b errState o
  else
    match s.acqValueError b o v with
    | some e => s.err .acq b e o
    | none => s.plainWrite .acq b o v

/-- ACQ_RD as it reads for the stream and point of ACQ_RD_IDX, by the K, the streams and the ring of the record's arm (R416, R425,
R427). -/
def State.acqRead (s : State) (b : Nat) : List Word :=
  let i := s.rf .acq b Off.acqRdIdx 0 6
  let j := signed 24 (s.rf .acq b Off.acqRdIdx 8 24)
  let none_ : List Word := [0, 0, 0, 0]
  match (s.acq b).rcd with
  | none => none_
  | some r =>
    match r.last with
    | none => none_
    | some (n, _) =>
      let k := (s.acq b).k
      let sp := r.span k n j
      if (s.acq b).ring.isSome || !natBit (s.acq b).mask i || decide (j < r.firstPoint k) ||
          (decide (0 ≤ j) && decide (n ≤ j.toNat * k)) then none_
      else
        let x := (s.acq b).streamSlot i sp.1 sp.2
        [word (pack [(0, 24, nfld x 0 24), (30, 1, nfld x 94 1), (31, 1, 1)]), word (nfld x 24 24), word (nfld x 48 24),
          word (nfld x 72 16)]

/-! ### Commands -/

/-- ACQ_CTRL written with ARM = 1 (R422). -/
def execAcqArm (r : Requester) (b : Fin 8) (s : State) : Result :=
  .next (s.guarded r .acq b Off.acqCtrl 1 (acqCtrlWrite b 1))

/-- ACQ_CTRL written with STOP = 1 (R423). -/
def execAcqStop (r : Requester) (b : Fin 8) (s : State) : Result :=
  .next (s.guarded r .acq b Off.acqCtrl 2 (acqCtrlWrite b 2))

/-- ACQ_CTRL written with FORCE = 1 (R403). -/
def execAcqForce (r : Requester) (b : Fin 8) (s : State) : Result :=
  .next (s.guarded r .acq b Off.acqCtrl 4 (acqCtrlWrite b 4))

/-- The next slot ends, once every live stream has delivered what it places there (R396, R398). -/
def execAcqSlotEnd (b : Fin 8) (s : State) : Result :=
  let a := s.acq b
  let n := a.slots
  let good := s.acqGood b
  let past := good.any fun i => decide (n < a.apersOf i)
  let all := good.all fun i =>
    !natBit a.begun i || natBit a.ended i || decide ((n : Int) < (a.apersOf i : Int) + s.acqSkewOf b i)
  if s.acqState b = aIdle ∨ past = false ∨ all = false then .next s
  else
    let s0 := (s.atNow (a.t0.getD 0 + (n + 1) * a.len)).acqReach b
    let s1 := s0.setAcq b { s0.acq b with slots := n + 1 }
    let s2 := s1.acqLevelStep b n
    let x := s2.acq b
    if s2.acqState b = aFill then
      let pre := s2.rf .acq b Off.acqPre 0 17
      let held := min pre (n + 1 - x.fillSlot)
      let s3 := s2.setAcq b { x with mem := Store.keep (fun m => decide (64 * (n + 1 - held) ≤ m)) x.mem }
      .next (s3.wf .acq b Off.acqStat 16 16 (min held 0xFFFF))
    else if s2.acqState b = aPost then .next ((s2.acqPump b false).acqPostCheck b)
    else .next s2

/-- REARM ends, its tail posted or dropped, at least 2 µs after its entry (R420, R421). -/
def execRearmEnd (b : Fin 8) (s : State) : Result :=
  if s.acqState b ≠ aRearm then .next s
  else
    let s1 := s.acqPump b false
    match (s1.acq b).rcd with
    | none => .next s1
    | some r =>
      if r.stored = false then .next s1
      else
        let s2 := (s1.atNow (r.since + 6400)).acqReach b
        let a := s2.acq b
        let d := min (s2.now - r.endTick) (2 ^ 32 - 1)
        let s3 := s2.setAcq b { a with done := a.done + 1, dead := d }
        let nrec := s.rf .acq b Off.acqNrec 0 16
        if s.rb .acq b Off.acqCtrl 1 ∨ (nrec ≠ 0 ∧ nrec ≤ a.done + 1) ∨ s3.acqAllEnded b then .next (s3.acqIdle b)
        else .next (s3.acqFill b)

end Sys2Proof.Machine
end

