-- ==== Sys2Proof/Machine/CnvCore.lean ====
section
/-!
DEFINITION. Integrating Converters (R365 to R394), first part: converter states, power, triggers, and a conversion that
is cut. The commands stand in CnvOps.
-/

namespace Sys2Proof.Machine

/-- A converter at rest. -/
def CnvUnit.idle : CnvUnit :=
  ⟨false, 0, 0, 0, 0, 0, none, false, 0, false, 0, false, false, false, false, false, 0, 0x800000, false, none, false, []⟩

def State.cnv (s : State) (st u : Nat) : CnvUnit := Store.getD (fun _ => CnvUnit.idle) s.cnvs (4 * st + u)

def State.setCnv (s : State) (st u : Nat) (v : CnvUnit) : State :=
  { s with cnvs := Store.setD (fun _ => CnvUnit.idle) s.cnvs (4 * st + u) v }

/-- CNV_STATE codes (R389). -/
def kOff : Nat := 0
def kIdle : Nat := 1
def kArmed : Nat := 2
def kWake : Nat := 3
def kInteg : Nat := 4
def kResid : Nat := 5

def State.cnvState (s : State) (st u : Nat) : Nat := s.rf .cnv st Off.cnvState (3 * u) 3
def State.setCnvState (s : State) (st u v : Nat) : State := s.wf .cnv st Off.cnvState (3 * u) 3 v

/-- END codes (R386). -/
def kStop : Nat := 1
def kPreempt : Nat := 2
def kDisturbed : Nat := 3

/-- TRIG, REARM and STREAM of a converter (R374, R378, R379). -/
def State.cnvTrig (s : State) (st u : Nat) : Nat := s.rf .cnv st (Off.cnvCfg u) 0 3
def State.cnvRearm (s : State) (st u : Nat) : Bool := s.rb .cnv st (Off.cnvCfg u) 20
def State.cnvStream (s : State) (st u : Nat) : Bool := s.rb .cnv st (Off.cnvCfg u) 21

/-- A conversion ends before the end of its aperture, with an END code and no measurement: the converter goes to RESID (R386,
R389). A converter in STREAM mode leaves it: its stream ends (R420). -/
def State.cnvCut (s : State) (st u code : Nat) : State :=
  let c := s.cnv st u
  let s1 := s.setCnv st u
    { c with endCode := code, code := 0x800000, cutOpen := c.cutOpen || (s.cnvState st u == kInteg && !c.ovr) }
  let s2 := if s.cnvStream st u then s1.acqEnd st u else s1
  s2.setCnvState st u kResid

/-- A trigger of its source reaches a converter at tick `t` of State.now (R373, R377, R378, R390). The tick of the arm takes none of
the sources TL, EV and WCH. A conversion that starts reads VALID = 0 until its result is stored (R385). -/
def State.cnvTrigger (s : State) (st u t : Nat) : State :=
  let k := s.cnvState st u
  let c := s.cnv st u
  if k = kArmed ∧ (s.cnvTrig st u < 2 ∨ (t ≠ c.armTick ∧ c.notBefore ≤ t)) then
    ((s.setCnv st u { c with trig := t, begun := false }).startResult .cnv st (Off.cnvRes u 0)).setCnvState st u kWake
  else if k = kArmed ∧ t = c.armTick then s
  else if kArmed ≤ k ∧ 2 ≤ s.cnvTrig st u then (s.sat .cnv st (Off.cnvDropped u) 0 16 1).event .cnv st 3
  else s

/-- The pulses on its trigger line whose ticks have come reach the converter. -/
def State.cnvReach (s : State) (st u : Nat) : State :=
  let c := s.cnv st u
  if c.ahead.isEmpty then s
  else
    (c.ahead.filter fun t => decide (t ≤ s.now)).foldl (fun x t => x.cnvTrigger st u t)
      (s.setCnv st u { c with ahead := c.ahead.filter fun t => decide (s.now < t) })

/-- The same for the four converters of a stall. -/
def State.cnvReachAll (s : State) (st : Nat) : State := (upto 4).foldl (fun x u => x.cnvReach st u) s

/-- A preemption of R386: a conversion awaited or under way ends PREEMPT. One that is resolved already gives its result, and
the converter does not arm again (R389). -/
def State.cnvPreempt (s0 : State) (st u : Nat) : State :=
  let s := s0.cnvReach st u
  let k := s.cnvState st u
  let x := s.setCnv st u { s.cnv st u with live := false }
  if k = kArmed ∨ k = kWake ∨ k = kInteg then x.cnvCut st u kPreempt else if k = kResid then x else s

/-- The PMUs of a stall power up (`on`) or down with their owner's mode (R355, R386, R389). -/
def State.cnvPower (s : State) (st : Nat) (on : Bool) : State :=
  (upto 4).foldl (fun x u =>
    if on then (if x.cnvState st u = kOff then x.setCnvState st u kIdle else x)
    else
      let y := x.cnvPreempt st u
      if y.cnvState st u = kIdle then y.setCnvState st u kOff else y) s

/-- RANGE or MODE of PMU `u` changes: an aperture in progress runs to its end and gives no measurement (R386, R389). -/
def State.cnvDisturb (s : State) (st u : Nat) : State :=
  if s.cnvState st u = kInteg then s.setCnv st u { s.cnv st u with endCode := kDisturbed } else s

/-- Every converter of the part. -/
def State.cnvAll (s : State) (f : State → Nat → Nat → State) : State :=
  s.cnvs.foldl (fun x e => f x (e.1 / 4) (e.1 % 4)) s

/-- A pulse of sequencer `q` on the lines of mask `m` at tick `t` of State.now (R374). -/
def State.cnvLine (s : State) (q m t : Nat) : State :=
  s.cnvAll fun x st u =>
    let w := x.rd .cnv st (Off.cnvCfg u)
    if fld w 0 3 = 2 ∧ fld w 4 3 = q ∧ m.testBit (fld w 8 3) then
      let y := x.cnvReach st u
      if t ≤ x.now then y.cnvTrigger st u t
      else if kArmed ≤ y.cnvState st u then y.setCnv st u { y.cnv st u with ahead := (y.cnv st u).ahead ++ [t] }
      else y
    else x

/-- A rising edge at EV_IN_k (R374). -/
def State.cnvEdge (s : State) (k : Nat) : State :=
  s.cnvAll fun x st u =>
    let w := x.rd .cnv st (Off.cnvCfg u)
    if fld w 0 3 = 3 ∧ fld w 12 2 = k then x.cnvTrigger st u x.now else x

/-- A crossing of the upper (`side` false) or lower watch comparator of channel `ch` (R374). -/
def State.cnvWatch (s : State) (ch : Nat) (side : Bool) : State :=
  let st := ch / 16
  let u := ch % 16 / 4
  let w := s.rd .cnv st (Off.cnvCfg u)
  if fld w 0 3 = 4 ∧ fld w 16 2 = ch % 4 ∧ tbit w 18 = side then s.cnvTrigger st u s.now else s

end Sys2Proof.Machine
end

