-- ==== Sys2Proof/Machine/SeqCore.lean ====
section
/-!
DEFINITION. The state of sequencers and of channels that other blocks reach: states and codes, the channels that follow
a sequencer (R20), and pending edges.
-/

namespace Sys2Proof.Machine

/-! ### Sequencer state -/

/-- Per-site state before any start. -/
def Sites.idle : Sites := ⟨0, 0, 0, 0, 0, 0, 0, 0, 0, 0, [], [], [], [], []⟩

/-- Run settings before any start. -/
def RunCfg.idle : RunCfg := ⟨false, false, none, 0, [], 0, 0, 0, 0, 0, true, 0, [], [], []⟩

/-- An APG before any start. -/
def Apg.idle : Apg := ⟨0, 0, 0, false, false, false, 0, 0, 0, false⟩

/-- A sequencer after reset. -/
def SeqSt.idle : SeqSt :=
  ⟨RunCfg.idle, none, 0, 0, 0, false, false, false, false, none, [], [], [], Sites.idle, none, false, false, [],
    Apg.idle, Apg.idle, false, 0, none, [], [], []⟩

def State.seq (s : State) (q : Nat) : SeqSt := Store.getD (fun _ => SeqSt.idle) s.seqs q

def State.setSeq (s : State) (q : Nat) (v : SeqSt) : State :=
  { s with seqs := Store.setD (fun _ => SeqSt.idle) s.seqs q v }

/-- SEQ_STAT.STATE codes (R200). -/
def sIdle : Nat := 0
def sArmed : Nat := 1
def sRun : Nat := 2
def sHold : Nat := 3
def sDrain : Nat := 4

def State.seqState (s : State) (q : Nat) : Nat := s.rf .seq q Off.seqStat 0 3
def State.setSeqState (s : State) (q v : Nat) : State := s.wf .seq q Off.seqStat 0 3 v

/-- MSTATE codes (R216). -/
def mNomap : Nat := 0
def mMapping : Nat := 1
def mReady : Nat := 2
def mFilling : Nat := 3
def mStreaming : Nat := 4

def State.mstate (s : State) (q : Nat) : Nat := s.rf .seq q Off.seqStrmStat 0 3

/-- MSTATE, with PRIMED and the PRIME bit that follow it (R232); PRIMED is raised on entry to READY. -/
def State.setMstate (s : State) (q v : Nat) : State :=
  let s1 := (s.wf .seq q Off.seqStrmStat 0 3 v).wb .seq q Off.seqStrmStat 3 (v == mReady)
  let s2 := s1.wb .seq q Off.seqStrmCtrl 0 (v == mMapping)
  if v = mReady ∧ s.mstate q ≠ mReady then s2.event .seq q 5 else s2

/-- Channels that follow sequencer `q`: channel, column, site (R20). -/
def State.chansOf (s : State) (q : Nat) : List (Nat × Nat × Nat) :=
  s.follow.filterMap fun e =>
    if tbit e.2 31 ∧ fld e.2 8 3 = q then some (e.1, fld e.2 0 6, fld e.2 16 9) else none

/-! ### Channels -/

/-- A channel at rest (R147). -/
def ChanSt.idle : ChanSt := ⟨false, .hiz, none, [], [], [], none, []⟩

def State.chan (s : State) (ch : Nat) : ChanSt := Store.getD (fun _ => ChanSt.idle) s.chans ch

def State.setChan (s : State) (ch : Nat) (c : ChanSt) : State :=
  { s with chans := Store.setD (fun _ => ChanSt.idle) s.chans ch c }

/-- Cancel every pending edge: a cancelled edge no longer counts for the spacing of R142 (assumption 14). -/
def ChanSt.cancel (c : ChanSt) : ChanSt :=
  let pend := fun t => c.edges.any fun e => e.time == t
  { c with edges := [], keptDrive := c.keptDrive.filter fun t => !pend t, keptStrobe := c.keptStrobe.filter fun t => !pend t }

end Sys2Proof.Machine
end

