-- ==== Sys2Proof/Machine/FarCore.lean ====
section
/-!
DEFINITION. Farrier Calibration and the Tack Room (R450 to R476), first part: groups and instances, borrowed channels,
the end of a step and of a run. The commands stand in FarOps.
-/

namespace Sys2Proof.Machine

/-! ### Groups (R451) -/

/-- FAR_STAT.STATE codes (R472). -/
def fIdle : Nat := 0
def fCopy : Nat := 1
def fStepping : Nat := 2
def fSwWait : Nat := 3
def fStore : Nat := 4

def State.farState (s : State) : Nat := s.rf .far 0 Off.farStat 0 3
def State.setFarState (s : State) (v : Nat) : State := s.wf .far 0 Off.farStat 0 3 v

/-- FAR_RESULT_LO codes (R475). -/
def farSwitched : Nat := 0
def farKept : Nat := 1
def farAborted : Nat := 2
def farPreempted : Nat := 3

/-- Instance of a barn in group TBASE: 128 + barn; stalls are 0 to 127. -/
def barnInst (b : Nat) : Nat := 128 + b

/-- Barn of an instance of a group. -/
def instBarn (g inst : Nat) : Nat :=
  match g with
  | 0 => if inst < 128 then inst / 16 else inst - 128
  | 1 | 2 => inst / 256
  | 3 | 4 => inst / 16
  | _ => inst / 64

/-- Every instance of a group in the barns of mask `m`, rising. -/
def instances (g m : Nat) : List Nat :=
  let per := fun n => (onesOf m 8).flatMap fun b => (upto n).map fun i => n * b + i
  match g with
  | 0 => per 16 ++ (onesOf m 8).map barnInst
  | 1 | 2 => per 256
  | 3 | 4 => per 16
  | _ => per 64

/-- Steps that an instance takes; DRIVE takes its full curves or its point trims (R451). -/
def instSteps (full : Bool) (g inst : Nat) : Nat :=
  match g with
  | 0 => if inst < 128 then 64 else 8
  | 1 => if full then 48 else 3
  | 2 => 64
  | 3 => 1024
  | 4 => 64
  | 5 => 96
  | _ => 24

/-- Length of a step in ticks (R451): 16 µs or 20 µs. -/
def stepTicks (g : Nat) : Nat := if g = 3 ∨ g = 4 then 51200 else 64000

/-- Group `g` can run now (R451, R467; assumption 50): PMU and CNV only in M10; COMPARE and DESKEW in M10 only with needles
up. -/
def State.groupCan (s : State) (g : Nat) : Bool :=
  s.far.groups.testBit g && (if s.mode.dev = .m10 then (g != 2 && g != 3) || s.far.upM10 else decide (g < 5))

/-- Instances that the run measures. -/
def State.runInstances (s : State) (g : Nat) : List Nat := if natBit s.far.runs g then instances g s.far.barns else []

/-- Steps done of an instance. -/
def State.stepsDone (s : State) (g inst : Nat) : Nat := Store.getD (fun _ => 0) s.far.done (instKey g inst)

/-- Every step of an instance has ended. -/
def State.instDone (s : State) (g inst : Nat) : Bool := s.stepsDone g inst == instSteps s.far.full g inst

/-! ### Borrowing -/

/-- The farrier holds the channel for a step (R28, R455). -/
def State.borrowed (s : State) (ch : Nat) : Bool :=
  s.far.steps.any fun x => x.stall == ch / 16 && natBit x.mask (ch % 16)

/-- A step runs in the stall. -/
def State.stepIn (s : State) (st : Nat) : Bool := s.far.steps.any fun x => x.stall == st

/-- A step uses PMU `u` of the stall (R362). -/
def State.farUsesPmu (s : State) (st u : Nat) : Bool :=
  s.far.steps.any fun x => x.stall == st && x.group == 5 && x.inst % 4 == u

/-- The farrier holds a channel of the sequencer (R194). -/
def State.farrierHolds (s : State) (q : Nat) : Bool := (s.chansOf q).any fun c => s.borrowed c.1

/-- The farrier's step on a channel has ended: a deferred start takes its lead (R194). -/
def State.seqUndefer (s : State) (q : Nat) : State :=
  if s.seqState q = sArmed ∧ s.rb .seq q Off.seqStat 16 ∧ (s.seq q).startAt = none ∧ s.farrierHolds q = false then
    s.setSeq q { s.seq q with startAt := some (s.tick + 12800) }
  else s

/-- Pull to VPARK of each channel: connected while its three switches are confirmed open (R116, R115). -/
def State.pullUpdate (s : State) (st : Nat) : State :=
  let cur := fun o => s.rf .swm st o 0 16
  let stuck := (s.stall st).stuck
  s.wf .stl st Off.stlStat 16 16 (maskOf 16 fun c =>
    !(natBit (cur Off.swmCurDrv) c || natBit (cur Off.swmCurPmu) c || natBit (cur Off.swmCurCal) c ||
      natBit stuck (3 * c) || natBit stuck (3 * c + 1) || natBit stuck (3 * c + 2)))

/-- Replace the farrier's own state. -/
def State.setFar (s : State) (f : FarSt) : State := { s with far := f }

/-- The bits of `a` that are not in `m`. -/
def clearMask (a m : Nat) : Nat := maskOf 16 fun c => natBit a c && !natBit m c

/-- The calibration-bus switches of the channels of mask `m` open, each adding one cold cycle of wear (R456). -/
def State.busOpen (s : State) (st m : Nat) : State :=
  let s1 := (onesOf m 16).foldl (fun (y : State) c => y.wearCycle st (3 * c + 2) false) s
  (s1.wf .swm st Off.swmCurCal 0 16 (clearMask (s.rf .swm st Off.swmCurCal 0 16) m)).pullUpdate st

/-- The stall's units are ganged (R348). -/
def State.ganged (s : State) (st : Nat) : Bool := s.rb .pmu st Off.pmuGang 0

/-- The unit whose registers govern unit `u`: the leader of a gang (R348). -/
def State.leader (s : State) (st u : Nat) : Nat := if s.ganged st then 0 else u

/-- The units whose output the PMU_CTRL register of unit `u` governs: all four for the leader of a gang (R348). -/
def State.gangUnits (s : State) (st u : Nat) : List Nat := if s.ganged st && u == 0 then [0, 1, 2, 3] else [u]

/-- A PMU output, or that of a whole gang, that was enabled during a step on one of its units goes live when the step ends
(R362): STATE IDLE to FORCE. -/
def State.pmuRelease (s : State) (st u : Nat) : State :=
  let l := s.leader st u
  if s.rb .pmu st (Off.pmuCtrl l) 0 then
    (s.gangUnits st l).foldl (fun x w =>
      if x.rf .pmu st (Off.pmuStat w) 0 3 = 1 then x.wf .pmu st (Off.pmuStat w) 0 3 2 else x) s
  else s

/-- The calibration-bus switches of the channels of mask `m` are commanded open; PARK_COMPLETE confirms them (R115). -/
def State.busOpening (s : State) (st m : Nat) : State :=
  let x := s.stall st
  s.setStall st { x with opening := maskOf 48 fun n => natBit x.opening n || (n % 3 == 2 && natBit m (n / 3)) }

/-- The step leaves its channels as it found them (R457), and a deferred start goes on (R32). A step that runs to its end
(`whole`) has its bus switches confirmed open by then; those of one that is cut off begin to open. -/
def State.stepRelease (s : State) (x : FarStep) (whole : Bool) : State :=
  let s1 := s.setFar { s.far with steps := s.far.steps.filter fun y => y.stall != x.stall }
  let s2 := if x.bus = false then s1 else if whole then s1.busOpen x.stall x.mask else s1.busOpening x.stall x.mask
  let s3 := if x.group = 5 then s2.pmuRelease x.stall (x.inst % 4) else if x.group = 3 then s2.farTimEnd x.stall else s2
  (upto 8).foldl State.seqUndefer s3

/-! ### Results -/

/-- Status of a group (R465): 0 NOT_RUN, 1 PASS, 2 FAIL, 3 PARTIAL. -/
def State.groupStatus (s : State) (g : Nat) : Nat :=
  let l := s.runInstances g
  if s.rf .far 0 (Off.farFail g) 0 16 ≠ 0 then 2
  else if l.all fun i => s.stepsDone g i == 0 then 0
  else if l.all fun i => s.instDone g i then 1
  else 3

/-- The overall result (R465): 1 PASS, 2 FAIL, 3 INCOMPLETE. -/
def State.overall (s : State) : Nat :=
  let gs := (onesOf s.far.groups 7).map s.groupStatus
  if gs.all (· == 1) then 1 else if gs.contains 2 then 2 else 3

/-- The inactive bank takes contents and an epoch. -/
def State.setInactive (s : State) (l : List (Nat × Nat)) (epoch : Word) : State :=
  if s.bankB then (s.setFar { s.far with bankA := l }).wr .tak 0 Off.takEpochA epoch
  else (s.setFar { s.far with bankB := l }).wr .tak 0 Off.takEpochB epoch

/-- The contents of the inactive bank. -/
def State.inactiveBank (s : State) : List (Nat × Nat) := if s.bankB then s.far.bankA else s.far.bankB

/-- A device transition begins: its target, and whether MOD_CMD asked for it. -/
def State.setTrans (s : State) (t : Option (DevMode × Bool)) : State := { s with mode := { s.mode with trans := t } }

/-- FAR_RESULT_HI of the run (R475). -/
def State.farGroups (s : State) : Nat := (upto 7).foldl (fun m g => m + s.groupStatus g * 2 ^ (2 * g)) 0

/-- The run's result is stored and the farrier is IDLE (R461, R464, R472). Leaving M10 follows a run in M10 (row 8 of
R47). Whether a run that ended by ABORT counts as complete there is a DESIGN CHOICE: it does (assumption 60). -/
def State.farStore (s : State) (code : Nat) : State :=
  let s1 := s.wr .far 0 Off.farResultHi (word s.farGroups)
  let s2 := s1.storeResult .far 0 Off.farResultLo (code * 2 ^ 8 + s.overall * 2 ^ 18)
  let s3 := (s2.wb .far 0 Off.farCtrl 1 false).setFarState fIdle
  let s4 := (s3.setFar { s3.far with ending := none, steps := [] }).event .far 0 1
  if s4.mode.dev = .m10 ∧ s4.mode.trans = none then s4.setTrans (some (.m4, false)) else s4

/-- An ABORT or the leaving of M10 takes effect once no step is in progress (R472, R51). -/
def State.farSettle (s : State) : State :=
  match s.far.ending with
  | some c => if s.far.steps.isEmpty then s.farStore c else s
  | none => s

/-- End the run with a code as soon as the steps in progress have ended. -/
def State.farEnd (s : State) (code : Nat) : State :=
  if s.farState = fIdle ∨ s.farState = fStore then s
  else (s.setFar { s.far with ending := some (s.far.ending.getD code) }).farSettle

/-- Steps end at once with their measurement discarded (R459): those that `p` names. -/
def State.farAbort (s : State) (p : FarStep → Bool) : State :=
  (s.far.steps.filter p).foldl (fun x e => (x.stepRelease e false).sat .far 0 Off.farStepAbort 0 32 1) s |>.farSettle

/-- A rank-1 event or a park on the channels of mask `m` of a stall ends their steps (R459). -/
def State.farAbortChans (s : State) (st m : Nat) : State :=
  s.farAbort fun e => e.stall == st && (e.mask &&& m) != 0

/-- M11 entry: every step ends at once, and the run with it (R459, R473). -/
def State.farPreempt (s : State) : State := (s.farAbort fun _ => true).farEnd farPreempted

end Sys2Proof.Machine
end

