-- ==== Sys2Proof/Machine/PmuOps.lean ====
section
/-!
DEFINITION. Parametric Source-Measure Units (R330 to R364): modes, ranges, limits, the range change, gangs, the wave
source, clamping, power, and the commands of the PMU page.
-/

namespace Sys2Proof.Machine

/-! ### Unit state -/

/-- A unit after reset (R357): FV at 0 V, ±2 mA, no wave. -/
def PmuSt.idle : PmuSt := ⟨0xBB80, 0xBB80, 3, none, false, false, false, false, .off, 0, 0, none, false⟩

def State.pmu (s : State) (st u : Nat) : PmuSt := Store.getD (fun _ => PmuSt.idle) s.pmus (4 * st + u)

def State.setPmu (s : State) (st u : Nat) (v : PmuSt) : State :=
  { s with pmus := Store.setD (fun _ => PmuSt.idle) s.pmus (4 * st + u) v }

/-- PMU_STAT.STATE codes (R361). -/
def pmuOff : Nat := 0
def pmuIdle : Nat := 1
def pmuForce : Nat := 2
def pmuRanging : Nat := 3
def pmuClamped : Nat := 4
def pmuShut : Nat := 5

def State.pmuState (s : State) (st u : Nat) : Nat := s.rf .pmu st (Off.pmuStat u) 0 3

def State.setPmuState (s : State) (st u v : Nat) : State := s.wf .pmu st (Off.pmuStat u) 0 3 v

/-- Range in force: ±64 mA for every unit of a gang (R348). -/
def State.pmuRange (s : State) (st u : Nat) : Nat := if s.ganged st then 5 else (s.pmu st u).range

/-- MODE of a unit: true for FI. -/
def State.pmuFi (s : State) (st u : Nat) : Bool := s.rb .pmu st (Off.pmuCtrl (s.leader st u)) 1

/-- Zero code of a mode (R335). -/
def zeroCode (fi : Bool) : Nat := if fi then 0x20000 else 0xBB80

/-- Lowest and highest valid force code of a mode (R335). -/
def codeLo (fi : Bool) : Nat := if fi then 0xC00 else 0
def codeHi (fi : Bool) : Nat := if fi then 0x3F400 else 0x3E800

/-- Lowest cap of the barn's throttle table that applies, in percent; 110 without a cap (R342). -/
def State.barnCap (s : State) (b : Nat) : Nat := Store.getD (fun _ => 110) s.caps b

/-- The current limit without a cap, in percent of range: PCT, or 5 % of a clamped unit (R338, R359). -/
def State.pmuPct (s : State) (st u : Nat) : Nat :=
  if (s.pmu st u).cut then 5 else s.rf .pmu st (Off.pmuIlim (s.leader st u)) 0 7

/-- The effective current limit in percent of range (R338, R342, R359). -/
def State.pmuLimit (s : State) (st u : Nat) : Nat := min (s.pmuPct st u) (s.barnCap (st / 16))

/-- THROTTLED reads 1 while a cap lowers the unit's limit (R342). -/
def State.throttle (s : State) (st u : Nat) : State :=
  s.wb .pmu st (Off.pmuStat u) 6 (decide (s.barnCap (st / 16) < s.pmuPct st u))

/-- The output of unit `u` is held at high impedance while one of its PMU switches moves: in a batch that is not HOT (R108,
R358), or in an opening outside a batch (R710). -/
def State.pmuHeld (s : State) (st u : Nat) : Bool :=
  let x := s.stall st
  let moves := fun c =>
    (match x.batch with | some b => !b.waiting && !b.hot && natBit b.mvPmu c | none => false) ||
      natBit x.opening (3 * c + 1) || natBit x.stuck (3 * c + 1)
  s.rb .pmu st (Off.pmuCtrl (s.leader st u)) 0 && (upto 4).any fun i => moves (4 * u + i)

/-- The DAC code applied for the force code of unit `u`, the wave included: corrected by the force curve of the active tack-room
bank, or of the factory where no sealed image is loaded (R336, R357). It cannot be read. -/
def State.pmuDac (s : State) (st u : Nat) : Nat :=
  Config.forceCode (s.coefOf 5 (4 * st + u)) (4 * st + u) (s.pmuRange st u) (s.pmuFi st u) (s.pmu st u).applied

/-- Set a flag of PMU_FLAGS and raise FLAG (R364). -/
def State.pmuFlag (s : State) (st u f : Nat) : State := (s.wb .pmu st (Off.pmuFlags u) f true).event .pmu st 1

/-- The PMUs of a stall are powered (R355). -/
def State.pmuPowered (s : State) (st : Nat) : Bool :=
  let m := s.modeOf (s.ownerOf .stl st)
  m == 6 || m == 7 || m == 9 || m == 10


/-! ### Wave tables -/

/-- 2π × 2⁶⁰, rounded down. -/
def twoPiFixed : Nat := 7244019458077122842

/-- One more pair of Taylor terms of the sine: `t` is the last term, `acc` the sum, `n` counts from the term. -/
def sineTerms (x : Nat) : Nat → Nat → Nat → Nat → Nat
  | 0, _, _, acc => acc
  | fuel + 1, n, t, acc =>
    let t1 := t * x / 2 ^ 60 * x / 2 ^ 60 / (2 * n * (2 * n + 1))
    sineTerms x fuel (n + 1) t1 (if n % 2 = 1 then acc - t1 else acc + t1)

/-- round(131,071 × sin(2πr ÷ 4,096)) for r from 0 to 1,024, by the Taylor series in 60-bit fixed point. -/
def sineQuarter (r : Nat) : Nat :=
  let x := twoPiFixed * r / 4096
  (131071 * sineTerms x 11 1 x x + 2 ^ 59) / 2 ^ 60

/-- Entry `i` of the default sine table as an 18-bit two's-complement code (R353). -/
def sineEntry (i : Nat) : Nat :=
  let r := i % 1024
  match i / 1024 % 4 with
  | 0 => sineQuarter r
  | 1 => sineQuarter (1024 - r)
  | 2 => twos 18 (-(sineQuarter r : Int))
  | _ => twos 18 (-(sineQuarter (1024 - r) : Int))

/-- Default of the wave-table store. -/
def waveDefault (k : Nat) : Nat := sineEntry (k % 4096)

/-- Entry `i` of a unit's wave table (R352, R353). -/
def State.waveEntry (s : State) (st u i : Nat) : Nat := Store.getD waveDefault s.waves (4096 * (4 * st + u) + i)

/-- The applied code of a wave: PMU_FORCE + round(entry × AMP ÷ 131,072), halves away from zero (assumption 13), and
whether it had to be brought to the nearest valid code (R352). -/
def waveCode (force entry amp lo hi : Nat) : Nat × Bool :=
  let raw : Int := (force : Int) + roundDiv (signed 18 entry * amp) 131072
  if raw < lo then (lo, true) else if (hi : Int) < raw then (hi, true) else (raw.toNat, false)

/-- A wave plays: the entry that the accumulator selects is applied, of a wave that a new start has not replaced yet too. -/
def WavePhase.plays : WavePhase → Bool
  | .off => false
  | .starting prior => prior
  | .waiting prior => prior
  | .running => true
  | .stopped => true

/-- A unit whose state is to be `p` applies its force code: plain or, while a wave plays, with the table entry that the
accumulator selects and the AMP of the last update (R352, R364). -/
def State.applyWave (s : State) (st u : Nat) (p : PmuSt) : State :=
  if p.wave.plays then
    let c := waveCode p.force (s.waveEntry st u (p.acc / 2 ^ 20)) p.amp (codeLo (s.pmuFi st u)) (codeHi (s.pmuFi st u))
    let s1 := s.setPmu st u { p with applied := c.1 }
    if c.2 then s1.pmuFlag st u 5 else s1
  else s.setPmu st u { p with applied := p.force }

/-- Put a force code in force, or keep it until a range change ends (R347, R352, R362). -/
def State.applyForce (s : State) (st u code : Nat) : State :=
  let p := s.pmu st u
  if s.rb .pmu st (Off.pmuStat u) 3 then s.setPmu st u { p with held := some code }
  else s.applyWave st u { p with force := code }

/-- A load strobe loads every pending force code of the stall (R347). -/
def State.pmuStrobe (s : State) (st : Nat) : State :=
  (upto 4).foldl (fun x u =>
    if x.rb .pmu st (Off.pmuStat u) 9 then
      (x.wb .pmu st (Off.pmuStat u) 9 false).applyForce st u (x.rf .pmu st (Off.pmuForce u) 0 18)
    else x) s

/-- Clamp a unit (R359): the limit falls to 5 %, the wave stops, and the unit enters CLAMP, at the end of its range change if one
runs (R361). R359 names no state: a unit in IDLE is clamped too, one that is OFF has no power, and one in SHUT, at high
impedance already, keeps its state (DEDUCED, assumption 62). -/
def State.pmuClamp (s : State) (st u : Nat) : State :=
  let p := s.pmu st u
  let ps := s.pmuState st u
  let q := { p with cut := true, wave := if p.wave.plays then .stopped else .off, pulse := none }
  if ps = pmuOff then s
  else if ps = pmuRanging then (s.setPmu st u { q with clampNext := true }).throttle st u
  else if ps = pmuShut then (s.setPmu st u { q with cut := p.cut }).pmuFlag st u 2
  else (((s.setPmu st u q).throttle st u).setPmuState st u pmuClamped).pmuFlag st u 2

/-- The event parks channels of mask `m`: the outputs of the clamped units that serve them are at high impedance from step 2 of
the park on (R359). -/
def State.pmuParked (s : State) (st m : Nat) : State :=
  (upto 4).foldl (fun x u =>
    if m / 2 ^ (4 * u) % 16 ≠ 0 ∧ (x.pmu st u).cut then x.setPmu st u { x.pmu st u with hiz := true } else x) s

/-- Clamp every unit of a stall. -/
def State.pmuClampStall (s : State) (st : Nat) : State := (upto 4).foldl (fun x u => x.pmuClamp st u) s

/-- Take a unit's output to high impedance: OUT_EN is 0, a range change is over, the 5 % cut ends (R339, R360, R361). -/
def State.pmuOutOff (s : State) (st u next : Nat) : State :=
  let p := s.pmu st u
  let s0 := if s.ganged st ∨ p.range = s.rf .pmu st (Off.pmuCtrl u) 4 3 then s else s.cnvDisturb st u
  let s1 := s0.wb .pmu st (Off.pmuCtrl u) 0 false
  let p' := { p with held := none, cut := false, clampNext := false, hiz := false, fallback := false
                     force := p.held.getD p.force, range := s.rf .pmu st (Off.pmuCtrl u) 4 3 }
  let s2 := (if p.held.isSome then s1.applyWave st u p' else s1.setPmu st u p').throttle st u
  (s2.wb .pmu st (Off.pmuStat u) 3 false).setPmuState st u next

/-- The owner has entered M4 or M8 (`on` false) or M6, M7 or M9: the units of a stall and their converters power down or
up (R355, R360, R386). -/
def State.pmuPower (s : State) (st : Nat) (on : Bool) : State :=
  (upto 4).foldl (fun x u =>
    if on then (if x.pmuState st u = pmuOff then x.setPmuState st u pmuIdle else x)
    else x.pmuOutOff st u pmuOff) (s.cnvPower st on)

/-- A TRIG of sequencer `q` will pulse the lines of mask `m` on tick `k`: the waves that wait for it take note (R354). -/
def State.pmuTrigger (s : State) (q m k : Nat) : State :=
  s.pmus.foldl (fun x e =>
    let st := e.1 / 4
    let u := e.1 % 4
    let w := s.rd .pmu st (Off.pmuWave u)
    match e.2.wave, e.2.pulse with
    | .waiting _, none =>
      if fld w 24 3 = q ∧ m.testBit (fld w 28 3) then x.setPmu st u { x.pmu st u with pulse := some (s.nowTick k) } else x
    | _, _ => x) s

/-! ### Register writes -/

/-- Writes to the force registers of a ganged follower are refused (R348). -/
def State.follower (s : State) (st u : Nat) : Bool := s.ganged st && u != 0

/-- A write of PMU_CTRL[u] (R337, R343, R344, R348, R356, R358, R361, R362). A unit in SHUT or CLAMP, a follower of a gang too,
leaves it only when OUT_EN is written 0, and a range change of a clamped unit leaves it clamped (R359, R361). -/
def pmuCtrlWrite (r : Requester) (st u : Nat) (v : Word) (s : State) : State :=
  let o := Off.pmuCtrl u
  let old := s.rd .pmu st o
  let m := s.modeOf (s.ownerOf .stl st)
  let on := tbit v 0 && !tbit old 0
  let ps := s.pmuState st u
  let units := s.gangUnits st u
  let off := (tbit old 0 || units.any fun w => s.pmuState st w == pmuShut || s.pmuState st w == pmuClamped) && !tbit v 0
  let modeCh := tbit v 1 != tbit old 1
  let rangeCh := fld v 4 3 != fld old 4 3
  if s.follower st u then s.err .pmu st errState o
  else if 6 ≤ fld v 4 3 then s.err .pmu st errValue o
  else if modeCh && tbit old 0 then s.err .pmu st errState o
  else if rangeCh && s.rb .pmu st (Off.pmuStat u) 3 then s.err .pmu st errState o
  else if rangeCh && tbit old 1 && tbit old 0 then s.err .pmu st errState o
  else if on && !s.pageEn .pmu st then s.err .pmu st errDisabled o
  else if on && (!s.pmuPowered st || (m == 6 && (!s.inSvContact r || !tbit v 1))) then s.err .pmu st errMode o
  else
    let s0 := s.plainWrite .pmu st o v
    let s1 := if modeCh || rangeCh then units.foldl (fun x w => x.cnvDisturb st w) s0 else s0
    let z := zeroCode (tbit v 1)
    let s2 := if modeCh then
        ((s1.wf .pmu st (Off.pmuForce u) 0 18 z).wb .pmu st (Off.pmuStat u) 9 false).applyWave st u
          { s1.pmu st u with force := z, held := none }
      else s1
    if off then units.foldl (fun x w => x.pmuOutOff st w pmuIdle) s2
    else
      let s3 := if rangeCh then
          if ps = pmuForce then (s2.wb .pmu st (Off.pmuStat u) 3 true).setPmuState st u pmuRanging
          else if ps = pmuClamped then s2.wb .pmu st (Off.pmuStat u) 3 true
          else s2.setPmu st u { s2.pmu st u with range := fld v 4 3 }
        else s2
      if on ∧ (units.any fun w => s3.farUsesPmu st w) = false then
        units.foldl (fun x w =>
          if x.pmuState st w = pmuShut ∨ x.pmuState st w = pmuClamped then x else x.setPmuState st w pmuForce) s3
      else s3

/-- A write of PMU_FORCE[u] (R335, R347, R348). -/
def pmuForceWrite (st u : Nat) (v : Word) (s : State) : State :=
  let o := Off.pmuForce u
  let c := fld v 0 18
  if s.follower st u then s.err .pmu st errState o
  else if c < codeLo (s.pmuFi st u) ∨ codeHi (s.pmuFi st u) < c then s.err .pmu st errValue o
  else
    let s1 := s.plainWrite .pmu st o v
    if s.rb .pmu st (Off.pmuCtrl u) 10 then s1.wb .pmu st (Off.pmuStat u) 9 true
    else (s1.wb .pmu st (Off.pmuStat u) 9 false).applyForce st u c

/-- A write of PMU_ILIM[u] (R338, R339, R364). -/
def pmuIlimWrite (st u : Nat) (v : Word) (s : State) : State :=
  let o := Off.pmuIlim u
  if s.follower st u then s.err .pmu st errState o
  else if fld v 0 7 < 5 ∨ 110 < fld v 0 7 ∨ fld v 16 16 = 0 then s.err .pmu st errValue o
  else (s.gangUnits st u).foldl (fun x w => x.throttle st w) (s.plainWrite .pmu st o v)

/-- A write of PMU_VCLH[u] (`high`) or PMU_VCLL[u] (R340, R341, R95). -/
def pmuClampWrite (st u : Nat) (high : Bool) (v : Word) (s : State) : State :=
  let o := if high then Off.pmuVclh u else Off.pmuVcll u
  let h := if high then fld v 0 16 else s.rf .pmu st (Off.pmuVclh u) 0 16
  let l := if high then s.rf .pmu st (Off.pmuVcll u) 0 16 else fld v 0 16
  if s.follower st u then s.err .pmu st errState o
  else if 0xFA00 < fld v 0 16 then s.err .pmu st errValue o
  else if h < l + 4000 then s.err .pmu st 16 o
  else s.plainWrite .pmu st o v

/-- A write of PMU_WAVE[u] (R354, R364): a sequencer of another owner is refused. EN written 1 starts a wave that is not under
way, at the next update or at its trigger pulse, one that is placed already too; it is refused while the page is disabled (R60). -/
def pmuWaveWrite (st u : Nat) (v : Word) (s : State) : State :=
  let o := Off.pmuWave u
  if s.follower st u then s.err .pmu st errState o
  else if s.ownerOf .seq (fld v 24 3) ≠ s.ownerOf .stl st then s.err .pmu st errOwner o
  else
    let p := s.pmu st u
    let start := tbit v 20 && (!s.rb .pmu st o 20 || p.wave == .off || p.wave == .stopped)
    if start && !s.pageEn .pmu st then s.err .pmu st errDisabled o
    else
      let s1 := s.plainWrite .pmu st o v
      if start = false then s1
      else if tbit v 21 then
        s1.setPmu st u { p with wave := .waiting p.wave.plays, pulse := (s.lineComing (fld v 24 3) (fld v 28 3)).head? }
      else s1.setPmu st u { p with wave := .starting p.wave.plays, pulse := none }

/-- A write of PMU_FREQ[u]: above 100 kHz is refused (R351). -/
def pmuFreqWrite (st u : Nat) (v : Word) (s : State) : State :=
  let o := Off.pmuFreq u
  if s.follower st u then s.err .pmu st errState o
  else if 429496730 < v.toNat then s.err .pmu st errValue o
  else s.plainWrite .pmu st o v

/-- A write of PMU_PHASE[u]. -/
def pmuPhaseWrite (st u : Nat) (v : Word) (s : State) : State :=
  if s.follower st u then s.err .pmu st errState (Off.pmuPhase u) else s.plainWrite .pmu st (Off.pmuPhase u) v

/-- A write of PMU_GANG: EN changes only while every OUT_EN is 0 (R348). A follower's conversion ends PREEMPT, the leader's
range changes (R386, R390). -/
def pmuGangWrite (st : Nat) (v : Word) (s : State) : State :=
  if (upto 4).any fun u => s.rb .pmu st (Off.pmuCtrl u) 0 then s.err .pmu st errState Off.pmuGang
  else
    let s1 := (upto 4).foldl (fun x u => x.throttle st u) (s.plainWrite .pmu st Off.pmuGang v)
    if tbit v 0 = s.ganged st then s1
    else if tbit v 0 then ((([1, 2, 3] : List Nat)).foldl (fun x u => x.cnvPreempt st u) s1).cnvDisturb st 0
    else (upto 4).foldl (fun x u => x.cnvDisturb st u) s1

/-! ### Wave-table access -/

/-- ENTRY advances after an access to PMU_WT_DATA with AUTO = 1 (R364). -/
def State.wtAdvance (s : State) (st : Nat) : State :=
  if s.rb .pmu st Off.pmuWtIdx 20 then s.inc .pmu st Off.pmuWtIdx 0 12 1 else s

/-- A write of PMU_WT_DATA (R353, R364). -/
def wtDataWrite (st : Nat) (v : Word) (s : State) : State :=
  let u := s.rf .pmu st Off.pmuWtIdx 16 2
  let i := s.rf .pmu st Off.pmuWtIdx 0 12
  if s.rb .pmu st (Off.pmuWave u) 20 then s.err .pmu st errState Off.pmuWtData
  else ({ s with waves := Store.setD waveDefault s.waves (4096 * (4 * st + u) + i) (fld v 0 18) }).wtAdvance st

/-- A write of PMU_WT_IDX; DEFAULT = 1 starts the reload of UNIT's default table, refused while its wave is enabled
(R353). DEFAULT reads 1 until done, and written 1 until then has no effect (R82). -/
def wtIdxWrite (st : Nat) (v : Word) (s : State) : State :=
  let u := fld v 16 2
  let s1 := s.plainWrite .pmu st Off.pmuWtIdx v
  if tbit v 24 = false ∨ s.rb .pmu st Off.pmuWtIdx 24 then s1
  else if s.pageEn .pmu st = false then s.err .pmu st errDisabled Off.pmuWtIdx
  else if s.rb .pmu st (Off.pmuWave u) 20 then s.err .pmu st errState Off.pmuWtIdx
  else (s1.wb .pmu st Off.pmuWtIdx 24 true).setPmu st u { s1.pmu st u with reload := true }

/-- One update of one unit's wave source (R351, R352, R354). That of a follower does not apply (R348), and one that a clamp has
stopped stands until EN is written again (R359). A wave that waits begins at the first update at or after its pulse. -/
def State.waveStep (s : State) (st u : Nat) : State :=
  let p := s.pmu st u
  let amp := s.rf .pmu st (Off.pmuWave u) 0 17
  let play := fun (acc : Nat) => s.applyWave st u { p with wave := .running, acc := acc, amp := amp, pulse := none }
  let begin_ := s.rf .pmu st (Off.pmuPhase u) 0 12 * 2 ^ 20
  if s.follower st u ∨ p.wave = .off then s
  else if s.rb .pmu st (Off.pmuWave u) 20 = false then s.applyWave st u { p with wave := .off, pulse := none }
  else
    match p.wave, p.pulse with
    | .starting _, _ => play begin_
    | .waiting _, some k => if k ≤ s.now then play begin_ else s.applyWave st u { p with amp := amp }
    | .running, _ => play ((p.acc + s.rf .pmu st (Off.pmuFreq u) 0 32) % 2 ^ 32)
    | _, _ => s.applyWave st u { p with amp := amp }

/-- The wave source of a unit stops with its block, and the plain force code is applied (R60). -/
def State.waveOff (s : State) (st u : Nat) : State := s.applyWave st u { s.pmu st u with wave := .off, pulse := none }

/-! ### Commands -/

/-- PMU_CTRL[u] written with OUT_EN = 1 and its other fields unchanged (R356, R358). -/
def execPmuOutputEnable (r : Requester) (st : Fin 128) (u : Fin 4) (s : State) : Result :=
  let v := putBit (s.rd .pmu st (Off.pmuCtrl u)) 0 true
  .next (s.guarded r .pmu st (Off.pmuCtrl u) v (pmuCtrlWrite r st u v))

/-- PMU_CTRL[u] written with OUT_EN = 0 and its other fields unchanged (R361). -/
def execPmuOutputDisable (r : Requester) (st : Fin 128) (u : Fin 4) (s : State) : Result :=
  let v := putBit (s.rd .pmu st (Off.pmuCtrl u)) 0 false
  .next (s.guarded r .pmu st (Off.pmuCtrl u) v (pmuCtrlWrite r st u v))

/-- PMU_CTRL[u] written with MODE `fi` and its other fields unchanged (R337). -/
def execPmuModeWrite (r : Requester) (st : Fin 128) (u : Fin 4) (fi : Bool) (s : State) : Result :=
  let v := putBit (s.rd .pmu st (Off.pmuCtrl u)) 1 fi
  .next (s.guarded r .pmu st (Off.pmuCtrl u) v (pmuCtrlWrite r st u v))

/-- PMU_CTRL[u] written with the given RANGE and its other fields unchanged (R343, R344). -/
def execPmuRangeWrite (r : Requester) (st : Fin 128) (u : Fin 4) (range : Fin 8) (s : State) : Result :=
  let v := putFld (s.rd .pmu st (Off.pmuCtrl u)) 4 3 range
  .next (s.guarded r .pmu st (Off.pmuCtrl u) v (pmuCtrlWrite r st u v))

/-- A range change completes (R343, R361, R362). -/
def execPmuRangeDone (st : Fin 128) (u : Fin 4) (s : State) : Result :=
  if s.rb .pmu st (Off.pmuStat u) 3 then
    let p := s.pmu st u
    let q := { p with range := s.rf .pmu st (Off.pmuCtrl u) 4 3, held := none, clampNext := false, force := p.held.getD p.force }
    let s1 := if p.held.isSome then s.applyWave st u q else s.setPmu st u q
    let s2 := s1.wb .pmu st (Off.pmuStat u) 3 false
    let s3 := if p.clampNext then (s2.setPmuState st u pmuClamped).pmuFlag st u 2
      else if s.pmuState st u = pmuRanging then s2.setPmuState st u pmuForce else s2
    .next ((if p.range = q.range then s3 else s3.cnvDisturb st u).event .pmu st 2)
  else .next s

def execPmuForceWrite (r : Requester) (st : Fin 128) (u : Fin 4) (code : BitVec 18) (s : State) : Result :=
  let v := word code.toNat
  .next (s.guarded r .pmu st (Off.pmuForce u) v (pmuForceWrite st u v))

/-- PMU_VCLH[u] (`high`) or PMU_VCLL[u] written (R341). -/
def execPmuClampWrite (r : Requester) (st : Fin 128) (u : Fin 4) (high : Bool) (code : BitVec 16) (s : State) : Result :=
  let v := word code.toNat
  .next (s.guarded r .pmu st (if high then Off.pmuVclh u else Off.pmuVcll u) v (pmuClampWrite st u high v))

/-- The output of a unit is live, at its limit of 5 % in CLAMP (R359, R361), no range change runs (R345), and no switch batch
holds it (R358). -/
def State.pmuLive (s : State) (st u : Nat) : Bool :=
  (s.pmuState st u == pmuForce || (s.pmuState st u == pmuClamped && !(s.pmu st u).hiz)) &&
    !s.rb .pmu st (Off.pmuStat u) 3 && !s.pmuHeld st u

/-- The limit has held a live FV output for 1 µs, outside a range change (R338, R345). -/
def execPmuIlim (st : Fin 128) (u : Fin 4) (s : State) : Result :=
  if s.pmuLive st u ∧ s.pmuFi st u = false then
    .next ((s.sat .pmu st Off.pmuIlimCnt 0 16 1).pmuFlag st u 0)
  else .next s

/-- The limit has held for TIME µs with ACTION = 1 (R339). Of a gang every unit that forces is shut; OUT_EN of the leader is
cleared in each case. -/
def execPmuShut (st : Fin 128) (u : Fin 4) (s : State) : Result :=
  if s.pmuState st u = pmuForce ∧ s.pmuLive st u ∧ s.pmuFi st u = false ∧ s.rb .pmu st (Off.pmuIlim (s.leader st u)) 8 then
    let units := if s.ganged st then [0, 1, 2, 3] else [u.val]
    let s1 := units.foldl (fun x w => if x.pmuState st w = pmuForce then x.pmuOutOff st w pmuShut else x) s
    .next (((s1.wb .pmu st (Off.pmuCtrl (s.leader st u)) 0 false).pmuFlag st u 3).event .pmu st 3)
  else .next s

/-- A voltage clamp has held a live FI output for 1 µs (R340). -/
def execPmuVclamp (st : Fin 128) (u : Fin 4) (s : State) : Result :=
  if s.pmuLive st u ∧ s.pmuFi st u then .next (s.pmuFlag st u 1) else .next s

/-- Remote sense is open or far from the force node for 10 µs (R331). -/
def execSenseOpen (st : Fin 128) (u : Fin 4) (s : State) : Result :=
  if s.rb .pmu st (Off.pmuCtrl (s.leader st u)) 8 ∧ s.rb .pmu st (Off.pmuCtrl u) 0 then
    .next ((s.setPmu st u { s.pmu st u with fallback := true }).pmuFlag st u 4)
  else .next s

def execPmuGangWrite (r : Requester) (st : Fin 128) (en : Bool) (s : State) : Result :=
  let v := word (bit en)
  .next (s.guarded r .pmu st Off.pmuGang v (pmuGangWrite st v))

/-- The 1 MHz update: every wave source of the part steps on the same tick (R351). -/
def execWaveUpdate (s : State) : Result :=
  .next (s.pmus.foldl (fun x e => x.waveStep (e.1 / 4) (e.1 % 4)) s)

def execWaveTableWrite (r : Requester) (st : Fin 128) (v : Word) (s : State) : Result :=
  .next (s.guarded r .pmu st Off.pmuWtData v (wtDataWrite st v))

/-- PMU_WT_IDX written with DEFAULT = 1 and the given UNIT (R353). -/
def execWaveTableDefault (r : Requester) (st : Fin 128) (u : Fin 4) (s : State) : Result :=
  let v := putBit (putFld (s.rd .pmu st Off.pmuWtIdx) 16 2 u) 24 true
  .next (s.guarded r .pmu st Off.pmuWtIdx v (wtIdxWrite st v))

/-- The reload of a default table is done: DEFAULT reads 0 (R353, R364). -/
def execWaveTableDefaultDone (st : Fin 128) (u : Fin 4) (s : State) : Result :=
  if (s.pmu st u).reload then
    let s1 := { s with waves := Store.keep (fun k => k / 4096 != 4 * st.val + u.val) s.waves }
    .next ((s1.setPmu st u { s1.pmu st u with reload := false }).wb .pmu st Off.pmuWtIdx 24 false)
  else .next s

end Sys2Proof.Machine
end

