-- ==== Sys2Proof/Machine/CnvOps.lean ====
section
/-!
DEFINITION. Integrating Converters (R365 to R394), second part: arming, apertures, results, the reference buffer, the
mains line, and the commands of the CNV and BRN pages.
-/

namespace Sys2Proof.Machine

/-! ### Arming -/

/-- An arm is refused whatever state the converter is in (R376): EN = 0, or the domain mode. -/
def State.cnvArmShut (s : State) (r : Requester) (st : Nat) : Option Nat :=
  let m := s.modeOf (s.ownerOf .stl st)
  if s.pageEn .cnv st = false then some errDisabled
  else if ¬ (m = 7 ∨ m = 9 ∨ (m = 6 ∧ s.inSvContact r)) then some errMode
  else none

/-- The error of an arm of an IDLE converter, if any (R376, R378, R379). -/
def State.cnvArmError (s : State) (st u : Nat) : Option Nat :=
  let t := s.cnvTrig st u
  if s.epochValid = false then some errState
  else if s.ganged st ∧ u ≠ 0 then some errState
  else if t = 1 ∧ s.rd2 .cnv st Off.cnvStartTickLo Off.cnvStartTickHi < s.tick + 3200 then some 16
  else if s.cnvStream st u ∧ s.acqOwner (st / 16) ≠ s.ownerOf .stl st then some errOwner
  else if s.cnvRearm st u ∧ t < 2 then some errValue
  else if s.cnvStream st u ∧ s.rb .cnv st (Off.cnvAper u) 20 then some errValue
  else none

/-- Pulses to come on the trigger line that a converter listens to (R374). -/
def State.cnvComing (s : State) (st u : Nat) : List Nat :=
  let w := s.rd .cnv st (Off.cnvCfg u)
  if fld w 0 3 = 2 then s.lineComing (fld w 4 3) (fld w 8 3) else []

/-- An accepted arm (R376). With TRIG SW the arm is the trigger (R374). -/
def State.cnvArmed (s : State) (st u : Nat) : State :=
  let c := s.cnv st u
  let ring := if s.rb .cnv st Off.cnvRing 31 then some (s.rf .cnv st Off.cnvRing 0 15) else none
  let s1 := s.setCnv st u
    { CnvUnit.idle with
      live := true, armTick := s.now, ring := ring, nbrDue := c.nbrDue, nbrEnd := c.nbrEnd, cutOpen := c.cutOpen
      ahead := s.cnvComing st u }
  let s2 := (s1.startResult .cnv st (Off.cnvRes u 0)).setCnvState st u kArmed
  if s.cnvTrig st u = 0 then s2.cnvTrigger st u s.now else s2

/-- A bit of CNV_ARM arms converter `u`, or is refused (R376). The arm of a converter that is not IDLE has no effect and no
error beside DISABLED and MODE. -/
def cnvArmUnit (r : Requester) (st u : Nat) (s : State) : State :=
  match s.cnvArmShut r st with
  | some e => s.err .cnv st e Off.cnvArm
  | none =>
    if s.cnvState st u ≠ kIdle then s
    else
      match s.cnvArmError st u with
      | some e => s.err .cnv st e Off.cnvArm
      | none => s.cnvArmed st u

/-! ### Register writes -/

/-- A write of CNV_ARM: its bits in ascending order. -/
def cnvArmWrite (r : Requester) (st : Nat) (v : Word) (s : State) : State :=
  (onesOf (fld v 0 4) 4).foldl (fun x u => cnvArmUnit r st u x) (s.cnvReachAll st)

/-- A bit of CNV_STOP (R386, R389, R390). A converter in STREAM mode leaves it, and its stream ends (R420). -/
def cnvStopUnit (st u : Nat) (s : State) : State :=
  let k := s.cnvState st u
  if k = kArmed then
    let s1 := (s.setCnv st u { s.cnv st u with live := false, ahead := [] }).setCnvState st u kIdle
    if s.cnvStream st u then s1.acqEnd st u else s1
  else if k = kWake ∨ k = kInteg then s.cnvCut st u kStop
  else s

/-- A write of CNV_STOP. -/
def cnvStopWrite (st : Nat) (v : Word) (s : State) : State :=
  (onesOf (fld v 0 4) 4).foldl (fun x u => cnvStopUnit st u x) (s.cnvReachAll st)

/-- A write of CNV_CFG[u] (R374, R390, R394). SQ is checked where TRIG uses it (assumption 56). -/
def cnvCfgWrite (st u : Nat) (v : Word) (s : State) : State :=
  let o := Off.cnvCfg u
  if s.cnvState st u ≠ kIdle then s.err .cnv st errState o
  else if 5 ≤ fld v 0 3 then s.err .cnv st errValue o
  else if fld v 0 3 = 2 ∧ s.ownerOf .seq (fld v 4 3) ≠ s.ownerOf .stl st then s.err .cnv st errOwner o
  else s.plainWrite .cnv st o v

/-- A write of CNV_APER[u] (R369, R390). -/
def cnvAperWrite (st u : Nat) (v : Word) (s : State) : State :=
  let o := Off.cnvAper u
  let n := fld v 0 18
  if s.cnvState st u ≠ kIdle then s.err .cnv st errState o
  else if n = 0 ∨ (if tbit v 20 then 1000 else 200000) < n then s.err .cnv st errValue o
  else s.plainWrite .cnv st o v

/-- A write of CNV_RING: a ring of the stall's owner (R394). -/
def cnvRingWrite (st : Nat) (v : Word) (s : State) : State :=
  if s.ringOwner (fld v 0 15) = s.ownerOf .stl st then s.plainWrite .cnv st Off.cnvRing v else s.err .cnv st errOwner Off.cnvRing

/-- A word of a wide RW value of a page, below its highest, is staged for the requester (R81). -/
def State.stageWrite (s : State) (r : Requester) (k : PageKind) (i o : Nat) (v : Word) : State := s.stageAt r (k.addr i o) v

/-- The staged word, or the word in force (R81). -/
def State.staged (s : State) (r : Requester) (k : PageKind) (i o : Nat) : Word := s.stagedAt r (k.addr i o)

/-- After a commit the staging of the register holds the committed value (R81). -/
def State.unstage (s : State) (k : PageKind) (i o : Nat) : State := s.unstageAt (k.addr i o)

/-- A write of CNV_START_TICK_LO or, `hi`, of CNV_START_TICK_HI, which commits both (R81, R390). -/
def cnvStartTickWrite (r : Requester) (st : Nat) (hi : Bool) (v : Word) (s : State) : State :=
  let o := if hi then Off.cnvStartTickHi else Off.cnvStartTickLo
  if (upto 4).any fun u => s.cnvState st u == kArmed && s.cnvTrig st u == 1 then s.err .cnv st errState o
  else if hi then
    let lo := s.staged r .cnv st Off.cnvStartTickLo
    ((s.plainWrite .cnv st Off.cnvStartTickLo lo).plainWrite .cnv st o v).unstage .cnv st Off.cnvStartTickLo
  else s.stageWrite r .cnv st o v

/-! ### The mains line (R370, R371) -/

/-- Nominal period (R371). -/
def State.linePer0 (s : State) : Nat := if s.rb .brn 0 Off.brnLineCfg 4 then 53333333 else 64000000

/-- PER in use. -/
def State.linePer (s : State) : Nat :=
  match s.rf .brn 0 Off.brnLineCfg 0 2 with
  | 1 => 64000000
  | 2 => 53333333
  | _ => s.line.locked.getD s.linePer0

/-- BRN_LINE_PER of every barn follows PER (R392). -/
def State.linePerUpdate (s : State) : State :=
  let p := s.linePer
  (upto 8).foldl (fun x b => x.wr .brn b Off.brnLinePer (word p)) s

/-- Store LOCKED, LOST and NVALID in every barn; LINE_LOST is raised where LOST becomes set. -/
def State.lineStat (s : State) (locked lost : Bool) (n : Nat) : State :=
  (upto 8).foldl (fun x b =>
    let was := x.rb .brn b Off.brnLineStat 1
    let y := x.wr .brn b Off.brnLineStat (word (pack [(0, 1, bit locked), (1, 1, bit lost), (8, 5, n)]))
    if lost && !was then y.event .brn b 2 else y) s

/-- The line measurement loses its lock: PER keeps the last locked value (R371). -/
def State.lineLose (s : State) : State :=
  let s1 := { s with line := { s.line with periods := [] } }
  let main := s.rf .brn 0 Off.brnLineCfg 0 2 == 0
  let old := s.rd .brn 0 Off.brnLineStat
  (if main then s1.lineStat false true 0 else s1.lineStat (tbit old 0) (tbit old 1) 0).linePerUpdate

/-- LOCKED and PER under SRC MAINS_REF (R370, R371): with the last 16 periods valid PER is their mean; a lock without them is
lost. Under another SRC both stay. -/
def State.lineJudge (s : State) : State :=
  let l := s.line.periods
  let n := l.length
  let old := s.rd .brn 0 Off.brnLineStat
  if s.rf .brn 0 Off.brnLineCfg 0 2 ≠ 0 then s.lineStat (tbit old 0) (tbit old 1) n
  else if n = 16 then
    let mean := (l.foldl (fun a b => a + b) 0 + 8) / 16
    ({ s with line := { s.line with locked := some mean } }.lineStat true false n).linePerUpdate
  else (s.lineStat false (tbit old 1 || tbit old 0) n).linePerUpdate

/-- A write of BRN_LINE_CFG of barn `b`: only barn 0 takes it, SRC 0b11 is refused (R391, R392). -/
def lineCfgWrite (b : Nat) (v : Word) (s : State) : State :=
  if b ≠ 0 then s
  else if fld v 0 2 = 3 then s.err .brn 0 errValue Off.brnLineCfg
  else (s.plainWrite .brn 0 Off.brnLineCfg v).lineJudge.linePerUpdate

/-! ### The reference buffer (R380, R381) -/

/-- The reference buffer of barn `b` goes off: an aperture in progress carries REF_NRDY (R381, R390). -/
def State.refOff (s : State) (b : Nat) : State :=
  let s1 := (s.wb .brn b Off.brnRefCtrl 0 false).wr .brn b Off.brnRefStat 0
  s1.cnvAll fun x st u =>
    if st / 16 = b ∧ x.cnvState st u = kInteg then x.setCnv st u { x.cnv st u with nrdy := true } else x

/-- A write of BRN_REF_CTRL (R380). A buffer that stays on keeps READY. -/
def refCtrlWrite (b : Nat) (v : Word) (s : State) : State :=
  if tbit v 0 = false then s.refOff b
  else if s.pageEn .brn b = false then s.err .brn b errDisabled Off.brnRefCtrl
  else (s.wb .brn b Off.brnRefCtrl 0 true).wb .brn b Off.brnRefStat 0 true

/-! ### Apertures and results -/

/-- Range code of a result: 6 for the leader of a gang (R366, R394). -/
def State.cnvRange (s : State) (st u : Nat) : Nat := if s.ganged st then 6 else s.pmuRange st u

/-- Aperture length in ticks (R369). -/
def State.cnvLen (s : State) (st u : Nat) : Nat :=
  let n := s.rf .cnv st (Off.cnvAper u) 0 18
  if s.rb .cnv st (Off.cnvAper u) 20 then (n * s.linePer + 50) / 100 else n * 3200

/-- An aperture starts at tick `t` of State.now (R365, R371, R372, R381). -/
def State.cnvBegin (s : State) (st u t : Nat) : State :=
  let c := s.cnv st u
  let plc := s.rb .cnv st (Off.cnvAper u) 20
  let main := plc && s.rf .brn 0 Off.brnLineCfg 0 2 == 0
  let len := s.cnvLen st u
  let meas := s.rb .pmu st (Off.pmuCtrl (s.leader st u)) 9
  let c1 := { c with
    start := t, startTick := s.tickOf t, begun := true, len := len, meas := meas, range := s.cnvRange st u, endCode := 0, code := 0x800000
    est := main && s.line.locked.isNone, hold := main && s.line.locked.isSome && !s.rb .brn 0 Off.brnLineStat 0
    nrdy := !s.rb .brn (st / 16) Off.brnRefStat 1, ovr := false, nbr := false }
  let s1 := (s.setCnv st u c1).setCnvState st u kInteg
  if s.cnvStream st u then s1.acqBegin st u t len else s1

/-- The converters of the stall in mask `m` have saturated in their apertures, that of a cut one among them: each marks itself
once, and each of the other three carries NBR in its first conversion whose aperture ends later (R382, R383). Where a
converter has been cut and integrates anew, the command does not say in which of the two apertures it saturated: that the
present one is marked is a free value. -/
def State.cnvSaturate (s : State) (st m : Nat) : State :=
  (onesOf m 4).foldl (fun x w =>
    let c := x.cnv st w
    let on := decide (x.cnvState st w = kInteg) && !c.ovr
    if on || c.cutOpen then
      let both := on && c.cutOpen
      let y := if both then x.useFree else x
      let ovr := c.ovr || (on && (!both || Config.freeBool x.free))
      let z := y.setCnv st w { c with ovr := ovr, cutOpen := both && ovr }
      ((upto 4).filter fun v => v != w).foldl (fun z v => z.setCnv st v { z.cnv st v with nbrDue := true }) z
    else x) s

/-- Code of a completed measurement: never "invalid" (R367). -/
def clampCode (code : Nat) : Nat := if code = 0x800000 then 0x800001 else code

/-! ### Commands -/

/-- Bit `u` of CNV_ARM written 1 (R376). -/
def execCnvArm (r : Requester) (st : Fin 128) (u : Fin 4) (s : State) : Result :=
  let v := word (2 ^ u.val)
  .next (s.guarded r .cnv st Off.cnvArm v (cnvArmWrite r st v))

/-- Bit `u` of CNV_STOP written 1 (R386). -/
def execCnvStop (r : Requester) (st : Fin 128) (u : Fin 4) (s : State) : Result :=
  let v := word (2 ^ u.val)
  .next (s.guarded r .cnv st Off.cnvStop v (cnvStopWrite st v))

/-- CNV_START_TICK of the stall is reached: its armed TICK converters wake (R374). -/
def execCnvTickTrigger (st : Fin 128) (s : State) : Result :=
  let t := s.rd2 .cnv st Off.cnvStartTickLo Off.cnvStartTickHi
  let us := (upto 4).filter fun u => s.cnvState st u == kArmed && s.cnvTrig st u == 1
  if us = [] then .next s else .next (us.foldl (fun x u => x.cnvTrigger st u (s.nowTick t)) (s.atTick t))

/-- 64,000 ticks after the trigger tick the aperture begins (R373). -/
def execApertureStart (st : Fin 128) (u : Fin 4) (s : State) : Result :=
  if s.cnvState st u ≠ kWake then .next s
  else
    let t := (s.cnv st u).trig + 64000
    .next (((s.atNow t).cnvReach st u).cnvBegin st u t)

/-- The aperture ends with the code that the residue phase resolves. `sat` names the converters of the stall that have
saturated in their apertures by this instant, and `neg` gives the sign where the converter itself has (R382, R383). A
disturbed aperture gives no measurement (R386). In STREAM the sample goes to the acquisition engine and the next aperture
starts at once (R379). -/
def execApertureEnd (st : Fin 128) (u : Fin 4) (code : BitVec 24) (sat : BitVec 4) (neg : Bool) (s : State) : Result :=
  if s.cnvState st u ≠ kInteg then .next s
  else
    let t := (s.cnv st u).start + (s.cnv st u).len
    let s1 := ((s.atNow t).cnvReach st u).cnvSaturate st sat.toNat
    let c := s1.cnv st u
    let near := match c.nbrEnd with | some e => decide (c.start < e + 320000) | none => false
    let nbr := c.nbrDue || near
    let v := if c.endCode ≠ 0 then 0x800000 else if c.ovr then (if neg then 0x800001 else 0x7FFFFF) else clampCode code.toNat
    let c1 := { c with code := v, nbr := nbr, notBefore := t + 16000, nbrDue := false, cutOpen := false
                       nbrEnd := if c.nbrDue then some t else c.nbrEnd }
    let s2 := s1.setCnv st u c1
    if s.cnvStream st u then .next ((s2.acqSample st u v (c.ovr || nbr)).cnvBegin st u t)
    else .next (s2.setCnvState st u kResid)

/-- A result is stored and posted (R385 to R387), and the converter rearms after every result but a preemption's, or goes idle
(R378, R386, R389). A stream leaves no result, and ends IDLE (R379; assumption 67). MEAS, RANGE, START and LEN of a
conversion cut before its aperture are free values. -/
def execCnvResultStored (st : Fin 128) (u : Fin 4) (s0 : State) : Result :=
  let s := s0.cnvReach st u
  if s.cnvState st u ≠ kResid then .next s
  else
    let c := s.cnv st u
    let off := !s.pmuPowered st
    let next := if off then kOff else if s.cnvRearm st u && c.live && !s.cnvStream st u then kArmed else kIdle
    let rest := fun (x : State) =>
      (x.setCnv st u { x.cnv st u with
        live := next == kArmed, begun := false, ahead := if next = kArmed then (x.cnv st u).ahead else [] }).setCnvState st u next
    if s.cnvStream st u then .next (rest s)
    else
      let f := s.free
      let s0 := if c.begun then s else s.useFree
      let meas := if c.begun then bit c.meas else Config.freeNat f
      let range := if c.begun then c.range else Config.freeNat (f + 1)
      let start := if c.begun then c.startTick else Config.freeNat (f + 2)
      let len := if c.begun then c.len else Config.freeNat (f + 3)
      let s0 := if c.begun then s0 else s0.useFree.useFree.useFree
      let b := c.begun
      let w := pack [(17, 1, bit (c.ovr && c.endCode == 0)),
        (18, 1, bit (c.nbr && (c.endCode == 0 || c.endCode == kDisturbed))), (19, 1, bit (b && c.est)),
        (20, 1, bit (b && c.hold)), (21, 1, bit (b && c.nrdy)), (22, 1, meas), (23, 3, range), (26, 2, c.endCode)]
      let s1 := (s0.storeResult .cnv st (Off.cnvRes u 0) w).wr .cnv st (Off.cnvRes u 1) (word c.code)
      let s2 := (s1.wr2 .cnv st (Off.cnvRes u 2) (Off.cnvRes u 3) (start % 2 ^ 48)).wr .cnv st (Off.cnvRes u 4) (word len)
      let s3 := match c.ring with
        | some n => s2.post n (.cnv st) false 0x06
            (packBytes [(4, 4, (s2.rd .cnv st (Off.cnvRes u 0)).toNat), (8, 4, c.code), (12, 6, start), (18, 4, len),
              (22, 2, 4 * st.val + u.val)])
        | none => s2
      let s4 := rest (s3.event .cnv st 1)
      .next (if c.ovr && c.endCode == 0 then s4.event .cnv st 2 else s4)

/-- A rising crossing at MAINS_REF, `per` ticks after the one before (R370, R371). The first crossing ends no period. -/
def execMainsCrossing (per : BitVec 32) (s : State) : Result :=
  let p := per.toNat
  if s.line.seen = false then .next { s with line := { s.line with seen := true } }
  else if p < 48484848 ∨ 71111111 < p then .next s.lineLose
  else
    .next { s with line := { s.line with periods := (p :: s.line.periods).take 16 } }.lineJudge

/-- 30 ms without the end of a valid period (R371). -/
def execMainsLost (s : State) : Result := .next s.lineLose

/-- BRN_REF_CTRL written with the given EN (R380). -/
def execRefEnable (r : Requester) (b : Fin 8) (en : Bool) (s : State) : Result :=
  let v := word (bit en)
  .next (s.guarded r .brn b Off.brnRefCtrl v (refCtrlWrite b v))

/-- 5 ms after enable READY is set (R380). -/
def execRefReady (b : Fin 8) (s : State) : Result :=
  if s.rb .brn b Off.brnRefStat 0 ∧ s.rb .brn b Off.brnRefStat 1 = false then
    .next ((s.wb .brn b Off.brnRefStat 1 true).event .brn b 1)
  else .next s

end Sys2Proof.Machine
end

