-- ==== Sys2Proof/Machine/Stall.lean ====
section
/-!
DEFINITION. Channel Pin Electronics and Levels (R90 to R129): load strobes, switch batches, parking, assignments, shorts
and fail counters, and the commands of the STL, LVL, DRV, CMP and SWM pages.
-/

namespace Sys2Proof.Machine

/-! ### Load strobes -/

/-- One channel's codes pass the check of R101; `o` gives the register of level `i` (preload or active). -/
def State.levelsOk (s : State) (st : Nat) (o : Nat → Nat) : Bool :=
  let hi := s.rf .lvl st (o 5) 0 16
  let lo := s.rf .lvl st (o 6) 0 16
  let vtt := s.rf .lvl st (o 2) 0 16
  decide (lo + 4000 ≤ hi) && decide (lo ≤ vtt) && decide (vtt ≤ hi)

/-- Copy the seven preloads of channel `c` into the active registers (R99). -/
def State.copyLevels (s : State) (st c : Nat) : State :=
  (upto 7).foldl (fun x i => x.wr .lvl st (Off.lvlAct c i) (s.rd .lvl st (Off.lvlPre c i))) s

/-- Identity of the curve that corrects `code` of level `i` where the coefficients have identity `id` (R452): a point trim corrects
its own coarse segment only; elsewhere the curve before it holds. -/
def curveFor (trims : List (Nat × (Nat × List Nat))) (i code : Nat) : Nat → Nat → Nat
  | 0, id => id
  | fuel + 1, id =>
    match Store.get? trims id with
    | some (prev, segs) => if segs[i]? = some (code / 256) then id else curveFor trims i code fuel prev
    | none => id

/-- The DAC code applied for level `i` of a channel: the target code corrected by the curve of the active tack-room bank, so
that it changes with a switchover (R96, R98, R451). It cannot be read. -/
def State.appliedCode (s : State) (ch i : Nat) : Nat :=
  let code := s.rf .lvl (ch / 16) (Off.lvlAct (ch % 16) i) 0 16
  let id := s.coefOf (if 3 ≤ i then 2 else 1) ch
  Config.levelCode (curveFor s.far.trims i code s.far.trims.length id) ch i code

/-- One load strobe of a stall (R99, R101, R102). `off` is LAST_OFF of a refusal (R61). -/
def State.loadStrobe (s : State) (st off : Nat) : State :=
  if (upto 16).all fun c => s.levelsOk st (Off.lvlPre c) then
    let s1 := (upto 16).foldl (fun x c => x.copyLevels st c) s
    let s2 := s1.setStall st { s1.stall st with slewAct := s.rd .drv st Off.drvSlew }
    let s3 := s2.inc .lvl st Off.lvlStrobeCnt 0 32 1
    let s4 := s3.wf .lvl st Off.lvlStat 0 3 0b010
    (s4.pmuStrobe st).event .lvl st 1
  else
    let s1 := (s.sat .lvl st Off.lvlRefuseCnt 0 16 1).wb .lvl st Off.lvlStat 2 true
    (s1.err .lvl st 16 off).event .lvl st 2

/-- Record that a strobe was given on tick `t` of `State.now`, by an LDLV or by a write of LOAD (R123). -/
def State.strobed (s : State) (st t : Nat) (ldlv : Bool) : State := s.setStall st { s.stall st with strobeAt := some (t, ldlv) }

/-- A write of LVL_CTRL (R125): LDLV_EN takes the value, and LOAD = 1 gives one strobe, refused in M11 (R42) and while
the page is disabled. With an LDLV on the same cycle, accepted or refused, it gives no second one (R123); that both fall on
one cycle where `State.now` has not moved on between them is a DESIGN CHOICE (assumption 52). -/
def lvlCtrlWrite (st : Nat) (v : Word) (s : State) : State :=
  let s1 := s.plainWrite .lvl st Off.lvlCtrl v
  if tbit v 0 = false then s1
  else if s.pageEn .lvl st = false then s1.err .lvl st errDisabled Off.lvlCtrl
  else if s.mode.dev = .m11 then s1.err .lvl st errMode Off.lvlCtrl
  else if (s1.stall st).strobeAt = some (s1.now, true) then s1
  else (s1.loadStrobe st Off.lvlCtrl).strobed st s1.now false

/-- The highest level code (R95). -/
def maxLevel : Nat := 0xFA00

/-- A write of one preload (R95). -/
def lvlPreWrite (st o : Nat) (v : Word) (s : State) : State :=
  if maxLevel < fld v 0 16 then s.err .lvl st errValue o
  else (s.plainWrite .lvl st o v).wb .lvl st Off.lvlStat 0 true

/-- A write of LVL_BCAST_SEL: LEVEL 7 is refused (R125). -/
def bcastSelWrite (st : Nat) (v : Word) (s : State) : State :=
  if fld v 16 3 = 7 then s.err .lvl st errValue Off.lvlBcastSel else s.plainWrite .lvl st Off.lvlBcastSel v

/-- A write of LVL_BCAST_VAL: the code goes into the selected preload of every masked channel (R125, R95). -/
def bcastValWrite (st : Nat) (v : Word) (s : State) : State :=
  if maxLevel < fld v 0 16 then s.err .lvl st errValue Off.lvlBcastVal
  else
    let m := s.rf .lvl st Off.lvlBcastSel 0 16
    let i := s.rf .lvl st Off.lvlBcastSel 16 3
    let s1 := (onesOf m 16).foldl (fun x c => x.wf .lvl st (Off.lvlPre c i) 0 16 (fld v 0 16)) s
    if m = 0 then s1 else s1.wb .lvl st Off.lvlStat 0 true

/-- A write of DRV_SLEW is a preload (R94). -/
def slewWrite (st : Nat) (v : Word) (s : State) : State :=
  (s.plainWrite .drv st Off.drvSlew v).wb .lvl st Off.lvlStat 0 true

/-! ### Switches -/

/-- A batch of a stall from the switches as they stand to a target (R106). -/
def State.mkBatch (s : State) (st tgtD tgtP : Nat) (hot waiting : Bool) : Batch :=
  let mv := fun (o tgt : Nat) => maskOf 16 fun c => natBit (s.rf .swm st o 0 16) c != natBit tgt c
  { tgtDrv := tgtD, tgtPmu := tgtP, hot := hot, waiting := waiting
    mvDrv := mv Off.swmCurDrv tgtD, mvPmu := mv Off.swmCurPmu tgtP }

/-- The three switches n = 3c + k of the channels of mask `m`. -/
def switchesOf (m : Nat) : Nat := maskOf 48 fun n => natBit m (n / 3)

/-- Step 4 of a batch, for the switches outside `held`: its openings are confirmed and their cycles counted (R106, R113). -/
def State.batchOpen (s : State) (st : Nat) (b : Batch) (held : Nat) : State :=
  let curD := s.rf .swm st Off.swmCurDrv 0 16
  let curP := s.rf .swm st Off.swmCurPmu 0 16
  let goes := fun (k cur mv tgt : Nat) =>
    maskOf 16 fun c => natBit cur c && natBit mv c && !natBit tgt c && !natBit held (3 * c + k)
  let openD := goes 0 curD b.mvDrv b.tgtDrv
  let openP := goes 1 curP b.mvPmu b.tgtPmu
  let hotOld := (s.stall st).hotMade
  let s1 := (onesOf openD 16).foldl (fun x c => x.wearCycle st (3 * c) false) s
  let s2 := (onesOf openP 16).foldl (fun x c => x.wearCycle st (3 * c + 1) (b.hot || natBit hotOld c)) s1
  let s3 := (s2.wf .swm st Off.swmCurDrv 0 16 (clearMask curD openD)).wf .swm st Off.swmCurPmu 0 16 (clearMask curP openP)
  (s3.setStall st { s3.stall st with hotMade := clearMask hotOld openP }).pullUpdate st

/-- Step 6 of a batch, for the switches outside `held`: its closings are confirmed (R106). -/
def State.batchClose (s : State) (st : Nat) (b : Batch) (held : Nat) : State :=
  let curD := s.rf .swm st Off.swmCurDrv 0 16
  let curP := s.rf .swm st Off.swmCurPmu 0 16
  let goes := fun (k cur mv tgt : Nat) =>
    maskOf 16 fun c => !natBit cur c && natBit mv c && natBit tgt c && !natBit held (3 * c + k)
  let newP := goes 1 curP b.mvPmu b.tgtPmu
  let s1 := (s.wf .swm st Off.swmCurDrv 0 16 (curD ||| goes 0 curD b.mvDrv b.tgtDrv)).wf .swm st Off.swmCurPmu 0 16 (curP ||| newP)
  (s1.setStall st { s1.stall st with hotMade := if b.hot then (s1.stall st).hotMade ||| newP else (s1.stall st).hotMade }).pullUpdate st

/-- A batch in progress has actuated its openings alone (`closing` false), but for the switches `heldO`, or its closings too,
but for the switches `heldC`. -/
def State.batchMove (s : State) (st : Nat) (b : Batch) (heldO heldC : Nat) (closing : Bool) : State :=
  if closing then (s.batchOpen st b heldO).batchClose st b heldC else s.batchOpen st b heldO

/-- End a batch with a code: BUSY clears, the result is stored and DONE is raised (R106, R128). R128 names step 7 and a
preemption for DONE; that the end with FAULT raises it too is a DESIGN CHOICE (assumption 57). -/
def State.batchEnd (s : State) (st code : Nat) : State :=
  let s1 := s.setStall st { s.stall st with batch := none }
  let s2 := (s1.wb .swm st Off.swmStat 0 false).storeResult .swm st Off.swmResult (code * 2 ^ 8)
  s2.event .swm st 1

/-- A running batch ends PREEMPTED at its next step boundary, for the channels in `m`, which are being parked (R117). How far
the batch has come is its own timing (R106), which no rule fixes at this moment: whether its openings, and then its closings,
have been actuated are free values (assumption 3). Openings that it has actuated are confirmed in every channel (step 4). A
closing of a channel in `m` is reversed, and whether its contact was confirmed before is free too. -/
def State.batchPreempt (s : State) (st m : Nat) : State :=
  match (s.stall st).batch with
  | none => s
  | some b =>
    if b.waiting then s.batchEnd st 3
    else
      let curD := s.rf .swm st Off.swmCurDrv 0 16
      let curP := s.rf .swm st Off.swmCurPmu 0 16
      let closing := Config.freeBool s.free
      let opened := closing || Config.freeBool (s.free + 1)
      let s1 := s.useFree.useFree
      let s2 := if opened then s1.batchMove st b 0 (switchesOf m) closing else s1
      let revD := maskOf 16 fun c => natBit m c && natBit b.mvDrv c && natBit b.tgtDrv c && !natBit curD c
      let revP := maskOf 16 fun c => natBit m c && natBit b.mvPmu c && natBit b.tgtPmu c && !natBit curP c
      let touched := closing && Config.freeBool s2.free
      let s3 := s2.useFree
      let s4 := if touched then (onesOf revD 16).foldl (fun x c => x.wearCycle st (3 * c) false) s3 else s3
      let s5 := if touched then (onesOf revP 16).foldl (fun x c => x.wearCycle st (3 * c + 1) b.hot) s4 else s4
      s5.batchEnd st 3

/-- The batch in progress moves switch `n` of the stall. -/
def Batch.moves (b : Batch) (n : Nat) : Bool :=
  !b.waiting && ((n % 3 == 0 && natBit b.mvDrv (n / 3)) || (n % 3 == 1 && natBit b.mvPmu (n / 3)))

/-- Position sense does not confirm switch `n` of the running batch within its step: the batch ends FAULT there (R115). At
step 4 no closing has begun; at step 6 the openings have been confirmed, and the other closings, actuated together with it, are
confirmed. A PMU switch that opens hot has a hot break to come (R113). -/
def State.batchFault (s : State) (st : Nat) (b : Batch) (n : Nat) : State :=
  let c := n / 3
  let closes := if n % 3 = 0 then natBit b.tgtDrv c else natBit b.tgtPmu c
  let s1 := s.batchMove st b (2 ^ n) (2 ^ n) closes
  let x := s1.stall st
  let s2 := if b.hot && n % 3 == 1 && !closes then s1.setStall st { x with hotMade := x.hotMade ||| 2 ^ c } else s1
  s2.batchEnd st 4

/-! ### Parking -/

/-- The switches of the channels of mask `m` that are closed are commanded open outside any batch (R115, R117). -/
def State.openSwitches (s : State) (st m : Nat) : State :=
  let cur := fun (k : Nat) => s.rf .swm st (if k = 0 then Off.swmCurDrv else if k = 1 then Off.swmCurPmu else Off.swmCurCal) 0 16
  let x := s.stall st
  let o := maskOf 48 fun n => natBit x.opening n || (natBit m (n / 3) && natBit (cur (n % 3)) (n / 3))
  (s.setStall st { x with opening := o }).pullUpdate st

/-- Park the channels of mask `m` of stall `st` (R117): their STL_PARK bits set, a running batch ends PREEMPTED, and
their switches begin to open. Their pending edges are cancelled (R28), their TIM runs end (R324), a step on them ends
(R459). -/
def State.park (s : State) (st m : Nat) : State :=
  let s1 := s.wf .stl st Off.stlPark 0 16 (s.rf .stl st Off.stlPark 0 16 ||| m)
  let s2 := (onesOf m 16).foldl (fun x c => x.setChan (16 * st + c) (x.chan (16 * st + c)).cancel) s1
  (((s2.batchPreempt st m).timPreempt st m).farAbortChans st m).openSwitches st m

/-- Park by hardware (R120): channels already parked by their bit are left, the others park and HW_PARK is raised. -/
def State.hwPark (s : State) (st m : Nat) : State :=
  let fresh := maskOf 16 fun c => natBit m c && !s.rb .stl st Off.stlPark c
  if fresh = 0 then s else (s.park st fresh).event .stl st 1

/-- Every switch of a channel that was commanded open outside a batch is confirmed open: cycles are counted, PARKED is set
if the channel is still to be parked, and the pull connects (R115, R116, R117). A switch that nothing has commanded open
stays as it is (R456). -/
def State.parkDone (s : State) (st c : Nat) : State :=
  let y := s.stall st
  let opens := fun k o => s.rb .swm st o c && (natBit y.opening (3 * c + k) || natBit y.stuck (3 * c + k))
  let close := fun (x : State) o => x.wb .swm st o c false
  let pmu := opens 1 Off.swmCurPmu
  let s1 := if opens 0 Off.swmCurDrv then (close s Off.swmCurDrv).wearCycle st (3 * c) false else s
  let s2 := if pmu then (close s1 Off.swmCurPmu).wearCycle st (3 * c + 1) (natBit y.hotMade c) else s1
  let s3 := if opens 2 Off.swmCurCal then (close s2 Off.swmCurCal).wearCycle st (3 * c + 2) false else s2
  let x := s3.stall st
  let clear := fun m => maskOf 48 fun n => natBit m n && n / 3 != c
  let s4 := s3.setStall st { x with
    stuck := clear x.stuck, opening := clear x.opening
    hotMade := maskOf 16 fun d => natBit x.hotMade d && !(pmu && d == c) }
  (if s4.rb .stl st Off.stlPark c then s4.wb .stl st Off.stlStat c true else s4).pullUpdate st

/-- The owner of stall `st`. -/
def State.stallOwner (s : State) (st : Nat) : Nat := s.ownerOf .stl st

/-- The five pages of a stall's pin electronics have EN = 1; otherwise its channels are held parked (R124). -/
def State.pinPagesOn (s : State) (st : Nat) : Bool :=
  s.pageEn .stl st && s.pageEn .lvl st && s.pageEn .drv st && s.pageEn .cmp st && s.pageEn .swm st

/-- The channel has a column assignment: EN = 1, and its sequencer belongs to the owner of its stall (R17, R18). -/
def State.hasColumn (s : State) (st c : Nat) : Bool :=
  let w := s.rd .stl st (Off.stlAssign c)
  tbit w 31 && s.ownerOf .seq (fld w 8 3) == s.stallOwner st

/-- The channel stays parked whatever is written: it has no column assignment (R17, R124), or the opening of one of its
switches after a switch fault is not confirmed yet (R115). A channel with EN = 1 whose sequencer has not started since counts
as one without an assignment (R20), and R17 with rank 2 of R28 would keep it parked; the worked example of Channel Pin
Electronics unparks it and closes its switches before the start. The model follows the example: such a channel can be
unparked, and its driver alone stays at high impedance (DESIGN CHOICE, assumption 58). -/
def State.parkStays (s : State) (st c : Nat) : Bool :=
  let x := s.stall st
  !s.hasColumn st c || natBit x.stuck (3 * c) || natBit x.stuck (3 * c + 1) || natBit x.stuck (3 * c + 2)

/-- A write of STL_PARK: newly set bits park; each newly cleared bit unparks, unless the mode forbids it (MODE) or the
channel's active levels fail R101 (STATE) (R117, R118). In a mode that allows it a bit of a channel that stays parked keeps
its 1; no rule names an error for it, so that none is recorded (DESIGN CHOICE, assumption 58). -/
def stlParkWrite (st : Nat) (v : Word) (s : State) : State :=
  let old := s.rf .stl st Off.stlPark 0 16
  let new := fld v 0 16
  let toSet := maskOf 16 fun c => natBit new c && !natBit old c
  let asked := maskOf 16 fun c => natBit old c && !natBit new c
  let s1 := if toSet = 0 then s else s.park st toSet
  if asked = 0 then s1
  else if s.pinPagesOn st = false then s1.err .stl st errDisabled Off.stlPark
  else if s.modeOf (s.stallOwner st) ≤ 5 ∨ 10 ≤ s.modeOf (s.stallOwner st) then s1.err .stl st errMode Off.stlPark
  else
    let toClear := maskOf 16 fun c => natBit asked c && !s.parkStays st c
    let bad := maskOf 16 fun c => natBit toClear c && !s.levelsOk st (Off.lvlAct c)
    let go := maskOf 16 fun c => natBit toClear c && !natBit bad c
    let s2 := s1.wf .stl st Off.stlPark 0 16 (maskOf 16 fun c => s1.rb .stl st Off.stlPark c && !natBit go c)
    let s3 := s2.wf .stl st Off.stlStat 0 16 (maskOf 16 fun c => s2.rb .stl st Off.stlStat c && !natBit go c)
    if bad = 0 then s3 else s3.err .stl st errState Off.stlPark

/-- A write of STL_ASSIGN[c] (R18, R20): only while the channel is parked, and only to a sequencer of the stall's owner.
The channel stops following its old sequencer at once. A write with EN = 0 assigns no column, so that the sequencer which
it names is not looked at: DESIGN CHOICE, since R18 does not say. A write to an unparked channel that also names a foreign
sequencer breaks both rules, and the spec gives no order: STATE alone is recorded, a DESIGN CHOICE too (assumption 59). -/
def assignWrite (st c : Nat) (v : Word) (s : State) : State :=
  let o := Off.stlAssign c
  if s.rb .stl st Off.stlStat c = false then s.err .stl st errState o
  else if tbit v 31 ∧ s.ownerOf .seq (fld v 8 3) ≠ s.stallOwner st then s.err .stl st errOwner o
  else { s.plainWrite .stl st o v with follow := Store.drop s.follow (16 * st + c) }

/-! ### Batches -/

/-- Channel `ch` follows a sequencer that runs (R110); one that is ARMED does not count as running here (R195). -/
def State.followsRunning (s : State) (ch : Nat) : Bool :=
  let w := s.following ch
  tbit w 31 && s.seqRunning (fld w 8 3)

/-- The current range of a PMU unit is ±20 mA or wider (R108). -/
def State.pmuWide (s : State) (st u : Nat) : Bool := decide (4 ≤ s.pmuRange st u)

/-- The refusal code of a batch, in order: mode of the device, mode of the domain, then the table of R110 (assumption
12); 0 when it is accepted. -/
def State.batchCheck (s : State) (st : Nat) : Nat :=
  let tgtD := s.rf .swm st Off.swmTgtDrv 0 16
  let tgtP := s.rf .swm st Off.swmTgtPmu 0 16
  let curD := s.rf .swm st Off.swmCurDrv 0 16
  let curP := s.rf .swm st Off.swmCurPmu 0 16
  let some16 := fun p => (upto 16).any p
  let closeP := fun c => natBit tgtP c && !natBit curP c
  let run := fun c => s.followsRunning (16 * st + c)
  let m := s.modeOf (s.stallOwner st)
  if s.mode.dev = .m10 ∨ s.mode.dev = .m11 then 2
  else if m = 8 ∧ some16 closeP then 2
  else if m = 9 ∧ some16 (fun c => closeP c && run c) then 2
  else if some16 (fun c => s.rb .stl st Off.stlPark c && (closeP c || (natBit tgtD c && !natBit curD c))) then 1
  else if some16 (fun c => natBit tgtD c != natBit curD c && run c) then 1
  else if s.rb .swm st Off.swmCtrl 1 ∧ some16 (fun c => natBit tgtP c != natBit curP c && s.pmuWide st (c / 4)) then 1
  else if s.rf .swm st Off.swmTgtDrv 16 16 ≠ 0 ∨ s.rf .swm st Off.swmTgtPmu 16 16 ≠ 0 then 5
  else 0

/-- The page error that goes with a batch code: INTERLOCK and FAULT are the block's own causes, MODE and VALUE the
generic ones (R43, R61, R128). -/
def batchErr (code : Nat) : Nat := if code = 1 then 16 else if code = 2 then errMode else if code = 5 then errValue else 17

/-- A TDR run on a channel whose driver switch the batch moves ends as the batch begins to move, or, armed during the batch, by
its end (R324). -/
def State.batchTdr (s : State) (st : Nat) (b : Batch) : State :=
  if b.waiting then s
  else (upto 16).foldl (fun x c => if natBit b.mvDrv c && s.tdrRun (16 * st + c) then x.timEnd st c endPreempt else x) s

/-- A write of SWM_CTRL: HOT takes the value, GO = 1 starts a batch or refuses it (R106, R110, R123). -/
def swmCtrlWrite (st : Nat) (v : Word) (s : State) : State :=
  let s1 := s.plainWrite .swm st Off.swmCtrl v
  if tbit v 0 = false ∨ s.rb .swm st Off.swmStat 0 then s1
  else if s.pageEn .swm st = false then s1.err .swm st errDisabled Off.swmCtrl
  else
    let code := s1.batchCheck st
    if code ≠ 0 then
      ((s1.startResult .swm st Off.swmResult).storeResult .swm st Off.swmResult (code * 2 ^ 8)).err .swm st (batchErr code) Off.swmCtrl
    else
      let b := s.mkBatch st (s.rf .swm st Off.swmTgtDrv 0 16) (s.rf .swm st Off.swmTgtPmu 0 16) (tbit v 1) (s.stepIn st)
      let s2 := (s1.setStall st { s1.stall st with batch := some b }).batchTdr st b
      (s2.wb .swm st Off.swmStat 0 true).startResult .swm st Off.swmResult

/-- A write of a batch target is refused with STATE while BUSY (R123). -/
def swmTgtWrite (st o : Nat) (v : Word) (s : State) : State :=
  if s.rb .swm st Off.swmStat 0 then s.err .swm st errState o else s.plainWrite .swm st o v

/-- A write of SWM_WEAR_IDX: 48 to 63 are refused (R128). -/
def wearIdxWrite (st : Nat) (v : Word) (s : State) : State :=
  if 48 ≤ fld v 0 6 then s.err .swm st errValue Off.swmWearIdx else s.plainWrite .swm st Off.swmWearIdx v

/-- A write of SWM_WEAR_WARN re-evaluates the 48 WORN flags of the stall; each newly set bit raises WORN (R114). A pen's write
of the present value, which R77 lets pass, re-evaluates them like any other: DESIGN CHOICE (assumption 57). -/
def wearWarnWrite (st : Nat) (v : Word) (s : State) : State :=
  let s1 := s.plainWrite .swm st Off.swmWearWarn v
  (upto 48).foldl (fun x n =>
    let i := 48 * st + n
    let b := decide (v.toNat ≤ x.wearOf i)
    let was := Store.getD (fun _ => false) x.lan.worn i
    let y := { x with lan := { x.lan with worn := Store.setD (fun _ => false) x.lan.worn i b } }
    if b && !was then y.event .swm st 2 else y) s1

/-- CMP_CTRL.CLR_CNT clears the 16 fail counters (R127). -/
def cmpCtrlWrite (st : Nat) (v : Word) (s : State) : State :=
  if tbit v 0 then (upto 16).foldl (fun x c => x.wr .cmp st (Off.cmpFcnt c) 0) s else s

/-! ### What a channel presents (R28, R90, R91, R111, R121, R710) -/

/-- A switch of the channel is commanded open outside a batch and not confirmed. -/
def StallSt.opens (x : StallSt) (c : Nat) : Bool := (upto 3).any fun k => natBit x.opening (3 * c + k) || natBit x.stuck (3 * c + k)

/-- A switch of the channel moves: from step 2 to step 7 of a batch, or while an opening outside a batch is not confirmed
(R106, R710). -/
def State.moves (s : State) (ch : Nat) : Bool :=
  let x := s.stall (ch / 16)
  let c := ch % 16
  (match x.batch with
    | some b => !b.waiting && (natBit b.mvDrv c || natBit b.mvPmu c)
    | none => false) || x.opens c

/-- A switch of the channel moves and the front end is held for it (R106, R710): a PMU switch that moves hot leaves the front
end as it is (R108). -/
def State.moving (s : State) (ch : Nat) : Bool :=
  let x := s.stall (ch / 16)
  let c := ch % 16
  (match x.batch with
    | some b => !b.waiting && (natBit b.mvDrv c || (natBit b.mvPmu c && !b.hot))
    | none => false) || x.opens c

/-- Rank 1 or 2 of R28 governs the channel: it is held by a rank-1 event, or parked. -/
def State.rankOut (s : State) (ch : Nat) : Bool :=
  let st := ch / 16
  let c := ch % 16
  s.rb .stl st Off.stlPark c || s.rb .stl st Off.stlStat c || natBit (s.stall st).hiz c

/-- A channel is parked, by its bit, or held by a rank-1 event or by the farrier (R28). -/
def State.rankHeld (s : State) (ch : Nat) : Bool := s.rankOut ch || s.borrowed ch

/-- What a driver presents at its front-end node. -/
inductive DriverOut where
  | hiz
  | term
  | low
  | high
  /-- Under farrier control (rank 3 of R28). -/
  | farrier
  deriving DecidableEq, Repr

/-- The output of window and level, or of the inhibit state in force (R144, R146). -/
def ChanSt.out (c : ChanSt) : DriverOut :=
  let level := if c.level then DriverOut.high else .low
  match c.inh with
  | some 0 => .hiz
  | some 1 => .term
  | some 3 => .low
  | some 4 => .high
  | _ => match c.window with | .opened => level | .term => .term | .hiz => .hiz

/-- The driver is held at high impedance with termination and clamps off: M0, M1 and M11, rank 1, parked or following no
sequencer (rank 2; a channel whose assignment waits for its start counts as one without, R20), a switch that moves, or a
closed PMU switch (R28, R106, R111, R117, R121, R710). -/
def State.driverHeld (s : State) (ch : Nat) : Bool :=
  let st := ch / 16
  let c := ch % 16
  s.mode.dev == .m0 || s.mode.dev == .m1 || s.mode.dev == .m11 || natBit (s.stall st).hiz c || s.rb .stl st Off.stlPark c ||
    s.moving ch || s.rb .swm st Off.swmCurPmu c

/-- What the driver of a channel presents (R28, R90, R111, R121). A TDR run drives the channel itself (R309). A channel that
is unparked while its sequencer runs presents, until the next vector reaches it, the window and level that it kept from
before the park: the spec says only that the driver leaves high impedance (R118), so that this is a DESIGN CHOICE
(assumption 58). -/
def State.driverOut (s : State) (ch : Nat) : DriverOut :=
  if s.driverHeld ch then .hiz
  else if s.borrowed ch then .farrier
  else if s.tdrRun ch then (if s.tdrHigh ch then .high else .low)
  else if tbit (s.following ch) 31 = false then .hiz
  else (s.chan ch).out

/-- The clamps of a channel act: enabled, the channel not parked, its driver neither driving nor terminating, and nothing
that turns the clamps off (R91, R106, R111). -/
def State.clampsAct (s : State) (ch : Nat) : Bool :=
  s.rb .drv (ch / 16) Off.drvCtrl 1 && !s.driverHeld ch && s.driverOut ch == .hiz

/-- What a channel ball shows (R121). -/
inductive Ball where
  /-- VIN is absent: undriven. -/
  | unpowered
  /-- 200 kΩ to VPARK (R116). -/
  | pull
  /-- A switch of the channel moves, and which of its sides the ball joins is not guaranteed (R710). -/
  | moving
  /-- Joined to the driver, and to the PMU of its group of four. -/
  | joined (drv : Option DriverOut) (pmu : Bool)
  deriving DecidableEq, Repr

/-- The state of a channel ball (R121, R710). A PMU switch that moves hot moves like any other here. -/
def State.ball (s : State) (ch : Nat) : Ball :=
  let st := ch / 16
  let c := ch % 16
  if s.mode.dev = .m0 ∨ s.mode.dev = .m1 then .unpowered
  else if s.moves ch then .moving
  else if s.rb .stl st Off.stlStat (16 + c) then .pull
  else .joined (if s.rb .swm st Off.swmCurDrv c then some (s.driverOut ch) else none) (s.rb .swm st Off.swmCurPmu c)

/-! ### Commands -/

/-- STL_PARK bits of `mask` written 1 (R117). -/
def execChannelPark (r : Requester) (st : Fin 128) (mask : BitVec 16) (s : State) : Result :=
  let v := s.rd .stl st Off.stlPark ||| word mask.toNat
  .next (s.guarded r .stl st Off.stlPark v (stlParkWrite st v))

/-- STL_PARK bits of `mask` written 0 (R118). -/
def execChannelUnpark (r : Requester) (st : Fin 128) (mask : BitVec 16) (s : State) : Result :=
  let v := s.rd .stl st Off.stlPark &&& ~~~ word mask.toNat
  .next (s.guarded r .stl st Off.stlPark v (stlParkWrite st v))

/-- The switches of a parking channel are confirmed open (R117); those of one that was unparked meanwhile, or whose farrier
step was cut off, complete their opening in the same way. -/
def execParkComplete (st : Fin 128) (c : Fin 16) (s : State) : Result :=
  if (s.rb .stl st Off.stlPark c && !s.rb .stl st Off.stlStat c) || (s.stall st).opens c then .next (s.parkDone st c) else .next s

def execAssignWrite (r : Requester) (st : Fin 128) (c : Fin 16) (v : Word) (s : State) : Result :=
  .next (s.guarded r .stl st (Off.stlAssign c) v (assignWrite st c v))

/-- LVL_CTRL written with LOAD = 1 and the given LDLV_EN (R99, R101). -/
def execLoadStrobe (r : Requester) (st : Fin 128) (ldlvEn : Bool) (s : State) : Result :=
  let v := word (1 + 2 * bit ldlvEn)
  .next (s.guarded r .lvl st Off.lvlCtrl v (lvlCtrlWrite st v))

/-- 2 µs after an accepted strobe SETTLING clears (R102). -/
def execSettlingEnd (st : Fin 128) (s : State) : Result := .next (s.wb .lvl st Off.lvlStat 1 false)

def execBroadcastPreload (r : Requester) (st : Fin 128) (v : Word) (s : State) : Result :=
  .next (s.guarded r .lvl st Off.lvlBcastVal v (bcastValWrite st v))

/-- The driver's current limit has held for 200 ns (R92). A driver at high impedance cannot reach the limit. -/
def execDriverShort (st : Fin 128) (c : Fin 16) (s : State) : Result :=
  if s.driverOut (16 * st + c) = .hiz then .next s
  else
    let s1 := if s.rb .drv st Off.drvShort c then s
      else ((s.wb .drv st Off.drvShort c true).sat .drv st Off.drvShortCnt 0 16 1)
    let s2 := s1.event .drv st 1
    .next (if s.rb .drv st Off.drvCtrl 0 then s2.hwPark st (2 ^ c.val) else s2)

def execFailCountClear (r : Requester) (st : Fin 128) (s : State) : Result :=
  .next (s.guarded r .cmp st Off.cmpCtrl 1 (cmpCtrlWrite st 1))

/-- SWM_CTRL written with GO = 1 and the given HOT (R106, R108, R110). -/
def execSwitchBatchGo (r : Requester) (st : Fin 128) (hot : Bool) (s : State) : Result :=
  let v := word (1 + 2 * bit hot)
  .next (s.guarded r .swm st Off.swmCtrl v (swmCtrlWrite st v))

/-- The farrier's step has ended: a batch that waited starts (R123). -/
def execSwitchBatchResume (st : Fin 128) (s : State) : Result :=
  match (s.stall st).batch with
  | some b =>
    if b.waiting && !s.stepIn st then
      let b1 := { b with waiting := false }
      .next ((s.setStall st { s.stall st with batch := some b1 }).batchTdr st b1)
    else .next s
  | none => .next s

/-- The batch is confirmed, its openings before its closings, and step 7 is over (R106). -/
def execSwitchBatchDone (st : Fin 128) (s : State) : Result :=
  match (s.stall st).batch with
  | some b => if b.waiting then .next s else .next (((s.batchTdr st b).batchMove st b 0 0 true).batchEnd st 0)
  | none => .next s

/-- Switch `n` of stall `st` is not confirmed by its position sense within its time (R115): a batch that moves it ends
FAULT; its channel is parked by hardware, the logbook names it, and it stays unconfirmed. PG_EVT.FAULT, which R115 names for
an opening outside a batch only and R128 for R115 as a whole, is set in both cases (DESIGN CHOICE, assumption 57). -/
def execSwitchFault (st : Fin 128) (n : Fin 48) (s : State) : Result :=
  let c := n.val / 3
  let s1 := match (s.stall st).batch with
    | some b => if b.moves n then ((s.batchTdr st b).batchFault st b n).err .swm st 17 Off.swmCtrl else s
    | none => s
  let s2 := s1.setStall st { s1.stall st with stuck := (s1.stall st).stuck ||| 2 ^ n.val }
  let s3 := (s2.hwPark st (2 ^ c)).logOffer logSwitch PageKind.swm.typeCode st n.val
  .next (((s3.wb .stl st Off.stlStat c false).pullUpdate st).event .swm st 3)

def execWearWarnWrite (r : Requester) (st : Fin 128) (v : Word) (s : State) : Result :=
  .next (s.guarded r .swm st Off.swmWearWarn v (wearWarnWrite st v))

end Sys2Proof.Machine
end

