-- ==== Sys2Proof/Machine/Timing.lean ====
section
/-!
DEFINITION. Timing Sets and Edge Placement (R130 to R163, R708): the epoch, the timing-set table and its check, and the
rules of edge placement on one channel.
-/

namespace Sys2Proof.Machine

/-! ### Epoch -/

/-- SYNC_MODE codes (R151). -/
def standalone : Nat := 0
def syncMaster : Nat := 1

/-- Store a bit of TMB_STAT in every barn: the barns share one epoch (R21). -/
def State.tmbBit (s : State) (b : Nat) (v : Bool) : State := (upto 8).foldl (fun x i => x.wb .tmb i Off.tmbStat b v) s

/-- The first REFCLK rising edge after the present tick: REFCLK is 32 ticks long (R130). -/
def State.nextRef (s : State) : Nat := (s.now / 32 + 1) * 32

/-- The REFCLK rising edge at or after the present tick. -/
def State.refEdge (s : State) : Nat := (s.now + 31) / 32 * 32

/-- Arm epoch capture in a mode (R151, R155). -/
def State.epochArm (s : State) (mode : Nat) : State :=
  let s1 := ((s.wf .tmb 0 Off.tmbCtrl 0 2 mode).wb .tmb 0 Off.tmbCtrl 4 true)
  let s2 := (s1.tmbBit 1 false).tmbBit 2 true
  let s3 := { s2 with armed := some ⟨mode, s.now⟩ }
  if mode = syncMaster then { s3 with pins := { s3.pins with syncOut := some s.nextRef } } else s3

/-- A write of TMB_CTRL of barn `b`: only barn 0 takes it; with ARM = 1 it is refused whole while a sequencer runs or a
TIM unit is armed (R154, R161). An ARM while armed arms anew, which is what ends an arm that never finds a pulse: R708 says
so, beside R82, which gives a 1 written to a set bit no effect (DEDUCED, assumption 20). -/
def tmbCtrlWrite (b : Nat) (v : Word) (s : State) : State :=
  if b ≠ 0 then s
  else if fld v 0 2 = 3 then s.err .tmb 0 errValue Off.tmbCtrl
  else if tbit v 4 = false then s.wf .tmb 0 Off.tmbCtrl 0 2 (fld v 0 2)
  else if s.pageEn .tmb 0 = false then s.err .tmb 0 errDisabled Off.tmbCtrl
  else if s.anySeqActive || s.anyTimArmed then s.err .tmb 0 errState Off.tmbCtrl
  else s.epochArm (fld v 0 2)

/-- A write of TMB_SYNC_DLY of barn `b`: ±40,000 in barn 0 (R161). -/
def syncDlyWrite (b : Nat) (v : Word) (s : State) : State :=
  if b ≠ 0 then s
  else if signed 32 v.toNat < -40000 ∨ 40000 < signed 32 v.toNat then s.err .tmb 0 errValue Off.tmbSyncDly
  else s.wr .tmb 0 Off.tmbSyncDly v

/-- The epoch is set from the REFCLK edge at tick `e`, offset by TMB_SYNC_DLY where `dly` says so (R151, R155). Time stands at
that edge or, where the epoch lies after it, at the epoch: until then the count of the previous epoch runs on and
EPOCH_VALID reads 0. Pulses still to come keep their instants in the new count; no sequencer runs, so that no strobe is open. -/
def State.epochSet (s : State) (e : Nat) (dly : Bool) : State :=
  let d := if dly then signed 32 (s.rd .tmb 0 Off.tmbSyncDly).toNat else 0
  let ep := ((e * 1250 : Nat) + d).toNat
  let s1 := { s with
    epoch := ep, epochLog := if s.ticking then s.epoch :: s.epochLog else s.epochLog
    now := max (max s.now e) ((ep + 1249) / 1250), armed := none, ticking := true
    lastTrig := s.lastTrig.filterMap fun (p : Nat × (Nat × Nat)) =>
      if ep ≤ s.epoch + p.2.1 then some (p.1, (s.epoch + p.2.1 - ep, p.2.2)) else none
    chans := s.chans.map fun (c : Nat × ChanSt) => (c.1, { c.2 with strobes := [] }) }
  let s2 := ((s1.wb .tmb 0 Off.tmbCtrl 4 false).tmbBit 2 false).tmbBit 1 true
  (upto 8).foldl (fun x b => (x.sat .tmb b Off.tmbEpochCnt 0 16 1).event .tmb b 1) s2

/-- TMB_CTRL of barn 0 written with ARM = 1 and SYNC_MODE `mode` (R154). -/
def execEpochArm (r : Requester) (mode : Fin 4) (s : State) : Result :=
  let v := word (16 + mode)
  .next (s.guarded r .tmb 0 Off.tmbCtrl v (tmbCtrlWrite 0 v))

/-- The edge on which a STANDALONE arm sets the epoch: the second REFCLK rising edge after it (R151, R156). -/
def Arm.second (a : Arm) : Nat := (a.at_ / 32 + 1) * 32 + 32

/-- The first REFCLK rising edge that an armed part can recognise a pulse at: the edge before it, which sampled SYNC_IN low,
comes at or after the arm (R708). A change of SYNC_IN that an earlier edge sampled is no pulse of that part (R159). -/
def Arm.pulseEdge (a : Arm) : Nat := (a.at_ + 31) / 32 * 32 + 32

/-- A SYNC_IN pulse is recognised with the given setup margin in ps (R708, R153, R154): at the next REFCLK rising edge or, where
the margin is below 500 ps, perhaps at the one after it, which is free (R153). A part armed in STANDALONE ignores it. A pulse
whose low sample precedes the arm is ignored, and the epoch follows the next one (R159, R708): the command names no tick, so
that where `State.now` has not moved on from the arm it is free whether the pulse is such a one or a later one. The
barns sample one pulse: SYNC_MARGIN, MARGIN_LOW and SYNC_IGN show in all eight TMB pages, which no rule says (DESIGN
CHOICE, assumption 20). -/
def execSyncInPulse (margin : BitVec 16) (s : State) : Result :=
  let low := decide (margin.toNat < 500)
  let shown := fun (z : State) => (upto 8).foldl (fun x b =>
    let y := (x.wf .tmb b Off.tmbSyncMargin 0 16 margin.toNat).wb .tmb b Off.tmbStat 3 low
    if low then y.event .tmb b 2 else y) z
  match s.armed with
  | none => .next ((upto 8).foldl (fun x b => x.sat .tmb b Off.tmbSyncIgn 0 16 1) (shown s))
  | some a =>
    if a.mode = standalone then .next s
    else
      let late := low && Config.freeBool s.free
      let s1 := if low then s.useFree else s
      let e := s.refEdge + 32 * bit late
      if a.pulseEdge ≤ e then .next ((shown s1).epochSet e true)
      else if Config.freeBool s1.free then .next s1.useFree
      else .next ((shown s1.useFree).epochSet a.pulseEdge true)

/-! ### Timing sets -/

/-- R136 and R137 hold for one column. -/
def columnSound (p : Nat) (e : Nat → Nat) : Bool :=
  (upto 6).all (fun i => decide (e i < p + min p 160000)) && decide (e 1 + 5000 ≤ e 2) && decide (e 4 + 2500 ≤ e 5)

/-- Period of set `t` of sequencer `q`. -/
def State.period (s : State) (q t : Nat) : Nat := (s.rd .tset q (Off.seqTsPer t)).toNat

/-- A timing set is sound in every column. -/
def State.setSound (s : State) (q t : Nat) : Bool := (upto 64).all fun c => columnSound (s.period q t) (s.tsEdge q t c)

/-- A set of sequencer `q` waits for its check (R138). -/
def State.markDirty (s : State) (q t : Nat) : State :=
  { s with tsDirty := if s.tsDirty.contains (32 * q + t) then s.tsDirty else s.tsDirty ++ [32 * q + t] }.wb .tset q
    Off.seqTsChk 0 true

/-- A write of SEQ_TS_PER[t] (R135, R139). -/
def periodWrite (q t : Nat) (v : Word) (s : State) : State :=
  if s.seqActive q then s.err .tset q errState (Off.seqTsPer t)
  else if v.toNat < 10000 ∨ 4000000000 < v.toNat then s.err .tset q errValue (Off.seqTsPer t)
  else (s.wr .tset q (Off.seqTsPer t) v).markDirty q t

/-- A write of SEQ_TS_EDGE[i] through the window; a write of edge 5 advances COL with AUTO = 1 (R139, R163). -/
def edgeWrite (q i : Nat) (v : Word) (s : State) : State :=
  if s.seqActive q then s.err .tset q errState (Off.seqTsEdge i)
  else
    let t := s.rf .tset q Off.seqTsIdx 0 5
    let c := s.rf .tset q Off.seqTsIdx 8 6
    let s1 := { s with tsEdges := Store.setD edgeReset s.tsEdges (tsKey q t c i) v }.markDirty q t
    if i = 5 ∧ s.rb .tset q Off.seqTsIdx 16 then s1.wf .tset q Off.seqTsIdx 8 6 (c + 1) else s1

/-- A write of SEQ_FMT[e] (R139, R143). -/
def fmtWrite (q e : Nat) (v : Word) (s : State) : State :=
  if s.seqActive q then s.err .tset q errState (Off.seqFmt e)
  else if fld v 6 2 = 3 ∨ 5 ≤ fld v 12 3 then s.err .tset q errValue (Off.seqFmt e)
  else s.plainWrite .tset q (Off.seqFmt e) v

/-- SEQ_TS_PER[reg] for `reg` below 32, else SEQ_TS_EDGE[reg − 32], written (R137, R139). -/
def execTimingSetWrite (r : Requester) (q : Fin 8) (reg : Fin 38) (v : Word) (s : State) : Result :=
  if reg.val < 32 then .next (s.guarded r .tset q (Off.seqTsPer reg) v (periodWrite q reg v))
  else .next (s.guarded r .tset q (Off.seqTsEdge (reg - 32)) v (edgeWrite q (reg - 32) v))

/-- The check of every written set of a sequencer ends (R138). -/
def execTimingSetCheckDone (q : Fin 8) (s : State) : Result :=
  let mine := s.tsDirty.filter fun k => k / 32 == q.val
  let s1 := mine.foldl (fun x k => x.wb .tset q Off.seqTsStat (k % 32) (!s.setSound q (k % 32))) s
  .next ({ s1 with tsDirty := s.tsDirty.filter fun k => k / 32 != q.val }.wb .tset q Off.seqTsChk 0 false)

/-! ### Edges of one channel -/

def EdgeAct.isStrobe : EdgeAct → Bool
  | .expLow | .expHigh | .expMid => true
  | _ => false

/-- Order of firing: time, then vector, then edge index. -/
def Edge.before (a b : Edge) : Bool :=
  decide (a.time < b.time) || (a.time == b.time && (decide (a.vec < b.vec) || (a.vec == b.vec && decide (a.idx < b.idx))))

/-- Insert an edge in firing order. -/
def insertEdge (e : Edge) : List Edge → List Edge
  | [] => [e]
  | h :: t => if e.before h then e :: h :: t else h :: insertEdge e t

/-- Actions of a format entry at D1 or D2 (R143). -/
def levelAct : Nat → Option EdgeAct
  | 1 => some .low | 2 => some .high | 3 => some .flip | _ => none

/-- Expectation of a format entry at a strobe (R143). -/
def cmpAct : Nat → Option EdgeAct
  | 1 => some .expLow | 2 => some .expHigh | 3 => some .expMid | _ => none

/-- Action of edge `i` under a format entry, if it acts (R143). -/
def actOf (f : Word) : Nat → Option EdgeAct
  | 0 => if tbit f 0 then some .openWin else none
  | 1 => levelAct (fld f 2 2)
  | 2 => levelAct (fld f 4 2)
  | 3 => match fld f 6 2 with | 1 => some .closeHiz | 2 => some .closeTerm | _ => none
  | 4 => cmpAct (fld f 8 2)
  | _ => cmpAct (fld f 10 2)

/-- The acting edges of a vector that starts at `t0`, in firing order, with the deskew and the mask of their channel at that
start. -/
def actingEdges (f : Word) (t0 vec coef : Nat) (masked : Bool) (e : Nat → Nat) : List Edge :=
  (upto 6).foldl (fun l i =>
    match actOf f i with
    | some a => insertEdge ⟨t0 + e i, i, a, vec, coef, masked⟩ l
    | none => l) []

/-- The internal fire time of an edge of channel `ch` with slew code `slew` (R131, R148, R149), as ticks and fine steps: the
needle-plane time less the drive delay, or plus the compare delay, and the pipeline latency. -/
def Edge.firePoint (ch slew : Nat) (e : Edge) : Nat × Nat :=
  let t := if e.act.isStrobe then e.time + maxDelay + Config.pipeDelay + min maxDelay (Config.compareDelay e.coef ch)
    else e.time + maxDelay + Config.pipeDelay - min maxDelay (Config.driveDelay e.coef ch slew)
  (t / 1250, t % 1250)

/-- The slew code of a channel in force (R94). -/
def State.slewOf (s : State) (ch : Nat) : Nat := fld (s.stall (ch / 16)).slewAct (2 * (ch % 16)) 2

/-- Closer than the spacing to a kept edge. -/
def tooClose (gap t : Nat) (kept : List Nat) : Bool := kept.any fun k => decide (t < k + gap) && decide (k < t + gap)

/-- A D_ON of the list that forms one transition with a D1 at the same time (R142). -/
def hasPair (e : Edge) (l : List Edge) : Bool := e.idx == 0 && l.any fun d => d.idx == 1 && d.time == e.time

/-- Judge the spacing of a vector's edges in firing order (R142): the channel with the kept edges placed, and the dropped
edges as (time, edge index). `paired` says that a D_ON just before was dropped with the next D1. -/
def placeEdges (c : ChanSt) (paired : Bool) : List Edge → ChanSt × List (Nat × Nat)
  | [] => (c, [])
  | e :: t =>
    if e.act.isStrobe then
      if tooClose 2500 e.time c.keptStrobe then
        let r := placeEdges c false t
        (r.1, (e.time, e.idx) :: r.2)
      else placeEdges { c with edges := insertEdge e c.edges, keptStrobe := e.time :: c.keptStrobe } false t
    else if paired && e.idx == 1 then
      let r := placeEdges c false t
      (r.1, (e.time, 1) :: r.2)
    else if e.idx == 1 && c.edges.any (fun d => d.vec == e.vec && d.idx == 0 && d.time == e.time) then
      placeEdges { c with edges := insertEdge e c.edges } false t
    else if tooClose 5000 e.time c.keptDrive then
      if hasPair e t then placeEdges c true t
      else
        let r := placeEdges c false t
        (r.1, (e.time, e.idx) :: r.2)
    else placeEdges { c with edges := insertEdge e c.edges, keptDrive := e.time :: c.keptDrive } false t

/-- A drive edge acts on the window and the level (R144). -/
def ChanSt.drive (c : ChanSt) (a : EdgeAct) : ChanSt :=
  match a with
  | .openWin => { c with window := .opened }
  | .low => { c with level := false }
  | .high => { c with level := true }
  | .flip => { c with level := !c.level }
  | .closeHiz => { c with window := .hiz }
  | .closeTerm => { c with window := .term }
  | _ => c

/-- A strobe with outputs `h` and `l` passes its expectation (R145). -/
def EdgeAct.passes (a : EdgeAct) (h l : Bool) : Bool :=
  match a with
  | .expLow => l
  | .expHigh => h
  | .expMid => !h && !l
  | _ => true

/-- The outputs sampled on a channel at an instant; none listed: both 0. -/
def sampleAt (obs : List Sample) (ch : Nat) (i : SampleAt) : Bool × Bool :=
  match obs.find? fun o => o.ch.val == ch && o.inst == i with
  | some o => (o.h, o.l)
  | none => (false, false)

/-- The instant at which a strobe is listed with the command of vector `cur`: the strobes of the vector just before it, and
late ones, apart. -/
def Edge.instant (e : Edge) (cur : Nat) : SampleAt :=
  if e.vec + 1 = cur then (if e.idx = 4 then .stbA else .stbB) else (if e.idx = 4 then .lateA else .lateB)

/-- One edge of a channel fires at its internal time `p` (R148). -/
def ChanSt.act (c : ChanSt) (e : Edge) (p : Nat × Nat) : ChanSt := { c.drive e.act with fired := some p }

/-- Fire the pending edges of a channel before time `limit`; the failing strobes are answered. Samples of one channel and
instant are taken in their order. `slew` is the channel's slew code; the next number is that of its pending edges. -/
def fireUntil (ch slew cur limit : Nat) : Nat → List Sample → ChanSt → ChanSt × List Edge
  | 0, _, c => (c, [])
  | n + 1, obs, c =>
    match c.edges with
    | [] => (c, [])
    | e :: t =>
      if e.time < limit then
        let c1 := { c with edges := t }.act e (e.firePoint ch slew)
        if e.act.isStrobe then
          let o := sampleAt obs ch (e.instant cur)
          let rest := obs.eraseP fun x => x.ch.val == ch && x.inst == e.instant cur
          let r := fireUntil ch slew cur limit n rest c1
          if e.act.passes o.1 o.2 then r else (r.1, e :: r.2)
        else fireUntil ch slew cur limit n obs c1
      else (c, [])

/-- Fire what is due before `limit`. -/
def ChanSt.fire (c : ChanSt) (ch slew cur limit : Nat) (obs : List Sample) : ChanSt × List Edge :=
  fireUntil ch slew cur limit c.edges.length obs c

/-- Forget kept edges that lie too far back to matter to a vector that starts at `t0`. -/
def ChanSt.prune (c : ChanSt) (t0 : Nat) : ChanSt :=
  { c with keptDrive := c.keptDrive.filter fun t => decide (t0 < t + 5000)
           keptStrobe := c.keptStrobe.filter fun t => decide (t0 < t + 2500) }

end Sys2Proof.Machine
end

