-- ==== Sys2Proof/Machine/Stream.lean ====
section
/-!
DEFINITION. Segments, Manger and Streaming (R204 to R232): segment images and their checks, the segment map, run-ahead
and hint windows, residency, panic, and the commands of the streamer.
-/

namespace Sys2Proof.Machine

/-! ### Segment images -/

/-- One bit of the reflected CRC-32 of IEEE 802.3. -/
def crcBit (c : Nat) : Nat := if c % 2 = 1 then (c / 2) ^^^ 0xEDB88320 else c / 2

/-- One byte of the CRC-32. -/
def crcByte (c b : Nat) : Nat := crcBit (crcBit (crcBit (crcBit (crcBit (crcBit (crcBit (crcBit (c ^^^ b))))))))

/-- CRC-32 of a byte string (R209). -/
def crc32 (bs : List Byte) : Nat := (bs.foldl (fun c b => crcByte c b.toNat) 0xFFFFFFFF) ^^^ 0xFFFFFFFF

/-- A segment of the map covers an address. -/
def Seg.covers (g : Seg) (a : Nat) : Bool := decide (g.base ≤ a) && decide (a < g.base + 64 * g.ngran)

/-- The segment that covers an address. -/
def segOf (m : List Seg) (a : Nat) : Option Seg := m.find? fun g => g.covers a

/-- Address of the segment directory (R210). -/
def State.sdir (s : State) (q : Nat) : Nat := s.rd2 .seq q Off.seqSdirLo Off.seqSdirHi

/-- The segment that an image header describes (R207). -/
def State.segAt (s : State) (o img : Nat) : Seg :=
  let h := fun i => s.hayGet o (img + i) 4
  { base := h 8 % 2 ^ 24, ngran := h 12 % 2 ^ 19, image := img
    hints := ((upto 4).filter fun i => (h (16 + 4 * i)).testBit 31).map fun i => h (16 + 4 * i) % 2 ^ 24 }

/-- What error correction finds in a read of a prime: nothing, unless the command names it. -/
def eccOf (errs : List (PrimeRead × Ecc)) (is : PrimeRead → Bool) : Ecc := ((errs.find? fun e => is e.1).map Prod.snd).getD .clean

/-- The read of the directory word, or of the header, of entry `i`. -/
def PrimeRead.isEntry (i : Nat) (r : PrimeRead) : Bool := match r with | .entry j => j.val == i | _ => false
def PrimeRead.isHeader (i : Nat) (r : PrimeRead) : Bool := match r with | .header j => j.val == i | _ => false

/-- The first or the second read of granule `g`. -/
def PrimeRead.isGranule (g : Nat) (second : Bool) (r : PrimeRead) : Bool :=
  match r with
  | .granule j => !second && j.val == g
  | .again j => second && j.val == g
  | _ => false

/-- The first failing check of one directory entry (R211), or its segment. -/
def State.entryCheck (s : State) (q i : Nat) (errs : List (PrimeRead × Ecc)) : Nat × Option Seg :=
  let o := s.ownerOf .seq q
  let e := s.sdir q + 8 * i
  if eccOf errs (PrimeRead.isEntry i) = .uncorrectable ∨ s.poisoned e 8 then (0xB, none)
  else
    let img := s.hayGet o e 8 % 2 ^ 35
    if img % 64 ≠ 0 ∨ s.inRegion o [patternKind] img 64 = false then (2, none)
    else if eccOf errs (PrimeRead.isHeader i) = .uncorrectable ∨ s.poisoned img 64 then (0xB, none)
    else if s.hayGet o img 4 ≠ 0x4E474553 then (3, none)
    else if s.hayGet o (img + 4) 2 ≠ 1 then (4, none)
    else if s.hayGet o (img + 60) 4 ≠ crc32 (s.hayBytes o img 60) then (5, none)
    else
      let g := s.segAt o img
      if g.base % 64 ≠ 0 then (6, none)
      else if g.ngran < 8 ∨ 262144 < g.ngran ∨ 2 ^ 24 < g.base + 64 * g.ngran then (7, none)
      else if s.inRegion o [patternKind] img (64 + 2560 * g.ngran) = false then (2, none)
      else (0, some g)

/-- The entries of the directory in ascending order, up to the first failing one: code, index, segments. -/
def State.entries (s : State) (q : Nat) (errs : List (PrimeRead × Ecc)) : Nat → Nat → List Seg → Nat × Nat × List Seg
  | 0, _, acc => (0, 0, acc)
  | n + 1, i, acc =>
    match s.entryCheck q i errs with
    | (_, some g) => s.entries q errs n (i + 1) (acc ++ [g])
    | (c, none) => (c, i, acc)

/-- Two segments share an address (R205). -/
def Seg.overlaps (a b : Seg) : Bool := decide (a.base < b.base + 64 * b.ngran) && decide (b.base < a.base + 64 * a.ngran)

/-- The lowest index whose segment overlaps one of lower index. -/
def firstOverlap (m : List Seg) : Option Nat :=
  (upto m.length).find? fun j =>
    match m[j]? with
    | some g => (m.take j).any fun h => h.overlaps g
    | none => false

/-- The lowest index that declares an unmapped hint (R211). -/
def firstBadHint (m : List Seg) : Option Nat :=
  m.findIdx? fun g => g.hints.any fun h => (segOf m h).isNone

/-- The whole check of a prime (R211): code, directory index, map. `errs` names the reads that find an error. -/
def State.primeCheck (s : State) (q : Nat) (errs : List (PrimeRead × Ecc)) : Nat × Nat × List Seg :=
  let n := s.rf .seq q Off.seqSdirN 0 11
  if n = 0 ∨ 1024 < n then (1, 0, [])
  else if s.inRegion (s.ownerOf .seq q) [patternKind] (s.sdir q) (8 * n) = false then (2, 0, [])
  else
    match s.entries q errs n 0 [] with
    | (0, _, m) =>
      match firstOverlap m with
      | some j => (8, j, [])
      | none =>
        match firstBadHint m with
        | some j => (9, j, [])
        | none => if (segOf m (s.rf .seq q Off.seqStartAddr 0 24)).isNone then (0xA, 0, []) else (0, 0, m)
    | (c, i, _) => (c, i, [])

/-- The reads of one directory entry, with what they find (R551, R553): its word, and its header where the image is one that the
prime may read. -/
def State.entryReads (s : State) (q i : Nat) (errs : List (PrimeRead × Ecc)) : State :=
  let o := s.ownerOf .seq q
  let e := s.sdir q + 8 * i
  let r := s.eccRead e 8 reqRefill (eccOf errs (PrimeRead.isEntry i))
  let img := s.hayGet o e 8 % 2 ^ 35
  if r.2 ∨ img % 64 ≠ 0 ∨ s.inRegion o [patternKind] img 64 = false then r.1
  else (r.1.eccRead img 64 reqRefill (eccOf errs (PrimeRead.isHeader i))).1

/-- The reads of a prime, up to the entry at which it fails. -/
def State.primeReads (s : State) (q : Nat) (errs : List (PrimeRead × Ecc)) : State :=
  let n := s.rf .seq q Off.seqSdirN 0 11
  if n = 0 ∨ 1024 < n ∨ s.inRegion (s.ownerOf .seq q) [patternKind] (s.sdir q) (8 * n) = false then s
  else
    let last := match s.entries q errs n 0 [] with | (0, _, _) => n | (_, i, _) => i + 1
    (upto last).foldl (fun x i => x.entryReads q i errs) s

/-! ### Residency -/

/-- Hayloft address of granule `g` of segment `sg` (R208). -/
def Seg.granuleAt (sg : Seg) (g : Nat) : Nat := sg.image + 64 + 40 * (64 * g - sg.base)

/-- The 64 vector words of granule `g`, as the hayloft holds them under the owner's key (R208). -/
def State.granuleWords (s : State) (q : Nat) (sg : Seg) (g : Nat) : Nat := s.hayGet (s.ownerOf .seq q) (sg.granuleAt g) 2560

/-- The granule is resident. -/
def SeqSt.has (x : SeqSt) (g : Nat) : Bool := x.resident.any fun e => e.1 == g

/-- The vector word at a pattern address, if its granule is resident: as it was when the granule was read (R214). -/
def SeqSt.vectorAt (x : SeqSt) (a : Nat) : Option Nat := (Store.get? x.resident (a / 64)).map fun w => nfld w (320 * (a % 64)) 320

/-- Opcode of the last vector of a segment, which the streamer reads with its granule (R218). -/
def State.lastOp (s : State) (q : Nat) (sg : Seg) : Nat :=
  let a := sg.base + 64 * sg.ngran - 1
  match (s.seq q).vectorAt a with
  | some w => nfld w 256 6
  | none => nfld (s.hayGet (s.ownerOf .seq q) (sg.image + 64 + 40 * (a - sg.base)) 40) 256 6

/-- Granules of the hint windows of a segment (R220). -/
def hintGranules (m : List Seg) (g : Seg) : List Nat :=
  (g.hints.foldl (fun l h =>
    match segOf m h with
    | some t => l ++ (upto 8).filterMap fun i =>
        if (h / 64 + i) * 64 < t.base + 64 * t.ngran then some (h / 64 + i) else none
    | none => l) []).eraseDups

/-- The granules after `g` in address order, at most `n`, up to where R218 stops run-ahead. -/
def State.runAhead (s : State) (q : Nat) (m : List Seg) : Nat → Nat → List Nat
  | 0, _ => []
  | n + 1, g =>
    match segOf m (64 * g) with
    | none => []
    | some cur =>
      let op := s.lastOp q cur
      let goes := cur.covers (64 * (g + 1)) || ((segOf m (64 * (g + 1))).isSome && !(op == 4 || op == 6 || op == 9))
      if goes then (g + 1) :: s.runAhead q m n (g + 1) else []

/-- What run-ahead requests of granules `l`, which follow one of segment `cur`, and the hint windows that are held or
requested: it enters a segment that declares hints once the 64 hint frames have room for its windows and these are resident
(R220). -/
def SeqSt.hinted (x : SeqSt) (m : List Seg) : List Nat → Option Seg → List Nat → List Nat × List Nat
  | [], _, held => ([], held)
  | g :: t, cur, held =>
    let sg := segOf m (64 * g)
    let w := match sg with | some nxt => hintGranules m nxt | none => []
    let all := (held ++ w).eraseDups
    if sg = cur ∨ w = [] ∨ (all.length ≤ 64 ∧ w.all fun h => x.has h) then
      let r := x.hinted m t sg (if sg = cur then held else all)
      (g :: r.1, r.2)
    else ([], if all.length ≤ 64 then all else held)

/-- The hint windows of the segment that covers an address. -/
def windowsAt (m : List Seg) (a : Nat) : List Nat := match segOf m a with | some g => hintGranules m g | none => []

/-- What frames serve for next address `a` beside the granules retained: its granule, run-ahead, which takes a place for
that granule if none of the retained ones is it, and hint windows (R217 to R220). -/
def State.framesFor (s : State) (q : Nat) (m : List Seg) (a : Nat) : List Nat :=
  let x := s.seq q
  let n := if x.recent.contains (a / 64) then 256 else 255
  let r := x.hinted m (s.runAhead q m n (a / 64)) (segOf m a) (windowsAt m a)
  (a / 64 :: (r.1 ++ r.2)).eraseDups

/-- The granules that the streamer requests for next address `a` (R218 to R220): where a transfer restarts run-ahead in a
segment whose hint windows are not resident yet, these come first. -/
def State.wanted (s : State) (q : Nat) (m : List Seg) (a : Nat) : List Nat :=
  let w := windowsAt m a
  if w.all fun h => (s.seq q).has h then s.framesFor q m a else w

/-- The start window (R212). -/
def State.startWindow (s : State) (q : Nat) (m : List Seg) : List Nat :=
  let a := s.rf .seq q Off.seqStartAddr 0 24
  if (segOf m a).isSome then (a / 64 :: (s.runAhead q m 15 (a / 64) ++ windowsAt m a)).eraseDups else []

/-- Panic of the refill port (R223) for next address `a`, while a run issues or holds. -/
def State.panicUpdate (s : State) (q : Nat) (m : List Seg) (a : Nat) : State :=
  let x := s.seq q
  let ra := s.runAhead q m 256 (a / 64)
  let have_ := (ra.filter fun g => x.has g).length
  let low := decide (have_ < min (s.rf .seq q Off.seqStrmCtrl 8 8) ra.length) || !x.has (a / 64)
  let s1 := s.wf .seq q Off.seqStrmStat 16 9 have_
  if s.seqState q ≠ sRun ∧ s.seqState q ≠ sHold then s1
  else if low then
    if s.rb .seq q Off.seqStrmStat 4 then s1
    else (((s1.wb .seq q Off.seqStrmStat 4 true).sat .seq q Off.seqPanicCnt 0 16 1).event .seq q 6).portPanic q
  else (s1.wb .seq q Off.seqStrmStat 4 false).portCalm q

/-- Panic and run-ahead end with the run. -/
def State.panicEnd (s : State) (q : Nat) : State :=
  ((s.wf .seq q Off.seqStrmStat 16 9 0).wb .seq q Off.seqStrmStat 4 false).portCalm q

/-- Issue passes from granule to granule: the issued granule becomes the newest of the last 1,318 distinct ones (R219). -/
def touchGranule (recent : List Nat) (g : Nat) : List Nat := (g :: recent.filter (fun x => x != g)).take 1318

/-- Evict what is neither among the last issued, nor among `w` (R219). -/
def State.keepGranules (s : State) (q : Nat) (w : List Nat) : State :=
  let x := s.seq q
  s.setSeq q { x with resident := x.resident.filter fun e => x.recent.contains e.1 || w.contains e.1 }

/-- What run-ahead and hints do not ask for any more leaves its frame at once (R219). -/
def State.evict (s : State) (q : Nat) (m : List Seg) (a : Nat) : State := s.keepGranules q (s.framesFor q m a)

/-- Outside a run the start window alone is asked for (R213, R219). -/
def State.evictIdle (s : State) (q : Nat) : State :=
  match (s.seq q).map with
  | some m => s.keepGranules q (s.startWindow q m)
  | none => s

/-- A granule is read into the manger. -/
def State.fillGranule (s : State) (q : Nat) (sg : Seg) (g : Nat) : State :=
  let x := s.seq q
  s.setSeq q { x with resident := (g, s.granuleWords q sg g) :: x.resident, retried := x.retried.filter fun r => r != g }

/-- The refill read of granule `g` lies in a PATTERN region of the owner, outside of which it is not served (R590). -/
def State.refillOk (s : State) (q : Nat) (sg : Seg) (g : Nat) : Bool :=
  s.inRegion (s.ownerOf .seq q) [patternKind] (sg.granuleAt g) 2560

/-- The granules of `l` that are not resident are read. One that reads uncorrectable is read once more, and is not resident
if that fails too (R229). `ecc` gives what the first and the second read of a granule find. -/
def State.loadGranules (s : State) (q : Nat) (m : List Seg) (l : List Nat) (ecc : State → Nat → Bool → Ecc) : State :=
  (l.filter fun g => !(s.seq q).has g).foldl (fun x g =>
    match segOf m (64 * g) with
    | none => x
    | some sg =>
      if x.refillOk q sg g = false then x
      else
        let r := x.useFree.eccRead (sg.granuleAt g) 2560 reqRefill (ecc x g false)
        let r2 := if r.2 then r.1.eccRead (sg.granuleAt g) 2560 reqRefill (ecc x g true) else r
        if r2.2 then r2.1 else r2.1.fillGranule q sg g) s

/-- Where no command says what the reads of granules find: a free value at the first read, and at the second no error but that of
a poisoned word. -/
def freeReads (x : State) (_ : Nat) (second : Bool) : Ecc := if second then .clean else freeEcc x.free

/-- The hint windows of the segment that is entered at a resident granule are resident with it, so that a hinted target always is
(R221; DESIGN CHOICE, assumption 73). -/
def State.windowsLoaded (s : State) (q : Nat) (m : List Seg) (a : Nat) : State :=
  if (s.seq q).has (a / 64) && !s.rb .hbm 0 Off.hbmStat 10 then s.loadGranules q m (windowsAt m a) freeReads else s

/-- The starvation cause clears (R227): the next vector's granule and the following one are resident, or that granule
alone where it is the last of its segment. -/
def State.starveClear (s : State) (q : Nat) (m : List Seg) : Bool :=
  let x := s.seq q
  let g := x.next / 64
  match segOf m x.next with
  | some sg => x.has g && (!sg.covers (64 * (g + 1)) || x.has (g + 1))
  | none => false

/-- Period of set `t` as copied into the stalls at the start of the run (R139). -/
def SeqSt.period (x : SeqSt) (t : Nat) : Nat := (x.cfg.periods[t]?.getD 40000).toNat

/-- Period of the vector last issued. -/
def State.lastPeriod (s : State) (q : Nat) : Nat :=
  match (s.seq q).vectorAt (s.rf .seq q Off.seqPc 0 24) with
  | some w => (s.seq q).period (nfld w 286 5)
  | none => 1

/-- SEQ_STARVE_CYC at the present tick (R227): a starvation hold counts each whole period as it elapses. -/
def State.starveCyc (s : State) (q : Nat) : Nat :=
  let x := s.seq q
  let cyc := if x.starving ∧ s.seqState q = sHold then (s.tick * 1250 - x.vtime) / s.lastPeriod q else 0
  (s.rd2 .seq q Off.seqStarveCycLo Off.seqStarveCycHi + cyc) % 2 ^ 48

/-- A hold ends: the starved cycles are kept. -/
def State.starveCount (s : State) (q : Nat) : State := s.wr2 .seq q Off.seqStarveCycLo Off.seqStarveCycHi (s.starveCyc q)

/-! ### Register writes -/

/-- A write of SEQ_STRM_CTRL: PANIC_LVL below 8 is refused whole; POLICY and PANIC_LVL are applied even when PRIME is
refused (R230, R232). A new PANIC_LVL is judged at once. -/
def strmCtrlWrite (q : Nat) (v : Word) (s : State) : State :=
  let o := Off.seqStrmCtrl
  if fld v 8 8 < 8 then s.err .seq q errValue o
  else
    let s0 := (s.wb .seq q o 1 (tbit v 1)).wf .seq q o 8 8 (fld v 8 8)
    let s1 := if s.seqState q ≠ sRun ∧ s.seqState q ≠ sHold then s0
      else match (s.seq q).map with
        | some m => s0.panicUpdate q m (s.seq q).next
        | none => s0
    if tbit v 0 = false then s1
    else if s.pageEn .seq q = false then s1.err .seq q errDisabled o
    else if s.seqActive q then s1.err .seq q errState o
    else if s.mstate q = mMapping then s1
    else
      let s2 := s1.setSeq q { s1.seq q with map := none, resident := [], recent := [], retried := [] }
      (s2.startResult .seq q Off.seqPrimeResult).setMstate q mMapping

/-- A write of SEQ_START_ADDR: takes effect at the next start; with a valid map and STATE IDLE the start window is
loaded again (R213). -/
def startAddrWrite (q : Nat) (v : Word) (s : State) : State :=
  let s1 := s.plainWrite .seq q Off.seqStartAddr v
  if s.seqActive q = false ∧ (s.mstate q = mReady ∨ s.mstate q = mFilling) then (s1.setMstate q mFilling).evictIdle q else s1

/-- A write of the segment directory registers (R216, R230, R81): `which` 0 SEQ_SDIR_LO, 1 SEQ_SDIR_HI, 2 SEQ_SDIR_N. -/
def sdirWrite (r : Requester) (q which : Nat) (v : Word) (s : State) : State :=
  let o := match which with | 0 => Off.seqSdirLo | 1 => Off.seqSdirHi | _ => Off.seqSdirN
  if s.seqActive q ∨ s.mstate q = mMapping then s.err .seq q errState o
  else
    let s1 :=
      match which with
      | 0 => s.stageWrite r .seq q o v
      | 1 =>
        let lo := s.staged r .seq q Off.seqSdirLo
        ((s.plainWrite .seq q Off.seqSdirLo lo).plainWrite .seq q o v).unstage .seq q Off.seqSdirLo
      | _ => s.plainWrite .seq q o v
    (s1.setSeq q { s1.seq q with map := none, resident := [], recent := [], retried := [] }).setMstate q mNomap

/-! ### Ending a run -/

/-- SEQ_RESULT codes (R203). -/
def cHalted : Nat := 0
def cStopped : Nat := 1
def cAborted : Nat := 2
def cOpcode : Nat := 3
def cOperand : Nat := 4
def cStack : Nat := 5
def cAddr : Nat := 6
def cStarved : Nat := 7
def cPreempted : Nat := 8
def cSite : Nat := 9

/-- The run enters DRAIN with the given end (R198, R200). A STOP in a calibration gap ends the gap, and a step in it (R473);
where a run ends otherwise, a step in progress completes and its channels take the end state then (R201). -/
def State.endRun (s : State) (q : Nat) (e : RunEnd) : State :=
  let s0 := s.starveCount q
  let s1 := (s0.setSeq q { s.seq q with
    ending := some e, thermSeg := false, thermVec := false, gap := none, starving := false }).setSeqState q sDrain
  if (s.seq q).gap.isSome ∧ e.code = cStopped then
    s1.farAbort fun x => x.src = .calgap && (onesOf x.mask 16).any fun c => fld (s.following (16 * x.stall + c)) 8 3 == q
  else s1

/-! ### Commands -/

/-- SEQ_STRM_CTRL written with PRIME = 1 and its other fields unchanged (R211). -/
def execPrime (r : Requester) (q : Fin 8) (s : State) : Result :=
  let v := putBit (s.rd .seq q Off.seqStrmCtrl) 0 true
  .next (s.guarded r .seq q Off.seqStrmCtrl v (strmCtrlWrite q v))

/-- A prime fails with a code and a directory index (R211, R232). -/
def State.primeFail (s : State) (q code idx : Nat) : State :=
  ((s.storeResult .seq q Off.seqPrimeResult (code * 2 ^ 8 + idx * 2 ^ 20)).setMstate q mNomap).err .seq q 19 Off.seqStrmCtrl

/-- The prime ends (R211). `errs` names the reads that find an error. The start window is read last, and an uncorrectable error
there, which reading again does not mend (R229), ends the prime with MEM_ERR like one on any other read; the IDX that R232
gives no value for is then a free value (assumption 64). In a pause of the hayloft the reads wait (R550). -/
def execPrimeDone (q : Fin 8) (errs : List (PrimeRead × Ecc)) (s : State) : Result :=
  if s.mstate q ≠ mMapping ∨ s.rb .hbm 0 Off.hbmStat 10 then .next s
  else
    let s0 := s.primeReads q errs
    match s.primeCheck q errs with
    | (0, _, m) =>
      let w := s.startWindow q m
      let s1 := (s0.setSeq q { s0.seq q with map := some m }).loadGranules q m w fun _ g second => eccOf errs (PrimeRead.isGranule g second)
      if w.all fun g => (s1.seq q).has g then .next ((s1.storeResult .seq q Off.seqPrimeResult 0).setMstate q mReady)
      else
        let s2 := s1.setSeq q { s1.seq q with map := none, resident := [] }
        .next (s2.useFree.primeFail q 0xB (Config.freeNat s2.free % 1024))
    | (c, i, _) => .next (s0.primeFail q c i)

def execStartAddrWrite (r : Requester) (q : Fin 8) (addr : BitVec 24) (s : State) : Result :=
  let v := word addr.toNat
  .next (s.guarded r .seq q Off.seqStartAddr v (startAddrWrite q v))

/-- The start window is resident (R213), beside what the issue history keeps (R219). A granule of it that reads uncorrectable
twice keeps MSTATE in FILLING (R229). -/
def execStartWindowLoaded (q : Fin 8) (s : State) : Result :=
  let x := s.seq q
  match x.map with
  | some m =>
    if s.mstate q = mFilling ∧ s.seqActive q = false ∧ (segOf m (s.rf .seq q Off.seqStartAddr 0 24)).isSome ∧
        s.rb .hbm 0 Off.hbmStat 10 = false then
      let w := s.startWindow q m
      let s1 := (s.setSeq q { x with retried := [] }).loadGranules q m w freeReads
      .next (if w.all fun g => (s1.seq q).has g then s1.setMstate q mReady else s1)
    else .next s
  | none => .next s

/-- SEQ_SDIR_LO, SEQ_SDIR_HI or SEQ_SDIR_N (0 to 2) written (R216). -/
def execSdirWrite (r : Requester) (q : Fin 8) (which : Fin 3) (v : Word) (s : State) : Result :=
  let o := match which.val with | 0 => Off.seqSdirLo | 1 => Off.seqSdirHi | _ => Off.seqSdirN
  .next (s.guarded r .seq q o v (sdirWrite r q which v))

/-- A requested granule arrives, or its read finds an uncorrectable error: once it is requested again, the second time
the run ends (R222, R227, R229). In a pause of the hayloft the refill port waits (R550). -/
def execGranuleResident (q : Fin 8) (g : Fin 262144) (ecc : Ecc) (s : State) : Result :=
  let x := s.seq q
  match x.map with
  | none => .next s
  | some m =>
    if s.mstate q ≠ mStreaming ∨ s.seqState q = sDrain ∨ x.has g ∨ s.rb .hbm 0 Off.hbmStat 10 ∨
        (s.wanted q m x.next).contains g.val = false then .next s
    else
      match segOf m (64 * g.val) with
      | none => .next s
      | some sg =>
        let rd := s.eccRead (sg.granuleAt g) 2560 reqRefill ecc
        let s1 := rd.1
        if s.refillOk q sg g = false then .next s
        else if rd.2 then
          if x.retried.contains g.val then
            let s2 := s1.wr .seq q Off.seqStrmFault (word (64 * g.val + 2 * 2 ^ 24))
            .next (s2.endRun q ⟨cAddr, s.rf .seq q Off.seqPc 0 24, true, true⟩)
          else .next (s1.setSeq q { x with retried := g.val :: x.retried })
        else
          let s3 := (s1.fillGranule q sg g).panicUpdate q m x.next
          if s3.starveClear q m then
            .next ((s3.wb .seq q Off.seqStat 4 false).wb .seq q Off.seqStrmStat 5 false)
          else .next s3

end Sys2Proof.Machine
end

