-- ==== Sys2Proof/Machine/Sites.lean ====
section
/-!
DEFINITION. Sites, Predication and Fail Capture (R233 to R270): the site reducer, site-result entries, the catch unit,
conditions of branches, and the commands of the site page.
-/

namespace Sys2Proof.Machine

/-- Sites of a 512-bit mask, rising. -/
def sitesOf (m : Nat) : List Nat := onesOf m 512

/-- The mask of a list of sites. -/
def siteMask (l : List Nat) : Nat := l.foldl (fun m i => m ||| 2 ^ i) 0

/-- Mask difference. -/
def andNot (a b : Nat) : Nat := a ^^^ (a &&& b)

/-- Sites with a judged fail in a vector (R252). -/
def VecRec.failMask (v : VecRec) : Nat := siteMask (v.fails.map Fail.site)

/-! ### Channels -/

/-- Channel of a STL_ASSIGN register at a BAR0 offset. -/
def assignChan (a : Nat) : Option Nat :=
  match pageAt a with
  | some ⟨.stl, st⟩ =>
    let o := a % 0x1000
    if 0x80 ≤ o ∧ o < 0xC0 then some (16 * st + (o - 0x80) / 4) else none
  | _ => none

/-- Assignments of the part with EN = 1: channel and word. -/
def State.assigned (s : State) : List (Nat × Word) :=
  s.regs.filterMap fun e =>
    match assignChan e.1 with
    | some ch => if tbit e.2 31 then some (ch, e.2) else none
    | none => none

/-- A channel and the sequencer that its assignment word names have one owner (R18). -/
def State.sameOwner (s : State) (e : Nat × Word) : Bool := s.ownerOf .stl (e.1 / 16) == s.ownerOf .seq (fld e.2 8 3)

/-- What every channel follows once a start of `q` is accepted (R20): the sequencer must be one of its owner's (R18). -/
def State.followAfter (s : State) (q : Nat) : List (Nat × Word) :=
  s.assigned.foldl (fun l e => if fld e.2 8 3 = q ∧ s.sameOwner e then Store.put l e.1 e.2 else l) s.follow

/-! ### Site results -/

/-- Bytes 4 to 31 of a site's entry (R261). -/
def siteEntry (x : Sites) (q run site : Nat) (final : Bool) : Nat :=
  let f := Store.get? x.first site
  let b := fun m => bit (natBit m site)
  let n := Store.getD (fun _ => 0) x.fcnt site
  let failed := bit (n != 0)
  let verdict := bit (n != 0 || natBit x.swto site || natBit x.setfail site)
  let g : FirstFail := f.getD ⟨0, 0, 0, 0, 0, false, false⟩
  packBytes
    [(4, 4, pack [(0, 9, site), (9, 3, q), (12, 1, bit final), (13, 1, verdict), (14, 1, failed), (15, 1, b x.starved),
        (16, 1, b x.swto), (17, 1, b x.setfail), (18, 1, b x.killed), (19, 1, bit f.isSome), (20, 1, b x.active),
        (21, 1, b x.caplost), (22, 1, b x.caplim), (23, 8, run)]),
      (8, 4, n), (12, 4, pack [(0, 24, g.addr), (24, 8, g.count)]), (16, 6, g.vcnt),
      (22, 2, Store.getD (fun _ => 0) x.lastSw site), (24, 6, g.tag),
      (30, 2, pack [(0, 11, g.chan), (11, 1, bit g.stbA), (12, 1, bit g.stbB)])]

/-- Verdict bits of all sites (R256). -/
def Sites.failVerdict (x : Sites) : Nat := siteMask (x.fcnt.map Prod.fst) ||| x.swto ||| x.setfail

/-- RUN of the entries of the present run (R261). -/
def State.runNo (s : State) (q : Nat) : Nat := (s.rf .seq q Off.seqResultLo 0 8 + 1) % 256

/-! ### The catch unit -/

/-- The content of a capture record (R263). -/
def capBody (v : VecRec) (q site : Nat) : Nat :=
  let fs := v.fails.filter fun f => f.site == site
  packBytes
    [(0, 6, v.tag),
      (6, 2, pack [(0, 9, site), (9, 1, bit (fs.any fun f => !f.stbB)), (10, 1, bit (fs.any Fail.stbB)), (11, 3, q)]),
      (8, 8, fs.foldl (fun m f => m ||| 2 ^ f.col) 0)]

/-- A counted fail of a site produces a capture record, unless its limit is reached; the catch unit buffers 16,384
(R262, R265). -/
def State.capture (s : State) (q : Nat) (v : VecRec) (site : Nat) : State :=
  let x := s.seq q
  let n := Store.getD (fun _ => 0) x.sites.capCnt site
  if tbit x.cfg.siteCtrl 1 = false then s
  else if x.cfg.capLimit ≠ 0 ∧ x.cfg.capLimit ≤ n then
    s.setSeq q { x with sites := { x.sites with caplim := x.sites.caplim ||| 2 ^ site } }
  else
    let s1 := s.setSeq q { x with sites := { x.sites with capCnt := Store.put x.sites.capCnt site (satAdd 0xFFFF n 1) } }
    if 16384 ≤ s1.catBuf.length then
      let y := s1.seq q
      let s2 := s1.setSeq q { y with sites := { y.sites with caplost := y.sites.caplost ||| 2 ^ site } }
      ((s2.sat .site q Off.capDrop 0 32 1).sat .cat 0 Off.catDrop 0 32 1).event .site q 3
    else
      let s2 : State := { s1 with catBuf := s1.catBuf ++ [⟨q, site, capBody v q site⟩] }
      s2.wr .cat 0 Off.catPeak (word (max (s2.rd .cat 0 Off.catPeak).toNat s2.catBuf.length))

/-! ### The site reducer -/

/-- A counted fail of one site in vector `v` (R253, R254). -/
def Sites.count (x : Sites) (v : VecRec) (site : Nat) : Sites :=
  let fs := v.fails.filter fun f => f.site == site
  let chans := (fs.map Fail.chan).eraseDups
  let low := chans.foldl min 2047
  let ff : FirstFail :=
    { vcnt := v.index, addr := v.addr, tag := v.tag, chan := low, count := min 255 chans.length
      stbA := fs.any fun f => !f.stbB, stbB := fs.any Fail.stbB }
  { x with
    fcnt := Store.put x.fcnt site (satAdd (2 ^ 32 - 1) (Store.getD (fun _ => 0) x.fcnt site) 1)
    first := if (Store.get? x.first site).isSome then x.first else Store.put x.first site ff }

/-- A vector leaves the pipeline: its clears, its fails, SETFAIL and its POST snapshot, in that order (R251). -/
def State.retire (s : State) (q : Nat) (v : VecRec) : State :=
  let x := (s.seq q).sites
  let op := v.siteop
  let fail := v.failMask
  let st := if op.testBit 0 then andNot x.sticky v.active else x.sticky
  let ff := if op.testBit 1 then Store.keep (fun i => !natBit v.active i) x.first else x.first
  let x1 := { x with sticky := st ||| fail, first := ff }
  let s1 := s.setSeq q { s.seq q with sites := x1 }
  let s2 :=
    if op.testBit 2 then s1
    else (sitesOf fail).foldl (fun y i =>
      (y.setSeq q { y.seq q with sites := (y.seq q).sites.count v i }).capture q v i) s1
  let y := s2.seq q
  let s3 := if op.testBit 4 then s2.setSeq q { y with sites := { y.sites with setfail := y.sites.setfail ||| v.active } } else s2
  match v.post with
  | none => s3
  | some p =>
    let z := s3.seq q
    if 2 ≤ z.snaps.length then (s3.sat .site q Off.sitePostDrop 0 16 1).event .site q 4
    else
      let snap := { z.sites with active := p.active, killed := p.killed, swto := p.swto, starved := p.starved, lastSw := p.lastSw }
      s3.setSeq q { z with snaps := z.snaps ++ [(sitesOf v.active).map fun i => siteEntry snap q (s3.runNo q) i false] }

/-- Every vector in the pipeline leaves it (R199). -/
def State.retireAll (s : State) (q : Nat) : State :=
  let p := (s.seq q).pipe
  let s1 := p.foldl (fun x v => x.retire q v) s
  s1.setSeq q { s1.seq q with pipe := [] }

/-! ### Conditions -/

/-- The sites that show the selected state in the vector that a condition reads (R178, R182, R238). -/
inductive Source where
  | fail
  | sticky
  | event (src : Nat)
  deriving DecidableEq, Repr

/-- An event source outside its encoding (R182, R238). -/
def badEvent (src : Nat) : Bool := (decide (4 ≤ src) && decide (src < 8)) || decide (0x18 ≤ src) || decide (31 < src)

/-- All sites. -/
def allSites : Nat := 2 ^ 512 - 1

/-- Sites with the state, as of record `v` (R178, R181, R239), and the sites that take part. -/
def stateOf (x : Sites) (v : VecRec) (src : Source) : Nat × Nat :=
  match src with
  | .fail => (v.failMask, allSites)
  | .sticky => (x.sticky, allSites)
  | .event n =>
    if n < 4 then (if v.evIn.testBit n then allSites else 0, allSites)
    else if n < 16 then v.slots[n - 8]?.getD (0, 0)
    else (if v.flags.testBit (n - 16) then allSites else 0, allSites)

/-- ANY or ALL over the active sites that take part (R179, R183). -/
def anyAll (active : Nat) (all : Bool) (p : Nat × Nat) : Bool :=
  let a := active &&& p.2
  if all then a != 0 && a &&& p.1 == a else a &&& p.1 != 0

/-- The condition of a branch in a vector whose pipeline record is `h`; with none, it is false (R180). -/
def branchCond (x : Sites) (h : Option VecRec) (src : Source) (all : Bool) : Bool :=
  match h with
  | none => false
  | some v => anyAll x.active all (stateOf x v src)

/-- Per-site condition of PIF and SEND (R238, R239): the sites for which it is true. -/
def siteCond (x : Sites) (h : Option VecRec) (src : Source) (absent : Bool) : Nat :=
  let present :=
    match h with
    | none => 0
    | some v =>
      let p := stateOf x v src
      p.1 &&& p.2 &&& v.active
  if absent then andNot allSites present else present

/-! ### Register writes -/

/-- A ring number that a page may name: a ring of the page's owner, else OWNER (R203, R269). -/
def State.ringRefOk (s : State) (k : PageKind) (i n : Nat) : Bool := s.ringOwner n == s.ownerOf k i

/-- A write of SITE_RING (R269). -/
def siteRingWrite (q : Nat) (v : Word) (s : State) : State :=
  if s.ringRefOk .site q (fld v 0 15) then s.plainWrite .site q Off.siteRing v else s.err .site q errOwner Off.siteRing

/-- A write of CAP_SIZE: 16 to 34 (R269). -/
def capSizeWrite (q : Nat) (v : Word) (s : State) : State :=
  if fld v 0 6 < 16 ∨ 34 < fld v 0 6 then s.err .site q errValue Off.capSize else s.plainWrite .site q Off.capSize v

/-! ### Commands -/

/-- Offer the entries of a snapshot or of a drain, in order (R257, R259, R260). -/
def State.postSites (s : State) (q : Nat) (bodies : List Nat) : State :=
  bodies.foldl (fun x b => x.post (x.seq q).cfg.siteRing (.site q) false 0x01 b) s

/-- The oldest waiting snapshot is posted (R259). -/
def execSnapshotPost (q : Fin 8) (s : State) : Result :=
  match (s.seq q).snaps with
  | [] => .next s
  | h :: t => .next ((s.setSeq q { s.seq q with snaps := t }).postSites q h)

/-- A record that leaves the catch unit is written, or dropped because the capture buffer of its run is full (R264) or is not in a
CAPTURE region of the owner any more (R590; DESIGN CHOICE, assumption 87). Its 16 bytes are a part of a word, which is read and
merged; what that read finds is a free value (R552, R553, R712; assumption 74). -/
def State.capWrite (s : State) (c : CapRec) : State :=
  let q := c.seq
  let x := s.seq q
  let size := 2 ^ x.cfg.capSize
  let p := s.rd2 .site q Off.capWptrLo Off.capWptrHi
  let served := s.inRegion (s.ownerOf .seq q) [captureKind] (x.cfg.capBase + p % size) 16
  if (size ≤ p ∧ tbit x.cfg.siteCtrl 2 = false) ∨ served = false then
    let s1 := (s.sat .site q Off.capDrop 0 32 1).wb .site q Off.capStat 0 true
    s1.setSeq q { x with sites := { x.sites with caplost := x.sites.caplost ||| 2 ^ c.site } }
  else
    let s1 := s.useFree.hayMerge (s.ownerOf .seq q) (x.cfg.capBase + p % size) (bytesOf 16 c.body) reqRing (freeEcc s.free)
    let s2 := (s1.inc .site q Off.capCnt 0 32 1).wr2 .cat 0 Off.catRecLo Off.catRecHi
      ((s1.rd2 .cat 0 Off.catRecLo Off.catRecHi + 1) % 2 ^ 48)
    let around := decide (p = 0) && (s.rd .site q Off.capCnt).toNat != 0
    let s3 := s2.wr2 .site q Off.capWptrLo Off.capWptrHi (if size ≤ p + 16 ∧ tbit x.cfg.siteCtrl 2 then 0 else p + 16)
    if around then s3.wb .site q Off.capStat 1 true else s3

/-- The records of sequencer `q` that are still in the catch unit are written, as R266 promises for every record of a run,
before what they need goes: a START of the next run, or a reset of the site page (assumption 65). -/
def State.capFlush (s : State) (q : Nat) : State :=
  (s.catBuf.filter fun c => c.seq == q).foldl State.capWrite { s with catBuf := s.catBuf.filter fun c => c.seq != q }

/-- The oldest record in the catch unit leaves it. In a pause of the hayloft records wait (R550). -/
def execCaptureRecordWritten (s : State) : Result :=
  match s.catBuf with
  | [] => .next s
  | c :: t => if s.rb .hbm 0 Off.hbmStat 10 then .next s else .next (State.capWrite { s with catBuf := t } c)

/-- Every record of the last run is in the hayloft (R266). -/
def execCaptureFlushed (q : Fin 8) (s : State) : Result :=
  if (s.seq q).ran ∧ s.seqActive q = false ∧ (s.catBuf.all fun c => c.seq != q.val) then
    .next ((s.wb .site q Off.capStat 2 true).event .site q 2)
  else .next s

end Sys2Proof.Machine
end

