-- ==== Sys2Proof/Machine/Apg.lean ====
section
/-!
DEFINITION. Algorithmic Pattern Generators (R271 to R293): address arithmetic, the order of work in one vector, scramble,
data and column map, and the checks of its registers.
-/

namespace Sys2Proof.Machine

/-- Limits and stride of an address register (R276). -/
structure ApgLim where
  lo : Nat
  hi : Nat
  stride : Nat

/-- INC with its carry (R276). -/
def ApgLim.inc (l : ApgLim) (v : Nat) : Nat × Bool := if v = l.hi then (l.lo, true) else (v + 1, false)

/-- DEC with its carry (R276). -/
def ApgLim.dec (l : ApgLim) (v : Nat) : Nat × Bool := if v = l.lo then (l.hi, true) else (v - 1, false)

/-- ADD_STRIDE with its carry (R276). -/
def ApgLim.add (l : ApgLim) (v : Nat) : Nat × Bool :=
  if l.hi < v + l.stride then (v + l.stride - (l.hi + 1 - l.lo), true) else (v + l.stride, false)

/-- SUB_STRIDE with its carry (R276). -/
def ApgLim.sub (l : ApgLim) (v : Nat) : Nat × Bool :=
  if v < l.lo + l.stride then (v + (l.hi + 1 - l.lo) - l.stride, true) else (v - l.stride, false)

/-- XOP (R274). -/
def xOp (l : ApgLim) (op v : Nat) : Nat × Bool :=
  match op with
  | 1 => l.inc v
  | 2 => l.dec v
  | 3 => (l.lo, false)
  | 4 => (l.hi, false)
  | 5 => l.add v
  | 6 => l.sub v
  | _ => (v, false)

/-- YOP, with the carry of X (R274). -/
def yOp (l : ApgLim) (op v : Nat) (xc : Bool) : Nat × Bool :=
  match op with
  | 1 => l.inc v
  | 2 => l.dec v
  | 3 => (l.lo, false)
  | 4 => (l.hi, false)
  | 5 => if xc then l.inc v else (v, false)
  | 6 => if xc then l.dec v else (v, false)
  | 7 => l.add v
  | _ => (v, false)

/-- ZOP, with the carry of Y (R274). -/
def zOp (l : ApgLim) (op v : Nat) (yc : Bool) : Nat :=
  match op with
  | 1 => (l.inc v).1
  | 2 => if yc then (l.inc v).1 else v
  | 3 => l.lo
  | _ => v

/-- DOP (R274). -/
def dOp (op : Nat) (inv : Bool) : Bool :=
  match op with
  | 1 => !inv
  | 2 => false
  | 3 => true
  | _ => inv

/-- Limits of X, Y and Z of sequencer `q` (R276, R293). -/
def State.limX (s : State) (q : Nat) : ApgLim :=
  ⟨s.rf .apg q Off.apgXmin 0 20, s.rf .apg q Off.apgXmax 0 20, s.rf .apg q Off.apgXstride 0 21⟩
def State.limY (s : State) (q : Nat) : ApgLim :=
  ⟨s.rf .apg q Off.apgYmin 0 20, s.rf .apg q Off.apgYmax 0 20, s.rf .apg q Off.apgYstride 0 21⟩
def State.limZ (s : State) (q : Nat) : ApgLim := ⟨s.rf .apg q Off.apgZrng 0 8, s.rf .apg q Off.apgZrng 8 8, 1⟩

/-- Steps 3 and 4 of R277: the state after one issued vector. -/
def apgStep (lx ly lz : ApgLim) (op : Nat) (a : Apg) : Apg :=
  let aux := nfld op 10 2
  let b : Apg :=
    if aux = 2 then { a with x := a.sx, y := a.sy, z := a.sz, inv := a.sinv, xc := false, yc := false }
    else
      let x := xOp lx (nfld op 0 3) a.x
      let y := yOp ly (nfld op 3 3) a.y x.2
      { a with x := x.1, xc := x.2, y := y.1, yc := y.2, z := zOp lz (nfld op 6 2) a.z y.2, inv := dOp (nfld op 8 2) a.inv }
  if aux = 1 then { b with sx := b.x, sy := b.y, sz := b.z, sinv := b.inv } else b

/-- The APG address L (R272). -/
def Apg.addr (a : Apg) : Nat := pack [(0, 20, a.x), (20, 20, a.y), (40, 8, a.z)]

/-- Bit of L that a selector names; 63 is the constant 0 (R280, R283). -/
def selBit (l sel : Nat) : Bool := decide (sel < 48) && l.testBit sel

/-- The pin address P (R280). -/
def State.pinAddr (s : State) (q l : Nat) : Nat :=
  maskOf 48 fun n =>
    let w := s.rd .apg q (Off.apgScr n)
    xor (selBit l (fld w 0 6)) (tbit w 15 && selBit l (fld w 8 6))

/-- Selector `j` of the topology index (R283). -/
def State.topoSel (s : State) (q j : Nat) : Nat :=
  if j < 4 then s.rf .apg q Off.apgTopoSelLo (8 * j) 6 else s.rf .apg q Off.apgTopoSelHi (8 * (j - 4)) 6

/-- The data word D (R282, R283). -/
def State.apgData (s : State) (q : Nat) (a : Apg) : Nat :=
  let l := a.addr
  let b :=
    match s.rf .apg q Off.apgDctrl 0 2 with
    | 0 => (s.rd .apg q Off.apgDbg).toNat
    | 1 => a.x
    | 2 => a.y
    | _ => a.x ^^^ a.y
  let k := maskOf 8 fun j => selBit l (s.topoSel q j)
  let topo := s.rb .apg q Off.apgDctrl 2 && s.rb .apg q (Off.apgTopo (k / 32)) (k % 32)
  (b ^^^ (if topo then 0xFFFFFFFF else 0)) ^^^ (if a.inv then 0xFFFFFFFF else 0)

/-- The issued code of column `c` (R284). -/
def mapCode (w : Word) (p d code : Nat) : Nat :=
  let i := fld w 8 6
  match fld w 0 2 with
  | 1 => if xor (p.testBit i) (tbit w 20) then code ^^^ fld w 16 4 else code
  | 2 => if xor (d.testBit i) (tbit w 20) then code ^^^ fld w 16 4 else code
  | _ => code

/-- The codes of the 64 columns as issued, from the vector's own codes (R277, R284, R287). -/
def State.issuedCode (s : State) (q : Nat) (bypass : Bool) (a : Apg) (codes c : Nat) : Nat :=
  let code := nfld codes (4 * c) 4
  if bypass then code
  else
    let w := s.rd .apg q (Off.apgCmap c)
    if fld w 0 2 = 0 then code else mapCode w (s.pinAddr q a.addr) (s.apgData q a) code

/-- An accepted START loads the APG (R273). -/
def State.apgStart (s : State) (q : Nat) : Apg :=
  let x := s.rf .apg q Off.apgXinit 0 20
  let y := s.rf .apg q Off.apgYinit 0 20
  let z := s.rf .apg q Off.apgZrng 16 8
  ⟨x, y, z, false, false, false, x, y, z, false⟩

/-- The conditions of R288. -/
def State.apgRangeOk (s : State) (q : Nat) : Bool :=
  let ok := fun (l : ApgLim) i => decide (l.lo ≤ i) && decide (i ≤ l.hi) && decide (1 ≤ l.stride) &&
    decide (l.stride ≤ l.hi + 1 - l.lo)
  let z := s.limZ q
  let zi := s.rf .apg q Off.apgZrng 16 8
  ok (s.limX q) (s.rf .apg q Off.apgXinit 0 20) && ok (s.limY q) (s.rf .apg q Off.apgYinit 0 20) &&
    decide (z.lo ≤ zi) && decide (zi ≤ z.hi)

/-- A selector that is neither a bit of L nor 63 (R280, R283). -/
def badSel (n : Nat) : Bool := decide (48 ≤ n) && n != 63

/-- A value outside the encoding of an APG register (R280, R283, R284, R293). -/
def apgBad (o : Nat) (v : Word) : Bool :=
  if 0x54 ≤ o ∧ o ≤ 0x6C ∧ o ≠ Off.apgXstride then fld v 20 12 != 0
  else if o = Off.apgTopoSelLo ∨ o = Off.apgTopoSelHi then (upto 4).any fun j => badSel (fld v (8 * j) 6)
  else if 0x100 ≤ o ∧ o < 0x1C0 then badSel (fld v 0 6) || badSel (fld v 8 6)
  else if 0x200 ≤ o ∧ o < 0x300 then
    fld v 0 2 == 3 || (fld v 0 2 == 1 && decide (48 ≤ fld v 8 6)) || (fld v 0 2 == 2 && decide (32 ≤ fld v 8 6))
  else false

/-- A write of an APG register (R289). -/
def apgWrite (q o : Nat) (v : Word) (s : State) : State :=
  if s.seqActive q then s.err .apg q errState o
  else if apgBad o v then s.err .apg q errValue o
  else s.plainWrite .apg q o v

end Sys2Proof.Machine
end

