-- ==== Sys2Proof/Machine/VecCore.lean ====
section
/-!
DEFINITION. Pattern Sequencer (R164 to R203), first part: the vector word, one issued vector from its event sample to
the boundary after it, and what ends a run. The opcodes stand in Vectors.

One opcode command issues one vector: at its command the vector starts, its edges are placed, its opcode acts, and the
boundary after it is judged. Its edges fire later: each by its own command, or all that are due by the next vector's start
with the next vector's command.
-/

namespace Sys2Proof.Machine

/-! ### The vector word (R164, R165) -/

/-- A decoded vector word. -/
structure Vec where
  addr : Nat
  op : Nat
  operand : Nat
  tsel : Nat
  apgop : Nat
  siteop : Nat
  evsel : Nat
  codes : Nat
  deriving DecidableEq, Repr

/-- The fields of a 320-bit vector word. -/
def Vec.ofWord (addr w : Nat) : Vec :=
  ⟨addr, nfld w 256 6, nfld w 262 24, nfld w 286 5, nfld w 291 12, nfld w 303 8, nfld w 311 9, nfld w 0 256⟩

/-- The opcode is one of the table (R167). -/
def knownOp (k : Nat) : Bool := decide (k ≤ 0xD) || (decide (0x10 ≤ k) && decide (k ≤ 0x14))

/-- The vector at an address, if its granule is resident. -/
def State.fetchVec (s : State) (q a : Nat) : Option Vec := ((s.seq q).vectorAt a).map fun w => Vec.ofWord a w

/-! ### Ends of a run -/

/-- Vectors issued since the start (R203). -/
def State.vcnt (s : State) (q : Nat) : Nat := s.rd2 .seq q Off.seqVcntLo Off.seqVcntHi

/-- Address of the vector last issued. -/
def State.seqPcOf (s : State) (q : Nat) : Nat := s.rf .seq q Off.seqPc 0 24

/-- Edge `i` of column `col` of set `t` of sequencer `q`, as copied at the start of the run (R139). -/
def SeqSt.edge (x : SeqSt) (q t col i : Nat) : Nat := (Store.getD edgeReset x.cfg.edges (tsKey q t col i)).toNat

/-- Cancel the pending edges of every channel of a sequencer. -/
def State.cancelEdges (s : State) (q : Nat) : State :=
  (s.chansOf q).foldl (fun x c => x.setChan c.1 (x.chan c.1).cancel) s

/-- The strobe windows of the channels of a sequencer end at `t` (R198, R301): a strobe not yet sampled is discarded. -/
def State.cutWindows (s : State) (q t : Nat) : State :=
  (s.chansOf q).foldl (fun x c =>
    let h := x.chan c.1
    x.setChan c.1 { h with strobes := (h.strobes.filter fun p => decide (p.1 < t)).map fun p => (p.1, min p.2 t) }) s

/-- Some channel of the sequencer has an edge pending before `limit`. -/
def State.edgesPending (s : State) (q limit : Nat) : Bool :=
  (s.chansOf q).any fun c => (s.chan c.1).edges.any fun e => decide (e.time < limit)

/-- The drain is over (R199, R213, R249, R256, R257): the pipeline and the snapshots are delivered, FINAL entries are
posted, the channels take the end state, SEQ_RESULT is stored and the sequencer is IDLE. -/
def State.finishRun (s : State) (q : Nat) (e : RunEnd) : State :=
  let s1 := s.retireAll q
  let s2 := (s1.seq q).snaps.foldl (fun x b => x.postSites q b) s1
  let s3 := s2.setSeq q { s2.seq q with snaps := [], ending := none, startAt := none, stopping := false, left := 0
                                        thermSeg := false, thermVec := false }
  let x := (s3.seq q).sites
  let cfg := (s3.seq q).cfg
  let s4 := if e.final && tbit cfg.siteCtrl 0 then
      (s3.postSites q ((sitesOf x.startEnr).map fun i => siteEntry x q (s3.runNo q) i true)).event .site q 1
    else s3
  let s5 := (upto 16).foldl (fun y w => y.wr .site q (Off.siteFail w) (wordOf x.failVerdict w)) s4
  let s6 := (s5.chansOf q).foldl (fun y c =>
    let h := y.chan c.1
    y.setChan c.1 { h.cancel with window := if e.hiz then .hiz else h.window, inh := none }) s5
  let s7 := s6.setSeq q { s6.seq q with sites := { (s6.seq q).sites with stack := [] } }
  let s8 := (s7.storeResult .seq q Off.seqResultLo (e.code * 2 ^ 8)).wr .seq q Off.seqResultHi (word (e.info % 2 ^ 24))
  let s9 := ((s8.wf .seq q Off.seqCtrl 0 3 0).wf .seq q Off.seqStat 3 3 0).wb .seq q Off.seqStat 16 false
  let s10 := ((s9.wb .seq q Off.seqStrmStat 5 false).panicEnd q).setSeqState q sIdle
  (if s10.mstate q = mStreaming then (s10.setMstate q mFilling).evictIdle q else s10).event .seq q 1

/-- The vector last issued is in progress: in RUN, and in the drain of a run that it ends, until its period is over. -/
def State.inVector (s : State) (q : Nat) : Bool :=
  let x := s.seq q
  x.issued && (s.seqState q == sRun || (s.seqState q == sDrain && decide (s.tick * 1250 < x.vtime) &&
    (match x.ending with | some e => e.code == cHalted || e.code == cStopped || e.code == cStarved | none => false)))

/-- A run is cut off at once (R198, R200): pending edges are discarded, and strobes not yet sampled with them. The
vector cut off is the one last issued, whose APGOP is not applied (R291), or the next one if none has been issued since the
start or the last hold. A run that drains after its last vector has ended is not cut. -/
def State.cutRun (s : State) (q code : Nat) (final : Bool) : State :=
  let st := s.seqState q
  if st = sIdle ∨ (st = sDrain ∧ s.inVector q = false) then s
  else if st = sArmed then s.finishRun q ⟨code, s.rf .seq q Off.seqStartAddr 0 24, true, final⟩
  else
    let x := s.seq q
    let info := if x.issued then s.seqPcOf q else x.next
    let s1 := if s.inVector q then s.setSeq q { x with apg := x.apgPrev } else s
    ((s1.cancelEdges q).cutWindows q (s.tick * 1250)).endRun q ⟨code, info, true, final⟩

/-- A pen reset, M11 or a rank-1 event on every channel ends the run PREEMPTED, with no FINAL entry (R198, R257). -/
def State.seqPreempt (s : State) (q : Nat) : State := s.cutRun q cPreempted false

/-! ### The event sample (R181 to R185) -/

/-- The ready sites of a ready/busy slot, and the sites that take part, from the comparators at the vector start (R183). -/
def slotSample (obs : List Sample) (chans : List (Nat × Nat × Nat)) (w : Word) : Nat × Nat :=
  if tbit w 15 = false then (0, 0)
  else
    let mine := chans.filter fun c => c.2.1 == fld w 0 6
    let good := fun (c : Nat × Nat × Nat) =>
      let o := sampleAt obs c.1 .ready
      (if tbit w 8 then o.2 else o.1) == !tbit w 9
    let part := siteMask (mine.map fun c => c.2.2)
    let bad := siteMask ((mine.filter fun c => !good c).map fun c => c.2.2)
    (andNot part bad, part)

/-- The eight slots of an event sample. -/
def State.slots (s : State) (q : Nat) (obs : List Sample) : List (Nat × Nat) :=
  (upto 8).map fun n => slotSample obs (s.chansOf q) ((s.seq q).cfg.rbSel[n]?.getD 0)

/-- SEQ_EV_NOW as of an event sample (R203). -/
def evNow (active evIn flags : Nat) (slots : List (Nat × Nat)) : Word :=
  let f := fun all => maskOf 8 fun n => anyAll active all (slots[n]?.getD (0, 0))
  word (pack [(0, 4, evIn), (8, 8, f false), (16, 8, f true), (24, 8, flags)])

/-! ### Edges of one vector -/

/-- Dropped edges of a vector: time, channel, edge index (R142, R159). R159 speaks of drops on the same cycle and of the last
drop: taking the drops of one vector as those to compare, by the tick on which they would have fired, and letting a vector
placed later overwrite, is a DESIGN CHOICE (assumption 61). -/
def State.clash (s : State) (q idx : Nat) (drops : List (Nat × Nat × Nat)) : State :=
  if drops.isEmpty then s
  else
    let last := drops.foldl (fun m d => max m (d.1 / 1250)) 0
    let cands := drops.filter fun d => d.1 / 1250 == last
    let low := cands.foldl (fun m d => min m d.2.1) 2047
    let edge := ((cands.filter fun d => d.2.1 == low).getLastD (0, 0, 0)).2.2
    let s1 := (s.sat .tset q Off.seqClashCnt 0 32 drops.length).wr .tset q Off.seqClashLast (word (pack [(0, 11, low), (12, 3, edge)]))
    (s1.wr .tset q Off.seqClashVec (word idx)).event .tset q 1

/-- One channel takes a vector (R140 to R149, R188): its edges are placed, or it takes its inhibit state, in a gap too, where
the window of every channel closes (R26, R146, R234): one that the farrier has borrowed comes back to that state (R457). The
dropped edges are answered. -/
def State.placeChan (s : State) (q idx : Nat) (v : Vec) (gap : Bool) (active : Nat) (c : Nat × Nat × Nat) :
    State × List (Nat × Nat × Nat) :=
  let ch := c.1
  let h := s.chan ch
  let x := s.seq q
  if s.rankOut ch then (s.setChan ch { h.cancel with inh := none }, [])
  else if s.borrowed ch && !gap then (s.setChan ch h.cancel, [])
  else
    let f := x.cfg.formats[s.issuedCode q x.cfg.bypass x.apg v.codes c.2.1]?.getD 0
    let window := if gap then .hiz else h.window
    if natBit active c.2.2 = false then (s.setChan ch { h.cancel with window := window, inh := some (fld f 12 3) }, [])
    else if gap then (s.setChan ch { h.cancel with window := window, inh := none }, [])
    else
      let masked := s.rb .cmp (ch / 16) Off.cmpMask (ch % 16)
      let es := actingEdges f x.vtime idx (s.coefOf 3 (ch / 16)) masked (x.edge q v.tsel c.2.1)
      let e := x.edge q v.tsel c.2.1
      let h1 := { h with inh := none, strobes := h.strobes.filter fun p => decide (x.vtime ≤ p.2) }
      let h2 := if fld f 8 2 = 0 then h1 else { h1 with strobes := h1.strobes ++ [(x.vtime + e 4, x.vtime + e 5)] }
      let r := placeEdges (h2.prune x.vtime) false es
      (s.setChan ch r.1, r.2.map fun d => (d.1, ch, d.2))

/-- Every channel of the sequencer takes a vector. -/
def State.placeAll (s : State) (q idx : Nat) (v : Vec) (gap : Bool) (active : Nat) : State :=
  let r := (s.chansOf q).foldl (fun (a : State × List (Nat × Nat × Nat)) c =>
    let p := a.1.placeChan q idx v gap active c
    (p.1, a.2 ++ p.2)) (s, [])
  r.1.clash q idx r.2

/-- A failing strobe is recorded (R119, R127, R252): in its channel's counter and in the record of its own vector, which
is still in the pipeline. CMP_MASK counts as it stood at the start of that vector. -/
def State.recordFail (s : State) (q : Nat) (c : Nat × Nat × Nat) (e : Edge) : State :=
  let st := c.1 / 16
  let k := c.1 % 16
  if s.rankHeld c.1 || e.masked then s
  else
    let s1 := s.sat .cmp st (Off.cmpFcnt k) 0 32 1
    let x := s1.seq q
    s1.setSeq q { x with pipe := x.pipe.map fun r =>
      if r.index = e.vec then { r with fails := r.fails ++ [⟨c.1, c.2.2, c.2.1, e.idx == 5⟩] } else r }

/-- Fire every edge that is due before `limit`, the start of vector `cur`. -/
def State.fireAll (s : State) (q cur limit : Nat) (obs : List Sample) : State :=
  (s.chansOf q).foldl (fun x c =>
    let r := (x.chan c.1).fire c.1 (x.slewOf c.1) cur limit obs
    r.2.foldl (fun y e => y.recordFail q c e) (x.setChan c.1 r.1)) s

/-! ### Holds (R196, R226 to R228, R648, R649) -/

/-- Sites held by a starvation (R227). -/
def Sites.starve (x : Sites) (m : Nat) : Sites := { x with starved := x.starved ||| m }

/-- Issue enters a granule (R219): it becomes the newest of those issued, and what nothing keeps is evicted. -/
def State.enterGranule (s : State) (q a : Nat) : State :=
  let x := s.seq q
  match x.map with
  | none => s
  | some m =>
    if x.recent.head? = some (a / 64) then s
    else (s.setSeq q { x with recent := touchGranule x.recent (a / 64) }).evict q m a

/-- The boundary after vector `v`, whose site-active mask was `active` and whose run goes on at `x.next` (R206, R223,
R225 to R228, R648, R649). `inRep` holds within the repetitions of an RPT or CALGAP. -/
def State.boundary (s : State) (q : Nat) (v : Vec) (active : Nat) (inRep : Bool) : State :=
  let x := s.seq q
  match x.map with
  | none => s
  | some m =>
    let same := v.addr / 64 == x.next / 64
    let segCh := !inRep && ((segOf m v.addr).map Seg.base != (segOf m x.next).map Seg.base)
    let s1 := if segCh then s.inc .seq q Off.seqSegCnt 0 32 1 else s
    let s2 := ((if same then s1 else s1.evict q m x.next).windowsLoaded q m x.next).panicUpdate q m x.next
    let starves := !inRep && !(s2.seq q).has (x.next / 64)
    let therm := (x.thermSeg && segCh) || x.thermVec
    if starves && x.cfg.abortPolicy then s2.endRun q ⟨cStarved, x.next, true, true⟩
    else if !starves && !therm then s2
    else
      let y := s2.seq q
      let s3 := if starves then
          let a := s2.setSeq q { y with sites := y.sites.starve active, starving := true }
          let b := (a.wb .seq q Off.seqStat 4 true).wf .seq q Off.seqStrmStat 5 2 3
          (b.sat .seq q Off.seqStarveEvt 0 16 1).event .seq q 7
        else s2
      let s4 := if therm then
          let a := s3.wb .seq q Off.seqStat 5 true
          let b := if x.thermVec then a.sat .wvn 0 Off.wvnForcedHold 0 16 1 else a
          b.setSeq q { b.seq q with thermSeg := false, thermVec := false }
        else s3
      (s4.setSeqState q sHold).event .seq q 3

/-! ### One vector -/

/-- What an opcode decides: the next address, the stacks, the site masks, how often the vector is issued, and the exit
code of a HALT. -/
structure Ctl where
  next : Nat
  loops : List (Nat × Nat)
  calls : List Nat
  sites : Sites
  fromEndl : Bool
  count : Nat
  halt : Option Nat

/-- The decision of an opcode that falls through (R167). -/
def Ctl.fall (v : Vec) (x : SeqSt) : Ctl := ⟨v.addr + 1, x.loops, x.calls, x.sites, false, 1, none⟩

/-- KILL (R250): the active sites leave the run, and every saved mask. -/
def Sites.kill (x : Sites) (m : Nat) : Sites :=
  { x with
    enrolled := andNot x.enrolled m, active := andNot x.active m, killed := x.killed ||| m
    stack := x.stack.map fun e =>
      match e with
      | .cond a b p => .cond (andNot a m) (andNot b m) p
      | .loop a n c => .loop (andNot a m) n c }

/-- The first rule that the vector breaks (R713, items 1 to 3), if any: `bad` judges the opcode's own operand. -/
def State.vecFault (s : State) (q : Nat) (v : Vec) (bad : Bool) : Option Nat :=
  if knownOp v.op = false then some cOpcode
  else if (s.seq q).cfg.bypass = false ∧ (nfld v.apgop 0 3 = 7 ∨ nfld v.apgop 10 2 = 3) then some cOperand
  else if bad then some cOperand
  else none

/-- The run ends with the code of a program fault at `v` (R198, R713). -/
def State.progFault (s : State) (q : Nat) (v : Vec) (code : Nat) : State := s.endRun q ⟨code, v.addr, true, true⟩

/-- The next address is unmapped (R206): the run ends with FAULT_ADDR. -/
def State.addrFault (s : State) (q : Nat) (v : Vec) (next : Nat) : State :=
  (s.wr .seq q Off.seqStrmFault (word (next % 2 ^ 24 + 2 ^ 24))).progFault q v cAddr

/-- The vector is issued (R166 to R168): its start, its edges, its opcode's effect `fx`, its site and APG operation, and
the boundary after it. `first` tells the first issue of a repetition, `gap` a gap vector. -/
def State.runVec (s : State) (q : Nat) (v : Vec) (obs : List Sample) (c : Ctl) (first gap : Bool) (fx : State → State) : State :=
  let x := s.seq q
  let idx := s.vcnt q
  let active := x.sites.active
  let vend := x.vtime + x.period v.tsel
  let evIn := s.pins.evIn
  let flags := s.rf .seq q Off.seqSwflag 0 8
  let slots := s.slots q obs
  let tag := if x.cfg.bypass then 0 else x.apg.addr
  let record : VecRec := ⟨idx, v.addr, tag, active, v.siteop, [], evIn, flags, slots, none⟩
  let s1 := (s.atTick (x.vtime / 1250)).wr .seq q Off.seqEvNow (evNow active evIn flags slots)
  let s2 := s1.placeAll q idx v gap active
  let s3 := s2.setSeq q { s2.seq q with pipe := (s2.seq q).pipe ++ [record] }
  let sites1 := if v.siteop.testBit 5 then c.sites.kill active else c.sites
  let post := if v.siteop.testBit 3 && tbit x.cfg.siteCtrl 0 then some sites1 else none
  let apg := if x.cfg.bypass then x.apg else apgStep (s.limX q) (s.limY q) (s.limZ q) v.apgop x.apg
  let y := s3.seq q
  let left := if first then c.count - 1 else x.left - 1
  let s5 := s3.setSeq q { y with
    vtime := vend, next := if left = 0 then c.next else v.addr, left := left, fromEndl := c.fromEndl, issued := true
    loops := c.loops, calls := c.calls, apg := apg, apgPrev := x.apg
    gap := if gap then (if first then some (x.vtime, x.vtime + c.count * x.period v.tsel) else x.gap) else none
    sites := { sites1 with sticky := y.sites.sticky, setfail := y.sites.setfail, caplost := y.sites.caplost
                           caplim := y.sites.caplim, fcnt := y.sites.fcnt, first := y.sites.first, capCnt := y.sites.capCnt }
    pipe := y.pipe.map fun r => if r.index = idx then { r with post := post } else r }
  let s6 := (s5.wr .seq q Off.seqPc (word v.addr)).wr2 .seq q Off.seqVcntLo Off.seqVcntHi ((idx + 1) % 2 ^ 48)
  let s7 := (fx s6).enterGranule q v.addr
  match c.halt with
  | some code => s7.endRun q ⟨cHalted, code, x.cfg.endHiz, true⟩
  | none =>
    if x.stopping then s7.endRun q ⟨cStopped, v.addr, x.cfg.endHiz, true⟩
    else s7.boundary q v active (left != 0)

/-- The edges due before the vector start have fired and the vector that this one judges has left the pipeline (R177):
the state, and that vector's record. -/
def State.retireHead (s : State) (q : Nat) (obs : List Sample) : State × Option VecRec :=
  let s1 := s.fireAll q (s.vcnt q) (s.seq q).vtime obs
  let x := s1.seq q
  if x.pipe.length < 24 then (s1, none)
  else
    match x.pipe with
    | [] => (s1, none)
    | h :: t => ((s1.setSeq q { x with pipe := t }).retire q h, some h)

/-- The command of opcode `k`: with the sequencer in RUN, the next vector is issued if its opcode is `k`, and ends the run
if its opcode is reserved. `bad` judges the operand (R713, item 3), given the period; `flow` decides the stacks and the
next address, or names the fault; `fx` is the opcode's own effect, given the start of the vector. -/
def State.issue (s : State) (q k : Nat) (obs : List Sample) (bad : Vec → Nat → Bool)
    (flow : Vec → SeqSt → Option VecRec → Nat ⊕ Ctl) (fx : Vec → Nat → State → State) : State :=
  if s.seqState q ≠ sRun then s
  else
    let x := s.seq q
    match s.fetchVec q x.next with
    | none => s
    | some v =>
      if knownOp v.op ∧ v.op ≠ k then s
      else
        let first := x.left == 0
        let r := s.retireHead q obs
        match r.1.vecFault q v (bad v (x.period v.tsel)) with
        | some c => r.1.progFault q v c
        | none =>
          match flow v (r.1.seq q) r.2 with
          | .inl c => r.1.progFault q v c
          | .inr c =>
            if first ∧ c.halt = none ∧ ((x.map).bind fun m => segOf m c.next) = none then r.1.addrFault q v c.next
            else r.1.runVec q v obs c first (k == 0x0C) (fx v x.vtime)

/-- No operand check. -/
def noBad : Vec → Nat → Bool := fun _ _ => false

/-- No effect of its own. -/
def noFx : Vec → Nat → State → State := fun _ _ s => s

end Sys2Proof.Machine
end

