-- ==== Sys2Proof/Machine/Vectors.lean ====
section
/-!
DEFINITION. Pattern Sequencer (R164 to R203), second part: starting, stopping and holding a run, and one command for each
opcode.
-/

namespace Sys2Proof.Machine

/-! ### Starting (R192 to R195) -/

/-- START_MODE codes (R193). -/
def immediate : Nat := 0
def atTickMode : Nat := 1
def onEvent : Nat := 2

/-- Channels that will follow the sequencer once its start is accepted (R20): channel and assignment word. -/
def State.startChans (s : State) (q : Nat) : List (Nat × Word) :=
  (s.followAfter q).filter fun e => tbit e.2 31 && fld e.2 8 3 == q

/-- Start tick of AT_TICK mode. -/
def State.startTick (s : State) (q : Nat) : Nat := s.rd2 .seq q Off.seqStartTickLo Off.seqStartTickHi

/-- Enrolled sites as the registers hold them (R234). -/
def State.enrollMask (s : State) (q : Nat) : Nat :=
  (upto 16).foldl (fun m w => m + 2 ^ (32 * w) * (s.rd .site q (Off.siteEnroll w)).toNat) 0

/-- Base and size of the capture buffer (R264). -/
def State.capBaseOf (s : State) (q : Nat) : Nat :=
  s.rf .site q Off.capBaseLo 12 20 * 2 ^ 12 + s.rf .site q Off.capBaseHi 0 3 * 2 ^ 32

/-- The first condition of R192 that fails, in table order: page and error cause; `some (_, none)` is the case with no
error. A START is judged in the mode that holds, also while an accepted transition to another is pending, and the end of that
transition does not test R47 again; the same holds of arms and records (DESIGN CHOICE, assumption 75). -/
def State.startError (s : State) (q : Nat) : Option (PageKind × Option Nat) :=
  let m := s.modeOf (s.ownerOf .seq q)
  let chans := s.startChans q
  if s.pageEn .seq q = false then some (.seq, some errDisabled)
  else if s.seqActive q then some (.seq, none)
  else if m ≠ 8 ∧ m ≠ 9 then some (.seq, some errMode)
  else if m = 9 ∧ (chans.any fun e => s.rb .swm (e.1 / 16) Off.swmCurPmu (e.1 % 16) || s.tdrRun e.1) then some (.seq, some errMode)
  else if s.epochValid = false then some (.seq, some errState)
  else if (s.rd .tset q Off.seqTsStat).toNat ≠ 0 ∨ s.rb .tset q Off.seqTsChk 0 then some (.tset, some 16)
  else if s.mstate q ≠ mReady then some (.seq, some 18)
  else if s.rf .seq q Off.seqCtrl 4 2 = atTickMode ∧ s.startTick q < s.tick + 12800 then some (.seq, some 17)
  else none

/-- Channels of a site among the assignments of the part that follow some sequencer after the start. -/
def siteChans (l : List (Nat × Word)) (site : Nat) : List (Nat × Word) := l.filter fun e => tbit e.2 31 && fld e.2 16 9 == site

/-- The first condition of R235 that fails: its error cause. -/
def State.siteError (s : State) (q : Nat) : Option Nat :=
  let all := s.followAfter q
  let en := sitesOf (s.enrollMask q)
  let own := fun i => ((siteChans all i).filter fun e => fld e.2 8 3 == q).length
  if en.any fun i => decide (own i < 4) then some 16
  else if en.any fun i => (siteChans all i).any fun e => fld e.2 8 3 != q then some 17
  else if s.rb .site q Off.siteCtrl 1 ∧
      s.inRegion (s.ownerOf .seq q) [captureKind] (s.capBaseOf q) (2 ^ s.rf .site q Off.capSize 0 6) = false then some 18
  else none

/-- The settings that hold for the run. -/
def State.runCfg (s : State) (q : Nat) : RunCfg :=
  { endHiz := s.rb .seq q Off.seqCtrl 12, abortPolicy := s.rb .seq q Off.seqStrmCtrl 1
    onEvent := if s.rf .seq q Off.seqCtrl 4 2 = onEvent then some (s.rf .seq q Off.seqCtrl 8 2) else none
    markRing := s.rd .seq q Off.seqMarkRing, rbSel := (upto 8).map fun n => s.rd .seq q (Off.seqRbSel n)
    siteCtrl := s.rd .site q Off.siteCtrl, siteRing := s.rf .site q Off.siteRing 0 15, capBase := s.capBaseOf q
    capSize := s.rf .site q Off.capSize 0 6, capLimit := s.rf .site q Off.capLimit 0 16
    bypass := !s.pageEn .apg q, mode := s.rf .seq q Off.seqCtrl 4 2
    periods := (upto 32).map fun t => s.rd .tset q (Off.seqTsPer t)
    formats := (upto 16).map fun e => s.rd .tset q (Off.seqFmt e)
    edges := s.tsEdges.filter fun e => e.1 / 12288 == q }

/-- Registers that an accepted START clears (R192, R203, R232, R269, SEQ_CLASH_CNT). -/
def State.startClear (s : State) (q : Nat) : State :=
  let zero := fun (x : State) (e : PageKind × Nat) => x.wr e.1 q e.2 0
  let s1 := [(PageKind.seq, Off.seqVcntLo), (.seq, Off.seqVcntHi), (.seq, Off.seqMarkCnt), (.seq, Off.seqTrigCnt),
    (.seq, Off.seqPanicCnt), (.seq, Off.seqStarveEvt), (.seq, Off.seqStarveCycLo), (.seq, Off.seqStarveCycHi),
    (.seq, Off.seqSegCnt), (.tset, Off.seqClashCnt), (.site, Off.siteLost), (.site, Off.sitePostDrop), (.site, Off.capWptrLo),
    (.site, Off.capWptrHi), (.site, Off.capStat), (.site, Off.capCnt), (.site, Off.capDrop)].foldl zero s
  (s1.wf .seq q Off.seqStrmFault 24 4 0).wb .seq q Off.seqStrmStat 6 false

/-- An accepted START (R192 to R194, R236, R273). What the catch unit still holds of the run before is written first (R266). -/
def State.startRun (s0 : State) (q : Nat) : State :=
  let s := s0.capFlush q
  let cfg := s.runCfg q
  let en := s.enrollMask q
  let mode := s.rf .seq q Off.seqCtrl 4 2
  let s1 := { s with follow := s.followAfter q, lastTrig := Store.drop s.lastTrig q }
  let x := s1.seq q
  let x1 : SeqSt :=
    { x with
      cfg := cfg, startAt := none, next := s.rf .seq q Off.seqStartAddr 0 24, left := 0, fromEndl := false, issued := false
      stopping := false, loops := [], calls := [], pipe := [], ending := none, snaps := [], apg := s.apgStart q
      apgPrev := s.apgStart q, ran := true, runNum := s.runNo q
      sites := { Sites.idle with startEnr := en, enrolled := en, active := en }
      thermSeg := decide (s.rf .wvn 0 Off.wvnStat 0 2 = 2), thermVec := false, retried := [], starving := false }
  let s2 := ((s1.setSeq q x1).startResult .seq q Off.seqResultLo).startClear q
  let s3 := (s2.setMstate q mStreaming).setSeqState q sArmed
  let held := s3.farrierHolds q
  if mode = onEvent then s3
  else if mode = atTickMode then s3.setSeq q { s3.seq q with startAt := some (s.startTick q) }
  else if held then (s3.wb .seq q Off.seqStat 16 true).event .seq q 4
  else s3.setSeq q { s3.seq q with startAt := some (s.tick + 12800) }

/-- An accepted START shows the run-ahead granules that the start window has brought (R232). -/
def State.startShown (s : State) (q : Nat) : State :=
  match (s.seq q).map with
  | some m => s.panicUpdate q m (s.seq q).next
  | none => s

/-- START written 1 (R192, R235, R288). -/
def State.seqStart (s : State) (q : Nat) : State :=
  match s.startError q with
  | some (k, some e) => s.err k q e Off.seqCtrl
  | some (_, none) => s
  | none =>
    match s.siteError q with
    | some e => s.err .site q e Off.seqCtrl
    | none => if s.pageEn .apg q ∧ s.apgRangeOk q = false then s.err .apg q 16 Off.seqCtrl else (s.startRun q).startShown q

/-- A rising edge of EV_IN_k starts the lead of a sequencer ARMED in ON_EVENT mode (R193, R194). -/
def State.seqEdge (s : State) (k : Nat) : State :=
  (upto 8).foldl (fun x q =>
    let y := x.seq q
    if x.seqState q = sArmed ∧ y.cfg.onEvent = some k ∧ y.startAt = none ∧ x.rb .seq q Off.seqStat 16 = false then
      if x.farrierHolds q then (x.wb .seq q Off.seqStat 16 true).event .seq q 4
      else x.setSeq q { y with startAt := some (x.tick + 12800) }
    else x) s

/-! ### Stopping -/

/-- STOP written 1 (R198, R200, R201): at the boundary between two vectors it ends the run at once; before the first vector
of a run, or after a hold, has been issued, that vector is in progress and completes. The bit reads 1 until the drain ends
(R203), in a drain that runs already too. -/
def State.seqStop (s : State) (q : Nat) : State :=
  let st := s.seqState q
  let x := s.seq q
  if st = sIdle then s
  else if st = sDrain then s.wb .seq q Off.seqCtrl 1 true
  else if st = sArmed then s.finishRun q ⟨cStopped, s.rf .seq q Off.seqStartAddr 0 24, true, true⟩
  else
    let s1 := s.wb .seq q Off.seqCtrl 1 true
    if st = sRun ∧ x.issued = false then s1.setSeq q { x with stopping := true }
    else
      let s2 := if st = sHold then s1.atTick (x.vtime / 1250) else s1
      s2.endRun q ⟨cStopped, s.seqPcOf q, x.cfg.endHiz, true⟩

/-- ABORT written 1 (R198, R200, R203). -/
def State.seqAbort (s : State) (q : Nat) : State :=
  let st := s.seqState q
  if st = sIdle then s
  else if st = sArmed then s.cutRun q cAborted true
  else (s.wb .seq q Off.seqCtrl 2 true).cutRun q cAborted true

/-- A STOP written beside ABORT: ABORT ends the run, and STOP reads 1 until the drain ends (R201, R203). -/
def State.stopNoted (s : State) (q : Nat) (stop : Bool) : State :=
  if stop && s.seqState q == sDrain then s.wb .seq q Off.seqCtrl 1 true else s

/-- A write of SEQ_CTRL: START_MODE 0b11 is refused whole; ABORT wins over STOP (R201, R203). The spec gives no order of START
beside them: ABORT or STOP acts first, and START is then judged in the state that it leaves, so that one write can end an ARMED
run and start another (DESIGN CHOICE, assumption 80). -/
def seqCtrlWrite (q : Nat) (v : Word) (s : State) : State :=
  if fld v 4 2 = 3 then s.err .seq q errValue Off.seqCtrl
  else
    let s1 := ((s.wf .seq q Off.seqCtrl 4 2 (fld v 4 2)).wf .seq q Off.seqCtrl 8 2 (fld v 8 2)).wb .seq q Off.seqCtrl 12 (tbit v 12)
    let s2 := if tbit v 2 then (s1.seqAbort q).stopNoted q (tbit v 1) else if tbit v 1 then s1.seqStop q else s1
    if tbit v 0 then s2.seqStart q else s2

/-- A write of SEQ_START_TICK_LO or, `hi`, SEQ_START_TICK_HI, which commits both (R81). -/
def seqStartTickWrite (r : Requester) (q : Nat) (hi : Bool) (v : Word) (s : State) : State :=
  if hi then
    let lo := s.staged r .seq q Off.seqStartTickLo
    ((s.plainWrite .seq q Off.seqStartTickLo lo).plainWrite .seq q Off.seqStartTickHi v).unstage .seq q Off.seqStartTickLo
  else s.stageWrite r .seq q Off.seqStartTickLo v

/-- A write of SEQ_MARK_RING: a ring of the sequencer's owner (R203). -/
def markRingWrite (q : Nat) (v : Word) (s : State) : State :=
  if s.ringRefOk .seq q (fld v 0 15) then s.plainWrite .seq q Off.seqMarkRing v else s.err .seq q errOwner Off.seqMarkRing

/-! ### Commands of the run -/

/-- SEQ_CTRL written with START = 1 and its other fields unchanged (R192). -/
def execSeqStart (r : Requester) (q : Fin 8) (s : State) : Result :=
  let v := putFld (s.rd .seq q Off.seqCtrl) 0 3 1
  .next (s.guarded r .seq q Off.seqCtrl v (seqCtrlWrite q v))

/-- SEQ_CTRL written with STOP = 1 and its other fields unchanged (R198). -/
def execSeqStop (r : Requester) (q : Fin 8) (s : State) : Result :=
  let v := putFld (s.rd .seq q Off.seqCtrl) 0 3 2
  .next (s.guarded r .seq q Off.seqCtrl v (seqCtrlWrite q v))

/-- SEQ_CTRL written with ABORT = 1 and its other fields unchanged (R198). -/
def execSeqAbort (r : Requester) (q : Fin 8) (s : State) : Result :=
  let v := putFld (s.rd .seq q Off.seqCtrl) 0 3 4
  .next (s.guarded r .seq q Off.seqCtrl v (seqCtrlWrite q v))

/-- The start delay or the start tick is reached (R133, R147, R193, R194). R147 says that channels begin with their windows
closed; that this comes with vector 0 and not with the acceptance of START, so that a HOLD_LAST output goes on
while ARMED, is a DESIGN CHOICE (assumption 61). -/
def execVector0Begin (q : Fin 8) (s : State) : Result :=
  let x := s.seq q
  match x.startAt with
  | none => .next s
  | some t =>
    if s.seqState q ≠ sArmed then .next s
    else if s.farrierHolds q ∧ x.cfg.mode ≠ atTickMode then
      .next (((s.setSeq q { x with startAt := none }).wb .seq q Off.seqStat 16 true).event .seq q 4)
    else
      let s1 := (s.atTick t).setSeq q { x with vtime := t * 1250, startAt := none }
      let s2 := ((s1.setSeqState q sRun).wb .seq q Off.seqStat 16 false)
      let s3 := (s2.chansOf q).foldl (fun y c =>
        y.setChan c.1 { (y.chan c.1).cancel with level := false, window := .hiz, inh := none, keptDrive := [], keptStrobe := [], strobes := [] }) s2
      match x.map with
      | some m => .next (s3.panicUpdate q m x.next)
      | none => .next s3

/-- Every hold cause has cleared and the next vector begins on tick `t` (R197, R227). Late edges before it have fired. -/
def execHoldEnd (q : Fin 8) (t : BitVec 48) (s : State) : Result :=
  let x := s.seq q
  let z := t.toNat * 1250
  if s.seqState q ≠ sHold ∨ s.rf .seq q Off.seqStat 4 2 ≠ 0 ∨ z < x.vtime ∨ s.edgesPending q z then .next s
  else
    let s1 := ((s.atTick t.toNat).starveCount q).setSeq q { x with vtime := z, starving := false, issued := false }
    .next (s1.setSeqState q sRun)

/-- The drain after the last vector ends, every late edge having fired (R199). Unless the run was cut off, that vector has
taken its whole period. -/
def execDrainComplete (q : Fin 8) (s : State) : Result :=
  match (s.seq q).ending with
  | some e =>
    if s.seqState q ≠ sDrain ∨ ((s.chansOf q).any fun c => !(s.chan c.1).edges.isEmpty) then .next s
    else if e.code = cAborted ∨ e.code = cPreempted then .next (s.finishRun q e)
    else .next ((s.atTick ((s.seq q).vtime / 1250)).finishRun q e)
  | none => .next s

/-- The earliest pending edge of a channel fires (R141, R159, R196, R199): in RUN one that is due before the next vector
starts, in a hold or after the last vector any. `h` and `l` are the comparator outputs for a strobe. -/
def execLateEdgeFire (q : Fin 8) (ch : Fin 2048) (h l : Bool) (s : State) : Result :=
  let st := s.seqState q
  let c := s.chan ch
  match (s.chansOf q).find? fun e => e.1 == ch.val with
  | none => .next s
  | some k =>
    match c.edges with
    | [] => .next s
    | e :: t =>
      if st ≠ sHold ∧ st ≠ sDrain ∧ ¬ (st = sRun ∧ e.time < (s.seq q).vtime) then .next s
      else
        let s1 := s.setChan ch ({ c with edges := t }.act e (e.firePoint ch (s.slewOf ch)))
        if e.act.isStrobe && !e.act.passes h l then .next (s1.recordFail q k e) else .next s1

/-! ### Opcodes: decisions -/

/-- Next address with the loop stack popped when a taken transfer carries POP (R174, R175). -/
def jumpTo (v : Vec) (x : SeqSt) (taken pop : Bool) : Nat ⊕ Ctl :=
  if taken = false then .inr (Ctl.fall v x)
  else if pop then
    match x.loops with
    | [] => .inl cStack
    | _ :: t => .inr { Ctl.fall v x with next := v.operand, loops := t }
  else .inr { Ctl.fall v x with next := v.operand }

/-- CONT, LDLV, TRIG, MARK: the next vector follows in address order. -/
def flowCont (v : Vec) (x : SeqSt) (_ : Option VecRec) : Nat ⊕ Ctl := .inr (Ctl.fall v x)

/-- RPT and CALGAP: the vector is issued OPERAND times (R171, R188). -/
def flowRepeat (v : Vec) (x : SeqSt) (_ : Option VecRec) : Nat ⊕ Ctl := .inr { Ctl.fall v x with count := v.operand }

/-- LOOP (R173). -/
def flowLoop (v : Vec) (x : SeqSt) (_ : Option VecRec) : Nat ⊕ Ctl :=
  if x.fromEndl then .inr (Ctl.fall v x)
  else if 8 ≤ x.loops.length then .inl cStack
  else .inr { Ctl.fall v x with loops := (v.addr, v.operand) :: x.loops }

/-- ENDL (R173). -/
def flowEndl (v : Vec) (x : SeqSt) (_ : Option VecRec) : Nat ⊕ Ctl :=
  match x.loops with
  | [] => .inl cStack
  | (a, n) :: t =>
    if 1 < n then .inr { Ctl.fall v x with next := a, loops := (a, n - 1) :: t, fromEndl := true }
    else .inr { Ctl.fall v x with loops := t }

/-- JMP (R167, R174). -/
def flowJmp (v : Vec) (x : SeqSt) (_ : Option VecRec) : Nat ⊕ Ctl := jumpTo v x true (v.evsel.testBit 8)

/-- CALL (R167, R175). -/
def flowCall (v : Vec) (x : SeqSt) (_ : Option VecRec) : Nat ⊕ Ctl :=
  if 8 ≤ x.calls.length then .inl cStack
  else .inr { Ctl.fall v x with next := v.operand, calls := (v.addr + 1) % 2 ^ 24 :: x.calls }

/-- RET (R167, R175). -/
def flowRet (v : Vec) (x : SeqSt) (_ : Option VecRec) : Nat ⊕ Ctl :=
  match x.calls with
  | [] => .inl cStack
  | a :: t => .inr { Ctl.fall v x with next := a, calls := t }

/-- BRF (R178 to R180). -/
def flowBrf (v : Vec) (x : SeqSt) (h : Option VecRec) : Nat ⊕ Ctl :=
  let c := branchCond x.sites h (if v.evsel.testBit 2 then .sticky else .fail) (v.evsel.testBit 0)
  jumpTo v x (xor c (v.evsel.testBit 1)) (v.evsel.testBit 8)

/-- BRE (R180 to R183): SCOPE counts for slots only. -/
def flowBre (v : Vec) (x : SeqSt) (h : Option VecRec) : Nat ⊕ Ctl :=
  let src := nfld v.evsel 0 6
  let c :=
    if 8 ≤ src ∧ src < 16 then branchCond x.sites h (.event src) (v.evsel.testBit 6)
    else
      match h with
      | none => false
      | some r => if src < 4 then r.evIn.testBit src else r.flags.testBit (src - 16)
  jumpTo v x (xor c (v.evsel.testBit 7)) (v.evsel.testBit 8)

/-- HALT (R191). -/
def flowHalt (v : Vec) (x : SeqSt) (_ : Option VecRec) : Nat ⊕ Ctl := .inr { Ctl.fall v x with halt := some v.operand }

/-- Source of a per-site condition (R238). -/
def siteSource (v : Vec) : Source :=
  match nfld v.evsel 0 2 with
  | 0 => .fail
  | 1 => .sticky
  | _ => .event (nfld v.evsel 3 5)

/-- The sites for which the condition of a PIF or SEND is true (R238, R239). -/
def condSites (v : Vec) (x : SeqSt) (h : Option VecRec) : Nat := siteCond x.sites h (siteSource v) (v.evsel.testBit 2)

/-- PIF (R240). -/
def flowPif (v : Vec) (x : SeqSt) (h : Option VecRec) : Nat ⊕ Ctl :=
  let a := x.sites.active
  let c := condSites v x h
  let m := a &&& c
  if 8 ≤ x.sites.stack.length then .inl cSite
  else
    let t := { x.sites with active := m, stack := .cond a (andNot a c) false :: x.sites.stack }
    .inr { Ctl.fall v x with sites := t, next := if m = 0 then v.operand else v.addr + 1 }

/-- PELSE (R241). -/
def flowPelse (v : Vec) (x : SeqSt) (_ : Option VecRec) : Nat ⊕ Ctl :=
  match x.sites.stack with
  | .cond a e false :: t =>
    .inr { Ctl.fall v x with
      sites := { x.sites with active := e, stack := .cond a e true :: t }, next := if e = 0 then v.operand else v.addr + 1 }
  | _ => .inl cSite

/-- PJOIN (R242). -/
def flowPjoin (v : Vec) (x : SeqSt) (_ : Option VecRec) : Nat ⊕ Ctl :=
  match x.sites.stack with
  | .cond a _ _ :: t => .inr { Ctl.fall v x with sites := { x.sites with active := a, stack := t } }
  | _ => .inl cSite

/-- SWHILE (R243). -/
def flowSwhile (v : Vec) (x : SeqSt) (_ : Option VecRec) : Nat ⊕ Ctl :=
  if 8 ≤ x.sites.stack.length then .inl cSite
  else .inr { Ctl.fall v x with
    sites := { x.sites with stack := .loop x.sites.active (nfld v.operand 0 16) [] :: x.sites.stack } }

/-- SEND (R244, R245). -/
def flowSend (v : Vec) (x : SeqSt) (h : Option VecRec) : Nat ⊕ Ctl :=
  match x.sites.stack with
  | .loop saved n counts :: t =>
    let a := x.sites.active
    let c := condSites v x h
    let cnt := fun i => Store.getD (fun _ => 0) counts i + 1
    let counts1 := (sitesOf a).foldl (fun l i => Store.put l i (cnt i)) counts
    let out := siteMask ((sitesOf a).filter fun i => natBit c i || cnt i == n)
    let late := siteMask ((sitesOf a).filter fun i => !natBit c i && cnt i == n)
    let stay := andNot a out
    let y := { x.sites with
      swto := x.sites.swto ||| late
      lastSw := (sitesOf out).foldl (fun l i => Store.setD (fun _ => 0) l i (cnt i)) x.sites.lastSw }
    if stay = 0 then .inr { Ctl.fall v x with sites := { y with active := saved, stack := t } }
    else .inr { Ctl.fall v x with sites := { y with active := stay, stack := .loop saved n counts1 :: t }, next := v.operand }
  | _ => .inl cSite

/-! ### Opcodes: operand checks and effects -/

/-- A count of 0 (R171, R173, R188). -/
def badCount (v : Vec) (_ : Nat) : Bool := v.operand == 0

/-- A reserved source of BRE (R182). -/
def badBre (v : Vec) (_ : Nat) : Bool := badEvent (nfld v.evsel 0 6)

/-- T at or above the period (R187). -/
def badTrig (v : Vec) (p : Nat) : Bool := decide (p ≤ v.operand)

/-- A reserved KIND or EVSRC of PIF and SEND (R238). -/
def badCond (v : Vec) (_ : Nat) : Bool :=
  nfld v.evsel 0 2 == 3 || (nfld v.evsel 0 2 == 2 && badEvent (nfld v.evsel 3 5))

/-- SWHILE with n = 0 (R243). -/
def badSwhile (v : Vec) (_ : Nat) : Bool := nfld v.operand 0 16 == 0

/-- A mark or trigger entry (R190, R522). -/
def State.markPost (s : State) (q ty tag vcnt t off : Nat) : State :=
  let w := (s.seq q).cfg.markRing
  if tbit w 31 then
    s.post (fld w 0 15) (.mark q) false ty
      (packBytes [(4, 3, tag), (7, 1, q), (8, 6, vcnt), (14, 6, t / 1250), (20, 4, off)])
  else s

/-- Index of the vector last issued. -/
def State.lastIdx (s : State) (q : Nat) : Nat := (s.vcnt q + 2 ^ 48 - 1) % 2 ^ 48

/-- LDLV: the strobe of every stall with LDLV_EN that has a channel following the sequencer (R99, R100, R186). LDLVs of
several sequencers, or an LDLV and a LOAD, on the same cycle give a stall one strobe (R123). -/
def fxLdlv (q : Nat) (_ : Vec) (t : Nat) (s : State) : State :=
  let k := s.nowTick (t / 1250)
  (((s.chansOf q).map fun c => c.1 / 16).eraseDups).foldl (fun x st =>
    if ((x.stall st).strobeAt.map Prod.fst) = some k then x
    else if x.rb .lvl st Off.lvlCtrl 1 && x.pageEn .lvl st then (x.loadStrobe st 0).strobed st k true
    else x) s

/-- TRIG: pulses on the selected lines reach every block that listens to them (R187, R301, R354, R374, R403). -/
def fxTrig (q : Nat) (v : Vec) (t : Nat) (s : State) : State :=
  let m := nfld v.evsel 0 8
  let at_ := t + v.operand
  let s1 := s.inc .seq q Off.seqTrigCnt 0 32 (popCount m 8)
  let n := s1.nowTick (at_ / 1250)
  let s2 := (((s1.timTrigger q m at_).pmuTrigger q m (at_ / 1250)).cnvLine q m n).acqLine q m n
  if v.evsel.testBit 8 then s2.markPost q 3 m (s2.lastIdx q) t v.operand else s2

/-- MARK (R190). -/
def fxMark (q : Nat) (v : Vec) (t : Nat) (s : State) : State :=
  let s1 := (s.inc .seq q Off.seqMarkCnt 0 32 1).markPost q 2 v.operand (s.lastIdx q) t 0
  if v.evsel.testBit 0 then s1.event .seq q 2 else s1

/-! ### Opcodes: commands -/

def execCont (q : Fin 8) (obs : List Sample) (s : State) : Result := .next (s.issue q 0x00 obs noBad flowCont noFx)
def execRpt (q : Fin 8) (obs : List Sample) (s : State) : Result := .next (s.issue q 0x01 obs badCount flowRepeat noFx)
def execLoop (q : Fin 8) (obs : List Sample) (s : State) : Result := .next (s.issue q 0x02 obs badCount flowLoop noFx)
def execEndl (q : Fin 8) (obs : List Sample) (s : State) : Result := .next (s.issue q 0x03 obs noBad flowEndl noFx)
def execJmp (q : Fin 8) (obs : List Sample) (s : State) : Result := .next (s.issue q 0x04 obs noBad flowJmp noFx)
def execCall (q : Fin 8) (obs : List Sample) (s : State) : Result := .next (s.issue q 0x05 obs noBad flowCall noFx)
def execRet (q : Fin 8) (obs : List Sample) (s : State) : Result := .next (s.issue q 0x06 obs noBad flowRet noFx)
def execBrf (q : Fin 8) (obs : List Sample) (s : State) : Result := .next (s.issue q 0x07 obs noBad flowBrf noFx)
def execBre (q : Fin 8) (obs : List Sample) (s : State) : Result := .next (s.issue q 0x08 obs badBre flowBre noFx)
def execHalt (q : Fin 8) (obs : List Sample) (s : State) : Result := .next (s.issue q 0x09 obs noBad flowHalt noFx)
def execLdlv (q : Fin 8) (obs : List Sample) (s : State) : Result := .next (s.issue q 0x0A obs noBad flowCont (fxLdlv q))
def execTrig (q : Fin 8) (obs : List Sample) (s : State) : Result := .next (s.issue q 0x0B obs badTrig flowCont (fxTrig q))
def execCalgap (q : Fin 8) (obs : List Sample) (s : State) : Result := .next (s.issue q 0x0C obs badCount flowRepeat noFx)
def execMark (q : Fin 8) (obs : List Sample) (s : State) : Result := .next (s.issue q 0x0D obs noBad flowCont (fxMark q))
def execPif (q : Fin 8) (obs : List Sample) (s : State) : Result := .next (s.issue q 0x10 obs badCond flowPif noFx)
def execPelse (q : Fin 8) (obs : List Sample) (s : State) : Result := .next (s.issue q 0x11 obs noBad flowPelse noFx)
def execPjoin (q : Fin 8) (obs : List Sample) (s : State) : Result := .next (s.issue q 0x12 obs noBad flowPjoin noFx)
def execSwhile (q : Fin 8) (obs : List Sample) (s : State) : Result := .next (s.issue q 0x13 obs badSwhile flowSwhile noFx)
def execSend (q : Fin 8) (obs : List Sample) (s : State) : Result := .next (s.issue q 0x14 obs badCond flowSend noFx)

end Sys2Proof.Machine
end

