-- ==== Sys2Proof/Machine/Flash.lean ====
section
/-!
DEFINITION. The external flash on HS_SEL_0 and what the gatehouse reads from it and writes to it: the directory (R582), boot and
patch images (R583 to R585), and sealed tack-room images (R470, R594, R595).
-/

namespace Sys2Proof.Machine

/-! ### Bytes of the flash -/

/-- An erased byte of the flash, which is what an unlisted address reads as (DESIGN CHOICE, assumption 85). -/
def flashErased : Nat → Byte := fun _ => 0xFF

/-- The byte at a flash address. -/
def State.flashByte (s : State) (a : Nat) : Byte := Store.getD flashErased s.flash a

/-- `n` bytes of the flash from address `a`, of which the read command carries 24 bits, or 32 with ADDR4 (R620). -/
def State.flashBytes (s : State) (a n : Nat) : List Byte :=
  let b := a % 2 ^ (if natBit s.otp.bootCfg 8 then 32 else 24)
  (upto n).map fun i => s.flashByte (b + i)

/-- The little-endian number in `n` bytes of the flash (R8). -/
def State.flashNum (s : State) (a n : Nat) : Nat := ofBytes (s.flashBytes a n)

/-- Bytes written into the flash from address `a`. -/
def flashPut (m : List (Nat × Byte)) (a : Nat) (bs : List Byte) : List (Nat × Byte) :=
  match bs with
  | [] => m
  | b :: t => flashPut (Store.setD flashErased m a b) (a + 1) t

/-- The flash with the 4 KiB sectors erased that hold the `n` bytes at `a` (R621). -/
def flashErase (m : List (Nat × Byte)) (a n : Nat) : List (Nat × Byte) :=
  Store.keep (fun k => decide (k < a / 4096 * 4096) || decide ((a + n + 4095) / 4096 * 4096 ≤ k)) m

/-- What stands in the flash beside the part's own writes reaches the model as pieces, each with its address. -/
def flashFill (m : List (Nat × Byte)) (pieces : List (Nat × List Byte)) : List (Nat × Byte) :=
  pieces.foldl (fun x p => flashPut x p.1 p.2) m

/-! ### The directory (R582) -/

/-- MAGIC and DCRC of the directory are right. -/
def State.dirOk (s : State) : Bool :=
  let d := s.otp.flashDir
  s.flashNum d 4 == 0x52494446 && s.flashNum (d + 60) 4 == crc32 (s.flashBytes d 60)

/-- Flash address and size in bytes of slot `k`; size 0: absent. -/
def State.slotAt (s : State) (k : Nat) : Nat := s.flashNum (s.otp.flashDir + 8 + 8 * k) 4
def State.slotLen (s : State) (k : Nat) : Nat := s.flashNum (s.otp.flashDir + 12 + 8 * k) 4

/-! ### Boot and patch images (R583, R585) -/

/-- `sig` is one of the signatures of the message that verify under Ovtarel's public key (R583, R597), of which there is at least
one. -/
def sigOk (msg sig : List Byte) : Bool :=
  (upto (Config.signatures msg + 1)).any fun k => sig == (upto 96).map (Config.signature msg k)

/-- The SHA-384 digest of a message. -/
def sha384 (msg : List Byte) : List Byte := (upto 48).map (Config.sha384 msg)

/-- Security version of the image at flash address `a`. -/
def State.imageSvn (s : State) (a : Nat) : Nat := s.flashNum (a + 8) 8

/-- MAGIC, TYPE, LENGTH and, for a patch, ENC of the image at `a` are right (R583). -/
def State.headerOk (s : State) (patch : Bool) (a : Nat) : Bool :=
  let len := s.flashNum (a + 16) 4
  s.flashNum a 4 == 0x48544147 && s.flashNum (a + 4) 2 == (if patch then 2 else 1) &&
    (if patch then len == 4736 && natBit (s.flashNum (a + 20) 4) 0 else decide (len ≤ 98304))

/-- The payload of the image at `a`, as stored. -/
def State.payload (s : State) (a : Nat) : List Byte := s.flashBytes (a + 256) (s.flashNum (a + 16) 4)

/-- The code of the first check of step 3 of R585 that the image at `a` fails, in the order of the step; 0: none. ENC = 0 in a
patch is a FORMAT failure (DESIGN CHOICE, assumption 86). -/
def State.imageCheck (s : State) (patch : Bool) (a : Nat) : Nat :=
  if s.headerOk patch a = false then 7
  else if sigOk (s.flashBytes a 160) (s.flashBytes (a + 160) 96) = false then 3
  else if s.flashBytes (a + 64) 48 ≠ sha384 (s.payload a) then 4
  else if 64 < s.imageSvn a then 7
  else if s.imageSvn a < s.otp.svn then 5
  else 0

/-- GTAG of the patch image at `a` verifies under the class key (R583, R585). -/
def State.tagOk (s : State) (a : Nat) : Bool :=
  s.flashBytes (a + 44) 16 ==
    (upto 16).map (Config.gcmTag (s.flashBytes (a + 32) 12) (s.flashBytes a 32) (s.payload a))

/-- A decrypted patch image (R584): its version and security version, dispatch entries, match registers and patch words, in the
order of the image. -/
structure PatchImage where
  version : Nat
  svn : Nat
  disp : List Word
  mregs : List Word
  words : List (BitVec 24)
  deriving DecidableEq, Repr

/-- The patch image at `a`, decrypted under the class key. -/
def State.patchAt (s : State) (a : Nat) : PatchImage :=
  let plain := Config.gcmPlain (s.flashBytes (a + 32) 12) (s.flashBytes a 32) (s.payload a)
  let num := fun i => ofBytes ((upto 4).map fun j => plain (4 * i + j))
  { version := s.flashNum (a + 6) 2, svn := s.imageSvn a
    disp := (upto 96).map fun i => word (num i), mregs := (upto 64).map fun i => word (num (96 + i))
    words := (upto 1024).map fun i => BitVec.ofNat 24 (num (160 + i)) }

/-! ### Tack-room images (R594, R595) -/

/-- Largest body of a tack-room image, which is at most 512 KiB (R468) with its header and tag. -/
def bodyMax : Nat := 524288 - 112

/-- The HMAC-SHA-384 tag of header and body under the part's seal key. -/
def State.sealTag (s : State) (bs : List Byte) : List Byte := (upto 48).map (Config.sealTag s.otp.serial bs)

/-- Slot `k` holds an image, valid or not: it is present and carries the MAGIC (DESIGN CHOICE, assumption 85). -/
def State.tackThere (s : State) (k : Nat) : Bool := s.slotLen k != 0 && s.flashNum (s.slotAt k) 4 == 0x4B434154

/-- Body length of the tack-room image in slot `k`. -/
def State.tackLen (s : State) (k : Nat) : Nat := s.flashNum (s.slotAt k + 16) 4

/-- The tack-room image in slot `k` is valid (R595). -/
def State.tackValid (s : State) (k : Nat) : Bool :=
  let a := s.slotAt k
  let n := s.tackLen k
  s.tackThere k && s.flashNum (a + 4) 8 == s.otp.serial % 2 ^ 64 && decide (n ≤ bodyMax) && decide (n + 112 ≤ s.slotLen k) &&
    s.flashBytes (a + 64 + n) 48 == s.sealTag (s.flashBytes a (64 + n))

/-- Epoch and body of the tack-room image in slot `k`. -/
def State.tackEpoch (s : State) (k : Nat) : Nat := s.flashNum (s.slotAt k + 12) 4
def State.tackBody (s : State) (k : Nat) : List Byte := s.flashBytes (s.slotAt k + 64) (s.tackLen k)

/-- The slot that is loaded, `faults` naming the slots that cannot be read: the valid one of higher epoch, slot 2 where the epochs
are equal (R595; that case is a DESIGN CHOICE, assumption 85). -/
def State.tackChoice (s : State) (faults : Nat) : Option Nat :=
  let ok := fun k => s.tackValid k && !natBit faults (k - 2)
  if ok 2 && (!ok 3 || decide (s.tackEpoch 3 ≤ s.tackEpoch 2)) then some 2 else if ok 3 then some 3 else none

/-- The active bank: what of its coefficients the sealed body carries. -/
def State.activeCoefs (s : State) : Coefs := ⟨s.far.base, s.activeBank, s.far.trims⟩

/-- The body that seals the active bank. Its layout is not published (R594). -/
def State.sealedBody (s : State) : List Byte := (Config.sealBody s.far.base s.activeBank s.far.trims).take bodyMax

/-- The slot that a STORE writes (R595): the one that was not loaded; where none was, the first of slots 2 and 3 that is present
(DESIGN CHOICE, assumption 85). -/
def State.storeSlot (s : State) : Nat :=
  match s.far.slot with
  | some k => 5 - k
  | none => if s.slotLen 2 = 0 ∧ s.slotLen 3 ≠ 0 then 3 else 2

/-- The image of the active bank does not fit the slot that a STORE writes. -/
def State.noSpace (s : State) : Bool := decide (s.slotLen s.storeSlot < s.sealedBody.length + 112)

/-- The sealed image of the active bank (R594). -/
def State.sealedImage (s : State) : List Byte :=
  let epoch := s.rd .tak 0 (if s.bankB then Off.takEpochB else Off.takEpochA)
  let head := bytesOf 4 0x4B434154 ++ bytesOf 8 (s.otp.serial % 2 ^ 64) ++ bytesOf 4 epoch.toNat ++
    bytesOf 4 s.sealedBody.length ++ bytesOf 44 0
  let bs := head ++ s.sealedBody
  bs ++ s.sealTag bs

/-- A STORE that is complete has written its image. The body is known from then on as that of the coefficients it seals. -/
def State.storeWrite (s : State) : State :=
  let a := s.slotAt s.storeSlot
  let img := s.sealedImage
  { s with flash := flashPut (flashErase s.flash a img.length) a img
           far := { s.far with known := (s.sealedBody, s.activeCoefs) :: s.far.known } }

/-- A STORE that does not complete leaves the sectors of its image with undefined contents; the other slot stays intact (R595). -/
def State.storeSpoil (s : State) : State :=
  if s.noSpace then s
  else
    let a := s.slotAt s.storeSlot
    let n := s.sealedImage.length
    let lo := a / 4096 * 4096
    let junk := (upto ((a + n + 4095) / 4096 * 4096 - lo)).map fun i => Config.freeByte s.free (lo + i)
    { s.useFree with flash := flashPut s.flash lo junk }

/-- A reset ends a STORE in progress. -/
def State.storeCut (s : State) : State := if s.farState = fStore then s.storeSpoil else s

/-- The coefficients in the body of a valid image: those that this part sealed into it, or else others than any known so far. -/
def State.tackCoefs (s : State) (body : List Byte) : Coefs :=
  match s.far.known.find? fun e => e.1 == body with
  | some e => e.2
  | none => ⟨s.far.gen, [], []⟩

end Sys2Proof.Machine
end

