-- ==== Sys2Proof/Machine/FarOps.lean ====
section
/-!
DEFINITION. Farrier Calibration and the Tack Room (R450 to R476), second part: runs, steps, gaps, windows, the switchover
and the store.
-/

namespace Sys2Proof.Machine

/-! ### Runs -/

/-- RUN written 1 (R450, R472, R475). -/
def State.farRun (s : State) : State :=
  if s.pageEn .far 0 = false then s.err .far 0 errDisabled Off.farCtrl
  else if s.mode.dev ≠ .m4 ∧ s.mode.dev ≠ .m10 then s.err .far 0 errMode Off.farCtrl
  else if s.farState ≠ fIdle then s.err .far 0 errState Off.farCtrl
  else
    let f := s.far
    let s1 := s.setFar { f with
      groups := s.rf .far 0 Off.farCfg 0 7, policy := s.rb .far 0 Off.farCfg 8, upM10 := s.rb .far 0 Off.farCfg 16
      barns := s.rf .far 0 Off.farScope 0 8, full := false, runs := 0, done := [], bad := [], steps := [], ending := none
      temps := [] }
    let s2 := ((s1.wr .far 0 Off.farSteps 0).wr .far 0 Off.farStepAbort 0).wr .far 0 Off.farLeft 0
    let s3 := (upto 7).foldl (fun x g => x.wr .far 0 (Off.farFail g) 0) s2
    (s3.startResult .far 0 Off.farResultLo).setFarState fCopy

/-- ABORT written 1 (R472). -/
def State.farStop (s : State) : State :=
  if s.farState = fIdle ∨ s.farState = fStore then s
  else ((s.wb .far 0 Off.farCtrl 1 true).wb .far 0 Off.farStat 3 false).farEnd farAborted

/-- STORE written 1 (R470, R473). -/
def State.farStoreStart (s : State) : State :=
  if s.pageEn .far 0 = false then s.err .far 0 errDisabled Off.farCtrl
  else if s.farState = fStore then s
  else if s.farState ≠ fIdle then s.err .far 0 errState Off.farCtrl
  else (s.startResult .tak 0 Off.takStoreResult).setFarState fStore

/-- A write of FAR_CTRL (R475): ABORT, then RUN, then STORE. -/
def farCtrlWrite (v : Word) (s : State) : State :=
  let s1 := if tbit v 1 then s.farStop else s
  let s2 := if tbit v 0 then s1.farRun else s1
  if tbit v 2 then s2.farStoreStart else s2

/-- A write of FAR_SW_TMO: 0 is refused (R475). -/
def farSwTmoWrite (v : Word) (s : State) : State :=
  if fld v 0 16 = 0 then s.err .far 0 errValue Off.farSwTmo else s.plainWrite .far 0 Off.farSwTmo v

/-- A write of FAR_WIN_TICK_LO or, `hi`, FAR_WIN_TICK_HI, which commits both (R81, R475). -/
def farWinTickWrite (r : Requester) (hi : Bool) (v : Word) (s : State) : State :=
  if hi then
    let lo := s.staged r .far 0 Off.farWinTickLo
    ((s.plainWrite .far 0 Off.farWinTickLo lo).plainWrite .far 0 Off.farWinTickHi v).unstage .far 0 Off.farWinTickLo
  else s.stageWrite r .far 0 Off.farWinTickLo v

/-- A write of FAR_WIN_CFG; ARM = 1 arms a window with the fields written (R454, R475). -/
def farWinCfgWrite (v : Word) (s : State) : State :=
  let o := Off.farWinCfg
  if fld v 0 20 = 0 ∨ 1000000 < fld v 0 20 then s.err .far 0 errValue o
  else
    let s1 := s.plainWrite .far 0 o v
    if tbit v 31 = false ∨ s.far.win.isSome then s1
    else if s.pageEn .far 0 = false then s1.err .far 0 errDisabled o
    else
      let w := (s.rd2 .far 0 Off.farWinTickLo Off.farWinTickHi, fld v 0 20 * 3200, fld v 20 8, tbit v 28)
      (s1.setFar { s1.far with win := some w }).wb .far 0 o 31 true

/-! ### Gaps and needles (R454, R455, R458) -/

/-- The host window is open. -/
def State.winOpen (s : State) : Bool := s.rb .far 0 Off.farStat 6

/-- The open host window declares needles up for a barn, while host windows are enabled (R475). -/
def State.winUp (s : State) (b : Nat) : Bool :=
  match s.far.win with
  | some (_, _, barns, up) => s.rb .far 0 Off.farCfg 13 && s.winOpen && up && natBit barns b
  | none => false

/-- M10 declares needles up (R467). -/
def State.m10Up (s : State) : Bool := s.mode.dev = .m10 && s.far.upM10

/-- INDEX_N declares needles up (R458). -/
def State.indexUp (s : State) : Bool := !s.pins.indexN && s.rb .far 0 Off.farCfg 14

/-- FAR_STAT.NEEDLES_UP (R475). -/
def State.needlesUp (s : State) : Bool := s.m10Up || s.indexUp || (upto 8).any s.winUp

/-- The channel follows a sequencer that host windows reach: IDLE, or ARMED in IMMEDIATE or ON_EVENT mode (R454). -/
def State.windowChan (s : State) (ch : Nat) : Bool :=
  let w := s.following ch
  let q := fld w 8 3
  !tbit w 31 || s.seqState q == sIdle || (s.seqState q == sArmed && (s.seq q).cfg.mode != atTickMode)

/-- A step of `len` ticks from tick `t` fits a gap (R455); every bound is in ticks, or every one in 250 fs units, of which
`unit` make one. -/
def fits (unit t len lo hi : Nat) : Bool :=
  decide (lo + 1600 * unit ≤ t * unit) && decide ((t + len + 1600) * unit ≤ hi)

/-- Source `src` offers channel `ch` for a step of `len` ticks from `t` (R454, R455). -/
def State.offers (s : State) (src : GapSource) (ch t len : Nat) : Bool :=
  let w := s.following ch
  match src with
  | .calgap =>
    s.rb .far 0 Off.farCfg 12 && tbit w 31 && s.seqState (fld w 8 3) == sRun &&
      (match (s.seq (fld w 8 3)).gap with | some (a, b) => fits 1250 t len a b | none => false)
  | .window =>
    s.rb .far 0 Off.farCfg 13 && s.winOpen && s.windowChan ch &&
      (match s.far.win with | some (a, n, barns, _) => natBit barns (ch / 256) && fits 1 t len a (a + n) | none => false)
  | .idle => !tbit w 31 && s.mode.dev = .m4
  | .m10 => s.mode.dev = .m10

/-- The class of a step: 0 INT, 1 DOWN, 2 UP, 3 TDR, 4 M10 (R451). -/
def State.stepClass (s : State) (g : Nat) : Nat :=
  match g with
  | 0 | 4 => 0
  | 1 => if s.far.full then 2 else 1
  | 2 => 2
  | 3 => 3
  | _ => 4

/-- The source holds steps of the class in the barn (R454). -/
def State.classOk (s : State) (src : GapSource) (cls b : Nat) : Bool :=
  match src with
  | .idle => cls == 0
  | .m10 => decide (cls < 2) || cls == 4 || s.m10Up
  | _ => decide (cls < 2) || (decide (cls < 4) && (s.indexUp || s.winUp b))

/-- The step names its instance's stall and channels (R451). For an INT group the implementation chooses the channels. -/
def instMatches (g inst st mask : Nat) : Bool :=
  match g with
  | 0 => (inst == st || inst == barnInst (st / 16)) && mask != 0
  | 1 | 2 => inst / 16 == st && mask == 2 ^ (inst % 16)
  | 3 => inst == st && mask == 0xFFFF
  | 4 => inst == st && mask != 0
  | _ => inst / 4 == st && mask == 15 * 2 ^ (4 * (inst % 4))

/-- The resources of the step's channel are idle (R31, R455). -/
def State.chanReady (s : State) (g cls st c : Nat) : Bool :=
  let w := s.following (16 * st + c)
  let q := fld w 8 3
  let cur := fun o => s.rb .swm st o c
  let moving := (match (s.stall st).batch with | some b => natBit b.mvDrv c || natBit b.mvPmu c | none => false) ||
    (s.stall st).opens c || (s.rb .stl st Off.stlPark c && !s.rb .stl st Off.stlStat c)
  let armedAt := tbit w 31 && s.seqState q == sArmed && (s.seq q).cfg.mode == atTickMode
  let tim := (g != 3 && g != 4) || (s.timState st c == tIdle && !(s.rb .tim st Off.timVstat 8 && (s.vernier st).chan == c))
  let pmu := cls != 4 || (s.rb .pmu st (Off.pmuCtrl (c / 4)) 0 == false && (s.cnvState st (c / 4) == kIdle || s.cnvState st (c / 4) == kOff))
  !moving && !natBit (s.stall st).hiz c && !armedAt && tim && pmu &&
    (cls == 0 || cls == 4 || (!s.rb .stl st Off.stlPark c && !s.rb .stl st Off.stlStat c && cur Off.swmCurDrv && !cur Off.swmCurPmu))

/-- A pen or the supervisor allows steps on its stalls (R455). -/
def State.penAllows (s : State) (o : Nat) : Bool := s.rb .far 0 Off.farPenEn (ownerIx o)

/-- Steps of an instance that are done or in progress. -/
def State.stepsTaken (s : State) (g inst : Nat) : Nat :=
  s.stepsDone g inst + (s.far.steps.filter fun x => x.group == g && x.inst == inst).length

/-- Every condition of R455 for a step of group `g` on an instance, at tick `t`. -/
def State.stepOk (s : State) (st g inst mask : Nat) (src : GapSource) (t : Nat) : Bool :=
  let cls := s.stepClass g
  let o := s.stallOwner st
  s.farState == fStepping && s.far.ending.isNone && !s.stepIn st && natBit s.far.barns (st / 16) && s.penAllows o &&
    (s.runInstances g).contains inst && instMatches g inst st mask &&
    decide (s.stepsTaken g inst < instSteps s.far.full g inst) && s.classOk src cls (st / 16) &&
    (cls != 3 || src == .m10 || s.modeOf o == 6) &&
    (onesOf mask 16).all fun c => s.offers src (16 * st + c) t (stepTicks g) && s.chanReady g cls st c

/-! ### Commands -/

/-- FAR_CTRL written with RUN = 1 (R450). -/
def execFarrierRun (r : Requester) (s : State) : Result := .next (s.guarded r .far 0 Off.farCtrl 1 (farCtrlWrite 1))

/-- FAR_CTRL written with ABORT = 1 (R472). -/
def execFarrierAbort (r : Requester) (s : State) : Result := .next (s.guarded r .far 0 Off.farCtrl 2 (farCtrlWrite 2))

/-- FAR_CTRL written with STORE = 1 (R470). -/
def execFarrierStore (r : Requester) (s : State) : Result := .next (s.guarded r .far 0 Off.farCtrl 4 (farCtrlWrite 4))

/-- The STORE ends (R470, R475, R476, R595): with CODE 2 NO_SPACE where the image does not fit its slot; else with 0 OK, the image
being written, or, where the flash does not become ready (R621), with 1 FLASH_ERR. -/
def execFarrierStoreDone (ok : Bool) (s : State) : Result :=
  if s.farState ≠ fStore then .next s
  else
    let code := if s.noSpace then 2 else if ok then 0 else 1
    let s0 := if code = 0 then s.storeWrite else if code = 1 then s.storeSpoil else s
    let s1 := s0.storeResult .tak 0 Off.takStoreResult (code * 2 ^ 8)
    let s2 := if code = 0 then s1.wb .tak 0 Off.takStat 8 true else s1
    .next ((s2.setFarState fIdle).event .far 0 4)

/-- The run has no step left (R461): a switchover is requested, or the result is stored as KEPT. -/
def State.farFinish (s : State) : State :=
  let passed := (upto 7).any fun g => (s.runInstances g).any fun i => s.instDone g i && !s.far.bad.contains (instKey g i)
  let want := if s.far.policy then passed else s.overall == 1
  if want then s.setFarState fSwWait else s.farStore farKept

/-- Every step of the run has ended. -/
def State.farAllDone (s : State) : Bool :=
  s.far.steps.isEmpty && (upto 7).all fun g => (s.runInstances g).all fun i => s.instDone g i

/-- The inactive bank holds a copy of the active one: stepping begins (R460, R472). DRIVE runs full curves if needles are
declared up now (assumption 51), in M10 if FAR_CFG.UP_M10 declares them so (R467). -/
def execFarrierCopyDone (s : State) : Result :=
  if s.farState ≠ fCopy then .next s
  else
    let ep := if s.bankB then s.rd .tak 0 Off.takEpochB else s.rd .tak 0 Off.takEpochA
    let s1 := s.setInactive s.activeBank ep
    let s2 := s1.setFar { s1.far with full := if s.mode.dev = .m10 then s.m10Up else s.needlesUp, runs := maskOf 7 s.groupCan }
    let total := (upto 7).foldl (fun n g => n + ((s2.runInstances g).map (instSteps s2.far.full g)).sum) 0
    let s3 := (s2.wr .far 0 Off.farLeft (word total)).setFarState fStepping
    .next (if s3.farAllDone then s3.farFinish else s3)

/-- The farrier arms converter `u` of a stall in M10: no mode refuses it, and an accepted arm clears VALID (R376). The conversion
belongs to the step (assumption 67). -/
def State.farCnvArm (s : State) (st u : Nat) : State :=
  if s.pageEn .cnv st = false then s.err .cnv st errDisabled Off.cnvArm
  else if s.epochValid = false ∨ (s.ganged st ∧ u ≠ 0) then s.err .cnv st errState Off.cnvArm
  else s.startResult .cnv st (Off.cnvRes u 0)

/-- The active levels of channel `c` are set for the reflection crossing: a rising step, and VOH the code nearest to three quarters
of it (R453, R309; that nothing else counts as set so is a DESIGN CHOICE, assumption 82). -/
def State.crossingSet (s : State) (st c : Nat) : Bool :=
  let lev := fun i => s.rf .lvl st (Off.lvlAct c i) 0 16
  let at_ := 3 * lev 0 + lev 1
  decide (lev 1 < lev 0) && decide (at_ ≤ 4 * lev 3 + 2) && decide (4 * lev 3 ≤ at_ + 2)

/-- The measurement of a step can lie within the limits of R451: a DESKEW step needs its channels' levels set (R453). -/
def State.stepMeasures (s : State) (x : FarStep) : Bool :=
  x.group != 3 || (onesOf x.mask 16).all fun c => s.crossingSet x.stall c

/-- The farrier borrows the channels of `mask` of stall `st` for a step of group `g` on an instance, starting at tick `t`
in a gap of source `src` (R455, R456). -/
def execFarrierStepStart (st : Fin 128) (g : Fin 7) (inst : Fin 2048) (mask : BitVec 16) (src : GapSource) (t : BitVec 48)
    (s : State) : Result :=
  if s.stepOk st g inst mask.toNat src t.toNat then
    let cls := s.stepClass g
    let bus := cls == 1 || cls == 2
    let x : FarStep :=
      { stall := st, group := g, inst := inst, mask := mask.toNat, bus := bus, src := src
        byIndex := (cls == 2 || cls == 3) && !s.winUp (st / 16) && !s.m10Up }
    let s0 := (s.atTick t.toNat).setFar { s.far with steps := s.far.steps ++ [x] }
    let s1 := if g.val = 3 then s0.farTimArm st mask.toNat else if g.val = 6 then s0.farCnvArm st (inst % 4) else s0
    .next (if bus then (s1.wf .swm st Off.swmCurCal 0 16 (s1.rf .swm st Off.swmCurCal 0 16 ||| mask.toNat)).pullUpdate st else s1)
  else .next s

/-- An instance has taken its last step (R451, R460, R465): it fails, or its coefficients enter the inactive bank. -/
def State.instEnd (s : State) (g inst : Nat) : State :=
  let k := instKey g inst
  if s.far.bad.contains k then
    let n := if g = 0 ∧ 128 ≤ inst then inst - 128 else inst
    let s1 := if s.rf .far 0 (Off.farFail g) 0 16 = 0 then s.wf .far 0 (Off.farFail g) 16 11 n else s
    s1.sat .far 0 (Off.farFail g) 0 16 1
  else
    let f := s.far
    let put := fun l => Store.put l k f.gen
    let prev := Store.getD (fun _ => f.base) s.inactiveBank k
    let segs := (upto 3).map fun i => s.rf .lvl (inst / 16) (Off.lvlAct (inst % 16) i) 0 16 / 256
    s.setFar { f with gen := f.gen + 1, bankA := if s.bankB then put f.bankA else f.bankA
                      bankB := if s.bankB then f.bankB else put f.bankB
                      trims := if g = 1 ∧ f.full = false then Store.put f.trims f.gen (prev, segs) else f.trims }

/-- The step of stall `st` ends; `ok` tells whether its measurement lies within the limits of R451. -/
def execFarrierStepEnd (st : Fin 128) (ok : Bool) (s : State) : Result :=
  match s.far.steps.find? fun x => x.stall == st.val with
  | none => .next s
  | some x =>
    let k := instKey x.group x.inst
    let s1 := s.stepRelease x true
    let f := s1.far
    let s2 := s1.setFar { f with
      done := Store.put f.done k (s1.stepsDone x.group x.inst + 1)
      bad := if (ok && s.stepMeasures x) || f.bad.contains k then f.bad else f.bad ++ [k]
      temps := Store.put f.temps (st / 16) (s1.rf .wvn 0 (Off.wvnBarn (st / 16)) 0 16) }
    let s3 := (s2.inc .far 0 Off.farSteps 0 32 1).wr .far 0 Off.farLeft (s2.rd .far 0 Off.farLeft - 1)
    let s4 := if s3.instDone x.group x.inst then s3.instEnd x.group x.inst else s3
    .next (if s4.far.ending.isSome then s4.farSettle else if s4.farAllDone then s4.farFinish else s4)

/-- Sequencers that a channel of the run's scope follows (R462). -/
def State.owningSeqs (s : State) : List Nat :=
  (upto 8).filter fun q => (s.chansOf q).any fun c => natBit s.far.barns (c.1 / 256)

/-- A sequencer is quiet on tick `t` (R462). -/
def State.seqQuiet (s : State) (q t : Nat) : Bool :=
  let x := s.seq q
  let st := s.seqState q
  st == sIdle || st == sArmed || st == sHold ||
    (st == sRun && ((match x.gap with | some (a, b) => decide (a ≤ t * 1250) && decide (t * 1250 < b) | none => false) ||
      (x.left == 0 && x.vtime / 1250 == t && ((x.map.bind fun m => segOf m x.next).map Seg.base) == some x.next)))

/-- The first tick on which every owning sequencer is quiet (R462, R464). -/
def execFarrierSwitchover (t : BitVec 48) (s : State) : Result :=
  if s.farState ≠ fSwWait ∨ s.owningSeqs.any (fun q => !s.seqQuiet q t.toNat) then .next s
  else
    let ep := s.rd .far 0 Off.farEpoch + 1
    let s1 := ((s.atTick t.toNat).setInactive s.inactiveBank ep).wr .far 0 Off.farEpoch ep
    let s2 := ((s1.wb .tak 0 Off.takStat 0 (!s.bankB)).wf .tak 0 Off.takStat 4 3 2).wb .tak 0 Off.takStat 8 false
    let s3 := s.far.temps.foldl (fun x e => x.wf .tak 0 (Off.takTemp e.1) 0 16 e.2) s2
    .next ((((s3.timBankSw s.far.barns).wb .far 0 Off.farStat 3 false).farStore farSwitched).event .far 0 2)

/-- No switchover tick has been found within FAR_SW_TMO (R463). -/
def execSwLate (s : State) : Result :=
  if s.farState = fSwWait ∧ s.rb .far 0 Off.farStat 3 = false then .next ((s.wb .far 0 Off.farStat 3 true).event .far 0 3)
  else .next s

/-- FAR_WIN_CFG written with ARM = 1 and the fields of `v` (R454, R475). -/
def execFarrierWindowArm (r : Requester) (v : Word) (s : State) : Result :=
  let w := putBit v 31 true
  .next (s.guarded r .far 0 Off.farWinCfg w (farWinCfgWrite w))

/-- The start tick of the armed window is reached (R454). -/
def execFarrierWindowOpen (s : State) : Result :=
  match s.far.win with
  | some (t, _, _, _) => if s.winOpen then .next s else .next ((s.atTick t).wb .far 0 Off.farStat 6 true)
  | none => .next s

/-- The length of the window expires; steps in progress complete (R473). -/
def execFarrierWindowEnd (s : State) : Result :=
  if s.winOpen then
    .next (((s.setFar { s.far with win := none }).wb .far 0 Off.farStat 6 false).wb .far 0 Off.farWinCfg 31 false)
  else .next s

/-- INDEX_N changes to `high`; high ends the UP and TDR steps that it enabled (R458, R459). -/
def execIndexNChange (high : Bool) (s : State) : Result :=
  let s1 := { s with pins := { s.pins with indexN := high } }
  .next (if high then s1.farAbort (fun x => x.byIndex) else s1)

end Sys2Proof.Machine
end

