-- ==== Sys2Proof/Machine/HbmOps.lean ====
section
/-!
DEFINITION. Hayloft Memory Controller (R531 to R558, R712): remap, data-rate points and training, refresh debt, row
repair and temperature.
-/

namespace Sys2Proof.Machine

/-! ### Quiet conditions -/

/-- A groom runs a record, holds a context, or waits to post (R508). -/
def State.groomBusy (s : State) : Bool :=
  (upto 8).any fun g =>
    let x := s.groom g
    x.ctx.isSome || !x.saved.isEmpty || !x.chains.isEmpty || s.groomWaits g

/-- Every domain is in domain mode M4 and at rest. -/
def State.domainsInM4 (s : State) : Bool :=
  (upto 9).all fun d => s.domMode d == .m4 && (Store.get? s.mode.domTrans d).isNone

/-- Rings with EN = 1, rising. -/
def State.enabledRings (s : State) : List Nat :=
  s.regs.filterMap fun e =>
    if ringWindow ≤ e.1 ∧ e.1 < ringWindowEnd ∧ (e.1 - ringWindow) % 0x20 = 0 ∧ tbit e.2 0 then
      some ((e.1 - ringWindow) / 0x20)
    else none

/-- A sequencer or an acquisition engine is not IDLE (R549). -/
def State.rtActive (s : State) : Bool := s.anySeqActive || (upto 8).any fun b => s.acqState b != aIdle

/-! ### Remap (R533, R534) -/

/-- The bits of HBM_STAT. -/
def State.hbmBit (s : State) (b : Nat) : Bool := s.rb .hbm 0 Off.hbmStat b
def State.setHbm (s : State) (b : Nat) (v : Bool) : State := s.wb .hbm 0 Off.hbmStat b v

/-- Replace the controller's own state. -/
def State.setHbmSt (s : State) (h : HbmSt) : State := { s with hbm := h }

/-- A write of HBM_CTRL (R534, R556, R558). -/
def hbmCtrlWrite (v : Word) (s : State) : State :=
  let o := Off.hbmCtrl
  if fld v 8 8 = 0 then s.err .hbm 0 errValue o
  else
    let s1 := s.plainWrite .hbm 0 o v
    if tbit v 0 = false ∨ s.rb .hbm 0 o 0 then s1
    else if s.pageEn .hbm 0 = false then s1.err .hbm 0 errDisabled o
    else if s.mode.dev ≠ .m4 ∨ s.domainsInM4 = false ∨ s.enabledRings ≠ [] ∨ s.groomBusy ∨ s.hbmBit 8 then
      s1.err .hbm 0 errState o
    else
      let s2 := s1.wb .hbm 0 o 0 true
      { s2 with hbm := { s2.hbm with mapDue := (upto 10).map fun j => s.rd .hbm 0 (Off.hbmXmap j) } }

/-- A write of HBM_XMAP[j]: bits [9:0] select the natural bit alone (R533). -/
def xmapWrite (j : Nat) (v : Word) (s : State) : State :=
  if fld v 0 10 ≠ 2 ^ j then s.err .hbm 0 errValue (Off.hbmXmap j) else s.plainWrite .hbm 0 (Off.hbmXmap j) v

/-- HBM_CTRL written with REMAP = 1 and its other fields unchanged (R534). -/
def execRemap (r : Requester) (s : State) : Result :=
  let v := putBit (s.rd .hbm 0 Off.hbmCtrl) 0 true
  .next (s.guarded r .hbm 0 Off.hbmCtrl v (hbmCtrlWrite v))

/-- The remap is complete: the masks as they stood at the write of REMAP are in force and the contents are not guaranteed
(R534). -/
def execRemapDone (s : State) : Result :=
  if s.rb .hbm 0 Off.hbmCtrl 0 then
    let s1 := s.useFree.hayForget
    let x := (upto 10).foldl (fun m j => Store.setD xmapReset m j ((s.hbm.mapDue[j]?).getD 0)) s.hay.xmap
    .next ({ s1 with hay := { s1.hay with xmap := x }, hbm := { s1.hbm with mapDue := [] } }.wb .hbm 0 Off.hbmCtrl 0 false)
  else .next s

/-! ### Data-rate points (R545 to R550) -/

/-- HBM_RATE_RESULT codes (R558). -/
def rateOk : Nat := 0
def rateRtActive : Nat := 1
def rateBusy : Nat := 2
def rateMode : Nat := 3
def rateTrainFail : Nat := 4
def ratePreempted : Nat := 5

/-- Current point, and whether a point is trained. -/
def State.ratePoint (s : State) : Nat := s.rf .hbm 0 Off.hbmStat 0 2
def State.rateTrained (s : State) (p : Nat) : Bool := s.hbmBit (4 + p)

/-- A rate request ends: its result is stored (R558). -/
def State.rateEnd (s : State) (code p : Nat) : State :=
  (s.storeResult .hbm 0 Off.hbmRateResult (code * 2 ^ 8 + p * 2 ^ 12)).event .hbm 0 1

/-- The reservations as the rate and the pauses leave them (R537). -/
def State.reserve (s : State) : State :=
  let pause := s.hbmBit 10 || s.hbmBit 11 || !s.rateTrained s.ratePoint
  (s.setHbm 12 (!pause && decide (s.ratePoint < 2))).setHbm 13 (!pause)

/-- A switch to point `p` is about to begin (R547, R549). -/
def State.rateBegin (s : State) (p : Nat) : State :=
  let s1 := (s.setHbm 8 false).setHbmSt { s.hbm with heldRate := none }
  if s.rtActive then s1.rateEnd rateRtActive p
  else
    let s2 := (s1.setHbmSt { s1.hbm with want := some p, training := !s.rateTrained p }).setHbm 10 true
    let s3 := if s.rateTrained p then s2 else (s2.setHbm 9 true).wr .hbm 0 Off.hbmTrn (word (p * 2 ^ 6))
    s3.reserve

/-- A write of HBM_RATE_CMD (R547, R548, R556). -/
def rateCmdWrite (v : Word) (s : State) : State :=
  let p := fld v 0 2
  if p = 3 then s.err .hbm 0 errValue Off.hbmRateCmd
  else if s.pageEn .hbm 0 = false then s.err .hbm 0 errDisabled Off.hbmRateCmd
  else
    let s1 := s.startResult .hbm 0 Off.hbmRateResult
    if s.mode.dev ≠ .m4 then s1.rateEnd rateMode p
    else if s.hbmBit 8 then s1.rateEnd rateBusy p
    else if s.ratePoint = p ∧ s.hbmBit 10 = false then s1.rateEnd rateOk p
    else if s.hbmBit 10 ∨ s.hbm.tracking then (s1.setHbm 8 true).setHbmSt { s.hbm with heldRate := some p }
    else s1.rateBegin p

/-- A held request is preempted by a pen reset or M11 entry (R556). -/
def State.ratePreempt (s : State) : State :=
  match s.hbm.heldRate with
  | some p => ((s.setHbm 8 false).setHbmSt { s.hbm with heldRate := none }).rateEnd ratePreempted p
  | none => s

/-- HBM_RATE_CMD written (R547). -/
def execRateRequest (r : Requester) (p : Fin 4) (s : State) : Result :=
  .next (s.guarded r .hbm 0 Off.hbmRateCmd (word p) (rateCmdWrite (word p)))

/-- The training in progress is given up for a request that was held: its point is not trained, and its own request ends
PREEMPTED (DESIGN CHOICE, assumption 71). -/
def State.trainDrop (s : State) : State :=
  match s.hbm.want with
  | some p => (((s.setHbm 9 false).setHbm (4 + p) false).setHbmSt { s.hbm with want := none, training := false }).rateEnd ratePreempted p
  | none => s

/-- The step that held a request has ended (R548, R549): a tracking step, or one step of the training of another point, which
the held request takes over. A pause that trains nothing is itself that step. -/
def execHeldRateStart (s : State) : Result :=
  match s.hbm.heldRate with
  | some p =>
    if (s.hbmBit 10 ∧ s.hbmBit 9 = false) ∨ s.hbm.tracking then .next s
    else if s.hbmBit 10 then .next (if s.rtActive then s.rateBegin p else s.trainDrop.rateBegin p)
    else if s.ratePoint = p then .next (((s.setHbm 8 false).setHbmSt { s.hbm with heldRate := none }).rateEnd rateOk p)
    else .next (s.rateBegin p)
  | none => .next s

/-- The pause for point `p` ends (R547). -/
def State.rateSwitched (s : State) (p : Nat) : State :=
  let ok := s.rateTrained p
  let s1 := (s.setHbm 10 false).setHbmSt { s.hbm with want := none, training := false }
  let s2 := if ok then s1.wf .hbm 0 Off.hbmStat 0 2 p else s1
  s2.reserve.rateEnd (if ok then rateOk else rateTrainFail) p

/-- A tracking step begins (`on`) or ends (R546): it adds no time and changes no register. -/
def execTrackingStep (on : Bool) (s : State) : Result := .next (s.setHbmSt { s.hbm with tracking := on })

/-! ### Refresh (R539 to R542) -/

/-- Refresh debt of a pseudo-channel. -/
def State.debt (s : State) (pc : Nat) : Nat := Store.getD (fun _ => 0) s.hbm.debts pc

/-- Store a debt, and HBM_RFSH_DEBT with it (R558). -/
def State.setDebt (s : State) (pc d : Nat) : State :=
  let s1 := s.setHbmSt { s.hbm with debts := Store.setD (fun _ => 0) s.hbm.debts pc d }
  let top := s1.hbm.debts.foldl (fun m e => max m e.2) 0
  let low := ((s1.hbm.debts.find? fun e => e.2 == top).map Prod.fst).getD 0
  let peak := max (s.rf .hbm 0 Off.hbmRfshDebt 16 4) top
  s1.wr .hbm 0 Off.hbmRfshDebt (word (pack [(0, 4, top), (4, 5, if top = 0 then 0 else low), (16, 4, peak)]))

/-- The refresh rules on one pseudo-channel (R540 to R542). A refresh that falls due with no burst about is issued at once; while
owed refreshes are being issued it joins them, as the chapter's worked example shows, and is not postponed. In a pause no refresh
is issued (R556). -/
def execRefreshDue (pc : Fin 32) (c : RefreshCase) (s : State) : Result :=
  let d := s.debt pc
  let paused := s.hbmBit 10
  if s.hbmBit 11 then .next s
  else
    match c with
    | .due busy =>
      if busy || paused then .next ((s.sat .hbm 0 Off.hbmRfshPost 0 32 1).setDebt pc (min 8 (d + 1)))
      else .next (if d = 0 then s else s.setDebt pc (min 8 (d + 1)))
    | .idle => if paused ∨ d = 0 then .next s else .next (s.setDebt pc (d - 1))
    | .boundary panic =>
      if paused then .next s
      else if d = 8 then .next ((s.sat .hbm 0 Off.hbmRfshForced 0 32 1).setDebt pc 7)
      else if d = 7 ∧ panic = false then .next ((s.sat .hbm 0 Off.hbmRfshSplit 0 32 1).setDebt pc 6)
      else .next s

/-- Every owed refresh is issued (R543), or the debts are 0 after a reset (R539). -/
def State.debtsClear (s : State) : State :=
  (s.setHbmSt { s.hbm with debts := [] }).wf .hbm 0 Off.hbmRfshDebt 0 9 0

/-- The stack leaves self-refresh (R543, R544, R654): no refresh is owed, and device messages that waited are posted. -/
def State.hayWake (s : State) : State :=
  if s.hbmBit 11 = false then s
  else
    let s1 := ((s.debtsClear).setHbm 11 false).reserve
    s.hbm.msgs.foldl (fun x m => x.deviceMsg m.1 m.2) (s1.setHbmSt { s1.hbm with msgs := [] })

/-! ### Temperature and repair -/

/-- HBM_TEMP is updated from the stack's sensor, in 0.25 °C; HOT is set above 85 °C (R558). -/
def execHbmTempUpdate (t : BitVec 16) (s : State) : Result :=
  let hot := decide ((340 : Int) < signed 16 t.toNat)
  let s1 := (s.wr .hbm 0 Off.hbmTemp (word t.toNat)).setHbm 14 hot
  .next (if hot && !s.hbmBit 14 then s1.event .hbm 0 5 else s1)

/-- Bank address of a row-log key. -/
def bankOfKey (k : Nat) : Nat := k / 2 ^ 15

/-- HBM_REPAIR_RESULT is stored (R558). -/
def State.repairEnd (s : State) (code : Nat) : State := s.storeResult .hbm 0 Off.hbmRepairResult (code * 2 ^ 8)

/-- A write of HBM_REPAIR_CMD (R555): codes 4 MODE, 1 RT_ACTIVE, 3 NOT_LOGGED, 2 NO_SPARE. -/
def repairCmdWrite (v : Word) (s : State) : State :=
  if tbit v 31 = false ∨ s.hbm.repairing.isSome then s
  else if s.pageEn .hbm 0 = false then s.err .hbm 0 errDisabled Off.hbmRepairCmd
  else
    let s1 := s.startResult .hbm 0 Off.hbmRepairResult
    if s.mode.dev ≠ .m4 then s1.repairEnd 4
    else if s.rtActive then s1.repairEnd 1
    else
      match s.hay.rowLog[fld v 0 4]? with
      | none => s1.repairEnd 3
      | some e =>
        if 2 ≤ Store.getD (fun _ => 0) s.hbm.spares (bankOfKey e.1) then s1.repairEnd 2
        else s1.setHbmSt { s.hbm with repairing := some (fld v 0 4) }

/-- HBM_REPAIR_CMD written with GO = 1 (R555). -/
def execRowRepair (r : Requester) (idx : Fin 16) (s : State) : Result :=
  let v := word (2 ^ 31 + idx)
  .next (s.guarded r .hbm 0 Off.hbmRepairCmd v (repairCmdWrite v))

/-- The repair is complete (R555). -/
def execRowRepairDone (s : State) : Result :=
  match s.hbm.repairing with
  | none => .next s
  | some i =>
    match s.hay.rowLog[i]? with
    | none => .next (s.setHbmSt { s.hbm with repairing := none })
    | some e =>
      let b := bankOfKey e.1
      let n := Store.getD (fun _ => 0) s.hbm.spares b
      let s1 := s.setHbmSt { s.hbm with repairing := none, spares := Store.put s.hbm.spares b (n + 1) }
      let s2 := { s1 with hay := { s1.hay with rowLog := s.hay.rowLog.set i (e.1, true) } }
      .next (s2.repairEnd 0)

/-- HBM_ROW_LOG as it reads (R558). -/
def State.rowLogRead (s : State) : Word :=
  match s.hay.rowLog[s.rf .hbm 0 Off.hbmRowIdx 0 4]? with
  | none => 0
  | some e =>
    word (pack [(0, 15, e.1), (15, 10, bankOfKey e.1), (25, 1, bit e.2), (26, 1, 1),
      (28, 4, min 15 (Store.getD (fun _ => 0) s.hay.rowCe e.1))])

end Sys2Proof.Machine
end

