-- ==== Sys2Proof/Machine/Rings.lean ====
section
/-!
DEFINITION. Rings (R512 to R530): descriptor writes, assignment, doorbells, back-pressure and signalling.
-/

namespace Sys2Proof.Machine

/-- Ring `n` is one that the requester reaches (R514, R577, R40). -/
def State.reachRing (s : State) (r : Requester) (n : Nat) : Bool :=
  s.acting r == some (s.ringOwner n) && s.mode.dev != .m5 &&
    !(decide (r.index < 18) && decide (s.ringOwner n < 8) && s.penBusy (s.ringOwner n))

/-- An error in a descriptor write, recorded in the RNG page (R61, R530). -/
def State.ringErr (s : State) (n cause off : Nat) : State := (s.wr .rng 0 Off.rngErrRing (word n)).err .rng 0 cause off

/-- A waiting producer goes on: an acquisition engine posts what it holds next (R414).
A groom waits while a ring holds an entry of it (R496). -/
def State.producerGoesOn (s : State) (p : Producer) : State :=
  match p with
  | .acq b => s.acqPump b false
  | _ => s

/-- A write of RNG_CTRL of ring `n` (R516 to R518). -/
def ringCtrlWrite (n : Nat) (v : Word) (s : State) : State :=
  let o := Off.rngCtrl
  let old := s.reg (ringAddr n o)
  let log2 := fld v 4 5
  let held := fld v 1 8 != fld old 1 8
  if fld v 2 2 = 3 ∨ log2 < 8 ∨ 30 < log2 then s.ringErr n errValue o
  else if tbit old 0 && held then s.ringErr n errState o
  else
    let new := word (pack [(0, 9, fld v 0 9), (12, 4, fld old 12 4), (16, 2, fld v 16 2), (20, 12, fld v 20 12)])
    let irq := fun (x : State) => if tbit v 17 && !tbit old 17 then x.setRing n { x.ring n with dropMsg := false } else x
    if tbit v 0 && !tbit old 0 then
      if s.ringBase n % 2 ^ log2 ≠ 0 then s.ringErr n errValue o
      else if s.inRegion (s.ringOwner n) anyKind (s.ringBase n) (2 ^ log2) = false then s.ringErr n errOwner o
      else
        let s1 := irq (s.setReg (ringAddr n o) new)
        let s2 := [Off.rngPidx, Off.rngCidx, Off.rngDrop, Off.rngStat].foldl (fun x i => x.setReg (ringAddr n i) 0) s1
        s2.setRing n { RingSt.idle with gap := (s.ring n).gap }
    else
      let s1 := irq (s.setReg (ringAddr n o) new)
      if tbit old 0 && !tbit v 0 then (s.ring n).held.foldl (fun x h => x.producerGoesOn h.prod) (s1.ringDisable n) else s1

/-- A write of RNG_BASE_LO or, `hi`, RNG_BASE_HI of ring `n` (R516, R517): a change is refused while the ring is enabled. The
low word is staged, and the high word commits both (R81). -/
def ringBaseWrite (r : Requester) (n : Nat) (hi : Bool) (v : Word) (s : State) : State :=
  let lo := ringAddr n Off.rngBaseLo
  let newLo := if hi then s.stagedAt r lo else word (fld v 8 24 * 2 ^ 8)
  let newHi := if hi then word (fld v 0 3) else s.reg (ringAddr n Off.rngBaseHi)
  if s.ringEn n && (newLo != s.reg lo || newHi != s.reg (ringAddr n Off.rngBaseHi)) then
    (s.unstageAt lo).ringErr n errState (if hi then Off.rngBaseHi else Off.rngBaseLo)
  else if hi then ((s.setReg lo newLo).setReg (ringAddr n Off.rngBaseHi) newHi).unstageAt lo
  else s.stageAt r lo newLo

/-- A write of RNG_MOD of ring `n`: COAL 0 is refused (R516). -/
def ringModWrite (n : Nat) (v : Word) (s : State) : State :=
  if fld v 0 16 = 0 then s.ringErr n errValue Off.rngMod else s.setReg (ringAddr n Off.rngMod) v

/-- A write of word `o` of the descriptor of ring `n` by `r` (R514, R515). -/
def ringDescWrite (r : Requester) (n o : Nat) (v : Word) (s : State) : State :=
  if s.reachRing r n = false then s.accessError r
  else
    match o with
    | 0x00 => ringCtrlWrite n v s
    | 0x04 => ringBaseWrite r n false v s
    | 0x08 => ringBaseWrite r n true v s
    | 0x14 => ringModWrite n v s
    | _ => s

/-- RNG_CTRL of ring `n` written with EN = 1 and its other fields unchanged (R517). -/
def execRingEnable (r : Requester) (n : Fin 32768) (s : State) : Result :=
  .next (ringDescWrite r n Off.rngCtrl (putBit (s.reg (ringAddr n Off.rngCtrl)) 0 true) s)

/-- RNG_CTRL of ring `n` written with EN = 0 and its other fields unchanged (R518). -/
def execRingDisable (r : Requester) (n : Fin 32768) (s : State) : Result :=
  .next (ringDescWrite r n Off.rngCtrl (putBit (s.reg (ringAddr n Off.rngCtrl)) 0 false) s)

/-! ### The RNG page -/

/-- A write of RNG_ASG_RANGE: LAST below FIRST is refused (R530). -/
def asgRangeWrite (v : Word) (s : State) : State :=
  if fld v 16 15 < fld v 0 15 then s.err .rng 0 errValue Off.rngAsgRange else s.plainWrite .rng 0 Off.rngAsgRange v

/-- A write of RNG_ASG_CMD; GO assigns the range (R513, R46, R69). -/
def asgCmdWrite (v : Word) (s : State) : State :=
  let o := Off.rngAsgCmd
  let own := fld v 0 4
  if 8 ≤ own ∧ own < 15 then s.err .rng 0 errValue o
  else
    let s1 := s.plainWrite .rng 0 o v
    if tbit v 31 = false then s1
    else if s.pageEn .rng 0 = false then s1.err .rng 0 errDisabled o
    else
      let a := s.rf .rng 0 Off.rngAsgRange 0 15
      let b := s.rf .rng 0 Off.rngAsgRange 16 15
      let range := List.range' a (b + 1 - a)
      if s.enabledRings.any fun n => decide (a ≤ n) && decide (n ≤ b) then s1.err .rng 0 errState o
      else
        let moved := range.filter fun n => s.ringOwner n != own
        if moved.isEmpty then s1
        else if s.ownerInM4 own = false ∨ moved.any (fun n => !s.ownerInM4 (s.ringOwner n)) then s1.err .pen 0 errState o
        else moved.foldl (fun x n => x.ringSet n Off.rngCtrl 12 4 own) s1

/-- A write of RNG_EVT_RING[o]: a ring of that owner (R530). -/
def evtRingWrite (o : Nat) (v : Word) (s : State) : State :=
  let own := s.ringOwner (fld v 0 15)
  if ownerIx own = o then s.plainWrite .rng 0 (Off.rngEvtRing o) v else s.err .rng 0 errOwner (Off.rngEvtRing o)

/-- RNG_ASG_CMD written with GO = 1 and the given OWNER (R513). -/
def execRingAssign (r : Requester) (owner : Fin 16) (s : State) : Result :=
  let v := word (2 ^ 31 + owner)
  .next (s.guarded r .rng 0 Off.rngAsgCmd v (asgCmdWrite v))

/-! ### Doorbells and signalling -/

/-- A refused doorbell: BADDB advances, saturating (R516, R526). -/
def State.badDoorbell (s : State) (n : Nat) : State := s.ringSet n Off.rngStat 8 8 (satAdd 255 (s.ringF n Off.rngStat 8 8) 1)

/-- A doorbell that moves the producer index of a command ring to `p` is the order of its records among those of other
rings (R488). -/
def State.bell (s : State) (n p : Nat) : State :=
  if p = s.pidx n then s
  else
    { s.setRing n { s.ring n with bells := (s.ring n).bells ++ [(p, s.cluster.serial)] } with
      cluster := { s.cluster with serial := s.cluster.serial + 1 } }

/-- An access of function `f` to the doorbell of ring `n`: a write of `v`, or a read; `aligned` tells an aligned 32-bit
access (R526, R514). -/
def execDoorbell (f : Fin 18) (n : Fin 32768) (v : Option Word) (aligned : Bool) (s : State) : Result :=
  let p := s.pidx n
  let c := s.cidx n
  let dist := fun (a b : Nat) => (b + 2 ^ 32 - a) % 2 ^ 32
  match v with
  | none =>
    if s.reachRing (.fn f) n = false then .next { s.accessError (.fn f) with resp := [0xFFFFFFFF], cpl := some (s.readStatus f) }
    else if aligned = false then .next { s.badDoorbell n with resp := [0], cpl := some .success }
    else .next { s with resp := [word (if s.ringIn n then c else p)], cpl := some .success }
  | some v =>
    if s.reachRing (.fn f) n = false then .next (s.accessError (.fn f))
    else if aligned = false ∨ s.ringEn n = false then .next (s.badDoorbell n)
    else if s.ringIn n then
      if dist p v.toNat ≤ dist p (c + s.ringCap n) then .next (((s.bell n v.toNat).setReg (ringAddr n Off.rngPidx) v).ringFlags n)
      else .next (s.badDoorbell n)
    else if dist c v.toNat ≤ dist c p then .next ((s.setReg (ringAddr n Off.rngCidx) v).ringFlags n)
    else .next (s.badDoorbell n)

/-- The oldest entry held under BACKP is accepted, the ring having room (R525). -/
def execBackpAccept (n : Fin 32768) (s : State) : Result :=
  match (s.ring n).held with
  | [] => .next s
  | h :: t =>
    let s1 := s.acceptHeld n
    if (s1.ring n).held.length = t.length then .next (s1.producerGoesOn h.prod) else .next s1

/-- TIMER µs have passed since the first entry not yet signalled (R528). -/
def execRingTimer (n : Fin 32768) (s : State) : Result :=
  if s.ringF n Off.rngCtrl 16 1 = 1 ∧ s.ringF n Off.rngMod 16 16 ≠ 0 ∧ 0 < (s.ring n).since then
    .next (s.ringSignal n)
  else .next s

end Sys2Proof.Machine
end

