-- ==== Sys2Proof/Machine/Trip.lean ====
section
/-!
DEFINITION. Rank-1 events of R28 and the entry to M11: what a trip does to its channels (R440, R441), and what M11 does to
the part (R42, R53, R54, R443, R662, R667, R715).
-/

namespace Sys2Proof.Machine

/-! ### Contexts of grooms -/

/-- A routine of an owner that `p` names is to be aborted at its next yield point (R494): running, preempted, or
enclosing a record list. -/
def State.groomAbort (s : State) (p : Nat → Bool) : State :=
  let mark := fun (c : Ctx) => if p c.rcd.owner then { c with abort := true } else c
  let markAll := fun (l : List Chain) => l.map fun h => { h with ctx := mark h.ctx }
  s.grooms.foldl (fun x e =>
    let g := x.groom e.1
    x.setGroom e.1
      { g with ctx := g.ctx.map mark, saved := g.saved.map fun e => (mark e.1, markAll e.2), chains := markAll g.chains }) s

/-! ### Rank-1 events -/

/-- Every channel of sequencer `q` is held by a rank-1 event. -/
def State.allHeld (s : State) (q : Nat) : Bool :=
  let l := s.chansOf q
  !l.isEmpty && l.all fun c => natBit (s.stall (c.1 / 16)).hiz (c.1 % 16)

/-- Sequencers whose every channel is at rank 1 end PREEMPTED (R198). -/
def State.seqRank1 (s : State) : State :=
  (upto 8).foldl (fun x q => if x.allHeld q then x.seqPreempt q else x) s

/-- A rank-1 event strikes the channels of mask `m` of stall `st` (R28, R120, R324, R359, R440): high impedance, the PMUs
that serve them clamped, TIM runs and calibration steps on them ended, and a park by hardware. -/
def State.rank1 (s : State) (st m : Nat) : State :=
  let units := maskOf 4 fun u => m / 2 ^ (4 * u) % 16 != 0
  let s1 := (onesOf units 4).foldl (fun x u => x.pmuClamp st u) s
  let fresh := maskOf 16 fun c => natBit m c && !s.rb .stl st Off.stlPark c
  let s2 := (((s1.pmuParked st fresh).timPreempt st m).farAbortChans st m).hwPark st m
  (onesOf m 16).foldl (fun x c => x.setChan (16 * st + c) (x.chan (16 * st + c)).cancel) s2

/-! ### M11 -/

/-- Cause bits of MOD_M11_CAUSE (R57). -/
def causeCritTemp : Nat := 0
def causeClock : Nat := 1
def causeSupply : Nat := 2
def causeWatchEsc : Nat := 3
def causeTamper : Nat := 4
def causeLock : Nat := 5

/-- MOD_RESULT and MOD_PRESULT codes (R53). -/
def modOk : Nat := 0
def modNoPath : Nat := 1
def modBusy : Nat := 2
def modUnitActive : Nat := 3
def modDeviceMode : Nat := 4
def modBadConfirm : Nat := 5
def modPreempted : Nat := 6
def modPensActive : Nat := 7
def modFailed : Nat := 8

/-- The result of a device request (R53). -/
def State.modEnd (s : State) (code target : Nat) : State :=
  s.storeResult .mod0 0 Off.modResult (code * 2 ^ 8 + target * 2 ^ 12)

/-- The result of a request of domain `d`. -/
def State.pmodEnd (s : State) (d code target : Nat) : State :=
  s.storeResult .modp d Off.modPresult (code * 2 ^ 8 + target * 2 ^ 12)

/-- Every pending transition is overtaken: the requests end PREEMPTED (R54). -/
def State.transPreempt (s : State) : State :=
  let s1 := match s.mode.trans with
    | some (t, true) => s.modEnd modPreempted t.num
    | _ => s
  s1.mode.domTrans.foldl (fun x e => x.pmodEnd e.1 modPreempted e.2.num) s1

/-- Enter a device mode: no transition is left, and the domain modes read as the device mode (R36). -/
def State.enterDev (s : State) (d : DevMode) : State :=
  { s with mode := { s.mode with dev := d, trans := none, doms := [], domTrans := [] } }

/-- A prime in progress ends PREEMPTED (R211). -/
def State.primePreempt (s : State) (q : Nat) : State :=
  if s.mstate q = mMapping then
    ((s.storeResult .seq q Off.seqPrimeResult (0xC * 2 ^ 8)).setMstate q mNomap).err .seq q 19 Off.seqStrmCtrl
  else s

/-- Every stall of the part is taken out of service: PMUs clamped, TIM runs ended, every channel parked (R42, R359). -/
def State.stallsTripped (s : State) : State :=
  (upto 128).foldl (fun x st => (((x.pmuClampStall st).pmuParked st 0xFFFF).timPreempt st 0xFFFF).hwPark st 0xFFFF) s

/-- M11 is entered (R42, R54, R386, R423, R443, R459, R494, R544, R556, R662); a logbook already frozen stays as it is (R663).
From M5 the stack leaves self-refresh, for in M11 its refresh goes on. -/
def State.goM11 (s : State) : State :=
  let s1 := (s.transPreempt.enterDev .m11).hayWake
  let s2 := (s1.farPreempt).stallsTripped
  let s3 := (upto 8).foldl (fun x q => (x.seqPreempt q).primePreempt q) s2
  let s4 := ((upto 8).foldl (fun x b => x.acqPreempt b) s3).cnvAll State.cnvPreempt
  let s5 := (s4.ratePreempt).groomAbort fun _ => true
  { s5 with pins := { s5.pins with tripLow := true, wakeLow := false }, lan := { s5.lan with closed := !s5.lan.frozen } }

/-- A cause of M11 arises (rows 9 and 11 of R47, R715): its bit is set, and a part that is in M2 to M10 enters M11. The
block that raises it has offered its own logbook entry before. -/
def State.enterM11 (s : State) (cause : Nat) : State :=
  match s.mode.dev with
  | .m0 | .m1 => s
  | .m11 => s.wb .mod0 0 Off.modM11Cause cause true
  | _ => (s.wb .mod0 0 Off.modM11Cause cause true).goM11

/-- After M11 entry the queue is written, then M11_ENTRY, and the logbook freezes (R662, R674). -/
def State.freeze (s : State) : State :=
  if s.lan.closed = false ∨ s.lan.frozen then s
  else
    let s1 := s.logDrain
    let slot := s1.lan.wptr
    let s2 := s1.logWrite (logBody logM11 PageKind.mod0.typeCode 0 (s1.rf .mod0 0 Off.modM11Cause 0 6))
    { s2 with lan := { s2.lan with frozen := true, closed := false, frz := slot } }

/-- The lantern has written its queue and the M11_ENTRY entry, at lantern tick `t` (R662). -/
def execLogFreeze (t : BitVec 40) (s : State) : Result := .next (s.lanAt t.toNat).freeze

/-- TYPE, INSTANCE and DATA of the CLOCK_LOSS entry (R659). REFCLK, the yard PLL and the chore oscillator belong to the
yard (YRD of R66). -/
def clockEntry (c : ClockLoss) : Nat × Nat × Nat :=
  match c with
  | .refclk => (PageKind.yrd.typeCode, 0, 0)
  | .barnPll b => (PageKind.brn.typeCode, b.val, 1)
  | .yardPll => (PageKind.yrd.typeCode, 0, 2)
  | .chore => (PageKind.yrd.typeCode, 0, 3)

/-- REFCLK, a PLL or the chore oscillator is lost (R666, R667): a CLOCK_LOSS entry, and M11 with CLOCK set. The clock monitor
that finds a lost REFCLK stops with the chore oscillator, and the host loses its access with the yard PLL (R668). -/
def execClockLoss (c : ClockLoss) (s0 : State) : Result :=
  let s := if c = .chore ∧ s0.pins.vin then { s0 with rst := { s0.rst with choreLost := true } } else s0
  match s.mode.dev with
  | .m0 | .m1 => .next s
  | _ =>
    if s0.rst.choreLost ∧ (c = .chore ∨ c = .refclk) then .next s
    else
    let e := clockEntry c
    let s1 := match c with
      | .refclk => (upto 8).foldl (fun (x : State) b => x.wb .tmb b Off.tmbStat 0 false) s
      | .barnPll b => s.wb .tmb b Off.tmbStat 0 false
      | .yardPll => { s with rst := { s.rst with yardLost := true } }
      | _ => s
    .next ((s1.logOffer logClock e.1 e.2.1 e.2.2).enterM11 causeClock)

end Sys2Proof.Machine
end

