-- ==== Sys2Proof/Machine/Resets.lean ====
section
/-!
DEFINITION. Resets and their reach (R62 to R64, R471, R544, R577, R592, R625 to R633, R714): what each reset clears and
what it keeps. The commands stand in Boot, Pens and PageOps.
-/

namespace Sys2Proof.Machine

/-! ### Counting (R629, R630) -/

/-- Causes of R625. -/
def rstLanternPor : Nat := 0
def rstVinPor : Nat := 1
def rstResetN : Nat := 2
def rstCritTemp : Nat := 3
def rstTamper : Nat := 4
def rstRecovery : Nat := 5
def rstPerst : Nat := 6
def rstGroomWdt : Nat := 7
def rstPen : Nat := 8
def rstPage : Nat := 9

/-- The reset counter of a cause. -/
def Lantern.count (l : Lantern) (c : Nat) : Nat := Store.getD (fun _ => 0) l.rstCnt c

/-- A source becomes asserted: its counter and the total advance. -/
def State.countReset (s : State) (c : Nat) : State :=
  let l := s.lan
  { s with lan := { l with
      rstCnt := Store.setD (fun _ => 0) l.rstCnt c (satAdd 0xFFFF (l.count c) 1)
      rstTotal := satAdd 0xFFFFFFFF l.rstTotal 1 } }

/-- A source of PERST_N reach or wider asserts: the episode in progress takes the widest cause. -/
def State.episodeJoin (s : State) (c : Nat) : State :=
  { s with rst := { s.rst with episode := some (min c (s.rst.episode.getD c)) } }

/-- The episode ends once no source of PERST_N reach or wider is asserted: RST_LAST, and a RESET entry. -/
def State.episodeEnd (s : State) : State :=
  match s.rst.episode with
  | some c =>
    if s.pins.vin && !s.pins.resetN && !s.pins.perstN then
      let s1 := { s with rst := { s.rst with episode := none }, lan := { s.lan with rstLast := c } }
      s1.logOffer logReset PageKind.rst.typeCode 0 c
    else s
  | none => s

/-! ### Blocks -/

/-- Registers that stay as they are through a reset of the block's page: switches on their way (R129), the tack room (R471),
key epochs (R714), lock failures, which only a reset of the island clears (R634), and what the lantern holds (R640). -/
def liveReg (k : PageKind) (o : Nat) : Bool :=
  match k with
  | .stl => o == Off.stlStat
  | .swm => o == Off.swmCurDrv || o == Off.swmCurPmu || o == Off.swmCurCal
  | .tak => o == Off.takStat || o == Off.takEpochA || o == Off.takEpochB || (0x50 ≤ o && o < 0x70)
  | .far => o == Off.farEpoch
  | .pen => 0x80 ≤ o && o < 0xA4
  | .rst => decide (0x40 ≤ o) && o != Off.rstStat && o != Off.rstOpt
  | _ => false

/-- A sequencer's run and stream end at once (R198, R211, R577). What the APG page and the site page show, and what records
still in the catch unit need, is not of the control page and stays (R63, R290). -/
def State.seqClear (s : State) (q : Nat) : State :=
  let s1 := (s.seqPreempt q).primePreempt q
  let s2 := match (s1.seq q).ending with
    | some e => if s1.seqState q = sDrain then (s1.cancelEdges q).finishRun q e else s1
    | none => s1
  let x := s2.seq q
  s2.setSeq q { SeqSt.idle with cfg := x.cfg, sites := x.sites, ran := x.ran, runNum := x.runNum, apg := x.apg, apgPrev := x.apg }

/-- Mask of a stall's sixteen channels. -/
def allChans : Nat := 0xFFFF

/-- Erase entries of a store whose key lies in `lo` to `hi - 1`. -/
def dropRange {α : Type} (m : List (Nat × α)) (lo hi : Nat) : List (Nat × α) :=
  Store.keep (fun k => decide (k < lo) || decide (hi ≤ k)) m

/-- Trip conditions of a stall: its watch comparators hold the channels of mask `m` at high impedance (R441). -/
def State.setTrips (s : State) (st t : Nat) : State := { s with trips := Store.setD (fun _ => 0) s.trips st t }

/-- Replace the thermal caps; THROTTLED of every PMU follows (R342, R648). -/
def State.setCaps (s : State) (l : List (Nat × Nat)) : State :=
  if s.caps = l then s
  else (upto 512).foldl (fun x j => x.throttle (j / 4) (j % 4)) { s with caps := l }

/-- The block of a page stops, and what it holds beside its registers is gone (R60, R63, R625, and the collisions named in
the chapters). A page of a stall parks the stall's channels, as a commanded park. -/
def State.blockClear (s : State) (k : PageKind) (i : Nat) : State :=
  match k with
  | .stl =>
    let s1 := s.park i allChans
    { s1 with follow := dropRange s1.follow (16 * i) (16 * i + 16) }
  | .lvl | .cmp => s.park i allChans
  | .drv => let s1 := s.park i allChans; s1.setStall i { s1.stall i with slewAct := 0 }
  | .swm => s.park i allChans
  | .tim =>
    let s1 := s.park i allChans
    { s1 with tims := dropRange s1.tims (16 * i) (16 * i + 16), verniers := Store.drop s1.verniers i }
  | .pmu =>
    let s1 := s.park i allChans
    let s2 := (upto 4).foldl (fun x u => if x.pmuRange i u ≠ 3 ∨ x.pmuFi i u then x.cnvDisturb i u else x) s1
    { s2 with pmus := dropRange s2.pmus (4 * i) (4 * i + 4), waves := dropRange s2.waves (16384 * i) (16384 * i + 16384) }
  | .cnv =>
    let s1 := (upto 4).foldl (fun x u => x.cnvPreempt i u) (s.park i allChans)
    { s1 with cnvs := dropRange s1.cnvs (4 * i) (4 * i + 4) }
  | .wch => { (s.setTrips i 0).setStall i { s.stall i with hiz := 0 } with
      sampling := Store.drop s.sampling i, wchPend := Store.drop s.wchPend i }
  | .seq => s.seqClear i
  | .apg => s.setSeq i { s.seq i with apg := Apg.idle, apgPrev := Apg.idle }
  | .site => let s1 := s.capFlush i; s1.setSeq i { s1.seq i with sites := Sites.idle, ran := false, snaps := [] }
  | .cat => { s with catBuf := [] }
  | .tset => { s with tsEdges := dropRange s.tsEdges (12288 * i) (12288 * i + 12288)
                      tsDirty := s.tsDirty.filter fun d => d / 32 != i }
  | .acq => let s1 := s.acqPreempt i; { s1 with acqs := Store.drop s1.acqs i }
  | .brn => let s1 := s.refOff i; if i = 0 then { s1 with line := State.reset.line } else s1
  | .tmb => if i = 0 then { s with armed := none } else s
  | .far => (s.storeCut.farAbort fun _ => true).setFar { s.far with ending := none, win := none, steps := [] }
  | .hbm => { s with hay := { s.hay with rowCe := [], rowLog := [] }
                     hbm := { State.reset.hbm with msgs := s.hbm.msgs } }
  | .groom => { s with grooms := Store.drop s.grooms i }
  | .hal =>
    let s1 := { s with pins := { s.pins with selLow := 0 } }
    { s1 with halter := { State.reset.halter with mosi := s1.halter.mosi } }
  | .gth => { s with gth := { s.gth with nonce := false, submit := none } }
  | .wvn =>
    let s1 := { s.setCaps [] with weather := ⟨0, 0, [], [], [], none, []⟩, pins := { s.pins with alertLow := false } }
    (upto 8).foldl (fun (x : State) q =>
      let y := x.wb .seq q Off.seqStat 5 false
      y.setSeq q { y.seq q with thermSeg := false, thermVec := false }) s1
  | _ => s

/-- The BRN pages show one mains line: PER in use, and LOCKED, LOST and NVALID of barn 0, whose reset restarts it (R371, R391). -/
def State.lineShow (s : State) : State :=
  (upto 8).foldl (fun x b => x.wr .brn b Off.brnLineStat (s.rd .brn 0 Off.brnLineStat)) s.linePerUpdate

/-- What a page that has been reset shows of the hardware behind it: PMUs and converters the owner's mode (R355) and a standing
thermal cap (R342), a BRN page the mains line. -/
def State.repower (s : State) (k : PageKind) (i : Nat) : State :=
  let s1 := if k = .pmu then (upto 4).foldl (fun x u => x.throttle i u) s else if k = .brn then s.lineShow else s
  if (k = .pmu ∨ k = .cnv) ∧ s.pmuPowered i then s1.pmuPower i true else s1

/-- Results of a run and of a priming that a pen reset ends: R198 and R211 name the reset as what ends them, with the code
and the sequence number that they store. The results of the other pages return to their reset values with the page (R87, R324,
R386, R423, R625; DEDUCED, assumption 31). -/
def resultReg (k : PageKind) (o : Nat) : Bool :=
  k == .seq && (o == Off.seqResultLo || o == Off.seqResultHi || o == Off.seqPrimeResult)

/-- Fields whose own row says which resets clear them, a page soft reset not being one: register, lowest bit, width (R604,
R640). -/
def keptFields (k : PageKind) : List (Nat × Nat × Nat) :=
  match k with
  | .gth => [(Off.gthStat, 2, 3)]
  | .rst => [(Off.rstOpt, 12, 4)]
  | _ => []

/-- What a register reads as right after a reset of its page, where that is no constant: the option of SPLIT (R580), the kept
fields, and entry 0 of the regions (R714). -/
def State.wipedReg (s : State) (k : PageKind) (i o : Nat) : Word :=
  let kept := (keptFields k).foldl (fun w f => if f.1 = o then putFld w f.2.1 f.2.2 (s.rf k i o f.2.1 f.2.2) else w)
    (regReset (k.addr i o))
  if k = .hlk ∧ o = Off.hlkPortcfg then word (bit (s.otp.split && s.rst.optDone)) else kept

/-- The registers of a page whose block has stopped return to their reset values, but for PG_OWNER, SLOCK, what `liveReg` and
`keptFields` name, and results that differ from those of `ref`; LOCK is cleared (R63, R64, R625). -/
def State.pageWipe (s ref : State) (k : PageKind) (i : Nat) : State :=
  let s1 := s.resetPage k i fun o =>
    o == Off.pgOwner || o == Off.pgLock || liveReg k o || (resultReg k o && s.rd k i o != ref.rd k i o)
  let parts := if k = .hlk then [Off.hlkPortcfg] else (keptFields k).map Prod.fst
  let s2 := parts.foldl (fun x o => x.wr k i o (s.wipedReg k i o)) s1
  ((s2.wb k i Off.pgLock 0 false).repower k i).forgetPage k i

/-- A page and its block are reset. A halter master transfer ends PREEMPTED (R622). A page soft reset of one TMB page is no
reset of the barns: it clears that page's EPOCH_VALID, and the tick count runs on (DESIGN CHOICE, assumption 79). -/
def State.pageReset (s : State) (k : PageKind) (i : Nat) : State :=
  let s1 := s.blockClear k i
  let s2 := s1.pageWipe s1 k i
  if k = .hal ∧ s.halter.xfer.isSome then (s2.storeResult .hal 0 Off.halMresult (2 * 2 ^ 8)).event .hal 0 1 else s2

/-- A page is reset as part of a pen reset that began at `ref`: the results that end in it stay, for R198, R211 and R423 name
them as what the reset gives (DEDUCED, assumption 31). -/
def State.penPage (s ref : State) (k : PageKind) (i : Nat) : State := (s.blockClear k i).pageWipe ref k i

/-- The eight pages and the WCH page of a stall. -/
def stallPages : List PageKind := [.stl, .lvl, .drv, .cmp, .swm, .tim, .pmu, .cnv, .wch]

/-- The four pages of a sequencer. -/
def seqPages : List PageKind := [.seq, .apg, .tset, .site]

/-- Every page of a stall is reset. -/
def State.stallReset (s ref : State) (st : Nat) : State := stallPages.foldl (fun x k => x.penPage ref k st) s

/-- Every page of a sequencer is reset. -/
def State.seqReset (s ref : State) (q : Nat) : State := seqPages.foldl (fun x k => x.penPage ref k q) s

/-- Stalls and sequencers of owner `o`. -/
def State.stallsOf (s : State) (o : Nat) : List Nat := (upto 128).filter fun i => s.ownerOf .stl i == o
def State.seqsOf (s : State) (o : Nat) : List Nat := (upto 8).filter fun q => s.ownerOf .seq q == o
def State.acqsOf (s : State) (o : Nat) : List Nat := (upto 8).filter fun b => s.acqOwner b == o

/-- Every ring of owner `o` is disabled (R518). -/
def State.ringsOff (s : State) (o : Nat) : State :=
  (s.enabledRings.filter fun n => s.ringOwner n == o).foldl (fun x n => x.ringDisable n) s

/-- The rings of owner `o` are disabled first, so that nothing that ends posts to them; then its acquisition engines, if
`acqs`, its sequencers and its stalls are reset (R423, R518, R625). -/
def State.ownerReset (s : State) (o : Nat) (acqs : Bool) : State :=
  let s1 := s.ringsOff o
  let s2 := if acqs then (s1.acqsOf o).foldl (fun x b => x.penPage s .acq b) s1 else s1
  let s3 := (s2.seqsOf o).foldl (fun x q => x.seqReset s q) s2
  (s3.stallsOf o).foldl (fun x st => x.stallReset s st) s3

/-! ### Pen reset (R577, R625) -/

/-- A pen's domain returns to M4; a pending request ends PREEMPTED (R54). -/
def State.domainHome (s : State) (d : Nat) : State :=
  let s1 := match Store.get? s.mode.domTrans d with
    | some t => s.pmodEnd d modPreempted t.num
    | none => s
  { s1 with mode := { s1.mode with doms := Store.drop s1.mode.doms d, domTrans := Store.drop s1.mode.domTrans d } }

/-- The cluster forgets what it keeps for pen `p`: contact verdicts (R487), counters (R485), and, so that nothing of one
tenant reaches the next, the results and the timers of its records (assumption 41). -/
def State.clusterForget (s : State) (p : Nat) : State :=
  let c := s.cluster
  { s with cluster := { c with
      verdicts := dropRange c.verdicts (2048 * p) (2048 * p + 2048)
      counters := dropRange c.counters (16 * p) (16 * p + 16)
      results := dropRange c.results (65536 * p) (65536 * p + 65536)
      timers := c.timers.filter fun t => t.owner != p } }

/-- What a pen reset does, short of its count and its keys: the pen's pages, stalls, sequencers, rings, records and domain
mode. -/
def State.penApply (s : State) (p : Nat) : State :=
  let s1 := (s.groomAbort fun o => o == p).ratePreempt
  let s2 := ((s1.ownerReset p true).pageReset .modp p).clusterForget p
  let s3 := s2.domainHome p
  (s3.stallsOf p).foldl (fun x st => x.pmuPower st false) (s3.setPenBusy p true)

/-- The reset of pen `p` by FLR, hot reset, link down, PEN_RST or an unlock: counted once while it runs (R629). -/
def State.penReset (s : State) (p : Nat) : State :=
  if s.penBusy p then s
  else
    let s1 := (((s.countReset rstPen).penApply p).newKey p)
    { s1 with rst := { s1.rst with pens := s1.rst.pens ||| 2 ^ p } }

/-! ### Pages in a wider reset (R626, R638) -/

/-- Pages in whose PG_CTRL SRST is set. -/
def State.softResets (s : State) : List PageRef :=
  s.regs.filterMap fun e => if e.1 % 0x1000 = Off.pgCtrl ∧ tbit e.2 1 then pageAt e.1 else none

/-- The reach of PERST_N includes the page (R625): the grooms, the pages of stalls and sequencers, and what pens own beside
them. -/
def State.perstPage (s : State) (k : PageKind) (i : Nat) : Bool :=
  k == .groom || k == .grm || stallPages.contains k || seqPages.contains k || decide (s.ownerOf k i < 8)

/-- The page is in a reset wider than its own: PERST_N, or the reset of the pen that owns it. -/
def State.widerReset (s : State) (k : PageKind) (i : Nat) : Bool :=
  (s.pins.perstN && s.perstPage k i) || (decide (s.ownerOf k i < 8) && s.penBusy (s.ownerOf k i))

/-- A wider reset of the pages for which `ok` holds releases: SRST reads 0 (R638). -/
def State.srstRelease (s : State) (ok : PageKind → Nat → Bool) : State :=
  s.softResets.foldl (fun x p => if ok p.kind p.inst then x.wb p.kind p.inst Off.pgCtrl 1 false else x) s

/-! ### PERST_N reach -/

/-- Configuration state of a function after its reset, and its MSI-X table (R577, R578). -/
def State.fnReset (s : State) (f : Nat) : State :=
  { s with fns := Store.drop s.fns f, vmask := dropRange s.vmask (4096 * f) (4096 * f + 4096)
           pba := dropRange s.pba (4096 * f) (4096 * f + 4096)
           msix := dropRange s.msix (12288 * f) (12288 * f + 12288) }

/-- Functions of a port (R563). -/
def portFns (k : Nat) : List Nat := List.range' (9 * k) 9

/-- Store DL_UP of port `k`; a change raises LINK (R581). -/
def State.setLink (s : State) (k : Nat) (v : Word) : State :=
  let links := maskOf 2 fun i => if i = k then tbit v 8 else s.linkUp i
  let s1 := { s with rst := { s.rst with links := links } }.wr .hlk 0 (Off.hlkLstat k) v
  if s.linkUp k != tbit v 8 then s1.event .hlk 0 1 else s1

/-- A host-link port is in reset: its link is down and its functions are reset. -/
def State.portReset (s : State) (k : Nat) : State := (portFns k).foldl State.fnReset (s.setLink k 0)

/-- The locks of every page are cleared (R64, R625). -/
def State.unlockAll (s : State) : State :=
  { s with regs := Store.keep (fun a => a % 0x1000 != Off.pgLock || (pageAt a).isNone) s.regs }

/-- The debug lock closes (R596). -/
def State.debugLock (s : State) : State :=
  { s with gth := { s.gth with nonce := false, submit := none, rejected := 0, unlocked := false } }.wf .gth 0 Off.gthStat 2 3 0

/-- The groom cluster is reset; the loaded patch stays (R625). -/
def State.clusterReset (s : State) : State :=
  let s1 := (upto 8).foldl (fun x g => x.pageReset .groom g) s
  let patch := s1.rd .grm 0 Off.grmPatch
  let c := s1.cluster
  ({ s1 with cluster := ⟨c.patchRam, c.matchRegs, c.patchDisp, [], [], [], [], [], [], [], 0⟩ }.pageReset .grm 0).wr .grm 0 Off.grmPatch patch

/-- PERST_N goes low (R625): the resets of pens that run are absorbed (R638). -/
def State.perstApply (s : State) : State :=
  let s1 := ((s.portReset 0).portReset 1).clusterReset
  let s2 := (upto 8).foldl (fun x p => if x.penBusy p then x else x.penApply p) s1
  let s3 := ((s2.ownerReset 15 false).unlockAll).debugLock
  let isl := maskOf 12 fun i => natBit s3.rst.isl i && decide (i < 10)
  ({ s3 with rst := { s3.rst with isl := isl, pens := 0 } }.wf .rst 0 Off.rstIslPend 10 2 0).wf .rst 0 Off.rstIslLockfail 10 2 0

/-! ### Resets of VIN_POR reach -/

/-- Registers that a recovery reset keeps (R471). -/
def tackReg (a : Nat) : Bool :=
  match pageAt a with
  | some ⟨.tak, _⟩ => liveReg .tak (a % 0x1000)
  | some ⟨.far, _⟩ => liveReg .far (a % 0x1000)
  | _ => false

/-- A tamper source is found (R599, R600): its bit and a logbook entry. -/
def State.tamperMark (s : State) (src : Nat) : State :=
  let s1 := { s with lan := { s.lan with tamper := s.lan.tamper ||| 2 ^ src } }
  (s1.logOffer logTamper PageKind.gth.typeCode 0 s1.lan.tamper).event .gth 0 1

/-- Every switch that is closed breaks, and its cycle is counted (R113). -/
def State.breakAll (s : State) : State :=
  s.regs.foldl (fun x e =>
    match pageAt e.1 with
    | some ⟨.swm, st⟩ =>
      let o := e.1 % 0x1000
      let breaks := fun (k : Nat) => (onesOf e.2.toNat 16).foldl (fun (y : State) c =>
        y.wearCycle st (3 * c + k) (k == 1 && natBit (s.stall st).hotMade c)) x
      if o = Off.swmCurDrv then breaks 0 else if o = Off.swmCurPmu then breaks 1 else if o = Off.swmCurCal then breaks 2 else x
    | _ => x) s

/-- Everything but the lantern is reset. With VIN present the switches open by their actuation, which counts (R113), and the
contents of the hayloft stay, in self-refresh (R544), under the bank mapping that the reset restores. Those breaks are judged
against SWM_WEAR_WARN as it stood before the reset; the spec gives no order of the two (DESIGN CHOICE, assumption 78). `por`:
the reach is VIN_POR or wider. `recovery`: the tack room is kept (R471). An OTP programming completes first, and the tamper
events that waited for it are marked (R602, R633); option loading that was in progress counts a restart (R631), and a STORE that
was in progress leaves its slot undefined (R595; assumption 85). -/
def State.wideReset (s : State) (por recovery : Bool) : State :=
  let s0 := (if s.pins.vin then (onesOf s.gth.heldTamper 5).foldl State.tamperMark s.breakAll else s).freeze
  let r := State.reset
  let lost := !s.pins.vin
  let old := s.rf .rst 0 Off.rstOpt 12 4
  let restarts := if por then 0 else satAdd 15 old (bit s.rst.loading)
  let s1 : State :=
    { r with
      now := s.now, epoch := s.epoch, free := s.free + 1
      regs := Store.keep (fun a => recovery && tackReg a) s.regs
      sent := s.sent
      pins := { r.pins with vin := s.pins.vin, vbak := s.pins.vbak, resetN := s.pins.resetN, perstN := s.pins.perstN
                            evIn := s.pins.evIn, indexN := s.pins.indexN, csLow := s.pins.csLow }
      mode := { r.mode with tackLoaded := recovery }
      lan := s0.lan
      otp := { s.otp with svn := s.gth.programming.getD s.otp.svn }
      flash := s.storeCut.flash
      hay := if lost then r.hay else { s.hayUnmap with rowCe := [], rowLog := [] }
      keys := s.keys, keyGen := s.keyGen
      far := if recovery then { r.far with bankA := s.far.bankA, bankB := s.far.bankB, gen := s.far.gen, base := s.far.base
                                           trims := s.far.trims, slot := s.far.slot, known := s.far.known }
        else { r.far with gen := s.far.gen, known := s.far.known }
      rst := { r.rst with isl := 0, loading := false, porCounted := s.rst.porCounted, episode := s.rst.episode
                          lanternLost := s.rst.lanternLost, choreLost := s.rst.choreLost && s.pins.vin }
      pending := s.pending }
  s1.wf .rst 0 Off.rstOpt 12 4 restarts

/-- The release of the yard falls due once no source of VIN_POR reach is asserted (R626, R634). -/
def State.yardDue (s : State) : State :=
  if s.pins.vin && !s.pins.resetN then s.wb .rst 0 Off.rstIslPend 8 true else s

/-- A recovery request is honoured (R48, R625): the reset of the critical-thermal and tamper reach, at whose release the
yard is due. MOD_RESULT is reset with the rest, and no OK result is stored for the request, whose transition is the reset
itself (DESIGN CHOICE, assumption 63). -/
def State.recover (s : State) : State :=
  let cause := if s.rb .mod0 0 Off.modM11Cause causeCritTemp then rstCritTemp
    else if s.rb .mod0 0 Off.modM11Cause causeTamper then rstTamper else rstRecovery
  ((((s.wideReset false true).countReset cause).episodeJoin cause).yardDue).episodeEnd

end Sys2Proof.Machine
end

