-- ==== Sys2Proof/Machine/Modes.lean ====
section
/-!
DEFINITION. Operating Modes (R35 to R58, R709, R715): requests of device and domain transitions, their ends, waking, and
the events of EV_IN.
-/

namespace Sys2Proof.Machine

/-! ### Watch comparators that lose their state (R432, R441) -/

/-- The enabled comparators of stall `st`: bit c upper, bit 16 + c lower. -/
def State.watchEnabled (s : State) (st : Nat) : Nat :=
  if s.pageEn .wch st then maskOf 32 fun i => s.rb .wch st (Off.wchCfg (i % 16)) (i / 16) else 0

/-- Channels of the stall that comparator `i` protects (R439). -/
def State.watchChans (s : State) (st i : Nat) : Nat :=
  if s.rb .wch st (Off.wchCfg (i % 16)) 2 then 0xF * 2 ^ (4 * (i % 16 / 4)) else 2 ^ (i % 16)

/-- Store the trip conditions of a stall; the channels that they hold stay at high impedance (R28, R441). -/
def State.tripHold (s : State) (st t : Nat) : State :=
  let s1 := s.setTrips st t
  s1.setStall st { s1.stall st with hiz := (onesOf t 32).foldl (fun m i => m ||| s1.watchChans st i) 0 }

/-- Comparators of mask `m` are UNRESOLVED where they are enabled, and OFF where they are not (R432, R446). -/
def State.watchUnres (s : State) (st m : Nat) : State :=
  let en := s.watchEnabled st
  let keep := fun (w n : Nat) => maskOf 32 fun i => if natBit m i then natBit n i else natBit w i
  let t := Store.getD (fun _ => 0) s.trips st
  let s1 := s.wr .wch st Off.wchUnres (word (keep (s.rd .wch st Off.wchUnres).toNat en))
  let s2 := s1.wr .wch st Off.wchLive (word (keep (s.rd .wch st Off.wchLive).toNat 0))
  if t = 0 then s2 else s2.tripHold st (keep t 0)

/-- Every comparator of a stall. -/
def allWatch : Nat := 0xFFFFFFFF

/-! ### Entering and leaving device modes -/

/-- Entry to M5 (R39, R41, R380, R432, R435, R543): the hayloft goes into self-refresh, the reference buffers and the barn
PLLs are off, and every comparator is unresolved. Row 5 of R47 does not test the farrier, and no rule ends its run, its steps
or its armed window here: they stay as they are (DESIGN CHOICE, assumption 77). -/
def State.enterM5 (s : State) : State :=
  let s1 := ((s.debtsClear).setHbm 11 true).reserve
  let s2 := (upto 8).foldl (fun x b => x.refOff b) s1
  let s3 := (upto 128).foldl (fun x st => x.watchUnres st allWatch) s2
  (s3.tmbBit 0 false).enterDev .m5

/-- M5 is left (R543, R654): the hayloft is out of self-refresh, device messages that waited are posted, and the barns are
locked again. What the tick count shows after the barn clocks have stopped is not stated: a free value. -/
def State.leaveM5 (s : State) : State :=
  let s1 := s.tmbBit 0 true
  let s2 := { s1.useFree with epoch := min (s1.now * 1250) (1250 * Config.freeNat s1.free) }
  let s3 := (s2.enterDev .m4).hayWake
  { s3 with pins := { s3.pins with wakeLow := false } }

/-- Entry to M10 (R467): PMUs are up, every channel whose switches are not still opening is unparked, and a batch of the
farrier's own, with its cycles, closes the driver switches and opens the PMU switches. -/
def State.enterM10 (s : State) : State :=
  ((upto 128).foldl (fun x st =>
    let y := x.pmuPower st true
    let able := maskOf 16 fun c => !(y.stall st).opens c
    let z := (y.wf .stl st Off.stlPark 0 16 (clearMask allChans able)).wf .stl st Off.stlStat 0 16
      (clearMask (y.rf .stl st Off.stlStat 0 16) able)
    z.batchMove st (z.mkBatch st able 0 false false) 0 0 true) s).enterDev .m10

/-- M10 is left (R467): every channel is parked, its switches open, and the PMUs are down. -/
def State.leaveM10 (s : State) : State :=
  ((upto 128).foldl (fun x st =>
    let y := x.park st allChans
    ((upto 16).foldl (fun z c => z.parkDone st c) y).pmuPower st false) s).enterDev .m4

/-! ### Waking (R54, R57, R58, R614) -/

/-- MOD_WAKE_SRC bits. -/
def wakeCmd : Nat := 0
def wakeWch : Nat := 1
def wakeEv : Nat := 2
def wakeHalter : Nat := 3

/-- Begin to leave M5 on a source; `req` tells that a MOD_CMD request asks for it. -/
def State.wakeBegin (s : State) (src : Nat) (req : Bool) : State :=
  let out := s.rb .mod0 0 Off.modWakeEn 4 && src != wakeCmd
  { s.setTrans (some (.m4, req)) with pins := { s.pins with wakeLow := s.pins.wakeLow || out } }

/-- A wake source occurs: it is recorded and wakes the part; during the entry to M5 the wake follows the entry. -/
def State.wake (s : State) (src : Nat) (line : Nat) (req : Bool) : State :=
  let en := src = wakeCmd || s.rb .mod0 0 Off.modWakeEn src
  let entering := s.mode.dev = .m4 ∧ (s.mode.trans.map Prod.fst) = some .m5
  if en = false then s
  else
    let s1 := (s.wb .mod0 0 Off.modWakeSrc src true).wf .mod0 0 Off.modWakeSrc 8 4 (s.rf .mod0 0 Off.modWakeSrc 8 4 ||| line)
    if s.mode.dev = .m5 ∧ s.mode.trans = none then s1.wakeBegin src req
    else if entering then { s1 with mode := { s1.mode with wakeDue := some (s.mode.wakeDue.getD src) } }
    else s

/-! ### Device requests -/

/-- A cause of M11 is still present (R709). `clock` and `shield` are the findings of the clock monitor and of the SHIELD
detector at the moment of the request; a lost chore oscillator stays lost (R668). -/
def State.causePresent (s : State) (clock shield : Bool) : Bool :=
  let bit := fun c => s.rb .mod0 0 Off.modM11Cause c
  let hot := s.weather.effs.any fun e => decide (e.1 < 72) && decide (500 ≤ e.2)
  let oor := maskOf 24 fun n => n != 6 && s.rb .wvn 0 Off.wvnSupOor n
  let esc := (upto 128).any fun st => (upto 32).any fun i =>
    s.rb .wch st Off.wchLive i && s.rf .wch st (Off.wchCfg (i % 16)) (16 + 2 * (i / 16)) 2 == 2
  (bit causeCritTemp && hot) || (bit causeClock && (clock || s.rst.choreLost)) || (bit causeSupply && oor != 0) ||
    (bit causeWatchEsc && esc) || (bit causeTamper && shield)

/-- Device mode of a MOD_CMD target. -/
def devTarget : Nat → Option DevMode
  | 2 => some .m2 | 4 => some .m4 | 5 => some .m5 | 10 => some .m10 | _ => none

/-- The first refusal of a device request, in the order of R53; `modOk` when it is honoured (R47, R52). -/
def State.modCheck (s : State) (v : Word) (clock shield : Bool) : Nat :=
  let t := devTarget (fld v 0 4)
  let path := match s.mode.dev, t with
    | .m4, some .m5 | .m4, some .m10 | .m5, some .m4 | .m10, some .m4 | .m11, some .m2 => true
    | _, _ => false
  let away := t = some .m5 || t = some .m10
  if fld v 8 8 ≠ 0xC3 then modBadConfirm
  else if s.mode.trans.isSome then modBusy
  else if path = false then modNoPath
  else if away ∧ (s.domainsInM4 = false ∨ s.groomBusy) then modPensActive
  else if t = some .m5 ∧ (s.hbmBit 10 ∨ s.hbmBit 8) then modUnitActive
  else if t = some .m2 ∧ s.causePresent clock shield then modFailed
  else modOk

/-- A write of MOD_CMD (R47, R51 to R54, R57, R709). Any write wakes the part from M5. While a request is pending there is
one result register for two requests: the BUSY result of the second is stored with VALID = 1, and the register then shows
it until the outcome of the first is known (DESIGN CHOICE, assumption 63). -/
def modCmdWrite (v : Word) (clock shield : Bool) (s : State) : State :=
  let code := s.modCheck v clock shield
  let s1 := if s.mode.trans.isSome then s else s.startResult .mod0 0 Off.modResult
  let refused := s1.modEnd code (fld v 0 4)
  if code ≠ modOk then refused.wake wakeCmd 0 false
  else
    match s.mode.dev, devTarget (fld v 0 4) with
    | .m11, _ => s.recover
    | .m5, _ => s1.wake wakeCmd 0 true
    | .m10, some t => (s1.setTrans (some (t, true))).farEnd farPreempted
    | _, some t => s1.setTrans (some (t, true))
    | _, none => refused

/-- MOD_CMD written with the given TARGET and CONFIRM. -/
def State.modCmd (s : State) (r : Requester) (target : Nat) (confirm : BitVec 8) (clock shield : Bool) : State :=
  let v := word (target + 2 ^ 8 * confirm.toNat)
  s.guarded r .mod0 0 Off.modCmd v (modCmdWrite v clock shield)

def execModCmdM5 (r : Requester) (confirm : BitVec 8) (s : State) : Result := .next (s.modCmd r 5 confirm false false)
def execModCmdM10 (r : Requester) (confirm : BitVec 8) (s : State) : Result := .next (s.modCmd r 10 confirm false false)
def execModCmdM4 (r : Requester) (confirm : BitVec 8) (s : State) : Result := .next (s.modCmd r 4 confirm false false)

/-- MOD_CMD written with TARGET 2: `clock` and `shield` as in `State.causePresent` (R709). -/
def execModCmdM2 (r : Requester) (confirm : BitVec 8) (clock shield : Bool) (s : State) : Result :=
  .next (s.modCmd r 2 confirm clock shield)

/-- A device transition in progress completes (R53, R54). M10 is left only once the farrier's step has ended (R51). -/
def execDeviceTransitionDone (s : State) : Result :=
  match s.mode.trans with
  | none => .next s
  | some (t, req) =>
    if s.mode.dev = .m10 ∧ s.farState ≠ fIdle ∧ s.farState ≠ fStore then .next s
    else
      let s1 := match s.mode.dev, t with
        | .m4, .m5 => s.enterM5
        | .m4, .m10 => s.enterM10
        | .m5, .m4 => s.leaveM5
        | .m10, .m4 => s.leaveM10
        | _, _ => s.setTrans none
      let s2 := if req then s1.modEnd modOk t.num else s1
      match s2.mode.wakeDue with
      | some src =>
        let s3 := { s2 with mode := { s2.mode with wakeDue := none } }
        .next (if s3.mode.dev = .m5 then s3.wakeBegin src false else s3)
      | none => .next s2

/-- Barn `b` fails to lock within 200 µs of a wake (R50, R634): the request ends FAILED, and the part enters M11. -/
def execWakeLockTimeout (b : Fin 8) (s : State) : Result :=
  match s.mode.dev, s.mode.trans with
  | .m5, some (.m4, req) =>
    let s1 := s.setTrans none
    let s2 := if req then s1.modEnd modFailed 4 else s1
    let s3 := s2.wb .rst 0 Off.rstIslLockfail b true
    let s4 := s3.logOffer logLockFail PageKind.rst.typeCode 0 (s3.rf .rst 0 Off.rstIslLockfail 0 12)
    .next ({ s4 with pins := { s4.pins with wakeLow := false } }.enterM11 causeLock)
  | _, _ => .next s

/-! ### Domain requests -/

/-- Owner of domain `d`: pen 0 to 7; the supervisor for 8. -/
def domOwner (d : Nat) : Nat := if d < 8 then d else 15

/-- Domain mode of a MOD_PCMD target. -/
def domTarget : Nat → Option DomMode
  | 4 => some .m4 | 6 => some .m6 | 7 => some .m7 | 8 => some .m8 | 9 => some .m9 | _ => none

/-- A PMU of the domain is live, or a converter is at work. -/
def State.sourcesBusy (s : State) (o : Nat) : Bool :=
  (s.stallsOf o).any fun st => (upto 4).any fun u =>
    (pmuForce ≤ s.pmuState st u && s.pmuState st u != pmuShut) || kArmed ≤ s.cnvState st u

/-- A unit that the target mode forbids is in use (table of domain modes, rows 13 and 14 of R47). -/
def State.unitActive (s : State) (o : Nat) (t : DomMode) : Bool :=
  let seqs := (s.seqsOf o).any s.seqActive
  let acqs := (s.acqsOf o).any fun b => s.acqState b != aIdle
  match t with
  | .m4 | .m7 => seqs
  | .m6 => seqs || acqs || s.sourcesBusy o
  | .m8 => acqs || s.sourcesBusy o
  | .m9 => false

/-- The first refusal of a domain request, in the order of R53. -/
def State.pmodCheck (s : State) (d : Nat) (v : Word) : Nat :=
  let from4 := s.domMode (domOwner d) == .m4
  if fld v 8 8 ≠ 0xC3 then modBadConfirm
  else if s.quietM4 = false then modDeviceMode
  else if (Store.get? s.mode.domTrans d).isSome ∨ (d < 8 ∧ s.penBusy d) then modBusy
  else
    match domTarget (fld v 0 4) with
    | none => modNoPath
    | some t =>
      if t = s.domMode (domOwner d) then modNoPath
      else if from4 = false ∧ s.unitActive (domOwner d) t then modUnitActive
      else modOk

/-- A write of MOD_PCMD of domain `d` (R47, R52, R53). One refused BUSY while an accepted request is pending stores its result,
with VALID = 1, before the outcome of that request is known (DESIGN CHOICE, assumption 63). -/
def modPcmdWrite (d : Nat) (v : Word) (s : State) : State :=
  let code := s.pmodCheck d v
  let s1 := if (Store.get? s.mode.domTrans d).isSome then s else s.startResult .modp d Off.modPresult
  match code, domTarget (fld v 0 4) with
  | 0, some t => { s1 with mode := { s1.mode with domTrans := Store.put s1.mode.domTrans d t } }
  | c, _ => s1.pmodEnd d c (fld v 0 4)

/-- MOD_PCMD of domain `d` written. -/
def State.modPcmd (s : State) (r : Requester) (d target : Nat) (confirm : BitVec 8) : State :=
  let v := word (target + 2 ^ 8 * confirm.toNat)
  s.guarded r .modp d Off.modPcmd v (modPcmdWrite d v)

def execModPcmdM4 (r : Requester) (d : Fin 9) (confirm : BitVec 8) (s : State) : Result := .next (s.modPcmd r d 4 confirm)
def execModPcmdM6 (r : Requester) (d : Fin 9) (confirm : BitVec 8) (s : State) : Result := .next (s.modPcmd r d 6 confirm)
def execModPcmdM7 (r : Requester) (d : Fin 9) (confirm : BitVec 8) (s : State) : Result := .next (s.modPcmd r d 7 confirm)
def execModPcmdM8 (r : Requester) (d : Fin 9) (confirm : BitVec 8) (s : State) : Result := .next (s.modPcmd r d 8 confirm)
def execModPcmdM9 (r : Requester) (d : Fin 9) (confirm : BitVec 8) (s : State) : Result := .next (s.modPcmd r d 9 confirm)

/-- What the entry of an owner into a domain mode does to its units (R120, R324, R355, R386, R423). The table of domain modes
has the drivers at high impedance in M6 and M7, while R199 keeps a HOLD_LAST end state until the next start or park: the model
keeps the held output there (DESIGN CHOICE, assumption 76). -/
def State.enterDom (s : State) (o : Nat) (t : DomMode) : State :=
  let acqs := s.acqsOf o
  let stop := t != .m7 && t != .m9
  let s1 := if stop then acqs.foldl (fun x b => x.acqPreempt b) s else s
  (s1.stallsOf o).foldl (fun x st =>
    match t with
    | .m4 => ((x.timPreempt st allChans).hwPark st allChans).pmuPower st false
    | .m8 => x.pmuPower st false
    | _ => x.pmuPower st true) s1

/-- The transition of domain `d` completes (R53). -/
def execDomainTransitionDone (d : Fin 9) (s : State) : Result :=
  match Store.get? s.mode.domTrans d with
  | none => .next s
  | some t =>
    let m := s.mode
    let s1 := { s with mode := { m with
      doms := Store.setD (fun _ => DomMode.m4) m.doms d t, domTrans := Store.drop m.domTrans d } }
    .next ((s1.enterDom (domOwner d) t).pmodEnd d modOk t.num)

/-! ### EV_IN -/

/-- EV_IN_k is recognised at a new level (R58, R184, R193, R374, R403). -/
def execEvInEdge (k : Fin 4) (rise : Bool) (s : State) : Result :=
  if natBit s.pins.evIn k = rise then .next s
  else
    let lev := maskOf 4 fun i => if i = k.val then rise else natBit s.pins.evIn i
    let s1 := s.evRecord lev
    let s2 := if rise then (s1.seqEdge k).cnvEdge k else s1
    let s3 := s2.acqEdge k rise
    let sel := s.rb .mod0 0 Off.modWakeEn (8 + k.val) && s.rb .mod0 0 Off.modWakeEn 12 == !rise
    .next (if sel then s3.wake wakeEv (2 ^ k.val) false else s3)

end Sys2Proof.Machine
end

