-- ==== Sys2Proof/Machine/Wch.lean ====
section
/-!
DEFINITION. Watch Comparators and Protection Trips (R428 to R449). The input of a comparator is an operand: the voltage as
the comparator sees it, its accuracy included (R689, R711), in units of 1/64 mV, in which every threshold and hysteresis
of the manual is a whole number.
-/

namespace Sys2Proof.Machine

/-! ### Thresholds -/

/-- A threshold code in 1/64 mV (R429): −1.5 V + code × 1.953125 mV. -/
def watchLevel (code : Nat) : Int := 125 * (code : Int) - 96000

/-- The thresholds of a pair: HI and LO. -/
def State.watchHi (s : State) (st c : Nat) : Int := watchLevel (s.rf .wch st (Off.wchThr c) 0 12)
def State.watchLo (s : State) (st c : Nat) : Int := watchLevel (s.rf .wch st (Off.wchThr c) 16 12)

/-- The hysteresis: HYST × 2 mV (R430). -/
def State.watchHyst (s : State) (st c : Nat) : Int := 128 * (s.rf .wch st (Off.wchCfg c) 8 6 : Nat)

/-- TEST of a pair (R444). -/
def State.watchTest (s : State) (st c : Nat) : Nat := s.rf .wch st (Off.wchCfg c) 24 2

/-- An input above a threshold crosses, below it by the hysteresis it is released, else it lies in the band (R430). -/
def upperSide (v hi h : Int) : Option Bool := if hi < v then some true else if v < hi - h then some false else none

/-- The same of a lower comparator. -/
def lowerSide (v lo h : Int) : Option Bool := if v < lo then some true else if lo + h < v then some false else none

/-- Where the input `v` of comparator `i` lies: the crossing side, the release side, or its band (R430, R444). -/
def State.watchSide (s : State) (st i : Nat) (v : Int) : Option Bool :=
  let c := i % 16
  let hi := s.watchHi st c
  let lo := s.watchLo st c
  let h := s.watchHyst st c
  let up := i < 16
  match s.watchTest st c with
  | 0 => if up then upperSide v hi h else lowerSide v lo h
  | 1 => if up then upperSide hi v h else lowerSide lo v h
  | 2 => if up then upperSide (hi + 3200) hi h else lowerSide (hi + 3200) lo h
  | _ => if up then upperSide (lo - 3200) hi h else lowerSide (lo - 3200) lo h

/-! ### Crossings -/

/-- ACT of a comparator (R437). -/
def State.watchAct (s : State) (st i : Nat) : Nat := s.rf .wch st (Off.wchCfg (i % 16)) (16 + 2 * (i / 16)) 2

/-- The logbook entry of a trip onset at stamp `t`, at most one in 1 ms for a comparator (R442, R659). -/
def State.watchLog (s : State) (st i t : Nat) : State :=
  let k := 32 * st + i
  let near := match Store.get? s.onsets k with
    | some p => decide (s.now < p.1 + 3200000) && decide (stampAfter t p.2 < 3200000 * 2048)
    | none => false
  if near then s
  else { s with onsets := Store.put s.onsets k (s.now, t) }.logOffer logWatch PageKind.wch.typeCode st (i % 16 + 16 * (i / 16))

/-- A trip of comparator `i` at stamp `t` (R437 to R443, R447). -/
def State.watchTrip (s : State) (st i t : Nat) : State :=
  let m := s.watchChans st i
  let s1 := s.tripHold st (Store.getD (fun _ => 0) s.trips st ||| 2 ^ i)
  let s2 := (s1.rank1 st m).seqRank1
  let s3 := ((s2.sat .wch st Off.wchTripCnt 0 32 1).event .wch st 2).watchLog st i t
  let s4 := { s3 with pins := { s3.pins with tripLow := true } }
  if s.watchAct st i = 2 then s4.enterM11 causeWatchEsc else s4

/-- A crossing of comparator `i` at stamp `t` (R430, R436, R437, R445); `strobe` as for TIM_EVENT. -/
def State.watchCross (s : State) (st i t : Nat) (strobe : Bool) : State :=
  let c := i % 16
  let low := i / 16 == 1
  let s1 := (s.wb .wch st Off.wchUnres i false).wb .wch st Off.wchLive i true
  let s2 := (s1.wb .wch st Off.wchXing i true).event .wch st 1
  if s.watchTest st c ≠ 0 then s2
  else
    let s3 := s2.sat .wch st Off.wchXingCnt 0 32 1
    let s4 := if s3.timSrc st c = 4 + bit low then s3.timTake st c t strobe else s3
    let s5 := (s4.cnvWatch (16 * st + c) low).acqWatch (16 * st + c) low
    let s6 := if s5.rb .wch st (Off.wchCfg c) (20 + bit low) then s5.wake wakeWch 0 false else s5
    if s.watchAct st i = 1 ∨ s.watchAct st i = 2 then s6.watchTrip st i t else s6

/-- A release, or a resolution on the release side: the output is 0, and a trip condition ends (R433, R441). -/
def State.watchClear (s : State) (st i : Nat) : State :=
  let s1 := (s.wb .wch st Off.wchUnres i false).wb .wch st Off.wchLive i false
  let t := Store.getD (fun _ => 0) s.trips st
  if natBit t i then s1.tripHold st (maskOf 32 fun j => natBit t j && j != i) else s1

/-- The analog bias is on (table of device modes). -/
def State.analogOn (s : State) : Bool := 4 ≤ s.mode.dev.num

/-- Comparators of the stall run sampled (R434, R435). -/
def State.watchSampled (s : State) (st : Nat) : Bool := s.mode.dev = .m5 || Store.getD (fun _ => false) s.sampling st

/-- Thresholds written in sampled operation take effect: their comparators are UNRESOLVED (R432, R449). -/
def State.watchLatch (s : State) (st : Nat) : State :=
  match Store.get? s.wchPend st with
  | some m => { s with wchPend := Store.drop s.wchPend st }.watchUnres st m
  | none => s

/-- The comparator follows its input (R430, R433, R446). -/
def State.watchJudge (s : State) (st i t : Nat) (v : Int) (strobe : Bool) : State :=
  if s.analogOn = false ∨ natBit (s.watchEnabled st) i = false then s
  else
    let unres := s.rb .wch st Off.wchUnres i
    let live := s.rb .wch st Off.wchLive i
    match s.watchSide st i v with
    | some true => if unres || !live then s.watchCross st i t strobe else s
    | some false => if unres || live then s.watchClear st i else s
    | none => s

/-! ### Register writes -/

/-- A write of WCH_CFG[c] (R428, R432, R437, R438). -/
def wchCfgWrite (st c : Nat) (v : Word) (s : State) : State :=
  let o := Off.wchCfg c
  let old := s.rd .wch st o
  let esc := fun (p : Nat) => fld v p 2 == 2 && fld old p 2 != 2
  if (tbit v 2 ∧ c % 4 ≠ 0) ∨ 50 < fld v 8 6 ∨ fld v 16 2 = 3 ∨ fld v 18 2 = 3 then s.err .wch st errValue o
  else if (esc 16 ∨ esc 18) ∧ s.rb .wch st Off.wchEscEn 0 = false then s.err .wch st errState o
  else
    let both := fld v 8 6 != fld old 8 6 || tbit v 2 != tbit old 2 || fld v 24 2 != fld old 24 2
    let m := (if both || tbit v 0 != tbit old 0 then 2 ^ c else 0) + (if both || tbit v 1 != tbit old 1 then 2 ^ (16 + c) else 0)
    (s.plainWrite .wch st o v).watchUnres st m

/-- A write of WCH_THR[c]: HI must exceed LO (R429, R432). In sampled operation it acts at the next tick (R449). -/
def wchThrWrite (st c : Nat) (v : Word) (s : State) : State :=
  let o := Off.wchThr c
  let old := s.rd .wch st o
  if fld v 0 12 ≤ fld v 16 12 then s.err .wch st 16 o
  else
    let m := (if fld v 0 12 = fld old 0 12 then 0 else 2 ^ c) + (if fld v 16 12 = fld old 16 12 then 0 else 2 ^ (16 + c))
    let s1 := s.plainWrite .wch st o v
    if m = 0 then s1
    else if s.watchSampled st then { s1 with wchPend := Store.put s1.wchPend st ((Store.get? s1.wchPend st).getD 0 ||| m) }
    else s1.watchUnres st m

/-- A write of WCH_TICK: 10 to 100,000 µs (R449). -/
def wchTickWrite (st : Nat) (v : Word) (s : State) : State :=
  if fld v 0 17 < 10 ∨ 100000 < fld v 0 17 then s.err .wch st errValue Off.wchTick else s.plainWrite .wch st Off.wchTick v

/-! ### Commands -/

def execWchCfgWrite (r : Requester) (st : Fin 128) (c : Fin 16) (v : Word) (s : State) : Result :=
  .next (s.guarded r .wch st (Off.wchCfg c) v (wchCfgWrite st c v))

def execWchThrWrite (r : Requester) (st : Fin 128) (c : Fin 16) (v : Word) (s : State) : Result :=
  .next (s.guarded r .wch st (Off.wchThr c) v (wchThrWrite st c v))

/-- A sample window of the stall ends (R434 to R436). `vs` gives the input of each pair, in the order of the channels; a
pair past its end sees 0 V. -/
def execWchSampleTick (st : Fin 128) (vs : List Int) (t : BitVec 64) (strobe : Bool) (s : State) : Result :=
  let b := s.rb .wch st Off.wchCtrl 0
  let s1 := { s with sampling := Store.setD (fun _ => false) s.sampling st.val b }.watchLatch st
  if b ∨ s.mode.dev = .m5 then
    .next ((upto 32).foldl (fun x i => x.watchJudge st i t.toNat (vs.getD (i % 16) 0) strobe) s1)
  else .next s1

/-- The input of an unresolved comparator lies outside its band (R433): `i` is c for the upper, 16 + c for the lower. -/
def execWchResolve (st : Fin 128) (i : Fin 32) (v : Int) (t : BitVec 64) (strobe : Bool) (s : State) : Result :=
  if s.watchSampled st = false ∧ (s.watchLatch st).rb .wch st Off.wchUnres i then
    .next ((s.watchLatch st).watchJudge st i t.toNat v strobe)
  else .next s

/-- The input of a comparator in CLEAR crosses its threshold (R430). -/
def execWchCrossing (st : Fin 128) (i : Fin 32) (v : Int) (t : BitVec 64) (strobe : Bool) (s : State) : Result :=
  if s.watchSampled st = false ∧ s.rb .wch st Off.wchUnres i = false ∧ s.rb .wch st Off.wchLive i = false then
    .next (s.watchJudge st i t.toNat v strobe)
  else .next s

/-- The input of a comparator in CROSSED leaves its band on the release side (R430). -/
def execWchRelease (st : Fin 128) (i : Fin 32) (v : Int) (s : State) : Result :=
  if s.watchSampled st = false ∧ s.rb .wch st Off.wchLive i then .next (s.watchJudge st i 0 v false) else .next s

/-- The 10 µs of the last trip onset are over: TRIP_N is released, except in M11 (R443). -/
def execTripNRelease (s : State) : Result :=
  if s.mode.dev = .m11 then .next s else .next { s with pins := { s.pins with tripLow := false } }

end Sys2Proof.Machine
end

