-- ==== Sys2Proof/Machine/Wvn.lean ====
section
/-!
DEFINITION. Thermal Management and Housekeeping (R641 to R656): the round of the weathervane, the cross-check, warning,
grace and enforcement, and the supplies.
-/

namespace Sys2Proof.Machine

/-! ### Readings -/

/-- WVN_STAT.STATE codes (R653). -/
def wNormal : Nat := 0
def wWarn : Nat := 1
def wEnforce : Nat := 2

def State.wvnState (s : State) : Nat := s.rf .wvn 0 Off.wvnStat 0 2

/-- Effective and raw reading of a channel; 0 before its first slot. -/
def State.effOf (s : State) (n : Nat) : Int := Store.getD (fun _ => 0) s.weather.effs n
def State.rawOf (s : State) (n : Nat) : Int := Store.getD (fun _ => 0) s.weather.raws n

/-- A sensor is broken (R643): bit `t` of the three WVN_BROKEN registers. -/
def brokenReg (t : Nat) : Nat := if t < 32 then Off.wvnBrokenLo else if t < 64 then Off.wvnBrokenMid else Off.wvnBrokenHi
def State.broken (s : State) (t : Nat) : Bool := s.rb .wvn 0 (brokenReg t) (t % 32)

/-- The neighbours of a sensor (R642). -/
def neighbours (t : Nat) : List Nat :=
  let g := t / 8
  let k := t % 8
  let ring := [8 * g + (k + 1) % 8, 8 * g + (k + 7) % 8]
  if 64 ≤ t then ring
  else ring ++ (if 0 < g then [t - 8] else []) ++ (if g < 7 then [t + 8] else [])

/-- Insert into a rising list. -/
def insertInt (v : Int) : List Int → List Int
  | [] => [v]
  | a :: t => if v ≤ a then v :: a :: t else a :: insertInt v t

/-- A mean in whole units; which way a mean that is not whole is rounded is not stated. -/
def meanOf (sum : Int) (n : Nat) : Int :=
  let q := sum / (n : Int)
  if sum % (n : Int) ≠ 0 ∧ Config.roundsUp sum n then q + 1 else q

/-- Twice the median of a list that is not empty (R643). -/
def median2 (l : List Int) : Int :=
  let a := l.foldr insertInt []
  let n := a.length
  a.getD ((n - 1) / 2) 0 + a.getD (n / 2) 0

/-- Effective readings of the neighbours that are not broken. -/
def State.unbroken (s : State) (t : Nat) : List Int := ((neighbours t).filter fun n => !s.broken n).map s.effOf

/-- Sum and maximum of the effective readings of sensors 8 g to 8 g + 7. -/
def State.groupSum (s : State) (g : Nat) : Int := (upto 8).foldl (fun a k => a + s.effOf (8 * g + k)) 0
def State.groupMax (s : State) (g : Nat) : Int := (upto 8).foldl (fun a k => max a (s.effOf (8 * g + k))) (s.effOf (8 * g))

/-- The part maximum, and the lowest sensor that shows it (R646). -/
def State.partMax (s : State) : Int := (upto 9).foldl (fun a g => max a (s.groupMax g)) (s.groupMax 0)
def State.hottest (s : State) : Nat := ((upto 72).find? fun t => s.effOf t == s.partMax).getD 0

/-- WVN_BARN of every barn and WVN_STAT.MAX (R646, R656). -/
def State.showTemps (s : State) : State :=
  let s1 := (upto 8).foldl (fun x b =>
    x.wr .wvn 0 (Off.wvnBarn b) (word (twos 16 (meanOf (s.groupSum b) 8) + 2 ^ 16 * twos 16 (s.groupMax b)))) s
  s1.wf .wvn 0 Off.wvnStat 16 16 (twos 16 s.partMax)

/-! ### Messages -/

/-- A DEVICE_MSG of this chapter: CODE, sensor, its effective reading, and the grace time remaining in ms (R656). -/
def State.wvnMsg (s : State) (code sensor : Nat) : State :=
  let left := match s.weather.grace with
    | some t => (t - s.now) / 3200000
    | none => 0
  if s.rb .wvn 0 Off.wvnCtrl 0 then
    s.deviceMsg code (packBytes [(0, 2, sensor), (2, 2, twos 16 (s.effOf sensor)), (4, 2, left)])
  else s

/-! ### Warning, grace and enforcement (R647 to R650) -/

/-- The WVN_THR entries, which take effect at a slot (R656). -/
def State.thrSlot (s : State) : State :=
  let entry := fun i => (signed 16 (s.rf .wvn 0 (Off.wvnThr i) 0 16), s.rf .wvn 0 (Off.wvnThr i) 16 7)
  { s with weather := { s.weather with thr := (upto 8).map entry } }

/-- The cap of a barn in ENFORCE: the lowest CAP among the entries whose TEMP is at or below the barn maximum (R648). -/
def State.capOf (s : State) (b : Nat) : Option Nat :=
  ((s.weather.thr.filter fun e => decide (e.1 ≤ s.groupMax b)).map Prod.snd).min?

/-- Caps follow the barn maxima while the state is ENFORCE. -/
def State.capsFollow (s : State) : State :=
  if s.wvnState = wEnforce then
    s.setCaps ((upto 8).filterMap fun b => (s.capOf b).map fun c => (b, c))
  else s

/-- WVN_WARN in 0.25 °C. -/
def State.warnAt (s : State) : Int := signed 16 (s.rf .wvn 0 Off.wvnWarn 0 16)

/-- The states as the part maximum moves them at a slot. -/
def State.judgeHeat (s : State) : State :=
  let m := s.partMax
  if s.wvnState = wNormal then
    if s.warnAt ≤ m then
      let s1 := s.wf .wvn 0 Off.wvnStat 0 2 wWarn
      let s2 := { s1 with
        pins := { s1.pins with alertLow := true }
        weather := { s1.weather with grace := some (s1.now + 3200000 * s1.rf .wvn 0 Off.wvnGrace 0 14) } }
      (s2.event .wvn 0 1).wvnMsg 0x10 s2.hottest
    else s
  else if m < s.warnAt - 20 then
    let s1 := (s.wf .wvn 0 Off.wvnStat 0 2 wNormal).setCaps []
    let s2 := (upto 8).foldl (fun x q =>
      let y := x.wb .seq q Off.seqStat 5 false
      y.setSeq q { y.seq q with thermSeg := false, thermVec := false }) s1
    let s3 := { s2 with pins := { s2.pins with alertLow := false }, weather := { s2.weather with grace := none } }
    s3.wvnMsg 0x12 s3.hottest
  else s.capsFollow

/-! ### Sensors and supplies -/

/-- WARMING (R644). -/
def State.warming (s : State) : Bool := s.rb .wvn 0 Off.wvnStat 2

/-- Store a sensor's effective reading and its count of differing slots. -/
def State.setSensor (s : State) (t : Nat) (eff : Int) (diff : Nat) : State :=
  { s with weather := { s.weather with effs := Store.setD (fun _ => 0) s.weather.effs t eff
                                       diffs := Store.setD (fun _ => 0) s.weather.diffs t diff } }

/-- The slot of sensor `t` with raw reading `v` (R643 to R645). -/
def State.sensorSlot (s : State) (t : Nat) (v : Int) : State :=
  let s1 := { s with weather := { s.weather with raws := Store.setD (fun _ => 0) s.weather.raws t v } }
  let l := s.unbroken t
  let m2 := median2 l
  let n := Store.getD (fun _ => 0) s.weather.diffs t
  if s.warming ∨ l.length < 2 then s1.setSensor t v 0
  else if s.broken t then s1.setSensor t (meanOf m2 2) 0
  else
    let off := decide (64 < 2 * v - m2) || decide (64 < m2 - 2 * v)
    if off && n == 2 then
      let s2 := ((s1.setSensor t (meanOf m2 2) 0).wb .wvn 0 (brokenReg t) (t % 32) true).event .wvn 0 3
      (s2.logOffer logSensor PageKind.wvn.typeCode 0 t).wvnMsg 0x13 t
    else s1.setSensor t v (if off then n + 1 else 0)

/-- The operating range of a supply in mV, where the manual gives one (R677). -/
def supplyRange : Nat → Option (Int × Int)
  | 0 => some (2500, 6000)
  | 1 | 3 => some (1500, 7500)
  | 2 | 4 => some (-2500, 0)
  | 5 => some (-1000, 6000)
  | 6 => some (1600, 3600)
  | 22 => some (1710, 1890)
  | _ => none

/-- A supply reading is out of range (R652). -/
def State.supplyOut (s : State) (n : Nat) (v : Int) : Bool :=
  let span := fun a b => decide (9000 < s.rawOf (72 + a) - s.rawOf (72 + b))
  let out := match supplyRange n with
    | some (lo, hi) => decide (v < lo) || decide (hi < v)
    | none => Config.railOut n v
  out || ((n == 1 || n == 2) && span 1 2) || ((n == 3 || n == 4) && span 3 4)

/-- The slot of supply channel `n` (R652): the second round out of range takes the part to M11, VBAK excepted. -/
def State.supplySlot (s : State) (n : Nat) (v : Int) : State :=
  let s1 := { s with weather := { s.weather with raws := Store.setD (fun _ => 0) s.weather.raws (72 + n) v } }
  let out := s1.supplyOut n v
  let was := s.rb .wvn 0 Off.wvnSupOor n
  let s2 := s1.wb .wvn 0 Off.wvnSupOor n out
  let s3 := if out then s2.event .wvn 0 4 else s2
  if out && was && n != 6 then (s3.logOffer logSupply PageKind.wvn.typeCode 0 n).enterM11 causeSupply else s3

/-- The slot is over: the next one, and the end of a round (R641, R644). -/
def State.slotEnd (s : State) : State :=
  let w := s.weather
  if w.slot < 95 then { s with weather := { w with slot := w.slot + 1 } }
  else
    let n := min 3 (w.rounds + 1)
    let s1 := { s with weather := { w with slot := 0, rounds := n } }.inc .wvn 0 Off.wvnRound 0 32 1
    if n = 3 then s1.wb .wvn 0 Off.wvnStat 2 false else s1

/-! ### Commands -/

/-- A 1 ms slot of the round: `v` is the reading of its channel, in 0.25 °C or in mV (R641). The round runs from yard
release until VIN is lost, on the chore oscillator (R668). -/
def execWvnSlot (v : BitVec 16) (s : State) : Result :=
  let n := s.weather.slot
  let x := signed 16 v.toNat
  if s.pins.vin = false ∨ natBit s.rst.isl 8 = false ∨ s.rst.choreLost then .next s
  else if n < 72 then
    let s1 := (s.thrSlot.sensorSlot n x).showTemps
    let s2 := s1.judgeHeat
    let s3 := if (upto 72).any fun t => decide (500 ≤ s2.effOf t) then s2.enterM11 causeCritTemp else s2
    .next s3.slotEnd
  else .next ((s.thrSlot.supplySlot (n - 72) x).judgeHeat).slotEnd

/-- A thermal hold cause for sequencer `q` in ENFORCE (R648, R649): at its next segment boundary, or, `forced`, at its next
vector boundary. One that is held for starvation there already holds for both (R201). -/
def State.thermCause (s : State) (q : Nat) (forced : Bool) : State :=
  let x := s.seq q
  let base := fun a => (x.map.bind fun m => segOf m a).map Seg.base
  if s.seqState q = sHold ∧ (forced ∨ base (s.rf .seq q Off.seqPc 0 24) ≠ base x.next) then
    let s1 := (s.setSeq q { x with thermSeg := false, thermVec := false }).wb .seq q Off.seqStat 5 true
    if forced then s1.sat .wvn 0 Off.wvnForcedHold 0 16 1 else s1
  else s.setSeq q { x with thermSeg := !forced, thermVec := forced }

/-- The grace timer expires in WARN (R648). -/
def execThermEnforce (s : State) : Result :=
  if s.wvnState ≠ wWarn then .next s
  else
    let s1 := (s.wf .wvn 0 Off.wvnStat 0 2 wEnforce).sat .wvn 0 Off.wvnEnfCnt 0 16 1
    let s2 := { s1 with weather := { s1.weather with grace := none } }.event .wvn 0 2
    let s3 := s2.wvnMsg 0x11 s2.hottest
    let s4 := (upto 8).foldl (fun x q => if x.seqActive q ∧ x.seqState q ≠ sDrain then x.thermCause q false else x) s3
    .next s4.capsFollow

/-- Ten milliseconds of ENFORCE have passed without a segment boundary of sequencer `q` (R649). -/
def execForcedHold (q : Fin 8) (s : State) : Result :=
  if s.wvnState = wEnforce ∧ (s.seq q).thermSeg then
    .next (s.thermCause q true)
  else .next s

/-! ### Register writes -/

/-- The value checks of the WVN registers (R656). -/
def wvnBad (o : Nat) (v : Word) : Bool :=
  let t := signed 16 (fld v 0 16)
  if o = Off.wvnWarn then decide (t < 240) || decide (480 < t)
  else if o = Off.wvnGrace then decide (fld v 0 14 < 10) || decide (10000 < fld v 0 14)
  else if o = Off.wvnIdx then decide (95 < fld v 0 7)
  else if 0x80 ≤ o ∧ o < 0xA0 then decide (fld v 16 7 < 5) || decide (110 < fld v 16 7)
  else false

/-- A write of a WVN register. -/
def wvnWrite (o : Nat) (v : Word) (s : State) : State :=
  if wvnBad o v then s.err .wvn 0 errValue o else s.plainWrite .wvn 0 o v

end Sys2Proof.Machine
end

