-- ==== Sys2Proof/Machine/Logs.lean ====
section
/-!
DEFINITION. Logbook and Fault Domains (R657 to R674): the commands of the lantern and of the LOG page, and the index
registers of the LAN page.
-/

namespace Sys2Proof.Machine

/-- The oldest queued entry is written at lantern tick `t` (R657, R660). -/
def execLogEntryWrite (t : BitVec 40) (s : State) : Result :=
  match s.lan.queue with
  | [] => .next s
  | e :: l =>
    let s1 := s.lanAt t.toNat
    .next ({ s1 with lan := { s1.lan with queue := l } }.logWrite e)

/-- Bits [23:0] of the lantern tick wrap (R658). -/
def execTickMark (s : State) : Result :=
  let t := (s.lan.tick / 2 ^ 24 + 1) * 2 ^ 24 % 2 ^ 40
  .next ({ s with lan := { s.lan with tick := t } }.logOffer logTickMark PageKind.lan.typeCode 0 (t / 2 ^ 24))

/-- The lantern oscillator has stopped for 10 ms (R672). -/
def execOscFail (s : State) : Result :=
  if s.rst.choreLost then .next s else .next { s with lan := { s.lan with oscFail := true } }

/-! ### The LOG page (R673) -/

/-- THAW: FROZEN clears and THAWED is written. -/
def State.logThaw (s : State) : State :=
  if s.mode.dev ≠ .m4 then s.err .log 0 errMode Off.logCtrl
  else
    { s with lan := { s.lan with frozen := false } }.logOffer logThawed PageKind.log.typeCode 0 s.lan.frz

/-- CLEAR: every slot is empty, and LOG_CLEARED is written. -/
def State.logClear (s : State) : State :=
  if s.lan.frozen then s.err .log 0 errState Off.logCtrl
  else
    { s with lan := { s.lan with slots := [], wptr := 0, wrapped := false, lost := 0 } }.logOffer
      logCleared PageKind.log.typeCode 0 0

/-- A write of LOG_CTRL: CONFIRM must be 0xC3. -/
def logCtrlWrite (v : Word) (s : State) : State :=
  if fld v 8 8 ≠ 0xC3 then s.err .log 0 errValue Off.logCtrl
  else if fld v 0 2 = 0 then s
  else if s.pageEn .log 0 = false then s.err .log 0 errDisabled Off.logCtrl
  else
    let s1 := if tbit v 0 then s.logThaw else s
    if tbit v 1 then s1.logClear else s1

/-- A write of LOG_MARK. -/
def logMarkWrite (v : Word) (s : State) : State :=
  if s.pageEn .log 0 = false then s.err .log 0 errDisabled Off.logMark
  else s.logOffer logHostMark PageKind.log.typeCode 0 (fld v 0 16)

/-- LOG_CTRL written with THAW = 1 and CONFIRM = 0xC3. -/
def execThaw (r : Requester) (s : State) : Result := .next (s.guarded r .log 0 Off.logCtrl 0xC301 (logCtrlWrite 0xC301))

/-- LOG_CTRL written with CLEAR = 1 and CONFIRM = 0xC3. -/
def execClear (r : Requester) (s : State) : Result := .next (s.guarded r .log 0 Off.logCtrl 0xC302 (logCtrlWrite 0xC302))

def execHostMark (r : Requester) (data : BitVec 16) (s : State) : Result :=
  let v := word data.toNat
  .next (s.guarded r .log 0 Off.logMark v (logMarkWrite v))

/-! ### Index registers held for each requester (R71, R672) -/

/-- An index register of a requester. -/
def State.idxOf (s : State) (r : Requester) (k : PageKind) (o : Nat) : Nat :=
  (Store.getD (fun _ => 0) s.idxs (reqKey r (k.base 0 + o))).toNat

/-- A write of an index register of the DIR or LAN page (R72, R672). -/
def idxWrite (r : Requester) (k : PageKind) (o : Nat) (v : Word) (s : State) : State :=
  let top := if k = .dir then 4095 else if o = Off.lanLogIdx then 511 else if o = Off.lanWearIdx then 6143 else 9
  let n := if k = .dir then fld v 0 12 else if o = Off.lanLogIdx then fld v 0 9
    else if o = Off.lanWearIdx then fld v 0 13 else fld v 0 4
  if top < n then s.err k 0 errValue o
  else { s with idxs := Store.setD (fun _ => 0) s.idxs (reqKey r (k.base 0 + o)) (word n) }

end Sys2Proof.Machine
end

