-- ==== Sys2Proof/Machine/Boot.lean ====
section
/-!
DEFINITION. Reset, Boot and Bring-Up (R625 to R640), the gatehouse boot (R582 to R586), the loads of M3 (R156, R468, R545)
and the links of the host-link ports (R566 to R568, R577, R578).
-/

namespace Sys2Proof.Machine

/-! ### The way from M3 to M4 (row 4 of R47) -/

/-- Split in force since M3 (R561). -/
def State.split (s : State) : Bool := s.rst.split

/-- Every barn, and the hayloft controller, is locked (R634). -/
def State.islandsUp (s : State) : Bool := ((upto 8) ++ [9]).all fun i => natBit s.rst.isl i

/-- M3 ends once lock, links, hayloft training and tack-room load are complete (R47, R567), the part's own epoch being set
(R156) and none of them having failed (R49). The stalls have power, so that their comparators are unresolved (R432). -/
def State.m3Exit (s : State) : State :=
  if s.mode.dev = .m3 ∧ s.rst.m3Fail = false ∧ s.islandsUp ∧ s.mode.trainDone ∧ s.mode.tackLoaded ∧ s.epochValid ∧ s.linkUp 0 ∧
      (s.split = false ∨ s.linkUp 1 ∨ s.rst.bExpired) then
    let s1 := s.enterDev .m4
    (upto 128).foldl (fun (x : State) st => x.watchUnres st allWatch) { s1 with mode := { s1.mode with served := true } }
  else s

/-- A lock, a training or a link on which M3 waits has failed: the device stays in M3 until it is reset (R49). -/
def State.m3Failed (s : State) : State := if s.mode.dev = .m3 then { s with rst := { s.rst with m3Fail := true } } else s

/-! ### Power -/

/-- VBAK reaches 1.6 V; with VIN absent the device enters M1 (row 1 of R47). -/
def execVbakPresent (s : State) : Result :=
  let s1 := { s with pins := { s.pins with vbak := true } }
  if s.pins.vin ∨ s.mode.dev ≠ .m0 then .next s1
  else .next { s1.enterDev .m1 with lan := { s1.lan with onVbak := true } }

/-- The lantern as LANTERN_POR leaves it, before that reset counts itself (R629, R658, R665, R672). -/
def Lantern.blank : Lantern := ⟨0, [], 0, false, 0, false, false, 0, 0, [], false, false, [], [], [], 0, 0, 0⟩

/-- The lantern supply falls below 1.5 V (R625, R629, R665): everything is reset, the lantern too. With VIN present the yard
comes back; without it the part is off. VBAK lost while VIN was absent is found at the next start (R599). -/
def execLanternPor (s : State) : Result :=
  let lost := s.rst.lanternLost || s.mode.dev = .m1
  let s1 := s.wideReset true false
  let s2 := { s1 with
    lan := { Lantern.blank with rstCnt := [(rstLanternPor, 1)], rstTotal := 1 }
    rst := { s1.rst with porCounted := false, lanternLost := lost } }
  let s3 := s2.episodeJoin rstLanternPor
  if s.pins.vin then .next (s3.yardDue).episodeEnd
  else .next { s3.enterDev .m0 with pins := { s3.pins with vbak := false } }

/-- VIN comes within its operating range and VIN_POR releases (R626, R629, R637): the yard is due. A LANTERN tamper is found
at this start. -/
def execVinInRange (s : State) : Result :=
  if s.pins.vin then .next s
  else
    let s1 := { s with pins := { s.pins with vin := true }, lan := { s.lan with onVbak := false } }
    let s2 := if s1.rst.porCounted then s1 else s1.countReset rstVinPor
    let s3 := { s2 with rst := { s2.rst with porCounted := false, lanternLost := false } }.episodeJoin rstVinPor
    let s4 := if s.rst.lanternLost then s3.tamperMark 4 else s3
    .next (s4.yardDue).episodeEnd

/-- VIN falls below 2.5 V (R625, R629, R664, row 11 of R47): the lantern writes its queue and VIN_LOST unless it is frozen
or freezing, and everything else loses power. -/
def execVinLost (t : BitVec 40) (s : State) : Result :=
  if s.pins.vin = false then .next s
  else
    let s1 := s.lanAt t.toNat
    let s2 := if s1.lan.frozen ∨ s1.lan.closed then s1.freeze
      else (s1.logDrain).logWrite (logBody logVinLost PageKind.lan.typeCode 0 0)
    let s3 := { s2 with pins := { s2.pins with vin := false } }
    let s4 := (s3.wideReset true false).countReset rstVinPor
    let dead := s.pins.vbak = false
    let s5 := { s4 with rst := { s4.rst with porCounted := true, lanternLost := dead }
                        lan := { s4.lan with onVbak := s.pins.vbak } }
    .next ((s5.episodeJoin rstVinPor).enterDev (if dead then .m0 else .m1))

/-! ### RESET_N and PERST_N -/

/-- RESET_N has been low on 48 consecutive samples (R628): everything but the lantern is in reset. Without the chore
oscillator it is not taken (R668). -/
def execResetNAssert (s : State) : Result :=
  if s.pins.resetN ∨ s.rst.choreLost then .next s
  else
    let s1 := { s with pins := { s.pins with resetN := true } }
    let s2 := if s1.pins.vin then s1.wideReset false false else s1
    .next ((s2.countReset rstResetN).episodeJoin rstResetN)

/-- The second sample that finds RESET_N high (R626, R628): the yard is due. -/
def execResetNRelease (s : State) : Result :=
  if s.pins.resetN = false then .next s
  else .next ({ s with pins := { s.pins with resetN := false } }.yardDue).episodeEnd

/-- PERST_N goes low (R625, R629). -/
def execPerstNAssert (s : State) : Result :=
  if s.pins.perstN then .next s
  else
    let s1 := ({ s with pins := { s.pins with perstN := true } }.countReset rstPerst).episodeJoin rstPerst
    .next s1.perstApply

/-- The host-link ports' islands are due: in M3 or later, with PERST_N high (R566, R634, R635). -/
def State.portsDue (s : State) : State :=
  if s.pins.perstN ∨ s.mode.dev.num < 3 then s
  else
    let due := fun (x : State) (i : Nat) => if natBit x.rst.isl i then x else x.wb .rst 0 Off.rstIslPend i true
    if s.split then due (due s 10) 11 else due s 10

/-- PERST_N goes high (R592, R630, R635): every owner has a new key, and link training may start. -/
def execPerstNRelease (s : State) : Result :=
  if s.pins.perstN = false then .next s
  else
    let s1 := { s with pins := { s.pins with perstN := false }, rst := { s.rst with bExpired := false } }
    .next (((s1.newKeys.srstRelease s.perstPage).portsDue).episodeEnd)

/-! ### Islands (R634) -/

/-- M2 is entered (rows 2 and 10 of R47, R631): option loading starts. -/
def State.enterM2 (s : State) : State :=
  let s1 := s.enterDev .m2
  ({ s1 with rst := { s1.rst with loading := true, optDone := false } }.wf .rst 0 Off.rstStat 0 2 0).wf .rst 0 Off.rstOpt 0 8 0

/-- The PLL of a deferred island reports lock: the island is released. A port then trains its link, the hayloft controller
its fastest point (R545, R566). The release of the yard is that of M2, unless a cause of M11 came before it: M11 is left by
row 10 of R47 alone. -/
def execIslandLock (i : Fin 12) (s : State) : Result :=
  if s.rb .rst 0 Off.rstIslPend i = false then .next s
  else
    let s1 := s.wb .rst 0 Off.rstIslPend i false
    let s2 := { s1 with rst := { s1.rst with isl := s1.rst.isl ||| 2 ^ i.val } }
    if i.val < 8 then .next (s2.wb .tmb i Off.tmbStat 0 true).m3Exit
    else if i.val = 8 then .next (if s.mode.dev = .m11 then s2 else s2.enterM2)
    else if i.val = 9 then .next ((s2.setHbm 9 true).wr .hbm 0 Off.hbmTrn 0).m3Exit
    else .next (s2.wb .hlk 0 (Off.hlkLstat (i - 10)) 9 true)

/-- 200 µs after its due release an island has not locked: it stays in reset, and one logbook entry is written. -/
def execIslandLockFail (i : Fin 12) (s : State) : Result :=
  if s.rb .rst 0 Off.rstIslPend i = false then .next s
  else
    let s1 := (s.wb .rst 0 Off.rstIslPend i false).wb .rst 0 Off.rstIslLockfail i true
    let s2 := if i.val = 8 ∨ i.val = 11 then s1 else s1.m3Failed
    .next (s2.logOffer logLockFail PageKind.rst.typeCode 0 (s1.rf .rst 0 Off.rstIslLockfail 0 12))

/-! ### Options and boot -/

/-- Option loading ends (R631, R632): with the row that could not be corrected, or complete; the gatehouse boot starts. -/
def execOptionLoadDone (bad : Option (Fin 256)) (s : State) : Result :=
  if s.mode.dev ≠ .m2 ∨ s.rst.loading = false then .next s
  else
    let s1 := { s with rst := { s.rst with loading := false } }
    match bad with
    | some row =>
      let s2 := (s1.wb .rst 0 Off.rstStat 1 true).wf .rst 0 Off.rstOpt 0 8 row
      .next (s2.logOffer logOptErr PageKind.rst.typeCode 0 row)
    | none =>
      let s2 := (s1.wb .rst 0 Off.rstStat 0 true).wb .hlk 0 Off.hlkPortcfg 0 s.otp.split
      .next { s2 with rst := { s2.rst with booting := true, optDone := true } }

/-- A failed boot (R49, R585). -/
def State.bootFail (s : State) (code image : Nat) : State :=
  let s1 := s.wr .gth 0 Off.gthBootResult (word (code + 16 * image))
  s1.logOffer logBootFail PageKind.gth.typeCode 0 (code + 16 * image)

/-- A list with the positions of its entries. -/
def enumerate {α : Type} (l : List α) : List (Nat × α) := (upto l.length).zip l

/-- Patch RAM, match registers and dispatch table take the patch image (R501, R584). -/
def State.loadPatch (s : State) (p : PatchImage) : State :=
  let regs := (p.mregs.filter fun m => tbit m 31).map fun m => (fld m 0 15, 0x4000 + fld m 16 10)
  let c := s.cluster
  let s1 := { s with
    gth := { s.gth with patchSvn := some p.svn }
    cluster := { c with
      patchRam := (enumerate p.words).map fun (e : Nat × BitVec 24) => (0x4000 + e.1, e.2)
      matchRegs := regs.foldl (fun (l : List (Nat × Nat)) (e : Nat × Nat) => Store.put l e.1 e.2) []
      patchDisp := enumerate p.disp } }
  let s2 := s1.wr .grm 0 Off.grmPatch (word (p.version + 2 ^ 16 * regs.length + 2 ^ 31))
  (s2.wb .gth 0 Off.gthStat 1 true).wf .gth 0 Off.gthImgSvn 8 7 p.svn

/-- M3 is entered (row 3 of R47, R156, R566): the barns, the hayloft controller and the ports are due. -/
def State.enterM3 (s : State) : State :=
  let split := s.rb .hlk 0 Off.hlkPortcfg 0
  let s1 := { (s.wb .hlk 0 Off.hlkPortcfg 8 split) with rst := { s.rst with split := split } }.enterDev .m3
  let s2 := { s1 with mode := { s1.mode with trainDone := false, autoArmed := false }
                      rst := { s1.rst with booting := false, bExpired := false, m3Fail := false } }
  ((s2.wf .rst 0 Off.rstIslPend 0 8 0xFF).wb .rst 0 Off.rstIslPend 9 true).portsDue

/-- Every image is loaded: owner keys are drawn and M3 is entered (step 7 of R585). -/
def State.bootEnd (s : State) (listed : Bool) : State :=
  let s1 := s.wb .gth 0 Off.gthStat 0 true
  ({ s1 with gth := { s1.gth with listed := listed } }.newKeys).enterM3

/-- The boot image at `a` runs (step 4 of R585). -/
def State.bootStart (s : State) (a : Nat) : State :=
  { s with gth := { s.gth with bootSvn := s.imageSvn a } }.wf .gth 0 Off.gthImgSvn 0 7 (s.imageSvn a)

/-- Steps 5 and 6 of R585: the patch image, if slot 1 is present. -/
def State.bootPatch (s : State) (fault : Option (Fin 3)) (listed : Bool) : State :=
  if s.slotLen 1 = 0 then s.bootEnd listed
  else if fault = some 2 then s.bootFail 8 2
  else if s.imageCheck true (s.slotAt 1) ≠ 0 then s.bootFail (s.imageCheck true (s.slotAt 1)) 2
  else if s.tagOk (s.slotAt 1) then (s.loadPatch (s.patchAt (s.slotAt 1))).bootEnd listed
  else s.bootFail 6 2

/-- Steps 1 to 7 of R585 in their order. A read that ends with FLASH_ERR does so at the directory and at the patch image too (R620;
the image field of NO_IMAGE and of these is a DESIGN CHOICE, assumption 86). -/
def State.boot (s : State) (fault : Option (Fin 3)) (listed : Bool) : State :=
  if fault = some 0 then s.bootFail 8 0
  else if s.dirOk = false then s.bootFail 1 0
  else if s.slotLen 0 = 0 then s.bootFail 2 0
  else if fault = some 1 then s.bootFail 8 1
  else if s.imageCheck false (s.slotAt 0) ≠ 0 then s.bootFail (s.imageCheck false (s.slotAt 0)) 1
  else (s.bootStart (s.slotAt 0)).bootPatch fault listed

/-- The gatehouse boot ends (R585, R587, R592). -/
def execBootDone (o : BootRead) (s : State) : Result :=
  if s.mode.dev ≠ .m2 ∨ s.rst.booting = false then .next s
  else
    let s1 := { s with rst := { s.rst with booting := false }, flash := flashFill s.flash o.flash }
    .next (s1.boot o.fault o.listed)

/-! ### M3 -/

/-- Every barn reports lock: the part arms barn 0 itself, in STANDALONE mode (R156). -/
def execAutoEpochArm (s : State) : Result :=
  if s.mode.dev = .m3 ∧ s.mode.autoArmed = false ∧ (upto 8).all (fun b => natBit s.rst.isl b) then
    .next { (s.epochArm standalone) with mode := { s.mode with autoArmed := true } }
  else .next s

/-- The second REFCLK rising edge after a STANDALONE arm (R151). -/
def execEpochSet (s : State) : Result :=
  match s.armed with
  | some a => if a.mode = standalone then .next (s.epochSet a.second false).m3Exit else .next s
  | none => .next s

/-- Training of point `p` ends (R545, R547): in M3 of the 6.4 Gbit/s point, in M4 of the point that is asked for. -/
def execTrainingDone (p : Fin 3) (ok : Bool) (s : State) : Result :=
  let mine := (s.mode.dev = .m3 ∧ p.val = 0) ∨ (s.mode.dev ≠ .m3 ∧ s.hbm.want = some p.val)
  if s.hbmBit 9 = false ∨ ¬mine then .next s
  else
    let s1 := (s.setHbm (4 + p.val) ok).setHbm 9 false
    if s.mode.dev = .m3 ∧ ok then
      let s2 := (s1.wf .hbm 0 Off.hbmStat 0 2 0).reserve
      .next { s2 with mode := { s2.mode with trainDone := true } }.m3Exit
    else .next s1.m3Failed

/-- TAK_STAT and the epoch as a load leaves them. -/
def State.tackShow (s : State) (status : Nat) (epoch : Word) : State :=
  ((s.wr .tak 0 Off.takStat (word (16 * status + (if status = 1 then 256 else 0)))).wr .tak 0 Off.takEpochA epoch).wr
    .far 0 Off.farEpoch epoch

/-- The load of the sealed tack-room image ends (R468, R469, R595); `faults` names the slots whose read ended with FLASH_ERR, slot 2
first (R620). The image goes into bank A, which is active; without one both banks hold the factory coefficients. An image that
cannot be read is treated as one whose seal fails (DESIGN CHOICE, assumption 85). -/
def execTackRoomLoadDone (faults : BitVec 2) (s : State) : Result :=
  if s.mode.dev ≠ .m3 ∨ s.mode.tackLoaded then .next s
  else
    let f := s.far
    let load := fun (c : Coefs) (slot : Option Nat) => { s.setFar { f with
        bankA := c.bank, bankB := c.bank, trims := c.trims, base := c.base, gen := f.gen + 1, slot := slot } with
      mode := { s.mode with tackLoaded := true } }
    match s.tackChoice faults.toNat with
    | some k =>
      let body := s.tackBody k
      let c := s.tackCoefs body
      let s1 := load c (some k)
      let s2 := s1.setFar { s1.far with known := (body, c) :: s1.far.known }
      .next (s2.tackShow 1 (word (s.tackEpoch k))).m3Exit
    | none =>
      let s1 := load ⟨0, [], []⟩ none
      match [2, 3].find? fun k => s.tackThere k || (s.slotLen k != 0 && natBit faults.toNat (k - 2)) with
      | some k => .next ((s1.tackShow 3 0).logOffer logTakInvalid PageKind.tak.typeCode 0 k).m3Exit
      | none => .next (s1.tackShow 0 0).m3Exit

/-! ### Links -/

/-- A port reaches DL_Up at a generation and width (R567, R568, R581). -/
def execLinkUp (k : Fin 2) (gen : Fin 8) (width : Fin 16) (s : State) : Result :=
  if natBit s.rst.isl (10 + k) = false ∨ s.linkUp k ∨ s.pins.perstN ∨ s.mode.dev.num < 3 then .next s
  else
    let full := if s.split then 4 else 8
    let slow := decide (gen.val < 5) || decide (width.val < full)
    let w := word (pack [(0, 3, gen), (4, 4, width), (8, 1, 1), (10, 1, bit slow)])
    .next (s.setLink k w).m3Exit

/-- Pens mapped to a VF of port `k`, or to PF0 of port B (R578). -/
def State.pensOf (s : State) (k : Nat) : List Nat :=
  (upto 8).filter fun p => (portFns k).any fun f => f != 0 && s.rf .hlk 0 (Off.hlkFnmap f) 0 4 == p

/-- A hot reset or DL_Down of port `k` (R578): functions, pens, and a logbook entry. -/
def State.portDown (s : State) (k down : Nat) : State :=
  let s1 := (portFns k).foldl State.fnReset s
  let s2 := (s.pensOf k).foldl State.penReset s1
  s2.logOffer logLinkDown PageKind.hlk.typeCode 0 (down + 256 * k)

def execLinkDown (k : Fin 2) (s : State) : Result :=
  if s.linkUp k = false then .next s
  else
    let degraded := bit (s.rb .hlk 0 (Off.hlkLstat k) 10)
    let s1 := (s.setLink k (word (0x200 + 0x400 * degraded))).sat .hlk 0 Off.hlkDownCnt (16 * k) 16 1
    .next (s1.portDown k 1)

/-- A hot reset of port `k` (R578). That of port B waits for the end of a pause of the hayloft (R579). -/
def execHotReset (k : Fin 2) (s : State) : Result :=
  if s.linkUp k = false then .next s
  else
    let s1 := s.sat .hlk 0 Off.hlkHotrstCnt (16 * k) 16 1
    if k.val = 1 ∧ s.hbmBit 10 then .next { s1 with rst := { s1.rst with hotHeld := true } } else .next (s1.portDown k 0)

/-- The pause ends (R547): the point is switched, or the controller is back at the previous one after a failed training. A hot
reset that waited for it is applied (R579). -/
def execRateSwitchDone (s : State) : Result :=
  match s.hbm.want with
  | none => .next s
  | some p =>
    if s.hbmBit 9 then .next s
    else
      let s1 := s.rateSwitched p
      if s.rst.hotHeld then .next ({ s1 with rst := { s1.rst with hotHeld := false } }.portDown 1 0) else .next s1

/-- An FLR of function `f` (R559, R577): PF0 of port A has none. -/
def State.flr (s : State) (f : Nat) : State :=
  if f = 0 ∨ s.fnExists f = false then s
  else
    let o := s.rf .hlk 0 (Off.hlkFnmap f) 0 4
    let s1 := ((s.sat .hlk 0 Off.hlkFlrCnt (16 * portOf f) 16 1).event .hlk 0 2).fnReset f
    if o < 8 then s1.penReset o else s1

/-- An FLR. That of PF0 of port B clears its VF Enable, which acts as an FLR of each VF removed (R578). -/
def execFlr (f : Fin 18) (s : State) : Result :=
  if f.val = 9 ∧ (s.fnCfg 9).vfEn then .next ((portFns 1).foldr (fun g x => x.flr g) s) else .next (s.flr f)

/-- The 150 ms of M3 expire without DL_Up on port `k`, which do not run while PERST_N is low (R567, R635): port A keeps the
device in M3 for good; in split mode port B no longer holds it there. -/
def execLinkTrainingTimeout (k : Fin 2) (s : State) : Result :=
  if s.mode.dev ≠ .m3 ∨ s.pins.perstN ∨ s.linkUp k then .next s
  else if k.val = 0 then .next s.m3Failed
  else if s.split then .next { s with rst := { s.rst with bExpired := true } }.m3Exit
  else .next s

end Sys2Proof.Machine
end

