-- ==== Sys2Proof/Machine/Gate.lean ====
section
/-!
DEFINITION. Gatehouse and Security Functions (R587 to R604): hayloft regions, pen reset, the anti-rollback counter, the
debug lock and tamper events.
-/

namespace Sys2Proof.Machine

/-! ### Regions (R589, R591) -/

/-- Bytes `a` to `b - 1` lie, at least in part, in MiB `lo` to `hi`. -/
def inMib (a b lo hi : Nat) : Bool := decide (lo ≤ hi) && decide (a < (hi + 1) * 2 ^ 20) && decide (lo * 2 ^ 20 < b)

/-- An enabled ring, an armed capture buffer or a valid segment map of owner `o` lies in MiB `lo` to `hi`. -/
def State.rangeUsed (s : State) (o lo hi : Nat) : Bool :=
  let rings := (s.enabledRings.filter fun n => s.ringOwner n == o).any fun n =>
    inMib (s.ringBase n) (s.ringBase n + 2 ^ s.ringLog2 n) lo hi
  let seqs := (s.seqsOf o).any fun q =>
    let x := s.seq q
    let cap := s.seqActive q && tbit x.cfg.siteCtrl 1 && inMib x.cfg.capBase (x.cfg.capBase + 2 ^ x.cfg.capSize) lo hi
    let map := match x.map with
      | some m => m.any fun g => inMib g.image (g.image + 64 + 2560 * g.ngran) lo hi
      | none => false
    cap || map
  rings || seqs

/-- The owner codes of PG_OWNER (R60). -/
def ownerCode (o : Nat) : Bool := decide (o < 8) || o == 15

/-- A write of PEN_RGN_CFG: it applies the staged BASE and LAST with it, or is refused whole (R591). Only an enabled entry
has an owner (R589). -/
def rgnCfgWrite (v : Word) (s : State) : State :=
  let off := Off.penRgnCfg
  let i := s.rf .pen 0 Off.penRgnIdx 0 6
  let old := s.region i
  let new : Region := ⟨s.rf .pen 0 Off.penRgnBase 0 15, s.rf .pen 0 Off.penRgnLast 0 15, fld v 0 4, fld v 4 2, tbit v 31⟩
  let clash := new.en && s.regions.any fun e =>
    e.1 != i && e.2.en && decide (e.2.base ≤ new.last) && decide (new.base ≤ e.2.last)
  let kept := new.en && new.owner == old.owner
  let lost := old.en &&
    (if kept then
      (decide (old.base < new.base) && s.rangeUsed old.owner old.base (min old.last (new.base - 1))) ||
        s.rangeUsed old.owner (max old.base (new.last + 1)) old.last
    else s.rangeUsed old.owner old.base old.last)
  if ownerCode new.owner = false ∨ new.kind = 3 ∨ new.last < new.base ∨ 0x6000 ≤ new.last ∨ clash then
    s.err .pen 0 errValue off
  else if (old.en ∨ new.en) ∧ (s.ownerInM4 old.owner && s.ownerInM4 new.owner) = false then s.err .pen 0 errState off
  else if lost then s.err .pen 0 errState off
  else { s with regions := Store.setD (fun _ => ⟨0, 0, 15, 0, false⟩) s.regions i new }

/-- PEN_RGN_CFG written. -/
def execRegionWrite (r : Requester) (v : Word) (s : State) : Result :=
  .next (s.guarded r .pen 0 Off.penRgnCfg v (rgnCfgWrite v))

/-! ### Pen reset -/

/-- A write of PEN_RST: each bit written 1 applies its pen's reset (R603, R625). -/
def penRstWrite (v : Word) (s : State) : State :=
  if fld v 0 8 = 0 then s
  else if s.pageEn .pen 0 = false then s.err .pen 0 errDisabled Off.penRst
  else (onesOf (fld v 0 8) 8).foldl State.penReset s

def execPenReset (r : Requester) (pens : BitVec 8) (s : State) : Result :=
  let v := word pens.toNat
  .next (s.guarded r .pen 0 Off.penRst v (penRstWrite v))

/-- The reset of a pen is complete (R577), which it cannot be while PERST_N holds the pen (R626). -/
def execPenResetDone (p : Fin 8) (s : State) : Result :=
  if s.pins.perstN then .next s
  else
    let s1 := (s.setPenBusy p false).srstRelease fun k i => s.ownerOf k i == p.val
    .next { s1 with rst := { s1.rst with pens := maskOf 8 fun q => natBit s.rst.pens q && q != p.val } }

/-! ### Anti-rollback counter (R587, R588) -/

/-- A write of GTH_SVN_CMD: TARGET is held against the images that run, whatever a reset of the page has left in GTH_IMG_SVN. -/
def svnCmdWrite (r : Requester) (v : Word) (s : State) : State :=
  let o := Off.gthSvnCmd
  let t := fld v 0 7
  if s.farState = fStore ∨ s.gth.programming.isSome then s.err .gth 0 errState o
  else if s.isSup r = false ∨ s.mode.dev ≠ .m4 ∨ fld v 8 8 ≠ 0xC3 ∨ t ≤ s.otp.svn ∨ s.gth.bootSvn < t ∨
      s.gth.patchSvn.any (fun n => decide (n < t)) then s.err .gth 0 errValue o
  else if s.pageEn .gth 0 = false then s.err .gth 0 errDisabled o
  else { s with gth := { s.gth with programming := some t } }.startResult .gth 0 Off.gthSvnResult

def execSvnAdvance (r : Requester) (target : BitVec 7) (confirm : BitVec 8) (s : State) : Result :=
  let v := word (target.toNat + 2 ^ 8 * confirm.toNat)
  .next (s.guarded r .gth 0 Off.gthSvnCmd v (svnCmdWrite r v))

/-! ### Tamper (R599, R600) and the end of a programming -/

/-- A tamper event of an enabled source: keys and unlock state are gone, a record that waits for its check with them, the source is
marked, and M11 is entered. The LANTERN source only marks. -/
def State.tamper (s : State) (src : Nat) : State :=
  if src = 4 then s.tamperMark 4
  else
    let s1 := (s.newKeys).wf .gth 0 Off.gthStat 2 3 0
    let s2 := { s1 with gth := { s1.gth with nonce := false, submit := s1.gth.submit.map fun (x : Bool × Nat) => (false, x.2) } }
    (s2.tamperMark src).enterM11 causeTamper

/-- The tamper events that waited for the end of a programming (R602). -/
def State.heldTampers (s : State) : State :=
  (onesOf s.gth.heldTamper 5).foldl State.tamper { s with gth := { s.gth with heldTamper := 0 } }

/-- A detector or R598 raises a tamper event: nothing for a source that is not enabled; during an OTP programming it waits (R600,
R602). -/
def State.tamperFound (s : State) (src : Nat) : State :=
  if s.rb .gth 0 Off.gthTamperEn src = false then s
  else if s.gth.programming.isSome then { s with gth := { s.gth with heldTamper := s.gth.heldTamper ||| 2 ^ src } }
  else s.tamper src

/-- A tamper event (R599). -/
def execTamperEvent (src : Fin 5) (s : State) : Result :=
  if s.mode.dev.num < 2 then .next s else .next (s.tamperFound src)

/-- The programming ends (R588). After an OTP error the number of bits programmed is not stated: a free value between the
old and the new counter. -/
def execSvnAdvanceDone (ok : Bool) (s : State) : Result :=
  match s.gth.programming with
  | none => .next s
  | some t =>
    let part := s.otp.svn + Config.freeNat s.free % (t + 1 - s.otp.svn)
    let s1 := { s.useFree with otp := { s.otp with svn := if ok then t else part }, gth := { s.gth with programming := none } }
    .next ((s1.storeResult .gth 0 Off.gthSvnResult (if ok then 0 else 2 * 2 ^ 8)).heldTampers)

/-- A write of GTH_TAMPER: flags are cleared by writing 1, in M4 only (R600, R604). -/
def tamperWrite (v : Word) (s : State) : State :=
  if fld v 0 5 = 0 then s
  else if s.mode.dev ≠ .m4 then s.err .gth 0 errMode Off.gthTamper
  else { s with lan := { s.lan with tamper := maskOf 5 fun i => natBit s.lan.tamper i && !tbit v i } }

/-! ### Debug lock (R596 to R598) -/

/-- The word `w` of the unlock record, as written. -/
def State.dbgRec (s : State) (w : Nat) : Word := s.rd .gth 0 (Off.gthDbgRec w)

/-- The record carries the part's serial and the nonce that waits, and every reserved bit 0 (R597, R598). -/
def State.recordFits (s : State) : Bool :=
  s.gth.nonce && (s.dbgRec 0).toNat + 2 ^ 32 * (s.dbgRec 1).toNat == s.otp.serial % 2 ^ 64 &&
    (upto 4).all (fun w => s.dbgRec (2 + w) == s.rd .gth 0 (Off.gthDbgNonce w)) &&
    (s.dbgRec 6).toNat / 8 == 0 && (s.dbgRec 7).toNat == 0

/-- Bytes of the unlock record, from word `w`, `n` words. -/
def State.recordBytes (s : State) (w n : Nat) : List Byte := ((upto n).map fun i => bytesOf 4 (s.dbgRec (w + i)).toNat).flatten

/-- The signature of the unlock record verifies (R597). -/
def State.recordSigned (s : State) : Bool := sigOk (s.recordBytes 0 8) (s.recordBytes 8 24)

/-- A write of GTH_DBG_CMD: SUBMIT takes the record and the nonce as they stand, and while a result is pending it has no
effect (R598, R602, R604). A nonce serves one SUBMIT; it comes from the random generator: a free value. -/
def dbgCmdWrite (v : Word) (s : State) : State :=
  let o := Off.gthDbgCmd
  if fld v 0 2 = 0 then s
  else if s.pageEn .gth 0 = false then s.err .gth 0 errDisabled o
  else
    let s1 := if tbit v 0 then
        let x := (upto 4).foldl (fun y w => y.useFree.wr .gth 0 (Off.gthDbgNonce w) (Config.freeWord y.free)) s
        { x with gth := { x.gth with nonce := true } }
      else s
    if tbit v 1 = false ∨ s.rb .gth 0 o 1 then s1
    else
      let taken := some (s1.recordFits && s1.recordSigned, fld (s1.dbgRec 6) 0 3)
      (({ s1 with gth := { s1.gth with nonce := false, submit := taken } }.wb .gth 0 o 1 true)).startResult .gth 0 Off.gthDbgResult

def execDebugNonce (r : Requester) (s : State) : Result := .next (s.guarded r .gth 0 Off.gthDbgCmd 1 (dbgCmdWrite 1))
def execDebugSubmit (r : Requester) (s : State) : Result := .next (s.guarded r .gth 0 Off.gthDbgCmd 2 (dbgCmdWrite 2))

/-- The check of the unlock record ends (R598): OTP_ERR where a row that it needs could not be read, which accepts and rejects
nothing (R604; DESIGN CHOICE, assumption 86). An accepted one applies the reset of every pen and replaces every key, those of pens
whose reset already runs included. The eighth rejection raises the tamper event AUTH. -/
def execDebugResult (otpOk : Bool) (s : State) : Result :=
  let o := Off.gthDbgCmd
  if s.rb .gth 0 o 1 = false then .next s
  else
    let good := (s.gth.submit.getD (false, 0)).1
    let scope := (s.gth.submit.getD (false, 0)).2
    let s1 := { s with gth := { s.gth with submit := none } }.wb .gth 0 o 1 false
    if otpOk = false then .next (s1.storeResult .gth 0 Off.gthDbgResult (2 * 2 ^ 8))
    else if good then
      let running := (upto 8).filter s.penBusy
      let s2 := ((running ++ [8]).foldl State.newKey ((upto 8).foldl State.penReset s1))
      let s3 := ({ s2 with gth := { s2.gth with unlocked := true } }.wf .gth 0 Off.gthStat 2 3 scope)
      let s4 := (s3.logOffer logUnlock PageKind.gth.typeCode 0 scope).storeResult .gth 0 Off.gthDbgResult 0
      .next (s4.event .gth 0 2)
    else
      let n := s.gth.rejected + 1
      let s2 := { s1 with gth := { s1.gth with rejected := n } }.storeResult .gth 0 Off.gthDbgResult (1 * 2 ^ 8)
      .next (if n = 8 then s2.tamperFound 3 else s2)

/-- GTH_STAT.EVAL: the conditions of R601 that the device can check. -/
def State.evalOk (s : State) : Bool :=
  !s.gth.unlocked && s.gth.listed && s.rf .gth 0 Off.gthTamperEn 0 5 == 0x1F && s.otp.svn == s.gth.bootSvn &&
    s.lan.tamper == 0

end Sys2Proof.Machine
end

