-- ==== Sys2Proof/Machine/Hlk.lean ====
section
/-!
DEFINITION. PCI Express Host Link (R559 to R581): configuration requests, BAR4, the MSI-X table, and the registers of the
HLK page.
-/

namespace Sys2Proof.Machine

/-! ### Functions -/

/-- Store the completion of a host request. -/
def State.complete (s : State) (c : Completion) (ws : List Word) : State := { s with cpl := some c, resp := ws }

/-- A request that the part does not support (R560). -/
def State.unsupported (s : State) : State := (s.sat .hlk 0 Off.hlkUrCnt 0 32 1).complete .unsupported []

/-! ### MSI-X (R575, R576) -/

/-- Some owner's messages go to function `f` (R575). -/
def State.signals (s : State) (f : Nat) : Bool :=
  (upto 9).any fun ix => s.rb .hlk 0 (Off.hlkSig ix) 31 && s.rf .hlk 0 (Off.hlkSig ix) 0 5 == f

/-- Vector `v` of function `f` is no longer masked: its pending message is sent, under the conditions of R575. -/
def State.sendPending (s : State) (f v : Nat) : State :=
  let c := s.fnCfg f
  if s.pbaBit f v = false ∨ c.fmask ∨ s.vecMasked f v then s
  else
    let s1 := s.setPba f v false
    let goes := decide (v < s.rf .hlk 0 (Off.hlkVec f) 0 13) && s.signals f && c.msixEn && c.bme && s.linkUp (portOf f)
    if goes then s1.emit f v else s1.sat .hlk 0 Off.hlkMsgDrop 0 32 1

/-- Function Mask is cleared: every vector that is not masked itself is unmasked. -/
def State.sendAllPending (s : State) (f : Nat) : State :=
  (s.pba.filter fun e => e.1 / 4096 == f).foldl (fun x e => x.sendPending f (e.1 % 4096)) s

/-- The pen for which a function acts is in reset (R577), or the host has no access (R668). -/
def State.fnBlocked (s : State) (f : Nat) : Bool :=
  let o := s.rf .hlk 0 (Off.hlkFnmap f) 0 4
  s.rst.yardLost || decide (o < 8) && s.penBusy o

/-- The word of the PBA that holds the bit of vector `v` (R569). -/
def State.pbaWord (s : State) (f v : Nat) : Word := word (maskOf 32 fun i => s.pbaBit f (v - v % 32 + i))

/-- An access of function `f` to the MSI-X structures of BAR2, or to an offset of BAR2 that holds nothing (R569, R576): the
mask bit of an entry unmasks its vector. An entry beyond the function's table, and the rest of BAR2, are handled under R78. -/
def execMsixUnmask (f : Fin 18) (v : Fin 4096) (op : MsixOp) (s : State) : Result :=
  let none_ := s.memServed f = false ∨ s.rf .hlk 0 (Off.hlkVec f) 0 13 ≤ v ∨ s.fnBlocked f
  let missed := { s.accessError (.fn f) with resp := [0xFFFFFFFF], cpl := some (s.readStatus f) }
  let answer := fun (w : Word) => { s with resp := [w], cpl := some .success }
  match op with
  | .mask on =>
    if none_ then .next (s.accessError (.fn f))
    else .next ({ s with vmask := Store.setD (fun _ => true) s.vmask (4096 * f.val + v.val) on }.sendPending f v)
  | .write w x =>
    if none_ then .next (s.accessError (.fn f))
    else .next { s with msix := Store.setD (fun _ => 0) s.msix (3 * (4096 * f.val + v.val) + w.val) x }
  | .read w =>
    if none_ then .next missed
    else .next (answer (if w.val = 3 then word (bit (s.vecMasked f v)) else s.msixWord f v w))
  | .pba => if none_ then .next missed else .next (answer (s.pbaWord f v))
  | .outside write => .next (if write then s.accessError (.fn f) else missed)

/-! ### Error reporting (R559, R571) -/

/-- AER: bits of the uncorrectable error status written 1 are cleared; with the last of them the header log is free again
(DESIGN CHOICE, assumption 72). -/
def FnCfg.aerClear (c : FnCfg) (mask : Word) : FnCfg :=
  let left := c.aer &&& ~~~mask
  { c with aer := left, hdr := if left = 0 then [] else c.hdr }

/-- AER of function `f` reports a poisoned TLP (R571): bit 12 of the uncorrectable error status. The header log takes the first
error reported, and no other; its words are those of the TLP, which no rule gives: free values (assumption 72). -/
def State.aerPoison (s : State) (f : Nat) : State :=
  let c := s.fnCfg f
  let hdr := if c.aer = 0 then (upto 4).map fun i => Config.freeWord (s.free + i) else c.hdr
  { s.setFnCfg f { c with aer := c.aer ||| 0x1000, hdr := hdr } with free := s.free + 4 }

/-! ### Configuration space (R559, R560, R566) -/

/-- VF Enable of a PF changes to 0: an FLR of each VF removed (R578). -/
def State.dropVfs (s : State) (pf : Nat) : State := (List.range' (pf + 1) 8).foldl (fun x f => x.flr f) s

/-- A configuration request that is served. -/
def State.config (s : State) (f : Nat) (q : CfgRequest) : State :=
  let c := s.fnCfg f
  match q with
  | .readId => s.complete .success [word (s.otp.vendor + 2 ^ 16 * (if isPf f then 0x2048 else 0x2049))]
  | .readClass => s.complete .success [0x11800002]
  | .readTableSize => s.complete .success [word (s.rf .hlk 0 (Off.hlkVec f) 0 13 - 1)]
  | .readTotalVfs => s.complete .success [if isPf f then 8 else 0]
  | .readIntPin => s.complete .success [0]
  | .readMaxPayload => s.complete .success [512]
  | .readAer => s.complete .success (c.aer :: c.hdr)
  | .clearAer mask => (s.setFnCfg f (c.aerClear mask)).complete .success []
  | .ecrc gen chk => (s.setFnCfg f { c with ecrcGen := gen, ecrcChk := chk }).complete .success []
  | .command mse bme => (s.setFnCfg f { c with mse := isPf f && mse, bme := bme }).complete .success []
  | .msix en fmask =>
    let s1 := (s.setFnCfg f { c with msixEn := en, fmask := fmask }).complete .success []
    if c.fmask && !fmask then s1.sendAllPending f else s1
  | .vfControl en mse =>
    if isPf f = false then s.complete .success []
    else
      let s1 := if c.vfEn && !en then s.dropVfs f else s
      (s1.setFnCfg f { s1.fnCfg f with vfEn := en, vfMse := mse }).complete .success []
  | .power d3 => (s.setFnCfg f { c with d3 := d3 }).complete .success []

/-- A configuration request of a host to function `f`: Request Retry Status until the device enters M4 (R566). No request
comes over a link that is down, or is served without the yard PLL (R668). -/
def execConfigRequest (f : Fin 18) (q : CfgRequest) (s : State) : Result :=
  if s.linkUp (portOf f) = false ∨ s.rst.yardLost then .next s
  else if s.mode.served = false then .next (s.complete .retry [])
  else if s.fnAnswers f = false then .next s.unsupported
  else .next (s.config f q)

/-- A request of an unsupported kind (R560). -/
def execUnsupportedRequest (s : State) : Result := .next s.unsupported

/-! ### BAR4 (R553, R570, R571) -/

/-- Bytes as 32-bit words, the first byte least significant; the last word is filled with zero bytes. -/
def wordsOf : List Byte → List Word
  | [] => []
  | [a] => [word (ofBytes [a])]
  | [a, b] => [word (ofBytes [a, b])]
  | [a, b, c] => [word (ofBytes [a, b, c])]
  | a :: b :: c :: d :: t => word (ofBytes [a, b, c, d]) :: wordsOf t

/-- `n` undefined words, each a free value. -/
def State.freeWords (s : State) : Nat → State × List Word
  | 0 => (s, [])
  | n + 1 =>
    let x := s.useFree.freeWords n
    (x.1, Config.freeWord s.free :: x.2)

/-- A host access of function `f` to hayloft address `a`: a write of the bytes of `data`, or a read of `n` bytes. `ecc` is
what the error correction finds in a read, and in the read of a write that covers a word in part. -/
def execBar4Access (f : Fin 18) (a : BitVec 35) (data : Option (List Byte)) (n : Fin 513) (ecc : Ecc) (s : State) : Result :=
  let len := match data with
    | some bs => bs.length
    | none => n.val
  let deny := fun (_ : Unit) =>
    let s1 := s.accessError (.fn f)
    match data with
    | some _ => s1
    | none => s1.complete (s.readStatus f) (List.replicate ((len + 3) / 4) 0xFFFFFFFF)
  if s.memServed f = false then .next (deny ())
  else if s.mode.dev = .m5 ∨ s.trainPause then .next (s.complete .abort [])
  else
    match s.acting (.fn f) with
    | none => .next (deny ())
    | some o =>
      if s.fnBlocked f ∨ s.inRegion o anyKind a.toNat len = false then .next (deny ())
      else
        match data with
        | some bs => .next (s.hayMerge o a.toNat bs reqHost ecc)
        | none =>
          let x := s.eccRead a.toNat len reqHost ecc
          if x.2 then
            let y := x.1.freeWords ((len + 3) / 4)
            .next ((y.1.aerPoison f).complete .poisoned y.2)
          else .next (x.1.complete .success (wordsOf (s.hayBytes o a.toNat len)))

/-! ### The HLK page -/

/-- A write of HLK_PORTCFG: SPLIT only in M2 (R561). -/
def portcfgWrite (v : Word) (s : State) : State :=
  if s.mode.dev ≠ .m2 then s.err .hlk 0 errMode Off.hlkPortcfg else s.plainWrite .hlk 0 Off.hlkPortcfg v

/-- A write of HLK_FNMAP[f]: OWNER of function 0 is fixed (R564, R565). -/
def fnmapWrite (f : Nat) (v : Word) (s : State) : State :=
  let o := fld v 0 4
  let off := Off.hlkFnmap f
  if f = 0 then s
  else if 8 ≤ o ∧ o ≠ 0xE then s.err .hlk 0 errValue off
  else if s.memMapped f then s.err .hlk 0 errState off
  else s.wf .hlk 0 off 0 4 o

/-- A write of HLK_VEC[f] (R574). -/
def vecWrite (f : Nat) (v : Word) (s : State) : State :=
  let n := fld v 0 13
  let off := Off.hlkVec f
  let others := ((portFns (portOf f)).filter fun g => g != f).foldl (fun x g => x + s.rf .hlk 0 (Off.hlkVec g) 0 13) 0
  if (s.fnCfg f).msixEn ∨ (isPf f = false ∧ (s.fnCfg (pfOf f)).vfEn) then s.err .hlk 0 errState off
  else if n = 0 ∨ 4096 < n + others then s.err .hlk 0 errValue off
  else s.wf .hlk 0 off 0 13 n

/-- A write of HLK_SIG[ix]: the function must act for the owner (R581). -/
def sigWrite (ix : Nat) (v : Word) (s : State) : State :=
  let f := fld v 0 5
  let off := Off.hlkSig ix
  if f < 18 ∧ s.fnExists f ∧ ownerIx (s.rf .hlk 0 (Off.hlkFnmap f) 0 4) = ix ∧ s.rf .hlk 0 (Off.hlkFnmap f) 0 4 ≠ 0xE then
    s.plainWrite .hlk 0 off v
  else s.err .hlk 0 errOwner off

def execFnmapWrite (r : Requester) (f : Fin 18) (v : Word) (s : State) : Result :=
  .next (s.guarded r .hlk 0 (Off.hlkFnmap f) v (fnmapWrite f v))

def execVecWrite (r : Requester) (f : Fin 18) (v : Word) (s : State) : Result :=
  .next (s.guarded r .hlk 0 (Off.hlkVec f) v (vecWrite f v))

end Sys2Proof.Machine
end

