-- ==== Sys2Proof/Machine/HalOps.lean ====
section
/-!
DEFINITION. Halter Serial Port (R605 to R624): the slave status word, and the writes that start a master transfer.
-/

namespace Sys2Proof.Machine

/-- Causes of a rejected frame (R613). -/
def rejLength : Nat := 0
def rejCount : Nat := 1
def rejValue : Nat := 2
def rejBusy : Nat := 3
def rejConflict : Nat := 4

/-- The slave status word (R613). -/
def State.halStatus (s : State) : Word :=
  let h := s.halter
  word (pack [(0, 8, h.fseq), (8, 1, bit h.fetch.isSome), (9, 1, bit h.commit.isSome), (10, 1, bit h.ferr),
    (11, 1, bit h.rej.isSome), (12, 3, h.rej.getD 0), (16, 4, s.mode.dev.num), (20, 8, s.rf .hal 0 Off.halBadframe 0 8)])

/-- The gatehouse holds the master: boot in M2, tack-room load in M3, STORE (R617). -/
def State.gateHolds (s : State) : Bool :=
  (s.mode.dev = .m2 && s.rst.booting) || (s.mode.dev = .m3 && !s.mode.tackLoaded) || s.farState == fStore

/-- Store HAL_MRESULT with a code (R616 to R618). -/
def State.masterEnd (s : State) (code : Nat) : State :=
  (s.storeResult .hal 0 Off.halMresult (code * 2 ^ 8)).event .hal 0 1

/-- A master transfer in progress ends PREEMPTED and the select is released (R622). -/
def State.xferPreempt (s : State) : State :=
  if s.halter.xfer.isSome then
    let s1 := { s with halter := { s.halter with xfer := none }, pins := { s.pins with selLow := 0 } }
    (s1.wb .hal 0 Off.halMctrl 0 false).masterEnd 2
  else s

/-- A write of HAL_MCTRL; GO starts a transfer, or is refused (R616, R617). -/
def mctrlWrite (v : Word) (s : State) : State :=
  let o := Off.halMctrl
  let n := s.rf .hal 0 Off.halMlen 0 13
  let s1 := s.plainWrite .hal 0 o v
  if tbit v 0 = false then s1
  else if s.pageEn .hal 0 = false then s1.err .hal 0 errDisabled o
  else if s.gateHolds ∨ s.rb .hal 0 o 0 then s1.err .hal 0 errState o
  else if n = 0 ∨ 4096 < n then s1.err .hal 0 errValue o
  else if s.pins.csLow then (s1.startResult .hal 0 Off.halMresult).masterEnd 3
  else
    let tx := (upto ((n + 31) / 32)).map fun w => s.rd .hal 0 (Off.halTxbuf w)
    let s2 := (s1.wb .hal 0 o 0 true).startResult .hal 0 Off.halMresult
    { s2 with pins := { s2.pins with selLow := 2 ^ fld v 4 2 }
              halter := { s2.halter with xfer := some ⟨n, tbit v 9, tx⟩, mosi := tx } }

/-- The first `n` returned bits stand in HAL_RXBUF, most significant bit of each word first; the others of the words of a
transfer of `len` bits read 0, or with `cut` as before (R616). -/
def State.rxStore (s : State) (rx : List Word) (n len : Nat) (cut : Bool) : State :=
  (upto ((len + 31) / 32)).foldl (fun x w =>
    let got := min 32 (n - 32 * w)
    let old := if cut then (x.rd .hal 0 (Off.halRxbuf w)).toNat % 2 ^ (32 - got) else 0
    let v := ((rx[w]?).getD 0).toNat / 2 ^ (32 - got) * 2 ^ (32 - got)
    x.wr .hal 0 (Off.halRxbuf w) (word (v + old))) s

/-- A write of HAL_MCTRL with GO = 1. -/
def execMasterTransfer (r : Requester) (v : Word) (s : State) : Result :=
  let w := putBit v 0 true
  .next (s.guarded r .hal 0 Off.halMctrl w (mctrlWrite w))

/-- The transfer ends; `rx` holds the bits that came back (R616). -/
def execMasterTransferDone (rx : List Word) (s : State) : Result :=
  match s.halter.xfer with
  | none => .next s
  | some x =>
    let s1 := ({ s with halter := { s.halter with xfer := none } }.rxStore rx x.bits x.bits false).wb .hal 0 Off.halMctrl 0 false
    let s2 := if x.hold then s1 else { s1 with pins := { s1.pins with selLow := 0 } }
    .next (s2.masterEnd 0)

/-- HS_CS_N falls during a master transfer of which `n` bits are over (R618). While the gatehouse is the master it repeats its
own transfer (R620). -/
def execMultiMasterFault (n : Fin 4097) (rx : List Word) (s : State) : Result :=
  let hit := fun (x : State) =>
    ({ x with pins := { x.pins with csLow := true, selLow := 0 }, halter := { x.halter with conflict := true } }.sat
      .hal 0 Off.halMmfault 0 16 1).event .hal 0 3
  match s.halter.xfer with
  | none => if s.gateHolds then .next (hit s) else .next s
  | some x =>
    let s1 := ({ s with halter := { s.halter with xfer := none } }.rxStore rx (min n.val x.bits) x.bits true).wb .hal 0 Off.halMctrl 0 false
    .next (hit (s1.masterEnd 1))

end Sys2Proof.Machine
end

