-- ==== Sys2Proof/Machine/ReadView.lean ====
section
/-!
DEFINITION. What a read of each register returns (R60, R70 to R80, R82): registers that show the state of an engine, of the
lantern or of the options are computed here; every other register reads as it is stored.
-/

namespace Sys2Proof.Machine

/-! ### The page directory (R71 to R73) -/

/-- Every page, in ascending order of its base. -/
def allPages : List PageRef :=
  ((upto 25).filterMap yardPage) ++
    ((upto 8).flatMap fun q => ([.seq, .apg, .tset, .site] : List PageKind).map fun k => ⟨k, q⟩) ++
    ((upto 8).flatMap fun b => (([.brn, .tmb, .acq] : List PageKind).map fun k => (⟨k, b⟩ : PageRef)) ++
      (upto 16).map fun i => (⟨.wch, 16 * b + i⟩ : PageRef)) ++
    ((upto 128).flatMap fun i => (upto 8).map fun k => (⟨stallKind k, i⟩ : PageRef)) ++
    (⟨.grm, 0⟩ :: (upto 8).map fun g => (⟨.groom, g⟩ : PageRef))

/-- The pages visible to a requester. -/
def State.visible (s : State) (r : Requester) : List PageRef := allPages.filter fun p => s.reach r p.kind p.inst != .none

/-- Words 0 and 1 of the directory entry that the requester's DIR_IDX selects. -/
def State.dirEntry (s : State) (r : Requester) : Word × Word :=
  match (s.visible r)[s.idxOf r .dir Off.dirIdx]? with
  | none => (0xFFFFFFFF, 0)
  | some p =>
    (word (p.kind.base p.inst), word (pack [(0, 8, p.kind.typeCode), (8, 8, p.kind.instanceField p.inst),
      (16, 4, s.ownerOf p.kind p.inst), (20, 4, 1), (24, 1, bit (s.reach r p.kind p.inst == .full)),
      (25, 1, bit (s.locked p.kind p.inst))]))

/-! ### Modes (R38, R55 to R57) -/

/-- MOD_DEV. -/
def State.modDevView (s : State) : Word :=
  match s.mode.trans with
  | some (t, _) => word (pack [(0, 4, s.mode.dev.num), (8, 4, t.num), (12, 1, 1)])
  | none => word s.mode.dev.num

/-- Number of the mode that domain `d` shows. -/
def State.domNum (s : State) (d : Nat) : Nat := s.modeOf (if d < 8 then d else 15)

/-- MOD_PMODE of domain `d`. -/
def State.pmodeView (s : State) (d : Nat) : Word :=
  match Store.get? s.mode.domTrans d with
  | some t => word (pack [(0, 4, s.domNum d), (8, 4, t.num), (12, 1, 1)])
  | none => word (s.domNum d)

/-- MOD_SET: bit m while a domain is in mode m. -/
def State.modSetView (s : State) : Word :=
  word (maskOf 10 fun m => decide (6 ≤ m) && s.mode.dev == .m4 && (upto 9).any fun d => s.domNum d == m)

def mod0View (o : Nat) (s : State) : Word :=
  if o = Off.modDev then s.modDevView
  else if o = Off.modSet then s.modSetView
  else if o = Off.modDom then word (pack ((upto 8).map fun p => (4 * p, 4, s.domNum p)))
  else if o = Off.modDomSup then word (s.domNum 8)
  else s.rd .mod0 0 o

def modpView (i o : Nat) (s : State) : Word :=
  if o = Off.modDev then s.modDevView else if o = Off.modPmode then s.pmodeView i else s.rd .modp i o

/-! ### Yard pages -/

/-- An option value: 0 until option loading is complete (R631). -/
def State.option (s : State) (v : Nat) : Word := if s.rst.optDone then word v else 0

/-- PEN_RGN_CFG of an entry. -/
def Region.cfg (e : Region) : Word := word (pack [(0, 4, e.owner), (4, 2, e.kind), (31, 1, bit e.en)])

def penView (o : Nat) (s : State) : Word :=
  let e := s.region (s.rf .pen 0 Off.penRgnIdx 0 6)
  if o = Off.penRgnBase then word e.base
  else if o = Off.penRgnLast then word e.last
  else if o = Off.penRgnCfg then e.cfg
  else s.rd .pen 0 o

def gthView (o : Nat) (s : State) : Word :=
  if o = Off.gthStat then putBit (s.rd .gth 0 o) 5 s.evalOk
  else if o = Off.gthSvn then s.option s.otp.svn
  else if o = Off.gthTamper then word s.lan.tamper
  else if o = Off.gthFlashDir then s.option s.otp.flashDir
  else if o = Off.gthSerialLo then s.option s.otp.serial
  else if o = Off.gthSerialHi then s.option (s.otp.serial / 2 ^ 32)
  else if Off.gthDbgRec 0 ≤ o ∧ o < Off.gthSerialLo then 0
  else s.rd .gth 0 o

def hlkView (o : Nat) (s : State) : Word :=
  if o = Off.hlkId then s.option (s.otp.vendor % 2 ^ 16)
  else if Off.hlkFnmap 0 ≤ o ∧ o < Off.hlkVec 0 then
    let f := (o - Off.hlkFnmap 0) / 4
    let c := s.fnCfg f
    word (pack [(0, 4, s.rf .hlk 0 o 0 4), (16, 1, bit (s.memOn f)), (17, 1, bit c.bme), (18, 1, bit c.msixEn)])
  else s.rd .hlk 0 o

def halView (o : Nat) (s : State) : Word :=
  if o = Off.halSstat then s.halStatus
  else if o = Off.halBootcfg then s.option (s.otp.bootCfg % 2 ^ 24)
  else s.rd .hal 0 o

/-- RST_SRC: causes whose source is asserted (R629). -/
def State.rstSrc (s : State) : Word :=
  let pages := s.softResets.any fun p => !s.widerReset p.kind p.inst
  word (maskOf 10 fun c =>
    (c == rstVinPor && !s.pins.vin) || (c == rstResetN && s.pins.resetN) || (c == rstPerst && s.pins.perstN) ||
      (c == rstPen && s.rst.pens != 0) || (c == rstPage && pages))

def rstView (o : Nat) (s : State) : Word :=
  if o = Off.rstStat then
    word (pack [(0, 2, s.rf .rst 0 o 0 2), (2, 1, bit ((s.rd .rst 0 Off.rstIslPend).toNat != 0)),
      (3, 1, bit ((s.rd .rst 0 Off.rstIslLockfail).toNat != 0))])
  else if o = Off.rstSrc then s.rstSrc
  else if o = Off.rstLast then word s.lan.rstLast
  else if o = Off.rstTotal then word s.lan.rstTotal
  else if Off.rstCnt 0 ≤ o then
    let k := (o - Off.rstCnt 0) / 4
    word (s.lan.count (2 * k) + 2 ^ 16 * s.lan.count (2 * k + 1))
  else s.rd .rst 0 o

def wvnView (o : Nat) (s : State) : Word :=
  if o = Off.wvnRead then
    let n := s.rf .wvn 0 Off.wvnIdx 0 7
    word (twos 16 (s.rawOf n) + 2 ^ 16 * (if n < 72 then twos 16 (s.effOf n) else 0))
  else s.rd .wvn 0 o

def lanView (r : Requester) (o : Nat) (s : State) : Word :=
  let l := s.lan
  let slot := (Store.getD (fun _ => 0) l.slots (s.idxOf r .lan Off.lanLogIdx)).toNat
  if o = Off.lanStat then word (pack [(0, 1, bit l.frozen), (1, 1, bit l.onVbak), (2, 1, bit l.oscFail)])
  else if o = Off.lanTickLo then word l.tick
  else if o = Off.lanTickHi then word (l.tick % 2 ^ 40 / 2 ^ 32)
  else if o = Off.lanLogLo then word slot
  else if o = Off.lanLogHi then word (slot / 2 ^ 32)
  else if o = Off.lanLogWptr then word (l.wptr % 512 + 512 * bit l.wrapped)
  else if o = Off.lanLogFrz then word (l.frz % 512)
  else if o = Off.lanLogLost then word l.lost
  else if o = Off.lanLogWritten then word l.written
  else if o = Off.lanWear then word (s.wearOf (s.idxOf r .lan Off.lanWearIdx))
  else if o = Off.lanRstCnt then word (l.count (s.idxOf r .lan Off.lanRstIdx))
  else if o = Off.lanRstTotal then word l.rstTotal
  else if o = Off.lanTamper then word l.tamper
  else if o = Off.lanLogIdx ∨ o = Off.lanWearIdx ∨ o = Off.lanRstIdx then word (s.idxOf r .lan o)
  else s.rd .lan 0 o

def dirView (r : Requester) (o : Nat) (s : State) : Word :=
  if o = Off.dirNpages then word (s.visible r).length
  else if o = Off.dirIdx then word (s.idxOf r .dir o)
  else if o = Off.dirEntLo then (s.dirEntry r).1
  else if o = Off.dirEntHi then (s.dirEntry r).2
  else s.rd .dir 0 o

def rngView (o : Nat) (s : State) : Word := if o = Off.rngEnabled then word s.enabledRings.length else s.rd .rng 0 o

def catView (o : Nat) (s : State) : Word :=
  if o = Off.catStat then word (s.catBuf.length + 2 ^ 16 * bit (s.catBuf.length == 16384)) else s.rd .cat 0 o

/-- TAK_DRIFT: the barn's mean temperature and TAK_TEMP differ by more than 10 °C. -/
def State.takDrift (s : State) : Nat :=
  maskOf 8 fun b =>
    let d := signed 16 (s.rf .wvn 0 (Off.wvnBarn b) 0 16) - signed 16 (s.rf .tak 0 (Off.takTemp b) 0 16)
    decide (40 < d) || decide (d < -40)

def farView (o : Nat) (s : State) : Word :=
  if o = Off.farStat then putBit (putBit (s.rd .far 0 o) 5 s.needlesUp) 7 (s.takDrift != 0) else s.rd .far 0 o

def takView (o : Nat) (s : State) : Word := if o = Off.takDrift then word s.takDrift else s.rd .tak 0 o

def hbmView (o : Nat) (s : State) : Word := if o = Off.hbmRowLog then s.rowLogRead else s.rd .hbm 0 o

/-! ### Grooms (R500, R507, R510, R511) -/

/-- Class of an operation, as bits [18:16] of its dispatch entry: 0 N, 1 C, 2 P, 3 S (R482, R500). -/
def opClass (op : Nat) : Nat :=
  if op = 0x10 ∨ op = 0x11 then 1
  else if (0x12 ≤ op ∧ op ≤ 0x14) ∨ (0x18 ≤ op ∧ op ≤ 0x24) ∨ (0x28 ≤ op ∧ op ≤ 0x2D) then 2
  else if 0x40 ≤ op ∧ op ≤ 0x47 then 3
  else 0

/-- Yield bound of an operation in µs (R482). -/
def opYb (op : Nat) : Nat :=
  if op = 0 then 1
  else if op ≤ 3 ∨ (0x48 ≤ op ∧ op ≤ 0x4F) then 2
  else if op = 0x0C ∨ op = 0x0D ∨ opClass op = 1 ∨ opClass op = 2 ∨ (0x41 ≤ op ∧ op ≤ 0x47) then 10
  else 5

/-- The ROM's dispatch entry of an operation (R482, R500): its microaddress is not published. -/
def romEntry (op : Nat) : Word :=
  if op < 0x50 then word (pack [(0, 15, Config.romDispatch op), (16, 3, opClass op), (20, 8, opYb op), (31, 1, 1)]) else 0

/-- The dispatch entry of an operation: the patch image gives the whole table (R584), else the ROM does. -/
def State.dispatch (s : State) (op : Nat) : Word :=
  match s.cluster.patchDisp with
  | [] => romEntry op
  | l => Store.getD (fun _ => 0) l op

/-- Groom `g` may take records: its bit of GRM_CTRL, and the pages' EN. -/
def State.groomEn (s : State) (g : Nat) : Bool := s.rb .grm 0 Off.grmCtrl g && s.pageEn .grm 0 && s.pageEn .groom g

/-- GRM_CORE_STAT.STATE of a groom (R507): JOURNAL while the entries of a record that has ended are still to be posted. -/
def State.coreState (s : State) (g : Nat) : Nat :=
  let x := s.groom g
  match x.ctx with
    | none => if s.groomWaits g then 6 else if x.saved ≠ [] then 5 else if x.chains ≠ [] then 2 else if s.groomEn g then 0 else 7
    | some c =>
      match c.after with
      | .no | .done => 2
      | .asleep => 4
      | _ => 3

def grmView (o : Nat) (s : State) : Word :=
  if o = Off.grmStat then
    word (maskOf 16 fun i => if i < 8 then s.coreState i != 0 && s.coreState i != 7 else s.coreState (i - 8) == 7)
  else if o = Off.grmDisp then s.dispatch (s.rf .grm 0 Off.grmDispIdx 0 7)
  else if o = Off.grmShare 8 then word (100 - (upto 8).foldl (fun a p => a + s.rf .grm 0 (Off.grmShare p) 0 7) 0)
  else s.rd .grm 0 o

/-- A page of groom `g` (R511). -/
def groomView (g o : Nat) (s : State) : Word :=
  let x := s.groom g
  match x.running with
  | none => if o = Off.grmCoreStat then word (pack [(0, 3, s.coreState g), (4, 3, x.saved.length)]) else s.rd .groom g o
  | some c =>
    if o = Off.grmCoreStat then
      word (pack [(0, 3, s.coreState g), (4, 3, x.saved.length), (8, 4, c.rcd.owner), (16, 7, c.rcd.op)])
    else if o = Off.grmCoreTag then word c.rcd.tag
    else if o = Off.grmCorePc then word (c.pc % 2 ^ 15)
    else if o = Off.grmCoreElapsed then word (c.elapsed s.now)
    else if o = Off.grmCoreStaged then word c.staged.length
    else s.rd .groom g o

/-! ### Sequencer pages -/

def seqView (q o : Nat) (s : State) : Word :=
  let x := s.seq q
  let w := s.rd .seq q o
  if o = Off.seqStat then putFld (putFld w 8 4 x.loops.length) 12 4 x.calls.length
  else if Off.seqLstk 0 ≤ o ∧ o < Off.seqCstk 0 then word (((x.loops[(o - Off.seqLstk 0) / 4]?).map Prod.snd).getD 0)
  else if Off.seqCstk 0 ≤ o ∧ o < Off.seqStrmCtrl then word ((x.calls[(o - Off.seqCstk 0) / 4]?).getD 0)
  else if o = Off.seqMangerUse then word x.resident.length
  else if o = Off.seqStarveCycLo then word (s.starveCyc q % 2 ^ 32)
  else if o = Off.seqStarveCycHi then word (s.starveCyc q / 2 ^ 32)
  else w

def apgView (q o : Nat) (s : State) : Word :=
  let a := (s.seq q).apg
  if o = Off.apgCurLo then word a.addr
  else if o = Off.apgCurHi then word (a.addr / 2 ^ 32)
  else if o = Off.apgStat then
    let by_ := if s.seqActive q then (s.seq q).cfg.bypass else !s.pageEn .apg q
    word (pack [(0, 1, bit a.inv), (1, 1, bit a.xc), (2, 1, bit a.yc), (3, 1, bit by_)])
  else s.rd .apg q o

def tsetView (q o : Nat) (s : State) : Word :=
  if Off.seqTsEdge 0 ≤ o ∧ o < Off.seqClashCnt then
    word (s.tsEdge q (s.rf .tset q Off.seqTsIdx 0 5) (s.rf .tset q Off.seqTsIdx 8 6) ((o - Off.seqTsEdge 0) / 4))
  else s.rd .tset q o

/-- SITE_RES: bytes 4 to 31 of the entry of the site in SITE_IDX, FINAL once the run is over (R258, R261); before
any run they read their reset value (R268). -/
def State.siteRes (s : State) (q i : Nat) : Word :=
  if (s.seq q).ran = false then 0
  else wordOf (siteEntry (s.seq q).sites q (s.seq q).runNum (s.rf .site q Off.siteIdx 0 9) (!s.seqActive q)) (i + 1)

def siteView (q o : Nat) (s : State) : Word :=
  let x := (s.seq q).sites
  if o = Off.siteStat then word (pack [(0, 4, x.stack.length), (16, 10, popCount x.active 512)])
  else if Off.siteRes 0 ≤ o ∧ o < Off.siteLost then s.siteRes q ((o - Off.siteRes 0) / 4)
  else if Off.siteAct 0 ≤ o ∧ o < Off.siteFail 0 then wordOf x.active ((o - Off.siteAct 0) / 4)
  else s.rd .site q o

/-! ### Barn pages -/

def brnView (b o : Nat) (s : State) : Word := if o = Off.brnLineCfg then s.rd .brn 0 o else s.rd .brn b o

def tmbView (b o : Nat) (s : State) : Word :=
  if o = Off.tmbCtrl ∨ o = Off.tmbSyncDly then s.rd .tmb 0 o
  else if o = Off.tmbTickLo then word s.tick
  else if o = Off.tmbTickHi then word (s.tick / 2 ^ 32)
  else s.rd .tmb b o

def acqView (b o : Nat) (s : State) : Word :=
  if Off.acqRd 0 ≤ o ∧ o < Off.acqSkew 0 then ((s.acqRead b)[(o - Off.acqRd 0) / 4]?).getD 0 else (s.acqReach b).rd .acq b o

/-! ### Stall pages -/

def swmView (st o : Nat) (s : State) : Word :=
  let worn := fun (lo n : Nat) => word (maskOf n fun k => Store.getD (fun _ => false) s.lan.worn (48 * st + lo + k))
  if o = Off.swmWear then word (s.wearOf (48 * st + s.rf .swm st Off.swmWearIdx 0 6))
  else if o = Off.swmWornLo then worn 0 32
  else if o = Off.swmWornHi then worn 32 16
  else s.rd .swm st o

def timView (st o : Nat) (s : State) : Word :=
  let w := s.rd .tim st o
  if o = Off.timVstat then putFld w 0 5 (s.vernier st).fifo.length
  else if o = Off.timState then word ((upto 16).foldl (fun n c => n + 4 ^ c * s.timStateNow st c) 0)
  else if 0x100 ≤ o ∧ o < 0x200 ∧ o % 16 = 12 then
    let n := (s.tim st ((o - 0x100) / 16)).fifo.length
    putBit (putFld w 0 7 n) 8 (n == 64)
  else w

/-- LIMITING and VCLAMPING of a live output: whether the load makes a limit hold it comes from outside the model, so that
both are free values while the rules let them be 1 (R338, R340, R345, R359). -/
def State.pmuLoad (s : State) (st u : Nat) (w : Word) : Word :=
  let live := s.pmuLive st u
  let lim := live && (!s.pmuFi st u || s.pmuState st u == pmuClamped)
  let clamp := live && s.pmuFi st u
  putBit (putBit w 4 (lim && Config.freeBool s.free)) 5 (clamp && Config.freeBool (s.free + 1))

def pmuView (st o : Nat) (s : State) : Word :=
  let w := s.rd .pmu st o
  if o = Off.pmuWtData then
    word (s.waveEntry st (s.rf .pmu st Off.pmuWtIdx 16 2) (s.rf .pmu st Off.pmuWtIdx 0 12))
  else if 0x100 ≤ o ∧ (o - 0x100) % 64 = 4 then
    let u := (o - 0x100) / 64
    putFld (putBit (putBit w 7 (s.ganged st)) 8 (s.pmuHeld st u)) 12 4 (s.rf .swm st Off.swmCurPmu (4 * u) 4)
  else w

def cnvView (st o : Nat) (s : State) : Word :=
  if o = Off.cnvNowLo then word s.tick else if o = Off.cnvNowHi then word (s.tick / 2 ^ 32)
  else (s.cnvReachAll st).rd .cnv st o

/-! ### One register -/

/-- A block register as requester `r` reads it. -/
def State.blockView (s : State) (r : Requester) (k : PageKind) (i o : Nat) : Word :=
  match k with
  | .dir => dirView r o s | .mod0 => mod0View o s | .modp => modpView i o s | .pen => penView o s | .gth => gthView o s
  | .hlk => hlkView o s | .hal => halView o s | .rst => rstView o s | .wvn => wvnView o s | .lan => lanView r o s
  | .rng => rngView o s | .cat => catView o s | .far => farView o s | .tak => takView o s | .hbm => hbmView o s
  | .grm => grmView o s | .groom => groomView i o s | .seq => seqView i o s | .apg => apgView i o s | .tset => tsetView i o s
  | .site => siteView i o s | .brn => brnView i o s | .tmb => tmbView i o s | .acq => acqView i o s | .swm => swmView i o s
  | .tim => timView i o s | .pmu => pmuView i o s | .cnv => cnvView i o s
  | .yrd | .log | .wch | .stl | .lvl | .drv | .cmp => s.rd k i o

/-- A register of a page as it reads. -/
def State.view (s : State) (r : Requester) (k : PageKind) (i o : Nat) : Word :=
  if o = Off.pgId then pgIdOf k i
  else if o = Off.pgCaps then word k.caps
  else if o = Off.pgStat then s.pgStat k i
  else if o = Off.pgOwner then word (s.ownerOf k i)
  else if o < 0x40 then s.rd k i o
  else s.blockView r k i o

/-- Registers that keep their value through a soft reset of their page, and read it during one (R63, R82): the header's, those
of `liveReg`, and what the lantern, the options and the visible pages give. -/
def keptView (k : PageKind) (o : Nat) : Bool :=
  o == Off.pgId || o == Off.pgCaps || o == Off.pgCtrl || o == Off.pgStat || o == Off.pgErrCnt || o == Off.pgOwner ||
    o == Off.pgLock || liveReg k o || (k == .dir && o == Off.dirNpages) || (k == .lan && o != Off.lanLogIdx && o != Off.lanWearIdx && o != Off.lanRstIdx) ||
    (k == .swm && (o == Off.swmWear || o == Off.swmWornLo || o == Off.swmWornHi)) || (k == .hlk && o == Off.hlkId) ||
    (k == .hal && o == Off.halBootcfg) ||
    (k == .gth && (o == Off.gthSvn || o == Off.gthTamper || o == Off.gthFlashDir || Off.gthSerialLo ≤ o))

/-- What another register reads as during a soft reset of its page: its reset value (R82, R163, R714). -/
def State.resetView (s : State) (k : PageKind) (i o : Nat) : Word :=
  if k = .tset ∧ Off.seqTsEdge 0 ≤ o ∧ o < Off.seqClashCnt then edgeReset ((o - Off.seqTsEdge 0) / 4)
  else if k = .pen ∧ o = Off.penRgnCfg then (s.region 0).cfg
  else s.wipedReg k i o

/-- The wide RS value that a register belongs to: offset of its low word and its words (R80). -/
def rsGroup (k : PageKind) (o : Nat) : Option (Nat × Nat) :=
  let pair := fun (lo : Nat) => if o = lo ∨ o = lo + 4 then some (lo, 2) else none
  match k with
  | .dir => pair Off.dirEntLo
  | .seq => (pair Off.seqResultLo).orElse fun _ => (pair Off.seqVcntLo).orElse fun _ => pair Off.seqStarveCycLo
  | .site => if Off.siteRes 0 ≤ o ∧ o < Off.siteLost then some (Off.siteRes 0, 7) else pair Off.capWptrLo
  | .cat => pair Off.catRecLo
  | .apg => pair Off.apgCurLo
  | .tmb => pair Off.tmbTickLo
  | .tim =>
    if 0x400 ≤ o then some (o - (o - 0x400) % 64, 9)
    else if 0x200 ≤ o then some (o - o % 8, 2) else none
  | .cnv => if 0x110 ≤ o ∧ 16 ≤ (o - 0x100) % 64 then some (o - (o - 0x100) % 64 + 16, 5) else pair Off.cnvNowLo
  | .acq => if Off.acqRes 0 ≤ o ∧ o < Off.acqRdIdx then some (Off.acqRes 0, 6)
    else if Off.acqRd 0 ≤ o ∧ o < Off.acqSkew 0 then some (Off.acqRd 0, 4) else none
  | .far => pair Off.farResultLo
  | .hbm => pair Off.hbmErrAddrLo
  | .gth => pair Off.gthSerialLo
  | .lan => (pair Off.lanTickLo).orElse fun _ => pair Off.lanLogLo
  | _ => none

/-- A read of the low word of a wide RS value: the words above it go into the requester's snapshot. -/
def State.snapshot (s : State) (r : Requester) (k : PageKind) (i lo n : Nat) : State :=
  { s with snaps := (List.range' 1 (n - 1)).foldl (fun l j =>
      Store.put l (reqKey r (k.base i + lo + 4 * j)) (s.view r k i (lo + 4 * j))) s.snaps }

/-- HBM_TRN while a point is being trained: STEP is that of the last read or a later one, a free value (R558). -/
def State.trainStep (s : State) : Word :=
  let w := s.rd .hbm 0 Off.hbmTrn
  let old := fld w 0 6
  putFld w 0 6 (old + Config.freeNat s.free % (48 - old))

/-- RST_OPT while options are loaded: ROW is that of the last read or a later one, a free value (R640). -/
def State.loadRow (s : State) : Word :=
  let w := s.rd .rst 0 Off.rstOpt
  let old := fld w 0 8
  putFld w 0 8 (old + Config.freeNat s.free % (256 - old))

/-- A read of a register that the requester reaches. What the comparators give at the moment of a read, the step of a training in
progress and the option row being loaded come from outside the model: free values. -/
def State.readReg (s : State) (r : Requester) (k : PageKind) (i o : Nat) : State × Word :=
  if s.rb k i Off.pgCtrl 1 && !keptView k o then (s, s.resetView k i o)
  else if k = .cmp ∧ o = Off.cmpLive then (s.useFree, Config.freeWord s.free)
  else if k = .hbm ∧ o = Off.hbmTrn ∧ s.rb .hbm 0 Off.hbmStat 9 then
    (s.useFree.wr .hbm 0 o s.trainStep, s.trainStep)
  else if k = .rst ∧ o = Off.rstOpt ∧ s.rst.loading then (s.useFree.wr .rst 0 o s.loadRow, s.loadRow)
  else if k = .tim ∧ o = Off.timVfifo then
    let s1 := vernierFifoPop i s
    (s1, (s1.resp[0]?).getD 0)
  else if k = .tim ∧ 0x200 ≤ o ∧ o < 0x400 ∧ o % 8 = 0 then
    let s1 := timFifoPop r i ((o - 0x200) / 8) s
    (s1, (s1.resp[0]?).getD 0)
  else if k = .pmu ∧ o = Off.pmuWtData then (s.wtAdvance i, s.view r k i o)
  else if k = .pmu ∧ 0x100 ≤ o ∧ o < 0x200 ∧ o % 64 = 4 then
    (s.useFree.useFree, s.pmuLoad i ((o - 0x100) / 64) (s.view r k i o))
  else
    match rsGroup k o with
    | none => (s, s.view r k i o)
    | some (lo, n) =>
      if o = lo then (s.snapshot r k i lo n, s.view r k i o)
      else (s, Store.getD (fun _ => 0) s.snaps (reqKey r (k.base i + o)))

/-- A word of a ring descriptor as it reads: WAITING is set while a producer holds an entry under BACKP (R516). -/
def State.ringView (s : State) (a : Nat) : Word :=
  let n := (a - ringWindow) / 0x20
  if (a - ringWindow) % 0x20 = Off.rngStat then putBit (s.reg a) 1 (tbit (s.reg a) 1 || s.timWaits n) else s.reg a

/-- A 32-bit read at BAR0 offset `a` (R70, R75, R78, R80, R514). -/
def State.read32 (s : State) (r : Requester) (a : Nat) : State × Word :=
  if ringWindow ≤ a ∧ a < ringWindowEnd then
    if s.reachRing r ((a - ringWindow) / 0x20) then (s, s.ringView a) else (s.accessError r, 0xFFFFFFFF)
  else
    match pageAt a with
    | none => (s.accessError r, 0xFFFFFFFF)
    | some p =>
      let o := a % 0x1000
      if s.reach r p.kind p.inst = .none ∨ (s.reach r p.kind p.inst = .header ∧ 0x40 ≤ o) then (s.accessError r, 0xFFFFFFFF)
      else
        match regRow p.kind o with
        | none => (s.err p.kind p.inst errRsvd o, 0)
        | some _ => s.readReg r p.kind p.inst o

end Sys2Proof.Machine
end

