-- ==== Sys2Proof/Machine/RegWrite.lean ====
section
/-!
DEFINITION. Register writes (R60 to R65, R68, R69, R74 to R78, R81, R82): the common header, and for each page the effect of
a write of each of its registers.
-/

namespace Sys2Proof.Machine

/-! ### The common header -/

/-- The block of a page goes idle: its EN is 0 (R60, R446; assumption 10). -/
def State.blockStop (s : State) (k : PageKind) (i : Nat) : State :=
  match k with
  | .stl | .lvl | .drv | .cmp | .swm => s.park i allChans
  | .tim => (s.timPreempt i allChans).vernierStop i
  | .pmu =>
    (upto 4).foldl (fun x u =>
      (if s.rb .pmu i (Off.pmuCtrl (s.leader i u)) 0 then x.pmuOutOff i u pmuIdle else x).waveOff i u) s
  | .cnv => (upto 4).foldl (fun x u => x.cnvPreempt i u) s
  | .wch => s.watchUnres i allWatch
  | .seq => (s.seqPreempt i).primePreempt i
  | .acq => s.acqPreempt i
  | .brn => s.refOff i
  | .tmb => if i = 0 then ({ s with armed := none }.wb .tmb 0 Off.tmbCtrl 4 false).tmbBit 2 false else s
  | .far => s.farStop
  | .hal => s.xferPreempt
  | _ => s

/-- A page soft reset starts (R63): the reset is counted (R629), and SRST reads 1 until it completes. In a wider reset it
has no further effect (R638). -/
def State.softReset (s : State) (k : PageKind) (i : Nat) : State :=
  (if s.widerReset k i then s else (s.countReset rstPage).pageReset k i).wb k i Off.pgCtrl 1 true

/-- A write of PG_CTRL (R60, R63). -/
def pgCtrlWrite (k : PageKind) (i : Nat) (v : Word) (s : State) : State :=
  if tbit v 1 then s.softReset k i
  else
    let s1 := s.wb k i Off.pgCtrl 0 (tbit v 0)
    if tbit v 0 = s.pageEn k i then s1
    else if tbit v 0 then (if k = .wch then s1.watchUnres i allWatch else s1)
    else s1.blockStop k i

/-- A write of PG_LOCK (R60, R65). -/
def pgLockWrite (r : Requester) (k : PageKind) (i : Nat) (v : Word) (s : State) : State :=
  let o := Off.pgLock
  if fld v 8 8 ≠ 0x5A then s.err k i errValue o
  else if s.isSup r = false ∧ s.rb k i o 1 ∧ s.rb k i o 0 ∧ tbit v 0 = false then s.err k i errLocked o
  else s.wf k i o 0 2 (fld v 0 2)

/-- Snapshots and staged words of the pages of a stall or sequencer are discarded: its owner has changed (R82, assumption 17). -/
def State.dropSnaps (s : State) (k : PageKind) (i : Nat) : State :=
  (if k = .stl then stallPages else seqPages).foldl (fun x p => x.forgetPage p i) s

/-- The owner of the acquisition engine of a barn, derived from its stalls, may have changed from `old` (R16): snapshots of
its page are discarded (R82), and a record ends PREEMPTED (R423). -/
def State.acqOwnerMoves (s : State) (b old : Nat) : State :=
  if s.acqOwner b = old then s else (s.acqPreempt b).forgetPage .acq b

/-- Channels that follow a sequencer of another owner follow none (R18). -/
def State.dropForeign (s : State) : State := { s with follow := s.follow.filter s.sameOwner }

/-- A write of PG_OWNER (R46, R60, R68, R69). A farrier step in a stall that changes its owner ends (R459). A channel
follows no sequencer of another owner after it (R18). The spec does not say what STL_ASSIGN then reads: it keeps its word,
which counts as no assignment while the owners differ (DESIGN CHOICE, assumption 59). -/
def pgOwnerWrite (k : PageKind) (i : Nat) (v : Word) (s : State) : State :=
  match ownerHome k with
  | none => s
  | some h =>
    let n := fld v 0 4
    let old := s.ownerOf k i
    if 8 ≤ n ∧ n < 15 then s.err k i errValue Off.pgOwner
    else if n = old then s
    else if s.ownerInM4 old = false ∨ s.ownerInM4 n = false then s.err .pen 0 errState Off.pgOwner
    else
      let s1 := ((s.wf h i Off.pgOwner 0 4 n).dropSnaps h i).dropForeign
      if h = .stl then (s1.acqOwnerMoves (i / 16) (s.acqOwner (i / 16))).farAbort fun x => x.stall == i else s1

/-- A write of a header register. -/
def headerWrite (r : Requester) (k : PageKind) (i o : Nat) (v : Word) (s : State) : State :=
  if o = Off.pgCtrl then pgCtrlWrite k i v s
  else if o = Off.pgLock then pgLockWrite r k i v s
  else if o = Off.pgOwner then pgOwnerWrite k i v s
  else s.plainWrite k i o v

/-! ### Yard pages -/

def mod0Write (o : Nat) (v : Word) (s : State) : State :=
  if o = Off.modCmd then
    modCmdWrite v (Config.freeBool s.free) (Config.freeBool (s.free + 1)) { s with free := s.free + 2 }
  else s.plainWrite .mod0 0 o v

def modpWrite (i o : Nat) (v : Word) (s : State) : State := if o = Off.modPcmd then modPcmdWrite i v s else s.plainWrite .modp i o v

def penWrite (o : Nat) (v : Word) (s : State) : State :=
  if o = Off.penRst then penRstWrite v s else if o = Off.penRgnCfg then rgnCfgWrite v s else s.plainWrite .pen 0 o v

def gthWrite (r : Requester) (o : Nat) (v : Word) (s : State) : State :=
  if o = Off.gthSvnCmd then svnCmdWrite r v s
  else if o = Off.gthTamper then tamperWrite v s
  else if o = Off.gthDbgCmd then dbgCmdWrite v s
  else if Off.gthDbgRec 0 ≤ o ∧ o < Off.gthSerialLo then s.wr .gth 0 o v
  else s.plainWrite .gth 0 o v

def hlkWrite (o : Nat) (v : Word) (s : State) : State :=
  if o = Off.hlkPortcfg then portcfgWrite v s
  else if Off.hlkFnmap 0 ≤ o ∧ o < Off.hlkVec 0 then fnmapWrite ((o - Off.hlkFnmap 0) / 4) v s
  else if Off.hlkVec 0 ≤ o ∧ o < Off.hlkAccerr 0 then vecWrite ((o - Off.hlkVec 0) / 4) v s
  else if Off.hlkSig 0 ≤ o then sigWrite ((o - Off.hlkSig 0) / 4) v s
  else s.plainWrite .hlk 0 o v

def halWrite (o : Nat) (v : Word) (s : State) : State := if o = Off.halMctrl then mctrlWrite v s else s.plainWrite .hal 0 o v

def logWriteReg (o : Nat) (v : Word) (s : State) : State := if o = Off.logCtrl then logCtrlWrite v s else logMarkWrite v s

def hbmWrite (o : Nat) (v : Word) (s : State) : State :=
  if o = Off.hbmCtrl then hbmCtrlWrite v s
  else if o = Off.hbmRateCmd then rateCmdWrite v s
  else if o = Off.hbmRepairCmd then repairCmdWrite v s
  else if Off.hbmXmap 0 ≤ o then xmapWrite ((o - Off.hbmXmap 0) / 4) v s
  else s.plainWrite .hbm 0 o v

def rngWrite (o : Nat) (v : Word) (s : State) : State :=
  if o = Off.rngAsgRange then asgRangeWrite v s
  else if o = Off.rngAsgCmd then asgCmdWrite v s
  else evtRingWrite ((o - Off.rngEvtRing 0) / 4) v s

def farWrite (r : Requester) (o : Nat) (v : Word) (s : State) : State :=
  if o = Off.farCtrl then farCtrlWrite v s
  else if o = Off.farSwTmo then farSwTmoWrite v s
  else if o = Off.farWinTickLo then farWinTickWrite r false v s
  else if o = Off.farWinTickHi then farWinTickWrite r true v s
  else if o = Off.farWinCfg then farWinCfgWrite v s
  else s.plainWrite .far 0 o v

/-- A write of a register of the groom cluster: GRM_DISP_IDX above 95, and a sum of shares above 100, are refused; the
supervisor's share is read only (R508, R510). -/
def grmWrite (o : Nat) (v : Word) (s : State) : State :=
  if o = Off.grmDispIdx ∧ 95 < fld v 0 7 then s.err .grm 0 errValue o
  else if o = Off.grmShare 8 then s
  else if Off.grmShare 0 ≤ o ∧ o < Off.grmUsed 0 then
    let others := (upto 8).foldl (fun a p => if Off.grmShare p = o then a else a + s.rf .grm 0 (Off.grmShare p) 0 7) 0
    if 100 < others + fld v 0 7 then s.err .grm 0 errValue o else s.plainWrite .grm 0 o v
  else s.plainWrite .grm 0 o v

/-! ### Sequencer pages -/

def seqWrite (r : Requester) (q o : Nat) (v : Word) (s : State) : State :=
  if o = Off.seqCtrl then seqCtrlWrite q v s
  else if o = Off.seqStartAddr then startAddrWrite q v s
  else if o = Off.seqStartTickLo then seqStartTickWrite r q false v s
  else if o = Off.seqStartTickHi then seqStartTickWrite r q true v s
  else if o = Off.seqMarkRing then markRingWrite q v s
  else if o = Off.seqStrmCtrl then strmCtrlWrite q v s
  else if o = Off.seqSdirLo then sdirWrite r q 0 v s
  else if o = Off.seqSdirHi then sdirWrite r q 1 v s
  else if o = Off.seqSdirN then sdirWrite r q 2 v s
  else s.plainWrite .seq q o v

def tsetWrite (q o : Nat) (v : Word) (s : State) : State :=
  if Off.seqTsEdge 0 ≤ o ∧ o < Off.seqClashCnt then edgeWrite q ((o - Off.seqTsEdge 0) / 4) v s
  else if Off.seqTsPer 0 ≤ o ∧ o < Off.seqFmt 0 then periodWrite q ((o - Off.seqTsPer 0) / 4) v s
  else if Off.seqFmt 0 ≤ o then fmtWrite q ((o - Off.seqFmt 0) / 4) v s
  else s.plainWrite .tset q o v

/-- CAP_BASE_LO is staged, and a write of CAP_BASE_HI commits both (R81). -/
def capBaseWrite (r : Requester) (q : Nat) (hi : Bool) (v : Word) (s : State) : State :=
  if hi then
    let lo := s.staged r .site q Off.capBaseLo
    ((s.plainWrite .site q Off.capBaseLo lo).plainWrite .site q Off.capBaseHi v).unstage .site q Off.capBaseLo
  else s.stageWrite r .site q Off.capBaseLo v

def siteWrite (r : Requester) (q o : Nat) (v : Word) (s : State) : State :=
  if o = Off.siteRing then siteRingWrite q v s
  else if o = Off.capBaseLo then capBaseWrite r q false v s
  else if o = Off.capBaseHi then capBaseWrite r q true v s
  else if o = Off.capSize then capSizeWrite q v s
  else s.plainWrite .site q o v

/-! ### Barn and stall pages -/

def brnWrite (b o : Nat) (v : Word) (s : State) : State := if o = Off.brnRefCtrl then refCtrlWrite b v s else lineCfgWrite b v s

def tmbWrite (b o : Nat) (v : Word) (s : State) : State := if o = Off.tmbCtrl then tmbCtrlWrite b v s else syncDlyWrite b v s

def acqWrite (b o : Nat) (v : Word) (s : State) : State := if o = Off.acqCtrl then acqCtrlWrite b v s else acqRegWrite b o v s

def wchWrite (st o : Nat) (v : Word) (s : State) : State :=
  if o = Off.wchTick then wchTickWrite st v s
  else if Off.wchCfg 0 ≤ o then
    if (o - Off.wchCfg 0) % 8 = 0 then wchCfgWrite st ((o - Off.wchCfg 0) / 8) v s
    else wchThrWrite st ((o - Off.wchCfg 0) / 8) v s
  else s.plainWrite .wch st o v

def stlWrite (st o : Nat) (v : Word) (s : State) : State :=
  if o = Off.stlPark then stlParkWrite st v s else assignWrite st ((o - Off.stlAssign 0) / 4) v s

def lvlWrite (st o : Nat) (v : Word) (s : State) : State :=
  if o = Off.lvlCtrl then lvlCtrlWrite st v s
  else if o = Off.lvlBcastSel then bcastSelWrite st v s
  else if o = Off.lvlBcastVal then bcastValWrite st v s
  else lvlPreWrite st o v s

def drvWrite (st o : Nat) (v : Word) (s : State) : State := if o = Off.drvSlew then slewWrite st v s else s.plainWrite .drv st o v

def cmpWrite (st o : Nat) (v : Word) (s : State) : State := if o = Off.cmpCtrl then cmpCtrlWrite st v s else s.plainWrite .cmp st o v

def swmWrite (st o : Nat) (v : Word) (s : State) : State :=
  if o = Off.swmCtrl then swmCtrlWrite st v s
  else if o = Off.swmWearIdx then wearIdxWrite st v s
  else if o = Off.swmWearWarn then wearWarnWrite st v s
  else swmTgtWrite st o v s

def timWrite (r : Requester) (st o : Nat) (v : Word) (s : State) : State :=
  if o = Off.timArm then timArmWrite r st v s
  else if o = Off.timStop then timStopWrite st v s
  else if o = Off.timRing then timRingWrite st v s
  else if o = Off.timTdrCtrl then tdrCtrlWrite st v s
  else if 0x100 ≤ o then timUnitWrite st ((o - 0x100) / 16) o v s
  else s.plainWrite .tim st o v

def pmuWrite (r : Requester) (st o : Nat) (v : Word) (s : State) : State :=
  if o = Off.pmuGang then pmuGangWrite st v s
  else if o = Off.pmuWtIdx then wtIdxWrite st v s
  else if o = Off.pmuWtData then wtDataWrite st v s
  else
    let u := (o - 0x100) / 64
    if o = Off.pmuCtrl u then pmuCtrlWrite r st u v s
    else if o = Off.pmuForce u then pmuForceWrite st u v s
    else if o = Off.pmuIlim u then pmuIlimWrite st u v s
    else if o = Off.pmuVclh u then pmuClampWrite st u true v s
    else if o = Off.pmuVcll u then pmuClampWrite st u false v s
    else if o = Off.pmuWave u then pmuWaveWrite st u v s
    else if o = Off.pmuFreq u then pmuFreqWrite st u v s
    else if o = Off.pmuPhase u then pmuPhaseWrite st u v s
    else s.plainWrite .pmu st o v

def cnvWrite (r : Requester) (st o : Nat) (v : Word) (s : State) : State :=
  if o = Off.cnvArm then cnvArmWrite r st v s
  else if o = Off.cnvStop then cnvStopWrite st v s
  else if o = Off.cnvRing then cnvRingWrite st v s
  else if o = Off.cnvStartTickLo then cnvStartTickWrite r st false v s
  else if o = Off.cnvStartTickHi then cnvStartTickWrite r st true v s
  else
    let u := (o - 0x100) / 64
    if o = Off.cnvCfg u then cnvCfgWrite st u v s else cnvAperWrite st u v s

/-! ### One register -/

/-- The effect of a write of a block register that the checks of `State.guarded` let pass. -/
def blockWrite (r : Requester) (k : PageKind) (i o : Nat) (v : Word) (s : State) : State :=
  match k with
  | .dir => idxWrite r .dir o v s
  | .lan => idxWrite r .lan o v s
  | .mod0 => mod0Write o v s | .modp => modpWrite i o v s | .pen => penWrite o v s | .gth => gthWrite r o v s
  | .hlk => hlkWrite o v s | .hal => halWrite o v s | .wvn => wvnWrite o v s | .log => logWriteReg o v s
  | .hbm => hbmWrite o v s | .rng => rngWrite o v s | .far => farWrite r o v s | .grm => grmWrite o v s
  | .seq => seqWrite r i o v s | .apg => apgWrite i o v s | .tset => tsetWrite i o v s | .site => siteWrite r i o v s
  | .brn => brnWrite i o v s | .tmb => tmbWrite i o v s | .acq => acqWrite i o v s | .wch => wchWrite i o v s
  | .stl => stlWrite i o v s | .lvl => lvlWrite i o v s | .drv => drvWrite i o v s | .cmp => cmpWrite i o v s
  | .swm => swmWrite i o v s | .tim => timWrite r i o v s | .pmu => pmuWrite r i o v s | .cnv => cnvWrite r i o v s
  | .rst | .cat | .tak | .yrd | .groom => s

/-- A write of a register of a page by a requester. -/
def State.pageWrite (s : State) (r : Requester) (k : PageKind) (i o : Nat) (v : Word) : State :=
  s.guarded r k i o v (if o < 0x40 then headerWrite r k i o v else blockWrite r k i o v)

/-- A 32-bit write at BAR0 offset `a` (R78, R515). -/
def State.write32 (s : State) (r : Requester) (a : Nat) (v : Word) : State :=
  if ringWindow ≤ a ∧ a < ringWindowEnd then ringDescWrite r ((a - ringWindow) / 0x20) (a % 0x20) v s
  else
    match pageAt a with
    | none => s.accessError r
    | some p => s.pageWrite r p.kind p.inst (a % 0x1000) v

/-- An access of `w` at `a` is naturally aligned (R74). -/
def aligned (w : Width) (a : Nat) : Bool :=
  match w with
  | .w32 => a % 4 == 0
  | .w64 => a % 8 == 0
  | .other => false

/-- The requester reaches BAR0 offset `a` (R70, R78, R514). -/
def State.reaches (s : State) (r : Requester) (a : Nat) : Bool :=
  if ringWindow ≤ a ∧ a < ringWindowEnd then s.reachRing r ((a - ringWindow) / 0x20)
  else
    match pageAt a with
    | none => false
    | some p => s.reach r p.kind p.inst == .full || (s.reach r p.kind p.inst == .header && decide (a % 0x1000 < 0x40))

/-- An access that is not naturally aligned, or not of 32 or 64 bits, to what the requester reaches: WIDTH (R74). -/
def State.widthError (s : State) (a : Nat) : State :=
  if ringWindow ≤ a ∧ a < ringWindowEnd then s.ringErr ((a - ringWindow) / 0x20) errWidth (a % 0x20)
  else
    match pageAt a with
    | none => s
    | some p => s.err p.kind p.inst errWidth (a % 0x1000)

/-- A write of the given width (R74, R78). -/
def State.write (s : State) (r : Requester) (a : Nat) (w : Width) (v : Nat) : State :=
  if aligned w a = false then if s.reaches r a then s.widthError a else s.accessError r
  else
    match w with
    | .w64 => (s.write32 r a (word v)).write32 r (a + 4) (word (v / 2 ^ 32))
    | _ => s.write32 r a (word v)

/-- A read of the given width, and the words that it returns. -/
def State.read (s : State) (r : Requester) (a : Nat) (w : Width) : State × List Word :=
  if aligned w a = false then if s.reaches r a then (s.widthError a, [0]) else (s.accessError r, [0xFFFFFFFF])
  else
    let x := s.read32 r a
    match w with
    | .w64 =>
      let y := x.1.read32 r (a + 4)
      (y.1, [x.2, y.2])
    | _ => (x.1, [x.2])

/-- The words that a read returns to its requester. -/
def State.answer (x : State × List Word) (r : Requester) : State :=
  { x.1 with resp := x.2, cpl := if r.index < 18 then some (x.1.readStatus r.index) else x.1.cpl }

end Sys2Proof.Machine
end

