-- ==== Sys2Proof/Machine/PageOps.lean ====
section
/-!
DEFINITION. Register Pages and Access Rules (R59 to R89): the commands that reach a page, and the boundary-scan instructions
(R704).
-/

namespace Sys2Proof.Machine

/-- A write to a register (R61, R74 to R78). -/
def execRegisterWrite (r : Requester) (a : BitVec 26) (w : Width) (v : BitVec 64) (s : State) : Result :=
  .next (s.write r a.toNat w v.toNat)

/-- A read of a register; of the low word of a wide RS value it takes the snapshot (R74, R80). -/
def execRsSnapshotRead (r : Requester) (a : BitVec 26) (w : Width) (s : State) : Result :=
  .next (State.answer (s.read r a.toNat w) r)

/-- An access, a read or the write of `data`, to what the requester does not reach (R78). -/
def execUnreachableAccess (r : Requester) (a : BitVec 26) (w : Width) (data : Option (BitVec 64)) (s : State) : Result :=
  if s.reaches r a.toNat then .next s
  else
    match data with
    | some v => .next (s.write r a.toNat w v.toNat)
    | none => .next (State.answer (s.read r a.toNat w) r)

/-- A write of the highest word of a wide RW value (R81). -/
def execWideWriteCommit (r : Requester) (a : BitVec 26) (v : Word) (s : State) : Result := .next (s.write r a.toNat .w32 v.toNat)

/-- A write of a header register of page number `p` of BAR0. -/
def State.headerAccess (s : State) (r : Requester) (p o : Nat) (v : Word) : State := s.write32 r (p * 0x1000 + o) v

/-- PG_CTRL written with EN = `en` (R60). -/
def execPageEnable (r : Requester) (p : BitVec 14) (en : Bool) (s : State) : Result :=
  .next (s.headerAccess r p.toNat Off.pgCtrl (word (bit en)))

/-- PG_CTRL written with SRST = 1 and EN unchanged (R63). -/
def execPageSoftReset (r : Requester) (p : BitVec 14) (s : State) : Result :=
  .next (s.headerAccess r p.toNat Off.pgCtrl (putBit (s.reg (p.toNat * 0x1000 + Off.pgCtrl)) 1 true))

/-- The soft reset of a page completes (R63), once no wider reset holds the page (R638). -/
def execPageSoftResetDone (p : BitVec 14) (s : State) : Result :=
  match pageAt (p.toNat * 0x1000) with
  | none => .next s
  | some q => if s.widerReset q.kind q.inst then .next s else .next (s.wb q.kind q.inst Off.pgCtrl 1 false)

def execPageLockWrite (r : Requester) (p : BitVec 14) (v : Word) (s : State) : Result := .next (s.headerAccess r p.toNat Off.pgLock v)

def execPageOwnerWrite (r : Requester) (p : BitVec 14) (v : Word) (s : State) : Result := .next (s.headerAccess r p.toNat Off.pgOwner v)

/-! ### Boundary scan (R704) -/

/-- Every channel of the part is parked. -/
def State.allParked (s : State) : Bool := (upto 128).all fun st => s.rf .stl st Off.stlStat 0 16 == 0xFFFF

/-- The TAP loads an instruction: EXTEST and the IEEE 1149.6 test instructions act only while every channel is parked and every
domain is in domain mode M4, or in M2 and M3; otherwise BYPASS is loaded in their place. -/
def execExtest (i : TapInstr) (s : State) : Result :=
  let ok := (s.mode.dev = .m4 ∧ s.domainsInM4 ∧ s.allParked) ∨ s.mode.dev = .m2 ∨ s.mode.dev = .m3
  .next { s with tap := if ok then i else .bypass }

end Sys2Proof.Machine
end

