-- ==== Sys2Proof/Machine/Halter.lean ====
section
/-!
DEFINITION. Halter Serial Port: slave frames (R607 to R614, R618, R622).
-/

namespace Sys2Proof.Machine

/-- The port is served: it has power (in M0 and M1 it has none) and the yard is out of reset, or the yard has failed to lock
(R614, R634). -/
def State.halPowered (s : State) : Bool :=
  (decide (2 ≤ s.mode.dev.num) && natBit s.rst.isl 8) || s.rb .rst 0 Off.rstIslLockfail 8

/-- A frame ends rejected with a cause (R608, R613). -/
def State.frameReject (s : State) (cause : Nat) : State :=
  let s1 := (s.sat .hal 0 Off.halBadframe 0 32 1).event .hal 0 2
  { s1 with pins := { s1.pins with csLow := false }, halter := { s1.halter with rej := some cause, conflict := false } }

/-- A frame ends accepted. -/
def State.frameAccept (s : State) : State :=
  let s1 := s.inc .hal 0 Off.halFrames 0 32 1
  { s1 with halter := { s1.halter with rej := none } }

/-- The slave is busy (R612). -/
def State.halBusy (s : State) : Bool := s.halter.fetch.isSome || s.halter.commit.isSome

/-- The words that a frame of `n` slots shifts out: read-buffer entries from `idx`, or the status word in every slot (R607). -/
def State.shiftOut (s : State) (rd : Bool) (idx n : Nat) : State :=
  let slot := fun k => if rd then Store.getD (fun _ => 0) s.halter.rbuf ((idx + k) % 64) else s.halStatus
  { s with halter := { s.halter with out := (upto n).map slot } }

/-- The cause for which a frame of `n` words is rejected, if it is: `bad` tells a fault of its fields, `busy` that it needs an
idle slave (R608, R618). -/
def State.frameCause (s : State) (n : Nat) (bad busy : Bool) : Option Nat :=
  if s.halter.conflict then some rejConflict
  else if n = 0 then some rejLength
  else if 64 < n then some rejCount
  else if bad then some rejValue
  else if busy && s.halBusy then some rejBusy
  else none

/-- HS_CS_N has been low since before a reset of the port: what it ends is no frame (R622). -/
def State.csStale (s : State) : Bool := s.pins.csLow && !s.halter.conflict

/-- One frame: what it shifts out, then its effect if it is accepted. -/
def State.frame (s : State) (rd : Bool) (idx n : Nat) (bad busy : Bool) (eff : State → State) : State :=
  if s.halPowered = false then s
  else if s.csStale then { s with pins := { s.pins with csLow := false } }
  else
    let s1 := s.shiftOut rd idx n
    match s.frameCause n bad busy with
    | some c => s1.frameReject c
    | none => eff s1.frameAccept

/-- RD: read-buffer entries leave; nothing else happens (R607, R611). -/
def execRd (idx : Fin 64) (n : Fin 65) (s : State) : Result := .next (s.frame true idx n false false id)

/-- WR: the words are staged; the commit starts after HS_CS_N rises (R612). -/
def execWr (idx : Fin 64) (ws : List Word) (s : State) : Result :=
  .next (s.frame false idx ws.length false true fun x => { x with halter := { x.halter with commit := some (idx.val, ws) } })

/-- FETCH: the fetch starts after HS_CS_N rises (R611, R612). -/
def execFetch (idx : Fin 64) (n : Fin 65) (s : State) : Result :=
  .next (s.frame false idx n false true fun x => { x with halter := { x.halter with fetch := some (idx.val, n.val) } })

/-- WIN: the window moves (R608, R610). -/
def execWin (idx : Fin 64) (ws : List Word) (s : State) : Result :=
  let w := (ws[0]?).getD 0
  let bad := ws.length != 1 || idx.val != 0 || fld w 0 8 != 0 || fld w 26 6 != 0
  .next (s.frame false idx ws.length bad true fun x => x.wr .hal 0 Off.halSwin w)

/-- A frame whose length is no command byte and whole words, or with `count` of more than 64 words (R608, R622). -/
def execFrameReject (count : Bool) (s : State) : Result :=
  if s.halPowered = false then .next s
  else if s.csStale then .next { s with pins := { s.pins with csLow := false } }
  else .next (s.frameReject (if s.halter.conflict then rejConflict else if count then rejCount else rejLength))

/-! ### Commit and fetch -/

/-- BAR0 offset of window register `i`. -/
def State.winAddr (s : State) (i : Nat) : Nat := s.rf .hal 0 Off.halSwin 8 18 * 256 + 4 * (i % 64)

/-- PG_ERR_CNT of every page as if no error had been recorded. -/
def State.forgetErrors (s : State) : State :=
  { s with regs := Store.keep (fun a => a % 0x1000 != Off.pgErrCnt || decide (ringWindow ≤ a)) s.regs }

/-- The page in which an access records an error, as the BAR0 offset of its PG_ERR_CNT (R61). -/
def State.refusedBy (s : State) (f : State → State) : Option Nat :=
  ((f s.forgetErrors).regs.find? fun e => e.1 % 0x1000 == Off.pgErrCnt && decide (e.1 < ringWindow)).map Prod.fst

/-- One access of the slave at `a`: FERR if it was handled under R78 or refused, and a wake by a word of MOD_0 (R613, R614). -/
def State.slaveAccess (s : State) (a : Nat) (f : State → State) : State :=
  let bad := s.reaches .halter a = false || (s.refusedBy f).isSome
  let s1 := f s
  let s2 := if bad then { s1 with halter := { s1.halter with ferr := true } } else s1
  if a / 0x1000 = PageKind.mod0.base 0 / 0x1000 then s2.wake wakeHalter 0 false else s2

/-- The words of an accepted WR frame are committed, in order (R612). -/
def execWrCommitComplete (s : State) : Result :=
  match s.halter.commit with
  | none => .next s
  | some (i, ws) =>
    let s0 := { s with halter := { s.halter with ferr := false } }
    let s1 := (enumerate ws).foldl (fun (x : State) (e : Nat × Word) =>
      let a := x.winAddr (i + e.1)
      x.slaveAccess a fun y => y.write32 .halter a e.2) s0
    .next { s1 with halter := { s1.halter with commit := none } }

/-- The registers of an accepted FETCH frame are read, in order (R611, R613). -/
def execFetchComplete (s : State) : Result :=
  match s.halter.fetch with
  | none => .next s
  | some (i, n) =>
    let s0 := { s with halter := { s.halter with ferr := false } }
    let one := fun (x : State) (k : Nat) =>
      let a := x.winAddr (i + k)
      let v := (x.read32 .halter a).2
      let y := x.slaveAccess a fun z => (z.read32 .halter a).1
      { y with halter := { y.halter with rbuf := Store.setD (fun _ => 0) y.halter.rbuf ((i + k) % 64) v } }
    let s1 := (upto n).foldl one s0
    .next { s1 with halter := { s1.halter with fetch := none, fseq := (s1.halter.fseq + 1) % 256 } }

end Sys2Proof.Machine
end

