-- ==== Sys2Proof/Machine/GroomCore.lean ====
section
/-!
DEFINITION. Service records (R477 to R481, R484, R488 to R496): reading a record from a command ring, taking it, its
checks, its journal and its result, the lists of records that SV_CHAIN and SV_IF_STATUS run, and machine checks.
-/

namespace Sys2Proof.Machine

/-! ### STATUS codes (R481) -/

def svOk : Nat := 0x00
def svMode : Nat := 0x01
def svAccess : Nat := 0x02
def svBadOp : Nat := 0x03
def svBadParam : Nat := 0x04
def svCancelled : Nat := 0x05
def svAborted : Nat := 0x06
def svWatchdog : Nat := 0x07
def svMcheck : Nat := 0x08
def svMcodeFault : Nat := 0x09
def svNotReady : Nat := 0x0A
def svUnavailable : Nat := 0x0B
def svRefused : Nat := 0x0C
def svSpace : Nat := 0x0D

/-! ### Reading a record -/

/-- The record in the 32 bytes `e`, read from entry `index` of ring `ring` of `owner` (R477, R478). -/
def recordOf (owner ring index e : Nat) : Record :=
  { owner := owner, op := nfld e 32 7, urgent := e.testBit 39, jrnlAll := e.testBit 40, cancel := e.testBit 41
    barrier := e.testBit 42, tag := nfld e 48 16, rring := nfld e 64 15, ring := ring, index := index
    ps := (upto 5).map fun i => word (nfld e (96 + 32 * i) 32) }

/-- Parameter word `i` of a record. -/
def Record.p (r : Record) (i : Nat) : Nat := (r.ps.getD i 0).toNat

/-- A field of a parameter word. -/
def Record.f (r : Record) (i lo n : Nat) : Nat := fld (r.ps.getD i 0) lo n

/-- The entry at the consumer index of an IN ring, with its 32 bytes, if the ring holds one that can be read now. -/
def State.headEntry (s : State) (n : Nat) : Option (Nat × Nat) :=
  if s.ringEn n = false ∨ s.ringIn n = false ∨ s.ringFill n = 0 ∨ s.ringPaused then none
  else
    let i := s.cidx n
    let a := s.ringBase n + 32 * (i % s.ringCap n)
    some (a, s.hayGet (s.ringOwner n) a 32)

/-- The record at the head of a command ring: an entry of type SVC_REC without an uncorrectable error (R527). -/
def State.headRecord (s : State) (n : Nat) : Option Record :=
  match s.headEntry n with
  | some (a, e) => if e % 256 = 0x0A ∧ s.poisoned a 32 = false then some (recordOf (s.ringOwner n) n (s.cidx n) e) else none
  | none => none

/-- Doorbells that still have entries to consume when the consumer index of ring `n` is `c` (R488). -/
def State.dropBells (s : State) (n c : Nat) : State :=
  s.setRing n { s.ring n with bells := (s.ring n).bells.filter fun b => b.1 != c }

/-- The cluster consumes the head entry of an IN ring (R527, R528). -/
def State.consume (s : State) (n : Nat) : State :=
  let c := word (s.cidx n + 1)
  (((s.setReg (ringAddr n Off.rngCidx) c).dropBells n c.toNat).ringFlags n).ringCount n 1

/-- Order of the doorbell that brought the record at the head of command ring `n` (R488). -/
def State.headOrder (s : State) (n : Nat) : Nat := ((s.ring n).bells.map Prod.snd).headD 0

/-- Records that a CANCEL removed are passed over when they reach the head (R494). -/
def State.passCancelled (s : State) (n : Nat) : Nat → State
  | 0 => s
  | k + 1 =>
    let x := s.ring n
    let i := s.cidx n
    if x.cancelled.contains i && decide (s.ringFill n ≠ 0) then
      ((s.consume n).setRing n { (s.consume n).ring n with cancelled := x.cancelled.filter fun j => j != i }).passCancelled n k
    else s

/-- Consume the head record of a command ring, and the cancelled ones behind it. -/
def State.takeHead (s : State) (n : Nat) : State :=
  let s1 := s.consume n
  s1.passCancelled n (s1.ring n).cancelled.length

/-! ### Contexts and scheduling -/

/-- The contexts that a groom holds: running, enclosing, and preempted. -/
def GroomSt.ctxs (x : GroomSt) : List Ctx :=
  x.ctx.toList ++ (x.chains.map Chain.ctx ++ (x.saved.map fun e => e.1 :: e.2.map Chain.ctx).flatten)

/-- Every context that a groom holds. -/
def State.ctxs (s : State) : List Ctx := (s.grooms.map fun e => e.2.ctxs).flatten

/-- Every earlier record of the same command ring has completed (R477, BARRIER). -/
def State.barrierMet (s : State) (r : Record) : Bool := !r.barrier || s.ctxs.all fun c => c.rcd.ring != r.ring

/-- Share of an owner less its use over the last 10 ms, in percent (R488). -/
def State.underShare (s : State) (o : Nat) : Int :=
  ((s.view (.groom 0) .grm 0 (Off.grmShare (ownerIx o))).toNat : Int) - s.rf .grm 0 (Off.grmUsed (ownerIx o)) 0 7

/-- A groom runs nothing: no record, no list of records, no entry to post. -/
def State.groomIdle (s : State) (g : Nat) : Bool :=
  (s.groom g).ctx.isNone && (s.groom g).chains.isEmpty && !s.groomWaits g

/-- The operation is one of the ROM: its routine runs by stages, not by the rows of the microwords. -/
def State.romOp (s : State) (op : Nat) : Bool := decide (op < 0x50) && !tbit (s.dispatch op) 30

/-- The routine runs by stages: its operation is one of the ROM, and no match register has diverted it (R502). -/
def State.romCtx (s : State) (c : Ctx) : Bool := s.romOp c.rcd.op && !c.diverted

/-- No record that waits goes before `r`: none has an owner further below its share or, with an owner as far below, is
older (R488). -/
def State.fairest (s : State) (r : Record) : Bool :=
  s.enabledRings.all fun n =>
    match s.headRecord n with
    | some q =>
      !s.barrierMet q || decide (s.underShare q.owner < s.underShare r.owner) ||
        (decide (s.underShare q.owner = s.underShare r.owner) && decide (s.headOrder r.ring ≤ s.headOrder n))
    | none => true

/-- Groom `g` stands at a yield point and is preempted there by record `r` (R490); an abort goes first (R508). The yield point of a
SLEEP lasts until its time begins to pass (R507). -/
def State.preempts (s : State) (g : Nat) (r : Record) : Bool :=
  match (s.groom g).ctx with
  | none => false
  | some c =>
    let o := c.rcd.owner
    let atYield := c.after == .done || (c.after == .asleep && c.tmp.headD 0 == s.now) || (c.after == .no && s.romCtx c)
    let urgent := r.urgent && o == r.owner && !c.rcd.urgent
    let busy := (upto 8).all fun h => !s.groomEn h || !s.groomIdle h
    let furthest := (upto 8).all fun h =>
      match (s.groom h).ctx with
      | some d => decide (s.underShare o ≤ s.underShare d.rcd.owner)
      | none => true
    let share := decide (0 < s.underShare r.owner) && busy && decide (s.underShare o < 0) && furthest && s.fairest r
    atYield && !c.abort && decide ((s.groom g).saved.length < 4) && !s.groomWaits g && (urgent || share)

/-- Groom `g` may take record `r` from its ring now (R477, R480, R488, R490, R508, R550). -/
def State.mayTake (s : State) (g : Nat) (r : Record) : Bool :=
  decide (s.mode.dev ≠ .m5) && decide (s.mode.dev ≠ .m10) && !s.trainPause && s.groomEn g && s.barrierMet r &&
    ((s.groomIdle g && s.fairest r) || s.preempts g r)

/-- A routine at its start at tick `now` (Microcode): W0 to W4 hold P0 to P4, W5 the owner, W6 TAG and OP. -/
def Record.start (r : Record) (pc serial now : Nat) : Ctx :=
  { rcd := r
    w := (upto 5).map (fun i => (i, r.ps.getD i 0)) ++ [(5, word r.owner), (6, word (r.tag + 2 ^ 16 * r.op))]
    a := [], h := [], pc := pc, stack := [], fz := false, fn := false, fc := false, af := false, refusal := none
    staged := [], log := [], changes := 0, abort := false, after := .no, serial := serial
    ran := 0, since := some now, diverted := false, stage := 0, tmp := [], items := [], vs := [] }

/-- The routine is preempted at tick `now`. -/
def Ctx.pause (c : Ctx) (now : Nat) : Ctx := { c with ran := c.runTicks now, since := none }

/-- The routine resumes at tick `now`. -/
def Ctx.unpause (c : Ctx) (now : Nat) : Ctx := { c with since := some now }

/-! ### Journal and result -/

/-- A groom posts an entry to a ring for an owner; under back-pressure it waits (R496). -/
def State.groomPost (s : State) (g o ring ty body : Nat) : State := s.post ring (.groom g o) true ty body

/-- One change in a journal entry (R495). -/
def changeBytes (k : Nat) (c : Change) : Nat :=
  packBytes [(8 + 8 * k, 4, c.value), (12 + 8 * k, 4, c.addr % 2 ^ 29 + 2 ^ 30 * bit c.hayloft)]

/-- Post the commit log as SVC_JOURNAL entries of up to three changes (R495). -/
def State.postJournal (s : State) (g : Nat) (c : Ctx) : Nat → List Change → State
  | 0, _ => s
  | _ + 1, [] => s
  | n + 1, l =>
    let now := l.take 3
    let rest := l.drop 3
    let body := packBytes [(4, 2, c.rcd.tag), (6, 1, now.length), (7, 1, bit rest.isEmpty + 2 * bit (decide (256 < c.changes)))] +
      ((enumerate now).map fun e => changeBytes e.1 e.2).foldl (fun a b => a + b) 0
    (s.groomPost g c.rcd.owner c.rcd.rring 0x0C body).postJournal g c n rest

/-- The four result words: those the routine gave, and free values for the words that the manual does not state. -/
def State.resultWords (s : State) (vs : List Word) : List Nat :=
  (upto 4).map fun i => (vs.getD i (Config.freeWord (s.free + i))).toNat

/-- The result words of context `c` that ends with STATUS `st`: V3 of a block's refusal is that page's PG_ERR_CNT (R481). -/
def State.endWords (s : State) (c : Ctx) (st : Nat) : List Nat :=
  match c.refusal with
  | some a =>
    if st = svRefused then s.resultWords ((upto 3).map (fun i => c.vs.getD i (Config.freeWord (s.free + 5 + i))) ++ [s.reg a])
    else s.resultWords c.vs
  | none => s.resultWords c.vs

/-- The record of context `c` ends with STATUS `st`: journal, result, count of records ended (R481, R495, R511). -/
def State.endOne (s : State) (g : Nat) (c : Ctx) (st : Nat) : State :=
  let jrnl := (decide (st ≠ svOk) || c.rcd.jrnlAll) && !c.log.isEmpty
  let s1 := if jrnl then s.postJournal g c 86 c.log else s
  let v := s1.endWords c st
  let body := packBytes [(4, 2, c.rcd.tag), (6, 1, c.rcd.op + 128 * bit jrnl), (7, 1, st),
    (8, 4, c.elapsed s1.now), (12, 2, if jrnl then min c.changes 0xFFFF else 0), (14, 1, g),
    (16, 4, v.getD 0 0), (20, 4, v.getD 1 0), (24, 4, v.getD 2 0), (28, 4, v.getD 3 0)]
  let s2 := { s1 with free := s1.free + 8 }.groomPost g c.rcd.owner c.rcd.rring 0x0B body
  let s3 := { s2 with cluster := { s2.cluster with
    results := Store.put s2.cluster.results (ownerIx c.rcd.owner * 2 ^ 16 + c.rcd.tag) st } }
  s3.inc .groom g Off.grmCoreDone 0 32 1

/-- Result values of SV_CHAIN and SV_IF_STATUS as their list stands (R485). -/
def Chain.values (h : Chain) : List Word :=
  if h.cond then [1]
  else [word h.next, word (h.firstBad.getD 0xFFFFFFFF)]

/-- The innermost record of a groom has ended with STATUS `st`: the groom is free, or the record list that encloses it goes
on to its next record, or ends too (R485, R494). -/
def State.settle (s : State) (g : Nat) (st : Nat) : List Chain → State
  | [] => s.setGroom g { s.groom g with ctx := none, chains := [] }
  | h :: t =>
    let bad := decide (st ≠ svOk)
    let h1 := { h with next := h.next + 1, firstBad := if bad && h.firstBad.isNone then some h.next else h.firstBad }
    let c := { h.ctx with vs := h1.values }
    if h.ctx.abort then (s.endOne g c svAborted).settle g svAborted t
    else if (h.stop && bad) || h1.next == h1.count then (s.endOne g c svOk).settle g svOk t
    else s.setGroom g { s.groom g with ctx := none, chains := h1 :: t }

/-- The running record of groom `g` ends with STATUS `st`. -/
def State.endRecord (s : State) (g : Nat) (c : Ctx) (st : Nat) : State :=
  (s.endOne g c st).settle g st (s.groom g).chains

/-! ### Checks (R479, R484) -/

/-- CSCOPE, and any FIRST and LAST stall. -/
def Record.stallsOk (r : Record) (i : Nat) : Bool := decide (r.f i 0 7 ≤ r.f i 8 7)

/-- PSCOPE. -/
def Record.pscopeOk (r : Record) (i : Nat) : Bool := r.stallsOk i && decide (r.f i 20 12 = 0)

/-- HADDR in words `i` and `i + 1`. -/
def Record.haddrOk (r : Record) (i : Nat) : Bool := decide (r.f i 0 6 = 0) && decide (r.p (i + 1) < 8)

/-- INPUT in words 0 and 1. -/
def Record.inputOk (r : Record) : Bool := decide (1 ≤ r.f 0 16 16)

/-- FIELD in word `i`. -/
def Record.fieldOk (r : Record) (i : Nat) : Bool := decide (1 ≤ r.f i 8 3) && decide (r.f i 11 2 ≠ 3)

/-- WAIT in word `i`. -/
def Record.waitOk (r : Record) (i : Nat) : Bool := decide (1 ≤ r.p i) && decide (r.p i ≤ 4000000000)

/-- Words that the operation does not use are 0. -/
def Record.unused (r : Record) (l : List Nat) : Bool := l.all fun i => r.p i == 0

/-- Valid force codes of a mode, FI where `fi` (R335). -/
def forceOk (fi : Bool) (v : Nat) : Bool := if fi then decide (0x0C00 ≤ v) && decide (v ≤ 0x3F400) else decide (v ≤ 0x3E800)

/-- A RANGE code. -/
def Record.rangeOk (r : Record) (i lo : Nat) : Bool := decide (r.f i lo 3 ≤ 5)

/-- Settings of PMU_ILIM: PCT, ACTION, TIME (R364). -/
def Record.ilimOk (r : Record) (i : Nat) : Bool :=
  decide (5 ≤ r.f i 0 7) && decide (r.f i 0 7 ≤ 110) && decide (1 ≤ r.f i 16 16)

/-- Parameters of SV_CONTACT and SV_CONTACT_PMU (R486). -/
def Record.contactOk (r : Record) : Bool :=
  let force := signed 10 (r.f 4 0 10)
  r.stallsOk 0 && (r.op == 0x14 || decide (r.f 1 0 2 ≠ 3)) && decide (25 ≤ r.f 1 16 16) && decide (1 ≤ r.f 2 0 16) &&
    decide (1 ≤ r.f 2 16 16) && decide (1 ≤ r.f 3 0 12) && decide (1 ≤ r.f 3 12 12) && decide (-200 ≤ force) &&
    decide (force ≤ 200) && decide (force ≠ 0) && decide (r.f 4 10 10 < r.f 4 20 12) &&
    decide (r.f 1 2 2 ≠ 3)

/-- Offset of a force code from the zero code of its mode (R335). -/
def forceOffset (fi : Bool) (v : Nat) : Int := (v : Int) - (if fi then 0x20000 else 0xBB80 : Nat)

/-- SV_SWEEP_LOG: the offsets of the first and the last code are nonzero and of one sign (R485). -/
def Record.logOk (r : Record) : Bool :=
  let fi := tbit (r.ps.getD 1 0) 0
  let a := forceOffset fi (r.f 2 0 18)
  let b := forceOffset fi (r.f 3 0 18)
  forceOk fi (r.f 3 0 18) && decide (0 < a * b) && decide (2 ≤ r.f 3 20 12)

/-- Every parameter of a ROM operation lies in its encoding (R484 to R486, R504). -/
def Record.paramsOk (r : Record) : Bool :=
  let fi := tbit (r.ps.getD 1 0) 0
  let pmu := r.pscopeOk 0 && r.rangeOk 1 4 && forceOk fi (r.f 2 0 18)
  match r.op with
  | 0x00 | 0x41 | 0x47 | 0x49 => r.unused [0, 1, 2, 3, 4]
  | 0x01 => r.unused [1, 2, 3, 4]
  | 0x02 => r.unused ((upto 5).filter fun i => decide (r.f 0 0 2 + 1 < i))
  | 0x03 => r.unused [3, 4]
  | 0x04 => r.waitOk 3 && decide (1 ≤ r.f 4 0 16)
  | 0x05 => r.haddrOk 0 && decide (1 ≤ r.p 2) && decide (r.p 2 ≤ 65535) && r.unused [3, 4]
  | 0x06 => r.haddrOk 0 && r.haddrOk 2 && decide (r.p 4 % 64 = 0)
  | 0x07 => r.haddrOk 0 && r.unused [3] && decide (r.p 4 % 64 = 0)
  | 0x08 => r.haddrOk 0 && r.unused [2, 3]
  | 0x09 => r.haddrOk 0 && r.haddrOk 2
  | 0x0A => r.waitOk 0 && r.unused [1, 2, 3, 4]
  | 0x0B => r.waitOk 3 && r.unused [1, 2, 4] && (decide (r.f 0 0 2 ≠ 0) || decide (r.f 0 4 3 < 4))
  | 0x17 | 0x24 | 0x4F => r.waitOk 3 && r.unused [1, 2, 4]
  | 0x0C => r.waitOk 3 && r.unused [2, 4]
  | 0x0D => r.haddrOk 0 && decide (1 ≤ r.p 2) && decide (r.p 2 ≤ 65535) && r.waitOk 3
  | 0x0E => r.stallsOk 0 && decide (r.f 1 0 3 ≤ 6) && decide (r.f 2 0 16 ≤ 0xFA00) && r.unused [3, 4]
  | 0x0F => r.stallsOk 0 && r.unused [2, 3, 4]
  | 0x10 | 0x14 => r.contactOk
  | 0x11 => r.stallsOk 0 && decide (r.f 2 0 2 ≠ 3) && decide (1 ≤ r.f 1 0 16) && decide (25 ≤ r.f 1 16 16) && r.unused [3, 4]
  | 0x12 => r.stallsOk 0 && forceOk false (r.f 1 0 18) && r.rangeOk 1 20 && r.unused [4]
  | 0x13 => r.pscopeOk 0 && forceOk true (r.f 1 0 18) && r.rangeOk 1 20 && r.unused [4]
  | 0x15 => r.haddrOk 0 && r.unused [3, 4]
  | 0x16 | 0x42 | 0x43 | 0x44 => r.haddrOk 0 && r.unused [2, 3, 4]
  | 0x18 => pmu
  | 0x19 => pmu && decide (1 ≤ r.f 3 20 12)
  | 0x1A => pmu && r.logOk
  | 0x1B => r.pscopeOk 0 && forceOk false (r.f 1 0 18) && r.rangeOk 1 20 && forceOk false (r.f 2 0 18)
  | 0x1C | 0x1D => r.pscopeOk 0 && forceOk true (r.f 1 0 18) && r.rangeOk 1 20 && decide (r.f 2 0 16 ≤ 0xFA00) && r.unused [4]
  | 0x1E => r.pscopeOk 0 && r.rangeOk 1 20 && decide (1 ≤ r.f 4 16 16)
  | 0x1F => r.pscopeOk 0 && forceOk false (r.f 1 0 18) && r.ilimOk 3 && r.unused [4]
  | 0x20 => r.stallsOk 0 && forceOk false (r.f 1 0 18) && r.ilimOk 3 && r.unused [4]
  | 0x21 => r.pscopeOk 0 && decide (r.p 1 ≤ 429496730) && r.unused [4]
  | 0x22 | 0x27 => r.pscopeOk 0 && r.unused [1, 2, 3, 4]
  | 0x23 => r.pscopeOk 0 && decide (1 ≤ r.f 1 0 16) && r.unused [3]
  | 0x25 => r.stallsOk 0 && r.unused [3, 4]
  | 0x26 => r.stallsOk 0 && r.unused [1, 2, 3, 4]
  | 0x28 => r.stallsOk 0 && r.waitOk 4
  | 0x29 | 0x2A | 0x2B | 0x2C | 0x2D => r.stallsOk 0 && decide (r.f 1 0 3 ≤ 5) && r.unused [3] && r.waitOk 4
  | 0x2E => r.stallsOk 0 && r.haddrOk 1 && r.unused [4]
  | 0x2F => r.haddrOk 0 && r.unused [4]
  | 0x30 => r.inputOk && r.fieldOk 2 && r.unused [4]
  | 0x31 => r.inputOk && r.fieldOk 2 && decide (1 ≤ r.f 4 8 8)
  | 0x32 => r.inputOk && r.fieldOk 2
  | 0x33 => r.inputOk && r.haddrOk 2
  | 0x34 => r.haddrOk 0 && r.haddrOk 3
  | 0x35 => r.inputOk && r.haddrOk 2 && r.unused [4]
  | 0x36 => r.haddrOk 0 && r.haddrOk 2
  | 0x37 => r.inputOk && r.fieldOk 2 && r.unused [4]
  | 0x38 => decide (r.f 1 0 9 ≤ r.f 1 16 9) && r.haddrOk 2 && r.unused [4]
  | 0x39 => r.haddrOk 2 && decide (r.f 4 0 5 + r.f 4 8 5 ≤ 28)
  | 0x3A => decide (r.f 1 0 9 ≤ r.f 1 16 9) && decide (r.f 2 0 6 = 0) && decide (r.f 3 3 13 = 0) && r.unused [4]
  | 0x3B => decide (r.f 1 0 9 ≤ r.f 1 16 9) && r.haddrOk 2 && r.unused [4]
  | 0x3C => r.haddrOk 0 && r.haddrOk 2 && r.unused [4]
  | 0x3D => r.inputOk && r.unused [2, 3, 4]
  | 0x3E => r.inputOk && r.fieldOk 2 && r.haddrOk 3
  | 0x3F | 0x45 => r.unused [1, 2, 3, 4]
  | 0x40 => r.waitOk 3 && r.unused [4]
  | 0x46 => r.haddrOk 0 && r.unused [2, 3] && decide (r.p 4 % 32 = 0)
  | 0x48 => r.haddrOk 0 && decide (1 ≤ r.p 2) && decide (r.p 2 ≤ 256) && r.unused [4]
  | 0x4A => r.haddrOk 2 && decide (1 ≤ r.p 4) && decide (r.p 4 ≤ 256)
  | 0x4B => true
  | 0x4C | 0x4D => r.unused [2, 3, 4]
  | 0x4E => r.unused [1, 2, 3, 4]
  | _ => true

/-- The modes in which an operation of a class is accepted (Service operations). -/
def classModes (cls : Nat) : List Nat :=
  match cls with
  | 1 => [6, 9]
  | 2 => [7, 9]
  | _ => [4, 6, 7, 8, 9]

/-- How the checks of R479 end. -/
inductive Checked where
  | pass
  | discard
  | status (st : Nat)
  deriving DecidableEq, Repr

/-- The checks of a record when a groom takes it, in the order of R479. -/
def State.check (s : State) (r : Record) : Checked :=
  let e := s.dispatch r.op
  let cls := fld e 16 3
  if s.ringOwner r.rring ≠ r.owner then .discard
  else if s.mode.dev = .m11 then .status svMode
  else if 0x5F < r.op ∨ tbit e 31 = false then .status svBadOp
  else if s.cluster.disabled.contains r.op then .status svUnavailable
  else if cls = 3 ∧ r.owner ≠ 15 then .status svAccess
  else if (classModes cls).contains (s.modeOf r.owner) = false then .status svMode
  else if s.romOp r.op && !r.paramsOk then .status svBadParam
  else .pass

/-- A groom starts the record `r`, or ends it at a check. -/
def State.beginRecord (s : State) (g : Nat) (r : Record) : State :=
  let n := s.cluster.serial
  let c := r.start (fld (s.dispatch r.op) 0 15) n s.now
  let s1 := { s with cluster := { s.cluster with serial := n + 1 } }
  match s1.check r with
  | .pass => s1.setGroom g { s1.groom g with ctx := some c }
  | .discard => (s1.sat .grm 0 (Off.grmBadrec (ownerIx r.owner)) 0 16 1).settle g svAccess (s1.groom g).chains
  | .status st => s1.endRecord g c st

/-- The groom saves its context to make room for a preempting record (R490). -/
def State.saveCtx (s : State) (g : Nat) : State :=
  let x := s.groom g
  match x.ctx with
  | some c => s.setGroom g { x with ctx := none, chains := [], saved := x.saved ++ [(c.pause s.now, x.chains.map fun h => { h with ctx := h.ctx.pause s.now })] }
  | none => s

/-- Address of the next record of the innermost record list of a groom. -/
def Chain.addr (h : Chain) : Nat := h.base + 32 * h.next

/-- The next record of the innermost record list of an otherwise free groom (R485, SV_CHAIN). -/
def State.chained (s : State) (g : Nat) : Option (Chain × Record) :=
  let x := s.groom g
  match x.ctx, x.chains with
  | none, h :: _ =>
    let o := h.ctx.rcd.owner
    if s.groomWaits g ∨ s.trainPause then none
    else some (h, recordOf o h.ctx.rcd.ring h.ctx.rcd.index (s.hayGet o h.addr 32))
  | _, _ => none

/-- Groom `g` reads the next record of its list, in whose word the error correction finds `e`: the read is an access fault outside
the owner's regions and at an uncorrectable error (R493, R553). -/
def State.chainRead (s : State) (g : Fin 8) (h : Chain) (e : Ecc) : State × Bool :=
  if s.inRegion h.ctx.rcd.owner anyKind h.addr 32 = false then (s.accessError (.groom g), false)
  else
    let x := s.eccRead h.addr 32 reqGroom e
    if x.2 then (x.1.accessError (.groom g), false) else (x.1, true)

/-- What comes of taking a record: nothing to take; the record taken; or the end of the record list of the groom, which is aborted
(R494) or whose next record cannot be read (R493). -/
inductive Taken where
  | nothing
  | record (s : State) (r : Record)
  | listEnds (s : State)

/-- Groom `g` takes the record at the head of ring `n` if it may and `ok` accepts it, or, with no ring, the next record of
its innermost list, read with what `ecc` says of its address. -/
def State.take (s : State) (g : Fin 8) (ring : Option Nat) (ecc : Nat → Ecc) (ok : Record → Bool) : Taken :=
  match ring with
  | some n =>
    match s.headRecord n with
    | some r => if ok r ∧ s.mayTake g r then .record ((s.takeHead n).saveCtx g) r else .nothing
    | none => .nothing
  | none =>
    match s.chained g with
    | none => .nothing
    | some (h, r) =>
      let rest := (s.groom g).chains.drop 1
      let c := { h.ctx with vs := h.values }
      if h.ctx.abort then .listEnds ((s.endOne g c svAborted).settle g svAborted rest)
      else
        let x := s.chainRead g h (ecc h.addr)
        if x.2 = false then .listEnds ((x.1.endOne g c svAccess).settle g svAccess rest)
        else if ok r then .record x.1 r else .nothing

/-! ### Reset of one groom (R497, R503) -/

/-- Preempted contexts of a groom end with WATCHDOG, and the groom and its page are reset (R497). -/
def State.groomReset (s : State) (g : Nat) : State :=
  let x := s.groom g
  let s1 := x.saved.foldl (fun (y : State) e =>
    (e.1 :: e.2.map Chain.ctx).foldl (fun (z : State) c => z.endOne g c svWatchdog) y) s
  s1.pageReset .groom g

/-- A machine check of the routine of groom `g` at microaddress `addr` (R503). The records whose lists enclose it end with
it. The groom takes the reset of R497, whose source GROOM_WDT is counted (R625, R629; DEDUCED, assumption 46). -/
def State.machineCheck (s : State) (g : Nat) (c : Ctx) (addr : Nat) : State :=
  let s1 := (c :: (s.groom g).chains.map Chain.ctx).foldl (fun (y : State) d => y.endOne g { d with staged := [] } svMcheck) s
  let s2 := (s1.sat .grm 0 Off.grmMchkCnt 0 32 1).wr .grm 0 Off.grmMchkLast (word (addr % 2 ^ 15 + 2 ^ 16 * g))
  let s3 := ((s2.event .grm 0 1).logOffer logGroomMchk PageKind.groom.typeCode g (addr % 2 ^ 15)).countReset rstGroomWdt
  let k := s3.cluster
  let hit := (upto 96).filter fun op => k.reached.contains (2 ^ 15 * op + addr)
  let dis := if k.mchecked.contains addr then k.disabled ++ hit.filter (fun op => !k.disabled.contains op) else k.disabled
  let mck := if k.mchecked.contains addr then k.mchecked else k.mchecked ++ [addr]
  { s3 with cluster := { k with disabled := dis, mchecked := mck } }.groomReset g

/-- The routine of groom `g` reaches microaddress `addr` (R503). -/
def State.reach15 (s : State) (op addr : Nat) : State :=
  let k := s.cluster
  let e := 2 ^ 15 * op + addr
  if k.reached.contains e then s else { s with cluster := { k with reached := k.reached ++ [e] } }

end Sys2Proof.Machine
end

