-- ==== Sys2Proof/Machine/Routine.lean ====
section
/-!
DEFINITION. How the ROM routines of Groom Services run (assumption 40): a routine is a series of stages, each ending at a
yield point; a stage that waits for another block is run again until the block is done or the wait limit is reached. The
accesses that a stage makes: registers (R493, R495), the hayloft (R492, R493, R550, R553), and entries posted.
-/

namespace Sys2Proof.Machine

/-- A stage at work: the part, the routine's context, its groom, what the stage meets, the STATUS with which the routine has
ended, the record list that it starts, and whether it must wait for the hayloft (R550). -/
structure Job where
  s : State
  c : Ctx
  g : Fin 8
  p : Probe
  done : Option Nat
  chain : Option Chain
  stall : Bool
  deriving DecidableEq, Repr

/-- Go on with `f` unless the routine has ended. -/
def Job.bind (j : Job) (f : Job → Job) : Job := if j.done.isSome || j.stall then j else f j

/-- Do `f` for each element in turn, until the routine ends. -/
def Job.each {α : Type} (j : Job) (l : List α) (f : α → Job → Job) : Job := l.foldl (fun x a => x.bind (f a)) j

/-- The routine ends with STATUS `st`. -/
def Job.fail (j : Job) (st : Nat) : Job := j.bind fun j => { j with done := some st }

/-- Result values so far. -/
def Job.vals (j : Job) (vs : List Nat) : Job := j.bind fun j => { j with c := { j.c with vs := vs.map word } }

/-- The routine ends OK with these result values. -/
def Job.finish (j : Job) (vs : List Nat) : Job := (j.vals vs).fail svOk

/-- The next stage. -/
def Job.stage (j : Job) (n : Nat) : Job := j.bind fun j => { j with c := { j.c with stage := n } }

/-- Working value `i`. -/
def Job.t (j : Job) (i : Nat) : Nat := j.c.tmp.getD i 0

/-- Store working value `i`. -/
def Job.setT (j : Job) (i v : Nat) : Job :=
  j.bind fun j => { j with c := { j.c with tmp := (upto (max 12 (i + 1))).map fun k => if k = i then v else j.t k } }

/-- Add to working value `i`. -/
def Job.addT (j : Job) (i v : Nat) : Job := j.setT i (j.t i + v)

/-- Remember the first of some items: working value `i` holds it plus 1, or 0. -/
def Job.first (j : Job) (i v : Nat) : Job := if j.t i = 0 then j.setT i (v + 1) else j

/-- The item that working value `i` remembers; with none, the manual states no value: a free value. -/
def Job.firstV (j : Job) (i : Nat) : Nat := if j.t i = 0 then (Config.freeWord (j.s.free + 16 + i)).toNat else j.t i - 1

/-- Parameter word and field of the record. -/
def Job.a (j : Job) (i : Nat) : Nat := j.c.rcd.p i
def Job.f (j : Job) (i lo n : Nat) : Nat := j.c.rcd.f i lo n
def Job.b (j : Job) (i lo : Nat) : Bool := j.c.rcd.f i lo 1 == 1

/-- Owner of the record. -/
def Job.o (j : Job) : Nat := j.c.rcd.owner

/-- The requester that the groom is. -/
def Job.r (j : Job) : Requester := .groom j.g

/-- Act on the part. -/
def Job.act (j : Job) (f : State → State) : Job := j.bind fun j => { j with s := f j.s }

/-- An access fault: counted for the owner, and the routine ends ACCESS (R493). -/
def Job.fault (j : Job) : Job := j.bind fun j => { j with s := j.s.accessError j.r, done := some svAccess }

/-- A parameter names something of another owner: an access fault (R484). -/
def Job.need (j : Job) (b : Bool) : Job := if b then j else j.fault

/-- A change joins the commit log, which keeps 256 (R495). -/
def Ctx.note (c : Ctx) (x : Change) : Ctx :=
  { c with log := if c.log.length < 256 then c.log ++ [x] else c.log, changes := c.changes + 1 }

/-- Write the register at BAR0 offset `a`: an access fault where the owner cannot reach it, REFUSED where the block refuses
it (R493); otherwise the change is logged. -/
def Job.wrAt (j : Job) (a : Nat) (v : Nat) : Job :=
  j.bind fun j =>
    let f := fun (s : State) => s.write32 j.r a (word v)
    if j.s.reaches j.r a = false then { j with s := f j.s, done := some svAccess }
    else
      match j.s.refusedBy f with
      | some off => { j with s := f j.s, done := some svRefused, c := { j.c with refusal := some off } }
      | none => { j with s := f j.s, c := j.c.note ⟨false, a, (word v).toNat⟩ }

/-- Write the register at offset `o` of a page. -/
def Job.wr (j : Job) (k : PageKind) (i o v : Nat) : Job := j.wrAt (k.base i + o) v

/-- Read the register at BAR0 offset `a`. -/
def Job.rdAt (j : Job) (a : Nat) : Job × Nat :=
  if j.done.isSome || j.stall then (j, 0)
  else
    let x := j.s.read32 j.r a
    if j.s.reaches j.r a then ({ j with s := x.1 }, x.2.toNat)
    else ({ j with s := x.1, done := some svAccess }, x.2.toNat)

/-- The value that a register of a page shows to the groom. -/
def Job.look (j : Job) (k : PageKind) (i o : Nat) : Word := j.s.view j.r k i o

/-- The word of the hayloft in which the stage meets an error, among the words for which `ok` holds. -/
def probeMeets (p : Probe) (ok : Nat → Bool) : Option (Nat × Ecc) :=
  match p.hay with
  | some (w, e) => if ok w.toNat then some (w.toNat, e) else none
  | none => none

/-- A groom's read of `n` bytes at `a` with what the stage meets (R551 to R553). -/
def Job.ecc (j : Job) (a n : Nat) : State × Bool :=
  let x := j.s.eccRead a n reqGroom .clean
  match probeMeets j.p fun w => decide (a / 32 ≤ w) && decide (32 * w < a + n) && !j.s.poisoned (32 * w) 32 with
  | some (w, .corrected) => (x.1.hbmCe (32 * w) reqGroom, x.2)
  | some (w, .uncorrectable) => (x.1.hbmUe (32 * w) reqGroom, true)
  | _ => x

/-- Read `n` bytes of the hayloft: an access fault outside the owner's regions, and at an uncorrectable error (R493, R553). A
training pause makes the groom wait (R550). -/
def Job.hayRd (j : Job) (a n : Nat) : Job × List Byte :=
  if j.done.isSome || j.stall || decide (n = 0) then (j, [])
  else if j.s.trainPause then ({ j with stall := true }, [])
  else if j.s.inRegion j.o anyKind a n = false then (j.fault, [])
  else
    let x := j.ecc a n
    if x.2 then ({ j with s := x.1 }.fault, []) else ({ j with s := x.1 }, j.s.hayBytes j.o a n)

/-- Write bytes to the hayloft, one range in the log (R492, R495). -/
def Job.hayWr (j : Job) (a : Nat) (bs : List Byte) : Job :=
  if bs.isEmpty then j
  else
    j.bind fun j =>
      if j.s.trainPause then { j with stall := true }
      else if j.s.inRegion j.o anyKind a bs.length = false then j.fault
      else
        let e := (probeMeets j.p fun w => (partWords a bs.length).contains w).map Prod.snd
        { j with s := j.s.hayMerge j.o a bs reqGroom (e.getD .clean)
                 c := j.c.note ⟨true, a / 64, bs.length⟩ }

/-- Post an entry to RRING. -/
def Job.post (j : Job) (ty body : Nat) : Job := j.act fun s => s.groomPost j.g j.o j.c.rcd.rring ty body

/-- The hayloft address in parameter words `i` and `i + 1` (R484). -/
def Job.haddr (j : Job) (i : Nat) : Nat := j.a i + 2 ^ 32 * j.f (i + 1) 0 3

/-- Stalls from FIRST to LAST of a scope word, each of the owner or an access fault (R484). -/
def Job.stalls (j : Job) (i : Nat) : List Nat := List.range' (j.f i 0 7) (j.f i 8 7 + 1 - j.f i 0 7)
def Job.ownStalls (j : Job) (i : Nat) : Job := j.need ((j.stalls i).all fun st => j.s.ownerOf .stl st == j.o)

/-- Channels of a CSCOPE, and PMUs of a PSCOPE, rising (R484). -/
def Job.chans (j : Job) : List Nat :=
  ((j.stalls 0).map fun st => (onesOf (j.f 0 16 16) 16).map fun c => 16 * st + c).flatten
def Job.pmus (j : Job) : List Nat :=
  ((j.stalls 0).map fun st => (onesOf (j.f 0 16 4) 4).map fun u => 4 * st + u).flatten

/-- A sequencer of the owner, or an access fault. -/
def Job.ownSeq (j : Job) (q : Nat) : Job := j.need (j.s.ownerOf .seq q == j.o)

/-- A wait begins: working value 0 holds the tick. -/
def Job.mark (j : Job) : Job := j.setT 0 j.s.now

/-- Ticks since the wait began, against a time in µs. -/
def Job.passed (j : Job) (us : Nat) : Bool := decide (us * 3200 ≤ j.s.now - j.t 0)

/-- A wait for `cond` with a limit in µs: go on with `f`, end NOT_READY, or stay (R484). -/
def Job.await (j : Job) (cond : Bool) (limit : Nat) (f : Job → Job) : Job :=
  if cond then j.bind f else if j.passed limit then j.fail svNotReady else j

/-- The 48-bit tick, as two words. -/
def Job.tickWords (j : Job) : List Nat := [j.s.tick % 2 ^ 32, j.s.tick / 2 ^ 32]

/-! ### Running a stage -/

/-- A match register diverts a ROM routine at address `a`: from there it goes on by its microwords. What the registers, the flags and
the micro-stack of the ROM routine hold there is not published: free values (R502; assumption 84). -/
def Ctx.divert (c : Ctx) (a f : Nat) : Ctx :=
  { c with
    diverted := true, pc := a, stage := 0, tmp := [], items := []
    w := (upto 16).map fun i => (i, Config.freeWord (f + i))
    a := (upto 4).map fun i => (i, Config.freeWord (f + 16 + i))
    h := (upto 4).map fun i => (i, Config.freeNat (f + 20 + i) % 2 ^ 35)
    stack := (upto (Config.freeNat (f + 24) % 9)).map fun i => Config.freeNat (f + 25 + i) % 2 ^ 15
    fz := Config.freeBool (f + 34), fn := Config.freeBool (f + 35), fc := Config.freeBool (f + 36) }

/-- Run one stage of the ROM routine of groom `g` (R489, R494, R503), unless a match register diverts it (R502). -/
def State.runStage (s : State) (g : Fin 8) (p : Probe) (f : Job → Job) : State :=
  match (s.groom g).ctx with
  | none => s
  | some c =>
    if s.groomWaits g ∨ c.after ≠ .no then s
    else if c.abort then s.endRecord g c svAborted
    else if (Store.get? s.cluster.matchRegs p.addr.toNat).isSome then
      { s with free := s.free + 40 }.setGroom g { s.groom g with ctx := some (c.divert p.addr.toNat s.free) }
    else
      let s1 := s.reach15 c.rcd.op p.addr.toNat
      if p.fetch = .uncorrectable then s1.machineCheck g c p.addr.toNat
      else
        let s2 := if p.fetch = .corrected then s1.sat .grm 0 Off.grmSbeCnt 0 32 1 else s1
        let j := f ⟨s2, c, g, p, none, none, false⟩
        if j.stall then s
        else
          match j.done, j.chain with
          | some st, _ => { j.s with free := j.s.free + 32 }.endRecord g j.c st
          | none, some h =>
            j.s.setGroom g { j.s.groom g with ctx := none, chains := { h with ctx := j.c } :: (j.s.groom g).chains }
          | none, none => j.s.setGroom g { j.s.groom g with ctx := some { j.c with pc := j.p.addr.toNat } }

/-- A service command: groom `g` takes the record at the head of `ring`, or the next record of its list, and runs its first
stage; or, with no ring, the running routine goes on with its next stage. `op` is the operation of the command's row. -/
def State.service (s : State) (g : Fin 8) (ring : Option (Fin 32768)) (p : Probe) (op : Nat → Bool) (f : Job → Job) : State :=
  let fresh :=
    let ecc := fun (a : Nat) => ((probeMeets p fun w => w == a / 32).map Prod.snd).getD .clean
    match s.take g (ring.map Fin.val) ecc (fun r => !r.cancel && op r.op) with
    | .nothing => s
    | .listEnds s1 => s1
    | .record s1 r =>
      let s2 := s1.beginRecord g r
      if s.romOp r.op then s2.runStage g p f else s2
  match ring, (s.groom g).ctx with
  | none, some c => if op c.rcd.op && s.romCtx c then s.runStage g p f else s
  | _, _ => fresh

end Sys2Proof.Machine
end

