-- ==== Sys2Proof/Machine/SvcBasic.lean ====
section
/-!
DEFINITION. Service operations 0x00 to 0x0F (R485): registers, the hayloft, waits, sequencer runs, levels and switches.
-/

namespace Sys2Proof.Machine

/-! ### Registers -/

/-- Read the registers at the BAR0 offsets `l`, in order. -/
def Job.rdAll (j : Job) (l : List Nat) : Job × List Nat :=
  l.foldl (fun (x : Job × List Nat) a => let y := x.1.rdAt a; (y.1, x.2 ++ [y.2])) (j, [])

/-- The N offsets of SV_REG_READ and SV_REG_WRITE. -/
def Job.regList (j : Job) : List Nat := (upto (j.f 0 0 2 + 1)).map fun i => j.f 0 2 30 * 4 + 4 * i

/-- A list of words filled up with zeros to four. -/
def fill4 (l : List Nat) : List Nat := (upto 4).map fun i => l.getD i 0

def svNop (j : Job) : Job := j.finish [0, 0, 0, 0]

def svRegRead (j : Job) : Job :=
  let x := j.rdAll j.regList
  x.1.finish (fill4 x.2)

def svRegWrite (j : Job) : Job :=
  let x := j.rdAll j.regList
  let j1 := x.1.vals (fill4 x.2)
  (j1.each (enumerate j.regList) fun e y => y.wrAt e.2 (y.a (e.1 + 1))).fail svOk

def svRegRmw (j : Job) : Job :=
  let a := j.f 0 2 30 * 4
  let x := j.rdAt a
  let v := (x.2 &&& j.a 1) ||| j.a 2
  ((x.1.vals [x.2, v]).wrAt a v).fail svOk

/-- SV_REG_POLL: working values hold the start of the wait, the reads made and the time of the last. -/
def svRegPoll (j : Job) : Job :=
  let j0 := if j.c.stage = 0 then (j.mark).stage 1 else j
  if j0.t 1 ≠ 0 ∧ j0.s.now - j0.t 2 < j.f 4 0 16 * 3200 then (if j0.passed (j.a 3) then j0.fail svNotReady else j0)
  else
    let x := j0.rdAt (j.f 0 2 30 * 4)
    let n := j0.t 1 + 1
    let j1 := ((x.1.setT 1 n).setT 2 j0.s.now).vals [x.2, n]
    if x.2 &&& j.a 1 = j.a 2 then j1.fail svOk else if j1.passed (j.a 3) then j1.fail svNotReady else j1

/-- SV_REG_BATCH: it stops at the first write that is refused (R493). -/
def svRegBatch (j : Job) : Job :=
  let x := j.hayRd (j.haddr 0) (8 * j.a 2)
  let v := ofBytes x.2
  let j1 := (x.1.vals [0, 0xFFFFFFFF]).each (upto (j.a 2)) fun i y =>
    let a := nfld v (64 * i) 32
    let z := y.wrAt a (nfld v (64 * i + 32) 32)
    if z.done = some svRefused then { z with c := { z.c with vs := [word i, word i] } }
    else z.vals [i + 1, 0xFFFFFFFF]
  j1.fail svOk

/-! ### The hayloft -/

def svHayCopy (j : Job) : Job :=
  let x := j.hayRd (j.haddr 0) (j.a 4)
  (x.1.hayWr (j.haddr 2) x.2).finish [j.a 4]

def svHayFill (j : Job) : Job :=
  let bs := ((upto (j.a 4 / 4)).map fun _ => bytesOf 4 (j.a 2)).flatten
  (j.hayWr (j.haddr 0) bs).finish [j.a 4]

def svHayCrc (j : Job) : Job :=
  let x := j.hayRd (j.haddr 0) (j.a 4)
  x.1.finish [j.a 4, crc32 x.2]

/-- SV_HAY_COMPARE: 32-byte words are counted from the start of the ranges. -/
def svHayCompare (j : Job) : Job :=
  let x := j.hayRd (j.haddr 0) (j.a 4)
  let y := x.1.hayRd (j.haddr 2) (j.a 4)
  let diff := ((enumerate (x.2.zip y.2)).filter fun e => e.2.1 != e.2.2).map Prod.fst
  let words := (diff.map fun i => i / 32).eraseDups
  y.1.finish [j.a 4, diff.headD 0xFFFFFFFF, words.length]

/-! ### Waits -/

def svDelay (j : Job) : Job :=
  if j.c.stage = 0 then (j.mark).stage 1
  else if j.passed (j.a 0) then j.finish j.tickWords
  else j

/-- The event that SV_WAIT_EVENT awaits. -/
def Job.eventSeen (j : Job) : Bool :=
  let k := j.f 0 4 3
  match j.f 0 0 2 with
  | 0 => natBit j.s.pins.evIn k == j.b 0 8
  | 1 => j.s.rb .seq k Off.pgEvt 1
  | 2 => j.s.rb .acq k Off.pgEvt 2
  | _ => !j.s.pins.indexN

def svWaitEvent (j : Job) : Job :=
  let k := j.f 0 4 3
  let j0 := if j.c.stage = 0 then (j.mark).stage 1 else j
  let j1 := match j.f 0 0 2 with
    | 1 => j0.ownSeq k
    | 2 => j0.need (j.s.acqOwner k == j.o)
    | _ => j0
  j1.await j1.eventSeen (j.a 3) fun y => y.finish y.tickWords

/-! ### Sequencer runs -/

/-- Result words of a run: SEQ_RESULT, SEQ_VCNT and SEQ_STARVE_EVT. -/
def Job.runWords (j : Job) (q : Nat) : List Nat :=
  [(j.s.rd .seq q Off.seqResultLo).toNat, (j.s.rd .seq q Off.seqResultHi).toNat, (j.s.rd .seq q Off.seqVcntLo).toNat,
    (j.s.rd .seq q Off.seqStarveEvt).toNat]

/-- Sequencer `q` is to start at an address: its start window is loaded first (R213). -/
def Job.startAt (j : Job) (q addr : Nat) : Job := (j.wr .seq q Off.seqStartAddr addr).mark

/-- Its start window loaded, sequencer `q` starts with the start mode that its page holds: stage `n` follows. -/
def Job.startSeq (j : Job) (q limit n : Nat) : Job :=
  j.await (j.s.mstate q != mFilling) limit fun x =>
    ((x.wr .seq q Off.seqCtrl ((x.look .seq q Off.seqCtrl).toNat ||| 1)).mark).stage n

/-- The run of sequencer `q` has stored its result. -/
def Job.runOver (j : Job) (q : Nat) : Bool := j.s.rb .seq q Off.seqResultLo 16

/-- SV_SEQ_RUN: prime if asked, load the start window, start, and wait for the end of the run. -/
def svSeqRun (j : Job) : Job :=
  let q := j.f 0 0 3
  let start := fun (y : Job) => (y.startAt q (y.f 1 0 24)).stage 3
  match j.c.stage with
  | 0 =>
    let j0 := j.ownSeq q
    if j.b 0 8 then (j0.wr .seq q Off.seqStrmCtrl ((j0.look .seq q Off.seqStrmCtrl).toNat ||| 1)).stage 1 else j0.bind start
  | 1 => if j.s.rb .seq q Off.seqPrimeResult 16 then j.bind start else j
  | 3 => j.startSeq q (j.a 3) 2
  | _ => ((j.vals (j.runWords q)).await (j.runOver q) (j.a 3)) fun y => y.fail svOk

/-- SV_SEQ_BATCH: working values 1 to 5 hold the run's index, the runs HALTED, the first run not HALTED plus 1, the
result word of the last run, and the run word. -/
def svSeqBatch (j : Job) : Job :=
  let words := fun (y : Job) => [y.t 1, y.t 2, y.t 4, if y.t 3 = 0 then 0xFFFFFFFF else y.t 3 - 1]
  let q := nfld (j.t 5) 24 3
  match j.c.stage with
  | 0 =>
    let x := j.hayRd (j.haddr 0 + 4 * j.t 1) 4
    let w := ofBytes x.2
    (((x.1.ownSeq (nfld w 24 3)).setT 5 w).startAt (nfld w 24 3) (nfld w 0 24)).stage 2
  | 2 => j.startSeq q (j.a 3) 1
  | _ =>
    j.await (j.runOver q) (j.a 3) fun y =>
      let lo := (y.s.rd .seq q Off.seqResultLo).toNat
      let halted := decide (nfld lo 8 5 = 0)
      let y1 := if halted then y.addT 2 1 else y.first 3 (y.t 1)
      let y2 := (y1.setT 4 lo).addT 1 1
      let y3 := (y2.vals (words y2)).stage 0
      if y2.t 1 = j.a 2 ∨ (halted = false ∧ j.b 4 0) then y3.fail svOk else y3

/-! ### Levels and switches -/

/-- SV_LEVELS: write the level of the selected channels of each stall, and strobe it if asked. -/
def svLevels (j : Job) : Job :=
  let i := j.f 1 0 3
  let j1 := (j.ownStalls 0).each (enumerate (j.stalls 0)) fun e y =>
    let st := e.2
    let y1 := y.each (onesOf (j.f 0 16 16) 16) fun c z => z.wr .lvl st (Off.lvlPre c i) (j.f 2 0 16)
    let y2 := y1.vals [e.1 + 1, 0]
    if j.b 1 8 then
      let z := y2.wr .lvl st Off.lvlCtrl ((y2.look .lvl st Off.lvlCtrl).toNat ||| 1)
      if z.done = some svRefused ∧ y2.done.isNone then { z with c := { z.c with vs := [word (e.1 + 1), 1] } } else z
    else y2
  j1.fail svOk

/-- Start a switch batch of stall `st` toward the given driver and PMU switches (R106). -/
def Job.batch (j : Job) (st drv pmu : Nat) (hot : Bool) : Job :=
  ((j.wr .swm st Off.swmTgtDrv drv).wr .swm st Off.swmTgtPmu pmu).wr .swm st Off.swmCtrl (1 + 2 * bit hot)

/-- The batch of stall `st` is over, and how it ended. -/
def Job.batchOver (j : Job) (st : Nat) : Bool := j.s.rb .swm st Off.swmResult 16
def Job.batchCode (j : Job) (st : Nat) : Nat := j.s.rf .swm st Off.swmResult 8 4

/-- Closed switches of a stall with those of mask `m` closed or opened. -/
def moved (cur m : Nat) (close : Bool) : Nat := maskOf 16 fun c => if natBit m c then close else natBit cur c

/-- SV_SWITCH: working values 1 to 3 hold the stalls done, the last code and the stalls whose batch did not end OK. A batch
that its block refuses at GO ends the routine (R493). -/
def svSwitch (j : Job) : Job :=
  let m := j.f 0 16 16
  let words := fun (y : Job) => [y.t 1, y.t 2, y.t 3]
  let go := fun (y : Job) =>
    let st := (j.stalls 0).getD (y.t 1) 0
    let z := y.batch st (moved (y.s.rd .swm st Off.swmCurDrv).toNat m (j.b 1 0)) (moved (y.s.rd .swm st Off.swmCurPmu).toNat m (j.b 1 1))
      (j.b 1 4)
    if z.done = some svRefused then
      { z with c := { z.c with vs := [word (y.t 1), word (z.batchCode st), word (y.t 3 + 1)] } }
    else z.stage 1
  if j.c.stage = 0 then (j.ownStalls 0).bind go
  else
    let st := (j.stalls 0).getD (j.t 1) 0
    if j.batchOver st then
      let code := j.batchCode st
      let y := ((j.addT 1 1).setT 2 code).addT 3 (bit (code != 0))
      let y1 := y.vals (words y)
      if y.t 1 = (j.stalls 0).length then y1.fail svOk else y1.bind go
    else j

/-! ### Commands -/

def execSvNop (g : Fin 8) (ring : Option (Fin 32768)) (p : Probe) (s : State) : Result :=
  .next (s.service g ring p (· == 0x00) svNop)
def execSvRegRead (g : Fin 8) (ring : Option (Fin 32768)) (p : Probe) (s : State) : Result :=
  .next (s.service g ring p (· == 0x01) svRegRead)
def execSvRegWrite (g : Fin 8) (ring : Option (Fin 32768)) (p : Probe) (s : State) : Result :=
  .next (s.service g ring p (· == 0x02) svRegWrite)
def execSvRegRmw (g : Fin 8) (ring : Option (Fin 32768)) (p : Probe) (s : State) : Result :=
  .next (s.service g ring p (· == 0x03) svRegRmw)
def execSvRegPoll (g : Fin 8) (ring : Option (Fin 32768)) (p : Probe) (s : State) : Result :=
  .next (s.service g ring p (· == 0x04) svRegPoll)
def execSvRegBatch (g : Fin 8) (ring : Option (Fin 32768)) (p : Probe) (s : State) : Result :=
  .next (s.service g ring p (· == 0x05) svRegBatch)
def execSvHayCopy (g : Fin 8) (ring : Option (Fin 32768)) (p : Probe) (s : State) : Result :=
  .next (s.service g ring p (· == 0x06) svHayCopy)
def execSvHayFill (g : Fin 8) (ring : Option (Fin 32768)) (p : Probe) (s : State) : Result :=
  .next (s.service g ring p (· == 0x07) svHayFill)
def execSvHayCrc (g : Fin 8) (ring : Option (Fin 32768)) (p : Probe) (s : State) : Result :=
  .next (s.service g ring p (· == 0x08) svHayCrc)
def execSvHayCompare (g : Fin 8) (ring : Option (Fin 32768)) (p : Probe) (s : State) : Result :=
  .next (s.service g ring p (· == 0x09) svHayCompare)
def execSvDelay (g : Fin 8) (ring : Option (Fin 32768)) (p : Probe) (s : State) : Result :=
  .next (s.service g ring p (· == 0x0A) svDelay)
def execSvWaitEvent (g : Fin 8) (ring : Option (Fin 32768)) (p : Probe) (s : State) : Result :=
  .next (s.service g ring p (· == 0x0B) svWaitEvent)
def execSvSeqRun (g : Fin 8) (ring : Option (Fin 32768)) (p : Probe) (s : State) : Result :=
  .next (s.service g ring p (· == 0x0C) svSeqRun)
def execSvSeqBatch (g : Fin 8) (ring : Option (Fin 32768)) (p : Probe) (s : State) : Result :=
  .next (s.service g ring p (· == 0x0D) svSeqBatch)
def execSvLevels (g : Fin 8) (ring : Option (Fin 32768)) (p : Probe) (s : State) : Result :=
  .next (s.service g ring p (· == 0x0E) svLevels)
def execSvSwitch (g : Fin 8) (ring : Option (Fin 32768)) (p : Probe) (s : State) : Result :=
  .next (s.service g ring p (· == 0x0F) svSwitch)

end Sys2Proof.Machine
end

