-- ==== Sys2Proof/Machine/SvcPmu.lean ====
section
/-!
DEFINITION. Service operations 0x18 to 0x24 and 0x27 (R485): forcing, measuring, sweeps, supplies, waves, converters and
acquisition.
-/

namespace Sys2Proof.Machine

/-! ### Settings of one PMU -/

/-- Set a PMU live in a mode, range, sense and quantity, at a force code. The output goes off for a moment only where R337
or R344 refuses the change with the output live. -/
def Job.pmuSet (j : Job) (n mode range sense meas code : Nat) : Job :=
  let st := n / 4
  let u := n % 4
  let o := Off.pmuCtrl u
  let cur := j.s.rd .pmu st o
  let drop := tbit cur 0 && (fld cur 1 1 != mode || (mode == 1 && fld cur 4 3 != range))
  let v := fun on => pack [(0, 1, on), (1, 1, mode), (4, 3, range), (8, 1, sense), (9, 1, meas)]
  let j1 := if drop then j.wr .pmu st o (putBit cur 0 false).toNat else j
  let on := tbit cur 0 && !drop
  let j2 := (j1.wr .pmu st o (v (bit on))).wr .pmu st (Off.pmuForce u) code
  if on then j2 else j2.wr .pmu st o (v 1)

/-- Force code of a PMU whose settings stand. -/
def Job.force (j : Job) (n code : Nat) : Job := j.wr .pmu (n / 4) (Off.pmuForce (n % 4)) code

/-- Output of a PMU off. -/
def Job.pmuOff (j : Job) (n : Nat) : Job :=
  let o := Off.pmuCtrl (n % 4)
  if j.s.rb .pmu (n / 4) o 0 then j.wr .pmu (n / 4) o (putBit (j.s.rd .pmu (n / 4) o) 0 false).toNat else j

/-- SENSE as the page of a PMU holds it. -/
def Job.senseOf (j : Job) (n : Nat) : Nat := j.s.rf .pmu (n / 4) (Off.pmuCtrl (n % 4)) 8 1

/-! ### Conversions on one tick -/

/-- Arm the converters of the PMUs `l` on tick `t` (R374, R375). -/
def Job.convertAt (j : Job) (l : List Nat) (t : Nat) : Job :=
  let sts := (l.map fun n => n / 4).eraseDups
  let j1 := j.each l fun n y =>
    let o := Off.cnvCfg (n % 4)
    let w := putFld (putFld (y.s.rd .cnv (n / 4) o) 0 3 1) 20 2 0
    y.wr .cnv (n / 4) o w.toNat
  j1.each sts fun st y =>
    let m := maskOf 4 fun u => l.contains (4 * st + u)
    ((y.wr .cnv st Off.cnvStartTickLo (t % 2 ^ 32)).wr .cnv st Off.cnvStartTickHi (t / 2 ^ 32 % 2 ^ 16)).wr .cnv st Off.cnvArm m

/-- Arm them on one tick at least 3,200 ticks ahead (R376); how far ahead is a free value. -/
def Job.convert (j : Job) (l : List Nat) : Job :=
  let t := (j.s.tick + 3200 + Config.freeNat j.s.free) % 2 ^ 48
  ({ j with s := j.s.useFree }).convertAt l t

/-- Word `w` of the result of the converter of PMU `n`. -/
def Job.res (j : Job) (n w : Nat) : Word := j.s.rd .cnv (n / 4) (Off.cnvRes (n % 4) w)

/-- Every converter of the PMUs has stored its result. -/
def Job.converted (j : Job) (l : List Nat) : Bool := l.all fun n => tbit (j.res n 0) 16

/-- The result carries OVR, NBR or an END other than complete. -/
def Job.flagged (j : Job) (n : Nat) : Bool := tbit (j.res n 0) 17 || tbit (j.res n 0) 18 || fld (j.res n 0) 26 2 != 0

/-- The conversion completed. -/
def Job.complete (j : Job) (n : Nat) : Bool := fld (j.res n 0) 26 2 == 0

/-- CODE of the result, in two's complement (R366). -/
def Job.code (j : Job) (n : Nat) : Int := signed 24 (j.res n 1).toNat

/-- Post the result as a CNV_RESULT entry to RRING (R387, R485). -/
def Job.postResult (j : Job) (n : Nat) : Job :=
  j.post 0x06 (packBytes [(4, 4, (j.res n 0).toNat), (8, 4, (j.res n 1).toNat), (12, 4, (j.res n 2).toNat),
    (16, 2, (j.res n 3).toNat), (18, 4, (j.res n 4).toNat), (22, 2, n)])

/-! ### Sweeps -/

/-- A sweep: its points and PMUs, the settle time in µs, whether each result is posted, the settings of a point, what a
result adds to the working values, and the result values. Working values 0 and 1 hold the start of the settle time and the
point. -/
structure Sweep where
  points : Nat
  pmus : List Nat
  settle : Nat
  post : Bool
  ready : Nat → Job → Bool
  set : Nat → Job → Job
  judge : Nat → Nat → Job → Job
  after : Nat → Job → Job
  words : Job → List Nat

/-- One stage of a sweep: the settings of a point, its settle time, then one conversion of every PMU on one tick. -/
def Job.sweep (j : Job) (x : Sweep) : Job :=
  let k := j.t 1
  match j.c.stage with
  | 0 =>
    let j1 := (j.ownStalls 0).bind fun y => y.vals (x.words y)
    if x.ready k j then ((j1.bind (x.set k)).mark).stage 1 else j1
  | 1 => if j.passed x.settle then (j.convert x.pmus).stage 2 else j
  | _ =>
    if j.converted x.pmus then
      let j1 := j.each x.pmus fun n y => x.judge k n (if x.post then y.postResult n else y)
      let j2 := (j1.bind (x.after k)).addT 1 1
      let j3 := (j2.vals (x.words j2)).stage 0
      if k + 1 = x.points then j3.fail svOk
      else if x.ready (k + 1) j3 then ((j3.bind (x.set (k + 1))).mark).stage 1
      else j3
    else j

/-- Count a flagged result in working values 3 and 4. -/
def tallyFlag (n : Nat) (j : Job) : Job := if j.flagged n then (j.addT 3 1).first 4 n else j

/-- Force settings that P1 of SV_FORCE_MEASURE, SV_SWEEP and SV_SWEEP_LOG gives. -/
def Job.forceAs (j : Job) (n code : Nat) : Job := j.pmuSet n (j.f 1 0 1) (j.f 1 4 3) (j.f 1 9 1) (j.f 1 8 1) code

/-- SV_FORCE_MEASURE: working values 2 to 4 hold the results, the flagged ones and the first flagged PMU. -/
def svForceMeasure (j : Job) : Job :=
  j.sweep
    { points := 1, pmus := j.pmus, settle := j.f 3 0 16, post := j.b 4 0, ready := fun _ _ => true
      set := fun _ y => y.each y.pmus fun n z => z.forceAs n (z.f 2 0 18)
      judge := fun _ n y => (tallyFlag n y).addT 2 1
      after := fun _ y => y
      words := fun y => [y.t 2, y.t 3, y.firstV 4] }

/-- A force code outside 18 bits is written as the highest code, which every mode refuses (R335). -/
def sweepCode (v : Int) : Nat := if 0 ≤ v ∧ v < 2 ^ 18 then v.toNat else 0x3FFFF

/-- A sweep of `m` points with the code `f k` at point `k`. -/
def Job.sweepOf (j : Job) (m : Nat) (f : Nat → Nat) : Job :=
  j.sweep
    { points := m, pmus := j.pmus, settle := j.f 4 0 16, post := true, ready := fun _ _ => true
      set := fun k y => y.each y.pmus fun n z => if k = 0 then z.forceAs n (f 0) else z.force n (f k)
      judge := fun _ n y => tallyFlag n y
      after := fun _ y => y.addT 2 1
      words := fun y => [y.t 2, y.t 3, y.firstV 4] }

def svSweep (j : Job) : Job :=
  j.sweepOf (j.f 3 20 12) fun k => sweepCode ((j.f 2 0 18 : Int) + k * signed 18 (j.f 3 0 18))

/-- The whole number nearest to a^((n - k) / n) × b^(k / n): the greatest r below 2¹⁸ with (2r - 1)ⁿ ≤ 2ⁿ a^(n - k) b^k. -/
def geometric (a b k n : Nat) : Nat :=
  let top := 2 ^ n * (a ^ (n - k) * b ^ k)
  (List.range 18).foldl (fun r i =>
    let c := r + 2 ^ (17 - i)
    if (2 * c - 1) ^ n ≤ top then c else r) 0

def svSweepLog (j : Job) : Job :=
  let fi := j.b 1 0
  let mid : Nat := if fi then 0x20000 else 0xBB80
  let a := forceOffset fi (j.f 2 0 18)
  let b := forceOffset fi (j.f 3 0 18)
  let m := j.f 3 20 12
  j.sweepOf m fun k =>
    let d : Int := geometric a.natAbs b.natAbs k (m - 1)
    sweepCode ((mid : Int) + (if a < 0 then -d else d))

/-- The result of PMU `n` at an earlier point of the sweep, kept in the working list as pairs. -/
def Job.kept (j : Job) (n : Nat) : Nat := ((j.c.items.filter fun e => e / 2 ^ 32 == n).getD 0 0) % 2 ^ 32
def Job.keep (j : Job) (n v : Nat) : Job := j.bind fun j => { j with c := { j.c with items := j.c.items ++ [n * 2 ^ 32 + v % 2 ^ 32] } }

/-- SV_LEAKAGE: a result that did not complete is not measured and does not fail (assumption 40). -/
def svLeakage (j : Job) : Job :=
  j.sweep
    { points := 2, pmus := j.pmus, settle := j.f 4 0 16, post := true, ready := fun _ _ => true
      set := fun k y => y.each y.pmus fun n z =>
        if k = 0 then z.pmuSet n 0 (z.f 1 20 3) (z.senseOf n) 0 (z.f 1 0 18) else z.force n (z.f 2 0 18)
      judge := fun k n y =>
        let ok := y.complete n
        let bad := ok && decide (y.f 3 0 24 < (y.code n).natAbs)
        if k = 0 then y.keep n (bit ok + 2 * bit bad)
        else
          let was := y.kept n
          let y1 := if ok && natBit was 0 then y.addT 2 1 else y
          if bad || natBit was 1 then (y1.addT 3 1).first 4 n else y1
      after := fun _ y => y
      words := fun y => [y.t 2, y.t 3, y.firstV 4] }

/-- Force a current and compare the pad's voltage with a level code of R95; `above` fails it above the level. -/
def Job.outLevel (j : Job) (above : Bool) : Job :=
  let lim : Int := -1500000 + 125 * (j.f 2 0 16 : Int)
  j.sweep
    { points := 1, pmus := j.pmus, settle := j.f 3 0 16, post := false, ready := fun _ _ => true
      set := fun _ y => y.each y.pmus fun n z => z.pmuSet n 1 (z.f 1 20 3) (z.senseOf n) 1 (z.f 1 0 18)
      judge := fun _ n y =>
        let bad := y.complete n && (if above then decide (lim < y.code n) else decide (y.code n < lim))
        let y1 := y.addT 2 1
        if bad then (y1.addT 3 1).first 4 n else y1
      after := fun _ y => y
      words := fun y => [y.t 2, y.t 3, y.firstV 4] }

def svVohIoh (j : Job) : Job := j.outLevel false
def svVolIol (j : Job) : Job := j.outLevel true

/-- SV_KELVIN: local sense at the first point, remote at the second. -/
def svKelvin (j : Job) : Job :=
  j.sweep
    { points := 2, pmus := j.pmus, settle := j.f 3 0 16, post := false, ready := fun _ _ => true
      set := fun k y => y.each y.pmus fun n z => z.pmuSet n 1 (z.f 1 20 3) k 1 (z.f 1 0 18)
      judge := fun k n y =>
        if k = 0 then y.keep n (if y.complete n then (y.res n 1).toNat else 0x800000)
        else
          let was := y.kept n
          let bad := was != 0x800000 && y.complete n && decide (y.f 2 0 24 < (y.code n - signed 24 was).natAbs)
          if bad then (y.addT 2 1).first 3 n else y
      after := fun _ y => y
      words := fun y => [y.t 2, y.firstV 3] }

/-- SV_IDDQ: state s is measured once the mark count of the sequencer has reached s + 1; then flag F is set. -/
def svIddq (j : Job) : Job :=
  let q := j.f 3 0 3
  (j.ownSeq q).sweep
    { points := j.f 4 16 16, pmus := j.pmus, settle := j.f 4 0 16, post := false
      ready := fun k y => decide (k + 1 ≤ (y.s.rd .seq q Off.seqMarkCnt).toNat)
      set := fun k y => y.each y.pmus fun n z =>
        let o := Off.pmuCtrl (n % 4)
        if k = 0 then z.wr .pmu (n / 4) o (putBit (putFld (z.s.rd .pmu (n / 4) o) 4 3 (z.f 1 20 3)) 9 false).toNat else z
      judge := fun k n y =>
        if y.complete n && decide (y.f 2 0 24 < (y.code n).natAbs) then ((y.addT 3 1).first 4 n).first 5 k else y
      after := fun _ y => (y.addT 2 1).wr .seq q Off.seqSwflag ((y.s.rd .seq q Off.seqSwflag).toNat ||| 2 ^ y.f 3 8 3)
      words := fun y => [y.t 2, y.t 3, y.firstV 4, y.firstV 5] }

/-! ### Supplies -/

/-- PMU is live at its target, has its SHUT flag, and what its flags hold. -/
def Job.atTarget (j : Job) (n code : Nat) : Bool :=
  j.s.rf .pmu (n / 4) (Off.pmuForce (n % 4)) 0 18 == code && j.s.rb .pmu (n / 4) (Off.pmuCtrl (n % 4)) 0
def Job.flagsOf (j : Job) (n : Nat) : Nat := (j.s.rd .pmu (n / 4) (Off.pmuFlags (n % 4))).toNat

/-- Ramp the PMUs `l` to an FV code over a time in µs: one equal step each µs (R485). Working value 2 holds the steps made;
the working list holds the first codes. -/
def Job.ramp (j : Job) (l : List Nat) (ready : Job → Job) (words : Job → List Nat) : Job :=
  let target := j.f 1 0 18
  let n := j.a 2
  if j.c.stage = 0 then
    let j1 := ((j.ownStalls 0).bind ready).each l fun p y =>
      let st := p / 4
      let u := p % 4
      let on := y.s.rb .pmu st (Off.pmuCtrl u) 0 && !y.s.rb .pmu st (Off.pmuCtrl u) 1
      let y1 := y.wr .pmu st (Off.pmuIlim u) (pack [(0, 7, y.f 3 0 7), (8, 1, y.f 3 8 1), (16, 16, y.f 3 16 16)])
      let code := if y.s.rb .pmu st (Off.pmuCtrl u) 1 then 0xBB80 else y.s.rf .pmu st (Off.pmuForce u) 0 18
      (if on then y1 else y1.pmuSet p 0 (y.s.rf .pmu st (Off.pmuCtrl u) 4 3) (y.senseOf p) (y.s.rf .pmu st (Off.pmuCtrl u) 9 1) code).keep p code
    (j1.mark).stage 1
  else
    let due := min n ((j.s.now - j.t 0) / 3200)
    let j1 := j.each (List.range' (j.t 2 + 1) (due - j.t 2)) fun k y => y.each l fun p z =>
      let a := z.kept p
      z.force p (sweepCode ((a : Int) + roundDiv (((target : Int) - a) * k) n))
    let j2 := j1.setT 2 due
    if due = n then
      let j3 := if n = 0 then j2.each l fun p z => z.force p target else j2
      (j3.vals (words j3)).fail svOk
    else j2

def svSupplyRamp (j : Job) : Job :=
  let l := j.pmus
  let t := j.f 1 0 18
  j.ramp l id fun y =>
    let shut := l.filter fun n => natBit (y.flagsOf n) 3
    [(l.filter fun n => y.atTarget n t).length, l.foldl (fun a n => a ||| y.flagsOf n) 0,
      shut.headD (Config.freeWord (y.s.free + 17)).toNat]

def svGangSupply (j : Job) : Job :=
  let l := (j.stalls 0).map fun st => 4 * st
  let t := j.f 1 0 18
  j.ramp l (fun y => y.each (y.stalls 0) fun st z => if z.s.rb .pmu st Off.pmuGang 0 then z else z.wr .pmu st Off.pmuGang 1)
    fun y => [(l.filter fun n => y.atTarget n t).length, l.foldl (fun a n => a ||| y.flagsOf n) 0]

def svWaveStart (j : Job) : Job :=
  let w := pack [(0, 17, j.f 2 0 17), (20, 1, 1), (21, 1, j.f 3 16 1), (24, 3, j.f 3 24 3), (28, 3, j.f 3 28 3)]
  let j1 := ((j.ownStalls 0).ownSeq (j.f 3 24 3)).each (enumerate j.pmus) fun e y =>
    let st := e.2 / 4
    let u := e.2 % 4
    (((y.wr .pmu st (Off.pmuFreq u) (y.a 1)).wr .pmu st (Off.pmuPhase u) (y.f 3 0 12)).wr .pmu st (Off.pmuWave u) w).vals [e.1 + 1]
  if j.pmus.isEmpty then j1.finish [0] else j1.fail svOk

/-- The wave of a PMU stops if it is enabled; its other settings stay. -/
def Job.waveOff (j : Job) (n : Nat) : Job :=
  let o := Off.pmuWave (n % 4)
  if j.s.rb .pmu (n / 4) o 20 = false then j
  else j.wr .pmu (n / 4) o (putBit (j.s.rd .pmu (n / 4) o) 20 false).toNat

def svWaveStop (j : Job) : Job :=
  let j1 := (j.ownStalls 0).each (enumerate j.pmus) fun e y => (y.waveOff e.2).vals [e.1 + 1]
  if j.pmus.isEmpty then j1.finish [0] else j1.fail svOk

/-! ### Converters and acquisition -/

/-- SV_CNV_BATCH: working values 1 to 4 hold the conversions made, the first trigger tick, and the results with OVR and
NBR. -/
def svCnvBatch (j : Job) : Job :=
  let l := j.pmus
  let gap := j.a 2 * 3200
  let drops := fun (y : Job) => l.foldl (fun a n => a + y.s.rf .cnv (n / 4) (Off.cnvDropped (n % 4)) 0 16) 0
  let words := fun (y : Job) => [y.t 1 * l.length, y.t 3, y.t 4, drops y]
  if j.c.stage = 0 then
    let j0 := j.ownStalls 0
    if l.any fun n => decide (gap < j.s.cnvLen (n / 4) (n % 4) + 96000) then j0.fail svBadParam
    else
      let t := (j.s.tick + 3200 + Config.freeNat j.s.free) % 2 ^ 48
      ((({ j0 with s := j0.s.useFree }.vals (words j0)).setT 2 t).convertAt l t).stage 1
  else if j.converted l then
    let j1 := j.each l fun n y =>
      let y1 := if y.b 4 0 then y.postResult n else y
      (y1.addT 3 (bit (tbit (y1.res n 0) 17))).addT 4 (bit (tbit (y1.res n 0) 18))
    let j2 := j1.addT 1 1
    let j3 := j2.vals (words j2)
    if j2.t 1 = j.f 1 0 16 then j3.fail svOk else j3.convertAt l ((j3.t 2 + j3.t 1 * gap) % 2 ^ 48)
  else j

/-- SV_ACQ_RECORD: arm the engine as its page stands, and wait until it is idle again. -/
def svAcqRecord (j : Job) : Job :=
  let b := j.f 0 0 3
  if j.c.stage = 0 then ((((j.need (j.s.acqOwner b == j.o)).wr .acq b Off.acqCtrl 1).mark).stage 1)
  else
    (j.vals [(j.s.acq b).done, (j.s.rd .acq b Off.acqMissed).toNat, (j.s.rd .acq b (Off.acqRes 0)).toNat]).await
      (j.s.acqState b == aIdle) (j.a 3) fun y => y.fail svOk

/-- SV_PMU_SAFE: outputs off, waves stopped, gangs of fully selected stalls ended, then the PMU switches open. Working value
1 holds the stall whose batch runs. -/
def svPmuSafe (j : Job) : Job :=
  let m := j.f 0 16 4
  let open_ := fun (y : Job) =>
    let st := (j.stalls 0).getD (y.t 1) 0
    let keep := maskOf 16 fun c => y.s.rb .swm st Off.swmCurPmu c && !natBit m (c / 4)
    (y.batch st (y.s.rd .swm st Off.swmCurDrv).toNat keep false).stage 1
  if j.c.stage = 0 then
    let j1 := (j.ownStalls 0).each j.pmus fun n y =>
      if y.s.follower (n / 4) (n % 4) then y
      else (y.waveOff n).pmuOff n
    let j2 := if m = 15 then j1.each (j.stalls 0) fun st y => if y.s.rb .pmu st Off.pmuGang 0 then y.wr .pmu st Off.pmuGang 0 else y
      else j1
    j2.bind open_
  else
    if j.batchOver ((j.stalls 0).getD (j.t 1) 0) then
      let j1 := (j.addT 1 1)
      let j2 := j1.vals [j1.t 1 * popCount m 4]
      if j1.t 1 = (j.stalls 0).length then j2.fail svOk else j2.bind open_
    else j

/-! ### Commands -/

def execSvKelvin (g : Fin 8) (ring : Option (Fin 32768)) (p : Probe) (s : State) : Result :=
  .next (s.service g ring p (· == 0x13) svKelvin)
def execSvForceMeasure (g : Fin 8) (ring : Option (Fin 32768)) (p : Probe) (s : State) : Result :=
  .next (s.service g ring p (· == 0x18) svForceMeasure)
def execSvSweep (g : Fin 8) (ring : Option (Fin 32768)) (p : Probe) (s : State) : Result :=
  .next (s.service g ring p (· == 0x19) svSweep)
def execSvSweepLog (g : Fin 8) (ring : Option (Fin 32768)) (p : Probe) (s : State) : Result :=
  .next (s.service g ring p (· == 0x1A) svSweepLog)
def execSvLeakage (g : Fin 8) (ring : Option (Fin 32768)) (p : Probe) (s : State) : Result :=
  .next (s.service g ring p (· == 0x1B) svLeakage)
def execSvVohIoh (g : Fin 8) (ring : Option (Fin 32768)) (p : Probe) (s : State) : Result :=
  .next (s.service g ring p (· == 0x1C) svVohIoh)
def execSvVolIol (g : Fin 8) (ring : Option (Fin 32768)) (p : Probe) (s : State) : Result :=
  .next (s.service g ring p (· == 0x1D) svVolIol)
def execSvIddq (g : Fin 8) (ring : Option (Fin 32768)) (p : Probe) (s : State) : Result :=
  .next (s.service g ring p (· == 0x1E) svIddq)
def execSvSupplyRamp (g : Fin 8) (ring : Option (Fin 32768)) (p : Probe) (s : State) : Result :=
  .next (s.service g ring p (· == 0x1F) svSupplyRamp)
def execSvGangSupply (g : Fin 8) (ring : Option (Fin 32768)) (p : Probe) (s : State) : Result :=
  .next (s.service g ring p (· == 0x20) svGangSupply)
def execSvWaveStart (g : Fin 8) (ring : Option (Fin 32768)) (p : Probe) (s : State) : Result :=
  .next (s.service g ring p (· == 0x21) svWaveStart)
def execSvWaveStop (g : Fin 8) (ring : Option (Fin 32768)) (p : Probe) (s : State) : Result :=
  .next (s.service g ring p (· == 0x22) svWaveStop)
def execSvCnvBatch (g : Fin 8) (ring : Option (Fin 32768)) (p : Probe) (s : State) : Result :=
  .next (s.service g ring p (· == 0x23) svCnvBatch)
def execSvAcqRecord (g : Fin 8) (ring : Option (Fin 32768)) (p : Probe) (s : State) : Result :=
  .next (s.service g ring p (· == 0x24) svAcqRecord)
def execSvPmuSafe (g : Fin 8) (ring : Option (Fin 32768)) (p : Probe) (s : State) : Result :=
  .next (s.service g ring p (· == 0x27) svPmuSafe)

end Sys2Proof.Machine
end

