-- ==== Sys2Proof/Machine/SvcTim.lean ====
section
/-!
DEFINITION. Service operations 0x11 and 0x28 to 0x2F (R485): time measurement, reflectometry and stamps.
-/

namespace Sys2Proof.Machine

/-- Stalls of a list of channels, rising, and the mask of its channels in a stall. -/
def stallsIn (l : List Nat) : List Nat := (l.map fun c => c / 16).eraseDups
def chanMask (l : List Nat) (st : Nat) : Nat := maskOf 16 fun c => l.contains (16 * st + c)

/-- Word `w` of the result of the TIM unit of channel `ch`. -/
def Job.tim (j : Job) (ch w : Nat) : Nat := (j.s.rd .tim (ch / 16) (Off.timRes (ch % 16) w)).toNat

/-- Every unit of the channels has stored its result. -/
def Job.timed (j : Job) (l : List Nat) : Bool := l.all fun ch => natBit (j.tim ch 0) 16

/-- Set the units of the channels and arm them (R322). TIM_TL, which names a sequencer, is written only where the operation gives its
value. -/
def Job.armTim (j : Job) (l : List Nat) (cfg n : Nat) (tl : Option Nat) : Job :=
  let j1 := j.each l fun ch y =>
    let st := ch / 16
    let c := ch % 16
    let z := (y.wr .tim st (Off.timCfg c) cfg).wr .tim st (Off.timN c) n
    match tl with | some v => z.wr .tim st (Off.timTl c) v | none => z
  j1.each (stallsIn l) fun st y => y.wr .tim st Off.timArm (chanMask l st)

/-- Stop the units of the channels that have not ended (R324). -/
def Job.stopTim (j : Job) (l : List Nat) : Job :=
  let run := l.filter fun ch => !natBit (j.tim ch 0) 16
  j.each (stallsIn run) fun st y => y.wr .tim st Off.timStop (chanMask run st)

/-- Run every selected unit and wait for the results: the words `f` of the lowest selected unit. A TIM_TL value names a sequencer of the
owner (R484). -/
def Job.timRun (j : Job) (cfg n : Nat) (tl : Option Nat) (limit : Nat) (f : Job → Nat → List Nat) : Job :=
  let l := j.chans
  let words := fun (y : Job) => match l with | ch :: _ => f y ch | [] => []
  if j.c.stage = 0 then
    let j0 := match tl with | some v => (j.ownStalls 0).ownSeq (nfld v 0 3) | none => j.ownStalls 0
    ((j0.armTim l cfg n tl).mark).stage 1
  else (j.vals (words j)).await (j.timed l) limit fun y => y.fail svOk

/-- TIM_CFG with a mode, source, partner and prescaler (R303). -/
def timCfgOf (mode src partner pre : Nat) : Nat := pack [(0, 3, mode), (4, 3, src), (12, 4, partner), (24, 4, pre)]

/-- COUNT, MEAN and SD; or COUNT, SD, MIN and MAX. -/
def Job.meanWords (j : Job) (ch : Nat) : List Nat := [j.tim ch 1, j.tim ch 2, j.tim ch 3, j.tim ch 4]
def Job.spreadWords (j : Job) (ch : Nat) : List Nat := [j.tim ch 1, j.tim ch 4, j.tim ch 5, j.tim ch 7]

def svTimRun (j : Job) : Job :=
  j.timRun (j.a 1) (j.a 2) (some (j.a 3)) (j.a 4) fun y ch => [y.tim ch 0, y.tim ch 1, y.tim ch 2, y.tim ch 4]

def svPeriod (j : Job) : Job := j.timRun (timCfgOf tmPeriod (j.f 1 0 3) 0 (j.f 1 8 4)) (j.a 2) none (j.a 4) Job.meanWords
def svJitter (j : Job) : Job := j.timRun (timCfgOf tmPeriod (j.f 1 0 3) 0 (j.f 1 8 4)) (j.a 2) none (j.a 4) Job.spreadWords
def svSkew (j : Job) : Job := j.timRun (timCfgOf tmInterval (j.f 1 0 3) (j.f 1 12 4) 0) (j.a 2) none (j.a 4) Job.meanWords

def svDelayMeas (j : Job) : Job :=
  j.timRun (timCfgOf tmOffset (j.f 1 0 3) 0 0) (j.a 2) (some (pack [(0, 3, j.f 1 16 3), (8, 3, j.f 1 20 3)])) (j.a 4) Job.meanWords

/-- The quotient of two numbers as a whole number, rounded up or down as the part does. -/
def wholeQuot (a b : Nat) : Nat := if b = 0 then 0 else a / b + bit (decide (a % b ≠ 0) && Config.roundsUp a b)

/-- Frequency in mHz of a unit in PERIOD mode with prescaler 2^P (R308): 2^P ÷ (MEAN × 2⁻⁸ × 0.152587890625 ps). With no
MEAN the manual states no frequency: a free value. -/
def Job.frequency (j : Job) (ch pre : Nat) : Nat :=
  let mean := j.tim ch 2 + 2 ^ 32 * j.tim ch 3
  if mean = 0 then Config.freeNat j.s.free else wholeQuot (2 ^ pre * 2097152 * 800000000000) mean

/-- SV_FREQ: open the gate for a time, then stop the units. -/
def svFreq (j : Job) : Job :=
  let l := j.chans
  let pre := j.f 1 8 4
  let words := fun (y : Job) => match l with
    | ch :: _ => [y.tim ch 1, y.frequency ch pre % 2 ^ 32, y.frequency ch pre / 2 ^ 32 % 2 ^ 32]
    | [] => []
  match j.c.stage with
  | 0 => (((j.ownStalls 0).armTim l (timCfgOf tmPeriod (j.f 1 0 3) 0 pre) 0 none).mark).stage 1
  | 1 => if j.passed (j.a 2) then ((j.stopTim l).mark).stage 2 else j
  | _ => (j.vals (words j)).await (j.timed l) (j.a 4) fun y => y.fail svOk

/-! ### Reflectometry -/

/-- Set the units of the channels for N launches (R309), and arm them. -/
def Job.launch (j : Job) (l : List Nat) (rep phases n : Nat) : Job :=
  let j1 := j.each (stallsIn l) fun st y => y.wr .tim st Off.timTdrCtrl (rep + 2 ^ 16 * phases)
  j1.armTim l (timCfgOf tmTdr 0 0 0) n none

/-- N launches at a period of REP units of 10 ns have been made since the wait began. -/
def Job.launched (j : Job) (rep n : Nat) : Bool := decide (n * rep * 32 ≤ j.s.now - j.t 0)

/-- The cluster keeps the last verdict of a channel for the owner (R487). -/
def Job.verdict (j : Job) (ch v : Nat) : Job :=
  j.act fun s => { s with cluster := { s.cluster with
    verdicts := Store.put s.cluster.verdicts (2048 * ownerIx j.o + ch) (v + 1) } }

/-- A number of 2⁻⁸ units as whole units, rounded to nearest, at most `top`. -/
def wholeUnits (v top : Nat) : Nat := min top ((v + 128) / 256)

/-- Bytes 4 to 7 of a CONTACT entry (R487). -/
def Job.contactHead (j : Job) (ch : Nat) : Nat :=
  let w := (j.s.rd .stl (ch / 16) (Off.stlAssign (ch % 16)))
  packBytes [(4, 2, ch), (6, 2, fld w 16 9 + 2 ^ 15 * fld w 31 1)]

/-- Bytes 12 to 21 of a CONTACT entry: R, TDR_SD and TDR_N of the run just ended. -/
def Job.contactTdr (j : Job) (ch : Nat) : Nat :=
  packBytes [(12, 6, wholeUnits (j.tim ch 2 + 2 ^ 32 * j.tim ch 3) (2 ^ 48 - 1)), (18, 2, wholeUnits (j.tim ch 4) 0xFFFF),
    (20, 2, min (j.tim ch 1) 0xFFFF)]

/-- CONTACT verdicts (R487). -/
def vContact : Nat := 0
def vOpen : Nat := 1
def vShort : Nat := 2
def vBroken : Nat := 3
def vNotMeasured : Nat := 4
def vDisagree : Nat := 5
def vNotJudged : Nat := 6

/-- SV_TDR: the launches are made in the time N × REP; the units that have taken fewer samples are then stopped. PMU_V of
its CONTACT entries is a free value: the PMU method has not run. -/
def svTdr (j : Job) : Job :=
  let l := j.chans
  let n := j.f 1 0 16
  let words := fun (y : Job) => [(l.filter fun ch => natBit (y.tim ch 0) 16).length, (l.filter fun ch => y.tim ch 1 < n).length,
    (j.stalls 0).length]
  match j.c.stage with
  | 0 => (((j.ownStalls 0).launch l (j.f 1 16 16) (j.f 2 0 2) n).mark).stage 1
  | 1 => if j.timed l then j.stage 2 else if j.launched (j.f 1 16 16) n then (j.stopTim l).stage 2 else j
  | _ =>
    if j.timed l then
      let j1 := if j.b 2 8 then j.each l fun ch y =>
          (y.verdict ch vNotJudged).post 0x0D (y.contactHead ch + packBytes [(8, 1, vNotJudged + 2 ^ 4), (9, 1, vNotJudged + 2 ^ 4 * (Config.freeNat y.s.free % 8))] +
            y.contactTdr ch + packBytes [(24, 3, 0x800000)])
        else j
      j1.finish (words j1)
    else j

/-! ### Stamps -/

/-- Pop up to `n` stamps of the vernier FIFO of a stall, as 8-byte slots (R313, R485). A FIFO that drains to a ring is not
read (R316). -/
def Job.popVernier (j : Job) (st : Nat) : Nat → Job × List Nat
  | 0 => (j, [])
  | n + 1 =>
    if (j.s.vernier st).fifo.isEmpty || (j.s.vernier st).ring.isSome then (j, [])
    else
      let ch := (j.s.vernier st).chan
      let x := j.rdAt (PageKind.base .tim st + Off.timVfifo)
      let y := x.1.popVernier st n
      (y.1, (x.2 + 2 ^ 32 * st + 2 ^ 39 * ch) :: y.2)

def svVernierDump (j : Job) : Job :=
  let x := (j.stalls 0).foldl (fun (x : Job × List Nat) st =>
    let y := x.1.popVernier st (min 16 (j.a 3 - x.2.length))
    (y.1, x.2 ++ y.2)) (j.ownStalls 0, [])
  (x.1.hayWr (j.haddr 1) (x.2.map fun v => bytesOf 8 v).flatten).finish [x.2.length]

/-- The samples that SV_STAMP_REDUCE takes from a list of stamps: between successive slots, or from slot 2k to slot 2k + 1. -/
def stampPairs (interval : Bool) : List Nat → List Int
  | a :: b :: t => stampDiff b a :: (if interval then stampPairs interval t else stampPairs interval (b :: t))
  | _ => []

def svStampReduce (j : Job) : Job :=
  let x := j.hayRd (j.haddr 0) (8 * j.a 2)
  let v := ofBytes x.2
  let u := (stampPairs (j.b 3 0) ((upto (j.a 2)).map fun i => nfld v (64 * i) 48)).foldl TimUnit.sample TimUnit.idle
  x.1.finish [u.count, twos 32 u.mean, min u.sd 0xFFFFFFFF, if u.count = 0 then 0 else twos 32 u.low]

/-! ### Commands -/

def execSvTdr (g : Fin 8) (ring : Option (Fin 32768)) (p : Probe) (s : State) : Result :=
  .next (s.service g ring p (· == 0x11) svTdr)
def execSvTimRun (g : Fin 8) (ring : Option (Fin 32768)) (p : Probe) (s : State) : Result :=
  .next (s.service g ring p (· == 0x28) svTimRun)
def execSvPeriod (g : Fin 8) (ring : Option (Fin 32768)) (p : Probe) (s : State) : Result :=
  .next (s.service g ring p (· == 0x29) svPeriod)
def execSvJitter (g : Fin 8) (ring : Option (Fin 32768)) (p : Probe) (s : State) : Result :=
  .next (s.service g ring p (· == 0x2A) svJitter)
def execSvSkew (g : Fin 8) (ring : Option (Fin 32768)) (p : Probe) (s : State) : Result :=
  .next (s.service g ring p (· == 0x2B) svSkew)
def execSvDelayMeas (g : Fin 8) (ring : Option (Fin 32768)) (p : Probe) (s : State) : Result :=
  .next (s.service g ring p (· == 0x2C) svDelayMeas)
def execSvFreq (g : Fin 8) (ring : Option (Fin 32768)) (p : Probe) (s : State) : Result :=
  .next (s.service g ring p (· == 0x2D) svFreq)
def execSvVernierDump (g : Fin 8) (ring : Option (Fin 32768)) (p : Probe) (s : State) : Result :=
  .next (s.service g ring p (· == 0x2E) svVernierDump)
def execSvStampReduce (g : Fin 8) (ring : Option (Fin 32768)) (p : Probe) (s : State) : Result :=
  .next (s.service g ring p (· == 0x2F) svStampReduce)

end Sys2Proof.Machine
end

