-- ==== Sys2Proof/Machine/SvcContact.lean ====
section
/-!
DEFINITION. Service operations 0x10, 0x12 and 0x14 to 0x17 (R485 to R487): contact checks, shorts, and the maps read from the
last verdicts.
-/

namespace Sys2Proof.Machine

/-! ### Verdicts -/

/-- The open-needle round trip of a channel's last passing DESKEW item among the active coefficients, in 2⁻⁸ stamp units
(R486). -/
def State.openTrip (s : State) (ch : Nat) : Option Nat :=
  match Store.get? s.activeBank (instKey 3 (ch / 16)) with
  | some v => some (Config.openTrip v ch)
  | none =>
    let st := s.rf .tak 0 Off.takStat 4 3
    if st = 1 ∨ st = 2 then
      Config.sealedTrip s.far.base ch
    else none

/-- A margin in ps as 1/1,250 of a 2⁻⁸ stamp unit (R294). -/
def marginUnits (ps : Nat) : Nat := ps * 8192 * 256

/-- Verdict of the TDR method on a channel whose run has ended (R486). A run cut by a rank-1 event or a mode change gives
NOT_MEASURED (assumption 40). -/
def Job.tdrVerdict (j : Job) (ch : Nat) : Nat :=
  let n := j.f 2 0 16
  let count := j.tim ch 1
  let r := j.tim ch 2 + 2 ^ 32 * j.tim ch 3
  match j.s.openTrip ch with
  | none => vNotJudged
  | some r0 =>
    if nfld (j.tim ch 0) 22 2 = endPreempt then vNotMeasured
    else if n < 2 * (n - count) then vShort
    else if r0 * 1250 + marginUnits (j.f 3 0 12) ≤ r * 1250 then vContact
    else if r * 1250 + marginUnits (j.f 3 12 12) ≤ r0 * 1250 then vBroken
    else vOpen

/-- A channel that no method can measure: parked, held by a rank-1 event, or following a live sequencer in M9 (R486). -/
def State.untouchable (s : State) (ch : Nat) : Bool :=
  let st := ch / 16
  s.rb .stl st Off.stlStat (ch % 16) || natBit (s.stall st).hiz (ch % 16) ||
    (s.modeOf (s.ownerOf .stl st) == 9 && s.followsLive ch)

/-- A channel that the PMU method cannot measure. -/
def State.untouchablePmu (s : State) (ch : Nat) : Bool :=
  s.untouchable ch || (s.modeOf (s.ownerOf .stl (ch / 16)) == 9 && (upto 4).any fun i => s.followsLive (ch / 4 * 4 + i))

/-! ### What the routine keeps: registers to restore, and PMU results, in its working list -/

/-- Key of a kept register, and of a channel's PMU result. -/
def regKey (a : Nat) : Nat := 2 ^ 27 + a
def pmuKey (ch : Nat) : Nat := 2 ^ 20 + ch

/-- Keep the value of a register of a page. -/
def Job.keepReg (j : Job) (k : PageKind) (i o : Nat) : Job := j.keep (regKey (k.base i + o)) (j.s.rd k i o).toNat

/-- The kept value, and its restoration. -/
def Job.found (j : Job) (k : PageKind) (i o : Nat) : Nat := j.kept (regKey (k.base i + o))
def Job.restore (j : Job) (k : PageKind) (i o : Nat) : Job := j.wr k i o (j.found k i o)

/-- PMUs that serve a list of channels. -/
def pmusOf (l : List Nat) : List Nat := (l.map fun ch => ch / 4).eraseDups

/-! ### Steps common to SV_CONTACT and SV_SHORTS -/

/-- Channels of round `i`: one of each PMU group at a time. -/
def roundOf (l : List Nat) (i : Nat) : List Nat := l.filter fun ch => ch % 4 == i

/-- Start a batch on every stall of the channels `l`: their driver switches open and their PMU switches close; the other
PMU switches of their groups open, and every other switch is as `drv` and `pmu` give it. -/
def Job.connect (j : Job) (l : List Nat) (drv pmu : Nat → Nat) : Job :=
  j.each (stallsIn l) fun st y =>
    let m := chanMask l st
    let grp := maskOf 16 fun c => l.any fun ch => ch / 4 == (16 * st + c) / 4
    y.batch st (moved (drv st) m false) (maskOf 16 fun c => if natBit grp c then natBit m c else natBit (pmu st) c) false

/-- Every batch of the stalls of the channels is over. -/
def Job.connected (j : Job) (l : List Nat) : Bool := (stallsIn l).all j.batchOver

/-! ### SV_CONTACT and SV_CONTACT_PMU -/

/-- METHOD in force: 0 TDR, 1 PMU, 2 BOTH. -/
def Job.method (j : Job) : Nat := if j.c.rcd.op = 0x14 then 1 else j.f 1 0 2

/-- Channels that each method measures. -/
def Job.tdrChans (j : Job) : List Nat :=
  if j.method = 1 then [] else j.chans.filter fun ch => natBit (j.kept (pmuKey ch)) 30
def Job.pmuChans (j : Job) : List Nat :=
  if j.method = 0 then [] else j.chans.filter fun ch => natBit (j.kept (pmuKey ch + 2 ^ 12)) 30

/-- Keep what the routine is to restore, and which channels it measures. -/
def Job.survey (j : Job) : Job :=
  let j1 := j.each j.chans fun ch y =>
    (y.keep (pmuKey ch) (2 ^ 30 * bit (!y.s.untouchable ch))).keep (pmuKey ch + 2 ^ 12) (2 ^ 30 * bit (!y.s.untouchablePmu ch))
  let j2 := j1.each (j.stalls 0) fun st y =>
    ((y.keepReg .tim st Off.timTdrCtrl).keepReg .swm st Off.swmCurDrv).keepReg .swm st Off.swmCurPmu
  let j3 := j2.each j.chans fun ch y =>
    let st := ch / 16
    (y.keepReg .tim st (Off.timCfg (ch % 16))).keepReg .tim st (Off.timN (ch % 16))
  j3.each (pmusOf j.chans) fun n y =>
    let st := n / 4
    let u := n % 4
    (((y.keepReg .pmu st (Off.pmuCtrl u)).keepReg .pmu st (Off.pmuForce u)).keepReg .pmu st (Off.pmuVclh u)).keepReg .pmu st
      (Off.pmuVcll u)

/-- The clamps of a PMU, written so that R341 holds at every write. -/
def Job.clamps (j : Job) (n hi lo : Nat) : Job :=
  let st := n / 4
  let u := n % 4
  ((j.wr .pmu st (Off.pmuVcll u) 0).wr .pmu st (Off.pmuVclh u) hi).wr .pmu st (Off.pmuVcll u) lo

/-- Force the contact current on a PMU (R486): ±200 µA range, clamps at ±(VOPEN + 500 mV), the lower one at the lowest code
where it lies below. -/
def Job.forceContact (j : Job) (n : Nat) : Job :=
  let mv := j.f 4 20 12 + 500
  let j1 := j.clamps n ((mv + 1500) * 8) ((1500 - mv) * 8)
  (j1.pmuSet n 1 2 0 1 (131072 + signed 10 (j.f 4 0 10) * 640).toNat).wr .cnv (n / 4) (Off.cnvAper (n % 4)) (j.f 2 16 16)

/-- Judge the PMU method on a channel and keep its result: CODE, OVR, VCLAMP, verdict (R486). A conversion that did not
complete gives NOT_MEASURED (assumption 40). -/
def Job.judgePmu (j : Job) (ch : Nat) : Job :=
  let n := ch / 4
  let v := (j.code n).natAbs
  let clamped := j.s.rb .pmu (n / 4) (Off.pmuFlags (n % 4)) 1
  let verdict :=
    if j.complete n = false then vNotMeasured
    else if v < j.f 4 10 10 * 1000 then vShort
    else if j.f 4 20 12 * 1000 < v ∨ clamped then vOpen
    else vContact
  j.keep (pmuKey ch + 2 ^ 13) (pack [(0, 24, (j.res n 1).toNat), (24, 1, bit (tbit (j.res n 0) 17)), (25, 1, bit clamped), (26, 3, verdict)])

/-- The verdicts of a channel: of each method, and of both (R486). -/
def Job.verdicts (j : Job) (ch : Nat) : Nat × Nat × Nat :=
  let t := if j.tdrChans.contains ch then j.tdrVerdict ch else vNotMeasured
  let p := if j.pmuChans.contains ch then nfld (j.kept (pmuKey ch + 2 ^ 13)) 26 3 else vNotMeasured
  let v := match j.method with
    | 0 => t
    | 1 => p
    | _ => if t = vNotMeasured ∨ p = vNotMeasured then vNotMeasured else if t = p then t else vDisagree
  (t, p, v)

/-- Post the CONTACT entry of a channel and keep its verdict (R487). The verdict of a method that is not part of METHOD is
a free value. -/
def Job.report (j : Job) (ch : Nat) : Job :=
  let (t, p, v) := j.verdicts ch
  let tdr := j.tdrChans.contains ch
  let pmu := j.pmuChans.contains ch
  let k := j.kept (pmuKey ch + 2 ^ 13)
  let unused := Config.freeNat j.s.free % 8
  let tv := if j.method = 1 then unused else t
  let pv := if j.method = 0 then unused else p
  let body := j.contactHead ch + packBytes [(8, 1, v + 2 ^ 4 * bit tdr + 2 ^ 5 * bit pmu), (9, 1, tv + 2 ^ 4 * pv)] +
    (if tdr then j.contactTdr ch else 0) +
    packBytes [(24, 4, if pmu then nfld k 0 26 else 0x800000)]
  (j.verdict ch v).post 0x0D body

/-- Counts of the verdicts: CONTACT; OPEN; SHORT or BROKEN; NOT_MEASURED or DISAGREE. -/
def Job.contactWords (j : Job) : List Nat :=
  let vs := j.chans.map fun ch => (j.verdicts ch).2.2
  [(vs.filter (· == vContact)).length, (vs.filter (· == vOpen)).length, (vs.filter fun v => v == vShort || v == vBroken).length,
    (vs.filter fun v => v == vNotMeasured || v == vDisagree).length]

/-- A PMU and a TIM unit get back the settings in which they were found. -/
def Job.restoreTim (j : Job) : Job :=
  let l := j.tdrChans
  let j1 := j.each (stallsIn l) fun st y => y.restore .tim st Off.timTdrCtrl
  j1.each l fun ch y =>
    let st := ch / 16
    (y.restore .tim st (Off.timCfg (ch % 16))).restore .tim st (Off.timN (ch % 16))
def Job.restorePmu (j : Job) (n : Nat) : Job :=
  let st := n / 4
  let u := n % 4
  let c := j.found .pmu st (Off.pmuCtrl u)
  let j1 := ((j.pmuOff n).wr .pmu st (Off.pmuCtrl u) (c / 2 * 2)).restore .pmu st (Off.pmuForce u)
  let j2 := j1.clamps n (j.found .pmu st (Off.pmuVclh u)) (j.found .pmu st (Off.pmuVcll u))
  if natBit c 0 then j2.wr .pmu st (Off.pmuCtrl u) c else j2

/-- The next round of the PMU method from `i` on that has channels: its batches start; after the last, everything returns
to the state in which it was found, the switches by batches. Working value 1 holds the round. -/
def Job.pmuRound (j : Job) (i : Nat) : Job :=
  let l := j.pmuChans
  match ((upto 4).filter fun k => decide (i ≤ k) && !(roundOf l k).isEmpty) with
  | k :: _ =>
    ((j.setT 1 k).connect (roundOf l k) (fun st => j.found .swm st Off.swmCurDrv) fun st => j.found .swm st Off.swmCurPmu).stage 3
  | [] =>
    let j1 := (j.restoreTim).each (pmusOf l) fun n y => y.restorePmu n
    (j1.each (stallsIn l) fun st y => y.batch st (y.found .swm st Off.swmCurDrv) (y.found .swm st Off.swmCurPmu) false).stage 6

/-- SV_CONTACT: stages 1 and 2 run the TDR method, 3 to 5 a round of the PMU method, 6 waits for the last batches. -/
def svContact (j : Job) : Job :=
  let l := roundOf j.pmuChans (j.t 1)
  let ps := pmusOf l
  match j.c.stage with
  | 0 =>
    let j1 := (j.ownStalls 0).survey
    if j1.tdrChans.isEmpty then j1.pmuRound 0
    else ((j1.launch j1.tdrChans (j.f 1 16 16) (j.f 1 2 2) (j.f 2 0 16)).mark).stage 1
  | 1 =>
    if j.timed j.tdrChans then j.stage 2
    else if j.launched (j.f 1 16 16) (j.f 2 0 16) then (j.stopTim j.tdrChans).stage 2
    else j
  | 2 => if j.timed j.tdrChans then j.pmuRound 0 else j
  | 3 => if j.connected l then ((j.each ps fun n y => y.forceContact n).mark).stage 4 else j
  | 4 =>
    if j.passed 100 then
      ((j.each ps fun n y => y.wr .pmu (n / 4) (Off.pmuFlags (n % 4)) 2).convert ps).stage 5
    else j
  | 5 =>
    if j.converted ps then ((j.each l fun ch y => (y.judgePmu ch).pmuOff (ch / 4))).pmuRound (j.t 1 + 1) else j
  | _ =>
    if j.connected j.pmuChans then (j.each j.chans fun ch y => y.report ch).finish j.contactWords else j

/-! ### SV_SHORTS -/

/-- The next round of SV_SHORTS from `i` on: in each group the chosen channel is unparked and the other three are parked. -/
def Job.shortsRound (j : Job) (i : Nat) : Job :=
  match ((upto 4).filter fun k => decide (i ≤ k) && !(roundOf j.chans k).isEmpty) with
  | [] => (j.vals [j.t 2, j.firstV 3]).fail svOk
  | k :: _ =>
    let l := roundOf j.chans k
    ((j.setT 1 k).each (stallsIn l) fun st y =>
      let grp := maskOf 16 fun c => l.any fun ch => ch / 4 == (16 * st + c) / 4
      let m := chanMask l st
      y.wr .stl st Off.stlPark (maskOf 16 fun c => if natBit grp c then !natBit m c else y.s.rb .stl st Off.stlPark c)).stage 1

/-- SV_SHORTS: working values 2 and 3 hold the failing channels and the first of them. -/
def svShorts (j : Job) : Job :=
  let l := roundOf j.chans (j.t 1)
  let ps := pmusOf l
  match j.c.stage with
  | 0 => (j.ownStalls 0).shortsRound 0
  | 1 =>
    if (stallsIn l).all fun st => j.s.rf .stl st Off.stlStat 0 16 == j.s.rf .stl st Off.stlPark 0 16 then
      (j.connect l (fun st => (j.s.rd .swm st Off.swmCurDrv).toNat) fun st => (j.s.rd .swm st Off.swmCurPmu).toNat).stage 2
    else j
  | 2 =>
    if j.connected l then ((j.each ps fun n y => y.pmuSet n 0 (y.f 1 20 3) (y.senseOf n) 0 (y.f 1 0 18)).mark).stage 3 else j
  | 3 => if j.passed (j.f 3 0 16) then (j.convert ps).stage 4 else j
  | _ =>
    if j.converted ps then
      let j1 := j.each l fun ch y =>
        let n := ch / 4
        let y1 := if y.complete n && decide (y.f 2 0 24 < (y.code n).natAbs) then (y.addT 2 1).first 3 ch else y
        y1.pmuOff n
      (j1.vals [j1.t 2, j1.firstV 3]).shortsRound (j.t 1 + 1)
    else j

/-! ### Maps of the last verdicts (R487) -/

/-- The last verdict of a channel for the owner of the record, plus 1; 0: never judged. -/
def Job.lastVerdict (j : Job) (ch : Nat) : Nat := Store.getD (fun _ => 0) j.s.cluster.verdicts (2048 * ownerIx j.o + ch)

/-- SV_OPEN_MAP: the assigned channels of the owner whose last verdict is not CONTACT; a channel never judged has none. -/
def svOpenMap (j : Job) : Job :=
  let q := j.f 2 0 3
  let bad := (upto 2048).filter fun ch =>
    decide (1 < j.lastVerdict ch) && j.s.rb .stl (ch / 16) (Off.stlAssign (ch % 16)) 31 && j.s.ownerOf .stl (ch / 16) == j.o
  let siteOf := fun ch => j.s.rf .stl (ch / 16) (Off.stlAssign (ch % 16)) 16 9
  let sites := (bad.map siteOf).eraseDups
  let mask := maskOf 512 fun i => sites.contains i
  let j1 := (j.ownSeq q).hayWr (j.haddr 0) (bytesOf 64 mask)
  let j2 := if j.b 2 8 then j1.each (upto 16) fun w y =>
      y.wr .site q (Off.siteEnroll w) (maskOf 32 fun i => y.s.rb .site q (Off.siteEnroll w) i && !natBit mask (32 * w + i))
    else j1
  j2.finish [sites.length, bad.length]

def svContactReport (j : Job) : Job :=
  let nib := fun ch => let v := j.lastVerdict ch; if v = 0 then 0xF else v - 1
  let judged := ((upto 2048).filter fun ch => j.lastVerdict ch != 0).length
  (j.hayWr (j.haddr 0) ((upto 1024).map fun i => BitVec.ofNat 8 (nib (2 * i) + 16 * nib (2 * i + 1)))).finish [judged, 2048 - judged]

def svIndexWait (j : Job) : Job :=
  let j0 := if j.c.stage = 0 then (j.mark).stage 1 else j
  j0.await (j0.s.pins.indexN == j.b 0 0) (j.a 3) fun y => y.finish y.tickWords

/-! ### Commands -/

def execSvContact (g : Fin 8) (ring : Option (Fin 32768)) (p : Probe) (s : State) : Result :=
  .next (s.service g ring p (· == 0x10) svContact)
def execSvShorts (g : Fin 8) (ring : Option (Fin 32768)) (p : Probe) (s : State) : Result :=
  .next (s.service g ring p (· == 0x12) svShorts)
def execSvContactPmu (g : Fin 8) (ring : Option (Fin 32768)) (p : Probe) (s : State) : Result :=
  .next (s.service g ring p (· == 0x14) svContact)
def execSvOpenMap (g : Fin 8) (ring : Option (Fin 32768)) (p : Probe) (s : State) : Result :=
  .next (s.service g ring p (· == 0x15) svOpenMap)
def execSvContactReport (g : Fin 8) (ring : Option (Fin 32768)) (p : Probe) (s : State) : Result :=
  .next (s.service g ring p (· == 0x16) svContactReport)
def execSvIndexWait (g : Fin 8) (ring : Option (Fin 32768)) (p : Probe) (s : State) : Result :=
  .next (s.service g ring p (· == 0x17) svIndexWait)

end Sys2Proof.Machine
end

