-- ==== Sys2Proof/Machine/SvcData.lean ====
section
/-!
DEFINITION. Service operations 0x30 to 0x3F (R485, R504 to R506): reductions of ring entries, bins and maps, and the capture
buffer with repair analysis.
-/

namespace Sys2Proof.Machine

/-! ### Entries of a ring (INPUT and FIELD of R484) -/

/-- Read 32-byte entries at indices `l` of ring `n` from its storage: index and content. -/
def Job.rdEntries (j : Job) (n : Nat) (l : List Nat) : Job × List (Nat × Nat) :=
  l.foldl (fun (x : Job × List (Nat × Nat)) i =>
    let y := x.1.hayRd (x.1.s.ringBase n + 32 * (i % x.1.s.ringCap n)) 32
    (y.1, x.2 ++ [(i, ofBytes y.2)])) (j, [])

/-- The entries of a type that INPUT names. -/
def Job.input (j : Job) (ty : Nat) : Job × List (Nat × Nat) :=
  let n := j.f 0 0 15
  let x := (j.need (j.s.ringOwner n == j.o)).rdEntries n ((upto (j.f 0 16 16)).map fun k => (j.a 1 + k) % 2 ^ 32)
  (x.1, x.2.filter fun e => e.2 % 256 == ty)

/-- A 32-bit word read in a FORMAT of FIELD. -/
def fieldValue (fmt v : Nat) : Int :=
  match fmt with
  | 0 => signed 24 v
  | 1 => signed 32 v
  | _ => v % 2 ^ 32

/-- A limit or an edge compared with values of a FORMAT. -/
def limitValue (fmt v : Nat) : Int := if fmt = 2 then v else signed 32 v

/-- The values that FIELD in word 2 selects: entry index and value. -/
def Job.values (j : Job) : Job × List (Nat × Int) :=
  let x := j.input (j.f 2 0 8)
  (x.1, x.2.map fun e => (e.1, fieldValue (j.f 2 11 2) (nfld e.2 (32 * j.f 2 8 3) 32)))

/-- Sum, rounded mean, and SD of whole numbers, as R306 rounds them. A mean half way between two whole numbers goes up or
down as the part does. -/
def sumOf (l : List Int) : Int := l.foldl (fun a b => a + b) 0
def meanRounded (l : List Int) : Int :=
  let n : Int := l.length
  let q := (2 * sumOf l) / (2 * n)
  let r := sumOf l - q * n
  if n < 2 * r ∨ (n = 2 * r ∧ Config.roundsUp (sumOf l) l.length) then q + 1 else q
def sdOf (l : List Int) : Nat :=
  let n := l.length
  if n < 2 then 0
  else
    let num := ((n : Int) * sumOf (l.map fun x => x * x) - sumOf l * sumOf l).toNat
    (isqrt (4 * num / (n * (n - 1))) + 1) / 2
def minOf (l : List Int) : Int := l.foldl min (l.headD 0)
def maxOf (l : List Int) : Int := l.foldl max (l.headD 0)

/-- SV_STATS. With no value the manual states no mean or extreme: free values. -/
def svStats (j : Job) : Job :=
  let x := j.values
  let l := x.2.map Prod.snd
  let rest := if l.isEmpty then []
    else if j.b 3 0 then [twos 32 (meanRounded l), sdOf l, twos 32 (maxOf l - minOf l)]
    else [twos 32 (meanRounded l), twos 32 (minOf l), twos 32 (maxOf l)]
  x.1.finish (l.length :: rest)

/-- Post words as entries of a type, seven words in bytes 4 to 31 of each; `n` bounds their number. -/
def Job.postWords (j : Job) (ty : Nat) : Nat → List Nat → Job
  | 0, _ => j
  | _ + 1, [] => j
  | n + 1, l =>
    (j.post ty (packBytes ((enumerate (l.take 7)).map fun e => (4 + 4 * e.1, 4, e.2)))).postWords ty n (l.drop 7)

def svHistogram (j : Job) : Job :=
  let x := j.values
  let lo := limitValue (j.f 2 11 2) (j.a 3)
  let wid : Int := (2 ^ j.f 4 0 5 : Nat)
  let bins := j.f 4 8 8
  let l := x.2.map Prod.snd
  let inBin := fun (b : Nat) => (l.filter fun v => decide (lo + b * wid ≤ v) && decide (v < lo + (b + 1) * wid)).length
  let above := (l.filter fun v => decide (lo + bins * wid ≤ v)).length
  (x.1.postWords 0x81 37 ((upto bins).map inBin)).finish
    [l.length, (bins + 6) / 7, (l.filter fun v => decide (v < lo)).length, above]

def svLimits (j : Job) : Job :=
  let x := j.values
  let lo := limitValue (j.f 2 11 2) (j.a 3)
  let hi := limitValue (j.f 2 11 2) (j.a 4)
  let below := x.2.filter fun e => decide (e.2 < lo)
  let above := x.2.filter fun e => decide (hi < e.2)
  let first := (x.2.filter fun e => decide (e.2 < lo) || decide (hi < e.2)).map Prod.fst
  x.1.finish ([x.2.length, below.length, above.length] ++ first.take 1)

/-- SV_OUTLIER: values compared with the mean and the SD that it reports (assumption 40). -/
def svOutlier (j : Job) : Job :=
  let x := j.values
  let l := x.2.map Prod.snd
  let mean := meanRounded l
  let sd := sdOf l
  let out := x.2.filter fun e => decide (j.f 3 0 16 * sd < 16 * (e.2 - mean).natAbs)
  let j1 := x.1.postWords 0x82 9363 (out.map Prod.fst)
  if l.isEmpty then j1.finish [0, 0] else j1.finish [l.length, out.length, twos 32 mean, sd]

/-- Insert a value in rising order, behind equal values. -/
def insertValue (e : Nat × Int) : List (Nat × Int) → List (Nat × Int)
  | [] => [e]
  | a :: t => if e.2 < a.2 then e :: a :: t else a :: insertValue e t

def svSort (j : Job) : Job :=
  let x := j.values
  let l := x.2.foldl (fun a e => insertValue e a) []
  (x.1.hayWr (j.haddr 3) (l.map fun e => bytesOf 4 e.1).flatten).finish [l.length]

/-! ### Site results -/

/-- The last FINAL entry of each site among the SITE_RESULT entries of INPUT, by site. -/
def Job.finals (j : Job) : Job × List (Nat × Nat) :=
  let x := j.input 0x01
  let l := x.2.filter fun e => e.2.testBit 44
  (x.1, l.foldl (fun m e => Store.put m (nfld e.2 32 9) e.2) [])

/-- SV_BIN: the rule table is read first; each site's byte of the map is then written. -/
def svBin (j : Job) : Job :=
  let x := j.finals
  let y := x.1.hayRd (j.haddr 2) 128
  let tab := ofBytes y.2
  let hit := fun (e : Nat) => (upto 16).find? fun i => (nfld e 32 32) &&& nfld tab (64 * i) 32 == nfld tab (64 * i + 32) 32
  let binned := x.2.map fun e => (e.1, hit e.2)
  let binOf := fun (b : Option Nat) => b.getD (j.f 4 0 4)
  let j1 := y.1.each binned fun e z => z.hayWr (j.haddr 2 + 128 + e.1) [BitVec.ofNat 8 (binOf e.2)]
  let bins := binned.map fun e => binOf e.2
  j1.finish ([binned.length, (bins.filter (· == 0)).length, (binned.filter fun e => e.2.isNone).length] ++
    (if bins.isEmpty then [] else [bins.foldl max 0]))

def svBinMap (j : Job) : Job :=
  let x := j.hayRd (j.haddr 0) 512
  let mask := maskOf 512 fun i => (x.2.getD i 0).toNat == j.f 2 0 4
  (x.1.hayWr (j.haddr 3) (bytesOf 64 mask)).finish [popCount mask 512]

/-- Sites of a list of entries by a bit of bytes 4 to 7. -/
def withBit (l : List (Nat × Nat)) (b : Nat) : Nat := (l.filter fun e => e.2.testBit (32 + b)).length

def svSiteSummary (j : Job) : Job :=
  let x := j.finals
  let j1 := x.1.each x.2 fun e y => y.hayWr (j.haddr 2 + 8 * e.1) (bytesOf 8 (nfld e.2 64 32 + 2 ^ 32 * nfld e.2 32 32))
  let fail := withBit x.2 13
  j1.finish [x.2.length, x.2.length - fail, fail, withBit x.2 15]

def svYield (j : Job) : Job :=
  let x := j.finals
  let n := x.2.length
  let pass := n - withBit x.2 13
  x.1.finish [n, pass, if n = 0 then (Config.freeWord j.s.free).toNat else wholeQuot (pass * 1000000) n, withBit x.2 15]

def svMerge (j : Job) : Job :=
  let x := j.hayRd (j.haddr 0) 64
  let y := x.1.hayRd (j.haddr 2) 64
  let a := ofBytes x.2
  let b := ofBytes y.2
  let r := maskOf 512 fun i =>
    match j.f 4 0 2 with
    | 0 => natBit a i && natBit b i
    | 1 => natBit a i || natBit b i
    | 2 => natBit a i != natBit b i
    | _ => natBit a i && !natBit b i
  (y.1.hayWr (j.haddr 0) (bytesOf 64 r)).finish [popCount r 512]

def svWaferMap (j : Job) : Job :=
  let x := j.hayRd (j.haddr 0) 512
  let y := x.1.hayRd (j.haddr 2) 2048
  let tab := ofBytes y.2
  let l := (upto 512).filter fun i => nfld tab (32 * i) 16 != 0xFFFF
  let j1 := y.1.each l fun i z => z.hayWr (j.haddr 2 + 2048 + nfld tab (32 * i) 16) [x.2.getD i 0]
  j1.finish [l.length]

/-- Word `i` of SITE_RES of a site, read through SITE_IDX; a read of word 0 captures all (R258, R80). -/
def Job.siteRes (j : Job) (q site i : Nat) : Job × Nat :=
  let x := (j.wr .site q Off.siteIdx site).rdAt (PageKind.base .site q + Off.siteRes 0)
  if i = 0 then x else x.1.rdAt (PageKind.base .site q + Off.siteRes i)

def svFailCount (j : Job) : Job :=
  let q := j.f 0 0 3
  let en := j.s.enrollMask q
  let fail := (upto 16).foldl (fun m w => m + 2 ^ (32 * w) * (j.s.rd .site q (Off.siteFail w)).toNat) 0
  let x := (onesOf en 512).foldl (fun (x : Job × List Nat) site =>
    let y := x.1.siteRes q site 1
    (y.1, x.2 ++ [y.2])) (j.ownSeq q, [])
  x.1.finish [popCount fail 512, ((onesOf en 512).filter fun i => !natBit fail i).length,
    satAdd 0xFFFFFFFF 0 (x.2.foldl (fun a b => a + b) 0), x.2.foldl max 0]

/-! ### The capture buffer -/

/-- Wait for CAP_STAT.FLUSHED, for at most 1 ms (R505). -/
def Job.flushed (j : Job) (q : Nat) (f : Job → Job) : Job :=
  let j0 := if j.c.stage = 0 then ((j.ownSeq q).mark).stage 1 else j
  j0.await (j0.s.rb .site q Off.capStat 2) 1000 f

/-- Records of the capture buffer of a sequencer, oldest first, each of 16 bytes (R263, R264). A wrapping buffer that is just full has
its write pointer at 0 again. -/
def Job.records (j : Job) (q : Nat) : Job × List Nat :=
  let cfg := (j.s.seq q).cfg
  let p := j.s.rd2 .site q Off.capWptrLo Off.capWptrHi
  let slots := 2 ^ cfg.capSize / 16
  let wrapped := j.s.rb .site q Off.capStat 1 || (decide (p = 0) && (j.s.rd .site q Off.capCnt).toNat != 0)
  let n := if wrapped then slots else p / 16
  let first := if wrapped then p / 16 else 0
  (upto n).foldl (fun (x : Job × List Nat) k =>
    let y := x.1.hayRd (cfg.capBase + 16 * ((first + k) % slots)) 16
    (y.1, x.2 ++ [ofBytes y.2])) (j, [])

/-- Fields of a capture record (R263, R272). -/
def recSite (r : Nat) : Nat := nfld r 48 9
def recX (r : Nat) : Nat := nfld r 0 20
def recY (r : Nat) : Nat := nfld r 20 20
def recZ (r : Nat) : Nat := nfld r 40 8

/-- Column keys of a record: Y, or Y × 64 + k for each column k in COLS (R504). -/
def recKeys (iomode : Bool) (r : Nat) : List Nat :=
  if iomode then (onesOf (nfld r 64 64) 64).map fun k => recY r * 64 + k else [recY r]

/-- A cell inserted in ascending (X, key) order, once. -/
def insertCell (c : Nat × Nat) : List (Nat × Nat) → List (Nat × Nat)
  | [] => [c]
  | a :: t => if c = a then a :: t else if c.1 < a.1 ∨ (c.1 = a.1 ∧ c.2 < a.2) then c :: a :: t else a :: insertCell c t

/-- The distinct cells of a site and Z. -/
def cellsOf (iomode : Bool) (site z : Nat) (rs : List Nat) : List (Nat × Nat) :=
  ((rs.filter fun r => recSite r == site && recZ r == z).map fun r => (recKeys iomode r).map fun k => (recX r, k)).flatten.foldl
    (fun m c => insertCell c m) []

/-- The Z values of the records of a site, rising. -/
def layersOf (site : Nat) (rs : List Nat) : List Nat :=
  (upto 256).filter fun z => rs.any fun r => recSite r == site && recZ r == z

def svCapScan (j : Job) : Job :=
  let q := j.f 0 0 3
  j.flushed q fun j =>
    let x := j.records q
    let lo := j.f 1 0 9
    let hi := j.f 1 16 9
    let count := fun i => if lo ≤ i ∧ i ≤ hi then (x.2.filter fun r => recSite r == i).length else 0
    let counts := (upto 512).map count
    let most := counts.foldl max 0
    let best := (upto 512).filter fun i => count i == most && decide (0 < most)
    let j1 := x.1.hayWr (j.haddr 2) (counts.map fun n => bytesOf 4 n).flatten
    j1.finish [x.2.length, (counts.filter fun n => decide (0 < n)).length, best.headD (Config.freeWord j.s.free).toNat, most]

def svBitmap (j : Job) : Job :=
  let q := j.f 0 0 3
  j.flushed q fun j =>
    let x := j.records q
    let xb := j.f 4 0 5
    let kb := j.f 4 8 5
    let site := j.f 1 0 9
    let z := j.f 4 16 8
    let cells := cellsOf (j.b 0 3) site z x.2
    let inside := cells.filter fun c => decide (c.1 < 2 ^ xb) && decide (c.2 < 2 ^ kb)
    let mask := inside.foldl (fun m c => m + 2 ^ (c.1 * 2 ^ kb + c.2)) 0
    (x.1.hayWr (j.haddr 2) (bytesOf ((2 ^ (xb + kb) + 7) / 8) mask)).finish
      [(x.2.filter fun r => recSite r == site && recZ r == z).length, inside.length, cells.length - inside.length]

/-! ### Repair analysis (R504 to R506) -/

/-- An allocation at work: spare rows and columns left, those taken in order, the cells that remain, and whether spares
fell short. -/
structure Alloc where
  sr : Nat
  sc : Nat
  rows : List Nat
  cols : List Nat
  cells : List (Nat × Nat)
  short : Bool
  deriving DecidableEq, Repr

/-- Rows, or columns, of cells in ascending order. -/
def rowsOf (l : List (Nat × Nat)) : List Nat := (l.map Prod.fst).eraseDups
def insertKey (k : Nat) : List Nat → List Nat
  | [] => [k]
  | a :: t => if k = a then a :: t else if k < a then k :: a :: t else a :: insertKey k t
def colsOf (l : List (Nat × Nat)) : List Nat := l.foldl (fun m c => insertKey c.2 m) []

/-- Take a spare row for row `x`, or a spare column for key `k`. -/
def Alloc.takeRow (a : Alloc) (x : Nat) : Alloc :=
  if a.sr = 0 then { a with short := true }
  else { a with sr := a.sr - 1, rows := a.rows ++ [x], cells := a.cells.filter fun c => c.1 != x }
def Alloc.takeCol (a : Alloc) (k : Nat) : Alloc :=
  if a.sc = 0 then { a with short := true }
  else { a with sc := a.sc - 1, cols := a.cols ++ [k], cells := a.cells.filter fun c => c.2 != k }

/-- One pass of must-repair over the rows, then over the columns (R505, step 3). -/
def Alloc.pass (a : Alloc) : Alloc :=
  let b := (rowsOf a.cells).foldl (fun y x =>
    if y.short = false ∧ y.sc < (y.cells.filter fun c => c.1 == x).length then y.takeRow x else y) a
  (colsOf b.cells).foldl (fun y k =>
    if y.short = false ∧ y.sr < (y.cells.filter fun c => c.2 == k).length then y.takeCol k else y) b

/-- Passes until neither rows nor columns change. Each pass that changes anything takes a spare, so 15 passes suffice. -/
def Alloc.must (a : Alloc) : Nat → Alloc
  | 0 => a
  | n + 1 => let b := a.pass; if b = a then a else b.must n

/-- The first solution with the fewest spares, a row tried before a column, the cells in ascending order (R505, step 5): the
rows and the columns that it takes. Each level takes a spare. -/
def search : Nat → List (Nat × Nat) → Nat → Nat → Option (List Nat × List Nat)
  | _, [], _, _ => some ([], [])
  | 0, _ :: _, _, _ => none
  | n + 1, c :: t, sr, sc =>
    let all := c :: t
    let row := if sr = 0 then none
      else (search n (all.filter fun d => d.1 != c.1) (sr - 1) sc).map fun e => (c.1 :: e.1, e.2)
    let col := if sc = 0 then none
      else (search n (all.filter fun d => d.2 != c.2) sr (sc - 1)).map fun e => (e.1, c.2 :: e.2)
    match row, col with
    | some a, some b => if b.1.length + b.2.length < a.1.length + a.2.length then some b else some a
    | some a, none => some a
    | none, b => b

/-- STATUS of a block, and the spare rows and columns that it lists (R505, R506). -/
def analyse (incomplete : Bool) (sr sc : Nat) (cells : List (Nat × Nat)) : Nat × List Nat × List Nat :=
  if incomplete then (4, [], [])
  else if 4096 < cells.length then (3, [], [])
  else
    let a := (Alloc.mk sr sc [] [] cells false).must 15
    if a.short ∨ 2 * a.sr * a.sc < a.cells.length then (2, a.rows, a.cols)
    else
      match search (a.sr + a.sc) a.cells a.sr a.sc with
      | some e => (1, a.rows ++ e.1, a.cols ++ e.2)
      | none => (2, a.rows, a.cols)

/-- The 64 bytes of a block (R506). -/
def blockBytes (site z ncell : Nat) (x : Nat × List Nat × List Nat) : List Byte :=
  bytesOf 64 (packBytes [(0, 2, site), (2, 1, z), (3, 1, x.1), (4, 1, x.2.1.length), (5, 1, x.2.2.length), (6, 2, min ncell 0xFFFF)] +
    packBytes ((enumerate (x.2.1 ++ x.2.2)).map fun e => (8 + 4 * e.1, 4, e.2)))

/-- SV_REPAIR: working values 1 to 3 hold the blocks written and the sites whose blocks are all REPAIRED, and not. Each site
with a cell has its SITE_RES read. -/
def svRepair (j : Job) : Job :=
  let q := j.f 0 0 3
  j.flushed q fun j =>
    let x := j.records q
    let io := j.b 0 3
    let out := j.haddr 2
    let top := j.f 3 16 16
    let wrapped := j.s.rb .site q Off.capStat 1
    let words := fun (y : Job) => [y.t 1, y.t 2, y.t 3, x.2.length]
    let sites := (List.range' (j.f 1 0 9) (j.f 1 16 9 + 1 - j.f 1 0 9)).filter fun i =>
      (layersOf i x.2).any fun z => !(cellsOf io i z x.2).isEmpty
    let j1 := (x.1.vals (words x.1)).each sites fun i y =>
      let r := y.siteRes q i 0
      let lost := natBit r.2 21 || natBit r.2 22 || wrapped
      let y1 := (r.1.setT 4 1).each (layersOf i x.2) fun z w =>
        let cells := cellsOf io i z x.2
        if cells.isEmpty then w
        else if top ≠ 0 ∧ w.t 1 = top then w.fail svSpace
        else
          let a := analyse lost (j.f 0 4 3) (j.f 0 8 3) cells
          let w1 := ((w.hayWr (out + 64 * w.t 1) (blockBytes i z cells.length a)).addT 1 1)
          let w2 := if a.1 = 1 then w1 else w1.setT 4 0
          w2.vals (words w2)
      let y2 := if y1.t 4 = 1 then y1.addT 2 1 else y1.addT 3 1
      y2.vals (words y2)
    j1.fail svOk

/-- The spares of the block of a site and Z among blocks of 64 bytes. -/
def sparesOf (bs : List Nat) (site z : Nat) : List Nat × List Nat :=
  match bs.find? fun b => nfld b 0 9 == site && nfld b 16 8 == z with
  | none => ([], [])
  | some b =>
    let nr := nfld b 32 8
    let nc := nfld b 40 8
    ((upto nr).map fun i => nfld b (64 + 32 * i) 32, (upto nc).map fun i => nfld b (64 + 32 * (nr + i)) 32)

/-- SV_REPAIR_VERIFY: as many blocks are read as SV_REPAIR writes for the range. -/
def svRepairVerify (j : Job) : Job :=
  let q := j.f 0 0 3
  j.flushed q fun j =>
    let x := j.records q
    let io := j.b 0 3
    let sites := (List.range' (j.f 1 0 9) (j.f 1 16 9 + 1 - j.f 1 0 9)).filter fun i =>
      (layersOf i x.2).any fun z => !(cellsOf io i z x.2).isEmpty
    let pairs := (sites.map fun i => ((layersOf i x.2).filter fun z => !(cellsOf io i z x.2).isEmpty).map fun z => (i, z)).flatten
    let y := x.1.hayRd (j.haddr 2) (64 * pairs.length)
    let v := ofBytes y.2
    let blocks := (upto pairs.length).map fun k => nfld v (512 * k) 512
    let open_ := fun (i z : Nat) =>
      let sp := sparesOf blocks i z
      ((cellsOf io i z x.2).filter fun c => !sp.1.contains c.1 && !sp.2.contains c.2).length
    let bad := pairs.filter fun e => decide (0 < open_ e.1 e.2)
    let badSites := (bad.map Prod.fst).eraseDups
    y.1.finish ([pairs.length, sites.length - badSites.length, (pairs.map fun e => open_ e.1 e.2).foldl (fun a b => a + b) 0] ++
      badSites.take 1)

/-! ### Commands -/

def execSvStats (g : Fin 8) (ring : Option (Fin 32768)) (p : Probe) (s : State) : Result :=
  .next (s.service g ring p (· == 0x30) svStats)
def execSvHistogram (g : Fin 8) (ring : Option (Fin 32768)) (p : Probe) (s : State) : Result :=
  .next (s.service g ring p (· == 0x31) svHistogram)
def execSvLimits (g : Fin 8) (ring : Option (Fin 32768)) (p : Probe) (s : State) : Result :=
  .next (s.service g ring p (· == 0x32) svLimits)
def execSvBin (g : Fin 8) (ring : Option (Fin 32768)) (p : Probe) (s : State) : Result :=
  .next (s.service g ring p (· == 0x33) svBin)
def execSvBinMap (g : Fin 8) (ring : Option (Fin 32768)) (p : Probe) (s : State) : Result :=
  .next (s.service g ring p (· == 0x34) svBinMap)
def execSvSiteSummary (g : Fin 8) (ring : Option (Fin 32768)) (p : Probe) (s : State) : Result :=
  .next (s.service g ring p (· == 0x35) svSiteSummary)
def execSvMerge (g : Fin 8) (ring : Option (Fin 32768)) (p : Probe) (s : State) : Result :=
  .next (s.service g ring p (· == 0x36) svMerge)
def execSvOutlier (g : Fin 8) (ring : Option (Fin 32768)) (p : Probe) (s : State) : Result :=
  .next (s.service g ring p (· == 0x37) svOutlier)
def execSvCapScan (g : Fin 8) (ring : Option (Fin 32768)) (p : Probe) (s : State) : Result :=
  .next (s.service g ring p (· == 0x38) svCapScan)
def execSvBitmap (g : Fin 8) (ring : Option (Fin 32768)) (p : Probe) (s : State) : Result :=
  .next (s.service g ring p (· == 0x39) svBitmap)
def execSvRepair (g : Fin 8) (ring : Option (Fin 32768)) (p : Probe) (s : State) : Result :=
  .next (s.service g ring p (· == 0x3A) svRepair)
def execSvRepairVerify (g : Fin 8) (ring : Option (Fin 32768)) (p : Probe) (s : State) : Result :=
  .next (s.service g ring p (· == 0x3B) svRepairVerify)
def execSvWaferMap (g : Fin 8) (ring : Option (Fin 32768)) (p : Probe) (s : State) : Result :=
  .next (s.service g ring p (· == 0x3C) svWaferMap)
def execSvYield (g : Fin 8) (ring : Option (Fin 32768)) (p : Probe) (s : State) : Result :=
  .next (s.service g ring p (· == 0x3D) svYield)
def execSvSort (g : Fin 8) (ring : Option (Fin 32768)) (p : Probe) (s : State) : Result :=
  .next (s.service g ring p (· == 0x3E) svSort)
def execSvFailCount (g : Fin 8) (ring : Option (Fin 32768)) (p : Probe) (s : State) : Result :=
  .next (s.service g ring p (· == 0x3F) svFailCount)

end Sys2Proof.Machine
end

