-- ==== Sys2Proof/Machine/SvcMaint.lean ====
section
/-!
DEFINITION. Service operations 0x25, 0x26 and 0x40 to 0x5F (R485): watch comparators, calibration and maintenance, and the
services that act on records, rings and counters.
-/

namespace Sys2Proof.Machine

/-! ### Watch comparators -/

/-- SV_WATCH_SETUP: a pair whose block refuses a write ends the routine (R493). -/
def svWatchSetup (j : Job) : Job :=
  let j1 := ((j.ownStalls 0).vals [0, 0]).each (enumerate j.chans) fun e y =>
    let st := e.2 / 16
    let c := e.2 % 16
    let z := (y.wr .wch st (Off.wchThr c) (y.a 1)).wr .wch st (Off.wchCfg c) (y.a 2)
    if z.done = some svRefused then { z with c := { z.c with vs := [word e.1, 1] } } else z.vals [e.1 + 1, 0]
  j1.fail svOk

/-- Parked channels of the scope: SV_WATCH_TEST tests these alone. -/
def Job.parked (j : Job) : List Nat := j.chans.filter fun ch => natBit (j.kept ch) 0

/-- Set TEST of a pair (R444). -/
def Job.setTest (j : Job) (ch v : Nat) : Job :=
  let o := Off.wchCfg (ch % 16)
  j.wr .wch (ch / 16) o (putFld (j.s.rd .wch (ch / 16) o) 24 2 v).toNat

/-- An enabled comparator of a pair, `lo` the lower one, is resolved with output `v` (R444, R445). -/
def Job.shows (j : Job) (ch : Nat) (lo : Bool) (v : Bool) : Bool :=
  let st := ch / 16
  let b := ch % 16 + 16 * bit lo
  !j.s.rb .wch st (Off.wchCfg (ch % 16)) (bit lo) || (!j.s.rb .wch st Off.wchUnres b && j.s.rb .wch st Off.wchLive b == v)

/-- The time within which a pair shows its outputs (R445): 10 µs, or two ticks of a sampled stall. -/
def Job.watchTime (j : Job) : Nat :=
  (j.stalls 0).foldl (fun m st => max m (if j.s.rb .wch st Off.wchCtrl 0 then 2 * j.s.rf .wch st Off.wchTick 0 17 else 10)) 10

/-- SV_WATCH_TEST: stages 1 to 3 judge SWAP, TIE_ABOVE and TIE_BELOW. SWAP is judged where the input lay inside the window
before the test. Working value 2 counts the pairs found faulty, and 3 holds the first. -/
def svWatchTest (j : Job) : Job :=
  let k := j.c.stage
  if k = 0 then
    let j1 := (j.ownStalls 0).each j.chans fun ch y =>
      let inside := y.shows ch false false && y.shows ch true false
      y.keep ch (bit (y.s.rb .stl (ch / 16) Off.stlStat (ch % 16)) + 2 * bit inside)
    ((j1.each j1.parked fun ch y => y.setTest ch 1).mark).stage 1
  else if j.passed j.watchTime then
    let j1 := j.each j.parked fun ch y =>
      let ok := match k with
        | 1 => !natBit (y.kept ch) 1 || (y.shows ch false true && y.shows ch true true)
        | 2 => y.shows ch false true && y.shows ch true false
        | _ => y.shows ch false false && y.shows ch true true
      let y1 := if ok then y else y.keep (2 ^ 20 + ch) 1
      y1.setTest ch (if k = 3 then 0 else k + 1)
    if k = 3 then
      let bad := j1.parked.filter fun ch => j1.kept (2 ^ 20 + ch) == 1
      j1.finish ([j1.parked.length, bad.length] ++ bad.take 1)
    else (j1.mark).stage (k + 1)
  else j

/-! ### Calibration and maintenance -/

def svCalItem (j : Job) : Job :=
  if j.c.stage = 0 then
    let cfg := putFld (putFld (putFld (j.s.rd .far 0 Off.farCfg) 0 7 (j.f 0 0 7)) 8 1 (j.f 0 8 1)) 16 1 (j.f 0 16 1)
    let j1 := ((j.wr .far 0 Off.farCfg cfg.toNat).wr .far 0 Off.farScope (j.f 1 0 8)).wr .far 0 Off.farPenEn (j.f 2 0 9)
    ((j1.wr .far 0 Off.farCtrl 1).mark).stage 1
  else
    (j.vals ([Off.farResultLo, Off.farResultHi, Off.farEpoch, Off.farStepAbort].map fun o => (j.look .far 0 o).toNat)).await
      (j.s.rb .far 0 Off.farResultLo 16) (j.a 3) fun y => y.fail svOk

def svCalStore (j : Job) : Job :=
  if j.c.stage = 0 then (j.wr .far 0 Off.farCtrl 4).stage 1
  else if j.s.rb .tak 0 Off.takStoreResult 16 then j.finish [(j.s.rd .tak 0 Off.takStoreResult).toNat]
  else j

/-- Read a window register through its index register for each index below `n`. -/
def Job.window (j : Job) (k : PageKind) (idx n : Nat) (os : List Nat) : Job × List Nat :=
  (upto n).foldl (fun (x : Job × List Nat) i =>
    let y := (x.1.wr k 0 idx i).rdAll (os.map fun o => k.base 0 + o)
    (y.1, x.2 ++ y.2)) (j, [])

/-- Write words to the hayloft. -/
def Job.hayWords (j : Job) (a : Nat) (l : List Nat) : Job := j.hayWr a (l.map fun v => bytesOf 4 v).flatten

def svWearReport (j : Job) : Job :=
  let x := j.window .lan Off.lanWearIdx 6144 [Off.lanWear]
  let top := x.2.foldl max 0
  let worn := ((upto 6144).filter fun i => Store.getD (fun _ => false) j.s.lan.worn i).length
  (x.1.hayWords (j.haddr 0) x.2).finish [6144, worn, top, x.2.findIdx (· == top)]

def svTempReport (j : Job) : Job :=
  let x := j.window .wvn Off.wvnIdx 96 [Off.wvnRead]
  let broken := [Off.wvnBrokenLo, Off.wvnBrokenMid, Off.wvnBrokenHi].foldl (fun a o => a + popCount (j.look .wvn 0 o).toNat 32) 0
  (x.1.hayWords (j.haddr 0) x.2).finish [(j.look .wvn 0 Off.wvnStat).toNat, broken, (j.look .wvn 0 Off.wvnSupOor).toNat]

def svLogRead (j : Job) : Job :=
  let x := j.window .lan Off.lanLogIdx 512 [Off.lanLogLo, Off.lanLogHi]
  (x.1.hayWords (j.haddr 0) x.2).finish ([Off.lanLogWptr, Off.lanLogFrz, Off.lanLogLost].map fun o => (j.look .lan 0 o).toNat)

/-- SV_SELFTEST: bit i of the first word that the stage meets tells whether test i fails. -/
def svSelftest (j : Job) : Job :=
  let run := onesOf (j.f 0 0 3) 3
  let bad := run.filter fun i => tbit (j.p.inp.getD 0 0) i
  j.finish ([run.length, bad.length] ++ bad.take 1)

/-- SV_HBM_SCRUB: each word that the stage meets names a 32-byte word of the hayloft by its address ÷ 32 in [29:0] in which
error correction finds an error, uncorrectable where [31] is set. A poisoned word reads uncorrectable (R552). -/
def svHbmScrub (j : Job) : Job :=
  let a := j.haddr 0
  let n := j.a 4 / 32
  let j0 := j.need (decide (a + j.a 4 ≤ hayEnd))
  let inRange := fun (w : Nat) => decide (a / 32 ≤ w) && decide (w < a / 32 + n)
  let met := (j.p.inp.map fun v => (fld v 0 30, tbit v 31)).filter fun e => inRange e.1 && !j.s.poisoned (32 * e.1) 32
  let dead := (j.s.hay.poison.filter fun e => e.2 && inRange e.1).map Prod.fst
  let ue := dead ++ (met.filter fun e => e.2).map Prod.fst
  let ce := (met.filter fun e => !e.2).map Prod.fst
  let j1 := j0.each ce fun w y => y.act fun s => s.hbmCe (32 * w) reqGroom
  let j2 := j1.each ue fun w y => y.act fun s => s.hbmUe (32 * w) reqGroom
  if j.s.trainPause then { j with stall := true }
  else j2.finish ([n, ce.length, ue.length] ++ (if ue.isEmpty then [] else [ue.foldl min (ue.headD 0)]))

/-- SV_ROM_CHECK: the first two words that the stage meets count the words corrected and the words with a double-bit error.
With one of these the manual states no CRC: a free value. -/
def svRomCheck (j : Job) : Job :=
  let bad := (j.p.inp.getD 1 0).toNat
  let crc := crc32 ((upto 16384).map fun i => bytesOf 4 (Config.romWord i).toNat).flatten
  j.finish [if bad = 0 then crc else (Config.freeWord j.s.free).toNat, (j.p.inp.getD 0 0).toNat, bad]

/-! ### Records, rings and counters -/

/-- Start the list of `n` records at `a` (SV_CHAIN): an access fault where the owner cannot read it. -/
def Job.startChain (j : Job) (a n : Nat) (stop cond : Bool) : Job :=
  (j.need (j.s.inRegion j.o anyKind a (32 * n))).bind fun y =>
    { y with chain := some { ctx := y.c, base := a, count := n, next := 0, stop := stop, firstBad := none, cond := cond } }

def svChain (j : Job) : Job := j.startChain (j.haddr 0) (j.a 2) (j.b 3 0) false

/-- SV_IF_STATUS: the records run if the last result of the named record had the given STATUS. -/
def svIfStatus (j : Job) : Job :=
  match Store.get? j.s.cluster.results (ownerIx j.o * 2 ^ 16 + j.f 0 0 16) with
  | some st => if st = j.f 1 0 8 then j.startChain (j.haddr 2) (j.a 4) false true else j.finish [0]
  | none => j.finish [0]

/-- SV_BARRIER: every record of the owner that the cluster took earlier has completed, but for those whose lists enclose
this one. -/
def svBarrier (j : Job) : Job :=
  let mine := (j.s.groom j.g).chains.map fun h => h.ctx.serial
  let earlier := j.s.ctxs.any fun c =>
    c.rcd.owner == j.o && decide (c.serial < j.c.serial) && !mine.contains c.serial
  if earlier then j.stage 1 else j.finish [0, 0, 0, 0]

def svSignal (j : Job) : Job :=
  let n := j.f 0 0 15
  let j1 := (j.need (j.s.ringOwner n == j.o)).act fun s =>
    s.groomPost j.g j.o n 0x83 (packBytes [(4, 4, j.a 1), (8, 4, j.a 2), (12, 4, j.a 3), (16, 4, j.a 4)])
  j1.finish [0, 0, 0, 0]

/-- Put a timer entry in its place: by due time, and of entries due together the lower groom first (R521). -/
def timerInsert (t : TimerDue) : List TimerDue → List TimerDue
  | [] => [t]
  | a :: l => if a.due < t.due ∨ (a.due = t.due ∧ a.groom ≤ t.groom) then a :: timerInsert t l else t :: a :: l

def svTimer (j : Job) : Job :=
  let n := j.f 1 0 15
  let j1 := (j.need (j.s.ringOwner n == j.o)).act fun s =>
    { s with cluster := { s.cluster with timers := timerInsert ⟨j.o, n, j.g, s.now + 3200 * j.a 0⟩ s.cluster.timers } }
  j1.finish [0, 0, 0, 0]

def svCounter (j : Job) : Job :=
  let k := 16 * ownerIx j.o + j.f 0 0 4
  let v := Store.getD (fun _ => 0) j.s.cluster.counters k + word (j.a 1)
  (j.act fun s => { s with cluster := { s.cluster with counters := Store.put s.cluster.counters k v } }).finish [v.toNat]

def svMark (j : Job) : Job :=
  (j.post 0x85 (packBytes [(4, 2, j.f 0 0 16), (8, 6, j.s.tick)])).finish [0, 0, 0, 0]

/-- No entry of sequencer `q` waits: no snapshot, and none held by a ring (R259, R518). -/
def State.seqPosted (s : State) (q : Nat) : Bool :=
  (s.seq q).snaps.isEmpty && s.rings.all fun e => e.2.held.all fun h => h.prod != .site q && h.prod != .mark q

def svFlush (j : Job) : Job :=
  let q := j.f 0 0 3
  let j0 := if j.c.stage = 0 then ((j.ownSeq q).mark).stage 1 else j
  j0.await (j0.s.rb .site q Off.capStat 2 && j0.s.seqPosted q) (j.a 3) fun y => y.finish [(y.s.rd .site q Off.capWptrLo).toNat]

/-! ### Commands -/

def execSvWatchSetup (g : Fin 8) (ring : Option (Fin 32768)) (p : Probe) (s : State) : Result :=
  .next (s.service g ring p (· == 0x25) svWatchSetup)
def execSvWatchTest (g : Fin 8) (ring : Option (Fin 32768)) (p : Probe) (s : State) : Result :=
  .next (s.service g ring p (· == 0x26) svWatchTest)
def execSvCalItem (g : Fin 8) (ring : Option (Fin 32768)) (p : Probe) (s : State) : Result :=
  .next (s.service g ring p (· == 0x40) svCalItem)
def execSvCalStore (g : Fin 8) (ring : Option (Fin 32768)) (p : Probe) (s : State) : Result :=
  .next (s.service g ring p (· == 0x41) svCalStore)
def execSvWearReport (g : Fin 8) (ring : Option (Fin 32768)) (p : Probe) (s : State) : Result :=
  .next (s.service g ring p (· == 0x42) svWearReport)
def execSvTempReport (g : Fin 8) (ring : Option (Fin 32768)) (p : Probe) (s : State) : Result :=
  .next (s.service g ring p (· == 0x43) svTempReport)
def execSvLogRead (g : Fin 8) (ring : Option (Fin 32768)) (p : Probe) (s : State) : Result :=
  .next (s.service g ring p (· == 0x44) svLogRead)
def execSvSelftest (g : Fin 8) (ring : Option (Fin 32768)) (p : Probe) (s : State) : Result :=
  .next (s.service g ring p (· == 0x45) svSelftest)
def execSvHbmScrub (g : Fin 8) (ring : Option (Fin 32768)) (p : Probe) (s : State) : Result :=
  .next (s.service g ring p (· == 0x46) svHbmScrub)
def execSvRomCheck (g : Fin 8) (ring : Option (Fin 32768)) (p : Probe) (s : State) : Result :=
  .next (s.service g ring p (· == 0x47) svRomCheck)
def execSvChain (g : Fin 8) (ring : Option (Fin 32768)) (p : Probe) (s : State) : Result :=
  .next (s.service g ring p (· == 0x48) svChain)
def execSvBarrier (g : Fin 8) (ring : Option (Fin 32768)) (p : Probe) (s : State) : Result :=
  .next (s.service g ring p (· == 0x49) svBarrier)
def execSvIfStatus (g : Fin 8) (ring : Option (Fin 32768)) (p : Probe) (s : State) : Result :=
  .next (s.service g ring p (· == 0x4A) svIfStatus)
def execSvSignal (g : Fin 8) (ring : Option (Fin 32768)) (p : Probe) (s : State) : Result :=
  .next (s.service g ring p (· == 0x4B) svSignal)
def execSvTimer (g : Fin 8) (ring : Option (Fin 32768)) (p : Probe) (s : State) : Result :=
  .next (s.service g ring p (· == 0x4C) svTimer)
def execSvCounter (g : Fin 8) (ring : Option (Fin 32768)) (p : Probe) (s : State) : Result :=
  .next (s.service g ring p (· == 0x4D) svCounter)
def execSvMark (g : Fin 8) (ring : Option (Fin 32768)) (p : Probe) (s : State) : Result :=
  .next (s.service g ring p (· == 0x4E) svMark)
def execSvFlush (g : Fin 8) (ring : Option (Fin 32768)) (p : Probe) (s : State) : Result :=
  .next (s.service g ring p (· == 0x4F) svFlush)

/-- SV_PATCH_0 to SV_PATCH_15: the record is taken and checked; its routine runs by microwords (R500, R502). -/
def execSvPatch (g : Fin 8) (ring : Option (Fin 32768)) (p : Probe) (s : State) : Result :=
  .next (s.service g ring p (fun op => decide (0x50 ≤ op) && decide (op < 0x60)) id)

end Sys2Proof.Machine
end

