-- ==== Sys2Proof/Machine/Micro.lean ====
section
/-!
DEFINITION. Microwords (R498 to R503), yield points (R489 to R494), and the commands of the groom cluster that are not
service operations: cancelling, bad records, commits, contexts, the watchdog, back-pressure, use and timers.
-/

namespace Sys2Proof.Machine

/-! ### Registers of a routine -/

def Ctx.reg (c : Ctx) (i : Nat) : Word := Store.getD (fun _ => 0) c.w i
def Ctx.setReg (c : Ctx) (i : Nat) (v : Word) : Ctx := { c with w := Store.put c.w i v }
def Ctx.areg (c : Ctx) (i : Nat) : Word := Store.getD (fun _ => 0) c.a i
def Ctx.hreg (c : Ctx) (i : Nat) : Nat := Store.getD (fun _ => 0) c.h i
def Ctx.setH (c : Ctx) (i v : Nat) : Ctx := { c with h := Store.put c.h i (v % 2 ^ 35) }

/-! ### Fetch (R498, R499, R502) -/

/-- The microaddress that a fetch from `pc` reads: a match register diverts a ROM address to patch RAM (R502). -/
def State.fetchAddr (s : State) (pc : Nat) : Nat := if pc < 0x4000 then Store.getD id s.cluster.matchRegs pc else pc

/-- The microword at an address: micro-ROM, or patch RAM, whose words that no image has loaded are 0. -/
def State.wordAt (s : State) (a : Nat) : Nat :=
  if a < 0x4000 then (Config.romWord a).toNat else (Store.getD (fun _ => 0) s.cluster.patchRam a).toNat

def fmtOf (w : Nat) : Nat := nfld w 18 4
def subOf (w : Nat) : Nat := nfld w 14 4

/-- The word is of a defined format and its reserved fields are 0 (R498). A POST of a type below 0x80, which no POST gives (R520), is
taken as reserved (DESIGN CHOICE, assumption 83). -/
def legalWord (w : Nat) : Bool :=
  match fmtOf w with
  | 0x0 => natBit w 5 || !natBit w 4
  | 0x1 | 0x7 => true
  | 0x2 | 0x3 => nfld w 0 2 == 0
  | 0x4 | 0x5 => nfld w 0 11 == 0
  | 0x6 => nfld w 0 7 == 0
  | 0x8 => nfld w 15 3 == 0
  | 0x9 =>
    match subOf w with
    | 0 | 1 => nfld w 0 14 == 0
    | 2 => nfld w 8 6 == 0
    | 3 => nfld w 8 6 == 0 && natBit w 7
    | 4 => nfld w 4 10 == 0
    | 5 => true
    | _ => false
  | _ => false

/-- The routine of groom `g` ends with STATUS `st`, its staged stores discarded. -/
def State.faultEnd (s : State) (g : Nat) (c : Ctx) (st : Nat) : State := s.endRecord g { c with staged := [] } st

/-- Groom `g` fetches its next microword and runs it as `f` says, if `is` names it: any other word is another row's. The
error correction finds `ecc` in the word (R503). A reserved word and an address outside the store end the routine (R498,
R499). -/
def State.micro (s : State) (g : Fin 8) (ecc : Ecc) (is : Nat → Bool) (f : Ctx → Nat → State → State) : State :=
  match (s.groom g).ctx with
  | none => s
  | some c =>
    if s.romCtx c ∨ s.groomWaits g ∨ (c.after ≠ .no ∧ c.after ≠ .done) then s
    else
      let a := s.fetchAddr c.pc
      if 0x4400 ≤ a then s.faultEnd g c svMcodeFault
      else
        let s1 := s.reach15 c.rcd.op a
        if ecc = .uncorrectable then s1.machineCheck g c a
        else
          let s2 := if ecc = .corrected then s1.sat .grm 0 Off.grmSbeCnt 0 32 1 else s1
          let w := s.wordAt a
          if legalWord w = false then s2.faultEnd g c svMcodeFault
          else if is w then f { c with pc := (a + 1) % 2 ^ 15, after := .no } w s2
          else s

/-- Keep the context of groom `g`. -/
def State.setCtx (s : State) (g : Nat) (c : Ctx) : State := s.setGroom g { s.groom g with ctx := some c }

/-! ### Words that act on the routine alone -/

/-- What an ALU word computes: the result, the carry if the manual gives one (carry out of an addition, borrow of a
subtraction; assumption 42), and whether the result is written. Signedness of MIN, MAX and MULH, a shift by 32 or more, and
C of the other words are free values. -/
def aluOp (op a b : Nat) (cin sgn : Bool) (free : Nat) : Nat × Option Bool :=
  let sa := signed 32 a
  let sb := signed 32 b
  match op with
  | 0 => ((a + b) % 2 ^ 32, some (decide (2 ^ 32 ≤ a + b)))
  | 1 | 12 => ((a + 2 ^ 32 - b) % 2 ^ 32, some (decide (a < b)))
  | 2 => (a &&& b, none)
  | 3 => (a ||| b, none)
  | 4 => (a ^^^ b, none)
  | 5 => (if b < 32 then a * 2 ^ b % 2 ^ 32 else free, none)
  | 6 => (if b < 32 then a / 2 ^ b else free, none)
  | 7 => (if b < 32 then twos 32 (sa / (2 ^ b : Nat)) else free, none)
  | 8 => (a * b % 2 ^ 32, none)
  | 9 => (if sgn then twos 32 (sa * sb / (2 ^ 32 : Nat)) else a * b / 2 ^ 32, none)
  | 10 => (if sgn then twos 32 (min sa sb) else min a b, none)
  | 11 => (if sgn then twos 32 (max sa sb) else max a b, none)
  | 13 => (b, none)
  | 14 => ((a + b + bit cin) % 2 ^ 32, some (decide (2 ^ 32 ≤ a + b + bit cin)))
  | _ => ((a + 2 ^ 33 - b - bit cin) % 2 ^ 32, some (decide (a < b + bit cin)))

/-- ALU: SA, and SB or a 5-bit immediate, to DST; the flags follow the result. CMP writes no register. -/
def Ctx.alu (c : Ctx) (w free : Nat) : Ctx :=
  let b := if natBit w 5 then nfld w 0 5 else (c.reg (nfld w 0 4)).toNat
  let x := aluOp (nfld w 14 4) (c.reg (nfld w 6 4)).toNat b c.fc (Config.freeBool (free + 1)) (Config.freeWord free).toNat
  let c1 := { c with fz := x.1 == 0, fn := natBit x.1 31, fc := x.2.getD (Config.freeBool free) }
  if nfld w 14 4 = 12 then c1 else c1.setReg (nfld w 10 4) (word x.1)

/-- LDI. -/
def Ctx.ldi (c : Ctx) (w : Nat) : Ctx :=
  let d := nfld w 14 4
  let imm := nfld w 0 12
  let old := c.reg d
  c.setReg d (match nfld w 12 2 with
    | 0 => word imm
    | 1 => putFld old 12 12 imm
    | 2 => putFld old 24 8 imm
    | _ => word (twos 32 (signed 12 imm)))

/-- SETA. -/
def Ctx.seta (c : Ctx) (w : Nat) : Ctx :=
  let i := nfld w 15 2
  let v := c.reg (nfld w 11 4)
  if natBit w 17 then c.setH i (v.toNat + 2 ^ 32 * ((c.reg (nfld w 7 4)).toNat % 8)) else { c with a := Store.put c.a i v }

/-- BR. -/
def Ctx.br (c : Ctx) (w : Nat) : Ctx :=
  let n := c.reg 15 - 1
  let go := match nfld w 15 3 with
    | 0 => true
    | 1 => c.fz
    | 2 => !c.fz
    | 3 => c.fn
    | 4 => !c.fn
    | 5 => c.fc
    | 6 => n != 0
    | _ => c.af
  let c1 := if nfld w 15 3 = 6 then c.setReg 15 n else c
  if go then { c1 with pc := nfld w 0 15 } else c1

def execAlu (g : Fin 8) (fetch : Ecc) (s : State) : Result :=
  .next (s.micro g fetch (fun w => fmtOf w == 0) fun c w x => { x with free := x.free + 2 }.setCtx g (c.alu w x.free))

def execLdi (g : Fin 8) (fetch : Ecc) (s : State) : Result :=
  .next (s.micro g fetch (fun w => fmtOf w == 1) fun c w x => x.setCtx g (c.ldi w))

def execSeta (g : Fin 8) (fetch : Ecc) (s : State) : Result :=
  .next (s.micro g fetch (fun w => fmtOf w == 6) fun c w x => x.setCtx g (c.seta w))

def execBr (g : Fin 8) (fetch : Ecc) (s : State) : Result :=
  .next (s.micro g fetch (fun w => fmtOf w == 7) fun c w x => x.setCtx g (c.br w))

/-- CALL: a ninth nested call ends the routine (R499). -/
def execMicroCall (g : Fin 8) (fetch : Ecc) (s : State) : Result :=
  .next (s.micro g fetch (fun w => fmtOf w == 8) fun c w x =>
    if 8 ≤ c.stack.length then x.faultEnd g c svMcodeFault
    else x.setCtx g { c with stack := c.pc :: c.stack, pc := nfld w 0 15 })

/-- A control word of a given SUB. -/
def isCtl (sub w : Nat) : Bool := fmtOf w == 9 && subOf w == sub

/-- RET: with an empty micro-stack it ends the routine (R499). -/
def execMicroRet (g : Fin 8) (fetch : Ecc) (s : State) : Result :=
  .next (s.micro g fetch (isCtl 0) fun c _ x =>
    match c.stack with
    | [] => x.faultEnd g c svMcodeFault
    | a :: t => x.setCtx g { c with stack := t, pc := a })

/-- TICK. -/
def execMicroTick (g : Fin 8) (fetch : Ecc) (s : State) : Result :=
  .next (s.micro g fetch (isCtl 4) fun c w x => x.setCtx g (c.setReg (nfld w 0 4) (word (x.tick % 2 ^ 32))))

/-! ### Words that access registers and the hayloft -/

/-- Address of LD and ST. -/
def Ctx.address (c : Ctx) (w : Nat) : Nat := ((c.areg (nfld w 12 2)).toNat + 4 * nfld w 2 10) % 2 ^ 32

/-- LD: a staged store of the address gives its value; otherwise the register is read (R491, R493). -/
def execLd (g : Fin 8) (fetch : Ecc) (s : State) : Result :=
  .next (s.micro g fetch (fun w => fmtOf w == 2) fun c w x =>
    let a := c.address w
    match (c.staged.filter fun e => e.1 == a).getLast? with
    | some e => x.setCtx g (c.setReg (nfld w 14 4) e.2)
    | none =>
      let y := x.read (.groom g) a .w32
      let c1 := if x.reaches (.groom g) a then c else { c with af := true }
      y.1.setCtx g (c1.setReg (nfld w 14 4) (y.2.headD 0xFFFFFFFF)))

/-- ST: staged; a 65th staged store ends the routine (R491). -/
def execSt (g : Fin 8) (fetch : Ecc) (s : State) : Result :=
  .next (s.micro g fetch (fun w => fmtOf w == 3) fun c w x =>
    if 64 ≤ c.staged.length then x.faultEnd g c svMcodeFault
    else x.setCtx g { c with staged := c.staged ++ [(c.address w, c.reg (nfld w 14 4))] })

/-- H after an access. -/
def Ctx.advance (c : Ctx) (w : Nat) : Ctx := if natBit w 11 then c.setH (nfld w 12 2) (c.hreg (nfld w 12 2) + 4) else c

/-- HLD: an access outside the owner's regions, or an uncorrectable error, sets the access fault (R493, R553). A training
pause makes it wait (R550). -/
def execHld (g : Fin 8) (fetch ecc : Ecc) (s : State) : Result :=
  if s.trainPause then .next s
  else
    .next (s.micro g fetch (fun w => fmtOf w == 4) fun c w x =>
      let a := c.hreg (nfld w 12 2)
      let d := nfld w 14 4
      if x.inRegion c.rcd.owner anyKind a 4 then
        let y := x.eccRead a 4 reqGroom ecc
        if y.2 then (y.1.accessError (.groom g)).setCtx g ({ c with af := true }.setReg d 0xFFFFFFFF |>.advance w)
        else y.1.setCtx g ((c.setReg d (word (x.hayGet c.rcd.owner a 4))).advance w)
      else (x.accessError (.groom g)).setCtx g ({ c with af := true }.setReg d 0xFFFFFFFF |>.advance w))

/-- HST: not staged (R492). -/
def execHst (g : Fin 8) (fetch ecc : Ecc) (s : State) : Result :=
  if s.trainPause then .next s
  else
    .next (s.micro g fetch (fun w => fmtOf w == 5) fun c w x =>
      let a := c.hreg (nfld w 12 2)
      if x.inRegion c.rcd.owner anyKind a 4 then
        (x.hayMerge c.rcd.owner a (bytesOf 4 (c.reg (nfld w 14 4)).toNat) reqGroom ecc).setCtx g
          ((c.note ⟨true, a / 64, 4⟩).advance w)
      else (x.accessError (.groom g)).setCtx g ({ c with af := true }.advance w))

/-! ### Yield points (R489 to R494) -/

/-- The routine reaches a yield point: an abort, an access fault or a refused store ends it; otherwise its staged stores are
committed, and then it does what `after` says. -/
def State.yieldPoint (s : State) (g : Nat) (c : Ctx) (after : Yielding) : State :=
  if c.abort then s.faultEnd g c svAborted
  else if c.af then s.faultEnd g c svAccess
  else if c.refusal.isSome then s.faultEnd g c svRefused
  else s.setCtx g { c with after := after }

def execYield (g : Fin 8) (fetch : Ecc) (s : State) : Result :=
  .next (s.micro g fetch (isCtl 1) fun c _ x => x.yieldPoint g c .commit)

/-- END: V0 to V3 from W12 to W15. -/
def execMicroEnd (g : Fin 8) (fetch : Ecc) (s : State) : Result :=
  .next (s.micro g fetch (isCtl 2) fun c w x =>
    x.yieldPoint g { c with vs := (upto 4).map fun i => c.reg (12 + i) } (.commitEnd (nfld w 0 8)))

def execMicroPost (g : Fin 8) (fetch : Ecc) (s : State) : Result :=
  .next (s.micro g fetch (isCtl 3) fun c w x => x.yieldPoint g c (.commitPost (nfld w 0 8)))

def execSleep (g : Fin 8) (fetch : Ecc) (s : State) : Result :=
  .next (s.micro g fetch (isCtl 5) fun c w x => x.yieldPoint g c (.commitSleep (nfld w 0 14)))

/-- Commit one staged store: an access that R78 handles sets the access fault, a refusal is kept, and any other write is
logged (R493, R495). -/
def commitOne (g : Fin 8) (x : State × Ctx) (e : Nat × Word) : State × Ctx :=
  let f := fun (s : State) => s.write (.groom g) e.1 .w32 e.2.toNat
  if x.1.reaches (.groom g) e.1 = false then (f x.1, { x.2 with af := true })
  else
    match x.1.refusedBy f with
    | some o => (f x.1, { x.2 with refusal := some (x.2.refusal.getD o) })
    | none => (f x.1, x.2.note ⟨false, e.1, e.2.toNat⟩)

/-- Commit the staged stores of a routine, in program order (R491). -/
def State.commit (s : State) (g : Fin 8) (c : Ctx) : State × Ctx :=
  let x := c.staged.foldl (commitOne g) (s, c)
  (x.1, { x.2 with staged := [] })

/-- The commit of a yield point is done: the routine goes on, ends, posts or sleeps (R491, R507). -/
def execCommitDone (g : Fin 8) (s : State) : Result :=
  match (s.groom g).ctx with
  | none => .next s
  | some c =>
    let done := fun (k : State × Ctx → State) => if c.abort then s.faultEnd g c svAborted else k (s.commit g c)
    match c.after with
    | .no | .done | .asleep => .next s
    | .commit => .next (done fun x => x.1.setCtx g { x.2 with after := .done })
    | .commitEnd st => .next (done fun x =>
        x.1.faultEnd g x.2 (if x.2.af then svAccess else if x.2.refusal.isSome then svRefused else st))
    | .commitPost ty => .next (done fun x =>
        let body := packBytes ((upto 8).map fun i => (4 * i, 4, (x.2.reg (8 + i)).toNat))
        (x.1.setCtx g { x.2 with after := .done }).groomPost g x.2.rcd.owner x.2.rcd.rring ty body)
    | .commitSleep us => .next (done fun x => x.1.setCtx g { x.2 with after := .asleep, tmp := [x.1.now, us] })

/-- The sleep time has elapsed: the routine resumes, or ends if an abort waits for it. -/
def execSleepEnd (g : Fin 8) (s : State) : Result :=
  match (s.groom g).ctx with
  | none => .next s
  | some c =>
    if c.after ≠ .asleep then .next s
    else
      let s1 := { s with now := max s.now (c.tmp.getD 0 0 + 3200 * c.tmp.getD 1 0) }
      .next (if c.abort then s1.faultEnd g c svAborted else s1.setCtx g { c with after := .no, tmp := [] })

/-- A preempted context is restored on its groom (R490); one whose abort waits ends without resuming (R508). -/
def execContextResume (g : Fin 8) (i : Fin 4) (s : State) : Result :=
  let x := s.groom g
  if s.groomIdle g = false then .next s
  else
    match x.saved[i.val]? with
    | none => .next s
    | some (c, l) =>
      let c := c.unpause s.now
      let l := l.map fun h => { h with ctx := h.ctx.unpause s.now }
      let s1 := s.setGroom g { x with ctx := some c, chains := l, saved := x.saved.eraseIdx i.val }
      .next (if c.abort then s1.faultEnd g c svAborted else s1)

/-- The watchdog of a groom expires: a commit in progress completes, the record, the records whose lists enclose it and the
preempted ones end with WATCHDOG, and the groom and its page are reset (R497, R508). -/
def execGroomWatchdog (g : Fin 8) (s : State) : Result :=
  match (s.groom g).ctx with
  | none => .next s
  | some c =>
    let x := match c.after with
      | .commit | .commitEnd _ | .commitPost _ | .commitSleep _ => s.commit g c
      | _ => (s, { c with staged := [] })
    let s1 := (x.2 :: (x.1.groom g).chains.map Chain.ctx).foldl (fun (y : State) d => y.endOne g d svWatchdog) x.1
    let s2 := (s1.sat .grm 0 Off.grmWdtCnt 0 32 1).event .grm 0 2
    let s3 := (s2.logOffer logGroomWdt PageKind.groom.typeCode g (c.pc % 2 ^ 15)).countReset rstGroomWdt
    .next (s3.groomReset g)

/-! ### Records -/

/-- A record whose OP lies above 0x5F: taken, and ended at a check (R479). -/
def execBadOp (g : Fin 8) (ring : Option (Fin 32768)) (s : State) : Result :=
  match s.take g (ring.map Fin.val) (fun _ => .clean) (fun r => !r.cancel && decide (0x5F < r.op)) with
  | .nothing => .next s
  | .listEnds s1 => .next s1
  | .record s1 r => .next (s1.beginRecord g r)

/-- Indices of the waiting records of an IN ring that carry a TAG, and are not cancelled yet. -/
def State.waitingTags (s : State) (n tag : Nat) : List Record :=
  ((upto (s.ringFill n)).map fun k => (s.cidx n + k) % 2 ^ 32).filterMap fun i =>
    let a := s.ringBase n + 32 * (i % s.ringCap n)
    let e := s.hayGet (s.ringOwner n) a 32
    if e % 256 = 0x0A ∧ s.poisoned a 32 = false ∧ nfld e 48 16 = tag ∧ (s.ring n).cancelled.contains i = false then
      some (recordOf (s.ringOwner n) n i e)
    else none

/-- Remove a waiting record: its result is CANCELLED, unless its RRING is not a ring of its owner (R479, R494). -/
def State.cancelOne (s : State) (g : Nat) (r : Record) : State :=
  let s1 := s.setRing r.ring { s.ring r.ring with cancelled := (s.ring r.ring).cancelled ++ [r.index] }
  if s.ringOwner r.rring = r.owner then s1.endOne g (r.start 0 0 s1.now) svCancelled
  else s1.sat .grm 0 (Off.grmBadrec (ownerIx r.owner)) 0 16 1

/-- A routine that a CANCEL of `o` and `tag` aborts. -/
def abortTag (o tag : Nat) (c : Ctx) : Ctx := if c.rcd.owner = o ∧ c.rcd.tag = tag then { c with abort := true } else c

/-- Every routine of an owner with a TAG is to be aborted at its next yield point (R494). -/
def State.abortTags (s : State) (o tag : Nat) : State :=
  let f := abortTag o tag
  let fs := fun (l : List Chain) => l.map fun h => { h with ctx := f h.ctx }
  s.grooms.foldl (fun x e =>
    let y := x.groom e.1
    x.setGroom e.1 { ctx := y.ctx.map f, saved := y.saved.map fun d => (f d.1, fs d.2), chains := fs y.chains }) s

/-- A CANCEL record: OP is ignored, and of the checks of R479 those of RRING and of M11 apply (R477, R494). -/
def execCancelRecord (g : Fin 8) (ring : Option (Fin 32768)) (s : State) : Result :=
  match s.take g (ring.map Fin.val) (fun _ => .clean) (fun r => r.cancel) with
  | .nothing => .next s
  | .listEnds s1 => .next s1
  | .record s1 r =>
    let c := r.start 0 s1.cluster.serial s1.now
    let chains := (s1.groom g).chains
    if s1.ringOwner r.rring ≠ r.owner then
      .next ((s1.sat .grm 0 (Off.grmBadrec (ownerIx r.owner)) 0 16 1).settle g svAccess chains)
    else if s1.mode.dev = .m11 then .next (s1.endRecord g c svMode)
    else
      let rings := s1.enabledRings.filter fun n => s1.ringIn n && s1.ringOwner n == r.owner
      let gone := (rings.map fun n => s1.waitingTags n r.tag).flatten
      let hit := (s1.ctxs.filter fun d => d.rcd.owner == r.owner && d.rcd.tag == r.tag).length
      let s2 := (gone.foldl (fun (x : State) d => x.cancelOne g d) s1).abortTags r.owner r.tag
      let s3 := rings.foldl (fun (x : State) n => x.passCancelled n (x.ring n).cancelled.length) s2
      let st := if gone.isEmpty ∧ hit = 0 then svBadParam else svOk
      .next (s3.endRecord g { c with vs := [word gone.length, word hit] } st)

/-- The read of the first entry of an IN ring: one that is no service record, or that reads with an uncorrectable error, is
skipped and counted (R527, R553); of a record the read alone is done here, with what it finds (R551). -/
def execBadent (n : Fin 32768) (ecc : Ecc) (s : State) : Result :=
  match s.headEntry n with
  | none => .next s
  | some (a, e) =>
    let x := s.eccRead a 32 reqRing ecc
    if e % 256 = 0x0A ∧ x.2 = false then .next x.1
    else
      let s1 := x.1.ringSet n Off.rngStat 16 8 (satAdd 255 (x.1.ringF n Off.rngStat 16 8) 1)
      .next (s1.takeHead n)

/-- The first entry of groom `g` that a ring holds, and the entries without it. -/
def dropGroom (g : Nat) : List Held → List Held
  | [] => []
  | h :: t =>
    match h.prod with
    | .groom g' _ => if g' = g then t else h :: dropGroom g t
    | _ => h :: dropGroom g t

/-- A groom's entry held under back-pressure is dropped after 100 µs, and counted (R496, R525). -/
def execBackpDrop (g : Fin 8) (s : State) : Result :=
  let mine := fun (h : Held) => match h.prod with | .groom g' _ => g' == g.val | _ => false
  match s.rings.find? fun e => e.2.held.any mine with
  | none => .next s
  | some (n, x) =>
    let p := ((x.held.find? mine).map Held.prod).getD (.groom g 15)
    let s1 := s.setRing n { s.ring n with held := dropGroom g x.held }
    .next (((s1.ringLose n).countLoss p).ringFlags n)

/-! ### The cluster -/

/-- Bit `g` of GRM_CTRL.EN written, its other bits unchanged (R508, R510). -/
def execGroomEnable (r : Requester) (g : Fin 8) (en : Bool) (s : State) : Result :=
  .next (s.write32 r (PageKind.base .grm 0 + Off.grmCtrl) (putBit (s.rd .grm 0 Off.grmCtrl) g en))

/-- Use of each owner over the last 10 ms, in percent: pens 0 to 7, then the supervisor (R510). -/
def execGrmUsedUpdate (used : List (Fin 101)) (s : State) : Result :=
  .next ((enumerate (used.take 9)).foldl (fun x e => x.wf .grm 0 (Off.grmUsed e.1) 0 7 e.2.val) s)

/-- The entries of SV_TIMER that are due are posted (R485); a ring that cannot accept drops them. -/
def State.postTimers (s : State) : State :=
  let due := s.cluster.timers.filter fun t => decide (t.due ≤ s.now)
  let rest := s.cluster.timers.filter fun t => decide (s.now < t.due)
  if due.isEmpty then s
  else
    due.foldl (fun (x : State) t => x.post t.ring (.groom t.groom t.owner) false 0x84 (packBytes [(4, 6, x.tick)]))
      { s with cluster := { s.cluster with timers := rest } }

/-- One tick of the timing base passes with no command waiting (assumption 5). -/
def State.idleTick (s : State) : State := { s with now := s.now + 1 }.postTimers

end Sys2Proof.Machine
end

