-- ==== Sys2Proof/Machine/Dispatch.lean ====
section
/-!
DEFINITION. One arm for every command of the opcode table: its meaning, named in full.
-/

namespace Sys2Proof.Machine

def exec (i : Instr) (s : State) : Host.Outcome State Fault Refusal :=
  match i with
  | .vbakPresent => Sys2Proof.Machine.execVbakPresent s
  | .lanternPor => Sys2Proof.Machine.execLanternPor s
  | .vinInRange => Sys2Proof.Machine.execVinInRange s
  | .vinLost t => Sys2Proof.Machine.execVinLost t s
  | .resetNAssert => Sys2Proof.Machine.execResetNAssert s
  | .resetNRelease => Sys2Proof.Machine.execResetNRelease s
  | .perstNAssert => Sys2Proof.Machine.execPerstNAssert s
  | .perstNRelease => Sys2Proof.Machine.execPerstNRelease s
  | .islandLock isl => Sys2Proof.Machine.execIslandLock isl s
  | .islandLockFail isl => Sys2Proof.Machine.execIslandLockFail isl s
  | .optionLoadDone bad => Sys2Proof.Machine.execOptionLoadDone bad s
  | .bootDone o => Sys2Proof.Machine.execBootDone o s
  | .autoEpochArm => Sys2Proof.Machine.execAutoEpochArm s
  | .trainingDone p ok => Sys2Proof.Machine.execTrainingDone p ok s
  | .tackRoomLoadDone o => Sys2Proof.Machine.execTackRoomLoadDone o s
  | .linkUp k gen width => Sys2Proof.Machine.execLinkUp k gen width s
  | .linkDown k => Sys2Proof.Machine.execLinkDown k s
  | .hotReset k => Sys2Proof.Machine.execHotReset k s
  | .flr f => Sys2Proof.Machine.execFlr f s
  | .configRequest f q => Sys2Proof.Machine.execConfigRequest f q s
  | .unsupportedRequest => Sys2Proof.Machine.execUnsupportedRequest s
  | .bar4Access f a data n ecc => Sys2Proof.Machine.execBar4Access f a data n ecc s
  | .msixUnmask f v mask => Sys2Proof.Machine.execMsixUnmask f v mask s
  | .fnmapWrite r f v => Sys2Proof.Machine.execFnmapWrite r f v s
  | .vecWrite r f v => Sys2Proof.Machine.execVecWrite r f v s
  | .registerWrite r a w v => Sys2Proof.Machine.execRegisterWrite r a w v s
  | .unreachableAccess r a w data => Sys2Proof.Machine.execUnreachableAccess r a w data s
  | .rsSnapshotRead r a w => Sys2Proof.Machine.execRsSnapshotRead r a w s
  | .wideWriteCommit r a v => Sys2Proof.Machine.execWideWriteCommit r a v s
  | .pageEnable r p en => Sys2Proof.Machine.execPageEnable r p en s
  | .pageSoftReset r p => Sys2Proof.Machine.execPageSoftReset r p s
  | .pageSoftResetDone p => Sys2Proof.Machine.execPageSoftResetDone p s
  | .pageLockWrite r p v => Sys2Proof.Machine.execPageLockWrite r p v s
  | .pageOwnerWrite r p v => Sys2Proof.Machine.execPageOwnerWrite r p v s
  | .modCmdM5 r confirm => Sys2Proof.Machine.execModCmdM5 r confirm s
  | .modCmdM10 r confirm => Sys2Proof.Machine.execModCmdM10 r confirm s
  | .modCmdM4 r confirm => Sys2Proof.Machine.execModCmdM4 r confirm s
  | .modCmdM2 r confirm clock shield => Sys2Proof.Machine.execModCmdM2 r confirm clock shield s
  | .modPcmdM4 r d confirm => Sys2Proof.Machine.execModPcmdM4 r d confirm s
  | .modPcmdM6 r d confirm => Sys2Proof.Machine.execModPcmdM6 r d confirm s
  | .modPcmdM7 r d confirm => Sys2Proof.Machine.execModPcmdM7 r d confirm s
  | .modPcmdM8 r d confirm => Sys2Proof.Machine.execModPcmdM8 r d confirm s
  | .modPcmdM9 r d confirm => Sys2Proof.Machine.execModPcmdM9 r d confirm s
  | .deviceTransitionDone => Sys2Proof.Machine.execDeviceTransitionDone s
  | .domainTransitionDone d => Sys2Proof.Machine.execDomainTransitionDone d s
  | .wakeLockTimeout b => Sys2Proof.Machine.execWakeLockTimeout b s
  | .evInEdge k rise => Sys2Proof.Machine.execEvInEdge k rise s
  | .channelPark r st mask => Sys2Proof.Machine.execChannelPark r st mask s
  | .channelUnpark r st mask => Sys2Proof.Machine.execChannelUnpark r st mask s
  | .parkComplete st c => Sys2Proof.Machine.execParkComplete st c s
  | .assignWrite r st c v => Sys2Proof.Machine.execAssignWrite r st c v s
  | .loadStrobe r st ldlvEn => Sys2Proof.Machine.execLoadStrobe r st ldlvEn s
  | .settlingEnd st => Sys2Proof.Machine.execSettlingEnd st s
  | .broadcastPreload r st v => Sys2Proof.Machine.execBroadcastPreload r st v s
  | .driverShort st c => Sys2Proof.Machine.execDriverShort st c s
  | .failCountClear r st => Sys2Proof.Machine.execFailCountClear r st s
  | .switchBatchGo r st hot => Sys2Proof.Machine.execSwitchBatchGo r st hot s
  | .switchBatchResume st => Sys2Proof.Machine.execSwitchBatchResume st s
  | .switchBatchDone st => Sys2Proof.Machine.execSwitchBatchDone st s
  | .switchFault st n => Sys2Proof.Machine.execSwitchFault st n s
  | .wearWarnWrite r st v => Sys2Proof.Machine.execWearWarnWrite r st v s
  | .epochArm r mode => Sys2Proof.Machine.execEpochArm r mode s
  | .epochSet => Sys2Proof.Machine.execEpochSet s
  | .syncInPulse margin => Sys2Proof.Machine.execSyncInPulse margin s
  | .timingSetWrite r q reg v => Sys2Proof.Machine.execTimingSetWrite r q reg v s
  | .timingSetCheckDone q => Sys2Proof.Machine.execTimingSetCheckDone q s
  | .lateEdgeFire q ch h l => Sys2Proof.Machine.execLateEdgeFire q ch h l s
  | .seqStart r q => Sys2Proof.Machine.execSeqStart r q s
  | .seqStop r q => Sys2Proof.Machine.execSeqStop r q s
  | .seqAbort r q => Sys2Proof.Machine.execSeqAbort r q s
  | .vector0Begin q => Sys2Proof.Machine.execVector0Begin q s
  | .cont q obs => Sys2Proof.Machine.execCont q obs s
  | .rpt q obs => Sys2Proof.Machine.execRpt q obs s
  | .loop q obs => Sys2Proof.Machine.execLoop q obs s
  | .endl q obs => Sys2Proof.Machine.execEndl q obs s
  | .jmp q obs => Sys2Proof.Machine.execJmp q obs s
  | .call q obs => Sys2Proof.Machine.execCall q obs s
  | .ret q obs => Sys2Proof.Machine.execRet q obs s
  | .brf q obs => Sys2Proof.Machine.execBrf q obs s
  | .bre q obs => Sys2Proof.Machine.execBre q obs s
  | .halt q obs => Sys2Proof.Machine.execHalt q obs s
  | .ldlv q obs => Sys2Proof.Machine.execLdlv q obs s
  | .trig q obs => Sys2Proof.Machine.execTrig q obs s
  | .calgap q obs => Sys2Proof.Machine.execCalgap q obs s
  | .mark q obs => Sys2Proof.Machine.execMark q obs s
  | .pif q obs => Sys2Proof.Machine.execPif q obs s
  | .pelse q obs => Sys2Proof.Machine.execPelse q obs s
  | .pjoin q obs => Sys2Proof.Machine.execPjoin q obs s
  | .swhile q obs => Sys2Proof.Machine.execSwhile q obs s
  | .send q obs => Sys2Proof.Machine.execSend q obs s
  | .holdEnd q t => Sys2Proof.Machine.execHoldEnd q t s
  | .drainComplete q => Sys2Proof.Machine.execDrainComplete q s
  | .snapshotPost q => Sys2Proof.Machine.execSnapshotPost q s
  | .captureRecordWritten => Sys2Proof.Machine.execCaptureRecordWritten s
  | .captureFlushed q => Sys2Proof.Machine.execCaptureFlushed q s
  | .startAddrWrite r q addr => Sys2Proof.Machine.execStartAddrWrite r q addr s
  | .startWindowLoaded q => Sys2Proof.Machine.execStartWindowLoaded q s
  | .prime r q => Sys2Proof.Machine.execPrime r q s
  | .primeDone q bad => Sys2Proof.Machine.execPrimeDone q bad s
  | .sdirWrite r q which v => Sys2Proof.Machine.execSdirWrite r q which v s
  | .granuleResident q g ecc => Sys2Proof.Machine.execGranuleResident q g ecc s
  | .timArm r st c => Sys2Proof.Machine.execTimArm r st c s
  | .vernierArm r st => Sys2Proof.Machine.execVernierArm r st s
  | .timStop r st c => Sys2Proof.Machine.execTimStop r st c s
  | .timEvent st c t strobe => Sys2Proof.Machine.execTimEvent st c t strobe s
  | .vernierEvent st t => Sys2Proof.Machine.execVernierEvent st t s
  | .tdrLaunch st c rt => Sys2Proof.Machine.execTdrLaunch st c rt s
  | .timResultStored st c => Sys2Proof.Machine.execTimResultStored st c s
  | .timEntryPost st c => Sys2Proof.Machine.execTimEntryPost st c s
  | .timFifoRead r st c => Sys2Proof.Machine.execTimFifoRead r st c s
  | .vernierFifoRead r st => Sys2Proof.Machine.execVernierFifoRead r st s
  | .pmuOutputEnable r st u => Sys2Proof.Machine.execPmuOutputEnable r st u s
  | .pmuOutputDisable r st u => Sys2Proof.Machine.execPmuOutputDisable r st u s
  | .pmuModeWrite r st u fi => Sys2Proof.Machine.execPmuModeWrite r st u fi s
  | .pmuRangeWrite r st u range => Sys2Proof.Machine.execPmuRangeWrite r st u range s
  | .pmuRangeDone st u => Sys2Proof.Machine.execPmuRangeDone st u s
  | .pmuForceWrite r st u code => Sys2Proof.Machine.execPmuForceWrite r st u code s
  | .pmuClampWrite r st u high code => Sys2Proof.Machine.execPmuClampWrite r st u high code s
  | .pmuIlim st u => Sys2Proof.Machine.execPmuIlim st u s
  | .pmuShut st u => Sys2Proof.Machine.execPmuShut st u s
  | .pmuVclamp st u => Sys2Proof.Machine.execPmuVclamp st u s
  | .senseOpen st u => Sys2Proof.Machine.execSenseOpen st u s
  | .pmuGangWrite r st en => Sys2Proof.Machine.execPmuGangWrite r st en s
  | .waveUpdate => Sys2Proof.Machine.execWaveUpdate s
  | .waveTableWrite r st v => Sys2Proof.Machine.execWaveTableWrite r st v s
  | .waveTableDefault r st u => Sys2Proof.Machine.execWaveTableDefault r st u s
  | .waveTableDefaultDone st u => Sys2Proof.Machine.execWaveTableDefaultDone st u s
  | .cnvArm r st u => Sys2Proof.Machine.execCnvArm r st u s
  | .cnvStop r st u => Sys2Proof.Machine.execCnvStop r st u s
  | .cnvTickTrigger st => Sys2Proof.Machine.execCnvTickTrigger st s
  | .apertureStart st u => Sys2Proof.Machine.execApertureStart st u s
  | .apertureEnd st u code sat neg => Sys2Proof.Machine.execApertureEnd st u code sat neg s
  | .cnvResultStored st u => Sys2Proof.Machine.execCnvResultStored st u s
  | .mainsCrossing per => Sys2Proof.Machine.execMainsCrossing per s
  | .mainsLost => Sys2Proof.Machine.execMainsLost s
  | .refEnable r b en => Sys2Proof.Machine.execRefEnable r b en s
  | .refReady b => Sys2Proof.Machine.execRefReady b s
  | .acqArm r b => Sys2Proof.Machine.execAcqArm r b s
  | .acqStop r b => Sys2Proof.Machine.execAcqStop r b s
  | .acqForce r b => Sys2Proof.Machine.execAcqForce r b s
  | .acqSlotEnd b => Sys2Proof.Machine.execAcqSlotEnd b s
  | .rearmEnd b => Sys2Proof.Machine.execRearmEnd b s
  | .wchCfgWrite r st c v => Sys2Proof.Machine.execWchCfgWrite r st c v s
  | .wchThrWrite r st c v => Sys2Proof.Machine.execWchThrWrite r st c v s
  | .wchSampleTick st vs t strobe => Sys2Proof.Machine.execWchSampleTick st vs t strobe s
  | .wchResolve st ix v t strobe => Sys2Proof.Machine.execWchResolve st ix v t strobe s
  | .wchCrossing st ix v t strobe => Sys2Proof.Machine.execWchCrossing st ix v t strobe s
  | .wchRelease st ix v => Sys2Proof.Machine.execWchRelease st ix v s
  | .tripNRelease => Sys2Proof.Machine.execTripNRelease s
  | .farrierRun r => Sys2Proof.Machine.execFarrierRun r s
  | .farrierAbort r => Sys2Proof.Machine.execFarrierAbort r s
  | .farrierStore r => Sys2Proof.Machine.execFarrierStore r s
  | .farrierStoreDone code => Sys2Proof.Machine.execFarrierStoreDone code s
  | .farrierCopyDone => Sys2Proof.Machine.execFarrierCopyDone s
  | .farrierStepStart st g inst mask src t => Sys2Proof.Machine.execFarrierStepStart st g inst mask src t s
  | .farrierStepEnd st ok => Sys2Proof.Machine.execFarrierStepEnd st ok s
  | .farrierSwitchover t => Sys2Proof.Machine.execFarrierSwitchover t s
  | .swLate => Sys2Proof.Machine.execSwLate s
  | .farrierWindowArm r v => Sys2Proof.Machine.execFarrierWindowArm r v s
  | .farrierWindowOpen => Sys2Proof.Machine.execFarrierWindowOpen s
  | .farrierWindowEnd => Sys2Proof.Machine.execFarrierWindowEnd s
  | .indexNChange high => Sys2Proof.Machine.execIndexNChange high s
  | .svNop g ring p => Sys2Proof.Machine.execSvNop g ring p s
  | .svRegRead g ring p => Sys2Proof.Machine.execSvRegRead g ring p s
  | .svRegWrite g ring p => Sys2Proof.Machine.execSvRegWrite g ring p s
  | .svRegRmw g ring p => Sys2Proof.Machine.execSvRegRmw g ring p s
  | .svRegPoll g ring p => Sys2Proof.Machine.execSvRegPoll g ring p s
  | .svRegBatch g ring p => Sys2Proof.Machine.execSvRegBatch g ring p s
  | .svHayCopy g ring p => Sys2Proof.Machine.execSvHayCopy g ring p s
  | .svHayFill g ring p => Sys2Proof.Machine.execSvHayFill g ring p s
  | .svHayCrc g ring p => Sys2Proof.Machine.execSvHayCrc g ring p s
  | .svHayCompare g ring p => Sys2Proof.Machine.execSvHayCompare g ring p s
  | .svDelay g ring p => Sys2Proof.Machine.execSvDelay g ring p s
  | .svWaitEvent g ring p => Sys2Proof.Machine.execSvWaitEvent g ring p s
  | .svSeqRun g ring p => Sys2Proof.Machine.execSvSeqRun g ring p s
  | .svSeqBatch g ring p => Sys2Proof.Machine.execSvSeqBatch g ring p s
  | .svLevels g ring p => Sys2Proof.Machine.execSvLevels g ring p s
  | .svSwitch g ring p => Sys2Proof.Machine.execSvSwitch g ring p s
  | .svContact g ring p => Sys2Proof.Machine.execSvContact g ring p s
  | .svTdr g ring p => Sys2Proof.Machine.execSvTdr g ring p s
  | .svShorts g ring p => Sys2Proof.Machine.execSvShorts g ring p s
  | .svKelvin g ring p => Sys2Proof.Machine.execSvKelvin g ring p s
  | .svContactPmu g ring p => Sys2Proof.Machine.execSvContactPmu g ring p s
  | .svOpenMap g ring p => Sys2Proof.Machine.execSvOpenMap g ring p s
  | .svContactReport g ring p => Sys2Proof.Machine.execSvContactReport g ring p s
  | .svIndexWait g ring p => Sys2Proof.Machine.execSvIndexWait g ring p s
  | .svForceMeasure g ring p => Sys2Proof.Machine.execSvForceMeasure g ring p s
  | .svSweep g ring p => Sys2Proof.Machine.execSvSweep g ring p s
  | .svSweepLog g ring p => Sys2Proof.Machine.execSvSweepLog g ring p s
  | .svLeakage g ring p => Sys2Proof.Machine.execSvLeakage g ring p s
  | .svVohIoh g ring p => Sys2Proof.Machine.execSvVohIoh g ring p s
  | .svVolIol g ring p => Sys2Proof.Machine.execSvVolIol g ring p s
  | .svIddq g ring p => Sys2Proof.Machine.execSvIddq g ring p s
  | .svSupplyRamp g ring p => Sys2Proof.Machine.execSvSupplyRamp g ring p s
  | .svGangSupply g ring p => Sys2Proof.Machine.execSvGangSupply g ring p s
  | .svWaveStart g ring p => Sys2Proof.Machine.execSvWaveStart g ring p s
  | .svWaveStop g ring p => Sys2Proof.Machine.execSvWaveStop g ring p s
  | .svCnvBatch g ring p => Sys2Proof.Machine.execSvCnvBatch g ring p s
  | .svAcqRecord g ring p => Sys2Proof.Machine.execSvAcqRecord g ring p s
  | .svWatchSetup g ring p => Sys2Proof.Machine.execSvWatchSetup g ring p s
  | .svWatchTest g ring p => Sys2Proof.Machine.execSvWatchTest g ring p s
  | .svPmuSafe g ring p => Sys2Proof.Machine.execSvPmuSafe g ring p s
  | .svTimRun g ring p => Sys2Proof.Machine.execSvTimRun g ring p s
  | .svPeriod g ring p => Sys2Proof.Machine.execSvPeriod g ring p s
  | .svJitter g ring p => Sys2Proof.Machine.execSvJitter g ring p s
  | .svSkew g ring p => Sys2Proof.Machine.execSvSkew g ring p s
  | .svDelayMeas g ring p => Sys2Proof.Machine.execSvDelayMeas g ring p s
  | .svFreq g ring p => Sys2Proof.Machine.execSvFreq g ring p s
  | .svVernierDump g ring p => Sys2Proof.Machine.execSvVernierDump g ring p s
  | .svStampReduce g ring p => Sys2Proof.Machine.execSvStampReduce g ring p s
  | .svStats g ring p => Sys2Proof.Machine.execSvStats g ring p s
  | .svHistogram g ring p => Sys2Proof.Machine.execSvHistogram g ring p s
  | .svLimits g ring p => Sys2Proof.Machine.execSvLimits g ring p s
  | .svBin g ring p => Sys2Proof.Machine.execSvBin g ring p s
  | .svBinMap g ring p => Sys2Proof.Machine.execSvBinMap g ring p s
  | .svSiteSummary g ring p => Sys2Proof.Machine.execSvSiteSummary g ring p s
  | .svMerge g ring p => Sys2Proof.Machine.execSvMerge g ring p s
  | .svOutlier g ring p => Sys2Proof.Machine.execSvOutlier g ring p s
  | .svCapScan g ring p => Sys2Proof.Machine.execSvCapScan g ring p s
  | .svBitmap g ring p => Sys2Proof.Machine.execSvBitmap g ring p s
  | .svRepair g ring p => Sys2Proof.Machine.execSvRepair g ring p s
  | .svRepairVerify g ring p => Sys2Proof.Machine.execSvRepairVerify g ring p s
  | .svWaferMap g ring p => Sys2Proof.Machine.execSvWaferMap g ring p s
  | .svYield g ring p => Sys2Proof.Machine.execSvYield g ring p s
  | .svSort g ring p => Sys2Proof.Machine.execSvSort g ring p s
  | .svFailCount g ring p => Sys2Proof.Machine.execSvFailCount g ring p s
  | .svCalItem g ring p => Sys2Proof.Machine.execSvCalItem g ring p s
  | .svCalStore g ring p => Sys2Proof.Machine.execSvCalStore g ring p s
  | .svWearReport g ring p => Sys2Proof.Machine.execSvWearReport g ring p s
  | .svTempReport g ring p => Sys2Proof.Machine.execSvTempReport g ring p s
  | .svLogRead g ring p => Sys2Proof.Machine.execSvLogRead g ring p s
  | .svSelftest g ring p => Sys2Proof.Machine.execSvSelftest g ring p s
  | .svHbmScrub g ring p => Sys2Proof.Machine.execSvHbmScrub g ring p s
  | .svRomCheck g ring p => Sys2Proof.Machine.execSvRomCheck g ring p s
  | .svChain g ring p => Sys2Proof.Machine.execSvChain g ring p s
  | .svBarrier g ring p => Sys2Proof.Machine.execSvBarrier g ring p s
  | .svIfStatus g ring p => Sys2Proof.Machine.execSvIfStatus g ring p s
  | .svSignal g ring p => Sys2Proof.Machine.execSvSignal g ring p s
  | .svTimer g ring p => Sys2Proof.Machine.execSvTimer g ring p s
  | .svCounter g ring p => Sys2Proof.Machine.execSvCounter g ring p s
  | .svMark g ring p => Sys2Proof.Machine.execSvMark g ring p s
  | .svFlush g ring p => Sys2Proof.Machine.execSvFlush g ring p s
  | .svPatch g ring p => Sys2Proof.Machine.execSvPatch g ring p s
  | .cancelRecord g ring => Sys2Proof.Machine.execCancelRecord g ring s
  | .alu g fetch => Sys2Proof.Machine.execAlu g fetch s
  | .ldi g fetch => Sys2Proof.Machine.execLdi g fetch s
  | .ld g fetch => Sys2Proof.Machine.execLd g fetch s
  | .st g fetch => Sys2Proof.Machine.execSt g fetch s
  | .hld g fetch ecc => Sys2Proof.Machine.execHld g fetch ecc s
  | .hst g fetch ecc => Sys2Proof.Machine.execHst g fetch ecc s
  | .seta g fetch => Sys2Proof.Machine.execSeta g fetch s
  | .br g fetch => Sys2Proof.Machine.execBr g fetch s
  | .microCall g fetch => Sys2Proof.Machine.execMicroCall g fetch s
  | .microRet g fetch => Sys2Proof.Machine.execMicroRet g fetch s
  | .yield g fetch => Sys2Proof.Machine.execYield g fetch s
  | .microEnd g fetch => Sys2Proof.Machine.execMicroEnd g fetch s
  | .microPost g fetch => Sys2Proof.Machine.execMicroPost g fetch s
  | .microTick g fetch => Sys2Proof.Machine.execMicroTick g fetch s
  | .sleep g fetch => Sys2Proof.Machine.execSleep g fetch s
  | .sleepEnd g => Sys2Proof.Machine.execSleepEnd g s
  | .commitDone g => Sys2Proof.Machine.execCommitDone g s
  | .contextResume g k => Sys2Proof.Machine.execContextResume g k s
  | .groomWatchdog g => Sys2Proof.Machine.execGroomWatchdog g s
  | .groomEnable r g en => Sys2Proof.Machine.execGroomEnable r g en s
  | .ringAssign r owner => Sys2Proof.Machine.execRingAssign r owner s
  | .ringEnable r n => Sys2Proof.Machine.execRingEnable r n s
  | .ringDisable r n => Sys2Proof.Machine.execRingDisable r n s
  | .doorbell f n v aligned => Sys2Proof.Machine.execDoorbell f n v aligned s
  | .backpAccept n => Sys2Proof.Machine.execBackpAccept n s
  | .ringTimer n => Sys2Proof.Machine.execRingTimer n s
  | .remap r => Sys2Proof.Machine.execRemap r s
  | .remapDone => Sys2Proof.Machine.execRemapDone s
  | .rateRequest r p => Sys2Proof.Machine.execRateRequest r p s
  | .heldRateStart => Sys2Proof.Machine.execHeldRateStart s
  | .rateSwitchDone => Sys2Proof.Machine.execRateSwitchDone s
  | .refreshDue pc c => Sys2Proof.Machine.execRefreshDue pc c s
  | .trackingStep on => Sys2Proof.Machine.execTrackingStep on s
  | .hbmTempUpdate t => Sys2Proof.Machine.execHbmTempUpdate t s
  | .rowRepair r idx => Sys2Proof.Machine.execRowRepair r idx s
  | .rowRepairDone => Sys2Proof.Machine.execRowRepairDone s
  | .regionWrite r v => Sys2Proof.Machine.execRegionWrite r v s
  | .penReset r pens => Sys2Proof.Machine.execPenReset r pens s
  | .penResetDone p => Sys2Proof.Machine.execPenResetDone p s
  | .svnAdvance r target confirm => Sys2Proof.Machine.execSvnAdvance r target confirm s
  | .svnAdvanceDone ok => Sys2Proof.Machine.execSvnAdvanceDone ok s
  | .debugNonce r => Sys2Proof.Machine.execDebugNonce r s
  | .debugSubmit r => Sys2Proof.Machine.execDebugSubmit r s
  | .debugResult sig => Sys2Proof.Machine.execDebugResult sig s
  | .tamperEvent src => Sys2Proof.Machine.execTamperEvent src s
  | .rd idx n => Sys2Proof.Machine.execRd idx n s
  | .wr idx ws => Sys2Proof.Machine.execWr idx ws s
  | .fetch idx n => Sys2Proof.Machine.execFetch idx n s
  | .win idx ws => Sys2Proof.Machine.execWin idx ws s
  | .frameReject count => Sys2Proof.Machine.execFrameReject count s
  | .wrCommitComplete => Sys2Proof.Machine.execWrCommitComplete s
  | .fetchComplete => Sys2Proof.Machine.execFetchComplete s
  | .masterTransfer r v => Sys2Proof.Machine.execMasterTransfer r v s
  | .masterTransferDone rx => Sys2Proof.Machine.execMasterTransferDone rx s
  | .multiMasterFault n rx => Sys2Proof.Machine.execMultiMasterFault n rx s
  | .wvnSlot v => Sys2Proof.Machine.execWvnSlot v s
  | .thermEnforce => Sys2Proof.Machine.execThermEnforce s
  | .forcedHold q => Sys2Proof.Machine.execForcedHold q s
  | .clockLoss c => Sys2Proof.Machine.execClockLoss c s
  | .logEntryWrite t => Sys2Proof.Machine.execLogEntryWrite t s
  | .logFreeze t => Sys2Proof.Machine.execLogFreeze t s
  | .tickMark => Sys2Proof.Machine.execTickMark s
  | .oscFail => Sys2Proof.Machine.execOscFail s
  | .thaw r => Sys2Proof.Machine.execThaw r s
  | .clear r => Sys2Proof.Machine.execClear r s
  | .hostMark r data => Sys2Proof.Machine.execHostMark r data s
  | .extest t => Sys2Proof.Machine.execExtest t s
  | .linkTrainingTimeout k => Sys2Proof.Machine.execLinkTrainingTimeout k s
  | .badOp g ring => Sys2Proof.Machine.execBadOp g ring s
  | .badent n ecc => Sys2Proof.Machine.execBadent n ecc s
  | .backpDrop g => Sys2Proof.Machine.execBackpDrop g s
  | .grmUsedUpdate used => Sys2Proof.Machine.execGrmUsedUpdate used s

end Sys2Proof.Machine
end

