-- ==== Sys2Proof/WellFormed.lean ====
section
/-!
DEFINITION. Which commands are well formed: the operands that the types of Syntax do not already keep in range.
-/

namespace Sys2Proof

/-- A value fits an access of the width; a value of an access of any other width is not looked at. -/
def Width.fits (w : Width) (v : BitVec 64) : Bool :=
  match w with
  | .w32 => decide (v.toNat < 2 ^ 32)
  | .w64 => true
  | .other => true

/-- What stands in the flash lies within its 32 address bits (R620). -/
def BootRead.wf (o : BootRead) : Bool := o.flash.all fun p => decide (p.1 + p.2.length ≤ 2 ^ 32)

/-- No channel is sampled twice at one instant. -/
def samplesOk (obs : List Sample) : Bool :=
  match obs with
  | [] => true
  | x :: t => t.all (fun y => y.ch != x.ch || y.inst != x.inst) && samplesOk t

/-- The operands of a command lie in their ranges. -/
def Instr.wf (c : Instr) : Bool :=
  match c with
  | .vbakPresent => true
  | .lanternPor => true
  | .vinInRange => true
  | .vinLost _ => true
  | .resetNAssert => true
  | .resetNRelease => true
  | .perstNAssert => true
  | .perstNRelease => true
  | .islandLock _ => true
  | .islandLockFail _ => true
  | .optionLoadDone _ => true
  | .bootDone o => o.wf
  | .autoEpochArm => true
  | .trainingDone _ _ => true
  | .tackRoomLoadDone _ => true
  | .linkUp _ gen width => decide (1 ≤ gen.val) && decide (gen.val ≤ 5) && [1, 2, 4, 8].contains width.val
  | .linkDown _ => true
  | .hotReset _ => true
  | .flr _ => true
  | .configRequest _ _ => true
  | .unsupportedRequest => true
  | .bar4Access _ _ data n _ => decide (1 ≤ n.val) && decide (n.val ≤ 512) && data.all fun bs => bs.length == n.val
  | .msixUnmask _ _ _ => true
  | .fnmapWrite _ _ _ => true
  | .vecWrite _ _ _ => true
  | .registerWrite _ _ w v => w.fits v
  | .unreachableAccess _ _ w data => data.all w.fits
  | .rsSnapshotRead _ _ _ => true
  | .wideWriteCommit _ _ _ => true
  | .pageEnable _ _ _ => true
  | .pageSoftReset _ _ => true
  | .pageSoftResetDone _ => true
  | .pageLockWrite _ _ _ => true
  | .pageOwnerWrite _ _ _ => true
  | .modCmdM5 _ _ => true
  | .modCmdM10 _ _ => true
  | .modCmdM4 _ _ => true
  | .modCmdM2 _ _ _ _ => true
  | .modPcmdM4 _ _ _ => true
  | .modPcmdM6 _ _ _ => true
  | .modPcmdM7 _ _ _ => true
  | .modPcmdM8 _ _ _ => true
  | .modPcmdM9 _ _ _ => true
  | .deviceTransitionDone => true
  | .domainTransitionDone _ => true
  | .wakeLockTimeout _ => true
  | .evInEdge _ _ => true
  | .channelPark _ _ _ => true
  | .channelUnpark _ _ _ => true
  | .parkComplete _ _ => true
  | .assignWrite _ _ _ _ => true
  | .loadStrobe _ _ _ => true
  | .settlingEnd _ => true
  | .broadcastPreload _ _ _ => true
  | .driverShort _ _ => true
  | .failCountClear _ _ => true
  | .switchBatchGo _ _ _ => true
  | .switchBatchResume _ => true
  | .switchBatchDone _ => true
  | .switchFault _ _ => true
  | .wearWarnWrite _ _ _ => true
  | .epochArm _ _ => true
  | .epochSet => true
  | .syncInPulse _ => true
  | .timingSetWrite _ _ _ _ => true
  | .timingSetCheckDone _ => true
  | .lateEdgeFire _ _ _ _ => true
  | .seqStart _ _ => true
  | .seqStop _ _ => true
  | .seqAbort _ _ => true
  | .vector0Begin _ => true
  | .cont _ obs => samplesOk obs
  | .rpt _ obs => samplesOk obs
  | .loop _ obs => samplesOk obs
  | .endl _ obs => samplesOk obs
  | .jmp _ obs => samplesOk obs
  | .call _ obs => samplesOk obs
  | .ret _ obs => samplesOk obs
  | .brf _ obs => samplesOk obs
  | .bre _ obs => samplesOk obs
  | .halt _ obs => samplesOk obs
  | .ldlv _ obs => samplesOk obs
  | .trig _ obs => samplesOk obs
  | .calgap _ obs => samplesOk obs
  | .mark _ obs => samplesOk obs
  | .pif _ obs => samplesOk obs
  | .pelse _ obs => samplesOk obs
  | .pjoin _ obs => samplesOk obs
  | .swhile _ obs => samplesOk obs
  | .send _ obs => samplesOk obs
  | .holdEnd _ _ => true
  | .drainComplete _ => true
  | .snapshotPost _ => true
  | .captureRecordWritten => true
  | .captureFlushed _ => true
  | .startAddrWrite _ _ _ => true
  | .startWindowLoaded _ => true
  | .prime _ _ => true
  | .primeDone _ _ => true
  | .sdirWrite _ _ _ _ => true
  | .granuleResident _ _ _ => true
  | .timArm _ _ _ => true
  | .vernierArm _ _ => true
  | .timStop _ _ _ => true
  | .timEvent _ _ _ _ => true
  | .vernierEvent _ _ => true
  | .tdrLaunch _ _ _ => true
  | .timResultStored _ _ => true
  | .timEntryPost _ _ => true
  | .timFifoRead _ _ _ => true
  | .vernierFifoRead _ _ => true
  | .pmuOutputEnable _ _ _ => true
  | .pmuOutputDisable _ _ _ => true
  | .pmuModeWrite _ _ _ _ => true
  | .pmuRangeWrite _ _ _ _ => true
  | .pmuRangeDone _ _ => true
  | .pmuForceWrite _ _ _ _ => true
  | .pmuClampWrite _ _ _ _ _ => true
  | .pmuIlim _ _ => true
  | .pmuShut _ _ => true
  | .pmuVclamp _ _ => true
  | .senseOpen _ _ => true
  | .pmuGangWrite _ _ _ => true
  | .waveUpdate => true
  | .waveTableWrite _ _ _ => true
  | .waveTableDefault _ _ _ => true
  | .waveTableDefaultDone _ _ => true
  | .cnvArm _ _ _ => true
  | .cnvStop _ _ _ => true
  | .cnvTickTrigger _ => true
  | .apertureStart _ _ => true
  | .apertureEnd _ _ _ _ _ => true
  | .cnvResultStored _ _ => true
  | .mainsCrossing _ => true
  | .mainsLost => true
  | .refEnable _ _ _ => true
  | .refReady _ => true
  | .acqArm _ _ => true
  | .acqStop _ _ => true
  | .acqForce _ _ => true
  | .acqSlotEnd _ => true
  | .rearmEnd _ => true
  | .wchCfgWrite _ _ _ _ => true
  | .wchThrWrite _ _ _ _ => true
  | .wchSampleTick _ vs _ _ => vs.length == 16
  | .wchResolve _ _ _ _ _ => true
  | .wchCrossing _ _ _ _ _ => true
  | .wchRelease _ _ _ => true
  | .tripNRelease => true
  | .farrierRun _ => true
  | .farrierAbort _ => true
  | .farrierStore _ => true
  | .farrierStoreDone _ => true
  | .farrierCopyDone => true
  | .farrierStepStart _ _ _ _ _ _ => true
  | .farrierStepEnd _ _ => true
  | .farrierSwitchover _ => true
  | .swLate => true
  | .farrierWindowArm _ _ => true
  | .farrierWindowOpen => true
  | .farrierWindowEnd => true
  | .indexNChange _ => true
  | .svNop _ _ _ => true
  | .svRegRead _ _ _ => true
  | .svRegWrite _ _ _ => true
  | .svRegRmw _ _ _ => true
  | .svRegPoll _ _ _ => true
  | .svRegBatch _ _ _ => true
  | .svHayCopy _ _ _ => true
  | .svHayFill _ _ _ => true
  | .svHayCrc _ _ _ => true
  | .svHayCompare _ _ _ => true
  | .svDelay _ _ _ => true
  | .svWaitEvent _ _ _ => true
  | .svSeqRun _ _ _ => true
  | .svSeqBatch _ _ _ => true
  | .svLevels _ _ _ => true
  | .svSwitch _ _ _ => true
  | .svContact _ _ _ => true
  | .svTdr _ _ _ => true
  | .svShorts _ _ _ => true
  | .svKelvin _ _ _ => true
  | .svContactPmu _ _ _ => true
  | .svOpenMap _ _ _ => true
  | .svContactReport _ _ _ => true
  | .svIndexWait _ _ _ => true
  | .svForceMeasure _ _ _ => true
  | .svSweep _ _ _ => true
  | .svSweepLog _ _ _ => true
  | .svLeakage _ _ _ => true
  | .svVohIoh _ _ _ => true
  | .svVolIol _ _ _ => true
  | .svIddq _ _ _ => true
  | .svSupplyRamp _ _ _ => true
  | .svGangSupply _ _ _ => true
  | .svWaveStart _ _ _ => true
  | .svWaveStop _ _ _ => true
  | .svCnvBatch _ _ _ => true
  | .svAcqRecord _ _ _ => true
  | .svWatchSetup _ _ _ => true
  | .svWatchTest _ _ _ => true
  | .svPmuSafe _ _ _ => true
  | .svTimRun _ _ _ => true
  | .svPeriod _ _ _ => true
  | .svJitter _ _ _ => true
  | .svSkew _ _ _ => true
  | .svDelayMeas _ _ _ => true
  | .svFreq _ _ _ => true
  | .svVernierDump _ _ _ => true
  | .svStampReduce _ _ _ => true
  | .svStats _ _ _ => true
  | .svHistogram _ _ _ => true
  | .svLimits _ _ _ => true
  | .svBin _ _ _ => true
  | .svBinMap _ _ _ => true
  | .svSiteSummary _ _ _ => true
  | .svMerge _ _ _ => true
  | .svOutlier _ _ _ => true
  | .svCapScan _ _ _ => true
  | .svBitmap _ _ _ => true
  | .svRepair _ _ _ => true
  | .svRepairVerify _ _ _ => true
  | .svWaferMap _ _ _ => true
  | .svYield _ _ _ => true
  | .svSort _ _ _ => true
  | .svFailCount _ _ _ => true
  | .svCalItem _ _ _ => true
  | .svCalStore _ _ _ => true
  | .svWearReport _ _ _ => true
  | .svTempReport _ _ _ => true
  | .svLogRead _ _ _ => true
  | .svSelftest _ _ _ => true
  | .svHbmScrub _ _ _ => true
  | .svRomCheck _ _ _ => true
  | .svChain _ _ _ => true
  | .svBarrier _ _ _ => true
  | .svIfStatus _ _ _ => true
  | .svSignal _ _ _ => true
  | .svTimer _ _ _ => true
  | .svCounter _ _ _ => true
  | .svMark _ _ _ => true
  | .svFlush _ _ _ => true
  | .svPatch _ _ _ => true
  | .cancelRecord _ _ => true
  | .alu _ _ => true
  | .ldi _ _ => true
  | .ld _ _ => true
  | .st _ _ => true
  | .hld _ _ _ => true
  | .hst _ _ _ => true
  | .seta _ _ => true
  | .br _ _ => true
  | .microCall _ _ => true
  | .microRet _ _ => true
  | .yield _ _ => true
  | .microEnd _ _ => true
  | .microPost _ _ => true
  | .microTick _ _ => true
  | .sleep _ _ => true
  | .sleepEnd _ => true
  | .commitDone _ => true
  | .contextResume _ _ => true
  | .groomWatchdog _ => true
  | .groomEnable _ _ _ => true
  | .ringAssign _ _ => true
  | .ringEnable _ _ => true
  | .ringDisable _ _ => true
  | .doorbell _ _ _ _ => true
  | .backpAccept _ => true
  | .ringTimer _ => true
  | .remap _ => true
  | .remapDone => true
  | .rateRequest _ _ => true
  | .heldRateStart => true
  | .rateSwitchDone => true
  | .refreshDue _ _ => true
  | .trackingStep _ => true
  | .hbmTempUpdate _ => true
  | .rowRepair _ _ => true
  | .rowRepairDone => true
  | .regionWrite _ _ => true
  | .penReset _ _ => true
  | .penResetDone _ => true
  | .svnAdvance _ _ _ => true
  | .svnAdvanceDone _ => true
  | .debugNonce _ => true
  | .debugSubmit _ => true
  | .debugResult _ => true
  | .tamperEvent _ => true
  | .rd _ _ => true
  | .wr _ ws => decide (ws.length ≤ 64)
  | .fetch _ _ => true
  | .win _ ws => decide (ws.length ≤ 64)
  | .frameReject _ => true
  | .wrCommitComplete => true
  | .fetchComplete => true
  | .masterTransfer _ _ => true
  | .masterTransferDone rx => decide (rx.length ≤ 128)
  | .multiMasterFault n rx => decide (n.val ≤ 4096) && decide (rx.length ≤ 128)
  | .wvnSlot _ => true
  | .thermEnforce => true
  | .forcedHold _ => true
  | .clockLoss _ => true
  | .logEntryWrite _ => true
  | .logFreeze _ => true
  | .tickMark => true
  | .oscFail => true
  | .thaw _ => true
  | .clear _ => true
  | .hostMark _ _ => true
  | .extest _ => true
  | .linkTrainingTimeout _ => true
  | .badOp _ _ => true
  | .badent _ _ => true
  | .backpDrop _ => true
  | .grmUsedUpdate used => used.length == 9

end Sys2Proof
end

