-- ==== Sys2Proof/Safety.lean ====
section
/-!
DEFINITION. What a safe step is, and the terms in which statements say when a command may act: a register write that
passes every check of its page, the vectors that a sequencer is ready to issue, and the services that a groom runs.
-/

namespace Sys2Proof.Machine

/-- The step answers a next state: no command faults, and none is refused. -/
def StepSafe (s : State) : Prop := ∃ t, step s = .next t

/-- The registers, the bytes of the hayloft, the keys of its words and the bytes of the flash are in canonical form (the stores
of State). -/
def State.storesOk (s : State) : Bool :=
  Store.wf regReset s.regs && Memory.wf s.hay.cells && Store.sorted s.hay.tags &&
    Store.wf flashErased s.flash

/-- A 32-bit write of `v` by requester `r` passes the checks common to every register write (R61, R63, R65, R70, R75 to
R78): the page is reached, the register exists and is not read-only, no page soft reset is in progress, no supervisor-only
field is touched by another requester, and no lock forbids it. -/
def State.accepts (s : State) (r : Requester) (k : PageKind) (i o : Nat) (v : Word) : Bool :=
  (decide (s.reach r k i = .full) || (decide (s.reach r k i = .header) && decide (o < 0x40))) &&
    match regRow k o with
    | none => false
    | some (row, _, _) =>
      (!s.rb k i Off.pgCtrl 1 || decide (row.w1c ≠ 0)) && !fixedOwner k o && (s.isSup r || !touchesSup row (s.supView k i o) v) &&
        !(s.locked k i && (decide (o = Off.pgCtrl) || decide (0x40 ≤ o))) && !row.ro

/-- The device is in M4 with no device transition in progress, every domain is in M4, and no groom service runs (row 5 and
row 7 of R47). -/
def State.mayShed (s : State) : Bool := s.quietM4 && s.domainsInM4 && !s.groomBusy

/-- Sequencer `q` is in RUN and about to issue vector `v` of opcode `k` for the first time; its APG operation is not a
reserved one (R166, R713). -/
def State.vecReady (s : State) (q k : Nat) (v : Vec) : Bool :=
  decide (s.seqState q = sRun) && decide ((s.seq q).left = 0) && decide (s.fetchVec q (s.seq q).next = some v) &&
    decide (v.op = k) &&
    ((s.seq q).cfg.bypass || (decide (nfld v.apgop 0 3 ≠ 7) && decide (nfld v.apgop 10 2 ≠ 3)))

/-- A segment of sequencer `q` covers address `a` (R206). -/
def State.mapped (s : State) (q a : Nat) : Bool := ((s.seq q).map.bind fun m => segOf m a).isSome

/-- `t` follows from `s` by the issue of vector `v` of sequencer `q`: issue goes on at `next` with the masks and the stack of `y`, from
which KILL has taken the sites of mask `a` (R167, R245, R250). -/
abbrev IssuedWith (s t : State) (q : Fin 8) (v : Vec) (next a : Nat) (y : Sites) : Prop :=
  let z := if v.siteop.testBit 5 then y.kill a else y
  (t.seq q).next = next ∧ (t.seq q).sites.active = z.active ∧ (t.seq q).sites.stack = z.stack ∧
    (t.seq q).sites.enrolled = z.enrolled ∧ (t.seq q).sites.killed = z.killed ∧ (t.seq q).sites.swto = z.swto ∧
    t.vcnt q = (s.vcnt q + 1) % 2 ^ 48

/-- Groom `g` runs the record of context `c`, whose operation `op` is one of the ROM, at stage `k`; the groom is not
asked to abort, does not wait for a ring or for the hayloft, stands at no yield point of microcode, and neither the fetch nor
the hayloft shows an error (R489 to R494, R503, R550). -/
def State.romRuns (s : State) (g : Fin 8) (c : Ctx) (op k : Nat) (p : Probe) : Bool :=
  decide ((s.groom g).ctx = some c) && decide (c.rcd.op = op) && s.romCtx c &&
    (Store.get? s.cluster.matchRegs p.addr.toNat).isNone && decide (c.stage = k) &&
    decide (c.after = .no) && !c.abort && !s.groomWaits g && !s.trainPause && decide (p.fetch = .clean) &&
    decide (p.hay = none)

/-- The record of context `c` ends OK on groom `g` with the result words `vs` (R481): `t` follows from the state `y` in which
the routine leaves the part. -/
def ServiceEnds (t y : State) (g : Fin 8) (c : Ctx) (vs : List Nat) : Prop :=
  ∃ d : Ctx, t = y.endRecord g d svOk ∧ d.rcd = c.rcd ∧ d.vs = vs.map word

/-- The owner may read the `n` bytes at `a`, and no word of them is poisoned (R493, R552, R590). -/
def State.hayOk (s : State) (o a n : Nat) : Bool := s.inRegion o anyKind a n && !s.poisoned a n

/-- The requester reaches the register at `a`, and its block takes a write of `v` (R78, R493). -/
def State.takes (s : State) (r : Requester) (a : Nat) (v : Word) : Bool :=
  s.reaches r a && (s.refusedBy fun x => x.write32 r a v).isNone

/-- The hayloft address in words `i` and `i + 1` of a record (R484). -/
def Record.hay (r : Record) (i : Nat) : Nat := r.p i + 2 ^ 32 * r.f (i + 1) 0 3

/-- The record selects the one stall `st`, and from it the `n`-bit mask `m` of channels or PMUs (R484). -/
def Record.selects (r : Record) (st m n : Nat) : Bool :=
  decide (r.f 0 0 7 = st) && decide (r.f 0 8 7 = st) && decide (r.f 0 16 n = m)

/-- Working value `i` of a routine. -/
def Ctx.t (c : Ctx) (i : Nat) : Nat := c.tmp.getD i 0

/-- The PMUs that a PSCOPE selects, rising (R484). -/
def Record.pmuList (r : Record) : List Nat :=
  ((List.range' (r.f 0 0 7) (r.f 0 8 7 + 1 - r.f 0 0 7)).map fun st => (onesOf (r.f 0 16 4) 4).map fun u => 4 * st + u).flatten

/-- Word `w` of the result of the converter of PMU `n` (R385, R394). -/
def State.resWord (s : State) (n w : Nat) : Word := s.rd .cnv (n / 4) (Off.cnvRes (n % 4) w)

/-- The result completed; its CODE; and whether it carries OVR, NBR or another END (R366, R385). -/
def State.resComplete (s : State) (n : Nat) : Bool := fld (s.resWord n 0) 26 2 == 0
def State.resCode (s : State) (n : Nat) : Int := signed 24 (s.resWord n 1).toNat
def State.resFlagged (s : State) (n : Nat) : Bool :=
  tbit (s.resWord n 0) 17 || tbit (s.resWord n 0) 18 || !s.resComplete n

/-- What a routine keeps of PMU `n` from an earlier point of its sweep. -/
def Ctx.kept (c : Ctx) (n : Nat) : Nat := ((c.items.filter fun e => e / 2 ^ 32 == n).getD 0 0) % 2 ^ 32

/-- The first item that a routine has met: that of working value `i`, which holds it plus 1, or the first of `l`. -/
def Ctx.firstOf (c : Ctx) (i : Nat) (l : List Nat) : Option Nat := if c.t i = 0 then l.head? else some (c.t i - 1)

/-- Groom `g` runs microcode in context `c`, and the word that it fetches next is the defined word `w` (R498, R499, R502). -/
def State.fetches (s : State) (g : Fin 8) (c : Ctx) (w : Nat) : Bool :=
  decide ((s.groom g).ctx = some c) && !s.romCtx c && !s.groomWaits g && (decide (c.after = .no) || decide (c.after = .done)) &&
    decide (s.fetchAddr c.pc < 0x4400) && decide (s.wordAt (s.fetchAddr c.pc) = w) && legalWord w

/-- The routine of groom `g` is at a yield point at which nothing ends it (R489 to R494). -/
def Ctx.clean (c : Ctx) : Bool := !c.abort && !c.af && c.refusal.isNone

/-- Key of the last result of a record in the cluster (R485, SV_IF_STATUS). -/
def Record.key (r : Record) : Nat := ownerIx r.owner * 2 ^ 16 + r.tag

end Sys2Proof.Machine
end

