-- ==== Sys2Proof/Certificates/Slice0/Obligations.lean ====
section
/-!
DEFINITION. The statements for the provers.

Every statement about a command says in its docstring what it claims; `State.accepts` says that a register write passes the
checks common to all writes, and where the model makes a choice the statement's text names the log entry.
-/

open Sys2Proof Sys2Proof.Machine

/-- A step takes the command at the front of the queue and is exec of it with the queue's rest. -/
def Obligations.StepRunsTheFrontCommand : Prop :=
  ∀ (c : Instr) (t : List Instr) (s : State), step { s with pending := c :: t } = exec c { s with pending := t }

/-- A step on an empty queue passes one tick and changes no register where no timer is due (the model's choice, log entry 5). -/
def Obligations.IdleStepPassesOneTick : Prop :=
  ∀ s : State, s.pending = [] → ∃ t, step s = .next t ∧ t.now = s.now + 1 ∧
    ((∀ e ∈ s.cluster.timers, s.now + 1 < e.due) → t.regs = s.regs ∧ t.hay = s.hay ∧ t.rings = s.rings ∧ t.pending = [])

/-- No command faults and none is refused. -/
def Obligations.EveryCommandAnswers : Prop := ∀ (c : Instr) (s : State), ∃ t, exec c s = .next t

/-- A command changes nothing of the queue of waiting commands. -/
def Obligations.CommandsLeaveTheQueue : Prop :=
  ∀ (c : Instr) (s t : State), exec c s = .next t → t.pending = s.pending

/-- Every step keeps the registers, the hayloft and the flash in canonical form. -/
def Obligations.StepKeepsCanonicalStores : Prop :=
  ∀ s t : State, s.storesOk = true → step s = .next t → t.storesOk = true

/-- The state at reset meets the invariants that every step keeps. -/
def Obligations.ResetMeetsTheInvariants : Prop :=
  State.reset.storesOk = true ∧ State.reset.lan.queue.length ≤ 16 ∧ State.reset.lan.wptr < 512 ∧
    ∀ n, State.reset.gth.programming = some n → State.reset.otp.svn ≤ n

/-- Every step keeps the logbook's queue within 16 entries and its write pointer within 512 slots. -/
def Obligations.StepKeepsTheLogbookBounds : Prop :=
  ∀ s t : State, s.lan.queue.length ≤ 16 ∧ s.lan.wptr < 512 → step s = .next t → t.lan.queue.length ≤ 16 ∧ t.lan.wptr < 512

/-- No step lowers the anti-rollback counter or changes another option row. -/
def Obligations.StepNeverLowersTheAntiRollbackCounter : Prop :=
  ∀ s t : State, (∀ n, s.gth.programming = some n → s.otp.svn ≤ n) → step s = .next t →
    s.otp.svn ≤ t.otp.svn ∧ t.otp = { s.otp with svn := t.otp.svn } ∧ ∀ n, t.gth.programming = some n → t.otp.svn ≤ n

/-- Requests of M5, M10, M4 and M2 that meet their preconditions start the transition. -/
def Obligations.DeviceRequestsAreTaken : Prop :=
  (∀ (r : Requester) (s : State), s.accepts r .mod0 0 Off.modCmd (word (5 + 2 ^ 8 * 0xC3)) = true → s.mayShed = true →
      s.hbmBit 10 = false → s.hbmBit 8 = false →
      ∃ t, exec (.modCmdM5 r 0xC3) s = .next t ∧ t.mode.trans = some (.m5, true) ∧ t.rb .mod0 0 Off.modResult 16 = false ∧
        t.mode.dev = .m4) ∧
  (∀ (r : Requester) (s : State), s.accepts r .mod0 0 Off.modCmd (word (10 + 2 ^ 8 * 0xC3)) = true → s.mayShed = true →
      ∃ t, exec (.modCmdM10 r 0xC3) s = .next t ∧ t.mode.trans = some (.m10, true) ∧ t.rb .mod0 0 Off.modResult 16 = false ∧
        t.mode.dev = .m4) ∧
  (∀ (r : Requester) (s : State), s.accepts r .mod0 0 Off.modCmd (word (4 + 2 ^ 8 * 0xC3)) = true → s.mode.dev = .m10 →
      s.mode.trans = none →
      ∃ t, exec (.modCmdM4 r 0xC3) s = .next t ∧ t.mode.trans = some (.m4, true) ∧ t.mode.dev = .m10) ∧
  (∀ (r : Requester) (clock shield : Bool) (s : State), s.accepts r .mod0 0 Off.modCmd (word (2 + 2 ^ 8 * 0xC3)) = true →
      s.mode.dev = .m11 → s.mode.trans = none → s.causePresent clock shield = false →
      ∃ t, exec (.modCmdM2 r 0xC3 clock shield) s = .next t ∧ t.mode.dev = .m2 ∧ t.mode.trans = none)

/-- Requests of the domain modes M4 and M6 to M9 that meet their preconditions start the transition. -/
def Obligations.DomainRequestsAreTaken : Prop :=
  ∀ (c : Instr) (r : Requester) (d : Fin 9) (m : DomMode) (s : State),
    ((c = .modPcmdM4 r d 0xC3 ∧ m = .m4) ∨ (c = .modPcmdM6 r d 0xC3 ∧ m = .m6) ∨ (c = .modPcmdM7 r d 0xC3 ∧ m = .m7) ∨
      (c = .modPcmdM8 r d 0xC3 ∧ m = .m8) ∨ (c = .modPcmdM9 r d 0xC3 ∧ m = .m9)) →
    s.accepts r .modp d Off.modPcmd (word (m.num + 2 ^ 8 * 0xC3)) = true → s.quietM4 = true →
    Store.get? s.mode.domTrans d = none → (d.val < 8 → s.penBusy d = false) →
    m ≠ s.domMode (domOwner d) → (s.domMode (domOwner d) = .m4 ∨ s.unitActive (domOwner d) m = false) →
    ∃ t, exec c s = .next t ∧ Store.get? t.mode.domTrans d = some m ∧ t.rb .modp d Off.modPresult 16 = false ∧
      t.mode.dev = s.mode.dev ∧ t.mode.trans = s.mode.trans ∧ t.mode.doms = s.mode.doms

/-- A request whose CONFIRM is not 0xC3 ends BAD_CONFIRM first, and the mode is unchanged. -/
def Obligations.BadConfirmChangesNoMode : Prop :=
  ∀ (c : Instr) (r : Requester) (d : Fin 9) (confirm : BitVec 8) (m : DomMode) (s : State),
    ((c = .modPcmdM4 r d confirm ∧ m = .m4) ∨ (c = .modPcmdM6 r d confirm ∧ m = .m6) ∨ (c = .modPcmdM7 r d confirm ∧ m = .m7) ∨
      (c = .modPcmdM8 r d confirm ∧ m = .m8) ∨ (c = .modPcmdM9 r d confirm ∧ m = .m9)) →
    confirm ≠ 0xC3 → s.accepts r .modp d Off.modPcmd (word (m.num + 2 ^ 8 * confirm.toNat)) = true →
    Store.get? s.mode.domTrans d = none →
    ∃ t, exec c s = .next t ∧ t.mode = s.mode ∧ t.rf .modp d Off.modPresult 8 4 = modBadConfirm ∧
      t.rb .modp d Off.modPresult 16 = true ∧
      t.rf .modp d Off.modPresult 0 8 = (s.rf .modp d Off.modPresult 0 8 + 1) % 256

/-- Transitions in progress complete, a lock timeout in a wake enters M11, and EV_IN edges are recognised. -/
def Obligations.TransitionsComplete : Prop :=
  (∀ (m : DevMode) (req : Bool) (s : State), s.mode.trans = some (m, req) →
      ((s.mode.dev = .m4 ∧ (m = .m5 ∨ m = .m10)) ∨ (s.mode.dev = .m5 ∧ m = .m4) ∨
        (s.mode.dev = .m10 ∧ m = .m4 ∧ s.farState = fIdle)) →
      ∃ t, exec .deviceTransitionDone s = .next t ∧ t.mode.dev = m ∧ t.mode.doms = [] ∧ t.mode.domTrans = [] ∧
        (s.mode.wakeDue = none → t.mode.trans = none)) ∧
  (∀ (d : Fin 9) (m : DomMode) (s : State), Store.get? s.mode.domTrans d = some m →
      ∃ t, exec (.domainTransitionDone d) s = .next t ∧ Store.getD (fun _ => DomMode.m4) t.mode.doms d = m ∧
        Store.get? t.mode.domTrans d = none) ∧
  (∀ (b : Fin 8) (req : Bool) (s : State), s.mode.dev = .m5 → s.mode.trans = some (.m4, req) →
      ∃ t, exec (.wakeLockTimeout b) s = .next t ∧ t.mode.dev = .m11 ∧ t.mode.trans = none) ∧
  (∀ (k : Fin 4) (rise : Bool) (s : State), natBit s.pins.evIn k ≠ rise →
      ∃ t, exec (.evInEdge k rise) s = .next t ∧ natBit t.pins.evIn k = rise)

/-- Parking, unparking, assignment, shorts and switch faults take effect. -/
def Obligations.ParkCommandsTakeEffect : Prop :=
  (∀ (r : Requester) (st : Fin 128) (mask : BitVec 16) (s : State),
      s.accepts r .stl st Off.stlPark (s.rd .stl st Off.stlPark ||| word mask.toNat) = true →
      ∃ t, exec (.channelPark r st mask) s = .next t ∧
        ∀ c : Fin 16, (mask.getLsbD c = true ∨ s.rb .stl st Off.stlPark c = true) → t.rb .stl st Off.stlPark c = true) ∧
  (∀ (r : Requester) (st : Fin 128) (mask : BitVec 16) (s : State),
      s.accepts r .stl st Off.stlPark (s.rd .stl st Off.stlPark &&& ~~~ word mask.toNat) = true →
      s.pinPagesOn st = true → 6 ≤ s.modeOf (s.stallOwner st) → s.modeOf (s.stallOwner st) ≤ 9 →
      ∃ t, exec (.channelUnpark r st mask) s = .next t ∧
        ∀ c : Fin 16, mask.getLsbD c = true → s.rb .stl st Off.stlPark c = true → s.parkStays st c = false →
          s.levelsOk st (Off.lvlAct c) = true →
          t.rb .stl st Off.stlPark c = false ∧ t.rb .stl st Off.stlStat c = false) ∧
  (∀ (st : Fin 128) (c : Fin 16) (s : State), s.rb .stl st Off.stlPark c = true → s.rb .stl st Off.stlStat c = false →
      ∃ t, exec (.parkComplete st c) s = .next t ∧ t.rb .stl st Off.stlStat c = true ∧
        t.rb .swm st Off.swmCurDrv c = false ∧ t.rb .swm st Off.swmCurPmu c = false) ∧
  (∀ (r : Requester) (st : Fin 128) (c : Fin 16) (v : Word) (s : State), s.accepts r .stl st (Off.stlAssign c) v = true →
      s.rb .stl st Off.stlStat c = true → (tbit v 31 = true → s.ownerOf .seq (fld v 8 3) = s.stallOwner st) →
      ∃ t, exec (.assignWrite r st c v) s = .next t ∧ t.rf .stl st (Off.stlAssign c) 0 6 = fld v 0 6 ∧
        t.rf .stl st (Off.stlAssign c) 8 3 = fld v 8 3 ∧ t.rf .stl st (Off.stlAssign c) 16 9 = fld v 16 9 ∧
        t.rb .stl st (Off.stlAssign c) 31 = tbit v 31 ∧ Store.get? t.follow (16 * st + c) = none) ∧
  (∀ (st : Fin 128) (c : Fin 16) (s : State),
      (s.driverOut (16 * st + c) ≠ .hiz →
        ∃ t, exec (.driverShort st c) s = .next t ∧ t.rb .drv st Off.drvShort c = true ∧
          (s.rb .drv st Off.drvCtrl 0 = true → t.rb .stl st Off.stlPark c = true)) ∧
      (s.driverOut (16 * st + c) = .hiz → exec (.driverShort st c) s = .next s)) ∧
  (∀ (st : Fin 128) (n : Fin 48) (s : State),
      ∃ t, exec (.switchFault st n) s = .next t ∧ t.rb .stl st Off.stlPark (n / 3) = true ∧
        t.rb .stl st Off.stlStat (n / 3) = false ∧ t.rb .swm st Off.pgEvt 3 = true)

/-- Load strobes copy every preload, and broadcasts and counter clears take effect. -/
def Obligations.LevelCommandsTakeEffect : Prop :=
  (∀ (r : Requester) (st : Fin 128) (en : Bool) (s : State), s.accepts r .lvl st Off.lvlCtrl (word (1 + 2 * bit en)) = true →
      s.pageEn .lvl st = true → s.mode.dev ≠ .m11 → (∀ c < 16, s.levelsOk st (Off.lvlPre c) = true) →
      ∃ t, exec (.loadStrobe r st en) s = .next t ∧
        (∀ c < 16, ∀ i < 7, t.rd .lvl st (Off.lvlAct c i) = s.rd .lvl st (Off.lvlPre c i)) ∧
        t.rb .lvl st Off.lvlStat 1 = true) ∧
  (∀ (st : Fin 128) (s : State), ∃ t, exec (.settlingEnd st) s = .next t ∧ t.rb .lvl st Off.lvlStat 1 = false) ∧
  (∀ (r : Requester) (st : Fin 128) (v : Word) (s : State), s.accepts r .lvl st Off.lvlBcastVal v = true →
      fld v 0 16 ≤ 0xFA00 → s.rf .lvl st Off.lvlBcastSel 16 3 < 7 →
      ∃ t, exec (.broadcastPreload r st v) s = .next t ∧
        ∀ c < 16, s.rb .lvl st Off.lvlBcastSel c = true →
          t.rf .lvl st (Off.lvlPre c (s.rf .lvl st Off.lvlBcastSel 16 3)) 0 16 = fld v 0 16) ∧
  (∀ (r : Requester) (st : Fin 128) (s : State), s.accepts r .cmp st Off.cmpCtrl 1 = true →
      ∃ t, exec (.failCountClear r st) s = .next t ∧ ∀ c < 16, t.rd .cmp st (Off.cmpFcnt c) = 0)

/-- A load strobe with one bad channel is refused whole. -/
def Obligations.BadLevelsRefuseTheStrobe : Prop :=
  ∀ (r : Requester) (st : Fin 128) (en : Bool) (c : Fin 16) (s : State),
    s.accepts r .lvl st Off.lvlCtrl (word (1 + 2 * bit en)) = true → s.pageEn .lvl st = true → s.mode.dev ≠ .m11 →
    s.levelsOk st (Off.lvlPre c) = false →
    ∃ t, exec (.loadStrobe r st en) s = .next t ∧
      (∀ d < 16, ∀ i < 7, t.rd .lvl st (Off.lvlAct d i) = s.rd .lvl st (Off.lvlAct d i)) ∧
      (t.stall st).slewAct = (s.stall st).slewAct ∧ t.rb .lvl st Off.lvlStat 2 = true ∧ t.rb .lvl st Off.pgErr 16 = true ∧
      t.rf .lvl st Off.lvlRefuseCnt 0 16 = min 0xFFFF (s.rf .lvl st Off.lvlRefuseCnt 0 16 + 1)

/-- Switch batches start, resume and end, and the wear level is stored. -/
def Obligations.SwitchCommandsTakeEffect : Prop :=
  (∀ (r : Requester) (st : Fin 128) (hot : Bool) (s : State),
      s.accepts r .swm st Off.swmCtrl (word (1 + 2 * bit hot)) = true → s.pageEn .swm st = true →
      s.rb .swm st Off.swmStat 0 = false →
      (s.plainWrite .swm st Off.swmCtrl (word (1 + 2 * bit hot))).batchCheck st = 0 →
      ∃ t, exec (.switchBatchGo r st hot) s = .next t ∧ t.rb .swm st Off.swmStat 0 = true ∧
        t.rb .swm st Off.swmResult 16 = false ∧ ∃ b, (t.stall st).batch = some b ∧ b.hot = hot ∧
          b.tgtDrv = s.rf .swm st Off.swmTgtDrv 0 16 ∧ b.tgtPmu = s.rf .swm st Off.swmTgtPmu 0 16) ∧
  (∀ (st : Fin 128) (b : Batch) (s : State), (s.stall st).batch = some b → s.stepIn st = false →
      ∃ t, exec (.switchBatchResume st) s = .next t ∧ (t.stall st).batch = some { b with waiting := false }) ∧
  (∀ (st : Fin 128) (b : Batch) (s : State), (s.stall st).batch = some b → b.waiting = false →
      ∃ t, exec (.switchBatchDone st) s = .next t ∧ (t.stall st).batch = none ∧ t.rb .swm st Off.swmStat 0 = false ∧
        (∀ c : Fin 16,
          t.rb .swm st Off.swmCurDrv c = (if natBit b.mvDrv c then natBit b.tgtDrv c else s.rb .swm st Off.swmCurDrv c) ∧
          t.rb .swm st Off.swmCurPmu c = (if natBit b.mvPmu c then natBit b.tgtPmu c else s.rb .swm st Off.swmCurPmu c)) ∧
        t.rf .swm st Off.swmResult 8 4 = 0 ∧ t.rb .swm st Off.swmResult 16 = true) ∧
  (∀ (r : Requester) (st : Fin 128) (v : Word) (s : State), s.accepts r .swm st Off.swmWearWarn v = true →
      ∃ t, exec (.wearWarnWrite r st v) s = .next t ∧ t.rd .swm st Off.swmWearWarn = v)

/-- The epoch is armed and set, SYNC_IN pulses are taken or counted, and timing sets are written and checked. -/
def Obligations.TimingCommandsTakeEffect : Prop :=
  (∀ (r : Requester) (mode : Fin 4) (s : State), s.accepts r .tmb 0 Off.tmbCtrl (word (16 + mode)) = true → mode.val ≠ 3 →
      s.pageEn .tmb 0 = true → s.anySeqActive = false → s.anyTimArmed = false →
      ∃ t, exec (.epochArm r mode) s = .next t ∧ t.armed = some ⟨mode.val, s.now⟩ ∧ t.rf .tmb 0 Off.tmbCtrl 0 2 = mode ∧
        (∀ b < 8, t.rb .tmb b Off.tmbStat 1 = false) ∧ t.epoch = s.epoch ∧ t.now = s.now) ∧
  (∀ (a : Arm) (s : State), s.armed = some a → a.mode = standalone →
      ∃ t, exec .epochSet s = .next t ∧ t.armed = none ∧ t.ticking = true ∧ (∀ b < 8, t.rb .tmb b Off.tmbStat 1 = true) ∧
        t.epoch = 1250 * a.second ∧ t.tick = (s.now - a.second) % 2 ^ 48) ∧
  (∀ (m : BitVec 16) (s : State), s.armed = none →
      ∃ t, exec (.syncInPulse m) s = .next t ∧ t.epoch = s.epoch ∧
        (∀ b < 8, t.rf .tmb b Off.tmbSyncIgn 0 16 = min 0xFFFF (s.rf .tmb b Off.tmbSyncIgn 0 16 + 1))) ∧
  (∀ (m : BitVec 16) (a : Arm) (s : State), s.armed = some a → a.mode ≠ standalone → a.pulseEdge ≤ s.refEdge →
      ∃ t, exec (.syncInPulse m) s = .next t ∧ t.armed = none ∧
        (∀ b < 8, t.rb .tmb b Off.tmbStat 1 = true ∧ t.rf .tmb b Off.tmbSyncMargin 0 16 = m.toNat)) ∧
  (∀ (r : Requester) (q : Fin 8) (k : Fin 38) (v : Word) (s : State), k.val < 32 →
      s.accepts r .tset q (Off.seqTsPer k) v = true → s.seqActive q = false → 10000 ≤ v.toNat → v.toNat ≤ 4000000000 →
      ∃ t, exec (.timingSetWrite r q k v) s = .next t ∧ t.period q k = v.toNat ∧ t.rb .tset q Off.seqTsChk 0 = true) ∧
  (∀ (r : Requester) (q : Fin 8) (k : Fin 38) (v : Word) (s : State), 32 ≤ k.val →
      s.accepts r .tset q (Off.seqTsEdge (k - 32)) v = true → s.seqActive q = false →
      ∃ t, exec (.timingSetWrite r q k v) s = .next t ∧
        t.tsEdge q (s.rf .tset q Off.seqTsIdx 0 5) (s.rf .tset q Off.seqTsIdx 8 6) (k - 32) = v.toNat ∧
        t.rb .tset q Off.seqTsChk 0 = true) ∧
  (∀ (q : Fin 8) (s : State),
      ∃ t, exec (.timingSetCheckDone q) s = .next t ∧ t.rb .tset q Off.seqTsChk 0 = false ∧
        ∀ k : Fin 32, 32 * q.val + k.val ∈ s.tsDirty → t.rb .tset q Off.seqTsStat k = !s.setSound q k)

/-- A write of a timing set of a sequencer that is not idle changes no period and no edge. -/
def Obligations.RunningSequencerKeepsItsTimingSets : Prop :=
  ∀ (r : Requester) (q : Fin 8) (k : Fin 38) (v : Word) (s : State), s.seqActive q = true →
    ∃ t, exec (.timingSetWrite r q k v) s = .next t ∧ t.tsEdges = s.tsEdges ∧ ∀ n < 32, t.period q n = s.period q n

/-- The second REFCLK edge after a STANDALONE arm reads tick 0, and ticks count from there. -/
def Obligations.NewEpochRestartsTheTickCount : Prop :=
  ∀ (s : State) (a : Arm) (n : Nat), s.armed = some a → a.mode = standalone → s.now ≤ a.second →
    ∃ t, exec .epochSet s = .next t ∧ t.now = a.second ∧ ({ t with now := t.now + n }).tick = n % 2 ^ 48

/-- Starts, stops, aborts, vector 0, holds, drains and late edges take effect. -/
def Obligations.RunCommandsTakeEffect : Prop :=
  (∀ (r : Requester) (q : Fin 8) (s : State), let v := putFld (s.rd .seq q Off.seqCtrl) 0 3 1
      s.accepts r .seq q Off.seqCtrl v = true → fld v 4 2 ≠ 3 → s.startError q = none → s.siteError q = none →
      (s.pageEn .apg q = true → s.apgRangeOk q = true) →
      ∃ t, exec (.seqStart r q) s = .next t ∧ t.seqState q = sArmed ∧ t.vcnt q = 0 ∧
        (t.seq q).next = s.rf .seq q Off.seqStartAddr 0 24 ∧ (t.seq q).sites.enrolled = s.enrollMask q ∧
        t.rb .seq q Off.seqResultLo 16 = false) ∧
  (∀ (r : Requester) (q : Fin 8) (s : State), let v := putFld (s.rd .seq q Off.seqCtrl) 0 3 2
      s.accepts r .seq q Off.seqCtrl v = true → fld v 4 2 ≠ 3 → s.seqState q = sHold →
      ∃ t, exec (.seqStop r q) s = .next t ∧ t.seqState q = sDrain ∧
        ((t.seq q).ending.map RunEnd.code) = some cStopped) ∧
  (∀ (r : Requester) (q : Fin 8) (s : State), let v := putFld (s.rd .seq q Off.seqCtrl) 0 3 4
      s.accepts r .seq q Off.seqCtrl v = true → fld v 4 2 ≠ 3 → (s.seqState q = sRun ∨ s.seqState q = sHold) →
      ∃ t, exec (.seqAbort r q) s = .next t ∧ t.seqState q = sDrain ∧
        ((t.seq q).ending.map RunEnd.code) = some cAborted ∧ (t.seq q).ending.map RunEnd.hiz = some true) ∧
  (∀ (q : Fin 8) (k : Nat) (s : State), (s.seq q).startAt = some k → s.seqState q = sArmed → s.farrierHolds q = false →
      ∃ t, exec (.vector0Begin q) s = .next t ∧ t.seqState q = sRun ∧ (t.seq q).vtime = k * 1250 ∧
        (t.seq q).startAt = none) ∧
  (∀ (q : Fin 8) (k : BitVec 48) (s : State), s.seqState q = sHold → s.rf .seq q Off.seqStat 4 2 = 0 →
      (s.seq q).vtime ≤ k.toNat * 1250 → s.edgesPending q (k.toNat * 1250) = false →
      ∃ t, exec (.holdEnd q k) s = .next t ∧ t.seqState q = sRun ∧ (t.seq q).vtime = k.toNat * 1250) ∧
  (∀ (q : Fin 8) (e : RunEnd) (s : State), (s.seq q).ending = some e → e.code ≤ 9 → s.seqState q = sDrain →
      (∀ c ∈ s.chansOf q, (s.chan c.1).edges = []) →
      ∃ t, exec (.drainComplete q) s = .next t ∧ t.seqState q = sIdle ∧ t.rb .seq q Off.seqResultLo 16 = true ∧
        t.rf .seq q Off.seqResultLo 8 5 = e.code) ∧
  (∀ (q : Fin 8) (ch : Fin 2048) (h l : Bool) (c : Nat × Nat × Nat) (e : Edge) (es : List Edge) (s : State),
      (s.seqState q = sHold ∨ s.seqState q = sDrain ∨ s.seqState q = sRun ∧ e.time < (s.seq q).vtime) →
      (s.chansOf q).find? (fun x => x.1 == ch.val) = some c → (s.chan ch).edges = e :: es →
      ∃ t, exec (.lateEdgeFire q ch h l) s = .next t ∧ (t.chan ch).edges = es)

/-- CONT, LDLV, TRIG, MARK, RPT, CALGAP, LOOP and HALT vectors are issued. -/
def Obligations.VectorsFollowInAddressOrder : Prop :=
  (∀ (c : Instr) (q : Fin 8) (k : Nat) (obs : List Sample) (v : Vec) (s : State),
      ((c = .cont q obs ∧ k = 0x00) ∨ (c = .ldlv q obs ∧ k = 0x0A) ∨ (c = .trig q obs ∧ k = 0x0B) ∨ (c = .mark q obs ∧ k = 0x0D)) →
      s.vecReady q k v = true → (k = 0x0B → v.operand < (s.seq q).period v.tsel) → s.mapped q (v.addr + 1) = true →
      ∃ t, exec c s = .next t ∧ (t.seq q).next = v.addr + 1 ∧ t.rd .seq q Off.seqPc = word v.addr ∧
        t.vcnt q = (s.vcnt q + 1) % 2 ^ 48) ∧
  (∀ (c : Instr) (q : Fin 8) (k : Nat) (obs : List Sample) (v : Vec) (s : State),
      ((c = .rpt q obs ∧ k = 0x01) ∨ (c = .calgap q obs ∧ k = 0x0C)) →
      s.vecReady q k v = true → v.operand ≠ 0 → s.mapped q (v.addr + 1) = true →
      ∃ t, exec c s = .next t ∧ (t.seq q).left = v.operand - 1 ∧
        (t.seq q).next = (if v.operand = 1 then v.addr + 1 else v.addr) ∧ t.vcnt q = (s.vcnt q + 1) % 2 ^ 48) ∧
  (∀ (q : Fin 8) (obs : List Sample) (v : Vec) (s : State), s.vecReady q 0x02 v = true → v.operand ≠ 0 → s.mapped q (v.addr + 1) = true →
      (s.seq q).fromEndl = false → (s.seq q).loops.length < 8 →
      ∃ t, exec (.loop q obs) s = .next t ∧ (t.seq q).loops = (v.addr, v.operand) :: (s.seq q).loops ∧
        (t.seq q).next = v.addr + 1 ∧ t.vcnt q = (s.vcnt q + 1) % 2 ^ 48) ∧
  (∀ (q : Fin 8) (obs : List Sample) (v : Vec) (s : State), s.vecReady q 0x02 v = true → v.operand ≠ 0 → s.mapped q (v.addr + 1) = true →
      (s.seq q).fromEndl = true →
      ∃ t, exec (.loop q obs) s = .next t ∧ (t.seq q).loops = (s.seq q).loops ∧ (t.seq q).next = v.addr + 1 ∧
        t.vcnt q = (s.vcnt q + 1) % 2 ^ 48) ∧
  (∀ (q : Fin 8) (obs : List Sample) (v : Vec) (s : State), s.vecReady q 0x09 v = true →
      ∃ t, exec (.halt q obs) s = .next t ∧ t.seqState q = sDrain ∧ ((t.seq q).ending.map RunEnd.code) = some cHalted ∧
        t.vcnt q = (s.vcnt q + 1) % 2 ^ 48)

/-- JMP, CALL, RET, ENDL, BRF and BRE vectors choose the next address and keep the stacks. -/
def Obligations.VectorsTransferControl : Prop :=
  (∀ (q : Fin 8) (obs : List Sample) (v : Vec) (s : State), s.vecReady q 0x04 v = true → s.mapped q v.operand = true →
      (v.evsel.testBit 8 = false →
        ∃ t, exec (.jmp q obs) s = .next t ∧ (t.seq q).next = v.operand ∧ (t.seq q).loops = (s.seq q).loops) ∧
      (∀ l ls, v.evsel.testBit 8 = true → (s.seq q).loops = l :: ls →
        ∃ t, exec (.jmp q obs) s = .next t ∧ (t.seq q).next = v.operand ∧ (t.seq q).loops = ls)) ∧
  (∀ (q : Fin 8) (obs : List Sample) (v : Vec) (s : State), s.vecReady q 0x05 v = true → s.mapped q v.operand = true →
      (s.seq q).calls.length < 8 →
      ∃ t, exec (.call q obs) s = .next t ∧ (t.seq q).next = v.operand ∧
        (t.seq q).calls = (v.addr + 1) % 2 ^ 24 :: (s.seq q).calls) ∧
  (∀ (q : Fin 8) (obs : List Sample) (v : Vec) (a : Nat) (as : List Nat) (s : State), s.vecReady q 0x06 v = true →
      (s.seq q).calls = a :: as → s.mapped q a = true →
      ∃ t, exec (.ret q obs) s = .next t ∧ (t.seq q).next = a ∧ (t.seq q).calls = as) ∧
  (∀ (q : Fin 8) (obs : List Sample) (v : Vec) (a n : Nat) (ls : List (Nat × Nat)) (s : State), s.vecReady q 0x03 v = true →
      (s.seq q).loops = (a, n) :: ls →
      (1 < n → s.mapped q a = true →
        ∃ t, exec (.endl q obs) s = .next t ∧ (t.seq q).next = a ∧ (t.seq q).loops = (a, n - 1) :: ls) ∧
      (n ≤ 1 → s.mapped q (v.addr + 1) = true →
        ∃ t, exec (.endl q obs) s = .next t ∧ (t.seq q).next = v.addr + 1 ∧ (t.seq q).loops = ls)) ∧
  (∀ (q : Fin 8) (obs : List Sample) (v : Vec) (s : State), s.vecReady q 0x07 v = true →
      let h := s.retireHead q obs
      let c := branchCond (h.1.seq q).sites h.2 (if v.evsel.testBit 2 then .sticky else .fail) (v.evsel.testBit 0)
      let taken := xor c (v.evsel.testBit 1)
      let pop := taken && v.evsel.testBit 8
      ((s.seq q).loops = [] → pop = false) → s.mapped q (if taken then v.operand else v.addr + 1) = true →
      ∃ t, exec (.brf q obs) s = .next t ∧ (t.seq q).next = (if taken then v.operand else v.addr + 1) ∧
        (t.seq q).loops = (if pop then (s.seq q).loops.tail else (s.seq q).loops)) ∧
  (∀ (q : Fin 8) (obs : List Sample) (v : Vec) (c : Bool) (s : State), s.vecReady q 0x08 v = true →
      let n := nfld v.evsel 0 6
      let h := s.retireHead q obs
      let taken := xor c (v.evsel.testBit 7)
      let pop := taken && v.evsel.testBit 8
      (n < 4 ∧ c = (h.2.map fun y => y.evIn.testBit n).getD false ∨
        8 ≤ n ∧ n < 16 ∧ c = branchCond (h.1.seq q).sites h.2 (.event n) (v.evsel.testBit 6) ∨
        16 ≤ n ∧ n < 24 ∧ c = (h.2.map fun y => y.flags.testBit (n - 16)).getD false) →
      ((s.seq q).loops = [] → pop = false) → s.mapped q (if taken then v.operand else v.addr + 1) = true →
      ∃ t, exec (.bre q obs) s = .next t ∧ (t.seq q).next = (if taken then v.operand else v.addr + 1) ∧
        (t.seq q).loops = (if pop then (s.seq q).loops.tail else (s.seq q).loops))

/-- PIF, PELSE, PJOIN, SWHILE and SEND vectors keep the site-active mask and the site stack. -/
def Obligations.VectorsPredicateSites : Prop :=
  ∀ (q : Fin 8) (obs : List Sample) (v : Vec) (s : State),
    let h := s.retireHead q obs
    let x := (h.1.seq q).sites
    let a := x.active
    let c := siteCond x h.2 (siteSource v) (v.evsel.testBit 2)
    (s.vecReady q 0x10 v = true → badCond v 0 = false → x.stack.length < 8 →
      s.mapped q (if a &&& c = 0 then v.operand else v.addr + 1) = true →
      ∃ t, exec (.pif q obs) s = .next t ∧ IssuedWith s t q v (if a &&& c = 0 then v.operand else v.addr + 1) a
        { x with active := a &&& c, stack := .cond a (andNot a c) false :: x.stack }) ∧
    (∀ (m e : Nat) (l : List PredEntry), s.vecReady q 0x11 v = true → x.stack = .cond m e false :: l →
      s.mapped q (if e = 0 then v.operand else v.addr + 1) = true →
      ∃ t, exec (.pelse q obs) s = .next t ∧ IssuedWith s t q v (if e = 0 then v.operand else v.addr + 1) a
        { x with active := e, stack := .cond m e true :: l }) ∧
    (∀ (m e : Nat) (p : Bool) (l : List PredEntry), s.vecReady q 0x12 v = true → x.stack = .cond m e p :: l →
      s.mapped q (v.addr + 1) = true →
      ∃ t, exec (.pjoin q obs) s = .next t ∧ IssuedWith s t q v (v.addr + 1) a { x with active := m, stack := l }) ∧
    (s.vecReady q 0x13 v = true → nfld v.operand 0 16 ≠ 0 → x.stack.length < 8 → s.mapped q (v.addr + 1) = true →
      ∃ t, exec (.swhile q obs) s = .next t ∧ IssuedWith s t q v (v.addr + 1) a
        { x with stack := .loop a (nfld v.operand 0 16) [] :: x.stack }) ∧
    (∀ (m n : Nat) (k : List (Nat × Nat)) (l : List PredEntry),
      let pass := fun i => Store.getD (fun _ => 0) k i + 1
      let late := siteMask ((sitesOf a).filter fun i => !natBit c i && pass i == n)
      let stay := andNot a (siteMask ((sitesOf a).filter fun i => natBit c i || pass i == n))
      let k1 := (sitesOf a).foldl (fun o i => Store.put o i (pass i)) k
      s.vecReady q 0x14 v = true → badCond v 0 = false → x.stack = .loop m n k :: l →
      s.mapped q (if stay = 0 then v.addr + 1 else v.operand) = true →
      ∃ t, exec (.send q obs) s = .next t ∧ IssuedWith s t q v (if stay = 0 then v.addr + 1 else v.operand) a
        { x with swto := x.swto ||| late, active := if stay = 0 then m else stay,
                 stack := if stay = 0 then l else .loop m n k1 :: l })

/-- Primes, start windows, directory writes and granules take effect. -/
def Obligations.StreamCommandsTakeEffect : Prop :=
  (∀ (r : Requester) (q : Fin 8) (s : State), let v := putBit (s.rd .seq q Off.seqStrmCtrl) 0 true
      s.accepts r .seq q Off.seqStrmCtrl v = true → 8 ≤ fld v 8 8 → s.pageEn .seq q = true → s.seqActive q = false →
      s.mstate q ≠ mMapping →
      ∃ t, exec (.prime r q) s = .next t ∧ t.mstate q = mMapping ∧ (t.seq q).map = none ∧ (t.seq q).resident = [] ∧
        t.rb .seq q Off.seqPrimeResult 16 = false) ∧
  (∀ (q : Fin 8) (i : Nat) (m : List Seg) (s : State), s.mstate q = mMapping → s.primeCheck q [] = (0, i, m) → s.hbmBit 10 = false →
      (∀ g ∈ s.startWindow q m, ∃ sg, segOf m (64 * g) = some sg ∧ s.refillOk q sg g = true ∧
        s.poisoned (sg.granuleAt g) 2560 = false) →
      ∃ t, exec (.primeDone q []) s = .next t ∧ t.mstate q = mReady ∧ (t.seq q).map = some m ∧
        t.rf .seq q Off.seqPrimeResult 8 4 = 0 ∧ t.rb .seq q Off.seqPrimeResult 16 = true) ∧
  (∀ (r : Requester) (q : Fin 8) (a : BitVec 24) (s : State), s.accepts r .seq q Off.seqStartAddr (word a.toNat) = true →
      ∃ t, exec (.startAddrWrite r q a) s = .next t ∧ t.rf .seq q Off.seqStartAddr 0 24 = a.toNat ∧
        (s.seqActive q = false → s.mstate q = mReady → t.mstate q = mFilling)) ∧
  (∀ (q : Fin 8) (m : List Seg) (s : State), (s.seq q).map = some m → s.mstate q = mFilling → s.seqActive q = false → s.hbmBit 10 = false →
      (segOf m (s.rf .seq q Off.seqStartAddr 0 24)).isSome = true →
      (∀ g ∈ s.startWindow q m, ∃ sg, segOf m (64 * g) = some sg ∧ s.refillOk q sg g = true ∧
        s.poisoned (sg.granuleAt g) 2560 = false) →
      ∃ t, exec (.startWindowLoaded q) s = .next t ∧ t.mstate q = mReady ∧ (t.seq q).map = some m) ∧
  (∀ (r : Requester) (q : Fin 8) (v : Word) (s : State), s.accepts r .seq q Off.seqSdirN v = true → s.seqActive q = false →
      s.mstate q ≠ mMapping →
      ∃ t, exec (.sdirWrite r q 2 v) s = .next t ∧ t.rf .seq q Off.seqSdirN 0 11 = fld v 0 11 ∧ t.mstate q = mNomap ∧
        (t.seq q).map = none) ∧
  (∀ (q : Fin 8) (g : Fin 262144) (m : List Seg) (sg : Seg) (s : State), (s.seq q).map = some m → s.mstate q = mStreaming →
      s.seqState q ≠ sDrain → (s.seq q).has g.val = false → s.hbmBit 10 = false →
      (s.wanted q m (s.seq q).next).contains g.val = true → segOf m (64 * g.val) = some sg →
      s.refillOk q sg g = true → (s.eccRead (sg.granuleAt g.val) 2560 reqRefill .clean).2 = false →
      ∃ t, exec (.granuleResident q g .clean) s = .next t ∧ (t.seq q).has g.val = true ∧
        (t.seq q).resident.head? = some (g.val, (s.eccRead (sg.granuleAt g.val) 2560 reqRefill .clean).1.granuleWords q sg g.val))

/-- Snapshots are posted, capture records are written in order, and a flushed buffer is shown. -/
def Obligations.CaptureCommandsTakeEffect : Prop :=
  (∀ (q : Fin 8) (b : List Nat) (l : List (List Nat)) (s : State), (s.seq q).snaps = b :: l →
      let n := (s.seq q).cfg.siteRing
      (∃ t, exec (.snapshotPost q) s = .next t ∧ (t.seq q).snaps = l) ∧
      (n < 0x8000 → s.ringEn n = true → s.ringIn n = false → s.ringPaused = false → s.ringBehind n (.site q) = false →
        5 ≤ s.ringLog2 n → s.ringFill n + b.length ≤ s.ringCap n → (∀ e ∈ b, e < 2 ^ 256) →
        ∃ t, exec (.snapshotPost q) s = .next t ∧ t.pidx n = (s.pidx n + b.length) % 2 ^ 32 ∧
          ∀ j < b.length, t.hayGet (s.ringOwner n) (s.ringBase n + 32 * ((s.pidx n + j) % s.ringCap n)) 32 =
            pack [(0, 8, 1), (8, 4, 1), (12, 7, q), (30, 1, bit (j == 0 && (s.ring n).gap)),
              (31, 1, (s.pidx n + j) % 2 ^ 32 / s.ringCap n)] + 2 ^ 32 * (b.getD j 0 / 2 ^ 32)) ∧
      (s.ringEn n = false →
        ∃ t, exec (.snapshotPost q) s = .next t ∧ t.hay = s.hay ∧
          t.rf .site q Off.siteLost 0 16 = min 0xFFFF (s.rf .site q Off.siteLost 0 16 + b.length))) ∧
  (∀ (c : CapRec) (l : List CapRec) (s : State), s.catBuf = c :: l → c.seq < 8 →
      let x := (s.seq c.seq).cfg
      let p := s.rd2 .site c.seq Off.capWptrLo Off.capWptrHi
      let size := 2 ^ x.capSize
      (s.hbmBit 10 = true → exec .captureRecordWritten s = .next s) ∧
      (s.hbmBit 10 = false → c.body < 2 ^ 128 → x.capSize ≤ 34 →
        s.inRegion (s.ownerOf .seq c.seq) [captureKind] (x.capBase + p % size) 16 = true → (p < size ∨ tbit x.siteCtrl 2 = true) →
        ∃ t, exec .captureRecordWritten s = .next t ∧ t.catBuf = l ∧
          (s.rd .hbm 0 Off.pgEvtEn = 0 → t.hayGet (s.ownerOf .seq c.seq) (x.capBase + p % size) 16 = c.body) ∧
          t.rd2 .site c.seq Off.capWptrLo Off.capWptrHi = (if size ≤ p + 16 ∧ tbit x.siteCtrl 2 = true then 0 else p + 16) ∧
          t.rf .site c.seq Off.capCnt 0 32 = (s.rf .site c.seq Off.capCnt 0 32 + 1) % 2 ^ 32 ∧
          t.rd2 .cat 0 Off.catRecLo Off.catRecHi = (s.rd2 .cat 0 Off.catRecLo Off.catRecHi + 1) % 2 ^ 48) ∧
      (s.hbmBit 10 = false → size ≤ p → tbit x.siteCtrl 2 = false →
        ∃ t, exec .captureRecordWritten s = .next t ∧ t.catBuf = l ∧ t.hay = s.hay ∧ t.rb .site c.seq Off.capStat 0 = true ∧
          t.rf .site c.seq Off.capDrop 0 32 = min 0xFFFFFFFF (s.rf .site c.seq Off.capDrop 0 32 + 1) ∧
          natBit (t.seq c.seq).sites.caplost c.site = true ∧ t.rd .site c.seq Off.capCnt = s.rd .site c.seq Off.capCnt)) ∧
  (∀ (q : Fin 8) (s : State), (s.seq q).ran = true → s.seqActive q = false → (∀ c ∈ s.catBuf, c.seq ≠ q.val) →
      ∃ t, exec (.captureFlushed q) s = .next t ∧ t.rb .site q Off.capStat 2 = true ∧ t.rb .site q Off.pgEvt 2 = true)

/-- TIM units and verniers are armed and stopped, events are stamped, results are stored, entries are posted and FIFOs are read. -/
def Obligations.TimUnitsMeasure : Prop :=
  ((∀ (r : Requester) (st : Fin 128) (c : Fin 16) (s : State), s.accepts r .tim st Off.timArm (word (2 ^ c.val)) = true →
      s.pageEn .tim st = true → s.measuring st = true → s.epochValid = true → s.timMode st c ≠ tmTdr →
      s.timState st c = tIdle →
      ∃ t, exec (.timArm r st c) s = .next t ∧
        t.timState st c = (if s.rb .tim st (Off.timCfg c) 17 then tWait else tAcq) ∧ (t.tim st c).count = 0 ∧
        (t.tim st c).live = true ∧ t.rb .tim st (Off.timRes c 0) 16 = false) ∧
  (∀ (r : Requester) (st : Fin 128) (s : State), s.accepts r .tim st Off.timArm (word (2 ^ 16)) = true →
      s.pageEn .tim st = true → s.measuring st = true → s.epochValid = true → s.rb .tim st Off.timVstat 8 = false →
      ∃ t, exec (.vernierArm r st) s = .next t ∧ t.rb .tim st Off.timVstat 8 = true ∧
        (t.vernier st).chan = s.rf .tim st Off.timVcfg 0 4) ∧
  (∀ (r : Requester) (st : Fin 128) (c : Fin 17) (s : State), s.accepts r .tim st Off.timStop (word (2 ^ c.val)) = true →
      ∃ t, exec (.timStop r st c) s = .next t ∧
        (c.val < 16 → (s.timState st c = tWait ∨ s.timState st c = tAcq) →
          t.timState st c = tDrain ∧ (t.tim st c).endCode = endStop) ∧
        (c.val = 16 → t.rb .tim st Off.timVstat 8 = false))) ∧
  ((∀ (st : Fin 128) (c : Fin 16) (x : BitVec 64) (strobe : Bool) (s : State), s.timState st c = tAcq → s.timMode st c = tmStamp →
      s.timSrc st c < 4 → s.timGate st c = 0 → s.rb .stl st Off.stlPark c = false → s.rf .tim st (Off.timCfg c) 24 4 = 0 →
      (s.tim st c).skip = 0 → (s.tim st c).lastRaw = none →
      ∃ t, exec (.timEvent st c x strobe) s = .next t ∧ (t.tim st c).count = (s.tim st c).count + 1 ∧
        (t.tim st c).last = some (s.needleStamp (16 * st + c) x.toNat)) ∧
  (∀ (st : Fin 128) (x : BitVec 64) (s : State), s.rb .tim st Off.timVstat 8 = true →
      s.rb .stl st Off.stlPark (s.vernier st).chan = false → (s.vernier st).last = none → (s.vernier st).fifo.length < 16 →
      ∃ t, exec (.vernierEvent st x) s = .next t ∧ (t.vernier st).fifo = (s.vernier st).fifo ++ [s.needleVernier (16 * st + (s.vernier st).chan) x.toNat]) ∧
  (∀ (st : Fin 128) (c : Fin 16) (x : BitVec 48) (s : State), s.timState st c = tAcq → s.timMode st c = tmTdr →
      ∃ t, exec (.tdrLaunch st c (some x)) s = .next t ∧ (t.tim st c).count = (s.tim st c).count + 1 ∧
        (t.tim st c).sum = (s.tim st c).sum + x.toNat) ∧
  (∀ (st : Fin 128) (c : Fin 16) (s : State), s.timState st c = tDrain → (s.tim st c).stored = false →
      (s.tim st c).ring = none →
      ∃ t, exec (.timResultStored st c) s = .next t ∧ t.rb .tim st (Off.timRes c 0) 16 = true ∧ t.timState st c = tIdle ∧
        ((s.tim st c).count < 2 ^ 24 → t.rd .tim st (Off.timRes c 1) = word (s.tim st c).count)) ∧
  (∀ (st : Fin 128) (c : Fin 16) (n : Nat) (s : State), (s.tim st c).ring = some n → (s.tim st c).fifo ≠ [] →
      s.ringStuck n = false → s.timTurn st c = true →
      ∃ t, exec (.timEntryPost st ⟨c, by omega⟩) s = .next t ∧ (t.tim st c).fifo = (s.tim st c).fifo.drop 4) ∧
  (∀ (r : Requester) (st : Fin 128) (c : Fin 16) (e : Stamp) (l : List Stamp) (s : State), s.reach r .tim st = .full →
      (s.tim st c).fifo = e :: l → (s.tim st c).ring = none →
      ∃ t, exec (.timFifoRead r st c) s = .next t ∧ (t.tim st c).fifo = l ∧ t.resp = [word e.val]) ∧
  (∀ (r : Requester) (st : Fin 128) (e : Nat) (l : List Nat) (s : State), s.reach r .tim st = .full →
      (s.vernier st).fifo = e :: l → (s.vernier st).ring = none →
      ∃ t, exec (.vernierFifoRead r st) s = .next t ∧ (t.vernier st).fifo = l ∧ t.resp = [word e]))

/-- PMU outputs, modes, ranges, force codes, clamps, gangs, limits and waves take effect. -/
def Obligations.PmuCommandsTakeEffect : Prop :=
  ((∀ (r : Requester) (st : Fin 128) (u : Fin 4) (s : State), let v := putBit (s.rd .pmu st (Off.pmuCtrl u)) 0 true
      s.accepts r .pmu st (Off.pmuCtrl u) v = true → s.follower st u = false → s.rf .pmu st (Off.pmuCtrl u) 4 3 < 6 →
      s.rb .pmu st (Off.pmuCtrl u) 0 = false → s.pageEn .pmu st = true → s.pmuPowered st = true →
      s.modeOf (s.ownerOf .stl st) ≠ 6 → s.pmuState st u ≠ pmuShut → s.pmuState st u ≠ pmuClamped →
      (∀ w ∈ s.gangUnits st u, s.farUsesPmu st w = false) →
      ∃ t, exec (.pmuOutputEnable r st u) s = .next t ∧ t.rb .pmu st (Off.pmuCtrl u) 0 = true ∧ t.pmuState st u = pmuForce) ∧
  (∀ (r : Requester) (st : Fin 128) (u : Fin 4) (s : State), let v := putBit (s.rd .pmu st (Off.pmuCtrl u)) 0 false
      s.accepts r .pmu st (Off.pmuCtrl u) v = true → s.follower st u = false → s.rf .pmu st (Off.pmuCtrl u) 4 3 < 6 →
      s.rb .pmu st (Off.pmuCtrl u) 0 = true →
      ∃ t, exec (.pmuOutputDisable r st u) s = .next t ∧ t.rb .pmu st (Off.pmuCtrl u) 0 = false ∧ t.pmuState st u = pmuIdle) ∧
  (∀ (r : Requester) (st : Fin 128) (u : Fin 4) (fi : Bool) (s : State),
      let v := putBit (s.rd .pmu st (Off.pmuCtrl u)) 1 fi
      s.accepts r .pmu st (Off.pmuCtrl u) v = true → s.follower st u = false → s.rf .pmu st (Off.pmuCtrl u) 4 3 < 6 →
      s.rb .pmu st (Off.pmuCtrl u) 0 = false → s.rb .pmu st (Off.pmuCtrl u) 1 ≠ fi →
      ∃ t, exec (.pmuModeWrite r st u fi) s = .next t ∧ t.rb .pmu st (Off.pmuCtrl u) 1 = fi ∧
        t.rf .pmu st (Off.pmuForce u) 0 18 = zeroCode fi ∧ (t.pmu st u).force = zeroCode fi ∧
        ((s.pmu st u).wave.plays = false → (t.pmu st u).applied = zeroCode fi)) ∧
  (∀ (r : Requester) (st : Fin 128) (u : Fin 4) (range : Fin 8) (s : State),
      let v := putFld (s.rd .pmu st (Off.pmuCtrl u)) 4 3 range
      s.accepts r .pmu st (Off.pmuCtrl u) v = true → s.follower st u = false → range.val < 6 →
      s.rf .pmu st (Off.pmuCtrl u) 4 3 ≠ range → s.rb .pmu st (Off.pmuStat u) 3 = false →
      (s.rb .pmu st (Off.pmuCtrl u) 0 = false → s.pmuState st u ≠ pmuForce →
        ∃ t, exec (.pmuRangeWrite r st u range) s = .next t ∧ t.rf .pmu st (Off.pmuCtrl u) 4 3 = range ∧
          (t.pmu st u).range = range) ∧
      (s.rb .pmu st (Off.pmuCtrl u) 0 = true → s.rb .pmu st (Off.pmuCtrl u) 1 = false → s.pmuState st u = pmuForce →
        ∃ t, exec (.pmuRangeWrite r st u range) s = .next t ∧ t.rf .pmu st (Off.pmuCtrl u) 4 3 = range ∧
          t.rb .pmu st (Off.pmuStat u) 3 = true ∧ t.pmuState st u = pmuRanging)) ∧
  (∀ (st : Fin 128) (u : Fin 4) (s : State), s.rb .pmu st (Off.pmuStat u) 3 = true → s.pmuState st u = pmuRanging →
      (s.pmu st u).clampNext = false →
      ∃ t, exec (.pmuRangeDone st u) s = .next t ∧ t.rb .pmu st (Off.pmuStat u) 3 = false ∧ t.pmuState st u = pmuForce ∧
        (t.pmu st u).range = s.rf .pmu st (Off.pmuCtrl u) 4 3) ∧
  (∀ (r : Requester) (st : Fin 128) (u : Fin 4) (code : BitVec 18) (s : State),
      s.accepts r .pmu st (Off.pmuForce u) (word code.toNat) = true → s.follower st u = false →
      codeLo (s.pmuFi st u) ≤ code.toNat → code.toNat ≤ codeHi (s.pmuFi st u) → s.rb .pmu st (Off.pmuCtrl u) 10 = false →
      s.rb .pmu st (Off.pmuStat u) 3 = false →
      ∃ t, exec (.pmuForceWrite r st u code) s = .next t ∧ t.rf .pmu st (Off.pmuForce u) 0 18 = code.toNat ∧
        (t.pmu st u).force = code.toNat ∧
        ((s.pmu st u).wave.plays = false → (t.pmu st u).applied = code.toNat)) ∧
  (∀ (r : Requester) (st : Fin 128) (u : Fin 4) (code : BitVec 16) (s : State),
      s.accepts r .pmu st (Off.pmuVclh u) (word code.toNat) = true → s.follower st u = false → code.toNat ≤ 0xFA00 →
      s.rf .pmu st (Off.pmuVcll u) 0 16 + 4000 ≤ code.toNat →
      ∃ t, exec (.pmuClampWrite r st u true code) s = .next t ∧ t.rf .pmu st (Off.pmuVclh u) 0 16 = code.toNat) ∧
  (∀ (r : Requester) (st : Fin 128) (u : Fin 4) (code : BitVec 16) (s : State),
      s.accepts r .pmu st (Off.pmuVcll u) (word code.toNat) = true → s.follower st u = false → code.toNat ≤ 0xFA00 →
      code.toNat + 4000 ≤ s.rf .pmu st (Off.pmuVclh u) 0 16 →
      ∃ t, exec (.pmuClampWrite r st u false code) s = .next t ∧ t.rf .pmu st (Off.pmuVcll u) 0 16 = code.toNat) ∧
  (∀ (r : Requester) (st : Fin 128) (en : Bool) (s : State), s.accepts r .pmu st Off.pmuGang (word (bit en)) = true →
      (∀ u < 4, s.rb .pmu st (Off.pmuCtrl u) 0 = false) →
      ∃ t, exec (.pmuGangWrite r st en) s = .next t ∧ t.rb .pmu st Off.pmuGang 0 = en)) ∧
  ((∀ (st : Fin 128) (u : Fin 4) (s : State), s.pmuLive st u = true → s.pmuFi st u = false →
      ∃ t, exec (.pmuIlim st u) s = .next t ∧ t.rb .pmu st (Off.pmuFlags u) 0 = true ∧
        t.rf .pmu st Off.pmuIlimCnt 0 16 = min 0xFFFF (s.rf .pmu st Off.pmuIlimCnt 0 16 + 1)) ∧
  (∀ (st : Fin 128) (u : Fin 4) (s : State), s.pmuState st u = pmuForce → s.pmuLive st u = true → s.pmuFi st u = false →
      s.rb .pmu st (Off.pmuIlim (s.leader st u)) 8 = true →
      ∃ t, exec (.pmuShut st u) s = .next t ∧ t.rb .pmu st (Off.pmuCtrl u) 0 = false ∧ t.pmuState st u = pmuShut ∧
        t.rb .pmu st (Off.pmuFlags u) 3 = true) ∧
  (∀ (st : Fin 128) (u : Fin 4) (s : State), s.pmuLive st u = true → s.pmuFi st u = true →
      ∃ t, exec (.pmuVclamp st u) s = .next t ∧ t.rb .pmu st (Off.pmuFlags u) 1 = true) ∧
  (∀ (st : Fin 128) (u : Fin 4) (s : State), s.rb .pmu st (Off.pmuCtrl (s.leader st u)) 8 = true →
      s.rb .pmu st (Off.pmuCtrl u) 0 = true →
      ∃ t, exec (.senseOpen st u) s = .next t ∧ t.rb .pmu st (Off.pmuFlags u) 4 = true ∧ (t.pmu st u).fallback = true) ∧
  (∀ (st : Fin 128) (u : Fin 4) (p : PmuSt) (s : State), Store.sorted s.pmus = true →
      Store.get? s.pmus (4 * st + u) = some p → p.wave = .running → s.rb .pmu st (Off.pmuWave u) 20 = true →
      s.follower st u = false →
      ∃ t, exec .waveUpdate s = .next t ∧ (t.pmu st u).acc = (p.acc + s.rf .pmu st (Off.pmuFreq u) 0 32) % 2 ^ 32 ∧
        (t.pmu st u).wave = .running ∧ (t.pmu st u).amp = s.rf .pmu st (Off.pmuWave u) 0 17) ∧
  (∀ (r : Requester) (st : Fin 128) (v : Word) (s : State), s.accepts r .pmu st Off.pmuWtData v = true →
      s.rb .pmu st (Off.pmuWave (s.rf .pmu st Off.pmuWtIdx 16 2)) 20 = false →
      ∃ t, exec (.waveTableWrite r st v) s = .next t ∧
        t.waveEntry st (s.rf .pmu st Off.pmuWtIdx 16 2) (s.rf .pmu st Off.pmuWtIdx 0 12) = fld v 0 18) ∧
  (∀ (r : Requester) (st : Fin 128) (u : Fin 4) (s : State),
      let v := putBit (putFld (s.rd .pmu st Off.pmuWtIdx) 16 2 u) 24 true
      s.accepts r .pmu st Off.pmuWtIdx v = true → s.pageEn .pmu st = true → s.rb .pmu st (Off.pmuWave u) 20 = false →
      s.rb .pmu st Off.pmuWtIdx 24 = false →
      ∃ t, exec (.waveTableDefault r st u) s = .next t ∧ t.rb .pmu st Off.pmuWtIdx 24 = true ∧ (t.pmu st u).reload = true) ∧
  (∀ (st : Fin 128) (u : Fin 4) (s : State), (s.pmu st u).reload = true →
      ∃ t, exec (.waveTableDefaultDone st u) s = .next t ∧ t.rb .pmu st Off.pmuWtIdx 24 = false ∧
        ∀ i < 4096, t.waveEntry st u i = sineEntry i))

/-- Converters arm, trigger, stop, integrate and store a result. -/
def Obligations.ConvertersConvert : Prop :=
  (∀ (r : Requester) (st : Fin 128) (u : Fin 4) (s : State), let y := s.cnvReachAll st
      s.accepts r .cnv st Off.cnvArm (word (2 ^ u.val)) = true → y.cnvArmShut r st = none → y.cnvArmError st u = none →
      y.cnvState st u = kIdle →
      ∃ t, exec (.cnvArm r st u) s = .next t ∧ t.rb .cnv st (Off.cnvRes u 0) 16 = false ∧ (t.cnv st u).live = true ∧
        (y.cnvTrig st u ≠ 0 → t.cnvState st u = kArmed) ∧
        (y.cnvTrig st u = 0 → t.cnvState st u = kWake ∧ (t.cnv st u).trig = y.now)) ∧
  (∀ (r : Requester) (st : Fin 128) (u : Fin 4) (s : State), let y := s.cnvReachAll st
      s.accepts r .cnv st Off.cnvStop (word (2 ^ u.val)) = true →
      (y.cnvState st u = kArmed → ∃ t, exec (.cnvStop r st u) s = .next t ∧ t.cnvState st u = kIdle) ∧
      (y.cnvState st u = kWake ∨ y.cnvState st u = kInteg →
        ∃ t, exec (.cnvStop r st u) s = .next t ∧ t.cnvState st u = kResid ∧ (t.cnv st u).endCode = kStop)) ∧
  (∀ (st : Fin 128) (u : Fin 4) (s : State), s.cnvState st u = kArmed → s.cnvTrig st u = 1 →
      ∃ t, exec (.cnvTickTrigger st) s = .next t ∧ t.cnvState st u = kWake ∧
        (t.cnv st u).trig = s.nowTick (s.rd2 .cnv st Off.cnvStartTickLo Off.cnvStartTickHi)) ∧
  (∀ (st : Fin 128) (u : Fin 4) (s : State), s.cnvState st u = kWake →
      ∃ t, exec (.apertureStart st u) s = .next t ∧ t.cnvState st u = kInteg ∧
        (t.cnv st u).start = (s.cnv st u).trig + 64000 ∧ (t.cnv st u).len = s.cnvLen st u) ∧
  (∀ (st : Fin 128) (u : Fin 4) (code : BitVec 24) (neg : Bool) (s : State), s.cnvState st u = kInteg →
      (s.cnv st u).ovr = false → (s.cnv st u).endCode = 0 →
      (s.cnvStream st u = false →
        ∃ t, exec (.apertureEnd st u code 0 neg) s = .next t ∧ t.cnvState st u = kResid ∧
          (t.cnv st u).code = (if code.toNat = 0x800000 then 0x800001 else code.toNat)) ∧
      (s.cnvStream st u = true →
        ∃ t, exec (.apertureEnd st u code 0 neg) s = .next t ∧ t.cnvState st u = kInteg ∧
          (t.cnv st u).start = (s.cnv st u).start + (s.cnv st u).len)) ∧
  (∀ (st : Fin 128) (u : Fin 4) (s : State), s.cnvState st u = kResid → s.cnvStream st u = false →
      s.pmuPowered st = true → s.cnvRearm st u = false →
      ∃ t, exec (.cnvResultStored st u) s = .next t ∧ t.cnvState st u = kIdle ∧
        t.rb .cnv st (Off.cnvRes u 0) 16 = true ∧
        t.rf .cnv st (Off.cnvRes u 0) 0 8 = (s.rf .cnv st (Off.cnvRes u 0) 0 8 + 1) % 256 ∧
        t.rf .cnv st (Off.cnvRes u 0) 26 2 = (s.cnv st u).endCode % 4 ∧
        t.rd .cnv st (Off.cnvRes u 1) = word (s.cnv st u).code)

/-- The mains line locks on 16 valid periods and is lost, and the reference buffer becomes ready. -/
def Obligations.MainsAndReferenceFollowTheirInputs : Prop :=
  (∀ (per : BitVec 32) (b : Fin 8) (s : State), s.line.seen = true → s.rf .brn 0 Off.brnLineCfg 0 2 = 0 →
      (48484848 ≤ per.toNat ∧ per.toNat ≤ 71111111 ∧ s.line.periods.length = 15 →
        ∃ t, exec (.mainsCrossing per) s = .next t ∧ t.rb .brn b Off.brnLineStat 0 = true ∧
          t.rb .brn b Off.brnLineStat 1 = false ∧ t.rf .brn b Off.brnLineStat 8 5 = 16) ∧
      (per.toNat < 48484848 ∨ 71111111 < per.toNat →
        ∃ t, exec (.mainsCrossing per) s = .next t ∧ t.rb .brn b Off.brnLineStat 0 = false ∧
          t.rb .brn b Off.brnLineStat 1 = true)) ∧
  (∀ (b : Fin 8) (s : State), s.rf .brn 0 Off.brnLineCfg 0 2 = 0 →
      ∃ t, exec .mainsLost s = .next t ∧ t.rb .brn b Off.brnLineStat 0 = false ∧ t.rb .brn b Off.brnLineStat 1 = true ∧
        t.line.periods = []) ∧
  (∀ (r : Requester) (b : Fin 8) (s : State),
      (s.accepts r .brn b Off.brnRefCtrl (word 1) = true → s.pageEn .brn b = true →
        ∃ t, exec (.refEnable r b true) s = .next t ∧ t.rb .brn b Off.brnRefCtrl 0 = true ∧
          t.rb .brn b Off.brnRefStat 0 = true) ∧
      (s.accepts r .brn b Off.brnRefCtrl (word 0) = true →
        ∃ t, exec (.refEnable r b false) s = .next t ∧ t.rb .brn b Off.brnRefCtrl 0 = false ∧
          t.rd .brn b Off.brnRefStat = 0)) ∧
  (∀ (b : Fin 8) (s : State), s.rb .brn b Off.brnRefStat 0 = true →
      ∃ t, exec (.refReady b) s = .next t ∧ t.rb .brn b Off.brnRefStat 1 = true)

/-- Acquisition engines arm, take a forced trigger, end slots, stop and go idle. -/
def Obligations.AcquisitionEnginesRecord : Prop :=
  (∀ (r : Requester) (b : Fin 8) (s : State), let y := s.acqReach b
      s.accepts r .acq b Off.acqCtrl 1 = true → y.acqArmShut b = none → y.acqArmError b = none → y.acqState b = aIdle →
      ∃ t, exec (.acqArm r b) s = .next t ∧ t.acqState b = aFill ∧ (t.acq b).mem = [] ∧ (t.acq b).rcd = none ∧
        t.rb .acq b (Off.acqRes 0) 16 = false ∧ t.rd .acq b Off.acqMissed = 0) ∧
  (∀ (r : Requester) (b : Fin 8) (s : State), let y := s.acqReach b
      s.accepts r .acq b Off.acqCtrl 2 = true → y.acqState b = aFill →
      ∃ t, exec (.acqStop r b) s = .next t ∧ t.acqState b = aIdle) ∧
  (∀ (r : Requester) (b : Fin 8) (s : State), let y := s.acqReach b
      s.accepts r .acq b Off.acqCtrl 4 = true → y.acqState b = aFill →
      y.now ≠ (y.acq b).armTick → (y.acq b).lastTrig ≠ some y.now → y.acqQualified b y.now = true →
      (y.acq b).fillSlot + y.rf .acq b Off.acqQual 16 16 ≤ (y.acq b).slotOf y.now →
      ∃ t rc, exec (.acqForce r b) s = .next t ∧ (t.acq b).rcd = some rc ∧ rc.tick = y.now ∧
        rc.slot = (y.acq b).slotOf y.now) ∧
  (∀ (b : Fin 8) (s : State), s.acqState b ≠ aIdle → (∃ i ∈ s.acqGood b, (s.acq b).slots < (s.acq b).apersOf i) →
      (∀ i ∈ s.acqGood b, natBit (s.acq b).begun i = false ∨ natBit (s.acq b).ended i = true ∨
        ((s.acq b).slots : Int) < ((s.acq b).apersOf i : Int) + s.acqSkewOf b i) →
      ∃ t, exec (.acqSlotEnd b) s = .next t ∧ (t.acq b).slots = (s.acq b).slots + 1) ∧
  (∀ (b : Fin 8) (rc : AcqRec) (s : State), s.acqState b = aRearm → (s.acq b).ring = none → (s.acq b).rcd = some rc →
      rc.stored = true → s.rf .acq b Off.acqNrec 0 16 = 1 →
      ∃ t, exec (.rearmEnd b) s = .next t ∧ t.acqState b = aIdle ∧ (t.acq b).done = (s.acq b).done + 1)

/-- Watch comparators take their settings, cross, trip, resolve and release. -/
def Obligations.WatchComparatorsWatch : Prop :=
  (∀ (r : Requester) (st : Fin 128) (c : Fin 16) (v : Word) (s : State), s.accepts r .wch st (Off.wchCfg c) v = true →
      (tbit v 2 = false ∨ c.val % 4 = 0) → fld v 8 6 ≤ 50 → fld v 16 2 < 2 → fld v 18 2 < 2 →
      ∃ t, exec (.wchCfgWrite r st c v) s = .next t ∧ t.rb .wch st (Off.wchCfg c) 0 = tbit v 0 ∧
        t.rb .wch st (Off.wchCfg c) 1 = tbit v 1 ∧ t.rf .wch st (Off.wchCfg c) 8 6 = fld v 8 6 ∧
        t.rf .wch st (Off.wchCfg c) 16 2 = fld v 16 2 ∧ t.rf .wch st (Off.wchCfg c) 18 2 = fld v 18 2) ∧
  (∀ (r : Requester) (st : Fin 128) (c : Fin 16) (v : Word) (s : State), s.accepts r .wch st (Off.wchThr c) v = true →
      fld v 16 12 < fld v 0 12 →
      ∃ t, exec (.wchThrWrite r st c v) s = .next t ∧ t.rf .wch st (Off.wchThr c) 0 12 = fld v 0 12 ∧
        t.rf .wch st (Off.wchThr c) 16 12 = fld v 16 12) ∧
  (∀ (st : Fin 128) (i : Fin 32) (v : Int) (n : BitVec 64) (b : Bool) (s : State), s.watchSampled st = false →
      s.analogOn = true → natBit (s.watchEnabled st) i = true → s.rb .wch st Off.wchUnres i = true →
      s.watchSide st i v = some false →
      ∃ t, exec (.wchResolve st i v n b) s = .next t ∧ t.rb .wch st Off.wchUnres i = false ∧
        t.rb .wch st Off.wchLive i = false) ∧
  (∀ (st : Fin 128) (i : Fin 32) (v : Int) (n : BitVec 64) (b : Bool) (s : State), s.watchSampled st = false →
      s.analogOn = true → natBit (s.watchEnabled st) i = true → s.rb .wch st Off.wchUnres i = false →
      s.rb .wch st Off.wchLive i = false → s.watchSide st i v = some true →
      (s.watchAct st i = 0 →
        ∃ t, exec (.wchCrossing st i v n b) s = .next t ∧ t.rb .wch st Off.wchLive i = true ∧
          t.rb .wch st Off.wchXing i = true) ∧
      (s.watchAct st i = 1 → s.watchTest st (i % 16) = 0 →
        ∃ t, exec (.wchCrossing st i v n b) s = .next t ∧ t.pins.tripLow = true ∧
          natBit (Store.getD (fun _ => 0) t.trips st) i = true)) ∧
  (∀ (st : Fin 128) (i : Fin 32) (v : Int) (s : State), s.watchSampled st = false → s.analogOn = true →
      natBit (s.watchEnabled st) i = true → s.rb .wch st Off.wchLive i = true → s.watchSide st i v = some false →
      ∃ t, exec (.wchRelease st i v) s = .next t ∧ t.rb .wch st Off.wchLive i = false) ∧
  (∀ (st : Fin 128) (vs : List Int) (n : BitVec 64) (b : Bool) (s : State), s.rb .wch st Off.wchCtrl 0 = true →
      s.watchEnabled st = 0 →
      ∃ t, exec (.wchSampleTick st vs n b) s = .next t ∧ t.watchSampled st = true ∧ Store.get? t.wchPend st = none ∧
        (Store.get? s.wchPend st = none → t.regs = s.regs)) ∧
  (∀ (s : State), s.mode.dev ≠ .m11 → ∃ t, exec .tripNRelease s = .next t ∧ t.pins.tripLow = false)

/-- The farrier runs, steps, switches over and ends a run. -/
def Obligations.FarrierRunsAndSteps : Prop :=
  (∀ (r : Requester) (s : State), s.accepts r .far 0 Off.farCtrl 1 = true → s.pageEn .far 0 = true →
      (s.mode.dev = .m4 ∨ s.mode.dev = .m10) → s.farState = fIdle →
      ∃ t, exec (.farrierRun r) s = .next t ∧ t.farState = fCopy ∧ t.rb .far 0 Off.farResultLo 16 = false ∧
        t.rd .far 0 Off.farSteps = 0 ∧ t.far.groups = s.rf .far 0 Off.farCfg 0 7 ∧ t.far.barns = s.rf .far 0 Off.farScope 0 8) ∧
  (∀ (r : Requester) (s : State), s.accepts r .far 0 Off.farCtrl 2 = true → 1 ≤ s.farState → s.farState ≤ 3 →
      s.far.ending = none → s.far.steps = [] →
      ∃ t, exec (.farrierAbort r) s = .next t ∧ t.farState = fIdle ∧ t.rb .far 0 Off.farResultLo 16 = true ∧
        t.rf .far 0 Off.farResultLo 8 4 = farAborted) ∧
  (∀ (s : State), s.farState = fCopy → s.far.steps = [] →
      (∃ g < 7, s.groupCan g = true ∧ instances g s.far.barns ≠ []) → s.far.done = [] →
      ∃ t, exec .farrierCopyDone s = .next t ∧ t.farState = fStepping ∧ t.inactiveBank = s.activeBank) ∧
  (∀ (st : Fin 128) (g : Fin 7) (inst : Fin 2048) (mask : BitVec 16) (src : GapSource) (n : BitVec 48) (s : State),
      s.stepOk st g inst mask.toNat src n.toNat = true →
      ∃ t, exec (.farrierStepStart st g inst mask src n) s = .next t ∧ t.stepIn st = true ∧
        ∀ c < 16, natBit mask.toNat c = true → t.borrowed (16 * st + c) = true) ∧
  (∀ (st : Fin 128) (ok : Bool) (s : State), s.stepIn st = true →
      ∃ t, exec (.farrierStepEnd st ok) s = .next t ∧ t.stepIn st = false ∧
        t.rd .far 0 Off.farSteps = s.rd .far 0 Off.farSteps + 1) ∧
  (∀ (n : BitVec 48) (s : State), s.farState = fSwWait → (s.owningSeqs.any fun q => !s.seqQuiet q n.toNat) = false →
      ∃ t, exec (.farrierSwitchover n) s = .next t ∧ t.bankB = !s.bankB ∧ t.farState = fIdle ∧
        t.rd .far 0 Off.farEpoch = s.rd .far 0 Off.farEpoch + 1 ∧ t.rf .far 0 Off.farResultLo 8 4 = farSwitched) ∧
  (∀ (s : State), s.farState = fSwWait →
      ∃ t, exec .swLate s = .next t ∧ t.rb .far 0 Off.farStat 3 = true)

/-- The farrier stores its bank, its host windows open and end, and INDEX_N is followed. -/
def Obligations.FarrierStoresAndWindows : Prop :=
  (∀ (r : Requester) (s : State), s.accepts r .far 0 Off.farCtrl 4 = true → s.pageEn .far 0 = true → s.farState = fIdle →
      ∃ t, exec (.farrierStore r) s = .next t ∧ t.farState = fStore ∧ t.rb .tak 0 Off.takStoreResult 16 = false) ∧
  (∀ (ok : Bool) (s : State), s.farState = fStore →
      ∃ t, exec (.farrierStoreDone ok) s = .next t ∧ t.farState = fIdle ∧ t.rb .tak 0 Off.takStoreResult 16 = true ∧
        t.rb .far 0 Off.pgEvt 4 = true ∧
        (s.noSpace = true → t.rf .tak 0 Off.takStoreResult 8 4 = 2 ∧ t.flash = s.flash) ∧
        (s.noSpace = false → ok = false → t.rf .tak 0 Off.takStoreResult 8 4 = 1) ∧
        (s.noSpace = false → ok = true → t.rf .tak 0 Off.takStoreResult 8 4 = 0 ∧ t.rb .tak 0 Off.takStat 8 = true ∧
          t.flash = s.storeWrite.flash)) ∧
  (∀ (r : Requester) (v : Word) (s : State), s.accepts r .far 0 Off.farWinCfg (putBit v 31 true) = true →
      0 < fld v 0 20 → fld v 0 20 ≤ 1000000 → s.far.win = none → s.pageEn .far 0 = true →
      ∃ t, exec (.farrierWindowArm r v) s = .next t ∧ t.rb .far 0 Off.farWinCfg 31 = true ∧
        t.far.win = some (s.rd2 .far 0 Off.farWinTickLo Off.farWinTickHi, fld v 0 20 * 3200, fld v 20 8, tbit v 28)) ∧
  (∀ (s : State), s.far.win ≠ none → ∃ t, exec .farrierWindowOpen s = .next t ∧ t.winOpen = true) ∧
  (∀ (s : State), s.winOpen = true →
      ∃ t, exec .farrierWindowEnd s = .next t ∧ t.winOpen = false ∧ t.far.win = none ∧ t.far.steps = s.far.steps) ∧
  (∀ (high : Bool) (s : State), ∃ t, exec (.indexNChange high) s = .next t ∧ t.pins.indexN = high ∧
      (high = true → ∀ x ∈ t.far.steps, x.byIndex = false))

/-- SV_NOP and the register services end OK with the words of R485. -/
def Obligations.RegisterServicesAnswer : Prop :=
  (∀ (g : Fin 8) (p : Probe) (c : Ctx) (s : State), s.romRuns g c 0x00 0 p = true →
      ∃ t y, exec (.svNop g none p) s = .next t ∧ ServiceEnds t y g c [0, 0, 0, 0] ∧ y.regs = s.regs) ∧
  (∀ (g : Fin 8) (p : Probe) (c : Ctx) (s : State), let a := c.rcd.f 0 2 30 * 4
      let x := (s.reach15 c.rcd.op p.addr.toNat).read32 (.groom g) a
      c.rcd.f 0 0 2 = 0 → s.reaches (.groom g) a = true →
      (s.romRuns g c 0x01 0 p = true →
        ∃ t y, exec (.svRegRead g none p) s = .next t ∧ ServiceEnds t y g c [x.2.toNat, 0, 0, 0]) ∧
      (s.romRuns g c 0x02 0 p = true → x.1.takes (.groom g) a (word (c.rcd.p 1)) = true →
        ∃ t y, exec (.svRegWrite g none p) s = .next t ∧ ServiceEnds t y g c [x.2.toNat, 0, 0, 0] ∧
          y.regs = (x.1.write32 (.groom g) a (word (c.rcd.p 1))).regs)) ∧
  (∀ (g : Fin 8) (p : Probe) (c : Ctx) (s : State), let a := c.rcd.f 0 2 30 * 4
      let x := (s.reach15 c.rcd.op p.addr.toNat).read32 (.groom g) a
      let v := (x.2.toNat &&& c.rcd.p 1) ||| c.rcd.p 2
      s.romRuns g c 0x03 0 p = true → s.reaches (.groom g) a = true → x.1.takes (.groom g) a (word v) = true →
      ∃ t y, exec (.svRegRmw g none p) s = .next t ∧ ServiceEnds t y g c [x.2.toNat, v] ∧
        y.regs = (x.1.write32 (.groom g) a (word v)).regs) ∧
  (∀ (g : Fin 8) (p : Probe) (c : Ctx) (s : State), let a := c.rcd.f 0 2 30 * 4
      let x := (s.reach15 c.rcd.op p.addr.toNat).read32 (.groom g) a
      s.romRuns g c 0x04 0 p = true → c.tmp = [] → s.reaches (.groom g) a = true →
      x.2.toNat &&& c.rcd.p 1 = c.rcd.p 2 →
      ∃ t y, exec (.svRegPoll g none p) s = .next t ∧ ServiceEnds t y g c [x.2.toNat, 1]) ∧
  (∀ (g : Fin 8) (p : Probe) (c : Ctx) (s : State), let e := s.hayGet c.rcd.owner (c.rcd.hay 0) 8
      let x := s.reach15 c.rcd.op p.addr.toNat
      s.romRuns g c 0x05 0 p = true → c.rcd.p 2 = 1 → s.hayOk c.rcd.owner (c.rcd.hay 0) 8 = true →
      x.takes (.groom g) (nfld e 0 32) (word (nfld e 32 32)) = true →
      ∃ t y, exec (.svRegBatch g none p) s = .next t ∧ ServiceEnds t y g c [1, 0xFFFFFFFF] ∧
        y.regs = (x.write32 (.groom g) (nfld e 0 32) (word (nfld e 32 32))).regs)

/-- The hayloft services copy, fill, check and compare the owner's bytes. -/
def Obligations.HayloftServicesAnswer : Prop :=
  (∀ (g : Fin 8) (p : Probe) (c : Ctx) (s : State), let n := c.rcd.p 4
      let o := c.rcd.owner
      0 < n →
      (s.romRuns g c 0x06 0 p = true → s.hayOk o (c.rcd.hay 0) n = true → s.hayOk o (c.rcd.hay 2) n = true →
        ∃ t y, exec (.svHayCopy g none p) s = .next t ∧ ServiceEnds t y g c [n] ∧
          ∀ i < n, y.hayRead o (c.rcd.hay 2 + i) = s.hayRead o (c.rcd.hay 0 + i)) ∧
      (s.romRuns g c 0x07 0 p = true → n % 4 = 0 → s.hayOk o (c.rcd.hay 0) n = true →
        ∃ t y, exec (.svHayFill g none p) s = .next t ∧ ServiceEnds t y g c [n] ∧
          ∀ i < n, y.hayRead o (c.rcd.hay 0 + i) = BitVec.ofNat 8 (c.rcd.p 2 / 256 ^ (i % 4))) ∧
      (s.romRuns g c 0x08 0 p = true → s.hayOk o (c.rcd.hay 0) n = true →
        ∃ t y, exec (.svHayCrc g none p) s = .next t ∧ ServiceEnds t y g c [n, crc32 (s.hayBytes o (c.rcd.hay 0) n)]) ∧
      (s.romRuns g c 0x09 0 p = true → s.hayOk o (c.rcd.hay 0) n = true → s.hayOk o (c.rcd.hay 2) n = true →
        s.hayBytes o (c.rcd.hay 0) n = s.hayBytes o (c.rcd.hay 2) n →
        ∃ t y, exec (.svHayCompare g none p) s = .next t ∧ ServiceEnds t y g c [n, 0xFFFFFFFF, 0]))

/-- The wait, run, level and switch services end OK with the words of R485. -/
def Obligations.WaitRunAndSwitchServicesAnswer : Prop :=
  (∀ (g : Fin 8) (p : Probe) (c : Ctx) (s : State),
      (s.romRuns g c 0x0A 1 p = true → c.rcd.p 0 * 3200 ≤ s.now - c.t 0 →
        ∃ t y, exec (.svDelay g none p) s = .next t ∧ ServiceEnds t y g c [s.tick % 2 ^ 32, s.tick / 2 ^ 32]) ∧
      (s.romRuns g c 0x0B 1 p = true → c.rcd.f 0 0 2 = 0 →
        natBit s.pins.evIn (c.rcd.f 0 4 3) = (c.rcd.f 0 8 1 == 1) →
        ∃ t y, exec (.svWaitEvent g none p) s = .next t ∧ ServiceEnds t y g c [s.tick % 2 ^ 32, s.tick / 2 ^ 32])) ∧
  (∀ (g : Fin 8) (p : Probe) (c : Ctx) (s : State), let q := c.rcd.f 0 0 3
      s.romRuns g c 0x0C 2 p = true → s.rb .seq q Off.seqResultLo 16 = true →
      ∃ t y, exec (.svSeqRun g none p) s = .next t ∧
        ServiceEnds t y g c [(s.rd .seq q Off.seqResultLo).toNat, (s.rd .seq q Off.seqResultHi).toNat,
          (s.rd .seq q Off.seqVcntLo).toNat, (s.rd .seq q Off.seqStarveEvt).toNat]) ∧
  (∀ (g : Fin 8) (p : Probe) (c : Ctx) (s : State), s.romRuns g c 0x0D 1 p = true → c.t 1 + 1 = c.rcd.p 2 →
      s.rb .seq (nfld (c.t 5) 24 3) Off.seqResultLo 16 = true →
      ∃ t y vs, exec (.svSeqBatch g none p) s = .next t ∧ ServiceEnds t y g c vs ∧ vs.getD 0 0 = c.rcd.p 2) ∧
  (∀ (g : Fin 8) (p : Probe) (c : Ctx) (st : Fin 128) (ch : Fin 16) (s : State),
      let x := s.reach15 c.rcd.op p.addr.toNat
      let a := PageKind.lvl.base st + Off.lvlPre ch (c.rcd.f 1 0 3)
      s.romRuns g c 0x0E 0 p = true → c.rcd.selects st (2 ^ ch.val) 16 = true → s.ownerOf .stl st = c.rcd.owner →
      c.rcd.f 1 8 1 = 0 → x.takes (.groom g) a (word (c.rcd.f 2 0 16)) = true →
      ∃ t y, exec (.svLevels g none p) s = .next t ∧ ServiceEnds t y g c [1, 0] ∧
        y.regs = (x.write32 (.groom g) a (word (c.rcd.f 2 0 16))).regs) ∧
  (∀ (g : Fin 8) (p : Probe) (c : Ctx) (st : Fin 128) (s : State), s.romRuns g c 0x0F 1 p = true →
      c.rcd.f 0 0 7 = st → c.rcd.f 0 8 7 = st → c.t 1 = 0 → s.rb .swm st Off.swmResult 16 = true →
      ∃ t y, exec (.svSwitch g none p) s = .next t ∧
        ServiceEnds t y g c [1, s.rf .swm st Off.swmResult 8 4, c.t 3 + bit (s.rf .swm st Off.swmResult 8 4 != 0)])

/-- The contact services keep a verdict of each selected channel and end OK. -/
def Obligations.ContactServicesAnswer : Prop :=
  (∀ (g : Fin 8) (p : Probe) (c : Ctx) (s : State),
      let kept := fun (y : State) => ∀ st < 128, ∀ i < 16, c.rcd.f 0 0 7 ≤ st → st ≤ c.rcd.f 0 8 7 →
        natBit (c.rcd.f 0 16 16) i = true →
        Store.getD (fun _ => 0) y.cluster.verdicts (2048 * ownerIx c.rcd.owner + (16 * st + i)) ≠ 0
      (s.romRuns g c 0x10 6 p = true → c.rcd.f 1 0 2 = 0 →
        ∃ t y vs, exec (.svContact g none p) s = .next t ∧ ServiceEnds t y g c vs ∧ kept y) ∧
      (s.romRuns g c 0x14 6 p = true →
        (∀ st < 128, c.rcd.f 0 0 7 ≤ st → st ≤ c.rcd.f 0 8 7 → s.rb .swm st Off.swmResult 16 = true) →
        ∃ t y vs, exec (.svContactPmu g none p) s = .next t ∧ ServiceEnds t y g c vs ∧ kept y)) ∧
  (∀ (g : Fin 8) (p : Probe) (c : Ctx) (s : State), s.romRuns g c 0x12 4 p = true → c.t 1 = 3 →
      (∀ st < 128, ∀ u < 4, c.rcd.f 0 0 7 ≤ st → st ≤ c.rcd.f 0 8 7 →
        s.rb .cnv st (Off.cnvRes u 0) 16 = true ∧ s.rb .pmu st (Off.pmuCtrl u) 0 = false) →
      ∃ t y vs, exec (.svShorts g none p) s = .next t ∧ ServiceEnds t y g c vs ∧ vs.length = 2) ∧
  (∀ (g : Fin 8) (p : Probe) (c : Ctx) (s : State), let o := c.rcd.owner
      let seen := fun ch => Store.getD (fun _ => 0) s.cluster.verdicts (2048 * ownerIx o + ch)
      (s.romRuns g c 0x15 0 p = true → s.ownerOf .seq (c.rcd.f 2 0 3) = o → s.inRegion o anyKind (c.rcd.hay 0) 64 = true →
        c.rcd.f 2 8 1 = 0 →
        ∃ t y vs, exec (.svOpenMap g none p) s = .next t ∧ ServiceEnds t y g c vs ∧
          vs.getD 1 0 = ((upto 2048).filter fun ch => decide (1 < seen ch) &&
            s.rb .stl (ch / 16) (Off.stlAssign (ch % 16)) 31 && s.ownerOf .stl (ch / 16) == o).length) ∧
      (s.romRuns g c 0x16 0 p = true → s.inRegion o anyKind (c.rcd.hay 0) 1024 = true →
        ∃ t y, exec (.svContactReport g none p) s = .next t ∧
          ServiceEnds t y g c [((upto 2048).filter fun ch => seen ch != 0).length,
            2048 - ((upto 2048).filter fun ch => seen ch != 0).length])) ∧
  (∀ (g : Fin 8) (p : Probe) (c : Ctx) (s : State), s.romRuns g c 0x17 1 p = true →
      s.pins.indexN = (c.rcd.f 0 0 1 == 1) →
      ∃ t y, exec (.svIndexWait g none p) s = .next t ∧ ServiceEnds t y g c [s.tick % 2 ^ 32, s.tick / 2 ^ 32])

/-- The forcing, sweep, wave, converter, acquisition and PMU-safe services end OK with the words of R485. -/
def Obligations.ForcingAndConverterServicesAnswer : Prop :=
  (∀ (g : Fin 8) (p : Probe) (c : Ctx) (s : State), let l := c.rcd.pmuList
      let flagged := l.filter s.resFlagged
      (∀ n ∈ l, tbit (s.resWord n 0) 16 = true) →
      (s.romRuns g c 0x18 2 p = true → c.t 1 = 0 →
        ∃ t y vs, exec (.svForceMeasure g none p) s = .next t ∧ ServiceEnds t y g c vs ∧
          vs.getD 0 0 = c.t 2 + l.length ∧ vs.getD 1 0 = c.t 3 + flagged.length ∧
          ∀ n, c.firstOf 4 flagged = some n → vs.getD 2 0 = n) ∧
      (s.romRuns g c 0x19 2 p = true → c.t 1 + 1 = c.rcd.f 3 20 12 → c.t 2 = c.t 1 →
        ∃ t y vs, exec (.svSweep g none p) s = .next t ∧ ServiceEnds t y g c vs ∧
          vs.getD 0 0 = c.rcd.f 3 20 12 ∧ vs.getD 1 0 = c.t 3 + flagged.length ∧
          ∀ n, c.firstOf 4 flagged = some n → vs.getD 2 0 = n) ∧
      (s.romRuns g c 0x1A 2 p = true → c.t 1 + 1 = c.rcd.f 3 20 12 → c.t 2 = c.t 1 →
        ∃ t y vs, exec (.svSweepLog g none p) s = .next t ∧ ServiceEnds t y g c vs ∧
          vs.getD 0 0 = c.rcd.f 3 20 12 ∧ vs.getD 1 0 = c.t 3 + flagged.length ∧
          ∀ n, c.firstOf 4 flagged = some n → vs.getD 2 0 = n)) ∧
  (∀ (g : Fin 8) (p : Probe) (c : Ctx) (s : State), let l := c.rcd.pmuList
      let big := fun lim n => s.resComplete n && decide (lim < (s.resCode n).natAbs)
      let leaks := l.filter fun n => big (c.rcd.f 3 0 24) n || natBit (c.kept n) 1
      let level : Int := 125 * (c.rcd.f 2 0 16 : Int) - 1500000
      let low := l.filter fun n => s.resComplete n && decide (s.resCode n < level)
      let high := l.filter fun n => s.resComplete n && decide (level < s.resCode n)
      let apart := fun n => (s.resCode n - signed 24 (c.kept n)).natAbs
      let far := l.filter fun n => c.kept n != 0x800000 && s.resComplete n && decide (c.rcd.f 2 0 24 < apart n)
      (∀ n ∈ l, tbit (s.resWord n 0) 16 = true) →
      (s.romRuns g c 0x1B 2 p = true → c.t 1 = 1 →
        ∃ t y vs, exec (.svLeakage g none p) s = .next t ∧ ServiceEnds t y g c vs ∧
          vs.getD 0 0 = c.t 2 + (l.filter fun n => s.resComplete n && natBit (c.kept n) 0).length ∧
          vs.getD 1 0 = c.t 3 + leaks.length ∧ ∀ n, c.firstOf 4 leaks = some n → vs.getD 2 0 = n) ∧
      (s.romRuns g c 0x1C 2 p = true → c.t 1 = 0 →
        ∃ t y vs, exec (.svVohIoh g none p) s = .next t ∧ ServiceEnds t y g c vs ∧
          vs.getD 0 0 = c.t 2 + l.length ∧ vs.getD 1 0 = c.t 3 + low.length ∧
          ∀ n, c.firstOf 4 low = some n → vs.getD 2 0 = n) ∧
      (s.romRuns g c 0x1D 2 p = true → c.t 1 = 0 →
        ∃ t y vs, exec (.svVolIol g none p) s = .next t ∧ ServiceEnds t y g c vs ∧
          vs.getD 0 0 = c.t 2 + l.length ∧ vs.getD 1 0 = c.t 3 + high.length ∧
          ∀ n, c.firstOf 4 high = some n → vs.getD 2 0 = n) ∧
      (s.romRuns g c 0x13 2 p = true → c.t 1 = 1 →
        ∃ t y vs, exec (.svKelvin g none p) s = .next t ∧ ServiceEnds t y g c vs ∧
          vs.getD 0 0 = c.t 2 + far.length ∧ ∀ n, c.firstOf 3 far = some n → vs.getD 1 0 = n)) ∧
  (∀ (g : Fin 8) (p : Probe) (c : Ctx) (s : State), let q := c.rcd.f 3 0 3
      let l := c.rcd.pmuList
      let x := s.reach15 c.rcd.op p.addr.toNat
      let v := word ((s.rd .seq q Off.seqSwflag).toNat ||| 2 ^ c.rcd.f 3 8 3)
      let bad := l.filter fun n => s.resComplete n && decide (c.rcd.f 2 0 24 < (s.resCode n).natAbs)
      (∀ n ∈ l, tbit (s.resWord n 0) 16 = true) → s.romRuns g c 0x1E 2 p = true →
      s.ownerOf .seq q = c.rcd.owner → c.t 1 + 1 = c.rcd.f 4 16 16 → c.t 2 = c.t 1 →
      x.takes (.groom g) (PageKind.seq.base q + Off.seqSwflag) v = true →
      ∃ t y vs, exec (.svIddq g none p) s = .next t ∧ ServiceEnds t y g c vs ∧ vs.getD 0 0 = c.rcd.f 4 16 16 ∧
        vs.getD 1 0 = c.t 3 + bad.length ∧ (∀ n, c.firstOf 4 bad = some n → vs.getD 2 0 = n) ∧
        y.regs = (x.write32 (.groom g) (PageKind.seq.base q + Off.seqSwflag) v).regs) ∧
  (∀ (g : Fin 8) (p : Probe) (c : Ctx) (s : State), let gangs := (List.range' (c.rcd.f 0 0 7) (c.rcd.f 0 8 7 + 1 - c.rcd.f 0 0 7)).map (4 * ·)
      let flags := fun n => (s.rd .pmu (n / 4) (Off.pmuFlags (n % 4))).toNat
      let there := fun n => s.rf .pmu (n / 4) (Off.pmuForce (n % 4)) 0 18 == c.rcd.f 1 0 18 && s.rb .pmu (n / 4) (Off.pmuCtrl (n % 4)) 0
      0 < c.rcd.p 2 → c.t 2 = c.rcd.p 2 → c.rcd.p 2 * 3200 ≤ s.now - c.t 0 →
      (s.romRuns g c 0x1F 1 p = true →
        ∃ t y vs, exec (.svSupplyRamp g none p) s = .next t ∧ ServiceEnds t y g c vs ∧
          vs.getD 0 0 = (c.rcd.pmuList.filter there).length ∧
          vs.getD 1 0 = c.rcd.pmuList.foldl (fun a n => a ||| flags n) 0 ∧
          ∀ n, (c.rcd.pmuList.filter fun n => natBit (flags n) 3).head? = some n → vs.getD 2 0 = n) ∧
      (s.romRuns g c 0x20 1 p = true →
        ∃ t y vs, exec (.svGangSupply g none p) s = .next t ∧ ServiceEnds t y g c vs ∧
          vs.getD 0 0 = (gangs.filter there).length ∧ vs.getD 1 0 = gangs.foldl (fun a n => a ||| flags n) 0)) ∧
  (∀ (g : Fin 8) (p : Probe) (c : Ctx) (st : Fin 128) (u : Fin 4) (s : State),
      let r : Requester := .groom g
      let at' := fun o => PageKind.pmu.base st + o
      let x := s.reach15 c.rcd.op p.addr.toNat
      let v1 := word (c.rcd.p 1)
      let v2 := word (c.rcd.f 3 0 12)
      let v3 := word (pack [(0, 17, c.rcd.f 2 0 17), (20, 1, 1), (21, 1, c.rcd.f 3 16 1), (24, 3, c.rcd.f 3 24 3),
        (28, 3, c.rcd.f 3 28 3)])
      let x1 := x.write32 r (at' (Off.pmuFreq u)) v1
      let x2 := x1.write32 r (at' (Off.pmuPhase u)) v2
      let off := putBit (s.rd .pmu st (Off.pmuWave u)) 20 false
      c.rcd.selects st (2 ^ u.val) 4 = true → s.ownerOf .stl st = c.rcd.owner →
      (s.romRuns g c 0x21 0 p = true → s.ownerOf .seq (c.rcd.f 3 24 3) = c.rcd.owner →
        x.takes r (at' (Off.pmuFreq u)) v1 = true →
        x1.takes r (at' (Off.pmuPhase u)) v2 = true → x2.takes r (at' (Off.pmuWave u)) v3 = true →
        ∃ t y, exec (.svWaveStart g none p) s = .next t ∧ ServiceEnds t y g c [1] ∧
          y.regs = (x2.write32 r (at' (Off.pmuWave u)) v3).regs) ∧
      (s.romRuns g c 0x22 0 p = true →
        (s.rb .pmu st (Off.pmuWave u) 20 = true → x.takes r (at' (Off.pmuWave u)) off = true →
          ∃ t y, exec (.svWaveStop g none p) s = .next t ∧ ServiceEnds t y g c [1] ∧
            y.regs = (x.write32 r (at' (Off.pmuWave u)) off).regs) ∧
        (s.rb .pmu st (Off.pmuWave u) 20 = false →
          ∃ t y, exec (.svWaveStop g none p) s = .next t ∧ ServiceEnds t y g c [1] ∧ y.regs = s.regs))) ∧
  (∀ (g : Fin 8) (p : Probe) (c : Ctx) (s : State), let l := c.rcd.pmuList
      (∀ n ∈ l, tbit (s.resWord n 0) 16 = true) → s.romRuns g c 0x23 1 p = true → c.t 1 + 1 = c.rcd.f 1 0 16 →
      ∃ t y, exec (.svCnvBatch g none p) s = .next t ∧
        ServiceEnds t y g c [c.rcd.f 1 0 16 * l.length, c.t 3 + (l.filter fun n => tbit (s.resWord n 0) 17).length,
          c.t 4 + (l.filter fun n => tbit (s.resWord n 0) 18).length,
          l.foldl (fun a n => a + s.rf .cnv (n / 4) (Off.cnvDropped (n % 4)) 0 16) 0]) ∧
  (∀ (g : Fin 8) (p : Probe) (c : Ctx) (s : State), let b := c.rcd.f 0 0 3
      s.romRuns g c 0x24 1 p = true → s.acqState b = aIdle →
      ∃ t y, exec (.svAcqRecord g none p) s = .next t ∧
        ServiceEnds t y g c [(s.acq b).done, (s.rd .acq b Off.acqMissed).toNat, (s.rd .acq b (Off.acqRes 0)).toNat]) ∧
  (∀ (g : Fin 8) (p : Probe) (c : Ctx) (s : State), s.romRuns g c 0x27 1 p = true →
      c.rcd.f 0 0 7 + c.t 1 = c.rcd.f 0 8 7 → s.rb .swm (c.rcd.f 0 8 7) Off.swmResult 16 = true →
      ∃ t y, exec (.svPmuSafe g none p) s = .next t ∧
        ServiceEnds t y g c [(c.t 1 + 1) * popCount (c.rcd.f 0 16 4) 4])

/-- The time measurement services end OK with the results of the units. -/
def Obligations.TimeServicesAnswer : Prop :=
  (∀ (g : Fin 8) (p : Probe) (c : Ctx) (st : Fin 128) (i : Fin 16) (s : State),
      let w := fun k => (s.rd .tim st (Off.timRes i k)).toNat
      c.rcd.selects st (2 ^ i.val) 16 = true → s.rb .tim st (Off.timRes i 0) 16 = true →
      (s.romRuns g c 0x28 1 p = true →
        ∃ t y, exec (.svTimRun g none p) s = .next t ∧ ServiceEnds t y g c [w 0, w 1, w 2, w 4]) ∧
      (s.romRuns g c 0x29 1 p = true →
        ∃ t y, exec (.svPeriod g none p) s = .next t ∧ ServiceEnds t y g c [w 1, w 2, w 3, w 4]) ∧
      (s.romRuns g c 0x2A 1 p = true →
        ∃ t y, exec (.svJitter g none p) s = .next t ∧ ServiceEnds t y g c [w 1, w 4, w 5, w 7]) ∧
      (s.romRuns g c 0x2B 1 p = true →
        ∃ t y, exec (.svSkew g none p) s = .next t ∧ ServiceEnds t y g c [w 1, w 2, w 3, w 4]) ∧
      (s.romRuns g c 0x2C 1 p = true →
        ∃ t y, exec (.svDelayMeas g none p) s = .next t ∧ ServiceEnds t y g c [w 1, w 2, w 3, w 4]) ∧
      (s.romRuns g c 0x2D 2 p = true →
        ∃ t y vs, exec (.svFreq g none p) s = .next t ∧ ServiceEnds t y g c vs ∧ vs.getD 0 0 = w 1 ∧ vs.length = 3)) ∧
  (∀ (g : Fin 8) (p : Probe) (c : Ctx) (s : State), s.romRuns g c 0x11 2 p = true →
      (∀ st < 128, ∀ i < 16, c.rcd.f 0 0 7 ≤ st → st ≤ c.rcd.f 0 8 7 → natBit (c.rcd.f 0 16 16) i = true →
        s.rb .tim st (Off.timRes i 0) 16 = true) → c.rcd.f 2 8 1 = 0 →
      ∃ t y vs, exec (.svTdr g none p) s = .next t ∧ ServiceEnds t y g c vs ∧
        vs.getD 2 0 = c.rcd.f 0 8 7 + 1 - c.rcd.f 0 0 7) ∧
  (∀ (g : Fin 8) (p : Probe) (c : Ctx) (st : Fin 128) (s : State), s.romRuns g c 0x2E 0 p = true →
      c.rcd.f 0 0 7 = st → c.rcd.f 0 8 7 = st → s.ownerOf .stl st = c.rcd.owner → (s.vernier st).fifo = [] →
      ∃ t y, exec (.svVernierDump g none p) s = .next t ∧ ServiceEnds t y g c [0] ∧ y.regs = s.regs ∧ y.hay = s.hay) ∧
  (∀ (g : Fin 8) (p : Probe) (c : Ctx) (s : State), s.romRuns g c 0x2F 0 p = true → 0 < c.rcd.p 2 →
      s.hayOk c.rcd.owner (c.rcd.hay 0) (8 * c.rcd.p 2) = true →
      ∃ t y vs, exec (.svStampReduce g none p) s = .next t ∧ ServiceEnds t y g c vs ∧
        vs.getD 0 0 = if c.rcd.f 3 0 1 = 1 then c.rcd.p 2 / 2 else c.rcd.p 2 - 1)

/-- The data services reduce the entries of a ring, and the capture and repair services read a flushed buffer; each ends OK with its counts. -/
def Obligations.DataAndCaptureServicesAnswer : Prop :=
  ((∀ (g : Fin 8) (p : Probe) (c : Ctx) (s : State), let o := c.rcd.owner
      let n := c.rcd.f 0 0 15
      let a := s.ringBase n + 32 * (c.rcd.p 1 % s.ringCap n)
      let e := s.hayGet o a 32
      let ofType := if e % 256 = c.rcd.f 2 0 8 then 1 else 0
      let sites := if e % 256 = 0x01 ∧ e.testBit 44 = true then 1 else 0
      s.ringOwner n = o → c.rcd.f 0 16 16 = 1 → s.hayOk o a 32 = true →
      (s.romRuns g c 0x30 0 p = true →
        ∃ t y vs, exec (.svStats g none p) s = .next t ∧ ServiceEnds t y g c vs ∧ vs.getD 0 0 = ofType) ∧
      (s.romRuns g c 0x31 0 p = true →
        ∃ t y vs, exec (.svHistogram g none p) s = .next t ∧ ServiceEnds t y g c vs ∧ vs.getD 0 0 = ofType) ∧
      (s.romRuns g c 0x32 0 p = true →
        ∃ t y vs, exec (.svLimits g none p) s = .next t ∧ ServiceEnds t y g c vs ∧ vs.getD 0 0 = ofType) ∧
      (s.romRuns g c 0x37 0 p = true →
        ∃ t y vs, exec (.svOutlier g none p) s = .next t ∧ ServiceEnds t y g c vs ∧ vs.getD 0 0 = ofType) ∧
      (s.romRuns g c 0x3E 0 p = true → s.inRegion o anyKind (c.rcd.hay 3) 4 = true →
        ∃ t y, exec (.svSort g none p) s = .next t ∧ ServiceEnds t y g c [ofType]) ∧
      (s.romRuns g c 0x33 0 p = true → s.hayOk o (c.rcd.hay 2) 640 = true →
        ∃ t y vs, exec (.svBin g none p) s = .next t ∧ ServiceEnds t y g c vs ∧ vs.getD 0 0 = sites) ∧
      (s.romRuns g c 0x35 0 p = true → s.inRegion o anyKind (c.rcd.hay 2) 4096 = true →
        ∃ t y vs, exec (.svSiteSummary g none p) s = .next t ∧ ServiceEnds t y g c vs ∧ vs.getD 0 0 = sites) ∧
      (s.romRuns g c 0x3D 0 p = true →
        ∃ t y vs, exec (.svYield g none p) s = .next t ∧ ServiceEnds t y g c vs ∧ vs.getD 0 0 = sites)) ∧
  (∀ (g : Fin 8) (p : Probe) (c : Ctx) (s : State), let o := c.rcd.owner
      (s.romRuns g c 0x34 0 p = true → s.hayOk o (c.rcd.hay 0) 512 = true → s.inRegion o anyKind (c.rcd.hay 3) 64 = true →
        ∃ t y, exec (.svBinMap g none p) s = .next t ∧
          ServiceEnds t y g c [((upto 512).filter fun i => (s.hayRead o (c.rcd.hay 0 + i)).toNat == c.rcd.f 2 0 4).length]) ∧
      (s.romRuns g c 0x36 0 p = true → s.hayOk o (c.rcd.hay 0) 64 = true → s.hayOk o (c.rcd.hay 2) 64 = true →
        c.rcd.f 4 0 2 = 0 →
        ∃ t y vs, exec (.svMerge g none p) s = .next t ∧ ServiceEnds t y g c vs ∧
          ∀ i < 64, y.hayRead o (c.rcd.hay 0 + i) = s.hayRead o (c.rcd.hay 0 + i) &&& s.hayRead o (c.rcd.hay 2 + i)) ∧
      (s.romRuns g c 0x3C 0 p = true → s.hayOk o (c.rcd.hay 0) 512 = true → s.hayOk o (c.rcd.hay 2) 2048 = true →
        s.inRegion o anyKind (c.rcd.hay 2) 67584 = true →
        ∃ t y, exec (.svWaferMap g none p) s = .next t ∧
          ServiceEnds t y g c [((upto 512).filter fun i =>
            nfld (s.hayGet o (c.rcd.hay 2) 2048) (32 * i) 16 != 0xFFFF).length]) ∧
      (s.romRuns g c 0x3F 0 p = true → s.ownerOf .seq (c.rcd.f 0 0 3) = o → s.enrollMask (c.rcd.f 0 0 3) = 0 →
        ∃ t y vs, exec (.svFailCount g none p) s = .next t ∧ ServiceEnds t y g c vs ∧ vs.getD 1 0 = 0))) ∧
  (∀ (g : Fin 8) (p : Probe) (c : Ctx) (s : State), let o := c.rcd.owner
    let q := c.rcd.f 0 0 3
    let r := s.hayGet o (s.seq q).cfg.capBase 16
    let away := nfld r 48 9 < c.rcd.f 1 0 9 ∨ c.rcd.f 1 16 9 < nfld r 48 9
    s.rb .site q Off.capStat 2 = true → s.rb .site q Off.capStat 1 = false →
    s.rd2 .site q Off.capWptrLo Off.capWptrHi = 16 → s.hayOk o (s.seq q).cfg.capBase 16 = true →
    (s.romRuns g c 0x38 1 p = true → s.inRegion o anyKind (c.rcd.hay 2) 2048 = true →
      ∃ t y vs, exec (.svCapScan g none p) s = .next t ∧ ServiceEnds t y g c vs ∧ vs.getD 0 0 = 1) ∧
    (s.romRuns g c 0x39 1 p = true →
      s.inRegion o anyKind (c.rcd.hay 2) ((2 ^ (c.rcd.f 4 0 5 + c.rcd.f 4 8 5) + 7) / 8) = true →
      ∃ t y vs, exec (.svBitmap g none p) s = .next t ∧ ServiceEnds t y g c vs ∧
        vs.getD 0 0 = if nfld r 48 9 = c.rcd.f 1 0 9 ∧ nfld r 40 8 = c.rcd.f 4 16 8 then 1 else 0) ∧
    (s.romRuns g c 0x3A 1 p = true → away →
      ∃ t y, exec (.svRepair g none p) s = .next t ∧ ServiceEnds t y g c [c.t 1, c.t 2, c.t 3, 1]) ∧
    (s.romRuns g c 0x3B 1 p = true → away →
      ∃ t y, exec (.svRepairVerify g none p) s = .next t ∧ ServiceEnds t y g c [0, 0, 0]))

/-- The watch, calibration and maintenance services and the services on records, rings and counters take effect. -/
def Obligations.MaintenanceAndRecordServicesAnswer : Prop :=
  ((∀ (g : Fin 8) (p : Probe) (c : Ctx) (st : Fin 128) (i : Fin 16) (s : State), let r : Requester := .groom g
      let x := s.reach15 c.rcd.op p.addr.toNat
      let a1 := PageKind.wch.base st + Off.wchThr i
      let a2 := PageKind.wch.base st + Off.wchCfg i
      let x1 := x.write32 r a1 (word (c.rcd.p 1))
      c.rcd.selects st (2 ^ i.val) 16 = true → s.ownerOf .stl st = c.rcd.owner →
      (s.romRuns g c 0x25 0 p = true → x.takes r a1 (word (c.rcd.p 1)) = true → x1.takes r a2 (word (c.rcd.p 2)) = true →
        ∃ t y, exec (.svWatchSetup g none p) s = .next t ∧ ServiceEnds t y g c [1, 0] ∧
          y.regs = (x1.write32 r a2 (word (c.rcd.p 2))).regs) ∧
      (s.romRuns g c 0x26 3 p = true → c.items = [] →
        max 10 (if s.rb .wch st Off.wchCtrl 0 then 2 * s.rf .wch st Off.wchTick 0 17 else 10) * 3200 ≤ s.now - c.t 0 →
        ∃ t y, exec (.svWatchTest g none p) s = .next t ∧ ServiceEnds t y g c [0, 0])) ∧
  (∀ (g : Fin 8) (p : Probe) (c : Ctx) (s : State),
      (s.romRuns g c 0x40 1 p = true → s.rb .far 0 Off.farResultLo 16 = true →
        ∃ t y, exec (.svCalItem g none p) s = .next t ∧
          ServiceEnds t y g c ([Off.farResultLo, Off.farResultHi, Off.farEpoch, Off.farStepAbort].map fun o =>
            (s.view (.groom g) .far 0 o).toNat)) ∧
      (s.romRuns g c 0x41 1 p = true → s.rb .tak 0 Off.takStoreResult 16 = true →
        ∃ t y, exec (.svCalStore g none p) s = .next t ∧
          ServiceEnds t y g c [(s.rd .tak 0 Off.takStoreResult).toNat])) ∧
  (∀ (g : Fin 8) (p : Probe) (c : Ctx) (s : State), let o := c.rcd.owner
      let open_ := fun k => s.reach (.groom g) k 0 = .full ∧ s.rb k 0 Off.pgCtrl 1 = false ∧ s.locked k 0 = false
      (s.romRuns g c 0x42 0 p = true → open_ .lan → s.inRegion o anyKind (c.rcd.hay 0) 24576 = true →
        ∃ t y vs, exec (.svWearReport g none p) s = .next t ∧ ServiceEnds t y g c vs ∧ vs.getD 0 0 = 6144) ∧
      (s.romRuns g c 0x43 0 p = true → open_ .wvn → s.inRegion o anyKind (c.rcd.hay 0) 384 = true →
        ∃ t y vs, exec (.svTempReport g none p) s = .next t ∧ ServiceEnds t y g c vs ∧ vs.length = 3) ∧
      (s.romRuns g c 0x44 0 p = true → open_ .lan → s.inRegion o anyKind (c.rcd.hay 0) 4096 = true →
        ∃ t y vs, exec (.svLogRead g none p) s = .next t ∧ ServiceEnds t y g c vs ∧ vs.length = 3)) ∧
  (∀ (g : Fin 8) (p : Probe) (c : Ctx) (s : State),
      (s.romRuns g c 0x45 0 p = true →
        ∃ t y vs, exec (.svSelftest g none p) s = .next t ∧ ServiceEnds t y g c vs ∧
          vs.getD 0 0 = popCount (c.rcd.f 0 0 3) 3) ∧
      (s.romRuns g c 0x46 0 p = true → c.rcd.hay 0 + c.rcd.p 4 ≤ hayEnd → s.hay.poison = [] → p.inp = [] →
        ∃ t y, exec (.svHbmScrub g none p) s = .next t ∧ ServiceEnds t y g c [c.rcd.p 4 / 32, 0, 0] ∧ y.regs = s.regs) ∧
      (s.romRuns g c 0x47 0 p = true → p.inp = [] →
        ∃ t y vs, exec (.svRomCheck g none p) s = .next t ∧ ServiceEnds t y g c vs ∧ vs.drop 1 = [0, 0]))) ∧
  ((∀ (g : Fin 8) (p : Probe) (c : Ctx) (s : State), let o := c.rcd.owner
      let last := Store.get? s.cluster.results (ownerIx o * 2 ^ 16 + c.rcd.f 0 0 16)
      (s.romRuns g c 0x48 0 p = true → s.inRegion o anyKind (c.rcd.hay 0) (32 * c.rcd.p 2) = true →
        ∃ t h, exec (.svChain g none p) s = .next t ∧ (t.groom g).ctx = none ∧
          (t.groom g).chains = h :: (s.groom g).chains ∧ h.base = c.rcd.hay 0 ∧ h.count = c.rcd.p 2 ∧ h.next = 0 ∧
          h.stop = (c.rcd.f 3 0 1 == 1) ∧ h.cond = false) ∧
      (s.romRuns g c 0x4A 0 p = true → last = some (c.rcd.f 1 0 8) →
        s.inRegion o anyKind (c.rcd.hay 2) (32 * c.rcd.p 4) = true →
        ∃ t h, exec (.svIfStatus g none p) s = .next t ∧ (t.groom g).ctx = none ∧
          (t.groom g).chains = h :: (s.groom g).chains ∧ h.base = c.rcd.hay 2 ∧ h.count = c.rcd.p 4 ∧ h.next = 0 ∧
          h.cond = true) ∧
      (s.romRuns g c 0x4A 0 p = true → last = none →
        ∃ t y, exec (.svIfStatus g none p) s = .next t ∧ ServiceEnds t y g c [0])) ∧
  (∀ (g : Fin 8) (p : Probe) (c : Ctx) (s : State), s.romRuns g c 0x49 0 p = true →
      (∀ d ∈ s.ctxs, d.rcd.owner = c.rcd.owner → c.serial ≤ d.serial) →
      ∃ t y, exec (.svBarrier g none p) s = .next t ∧ ServiceEnds t y g c [0, 0, 0, 0]) ∧
  (∀ (g : Fin 8) (p : Probe) (c : Ctx) (s : State), let o := c.rcd.owner
      (s.romRuns g c 0x4B 0 p = true → s.ringOwner (c.rcd.f 0 0 15) = o →
        ∃ t y, exec (.svSignal g none p) s = .next t ∧ ServiceEnds t y g c [0, 0, 0, 0] ∧
          y.regs = ((s.reach15 0x4B p.addr.toNat).groomPost g o (c.rcd.f 0 0 15) 0x83
            (packBytes [(4, 4, c.rcd.p 1), (8, 4, c.rcd.p 2), (12, 4, c.rcd.p 3), (16, 4, c.rcd.p 4)])).regs) ∧
      (s.romRuns g c 0x4C 0 p = true → s.ringOwner (c.rcd.f 1 0 15) = o →
        ∃ t y, exec (.svTimer g none p) s = .next t ∧ ServiceEnds t y g c [0, 0, 0, 0] ∧
          y.cluster.timers = s.cluster.timers ++ [⟨o, c.rcd.f 1 0 15, g, s.now + 3200 * c.rcd.p 0⟩]) ∧
      (s.romRuns g c 0x4D 0 p = true →
        let k := 16 * ownerIx o + c.rcd.f 0 0 4
        let v := Store.getD (fun _ => 0) s.cluster.counters k + word (c.rcd.p 1)
        ∃ t y, exec (.svCounter g none p) s = .next t ∧ ServiceEnds t y g c [v.toNat] ∧
          Store.getD (fun _ => 0) y.cluster.counters k = v) ∧
      (s.romRuns g c 0x4E 0 p = true →
        ∃ t y, exec (.svMark g none p) s = .next t ∧ ServiceEnds t y g c [0, 0, 0, 0])) ∧
  (∀ (g : Fin 8) (p : Probe) (c : Ctx) (s : State), let q := c.rcd.f 0 0 3
      s.romRuns g c 0x4F 1 p = true → s.rb .site q Off.capStat 2 = true → s.seqPosted q = true →
      ∃ t y, exec (.svFlush g none p) s = .next t ∧ ServiceEnds t y g c [(s.rd .site q Off.capWptrLo).toNat]))

/-- Grooms take records, reject bad ones, cancel, and end records with a result. -/
def Obligations.GroomsTakeAndEndRecords : Prop :=
  (∀ (g : Fin 8) (c : Ctx) (st : Nat) (s : State), (s.groom g).chains = [] →
      let t := s.endRecord g c st
      (t.groom g).ctx = none ∧ Store.get? t.cluster.results c.rcd.key = some st) ∧
  (∀ (g : Fin 8) (n : Fin 32768) (p : Probe) (r : Record) (s : State), s.headRecord n = some r → r.cancel = false →
      s.mayTake g r = true →
      (0x50 ≤ r.op → r.op < 0x60 →
        ({ (s.takeHead n).saveCtx g with cluster := { s.cluster with serial := s.cluster.serial + 1 } } : State).check r = .pass →
        ∃ t d, exec (.svPatch g (some n) p) s = .next t ∧ (t.groom g).ctx = some d ∧ d.rcd = r ∧
          d.pc = fld (s.dispatch r.op) 0 15 ∧ d.stage = 0) ∧
      (0x5F < r.op → s.groomIdle g = true → s.ringOwner r.rring = r.owner → s.mode.dev ≠ .m11 →
        ∃ t, exec (.badOp g (some n)) s = .next t ∧ (t.groom g).ctx = none ∧
          Store.get? t.cluster.results r.key = some svBadOp)) ∧
  (∀ (g : Fin 8) (n : Fin 32768) (r : Record) (s : State), s.headRecord n = some r → r.cancel = true →
      s.mayTake g r = true → s.groomIdle g = true → s.ringOwner r.rring = r.owner → s.mode.dev ≠ .m11 →
      ∃ t st, exec (.cancelRecord g (some n)) s = .next t ∧ (t.groom g).ctx = none ∧
        Store.get? t.cluster.results r.key = some st ∧ (st = svOk ∨ st = svBadParam)) ∧
  (∀ (g : Fin 8) (c : Ctx) (s : State), (s.groom g).ctx = some c →
      ∃ t, exec (.groomWatchdog g) s = .next t ∧ t.groom g = GroomSt.idle ∧
        Store.get? t.cluster.results c.rcd.key = some svWatchdog) ∧
  (∀ (r : Requester) (g : Fin 8) (en : Bool) (s : State),
      s.accepts r .grm 0 Off.grmCtrl (putBit (s.rd .grm 0 Off.grmCtrl) g en) = true →
      ∃ t, exec (.groomEnable r g en) s = .next t ∧ t.rb .grm 0 Off.grmCtrl g = en) ∧
  (∀ (used : List (Fin 101)) (i : Fin 9) (s : State), used.length = 9 →
      ∃ t, exec (.grmUsedUpdate used) s = .next t ∧ t.rf .grm 0 (Off.grmUsed i) 0 7 = (used.getD i 0).val)

/-- The microwords act on the registers, the flags, the stack and the memory of a routine. -/
def Obligations.MicrowordsActOnTheRoutine : Prop :=
  ∀ (g : Fin 8) (c : Ctx) (w : Nat) (s : State), s.fetches g c w = true →
    let pc := (s.fetchAddr c.pc + 1) % 2 ^ 15
    let b := if natBit w 5 then nfld w 0 5 else (c.reg (nfld w 0 4)).toNat
    let a := (c.reg (nfld w 6 4)).toNat
    let ad := c.address w
    let h := c.hreg (nfld w 12 2)
    let o := c.rcd.owner
    (fmtOf w = 0 → ∃ t d, exec (.alu g .clean) s = .next t ∧ (t.groom g).ctx = some d ∧ d.rcd = c.rcd ∧ d.pc = pc ∧
      (nfld w 14 4 = 0 → d.reg (nfld w 10 4) = word (a + b) ∧ d.fz = decide ((a + b) % 2 ^ 32 = 0) ∧
        d.fc = decide (2 ^ 32 ≤ a + b))) ∧
    (fmtOf w = 1 → ∃ t d, exec (.ldi g .clean) s = .next t ∧ (t.groom g).ctx = some d ∧ d.pc = pc ∧
      (nfld w 12 2 = 0 → d.reg (nfld w 14 4) = word (nfld w 0 12))) ∧
    (fmtOf w = 6 → ∃ t d, exec (.seta g .clean) s = .next t ∧ (t.groom g).ctx = some d ∧ d.pc = pc ∧
      (natBit w 17 = false → d.areg (nfld w 15 2) = c.reg (nfld w 11 4))) ∧
    (fmtOf w = 7 → ∃ t d, exec (.br g .clean) s = .next t ∧ (t.groom g).ctx = some d ∧
      (nfld w 15 3 = 0 → d.pc = nfld w 0 15) ∧ (nfld w 15 3 = 1 → d.pc = if c.fz then nfld w 0 15 else pc)) ∧
    (fmtOf w = 8 → c.stack.length < 8 → ∃ t d, exec (.microCall g .clean) s = .next t ∧ (t.groom g).ctx = some d ∧
      d.stack = pc :: c.stack ∧ d.pc = nfld w 0 15) ∧
    (isCtl 0 w = true → c.stack ≠ [] → ∃ t d, exec (.microRet g .clean) s = .next t ∧ (t.groom g).ctx = some d ∧
      c.stack = d.pc :: d.stack) ∧
    (isCtl 4 w = true → ∃ t d, exec (.microTick g .clean) s = .next t ∧ (t.groom g).ctx = some d ∧
      d.reg (nfld w 0 4) = word (s.tick % 2 ^ 32)) ∧
    (fmtOf w = 2 → c.staged = [] → s.reaches (.groom g) ad = true → ad % 4 = 0 →
      ∃ t d, exec (.ld g .clean) s = .next t ∧ (t.groom g).ctx = some d ∧
        d.reg (nfld w 14 4) = ((s.reach15 c.rcd.op (s.fetchAddr c.pc)).read32 (.groom g) ad).2) ∧
    (fmtOf w = 3 → c.staged.length < 64 → ∃ t d, exec (.st g .clean) s = .next t ∧ (t.groom g).ctx = some d ∧
      d.staged = c.staged ++ [(ad, c.reg (nfld w 14 4))] ∧ t.regs = s.regs) ∧
    (fmtOf w = 4 → s.trainPause = false → s.hayOk o h 4 = true →
      ∃ t d, exec (.hld g .clean .clean) s = .next t ∧ (t.groom g).ctx = some d ∧
        d.reg (nfld w 14 4) = word (s.hayGet o h 4)) ∧
    (fmtOf w = 5 → s.trainPause = false → s.hayOk o h 4 = true →
      ∃ t d, exec (.hst g .clean .clean) s = .next t ∧ (t.groom g).ctx = some d ∧
        t.hayGet o h 4 = (c.reg (nfld w 14 4)).toNat)

/-- Yield points commit the staged stores, and the routine goes on, ends, posts, sleeps or resumes. -/
def Obligations.YieldPointsCommitAndGoOn : Prop :=
  (∀ (g : Fin 8) (c : Ctx) (w : Nat) (s : State), s.fetches g c w = true → c.clean = true →
      (isCtl 1 w = true → ∃ t d, exec (.yield g .clean) s = .next t ∧ (t.groom g).ctx = some d ∧ d.after = .commit ∧
        d.staged = c.staged) ∧
      (isCtl 2 w = true → ∃ t d, exec (.microEnd g .clean) s = .next t ∧ (t.groom g).ctx = some d ∧
        d.after = .commitEnd (nfld w 0 8) ∧ d.vs = [c.reg 12, c.reg 13, c.reg 14, c.reg 15]) ∧
      (isCtl 3 w = true → ∃ t d, exec (.microPost g .clean) s = .next t ∧ (t.groom g).ctx = some d ∧
        d.after = .commitPost (nfld w 0 8)) ∧
      (isCtl 5 w = true → ∃ t d, exec (.sleep g .clean) s = .next t ∧ (t.groom g).ctx = some d ∧
        d.after = .commitSleep (nfld w 0 14))) ∧
  (∀ (g : Fin 8) (c : Ctx) (s : State), (s.groom g).ctx = some c → c.clean = true →
      (c.after = .commit → c.staged = [] →
        ∃ t d, exec (.commitDone g) s = .next t ∧ (t.groom g).ctx = some d ∧ d.after = .done ∧ t.regs = s.regs) ∧
      (∀ (a : Nat) (v : Word), c.after = .commit → c.staged = [(a, v)] → a % 4 = 0 → s.takes (.groom g) a v = true →
        ∃ t, exec (.commitDone g) s = .next t ∧ t.regs = (s.write32 (.groom g) a v).regs) ∧
      (∀ st : Nat, c.after = .commitEnd st → c.staged = [] → (s.groom g).chains = [] →
        ∃ t, exec (.commitDone g) s = .next t ∧ (t.groom g).ctx = none ∧ Store.get? t.cluster.results c.rcd.key = some st)) ∧
  (∀ (g : Fin 8) (c : Ctx) (s : State), (s.groom g).ctx = some c → c.after = .asleep → c.abort = false →
      ∃ t d, exec (.sleepEnd g) s = .next t ∧ (t.groom g).ctx = some d ∧ d.after = .no ∧ c.t 0 + 3200 * c.t 1 ≤ t.now) ∧
  (∀ (g : Fin 8) (i : Fin 4) (c : Ctx) (l : List Chain) (s : State), s.groomIdle g = true →
      (s.groom g).saved[i.val]? = some (c, l) → c.abort = false →
      ∃ t, exec (.contextResume g i) s = .next t ∧ (t.groom g).ctx = some (c.unpause s.now) ∧
        (t.groom g).chains = l.map fun h => { h with ctx := h.ctx.unpause s.now })

/-- Rings are assigned, enabled, rung, fed and signalled. -/
def Obligations.RingCommandsTakeEffect : Prop :=
  (∀ (r : Requester) (n : Fin 32768) (s : State), s.reachRing r n = true → s.ringPolicy n ≠ 3 → 8 ≤ s.ringLog2 n →
      s.ringLog2 n ≤ 30 →
      (s.ringEn n = false → s.ringBase n % 2 ^ s.ringLog2 n = 0 →
        s.inRegion (s.ringOwner n) anyKind (s.ringBase n) (2 ^ s.ringLog2 n) = true →
        ∃ t, exec (.ringEnable r n) s = .next t ∧ t.ringEn n = true ∧ t.pidx n = 0 ∧ t.cidx n = 0 ∧
          t.ringOwner n = s.ringOwner n ∧ t.ringBase n = s.ringBase n) ∧
      (s.ringEn n = true → ∃ t, exec (.ringDisable r n) s = .next t ∧ t.ringEn n = false ∧ (t.ring n).held = [])) ∧
  (∀ (f : Fin 18) (n : Fin 32768) (v : Word) (s : State), s.reachRing (.fn f) n = true → s.ringEn n = true →
      (s.ringIn n = true →
        (v.toNat + 2 ^ 32 - s.pidx n) % 2 ^ 32 ≤ (s.cidx n + s.ringCap n + 2 ^ 32 - s.pidx n) % 2 ^ 32 →
        ∃ t, exec (.doorbell f n (some v) true) s = .next t ∧ t.pidx n = v.toNat ∧ t.cidx n = s.cidx n) ∧
      (s.ringIn n = false → (v.toNat + 2 ^ 32 - s.cidx n) % 2 ^ 32 ≤ (s.pidx n + 2 ^ 32 - s.cidx n) % 2 ^ 32 →
        ∃ t, exec (.doorbell f n (some v) true) s = .next t ∧ t.cidx n = v.toNat ∧ t.pidx n = s.pidx n)) ∧
  (∀ (n : Fin 32768) (h : Held) (tl : List Held) (s : State), (s.ring n).held = h :: tl → (∀ b, h.prod ≠ .acq b) →
      s.ringEn n = true → s.ringIn n = false → s.ringFull n = false → s.ringPaused = false →
      ∃ t, exec (.backpAccept n) s = .next t ∧ (t.ring n).held = tl ∧ t.pidx n = (s.pidx n + 1) % 2 ^ 32) ∧
  (∀ (n : Fin 32768) (a e : Nat) (s : State), s.headEntry n = some (a, e) → e % 256 ≠ 0x0A → s.poisoned a 32 = false →
      (s.ring n).cancelled = [] →
      ∃ t, exec (.badent n .clean) s = .next t ∧ t.cidx n = (s.cidx n + 1) % 2 ^ 32 ∧
        t.ringF n Off.rngStat 16 8 = min 255 (s.ringF n Off.rngStat 16 8 + 1)) ∧
  (∀ (g : Fin 8) (n : Fin 32768) (o : Nat) (h : Held) (x : RingSt) (s : State), s.rings = [(n.val, x)] → x.held = [h] →
      h.prod = .groom g o →
      ∃ t, exec (.backpDrop g) s = .next t ∧ (t.ring n).held = [] ∧ (t.ring n).gap = true) ∧
  (∀ (n : Fin 32768) (s : State), s.ringEn n = true → s.ringF n Off.rngCtrl 16 1 = 1 → s.ringF n Off.rngMod 16 16 ≠ 0 →
      0 < (s.ring n).since →
      ∃ t, exec (.ringTimer n) s = .next t ∧ (t.ring n).since = 0) ∧
  (∀ (r : Requester) (owner : Fin 16) (n : Nat) (s : State), s.accepts r .rng 0 Off.rngAsgCmd (word (2 ^ 31 + owner)) = true →
      (owner.val < 8 ∨ owner.val = 15) → s.pageEn .rng 0 = true →
      (s.enabledRings.any fun m => decide (s.rf .rng 0 Off.rngAsgRange 0 15 ≤ m) && decide (m ≤ s.rf .rng 0 Off.rngAsgRange 16 15)) = false →
      s.ownerInM4 owner = true → (∀ m ∈ List.range' (s.rf .rng 0 Off.rngAsgRange 0 15)
        (s.rf .rng 0 Off.rngAsgRange 16 15 + 1 - s.rf .rng 0 Off.rngAsgRange 0 15), s.ownerInM4 (s.ringOwner m) = true) →
      s.rf .rng 0 Off.rngAsgRange 0 15 ≤ n → n ≤ s.rf .rng 0 Off.rngAsgRange 16 15 →
      ∃ t, exec (.ringAssign r owner) s = .next t ∧ t.ringOwner n = owner.val)

/-- The hayloft controller remaps, switches its rate, refreshes and repairs rows. -/
def Obligations.HayloftControllerCommandsTakeEffect : Prop :=
  (∀ (r : Requester) (s : State), s.accepts r .hbm 0 Off.hbmCtrl (putBit (s.rd .hbm 0 Off.hbmCtrl) 0 true) = true →
      s.rf .hbm 0 Off.hbmCtrl 8 8 ≠ 0 → s.rb .hbm 0 Off.hbmCtrl 0 = false → s.pageEn .hbm 0 = true → s.mode.dev = .m4 →
      s.domainsInM4 = true → s.enabledRings = [] → s.groomBusy = false → s.hbmBit 8 = false →
      ∃ t, exec (.remap r) s = .next t ∧ t.rb .hbm 0 Off.hbmCtrl 0 = true ∧
        t.hbm.mapDue = (upto 10).map fun j => s.rd .hbm 0 (Off.hbmXmap j)) ∧
  (∀ (j : Fin 10) (s : State), s.rb .hbm 0 Off.hbmCtrl 0 = true →
      ∃ t, exec .remapDone s = .next t ∧ t.rb .hbm 0 Off.hbmCtrl 0 = false ∧
        t.xmapAct j = ((s.hbm.mapDue[j.val]?).getD 0).toNat ∧ t.hay.cells = []) ∧
  (∀ (r : Requester) (p : Fin 4) (s : State), s.accepts r .hbm 0 Off.hbmRateCmd (word p) = true → p.val ≠ 3 →
      s.pageEn .hbm 0 = true → s.mode.dev = .m4 → s.hbmBit 8 = false → s.ratePoint ≠ p → s.hbmBit 10 = false →
      s.hbm.tracking = false → s.rtActive = false → s.rateTrained p = true →
      ∃ t, exec (.rateRequest r p) s = .next t ∧ t.hbmBit 10 = true ∧ t.hbm.want = some p.val ∧
        t.rb .hbm 0 Off.hbmRateResult 16 = false) ∧
  (∀ (p : Fin 3) (s : State), s.hbm.want = some p.val → s.hbmBit 9 = false → s.rateTrained p = true →
      ∃ t, exec .rateSwitchDone s = .next t ∧ t.ratePoint = p ∧ t.hbmBit 10 = false ∧ t.hbm.want = none ∧
        t.rb .hbm 0 Off.hbmRateResult 16 = true ∧ t.rf .hbm 0 Off.hbmRateResult 8 4 = rateOk) ∧
  (∀ (p : Fin 3) (s : State), s.hbm.heldRate = some p.val → s.hbmBit 10 = false → s.hbm.tracking = false → s.ratePoint = p →
      ∃ t, exec .heldRateStart s = .next t ∧ t.hbmBit 8 = false ∧ t.hbm.heldRate = none ∧
        t.rf .hbm 0 Off.hbmRateResult 8 4 = rateOk) ∧
  (∀ (p w : Fin 3) (s : State), s.hbm.heldRate = some p.val → s.hbm.want = some w.val → s.hbmBit 10 = true → s.hbmBit 9 = true →
      s.hbm.tracking = false → s.rtActive = false → s.rateTrained p = true → w ≠ p →
      ∃ t, exec .heldRateStart s = .next t ∧ t.hbm.want = some p.val ∧ t.hbmBit 10 = true ∧ t.hbmBit 9 = false ∧
        t.hbmBit 8 = false ∧ t.rateTrained w = false) ∧
  (∀ (pc : Fin 32) (b : Bool) (s : State), s.hbmBit 11 = false → s.debt pc ≤ 8 →
      (∃ t, exec (.refreshDue pc (.due true)) s = .next t ∧ t.debt pc = min 8 (s.debt pc + 1)) ∧
      (s.hbmBit 10 = false → ∃ t, exec (.refreshDue pc (.due false)) s = .next t ∧
        t.debt pc = (if s.debt pc = 0 then 0 else min 8 (s.debt pc + 1)) ∧ t.rd .hbm 0 Off.hbmRfshPost = s.rd .hbm 0 Off.hbmRfshPost) ∧
      (s.hbmBit 10 = false → s.debt pc ≠ 0 →
        ∃ t, exec (.refreshDue pc .idle) s = .next t ∧ t.debt pc = s.debt pc - 1) ∧
      (s.hbmBit 10 = false → s.debt pc = 8 →
        ∃ t, exec (.refreshDue pc (.boundary b)) s = .next t ∧ t.debt pc = 7)) ∧
  (∀ (on : Bool) (s : State), ∃ t, exec (.trackingStep on) s = .next t ∧ t.hbm.tracking = on ∧ t.regs = s.regs) ∧
  (∀ (v : BitVec 16) (s : State), ∃ t, exec (.hbmTempUpdate v) s = .next t ∧ t.rd .hbm 0 Off.hbmTemp = word v.toNat ∧
      t.hbmBit 14 = decide (340 < signed 16 v.toNat)) ∧
  (∀ (r : Requester) (i : Fin 16) (e : Nat × Bool) (s : State), s.accepts r .hbm 0 Off.hbmRepairCmd (word (2 ^ 31 + i)) = true →
      s.hbm.repairing = none → s.pageEn .hbm 0 = true → s.mode.dev = .m4 → s.rtActive = false →
      s.hay.rowLog[i.val]? = some e → Store.getD (fun _ => 0) s.hbm.spares (e.1 / 2 ^ 15) < 2 →
      ∃ t, exec (.rowRepair r i) s = .next t ∧ t.hbm.repairing = some i.val ∧ t.rb .hbm 0 Off.hbmRepairResult 16 = false) ∧
  (∀ (i : Nat) (e : Nat × Bool) (s : State), s.hbm.repairing = some i → s.hay.rowLog[i]? = some e →
      ∃ t, exec .rowRepairDone s = .next t ∧ t.hay.rowLog[i]? = some (e.1, true) ∧ t.hbm.repairing = none ∧
        t.rb .hbm 0 Off.hbmRepairResult 16 = true ∧ t.rf .hbm 0 Off.hbmRepairResult 8 4 = 0)

/-- VIN, VBAK, the lantern supply, RESET_N, PERST_N and the islands take effect. -/
def Obligations.PowerAndResetPinsTakeEffect : Prop :=
  (∀ s : State, ∃ t, exec .vbakPresent s = .next t ∧ t.pins.vbak = true ∧
      (s.pins.vin = false → s.mode.dev = .m0 → t.mode.dev = .m1 ∧ t.lan.onVbak = true) ∧
      ((s.pins.vin = true ∨ s.mode.dev ≠ .m0) → t = { s with pins := { s.pins with vbak := true } })) ∧
  (∀ s : State, ∃ t, exec .lanternPor s = .next t ∧ t.lan.slots = [] ∧ t.lan.tick = 0 ∧ t.lan.rstCnt = [(rstLanternPor, 1)] ∧
      t.lan.rstTotal = 1 ∧ t.rst.isl = 0 ∧ (s.pins.vin = false → t.mode.dev = .m0) ∧
      (s.pins.vin = true → s.pins.resetN = false → t.rb .rst 0 Off.rstIslPend 8 = true ∧
        (s.pins.perstN = false → t.lan.rstLast = rstLanternPor))) ∧
  (∀ s : State, s.pins.vin = false →
      ∃ t, exec .vinInRange s = .next t ∧ t.pins.vin = true ∧ t.lan.onVbak = false ∧
        t.rb .rst 0 Off.rstIslPend 8 = (!s.pins.resetN || s.rb .rst 0 Off.rstIslPend 8) ∧
        t.lan.count rstVinPor = (if s.rst.porCounted then s.lan.count rstVinPor else satAdd 0xFFFF (s.lan.count rstVinPor) 1)) ∧
  (∀ (n : BitVec 40) (s : State), s.pins.vin = true →
      ∃ t, exec (.vinLost n) s = .next t ∧ t.pins.vin = false ∧ t.mode.dev = (if s.pins.vbak then .m1 else .m0) ∧
        t.hay.cells = [] ∧ t.rst.isl = 0 ∧ t.lan.count rstVinPor = satAdd 0xFFFF (s.lan.count rstVinPor) 1 ∧
        t.pending = s.pending) ∧
  (∀ s : State, s.pins.resetN = false →
      (s.rst.choreLost = false →
        ∃ t, exec .resetNAssert s = .next t ∧ t.pins.resetN = true ∧
          t.lan.count rstResetN = satAdd 0xFFFF (s.lan.count rstResetN) 1 ∧ (s.pins.vin = true → t.rst.isl = 0)) ∧
      (s.rst.choreLost = true → exec .resetNAssert s = .next s)) ∧
  (∀ s : State, s.pins.resetN = true →
      ∃ t, exec .resetNRelease s = .next t ∧ t.pins.resetN = false ∧
        t.rb .rst 0 Off.rstIslPend 8 = (s.pins.vin || s.rb .rst 0 Off.rstIslPend 8)) ∧
  (∀ s : State, s.pins.perstN = false →
      ∃ t, exec .perstNAssert s = .next t ∧ t.pins.perstN = true ∧
        (∀ k < 2, t.linkUp k = false) ∧ (∀ f < 18, t.fnCfg f = FnCfg.reset) ∧
        t.lan.count rstPerst = satAdd 0xFFFF (s.lan.count rstPerst) 1) ∧
  (∀ s : State, s.pins.perstN = true →
      ∃ t, exec .perstNRelease s = .next t ∧ t.pins.perstN = false ∧ (∀ o < 9, s.keyGen ≤ Store.getD (fun i => i) t.keys o) ∧
        (3 ≤ s.mode.dev.num → natBit s.rst.isl 10 = false → t.rb .rst 0 Off.rstIslPend 10 = true)) ∧
  (∀ (i : Fin 12) (s : State), s.rb .rst 0 Off.rstIslPend i = true →
      (∃ t, exec (.islandLock i) s = .next t ∧ natBit t.rst.isl i = true ∧ t.rb .rst 0 Off.rstIslPend i = false) ∧
      (∃ t, exec (.islandLockFail i) s = .next t ∧ t.rst.isl = s.rst.isl ∧ t.rb .rst 0 Off.rstIslLockfail i = true ∧
        t.rb .rst 0 Off.rstIslPend i = false))

/-- Option load, gatehouse boot, epoch, training, tack-room load and links lead from M2 to M4. -/
def Obligations.BootLeadsToPark : Prop :=
  (∀ s : State, s.mode.dev = .m2 → s.rst.loading = true →
      (∃ t, exec (.optionLoadDone none) s = .next t ∧ t.rst.loading = false ∧ t.rst.booting = true ∧
        t.rb .rst 0 Off.rstStat 0 = true ∧ t.rb .hlk 0 Off.hlkPortcfg 0 = s.otp.split) ∧
      (∀ row : Fin 256, ∃ t, exec (.optionLoadDone (some row)) s = .next t ∧ t.rst.booting = s.rst.booting ∧
        t.rb .rst 0 Off.rstStat 1 = true ∧ t.rf .rst 0 Off.rstOpt 0 8 = row)) ∧
  (∀ (o : BootRead) (s : State), let x : State := { s with flash := flashFill s.flash o.flash }
      let a := x.slotAt 0
      let b := x.slotAt 1
      let fails := fun (code image : Nat) => ∃ t, exec (.bootDone o) s = .next t ∧ t.mode.dev = .m2 ∧ t.rst.booting = false ∧
        t.rd .gth 0 Off.gthBootResult = word (code + 16 * image)
      let runs := fun (patch : Bool) => ∃ t, exec (.bootDone o) s = .next t ∧ t.mode.dev = .m3 ∧ t.rst.booting = false ∧
        t.rf .gth 0 Off.gthImgSvn 0 7 = x.imageSvn a ∧ t.rb .gth 0 Off.gthStat 0 = true ∧ t.gth.listed = o.listed ∧
        (patch = true → t.rb .gth 0 Off.gthStat 1 = true ∧ t.rf .gth 0 Off.gthImgSvn 8 7 = x.imageSvn b ∧
          t.rf .grm 0 Off.grmPatch 0 16 = x.flashNum (b + 6) 2)
      s.mode.dev = .m2 → s.rst.booting = true →
      (o.fault = some 0 → fails 8 0) ∧
      (o.fault ≠ some 0 → x.dirOk = false → fails 1 0) ∧
      (o.fault ≠ some 0 → x.dirOk = true → x.slotLen 0 = 0 → fails 2 0) ∧
      (o.fault = some 1 → x.dirOk = true → x.slotLen 0 ≠ 0 → fails 8 1) ∧
      (o.fault ≠ some 0 → o.fault ≠ some 1 → x.dirOk = true → x.slotLen 0 ≠ 0 →
        (x.imageCheck false a ≠ 0 → fails (x.imageCheck false a) 1) ∧
        (x.imageCheck false a = 0 →
          (x.slotLen 1 = 0 → runs false) ∧
          (x.slotLen 1 ≠ 0 → o.fault = some 2 → fails 8 2) ∧
          (x.slotLen 1 ≠ 0 → o.fault = none → x.imageCheck true b ≠ 0 → fails (x.imageCheck true b) 2) ∧
          (x.slotLen 1 ≠ 0 → o.fault = none → x.imageCheck true b = 0 → x.tagOk b = false → fails 6 2) ∧
          (x.slotLen 1 ≠ 0 → o.fault = none → x.imageCheck true b = 0 → x.tagOk b = true → runs true)))) ∧
  (∀ s : State, s.mode.dev = .m3 → s.mode.autoArmed = false → (∀ b < 8, natBit s.rst.isl b = true) →
      ∃ t, exec .autoEpochArm s = .next t ∧ t.armed = some ⟨standalone, s.now⟩ ∧ t.mode.autoArmed = true) ∧
  (∀ s : State, s.mode.dev = .m3 → s.hbmBit 9 = true →
      (∃ t, exec (.trainingDone 0 true) s = .next t ∧ t.mode.trainDone = true ∧ t.hbmBit 9 = false ∧ t.hbmBit 4 = true) ∧
      (∃ t, exec (.trainingDone 0 false) s = .next t ∧ t.mode.trainDone = s.mode.trainDone ∧ t.hbmBit 9 = false ∧
        t.rst.m3Fail = true)) ∧
  (∀ (p : Fin 3) (ok : Bool) (s : State), s.mode.dev ≠ .m3 → s.hbm.want = some p.val → s.hbmBit 9 = true →
      ∃ t, exec (.trainingDone p ok) s = .next t ∧ t.hbmBit (4 + p) = ok ∧ t.hbmBit 9 = false) ∧
  (∀ (faults : BitVec 2) (s : State), s.mode.dev = .m3 → s.mode.tackLoaded = false →
      (∀ k : Nat, s.tackChoice faults.toNat = some k →
        ∃ t, exec (.tackRoomLoadDone faults) s = .next t ∧ t.mode.tackLoaded = true ∧ t.rf .tak 0 Off.takStat 4 3 = 1 ∧
          t.rd .tak 0 Off.takEpochA = word (s.tackEpoch k) ∧ t.rd .far 0 Off.farEpoch = word (s.tackEpoch k) ∧ t.far.slot = some k) ∧
      (s.tackChoice faults.toNat = none →
        ∃ t, exec (.tackRoomLoadDone faults) s = .next t ∧ t.mode.tackLoaded = true ∧ t.rd .tak 0 Off.takEpochA = 0 ∧
          t.rd .far 0 Off.farEpoch = 0 ∧
          ((s.tackThere 2 || s.tackThere 3) = true → t.rf .tak 0 Off.takStat 4 3 = 3) ∧
          (s.slotLen 2 = 0 → s.slotLen 3 = 0 → t.rf .tak 0 Off.takStat 4 3 = 0))) ∧
  (∀ (k : Fin 2) (gen : Fin 8) (width : Fin 16) (s : State), natBit s.rst.isl (10 + k) = true → s.linkUp k = false →
      s.pins.perstN = false → 3 ≤ s.mode.dev.num →
      ∃ t, exec (.linkUp k gen width) s = .next t ∧ t.linkUp k = true ∧ t.rf .hlk 0 (Off.hlkLstat k) 0 3 = gen ∧
        t.rf .hlk 0 (Off.hlkLstat k) 4 4 = width ∧
        (k.val = 0 → s.mode.dev = .m3 → s.islandsUp = true → s.mode.trainDone = true → s.mode.tackLoaded = true →
          s.epochValid = true → s.split = false → s.rst.m3Fail = false → t.mode.dev = .m4)) ∧
  (∀ s : State, s.mode.dev = .m3 → s.pins.perstN = false →
      (s.linkUp 0 = false → ∃ t, exec (.linkTrainingTimeout 0) s = .next t ∧ t.rst.m3Fail = true ∧ t.mode = s.mode) ∧
      (s.split = true → s.linkUp 1 = false →
        ∃ t, exec (.linkTrainingTimeout 1) s = .next t ∧ t.rst.bExpired = true))

/-- Host requests to configuration space, BAR4 and MSI-X, and resets of functions and ports, take effect. -/
def Obligations.HostRequestsAreServed : Prop :=
  (∀ (f : Fin 18) (q : CfgRequest) (s : State), s.linkUp (portOf f) = true →
      (s.rst.yardLost = true → exec (.configRequest f q) s = .next s) ∧
      (s.rst.yardLost = false → s.mode.served = false → exec (.configRequest f q) s = .next (s.complete .retry [])) ∧
      (∀ mse bme : Bool, s.rst.yardLost = false → s.mode.served = true → s.fnAnswers f = true → q = .command mse bme →
        ∃ t, exec (.configRequest f q) s = .next t ∧ t.cpl = some .success ∧ (t.fnCfg f).mse = (isPf f && mse) ∧
          (t.fnCfg f).bme = bme ∧ (t.fnCfg f).msixEn = (s.fnCfg f).msixEn ∧ t.regs = s.regs)) ∧
  (∀ s : State, ∃ t, exec .unsupportedRequest s = .next t ∧ t.cpl = some .unsupported) ∧
  (∀ (f : Fin 18) (a : BitVec 35) (n : Fin 513) (o : Nat) (s : State), s.mode.dev ≠ .m5 → s.trainPause = false →
      s.acting (.fn f) = some o → s.fnBlocked f = false →
      (∀ bs : List Byte, s.hayOk o a.toNat bs.length = true →
        ∃ t, exec (.bar4Access f a (some bs) n .clean) s = .next t ∧
          (∀ i, (h : i < bs.length) → t.hayRead o (a.toNat + i) = bs[i]) ∧
          (∀ b, (b / 32 < a.toNat / 32 ∨ a.toNat + bs.length ≤ b / 32 * 32) →
            Store.get? t.hay.cells b = Store.get? s.hay.cells b)) ∧
      (s.hayOk o a.toNat n = true →
        ∃ t, exec (.bar4Access f a none n .clean) s = .next t ∧ t.cpl = some .success ∧
          t.resp = wordsOf (s.hayBytes o a.toNat n) ∧ t.hay = s.hay ∧ t.regs = s.regs)) ∧
  (∀ (f : Fin 18) (v : Fin 4096) (s : State), s.memServed f = true → v.val < s.rf .hlk 0 (Off.hlkVec f) 0 13 → s.fnBlocked f = false →
      (∀ mask : Bool, ∃ t, exec (.msixUnmask f v (.mask mask)) s = .next t ∧ t.vecMasked f v = mask) ∧
      (∀ (w : Fin 3) (x : Word), ∃ t, exec (.msixUnmask f v (.write w x)) s = .next t ∧ t.msixWord f v w = x ∧
        t.vmask = s.vmask ∧ t.pba = s.pba ∧ t.sent = s.sent ∧ t.regs = s.regs) ∧
      (∀ w : Fin 4, exec (.msixUnmask f v (.read w)) s =
        .next { s with resp := [if w.val = 3 then word (bit (s.vecMasked f v)) else s.msixWord f v w], cpl := some .success })) ∧
  (∀ (r : Requester) (f : Fin 18) (v : Word) (s : State),
      (s.accepts r .hlk 0 (Off.hlkFnmap f) v = true → f.val ≠ 0 → (fld v 0 4 < 8 ∨ fld v 0 4 = 14) → s.memMapped f = false →
        ∃ t, exec (.fnmapWrite r f v) s = .next t ∧ t.rf .hlk 0 (Off.hlkFnmap f) 0 4 = fld v 0 4) ∧
      (s.accepts r .hlk 0 (Off.hlkVec f) v = true → (s.fnCfg f).msixEn = false →
        (isPf f = false → (s.fnCfg (pfOf f)).vfEn = false) → 0 < fld v 0 13 →
        fld v 0 13 + (((portFns (portOf f)).filter fun g => g != f.val).map fun g => s.rf .hlk 0 (Off.hlkVec g) 0 13).sum ≤ 4096 →
        ∃ t, exec (.vecWrite r f v) s = .next t ∧ t.rf .hlk 0 (Off.hlkVec f) 0 13 = fld v 0 13)) ∧
  (∀ (k : Fin 2) (s : State), s.linkUp k = true →
      ((k.val = 0 ∨ s.hbmBit 10 = false) → ∃ t, exec (.hotReset k) s = .next t ∧ (∀ f ∈ portFns k, t.fnCfg f = FnCfg.reset) ∧
        ∀ f, f ∉ portFns k → t.fnCfg f = s.fnCfg f) ∧
      (k.val = 1 → s.hbmBit 10 = true → ∃ t, exec (.hotReset k) s = .next t ∧ t.rst.hotHeld = true ∧ t.fns = s.fns) ∧
      (∃ t, exec (.linkDown k) s = .next t ∧ t.linkUp k = false ∧ (∀ f ∈ portFns k, t.fnCfg f = FnCfg.reset) ∧
        ∀ f, f ∉ portFns k → t.fnCfg f = s.fnCfg f)) ∧
  (∀ (f : Fin 18) (s : State), f.val ≠ 0 → s.fnExists f = true →
      ∃ t, exec (.flr f) s = .next t ∧ t.fnCfg f = FnCfg.reset ∧
        ((f.val ≠ 9 ∨ (s.fnCfg 9).vfEn = false) → ∀ g ≠ f.val, t.fnCfg g = s.fnCfg g) ∧
        (f.val = 9 → (s.fnCfg 9).vfEn = true → ∀ g ∈ portFns 1, t.fnCfg g = FnCfg.reset) ∧
        (s.rf .hlk 0 (Off.hlkFnmap f) 0 4 < 8 → t.penBusy (s.rf .hlk 0 (Off.hlkFnmap f) 0 4) = true))

/-- Writes and reads of registers, headers and owners take effect, and an access to an unreachable page is only counted. -/
def Obligations.PageAccessesTakeEffect : Prop :=
  (∀ (r : Requester) (a : BitVec 26) (v : BitVec 64) (k : PageKind) (i : Nat) (s : State), i < k.count →
      (a.toNat = k.base i + Off.pgEvtEn → s.accepts r k i Off.pgEvtEn (word v.toNat) = true →
        ∃ t, exec (.registerWrite r a .w32 v) s = .next t ∧ t.rd k i Off.pgEvtEn = word v.toNat ∧
          ∀ k' i' o, k'.addr i' o ≠ k.addr i Off.pgEvtEn → t.rd k' i' o = s.rd k' i' o) ∧
      (a.toNat = k.base i + Off.pgEvt → s.accepts r k i Off.pgEvt (word v.toNat) = true →
        ∃ t, exec (.registerWrite r a .w32 v) s = .next t ∧ t.rd k i Off.pgEvt = s.rd k i Off.pgEvt &&& ~~~ (word v.toNat))) ∧
  (∀ (f : Fin 18) (a : BitVec 26) (v : BitVec 64) (s : State), let y := s.sat .hlk 0 (if s.memServed f then Off.hlkAccerr f else Off.hlkUrCnt) 0 32 1
      s.reaches (.fn f) a.toNat = false →
      exec (.registerWrite (.fn f) a .w32 v) s = .next y ∧
      exec (.unreachableAccess (.fn f) a .w32 (some v)) s = .next y ∧
      ∃ t, exec (.unreachableAccess (.fn f) a .w32 none) s = .next t ∧ t.resp = [0xFFFFFFFF] ∧
        t.cpl = some (if s.memServed f then .success else .unsupported) ∧ t.regs = y.regs) ∧
  (∀ (r : Requester) (a : BitVec 26) (k : PageKind) (i o n : Nat) (s : State), i < k.count → o < 0x1000 → k ≠ .tim →
      rsGroup k o = some (o, n) → regRow k o ≠ none → a.toNat = k.base i + o → a.toNat % 4 = 0 → s.reach r k i = .full →
      s.rb k i Off.pgCtrl 1 = false →
      ∃ t, exec (.rsSnapshotRead r a .w32) s = .next t ∧ t.resp = [s.view r k i o] ∧ t.regs = s.regs ∧
        ∀ j, 0 < j → j < n → Store.getD (fun _ => 0) t.snaps (reqKey r (k.base i + o + 4 * j)) = s.view r k i (o + 4 * j)) ∧
  (∀ (r : Requester) (q : Fin 8) (a : BitVec 26) (v : Word) (s : State), a.toNat = PageKind.seq.base q + Off.seqStartTickHi →
      s.accepts r .seq q Off.seqStartTickHi v = true →
      ∃ t, exec (.wideWriteCommit r a v) s = .next t ∧
        t.rd .seq q Off.seqStartTickLo = s.staged r .seq q Off.seqStartTickLo ∧
        t.rf .seq q Off.seqStartTickHi 0 16 = fld v 0 16) ∧
  (∀ (r : Requester) (p : BitVec 14) (k : PageKind) (i : Nat) (s : State), i < k.count → p.toNat * 0x1000 = k.base i →
      (∀ en : Bool, s.accepts r k i Off.pgCtrl (word (bit en)) = true →
        ∃ t, exec (.pageEnable r p en) s = .next t ∧ t.pageEn k i = en) ∧
      (s.accepts r k i Off.pgCtrl (putBit (s.rd k i Off.pgCtrl) 1 true) = true → s.widerReset k i = false →
        ∃ t, exec (.pageSoftReset r p) s = .next t ∧ t.rb k i Off.pgCtrl 1 = true ∧
          t.lan.count rstPage = satAdd 0xFFFF (s.lan.count rstPage) 1 ∧
          (k = .apg → ∀ o, 0x40 ≤ o → o < 0x1000 → t.rd k i o = regReset (k.base i + o))) ∧
      (s.widerReset k i = false → ∃ t, exec (.pageSoftResetDone p) s = .next t ∧ t.rb k i Off.pgCtrl 1 = false ∧ t.pageEn k i = s.pageEn k i) ∧
      (∀ v : Word, s.isSup r = true → s.accepts r k i Off.pgLock v = true → fld v 8 8 = 0x5A →
        ∃ t, exec (.pageLockWrite r p v) s = .next t ∧ t.rf k i Off.pgLock 0 2 = fld v 0 2) ∧
      (∀ v : Word, ownerHome k ≠ none → s.accepts r k i Off.pgOwner v = true → (fld v 0 4 < 8 ∨ fld v 0 4 = 15) →
        s.ownerInM4 (s.ownerOf k i) = true → s.ownerInM4 (fld v 0 4) = true →
        ∃ t, exec (.pageOwnerWrite r p v) s = .next t ∧ t.ownerOf k i = fld v 0 4)) ∧
  (∀ (x : TapInstr) (s : State),
      ((s.mode.dev = .m2 ∨ s.mode.dev = .m3 ∨ (s.mode.dev = .m4 ∧ s.domainsInM4 = true ∧ s.allParked = true)) →
        exec (.extest x) s = .next { s with tap := x }) ∧
      (¬(s.mode.dev = .m2 ∨ s.mode.dev = .m3 ∨ (s.mode.dev = .m4 ∧ s.domainsInM4 = true ∧ s.allParked = true)) →
        exec (.extest x) s = .next { s with tap := .bypass }))

/-- Regions, pen resets, the anti-rollback counter, the debug lock and tamper events take effect. -/
def Obligations.GatehouseCommandsTakeEffect : Prop :=
  (∀ (r : Requester) (v : Word) (s : State), let i := s.rf .pen 0 Off.penRgnIdx 0 6
      let new : Region := ⟨s.rf .pen 0 Off.penRgnBase 0 15, s.rf .pen 0 Off.penRgnLast 0 15, fld v 0 4, fld v 4 2, tbit v 31⟩
      s.accepts r .pen 0 Off.penRgnCfg v = true → (s.region i).en = false → ownerCode new.owner = true → new.kind < 3 →
      new.base ≤ new.last → new.last < 0x6000 → s.ownerInM4 (s.region i).owner = true → s.ownerInM4 new.owner = true →
      (∀ e ∈ s.regions, e.1 ≠ i → e.2.en = true → e.2.last < new.base ∨ new.last < e.2.base) →
      ∃ t, exec (.regionWrite r v) s = .next t ∧ t.region i = new ∧ (∀ j ≠ i, t.region j = s.region j) ∧ t.regs = s.regs) ∧
  (∀ (r : Requester) (pens : BitVec 8) (s : State), s.accepts r .pen 0 Off.penRst (word pens.toNat) = true →
      s.pageEn .pen 0 = true →
      ∃ t, exec (.penReset r pens) s = .next t ∧ ∀ p < 8, natBit pens.toNat p = true →
        t.penBusy p = true ∧ (s.penBusy p = false → t.rb .pen 0 Off.penStat p = true) ∧
        (s.penBusy p = false → s.keyGen ≤ t.keyOf p)) ∧
  (∀ (p : Fin 8) (s : State), s.pins.perstN = false → ∃ t, exec (.penResetDone p) s = .next t ∧ t.penBusy p = false ∧ t.rb .pen 0 Off.penStat p = false) ∧
  (∀ (r : Requester) (n : BitVec 7) (s : State), s.accepts r .gth 0 Off.gthSvnCmd (word (n.toNat + 2 ^ 8 * 0xC3)) = true →
      s.farState ≠ fStore → s.gth.programming = none → s.isSup r = true → s.mode.dev = .m4 → s.otp.svn < n.toNat →
      n.toNat ≤ s.gth.bootSvn → (∀ m, s.gth.patchSvn = some m → n.toNat ≤ m) → s.pageEn .gth 0 = true →
      ∃ t, exec (.svnAdvance r n 0xC3) s = .next t ∧ t.gth.programming = some n.toNat ∧ t.otp = s.otp ∧
        t.rb .gth 0 Off.gthSvnResult 16 = false) ∧
  (∀ (n : Nat) (s : State), s.gth.programming = some n →
      (s.gth.heldTamper = 0 →
        ∃ t, exec (.svnAdvanceDone true) s = .next t ∧ t.otp.svn = n ∧ t.gth.programming = none ∧
          t.rb .gth 0 Off.gthSvnResult 16 = true ∧ t.rf .gth 0 Off.gthSvnResult 8 4 = 0) ∧
      (∀ src : Fin 4, s.gth.heldTamper = 2 ^ src.val → 2 ≤ s.mode.dev.num →
        ∃ t, exec (.svnAdvanceDone true) s = .next t ∧ t.otp.svn = n ∧ t.gth.heldTamper = 0 ∧ t.mode.dev = .m11 ∧
          natBit t.lan.tamper src = true)) ∧
  (∀ (r : Requester) (s : State), s.pageEn .gth 0 = true →
      (s.accepts r .gth 0 Off.gthDbgCmd 1 = true → ∃ t, exec (.debugNonce r) s = .next t ∧ t.gth.nonce = true) ∧
      (s.accepts r .gth 0 Off.gthDbgCmd 2 = true → s.rb .gth 0 Off.gthDbgCmd 1 = false →
        ∃ t, exec (.debugSubmit r) s = .next t ∧ t.rb .gth 0 Off.gthDbgCmd 1 = true ∧
          t.rb .gth 0 Off.gthDbgResult 16 = false ∧
          t.gth = { s.gth with nonce := false, submit := some (s.recordFits && s.recordSigned, fld (s.dbgRec 6) 0 3) })) ∧
  (∀ (good : Bool) (scope : Nat) (s : State), s.rb .gth 0 Off.gthDbgCmd 1 = true → s.gth.submit = some (good, scope) →
      (good = true →
        ∃ t, exec (.debugResult true) s = .next t ∧ t.gth.unlocked = true ∧ t.gth.submit = none ∧
          t.rf .gth 0 Off.gthStat 2 3 = scope % 8 ∧ ∀ o < 9, s.keyGen ≤ t.keyOf (if o = 8 then 15 else o)) ∧
      (∃ t, exec (.debugResult false) s = .next t ∧ t.gth = { s.gth with submit := none } ∧ t.rb .gth 0 Off.gthDbgCmd 1 = false ∧
        t.rf .gth 0 Off.gthDbgResult 8 4 = 2) ∧
      (good = false →
        ∃ t, exec (.debugResult true) s = .next t ∧ t.gth.unlocked = s.gth.unlocked ∧ t.gth.submit = none ∧
          t.gth.rejected = s.gth.rejected + 1 ∧ t.rf .gth 0 Off.gthDbgResult 8 4 = 1)) ∧
  (∀ (src : Fin 5) (s : State), 2 ≤ s.mode.dev.num → s.rb .gth 0 Off.gthTamperEn src = true →
      (s.gth.programming = none →
        ∃ t, exec (.tamperEvent src) s = .next t ∧ natBit t.lan.tamper src = true ∧
          (src.val ≠ 4 → t.mode.dev = .m11 ∧ ∀ o < 9, s.keyGen ≤ t.keyOf (if o = 8 then 15 else o))) ∧
      (∀ n : Nat, s.gth.programming = some n →
        ∃ t, exec (.tamperEvent src) s = .next t ∧ natBit t.gth.heldTamper src = true ∧ t = { s with gth := t.gth }))

/-- Halter frames, commits, fetches and master transfers take effect. -/
def Obligations.HalterFramesTakeEffect : Prop :=
  (∀ (idx : Fin 64) (n : Fin 65) (s : State), s.halPowered = true → s.halter.conflict = false → s.pins.csLow = false →
      0 < n.val →
      (∃ t, exec (.rd idx n) s = .next t ∧ t.halter.rej = none ∧ t.halter.rbuf = s.halter.rbuf ∧
        t.halter.out = (upto n).map (fun k => Store.getD (fun _ => 0) s.halter.rbuf ((idx + k) % 64)) ∧
        t.regs = (s.inc .hal 0 Off.halFrames 0 32 1).regs) ∧
      (s.halBusy = false →
        ∃ t, exec (.fetch idx n) s = .next t ∧ t.halter.fetch = some (idx.val, n.val) ∧ t.halter.rej = none ∧
          t.halter.out = List.replicate n s.halStatus ∧ t.regs = (s.inc .hal 0 Off.halFrames 0 32 1).regs)) ∧
  (∀ (idx : Fin 64) (ws : List Word) (s : State), s.halPowered = true → s.halter.conflict = false → s.pins.csLow = false →
      s.halBusy = false →
      (0 < ws.length → ws.length ≤ 64 →
        ∃ t, exec (.wr idx ws) s = .next t ∧ t.halter.commit = some (idx.val, ws) ∧ t.halter.rej = none ∧
          t.halter.out = List.replicate ws.length s.halStatus ∧ t.regs = (s.inc .hal 0 Off.halFrames 0 32 1).regs) ∧
      (∀ w : Word, ws = [w] → idx.val = 0 → fld w 0 8 = 0 → fld w 26 6 = 0 →
        ∃ t, exec (.win idx ws) s = .next t ∧ t.rd .hal 0 Off.halSwin = w ∧ t.halter.rbuf = s.halter.rbuf)) ∧
  (∀ (idx : Fin 64) (n : Fin 65) (ws : List Word) (count : Bool) (s : State), s.halPowered = true →
      s.halter.conflict = false → s.pins.csLow = true → ∃ t, t = { s with pins := { s.pins with csLow := false } } ∧
      exec (.rd idx n) s = .next t ∧ exec (.fetch idx n) s = .next t ∧ exec (.wr idx ws) s = .next t ∧
      exec (.win idx ws) s = .next t ∧ exec (.frameReject count) s = .next t) ∧
  (∀ (count : Bool) (s : State), s.halPowered = true → s.halter.conflict = false → s.pins.csLow = false →
      ∃ t, exec (.frameReject count) s = .next t ∧ t.halter.rej = some (if count then rejCount else rejLength) ∧
        t.rf .hal 0 Off.halBadframe 0 32 = satAdd (2 ^ 32 - 1) (s.rf .hal 0 Off.halBadframe 0 32) 1) ∧
  (∀ (i : Nat) (s : State),
      (∀ ws : List Word, s.halter.commit = some (i, ws) →
        ∃ t, exec .wrCommitComplete s = .next t ∧ t.halter.commit = none) ∧
      (∀ v : Word, s.halter.commit = some (i, [v]) → s.winAddr i / 0x1000 ≠ PageKind.mod0.base 0 / 0x1000 →
        ∃ t, exec .wrCommitComplete s = .next t ∧
          t.regs = (State.write32 { s with halter := { s.halter with ferr := false } } .halter (s.winAddr i) v).regs) ∧
      (∀ n : Nat, s.halter.fetch = some (i, n) →
        ∃ t, exec .fetchComplete s = .next t ∧ t.halter.fetch = none ∧ t.halter.fseq = (s.halter.fseq + 1) % 256) ∧
      (s.halter.fetch = some (i, 1) →
        ∃ t, exec .fetchComplete s = .next t ∧ Store.getD (fun _ => 0) t.halter.rbuf (i % 64) =
          (State.read32 { s with halter := { s.halter with ferr := false } } .halter (s.winAddr i)).2)) ∧
  (∀ (r : Requester) (v : Word) (s : State), let w := putBit v 0 true
      let n := s.rf .hal 0 Off.halMlen 0 13
      s.accepts r .hal 0 Off.halMctrl w = true → s.pageEn .hal 0 = true → s.gateHolds = false →
      s.rb .hal 0 Off.halMctrl 0 = false → 0 < n → n ≤ 4096 → s.pins.csLow = false →
      ∃ t x, exec (.masterTransfer r v) s = .next t ∧ t.halter.xfer = some x ∧ x.bits = n ∧ x.hold = tbit v 9 ∧
        t.rb .hal 0 Off.halMctrl 0 = true ∧ t.pins.selLow = 2 ^ fld v 4 2 ∧ t.rb .hal 0 Off.halMresult 16 = false) ∧
  (∀ (rx : List Word) (x : Xfer) (s : State), s.halter.xfer = some x →
      (∃ t, exec (.masterTransferDone rx) s = .next t ∧ t.halter.xfer = none ∧ t.rb .hal 0 Off.halMctrl 0 = false ∧
        t.rb .hal 0 Off.halMresult 16 = true ∧ t.rf .hal 0 Off.halMresult 8 4 = 0 ∧ (x.hold = false → t.pins.selLow = 0)) ∧
      (∀ n : Fin 4097, ∃ t, exec (.multiMasterFault n rx) s = .next t ∧ t.halter.xfer = none ∧ t.halter.conflict = true ∧
        t.pins.selLow = 0 ∧ t.rb .hal 0 Off.halMctrl 0 = false ∧ t.rf .hal 0 Off.halMresult 8 4 = 1))

/-- Logbook entries are written, marked, frozen, thawed and cleared, and temperature slots, enforcement and clock loss act. -/
def Obligations.LogbookAndWeathervaneCommandsTakeEffect : Prop :=
  (∀ (n : BitVec 40) (e : Nat) (l : List Nat) (s : State), s.lan.queue = e :: l → s.lan.tick < 2 ^ 40 →
      ∃ t, exec (.logEntryWrite n) s = .next t ∧ t = { s with lan := t.lan } ∧ t.lan.queue = l ∧
        t.lan.wptr = (s.lan.wptr + 1) % 512 ∧
        Store.getD (fun _ => 0) t.lan.slots s.lan.wptr =
          BitVec.ofNat 64 (max s.lan.tick n.toNat % 2 ^ 24 + 2 ^ 24 * e) ∧
        (∀ i ≠ s.lan.wptr, Store.getD (fun _ => 0) t.lan.slots i = Store.getD (fun _ => 0) s.lan.slots i)) ∧
  (∀ (n : BitVec 40) (s : State), s.lan.closed = true → s.lan.frozen = false →
      ∃ t, exec (.logFreeze n) s = .next t ∧ t = { s with lan := t.lan } ∧ t.lan.frozen = true ∧ t.lan.closed = false ∧
        t.lan.queue = []) ∧
  (∀ s : State, s.lan.frozen = false → s.lan.closed = false → s.lan.queue.length < 16 →
      ∃ t x, exec .tickMark s = .next t ∧ t = { s with lan := t.lan } ∧ t.lan.tick % 2 ^ 24 = 0 ∧
        t.lan.queue = s.lan.queue ++ [x] ∧ t.lan.slots = s.lan.slots) ∧
  (∀ s : State, (s.rst.choreLost = false → exec .oscFail s = .next { s with lan := { s.lan with oscFail := true } }) ∧
      (s.rst.choreLost = true → exec .oscFail s = .next s)) ∧
  (∀ (r : Requester) (s : State), s.pageEn .log 0 = true →
      (s.accepts r .log 0 Off.logCtrl 0xC301 = true → s.mode.dev = .m4 →
        ∃ t, exec (.thaw r) s = .next t ∧ t = { s with lan := t.lan } ∧ t.lan.frozen = false ∧ t.lan.slots = s.lan.slots) ∧
      (s.accepts r .log 0 Off.logCtrl 0xC302 = true → s.lan.frozen = false →
        ∃ t, exec (.clear r) s = .next t ∧ t = { s with lan := t.lan } ∧ t.lan.slots = [] ∧ t.lan.wptr = 0) ∧
      (∀ data : BitVec 16, s.accepts r .log 0 Off.logMark (word data.toNat) = true → s.lan.frozen = false →
        s.lan.closed = false → s.lan.queue.length < 16 →
        exec (.hostMark r data) s = .next { s with lan := { s.lan with
          queue := s.lan.queue ++ [logBody logHostMark PageKind.log.typeCode 0 data.toNat] } })) ∧
  (∀ (v : BitVec 16) (s : State), s.pins.vin = true → natBit s.rst.isl 8 = true → s.rst.choreLost = false →
      s.weather.slot < 96 →
      ∃ t, exec (.wvnSlot v) s = .next t ∧ t.weather.slot = (s.weather.slot + 1) % 96 ∧
        t.rawOf s.weather.slot = signed 16 v.toNat) ∧
  (∀ s : State, s.wvnState = wWarn →
      ∃ t, exec .thermEnforce s = .next t ∧ t.wvnState = wEnforce ∧ t.weather.grace = none) ∧
  (∀ (q : Fin 8) (s : State), s.wvnState = wEnforce → (s.seq q).thermSeg = true →
      (s.seqState q ≠ sHold →
        ∃ t, exec (.forcedHold q) s = .next t ∧ (t.seq q).thermVec = true ∧ (t.seq q).thermSeg = false ∧ t.regs = s.regs) ∧
      (s.seqState q = sHold →
        ∃ t, exec (.forcedHold q) s = .next t ∧ t.rb .seq q Off.seqStat 5 = true ∧ (t.seq q).thermVec = false ∧
          (t.seq q).thermSeg = false ∧
          t.rf .wvn 0 Off.wvnForcedHold 0 16 = min 0xFFFF (s.rf .wvn 0 Off.wvnForcedHold 0 16 + 1))) ∧
  (∀ (c : ClockLoss) (s : State), 2 ≤ s.mode.dev.num →
      ((s.rst.choreLost = false ∨ (c ≠ .chore ∧ c ≠ .refclk)) →
        ∃ t, exec (.clockLoss c) s = .next t ∧ t.mode.dev = .m11 ∧ t.rb .mod0 0 Off.modM11Cause causeClock = true ∧
          t.pins.tripLow = (s.pins.tripLow || decide (s.mode.dev ≠ .m11)) ∧
          (c = .chore → s.pins.vin = true → t.rst.choreLost = true) ∧ (c = .yardPll → t.rst.yardLost = true)) ∧
      (s.rst.choreLost = true → (c = .chore ∨ c = .refclk) →
        ∃ t, exec (.clockLoss c) s = .next t ∧ t.regs = s.regs ∧ t.mode = s.mode))

/-- MOD_SET holds bit m exactly while m is a pen mode, M6 to M9, in which some domain is. -/
def Obligations.ModSetShowsTheModesInForce : Prop :=
  ∀ (r : Requester) (s : State) (m : Nat), m < 32 →
    (tbit (s.view r .mod0 0 Off.modSet) m = true ↔ 6 ≤ m ∧ m ≤ 9 ∧ ∃ d < 9, s.domNum d = m)

/-- A new request clears VALID of a result register, and its result advances SEQ modulo 256 and sets VALID. -/
def Obligations.ResultsCountAndShowValid : Prop :=
  ∀ (k : PageKind) (i o : Nat) (s : State),
    ((s.startResult k i o).rb k i o 16 = false ∧ (s.startResult k i o).rf k i o 0 8 = s.rf k i o 0 8) ∧
    (∀ code rest : Nat, code < 256 → rest < 2 ^ 15 →
      (s.storeResult k i o (code * 2 ^ 8 + rest * 2 ^ 17)).rf k i o 0 8 = (s.rf k i o 0 8 + 1) % 256 ∧
      (s.storeResult k i o (code * 2 ^ 8 + rest * 2 ^ 17)).rb k i o 16 = true ∧
      ∀ k' i' o', k'.addr i' o' ≠ k.addr i o →
        (s.startResult k i o).rd k' i' o' = s.rd k' i' o' ∧
        (s.storeResult k i o (code * 2 ^ 8 + rest * 2 ^ 17)).rd k' i' o' = s.rd k' i' o')

/-- ARM is refused whole with STATE while a sequencer runs or a TIM unit is armed, and a stray SYNC_IN pulse is ignored and counted. -/
def Obligations.ArmIsRefusedWhileMeasuring : Prop :=
  (∀ (r : Requester) (mode : Fin 4) (s : State), s.accepts r .tmb 0 Off.tmbCtrl (word (16 + mode)) = true → mode.val ≠ 3 →
      s.pageEn .tmb 0 = true → ((∃ q < 8, s.seqActive q = true) ∨ (∃ st < 128, (s.rd .tim st Off.timState).toNat ≠ 0) ∨
        ∃ st < 128, s.rb .tim st Off.timVstat 8 = true) →
      ∃ t, exec (.epochArm r mode) s = .next t ∧ t.rb .tmb 0 Off.pgErr errState = true ∧
        t.rd .tmb 0 Off.tmbCtrl = s.rd .tmb 0 Off.tmbCtrl ∧ (∀ b < 8, t.rd .tmb b Off.tmbStat = s.rd .tmb b Off.tmbStat) ∧
        t.armed = s.armed ∧ t.epoch = s.epoch ∧ t.now = s.now ∧ t.ticking = s.ticking) ∧
  (∀ (m : BitVec 16) (s : State), s.armed = none →
      ∃ t, exec (.syncInPulse m) s = .next t ∧ t.epoch = s.epoch ∧ t.now = s.now ∧ t.armed = none ∧
        ∀ b < 8, t.rf .tmb b Off.tmbSyncIgn 0 16 = min 0xFFFF (s.rf .tmb b Off.tmbSyncIgn 0 16 + 1))

/-- A ninth loop or call, a RET or ENDL of an empty stack and a taken POP of an empty loop stack end the run unissued with FAULT_STACK. -/
def Obligations.StackFaultsIssueNothing : Prop :=
  ∀ (q : Fin 8) (obs : List Sample) (v : Vec) (s : State),
    let faults := fun (c : Instr) => ∃ t, exec c s = .next t ∧ t.seqState q = sDrain ∧ t.vcnt q = s.vcnt q ∧
      (t.seq q).ending.map RunEnd.code = some cStack
    let h := s.retireHead q obs
    let x := h.1.seq q
    (s.vecReady q 0x02 v = true → v.operand ≠ 0 → (s.seq q).fromEndl = false → (s.seq q).loops.length = 8 → faults (.loop q obs)) ∧
    (s.vecReady q 0x05 v = true → (s.seq q).calls.length = 8 → faults (.call q obs)) ∧
    (s.vecReady q 0x06 v = true → (s.seq q).calls = [] → faults (.ret q obs)) ∧
    (s.vecReady q 0x03 v = true → (s.seq q).loops = [] → faults (.endl q obs)) ∧
    ((s.seq q).loops = [] → v.evsel.testBit 8 = true →
      (s.vecReady q 0x04 v = true → faults (.jmp q obs)) ∧
      (s.vecReady q 0x07 v = true →
        xor (branchCond x.sites h.2 (if v.evsel.testBit 2 then .sticky else .fail) (v.evsel.testBit 0)) (v.evsel.testBit 1) = true →
        faults (.brf q obs)) ∧
      (s.vecReady q 0x08 v = true → badEvent (nfld v.evsel 0 6) = false →
        (∀ c, (8 ≤ nfld v.evsel 0 6 → nfld v.evsel 0 6 < 16 →
            c = branchCond x.sites h.2 (.event (nfld v.evsel 0 6)) (v.evsel.testBit 6)) →
          (nfld v.evsel 0 6 < 4 → c = (h.2.map fun y => y.evIn.testBit (nfld v.evsel 0 6)).getD false) →
          (16 ≤ nfld v.evsel 0 6 → c = (h.2.map fun y => y.flags.testBit (nfld v.evsel 0 6 - 16)).getD false) →
          xor c (v.evsel.testBit 7) = true → faults (.bre q obs))))

/-- An entry offered to a full OUT ring is dropped, refused or written over the oldest, as POLICY says. -/
def Obligations.FullRingFollowsItsPolicy : Prop :=
  ∀ (n : Nat) (p : Producer) (wait : Bool) (ty body : Nat) (s : State), n < 0x8000 → s.ringEn n = true → s.ringIn n = false →
    s.ringFull n = true → s.ringPaused = false → 5 ≤ s.ringLog2 n →
    let t := (s.offer n p wait ty body).1
    let d := satAdd (2 ^ 32 - 1) (s.ringF n Off.rngDrop 0 32) 1
    (s.ringPolicy n = 0 → (s.offer n p wait ty body).2 = .dropped ∧ t.hay = s.hay ∧ t.pidx n = s.pidx n ∧ t.cidx n = s.cidx n ∧
      t.ringF n Off.rngDrop 0 32 = d ∧ (t.ring n).gap = true) ∧
    (s.ringPolicy n = 1 → t.hay = s.hay ∧ t.pidx n = s.pidx n ∧ t.cidx n = s.cidx n ∧
      (wait = true → (s.offer n p wait ty body).2 = .waits ∧ (t.ring n).held = (s.ring n).held ++ [⟨p, ty, body⟩] ∧
        t.ringF n Off.rngStat 1 1 = 1 ∧ t.ringF n Off.rngDrop 0 32 = s.ringF n Off.rngDrop 0 32) ∧
      (wait = false → (s.offer n p wait ty body).2 = .dropped ∧ t.ringF n Off.rngDrop 0 32 = d)) ∧
    (s.ringPolicy n = 2 → let a := s.ringBase n + 32 * (s.pidx n % s.ringCap n)
      let e := t.hayGet (s.ringOwner n) a 4
      (s.offer n p wait ty body).2 = .accepted ∧ t.cidx n = (s.cidx n + 1) % 2 ^ 32 ∧ t.pidx n = (s.pidx n + 1) % 2 ^ 32 ∧
      t.ringF n Off.rngDrop 0 32 = d ∧ nfld e 0 8 = ty % 256 ∧ nfld e 30 1 = 1 ∧ nfld e 31 1 = s.pidx n / s.ringCap n % 2)

/-- HST, SV_HAY_FILL and SV_HAY_COPY change no byte outside the 32-byte words that they store to. -/
def Obligations.HayloftStoresStayInTheirWords : Prop :=
  ∀ (g : Fin 8) (p : Probe) (c : Ctx) (s : State), let o := c.rcd.owner
    let kept := fun (y : State) (a n : Nat) => ∀ b, (b / 32 < a / 32 ∨ a + n ≤ b / 32 * 32) →
      Store.get? y.hay.cells b = Store.get? s.hay.cells b
    (∀ w, s.fetches g c w = true → fmtOf w = 5 → s.trainPause = false → s.hayOk o (c.hreg (nfld w 12 2)) 4 = true →
      ∃ t, exec (.hst g .clean .clean) s = .next t ∧ kept t (c.hreg (nfld w 12 2)) 4 ∧ t.regs = s.regs) ∧
    (0 < c.rcd.p 4 →
      (s.romRuns g c 0x07 0 p = true → c.rcd.p 4 % 4 = 0 → s.hayOk o (c.rcd.hay 0) (c.rcd.p 4) = true →
        ∃ t y, exec (.svHayFill g none p) s = .next t ∧ ServiceEnds t y g c [c.rcd.p 4] ∧
          kept y (c.rcd.hay 0) (c.rcd.p 4) ∧ y.regs = s.regs) ∧
      (s.romRuns g c 0x06 0 p = true → s.hayOk o (c.rcd.hay 0) (c.rcd.p 4) = true → s.hayOk o (c.rcd.hay 2) (c.rcd.p 4) = true →
        ∃ t y, exec (.svHayCopy g none p) s = .next t ∧ ServiceEnds t y g c [c.rcd.p 4] ∧
          kept y (c.rcd.hay 2) (c.rcd.p 4) ∧ y.regs = s.regs))

/-- A microword that leaves its routine running changes nothing but its groom. -/
def Obligations.MicrowordsChangeOnlyTheirGroom : Prop :=
  ∀ (i : Instr) (g : Fin 8) (c : Ctx) (w : Nat) (s t : State), s.fetches g c w = true → (s.groom g).chains = [] →
    i ∈ [.alu g .clean, .ldi g .clean, .seta g .clean, .br g .clean, .microCall g .clean, .microRet g .clean,
      .microTick g .clean, .st g .clean, .yield g .clean, .microEnd g .clean, .microPost g .clean, .sleep g .clean] →
    exec i s = .next t → (t.groom g).ctx ≠ none →
    t = { s with grooms := t.grooms, free := t.free, cluster := { s.cluster with reached := t.cluster.reached } } ∧
      ∀ g' < 8, g' ≠ g.val → t.groom g' = s.groom g'
end

