-- ==== Sys2Proof/Laws/Bits.lean ====
section
/-!
SUPPORT. Laws of the fields of 32-bit registers: what a field reads after a field has been stored.
-/

namespace Sys2Proof.Machine

theorem fld_lt (w : Word) (lo n : Nat) : fld w lo n < 2 ^ n := Nat.mod_lt _ (Nat.two_pow_pos n)

theorem fld_word (v lo n : Nat) (h : lo + n ≤ 32) : fld (word v) lo n = v / 2 ^ lo % 2 ^ n := by
  unfold fld word
  rw [BitVec.toNat_ofNat]
  obtain ⟨k, hk⟩ : ∃ k, 32 = lo + (n + k) := ⟨32 - lo - n, by omega⟩
  rw [hk, Nat.pow_add, Nat.mod_mul_right_div_self, Nat.mod_mod_of_dvd]
  exact pow_dvd_pow 2 (by omega)

/-- A number below 2³² is the word that spells it. -/
theorem toNat_word (v : Nat) (h : v < 2 ^ 32) : (word v).toNat = v := by
  unfold word
  rw [BitVec.toNat_ofNat, Nat.mod_eq_of_lt h]

@[simp] theorem word_toNat (w : Word) : word w.toNat = w := by
  simp [word]

/-- A register as what lies below a field, the field, and what lies above it. -/
theorem toNat_split (w : Word) (lo n : Nat) :
    w.toNat = w.toNat % 2 ^ lo + 2 ^ lo * (fld w lo n + 2 ^ n * (w.toNat / 2 ^ (lo + n))) := by
  unfold fld
  rw [Nat.pow_add, ← Nat.div_div_eq_div_mul, Nat.mod_add_div, Nat.mod_add_div]

/-- A number with a low part below `m` and a high part below `k` lies below `m * k`. -/
theorem lt_mul_of_parts {a b m k : Nat} (ha : a < m) (hb : b < k) : a + m * b < m * k := by
  have h := Nat.mul_le_mul_left m (Nat.succ_le_of_lt hb)
  rw [Nat.mul_succ] at h
  omega

/-- A register after a field has been stored. -/
theorem toNat_putFld (w : Word) (lo n v : Nat) (h : lo + n ≤ 32) :
    (putFld w lo n v).toNat = w.toNat % 2 ^ lo + 2 ^ lo * (v % 2 ^ n + 2 ^ n * (w.toNat / 2 ^ (lo + n))) := by
  have hs := toNat_split w lo n
  have hw := w.isLt
  have e : w.toNat - fld w lo n * 2 ^ lo + v % 2 ^ n * 2 ^ lo =
      w.toNat % 2 ^ lo + 2 ^ lo * (v % 2 ^ n + 2 ^ n * (w.toNat / 2 ^ (lo + n))) := by
    have h1 : w.toNat - fld w lo n * 2 ^ lo = w.toNat % 2 ^ lo + 2 ^ lo * (2 ^ n * (w.toNat / 2 ^ (lo + n))) := by
      have h2 : w.toNat = (w.toNat % 2 ^ lo + 2 ^ lo * (2 ^ n * (w.toNat / 2 ^ (lo + n)))) + fld w lo n * 2 ^ lo := by
        conv_lhs => rw [hs]
        ring
      omega
    rw [h1]
    ring
  unfold putFld
  rw [BitVec.toNat_ofNat, e, Nat.mod_eq_of_lt]
  have h1 : w.toNat / 2 ^ (lo + n) < 2 ^ (32 - (lo + n)) := by
    rw [Nat.div_lt_iff_lt_mul (Nat.two_pow_pos _), ← Nat.pow_add]
    simpa [show 32 - (lo + n) + (lo + n) = 32 by omega] using hw
  have h2 : v % 2 ^ n < 2 ^ n := Nat.mod_lt _ (Nat.two_pow_pos n)
  have h3 : w.toNat % 2 ^ lo < 2 ^ lo := Nat.mod_lt _ (Nat.two_pow_pos lo)
  have e2 : 2 ^ 32 = 2 ^ lo * (2 ^ n * 2 ^ (32 - (lo + n))) := by
    rw [← Nat.pow_add, ← Nat.pow_add]
    congr 1
    omega
  rw [e2]
  exact lt_mul_of_parts h3 (lt_mul_of_parts h2 h1)

/-- A field reads what was stored in it. -/
theorem fld_putFld_same (w : Word) (lo n v : Nat) (h : lo + n ≤ 32) : fld (putFld w lo n v) lo n = v % 2 ^ n := by
  rw [fld, toNat_putFld w lo n v h, Nat.add_mul_div_left _ _ (Nat.two_pow_pos lo),
    Nat.div_eq_of_lt (Nat.mod_lt _ (Nat.two_pow_pos lo)), Nat.zero_add, Nat.add_mul_mod_self_left, Nat.mod_mod]

/-- A field below the one stored reads as before. -/
theorem fld_putFld_below (w : Word) (lo n v l m : Nat) (h : lo + n ≤ 32) (hb : l + m ≤ lo) :
    fld (putFld w lo n v) l m = fld w l m := by
  obtain ⟨k, rfl⟩ : ∃ k, lo = l + (m + k) := ⟨lo - l - m, by omega⟩
  have key : ∀ x y, x % 2 ^ (l + (m + k)) = y % 2 ^ (l + (m + k)) → x / 2 ^ l % 2 ^ m = y / 2 ^ l % 2 ^ m := by
    intro x y hxy
    have h1 : ∀ z, z / 2 ^ l % 2 ^ m = z % 2 ^ (l + (m + k)) / 2 ^ l % 2 ^ m := by
      intro z
      rw [Nat.pow_add, Nat.mod_mul_right_div_self, Nat.mod_mod_of_dvd]
      exact pow_dvd_pow 2 (by omega)
    rw [h1 x, h1 y, hxy]
  unfold fld
  refine key _ _ ?_
  rw [toNat_putFld w _ n v h, Nat.add_mul_mod_self_left, Nat.mod_mod]

/-- A field above the one stored reads as before. -/
theorem fld_putFld_above (w : Word) (lo n v l m : Nat) (h : lo + n ≤ 32) (hb : lo + n ≤ l) :
    fld (putFld w lo n v) l m = fld w l m := by
  obtain ⟨k, rfl⟩ : ∃ k, l = lo + n + k := ⟨l - (lo + n), by omega⟩
  have e : (putFld w lo n v).toNat / 2 ^ (lo + n) = w.toNat / 2 ^ (lo + n) := by
    rw [toNat_putFld w lo n v h, Nat.pow_add, ← Nat.div_div_eq_div_mul, Nat.add_mul_div_left _ _ (Nat.two_pow_pos lo),
      Nat.div_eq_of_lt (Nat.mod_lt _ (Nat.two_pow_pos lo)), Nat.zero_add, Nat.add_mul_div_left _ _ (Nat.two_pow_pos n),
      Nat.div_eq_of_lt (Nat.mod_lt _ (Nat.two_pow_pos n)), Nat.zero_add, ← Nat.pow_add]
  unfold fld
  rw [Nat.pow_add 2 (lo + n), ← Nat.div_div_eq_div_mul, ← Nat.div_div_eq_div_mul, e]

/-- A field apart from the one stored reads as before. -/
theorem fld_putFld_other (w : Word) (lo n v l m : Nat) (h : lo + n ≤ 32) (hb : l + m ≤ lo ∨ lo + n ≤ l) :
    fld (putFld w lo n v) l m = fld w l m :=
  hb.elim (fld_putFld_below w lo n v l m h) (fld_putFld_above w lo n v l m h)

/-- A bit is a field of one bit. -/
theorem tbit_eq_fld (w : Word) (i : Nat) : tbit w i = decide (fld w i 1 = 1) := by
  unfold tbit fld
  rw [Nat.testBit_eq_decide_div_mod_eq, Nat.pow_one]

theorem fld_one_eq_bit (w : Word) (i : Nat) : fld w i 1 = bit (tbit w i) := by
  have h := fld_lt w i 1
  rw [tbit_eq_fld]
  unfold bit
  split
  · simp_all
  · simp_all
    omega

/-- A bit reads what was stored in it. -/
theorem tbit_putBit_same (w : Word) (i : Nat) (b : Bool) (h : i < 32) : tbit (putBit w i b) i = b := by
  rw [tbit_eq_fld, putBit, fld_putFld_same w i 1 _ (by omega)]
  cases b <;> rfl

/-- Another bit reads as before. -/
theorem tbit_putFld_other (w : Word) (lo n v i : Nat) (h : lo + n ≤ 32) (hb : i < lo ∨ lo + n ≤ i) :
    tbit (putFld w lo n v) i = tbit w i := by
  rw [tbit_eq_fld, tbit_eq_fld, fld_putFld_other w lo n v i 1 h (by omega)]

theorem tbit_putBit_other (w : Word) (i j : Nat) (b : Bool) (h : i < 32) (hb : j ≠ i) : tbit (putBit w i b) j = tbit w j :=
  tbit_putFld_other w i 1 _ j (by omega) (by omega)

end Sys2Proof.Machine
end

