-- ==== Sys2Proof/Laws/Pages.lean ====
section
/-!
SUPPORT. The layout of BAR0: the offsets of one page kind lie on pages of that kind, two registers share an offset only
where kind, instance and offset agree, and ring descriptors lie on no page.
-/

namespace Sys2Proof.Machine

theorem PageKind.count_pos (k : PageKind) : 0 < k.count := by cases k <;> decide

theorem PageKind.inst_lt (k : PageKind) (i : Nat) : i % k.count < k.count := Nat.mod_lt _ k.count_pos

theorem pageAt_yard {a : Nat} (h : a < 0x100000) : pageAt a = yardPage (a / 0x1000) := if_pos h

/-- The pages of a sequencer in the order of R67. -/
def seqKind : Nat → PageKind
  | 0 => .seq | 1 => .apg | 2 => .tset | _ => .site

theorem pageAt_seq {a q j : Nat} (ha : a / 0x1000 = 0x100 + 0x20 * q + j) (hq : q < 8) (hj : j < 4) :
    pageAt a = some ⟨seqKind j, q⟩ := by
  unfold pageAt
  rw [if_neg (by omega), if_pos (by omega)]
  have h1 : (a - 0x100000) % 0x20000 / 0x1000 = j := by omega
  have h2 : (a - 0x100000) / 0x20000 = q := by omega
  dsimp only
  rw [h1, h2]
  interval_cases j <;> rfl

theorem pageAt_barn {a b k : Nat} (ha : a / 0x1000 = 0x200 + 0x40 * b + k) (hb : b < 8) (hk : k < 64) :
    pageAt a = if k = 0 then some ⟨.brn, b⟩ else if k = 1 then some ⟨.tmb, b⟩ else if k = 2 then some ⟨.acq, b⟩
      else if 16 ≤ k ∧ k < 32 then some ⟨.wch, 16 * b + (k - 16)⟩ else none := by
  unfold pageAt
  rw [if_neg (by omega), if_neg (by omega), if_pos (by omega)]
  have h1 : (a - 0x200000) % 0x40000 / 0x1000 = k := by omega
  have h2 : (a - 0x200000) / 0x40000 = b := by omega
  dsimp only
  rw [h1, h2]

theorem pageAt_stall {a i j : Nat} (ha : a / 0x1000 = 0x400 + 8 * i + j) (hi : i < 128) (hj : j < 8) :
    pageAt a = some ⟨stallKind j, i⟩ := by
  unfold pageAt
  rw [if_neg (by omega), if_neg (by omega), if_neg (by omega), if_pos (by omega)]
  have h1 : (a - 0x400000) % 0x8000 / 0x1000 = j := by omega
  have h2 : (a - 0x400000) / 0x8000 = i := by omega
  rw [h1, h2]

theorem pageAt_groom {a n : Nat} (ha : a / 0x1000 = 0x800 + n) (hn : n ≤ 8) :
    pageAt a = some (if n = 0 then ⟨.grm, 0⟩ else ⟨.groom, n - 1⟩) := by
  unfold pageAt
  rw [if_neg (by omega), if_neg (by omega), if_neg (by omega), if_neg (by omega), if_pos (by omega)]
  simp only [ha]
  interval_cases n <;> rfl

/-- The page at the offset of a register of kind `k`. -/
theorem pageAt_base (k : PageKind) {i o : Nat} (hi : i < k.count) (ho : o < 0x1000) :
    pageAt (k.base i + o) = some ⟨k, i⟩ := by
  have yard : ∀ n, k.base i = n * 0x1000 → n < 0x100 → yardPage n = some ⟨k, i⟩ → pageAt (k.base i + o) = some ⟨k, i⟩ := by
    intro n hb hn hy
    rw [pageAt_yard (by omega), show (k.base i + o) / 0x1000 = n by omega, hy]
  have barn : ∀ b j, k.base i = 0x200000 + 0x40000 * b + 0x1000 * j → b < 8 → j < 64 → pageAt (k.base i + o) = if j = 0 then some ⟨.brn, b⟩ else if j = 1 then some ⟨.tmb, b⟩ else if j = 2 then some ⟨.acq, b⟩
      else if 16 ≤ j ∧ j < 32 then some ⟨.wch, 16 * b + (j - 16)⟩ else none := fun b j hb h1 h2 =>
    pageAt_barn (a := k.base i + o) (b := b) (k := j) (by omega) h1 h2
  have stall : ∀ j, k.base i = 0x400000 + 0x8000 * i + 0x1000 * j → i < 128 → j < 8 → pageAt (k.base i + o) = some ⟨stallKind j, i⟩ := fun j hb h1 h2 =>
    pageAt_stall (a := k.base i + o) (i := i) (j := j) (by omega) h1 h2
  have seqs : ∀ j, k.base i = 0x100000 + 0x20000 * i + 0x1000 * j → i < 8 → j < 4 → pageAt (k.base i + o) = some ⟨seqKind j, i⟩ := fun j hb h1 h2 =>
    pageAt_seq (a := k.base i + o) (q := i) (j := j) (by omega) h1 h2
  cases k
  case modp =>
    refine yard (2 + i) (by simp [PageKind.base]; omega) (by simp [PageKind.count] at hi; omega) ?_
    simp only [PageKind.count] at hi
    interval_cases i <;> rfl
  case wch =>
    simp only [PageKind.count] at hi
    rw [barn (i / 16) (16 + i % 16) (by simp [PageKind.base]; omega) (by omega) (by omega)]
    rw [if_neg (by omega), if_neg (by omega), if_neg (by omega), if_pos (by omega)]
    simp only [Option.some.injEq, PageRef.mk.injEq, true_and]
    omega
  case brn => exact barn i 0 (by simp [PageKind.base]; omega) hi (by decide)
  case tmb => exact barn i 1 (by simp [PageKind.base]; omega) hi (by decide)
  case acq => exact barn i 2 (by simp [PageKind.base]; omega) hi (by decide)
  case seq => exact seqs 0 (by simp [PageKind.base]; omega) hi (by decide)
  case apg => exact seqs 1 (by simp [PageKind.base]; omega) hi (by decide)
  case tset => exact seqs 2 (by simp [PageKind.base]; omega) hi (by decide)
  case site => exact seqs 3 (by simp [PageKind.base]; omega) hi (by decide)
  case stl => exact stall 0 (by simp [PageKind.base]; omega) hi (by decide)
  case lvl => exact stall 1 (by simp [PageKind.base]; omega) hi (by decide)
  case drv => exact stall 2 (by simp [PageKind.base]; omega) hi (by decide)
  case cmp => exact stall 3 (by simp [PageKind.base]; omega) hi (by decide)
  case swm => exact stall 4 (by simp [PageKind.base]; omega) hi (by decide)
  case tim => exact stall 5 (by simp [PageKind.base]; omega) hi (by decide)
  case pmu => exact stall 6 (by simp [PageKind.base]; omega) hi (by decide)
  case cnv => exact stall 7 (by simp [PageKind.base]; omega) hi (by decide)
  case grm =>
    simp only [PageKind.count] at hi
    obtain rfl : i = 0 := by omega
    exact pageAt_groom (n := 0) (by simp [PageKind.base]; omega) (by decide)
  case groom =>
    simp only [PageKind.count] at hi
    rw [pageAt_groom (n := 1 + i) (by simp [PageKind.base]; omega) (by omega), if_neg (by omega)]
    simp
  all_goals
    simp only [PageKind.count] at hi
    obtain rfl : i = 0 := by omega
    exact yard _ (by simp only [PageKind.base]; exact (Nat.div_mul_cancel (by decide)).symm) (by decide) rfl

/-- The page of a register's offset. -/
theorem pageAt_addr (k : PageKind) (i o : Nat) : pageAt (k.addr i o) = some ⟨k, i % k.count⟩ :=
  pageAt_base k (k.inst_lt i) (Nat.mod_lt _ (by decide))

/-- Offsets of two kinds of page differ. -/
theorem PageKind.addr_ne {k k' : PageKind} (h : k ≠ k') (i o i' o' : Nat) : k.addr i o ≠ k'.addr i' o' := by
  intro e
  have h1 := pageAt_addr k i o
  rw [e, pageAt_addr] at h1
  simp only [Option.some.injEq, PageRef.mk.injEq] at h1
  exact h h1.1.symm

/-- Two registers of one kind share an offset only where instance and offset agree. -/
theorem PageKind.addr_inj (k : PageKind) {i o i' o' : Nat} :
    k.addr i o = k.addr i' o' ↔ i % k.count = i' % k.count ∧ o % 0x1000 = o' % 0x1000 := by
  constructor
  · intro e
    have h1 := pageAt_addr k i o
    rw [e, pageAt_addr] at h1
    simp only [Option.some.injEq, PageRef.mk.injEq, true_and] at h1
    unfold PageKind.addr at e
    rw [h1] at e
    exact ⟨h1.symm, by omega⟩
  · rintro ⟨h1, h2⟩
    unfold PageKind.addr
    rw [h1, h2]

/-- A page lies below the ring window. -/
theorem PageKind.addr_lt (k : PageKind) (i o : Nat) : k.addr i o < ringWindow := by
  have hi := k.inst_lt i
  have ho : o % 0x1000 < 0x1000 := Nat.mod_lt _ (by decide)
  unfold PageKind.addr ringWindow
  generalize o % 0x1000 = o' at *
  cases k <;> simp only [PageKind.count] at hi ⊢ <;> simp only [PageKind.base] <;> omega

/-- A ring descriptor word lies in the ring window. -/
theorem ringAddr_ge (n o : Nat) : ringWindow ≤ ringAddr n o ∧ ringAddr n o < ringWindowEnd := by
  unfold ringAddr ringWindow ringWindowEnd
  omega

/-- No ring descriptor word lies on a page. -/
theorem ringAddr_ne_addr (n o : Nat) (k : PageKind) (i o' : Nat) : ringAddr n o ≠ k.addr i o' := by
  have h1 := ringAddr_ge n o
  have h2 := k.addr_lt i o'
  omega

theorem addr_ne_ringAddr (n o : Nat) (k : PageKind) (i o' : Nat) : k.addr i o' ≠ ringAddr n o :=
  fun h => ringAddr_ne_addr n o k i o' h.symm

/-- Two descriptor words share an offset only where ring and word agree. -/
theorem ringAddr_inj {n o n' o' : Nat} :
    ringAddr n o = ringAddr n' o' ↔ n % 0x8000 = n' % 0x8000 ∧ o % 0x20 = o' % 0x20 := by
  unfold ringAddr
  omega

end Sys2Proof.Machine
end

