-- ==== Sys2Proof/Laws/Store.lean ====
section
/-!
SUPPORT. Laws of the sparse stores: what a read gives after each operation, and that each operation keeps the canonical
form.
-/

namespace Sys2Proof.Machine.Store

variable {α : Type}

theorem get?_drop (m : List (Nat × α)) (k x : Nat) : get? (drop m k) x = if x = k then none else get? m x := by
  induction m with
  | nil => simp [drop, get?]
  | cons e t ih =>
    obtain ⟨k', v⟩ := e
    by_cases h1 : k = k' <;> by_cases h2 : x = k <;> by_cases h3 : x = k' <;> simp_all [drop, get?]

theorem get?_insert_of_absent (m : List (Nat × α)) (k : Nat) (v : α) (h : get? m k = none) (x : Nat) :
    get? (insert m k v) x = if x = k then some v else get? m x := by
  induction m with
  | nil => simp [insert, get?]
  | cons e t ih =>
    obtain ⟨k', v'⟩ := e
    by_cases h0 : k = k'
    · simp_all [get?]
    · have ht : get? t k = none := by simpa [get?, h0] using h
      have hx := ih ht
      simp only [insert]
      split
      · by_cases h2 : x = k <;> simp [get?, h2]
      · by_cases h3 : x = k'
        · subst h3
          simp [get?, Ne.symm h0]
        · simp [get?, h3, hx]

theorem get?_put (m : List (Nat × α)) (k : Nat) (v : α) (x : Nat) :
    get? (put m k v) x = if x = k then some v else get? m x := by
  rw [put, get?_insert_of_absent _ _ _ (by simp [get?_drop])]
  by_cases h : x = k <;> simp [h, get?_drop]

theorem get?_keep (p : Nat → Bool) (m : List (Nat × α)) (x : Nat) : get? (keep p m) x = if p x then get? m x else none := by
  induction m with
  | nil => simp [keep, get?]
  | cons e t ih =>
    obtain ⟨k, v⟩ := e
    by_cases h1 : p k <;> by_cases h2 : x = k <;> simp_all [keep, get?]

/-- A read after a write: the value at the key written, and every other key as before. -/
theorem getD_setD [DecidableEq α] (d : Nat → α) (m : List (Nat × α)) (k : Nat) (v : α) (x : Nat) :
    getD d (setD d m k v) x = if x = k then v else getD d m x := by
  unfold getD setD
  by_cases h1 : v = d k <;> by_cases h2 : x = k <;> simp [h1, h2, get?_drop, get?_put]

@[simp] theorem getD_setD_same [DecidableEq α] (d : Nat → α) (m : List (Nat × α)) (k : Nat) (v : α) :
    getD d (setD d m k v) k = v := by simp [getD_setD]

theorem getD_setD_ne [DecidableEq α] (d : Nat → α) (m : List (Nat × α)) {k x : Nat} (v : α) (h : x ≠ k) :
    getD d (setD d m k v) x = getD d m x := by simp [getD_setD, h]

theorem getD_put (d : Nat → α) (m : List (Nat × α)) (k : Nat) (v : α) (x : Nat) :
    getD d (put m k v) x = if x = k then v else getD d m x := by
  unfold getD
  by_cases h : x = k <;> simp [h, get?_put]

/-- A key that is kept reads as before; any other reads as its default. -/
theorem getD_keep (d : Nat → α) (p : Nat → Bool) (m : List (Nat × α)) (x : Nat) :
    getD d (keep p m) x = if p x then getD d m x else d x := by
  unfold getD
  by_cases h : p x <;> simp [h, get?_keep]

/-! ### Canonical form -/

theorem above_iff (k : Nat) (m : List (Nat × α)) : above k m = true ↔ ∀ e ∈ m, k < e.1 := by
  simp [above]

theorem mem_drop {m : List (Nat × α)} {k : Nat} {e : Nat × α} (h : e ∈ drop m k) : e ∈ m ∧ e.1 ≠ k := by
  induction m with
  | nil => simp [drop] at h
  | cons a t ih =>
    obtain ⟨k', v⟩ := a
    by_cases hk : k = k'
    · simp only [drop, hk, if_true] at h
      have := ih (by simpa [hk] using h)
      exact ⟨List.mem_cons_of_mem _ this.1, this.2⟩
    · simp only [drop, hk, if_false, List.mem_cons] at h
      rcases h with rfl | h
      · exact ⟨List.mem_cons_self, fun e => hk e.symm⟩
      · exact ⟨List.mem_cons_of_mem _ (ih h).1, (ih h).2⟩

theorem mem_insert {m : List (Nat × α)} {k : Nat} {v : α} {e : Nat × α} (h : e ∈ insert m k v) : e = (k, v) ∨ e ∈ m := by
  induction m with
  | nil => simpa [insert] using h
  | cons a t ih =>
    obtain ⟨k', v'⟩ := a
    by_cases hk : k < k'
    · simpa [insert, hk] using h
    · simp only [insert, hk, if_false, List.mem_cons] at h
      rcases h with rfl | h
      · simp
      · rcases ih h with h | h <;> simp [h]

theorem mem_keep {p : Nat → Bool} {m : List (Nat × α)} {e : Nat × α} (h : e ∈ keep p m) : e ∈ m := by
  induction m with
  | nil => simp [keep] at h
  | cons a t ih =>
    obtain ⟨k, v⟩ := a
    by_cases hk : p k
    · simp only [keep, hk, if_true, List.mem_cons] at h
      rcases h with rfl | h
      · simp
      · exact List.mem_cons_of_mem _ (ih h)
    · simp only [keep, hk] at h
      exact List.mem_cons_of_mem _ (ih (by simpa using h))

theorem sorted_cons (k : Nat) (v : α) (t : List (Nat × α)) :
    sorted ((k, v) :: t) = true ↔ (∀ e ∈ t, k < e.1) ∧ sorted t = true := by
  simp [sorted, above_iff]

theorem sorted_drop {m : List (Nat × α)} (k : Nat) (h : sorted m = true) : sorted (drop m k) = true := by
  induction m with
  | nil => simp [drop, sorted]
  | cons a t ih =>
    obtain ⟨k', v⟩ := a
    rw [sorted_cons] at h
    by_cases hk : k = k'
    · simpa [drop, hk] using (by simpa [hk] using ih h.2)
    · simp only [drop, hk, if_false, sorted_cons]
      exact ⟨fun e he => h.1 e (mem_drop he).1, ih h.2⟩

theorem sorted_insert {m : List (Nat × α)} (k : Nat) (v : α) (h : sorted m = true) (hk : ∀ e ∈ m, e.1 ≠ k) :
    sorted (insert m k v) = true := by
  induction m with
  | nil => simp [insert, sorted, above]
  | cons a t ih =>
    obtain ⟨k', v'⟩ := a
    have hs := h
    rw [sorted_cons] at h
    by_cases hlt : k < k'
    · simp only [insert, hlt, if_true]
      rw [sorted_cons]
      refine ⟨fun e he => ?_, hs⟩
      rcases List.mem_cons.1 he with rfl | he
      · exact hlt
      · exact lt_trans hlt (h.1 e he)
    · simp only [insert, hlt, if_false, sorted_cons]
      refine ⟨fun e he => ?_, ih h.2 fun e he => hk e (List.mem_cons_of_mem _ he)⟩
      rcases mem_insert he with rfl | he
      · have := hk (k', v') List.mem_cons_self
        dsimp only at this ⊢
        omega
      · exact h.1 e he

/-- Listing a value keeps the keys rising. -/
theorem sorted_put {m : List (Nat × α)} (k : Nat) (v : α) (h : sorted m = true) : sorted (put m k v) = true :=
  sorted_insert k v (sorted_drop k h) fun _ he => (mem_drop he).2

/-- Keeping some keys keeps them rising. -/
theorem sorted_keep {m : List (Nat × α)} (p : Nat → Bool) (h : sorted m = true) : sorted (keep p m) = true := by
  induction m with
  | nil => simp [keep, sorted]
  | cons a t ih =>
    obtain ⟨k, v⟩ := a
    rw [sorted_cons] at h
    by_cases hk : p k
    · simp only [keep, hk, if_true, sorted_cons]
      exact ⟨fun e he => h.1 e (mem_keep he), ih h.2⟩
    · simpa [keep, hk] using ih h.2

theorem wf_iff [DecidableEq α] (d : Nat → α) (m : List (Nat × α)) :
    wf d m = true ↔ sorted m = true ∧ ∀ e ∈ m, e.2 ≠ d e.1 := by
  simp [wf, noDefault]

/-- Writing a register keeps the canonical form: writing the default removes the entry. -/
theorem wf_setD [DecidableEq α] (d : Nat → α) {m : List (Nat × α)} (k : Nat) (v : α) (h : wf d m = true) :
    wf d (setD d m k v) = true := by
  rw [wf_iff] at h ⊢
  unfold setD
  by_cases hv : v = d k
  · simp only [hv, if_true]
    exact ⟨sorted_drop k h.1, fun e he => h.2 e (mem_drop he).1⟩
  · simp only [hv, if_false]
    refine ⟨sorted_put k v h.1, fun e he => ?_⟩
    rcases mem_insert he with rfl | he
    · exact hv
    · exact h.2 e (mem_drop he).1

/-- Forgetting some entries keeps the canonical form. -/
theorem wf_keep [DecidableEq α] (d : Nat → α) {m : List (Nat × α)} (p : Nat → Bool) (h : wf d m = true) :
    wf d (keep p m) = true := by
  rw [wf_iff] at h ⊢
  exact ⟨sorted_keep p h.1, fun e he => h.2 e (mem_keep he)⟩

end Sys2Proof.Machine.Store
end

