-- ==== Sys2Proof/Laws/Registers.lean ====
section
/-!
SUPPORT. Laws of page registers: a read after a write, of whole registers, fields and bits; and the canonical form of the
register store under each operation over it.
-/

namespace Sys2Proof.Machine

/-! ### Whole registers -/

theorem reg_setReg (s : State) (a b : Nat) (v : Word) : (s.setReg a v).reg b = if b = a then v else s.reg b :=
  Store.getD_setD regReset s.regs a v b

@[simp] theorem reg_setReg_same (s : State) (a : Nat) (v : Word) : (s.setReg a v).reg a = v := by simp [reg_setReg]

theorem reg_setReg_ne (s : State) {a b : Nat} (v : Word) (h : b ≠ a) : (s.setReg a v).reg b = s.reg b := by
  simp [reg_setReg, h]

@[simp] theorem rd_wr_same (s : State) (k : PageKind) (i o : Nat) (v : Word) : (s.wr k i o v).rd k i o = v :=
  reg_setReg_same s _ v

theorem rd_wr_kind (s : State) {k k' : PageKind} (i o i' o' : Nat) (v : Word) (h : k' ≠ k) :
    (s.wr k i o v).rd k' i' o' = s.rd k' i' o' := reg_setReg_ne s v (PageKind.addr_ne h _ _ _ _)

theorem rd_wr_offset (s : State) (k : PageKind) (i o i' o' : Nat) (v : Word) (h : o' % 0x1000 ≠ o % 0x1000) :
    (s.wr k i o v).rd k i' o' = s.rd k i' o' :=
  reg_setReg_ne s v fun e => h ((PageKind.addr_inj k).1 e).2

theorem rd_wr_inst (s : State) (k : PageKind) (i o i' o' : Nat) (v : Word) (h : i' % k.count ≠ i % k.count) :
    (s.wr k i o v).rd k i' o' = s.rd k i' o' :=
  reg_setReg_ne s v fun e => h ((PageKind.addr_inj k).1 e).1

/-- The ring descriptors are apart from the pages. -/
theorem ringWord_wr (s : State) (k : PageKind) (i o n w : Nat) (v : Word) :
    (s.wr k i o v).reg (ringAddr n w) = s.reg (ringAddr n w) := reg_setReg_ne s v (ringAddr_ne_addr n w k i o)

theorem rd_setRingWord (s : State) (k : PageKind) (i o n w : Nat) (v : Word) :
    (s.setReg (ringAddr n w) v).rd k i o = s.rd k i o := reg_setReg_ne s v (addr_ne_ringAddr n w k i o)

/-! ### Fields and bits of one register -/

theorem wf_eq_wr (s : State) (k : PageKind) (i o lo n v : Nat) :
    s.wf k i o lo n v = s.wr k i o (putFld (s.rd k i o) lo n v) := rfl

theorem wb_eq_wr (s : State) (k : PageKind) (i o b : Nat) (v : Bool) :
    s.wb k i o b v = s.wr k i o (putBit (s.rd k i o) b v) := rfl

theorem rf_wr_same (s : State) (k : PageKind) (i o lo n : Nat) (v : Word) : (s.wr k i o v).rf k i o lo n = fld v lo n := by
  rw [State.rf, rd_wr_same]

theorem rb_wr_same (s : State) (k : PageKind) (i o b : Nat) (v : Word) : (s.wr k i o v).rb k i o b = tbit v b := by
  rw [State.rb, rd_wr_same]

theorem rf_wf_same (s : State) (k : PageKind) (i o lo n v : Nat) (h : lo + n ≤ 32) :
    (s.wf k i o lo n v).rf k i o lo n = v % 2 ^ n := by
  rw [wf_eq_wr, rf_wr_same, fld_putFld_same _ _ _ _ h]

theorem rf_wf_other (s : State) (k : PageKind) (i o lo n v l m : Nat) (h : lo + n ≤ 32) (hb : l + m ≤ lo ∨ lo + n ≤ l) :
    (s.wf k i o lo n v).rf k i o l m = s.rf k i o l m := by
  rw [wf_eq_wr, rf_wr_same, fld_putFld_other _ _ _ _ _ _ h hb, State.rf]

theorem rb_wf_other (s : State) (k : PageKind) (i o lo n v b : Nat) (h : lo + n ≤ 32) (hb : b < lo ∨ lo + n ≤ b) :
    (s.wf k i o lo n v).rb k i o b = s.rb k i o b := by
  rw [wf_eq_wr, rb_wr_same, tbit_putFld_other _ _ _ _ _ h hb, State.rb]

theorem rb_wb_same (s : State) (k : PageKind) (i o b : Nat) (v : Bool) (h : b < 32) : (s.wb k i o b v).rb k i o b = v := by
  rw [wb_eq_wr, rb_wr_same, tbit_putBit_same _ _ _ h]

theorem rb_wb_other (s : State) (k : PageKind) (i o b c : Nat) (v : Bool) (h : b < 32) (hb : c ≠ b) :
    (s.wb k i o b v).rb k i o c = s.rb k i o c := by
  rw [wb_eq_wr, rb_wr_same, tbit_putBit_other _ _ _ _ h hb, State.rb]

theorem rf_wb_other (s : State) (k : PageKind) (i o b l m : Nat) (v : Bool) (h : b < 32) (hb : l + m ≤ b ∨ b + 1 ≤ l) :
    (s.wb k i o b v).rf k i o l m = s.rf k i o l m := rf_wf_other s k i o b 1 _ l m (by omega) hb

/-! ### Other registers: every operation over a field leaves them -/

/-- A register apart from the one written, as a whole, a field and a bit. -/
theorem rd_wf_kind (s : State) {k k' : PageKind} (i o i' o' lo n v : Nat) (h : k' ≠ k) :
    (s.wf k i o lo n v).rd k' i' o' = s.rd k' i' o' := rd_wr_kind s i o i' o' _ h

theorem rd_wb_kind (s : State) {k k' : PageKind} (i o i' o' b : Nat) (v : Bool) (h : k' ≠ k) :
    (s.wb k i o b v).rd k' i' o' = s.rd k' i' o' := rd_wr_kind s i o i' o' _ h

theorem rd_sat_kind (s : State) {k k' : PageKind} (i o i' o' lo n v : Nat) (h : k' ≠ k) :
    (s.sat k i o lo n v).rd k' i' o' = s.rd k' i' o' := rd_wr_kind s i o i' o' _ h

theorem rd_wf_offset (s : State) (k : PageKind) (i o i' o' lo n v : Nat) (h : o' % 0x1000 ≠ o % 0x1000) :
    (s.wf k i o lo n v).rd k i' o' = s.rd k i' o' := rd_wr_offset s k i o i' o' _ h

theorem rd_wb_offset (s : State) (k : PageKind) (i o i' o' b : Nat) (v : Bool) (h : o' % 0x1000 ≠ o % 0x1000) :
    (s.wb k i o b v).rd k i' o' = s.rd k i' o' := rd_wr_offset s k i o i' o' _ h

theorem rd_sat_offset (s : State) (k : PageKind) (i o i' o' lo n v : Nat) (h : o' % 0x1000 ≠ o % 0x1000) :
    (s.sat k i o lo n v).rd k i' o' = s.rd k i' o' := rd_wr_offset s k i o i' o' _ h

theorem rf_of_rd {s t : State} {k : PageKind} {i o : Nat} (h : t.rd k i o = s.rd k i o) (lo n : Nat) :
    t.rf k i o lo n = s.rf k i o lo n := by rw [State.rf, State.rf, h]

theorem rb_of_rd {s t : State} {k : PageKind} {i o : Nat} (h : t.rd k i o = s.rd k i o) (b : Nat) :
    t.rb k i o b = s.rb k i o b := by rw [State.rb, State.rb, h]

/-! ### Counters and results -/

theorem satAdd_le (top a b : Nat) : satAdd top a b ≤ top := by
  unfold satAdd
  split <;> omega

theorem rf_sat_same (s : State) (k : PageKind) (i o lo n add : Nat) (h : lo + n ≤ 32) :
    (s.sat k i o lo n add).rf k i o lo n = satAdd (2 ^ n - 1) (s.rf k i o lo n) add := by
  rw [State.sat, rf_wf_same _ _ _ _ _ _ _ h, Nat.mod_eq_of_lt]
  have h1 := satAdd_le (2 ^ n - 1) (s.rf k i o lo n) add
  have h2 := Nat.two_pow_pos n
  omega

/-- A started result shows VALID = 0, with SEQ and CODE as they were (R84). -/
theorem startResult_valid (s : State) (k : PageKind) (i o : Nat) : (s.startResult k i o).rb k i o 16 = false :=
  rb_wb_same s k i o 16 false (by decide)

theorem startResult_field (s : State) (k : PageKind) (i o l m : Nat) (h : l + m ≤ 16 ∨ 17 ≤ l) :
    (s.startResult k i o).rf k i o l m = s.rf k i o l m := rf_wb_other s k i o 16 l m false (by decide) (by omega)

/-- A stored result shows VALID = 1, SEQ advanced modulo 256, and the other fields as `rest` gives them (R84). -/
theorem storeResult_rd (s : State) (k : PageKind) (i o rest : Nat) :
    (s.storeResult k i o rest).rd k i o = word ((s.rf k i o 0 8 + 1) % 256 + 65536 + rest) := by
  rw [State.storeResult, rd_wr_same]
  simp [pack]

/-! ### The canonical form -/

/-- The registers are in canonical form. -/
def State.regsOk (s : State) : Prop := Store.wf regReset s.regs = true

theorem regsOk_setReg {s : State} (h : s.regsOk) (a : Nat) (v : Word) : (s.setReg a v).regsOk := Store.wf_setD regReset a v h

theorem regsOk_wr {s : State} (h : s.regsOk) (k : PageKind) (i o : Nat) (v : Word) : (s.wr k i o v).regsOk := regsOk_setReg h _ v

theorem regsOk_wf {s : State} (h : s.regsOk) (k : PageKind) (i o lo n v : Nat) : (s.wf k i o lo n v).regsOk := regsOk_wr h k i o _

theorem regsOk_wb {s : State} (h : s.regsOk) (k : PageKind) (i o b : Nat) (v : Bool) : (s.wb k i o b v).regsOk :=
  regsOk_wf h k i o b 1 _

theorem regsOk_sat {s : State} (h : s.regsOk) (k : PageKind) (i o lo n v : Nat) : (s.sat k i o lo n v).regsOk :=
  regsOk_wf h k i o lo n _

theorem regsOk_resetPage {s : State} (h : s.regsOk) (k : PageKind) (i : Nat) (p : Nat → Bool) : (s.resetPage k i p).regsOk :=
  Store.wf_keep regReset _ h

theorem regsOk_reset : State.reset.regsOk := rfl

/-- A fold of operations that each keep a property keeps it. -/
theorem foldl_keeps {α β : Type} (P : β → Prop) {f : β → α → β} (hf : ∀ x a, P x → P (f x a)) (l : List α) {x : β} (h : P x) :
    P (l.foldl f x) := by
  induction l generalizing x with
  | nil => exact h
  | cons a t ih => exact ih (hf x a h)

end Sys2Proof.Machine
end

