-- ==== Sys2Proof/Laws/Memory.lean ====
section
/-!
SUPPORT. Laws of the hayloft: a byte read after a write, the frame of a write, and the canonical form of its stores under
every memory operation.
-/

namespace Sys2Proof.Machine

/-- The bytes of the hayloft and the keys of its words are in canonical form. -/
def State.hayWf (s : State) : Prop := Memory.wf s.hay.cells = true ∧ Store.sorted s.hay.tags = true

theorem hayWf_reset : State.reset.hayWf := ⟨rfl, rfl⟩

/-- A byte reads back under the key it was written with. -/
theorem hayRead_hayWrite_same (s : State) (o a : Nat) (b : Byte) : (s.hayWrite o a b).hayRead o a = b := by
  simp [State.hayRead, State.hayWrite, State.keyOf, Store.get?_put]

/-- A write changes no stored byte outside its 32-byte word. -/
theorem get?_hayWrite_word (s : State) (o a x : Nat) (b : Byte) (h : x / 32 ≠ a / 32) :
    Store.get? (s.hayWrite o a b).hay.cells x = Store.get? s.hay.cells x := by
  have hx : x ≠ a := fun e => h (by rw [e])
  unfold State.hayWrite
  dsimp only
  rw [Store.get?_put, if_neg hx]
  split
  · rfl
  · rw [Store.get?_keep]
    simp [h]

/-- A write changes no key of another word. -/
theorem get?_tags_hayWrite (s : State) (o a w : Nat) (b : Byte) (h : w ≠ a / 32) :
    Store.get? (s.hayWrite o a b).hay.tags w = Store.get? s.hay.tags w := by
  simp [State.hayWrite, Store.get?_put, h]

/-- In a word already written under the same key, every other byte stays. -/
theorem hayRead_hayWrite_other (s : State) (o a x : Nat) (b : Byte) (h : x ≠ a)
    (hk : x / 32 ≠ a / 32 ∨ Store.get? s.hay.tags (a / 32) = some (s.keyOf o)) :
    (s.hayWrite o a b).hayRead o x = s.hayRead o x := by
  have hkey : (s.hayWrite o a b).keyOf o = s.keyOf o := rfl
  have hfree : (s.hayWrite o a b).free = s.free := rfl
  by_cases hw : x / 32 = a / 32
  · have hk' := hk.resolve_left (fun e => e hw)
    have hc : Store.get? (s.hayWrite o a b).hay.cells x = Store.get? s.hay.cells x := by
      simp [State.hayWrite, hk', Store.get?_put, h]
    have ht : Store.get? (s.hayWrite o a b).hay.tags (x / 32) = Store.get? s.hay.tags (x / 32) := by
      simp [State.hayWrite, hw, hk', Store.get?_put]
    rw [State.hayRead, State.hayRead, hc, ht, hkey, hfree]
  · rw [State.hayRead, State.hayRead, get?_hayWrite_word s o a x b hw, get?_tags_hayWrite s o a _ b hw, hkey, hfree]

/-! ### The canonical form -/

theorem hayWf_hayWrite {s : State} (h : s.hayWf) (o a : Nat) (b : Byte) : (s.hayWrite o a b).hayWf := by
  refine ⟨Store.sorted_put a b ?_, Store.sorted_put _ _ h.2⟩
  split
  · exact h.1
  · exact Store.sorted_keep _ h.1

theorem hayWf_hayWriteBytes {s : State} (o a : Nat) (bs : List Byte) (h : s.hayWf) : (s.hayWriteBytes o a bs).hayWf := by
  induction bs generalizing s a with
  | nil => exact h
  | cons b t ih => exact ih (a + 1) (hayWf_hayWrite h o a b)

theorem hayWf_poisonWrite {s : State} (h : s.hayWf) (a n : Nat) : (s.poisonWrite a n).hayWf := by
  refine foldl_keeps State.hayWf ?_ s.hay.poison h
  intro x e hx
  dsimp only
  split
  · exact hx
  · split <;> exact hx

theorem hayWf_hayStore {s : State} (h : s.hayWf) (o a : Nat) (bs : List Byte) : (s.hayStore o a bs).hayWf :=
  hayWf_hayWriteBytes o a bs (hayWf_poisonWrite h a bs.length)

theorem hayWf_hayPut {s : State} (h : s.hayWf) (o a n v : Nat) : (s.hayPut o a n v).hayWf := hayWf_hayStore h o a _

theorem hayWf_hayForget {s : State} : s.hayForget.hayWf := ⟨rfl, rfl⟩

end Sys2Proof.Machine
end

