-- ==== Sys2Proof/Laws/Events.lean ====
section
/-!
SUPPORT. What posting an entry, raising a page event and recording an error can do: entries reach a ring's storage, and of
the registers only ring descriptors, the dropped-message counter and the event register move.
-/

namespace Sys2Proof.Machine

/-- All but the registers, the hayloft, the rings, the messages sent and the pending bits is as before. -/
def State.EntryFrame (s t : State) : Prop :=
  t = { s with regs := t.regs, hay := t.hay, rings := t.rings, sent := t.sent, pba := t.pba }

theorem State.EntryFrame.refl (s : State) : State.EntryFrame s s := rfl

theorem State.EntryFrame.trans {s t u : State} (h1 : State.EntryFrame s t) (h2 : State.EntryFrame t u) : State.EntryFrame s u :=
  Eq.trans h2 (by rw [h1])

/-- The changed state in terms of the state before. -/
theorem State.EntryFrame.eq {s t : State} (h : State.EntryFrame s t) :
    t = { s with regs := t.regs, hay := t.hay, rings := t.rings, sent := t.sent, pba := t.pba } := h

/-- A register write is such a change. -/
theorem entryFrame_wr (s : State) (k : PageKind) (i o : Nat) (v : Word) : State.EntryFrame s (s.wr k i o v) := rfl

/-- What posting an entry can do: `frame` says which fields move, `rd` that no page register but HLK_MSG_DROP moves, and
the stores stay in canonical form. -/
structure State.Posted (s t : State) : Prop where
  frame : State.EntryFrame s t
  rd : ∀ (k : PageKind) (i o : Nat), (k ≠ .hlk ∨ o % 0x1000 ≠ Off.hlkMsgDrop) → t.rd k i o = s.rd k i o
  regsOk : s.regsOk → t.regsOk
  hayWf : s.hayWf → t.hayWf

theorem State.Posted.refl (s : State) : State.Posted s s := ⟨rfl, fun _ _ _ _ => rfl, id, id⟩

theorem State.Posted.trans {s t u : State} (h1 : State.Posted s t) (h2 : State.Posted t u) : State.Posted s u :=
  ⟨h1.frame.trans h2.frame, fun k i o h => (h2.rd k i o h).trans (h1.rd k i o h), h2.regsOk ∘ h1.regsOk, h2.hayWf ∘ h1.hayWf⟩

/-! ### Ring descriptors and the state of a ring -/

theorem posted_ringWord (s : State) (n o : Nat) (v : Word) : State.Posted s (s.setReg (ringAddr n o) v) :=
  ⟨rfl, fun k i o' _ => rd_setRingWord s k i o' n o v, fun h => regsOk_setReg h _ v, id⟩

theorem posted_ringSet (s : State) (n o lo w v : Nat) : State.Posted s (s.ringSet n o lo w v) := posted_ringWord s n o _

theorem posted_setRing (s : State) (n : Nat) (v : RingSt) : State.Posted s (s.setRing n v) := ⟨rfl, fun _ _ _ _ => rfl, id, id⟩

theorem posted_ringFlags (s : State) (n : Nat) : State.Posted s (s.ringFlags n) :=
  (posted_ringSet s n _ _ _ _).trans (posted_ringSet _ n _ _ _ _)

theorem posted_ringDrop (s : State) (n : Nat) : State.Posted s (s.ringDrop n) := posted_ringSet s n _ _ _ _

/-! ### Messages -/

theorem posted_sendMsg (s : State) (ix v : Nat) : State.Posted s (s.sendMsg ix v) := by
  unfold State.sendMsg
  dsimp only
  split
  · exact ⟨rfl, fun k i o h => h.elim (fun h1 => rd_sat_kind s 0 _ i o _ _ _ h1) fun h2 => by
      by_cases hk : k = .hlk
      · subst hk
        exact rd_sat_offset s .hlk 0 _ i o _ _ _ (by rw [show Off.hlkMsgDrop % 0x1000 = Off.hlkMsgDrop from rfl]; exact h2)
      · exact rd_sat_kind s 0 _ i o _ _ _ hk, fun h => regsOk_sat h _ _ _ _ _ _, id⟩
  · split
    · exact ⟨rfl, fun _ _ _ _ => rfl, id, id⟩
    · exact ⟨rfl, fun _ _ _ _ => rfl, id, id⟩

theorem posted_ringSignal (s : State) (n : Nat) : State.Posted s (s.ringSignal n) :=
  (posted_setRing s n _).trans (posted_sendMsg _ _ _)

theorem posted_ringCount (s : State) (n k : Nat) : State.Posted s (s.ringCount n k) := by
  unfold State.ringCount
  dsimp only
  split
  · exact (posted_setRing s n _).trans (posted_ringSignal _ n)
  · exact posted_setRing s n _

theorem posted_ringDropSignal (s : State) (n : Nat) : State.Posted s (s.ringDropSignal n) := by
  unfold State.ringDropSignal
  split
  · exact (posted_setRing s n _).trans (posted_sendMsg _ _ _)
  · exact State.Posted.refl s

theorem posted_ringLose (s : State) (n : Nat) : State.Posted s (s.ringLose n) :=
  ((posted_ringDrop s n).trans (posted_setRing _ n _)).trans (posted_ringDropSignal _ n)

/-! ### Storage of an entry -/

theorem ringBase_mod (s : State) (n : Nat) : s.ringBase n % 32 = 0 := by
  unfold State.ringBase
  omega

/-- A write of one whole word clears poison and moves no register. -/
theorem posted_poisonWrite_word (s : State) (a : Nat) (h : a % 32 = 0) : State.Posted s (s.poisonWrite a 32) := by
  refine foldl_keeps (State.Posted s) ?_ s.hay.poison (State.Posted.refl s)
  intro x e hx
  dsimp only
  split
  · exact hx
  · rename_i h1
    rw [if_pos (by omega)]
    exact hx.trans ⟨rfl, fun _ _ _ _ => rfl, id, fun hw => hw⟩

theorem posted_hayWrite (s : State) (o a : Nat) (b : Byte) : State.Posted s (s.hayWrite o a b) :=
  ⟨rfl, fun _ _ _ _ => rfl, id, fun h => hayWf_hayWrite h o a b⟩

theorem posted_hayWriteBytes (s : State) (o a : Nat) (bs : List Byte) : State.Posted s (s.hayWriteBytes o a bs) := by
  induction bs generalizing s a with
  | nil => exact State.Posted.refl s
  | cons b t ih => exact (posted_hayWrite s o a b).trans (ih _ (a + 1))

theorem bytesOf_length (n v : Nat) : (bytesOf n v).length = n := by
  induction n generalizing v with
  | zero => rfl
  | succ n ih => simp [bytesOf, ih]

theorem posted_hayPut_word (s : State) (o a v : Nat) (h : a % 32 = 0) : State.Posted s (s.hayPut o a 32 v) := by
  unfold State.hayPut State.hayStore
  rw [bytesOf_length]
  exact (posted_poisonWrite_word s a h).trans (posted_hayWriteBytes _ o a _)

theorem posted_ringStore (s : State) (n : Nat) (p : Producer) (ty body : Nat) (gap : Bool) :
    State.Posted s (s.ringStore n p ty body gap) := by
  have h := ringBase_mod s n
  exact (((posted_hayPut_word s _ _ _ (by omega)).trans (posted_ringWord _ n _ _)).trans (posted_setRing _ n _)).trans
    (posted_ringFlags _ n)

/-! ### Offering an entry -/

/-- The producers that count no loss of their own. -/
def Producer.countsNothing : Producer → Bool
  | .mark _ | .page | .device => true
  | _ => false

theorem countLoss_none (s : State) (p : Producer) (h : p.countsNothing = true) : s.countLoss p = s := by
  cases p <;> simp_all [Producer.countsNothing, State.countLoss]

/-- An offer of a page, of the device or of a marker producer, however it ends. -/
theorem posted_offer (s : State) (n : Nat) (p : Producer) (wait : Bool) (ty body : Nat) (h : p.countsNothing = true) :
    State.Posted s (s.offer n p wait ty body).1 := by
  unfold State.offer
  simp only [countLoss_none _ p h]
  split
  · exact posted_ringLose s n
  · split
    · split
      · split
        · exact (posted_setRing s n _).trans (posted_ringFlags _ n)
        · exact posted_ringLose s n
      · exact ((((posted_ringWord s n _ _).trans (posted_ringDrop _ n)).trans (posted_ringStore _ n p ty body true)).trans
          (posted_ringDropSignal _ n)).trans (posted_ringCount _ n 1)
      · exact posted_ringLose s n
    · exact (posted_ringStore s n p ty body _).trans (posted_ringCount _ n 1)

theorem posted_post (s : State) (n : Nat) (p : Producer) (wait : Bool) (ty body : Nat) (h : p.countsNothing = true) :
    State.Posted s (s.post n p wait ty body) := posted_offer s n p wait ty body h

theorem posted_eventPost (s : State) (ix : Nat) (p : Producer) (ty body : Nat) (h : p.countsNothing = true) :
    State.Posted s (s.eventPost ix p ty body) := by
  unfold State.eventPost
  dsimp only
  split
  · exact posted_post s _ p false ty body h
  · exact State.Posted.refl s

/-! ### Events and errors -/

/-- A register that posting an entry may move. -/
def postReg (k : PageKind) (o : Nat) : Prop := k = .hlk ∧ o % 0x1000 = Off.hlkMsgDrop

/-- What raising event `n` of a page can do. -/
theorem event_frame (s : State) (k : PageKind) (i n : Nat) : State.EntryFrame s (s.event k i n) := by
  unfold State.event
  split
  · exact State.EntryFrame.refl s
  · dsimp only
    split
    · exact (entryFrame_wr s k i _ _).trans (posted_eventPost _ _ _ _ _ rfl).frame
    · rfl

/-- Raising an event moves no page register but the page's PG_EVT and HLK_MSG_DROP. -/
theorem rd_event (s : State) (k : PageKind) (i n : Nat) (k' : PageKind) (i' o' : Nat) (hp : ¬postReg k' o')
    (h : k' ≠ k ∨ i' % k.count ≠ i % k.count ∨ o' % 0x1000 ≠ Off.pgEvt) : (s.event k i n).rd k' i' o' = s.rd k' i' o' := by
  have hp' : k' ≠ .hlk ∨ o' % 0x1000 ≠ Off.hlkMsgDrop := by
    by_contra hc
    simp only [not_or, not_not] at hc
    exact hp hc
  have hb : (s.wb k i Off.pgEvt n true).rd k' i' o' = s.rd k' i' o' := by
    by_cases hk : k' = k
    · subst hk
      rcases h with h | h | h
      · exact absurd rfl h
      · exact rd_wr_inst s k' i _ i' o' _ h
      · exact rd_wr_offset s k' i _ i' o' _ h
    · exact rd_wr_kind s i _ i' o' _ hk
  unfold State.event
  split
  · rfl
  · dsimp only
    split
    · rw [(posted_eventPost _ _ _ _ _ rfl).rd k' i' o' hp', hb]
    · exact hb

/-- The event bit reads 1 afterwards. -/
theorem rb_event_same (s : State) (k : PageKind) (i n : Nat) (h : n < 32) : (s.event k i n).rb k i Off.pgEvt n = true := by
  unfold State.event
  split
  · assumption
  · dsimp only
    have hb := rb_wb_same s k i Off.pgEvt n true h
    split
    · rw [rb_of_rd ((posted_eventPost _ _ _ _ _ rfl).rd k i _ (Or.inr (by decide)))]
      exact hb
    · exact hb

theorem regsOk_event {s : State} (h : s.regsOk) (k : PageKind) (i n : Nat) : (s.event k i n).regsOk := by
  unfold State.event
  split
  · exact h
  · dsimp only
    split
    · exact (posted_eventPost _ _ _ _ _ rfl).regsOk (regsOk_wb h k i _ n true)
    · exact regsOk_wb h k i _ n true

theorem hayWf_event {s : State} (h : s.hayWf) (k : PageKind) (i n : Nat) : (s.event k i n).hayWf := by
  unfold State.event
  split
  · exact h
  · dsimp only
    split
    · exact (posted_eventPost _ _ _ _ _ rfl).hayWf h
    · exact h

/-- What recording an error in a page can do. -/
theorem err_frame (s : State) (k : PageKind) (i c off : Nat) : State.EntryFrame s (s.err k i c off) :=
  (((((entryFrame_wr s k i _ _).trans (entryFrame_wr _ k i _ _)).trans (entryFrame_wr _ k i _ _)).trans
    (entryFrame_wr _ k i _ _))).trans (event_frame _ k i 0)

/-- Recording an error moves no page register but PG_ERR, PG_ERR_CNT and PG_EVT of the page, and HLK_MSG_DROP. -/
theorem rd_err (s : State) (k : PageKind) (i c off : Nat) (k' : PageKind) (i' o' : Nat) (hp : ¬postReg k' o')
    (h : k' ≠ k ∨ i' % k.count ≠ i % k.count ∨
      (o' % 0x1000 ≠ Off.pgErr ∧ o' % 0x1000 ≠ Off.pgErrCnt ∧ o' % 0x1000 ≠ Off.pgEvt)) :
    (s.err k i c off).rd k' i' o' = s.rd k' i' o' := by
  have hw : ∀ (x : State) (o : Nat) (v : Word), (o = Off.pgErr ∨ o = Off.pgErrCnt) → (x.wr k i o v).rd k' i' o' = x.rd k' i' o' := by
    intro x o v ho
    by_cases hk : k' = k
    · subst hk
      rcases h with h | h | h
      · exact absurd rfl h
      · exact rd_wr_inst x k' i o i' o' v h
      · exact rd_wr_offset x k' i o i' o' v (by rcases ho with rfl | rfl <;> simpa using by tauto)
    · exact rd_wr_kind x i o i' o' v hk
  unfold State.err
  dsimp only
  rw [rd_event _ k i 0 k' i' o' hp (by tauto)]
  exact (((hw _ _ _ (Or.inr rfl)).trans (hw _ _ _ (Or.inr rfl))).trans (hw _ _ _ (Or.inr rfl))).trans (hw _ _ _ (Or.inl rfl))

theorem regsOk_err {s : State} (h : s.regsOk) (k : PageKind) (i c off : Nat) : (s.err k i c off).regsOk :=
  regsOk_event (regsOk_wf (regsOk_wf (regsOk_sat (regsOk_wb h _ _ _ _ _) _ _ _ _ _ _) _ _ _ _ _ _) _ _ _ _ _ _) k i 0

theorem hayWf_wr {s : State} (h : s.hayWf) (k : PageKind) (i o : Nat) (v : Word) : (s.wr k i o v).hayWf := h

theorem hayWf_err {s : State} (h : s.hayWf) (k : PageKind) (i c off : Nat) : (s.err k i c off).hayWf :=
  hayWf_event (hayWf_wr (hayWf_wr (hayWf_wr (hayWf_wr h k i _ _) k i _ _) k i _ _) k i _ _) k i 0

end Sys2Proof.Machine
end

