-- ==== Sys2Proof/Laws/Access.lean ====
section
/-!
SUPPORT. Laws of register accesses and of the clusters' entry points: a write that `accepts` describes has its effect, and a
groom that `romRuns` or `fetches` describes runs its stage or its word.
-/

namespace Sys2Proof.Machine

/-! ### Register writes -/

/-- A write that passes the common checks is its effect. -/
theorem guarded_of_accepts {s : State} {r : Requester} {k : PageKind} {i o : Nat} {v : Word}
    (h : s.accepts r k i o v = true) (eff : State → State) : s.guarded r k i o v eff = eff s := by
  unfold State.accepts at h
  unfold State.guarded
  split at h
  · simp at h
  · rename_i row x y hrow
    simp only [Bool.and_eq_true, Bool.or_eq_true, Bool.not_eq_true', decide_eq_true_eq, Bool.and_eq_false_iff,
      Bool.or_eq_false_iff, decide_eq_false_iff_not] at h
    obtain ⟨hr, ⟨⟨⟨hs, hf⟩, ht⟩, hl⟩, hro⟩ := h
    have h1 : ¬(s.reach r k i = .none ∨ (s.reach r k i = .header ∧ 0x40 ≤ o)) := by
      rcases hr with hr | ⟨hr, ho⟩ <;> simp [hr]
      omega
    rw [if_neg h1]
    try simp only [hrow]
    rw [if_neg (by rcases hs with hs | hs <;> simp [hs]), if_neg (by simp [hf]), if_neg (by rcases ht with ht | ht <;> simp [ht]),
      if_neg (by rcases hl with hl | ⟨hl, hl'⟩ <;> simp_all), hro]
    rfl

/-- The page that holds a register, from its BAR0 offset. -/
theorem pageAt_base_add (k : PageKind) {i o : Nat} (hi : i < k.count) (ho : o < 0x1000) :
    pageAt (k.base i + o) = some ⟨k, i⟩ := pageAt_base k hi ho

/-- A page lies below the ring window. -/
theorem base_add_lt (k : PageKind) {i o : Nat} (hi : i < k.count) (ho : o < 0x1000) : k.base i + o < ringWindow := by
  have h := k.addr_lt i o
  unfold PageKind.addr at h
  rwa [Nat.mod_eq_of_lt hi, Nat.mod_eq_of_lt ho] at h

theorem base_mod (k : PageKind) (i : Nat) : k.base i % 0x1000 = 0 := by
  cases k <;> simp only [PageKind.base] <;> omega

/-- A 32-bit write at a page register's BAR0 offset is a write of its page. -/
theorem write32_page (s : State) (r : Requester) (k : PageKind) {i o : Nat} (hi : i < k.count) (ho : o < 0x1000) (v : Word) :
    s.write32 r (k.base i + o) v = s.pageWrite r k i o v := by
  have h1 := base_add_lt k hi ho
  have h2 := base_mod k i
  unfold State.write32
  rw [if_neg (by omega), pageAt_base k hi ho]
  dsimp only
  rw [show (k.base i + o) % 0x1000 = o by omega]

/-! ### The groom cluster -/

/-- What one stage of a ROM routine leads to (R489, R494). -/
def State.stageEnds (s : State) (g : Fin 8) (j : Job) : State :=
  if j.stall then s
  else
    match j.done, j.chain with
    | some st, _ => State.endRecord { j.s with free := j.s.free + 32 } g j.c st
    | none, some h => j.s.setGroom g { j.s.groom g with ctx := none, chains := { h with ctx := j.c } :: (j.s.groom g).chains }
    | none, none => j.s.setGroom g { j.s.groom g with ctx := some { j.c with pc := j.p.addr.toNat } }

/-- The stage of a routine that `romRuns` describes. -/
theorem service_of_romRuns {s : State} {g : Fin 8} {c : Ctx} {op k : Nat} {p : Probe} (h : s.romRuns g c op k p = true)
    (is : Nat → Bool) (hop : is op = true) (f : Job → Job) :
    s.service g none p is f = s.stageEnds g (f ⟨s.reach15 c.rcd.op p.addr.toNat, c, g, p, none, none, false⟩) := by
  unfold State.romRuns at h
  simp only [Bool.and_eq_true, Bool.not_eq_true', decide_eq_true_eq] at h
  obtain ⟨⟨⟨⟨⟨⟨⟨⟨⟨⟨hc, ho⟩, hr⟩, hd⟩, hs⟩, ha⟩, hb⟩, hw⟩, ht⟩, hf⟩, hy⟩ := h
  have e : s.service g none p is f = s.runStage g p f := by
    unfold State.service
    simp only [hc, ho, hop, hr, Bool.and_self, if_true]
  rw [e]
  unfold State.runStage
  simp only [hc]
  rw [if_neg (by simp [hw, ha]), if_neg (by simp [hb]), if_neg (by simp [Option.isNone_iff_eq_none.mp hd]), if_neg (by simp [hf])]
  simp only [if_neg (show ¬p.fetch = .corrected by simp [hf])]
  rfl

/-- The word of a routine that `fetches` describes. -/
theorem micro_of_fetches {s : State} {g : Fin 8} {c : Ctx} {w : Nat} (h : s.fetches g c w = true) (is : Nat → Bool)
    (hw : is w = true) (f : Ctx → Nat → State → State) :
    s.micro g .clean is f =
      f { c with pc := (s.fetchAddr c.pc + 1) % 2 ^ 15, after := .no } w (s.reach15 c.rcd.op (s.fetchAddr c.pc)) := by
  unfold State.fetches at h
  simp only [Bool.and_eq_true, Bool.not_eq_true', Bool.or_eq_true, decide_eq_true_eq] at h
  obtain ⟨⟨⟨⟨⟨⟨hc, hr⟩, hg⟩, ha⟩, hp⟩, hx⟩, hl⟩ := h
  unfold State.micro
  have h1 : ¬(s.romCtx c = true ∨ s.groomWaits g = true ∨ (c.after ≠ .no ∧ c.after ≠ .done)) := by
    rcases ha with ha | ha <;> simp [hr, hg, ha]
  simp only [hc]
  rw [if_neg h1, if_neg (by omega)]
  simp [hx, hl, hw]

/-- A record ends: its groom runs nothing, and its STATUS is the last result of its owner and TAG. -/
theorem romRuns_ctx {s : State} {g : Fin 8} {c : Ctx} {op k : Nat} {p : Probe} (h : s.romRuns g c op k p = true) :
    (s.groom g).ctx = some c := by
  unfold State.romRuns at h
  simp only [Bool.and_eq_true, decide_eq_true_eq] at h
  exact h.1.1.1.1.1.1.1.1.1.1

end Sys2Proof.Machine
end

