-- ==== Sys2Proof/Laws/EventFields.lean ====
section
/-!
SUPPORT. Raising an event, recording an error and offering a logbook entry leave each field that they do not name.
-/

namespace Sys2Proof.Machine

variable (s : State)

@[simp] theorem State.event_now (k : PageKind) (i n : Nat) : (s.event k i n).now = s.now := (congrArg State.now (event_frame s k i n).eq :)
@[simp] theorem State.event_epoch (k : PageKind) (i n : Nat) : (s.event k i n).epoch = s.epoch := (congrArg State.epoch (event_frame s k i n).eq :)
@[simp] theorem State.event_epochLog (k : PageKind) (i n : Nat) : (s.event k i n).epochLog = s.epochLog := (congrArg State.epochLog (event_frame s k i n).eq :)
@[simp] theorem State.event_free (k : PageKind) (i n : Nat) : (s.event k i n).free = s.free := (congrArg State.free (event_frame s k i n).eq :)
@[simp] theorem State.event_snaps (k : PageKind) (i n : Nat) : (s.event k i n).snaps = s.snaps := (congrArg State.snaps (event_frame s k i n).eq :)
@[simp] theorem State.event_stage (k : PageKind) (i n : Nat) : (s.event k i n).stage = s.stage := (congrArg State.stage (event_frame s k i n).eq :)
@[simp] theorem State.event_resp (k : PageKind) (i n : Nat) : (s.event k i n).resp = s.resp := (congrArg State.resp (event_frame s k i n).eq :)
@[simp] theorem State.event_pins (k : PageKind) (i n : Nat) : (s.event k i n).pins = s.pins := (congrArg State.pins (event_frame s k i n).eq :)
@[simp] theorem State.event_mode (k : PageKind) (i n : Nat) : (s.event k i n).mode = s.mode := (congrArg State.mode (event_frame s k i n).eq :)
@[simp] theorem State.event_lan (k : PageKind) (i n : Nat) : (s.event k i n).lan = s.lan := (congrArg State.lan (event_frame s k i n).eq :)
@[simp] theorem State.event_otp (k : PageKind) (i n : Nat) : (s.event k i n).otp = s.otp := (congrArg State.otp (event_frame s k i n).eq :)
@[simp] theorem State.event_flash (k : PageKind) (i n : Nat) : (s.event k i n).flash = s.flash := (congrArg State.flash (event_frame s k i n).eq :)
@[simp] theorem State.event_keys (k : PageKind) (i n : Nat) : (s.event k i n).keys = s.keys := (congrArg State.keys (event_frame s k i n).eq :)
@[simp] theorem State.event_keyGen (k : PageKind) (i n : Nat) : (s.event k i n).keyGen = s.keyGen := (congrArg State.keyGen (event_frame s k i n).eq :)
@[simp] theorem State.event_regions (k : PageKind) (i n : Nat) : (s.event k i n).regions = s.regions := (congrArg State.regions (event_frame s k i n).eq :)
@[simp] theorem State.event_fns (k : PageKind) (i n : Nat) : (s.event k i n).fns = s.fns := (congrArg State.fns (event_frame s k i n).eq :)
@[simp] theorem State.event_vmask (k : PageKind) (i n : Nat) : (s.event k i n).vmask = s.vmask := (congrArg State.vmask (event_frame s k i n).eq :)
@[simp] theorem State.event_msix (k : PageKind) (i n : Nat) : (s.event k i n).msix = s.msix := (congrArg State.msix (event_frame s k i n).eq :)
@[simp] theorem State.event_stalls (k : PageKind) (i n : Nat) : (s.event k i n).stalls = s.stalls := (congrArg State.stalls (event_frame s k i n).eq :)
@[simp] theorem State.event_follow (k : PageKind) (i n : Nat) : (s.event k i n).follow = s.follow := (congrArg State.follow (event_frame s k i n).eq :)
@[simp] theorem State.event_tsEdges (k : PageKind) (i n : Nat) : (s.event k i n).tsEdges = s.tsEdges := (congrArg State.tsEdges (event_frame s k i n).eq :)
@[simp] theorem State.event_tsDirty (k : PageKind) (i n : Nat) : (s.event k i n).tsDirty = s.tsDirty := (congrArg State.tsDirty (event_frame s k i n).eq :)
@[simp] theorem State.event_armed (k : PageKind) (i n : Nat) : (s.event k i n).armed = s.armed := (congrArg State.armed (event_frame s k i n).eq :)
@[simp] theorem State.event_chans (k : PageKind) (i n : Nat) : (s.event k i n).chans = s.chans := (congrArg State.chans (event_frame s k i n).eq :)
@[simp] theorem State.event_seqs (k : PageKind) (i n : Nat) : (s.event k i n).seqs = s.seqs := (congrArg State.seqs (event_frame s k i n).eq :)
@[simp] theorem State.event_catBuf (k : PageKind) (i n : Nat) : (s.event k i n).catBuf = s.catBuf := (congrArg State.catBuf (event_frame s k i n).eq :)
@[simp] theorem State.event_tims (k : PageKind) (i n : Nat) : (s.event k i n).tims = s.tims := (congrArg State.tims (event_frame s k i n).eq :)
@[simp] theorem State.event_verniers (k : PageKind) (i n : Nat) : (s.event k i n).verniers = s.verniers := (congrArg State.verniers (event_frame s k i n).eq :)
@[simp] theorem State.event_lastTrig (k : PageKind) (i n : Nat) : (s.event k i n).lastTrig = s.lastTrig := (congrArg State.lastTrig (event_frame s k i n).eq :)
@[simp] theorem State.event_pmus (k : PageKind) (i n : Nat) : (s.event k i n).pmus = s.pmus := (congrArg State.pmus (event_frame s k i n).eq :)
@[simp] theorem State.event_waves (k : PageKind) (i n : Nat) : (s.event k i n).waves = s.waves := (congrArg State.waves (event_frame s k i n).eq :)
@[simp] theorem State.event_caps (k : PageKind) (i n : Nat) : (s.event k i n).caps = s.caps := (congrArg State.caps (event_frame s k i n).eq :)
@[simp] theorem State.event_acqs (k : PageKind) (i n : Nat) : (s.event k i n).acqs = s.acqs := (congrArg State.acqs (event_frame s k i n).eq :)
@[simp] theorem State.event_cnvs (k : PageKind) (i n : Nat) : (s.event k i n).cnvs = s.cnvs := (congrArg State.cnvs (event_frame s k i n).eq :)
@[simp] theorem State.event_line (k : PageKind) (i n : Nat) : (s.event k i n).line = s.line := (congrArg State.line (event_frame s k i n).eq :)
@[simp] theorem State.event_evHist (k : PageKind) (i n : Nat) : (s.event k i n).evHist = s.evHist := (congrArg State.evHist (event_frame s k i n).eq :)
@[simp] theorem State.event_ticking (k : PageKind) (i n : Nat) : (s.event k i n).ticking = s.ticking := (congrArg State.ticking (event_frame s k i n).eq :)
@[simp] theorem State.event_trips (k : PageKind) (i n : Nat) : (s.event k i n).trips = s.trips := (congrArg State.trips (event_frame s k i n).eq :)
@[simp] theorem State.event_onsets (k : PageKind) (i n : Nat) : (s.event k i n).onsets = s.onsets := (congrArg State.onsets (event_frame s k i n).eq :)
@[simp] theorem State.event_sampling (k : PageKind) (i n : Nat) : (s.event k i n).sampling = s.sampling := (congrArg State.sampling (event_frame s k i n).eq :)
@[simp] theorem State.event_wchPend (k : PageKind) (i n : Nat) : (s.event k i n).wchPend = s.wchPend := (congrArg State.wchPend (event_frame s k i n).eq :)
@[simp] theorem State.event_idxs (k : PageKind) (i n : Nat) : (s.event k i n).idxs = s.idxs := (congrArg State.idxs (event_frame s k i n).eq :)
@[simp] theorem State.event_gth (k : PageKind) (i n : Nat) : (s.event k i n).gth = s.gth := (congrArg State.gth (event_frame s k i n).eq :)
@[simp] theorem State.event_halter (k : PageKind) (i n : Nat) : (s.event k i n).halter = s.halter := (congrArg State.halter (event_frame s k i n).eq :)
@[simp] theorem State.event_rst (k : PageKind) (i n : Nat) : (s.event k i n).rst = s.rst := (congrArg State.rst (event_frame s k i n).eq :)
@[simp] theorem State.event_weather (k : PageKind) (i n : Nat) : (s.event k i n).weather = s.weather := (congrArg State.weather (event_frame s k i n).eq :)
@[simp] theorem State.event_cpl (k : PageKind) (i n : Nat) : (s.event k i n).cpl = s.cpl := (congrArg State.cpl (event_frame s k i n).eq :)
@[simp] theorem State.event_tap (k : PageKind) (i n : Nat) : (s.event k i n).tap = s.tap := (congrArg State.tap (event_frame s k i n).eq :)
@[simp] theorem State.event_far (k : PageKind) (i n : Nat) : (s.event k i n).far = s.far := (congrArg State.far (event_frame s k i n).eq :)
@[simp] theorem State.event_grooms (k : PageKind) (i n : Nat) : (s.event k i n).grooms = s.grooms := (congrArg State.grooms (event_frame s k i n).eq :)
@[simp] theorem State.event_cluster (k : PageKind) (i n : Nat) : (s.event k i n).cluster = s.cluster := (congrArg State.cluster (event_frame s k i n).eq :)
@[simp] theorem State.event_hbm (k : PageKind) (i n : Nat) : (s.event k i n).hbm = s.hbm := (congrArg State.hbm (event_frame s k i n).eq :)
@[simp] theorem State.event_pending (k : PageKind) (i n : Nat) : (s.event k i n).pending = s.pending := (congrArg State.pending (event_frame s k i n).eq :)

@[simp] theorem State.err_now (k : PageKind) (i c off : Nat) : (s.err k i c off).now = s.now := (congrArg State.now (err_frame s k i c off).eq :)
@[simp] theorem State.err_epoch (k : PageKind) (i c off : Nat) : (s.err k i c off).epoch = s.epoch := (congrArg State.epoch (err_frame s k i c off).eq :)
@[simp] theorem State.err_epochLog (k : PageKind) (i c off : Nat) : (s.err k i c off).epochLog = s.epochLog := (congrArg State.epochLog (err_frame s k i c off).eq :)
@[simp] theorem State.err_free (k : PageKind) (i c off : Nat) : (s.err k i c off).free = s.free := (congrArg State.free (err_frame s k i c off).eq :)
@[simp] theorem State.err_snaps (k : PageKind) (i c off : Nat) : (s.err k i c off).snaps = s.snaps := (congrArg State.snaps (err_frame s k i c off).eq :)
@[simp] theorem State.err_stage (k : PageKind) (i c off : Nat) : (s.err k i c off).stage = s.stage := (congrArg State.stage (err_frame s k i c off).eq :)
@[simp] theorem State.err_resp (k : PageKind) (i c off : Nat) : (s.err k i c off).resp = s.resp := (congrArg State.resp (err_frame s k i c off).eq :)
@[simp] theorem State.err_pins (k : PageKind) (i c off : Nat) : (s.err k i c off).pins = s.pins := (congrArg State.pins (err_frame s k i c off).eq :)
@[simp] theorem State.err_mode (k : PageKind) (i c off : Nat) : (s.err k i c off).mode = s.mode := (congrArg State.mode (err_frame s k i c off).eq :)
@[simp] theorem State.err_lan (k : PageKind) (i c off : Nat) : (s.err k i c off).lan = s.lan := (congrArg State.lan (err_frame s k i c off).eq :)
@[simp] theorem State.err_otp (k : PageKind) (i c off : Nat) : (s.err k i c off).otp = s.otp := (congrArg State.otp (err_frame s k i c off).eq :)
@[simp] theorem State.err_flash (k : PageKind) (i c off : Nat) : (s.err k i c off).flash = s.flash := (congrArg State.flash (err_frame s k i c off).eq :)
@[simp] theorem State.err_keys (k : PageKind) (i c off : Nat) : (s.err k i c off).keys = s.keys := (congrArg State.keys (err_frame s k i c off).eq :)
@[simp] theorem State.err_keyGen (k : PageKind) (i c off : Nat) : (s.err k i c off).keyGen = s.keyGen := (congrArg State.keyGen (err_frame s k i c off).eq :)
@[simp] theorem State.err_regions (k : PageKind) (i c off : Nat) : (s.err k i c off).regions = s.regions := (congrArg State.regions (err_frame s k i c off).eq :)
@[simp] theorem State.err_fns (k : PageKind) (i c off : Nat) : (s.err k i c off).fns = s.fns := (congrArg State.fns (err_frame s k i c off).eq :)
@[simp] theorem State.err_vmask (k : PageKind) (i c off : Nat) : (s.err k i c off).vmask = s.vmask := (congrArg State.vmask (err_frame s k i c off).eq :)
@[simp] theorem State.err_msix (k : PageKind) (i c off : Nat) : (s.err k i c off).msix = s.msix := (congrArg State.msix (err_frame s k i c off).eq :)
@[simp] theorem State.err_stalls (k : PageKind) (i c off : Nat) : (s.err k i c off).stalls = s.stalls := (congrArg State.stalls (err_frame s k i c off).eq :)
@[simp] theorem State.err_follow (k : PageKind) (i c off : Nat) : (s.err k i c off).follow = s.follow := (congrArg State.follow (err_frame s k i c off).eq :)
@[simp] theorem State.err_tsEdges (k : PageKind) (i c off : Nat) : (s.err k i c off).tsEdges = s.tsEdges := (congrArg State.tsEdges (err_frame s k i c off).eq :)
@[simp] theorem State.err_tsDirty (k : PageKind) (i c off : Nat) : (s.err k i c off).tsDirty = s.tsDirty := (congrArg State.tsDirty (err_frame s k i c off).eq :)
@[simp] theorem State.err_armed (k : PageKind) (i c off : Nat) : (s.err k i c off).armed = s.armed := (congrArg State.armed (err_frame s k i c off).eq :)
@[simp] theorem State.err_chans (k : PageKind) (i c off : Nat) : (s.err k i c off).chans = s.chans := (congrArg State.chans (err_frame s k i c off).eq :)
@[simp] theorem State.err_seqs (k : PageKind) (i c off : Nat) : (s.err k i c off).seqs = s.seqs := (congrArg State.seqs (err_frame s k i c off).eq :)
@[simp] theorem State.err_catBuf (k : PageKind) (i c off : Nat) : (s.err k i c off).catBuf = s.catBuf := (congrArg State.catBuf (err_frame s k i c off).eq :)
@[simp] theorem State.err_tims (k : PageKind) (i c off : Nat) : (s.err k i c off).tims = s.tims := (congrArg State.tims (err_frame s k i c off).eq :)
@[simp] theorem State.err_verniers (k : PageKind) (i c off : Nat) : (s.err k i c off).verniers = s.verniers := (congrArg State.verniers (err_frame s k i c off).eq :)
@[simp] theorem State.err_lastTrig (k : PageKind) (i c off : Nat) : (s.err k i c off).lastTrig = s.lastTrig := (congrArg State.lastTrig (err_frame s k i c off).eq :)
@[simp] theorem State.err_pmus (k : PageKind) (i c off : Nat) : (s.err k i c off).pmus = s.pmus := (congrArg State.pmus (err_frame s k i c off).eq :)
@[simp] theorem State.err_waves (k : PageKind) (i c off : Nat) : (s.err k i c off).waves = s.waves := (congrArg State.waves (err_frame s k i c off).eq :)
@[simp] theorem State.err_caps (k : PageKind) (i c off : Nat) : (s.err k i c off).caps = s.caps := (congrArg State.caps (err_frame s k i c off).eq :)
@[simp] theorem State.err_acqs (k : PageKind) (i c off : Nat) : (s.err k i c off).acqs = s.acqs := (congrArg State.acqs (err_frame s k i c off).eq :)
@[simp] theorem State.err_cnvs (k : PageKind) (i c off : Nat) : (s.err k i c off).cnvs = s.cnvs := (congrArg State.cnvs (err_frame s k i c off).eq :)
@[simp] theorem State.err_line (k : PageKind) (i c off : Nat) : (s.err k i c off).line = s.line := (congrArg State.line (err_frame s k i c off).eq :)
@[simp] theorem State.err_evHist (k : PageKind) (i c off : Nat) : (s.err k i c off).evHist = s.evHist := (congrArg State.evHist (err_frame s k i c off).eq :)
@[simp] theorem State.err_ticking (k : PageKind) (i c off : Nat) : (s.err k i c off).ticking = s.ticking := (congrArg State.ticking (err_frame s k i c off).eq :)
@[simp] theorem State.err_trips (k : PageKind) (i c off : Nat) : (s.err k i c off).trips = s.trips := (congrArg State.trips (err_frame s k i c off).eq :)
@[simp] theorem State.err_onsets (k : PageKind) (i c off : Nat) : (s.err k i c off).onsets = s.onsets := (congrArg State.onsets (err_frame s k i c off).eq :)
@[simp] theorem State.err_sampling (k : PageKind) (i c off : Nat) : (s.err k i c off).sampling = s.sampling := (congrArg State.sampling (err_frame s k i c off).eq :)
@[simp] theorem State.err_wchPend (k : PageKind) (i c off : Nat) : (s.err k i c off).wchPend = s.wchPend := (congrArg State.wchPend (err_frame s k i c off).eq :)
@[simp] theorem State.err_idxs (k : PageKind) (i c off : Nat) : (s.err k i c off).idxs = s.idxs := (congrArg State.idxs (err_frame s k i c off).eq :)
@[simp] theorem State.err_gth (k : PageKind) (i c off : Nat) : (s.err k i c off).gth = s.gth := (congrArg State.gth (err_frame s k i c off).eq :)
@[simp] theorem State.err_halter (k : PageKind) (i c off : Nat) : (s.err k i c off).halter = s.halter := (congrArg State.halter (err_frame s k i c off).eq :)
@[simp] theorem State.err_rst (k : PageKind) (i c off : Nat) : (s.err k i c off).rst = s.rst := (congrArg State.rst (err_frame s k i c off).eq :)
@[simp] theorem State.err_weather (k : PageKind) (i c off : Nat) : (s.err k i c off).weather = s.weather := (congrArg State.weather (err_frame s k i c off).eq :)
@[simp] theorem State.err_cpl (k : PageKind) (i c off : Nat) : (s.err k i c off).cpl = s.cpl := (congrArg State.cpl (err_frame s k i c off).eq :)
@[simp] theorem State.err_tap (k : PageKind) (i c off : Nat) : (s.err k i c off).tap = s.tap := (congrArg State.tap (err_frame s k i c off).eq :)
@[simp] theorem State.err_far (k : PageKind) (i c off : Nat) : (s.err k i c off).far = s.far := (congrArg State.far (err_frame s k i c off).eq :)
@[simp] theorem State.err_grooms (k : PageKind) (i c off : Nat) : (s.err k i c off).grooms = s.grooms := (congrArg State.grooms (err_frame s k i c off).eq :)
@[simp] theorem State.err_cluster (k : PageKind) (i c off : Nat) : (s.err k i c off).cluster = s.cluster := (congrArg State.cluster (err_frame s k i c off).eq :)
@[simp] theorem State.err_hbm (k : PageKind) (i c off : Nat) : (s.err k i c off).hbm = s.hbm := (congrArg State.hbm (err_frame s k i c off).eq :)
@[simp] theorem State.err_pending (k : PageKind) (i c off : Nat) : (s.err k i c off).pending = s.pending := (congrArg State.pending (err_frame s k i c off).eq :)

/-- An entry offered to the logbook changes the lantern alone. -/
theorem logOffer_frame (c ty i d : Nat) : s.logOffer c ty i d = { s with lan := (s.logOffer c ty i d).lan } := by
  unfold State.logOffer
  split <;> rfl

@[simp] theorem State.logOffer_now (c ty i d : Nat) : (s.logOffer c ty i d).now = s.now := (congrArg State.now (logOffer_frame s c ty i d) :)
@[simp] theorem State.logOffer_epoch (c ty i d : Nat) : (s.logOffer c ty i d).epoch = s.epoch := (congrArg State.epoch (logOffer_frame s c ty i d) :)
@[simp] theorem State.logOffer_epochLog (c ty i d : Nat) : (s.logOffer c ty i d).epochLog = s.epochLog := (congrArg State.epochLog (logOffer_frame s c ty i d) :)
@[simp] theorem State.logOffer_free (c ty i d : Nat) : (s.logOffer c ty i d).free = s.free := (congrArg State.free (logOffer_frame s c ty i d) :)
@[simp] theorem State.logOffer_regs (c ty i d : Nat) : (s.logOffer c ty i d).regs = s.regs := (congrArg State.regs (logOffer_frame s c ty i d) :)
@[simp] theorem State.logOffer_snaps (c ty i d : Nat) : (s.logOffer c ty i d).snaps = s.snaps := (congrArg State.snaps (logOffer_frame s c ty i d) :)
@[simp] theorem State.logOffer_stage (c ty i d : Nat) : (s.logOffer c ty i d).stage = s.stage := (congrArg State.stage (logOffer_frame s c ty i d) :)
@[simp] theorem State.logOffer_resp (c ty i d : Nat) : (s.logOffer c ty i d).resp = s.resp := (congrArg State.resp (logOffer_frame s c ty i d) :)
@[simp] theorem State.logOffer_sent (c ty i d : Nat) : (s.logOffer c ty i d).sent = s.sent := (congrArg State.sent (logOffer_frame s c ty i d) :)
@[simp] theorem State.logOffer_pins (c ty i d : Nat) : (s.logOffer c ty i d).pins = s.pins := (congrArg State.pins (logOffer_frame s c ty i d) :)
@[simp] theorem State.logOffer_mode (c ty i d : Nat) : (s.logOffer c ty i d).mode = s.mode := (congrArg State.mode (logOffer_frame s c ty i d) :)
@[simp] theorem State.logOffer_otp (c ty i d : Nat) : (s.logOffer c ty i d).otp = s.otp := (congrArg State.otp (logOffer_frame s c ty i d) :)
@[simp] theorem State.logOffer_flash (c ty i d : Nat) : (s.logOffer c ty i d).flash = s.flash := (congrArg State.flash (logOffer_frame s c ty i d) :)
@[simp] theorem State.logOffer_hay (c ty i d : Nat) : (s.logOffer c ty i d).hay = s.hay := (congrArg State.hay (logOffer_frame s c ty i d) :)
@[simp] theorem State.logOffer_keys (c ty i d : Nat) : (s.logOffer c ty i d).keys = s.keys := (congrArg State.keys (logOffer_frame s c ty i d) :)
@[simp] theorem State.logOffer_keyGen (c ty i d : Nat) : (s.logOffer c ty i d).keyGen = s.keyGen := (congrArg State.keyGen (logOffer_frame s c ty i d) :)
@[simp] theorem State.logOffer_regions (c ty i d : Nat) : (s.logOffer c ty i d).regions = s.regions := (congrArg State.regions (logOffer_frame s c ty i d) :)
@[simp] theorem State.logOffer_rings (c ty i d : Nat) : (s.logOffer c ty i d).rings = s.rings := (congrArg State.rings (logOffer_frame s c ty i d) :)
@[simp] theorem State.logOffer_fns (c ty i d : Nat) : (s.logOffer c ty i d).fns = s.fns := (congrArg State.fns (logOffer_frame s c ty i d) :)
@[simp] theorem State.logOffer_vmask (c ty i d : Nat) : (s.logOffer c ty i d).vmask = s.vmask := (congrArg State.vmask (logOffer_frame s c ty i d) :)
@[simp] theorem State.logOffer_msix (c ty i d : Nat) : (s.logOffer c ty i d).msix = s.msix := (congrArg State.msix (logOffer_frame s c ty i d) :)
@[simp] theorem State.logOffer_pba (c ty i d : Nat) : (s.logOffer c ty i d).pba = s.pba := (congrArg State.pba (logOffer_frame s c ty i d) :)
@[simp] theorem State.logOffer_stalls (c ty i d : Nat) : (s.logOffer c ty i d).stalls = s.stalls := (congrArg State.stalls (logOffer_frame s c ty i d) :)
@[simp] theorem State.logOffer_follow (c ty i d : Nat) : (s.logOffer c ty i d).follow = s.follow := (congrArg State.follow (logOffer_frame s c ty i d) :)
@[simp] theorem State.logOffer_tsEdges (c ty i d : Nat) : (s.logOffer c ty i d).tsEdges = s.tsEdges := (congrArg State.tsEdges (logOffer_frame s c ty i d) :)
@[simp] theorem State.logOffer_tsDirty (c ty i d : Nat) : (s.logOffer c ty i d).tsDirty = s.tsDirty := (congrArg State.tsDirty (logOffer_frame s c ty i d) :)
@[simp] theorem State.logOffer_armed (c ty i d : Nat) : (s.logOffer c ty i d).armed = s.armed := (congrArg State.armed (logOffer_frame s c ty i d) :)
@[simp] theorem State.logOffer_chans (c ty i d : Nat) : (s.logOffer c ty i d).chans = s.chans := (congrArg State.chans (logOffer_frame s c ty i d) :)
@[simp] theorem State.logOffer_seqs (c ty i d : Nat) : (s.logOffer c ty i d).seqs = s.seqs := (congrArg State.seqs (logOffer_frame s c ty i d) :)
@[simp] theorem State.logOffer_catBuf (c ty i d : Nat) : (s.logOffer c ty i d).catBuf = s.catBuf := (congrArg State.catBuf (logOffer_frame s c ty i d) :)
@[simp] theorem State.logOffer_tims (c ty i d : Nat) : (s.logOffer c ty i d).tims = s.tims := (congrArg State.tims (logOffer_frame s c ty i d) :)
@[simp] theorem State.logOffer_verniers (c ty i d : Nat) : (s.logOffer c ty i d).verniers = s.verniers := (congrArg State.verniers (logOffer_frame s c ty i d) :)
@[simp] theorem State.logOffer_lastTrig (c ty i d : Nat) : (s.logOffer c ty i d).lastTrig = s.lastTrig := (congrArg State.lastTrig (logOffer_frame s c ty i d) :)
@[simp] theorem State.logOffer_pmus (c ty i d : Nat) : (s.logOffer c ty i d).pmus = s.pmus := (congrArg State.pmus (logOffer_frame s c ty i d) :)
@[simp] theorem State.logOffer_waves (c ty i d : Nat) : (s.logOffer c ty i d).waves = s.waves := (congrArg State.waves (logOffer_frame s c ty i d) :)
@[simp] theorem State.logOffer_caps (c ty i d : Nat) : (s.logOffer c ty i d).caps = s.caps := (congrArg State.caps (logOffer_frame s c ty i d) :)
@[simp] theorem State.logOffer_acqs (c ty i d : Nat) : (s.logOffer c ty i d).acqs = s.acqs := (congrArg State.acqs (logOffer_frame s c ty i d) :)
@[simp] theorem State.logOffer_cnvs (c ty i d : Nat) : (s.logOffer c ty i d).cnvs = s.cnvs := (congrArg State.cnvs (logOffer_frame s c ty i d) :)
@[simp] theorem State.logOffer_line (c ty i d : Nat) : (s.logOffer c ty i d).line = s.line := (congrArg State.line (logOffer_frame s c ty i d) :)
@[simp] theorem State.logOffer_evHist (c ty i d : Nat) : (s.logOffer c ty i d).evHist = s.evHist := (congrArg State.evHist (logOffer_frame s c ty i d) :)
@[simp] theorem State.logOffer_ticking (c ty i d : Nat) : (s.logOffer c ty i d).ticking = s.ticking := (congrArg State.ticking (logOffer_frame s c ty i d) :)
@[simp] theorem State.logOffer_trips (c ty i d : Nat) : (s.logOffer c ty i d).trips = s.trips := (congrArg State.trips (logOffer_frame s c ty i d) :)
@[simp] theorem State.logOffer_onsets (c ty i d : Nat) : (s.logOffer c ty i d).onsets = s.onsets := (congrArg State.onsets (logOffer_frame s c ty i d) :)
@[simp] theorem State.logOffer_sampling (c ty i d : Nat) : (s.logOffer c ty i d).sampling = s.sampling := (congrArg State.sampling (logOffer_frame s c ty i d) :)
@[simp] theorem State.logOffer_wchPend (c ty i d : Nat) : (s.logOffer c ty i d).wchPend = s.wchPend := (congrArg State.wchPend (logOffer_frame s c ty i d) :)
@[simp] theorem State.logOffer_idxs (c ty i d : Nat) : (s.logOffer c ty i d).idxs = s.idxs := (congrArg State.idxs (logOffer_frame s c ty i d) :)
@[simp] theorem State.logOffer_gth (c ty i d : Nat) : (s.logOffer c ty i d).gth = s.gth := (congrArg State.gth (logOffer_frame s c ty i d) :)
@[simp] theorem State.logOffer_halter (c ty i d : Nat) : (s.logOffer c ty i d).halter = s.halter := (congrArg State.halter (logOffer_frame s c ty i d) :)
@[simp] theorem State.logOffer_rst (c ty i d : Nat) : (s.logOffer c ty i d).rst = s.rst := (congrArg State.rst (logOffer_frame s c ty i d) :)
@[simp] theorem State.logOffer_weather (c ty i d : Nat) : (s.logOffer c ty i d).weather = s.weather := (congrArg State.weather (logOffer_frame s c ty i d) :)
@[simp] theorem State.logOffer_cpl (c ty i d : Nat) : (s.logOffer c ty i d).cpl = s.cpl := (congrArg State.cpl (logOffer_frame s c ty i d) :)
@[simp] theorem State.logOffer_tap (c ty i d : Nat) : (s.logOffer c ty i d).tap = s.tap := (congrArg State.tap (logOffer_frame s c ty i d) :)
@[simp] theorem State.logOffer_far (c ty i d : Nat) : (s.logOffer c ty i d).far = s.far := (congrArg State.far (logOffer_frame s c ty i d) :)
@[simp] theorem State.logOffer_grooms (c ty i d : Nat) : (s.logOffer c ty i d).grooms = s.grooms := (congrArg State.grooms (logOffer_frame s c ty i d) :)
@[simp] theorem State.logOffer_cluster (c ty i d : Nat) : (s.logOffer c ty i d).cluster = s.cluster := (congrArg State.cluster (logOffer_frame s c ty i d) :)
@[simp] theorem State.logOffer_hbm (c ty i d : Nat) : (s.logOffer c ty i d).hbm = s.hbm := (congrArg State.hbm (logOffer_frame s c ty i d) :)
@[simp] theorem State.logOffer_pending (c ty i d : Nat) : (s.logOffer c ty i d).pending = s.pending := (congrArg State.pending (logOffer_frame s c ty i d) :)

end Sys2Proof.Machine
end

