-- ==== Sys2Proof/Laws/Flash.lean ====
section
/-!
SUPPORT. Laws of the flash: what a write of bytes and an erase leave at every address, and the canonical form under every
operation on it.
-/

namespace Sys2Proof.Machine

/-- An address outside the bytes written reads as before. -/
theorem getD_flashPut_outside (m : List (Nat × Byte)) (a x : Nat) (bs : List Byte) (h : x < a ∨ a + bs.length ≤ x) :
    Store.getD flashErased (flashPut m a bs) x = Store.getD flashErased m x := by
  induction bs generalizing m a with
  | nil => rfl
  | cons b t ih =>
    have hx : x ≠ a := by simp at h; omega
    have ht : x < a + 1 ∨ a + 1 + t.length ≤ x := by simp at h; omega
    rw [flashPut, ih _ _ ht, Store.getD_setD_ne _ _ _ hx]

/-- Every byte written reads back. -/
theorem getD_flashPut_inside (m : List (Nat × Byte)) (a i : Nat) (bs : List Byte) (h : i < bs.length) :
    Store.getD flashErased (flashPut m a bs) (a + i) = bs[i] := by
  induction bs generalizing m a i with
  | nil => simp at h
  | cons b t ih =>
    cases i with
    | zero => rw [flashPut, getD_flashPut_outside _ _ _ _ (by omega)]; simp
    | succ i =>
      have := ih (Store.setD flashErased m a b) (a + 1) i (by simpa using h)
      rw [flashPut, show a + (i + 1) = a + 1 + i by omega, this]
      rfl

/-- An erase leaves every byte of its sectors erased and every other byte as it was. -/
theorem getD_flashErase (m : List (Nat × Byte)) (a n x : Nat) :
    Store.getD flashErased (flashErase m a n) x =
      if x < a / 4096 * 4096 ∨ (a + n + 4095) / 4096 * 4096 ≤ x then Store.getD flashErased m x else 0xFF := by
  simp [flashErase, Store.getD_keep, flashErased]

/-! ### Bytes read together -/

@[simp] theorem length_flashBytes (s : State) (a n : Nat) : (s.flashBytes a n).length = n := by simp [State.flashBytes, upto]

/-- Byte `i` of a read with 24 address bits. -/
theorem getElem_flashBytes {s : State} {a n i : Nat} (h4 : natBit s.otp.bootCfg 8 = false) (ha : a < 2 ^ 24)
    (h : i < (s.flashBytes a n).length) : (s.flashBytes a n)[i] = Store.getD flashErased s.flash (a + i) := by
  simp only [State.flashBytes, h4, upto, List.getElem_map, List.getElem_range, State.flashByte, Bool.false_eq_true, if_false]
  rw [Nat.mod_eq_of_lt ha]

/-- A read gives the bytes that stand there. -/
theorem flashBytes_eq {s : State} {a : Nat} {bs : List Byte} (h4 : natBit s.otp.bootCfg 8 = false) (ha : a < 2 ^ 24)
    (h : ∀ i (hi : i < bs.length), Store.getD flashErased s.flash (a + i) = bs[i]) : s.flashBytes a bs.length = bs :=
  List.ext_getElem (length_flashBytes ..) fun i h1 h2 => (getElem_flashBytes h4 ha h1).trans (h i h2)

/-- A shorter read within a read gives that part of its bytes. -/
theorem flashBytes_part {s : State} {a n : Nat} {bs : List Byte} (h4 : natBit s.otp.bootCfg 8 = false) (ha : a + n < 2 ^ 24)
    (h : s.flashBytes a n = bs) (j m : Nat) (hj : j + m ≤ n) : s.flashBytes (a + j) m = (bs.drop j).take m := by
  subst h
  apply List.ext_getElem
  · simp only [length_flashBytes, List.length_take, List.length_drop]
    omega
  · intro i h1 h2
    rw [getElem_flashBytes h4 (by omega) h1, List.getElem_take, List.getElem_drop, getElem_flashBytes h4 (by omega), Nat.add_assoc]

/-! ### The canonical form -/

/-- The flash lists its bytes at rising addresses, with no erased byte. -/
def State.flashWf (s : State) : Prop := Store.wf flashErased s.flash = true

theorem flashWf_reset : State.reset.flashWf := rfl

theorem wf_flashPut {m : List (Nat × Byte)} (a : Nat) (bs : List Byte) (h : Store.wf flashErased m = true) :
    Store.wf flashErased (flashPut m a bs) = true := by
  induction bs generalizing m a with
  | nil => exact h
  | cons b t ih => exact ih (a + 1) (Store.wf_setD _ a b h)

theorem wf_flashErase {m : List (Nat × Byte)} (a n : Nat) (h : Store.wf flashErased m = true) :
    Store.wf flashErased (flashErase m a n) = true := Store.wf_keep _ _ h

theorem wf_flashFill {m : List (Nat × Byte)} (l : List (Nat × List Byte)) (h : Store.wf flashErased m = true) :
    Store.wf flashErased (flashFill m l) = true :=
  foldl_keeps (fun x => Store.wf flashErased x = true) (fun _ p hx => wf_flashPut p.1 p.2 hx) l h

theorem flashWf_storeWrite {s : State} (h : s.flashWf) : s.storeWrite.flashWf := by
  unfold State.flashWf State.storeWrite
  dsimp only
  exact wf_flashPut _ _ (wf_flashErase _ _ h)

theorem flashWf_storeSpoil {s : State} (h : s.flashWf) : s.storeSpoil.flashWf := by
  unfold State.flashWf State.storeSpoil
  split
  · exact h
  · dsimp only
    exact wf_flashPut _ _ h

theorem flashWf_storeCut {s : State} (h : s.flashWf) : s.storeCut.flashWf := by
  unfold State.storeCut
  split
  · exact flashWf_storeSpoil h
  · exact h

end Sys2Proof.Machine
end

