-- ==== Sys2Proof/Laws/State.lean ====
section
/-!
SUPPORT. Every named update of one field of the state leaves each other field as it was.
-/

namespace Sys2Proof.Machine

variable (s : State)

/-! `setReg` -/

@[simp] theorem State.setReg_now (a : Nat) (v : Word) : (s.setReg a v).now = s.now := rfl
@[simp] theorem State.setReg_epoch (a : Nat) (v : Word) : (s.setReg a v).epoch = s.epoch := rfl
@[simp] theorem State.setReg_epochLog (a : Nat) (v : Word) : (s.setReg a v).epochLog = s.epochLog := rfl
@[simp] theorem State.setReg_free (a : Nat) (v : Word) : (s.setReg a v).free = s.free := rfl
@[simp] theorem State.setReg_snaps (a : Nat) (v : Word) : (s.setReg a v).snaps = s.snaps := rfl
@[simp] theorem State.setReg_stage (a : Nat) (v : Word) : (s.setReg a v).stage = s.stage := rfl
@[simp] theorem State.setReg_resp (a : Nat) (v : Word) : (s.setReg a v).resp = s.resp := rfl
@[simp] theorem State.setReg_sent (a : Nat) (v : Word) : (s.setReg a v).sent = s.sent := rfl
@[simp] theorem State.setReg_pins (a : Nat) (v : Word) : (s.setReg a v).pins = s.pins := rfl
@[simp] theorem State.setReg_mode (a : Nat) (v : Word) : (s.setReg a v).mode = s.mode := rfl
@[simp] theorem State.setReg_lan (a : Nat) (v : Word) : (s.setReg a v).lan = s.lan := rfl
@[simp] theorem State.setReg_otp (a : Nat) (v : Word) : (s.setReg a v).otp = s.otp := rfl
@[simp] theorem State.setReg_flash (a : Nat) (v : Word) : (s.setReg a v).flash = s.flash := rfl
@[simp] theorem State.setReg_hay (a : Nat) (v : Word) : (s.setReg a v).hay = s.hay := rfl
@[simp] theorem State.setReg_keys (a : Nat) (v : Word) : (s.setReg a v).keys = s.keys := rfl
@[simp] theorem State.setReg_keyGen (a : Nat) (v : Word) : (s.setReg a v).keyGen = s.keyGen := rfl
@[simp] theorem State.setReg_regions (a : Nat) (v : Word) : (s.setReg a v).regions = s.regions := rfl
@[simp] theorem State.setReg_rings (a : Nat) (v : Word) : (s.setReg a v).rings = s.rings := rfl
@[simp] theorem State.setReg_fns (a : Nat) (v : Word) : (s.setReg a v).fns = s.fns := rfl
@[simp] theorem State.setReg_vmask (a : Nat) (v : Word) : (s.setReg a v).vmask = s.vmask := rfl
@[simp] theorem State.setReg_msix (a : Nat) (v : Word) : (s.setReg a v).msix = s.msix := rfl
@[simp] theorem State.setReg_pba (a : Nat) (v : Word) : (s.setReg a v).pba = s.pba := rfl
@[simp] theorem State.setReg_stalls (a : Nat) (v : Word) : (s.setReg a v).stalls = s.stalls := rfl
@[simp] theorem State.setReg_follow (a : Nat) (v : Word) : (s.setReg a v).follow = s.follow := rfl
@[simp] theorem State.setReg_tsEdges (a : Nat) (v : Word) : (s.setReg a v).tsEdges = s.tsEdges := rfl
@[simp] theorem State.setReg_tsDirty (a : Nat) (v : Word) : (s.setReg a v).tsDirty = s.tsDirty := rfl
@[simp] theorem State.setReg_armed (a : Nat) (v : Word) : (s.setReg a v).armed = s.armed := rfl
@[simp] theorem State.setReg_chans (a : Nat) (v : Word) : (s.setReg a v).chans = s.chans := rfl
@[simp] theorem State.setReg_seqs (a : Nat) (v : Word) : (s.setReg a v).seqs = s.seqs := rfl
@[simp] theorem State.setReg_catBuf (a : Nat) (v : Word) : (s.setReg a v).catBuf = s.catBuf := rfl
@[simp] theorem State.setReg_tims (a : Nat) (v : Word) : (s.setReg a v).tims = s.tims := rfl
@[simp] theorem State.setReg_verniers (a : Nat) (v : Word) : (s.setReg a v).verniers = s.verniers := rfl
@[simp] theorem State.setReg_lastTrig (a : Nat) (v : Word) : (s.setReg a v).lastTrig = s.lastTrig := rfl
@[simp] theorem State.setReg_pmus (a : Nat) (v : Word) : (s.setReg a v).pmus = s.pmus := rfl
@[simp] theorem State.setReg_waves (a : Nat) (v : Word) : (s.setReg a v).waves = s.waves := rfl
@[simp] theorem State.setReg_caps (a : Nat) (v : Word) : (s.setReg a v).caps = s.caps := rfl
@[simp] theorem State.setReg_acqs (a : Nat) (v : Word) : (s.setReg a v).acqs = s.acqs := rfl
@[simp] theorem State.setReg_cnvs (a : Nat) (v : Word) : (s.setReg a v).cnvs = s.cnvs := rfl
@[simp] theorem State.setReg_line (a : Nat) (v : Word) : (s.setReg a v).line = s.line := rfl
@[simp] theorem State.setReg_evHist (a : Nat) (v : Word) : (s.setReg a v).evHist = s.evHist := rfl
@[simp] theorem State.setReg_ticking (a : Nat) (v : Word) : (s.setReg a v).ticking = s.ticking := rfl
@[simp] theorem State.setReg_trips (a : Nat) (v : Word) : (s.setReg a v).trips = s.trips := rfl
@[simp] theorem State.setReg_onsets (a : Nat) (v : Word) : (s.setReg a v).onsets = s.onsets := rfl
@[simp] theorem State.setReg_sampling (a : Nat) (v : Word) : (s.setReg a v).sampling = s.sampling := rfl
@[simp] theorem State.setReg_wchPend (a : Nat) (v : Word) : (s.setReg a v).wchPend = s.wchPend := rfl
@[simp] theorem State.setReg_idxs (a : Nat) (v : Word) : (s.setReg a v).idxs = s.idxs := rfl
@[simp] theorem State.setReg_gth (a : Nat) (v : Word) : (s.setReg a v).gth = s.gth := rfl
@[simp] theorem State.setReg_halter (a : Nat) (v : Word) : (s.setReg a v).halter = s.halter := rfl
@[simp] theorem State.setReg_rst (a : Nat) (v : Word) : (s.setReg a v).rst = s.rst := rfl
@[simp] theorem State.setReg_weather (a : Nat) (v : Word) : (s.setReg a v).weather = s.weather := rfl
@[simp] theorem State.setReg_cpl (a : Nat) (v : Word) : (s.setReg a v).cpl = s.cpl := rfl
@[simp] theorem State.setReg_tap (a : Nat) (v : Word) : (s.setReg a v).tap = s.tap := rfl
@[simp] theorem State.setReg_far (a : Nat) (v : Word) : (s.setReg a v).far = s.far := rfl
@[simp] theorem State.setReg_grooms (a : Nat) (v : Word) : (s.setReg a v).grooms = s.grooms := rfl
@[simp] theorem State.setReg_cluster (a : Nat) (v : Word) : (s.setReg a v).cluster = s.cluster := rfl
@[simp] theorem State.setReg_hbm (a : Nat) (v : Word) : (s.setReg a v).hbm = s.hbm := rfl
@[simp] theorem State.setReg_pending (a : Nat) (v : Word) : (s.setReg a v).pending = s.pending := rfl

/-! `wr` -/

@[simp] theorem State.wr_now (k : PageKind) (i o : Nat) (v : Word) : (s.wr k i o v).now = s.now := rfl
@[simp] theorem State.wr_epoch (k : PageKind) (i o : Nat) (v : Word) : (s.wr k i o v).epoch = s.epoch := rfl
@[simp] theorem State.wr_epochLog (k : PageKind) (i o : Nat) (v : Word) : (s.wr k i o v).epochLog = s.epochLog := rfl
@[simp] theorem State.wr_free (k : PageKind) (i o : Nat) (v : Word) : (s.wr k i o v).free = s.free := rfl
@[simp] theorem State.wr_snaps (k : PageKind) (i o : Nat) (v : Word) : (s.wr k i o v).snaps = s.snaps := rfl
@[simp] theorem State.wr_stage (k : PageKind) (i o : Nat) (v : Word) : (s.wr k i o v).stage = s.stage := rfl
@[simp] theorem State.wr_resp (k : PageKind) (i o : Nat) (v : Word) : (s.wr k i o v).resp = s.resp := rfl
@[simp] theorem State.wr_sent (k : PageKind) (i o : Nat) (v : Word) : (s.wr k i o v).sent = s.sent := rfl
@[simp] theorem State.wr_pins (k : PageKind) (i o : Nat) (v : Word) : (s.wr k i o v).pins = s.pins := rfl
@[simp] theorem State.wr_mode (k : PageKind) (i o : Nat) (v : Word) : (s.wr k i o v).mode = s.mode := rfl
@[simp] theorem State.wr_lan (k : PageKind) (i o : Nat) (v : Word) : (s.wr k i o v).lan = s.lan := rfl
@[simp] theorem State.wr_otp (k : PageKind) (i o : Nat) (v : Word) : (s.wr k i o v).otp = s.otp := rfl
@[simp] theorem State.wr_flash (k : PageKind) (i o : Nat) (v : Word) : (s.wr k i o v).flash = s.flash := rfl
@[simp] theorem State.wr_hay (k : PageKind) (i o : Nat) (v : Word) : (s.wr k i o v).hay = s.hay := rfl
@[simp] theorem State.wr_keys (k : PageKind) (i o : Nat) (v : Word) : (s.wr k i o v).keys = s.keys := rfl
@[simp] theorem State.wr_keyGen (k : PageKind) (i o : Nat) (v : Word) : (s.wr k i o v).keyGen = s.keyGen := rfl
@[simp] theorem State.wr_regions (k : PageKind) (i o : Nat) (v : Word) : (s.wr k i o v).regions = s.regions := rfl
@[simp] theorem State.wr_rings (k : PageKind) (i o : Nat) (v : Word) : (s.wr k i o v).rings = s.rings := rfl
@[simp] theorem State.wr_fns (k : PageKind) (i o : Nat) (v : Word) : (s.wr k i o v).fns = s.fns := rfl
@[simp] theorem State.wr_vmask (k : PageKind) (i o : Nat) (v : Word) : (s.wr k i o v).vmask = s.vmask := rfl
@[simp] theorem State.wr_msix (k : PageKind) (i o : Nat) (v : Word) : (s.wr k i o v).msix = s.msix := rfl
@[simp] theorem State.wr_pba (k : PageKind) (i o : Nat) (v : Word) : (s.wr k i o v).pba = s.pba := rfl
@[simp] theorem State.wr_stalls (k : PageKind) (i o : Nat) (v : Word) : (s.wr k i o v).stalls = s.stalls := rfl
@[simp] theorem State.wr_follow (k : PageKind) (i o : Nat) (v : Word) : (s.wr k i o v).follow = s.follow := rfl
@[simp] theorem State.wr_tsEdges (k : PageKind) (i o : Nat) (v : Word) : (s.wr k i o v).tsEdges = s.tsEdges := rfl
@[simp] theorem State.wr_tsDirty (k : PageKind) (i o : Nat) (v : Word) : (s.wr k i o v).tsDirty = s.tsDirty := rfl
@[simp] theorem State.wr_armed (k : PageKind) (i o : Nat) (v : Word) : (s.wr k i o v).armed = s.armed := rfl
@[simp] theorem State.wr_chans (k : PageKind) (i o : Nat) (v : Word) : (s.wr k i o v).chans = s.chans := rfl
@[simp] theorem State.wr_seqs (k : PageKind) (i o : Nat) (v : Word) : (s.wr k i o v).seqs = s.seqs := rfl
@[simp] theorem State.wr_catBuf (k : PageKind) (i o : Nat) (v : Word) : (s.wr k i o v).catBuf = s.catBuf := rfl
@[simp] theorem State.wr_tims (k : PageKind) (i o : Nat) (v : Word) : (s.wr k i o v).tims = s.tims := rfl
@[simp] theorem State.wr_verniers (k : PageKind) (i o : Nat) (v : Word) : (s.wr k i o v).verniers = s.verniers := rfl
@[simp] theorem State.wr_lastTrig (k : PageKind) (i o : Nat) (v : Word) : (s.wr k i o v).lastTrig = s.lastTrig := rfl
@[simp] theorem State.wr_pmus (k : PageKind) (i o : Nat) (v : Word) : (s.wr k i o v).pmus = s.pmus := rfl
@[simp] theorem State.wr_waves (k : PageKind) (i o : Nat) (v : Word) : (s.wr k i o v).waves = s.waves := rfl
@[simp] theorem State.wr_caps (k : PageKind) (i o : Nat) (v : Word) : (s.wr k i o v).caps = s.caps := rfl
@[simp] theorem State.wr_acqs (k : PageKind) (i o : Nat) (v : Word) : (s.wr k i o v).acqs = s.acqs := rfl
@[simp] theorem State.wr_cnvs (k : PageKind) (i o : Nat) (v : Word) : (s.wr k i o v).cnvs = s.cnvs := rfl
@[simp] theorem State.wr_line (k : PageKind) (i o : Nat) (v : Word) : (s.wr k i o v).line = s.line := rfl
@[simp] theorem State.wr_evHist (k : PageKind) (i o : Nat) (v : Word) : (s.wr k i o v).evHist = s.evHist := rfl
@[simp] theorem State.wr_ticking (k : PageKind) (i o : Nat) (v : Word) : (s.wr k i o v).ticking = s.ticking := rfl
@[simp] theorem State.wr_trips (k : PageKind) (i o : Nat) (v : Word) : (s.wr k i o v).trips = s.trips := rfl
@[simp] theorem State.wr_onsets (k : PageKind) (i o : Nat) (v : Word) : (s.wr k i o v).onsets = s.onsets := rfl
@[simp] theorem State.wr_sampling (k : PageKind) (i o : Nat) (v : Word) : (s.wr k i o v).sampling = s.sampling := rfl
@[simp] theorem State.wr_wchPend (k : PageKind) (i o : Nat) (v : Word) : (s.wr k i o v).wchPend = s.wchPend := rfl
@[simp] theorem State.wr_idxs (k : PageKind) (i o : Nat) (v : Word) : (s.wr k i o v).idxs = s.idxs := rfl
@[simp] theorem State.wr_gth (k : PageKind) (i o : Nat) (v : Word) : (s.wr k i o v).gth = s.gth := rfl
@[simp] theorem State.wr_halter (k : PageKind) (i o : Nat) (v : Word) : (s.wr k i o v).halter = s.halter := rfl
@[simp] theorem State.wr_rst (k : PageKind) (i o : Nat) (v : Word) : (s.wr k i o v).rst = s.rst := rfl
@[simp] theorem State.wr_weather (k : PageKind) (i o : Nat) (v : Word) : (s.wr k i o v).weather = s.weather := rfl
@[simp] theorem State.wr_cpl (k : PageKind) (i o : Nat) (v : Word) : (s.wr k i o v).cpl = s.cpl := rfl
@[simp] theorem State.wr_tap (k : PageKind) (i o : Nat) (v : Word) : (s.wr k i o v).tap = s.tap := rfl
@[simp] theorem State.wr_far (k : PageKind) (i o : Nat) (v : Word) : (s.wr k i o v).far = s.far := rfl
@[simp] theorem State.wr_grooms (k : PageKind) (i o : Nat) (v : Word) : (s.wr k i o v).grooms = s.grooms := rfl
@[simp] theorem State.wr_cluster (k : PageKind) (i o : Nat) (v : Word) : (s.wr k i o v).cluster = s.cluster := rfl
@[simp] theorem State.wr_hbm (k : PageKind) (i o : Nat) (v : Word) : (s.wr k i o v).hbm = s.hbm := rfl
@[simp] theorem State.wr_pending (k : PageKind) (i o : Nat) (v : Word) : (s.wr k i o v).pending = s.pending := rfl

/-! `wf` -/

@[simp] theorem State.wf_now (k : PageKind) (i o lo n v : Nat) : (s.wf k i o lo n v).now = s.now := rfl
@[simp] theorem State.wf_epoch (k : PageKind) (i o lo n v : Nat) : (s.wf k i o lo n v).epoch = s.epoch := rfl
@[simp] theorem State.wf_epochLog (k : PageKind) (i o lo n v : Nat) : (s.wf k i o lo n v).epochLog = s.epochLog := rfl
@[simp] theorem State.wf_free (k : PageKind) (i o lo n v : Nat) : (s.wf k i o lo n v).free = s.free := rfl
@[simp] theorem State.wf_snaps (k : PageKind) (i o lo n v : Nat) : (s.wf k i o lo n v).snaps = s.snaps := rfl
@[simp] theorem State.wf_stage (k : PageKind) (i o lo n v : Nat) : (s.wf k i o lo n v).stage = s.stage := rfl
@[simp] theorem State.wf_resp (k : PageKind) (i o lo n v : Nat) : (s.wf k i o lo n v).resp = s.resp := rfl
@[simp] theorem State.wf_sent (k : PageKind) (i o lo n v : Nat) : (s.wf k i o lo n v).sent = s.sent := rfl
@[simp] theorem State.wf_pins (k : PageKind) (i o lo n v : Nat) : (s.wf k i o lo n v).pins = s.pins := rfl
@[simp] theorem State.wf_mode (k : PageKind) (i o lo n v : Nat) : (s.wf k i o lo n v).mode = s.mode := rfl
@[simp] theorem State.wf_lan (k : PageKind) (i o lo n v : Nat) : (s.wf k i o lo n v).lan = s.lan := rfl
@[simp] theorem State.wf_otp (k : PageKind) (i o lo n v : Nat) : (s.wf k i o lo n v).otp = s.otp := rfl
@[simp] theorem State.wf_flash (k : PageKind) (i o lo n v : Nat) : (s.wf k i o lo n v).flash = s.flash := rfl
@[simp] theorem State.wf_hay (k : PageKind) (i o lo n v : Nat) : (s.wf k i o lo n v).hay = s.hay := rfl
@[simp] theorem State.wf_keys (k : PageKind) (i o lo n v : Nat) : (s.wf k i o lo n v).keys = s.keys := rfl
@[simp] theorem State.wf_keyGen (k : PageKind) (i o lo n v : Nat) : (s.wf k i o lo n v).keyGen = s.keyGen := rfl
@[simp] theorem State.wf_regions (k : PageKind) (i o lo n v : Nat) : (s.wf k i o lo n v).regions = s.regions := rfl
@[simp] theorem State.wf_rings (k : PageKind) (i o lo n v : Nat) : (s.wf k i o lo n v).rings = s.rings := rfl
@[simp] theorem State.wf_fns (k : PageKind) (i o lo n v : Nat) : (s.wf k i o lo n v).fns = s.fns := rfl
@[simp] theorem State.wf_vmask (k : PageKind) (i o lo n v : Nat) : (s.wf k i o lo n v).vmask = s.vmask := rfl
@[simp] theorem State.wf_msix (k : PageKind) (i o lo n v : Nat) : (s.wf k i o lo n v).msix = s.msix := rfl
@[simp] theorem State.wf_pba (k : PageKind) (i o lo n v : Nat) : (s.wf k i o lo n v).pba = s.pba := rfl
@[simp] theorem State.wf_stalls (k : PageKind) (i o lo n v : Nat) : (s.wf k i o lo n v).stalls = s.stalls := rfl
@[simp] theorem State.wf_follow (k : PageKind) (i o lo n v : Nat) : (s.wf k i o lo n v).follow = s.follow := rfl
@[simp] theorem State.wf_tsEdges (k : PageKind) (i o lo n v : Nat) : (s.wf k i o lo n v).tsEdges = s.tsEdges := rfl
@[simp] theorem State.wf_tsDirty (k : PageKind) (i o lo n v : Nat) : (s.wf k i o lo n v).tsDirty = s.tsDirty := rfl
@[simp] theorem State.wf_armed (k : PageKind) (i o lo n v : Nat) : (s.wf k i o lo n v).armed = s.armed := rfl
@[simp] theorem State.wf_chans (k : PageKind) (i o lo n v : Nat) : (s.wf k i o lo n v).chans = s.chans := rfl
@[simp] theorem State.wf_seqs (k : PageKind) (i o lo n v : Nat) : (s.wf k i o lo n v).seqs = s.seqs := rfl
@[simp] theorem State.wf_catBuf (k : PageKind) (i o lo n v : Nat) : (s.wf k i o lo n v).catBuf = s.catBuf := rfl
@[simp] theorem State.wf_tims (k : PageKind) (i o lo n v : Nat) : (s.wf k i o lo n v).tims = s.tims := rfl
@[simp] theorem State.wf_verniers (k : PageKind) (i o lo n v : Nat) : (s.wf k i o lo n v).verniers = s.verniers := rfl
@[simp] theorem State.wf_lastTrig (k : PageKind) (i o lo n v : Nat) : (s.wf k i o lo n v).lastTrig = s.lastTrig := rfl
@[simp] theorem State.wf_pmus (k : PageKind) (i o lo n v : Nat) : (s.wf k i o lo n v).pmus = s.pmus := rfl
@[simp] theorem State.wf_waves (k : PageKind) (i o lo n v : Nat) : (s.wf k i o lo n v).waves = s.waves := rfl
@[simp] theorem State.wf_caps (k : PageKind) (i o lo n v : Nat) : (s.wf k i o lo n v).caps = s.caps := rfl
@[simp] theorem State.wf_acqs (k : PageKind) (i o lo n v : Nat) : (s.wf k i o lo n v).acqs = s.acqs := rfl
@[simp] theorem State.wf_cnvs (k : PageKind) (i o lo n v : Nat) : (s.wf k i o lo n v).cnvs = s.cnvs := rfl
@[simp] theorem State.wf_line (k : PageKind) (i o lo n v : Nat) : (s.wf k i o lo n v).line = s.line := rfl
@[simp] theorem State.wf_evHist (k : PageKind) (i o lo n v : Nat) : (s.wf k i o lo n v).evHist = s.evHist := rfl
@[simp] theorem State.wf_ticking (k : PageKind) (i o lo n v : Nat) : (s.wf k i o lo n v).ticking = s.ticking := rfl
@[simp] theorem State.wf_trips (k : PageKind) (i o lo n v : Nat) : (s.wf k i o lo n v).trips = s.trips := rfl
@[simp] theorem State.wf_onsets (k : PageKind) (i o lo n v : Nat) : (s.wf k i o lo n v).onsets = s.onsets := rfl
@[simp] theorem State.wf_sampling (k : PageKind) (i o lo n v : Nat) : (s.wf k i o lo n v).sampling = s.sampling := rfl
@[simp] theorem State.wf_wchPend (k : PageKind) (i o lo n v : Nat) : (s.wf k i o lo n v).wchPend = s.wchPend := rfl
@[simp] theorem State.wf_idxs (k : PageKind) (i o lo n v : Nat) : (s.wf k i o lo n v).idxs = s.idxs := rfl
@[simp] theorem State.wf_gth (k : PageKind) (i o lo n v : Nat) : (s.wf k i o lo n v).gth = s.gth := rfl
@[simp] theorem State.wf_halter (k : PageKind) (i o lo n v : Nat) : (s.wf k i o lo n v).halter = s.halter := rfl
@[simp] theorem State.wf_rst (k : PageKind) (i o lo n v : Nat) : (s.wf k i o lo n v).rst = s.rst := rfl
@[simp] theorem State.wf_weather (k : PageKind) (i o lo n v : Nat) : (s.wf k i o lo n v).weather = s.weather := rfl
@[simp] theorem State.wf_cpl (k : PageKind) (i o lo n v : Nat) : (s.wf k i o lo n v).cpl = s.cpl := rfl
@[simp] theorem State.wf_tap (k : PageKind) (i o lo n v : Nat) : (s.wf k i o lo n v).tap = s.tap := rfl
@[simp] theorem State.wf_far (k : PageKind) (i o lo n v : Nat) : (s.wf k i o lo n v).far = s.far := rfl
@[simp] theorem State.wf_grooms (k : PageKind) (i o lo n v : Nat) : (s.wf k i o lo n v).grooms = s.grooms := rfl
@[simp] theorem State.wf_cluster (k : PageKind) (i o lo n v : Nat) : (s.wf k i o lo n v).cluster = s.cluster := rfl
@[simp] theorem State.wf_hbm (k : PageKind) (i o lo n v : Nat) : (s.wf k i o lo n v).hbm = s.hbm := rfl
@[simp] theorem State.wf_pending (k : PageKind) (i o lo n v : Nat) : (s.wf k i o lo n v).pending = s.pending := rfl

/-! `wb` -/

@[simp] theorem State.wb_now (k : PageKind) (i o b : Nat) (v : Bool) : (s.wb k i o b v).now = s.now := rfl
@[simp] theorem State.wb_epoch (k : PageKind) (i o b : Nat) (v : Bool) : (s.wb k i o b v).epoch = s.epoch := rfl
@[simp] theorem State.wb_epochLog (k : PageKind) (i o b : Nat) (v : Bool) : (s.wb k i o b v).epochLog = s.epochLog := rfl
@[simp] theorem State.wb_free (k : PageKind) (i o b : Nat) (v : Bool) : (s.wb k i o b v).free = s.free := rfl
@[simp] theorem State.wb_snaps (k : PageKind) (i o b : Nat) (v : Bool) : (s.wb k i o b v).snaps = s.snaps := rfl
@[simp] theorem State.wb_stage (k : PageKind) (i o b : Nat) (v : Bool) : (s.wb k i o b v).stage = s.stage := rfl
@[simp] theorem State.wb_resp (k : PageKind) (i o b : Nat) (v : Bool) : (s.wb k i o b v).resp = s.resp := rfl
@[simp] theorem State.wb_sent (k : PageKind) (i o b : Nat) (v : Bool) : (s.wb k i o b v).sent = s.sent := rfl
@[simp] theorem State.wb_pins (k : PageKind) (i o b : Nat) (v : Bool) : (s.wb k i o b v).pins = s.pins := rfl
@[simp] theorem State.wb_mode (k : PageKind) (i o b : Nat) (v : Bool) : (s.wb k i o b v).mode = s.mode := rfl
@[simp] theorem State.wb_lan (k : PageKind) (i o b : Nat) (v : Bool) : (s.wb k i o b v).lan = s.lan := rfl
@[simp] theorem State.wb_otp (k : PageKind) (i o b : Nat) (v : Bool) : (s.wb k i o b v).otp = s.otp := rfl
@[simp] theorem State.wb_flash (k : PageKind) (i o b : Nat) (v : Bool) : (s.wb k i o b v).flash = s.flash := rfl
@[simp] theorem State.wb_hay (k : PageKind) (i o b : Nat) (v : Bool) : (s.wb k i o b v).hay = s.hay := rfl
@[simp] theorem State.wb_keys (k : PageKind) (i o b : Nat) (v : Bool) : (s.wb k i o b v).keys = s.keys := rfl
@[simp] theorem State.wb_keyGen (k : PageKind) (i o b : Nat) (v : Bool) : (s.wb k i o b v).keyGen = s.keyGen := rfl
@[simp] theorem State.wb_regions (k : PageKind) (i o b : Nat) (v : Bool) : (s.wb k i o b v).regions = s.regions := rfl
@[simp] theorem State.wb_rings (k : PageKind) (i o b : Nat) (v : Bool) : (s.wb k i o b v).rings = s.rings := rfl
@[simp] theorem State.wb_fns (k : PageKind) (i o b : Nat) (v : Bool) : (s.wb k i o b v).fns = s.fns := rfl
@[simp] theorem State.wb_vmask (k : PageKind) (i o b : Nat) (v : Bool) : (s.wb k i o b v).vmask = s.vmask := rfl
@[simp] theorem State.wb_msix (k : PageKind) (i o b : Nat) (v : Bool) : (s.wb k i o b v).msix = s.msix := rfl
@[simp] theorem State.wb_pba (k : PageKind) (i o b : Nat) (v : Bool) : (s.wb k i o b v).pba = s.pba := rfl
@[simp] theorem State.wb_stalls (k : PageKind) (i o b : Nat) (v : Bool) : (s.wb k i o b v).stalls = s.stalls := rfl
@[simp] theorem State.wb_follow (k : PageKind) (i o b : Nat) (v : Bool) : (s.wb k i o b v).follow = s.follow := rfl
@[simp] theorem State.wb_tsEdges (k : PageKind) (i o b : Nat) (v : Bool) : (s.wb k i o b v).tsEdges = s.tsEdges := rfl
@[simp] theorem State.wb_tsDirty (k : PageKind) (i o b : Nat) (v : Bool) : (s.wb k i o b v).tsDirty = s.tsDirty := rfl
@[simp] theorem State.wb_armed (k : PageKind) (i o b : Nat) (v : Bool) : (s.wb k i o b v).armed = s.armed := rfl
@[simp] theorem State.wb_chans (k : PageKind) (i o b : Nat) (v : Bool) : (s.wb k i o b v).chans = s.chans := rfl
@[simp] theorem State.wb_seqs (k : PageKind) (i o b : Nat) (v : Bool) : (s.wb k i o b v).seqs = s.seqs := rfl
@[simp] theorem State.wb_catBuf (k : PageKind) (i o b : Nat) (v : Bool) : (s.wb k i o b v).catBuf = s.catBuf := rfl
@[simp] theorem State.wb_tims (k : PageKind) (i o b : Nat) (v : Bool) : (s.wb k i o b v).tims = s.tims := rfl
@[simp] theorem State.wb_verniers (k : PageKind) (i o b : Nat) (v : Bool) : (s.wb k i o b v).verniers = s.verniers := rfl
@[simp] theorem State.wb_lastTrig (k : PageKind) (i o b : Nat) (v : Bool) : (s.wb k i o b v).lastTrig = s.lastTrig := rfl
@[simp] theorem State.wb_pmus (k : PageKind) (i o b : Nat) (v : Bool) : (s.wb k i o b v).pmus = s.pmus := rfl
@[simp] theorem State.wb_waves (k : PageKind) (i o b : Nat) (v : Bool) : (s.wb k i o b v).waves = s.waves := rfl
@[simp] theorem State.wb_caps (k : PageKind) (i o b : Nat) (v : Bool) : (s.wb k i o b v).caps = s.caps := rfl
@[simp] theorem State.wb_acqs (k : PageKind) (i o b : Nat) (v : Bool) : (s.wb k i o b v).acqs = s.acqs := rfl
@[simp] theorem State.wb_cnvs (k : PageKind) (i o b : Nat) (v : Bool) : (s.wb k i o b v).cnvs = s.cnvs := rfl
@[simp] theorem State.wb_line (k : PageKind) (i o b : Nat) (v : Bool) : (s.wb k i o b v).line = s.line := rfl
@[simp] theorem State.wb_evHist (k : PageKind) (i o b : Nat) (v : Bool) : (s.wb k i o b v).evHist = s.evHist := rfl
@[simp] theorem State.wb_ticking (k : PageKind) (i o b : Nat) (v : Bool) : (s.wb k i o b v).ticking = s.ticking := rfl
@[simp] theorem State.wb_trips (k : PageKind) (i o b : Nat) (v : Bool) : (s.wb k i o b v).trips = s.trips := rfl
@[simp] theorem State.wb_onsets (k : PageKind) (i o b : Nat) (v : Bool) : (s.wb k i o b v).onsets = s.onsets := rfl
@[simp] theorem State.wb_sampling (k : PageKind) (i o b : Nat) (v : Bool) : (s.wb k i o b v).sampling = s.sampling := rfl
@[simp] theorem State.wb_wchPend (k : PageKind) (i o b : Nat) (v : Bool) : (s.wb k i o b v).wchPend = s.wchPend := rfl
@[simp] theorem State.wb_idxs (k : PageKind) (i o b : Nat) (v : Bool) : (s.wb k i o b v).idxs = s.idxs := rfl
@[simp] theorem State.wb_gth (k : PageKind) (i o b : Nat) (v : Bool) : (s.wb k i o b v).gth = s.gth := rfl
@[simp] theorem State.wb_halter (k : PageKind) (i o b : Nat) (v : Bool) : (s.wb k i o b v).halter = s.halter := rfl
@[simp] theorem State.wb_rst (k : PageKind) (i o b : Nat) (v : Bool) : (s.wb k i o b v).rst = s.rst := rfl
@[simp] theorem State.wb_weather (k : PageKind) (i o b : Nat) (v : Bool) : (s.wb k i o b v).weather = s.weather := rfl
@[simp] theorem State.wb_cpl (k : PageKind) (i o b : Nat) (v : Bool) : (s.wb k i o b v).cpl = s.cpl := rfl
@[simp] theorem State.wb_tap (k : PageKind) (i o b : Nat) (v : Bool) : (s.wb k i o b v).tap = s.tap := rfl
@[simp] theorem State.wb_far (k : PageKind) (i o b : Nat) (v : Bool) : (s.wb k i o b v).far = s.far := rfl
@[simp] theorem State.wb_grooms (k : PageKind) (i o b : Nat) (v : Bool) : (s.wb k i o b v).grooms = s.grooms := rfl
@[simp] theorem State.wb_cluster (k : PageKind) (i o b : Nat) (v : Bool) : (s.wb k i o b v).cluster = s.cluster := rfl
@[simp] theorem State.wb_hbm (k : PageKind) (i o b : Nat) (v : Bool) : (s.wb k i o b v).hbm = s.hbm := rfl
@[simp] theorem State.wb_pending (k : PageKind) (i o b : Nat) (v : Bool) : (s.wb k i o b v).pending = s.pending := rfl

/-! `sat` -/

@[simp] theorem State.sat_now (k : PageKind) (i o lo n v : Nat) : (s.sat k i o lo n v).now = s.now := rfl
@[simp] theorem State.sat_epoch (k : PageKind) (i o lo n v : Nat) : (s.sat k i o lo n v).epoch = s.epoch := rfl
@[simp] theorem State.sat_epochLog (k : PageKind) (i o lo n v : Nat) : (s.sat k i o lo n v).epochLog = s.epochLog := rfl
@[simp] theorem State.sat_free (k : PageKind) (i o lo n v : Nat) : (s.sat k i o lo n v).free = s.free := rfl
@[simp] theorem State.sat_snaps (k : PageKind) (i o lo n v : Nat) : (s.sat k i o lo n v).snaps = s.snaps := rfl
@[simp] theorem State.sat_stage (k : PageKind) (i o lo n v : Nat) : (s.sat k i o lo n v).stage = s.stage := rfl
@[simp] theorem State.sat_resp (k : PageKind) (i o lo n v : Nat) : (s.sat k i o lo n v).resp = s.resp := rfl
@[simp] theorem State.sat_sent (k : PageKind) (i o lo n v : Nat) : (s.sat k i o lo n v).sent = s.sent := rfl
@[simp] theorem State.sat_pins (k : PageKind) (i o lo n v : Nat) : (s.sat k i o lo n v).pins = s.pins := rfl
@[simp] theorem State.sat_mode (k : PageKind) (i o lo n v : Nat) : (s.sat k i o lo n v).mode = s.mode := rfl
@[simp] theorem State.sat_lan (k : PageKind) (i o lo n v : Nat) : (s.sat k i o lo n v).lan = s.lan := rfl
@[simp] theorem State.sat_otp (k : PageKind) (i o lo n v : Nat) : (s.sat k i o lo n v).otp = s.otp := rfl
@[simp] theorem State.sat_flash (k : PageKind) (i o lo n v : Nat) : (s.sat k i o lo n v).flash = s.flash := rfl
@[simp] theorem State.sat_hay (k : PageKind) (i o lo n v : Nat) : (s.sat k i o lo n v).hay = s.hay := rfl
@[simp] theorem State.sat_keys (k : PageKind) (i o lo n v : Nat) : (s.sat k i o lo n v).keys = s.keys := rfl
@[simp] theorem State.sat_keyGen (k : PageKind) (i o lo n v : Nat) : (s.sat k i o lo n v).keyGen = s.keyGen := rfl
@[simp] theorem State.sat_regions (k : PageKind) (i o lo n v : Nat) : (s.sat k i o lo n v).regions = s.regions := rfl
@[simp] theorem State.sat_rings (k : PageKind) (i o lo n v : Nat) : (s.sat k i o lo n v).rings = s.rings := rfl
@[simp] theorem State.sat_fns (k : PageKind) (i o lo n v : Nat) : (s.sat k i o lo n v).fns = s.fns := rfl
@[simp] theorem State.sat_vmask (k : PageKind) (i o lo n v : Nat) : (s.sat k i o lo n v).vmask = s.vmask := rfl
@[simp] theorem State.sat_msix (k : PageKind) (i o lo n v : Nat) : (s.sat k i o lo n v).msix = s.msix := rfl
@[simp] theorem State.sat_pba (k : PageKind) (i o lo n v : Nat) : (s.sat k i o lo n v).pba = s.pba := rfl
@[simp] theorem State.sat_stalls (k : PageKind) (i o lo n v : Nat) : (s.sat k i o lo n v).stalls = s.stalls := rfl
@[simp] theorem State.sat_follow (k : PageKind) (i o lo n v : Nat) : (s.sat k i o lo n v).follow = s.follow := rfl
@[simp] theorem State.sat_tsEdges (k : PageKind) (i o lo n v : Nat) : (s.sat k i o lo n v).tsEdges = s.tsEdges := rfl
@[simp] theorem State.sat_tsDirty (k : PageKind) (i o lo n v : Nat) : (s.sat k i o lo n v).tsDirty = s.tsDirty := rfl
@[simp] theorem State.sat_armed (k : PageKind) (i o lo n v : Nat) : (s.sat k i o lo n v).armed = s.armed := rfl
@[simp] theorem State.sat_chans (k : PageKind) (i o lo n v : Nat) : (s.sat k i o lo n v).chans = s.chans := rfl
@[simp] theorem State.sat_seqs (k : PageKind) (i o lo n v : Nat) : (s.sat k i o lo n v).seqs = s.seqs := rfl
@[simp] theorem State.sat_catBuf (k : PageKind) (i o lo n v : Nat) : (s.sat k i o lo n v).catBuf = s.catBuf := rfl
@[simp] theorem State.sat_tims (k : PageKind) (i o lo n v : Nat) : (s.sat k i o lo n v).tims = s.tims := rfl
@[simp] theorem State.sat_verniers (k : PageKind) (i o lo n v : Nat) : (s.sat k i o lo n v).verniers = s.verniers := rfl
@[simp] theorem State.sat_lastTrig (k : PageKind) (i o lo n v : Nat) : (s.sat k i o lo n v).lastTrig = s.lastTrig := rfl
@[simp] theorem State.sat_pmus (k : PageKind) (i o lo n v : Nat) : (s.sat k i o lo n v).pmus = s.pmus := rfl
@[simp] theorem State.sat_waves (k : PageKind) (i o lo n v : Nat) : (s.sat k i o lo n v).waves = s.waves := rfl
@[simp] theorem State.sat_caps (k : PageKind) (i o lo n v : Nat) : (s.sat k i o lo n v).caps = s.caps := rfl
@[simp] theorem State.sat_acqs (k : PageKind) (i o lo n v : Nat) : (s.sat k i o lo n v).acqs = s.acqs := rfl
@[simp] theorem State.sat_cnvs (k : PageKind) (i o lo n v : Nat) : (s.sat k i o lo n v).cnvs = s.cnvs := rfl
@[simp] theorem State.sat_line (k : PageKind) (i o lo n v : Nat) : (s.sat k i o lo n v).line = s.line := rfl
@[simp] theorem State.sat_evHist (k : PageKind) (i o lo n v : Nat) : (s.sat k i o lo n v).evHist = s.evHist := rfl
@[simp] theorem State.sat_ticking (k : PageKind) (i o lo n v : Nat) : (s.sat k i o lo n v).ticking = s.ticking := rfl
@[simp] theorem State.sat_trips (k : PageKind) (i o lo n v : Nat) : (s.sat k i o lo n v).trips = s.trips := rfl
@[simp] theorem State.sat_onsets (k : PageKind) (i o lo n v : Nat) : (s.sat k i o lo n v).onsets = s.onsets := rfl
@[simp] theorem State.sat_sampling (k : PageKind) (i o lo n v : Nat) : (s.sat k i o lo n v).sampling = s.sampling := rfl
@[simp] theorem State.sat_wchPend (k : PageKind) (i o lo n v : Nat) : (s.sat k i o lo n v).wchPend = s.wchPend := rfl
@[simp] theorem State.sat_idxs (k : PageKind) (i o lo n v : Nat) : (s.sat k i o lo n v).idxs = s.idxs := rfl
@[simp] theorem State.sat_gth (k : PageKind) (i o lo n v : Nat) : (s.sat k i o lo n v).gth = s.gth := rfl
@[simp] theorem State.sat_halter (k : PageKind) (i o lo n v : Nat) : (s.sat k i o lo n v).halter = s.halter := rfl
@[simp] theorem State.sat_rst (k : PageKind) (i o lo n v : Nat) : (s.sat k i o lo n v).rst = s.rst := rfl
@[simp] theorem State.sat_weather (k : PageKind) (i o lo n v : Nat) : (s.sat k i o lo n v).weather = s.weather := rfl
@[simp] theorem State.sat_cpl (k : PageKind) (i o lo n v : Nat) : (s.sat k i o lo n v).cpl = s.cpl := rfl
@[simp] theorem State.sat_tap (k : PageKind) (i o lo n v : Nat) : (s.sat k i o lo n v).tap = s.tap := rfl
@[simp] theorem State.sat_far (k : PageKind) (i o lo n v : Nat) : (s.sat k i o lo n v).far = s.far := rfl
@[simp] theorem State.sat_grooms (k : PageKind) (i o lo n v : Nat) : (s.sat k i o lo n v).grooms = s.grooms := rfl
@[simp] theorem State.sat_cluster (k : PageKind) (i o lo n v : Nat) : (s.sat k i o lo n v).cluster = s.cluster := rfl
@[simp] theorem State.sat_hbm (k : PageKind) (i o lo n v : Nat) : (s.sat k i o lo n v).hbm = s.hbm := rfl
@[simp] theorem State.sat_pending (k : PageKind) (i o lo n v : Nat) : (s.sat k i o lo n v).pending = s.pending := rfl

/-! `wr2` -/

@[simp] theorem State.wr2_now (k : PageKind) (i lo hi v : Nat) : (s.wr2 k i lo hi v).now = s.now := rfl
@[simp] theorem State.wr2_epoch (k : PageKind) (i lo hi v : Nat) : (s.wr2 k i lo hi v).epoch = s.epoch := rfl
@[simp] theorem State.wr2_epochLog (k : PageKind) (i lo hi v : Nat) : (s.wr2 k i lo hi v).epochLog = s.epochLog := rfl
@[simp] theorem State.wr2_free (k : PageKind) (i lo hi v : Nat) : (s.wr2 k i lo hi v).free = s.free := rfl
@[simp] theorem State.wr2_snaps (k : PageKind) (i lo hi v : Nat) : (s.wr2 k i lo hi v).snaps = s.snaps := rfl
@[simp] theorem State.wr2_stage (k : PageKind) (i lo hi v : Nat) : (s.wr2 k i lo hi v).stage = s.stage := rfl
@[simp] theorem State.wr2_resp (k : PageKind) (i lo hi v : Nat) : (s.wr2 k i lo hi v).resp = s.resp := rfl
@[simp] theorem State.wr2_sent (k : PageKind) (i lo hi v : Nat) : (s.wr2 k i lo hi v).sent = s.sent := rfl
@[simp] theorem State.wr2_pins (k : PageKind) (i lo hi v : Nat) : (s.wr2 k i lo hi v).pins = s.pins := rfl
@[simp] theorem State.wr2_mode (k : PageKind) (i lo hi v : Nat) : (s.wr2 k i lo hi v).mode = s.mode := rfl
@[simp] theorem State.wr2_lan (k : PageKind) (i lo hi v : Nat) : (s.wr2 k i lo hi v).lan = s.lan := rfl
@[simp] theorem State.wr2_otp (k : PageKind) (i lo hi v : Nat) : (s.wr2 k i lo hi v).otp = s.otp := rfl
@[simp] theorem State.wr2_flash (k : PageKind) (i lo hi v : Nat) : (s.wr2 k i lo hi v).flash = s.flash := rfl
@[simp] theorem State.wr2_hay (k : PageKind) (i lo hi v : Nat) : (s.wr2 k i lo hi v).hay = s.hay := rfl
@[simp] theorem State.wr2_keys (k : PageKind) (i lo hi v : Nat) : (s.wr2 k i lo hi v).keys = s.keys := rfl
@[simp] theorem State.wr2_keyGen (k : PageKind) (i lo hi v : Nat) : (s.wr2 k i lo hi v).keyGen = s.keyGen := rfl
@[simp] theorem State.wr2_regions (k : PageKind) (i lo hi v : Nat) : (s.wr2 k i lo hi v).regions = s.regions := rfl
@[simp] theorem State.wr2_rings (k : PageKind) (i lo hi v : Nat) : (s.wr2 k i lo hi v).rings = s.rings := rfl
@[simp] theorem State.wr2_fns (k : PageKind) (i lo hi v : Nat) : (s.wr2 k i lo hi v).fns = s.fns := rfl
@[simp] theorem State.wr2_vmask (k : PageKind) (i lo hi v : Nat) : (s.wr2 k i lo hi v).vmask = s.vmask := rfl
@[simp] theorem State.wr2_msix (k : PageKind) (i lo hi v : Nat) : (s.wr2 k i lo hi v).msix = s.msix := rfl
@[simp] theorem State.wr2_pba (k : PageKind) (i lo hi v : Nat) : (s.wr2 k i lo hi v).pba = s.pba := rfl
@[simp] theorem State.wr2_stalls (k : PageKind) (i lo hi v : Nat) : (s.wr2 k i lo hi v).stalls = s.stalls := rfl
@[simp] theorem State.wr2_follow (k : PageKind) (i lo hi v : Nat) : (s.wr2 k i lo hi v).follow = s.follow := rfl
@[simp] theorem State.wr2_tsEdges (k : PageKind) (i lo hi v : Nat) : (s.wr2 k i lo hi v).tsEdges = s.tsEdges := rfl
@[simp] theorem State.wr2_tsDirty (k : PageKind) (i lo hi v : Nat) : (s.wr2 k i lo hi v).tsDirty = s.tsDirty := rfl
@[simp] theorem State.wr2_armed (k : PageKind) (i lo hi v : Nat) : (s.wr2 k i lo hi v).armed = s.armed := rfl
@[simp] theorem State.wr2_chans (k : PageKind) (i lo hi v : Nat) : (s.wr2 k i lo hi v).chans = s.chans := rfl
@[simp] theorem State.wr2_seqs (k : PageKind) (i lo hi v : Nat) : (s.wr2 k i lo hi v).seqs = s.seqs := rfl
@[simp] theorem State.wr2_catBuf (k : PageKind) (i lo hi v : Nat) : (s.wr2 k i lo hi v).catBuf = s.catBuf := rfl
@[simp] theorem State.wr2_tims (k : PageKind) (i lo hi v : Nat) : (s.wr2 k i lo hi v).tims = s.tims := rfl
@[simp] theorem State.wr2_verniers (k : PageKind) (i lo hi v : Nat) : (s.wr2 k i lo hi v).verniers = s.verniers := rfl
@[simp] theorem State.wr2_lastTrig (k : PageKind) (i lo hi v : Nat) : (s.wr2 k i lo hi v).lastTrig = s.lastTrig := rfl
@[simp] theorem State.wr2_pmus (k : PageKind) (i lo hi v : Nat) : (s.wr2 k i lo hi v).pmus = s.pmus := rfl
@[simp] theorem State.wr2_waves (k : PageKind) (i lo hi v : Nat) : (s.wr2 k i lo hi v).waves = s.waves := rfl
@[simp] theorem State.wr2_caps (k : PageKind) (i lo hi v : Nat) : (s.wr2 k i lo hi v).caps = s.caps := rfl
@[simp] theorem State.wr2_acqs (k : PageKind) (i lo hi v : Nat) : (s.wr2 k i lo hi v).acqs = s.acqs := rfl
@[simp] theorem State.wr2_cnvs (k : PageKind) (i lo hi v : Nat) : (s.wr2 k i lo hi v).cnvs = s.cnvs := rfl
@[simp] theorem State.wr2_line (k : PageKind) (i lo hi v : Nat) : (s.wr2 k i lo hi v).line = s.line := rfl
@[simp] theorem State.wr2_evHist (k : PageKind) (i lo hi v : Nat) : (s.wr2 k i lo hi v).evHist = s.evHist := rfl
@[simp] theorem State.wr2_ticking (k : PageKind) (i lo hi v : Nat) : (s.wr2 k i lo hi v).ticking = s.ticking := rfl
@[simp] theorem State.wr2_trips (k : PageKind) (i lo hi v : Nat) : (s.wr2 k i lo hi v).trips = s.trips := rfl
@[simp] theorem State.wr2_onsets (k : PageKind) (i lo hi v : Nat) : (s.wr2 k i lo hi v).onsets = s.onsets := rfl
@[simp] theorem State.wr2_sampling (k : PageKind) (i lo hi v : Nat) : (s.wr2 k i lo hi v).sampling = s.sampling := rfl
@[simp] theorem State.wr2_wchPend (k : PageKind) (i lo hi v : Nat) : (s.wr2 k i lo hi v).wchPend = s.wchPend := rfl
@[simp] theorem State.wr2_idxs (k : PageKind) (i lo hi v : Nat) : (s.wr2 k i lo hi v).idxs = s.idxs := rfl
@[simp] theorem State.wr2_gth (k : PageKind) (i lo hi v : Nat) : (s.wr2 k i lo hi v).gth = s.gth := rfl
@[simp] theorem State.wr2_halter (k : PageKind) (i lo hi v : Nat) : (s.wr2 k i lo hi v).halter = s.halter := rfl
@[simp] theorem State.wr2_rst (k : PageKind) (i lo hi v : Nat) : (s.wr2 k i lo hi v).rst = s.rst := rfl
@[simp] theorem State.wr2_weather (k : PageKind) (i lo hi v : Nat) : (s.wr2 k i lo hi v).weather = s.weather := rfl
@[simp] theorem State.wr2_cpl (k : PageKind) (i lo hi v : Nat) : (s.wr2 k i lo hi v).cpl = s.cpl := rfl
@[simp] theorem State.wr2_tap (k : PageKind) (i lo hi v : Nat) : (s.wr2 k i lo hi v).tap = s.tap := rfl
@[simp] theorem State.wr2_far (k : PageKind) (i lo hi v : Nat) : (s.wr2 k i lo hi v).far = s.far := rfl
@[simp] theorem State.wr2_grooms (k : PageKind) (i lo hi v : Nat) : (s.wr2 k i lo hi v).grooms = s.grooms := rfl
@[simp] theorem State.wr2_cluster (k : PageKind) (i lo hi v : Nat) : (s.wr2 k i lo hi v).cluster = s.cluster := rfl
@[simp] theorem State.wr2_hbm (k : PageKind) (i lo hi v : Nat) : (s.wr2 k i lo hi v).hbm = s.hbm := rfl
@[simp] theorem State.wr2_pending (k : PageKind) (i lo hi v : Nat) : (s.wr2 k i lo hi v).pending = s.pending := rfl

/-! `startResult` -/

@[simp] theorem State.startResult_now (k : PageKind) (i o : Nat) : (s.startResult k i o).now = s.now := State.wb_now s k i o 16 false
@[simp] theorem State.startResult_epoch (k : PageKind) (i o : Nat) : (s.startResult k i o).epoch = s.epoch := State.wb_epoch s k i o 16 false
@[simp] theorem State.startResult_epochLog (k : PageKind) (i o : Nat) : (s.startResult k i o).epochLog = s.epochLog := State.wb_epochLog s k i o 16 false
@[simp] theorem State.startResult_free (k : PageKind) (i o : Nat) : (s.startResult k i o).free = s.free := State.wb_free s k i o 16 false
@[simp] theorem State.startResult_snaps (k : PageKind) (i o : Nat) : (s.startResult k i o).snaps = s.snaps := State.wb_snaps s k i o 16 false
@[simp] theorem State.startResult_stage (k : PageKind) (i o : Nat) : (s.startResult k i o).stage = s.stage := State.wb_stage s k i o 16 false
@[simp] theorem State.startResult_resp (k : PageKind) (i o : Nat) : (s.startResult k i o).resp = s.resp := State.wb_resp s k i o 16 false
@[simp] theorem State.startResult_sent (k : PageKind) (i o : Nat) : (s.startResult k i o).sent = s.sent := State.wb_sent s k i o 16 false
@[simp] theorem State.startResult_pins (k : PageKind) (i o : Nat) : (s.startResult k i o).pins = s.pins := State.wb_pins s k i o 16 false
@[simp] theorem State.startResult_mode (k : PageKind) (i o : Nat) : (s.startResult k i o).mode = s.mode := State.wb_mode s k i o 16 false
@[simp] theorem State.startResult_lan (k : PageKind) (i o : Nat) : (s.startResult k i o).lan = s.lan := State.wb_lan s k i o 16 false
@[simp] theorem State.startResult_otp (k : PageKind) (i o : Nat) : (s.startResult k i o).otp = s.otp := State.wb_otp s k i o 16 false
@[simp] theorem State.startResult_flash (k : PageKind) (i o : Nat) : (s.startResult k i o).flash = s.flash := State.wb_flash s k i o 16 false
@[simp] theorem State.startResult_hay (k : PageKind) (i o : Nat) : (s.startResult k i o).hay = s.hay := State.wb_hay s k i o 16 false
@[simp] theorem State.startResult_keys (k : PageKind) (i o : Nat) : (s.startResult k i o).keys = s.keys := State.wb_keys s k i o 16 false
@[simp] theorem State.startResult_keyGen (k : PageKind) (i o : Nat) : (s.startResult k i o).keyGen = s.keyGen := State.wb_keyGen s k i o 16 false
@[simp] theorem State.startResult_regions (k : PageKind) (i o : Nat) : (s.startResult k i o).regions = s.regions := State.wb_regions s k i o 16 false
@[simp] theorem State.startResult_rings (k : PageKind) (i o : Nat) : (s.startResult k i o).rings = s.rings := State.wb_rings s k i o 16 false
@[simp] theorem State.startResult_fns (k : PageKind) (i o : Nat) : (s.startResult k i o).fns = s.fns := State.wb_fns s k i o 16 false
@[simp] theorem State.startResult_vmask (k : PageKind) (i o : Nat) : (s.startResult k i o).vmask = s.vmask := State.wb_vmask s k i o 16 false
@[simp] theorem State.startResult_msix (k : PageKind) (i o : Nat) : (s.startResult k i o).msix = s.msix := State.wb_msix s k i o 16 false
@[simp] theorem State.startResult_pba (k : PageKind) (i o : Nat) : (s.startResult k i o).pba = s.pba := State.wb_pba s k i o 16 false
@[simp] theorem State.startResult_stalls (k : PageKind) (i o : Nat) : (s.startResult k i o).stalls = s.stalls := State.wb_stalls s k i o 16 false
@[simp] theorem State.startResult_follow (k : PageKind) (i o : Nat) : (s.startResult k i o).follow = s.follow := State.wb_follow s k i o 16 false
@[simp] theorem State.startResult_tsEdges (k : PageKind) (i o : Nat) : (s.startResult k i o).tsEdges = s.tsEdges := State.wb_tsEdges s k i o 16 false
@[simp] theorem State.startResult_tsDirty (k : PageKind) (i o : Nat) : (s.startResult k i o).tsDirty = s.tsDirty := State.wb_tsDirty s k i o 16 false
@[simp] theorem State.startResult_armed (k : PageKind) (i o : Nat) : (s.startResult k i o).armed = s.armed := State.wb_armed s k i o 16 false
@[simp] theorem State.startResult_chans (k : PageKind) (i o : Nat) : (s.startResult k i o).chans = s.chans := State.wb_chans s k i o 16 false
@[simp] theorem State.startResult_seqs (k : PageKind) (i o : Nat) : (s.startResult k i o).seqs = s.seqs := State.wb_seqs s k i o 16 false
@[simp] theorem State.startResult_catBuf (k : PageKind) (i o : Nat) : (s.startResult k i o).catBuf = s.catBuf := State.wb_catBuf s k i o 16 false
@[simp] theorem State.startResult_tims (k : PageKind) (i o : Nat) : (s.startResult k i o).tims = s.tims := State.wb_tims s k i o 16 false
@[simp] theorem State.startResult_verniers (k : PageKind) (i o : Nat) : (s.startResult k i o).verniers = s.verniers := State.wb_verniers s k i o 16 false
@[simp] theorem State.startResult_lastTrig (k : PageKind) (i o : Nat) : (s.startResult k i o).lastTrig = s.lastTrig := State.wb_lastTrig s k i o 16 false
@[simp] theorem State.startResult_pmus (k : PageKind) (i o : Nat) : (s.startResult k i o).pmus = s.pmus := State.wb_pmus s k i o 16 false
@[simp] theorem State.startResult_waves (k : PageKind) (i o : Nat) : (s.startResult k i o).waves = s.waves := State.wb_waves s k i o 16 false
@[simp] theorem State.startResult_caps (k : PageKind) (i o : Nat) : (s.startResult k i o).caps = s.caps := State.wb_caps s k i o 16 false
@[simp] theorem State.startResult_acqs (k : PageKind) (i o : Nat) : (s.startResult k i o).acqs = s.acqs := State.wb_acqs s k i o 16 false
@[simp] theorem State.startResult_cnvs (k : PageKind) (i o : Nat) : (s.startResult k i o).cnvs = s.cnvs := State.wb_cnvs s k i o 16 false
@[simp] theorem State.startResult_line (k : PageKind) (i o : Nat) : (s.startResult k i o).line = s.line := State.wb_line s k i o 16 false
@[simp] theorem State.startResult_evHist (k : PageKind) (i o : Nat) : (s.startResult k i o).evHist = s.evHist := State.wb_evHist s k i o 16 false
@[simp] theorem State.startResult_ticking (k : PageKind) (i o : Nat) : (s.startResult k i o).ticking = s.ticking := State.wb_ticking s k i o 16 false
@[simp] theorem State.startResult_trips (k : PageKind) (i o : Nat) : (s.startResult k i o).trips = s.trips := State.wb_trips s k i o 16 false
@[simp] theorem State.startResult_onsets (k : PageKind) (i o : Nat) : (s.startResult k i o).onsets = s.onsets := State.wb_onsets s k i o 16 false
@[simp] theorem State.startResult_sampling (k : PageKind) (i o : Nat) : (s.startResult k i o).sampling = s.sampling := State.wb_sampling s k i o 16 false
@[simp] theorem State.startResult_wchPend (k : PageKind) (i o : Nat) : (s.startResult k i o).wchPend = s.wchPend := State.wb_wchPend s k i o 16 false
@[simp] theorem State.startResult_idxs (k : PageKind) (i o : Nat) : (s.startResult k i o).idxs = s.idxs := State.wb_idxs s k i o 16 false
@[simp] theorem State.startResult_gth (k : PageKind) (i o : Nat) : (s.startResult k i o).gth = s.gth := State.wb_gth s k i o 16 false
@[simp] theorem State.startResult_halter (k : PageKind) (i o : Nat) : (s.startResult k i o).halter = s.halter := State.wb_halter s k i o 16 false
@[simp] theorem State.startResult_rst (k : PageKind) (i o : Nat) : (s.startResult k i o).rst = s.rst := State.wb_rst s k i o 16 false
@[simp] theorem State.startResult_weather (k : PageKind) (i o : Nat) : (s.startResult k i o).weather = s.weather := State.wb_weather s k i o 16 false
@[simp] theorem State.startResult_cpl (k : PageKind) (i o : Nat) : (s.startResult k i o).cpl = s.cpl := State.wb_cpl s k i o 16 false
@[simp] theorem State.startResult_tap (k : PageKind) (i o : Nat) : (s.startResult k i o).tap = s.tap := State.wb_tap s k i o 16 false
@[simp] theorem State.startResult_far (k : PageKind) (i o : Nat) : (s.startResult k i o).far = s.far := State.wb_far s k i o 16 false
@[simp] theorem State.startResult_grooms (k : PageKind) (i o : Nat) : (s.startResult k i o).grooms = s.grooms := State.wb_grooms s k i o 16 false
@[simp] theorem State.startResult_cluster (k : PageKind) (i o : Nat) : (s.startResult k i o).cluster = s.cluster := State.wb_cluster s k i o 16 false
@[simp] theorem State.startResult_hbm (k : PageKind) (i o : Nat) : (s.startResult k i o).hbm = s.hbm := State.wb_hbm s k i o 16 false
@[simp] theorem State.startResult_pending (k : PageKind) (i o : Nat) : (s.startResult k i o).pending = s.pending := State.wb_pending s k i o 16 false

/-! `storeResult` -/

@[simp] theorem State.storeResult_now (k : PageKind) (i o v : Nat) : (s.storeResult k i o v).now = s.now := State.wr_now s k i o _
@[simp] theorem State.storeResult_epoch (k : PageKind) (i o v : Nat) : (s.storeResult k i o v).epoch = s.epoch := State.wr_epoch s k i o _
@[simp] theorem State.storeResult_epochLog (k : PageKind) (i o v : Nat) : (s.storeResult k i o v).epochLog = s.epochLog := State.wr_epochLog s k i o _
@[simp] theorem State.storeResult_free (k : PageKind) (i o v : Nat) : (s.storeResult k i o v).free = s.free := State.wr_free s k i o _
@[simp] theorem State.storeResult_snaps (k : PageKind) (i o v : Nat) : (s.storeResult k i o v).snaps = s.snaps := State.wr_snaps s k i o _
@[simp] theorem State.storeResult_stage (k : PageKind) (i o v : Nat) : (s.storeResult k i o v).stage = s.stage := State.wr_stage s k i o _
@[simp] theorem State.storeResult_resp (k : PageKind) (i o v : Nat) : (s.storeResult k i o v).resp = s.resp := State.wr_resp s k i o _
@[simp] theorem State.storeResult_sent (k : PageKind) (i o v : Nat) : (s.storeResult k i o v).sent = s.sent := State.wr_sent s k i o _
@[simp] theorem State.storeResult_pins (k : PageKind) (i o v : Nat) : (s.storeResult k i o v).pins = s.pins := State.wr_pins s k i o _
@[simp] theorem State.storeResult_mode (k : PageKind) (i o v : Nat) : (s.storeResult k i o v).mode = s.mode := State.wr_mode s k i o _
@[simp] theorem State.storeResult_lan (k : PageKind) (i o v : Nat) : (s.storeResult k i o v).lan = s.lan := State.wr_lan s k i o _
@[simp] theorem State.storeResult_otp (k : PageKind) (i o v : Nat) : (s.storeResult k i o v).otp = s.otp := State.wr_otp s k i o _
@[simp] theorem State.storeResult_flash (k : PageKind) (i o v : Nat) : (s.storeResult k i o v).flash = s.flash := State.wr_flash s k i o _
@[simp] theorem State.storeResult_hay (k : PageKind) (i o v : Nat) : (s.storeResult k i o v).hay = s.hay := State.wr_hay s k i o _
@[simp] theorem State.storeResult_keys (k : PageKind) (i o v : Nat) : (s.storeResult k i o v).keys = s.keys := State.wr_keys s k i o _
@[simp] theorem State.storeResult_keyGen (k : PageKind) (i o v : Nat) : (s.storeResult k i o v).keyGen = s.keyGen := State.wr_keyGen s k i o _
@[simp] theorem State.storeResult_regions (k : PageKind) (i o v : Nat) : (s.storeResult k i o v).regions = s.regions := State.wr_regions s k i o _
@[simp] theorem State.storeResult_rings (k : PageKind) (i o v : Nat) : (s.storeResult k i o v).rings = s.rings := State.wr_rings s k i o _
@[simp] theorem State.storeResult_fns (k : PageKind) (i o v : Nat) : (s.storeResult k i o v).fns = s.fns := State.wr_fns s k i o _
@[simp] theorem State.storeResult_vmask (k : PageKind) (i o v : Nat) : (s.storeResult k i o v).vmask = s.vmask := State.wr_vmask s k i o _
@[simp] theorem State.storeResult_msix (k : PageKind) (i o v : Nat) : (s.storeResult k i o v).msix = s.msix := State.wr_msix s k i o _
@[simp] theorem State.storeResult_pba (k : PageKind) (i o v : Nat) : (s.storeResult k i o v).pba = s.pba := State.wr_pba s k i o _
@[simp] theorem State.storeResult_stalls (k : PageKind) (i o v : Nat) : (s.storeResult k i o v).stalls = s.stalls := State.wr_stalls s k i o _
@[simp] theorem State.storeResult_follow (k : PageKind) (i o v : Nat) : (s.storeResult k i o v).follow = s.follow := State.wr_follow s k i o _
@[simp] theorem State.storeResult_tsEdges (k : PageKind) (i o v : Nat) : (s.storeResult k i o v).tsEdges = s.tsEdges := State.wr_tsEdges s k i o _
@[simp] theorem State.storeResult_tsDirty (k : PageKind) (i o v : Nat) : (s.storeResult k i o v).tsDirty = s.tsDirty := State.wr_tsDirty s k i o _
@[simp] theorem State.storeResult_armed (k : PageKind) (i o v : Nat) : (s.storeResult k i o v).armed = s.armed := State.wr_armed s k i o _
@[simp] theorem State.storeResult_chans (k : PageKind) (i o v : Nat) : (s.storeResult k i o v).chans = s.chans := State.wr_chans s k i o _
@[simp] theorem State.storeResult_seqs (k : PageKind) (i o v : Nat) : (s.storeResult k i o v).seqs = s.seqs := State.wr_seqs s k i o _
@[simp] theorem State.storeResult_catBuf (k : PageKind) (i o v : Nat) : (s.storeResult k i o v).catBuf = s.catBuf := State.wr_catBuf s k i o _
@[simp] theorem State.storeResult_tims (k : PageKind) (i o v : Nat) : (s.storeResult k i o v).tims = s.tims := State.wr_tims s k i o _
@[simp] theorem State.storeResult_verniers (k : PageKind) (i o v : Nat) : (s.storeResult k i o v).verniers = s.verniers := State.wr_verniers s k i o _
@[simp] theorem State.storeResult_lastTrig (k : PageKind) (i o v : Nat) : (s.storeResult k i o v).lastTrig = s.lastTrig := State.wr_lastTrig s k i o _
@[simp] theorem State.storeResult_pmus (k : PageKind) (i o v : Nat) : (s.storeResult k i o v).pmus = s.pmus := State.wr_pmus s k i o _
@[simp] theorem State.storeResult_waves (k : PageKind) (i o v : Nat) : (s.storeResult k i o v).waves = s.waves := State.wr_waves s k i o _
@[simp] theorem State.storeResult_caps (k : PageKind) (i o v : Nat) : (s.storeResult k i o v).caps = s.caps := State.wr_caps s k i o _
@[simp] theorem State.storeResult_acqs (k : PageKind) (i o v : Nat) : (s.storeResult k i o v).acqs = s.acqs := State.wr_acqs s k i o _
@[simp] theorem State.storeResult_cnvs (k : PageKind) (i o v : Nat) : (s.storeResult k i o v).cnvs = s.cnvs := State.wr_cnvs s k i o _
@[simp] theorem State.storeResult_line (k : PageKind) (i o v : Nat) : (s.storeResult k i o v).line = s.line := State.wr_line s k i o _
@[simp] theorem State.storeResult_evHist (k : PageKind) (i o v : Nat) : (s.storeResult k i o v).evHist = s.evHist := State.wr_evHist s k i o _
@[simp] theorem State.storeResult_ticking (k : PageKind) (i o v : Nat) : (s.storeResult k i o v).ticking = s.ticking := State.wr_ticking s k i o _
@[simp] theorem State.storeResult_trips (k : PageKind) (i o v : Nat) : (s.storeResult k i o v).trips = s.trips := State.wr_trips s k i o _
@[simp] theorem State.storeResult_onsets (k : PageKind) (i o v : Nat) : (s.storeResult k i o v).onsets = s.onsets := State.wr_onsets s k i o _
@[simp] theorem State.storeResult_sampling (k : PageKind) (i o v : Nat) : (s.storeResult k i o v).sampling = s.sampling := State.wr_sampling s k i o _
@[simp] theorem State.storeResult_wchPend (k : PageKind) (i o v : Nat) : (s.storeResult k i o v).wchPend = s.wchPend := State.wr_wchPend s k i o _
@[simp] theorem State.storeResult_idxs (k : PageKind) (i o v : Nat) : (s.storeResult k i o v).idxs = s.idxs := State.wr_idxs s k i o _
@[simp] theorem State.storeResult_gth (k : PageKind) (i o v : Nat) : (s.storeResult k i o v).gth = s.gth := State.wr_gth s k i o _
@[simp] theorem State.storeResult_halter (k : PageKind) (i o v : Nat) : (s.storeResult k i o v).halter = s.halter := State.wr_halter s k i o _
@[simp] theorem State.storeResult_rst (k : PageKind) (i o v : Nat) : (s.storeResult k i o v).rst = s.rst := State.wr_rst s k i o _
@[simp] theorem State.storeResult_weather (k : PageKind) (i o v : Nat) : (s.storeResult k i o v).weather = s.weather := State.wr_weather s k i o _
@[simp] theorem State.storeResult_cpl (k : PageKind) (i o v : Nat) : (s.storeResult k i o v).cpl = s.cpl := State.wr_cpl s k i o _
@[simp] theorem State.storeResult_tap (k : PageKind) (i o v : Nat) : (s.storeResult k i o v).tap = s.tap := State.wr_tap s k i o _
@[simp] theorem State.storeResult_far (k : PageKind) (i o v : Nat) : (s.storeResult k i o v).far = s.far := State.wr_far s k i o _
@[simp] theorem State.storeResult_grooms (k : PageKind) (i o v : Nat) : (s.storeResult k i o v).grooms = s.grooms := State.wr_grooms s k i o _
@[simp] theorem State.storeResult_cluster (k : PageKind) (i o v : Nat) : (s.storeResult k i o v).cluster = s.cluster := State.wr_cluster s k i o _
@[simp] theorem State.storeResult_hbm (k : PageKind) (i o v : Nat) : (s.storeResult k i o v).hbm = s.hbm := State.wr_hbm s k i o _
@[simp] theorem State.storeResult_pending (k : PageKind) (i o v : Nat) : (s.storeResult k i o v).pending = s.pending := State.wr_pending s k i o _

/-! `ringSet` -/

@[simp] theorem State.ringSet_now (n o lo w v : Nat) : (s.ringSet n o lo w v).now = s.now := rfl
@[simp] theorem State.ringSet_epoch (n o lo w v : Nat) : (s.ringSet n o lo w v).epoch = s.epoch := rfl
@[simp] theorem State.ringSet_epochLog (n o lo w v : Nat) : (s.ringSet n o lo w v).epochLog = s.epochLog := rfl
@[simp] theorem State.ringSet_free (n o lo w v : Nat) : (s.ringSet n o lo w v).free = s.free := rfl
@[simp] theorem State.ringSet_snaps (n o lo w v : Nat) : (s.ringSet n o lo w v).snaps = s.snaps := rfl
@[simp] theorem State.ringSet_stage (n o lo w v : Nat) : (s.ringSet n o lo w v).stage = s.stage := rfl
@[simp] theorem State.ringSet_resp (n o lo w v : Nat) : (s.ringSet n o lo w v).resp = s.resp := rfl
@[simp] theorem State.ringSet_sent (n o lo w v : Nat) : (s.ringSet n o lo w v).sent = s.sent := rfl
@[simp] theorem State.ringSet_pins (n o lo w v : Nat) : (s.ringSet n o lo w v).pins = s.pins := rfl
@[simp] theorem State.ringSet_mode (n o lo w v : Nat) : (s.ringSet n o lo w v).mode = s.mode := rfl
@[simp] theorem State.ringSet_lan (n o lo w v : Nat) : (s.ringSet n o lo w v).lan = s.lan := rfl
@[simp] theorem State.ringSet_otp (n o lo w v : Nat) : (s.ringSet n o lo w v).otp = s.otp := rfl
@[simp] theorem State.ringSet_flash (n o lo w v : Nat) : (s.ringSet n o lo w v).flash = s.flash := rfl
@[simp] theorem State.ringSet_hay (n o lo w v : Nat) : (s.ringSet n o lo w v).hay = s.hay := rfl
@[simp] theorem State.ringSet_keys (n o lo w v : Nat) : (s.ringSet n o lo w v).keys = s.keys := rfl
@[simp] theorem State.ringSet_keyGen (n o lo w v : Nat) : (s.ringSet n o lo w v).keyGen = s.keyGen := rfl
@[simp] theorem State.ringSet_regions (n o lo w v : Nat) : (s.ringSet n o lo w v).regions = s.regions := rfl
@[simp] theorem State.ringSet_rings (n o lo w v : Nat) : (s.ringSet n o lo w v).rings = s.rings := rfl
@[simp] theorem State.ringSet_fns (n o lo w v : Nat) : (s.ringSet n o lo w v).fns = s.fns := rfl
@[simp] theorem State.ringSet_vmask (n o lo w v : Nat) : (s.ringSet n o lo w v).vmask = s.vmask := rfl
@[simp] theorem State.ringSet_msix (n o lo w v : Nat) : (s.ringSet n o lo w v).msix = s.msix := rfl
@[simp] theorem State.ringSet_pba (n o lo w v : Nat) : (s.ringSet n o lo w v).pba = s.pba := rfl
@[simp] theorem State.ringSet_stalls (n o lo w v : Nat) : (s.ringSet n o lo w v).stalls = s.stalls := rfl
@[simp] theorem State.ringSet_follow (n o lo w v : Nat) : (s.ringSet n o lo w v).follow = s.follow := rfl
@[simp] theorem State.ringSet_tsEdges (n o lo w v : Nat) : (s.ringSet n o lo w v).tsEdges = s.tsEdges := rfl
@[simp] theorem State.ringSet_tsDirty (n o lo w v : Nat) : (s.ringSet n o lo w v).tsDirty = s.tsDirty := rfl
@[simp] theorem State.ringSet_armed (n o lo w v : Nat) : (s.ringSet n o lo w v).armed = s.armed := rfl
@[simp] theorem State.ringSet_chans (n o lo w v : Nat) : (s.ringSet n o lo w v).chans = s.chans := rfl
@[simp] theorem State.ringSet_seqs (n o lo w v : Nat) : (s.ringSet n o lo w v).seqs = s.seqs := rfl
@[simp] theorem State.ringSet_catBuf (n o lo w v : Nat) : (s.ringSet n o lo w v).catBuf = s.catBuf := rfl
@[simp] theorem State.ringSet_tims (n o lo w v : Nat) : (s.ringSet n o lo w v).tims = s.tims := rfl
@[simp] theorem State.ringSet_verniers (n o lo w v : Nat) : (s.ringSet n o lo w v).verniers = s.verniers := rfl
@[simp] theorem State.ringSet_lastTrig (n o lo w v : Nat) : (s.ringSet n o lo w v).lastTrig = s.lastTrig := rfl
@[simp] theorem State.ringSet_pmus (n o lo w v : Nat) : (s.ringSet n o lo w v).pmus = s.pmus := rfl
@[simp] theorem State.ringSet_waves (n o lo w v : Nat) : (s.ringSet n o lo w v).waves = s.waves := rfl
@[simp] theorem State.ringSet_caps (n o lo w v : Nat) : (s.ringSet n o lo w v).caps = s.caps := rfl
@[simp] theorem State.ringSet_acqs (n o lo w v : Nat) : (s.ringSet n o lo w v).acqs = s.acqs := rfl
@[simp] theorem State.ringSet_cnvs (n o lo w v : Nat) : (s.ringSet n o lo w v).cnvs = s.cnvs := rfl
@[simp] theorem State.ringSet_line (n o lo w v : Nat) : (s.ringSet n o lo w v).line = s.line := rfl
@[simp] theorem State.ringSet_evHist (n o lo w v : Nat) : (s.ringSet n o lo w v).evHist = s.evHist := rfl
@[simp] theorem State.ringSet_ticking (n o lo w v : Nat) : (s.ringSet n o lo w v).ticking = s.ticking := rfl
@[simp] theorem State.ringSet_trips (n o lo w v : Nat) : (s.ringSet n o lo w v).trips = s.trips := rfl
@[simp] theorem State.ringSet_onsets (n o lo w v : Nat) : (s.ringSet n o lo w v).onsets = s.onsets := rfl
@[simp] theorem State.ringSet_sampling (n o lo w v : Nat) : (s.ringSet n o lo w v).sampling = s.sampling := rfl
@[simp] theorem State.ringSet_wchPend (n o lo w v : Nat) : (s.ringSet n o lo w v).wchPend = s.wchPend := rfl
@[simp] theorem State.ringSet_idxs (n o lo w v : Nat) : (s.ringSet n o lo w v).idxs = s.idxs := rfl
@[simp] theorem State.ringSet_gth (n o lo w v : Nat) : (s.ringSet n o lo w v).gth = s.gth := rfl
@[simp] theorem State.ringSet_halter (n o lo w v : Nat) : (s.ringSet n o lo w v).halter = s.halter := rfl
@[simp] theorem State.ringSet_rst (n o lo w v : Nat) : (s.ringSet n o lo w v).rst = s.rst := rfl
@[simp] theorem State.ringSet_weather (n o lo w v : Nat) : (s.ringSet n o lo w v).weather = s.weather := rfl
@[simp] theorem State.ringSet_cpl (n o lo w v : Nat) : (s.ringSet n o lo w v).cpl = s.cpl := rfl
@[simp] theorem State.ringSet_tap (n o lo w v : Nat) : (s.ringSet n o lo w v).tap = s.tap := rfl
@[simp] theorem State.ringSet_far (n o lo w v : Nat) : (s.ringSet n o lo w v).far = s.far := rfl
@[simp] theorem State.ringSet_grooms (n o lo w v : Nat) : (s.ringSet n o lo w v).grooms = s.grooms := rfl
@[simp] theorem State.ringSet_cluster (n o lo w v : Nat) : (s.ringSet n o lo w v).cluster = s.cluster := rfl
@[simp] theorem State.ringSet_hbm (n o lo w v : Nat) : (s.ringSet n o lo w v).hbm = s.hbm := rfl
@[simp] theorem State.ringSet_pending (n o lo w v : Nat) : (s.ringSet n o lo w v).pending = s.pending := rfl

/-! `setStall` -/

@[simp] theorem State.setStall_now (i : Nat) (v : StallSt) : (s.setStall i v).now = s.now := rfl
@[simp] theorem State.setStall_epoch (i : Nat) (v : StallSt) : (s.setStall i v).epoch = s.epoch := rfl
@[simp] theorem State.setStall_epochLog (i : Nat) (v : StallSt) : (s.setStall i v).epochLog = s.epochLog := rfl
@[simp] theorem State.setStall_free (i : Nat) (v : StallSt) : (s.setStall i v).free = s.free := rfl
@[simp] theorem State.setStall_regs (i : Nat) (v : StallSt) : (s.setStall i v).regs = s.regs := rfl
@[simp] theorem State.setStall_snaps (i : Nat) (v : StallSt) : (s.setStall i v).snaps = s.snaps := rfl
@[simp] theorem State.setStall_stage (i : Nat) (v : StallSt) : (s.setStall i v).stage = s.stage := rfl
@[simp] theorem State.setStall_resp (i : Nat) (v : StallSt) : (s.setStall i v).resp = s.resp := rfl
@[simp] theorem State.setStall_sent (i : Nat) (v : StallSt) : (s.setStall i v).sent = s.sent := rfl
@[simp] theorem State.setStall_pins (i : Nat) (v : StallSt) : (s.setStall i v).pins = s.pins := rfl
@[simp] theorem State.setStall_mode (i : Nat) (v : StallSt) : (s.setStall i v).mode = s.mode := rfl
@[simp] theorem State.setStall_lan (i : Nat) (v : StallSt) : (s.setStall i v).lan = s.lan := rfl
@[simp] theorem State.setStall_otp (i : Nat) (v : StallSt) : (s.setStall i v).otp = s.otp := rfl
@[simp] theorem State.setStall_flash (i : Nat) (v : StallSt) : (s.setStall i v).flash = s.flash := rfl
@[simp] theorem State.setStall_hay (i : Nat) (v : StallSt) : (s.setStall i v).hay = s.hay := rfl
@[simp] theorem State.setStall_keys (i : Nat) (v : StallSt) : (s.setStall i v).keys = s.keys := rfl
@[simp] theorem State.setStall_keyGen (i : Nat) (v : StallSt) : (s.setStall i v).keyGen = s.keyGen := rfl
@[simp] theorem State.setStall_regions (i : Nat) (v : StallSt) : (s.setStall i v).regions = s.regions := rfl
@[simp] theorem State.setStall_rings (i : Nat) (v : StallSt) : (s.setStall i v).rings = s.rings := rfl
@[simp] theorem State.setStall_fns (i : Nat) (v : StallSt) : (s.setStall i v).fns = s.fns := rfl
@[simp] theorem State.setStall_vmask (i : Nat) (v : StallSt) : (s.setStall i v).vmask = s.vmask := rfl
@[simp] theorem State.setStall_msix (i : Nat) (v : StallSt) : (s.setStall i v).msix = s.msix := rfl
@[simp] theorem State.setStall_pba (i : Nat) (v : StallSt) : (s.setStall i v).pba = s.pba := rfl
@[simp] theorem State.setStall_follow (i : Nat) (v : StallSt) : (s.setStall i v).follow = s.follow := rfl
@[simp] theorem State.setStall_tsEdges (i : Nat) (v : StallSt) : (s.setStall i v).tsEdges = s.tsEdges := rfl
@[simp] theorem State.setStall_tsDirty (i : Nat) (v : StallSt) : (s.setStall i v).tsDirty = s.tsDirty := rfl
@[simp] theorem State.setStall_armed (i : Nat) (v : StallSt) : (s.setStall i v).armed = s.armed := rfl
@[simp] theorem State.setStall_chans (i : Nat) (v : StallSt) : (s.setStall i v).chans = s.chans := rfl
@[simp] theorem State.setStall_seqs (i : Nat) (v : StallSt) : (s.setStall i v).seqs = s.seqs := rfl
@[simp] theorem State.setStall_catBuf (i : Nat) (v : StallSt) : (s.setStall i v).catBuf = s.catBuf := rfl
@[simp] theorem State.setStall_tims (i : Nat) (v : StallSt) : (s.setStall i v).tims = s.tims := rfl
@[simp] theorem State.setStall_verniers (i : Nat) (v : StallSt) : (s.setStall i v).verniers = s.verniers := rfl
@[simp] theorem State.setStall_lastTrig (i : Nat) (v : StallSt) : (s.setStall i v).lastTrig = s.lastTrig := rfl
@[simp] theorem State.setStall_pmus (i : Nat) (v : StallSt) : (s.setStall i v).pmus = s.pmus := rfl
@[simp] theorem State.setStall_waves (i : Nat) (v : StallSt) : (s.setStall i v).waves = s.waves := rfl
@[simp] theorem State.setStall_caps (i : Nat) (v : StallSt) : (s.setStall i v).caps = s.caps := rfl
@[simp] theorem State.setStall_acqs (i : Nat) (v : StallSt) : (s.setStall i v).acqs = s.acqs := rfl
@[simp] theorem State.setStall_cnvs (i : Nat) (v : StallSt) : (s.setStall i v).cnvs = s.cnvs := rfl
@[simp] theorem State.setStall_line (i : Nat) (v : StallSt) : (s.setStall i v).line = s.line := rfl
@[simp] theorem State.setStall_evHist (i : Nat) (v : StallSt) : (s.setStall i v).evHist = s.evHist := rfl
@[simp] theorem State.setStall_ticking (i : Nat) (v : StallSt) : (s.setStall i v).ticking = s.ticking := rfl
@[simp] theorem State.setStall_trips (i : Nat) (v : StallSt) : (s.setStall i v).trips = s.trips := rfl
@[simp] theorem State.setStall_onsets (i : Nat) (v : StallSt) : (s.setStall i v).onsets = s.onsets := rfl
@[simp] theorem State.setStall_sampling (i : Nat) (v : StallSt) : (s.setStall i v).sampling = s.sampling := rfl
@[simp] theorem State.setStall_wchPend (i : Nat) (v : StallSt) : (s.setStall i v).wchPend = s.wchPend := rfl
@[simp] theorem State.setStall_idxs (i : Nat) (v : StallSt) : (s.setStall i v).idxs = s.idxs := rfl
@[simp] theorem State.setStall_gth (i : Nat) (v : StallSt) : (s.setStall i v).gth = s.gth := rfl
@[simp] theorem State.setStall_halter (i : Nat) (v : StallSt) : (s.setStall i v).halter = s.halter := rfl
@[simp] theorem State.setStall_rst (i : Nat) (v : StallSt) : (s.setStall i v).rst = s.rst := rfl
@[simp] theorem State.setStall_weather (i : Nat) (v : StallSt) : (s.setStall i v).weather = s.weather := rfl
@[simp] theorem State.setStall_cpl (i : Nat) (v : StallSt) : (s.setStall i v).cpl = s.cpl := rfl
@[simp] theorem State.setStall_tap (i : Nat) (v : StallSt) : (s.setStall i v).tap = s.tap := rfl
@[simp] theorem State.setStall_far (i : Nat) (v : StallSt) : (s.setStall i v).far = s.far := rfl
@[simp] theorem State.setStall_grooms (i : Nat) (v : StallSt) : (s.setStall i v).grooms = s.grooms := rfl
@[simp] theorem State.setStall_cluster (i : Nat) (v : StallSt) : (s.setStall i v).cluster = s.cluster := rfl
@[simp] theorem State.setStall_hbm (i : Nat) (v : StallSt) : (s.setStall i v).hbm = s.hbm := rfl
@[simp] theorem State.setStall_pending (i : Nat) (v : StallSt) : (s.setStall i v).pending = s.pending := rfl

/-! `setRing` -/

@[simp] theorem State.setRing_now (n : Nat) (v : RingSt) : (s.setRing n v).now = s.now := rfl
@[simp] theorem State.setRing_epoch (n : Nat) (v : RingSt) : (s.setRing n v).epoch = s.epoch := rfl
@[simp] theorem State.setRing_epochLog (n : Nat) (v : RingSt) : (s.setRing n v).epochLog = s.epochLog := rfl
@[simp] theorem State.setRing_free (n : Nat) (v : RingSt) : (s.setRing n v).free = s.free := rfl
@[simp] theorem State.setRing_regs (n : Nat) (v : RingSt) : (s.setRing n v).regs = s.regs := rfl
@[simp] theorem State.setRing_snaps (n : Nat) (v : RingSt) : (s.setRing n v).snaps = s.snaps := rfl
@[simp] theorem State.setRing_stage (n : Nat) (v : RingSt) : (s.setRing n v).stage = s.stage := rfl
@[simp] theorem State.setRing_resp (n : Nat) (v : RingSt) : (s.setRing n v).resp = s.resp := rfl
@[simp] theorem State.setRing_sent (n : Nat) (v : RingSt) : (s.setRing n v).sent = s.sent := rfl
@[simp] theorem State.setRing_pins (n : Nat) (v : RingSt) : (s.setRing n v).pins = s.pins := rfl
@[simp] theorem State.setRing_mode (n : Nat) (v : RingSt) : (s.setRing n v).mode = s.mode := rfl
@[simp] theorem State.setRing_lan (n : Nat) (v : RingSt) : (s.setRing n v).lan = s.lan := rfl
@[simp] theorem State.setRing_otp (n : Nat) (v : RingSt) : (s.setRing n v).otp = s.otp := rfl
@[simp] theorem State.setRing_flash (n : Nat) (v : RingSt) : (s.setRing n v).flash = s.flash := rfl
@[simp] theorem State.setRing_hay (n : Nat) (v : RingSt) : (s.setRing n v).hay = s.hay := rfl
@[simp] theorem State.setRing_keys (n : Nat) (v : RingSt) : (s.setRing n v).keys = s.keys := rfl
@[simp] theorem State.setRing_keyGen (n : Nat) (v : RingSt) : (s.setRing n v).keyGen = s.keyGen := rfl
@[simp] theorem State.setRing_regions (n : Nat) (v : RingSt) : (s.setRing n v).regions = s.regions := rfl
@[simp] theorem State.setRing_fns (n : Nat) (v : RingSt) : (s.setRing n v).fns = s.fns := rfl
@[simp] theorem State.setRing_vmask (n : Nat) (v : RingSt) : (s.setRing n v).vmask = s.vmask := rfl
@[simp] theorem State.setRing_msix (n : Nat) (v : RingSt) : (s.setRing n v).msix = s.msix := rfl
@[simp] theorem State.setRing_pba (n : Nat) (v : RingSt) : (s.setRing n v).pba = s.pba := rfl
@[simp] theorem State.setRing_stalls (n : Nat) (v : RingSt) : (s.setRing n v).stalls = s.stalls := rfl
@[simp] theorem State.setRing_follow (n : Nat) (v : RingSt) : (s.setRing n v).follow = s.follow := rfl
@[simp] theorem State.setRing_tsEdges (n : Nat) (v : RingSt) : (s.setRing n v).tsEdges = s.tsEdges := rfl
@[simp] theorem State.setRing_tsDirty (n : Nat) (v : RingSt) : (s.setRing n v).tsDirty = s.tsDirty := rfl
@[simp] theorem State.setRing_armed (n : Nat) (v : RingSt) : (s.setRing n v).armed = s.armed := rfl
@[simp] theorem State.setRing_chans (n : Nat) (v : RingSt) : (s.setRing n v).chans = s.chans := rfl
@[simp] theorem State.setRing_seqs (n : Nat) (v : RingSt) : (s.setRing n v).seqs = s.seqs := rfl
@[simp] theorem State.setRing_catBuf (n : Nat) (v : RingSt) : (s.setRing n v).catBuf = s.catBuf := rfl
@[simp] theorem State.setRing_tims (n : Nat) (v : RingSt) : (s.setRing n v).tims = s.tims := rfl
@[simp] theorem State.setRing_verniers (n : Nat) (v : RingSt) : (s.setRing n v).verniers = s.verniers := rfl
@[simp] theorem State.setRing_lastTrig (n : Nat) (v : RingSt) : (s.setRing n v).lastTrig = s.lastTrig := rfl
@[simp] theorem State.setRing_pmus (n : Nat) (v : RingSt) : (s.setRing n v).pmus = s.pmus := rfl
@[simp] theorem State.setRing_waves (n : Nat) (v : RingSt) : (s.setRing n v).waves = s.waves := rfl
@[simp] theorem State.setRing_caps (n : Nat) (v : RingSt) : (s.setRing n v).caps = s.caps := rfl
@[simp] theorem State.setRing_acqs (n : Nat) (v : RingSt) : (s.setRing n v).acqs = s.acqs := rfl
@[simp] theorem State.setRing_cnvs (n : Nat) (v : RingSt) : (s.setRing n v).cnvs = s.cnvs := rfl
@[simp] theorem State.setRing_line (n : Nat) (v : RingSt) : (s.setRing n v).line = s.line := rfl
@[simp] theorem State.setRing_evHist (n : Nat) (v : RingSt) : (s.setRing n v).evHist = s.evHist := rfl
@[simp] theorem State.setRing_ticking (n : Nat) (v : RingSt) : (s.setRing n v).ticking = s.ticking := rfl
@[simp] theorem State.setRing_trips (n : Nat) (v : RingSt) : (s.setRing n v).trips = s.trips := rfl
@[simp] theorem State.setRing_onsets (n : Nat) (v : RingSt) : (s.setRing n v).onsets = s.onsets := rfl
@[simp] theorem State.setRing_sampling (n : Nat) (v : RingSt) : (s.setRing n v).sampling = s.sampling := rfl
@[simp] theorem State.setRing_wchPend (n : Nat) (v : RingSt) : (s.setRing n v).wchPend = s.wchPend := rfl
@[simp] theorem State.setRing_idxs (n : Nat) (v : RingSt) : (s.setRing n v).idxs = s.idxs := rfl
@[simp] theorem State.setRing_gth (n : Nat) (v : RingSt) : (s.setRing n v).gth = s.gth := rfl
@[simp] theorem State.setRing_halter (n : Nat) (v : RingSt) : (s.setRing n v).halter = s.halter := rfl
@[simp] theorem State.setRing_rst (n : Nat) (v : RingSt) : (s.setRing n v).rst = s.rst := rfl
@[simp] theorem State.setRing_weather (n : Nat) (v : RingSt) : (s.setRing n v).weather = s.weather := rfl
@[simp] theorem State.setRing_cpl (n : Nat) (v : RingSt) : (s.setRing n v).cpl = s.cpl := rfl
@[simp] theorem State.setRing_tap (n : Nat) (v : RingSt) : (s.setRing n v).tap = s.tap := rfl
@[simp] theorem State.setRing_far (n : Nat) (v : RingSt) : (s.setRing n v).far = s.far := rfl
@[simp] theorem State.setRing_grooms (n : Nat) (v : RingSt) : (s.setRing n v).grooms = s.grooms := rfl
@[simp] theorem State.setRing_cluster (n : Nat) (v : RingSt) : (s.setRing n v).cluster = s.cluster := rfl
@[simp] theorem State.setRing_hbm (n : Nat) (v : RingSt) : (s.setRing n v).hbm = s.hbm := rfl
@[simp] theorem State.setRing_pending (n : Nat) (v : RingSt) : (s.setRing n v).pending = s.pending := rfl

/-! `setFnCfg` -/

@[simp] theorem State.setFnCfg_now (f : Nat) (v : FnCfg) : (s.setFnCfg f v).now = s.now := rfl
@[simp] theorem State.setFnCfg_epoch (f : Nat) (v : FnCfg) : (s.setFnCfg f v).epoch = s.epoch := rfl
@[simp] theorem State.setFnCfg_epochLog (f : Nat) (v : FnCfg) : (s.setFnCfg f v).epochLog = s.epochLog := rfl
@[simp] theorem State.setFnCfg_free (f : Nat) (v : FnCfg) : (s.setFnCfg f v).free = s.free := rfl
@[simp] theorem State.setFnCfg_regs (f : Nat) (v : FnCfg) : (s.setFnCfg f v).regs = s.regs := rfl
@[simp] theorem State.setFnCfg_snaps (f : Nat) (v : FnCfg) : (s.setFnCfg f v).snaps = s.snaps := rfl
@[simp] theorem State.setFnCfg_stage (f : Nat) (v : FnCfg) : (s.setFnCfg f v).stage = s.stage := rfl
@[simp] theorem State.setFnCfg_resp (f : Nat) (v : FnCfg) : (s.setFnCfg f v).resp = s.resp := rfl
@[simp] theorem State.setFnCfg_sent (f : Nat) (v : FnCfg) : (s.setFnCfg f v).sent = s.sent := rfl
@[simp] theorem State.setFnCfg_pins (f : Nat) (v : FnCfg) : (s.setFnCfg f v).pins = s.pins := rfl
@[simp] theorem State.setFnCfg_mode (f : Nat) (v : FnCfg) : (s.setFnCfg f v).mode = s.mode := rfl
@[simp] theorem State.setFnCfg_lan (f : Nat) (v : FnCfg) : (s.setFnCfg f v).lan = s.lan := rfl
@[simp] theorem State.setFnCfg_otp (f : Nat) (v : FnCfg) : (s.setFnCfg f v).otp = s.otp := rfl
@[simp] theorem State.setFnCfg_flash (f : Nat) (v : FnCfg) : (s.setFnCfg f v).flash = s.flash := rfl
@[simp] theorem State.setFnCfg_hay (f : Nat) (v : FnCfg) : (s.setFnCfg f v).hay = s.hay := rfl
@[simp] theorem State.setFnCfg_keys (f : Nat) (v : FnCfg) : (s.setFnCfg f v).keys = s.keys := rfl
@[simp] theorem State.setFnCfg_keyGen (f : Nat) (v : FnCfg) : (s.setFnCfg f v).keyGen = s.keyGen := rfl
@[simp] theorem State.setFnCfg_regions (f : Nat) (v : FnCfg) : (s.setFnCfg f v).regions = s.regions := rfl
@[simp] theorem State.setFnCfg_rings (f : Nat) (v : FnCfg) : (s.setFnCfg f v).rings = s.rings := rfl
@[simp] theorem State.setFnCfg_vmask (f : Nat) (v : FnCfg) : (s.setFnCfg f v).vmask = s.vmask := rfl
@[simp] theorem State.setFnCfg_msix (f : Nat) (v : FnCfg) : (s.setFnCfg f v).msix = s.msix := rfl
@[simp] theorem State.setFnCfg_pba (f : Nat) (v : FnCfg) : (s.setFnCfg f v).pba = s.pba := rfl
@[simp] theorem State.setFnCfg_stalls (f : Nat) (v : FnCfg) : (s.setFnCfg f v).stalls = s.stalls := rfl
@[simp] theorem State.setFnCfg_follow (f : Nat) (v : FnCfg) : (s.setFnCfg f v).follow = s.follow := rfl
@[simp] theorem State.setFnCfg_tsEdges (f : Nat) (v : FnCfg) : (s.setFnCfg f v).tsEdges = s.tsEdges := rfl
@[simp] theorem State.setFnCfg_tsDirty (f : Nat) (v : FnCfg) : (s.setFnCfg f v).tsDirty = s.tsDirty := rfl
@[simp] theorem State.setFnCfg_armed (f : Nat) (v : FnCfg) : (s.setFnCfg f v).armed = s.armed := rfl
@[simp] theorem State.setFnCfg_chans (f : Nat) (v : FnCfg) : (s.setFnCfg f v).chans = s.chans := rfl
@[simp] theorem State.setFnCfg_seqs (f : Nat) (v : FnCfg) : (s.setFnCfg f v).seqs = s.seqs := rfl
@[simp] theorem State.setFnCfg_catBuf (f : Nat) (v : FnCfg) : (s.setFnCfg f v).catBuf = s.catBuf := rfl
@[simp] theorem State.setFnCfg_tims (f : Nat) (v : FnCfg) : (s.setFnCfg f v).tims = s.tims := rfl
@[simp] theorem State.setFnCfg_verniers (f : Nat) (v : FnCfg) : (s.setFnCfg f v).verniers = s.verniers := rfl
@[simp] theorem State.setFnCfg_lastTrig (f : Nat) (v : FnCfg) : (s.setFnCfg f v).lastTrig = s.lastTrig := rfl
@[simp] theorem State.setFnCfg_pmus (f : Nat) (v : FnCfg) : (s.setFnCfg f v).pmus = s.pmus := rfl
@[simp] theorem State.setFnCfg_waves (f : Nat) (v : FnCfg) : (s.setFnCfg f v).waves = s.waves := rfl
@[simp] theorem State.setFnCfg_caps (f : Nat) (v : FnCfg) : (s.setFnCfg f v).caps = s.caps := rfl
@[simp] theorem State.setFnCfg_acqs (f : Nat) (v : FnCfg) : (s.setFnCfg f v).acqs = s.acqs := rfl
@[simp] theorem State.setFnCfg_cnvs (f : Nat) (v : FnCfg) : (s.setFnCfg f v).cnvs = s.cnvs := rfl
@[simp] theorem State.setFnCfg_line (f : Nat) (v : FnCfg) : (s.setFnCfg f v).line = s.line := rfl
@[simp] theorem State.setFnCfg_evHist (f : Nat) (v : FnCfg) : (s.setFnCfg f v).evHist = s.evHist := rfl
@[simp] theorem State.setFnCfg_ticking (f : Nat) (v : FnCfg) : (s.setFnCfg f v).ticking = s.ticking := rfl
@[simp] theorem State.setFnCfg_trips (f : Nat) (v : FnCfg) : (s.setFnCfg f v).trips = s.trips := rfl
@[simp] theorem State.setFnCfg_onsets (f : Nat) (v : FnCfg) : (s.setFnCfg f v).onsets = s.onsets := rfl
@[simp] theorem State.setFnCfg_sampling (f : Nat) (v : FnCfg) : (s.setFnCfg f v).sampling = s.sampling := rfl
@[simp] theorem State.setFnCfg_wchPend (f : Nat) (v : FnCfg) : (s.setFnCfg f v).wchPend = s.wchPend := rfl
@[simp] theorem State.setFnCfg_idxs (f : Nat) (v : FnCfg) : (s.setFnCfg f v).idxs = s.idxs := rfl
@[simp] theorem State.setFnCfg_gth (f : Nat) (v : FnCfg) : (s.setFnCfg f v).gth = s.gth := rfl
@[simp] theorem State.setFnCfg_halter (f : Nat) (v : FnCfg) : (s.setFnCfg f v).halter = s.halter := rfl
@[simp] theorem State.setFnCfg_rst (f : Nat) (v : FnCfg) : (s.setFnCfg f v).rst = s.rst := rfl
@[simp] theorem State.setFnCfg_weather (f : Nat) (v : FnCfg) : (s.setFnCfg f v).weather = s.weather := rfl
@[simp] theorem State.setFnCfg_cpl (f : Nat) (v : FnCfg) : (s.setFnCfg f v).cpl = s.cpl := rfl
@[simp] theorem State.setFnCfg_tap (f : Nat) (v : FnCfg) : (s.setFnCfg f v).tap = s.tap := rfl
@[simp] theorem State.setFnCfg_far (f : Nat) (v : FnCfg) : (s.setFnCfg f v).far = s.far := rfl
@[simp] theorem State.setFnCfg_grooms (f : Nat) (v : FnCfg) : (s.setFnCfg f v).grooms = s.grooms := rfl
@[simp] theorem State.setFnCfg_cluster (f : Nat) (v : FnCfg) : (s.setFnCfg f v).cluster = s.cluster := rfl
@[simp] theorem State.setFnCfg_hbm (f : Nat) (v : FnCfg) : (s.setFnCfg f v).hbm = s.hbm := rfl
@[simp] theorem State.setFnCfg_pending (f : Nat) (v : FnCfg) : (s.setFnCfg f v).pending = s.pending := rfl

/-! `setGroom` -/

@[simp] theorem State.setGroom_now (g : Nat) (v : GroomSt) : (s.setGroom g v).now = s.now := rfl
@[simp] theorem State.setGroom_epoch (g : Nat) (v : GroomSt) : (s.setGroom g v).epoch = s.epoch := rfl
@[simp] theorem State.setGroom_epochLog (g : Nat) (v : GroomSt) : (s.setGroom g v).epochLog = s.epochLog := rfl
@[simp] theorem State.setGroom_free (g : Nat) (v : GroomSt) : (s.setGroom g v).free = s.free := rfl
@[simp] theorem State.setGroom_regs (g : Nat) (v : GroomSt) : (s.setGroom g v).regs = s.regs := rfl
@[simp] theorem State.setGroom_snaps (g : Nat) (v : GroomSt) : (s.setGroom g v).snaps = s.snaps := rfl
@[simp] theorem State.setGroom_stage (g : Nat) (v : GroomSt) : (s.setGroom g v).stage = s.stage := rfl
@[simp] theorem State.setGroom_resp (g : Nat) (v : GroomSt) : (s.setGroom g v).resp = s.resp := rfl
@[simp] theorem State.setGroom_sent (g : Nat) (v : GroomSt) : (s.setGroom g v).sent = s.sent := rfl
@[simp] theorem State.setGroom_pins (g : Nat) (v : GroomSt) : (s.setGroom g v).pins = s.pins := rfl
@[simp] theorem State.setGroom_mode (g : Nat) (v : GroomSt) : (s.setGroom g v).mode = s.mode := rfl
@[simp] theorem State.setGroom_lan (g : Nat) (v : GroomSt) : (s.setGroom g v).lan = s.lan := rfl
@[simp] theorem State.setGroom_otp (g : Nat) (v : GroomSt) : (s.setGroom g v).otp = s.otp := rfl
@[simp] theorem State.setGroom_flash (g : Nat) (v : GroomSt) : (s.setGroom g v).flash = s.flash := rfl
@[simp] theorem State.setGroom_hay (g : Nat) (v : GroomSt) : (s.setGroom g v).hay = s.hay := rfl
@[simp] theorem State.setGroom_keys (g : Nat) (v : GroomSt) : (s.setGroom g v).keys = s.keys := rfl
@[simp] theorem State.setGroom_keyGen (g : Nat) (v : GroomSt) : (s.setGroom g v).keyGen = s.keyGen := rfl
@[simp] theorem State.setGroom_regions (g : Nat) (v : GroomSt) : (s.setGroom g v).regions = s.regions := rfl
@[simp] theorem State.setGroom_rings (g : Nat) (v : GroomSt) : (s.setGroom g v).rings = s.rings := rfl
@[simp] theorem State.setGroom_fns (g : Nat) (v : GroomSt) : (s.setGroom g v).fns = s.fns := rfl
@[simp] theorem State.setGroom_vmask (g : Nat) (v : GroomSt) : (s.setGroom g v).vmask = s.vmask := rfl
@[simp] theorem State.setGroom_msix (g : Nat) (v : GroomSt) : (s.setGroom g v).msix = s.msix := rfl
@[simp] theorem State.setGroom_pba (g : Nat) (v : GroomSt) : (s.setGroom g v).pba = s.pba := rfl
@[simp] theorem State.setGroom_stalls (g : Nat) (v : GroomSt) : (s.setGroom g v).stalls = s.stalls := rfl
@[simp] theorem State.setGroom_follow (g : Nat) (v : GroomSt) : (s.setGroom g v).follow = s.follow := rfl
@[simp] theorem State.setGroom_tsEdges (g : Nat) (v : GroomSt) : (s.setGroom g v).tsEdges = s.tsEdges := rfl
@[simp] theorem State.setGroom_tsDirty (g : Nat) (v : GroomSt) : (s.setGroom g v).tsDirty = s.tsDirty := rfl
@[simp] theorem State.setGroom_armed (g : Nat) (v : GroomSt) : (s.setGroom g v).armed = s.armed := rfl
@[simp] theorem State.setGroom_chans (g : Nat) (v : GroomSt) : (s.setGroom g v).chans = s.chans := rfl
@[simp] theorem State.setGroom_seqs (g : Nat) (v : GroomSt) : (s.setGroom g v).seqs = s.seqs := rfl
@[simp] theorem State.setGroom_catBuf (g : Nat) (v : GroomSt) : (s.setGroom g v).catBuf = s.catBuf := rfl
@[simp] theorem State.setGroom_tims (g : Nat) (v : GroomSt) : (s.setGroom g v).tims = s.tims := rfl
@[simp] theorem State.setGroom_verniers (g : Nat) (v : GroomSt) : (s.setGroom g v).verniers = s.verniers := rfl
@[simp] theorem State.setGroom_lastTrig (g : Nat) (v : GroomSt) : (s.setGroom g v).lastTrig = s.lastTrig := rfl
@[simp] theorem State.setGroom_pmus (g : Nat) (v : GroomSt) : (s.setGroom g v).pmus = s.pmus := rfl
@[simp] theorem State.setGroom_waves (g : Nat) (v : GroomSt) : (s.setGroom g v).waves = s.waves := rfl
@[simp] theorem State.setGroom_caps (g : Nat) (v : GroomSt) : (s.setGroom g v).caps = s.caps := rfl
@[simp] theorem State.setGroom_acqs (g : Nat) (v : GroomSt) : (s.setGroom g v).acqs = s.acqs := rfl
@[simp] theorem State.setGroom_cnvs (g : Nat) (v : GroomSt) : (s.setGroom g v).cnvs = s.cnvs := rfl
@[simp] theorem State.setGroom_line (g : Nat) (v : GroomSt) : (s.setGroom g v).line = s.line := rfl
@[simp] theorem State.setGroom_evHist (g : Nat) (v : GroomSt) : (s.setGroom g v).evHist = s.evHist := rfl
@[simp] theorem State.setGroom_ticking (g : Nat) (v : GroomSt) : (s.setGroom g v).ticking = s.ticking := rfl
@[simp] theorem State.setGroom_trips (g : Nat) (v : GroomSt) : (s.setGroom g v).trips = s.trips := rfl
@[simp] theorem State.setGroom_onsets (g : Nat) (v : GroomSt) : (s.setGroom g v).onsets = s.onsets := rfl
@[simp] theorem State.setGroom_sampling (g : Nat) (v : GroomSt) : (s.setGroom g v).sampling = s.sampling := rfl
@[simp] theorem State.setGroom_wchPend (g : Nat) (v : GroomSt) : (s.setGroom g v).wchPend = s.wchPend := rfl
@[simp] theorem State.setGroom_idxs (g : Nat) (v : GroomSt) : (s.setGroom g v).idxs = s.idxs := rfl
@[simp] theorem State.setGroom_gth (g : Nat) (v : GroomSt) : (s.setGroom g v).gth = s.gth := rfl
@[simp] theorem State.setGroom_halter (g : Nat) (v : GroomSt) : (s.setGroom g v).halter = s.halter := rfl
@[simp] theorem State.setGroom_rst (g : Nat) (v : GroomSt) : (s.setGroom g v).rst = s.rst := rfl
@[simp] theorem State.setGroom_weather (g : Nat) (v : GroomSt) : (s.setGroom g v).weather = s.weather := rfl
@[simp] theorem State.setGroom_cpl (g : Nat) (v : GroomSt) : (s.setGroom g v).cpl = s.cpl := rfl
@[simp] theorem State.setGroom_tap (g : Nat) (v : GroomSt) : (s.setGroom g v).tap = s.tap := rfl
@[simp] theorem State.setGroom_far (g : Nat) (v : GroomSt) : (s.setGroom g v).far = s.far := rfl
@[simp] theorem State.setGroom_cluster (g : Nat) (v : GroomSt) : (s.setGroom g v).cluster = s.cluster := rfl
@[simp] theorem State.setGroom_hbm (g : Nat) (v : GroomSt) : (s.setGroom g v).hbm = s.hbm := rfl
@[simp] theorem State.setGroom_pending (g : Nat) (v : GroomSt) : (s.setGroom g v).pending = s.pending := rfl

/-! `setCtx` -/

@[simp] theorem State.setCtx_now (g : Nat) (c : Ctx) : (s.setCtx g c).now = s.now := rfl
@[simp] theorem State.setCtx_epoch (g : Nat) (c : Ctx) : (s.setCtx g c).epoch = s.epoch := rfl
@[simp] theorem State.setCtx_epochLog (g : Nat) (c : Ctx) : (s.setCtx g c).epochLog = s.epochLog := rfl
@[simp] theorem State.setCtx_free (g : Nat) (c : Ctx) : (s.setCtx g c).free = s.free := rfl
@[simp] theorem State.setCtx_regs (g : Nat) (c : Ctx) : (s.setCtx g c).regs = s.regs := rfl
@[simp] theorem State.setCtx_snaps (g : Nat) (c : Ctx) : (s.setCtx g c).snaps = s.snaps := rfl
@[simp] theorem State.setCtx_stage (g : Nat) (c : Ctx) : (s.setCtx g c).stage = s.stage := rfl
@[simp] theorem State.setCtx_resp (g : Nat) (c : Ctx) : (s.setCtx g c).resp = s.resp := rfl
@[simp] theorem State.setCtx_sent (g : Nat) (c : Ctx) : (s.setCtx g c).sent = s.sent := rfl
@[simp] theorem State.setCtx_pins (g : Nat) (c : Ctx) : (s.setCtx g c).pins = s.pins := rfl
@[simp] theorem State.setCtx_mode (g : Nat) (c : Ctx) : (s.setCtx g c).mode = s.mode := rfl
@[simp] theorem State.setCtx_lan (g : Nat) (c : Ctx) : (s.setCtx g c).lan = s.lan := rfl
@[simp] theorem State.setCtx_otp (g : Nat) (c : Ctx) : (s.setCtx g c).otp = s.otp := rfl
@[simp] theorem State.setCtx_flash (g : Nat) (c : Ctx) : (s.setCtx g c).flash = s.flash := rfl
@[simp] theorem State.setCtx_hay (g : Nat) (c : Ctx) : (s.setCtx g c).hay = s.hay := rfl
@[simp] theorem State.setCtx_keys (g : Nat) (c : Ctx) : (s.setCtx g c).keys = s.keys := rfl
@[simp] theorem State.setCtx_keyGen (g : Nat) (c : Ctx) : (s.setCtx g c).keyGen = s.keyGen := rfl
@[simp] theorem State.setCtx_regions (g : Nat) (c : Ctx) : (s.setCtx g c).regions = s.regions := rfl
@[simp] theorem State.setCtx_rings (g : Nat) (c : Ctx) : (s.setCtx g c).rings = s.rings := rfl
@[simp] theorem State.setCtx_fns (g : Nat) (c : Ctx) : (s.setCtx g c).fns = s.fns := rfl
@[simp] theorem State.setCtx_vmask (g : Nat) (c : Ctx) : (s.setCtx g c).vmask = s.vmask := rfl
@[simp] theorem State.setCtx_msix (g : Nat) (c : Ctx) : (s.setCtx g c).msix = s.msix := rfl
@[simp] theorem State.setCtx_pba (g : Nat) (c : Ctx) : (s.setCtx g c).pba = s.pba := rfl
@[simp] theorem State.setCtx_stalls (g : Nat) (c : Ctx) : (s.setCtx g c).stalls = s.stalls := rfl
@[simp] theorem State.setCtx_follow (g : Nat) (c : Ctx) : (s.setCtx g c).follow = s.follow := rfl
@[simp] theorem State.setCtx_tsEdges (g : Nat) (c : Ctx) : (s.setCtx g c).tsEdges = s.tsEdges := rfl
@[simp] theorem State.setCtx_tsDirty (g : Nat) (c : Ctx) : (s.setCtx g c).tsDirty = s.tsDirty := rfl
@[simp] theorem State.setCtx_armed (g : Nat) (c : Ctx) : (s.setCtx g c).armed = s.armed := rfl
@[simp] theorem State.setCtx_chans (g : Nat) (c : Ctx) : (s.setCtx g c).chans = s.chans := rfl
@[simp] theorem State.setCtx_seqs (g : Nat) (c : Ctx) : (s.setCtx g c).seqs = s.seqs := rfl
@[simp] theorem State.setCtx_catBuf (g : Nat) (c : Ctx) : (s.setCtx g c).catBuf = s.catBuf := rfl
@[simp] theorem State.setCtx_tims (g : Nat) (c : Ctx) : (s.setCtx g c).tims = s.tims := rfl
@[simp] theorem State.setCtx_verniers (g : Nat) (c : Ctx) : (s.setCtx g c).verniers = s.verniers := rfl
@[simp] theorem State.setCtx_lastTrig (g : Nat) (c : Ctx) : (s.setCtx g c).lastTrig = s.lastTrig := rfl
@[simp] theorem State.setCtx_pmus (g : Nat) (c : Ctx) : (s.setCtx g c).pmus = s.pmus := rfl
@[simp] theorem State.setCtx_waves (g : Nat) (c : Ctx) : (s.setCtx g c).waves = s.waves := rfl
@[simp] theorem State.setCtx_caps (g : Nat) (c : Ctx) : (s.setCtx g c).caps = s.caps := rfl
@[simp] theorem State.setCtx_acqs (g : Nat) (c : Ctx) : (s.setCtx g c).acqs = s.acqs := rfl
@[simp] theorem State.setCtx_cnvs (g : Nat) (c : Ctx) : (s.setCtx g c).cnvs = s.cnvs := rfl
@[simp] theorem State.setCtx_line (g : Nat) (c : Ctx) : (s.setCtx g c).line = s.line := rfl
@[simp] theorem State.setCtx_evHist (g : Nat) (c : Ctx) : (s.setCtx g c).evHist = s.evHist := rfl
@[simp] theorem State.setCtx_ticking (g : Nat) (c : Ctx) : (s.setCtx g c).ticking = s.ticking := rfl
@[simp] theorem State.setCtx_trips (g : Nat) (c : Ctx) : (s.setCtx g c).trips = s.trips := rfl
@[simp] theorem State.setCtx_onsets (g : Nat) (c : Ctx) : (s.setCtx g c).onsets = s.onsets := rfl
@[simp] theorem State.setCtx_sampling (g : Nat) (c : Ctx) : (s.setCtx g c).sampling = s.sampling := rfl
@[simp] theorem State.setCtx_wchPend (g : Nat) (c : Ctx) : (s.setCtx g c).wchPend = s.wchPend := rfl
@[simp] theorem State.setCtx_idxs (g : Nat) (c : Ctx) : (s.setCtx g c).idxs = s.idxs := rfl
@[simp] theorem State.setCtx_gth (g : Nat) (c : Ctx) : (s.setCtx g c).gth = s.gth := rfl
@[simp] theorem State.setCtx_halter (g : Nat) (c : Ctx) : (s.setCtx g c).halter = s.halter := rfl
@[simp] theorem State.setCtx_rst (g : Nat) (c : Ctx) : (s.setCtx g c).rst = s.rst := rfl
@[simp] theorem State.setCtx_weather (g : Nat) (c : Ctx) : (s.setCtx g c).weather = s.weather := rfl
@[simp] theorem State.setCtx_cpl (g : Nat) (c : Ctx) : (s.setCtx g c).cpl = s.cpl := rfl
@[simp] theorem State.setCtx_tap (g : Nat) (c : Ctx) : (s.setCtx g c).tap = s.tap := rfl
@[simp] theorem State.setCtx_far (g : Nat) (c : Ctx) : (s.setCtx g c).far = s.far := rfl
@[simp] theorem State.setCtx_cluster (g : Nat) (c : Ctx) : (s.setCtx g c).cluster = s.cluster := rfl
@[simp] theorem State.setCtx_hbm (g : Nat) (c : Ctx) : (s.setCtx g c).hbm = s.hbm := rfl
@[simp] theorem State.setCtx_pending (g : Nat) (c : Ctx) : (s.setCtx g c).pending = s.pending := rfl

/-! `setSeq` -/

@[simp] theorem State.setSeq_now (q : Nat) (v : SeqSt) : (s.setSeq q v).now = s.now := rfl
@[simp] theorem State.setSeq_epoch (q : Nat) (v : SeqSt) : (s.setSeq q v).epoch = s.epoch := rfl
@[simp] theorem State.setSeq_epochLog (q : Nat) (v : SeqSt) : (s.setSeq q v).epochLog = s.epochLog := rfl
@[simp] theorem State.setSeq_free (q : Nat) (v : SeqSt) : (s.setSeq q v).free = s.free := rfl
@[simp] theorem State.setSeq_regs (q : Nat) (v : SeqSt) : (s.setSeq q v).regs = s.regs := rfl
@[simp] theorem State.setSeq_snaps (q : Nat) (v : SeqSt) : (s.setSeq q v).snaps = s.snaps := rfl
@[simp] theorem State.setSeq_stage (q : Nat) (v : SeqSt) : (s.setSeq q v).stage = s.stage := rfl
@[simp] theorem State.setSeq_resp (q : Nat) (v : SeqSt) : (s.setSeq q v).resp = s.resp := rfl
@[simp] theorem State.setSeq_sent (q : Nat) (v : SeqSt) : (s.setSeq q v).sent = s.sent := rfl
@[simp] theorem State.setSeq_pins (q : Nat) (v : SeqSt) : (s.setSeq q v).pins = s.pins := rfl
@[simp] theorem State.setSeq_mode (q : Nat) (v : SeqSt) : (s.setSeq q v).mode = s.mode := rfl
@[simp] theorem State.setSeq_lan (q : Nat) (v : SeqSt) : (s.setSeq q v).lan = s.lan := rfl
@[simp] theorem State.setSeq_otp (q : Nat) (v : SeqSt) : (s.setSeq q v).otp = s.otp := rfl
@[simp] theorem State.setSeq_flash (q : Nat) (v : SeqSt) : (s.setSeq q v).flash = s.flash := rfl
@[simp] theorem State.setSeq_hay (q : Nat) (v : SeqSt) : (s.setSeq q v).hay = s.hay := rfl
@[simp] theorem State.setSeq_keys (q : Nat) (v : SeqSt) : (s.setSeq q v).keys = s.keys := rfl
@[simp] theorem State.setSeq_keyGen (q : Nat) (v : SeqSt) : (s.setSeq q v).keyGen = s.keyGen := rfl
@[simp] theorem State.setSeq_regions (q : Nat) (v : SeqSt) : (s.setSeq q v).regions = s.regions := rfl
@[simp] theorem State.setSeq_rings (q : Nat) (v : SeqSt) : (s.setSeq q v).rings = s.rings := rfl
@[simp] theorem State.setSeq_fns (q : Nat) (v : SeqSt) : (s.setSeq q v).fns = s.fns := rfl
@[simp] theorem State.setSeq_vmask (q : Nat) (v : SeqSt) : (s.setSeq q v).vmask = s.vmask := rfl
@[simp] theorem State.setSeq_msix (q : Nat) (v : SeqSt) : (s.setSeq q v).msix = s.msix := rfl
@[simp] theorem State.setSeq_pba (q : Nat) (v : SeqSt) : (s.setSeq q v).pba = s.pba := rfl
@[simp] theorem State.setSeq_stalls (q : Nat) (v : SeqSt) : (s.setSeq q v).stalls = s.stalls := rfl
@[simp] theorem State.setSeq_follow (q : Nat) (v : SeqSt) : (s.setSeq q v).follow = s.follow := rfl
@[simp] theorem State.setSeq_tsEdges (q : Nat) (v : SeqSt) : (s.setSeq q v).tsEdges = s.tsEdges := rfl
@[simp] theorem State.setSeq_tsDirty (q : Nat) (v : SeqSt) : (s.setSeq q v).tsDirty = s.tsDirty := rfl
@[simp] theorem State.setSeq_armed (q : Nat) (v : SeqSt) : (s.setSeq q v).armed = s.armed := rfl
@[simp] theorem State.setSeq_chans (q : Nat) (v : SeqSt) : (s.setSeq q v).chans = s.chans := rfl
@[simp] theorem State.setSeq_catBuf (q : Nat) (v : SeqSt) : (s.setSeq q v).catBuf = s.catBuf := rfl
@[simp] theorem State.setSeq_tims (q : Nat) (v : SeqSt) : (s.setSeq q v).tims = s.tims := rfl
@[simp] theorem State.setSeq_verniers (q : Nat) (v : SeqSt) : (s.setSeq q v).verniers = s.verniers := rfl
@[simp] theorem State.setSeq_lastTrig (q : Nat) (v : SeqSt) : (s.setSeq q v).lastTrig = s.lastTrig := rfl
@[simp] theorem State.setSeq_pmus (q : Nat) (v : SeqSt) : (s.setSeq q v).pmus = s.pmus := rfl
@[simp] theorem State.setSeq_waves (q : Nat) (v : SeqSt) : (s.setSeq q v).waves = s.waves := rfl
@[simp] theorem State.setSeq_caps (q : Nat) (v : SeqSt) : (s.setSeq q v).caps = s.caps := rfl
@[simp] theorem State.setSeq_acqs (q : Nat) (v : SeqSt) : (s.setSeq q v).acqs = s.acqs := rfl
@[simp] theorem State.setSeq_cnvs (q : Nat) (v : SeqSt) : (s.setSeq q v).cnvs = s.cnvs := rfl
@[simp] theorem State.setSeq_line (q : Nat) (v : SeqSt) : (s.setSeq q v).line = s.line := rfl
@[simp] theorem State.setSeq_evHist (q : Nat) (v : SeqSt) : (s.setSeq q v).evHist = s.evHist := rfl
@[simp] theorem State.setSeq_ticking (q : Nat) (v : SeqSt) : (s.setSeq q v).ticking = s.ticking := rfl
@[simp] theorem State.setSeq_trips (q : Nat) (v : SeqSt) : (s.setSeq q v).trips = s.trips := rfl
@[simp] theorem State.setSeq_onsets (q : Nat) (v : SeqSt) : (s.setSeq q v).onsets = s.onsets := rfl
@[simp] theorem State.setSeq_sampling (q : Nat) (v : SeqSt) : (s.setSeq q v).sampling = s.sampling := rfl
@[simp] theorem State.setSeq_wchPend (q : Nat) (v : SeqSt) : (s.setSeq q v).wchPend = s.wchPend := rfl
@[simp] theorem State.setSeq_idxs (q : Nat) (v : SeqSt) : (s.setSeq q v).idxs = s.idxs := rfl
@[simp] theorem State.setSeq_gth (q : Nat) (v : SeqSt) : (s.setSeq q v).gth = s.gth := rfl
@[simp] theorem State.setSeq_halter (q : Nat) (v : SeqSt) : (s.setSeq q v).halter = s.halter := rfl
@[simp] theorem State.setSeq_rst (q : Nat) (v : SeqSt) : (s.setSeq q v).rst = s.rst := rfl
@[simp] theorem State.setSeq_weather (q : Nat) (v : SeqSt) : (s.setSeq q v).weather = s.weather := rfl
@[simp] theorem State.setSeq_cpl (q : Nat) (v : SeqSt) : (s.setSeq q v).cpl = s.cpl := rfl
@[simp] theorem State.setSeq_tap (q : Nat) (v : SeqSt) : (s.setSeq q v).tap = s.tap := rfl
@[simp] theorem State.setSeq_far (q : Nat) (v : SeqSt) : (s.setSeq q v).far = s.far := rfl
@[simp] theorem State.setSeq_grooms (q : Nat) (v : SeqSt) : (s.setSeq q v).grooms = s.grooms := rfl
@[simp] theorem State.setSeq_cluster (q : Nat) (v : SeqSt) : (s.setSeq q v).cluster = s.cluster := rfl
@[simp] theorem State.setSeq_hbm (q : Nat) (v : SeqSt) : (s.setSeq q v).hbm = s.hbm := rfl
@[simp] theorem State.setSeq_pending (q : Nat) (v : SeqSt) : (s.setSeq q v).pending = s.pending := rfl

/-! `setChan` -/

@[simp] theorem State.setChan_now (c : Nat) (v : ChanSt) : (s.setChan c v).now = s.now := rfl
@[simp] theorem State.setChan_epoch (c : Nat) (v : ChanSt) : (s.setChan c v).epoch = s.epoch := rfl
@[simp] theorem State.setChan_epochLog (c : Nat) (v : ChanSt) : (s.setChan c v).epochLog = s.epochLog := rfl
@[simp] theorem State.setChan_free (c : Nat) (v : ChanSt) : (s.setChan c v).free = s.free := rfl
@[simp] theorem State.setChan_regs (c : Nat) (v : ChanSt) : (s.setChan c v).regs = s.regs := rfl
@[simp] theorem State.setChan_snaps (c : Nat) (v : ChanSt) : (s.setChan c v).snaps = s.snaps := rfl
@[simp] theorem State.setChan_stage (c : Nat) (v : ChanSt) : (s.setChan c v).stage = s.stage := rfl
@[simp] theorem State.setChan_resp (c : Nat) (v : ChanSt) : (s.setChan c v).resp = s.resp := rfl
@[simp] theorem State.setChan_sent (c : Nat) (v : ChanSt) : (s.setChan c v).sent = s.sent := rfl
@[simp] theorem State.setChan_pins (c : Nat) (v : ChanSt) : (s.setChan c v).pins = s.pins := rfl
@[simp] theorem State.setChan_mode (c : Nat) (v : ChanSt) : (s.setChan c v).mode = s.mode := rfl
@[simp] theorem State.setChan_lan (c : Nat) (v : ChanSt) : (s.setChan c v).lan = s.lan := rfl
@[simp] theorem State.setChan_otp (c : Nat) (v : ChanSt) : (s.setChan c v).otp = s.otp := rfl
@[simp] theorem State.setChan_flash (c : Nat) (v : ChanSt) : (s.setChan c v).flash = s.flash := rfl
@[simp] theorem State.setChan_hay (c : Nat) (v : ChanSt) : (s.setChan c v).hay = s.hay := rfl
@[simp] theorem State.setChan_keys (c : Nat) (v : ChanSt) : (s.setChan c v).keys = s.keys := rfl
@[simp] theorem State.setChan_keyGen (c : Nat) (v : ChanSt) : (s.setChan c v).keyGen = s.keyGen := rfl
@[simp] theorem State.setChan_regions (c : Nat) (v : ChanSt) : (s.setChan c v).regions = s.regions := rfl
@[simp] theorem State.setChan_rings (c : Nat) (v : ChanSt) : (s.setChan c v).rings = s.rings := rfl
@[simp] theorem State.setChan_fns (c : Nat) (v : ChanSt) : (s.setChan c v).fns = s.fns := rfl
@[simp] theorem State.setChan_vmask (c : Nat) (v : ChanSt) : (s.setChan c v).vmask = s.vmask := rfl
@[simp] theorem State.setChan_msix (c : Nat) (v : ChanSt) : (s.setChan c v).msix = s.msix := rfl
@[simp] theorem State.setChan_pba (c : Nat) (v : ChanSt) : (s.setChan c v).pba = s.pba := rfl
@[simp] theorem State.setChan_stalls (c : Nat) (v : ChanSt) : (s.setChan c v).stalls = s.stalls := rfl
@[simp] theorem State.setChan_follow (c : Nat) (v : ChanSt) : (s.setChan c v).follow = s.follow := rfl
@[simp] theorem State.setChan_tsEdges (c : Nat) (v : ChanSt) : (s.setChan c v).tsEdges = s.tsEdges := rfl
@[simp] theorem State.setChan_tsDirty (c : Nat) (v : ChanSt) : (s.setChan c v).tsDirty = s.tsDirty := rfl
@[simp] theorem State.setChan_armed (c : Nat) (v : ChanSt) : (s.setChan c v).armed = s.armed := rfl
@[simp] theorem State.setChan_seqs (c : Nat) (v : ChanSt) : (s.setChan c v).seqs = s.seqs := rfl
@[simp] theorem State.setChan_catBuf (c : Nat) (v : ChanSt) : (s.setChan c v).catBuf = s.catBuf := rfl
@[simp] theorem State.setChan_tims (c : Nat) (v : ChanSt) : (s.setChan c v).tims = s.tims := rfl
@[simp] theorem State.setChan_verniers (c : Nat) (v : ChanSt) : (s.setChan c v).verniers = s.verniers := rfl
@[simp] theorem State.setChan_lastTrig (c : Nat) (v : ChanSt) : (s.setChan c v).lastTrig = s.lastTrig := rfl
@[simp] theorem State.setChan_pmus (c : Nat) (v : ChanSt) : (s.setChan c v).pmus = s.pmus := rfl
@[simp] theorem State.setChan_waves (c : Nat) (v : ChanSt) : (s.setChan c v).waves = s.waves := rfl
@[simp] theorem State.setChan_caps (c : Nat) (v : ChanSt) : (s.setChan c v).caps = s.caps := rfl
@[simp] theorem State.setChan_acqs (c : Nat) (v : ChanSt) : (s.setChan c v).acqs = s.acqs := rfl
@[simp] theorem State.setChan_cnvs (c : Nat) (v : ChanSt) : (s.setChan c v).cnvs = s.cnvs := rfl
@[simp] theorem State.setChan_line (c : Nat) (v : ChanSt) : (s.setChan c v).line = s.line := rfl
@[simp] theorem State.setChan_evHist (c : Nat) (v : ChanSt) : (s.setChan c v).evHist = s.evHist := rfl
@[simp] theorem State.setChan_ticking (c : Nat) (v : ChanSt) : (s.setChan c v).ticking = s.ticking := rfl
@[simp] theorem State.setChan_trips (c : Nat) (v : ChanSt) : (s.setChan c v).trips = s.trips := rfl
@[simp] theorem State.setChan_onsets (c : Nat) (v : ChanSt) : (s.setChan c v).onsets = s.onsets := rfl
@[simp] theorem State.setChan_sampling (c : Nat) (v : ChanSt) : (s.setChan c v).sampling = s.sampling := rfl
@[simp] theorem State.setChan_wchPend (c : Nat) (v : ChanSt) : (s.setChan c v).wchPend = s.wchPend := rfl
@[simp] theorem State.setChan_idxs (c : Nat) (v : ChanSt) : (s.setChan c v).idxs = s.idxs := rfl
@[simp] theorem State.setChan_gth (c : Nat) (v : ChanSt) : (s.setChan c v).gth = s.gth := rfl
@[simp] theorem State.setChan_halter (c : Nat) (v : ChanSt) : (s.setChan c v).halter = s.halter := rfl
@[simp] theorem State.setChan_rst (c : Nat) (v : ChanSt) : (s.setChan c v).rst = s.rst := rfl
@[simp] theorem State.setChan_weather (c : Nat) (v : ChanSt) : (s.setChan c v).weather = s.weather := rfl
@[simp] theorem State.setChan_cpl (c : Nat) (v : ChanSt) : (s.setChan c v).cpl = s.cpl := rfl
@[simp] theorem State.setChan_tap (c : Nat) (v : ChanSt) : (s.setChan c v).tap = s.tap := rfl
@[simp] theorem State.setChan_far (c : Nat) (v : ChanSt) : (s.setChan c v).far = s.far := rfl
@[simp] theorem State.setChan_grooms (c : Nat) (v : ChanSt) : (s.setChan c v).grooms = s.grooms := rfl
@[simp] theorem State.setChan_cluster (c : Nat) (v : ChanSt) : (s.setChan c v).cluster = s.cluster := rfl
@[simp] theorem State.setChan_hbm (c : Nat) (v : ChanSt) : (s.setChan c v).hbm = s.hbm := rfl
@[simp] theorem State.setChan_pending (c : Nat) (v : ChanSt) : (s.setChan c v).pending = s.pending := rfl

/-! `setTim` -/

@[simp] theorem State.setTim_now (i c : Nat) (v : TimUnit) : (s.setTim i c v).now = s.now := rfl
@[simp] theorem State.setTim_epoch (i c : Nat) (v : TimUnit) : (s.setTim i c v).epoch = s.epoch := rfl
@[simp] theorem State.setTim_epochLog (i c : Nat) (v : TimUnit) : (s.setTim i c v).epochLog = s.epochLog := rfl
@[simp] theorem State.setTim_free (i c : Nat) (v : TimUnit) : (s.setTim i c v).free = s.free := rfl
@[simp] theorem State.setTim_regs (i c : Nat) (v : TimUnit) : (s.setTim i c v).regs = s.regs := rfl
@[simp] theorem State.setTim_snaps (i c : Nat) (v : TimUnit) : (s.setTim i c v).snaps = s.snaps := rfl
@[simp] theorem State.setTim_stage (i c : Nat) (v : TimUnit) : (s.setTim i c v).stage = s.stage := rfl
@[simp] theorem State.setTim_resp (i c : Nat) (v : TimUnit) : (s.setTim i c v).resp = s.resp := rfl
@[simp] theorem State.setTim_sent (i c : Nat) (v : TimUnit) : (s.setTim i c v).sent = s.sent := rfl
@[simp] theorem State.setTim_pins (i c : Nat) (v : TimUnit) : (s.setTim i c v).pins = s.pins := rfl
@[simp] theorem State.setTim_mode (i c : Nat) (v : TimUnit) : (s.setTim i c v).mode = s.mode := rfl
@[simp] theorem State.setTim_lan (i c : Nat) (v : TimUnit) : (s.setTim i c v).lan = s.lan := rfl
@[simp] theorem State.setTim_otp (i c : Nat) (v : TimUnit) : (s.setTim i c v).otp = s.otp := rfl
@[simp] theorem State.setTim_flash (i c : Nat) (v : TimUnit) : (s.setTim i c v).flash = s.flash := rfl
@[simp] theorem State.setTim_hay (i c : Nat) (v : TimUnit) : (s.setTim i c v).hay = s.hay := rfl
@[simp] theorem State.setTim_keys (i c : Nat) (v : TimUnit) : (s.setTim i c v).keys = s.keys := rfl
@[simp] theorem State.setTim_keyGen (i c : Nat) (v : TimUnit) : (s.setTim i c v).keyGen = s.keyGen := rfl
@[simp] theorem State.setTim_regions (i c : Nat) (v : TimUnit) : (s.setTim i c v).regions = s.regions := rfl
@[simp] theorem State.setTim_rings (i c : Nat) (v : TimUnit) : (s.setTim i c v).rings = s.rings := rfl
@[simp] theorem State.setTim_fns (i c : Nat) (v : TimUnit) : (s.setTim i c v).fns = s.fns := rfl
@[simp] theorem State.setTim_vmask (i c : Nat) (v : TimUnit) : (s.setTim i c v).vmask = s.vmask := rfl
@[simp] theorem State.setTim_msix (i c : Nat) (v : TimUnit) : (s.setTim i c v).msix = s.msix := rfl
@[simp] theorem State.setTim_pba (i c : Nat) (v : TimUnit) : (s.setTim i c v).pba = s.pba := rfl
@[simp] theorem State.setTim_stalls (i c : Nat) (v : TimUnit) : (s.setTim i c v).stalls = s.stalls := rfl
@[simp] theorem State.setTim_follow (i c : Nat) (v : TimUnit) : (s.setTim i c v).follow = s.follow := rfl
@[simp] theorem State.setTim_tsEdges (i c : Nat) (v : TimUnit) : (s.setTim i c v).tsEdges = s.tsEdges := rfl
@[simp] theorem State.setTim_tsDirty (i c : Nat) (v : TimUnit) : (s.setTim i c v).tsDirty = s.tsDirty := rfl
@[simp] theorem State.setTim_armed (i c : Nat) (v : TimUnit) : (s.setTim i c v).armed = s.armed := rfl
@[simp] theorem State.setTim_chans (i c : Nat) (v : TimUnit) : (s.setTim i c v).chans = s.chans := rfl
@[simp] theorem State.setTim_seqs (i c : Nat) (v : TimUnit) : (s.setTim i c v).seqs = s.seqs := rfl
@[simp] theorem State.setTim_catBuf (i c : Nat) (v : TimUnit) : (s.setTim i c v).catBuf = s.catBuf := rfl
@[simp] theorem State.setTim_verniers (i c : Nat) (v : TimUnit) : (s.setTim i c v).verniers = s.verniers := rfl
@[simp] theorem State.setTim_lastTrig (i c : Nat) (v : TimUnit) : (s.setTim i c v).lastTrig = s.lastTrig := rfl
@[simp] theorem State.setTim_pmus (i c : Nat) (v : TimUnit) : (s.setTim i c v).pmus = s.pmus := rfl
@[simp] theorem State.setTim_waves (i c : Nat) (v : TimUnit) : (s.setTim i c v).waves = s.waves := rfl
@[simp] theorem State.setTim_caps (i c : Nat) (v : TimUnit) : (s.setTim i c v).caps = s.caps := rfl
@[simp] theorem State.setTim_acqs (i c : Nat) (v : TimUnit) : (s.setTim i c v).acqs = s.acqs := rfl
@[simp] theorem State.setTim_cnvs (i c : Nat) (v : TimUnit) : (s.setTim i c v).cnvs = s.cnvs := rfl
@[simp] theorem State.setTim_line (i c : Nat) (v : TimUnit) : (s.setTim i c v).line = s.line := rfl
@[simp] theorem State.setTim_evHist (i c : Nat) (v : TimUnit) : (s.setTim i c v).evHist = s.evHist := rfl
@[simp] theorem State.setTim_ticking (i c : Nat) (v : TimUnit) : (s.setTim i c v).ticking = s.ticking := rfl
@[simp] theorem State.setTim_trips (i c : Nat) (v : TimUnit) : (s.setTim i c v).trips = s.trips := rfl
@[simp] theorem State.setTim_onsets (i c : Nat) (v : TimUnit) : (s.setTim i c v).onsets = s.onsets := rfl
@[simp] theorem State.setTim_sampling (i c : Nat) (v : TimUnit) : (s.setTim i c v).sampling = s.sampling := rfl
@[simp] theorem State.setTim_wchPend (i c : Nat) (v : TimUnit) : (s.setTim i c v).wchPend = s.wchPend := rfl
@[simp] theorem State.setTim_idxs (i c : Nat) (v : TimUnit) : (s.setTim i c v).idxs = s.idxs := rfl
@[simp] theorem State.setTim_gth (i c : Nat) (v : TimUnit) : (s.setTim i c v).gth = s.gth := rfl
@[simp] theorem State.setTim_halter (i c : Nat) (v : TimUnit) : (s.setTim i c v).halter = s.halter := rfl
@[simp] theorem State.setTim_rst (i c : Nat) (v : TimUnit) : (s.setTim i c v).rst = s.rst := rfl
@[simp] theorem State.setTim_weather (i c : Nat) (v : TimUnit) : (s.setTim i c v).weather = s.weather := rfl
@[simp] theorem State.setTim_cpl (i c : Nat) (v : TimUnit) : (s.setTim i c v).cpl = s.cpl := rfl
@[simp] theorem State.setTim_tap (i c : Nat) (v : TimUnit) : (s.setTim i c v).tap = s.tap := rfl
@[simp] theorem State.setTim_far (i c : Nat) (v : TimUnit) : (s.setTim i c v).far = s.far := rfl
@[simp] theorem State.setTim_grooms (i c : Nat) (v : TimUnit) : (s.setTim i c v).grooms = s.grooms := rfl
@[simp] theorem State.setTim_cluster (i c : Nat) (v : TimUnit) : (s.setTim i c v).cluster = s.cluster := rfl
@[simp] theorem State.setTim_hbm (i c : Nat) (v : TimUnit) : (s.setTim i c v).hbm = s.hbm := rfl
@[simp] theorem State.setTim_pending (i c : Nat) (v : TimUnit) : (s.setTim i c v).pending = s.pending := rfl

/-! `setVernier` -/

@[simp] theorem State.setVernier_now (i : Nat) (v : Vernier) : (s.setVernier i v).now = s.now := rfl
@[simp] theorem State.setVernier_epoch (i : Nat) (v : Vernier) : (s.setVernier i v).epoch = s.epoch := rfl
@[simp] theorem State.setVernier_epochLog (i : Nat) (v : Vernier) : (s.setVernier i v).epochLog = s.epochLog := rfl
@[simp] theorem State.setVernier_free (i : Nat) (v : Vernier) : (s.setVernier i v).free = s.free := rfl
@[simp] theorem State.setVernier_regs (i : Nat) (v : Vernier) : (s.setVernier i v).regs = s.regs := rfl
@[simp] theorem State.setVernier_snaps (i : Nat) (v : Vernier) : (s.setVernier i v).snaps = s.snaps := rfl
@[simp] theorem State.setVernier_stage (i : Nat) (v : Vernier) : (s.setVernier i v).stage = s.stage := rfl
@[simp] theorem State.setVernier_resp (i : Nat) (v : Vernier) : (s.setVernier i v).resp = s.resp := rfl
@[simp] theorem State.setVernier_sent (i : Nat) (v : Vernier) : (s.setVernier i v).sent = s.sent := rfl
@[simp] theorem State.setVernier_pins (i : Nat) (v : Vernier) : (s.setVernier i v).pins = s.pins := rfl
@[simp] theorem State.setVernier_mode (i : Nat) (v : Vernier) : (s.setVernier i v).mode = s.mode := rfl
@[simp] theorem State.setVernier_lan (i : Nat) (v : Vernier) : (s.setVernier i v).lan = s.lan := rfl
@[simp] theorem State.setVernier_otp (i : Nat) (v : Vernier) : (s.setVernier i v).otp = s.otp := rfl
@[simp] theorem State.setVernier_flash (i : Nat) (v : Vernier) : (s.setVernier i v).flash = s.flash := rfl
@[simp] theorem State.setVernier_hay (i : Nat) (v : Vernier) : (s.setVernier i v).hay = s.hay := rfl
@[simp] theorem State.setVernier_keys (i : Nat) (v : Vernier) : (s.setVernier i v).keys = s.keys := rfl
@[simp] theorem State.setVernier_keyGen (i : Nat) (v : Vernier) : (s.setVernier i v).keyGen = s.keyGen := rfl
@[simp] theorem State.setVernier_regions (i : Nat) (v : Vernier) : (s.setVernier i v).regions = s.regions := rfl
@[simp] theorem State.setVernier_rings (i : Nat) (v : Vernier) : (s.setVernier i v).rings = s.rings := rfl
@[simp] theorem State.setVernier_fns (i : Nat) (v : Vernier) : (s.setVernier i v).fns = s.fns := rfl
@[simp] theorem State.setVernier_vmask (i : Nat) (v : Vernier) : (s.setVernier i v).vmask = s.vmask := rfl
@[simp] theorem State.setVernier_msix (i : Nat) (v : Vernier) : (s.setVernier i v).msix = s.msix := rfl
@[simp] theorem State.setVernier_pba (i : Nat) (v : Vernier) : (s.setVernier i v).pba = s.pba := rfl
@[simp] theorem State.setVernier_stalls (i : Nat) (v : Vernier) : (s.setVernier i v).stalls = s.stalls := rfl
@[simp] theorem State.setVernier_follow (i : Nat) (v : Vernier) : (s.setVernier i v).follow = s.follow := rfl
@[simp] theorem State.setVernier_tsEdges (i : Nat) (v : Vernier) : (s.setVernier i v).tsEdges = s.tsEdges := rfl
@[simp] theorem State.setVernier_tsDirty (i : Nat) (v : Vernier) : (s.setVernier i v).tsDirty = s.tsDirty := rfl
@[simp] theorem State.setVernier_armed (i : Nat) (v : Vernier) : (s.setVernier i v).armed = s.armed := rfl
@[simp] theorem State.setVernier_chans (i : Nat) (v : Vernier) : (s.setVernier i v).chans = s.chans := rfl
@[simp] theorem State.setVernier_seqs (i : Nat) (v : Vernier) : (s.setVernier i v).seqs = s.seqs := rfl
@[simp] theorem State.setVernier_catBuf (i : Nat) (v : Vernier) : (s.setVernier i v).catBuf = s.catBuf := rfl
@[simp] theorem State.setVernier_tims (i : Nat) (v : Vernier) : (s.setVernier i v).tims = s.tims := rfl
@[simp] theorem State.setVernier_lastTrig (i : Nat) (v : Vernier) : (s.setVernier i v).lastTrig = s.lastTrig := rfl
@[simp] theorem State.setVernier_pmus (i : Nat) (v : Vernier) : (s.setVernier i v).pmus = s.pmus := rfl
@[simp] theorem State.setVernier_waves (i : Nat) (v : Vernier) : (s.setVernier i v).waves = s.waves := rfl
@[simp] theorem State.setVernier_caps (i : Nat) (v : Vernier) : (s.setVernier i v).caps = s.caps := rfl
@[simp] theorem State.setVernier_acqs (i : Nat) (v : Vernier) : (s.setVernier i v).acqs = s.acqs := rfl
@[simp] theorem State.setVernier_cnvs (i : Nat) (v : Vernier) : (s.setVernier i v).cnvs = s.cnvs := rfl
@[simp] theorem State.setVernier_line (i : Nat) (v : Vernier) : (s.setVernier i v).line = s.line := rfl
@[simp] theorem State.setVernier_evHist (i : Nat) (v : Vernier) : (s.setVernier i v).evHist = s.evHist := rfl
@[simp] theorem State.setVernier_ticking (i : Nat) (v : Vernier) : (s.setVernier i v).ticking = s.ticking := rfl
@[simp] theorem State.setVernier_trips (i : Nat) (v : Vernier) : (s.setVernier i v).trips = s.trips := rfl
@[simp] theorem State.setVernier_onsets (i : Nat) (v : Vernier) : (s.setVernier i v).onsets = s.onsets := rfl
@[simp] theorem State.setVernier_sampling (i : Nat) (v : Vernier) : (s.setVernier i v).sampling = s.sampling := rfl
@[simp] theorem State.setVernier_wchPend (i : Nat) (v : Vernier) : (s.setVernier i v).wchPend = s.wchPend := rfl
@[simp] theorem State.setVernier_idxs (i : Nat) (v : Vernier) : (s.setVernier i v).idxs = s.idxs := rfl
@[simp] theorem State.setVernier_gth (i : Nat) (v : Vernier) : (s.setVernier i v).gth = s.gth := rfl
@[simp] theorem State.setVernier_halter (i : Nat) (v : Vernier) : (s.setVernier i v).halter = s.halter := rfl
@[simp] theorem State.setVernier_rst (i : Nat) (v : Vernier) : (s.setVernier i v).rst = s.rst := rfl
@[simp] theorem State.setVernier_weather (i : Nat) (v : Vernier) : (s.setVernier i v).weather = s.weather := rfl
@[simp] theorem State.setVernier_cpl (i : Nat) (v : Vernier) : (s.setVernier i v).cpl = s.cpl := rfl
@[simp] theorem State.setVernier_tap (i : Nat) (v : Vernier) : (s.setVernier i v).tap = s.tap := rfl
@[simp] theorem State.setVernier_far (i : Nat) (v : Vernier) : (s.setVernier i v).far = s.far := rfl
@[simp] theorem State.setVernier_grooms (i : Nat) (v : Vernier) : (s.setVernier i v).grooms = s.grooms := rfl
@[simp] theorem State.setVernier_cluster (i : Nat) (v : Vernier) : (s.setVernier i v).cluster = s.cluster := rfl
@[simp] theorem State.setVernier_hbm (i : Nat) (v : Vernier) : (s.setVernier i v).hbm = s.hbm := rfl
@[simp] theorem State.setVernier_pending (i : Nat) (v : Vernier) : (s.setVernier i v).pending = s.pending := rfl

/-! `setPmu` -/

@[simp] theorem State.setPmu_now (i u : Nat) (v : PmuSt) : (s.setPmu i u v).now = s.now := rfl
@[simp] theorem State.setPmu_epoch (i u : Nat) (v : PmuSt) : (s.setPmu i u v).epoch = s.epoch := rfl
@[simp] theorem State.setPmu_epochLog (i u : Nat) (v : PmuSt) : (s.setPmu i u v).epochLog = s.epochLog := rfl
@[simp] theorem State.setPmu_free (i u : Nat) (v : PmuSt) : (s.setPmu i u v).free = s.free := rfl
@[simp] theorem State.setPmu_regs (i u : Nat) (v : PmuSt) : (s.setPmu i u v).regs = s.regs := rfl
@[simp] theorem State.setPmu_snaps (i u : Nat) (v : PmuSt) : (s.setPmu i u v).snaps = s.snaps := rfl
@[simp] theorem State.setPmu_stage (i u : Nat) (v : PmuSt) : (s.setPmu i u v).stage = s.stage := rfl
@[simp] theorem State.setPmu_resp (i u : Nat) (v : PmuSt) : (s.setPmu i u v).resp = s.resp := rfl
@[simp] theorem State.setPmu_sent (i u : Nat) (v : PmuSt) : (s.setPmu i u v).sent = s.sent := rfl
@[simp] theorem State.setPmu_pins (i u : Nat) (v : PmuSt) : (s.setPmu i u v).pins = s.pins := rfl
@[simp] theorem State.setPmu_mode (i u : Nat) (v : PmuSt) : (s.setPmu i u v).mode = s.mode := rfl
@[simp] theorem State.setPmu_lan (i u : Nat) (v : PmuSt) : (s.setPmu i u v).lan = s.lan := rfl
@[simp] theorem State.setPmu_otp (i u : Nat) (v : PmuSt) : (s.setPmu i u v).otp = s.otp := rfl
@[simp] theorem State.setPmu_flash (i u : Nat) (v : PmuSt) : (s.setPmu i u v).flash = s.flash := rfl
@[simp] theorem State.setPmu_hay (i u : Nat) (v : PmuSt) : (s.setPmu i u v).hay = s.hay := rfl
@[simp] theorem State.setPmu_keys (i u : Nat) (v : PmuSt) : (s.setPmu i u v).keys = s.keys := rfl
@[simp] theorem State.setPmu_keyGen (i u : Nat) (v : PmuSt) : (s.setPmu i u v).keyGen = s.keyGen := rfl
@[simp] theorem State.setPmu_regions (i u : Nat) (v : PmuSt) : (s.setPmu i u v).regions = s.regions := rfl
@[simp] theorem State.setPmu_rings (i u : Nat) (v : PmuSt) : (s.setPmu i u v).rings = s.rings := rfl
@[simp] theorem State.setPmu_fns (i u : Nat) (v : PmuSt) : (s.setPmu i u v).fns = s.fns := rfl
@[simp] theorem State.setPmu_vmask (i u : Nat) (v : PmuSt) : (s.setPmu i u v).vmask = s.vmask := rfl
@[simp] theorem State.setPmu_msix (i u : Nat) (v : PmuSt) : (s.setPmu i u v).msix = s.msix := rfl
@[simp] theorem State.setPmu_pba (i u : Nat) (v : PmuSt) : (s.setPmu i u v).pba = s.pba := rfl
@[simp] theorem State.setPmu_stalls (i u : Nat) (v : PmuSt) : (s.setPmu i u v).stalls = s.stalls := rfl
@[simp] theorem State.setPmu_follow (i u : Nat) (v : PmuSt) : (s.setPmu i u v).follow = s.follow := rfl
@[simp] theorem State.setPmu_tsEdges (i u : Nat) (v : PmuSt) : (s.setPmu i u v).tsEdges = s.tsEdges := rfl
@[simp] theorem State.setPmu_tsDirty (i u : Nat) (v : PmuSt) : (s.setPmu i u v).tsDirty = s.tsDirty := rfl
@[simp] theorem State.setPmu_armed (i u : Nat) (v : PmuSt) : (s.setPmu i u v).armed = s.armed := rfl
@[simp] theorem State.setPmu_chans (i u : Nat) (v : PmuSt) : (s.setPmu i u v).chans = s.chans := rfl
@[simp] theorem State.setPmu_seqs (i u : Nat) (v : PmuSt) : (s.setPmu i u v).seqs = s.seqs := rfl
@[simp] theorem State.setPmu_catBuf (i u : Nat) (v : PmuSt) : (s.setPmu i u v).catBuf = s.catBuf := rfl
@[simp] theorem State.setPmu_tims (i u : Nat) (v : PmuSt) : (s.setPmu i u v).tims = s.tims := rfl
@[simp] theorem State.setPmu_verniers (i u : Nat) (v : PmuSt) : (s.setPmu i u v).verniers = s.verniers := rfl
@[simp] theorem State.setPmu_lastTrig (i u : Nat) (v : PmuSt) : (s.setPmu i u v).lastTrig = s.lastTrig := rfl
@[simp] theorem State.setPmu_waves (i u : Nat) (v : PmuSt) : (s.setPmu i u v).waves = s.waves := rfl
@[simp] theorem State.setPmu_caps (i u : Nat) (v : PmuSt) : (s.setPmu i u v).caps = s.caps := rfl
@[simp] theorem State.setPmu_acqs (i u : Nat) (v : PmuSt) : (s.setPmu i u v).acqs = s.acqs := rfl
@[simp] theorem State.setPmu_cnvs (i u : Nat) (v : PmuSt) : (s.setPmu i u v).cnvs = s.cnvs := rfl
@[simp] theorem State.setPmu_line (i u : Nat) (v : PmuSt) : (s.setPmu i u v).line = s.line := rfl
@[simp] theorem State.setPmu_evHist (i u : Nat) (v : PmuSt) : (s.setPmu i u v).evHist = s.evHist := rfl
@[simp] theorem State.setPmu_ticking (i u : Nat) (v : PmuSt) : (s.setPmu i u v).ticking = s.ticking := rfl
@[simp] theorem State.setPmu_trips (i u : Nat) (v : PmuSt) : (s.setPmu i u v).trips = s.trips := rfl
@[simp] theorem State.setPmu_onsets (i u : Nat) (v : PmuSt) : (s.setPmu i u v).onsets = s.onsets := rfl
@[simp] theorem State.setPmu_sampling (i u : Nat) (v : PmuSt) : (s.setPmu i u v).sampling = s.sampling := rfl
@[simp] theorem State.setPmu_wchPend (i u : Nat) (v : PmuSt) : (s.setPmu i u v).wchPend = s.wchPend := rfl
@[simp] theorem State.setPmu_idxs (i u : Nat) (v : PmuSt) : (s.setPmu i u v).idxs = s.idxs := rfl
@[simp] theorem State.setPmu_gth (i u : Nat) (v : PmuSt) : (s.setPmu i u v).gth = s.gth := rfl
@[simp] theorem State.setPmu_halter (i u : Nat) (v : PmuSt) : (s.setPmu i u v).halter = s.halter := rfl
@[simp] theorem State.setPmu_rst (i u : Nat) (v : PmuSt) : (s.setPmu i u v).rst = s.rst := rfl
@[simp] theorem State.setPmu_weather (i u : Nat) (v : PmuSt) : (s.setPmu i u v).weather = s.weather := rfl
@[simp] theorem State.setPmu_cpl (i u : Nat) (v : PmuSt) : (s.setPmu i u v).cpl = s.cpl := rfl
@[simp] theorem State.setPmu_tap (i u : Nat) (v : PmuSt) : (s.setPmu i u v).tap = s.tap := rfl
@[simp] theorem State.setPmu_far (i u : Nat) (v : PmuSt) : (s.setPmu i u v).far = s.far := rfl
@[simp] theorem State.setPmu_grooms (i u : Nat) (v : PmuSt) : (s.setPmu i u v).grooms = s.grooms := rfl
@[simp] theorem State.setPmu_cluster (i u : Nat) (v : PmuSt) : (s.setPmu i u v).cluster = s.cluster := rfl
@[simp] theorem State.setPmu_hbm (i u : Nat) (v : PmuSt) : (s.setPmu i u v).hbm = s.hbm := rfl
@[simp] theorem State.setPmu_pending (i u : Nat) (v : PmuSt) : (s.setPmu i u v).pending = s.pending := rfl

/-! `setCnv` -/

@[simp] theorem State.setCnv_now (i u : Nat) (v : CnvUnit) : (s.setCnv i u v).now = s.now := rfl
@[simp] theorem State.setCnv_epoch (i u : Nat) (v : CnvUnit) : (s.setCnv i u v).epoch = s.epoch := rfl
@[simp] theorem State.setCnv_epochLog (i u : Nat) (v : CnvUnit) : (s.setCnv i u v).epochLog = s.epochLog := rfl
@[simp] theorem State.setCnv_free (i u : Nat) (v : CnvUnit) : (s.setCnv i u v).free = s.free := rfl
@[simp] theorem State.setCnv_regs (i u : Nat) (v : CnvUnit) : (s.setCnv i u v).regs = s.regs := rfl
@[simp] theorem State.setCnv_snaps (i u : Nat) (v : CnvUnit) : (s.setCnv i u v).snaps = s.snaps := rfl
@[simp] theorem State.setCnv_stage (i u : Nat) (v : CnvUnit) : (s.setCnv i u v).stage = s.stage := rfl
@[simp] theorem State.setCnv_resp (i u : Nat) (v : CnvUnit) : (s.setCnv i u v).resp = s.resp := rfl
@[simp] theorem State.setCnv_sent (i u : Nat) (v : CnvUnit) : (s.setCnv i u v).sent = s.sent := rfl
@[simp] theorem State.setCnv_pins (i u : Nat) (v : CnvUnit) : (s.setCnv i u v).pins = s.pins := rfl
@[simp] theorem State.setCnv_mode (i u : Nat) (v : CnvUnit) : (s.setCnv i u v).mode = s.mode := rfl
@[simp] theorem State.setCnv_lan (i u : Nat) (v : CnvUnit) : (s.setCnv i u v).lan = s.lan := rfl
@[simp] theorem State.setCnv_otp (i u : Nat) (v : CnvUnit) : (s.setCnv i u v).otp = s.otp := rfl
@[simp] theorem State.setCnv_flash (i u : Nat) (v : CnvUnit) : (s.setCnv i u v).flash = s.flash := rfl
@[simp] theorem State.setCnv_hay (i u : Nat) (v : CnvUnit) : (s.setCnv i u v).hay = s.hay := rfl
@[simp] theorem State.setCnv_keys (i u : Nat) (v : CnvUnit) : (s.setCnv i u v).keys = s.keys := rfl
@[simp] theorem State.setCnv_keyGen (i u : Nat) (v : CnvUnit) : (s.setCnv i u v).keyGen = s.keyGen := rfl
@[simp] theorem State.setCnv_regions (i u : Nat) (v : CnvUnit) : (s.setCnv i u v).regions = s.regions := rfl
@[simp] theorem State.setCnv_rings (i u : Nat) (v : CnvUnit) : (s.setCnv i u v).rings = s.rings := rfl
@[simp] theorem State.setCnv_fns (i u : Nat) (v : CnvUnit) : (s.setCnv i u v).fns = s.fns := rfl
@[simp] theorem State.setCnv_vmask (i u : Nat) (v : CnvUnit) : (s.setCnv i u v).vmask = s.vmask := rfl
@[simp] theorem State.setCnv_msix (i u : Nat) (v : CnvUnit) : (s.setCnv i u v).msix = s.msix := rfl
@[simp] theorem State.setCnv_pba (i u : Nat) (v : CnvUnit) : (s.setCnv i u v).pba = s.pba := rfl
@[simp] theorem State.setCnv_stalls (i u : Nat) (v : CnvUnit) : (s.setCnv i u v).stalls = s.stalls := rfl
@[simp] theorem State.setCnv_follow (i u : Nat) (v : CnvUnit) : (s.setCnv i u v).follow = s.follow := rfl
@[simp] theorem State.setCnv_tsEdges (i u : Nat) (v : CnvUnit) : (s.setCnv i u v).tsEdges = s.tsEdges := rfl
@[simp] theorem State.setCnv_tsDirty (i u : Nat) (v : CnvUnit) : (s.setCnv i u v).tsDirty = s.tsDirty := rfl
@[simp] theorem State.setCnv_armed (i u : Nat) (v : CnvUnit) : (s.setCnv i u v).armed = s.armed := rfl
@[simp] theorem State.setCnv_chans (i u : Nat) (v : CnvUnit) : (s.setCnv i u v).chans = s.chans := rfl
@[simp] theorem State.setCnv_seqs (i u : Nat) (v : CnvUnit) : (s.setCnv i u v).seqs = s.seqs := rfl
@[simp] theorem State.setCnv_catBuf (i u : Nat) (v : CnvUnit) : (s.setCnv i u v).catBuf = s.catBuf := rfl
@[simp] theorem State.setCnv_tims (i u : Nat) (v : CnvUnit) : (s.setCnv i u v).tims = s.tims := rfl
@[simp] theorem State.setCnv_verniers (i u : Nat) (v : CnvUnit) : (s.setCnv i u v).verniers = s.verniers := rfl
@[simp] theorem State.setCnv_lastTrig (i u : Nat) (v : CnvUnit) : (s.setCnv i u v).lastTrig = s.lastTrig := rfl
@[simp] theorem State.setCnv_pmus (i u : Nat) (v : CnvUnit) : (s.setCnv i u v).pmus = s.pmus := rfl
@[simp] theorem State.setCnv_waves (i u : Nat) (v : CnvUnit) : (s.setCnv i u v).waves = s.waves := rfl
@[simp] theorem State.setCnv_caps (i u : Nat) (v : CnvUnit) : (s.setCnv i u v).caps = s.caps := rfl
@[simp] theorem State.setCnv_acqs (i u : Nat) (v : CnvUnit) : (s.setCnv i u v).acqs = s.acqs := rfl
@[simp] theorem State.setCnv_line (i u : Nat) (v : CnvUnit) : (s.setCnv i u v).line = s.line := rfl
@[simp] theorem State.setCnv_evHist (i u : Nat) (v : CnvUnit) : (s.setCnv i u v).evHist = s.evHist := rfl
@[simp] theorem State.setCnv_ticking (i u : Nat) (v : CnvUnit) : (s.setCnv i u v).ticking = s.ticking := rfl
@[simp] theorem State.setCnv_trips (i u : Nat) (v : CnvUnit) : (s.setCnv i u v).trips = s.trips := rfl
@[simp] theorem State.setCnv_onsets (i u : Nat) (v : CnvUnit) : (s.setCnv i u v).onsets = s.onsets := rfl
@[simp] theorem State.setCnv_sampling (i u : Nat) (v : CnvUnit) : (s.setCnv i u v).sampling = s.sampling := rfl
@[simp] theorem State.setCnv_wchPend (i u : Nat) (v : CnvUnit) : (s.setCnv i u v).wchPend = s.wchPend := rfl
@[simp] theorem State.setCnv_idxs (i u : Nat) (v : CnvUnit) : (s.setCnv i u v).idxs = s.idxs := rfl
@[simp] theorem State.setCnv_gth (i u : Nat) (v : CnvUnit) : (s.setCnv i u v).gth = s.gth := rfl
@[simp] theorem State.setCnv_halter (i u : Nat) (v : CnvUnit) : (s.setCnv i u v).halter = s.halter := rfl
@[simp] theorem State.setCnv_rst (i u : Nat) (v : CnvUnit) : (s.setCnv i u v).rst = s.rst := rfl
@[simp] theorem State.setCnv_weather (i u : Nat) (v : CnvUnit) : (s.setCnv i u v).weather = s.weather := rfl
@[simp] theorem State.setCnv_cpl (i u : Nat) (v : CnvUnit) : (s.setCnv i u v).cpl = s.cpl := rfl
@[simp] theorem State.setCnv_tap (i u : Nat) (v : CnvUnit) : (s.setCnv i u v).tap = s.tap := rfl
@[simp] theorem State.setCnv_far (i u : Nat) (v : CnvUnit) : (s.setCnv i u v).far = s.far := rfl
@[simp] theorem State.setCnv_grooms (i u : Nat) (v : CnvUnit) : (s.setCnv i u v).grooms = s.grooms := rfl
@[simp] theorem State.setCnv_cluster (i u : Nat) (v : CnvUnit) : (s.setCnv i u v).cluster = s.cluster := rfl
@[simp] theorem State.setCnv_hbm (i u : Nat) (v : CnvUnit) : (s.setCnv i u v).hbm = s.hbm := rfl
@[simp] theorem State.setCnv_pending (i u : Nat) (v : CnvUnit) : (s.setCnv i u v).pending = s.pending := rfl

/-! `setAcq` -/

@[simp] theorem State.setAcq_now (b : Nat) (v : AcqSt) : (s.setAcq b v).now = s.now := rfl
@[simp] theorem State.setAcq_epoch (b : Nat) (v : AcqSt) : (s.setAcq b v).epoch = s.epoch := rfl
@[simp] theorem State.setAcq_epochLog (b : Nat) (v : AcqSt) : (s.setAcq b v).epochLog = s.epochLog := rfl
@[simp] theorem State.setAcq_free (b : Nat) (v : AcqSt) : (s.setAcq b v).free = s.free := rfl
@[simp] theorem State.setAcq_regs (b : Nat) (v : AcqSt) : (s.setAcq b v).regs = s.regs := rfl
@[simp] theorem State.setAcq_snaps (b : Nat) (v : AcqSt) : (s.setAcq b v).snaps = s.snaps := rfl
@[simp] theorem State.setAcq_stage (b : Nat) (v : AcqSt) : (s.setAcq b v).stage = s.stage := rfl
@[simp] theorem State.setAcq_resp (b : Nat) (v : AcqSt) : (s.setAcq b v).resp = s.resp := rfl
@[simp] theorem State.setAcq_sent (b : Nat) (v : AcqSt) : (s.setAcq b v).sent = s.sent := rfl
@[simp] theorem State.setAcq_pins (b : Nat) (v : AcqSt) : (s.setAcq b v).pins = s.pins := rfl
@[simp] theorem State.setAcq_mode (b : Nat) (v : AcqSt) : (s.setAcq b v).mode = s.mode := rfl
@[simp] theorem State.setAcq_lan (b : Nat) (v : AcqSt) : (s.setAcq b v).lan = s.lan := rfl
@[simp] theorem State.setAcq_otp (b : Nat) (v : AcqSt) : (s.setAcq b v).otp = s.otp := rfl
@[simp] theorem State.setAcq_flash (b : Nat) (v : AcqSt) : (s.setAcq b v).flash = s.flash := rfl
@[simp] theorem State.setAcq_hay (b : Nat) (v : AcqSt) : (s.setAcq b v).hay = s.hay := rfl
@[simp] theorem State.setAcq_keys (b : Nat) (v : AcqSt) : (s.setAcq b v).keys = s.keys := rfl
@[simp] theorem State.setAcq_keyGen (b : Nat) (v : AcqSt) : (s.setAcq b v).keyGen = s.keyGen := rfl
@[simp] theorem State.setAcq_regions (b : Nat) (v : AcqSt) : (s.setAcq b v).regions = s.regions := rfl
@[simp] theorem State.setAcq_rings (b : Nat) (v : AcqSt) : (s.setAcq b v).rings = s.rings := rfl
@[simp] theorem State.setAcq_fns (b : Nat) (v : AcqSt) : (s.setAcq b v).fns = s.fns := rfl
@[simp] theorem State.setAcq_vmask (b : Nat) (v : AcqSt) : (s.setAcq b v).vmask = s.vmask := rfl
@[simp] theorem State.setAcq_msix (b : Nat) (v : AcqSt) : (s.setAcq b v).msix = s.msix := rfl
@[simp] theorem State.setAcq_pba (b : Nat) (v : AcqSt) : (s.setAcq b v).pba = s.pba := rfl
@[simp] theorem State.setAcq_stalls (b : Nat) (v : AcqSt) : (s.setAcq b v).stalls = s.stalls := rfl
@[simp] theorem State.setAcq_follow (b : Nat) (v : AcqSt) : (s.setAcq b v).follow = s.follow := rfl
@[simp] theorem State.setAcq_tsEdges (b : Nat) (v : AcqSt) : (s.setAcq b v).tsEdges = s.tsEdges := rfl
@[simp] theorem State.setAcq_tsDirty (b : Nat) (v : AcqSt) : (s.setAcq b v).tsDirty = s.tsDirty := rfl
@[simp] theorem State.setAcq_armed (b : Nat) (v : AcqSt) : (s.setAcq b v).armed = s.armed := rfl
@[simp] theorem State.setAcq_chans (b : Nat) (v : AcqSt) : (s.setAcq b v).chans = s.chans := rfl
@[simp] theorem State.setAcq_seqs (b : Nat) (v : AcqSt) : (s.setAcq b v).seqs = s.seqs := rfl
@[simp] theorem State.setAcq_catBuf (b : Nat) (v : AcqSt) : (s.setAcq b v).catBuf = s.catBuf := rfl
@[simp] theorem State.setAcq_tims (b : Nat) (v : AcqSt) : (s.setAcq b v).tims = s.tims := rfl
@[simp] theorem State.setAcq_verniers (b : Nat) (v : AcqSt) : (s.setAcq b v).verniers = s.verniers := rfl
@[simp] theorem State.setAcq_lastTrig (b : Nat) (v : AcqSt) : (s.setAcq b v).lastTrig = s.lastTrig := rfl
@[simp] theorem State.setAcq_pmus (b : Nat) (v : AcqSt) : (s.setAcq b v).pmus = s.pmus := rfl
@[simp] theorem State.setAcq_waves (b : Nat) (v : AcqSt) : (s.setAcq b v).waves = s.waves := rfl
@[simp] theorem State.setAcq_caps (b : Nat) (v : AcqSt) : (s.setAcq b v).caps = s.caps := rfl
@[simp] theorem State.setAcq_cnvs (b : Nat) (v : AcqSt) : (s.setAcq b v).cnvs = s.cnvs := rfl
@[simp] theorem State.setAcq_line (b : Nat) (v : AcqSt) : (s.setAcq b v).line = s.line := rfl
@[simp] theorem State.setAcq_evHist (b : Nat) (v : AcqSt) : (s.setAcq b v).evHist = s.evHist := rfl
@[simp] theorem State.setAcq_ticking (b : Nat) (v : AcqSt) : (s.setAcq b v).ticking = s.ticking := rfl
@[simp] theorem State.setAcq_trips (b : Nat) (v : AcqSt) : (s.setAcq b v).trips = s.trips := rfl
@[simp] theorem State.setAcq_onsets (b : Nat) (v : AcqSt) : (s.setAcq b v).onsets = s.onsets := rfl
@[simp] theorem State.setAcq_sampling (b : Nat) (v : AcqSt) : (s.setAcq b v).sampling = s.sampling := rfl
@[simp] theorem State.setAcq_wchPend (b : Nat) (v : AcqSt) : (s.setAcq b v).wchPend = s.wchPend := rfl
@[simp] theorem State.setAcq_idxs (b : Nat) (v : AcqSt) : (s.setAcq b v).idxs = s.idxs := rfl
@[simp] theorem State.setAcq_gth (b : Nat) (v : AcqSt) : (s.setAcq b v).gth = s.gth := rfl
@[simp] theorem State.setAcq_halter (b : Nat) (v : AcqSt) : (s.setAcq b v).halter = s.halter := rfl
@[simp] theorem State.setAcq_rst (b : Nat) (v : AcqSt) : (s.setAcq b v).rst = s.rst := rfl
@[simp] theorem State.setAcq_weather (b : Nat) (v : AcqSt) : (s.setAcq b v).weather = s.weather := rfl
@[simp] theorem State.setAcq_cpl (b : Nat) (v : AcqSt) : (s.setAcq b v).cpl = s.cpl := rfl
@[simp] theorem State.setAcq_tap (b : Nat) (v : AcqSt) : (s.setAcq b v).tap = s.tap := rfl
@[simp] theorem State.setAcq_far (b : Nat) (v : AcqSt) : (s.setAcq b v).far = s.far := rfl
@[simp] theorem State.setAcq_grooms (b : Nat) (v : AcqSt) : (s.setAcq b v).grooms = s.grooms := rfl
@[simp] theorem State.setAcq_cluster (b : Nat) (v : AcqSt) : (s.setAcq b v).cluster = s.cluster := rfl
@[simp] theorem State.setAcq_hbm (b : Nat) (v : AcqSt) : (s.setAcq b v).hbm = s.hbm := rfl
@[simp] theorem State.setAcq_pending (b : Nat) (v : AcqSt) : (s.setAcq b v).pending = s.pending := rfl

/-! `setFar` -/

@[simp] theorem State.setFar_now (f : FarSt) : (s.setFar f).now = s.now := rfl
@[simp] theorem State.setFar_epoch (f : FarSt) : (s.setFar f).epoch = s.epoch := rfl
@[simp] theorem State.setFar_epochLog (f : FarSt) : (s.setFar f).epochLog = s.epochLog := rfl
@[simp] theorem State.setFar_free (f : FarSt) : (s.setFar f).free = s.free := rfl
@[simp] theorem State.setFar_regs (f : FarSt) : (s.setFar f).regs = s.regs := rfl
@[simp] theorem State.setFar_snaps (f : FarSt) : (s.setFar f).snaps = s.snaps := rfl
@[simp] theorem State.setFar_stage (f : FarSt) : (s.setFar f).stage = s.stage := rfl
@[simp] theorem State.setFar_resp (f : FarSt) : (s.setFar f).resp = s.resp := rfl
@[simp] theorem State.setFar_sent (f : FarSt) : (s.setFar f).sent = s.sent := rfl
@[simp] theorem State.setFar_pins (f : FarSt) : (s.setFar f).pins = s.pins := rfl
@[simp] theorem State.setFar_mode (f : FarSt) : (s.setFar f).mode = s.mode := rfl
@[simp] theorem State.setFar_lan (f : FarSt) : (s.setFar f).lan = s.lan := rfl
@[simp] theorem State.setFar_otp (f : FarSt) : (s.setFar f).otp = s.otp := rfl
@[simp] theorem State.setFar_flash (f : FarSt) : (s.setFar f).flash = s.flash := rfl
@[simp] theorem State.setFar_hay (f : FarSt) : (s.setFar f).hay = s.hay := rfl
@[simp] theorem State.setFar_keys (f : FarSt) : (s.setFar f).keys = s.keys := rfl
@[simp] theorem State.setFar_keyGen (f : FarSt) : (s.setFar f).keyGen = s.keyGen := rfl
@[simp] theorem State.setFar_regions (f : FarSt) : (s.setFar f).regions = s.regions := rfl
@[simp] theorem State.setFar_rings (f : FarSt) : (s.setFar f).rings = s.rings := rfl
@[simp] theorem State.setFar_fns (f : FarSt) : (s.setFar f).fns = s.fns := rfl
@[simp] theorem State.setFar_vmask (f : FarSt) : (s.setFar f).vmask = s.vmask := rfl
@[simp] theorem State.setFar_msix (f : FarSt) : (s.setFar f).msix = s.msix := rfl
@[simp] theorem State.setFar_pba (f : FarSt) : (s.setFar f).pba = s.pba := rfl
@[simp] theorem State.setFar_stalls (f : FarSt) : (s.setFar f).stalls = s.stalls := rfl
@[simp] theorem State.setFar_follow (f : FarSt) : (s.setFar f).follow = s.follow := rfl
@[simp] theorem State.setFar_tsEdges (f : FarSt) : (s.setFar f).tsEdges = s.tsEdges := rfl
@[simp] theorem State.setFar_tsDirty (f : FarSt) : (s.setFar f).tsDirty = s.tsDirty := rfl
@[simp] theorem State.setFar_armed (f : FarSt) : (s.setFar f).armed = s.armed := rfl
@[simp] theorem State.setFar_chans (f : FarSt) : (s.setFar f).chans = s.chans := rfl
@[simp] theorem State.setFar_seqs (f : FarSt) : (s.setFar f).seqs = s.seqs := rfl
@[simp] theorem State.setFar_catBuf (f : FarSt) : (s.setFar f).catBuf = s.catBuf := rfl
@[simp] theorem State.setFar_tims (f : FarSt) : (s.setFar f).tims = s.tims := rfl
@[simp] theorem State.setFar_verniers (f : FarSt) : (s.setFar f).verniers = s.verniers := rfl
@[simp] theorem State.setFar_lastTrig (f : FarSt) : (s.setFar f).lastTrig = s.lastTrig := rfl
@[simp] theorem State.setFar_pmus (f : FarSt) : (s.setFar f).pmus = s.pmus := rfl
@[simp] theorem State.setFar_waves (f : FarSt) : (s.setFar f).waves = s.waves := rfl
@[simp] theorem State.setFar_caps (f : FarSt) : (s.setFar f).caps = s.caps := rfl
@[simp] theorem State.setFar_acqs (f : FarSt) : (s.setFar f).acqs = s.acqs := rfl
@[simp] theorem State.setFar_cnvs (f : FarSt) : (s.setFar f).cnvs = s.cnvs := rfl
@[simp] theorem State.setFar_line (f : FarSt) : (s.setFar f).line = s.line := rfl
@[simp] theorem State.setFar_evHist (f : FarSt) : (s.setFar f).evHist = s.evHist := rfl
@[simp] theorem State.setFar_ticking (f : FarSt) : (s.setFar f).ticking = s.ticking := rfl
@[simp] theorem State.setFar_trips (f : FarSt) : (s.setFar f).trips = s.trips := rfl
@[simp] theorem State.setFar_onsets (f : FarSt) : (s.setFar f).onsets = s.onsets := rfl
@[simp] theorem State.setFar_sampling (f : FarSt) : (s.setFar f).sampling = s.sampling := rfl
@[simp] theorem State.setFar_wchPend (f : FarSt) : (s.setFar f).wchPend = s.wchPend := rfl
@[simp] theorem State.setFar_idxs (f : FarSt) : (s.setFar f).idxs = s.idxs := rfl
@[simp] theorem State.setFar_gth (f : FarSt) : (s.setFar f).gth = s.gth := rfl
@[simp] theorem State.setFar_halter (f : FarSt) : (s.setFar f).halter = s.halter := rfl
@[simp] theorem State.setFar_rst (f : FarSt) : (s.setFar f).rst = s.rst := rfl
@[simp] theorem State.setFar_weather (f : FarSt) : (s.setFar f).weather = s.weather := rfl
@[simp] theorem State.setFar_cpl (f : FarSt) : (s.setFar f).cpl = s.cpl := rfl
@[simp] theorem State.setFar_tap (f : FarSt) : (s.setFar f).tap = s.tap := rfl
@[simp] theorem State.setFar_grooms (f : FarSt) : (s.setFar f).grooms = s.grooms := rfl
@[simp] theorem State.setFar_cluster (f : FarSt) : (s.setFar f).cluster = s.cluster := rfl
@[simp] theorem State.setFar_hbm (f : FarSt) : (s.setFar f).hbm = s.hbm := rfl
@[simp] theorem State.setFar_pending (f : FarSt) : (s.setFar f).pending = s.pending := rfl

/-! `setHbmSt` -/

@[simp] theorem State.setHbmSt_now (h : HbmSt) : (s.setHbmSt h).now = s.now := rfl
@[simp] theorem State.setHbmSt_epoch (h : HbmSt) : (s.setHbmSt h).epoch = s.epoch := rfl
@[simp] theorem State.setHbmSt_epochLog (h : HbmSt) : (s.setHbmSt h).epochLog = s.epochLog := rfl
@[simp] theorem State.setHbmSt_free (h : HbmSt) : (s.setHbmSt h).free = s.free := rfl
@[simp] theorem State.setHbmSt_regs (h : HbmSt) : (s.setHbmSt h).regs = s.regs := rfl
@[simp] theorem State.setHbmSt_snaps (h : HbmSt) : (s.setHbmSt h).snaps = s.snaps := rfl
@[simp] theorem State.setHbmSt_stage (h : HbmSt) : (s.setHbmSt h).stage = s.stage := rfl
@[simp] theorem State.setHbmSt_resp (h : HbmSt) : (s.setHbmSt h).resp = s.resp := rfl
@[simp] theorem State.setHbmSt_sent (h : HbmSt) : (s.setHbmSt h).sent = s.sent := rfl
@[simp] theorem State.setHbmSt_pins (h : HbmSt) : (s.setHbmSt h).pins = s.pins := rfl
@[simp] theorem State.setHbmSt_mode (h : HbmSt) : (s.setHbmSt h).mode = s.mode := rfl
@[simp] theorem State.setHbmSt_lan (h : HbmSt) : (s.setHbmSt h).lan = s.lan := rfl
@[simp] theorem State.setHbmSt_otp (h : HbmSt) : (s.setHbmSt h).otp = s.otp := rfl
@[simp] theorem State.setHbmSt_flash (h : HbmSt) : (s.setHbmSt h).flash = s.flash := rfl
@[simp] theorem State.setHbmSt_hay (h : HbmSt) : (s.setHbmSt h).hay = s.hay := rfl
@[simp] theorem State.setHbmSt_keys (h : HbmSt) : (s.setHbmSt h).keys = s.keys := rfl
@[simp] theorem State.setHbmSt_keyGen (h : HbmSt) : (s.setHbmSt h).keyGen = s.keyGen := rfl
@[simp] theorem State.setHbmSt_regions (h : HbmSt) : (s.setHbmSt h).regions = s.regions := rfl
@[simp] theorem State.setHbmSt_rings (h : HbmSt) : (s.setHbmSt h).rings = s.rings := rfl
@[simp] theorem State.setHbmSt_fns (h : HbmSt) : (s.setHbmSt h).fns = s.fns := rfl
@[simp] theorem State.setHbmSt_vmask (h : HbmSt) : (s.setHbmSt h).vmask = s.vmask := rfl
@[simp] theorem State.setHbmSt_msix (h : HbmSt) : (s.setHbmSt h).msix = s.msix := rfl
@[simp] theorem State.setHbmSt_pba (h : HbmSt) : (s.setHbmSt h).pba = s.pba := rfl
@[simp] theorem State.setHbmSt_stalls (h : HbmSt) : (s.setHbmSt h).stalls = s.stalls := rfl
@[simp] theorem State.setHbmSt_follow (h : HbmSt) : (s.setHbmSt h).follow = s.follow := rfl
@[simp] theorem State.setHbmSt_tsEdges (h : HbmSt) : (s.setHbmSt h).tsEdges = s.tsEdges := rfl
@[simp] theorem State.setHbmSt_tsDirty (h : HbmSt) : (s.setHbmSt h).tsDirty = s.tsDirty := rfl
@[simp] theorem State.setHbmSt_armed (h : HbmSt) : (s.setHbmSt h).armed = s.armed := rfl
@[simp] theorem State.setHbmSt_chans (h : HbmSt) : (s.setHbmSt h).chans = s.chans := rfl
@[simp] theorem State.setHbmSt_seqs (h : HbmSt) : (s.setHbmSt h).seqs = s.seqs := rfl
@[simp] theorem State.setHbmSt_catBuf (h : HbmSt) : (s.setHbmSt h).catBuf = s.catBuf := rfl
@[simp] theorem State.setHbmSt_tims (h : HbmSt) : (s.setHbmSt h).tims = s.tims := rfl
@[simp] theorem State.setHbmSt_verniers (h : HbmSt) : (s.setHbmSt h).verniers = s.verniers := rfl
@[simp] theorem State.setHbmSt_lastTrig (h : HbmSt) : (s.setHbmSt h).lastTrig = s.lastTrig := rfl
@[simp] theorem State.setHbmSt_pmus (h : HbmSt) : (s.setHbmSt h).pmus = s.pmus := rfl
@[simp] theorem State.setHbmSt_waves (h : HbmSt) : (s.setHbmSt h).waves = s.waves := rfl
@[simp] theorem State.setHbmSt_caps (h : HbmSt) : (s.setHbmSt h).caps = s.caps := rfl
@[simp] theorem State.setHbmSt_acqs (h : HbmSt) : (s.setHbmSt h).acqs = s.acqs := rfl
@[simp] theorem State.setHbmSt_cnvs (h : HbmSt) : (s.setHbmSt h).cnvs = s.cnvs := rfl
@[simp] theorem State.setHbmSt_line (h : HbmSt) : (s.setHbmSt h).line = s.line := rfl
@[simp] theorem State.setHbmSt_evHist (h : HbmSt) : (s.setHbmSt h).evHist = s.evHist := rfl
@[simp] theorem State.setHbmSt_ticking (h : HbmSt) : (s.setHbmSt h).ticking = s.ticking := rfl
@[simp] theorem State.setHbmSt_trips (h : HbmSt) : (s.setHbmSt h).trips = s.trips := rfl
@[simp] theorem State.setHbmSt_onsets (h : HbmSt) : (s.setHbmSt h).onsets = s.onsets := rfl
@[simp] theorem State.setHbmSt_sampling (h : HbmSt) : (s.setHbmSt h).sampling = s.sampling := rfl
@[simp] theorem State.setHbmSt_wchPend (h : HbmSt) : (s.setHbmSt h).wchPend = s.wchPend := rfl
@[simp] theorem State.setHbmSt_idxs (h : HbmSt) : (s.setHbmSt h).idxs = s.idxs := rfl
@[simp] theorem State.setHbmSt_gth (h : HbmSt) : (s.setHbmSt h).gth = s.gth := rfl
@[simp] theorem State.setHbmSt_halter (h : HbmSt) : (s.setHbmSt h).halter = s.halter := rfl
@[simp] theorem State.setHbmSt_rst (h : HbmSt) : (s.setHbmSt h).rst = s.rst := rfl
@[simp] theorem State.setHbmSt_weather (h : HbmSt) : (s.setHbmSt h).weather = s.weather := rfl
@[simp] theorem State.setHbmSt_cpl (h : HbmSt) : (s.setHbmSt h).cpl = s.cpl := rfl
@[simp] theorem State.setHbmSt_tap (h : HbmSt) : (s.setHbmSt h).tap = s.tap := rfl
@[simp] theorem State.setHbmSt_far (h : HbmSt) : (s.setHbmSt h).far = s.far := rfl
@[simp] theorem State.setHbmSt_grooms (h : HbmSt) : (s.setHbmSt h).grooms = s.grooms := rfl
@[simp] theorem State.setHbmSt_cluster (h : HbmSt) : (s.setHbmSt h).cluster = s.cluster := rfl
@[simp] theorem State.setHbmSt_pending (h : HbmSt) : (s.setHbmSt h).pending = s.pending := rfl

/-! `setTrips` -/

@[simp] theorem State.setTrips_now (i v : Nat) : (s.setTrips i v).now = s.now := rfl
@[simp] theorem State.setTrips_epoch (i v : Nat) : (s.setTrips i v).epoch = s.epoch := rfl
@[simp] theorem State.setTrips_epochLog (i v : Nat) : (s.setTrips i v).epochLog = s.epochLog := rfl
@[simp] theorem State.setTrips_free (i v : Nat) : (s.setTrips i v).free = s.free := rfl
@[simp] theorem State.setTrips_regs (i v : Nat) : (s.setTrips i v).regs = s.regs := rfl
@[simp] theorem State.setTrips_snaps (i v : Nat) : (s.setTrips i v).snaps = s.snaps := rfl
@[simp] theorem State.setTrips_stage (i v : Nat) : (s.setTrips i v).stage = s.stage := rfl
@[simp] theorem State.setTrips_resp (i v : Nat) : (s.setTrips i v).resp = s.resp := rfl
@[simp] theorem State.setTrips_sent (i v : Nat) : (s.setTrips i v).sent = s.sent := rfl
@[simp] theorem State.setTrips_pins (i v : Nat) : (s.setTrips i v).pins = s.pins := rfl
@[simp] theorem State.setTrips_mode (i v : Nat) : (s.setTrips i v).mode = s.mode := rfl
@[simp] theorem State.setTrips_lan (i v : Nat) : (s.setTrips i v).lan = s.lan := rfl
@[simp] theorem State.setTrips_otp (i v : Nat) : (s.setTrips i v).otp = s.otp := rfl
@[simp] theorem State.setTrips_flash (i v : Nat) : (s.setTrips i v).flash = s.flash := rfl
@[simp] theorem State.setTrips_hay (i v : Nat) : (s.setTrips i v).hay = s.hay := rfl
@[simp] theorem State.setTrips_keys (i v : Nat) : (s.setTrips i v).keys = s.keys := rfl
@[simp] theorem State.setTrips_keyGen (i v : Nat) : (s.setTrips i v).keyGen = s.keyGen := rfl
@[simp] theorem State.setTrips_regions (i v : Nat) : (s.setTrips i v).regions = s.regions := rfl
@[simp] theorem State.setTrips_rings (i v : Nat) : (s.setTrips i v).rings = s.rings := rfl
@[simp] theorem State.setTrips_fns (i v : Nat) : (s.setTrips i v).fns = s.fns := rfl
@[simp] theorem State.setTrips_vmask (i v : Nat) : (s.setTrips i v).vmask = s.vmask := rfl
@[simp] theorem State.setTrips_msix (i v : Nat) : (s.setTrips i v).msix = s.msix := rfl
@[simp] theorem State.setTrips_pba (i v : Nat) : (s.setTrips i v).pba = s.pba := rfl
@[simp] theorem State.setTrips_stalls (i v : Nat) : (s.setTrips i v).stalls = s.stalls := rfl
@[simp] theorem State.setTrips_follow (i v : Nat) : (s.setTrips i v).follow = s.follow := rfl
@[simp] theorem State.setTrips_tsEdges (i v : Nat) : (s.setTrips i v).tsEdges = s.tsEdges := rfl
@[simp] theorem State.setTrips_tsDirty (i v : Nat) : (s.setTrips i v).tsDirty = s.tsDirty := rfl
@[simp] theorem State.setTrips_armed (i v : Nat) : (s.setTrips i v).armed = s.armed := rfl
@[simp] theorem State.setTrips_chans (i v : Nat) : (s.setTrips i v).chans = s.chans := rfl
@[simp] theorem State.setTrips_seqs (i v : Nat) : (s.setTrips i v).seqs = s.seqs := rfl
@[simp] theorem State.setTrips_catBuf (i v : Nat) : (s.setTrips i v).catBuf = s.catBuf := rfl
@[simp] theorem State.setTrips_tims (i v : Nat) : (s.setTrips i v).tims = s.tims := rfl
@[simp] theorem State.setTrips_verniers (i v : Nat) : (s.setTrips i v).verniers = s.verniers := rfl
@[simp] theorem State.setTrips_lastTrig (i v : Nat) : (s.setTrips i v).lastTrig = s.lastTrig := rfl
@[simp] theorem State.setTrips_pmus (i v : Nat) : (s.setTrips i v).pmus = s.pmus := rfl
@[simp] theorem State.setTrips_waves (i v : Nat) : (s.setTrips i v).waves = s.waves := rfl
@[simp] theorem State.setTrips_caps (i v : Nat) : (s.setTrips i v).caps = s.caps := rfl
@[simp] theorem State.setTrips_acqs (i v : Nat) : (s.setTrips i v).acqs = s.acqs := rfl
@[simp] theorem State.setTrips_cnvs (i v : Nat) : (s.setTrips i v).cnvs = s.cnvs := rfl
@[simp] theorem State.setTrips_line (i v : Nat) : (s.setTrips i v).line = s.line := rfl
@[simp] theorem State.setTrips_evHist (i v : Nat) : (s.setTrips i v).evHist = s.evHist := rfl
@[simp] theorem State.setTrips_ticking (i v : Nat) : (s.setTrips i v).ticking = s.ticking := rfl
@[simp] theorem State.setTrips_onsets (i v : Nat) : (s.setTrips i v).onsets = s.onsets := rfl
@[simp] theorem State.setTrips_sampling (i v : Nat) : (s.setTrips i v).sampling = s.sampling := rfl
@[simp] theorem State.setTrips_wchPend (i v : Nat) : (s.setTrips i v).wchPend = s.wchPend := rfl
@[simp] theorem State.setTrips_idxs (i v : Nat) : (s.setTrips i v).idxs = s.idxs := rfl
@[simp] theorem State.setTrips_gth (i v : Nat) : (s.setTrips i v).gth = s.gth := rfl
@[simp] theorem State.setTrips_halter (i v : Nat) : (s.setTrips i v).halter = s.halter := rfl
@[simp] theorem State.setTrips_rst (i v : Nat) : (s.setTrips i v).rst = s.rst := rfl
@[simp] theorem State.setTrips_weather (i v : Nat) : (s.setTrips i v).weather = s.weather := rfl
@[simp] theorem State.setTrips_cpl (i v : Nat) : (s.setTrips i v).cpl = s.cpl := rfl
@[simp] theorem State.setTrips_tap (i v : Nat) : (s.setTrips i v).tap = s.tap := rfl
@[simp] theorem State.setTrips_far (i v : Nat) : (s.setTrips i v).far = s.far := rfl
@[simp] theorem State.setTrips_grooms (i v : Nat) : (s.setTrips i v).grooms = s.grooms := rfl
@[simp] theorem State.setTrips_cluster (i v : Nat) : (s.setTrips i v).cluster = s.cluster := rfl
@[simp] theorem State.setTrips_hbm (i v : Nat) : (s.setTrips i v).hbm = s.hbm := rfl
@[simp] theorem State.setTrips_pending (i v : Nat) : (s.setTrips i v).pending = s.pending := rfl

/-! `setTrans` -/

@[simp] theorem State.setTrans_now (v : Option (DevMode × Bool)) : (s.setTrans v).now = s.now := rfl
@[simp] theorem State.setTrans_epoch (v : Option (DevMode × Bool)) : (s.setTrans v).epoch = s.epoch := rfl
@[simp] theorem State.setTrans_epochLog (v : Option (DevMode × Bool)) : (s.setTrans v).epochLog = s.epochLog := rfl
@[simp] theorem State.setTrans_free (v : Option (DevMode × Bool)) : (s.setTrans v).free = s.free := rfl
@[simp] theorem State.setTrans_regs (v : Option (DevMode × Bool)) : (s.setTrans v).regs = s.regs := rfl
@[simp] theorem State.setTrans_snaps (v : Option (DevMode × Bool)) : (s.setTrans v).snaps = s.snaps := rfl
@[simp] theorem State.setTrans_stage (v : Option (DevMode × Bool)) : (s.setTrans v).stage = s.stage := rfl
@[simp] theorem State.setTrans_resp (v : Option (DevMode × Bool)) : (s.setTrans v).resp = s.resp := rfl
@[simp] theorem State.setTrans_sent (v : Option (DevMode × Bool)) : (s.setTrans v).sent = s.sent := rfl
@[simp] theorem State.setTrans_pins (v : Option (DevMode × Bool)) : (s.setTrans v).pins = s.pins := rfl
@[simp] theorem State.setTrans_lan (v : Option (DevMode × Bool)) : (s.setTrans v).lan = s.lan := rfl
@[simp] theorem State.setTrans_otp (v : Option (DevMode × Bool)) : (s.setTrans v).otp = s.otp := rfl
@[simp] theorem State.setTrans_flash (v : Option (DevMode × Bool)) : (s.setTrans v).flash = s.flash := rfl
@[simp] theorem State.setTrans_hay (v : Option (DevMode × Bool)) : (s.setTrans v).hay = s.hay := rfl
@[simp] theorem State.setTrans_keys (v : Option (DevMode × Bool)) : (s.setTrans v).keys = s.keys := rfl
@[simp] theorem State.setTrans_keyGen (v : Option (DevMode × Bool)) : (s.setTrans v).keyGen = s.keyGen := rfl
@[simp] theorem State.setTrans_regions (v : Option (DevMode × Bool)) : (s.setTrans v).regions = s.regions := rfl
@[simp] theorem State.setTrans_rings (v : Option (DevMode × Bool)) : (s.setTrans v).rings = s.rings := rfl
@[simp] theorem State.setTrans_fns (v : Option (DevMode × Bool)) : (s.setTrans v).fns = s.fns := rfl
@[simp] theorem State.setTrans_vmask (v : Option (DevMode × Bool)) : (s.setTrans v).vmask = s.vmask := rfl
@[simp] theorem State.setTrans_msix (v : Option (DevMode × Bool)) : (s.setTrans v).msix = s.msix := rfl
@[simp] theorem State.setTrans_pba (v : Option (DevMode × Bool)) : (s.setTrans v).pba = s.pba := rfl
@[simp] theorem State.setTrans_stalls (v : Option (DevMode × Bool)) : (s.setTrans v).stalls = s.stalls := rfl
@[simp] theorem State.setTrans_follow (v : Option (DevMode × Bool)) : (s.setTrans v).follow = s.follow := rfl
@[simp] theorem State.setTrans_tsEdges (v : Option (DevMode × Bool)) : (s.setTrans v).tsEdges = s.tsEdges := rfl
@[simp] theorem State.setTrans_tsDirty (v : Option (DevMode × Bool)) : (s.setTrans v).tsDirty = s.tsDirty := rfl
@[simp] theorem State.setTrans_armed (v : Option (DevMode × Bool)) : (s.setTrans v).armed = s.armed := rfl
@[simp] theorem State.setTrans_chans (v : Option (DevMode × Bool)) : (s.setTrans v).chans = s.chans := rfl
@[simp] theorem State.setTrans_seqs (v : Option (DevMode × Bool)) : (s.setTrans v).seqs = s.seqs := rfl
@[simp] theorem State.setTrans_catBuf (v : Option (DevMode × Bool)) : (s.setTrans v).catBuf = s.catBuf := rfl
@[simp] theorem State.setTrans_tims (v : Option (DevMode × Bool)) : (s.setTrans v).tims = s.tims := rfl
@[simp] theorem State.setTrans_verniers (v : Option (DevMode × Bool)) : (s.setTrans v).verniers = s.verniers := rfl
@[simp] theorem State.setTrans_lastTrig (v : Option (DevMode × Bool)) : (s.setTrans v).lastTrig = s.lastTrig := rfl
@[simp] theorem State.setTrans_pmus (v : Option (DevMode × Bool)) : (s.setTrans v).pmus = s.pmus := rfl
@[simp] theorem State.setTrans_waves (v : Option (DevMode × Bool)) : (s.setTrans v).waves = s.waves := rfl
@[simp] theorem State.setTrans_caps (v : Option (DevMode × Bool)) : (s.setTrans v).caps = s.caps := rfl
@[simp] theorem State.setTrans_acqs (v : Option (DevMode × Bool)) : (s.setTrans v).acqs = s.acqs := rfl
@[simp] theorem State.setTrans_cnvs (v : Option (DevMode × Bool)) : (s.setTrans v).cnvs = s.cnvs := rfl
@[simp] theorem State.setTrans_line (v : Option (DevMode × Bool)) : (s.setTrans v).line = s.line := rfl
@[simp] theorem State.setTrans_evHist (v : Option (DevMode × Bool)) : (s.setTrans v).evHist = s.evHist := rfl
@[simp] theorem State.setTrans_ticking (v : Option (DevMode × Bool)) : (s.setTrans v).ticking = s.ticking := rfl
@[simp] theorem State.setTrans_trips (v : Option (DevMode × Bool)) : (s.setTrans v).trips = s.trips := rfl
@[simp] theorem State.setTrans_onsets (v : Option (DevMode × Bool)) : (s.setTrans v).onsets = s.onsets := rfl
@[simp] theorem State.setTrans_sampling (v : Option (DevMode × Bool)) : (s.setTrans v).sampling = s.sampling := rfl
@[simp] theorem State.setTrans_wchPend (v : Option (DevMode × Bool)) : (s.setTrans v).wchPend = s.wchPend := rfl
@[simp] theorem State.setTrans_idxs (v : Option (DevMode × Bool)) : (s.setTrans v).idxs = s.idxs := rfl
@[simp] theorem State.setTrans_gth (v : Option (DevMode × Bool)) : (s.setTrans v).gth = s.gth := rfl
@[simp] theorem State.setTrans_halter (v : Option (DevMode × Bool)) : (s.setTrans v).halter = s.halter := rfl
@[simp] theorem State.setTrans_rst (v : Option (DevMode × Bool)) : (s.setTrans v).rst = s.rst := rfl
@[simp] theorem State.setTrans_weather (v : Option (DevMode × Bool)) : (s.setTrans v).weather = s.weather := rfl
@[simp] theorem State.setTrans_cpl (v : Option (DevMode × Bool)) : (s.setTrans v).cpl = s.cpl := rfl
@[simp] theorem State.setTrans_tap (v : Option (DevMode × Bool)) : (s.setTrans v).tap = s.tap := rfl
@[simp] theorem State.setTrans_far (v : Option (DevMode × Bool)) : (s.setTrans v).far = s.far := rfl
@[simp] theorem State.setTrans_grooms (v : Option (DevMode × Bool)) : (s.setTrans v).grooms = s.grooms := rfl
@[simp] theorem State.setTrans_cluster (v : Option (DevMode × Bool)) : (s.setTrans v).cluster = s.cluster := rfl
@[simp] theorem State.setTrans_hbm (v : Option (DevMode × Bool)) : (s.setTrans v).hbm = s.hbm := rfl
@[simp] theorem State.setTrans_pending (v : Option (DevMode × Bool)) : (s.setTrans v).pending = s.pending := rfl

/-! `setPba` -/

@[simp] theorem State.setPba_now (f v : Nat) (b : Bool) : (s.setPba f v b).now = s.now := rfl
@[simp] theorem State.setPba_epoch (f v : Nat) (b : Bool) : (s.setPba f v b).epoch = s.epoch := rfl
@[simp] theorem State.setPba_epochLog (f v : Nat) (b : Bool) : (s.setPba f v b).epochLog = s.epochLog := rfl
@[simp] theorem State.setPba_free (f v : Nat) (b : Bool) : (s.setPba f v b).free = s.free := rfl
@[simp] theorem State.setPba_regs (f v : Nat) (b : Bool) : (s.setPba f v b).regs = s.regs := rfl
@[simp] theorem State.setPba_snaps (f v : Nat) (b : Bool) : (s.setPba f v b).snaps = s.snaps := rfl
@[simp] theorem State.setPba_stage (f v : Nat) (b : Bool) : (s.setPba f v b).stage = s.stage := rfl
@[simp] theorem State.setPba_resp (f v : Nat) (b : Bool) : (s.setPba f v b).resp = s.resp := rfl
@[simp] theorem State.setPba_sent (f v : Nat) (b : Bool) : (s.setPba f v b).sent = s.sent := rfl
@[simp] theorem State.setPba_pins (f v : Nat) (b : Bool) : (s.setPba f v b).pins = s.pins := rfl
@[simp] theorem State.setPba_mode (f v : Nat) (b : Bool) : (s.setPba f v b).mode = s.mode := rfl
@[simp] theorem State.setPba_lan (f v : Nat) (b : Bool) : (s.setPba f v b).lan = s.lan := rfl
@[simp] theorem State.setPba_otp (f v : Nat) (b : Bool) : (s.setPba f v b).otp = s.otp := rfl
@[simp] theorem State.setPba_flash (f v : Nat) (b : Bool) : (s.setPba f v b).flash = s.flash := rfl
@[simp] theorem State.setPba_hay (f v : Nat) (b : Bool) : (s.setPba f v b).hay = s.hay := rfl
@[simp] theorem State.setPba_keys (f v : Nat) (b : Bool) : (s.setPba f v b).keys = s.keys := rfl
@[simp] theorem State.setPba_keyGen (f v : Nat) (b : Bool) : (s.setPba f v b).keyGen = s.keyGen := rfl
@[simp] theorem State.setPba_regions (f v : Nat) (b : Bool) : (s.setPba f v b).regions = s.regions := rfl
@[simp] theorem State.setPba_rings (f v : Nat) (b : Bool) : (s.setPba f v b).rings = s.rings := rfl
@[simp] theorem State.setPba_fns (f v : Nat) (b : Bool) : (s.setPba f v b).fns = s.fns := rfl
@[simp] theorem State.setPba_vmask (f v : Nat) (b : Bool) : (s.setPba f v b).vmask = s.vmask := rfl
@[simp] theorem State.setPba_msix (f v : Nat) (b : Bool) : (s.setPba f v b).msix = s.msix := rfl
@[simp] theorem State.setPba_stalls (f v : Nat) (b : Bool) : (s.setPba f v b).stalls = s.stalls := rfl
@[simp] theorem State.setPba_follow (f v : Nat) (b : Bool) : (s.setPba f v b).follow = s.follow := rfl
@[simp] theorem State.setPba_tsEdges (f v : Nat) (b : Bool) : (s.setPba f v b).tsEdges = s.tsEdges := rfl
@[simp] theorem State.setPba_tsDirty (f v : Nat) (b : Bool) : (s.setPba f v b).tsDirty = s.tsDirty := rfl
@[simp] theorem State.setPba_armed (f v : Nat) (b : Bool) : (s.setPba f v b).armed = s.armed := rfl
@[simp] theorem State.setPba_chans (f v : Nat) (b : Bool) : (s.setPba f v b).chans = s.chans := rfl
@[simp] theorem State.setPba_seqs (f v : Nat) (b : Bool) : (s.setPba f v b).seqs = s.seqs := rfl
@[simp] theorem State.setPba_catBuf (f v : Nat) (b : Bool) : (s.setPba f v b).catBuf = s.catBuf := rfl
@[simp] theorem State.setPba_tims (f v : Nat) (b : Bool) : (s.setPba f v b).tims = s.tims := rfl
@[simp] theorem State.setPba_verniers (f v : Nat) (b : Bool) : (s.setPba f v b).verniers = s.verniers := rfl
@[simp] theorem State.setPba_lastTrig (f v : Nat) (b : Bool) : (s.setPba f v b).lastTrig = s.lastTrig := rfl
@[simp] theorem State.setPba_pmus (f v : Nat) (b : Bool) : (s.setPba f v b).pmus = s.pmus := rfl
@[simp] theorem State.setPba_waves (f v : Nat) (b : Bool) : (s.setPba f v b).waves = s.waves := rfl
@[simp] theorem State.setPba_caps (f v : Nat) (b : Bool) : (s.setPba f v b).caps = s.caps := rfl
@[simp] theorem State.setPba_acqs (f v : Nat) (b : Bool) : (s.setPba f v b).acqs = s.acqs := rfl
@[simp] theorem State.setPba_cnvs (f v : Nat) (b : Bool) : (s.setPba f v b).cnvs = s.cnvs := rfl
@[simp] theorem State.setPba_line (f v : Nat) (b : Bool) : (s.setPba f v b).line = s.line := rfl
@[simp] theorem State.setPba_evHist (f v : Nat) (b : Bool) : (s.setPba f v b).evHist = s.evHist := rfl
@[simp] theorem State.setPba_ticking (f v : Nat) (b : Bool) : (s.setPba f v b).ticking = s.ticking := rfl
@[simp] theorem State.setPba_trips (f v : Nat) (b : Bool) : (s.setPba f v b).trips = s.trips := rfl
@[simp] theorem State.setPba_onsets (f v : Nat) (b : Bool) : (s.setPba f v b).onsets = s.onsets := rfl
@[simp] theorem State.setPba_sampling (f v : Nat) (b : Bool) : (s.setPba f v b).sampling = s.sampling := rfl
@[simp] theorem State.setPba_wchPend (f v : Nat) (b : Bool) : (s.setPba f v b).wchPend = s.wchPend := rfl
@[simp] theorem State.setPba_idxs (f v : Nat) (b : Bool) : (s.setPba f v b).idxs = s.idxs := rfl
@[simp] theorem State.setPba_gth (f v : Nat) (b : Bool) : (s.setPba f v b).gth = s.gth := rfl
@[simp] theorem State.setPba_halter (f v : Nat) (b : Bool) : (s.setPba f v b).halter = s.halter := rfl
@[simp] theorem State.setPba_rst (f v : Nat) (b : Bool) : (s.setPba f v b).rst = s.rst := rfl
@[simp] theorem State.setPba_weather (f v : Nat) (b : Bool) : (s.setPba f v b).weather = s.weather := rfl
@[simp] theorem State.setPba_cpl (f v : Nat) (b : Bool) : (s.setPba f v b).cpl = s.cpl := rfl
@[simp] theorem State.setPba_tap (f v : Nat) (b : Bool) : (s.setPba f v b).tap = s.tap := rfl
@[simp] theorem State.setPba_far (f v : Nat) (b : Bool) : (s.setPba f v b).far = s.far := rfl
@[simp] theorem State.setPba_grooms (f v : Nat) (b : Bool) : (s.setPba f v b).grooms = s.grooms := rfl
@[simp] theorem State.setPba_cluster (f v : Nat) (b : Bool) : (s.setPba f v b).cluster = s.cluster := rfl
@[simp] theorem State.setPba_hbm (f v : Nat) (b : Bool) : (s.setPba f v b).hbm = s.hbm := rfl
@[simp] theorem State.setPba_pending (f v : Nat) (b : Bool) : (s.setPba f v b).pending = s.pending := rfl

/-! `emit` -/

@[simp] theorem State.emit_now (f v : Nat) : (s.emit f v).now = s.now := rfl
@[simp] theorem State.emit_epoch (f v : Nat) : (s.emit f v).epoch = s.epoch := rfl
@[simp] theorem State.emit_epochLog (f v : Nat) : (s.emit f v).epochLog = s.epochLog := rfl
@[simp] theorem State.emit_free (f v : Nat) : (s.emit f v).free = s.free := rfl
@[simp] theorem State.emit_regs (f v : Nat) : (s.emit f v).regs = s.regs := rfl
@[simp] theorem State.emit_snaps (f v : Nat) : (s.emit f v).snaps = s.snaps := rfl
@[simp] theorem State.emit_stage (f v : Nat) : (s.emit f v).stage = s.stage := rfl
@[simp] theorem State.emit_resp (f v : Nat) : (s.emit f v).resp = s.resp := rfl
@[simp] theorem State.emit_pins (f v : Nat) : (s.emit f v).pins = s.pins := rfl
@[simp] theorem State.emit_mode (f v : Nat) : (s.emit f v).mode = s.mode := rfl
@[simp] theorem State.emit_lan (f v : Nat) : (s.emit f v).lan = s.lan := rfl
@[simp] theorem State.emit_otp (f v : Nat) : (s.emit f v).otp = s.otp := rfl
@[simp] theorem State.emit_flash (f v : Nat) : (s.emit f v).flash = s.flash := rfl
@[simp] theorem State.emit_hay (f v : Nat) : (s.emit f v).hay = s.hay := rfl
@[simp] theorem State.emit_keys (f v : Nat) : (s.emit f v).keys = s.keys := rfl
@[simp] theorem State.emit_keyGen (f v : Nat) : (s.emit f v).keyGen = s.keyGen := rfl
@[simp] theorem State.emit_regions (f v : Nat) : (s.emit f v).regions = s.regions := rfl
@[simp] theorem State.emit_rings (f v : Nat) : (s.emit f v).rings = s.rings := rfl
@[simp] theorem State.emit_fns (f v : Nat) : (s.emit f v).fns = s.fns := rfl
@[simp] theorem State.emit_vmask (f v : Nat) : (s.emit f v).vmask = s.vmask := rfl
@[simp] theorem State.emit_msix (f v : Nat) : (s.emit f v).msix = s.msix := rfl
@[simp] theorem State.emit_pba (f v : Nat) : (s.emit f v).pba = s.pba := rfl
@[simp] theorem State.emit_stalls (f v : Nat) : (s.emit f v).stalls = s.stalls := rfl
@[simp] theorem State.emit_follow (f v : Nat) : (s.emit f v).follow = s.follow := rfl
@[simp] theorem State.emit_tsEdges (f v : Nat) : (s.emit f v).tsEdges = s.tsEdges := rfl
@[simp] theorem State.emit_tsDirty (f v : Nat) : (s.emit f v).tsDirty = s.tsDirty := rfl
@[simp] theorem State.emit_armed (f v : Nat) : (s.emit f v).armed = s.armed := rfl
@[simp] theorem State.emit_chans (f v : Nat) : (s.emit f v).chans = s.chans := rfl
@[simp] theorem State.emit_seqs (f v : Nat) : (s.emit f v).seqs = s.seqs := rfl
@[simp] theorem State.emit_catBuf (f v : Nat) : (s.emit f v).catBuf = s.catBuf := rfl
@[simp] theorem State.emit_tims (f v : Nat) : (s.emit f v).tims = s.tims := rfl
@[simp] theorem State.emit_verniers (f v : Nat) : (s.emit f v).verniers = s.verniers := rfl
@[simp] theorem State.emit_lastTrig (f v : Nat) : (s.emit f v).lastTrig = s.lastTrig := rfl
@[simp] theorem State.emit_pmus (f v : Nat) : (s.emit f v).pmus = s.pmus := rfl
@[simp] theorem State.emit_waves (f v : Nat) : (s.emit f v).waves = s.waves := rfl
@[simp] theorem State.emit_caps (f v : Nat) : (s.emit f v).caps = s.caps := rfl
@[simp] theorem State.emit_acqs (f v : Nat) : (s.emit f v).acqs = s.acqs := rfl
@[simp] theorem State.emit_cnvs (f v : Nat) : (s.emit f v).cnvs = s.cnvs := rfl
@[simp] theorem State.emit_line (f v : Nat) : (s.emit f v).line = s.line := rfl
@[simp] theorem State.emit_evHist (f v : Nat) : (s.emit f v).evHist = s.evHist := rfl
@[simp] theorem State.emit_ticking (f v : Nat) : (s.emit f v).ticking = s.ticking := rfl
@[simp] theorem State.emit_trips (f v : Nat) : (s.emit f v).trips = s.trips := rfl
@[simp] theorem State.emit_onsets (f v : Nat) : (s.emit f v).onsets = s.onsets := rfl
@[simp] theorem State.emit_sampling (f v : Nat) : (s.emit f v).sampling = s.sampling := rfl
@[simp] theorem State.emit_wchPend (f v : Nat) : (s.emit f v).wchPend = s.wchPend := rfl
@[simp] theorem State.emit_idxs (f v : Nat) : (s.emit f v).idxs = s.idxs := rfl
@[simp] theorem State.emit_gth (f v : Nat) : (s.emit f v).gth = s.gth := rfl
@[simp] theorem State.emit_halter (f v : Nat) : (s.emit f v).halter = s.halter := rfl
@[simp] theorem State.emit_rst (f v : Nat) : (s.emit f v).rst = s.rst := rfl
@[simp] theorem State.emit_weather (f v : Nat) : (s.emit f v).weather = s.weather := rfl
@[simp] theorem State.emit_cpl (f v : Nat) : (s.emit f v).cpl = s.cpl := rfl
@[simp] theorem State.emit_tap (f v : Nat) : (s.emit f v).tap = s.tap := rfl
@[simp] theorem State.emit_far (f v : Nat) : (s.emit f v).far = s.far := rfl
@[simp] theorem State.emit_grooms (f v : Nat) : (s.emit f v).grooms = s.grooms := rfl
@[simp] theorem State.emit_cluster (f v : Nat) : (s.emit f v).cluster = s.cluster := rfl
@[simp] theorem State.emit_hbm (f v : Nat) : (s.emit f v).hbm = s.hbm := rfl
@[simp] theorem State.emit_pending (f v : Nat) : (s.emit f v).pending = s.pending := rfl

/-! `hayWrite` -/

@[simp] theorem State.hayWrite_now (o a : Nat) (b : Byte) : (s.hayWrite o a b).now = s.now := rfl
@[simp] theorem State.hayWrite_epoch (o a : Nat) (b : Byte) : (s.hayWrite o a b).epoch = s.epoch := rfl
@[simp] theorem State.hayWrite_epochLog (o a : Nat) (b : Byte) : (s.hayWrite o a b).epochLog = s.epochLog := rfl
@[simp] theorem State.hayWrite_free (o a : Nat) (b : Byte) : (s.hayWrite o a b).free = s.free := rfl
@[simp] theorem State.hayWrite_regs (o a : Nat) (b : Byte) : (s.hayWrite o a b).regs = s.regs := rfl
@[simp] theorem State.hayWrite_snaps (o a : Nat) (b : Byte) : (s.hayWrite o a b).snaps = s.snaps := rfl
@[simp] theorem State.hayWrite_stage (o a : Nat) (b : Byte) : (s.hayWrite o a b).stage = s.stage := rfl
@[simp] theorem State.hayWrite_resp (o a : Nat) (b : Byte) : (s.hayWrite o a b).resp = s.resp := rfl
@[simp] theorem State.hayWrite_sent (o a : Nat) (b : Byte) : (s.hayWrite o a b).sent = s.sent := rfl
@[simp] theorem State.hayWrite_pins (o a : Nat) (b : Byte) : (s.hayWrite o a b).pins = s.pins := rfl
@[simp] theorem State.hayWrite_mode (o a : Nat) (b : Byte) : (s.hayWrite o a b).mode = s.mode := rfl
@[simp] theorem State.hayWrite_lan (o a : Nat) (b : Byte) : (s.hayWrite o a b).lan = s.lan := rfl
@[simp] theorem State.hayWrite_otp (o a : Nat) (b : Byte) : (s.hayWrite o a b).otp = s.otp := rfl
@[simp] theorem State.hayWrite_flash (o a : Nat) (b : Byte) : (s.hayWrite o a b).flash = s.flash := rfl
@[simp] theorem State.hayWrite_keys (o a : Nat) (b : Byte) : (s.hayWrite o a b).keys = s.keys := rfl
@[simp] theorem State.hayWrite_keyGen (o a : Nat) (b : Byte) : (s.hayWrite o a b).keyGen = s.keyGen := rfl
@[simp] theorem State.hayWrite_regions (o a : Nat) (b : Byte) : (s.hayWrite o a b).regions = s.regions := rfl
@[simp] theorem State.hayWrite_rings (o a : Nat) (b : Byte) : (s.hayWrite o a b).rings = s.rings := rfl
@[simp] theorem State.hayWrite_fns (o a : Nat) (b : Byte) : (s.hayWrite o a b).fns = s.fns := rfl
@[simp] theorem State.hayWrite_vmask (o a : Nat) (b : Byte) : (s.hayWrite o a b).vmask = s.vmask := rfl
@[simp] theorem State.hayWrite_msix (o a : Nat) (b : Byte) : (s.hayWrite o a b).msix = s.msix := rfl
@[simp] theorem State.hayWrite_pba (o a : Nat) (b : Byte) : (s.hayWrite o a b).pba = s.pba := rfl
@[simp] theorem State.hayWrite_stalls (o a : Nat) (b : Byte) : (s.hayWrite o a b).stalls = s.stalls := rfl
@[simp] theorem State.hayWrite_follow (o a : Nat) (b : Byte) : (s.hayWrite o a b).follow = s.follow := rfl
@[simp] theorem State.hayWrite_tsEdges (o a : Nat) (b : Byte) : (s.hayWrite o a b).tsEdges = s.tsEdges := rfl
@[simp] theorem State.hayWrite_tsDirty (o a : Nat) (b : Byte) : (s.hayWrite o a b).tsDirty = s.tsDirty := rfl
@[simp] theorem State.hayWrite_armed (o a : Nat) (b : Byte) : (s.hayWrite o a b).armed = s.armed := rfl
@[simp] theorem State.hayWrite_chans (o a : Nat) (b : Byte) : (s.hayWrite o a b).chans = s.chans := rfl
@[simp] theorem State.hayWrite_seqs (o a : Nat) (b : Byte) : (s.hayWrite o a b).seqs = s.seqs := rfl
@[simp] theorem State.hayWrite_catBuf (o a : Nat) (b : Byte) : (s.hayWrite o a b).catBuf = s.catBuf := rfl
@[simp] theorem State.hayWrite_tims (o a : Nat) (b : Byte) : (s.hayWrite o a b).tims = s.tims := rfl
@[simp] theorem State.hayWrite_verniers (o a : Nat) (b : Byte) : (s.hayWrite o a b).verniers = s.verniers := rfl
@[simp] theorem State.hayWrite_lastTrig (o a : Nat) (b : Byte) : (s.hayWrite o a b).lastTrig = s.lastTrig := rfl
@[simp] theorem State.hayWrite_pmus (o a : Nat) (b : Byte) : (s.hayWrite o a b).pmus = s.pmus := rfl
@[simp] theorem State.hayWrite_waves (o a : Nat) (b : Byte) : (s.hayWrite o a b).waves = s.waves := rfl
@[simp] theorem State.hayWrite_caps (o a : Nat) (b : Byte) : (s.hayWrite o a b).caps = s.caps := rfl
@[simp] theorem State.hayWrite_acqs (o a : Nat) (b : Byte) : (s.hayWrite o a b).acqs = s.acqs := rfl
@[simp] theorem State.hayWrite_cnvs (o a : Nat) (b : Byte) : (s.hayWrite o a b).cnvs = s.cnvs := rfl
@[simp] theorem State.hayWrite_line (o a : Nat) (b : Byte) : (s.hayWrite o a b).line = s.line := rfl
@[simp] theorem State.hayWrite_evHist (o a : Nat) (b : Byte) : (s.hayWrite o a b).evHist = s.evHist := rfl
@[simp] theorem State.hayWrite_ticking (o a : Nat) (b : Byte) : (s.hayWrite o a b).ticking = s.ticking := rfl
@[simp] theorem State.hayWrite_trips (o a : Nat) (b : Byte) : (s.hayWrite o a b).trips = s.trips := rfl
@[simp] theorem State.hayWrite_onsets (o a : Nat) (b : Byte) : (s.hayWrite o a b).onsets = s.onsets := rfl
@[simp] theorem State.hayWrite_sampling (o a : Nat) (b : Byte) : (s.hayWrite o a b).sampling = s.sampling := rfl
@[simp] theorem State.hayWrite_wchPend (o a : Nat) (b : Byte) : (s.hayWrite o a b).wchPend = s.wchPend := rfl
@[simp] theorem State.hayWrite_idxs (o a : Nat) (b : Byte) : (s.hayWrite o a b).idxs = s.idxs := rfl
@[simp] theorem State.hayWrite_gth (o a : Nat) (b : Byte) : (s.hayWrite o a b).gth = s.gth := rfl
@[simp] theorem State.hayWrite_halter (o a : Nat) (b : Byte) : (s.hayWrite o a b).halter = s.halter := rfl
@[simp] theorem State.hayWrite_rst (o a : Nat) (b : Byte) : (s.hayWrite o a b).rst = s.rst := rfl
@[simp] theorem State.hayWrite_weather (o a : Nat) (b : Byte) : (s.hayWrite o a b).weather = s.weather := rfl
@[simp] theorem State.hayWrite_cpl (o a : Nat) (b : Byte) : (s.hayWrite o a b).cpl = s.cpl := rfl
@[simp] theorem State.hayWrite_tap (o a : Nat) (b : Byte) : (s.hayWrite o a b).tap = s.tap := rfl
@[simp] theorem State.hayWrite_far (o a : Nat) (b : Byte) : (s.hayWrite o a b).far = s.far := rfl
@[simp] theorem State.hayWrite_grooms (o a : Nat) (b : Byte) : (s.hayWrite o a b).grooms = s.grooms := rfl
@[simp] theorem State.hayWrite_cluster (o a : Nat) (b : Byte) : (s.hayWrite o a b).cluster = s.cluster := rfl
@[simp] theorem State.hayWrite_hbm (o a : Nat) (b : Byte) : (s.hayWrite o a b).hbm = s.hbm := rfl
@[simp] theorem State.hayWrite_pending (o a : Nat) (b : Byte) : (s.hayWrite o a b).pending = s.pending := rfl

/-! `hayForget` -/

@[simp] theorem State.hayForget_now : (s.hayForget).now = s.now := rfl
@[simp] theorem State.hayForget_epoch : (s.hayForget).epoch = s.epoch := rfl
@[simp] theorem State.hayForget_epochLog : (s.hayForget).epochLog = s.epochLog := rfl
@[simp] theorem State.hayForget_free : (s.hayForget).free = s.free := rfl
@[simp] theorem State.hayForget_regs : (s.hayForget).regs = s.regs := rfl
@[simp] theorem State.hayForget_snaps : (s.hayForget).snaps = s.snaps := rfl
@[simp] theorem State.hayForget_stage : (s.hayForget).stage = s.stage := rfl
@[simp] theorem State.hayForget_resp : (s.hayForget).resp = s.resp := rfl
@[simp] theorem State.hayForget_sent : (s.hayForget).sent = s.sent := rfl
@[simp] theorem State.hayForget_pins : (s.hayForget).pins = s.pins := rfl
@[simp] theorem State.hayForget_mode : (s.hayForget).mode = s.mode := rfl
@[simp] theorem State.hayForget_lan : (s.hayForget).lan = s.lan := rfl
@[simp] theorem State.hayForget_otp : (s.hayForget).otp = s.otp := rfl
@[simp] theorem State.hayForget_flash : (s.hayForget).flash = s.flash := rfl
@[simp] theorem State.hayForget_keys : (s.hayForget).keys = s.keys := rfl
@[simp] theorem State.hayForget_keyGen : (s.hayForget).keyGen = s.keyGen := rfl
@[simp] theorem State.hayForget_regions : (s.hayForget).regions = s.regions := rfl
@[simp] theorem State.hayForget_rings : (s.hayForget).rings = s.rings := rfl
@[simp] theorem State.hayForget_fns : (s.hayForget).fns = s.fns := rfl
@[simp] theorem State.hayForget_vmask : (s.hayForget).vmask = s.vmask := rfl
@[simp] theorem State.hayForget_msix : (s.hayForget).msix = s.msix := rfl
@[simp] theorem State.hayForget_pba : (s.hayForget).pba = s.pba := rfl
@[simp] theorem State.hayForget_stalls : (s.hayForget).stalls = s.stalls := rfl
@[simp] theorem State.hayForget_follow : (s.hayForget).follow = s.follow := rfl
@[simp] theorem State.hayForget_tsEdges : (s.hayForget).tsEdges = s.tsEdges := rfl
@[simp] theorem State.hayForget_tsDirty : (s.hayForget).tsDirty = s.tsDirty := rfl
@[simp] theorem State.hayForget_armed : (s.hayForget).armed = s.armed := rfl
@[simp] theorem State.hayForget_chans : (s.hayForget).chans = s.chans := rfl
@[simp] theorem State.hayForget_seqs : (s.hayForget).seqs = s.seqs := rfl
@[simp] theorem State.hayForget_catBuf : (s.hayForget).catBuf = s.catBuf := rfl
@[simp] theorem State.hayForget_tims : (s.hayForget).tims = s.tims := rfl
@[simp] theorem State.hayForget_verniers : (s.hayForget).verniers = s.verniers := rfl
@[simp] theorem State.hayForget_lastTrig : (s.hayForget).lastTrig = s.lastTrig := rfl
@[simp] theorem State.hayForget_pmus : (s.hayForget).pmus = s.pmus := rfl
@[simp] theorem State.hayForget_waves : (s.hayForget).waves = s.waves := rfl
@[simp] theorem State.hayForget_caps : (s.hayForget).caps = s.caps := rfl
@[simp] theorem State.hayForget_acqs : (s.hayForget).acqs = s.acqs := rfl
@[simp] theorem State.hayForget_cnvs : (s.hayForget).cnvs = s.cnvs := rfl
@[simp] theorem State.hayForget_line : (s.hayForget).line = s.line := rfl
@[simp] theorem State.hayForget_evHist : (s.hayForget).evHist = s.evHist := rfl
@[simp] theorem State.hayForget_ticking : (s.hayForget).ticking = s.ticking := rfl
@[simp] theorem State.hayForget_trips : (s.hayForget).trips = s.trips := rfl
@[simp] theorem State.hayForget_onsets : (s.hayForget).onsets = s.onsets := rfl
@[simp] theorem State.hayForget_sampling : (s.hayForget).sampling = s.sampling := rfl
@[simp] theorem State.hayForget_wchPend : (s.hayForget).wchPend = s.wchPend := rfl
@[simp] theorem State.hayForget_idxs : (s.hayForget).idxs = s.idxs := rfl
@[simp] theorem State.hayForget_gth : (s.hayForget).gth = s.gth := rfl
@[simp] theorem State.hayForget_halter : (s.hayForget).halter = s.halter := rfl
@[simp] theorem State.hayForget_rst : (s.hayForget).rst = s.rst := rfl
@[simp] theorem State.hayForget_weather : (s.hayForget).weather = s.weather := rfl
@[simp] theorem State.hayForget_cpl : (s.hayForget).cpl = s.cpl := rfl
@[simp] theorem State.hayForget_tap : (s.hayForget).tap = s.tap := rfl
@[simp] theorem State.hayForget_far : (s.hayForget).far = s.far := rfl
@[simp] theorem State.hayForget_grooms : (s.hayForget).grooms = s.grooms := rfl
@[simp] theorem State.hayForget_cluster : (s.hayForget).cluster = s.cluster := rfl
@[simp] theorem State.hayForget_hbm : (s.hayForget).hbm = s.hbm := rfl
@[simp] theorem State.hayForget_pending : (s.hayForget).pending = s.pending := rfl

/-! `logLose` -/

@[simp] theorem State.logLose_now : (s.logLose).now = s.now := rfl
@[simp] theorem State.logLose_epoch : (s.logLose).epoch = s.epoch := rfl
@[simp] theorem State.logLose_epochLog : (s.logLose).epochLog = s.epochLog := rfl
@[simp] theorem State.logLose_free : (s.logLose).free = s.free := rfl
@[simp] theorem State.logLose_regs : (s.logLose).regs = s.regs := rfl
@[simp] theorem State.logLose_snaps : (s.logLose).snaps = s.snaps := rfl
@[simp] theorem State.logLose_stage : (s.logLose).stage = s.stage := rfl
@[simp] theorem State.logLose_resp : (s.logLose).resp = s.resp := rfl
@[simp] theorem State.logLose_sent : (s.logLose).sent = s.sent := rfl
@[simp] theorem State.logLose_pins : (s.logLose).pins = s.pins := rfl
@[simp] theorem State.logLose_mode : (s.logLose).mode = s.mode := rfl
@[simp] theorem State.logLose_otp : (s.logLose).otp = s.otp := rfl
@[simp] theorem State.logLose_flash : (s.logLose).flash = s.flash := rfl
@[simp] theorem State.logLose_hay : (s.logLose).hay = s.hay := rfl
@[simp] theorem State.logLose_keys : (s.logLose).keys = s.keys := rfl
@[simp] theorem State.logLose_keyGen : (s.logLose).keyGen = s.keyGen := rfl
@[simp] theorem State.logLose_regions : (s.logLose).regions = s.regions := rfl
@[simp] theorem State.logLose_rings : (s.logLose).rings = s.rings := rfl
@[simp] theorem State.logLose_fns : (s.logLose).fns = s.fns := rfl
@[simp] theorem State.logLose_vmask : (s.logLose).vmask = s.vmask := rfl
@[simp] theorem State.logLose_msix : (s.logLose).msix = s.msix := rfl
@[simp] theorem State.logLose_pba : (s.logLose).pba = s.pba := rfl
@[simp] theorem State.logLose_stalls : (s.logLose).stalls = s.stalls := rfl
@[simp] theorem State.logLose_follow : (s.logLose).follow = s.follow := rfl
@[simp] theorem State.logLose_tsEdges : (s.logLose).tsEdges = s.tsEdges := rfl
@[simp] theorem State.logLose_tsDirty : (s.logLose).tsDirty = s.tsDirty := rfl
@[simp] theorem State.logLose_armed : (s.logLose).armed = s.armed := rfl
@[simp] theorem State.logLose_chans : (s.logLose).chans = s.chans := rfl
@[simp] theorem State.logLose_seqs : (s.logLose).seqs = s.seqs := rfl
@[simp] theorem State.logLose_catBuf : (s.logLose).catBuf = s.catBuf := rfl
@[simp] theorem State.logLose_tims : (s.logLose).tims = s.tims := rfl
@[simp] theorem State.logLose_verniers : (s.logLose).verniers = s.verniers := rfl
@[simp] theorem State.logLose_lastTrig : (s.logLose).lastTrig = s.lastTrig := rfl
@[simp] theorem State.logLose_pmus : (s.logLose).pmus = s.pmus := rfl
@[simp] theorem State.logLose_waves : (s.logLose).waves = s.waves := rfl
@[simp] theorem State.logLose_caps : (s.logLose).caps = s.caps := rfl
@[simp] theorem State.logLose_acqs : (s.logLose).acqs = s.acqs := rfl
@[simp] theorem State.logLose_cnvs : (s.logLose).cnvs = s.cnvs := rfl
@[simp] theorem State.logLose_line : (s.logLose).line = s.line := rfl
@[simp] theorem State.logLose_evHist : (s.logLose).evHist = s.evHist := rfl
@[simp] theorem State.logLose_ticking : (s.logLose).ticking = s.ticking := rfl
@[simp] theorem State.logLose_trips : (s.logLose).trips = s.trips := rfl
@[simp] theorem State.logLose_onsets : (s.logLose).onsets = s.onsets := rfl
@[simp] theorem State.logLose_sampling : (s.logLose).sampling = s.sampling := rfl
@[simp] theorem State.logLose_wchPend : (s.logLose).wchPend = s.wchPend := rfl
@[simp] theorem State.logLose_idxs : (s.logLose).idxs = s.idxs := rfl
@[simp] theorem State.logLose_gth : (s.logLose).gth = s.gth := rfl
@[simp] theorem State.logLose_halter : (s.logLose).halter = s.halter := rfl
@[simp] theorem State.logLose_rst : (s.logLose).rst = s.rst := rfl
@[simp] theorem State.logLose_weather : (s.logLose).weather = s.weather := rfl
@[simp] theorem State.logLose_cpl : (s.logLose).cpl = s.cpl := rfl
@[simp] theorem State.logLose_tap : (s.logLose).tap = s.tap := rfl
@[simp] theorem State.logLose_far : (s.logLose).far = s.far := rfl
@[simp] theorem State.logLose_grooms : (s.logLose).grooms = s.grooms := rfl
@[simp] theorem State.logLose_cluster : (s.logLose).cluster = s.cluster := rfl
@[simp] theorem State.logLose_hbm : (s.logLose).hbm = s.hbm := rfl
@[simp] theorem State.logLose_pending : (s.logLose).pending = s.pending := rfl

/-! `lanAt` -/

@[simp] theorem State.lanAt_now (n : Nat) : (s.lanAt n).now = s.now := rfl
@[simp] theorem State.lanAt_epoch (n : Nat) : (s.lanAt n).epoch = s.epoch := rfl
@[simp] theorem State.lanAt_epochLog (n : Nat) : (s.lanAt n).epochLog = s.epochLog := rfl
@[simp] theorem State.lanAt_free (n : Nat) : (s.lanAt n).free = s.free := rfl
@[simp] theorem State.lanAt_regs (n : Nat) : (s.lanAt n).regs = s.regs := rfl
@[simp] theorem State.lanAt_snaps (n : Nat) : (s.lanAt n).snaps = s.snaps := rfl
@[simp] theorem State.lanAt_stage (n : Nat) : (s.lanAt n).stage = s.stage := rfl
@[simp] theorem State.lanAt_resp (n : Nat) : (s.lanAt n).resp = s.resp := rfl
@[simp] theorem State.lanAt_sent (n : Nat) : (s.lanAt n).sent = s.sent := rfl
@[simp] theorem State.lanAt_pins (n : Nat) : (s.lanAt n).pins = s.pins := rfl
@[simp] theorem State.lanAt_mode (n : Nat) : (s.lanAt n).mode = s.mode := rfl
@[simp] theorem State.lanAt_otp (n : Nat) : (s.lanAt n).otp = s.otp := rfl
@[simp] theorem State.lanAt_flash (n : Nat) : (s.lanAt n).flash = s.flash := rfl
@[simp] theorem State.lanAt_hay (n : Nat) : (s.lanAt n).hay = s.hay := rfl
@[simp] theorem State.lanAt_keys (n : Nat) : (s.lanAt n).keys = s.keys := rfl
@[simp] theorem State.lanAt_keyGen (n : Nat) : (s.lanAt n).keyGen = s.keyGen := rfl
@[simp] theorem State.lanAt_regions (n : Nat) : (s.lanAt n).regions = s.regions := rfl
@[simp] theorem State.lanAt_rings (n : Nat) : (s.lanAt n).rings = s.rings := rfl
@[simp] theorem State.lanAt_fns (n : Nat) : (s.lanAt n).fns = s.fns := rfl
@[simp] theorem State.lanAt_vmask (n : Nat) : (s.lanAt n).vmask = s.vmask := rfl
@[simp] theorem State.lanAt_msix (n : Nat) : (s.lanAt n).msix = s.msix := rfl
@[simp] theorem State.lanAt_pba (n : Nat) : (s.lanAt n).pba = s.pba := rfl
@[simp] theorem State.lanAt_stalls (n : Nat) : (s.lanAt n).stalls = s.stalls := rfl
@[simp] theorem State.lanAt_follow (n : Nat) : (s.lanAt n).follow = s.follow := rfl
@[simp] theorem State.lanAt_tsEdges (n : Nat) : (s.lanAt n).tsEdges = s.tsEdges := rfl
@[simp] theorem State.lanAt_tsDirty (n : Nat) : (s.lanAt n).tsDirty = s.tsDirty := rfl
@[simp] theorem State.lanAt_armed (n : Nat) : (s.lanAt n).armed = s.armed := rfl
@[simp] theorem State.lanAt_chans (n : Nat) : (s.lanAt n).chans = s.chans := rfl
@[simp] theorem State.lanAt_seqs (n : Nat) : (s.lanAt n).seqs = s.seqs := rfl
@[simp] theorem State.lanAt_catBuf (n : Nat) : (s.lanAt n).catBuf = s.catBuf := rfl
@[simp] theorem State.lanAt_tims (n : Nat) : (s.lanAt n).tims = s.tims := rfl
@[simp] theorem State.lanAt_verniers (n : Nat) : (s.lanAt n).verniers = s.verniers := rfl
@[simp] theorem State.lanAt_lastTrig (n : Nat) : (s.lanAt n).lastTrig = s.lastTrig := rfl
@[simp] theorem State.lanAt_pmus (n : Nat) : (s.lanAt n).pmus = s.pmus := rfl
@[simp] theorem State.lanAt_waves (n : Nat) : (s.lanAt n).waves = s.waves := rfl
@[simp] theorem State.lanAt_caps (n : Nat) : (s.lanAt n).caps = s.caps := rfl
@[simp] theorem State.lanAt_acqs (n : Nat) : (s.lanAt n).acqs = s.acqs := rfl
@[simp] theorem State.lanAt_cnvs (n : Nat) : (s.lanAt n).cnvs = s.cnvs := rfl
@[simp] theorem State.lanAt_line (n : Nat) : (s.lanAt n).line = s.line := rfl
@[simp] theorem State.lanAt_evHist (n : Nat) : (s.lanAt n).evHist = s.evHist := rfl
@[simp] theorem State.lanAt_ticking (n : Nat) : (s.lanAt n).ticking = s.ticking := rfl
@[simp] theorem State.lanAt_trips (n : Nat) : (s.lanAt n).trips = s.trips := rfl
@[simp] theorem State.lanAt_onsets (n : Nat) : (s.lanAt n).onsets = s.onsets := rfl
@[simp] theorem State.lanAt_sampling (n : Nat) : (s.lanAt n).sampling = s.sampling := rfl
@[simp] theorem State.lanAt_wchPend (n : Nat) : (s.lanAt n).wchPend = s.wchPend := rfl
@[simp] theorem State.lanAt_idxs (n : Nat) : (s.lanAt n).idxs = s.idxs := rfl
@[simp] theorem State.lanAt_gth (n : Nat) : (s.lanAt n).gth = s.gth := rfl
@[simp] theorem State.lanAt_halter (n : Nat) : (s.lanAt n).halter = s.halter := rfl
@[simp] theorem State.lanAt_rst (n : Nat) : (s.lanAt n).rst = s.rst := rfl
@[simp] theorem State.lanAt_weather (n : Nat) : (s.lanAt n).weather = s.weather := rfl
@[simp] theorem State.lanAt_cpl (n : Nat) : (s.lanAt n).cpl = s.cpl := rfl
@[simp] theorem State.lanAt_tap (n : Nat) : (s.lanAt n).tap = s.tap := rfl
@[simp] theorem State.lanAt_far (n : Nat) : (s.lanAt n).far = s.far := rfl
@[simp] theorem State.lanAt_grooms (n : Nat) : (s.lanAt n).grooms = s.grooms := rfl
@[simp] theorem State.lanAt_cluster (n : Nat) : (s.lanAt n).cluster = s.cluster := rfl
@[simp] theorem State.lanAt_hbm (n : Nat) : (s.lanAt n).hbm = s.hbm := rfl
@[simp] theorem State.lanAt_pending (n : Nat) : (s.lanAt n).pending = s.pending := rfl

/-! `logWrite` -/

@[simp] theorem State.logWrite_now (n : Nat) : (s.logWrite n).now = s.now := rfl
@[simp] theorem State.logWrite_epoch (n : Nat) : (s.logWrite n).epoch = s.epoch := rfl
@[simp] theorem State.logWrite_epochLog (n : Nat) : (s.logWrite n).epochLog = s.epochLog := rfl
@[simp] theorem State.logWrite_free (n : Nat) : (s.logWrite n).free = s.free := rfl
@[simp] theorem State.logWrite_regs (n : Nat) : (s.logWrite n).regs = s.regs := rfl
@[simp] theorem State.logWrite_snaps (n : Nat) : (s.logWrite n).snaps = s.snaps := rfl
@[simp] theorem State.logWrite_stage (n : Nat) : (s.logWrite n).stage = s.stage := rfl
@[simp] theorem State.logWrite_resp (n : Nat) : (s.logWrite n).resp = s.resp := rfl
@[simp] theorem State.logWrite_sent (n : Nat) : (s.logWrite n).sent = s.sent := rfl
@[simp] theorem State.logWrite_pins (n : Nat) : (s.logWrite n).pins = s.pins := rfl
@[simp] theorem State.logWrite_mode (n : Nat) : (s.logWrite n).mode = s.mode := rfl
@[simp] theorem State.logWrite_otp (n : Nat) : (s.logWrite n).otp = s.otp := rfl
@[simp] theorem State.logWrite_flash (n : Nat) : (s.logWrite n).flash = s.flash := rfl
@[simp] theorem State.logWrite_hay (n : Nat) : (s.logWrite n).hay = s.hay := rfl
@[simp] theorem State.logWrite_keys (n : Nat) : (s.logWrite n).keys = s.keys := rfl
@[simp] theorem State.logWrite_keyGen (n : Nat) : (s.logWrite n).keyGen = s.keyGen := rfl
@[simp] theorem State.logWrite_regions (n : Nat) : (s.logWrite n).regions = s.regions := rfl
@[simp] theorem State.logWrite_rings (n : Nat) : (s.logWrite n).rings = s.rings := rfl
@[simp] theorem State.logWrite_fns (n : Nat) : (s.logWrite n).fns = s.fns := rfl
@[simp] theorem State.logWrite_vmask (n : Nat) : (s.logWrite n).vmask = s.vmask := rfl
@[simp] theorem State.logWrite_msix (n : Nat) : (s.logWrite n).msix = s.msix := rfl
@[simp] theorem State.logWrite_pba (n : Nat) : (s.logWrite n).pba = s.pba := rfl
@[simp] theorem State.logWrite_stalls (n : Nat) : (s.logWrite n).stalls = s.stalls := rfl
@[simp] theorem State.logWrite_follow (n : Nat) : (s.logWrite n).follow = s.follow := rfl
@[simp] theorem State.logWrite_tsEdges (n : Nat) : (s.logWrite n).tsEdges = s.tsEdges := rfl
@[simp] theorem State.logWrite_tsDirty (n : Nat) : (s.logWrite n).tsDirty = s.tsDirty := rfl
@[simp] theorem State.logWrite_armed (n : Nat) : (s.logWrite n).armed = s.armed := rfl
@[simp] theorem State.logWrite_chans (n : Nat) : (s.logWrite n).chans = s.chans := rfl
@[simp] theorem State.logWrite_seqs (n : Nat) : (s.logWrite n).seqs = s.seqs := rfl
@[simp] theorem State.logWrite_catBuf (n : Nat) : (s.logWrite n).catBuf = s.catBuf := rfl
@[simp] theorem State.logWrite_tims (n : Nat) : (s.logWrite n).tims = s.tims := rfl
@[simp] theorem State.logWrite_verniers (n : Nat) : (s.logWrite n).verniers = s.verniers := rfl
@[simp] theorem State.logWrite_lastTrig (n : Nat) : (s.logWrite n).lastTrig = s.lastTrig := rfl
@[simp] theorem State.logWrite_pmus (n : Nat) : (s.logWrite n).pmus = s.pmus := rfl
@[simp] theorem State.logWrite_waves (n : Nat) : (s.logWrite n).waves = s.waves := rfl
@[simp] theorem State.logWrite_caps (n : Nat) : (s.logWrite n).caps = s.caps := rfl
@[simp] theorem State.logWrite_acqs (n : Nat) : (s.logWrite n).acqs = s.acqs := rfl
@[simp] theorem State.logWrite_cnvs (n : Nat) : (s.logWrite n).cnvs = s.cnvs := rfl
@[simp] theorem State.logWrite_line (n : Nat) : (s.logWrite n).line = s.line := rfl
@[simp] theorem State.logWrite_evHist (n : Nat) : (s.logWrite n).evHist = s.evHist := rfl
@[simp] theorem State.logWrite_ticking (n : Nat) : (s.logWrite n).ticking = s.ticking := rfl
@[simp] theorem State.logWrite_trips (n : Nat) : (s.logWrite n).trips = s.trips := rfl
@[simp] theorem State.logWrite_onsets (n : Nat) : (s.logWrite n).onsets = s.onsets := rfl
@[simp] theorem State.logWrite_sampling (n : Nat) : (s.logWrite n).sampling = s.sampling := rfl
@[simp] theorem State.logWrite_wchPend (n : Nat) : (s.logWrite n).wchPend = s.wchPend := rfl
@[simp] theorem State.logWrite_idxs (n : Nat) : (s.logWrite n).idxs = s.idxs := rfl
@[simp] theorem State.logWrite_gth (n : Nat) : (s.logWrite n).gth = s.gth := rfl
@[simp] theorem State.logWrite_halter (n : Nat) : (s.logWrite n).halter = s.halter := rfl
@[simp] theorem State.logWrite_rst (n : Nat) : (s.logWrite n).rst = s.rst := rfl
@[simp] theorem State.logWrite_weather (n : Nat) : (s.logWrite n).weather = s.weather := rfl
@[simp] theorem State.logWrite_cpl (n : Nat) : (s.logWrite n).cpl = s.cpl := rfl
@[simp] theorem State.logWrite_tap (n : Nat) : (s.logWrite n).tap = s.tap := rfl
@[simp] theorem State.logWrite_far (n : Nat) : (s.logWrite n).far = s.far := rfl
@[simp] theorem State.logWrite_grooms (n : Nat) : (s.logWrite n).grooms = s.grooms := rfl
@[simp] theorem State.logWrite_cluster (n : Nat) : (s.logWrite n).cluster = s.cluster := rfl
@[simp] theorem State.logWrite_hbm (n : Nat) : (s.logWrite n).hbm = s.hbm := rfl
@[simp] theorem State.logWrite_pending (n : Nat) : (s.logWrite n).pending = s.pending := rfl

/-! `atTick` -/

@[simp] theorem State.atTick_epoch (n : Nat) : (s.atTick n).epoch = s.epoch := rfl
@[simp] theorem State.atTick_epochLog (n : Nat) : (s.atTick n).epochLog = s.epochLog := rfl
@[simp] theorem State.atTick_free (n : Nat) : (s.atTick n).free = s.free := rfl
@[simp] theorem State.atTick_regs (n : Nat) : (s.atTick n).regs = s.regs := rfl
@[simp] theorem State.atTick_snaps (n : Nat) : (s.atTick n).snaps = s.snaps := rfl
@[simp] theorem State.atTick_stage (n : Nat) : (s.atTick n).stage = s.stage := rfl
@[simp] theorem State.atTick_resp (n : Nat) : (s.atTick n).resp = s.resp := rfl
@[simp] theorem State.atTick_sent (n : Nat) : (s.atTick n).sent = s.sent := rfl
@[simp] theorem State.atTick_pins (n : Nat) : (s.atTick n).pins = s.pins := rfl
@[simp] theorem State.atTick_mode (n : Nat) : (s.atTick n).mode = s.mode := rfl
@[simp] theorem State.atTick_lan (n : Nat) : (s.atTick n).lan = s.lan := rfl
@[simp] theorem State.atTick_otp (n : Nat) : (s.atTick n).otp = s.otp := rfl
@[simp] theorem State.atTick_flash (n : Nat) : (s.atTick n).flash = s.flash := rfl
@[simp] theorem State.atTick_hay (n : Nat) : (s.atTick n).hay = s.hay := rfl
@[simp] theorem State.atTick_keys (n : Nat) : (s.atTick n).keys = s.keys := rfl
@[simp] theorem State.atTick_keyGen (n : Nat) : (s.atTick n).keyGen = s.keyGen := rfl
@[simp] theorem State.atTick_regions (n : Nat) : (s.atTick n).regions = s.regions := rfl
@[simp] theorem State.atTick_rings (n : Nat) : (s.atTick n).rings = s.rings := rfl
@[simp] theorem State.atTick_fns (n : Nat) : (s.atTick n).fns = s.fns := rfl
@[simp] theorem State.atTick_vmask (n : Nat) : (s.atTick n).vmask = s.vmask := rfl
@[simp] theorem State.atTick_msix (n : Nat) : (s.atTick n).msix = s.msix := rfl
@[simp] theorem State.atTick_pba (n : Nat) : (s.atTick n).pba = s.pba := rfl
@[simp] theorem State.atTick_stalls (n : Nat) : (s.atTick n).stalls = s.stalls := rfl
@[simp] theorem State.atTick_follow (n : Nat) : (s.atTick n).follow = s.follow := rfl
@[simp] theorem State.atTick_tsEdges (n : Nat) : (s.atTick n).tsEdges = s.tsEdges := rfl
@[simp] theorem State.atTick_tsDirty (n : Nat) : (s.atTick n).tsDirty = s.tsDirty := rfl
@[simp] theorem State.atTick_armed (n : Nat) : (s.atTick n).armed = s.armed := rfl
@[simp] theorem State.atTick_chans (n : Nat) : (s.atTick n).chans = s.chans := rfl
@[simp] theorem State.atTick_seqs (n : Nat) : (s.atTick n).seqs = s.seqs := rfl
@[simp] theorem State.atTick_catBuf (n : Nat) : (s.atTick n).catBuf = s.catBuf := rfl
@[simp] theorem State.atTick_tims (n : Nat) : (s.atTick n).tims = s.tims := rfl
@[simp] theorem State.atTick_verniers (n : Nat) : (s.atTick n).verniers = s.verniers := rfl
@[simp] theorem State.atTick_lastTrig (n : Nat) : (s.atTick n).lastTrig = s.lastTrig := rfl
@[simp] theorem State.atTick_pmus (n : Nat) : (s.atTick n).pmus = s.pmus := rfl
@[simp] theorem State.atTick_waves (n : Nat) : (s.atTick n).waves = s.waves := rfl
@[simp] theorem State.atTick_caps (n : Nat) : (s.atTick n).caps = s.caps := rfl
@[simp] theorem State.atTick_acqs (n : Nat) : (s.atTick n).acqs = s.acqs := rfl
@[simp] theorem State.atTick_cnvs (n : Nat) : (s.atTick n).cnvs = s.cnvs := rfl
@[simp] theorem State.atTick_line (n : Nat) : (s.atTick n).line = s.line := rfl
@[simp] theorem State.atTick_evHist (n : Nat) : (s.atTick n).evHist = s.evHist := rfl
@[simp] theorem State.atTick_ticking (n : Nat) : (s.atTick n).ticking = s.ticking := rfl
@[simp] theorem State.atTick_trips (n : Nat) : (s.atTick n).trips = s.trips := rfl
@[simp] theorem State.atTick_onsets (n : Nat) : (s.atTick n).onsets = s.onsets := rfl
@[simp] theorem State.atTick_sampling (n : Nat) : (s.atTick n).sampling = s.sampling := rfl
@[simp] theorem State.atTick_wchPend (n : Nat) : (s.atTick n).wchPend = s.wchPend := rfl
@[simp] theorem State.atTick_idxs (n : Nat) : (s.atTick n).idxs = s.idxs := rfl
@[simp] theorem State.atTick_gth (n : Nat) : (s.atTick n).gth = s.gth := rfl
@[simp] theorem State.atTick_halter (n : Nat) : (s.atTick n).halter = s.halter := rfl
@[simp] theorem State.atTick_rst (n : Nat) : (s.atTick n).rst = s.rst := rfl
@[simp] theorem State.atTick_weather (n : Nat) : (s.atTick n).weather = s.weather := rfl
@[simp] theorem State.atTick_cpl (n : Nat) : (s.atTick n).cpl = s.cpl := rfl
@[simp] theorem State.atTick_tap (n : Nat) : (s.atTick n).tap = s.tap := rfl
@[simp] theorem State.atTick_far (n : Nat) : (s.atTick n).far = s.far := rfl
@[simp] theorem State.atTick_grooms (n : Nat) : (s.atTick n).grooms = s.grooms := rfl
@[simp] theorem State.atTick_cluster (n : Nat) : (s.atTick n).cluster = s.cluster := rfl
@[simp] theorem State.atTick_hbm (n : Nat) : (s.atTick n).hbm = s.hbm := rfl
@[simp] theorem State.atTick_pending (n : Nat) : (s.atTick n).pending = s.pending := rfl

end Sys2Proof.Machine
end

