-- ==== Sys2Proof/Tests/Slice0.lean ====
section
/-!
SUPPORT. Tests: ill-formed commands are refused, and every statement with hypotheses has states and operands that meet them,
clause by clause. No expected value here comes from a run.
-/

namespace Sys2Proof.Machine

/-- Registers stored one after the other: page kind, instance, offset, value. -/
def State.put (s : State) (l : List (PageKind × Nat × Nat × Nat)) : State :=
  l.foldl (fun x e => x.wr e.1 e.2.1 e.2.2.1 (word e.2.2.2)) s

/-- Other links up, and another split. -/
def State.ports (s : State) (up : Nat) (split : Bool) : State := { s with rst := { s.rst with links := up, split := split } }

end Sys2Proof.Machine

namespace Sys2Proof.Tests

-- Each check below is a kernel evaluation: one at a time, so that they do not all hold a thread and a stack at once.
set_option Elab.async false
open Sys2Proof Sys2Proof.Machine

/-- The supervisor's function, and a function of pen 0. -/
abbrev sup : Requester := .fn 0

/-- Configuration of a function whose memory space is enabled: its own or, `vf`, that of its VFs. -/
def served (vf : Bool) : FnCfg := { FnCfg.reset with mse := true, bme := true, vfEn := vf, vfMse := vf }

/-- The part in M4, every island out of reset, port A up. -/
def m4 : State :=
  ({ State.reset with
    mode := ⟨.m4, none, [], [], true, true, true, none, true⟩
    fns := [(0, served false)]
    rst := { State.reset.rst with isl := 0xFFF, loading := false, optDone := true, links := 1 } }).put [(.hlk, 0, Off.hlkLstat 0, 0x185)]

/-- A device mode. -/
def dev (d : DevMode) : State := { m4 with mode := { m4.mode with dev := d } }

/-- The part in M4 with the supervisor's domain in a domain mode. -/
def dom (m : DomMode) : State := { m4 with mode := { m4.mode with doms := [(8, m)] } }


/-- The part with the supervisor in a mode, and the pages of stall and barn `i` and of every sequencer enabled. -/
def onIn (m : DomMode) (i : Nat) : State :=
  (dom m).put ([.stl, .lvl, .drv, .cmp, .swm, .tim, .pmu, .cnv, .wch].map (fun k => (k, i, Off.pgCtrl, 1)) ++
    [(.tmb, 0, Off.pgCtrl, 1), (.brn, i / 16, Off.pgCtrl, 1), (.acq, i / 16, Off.pgCtrl, 1)] ++
    (upto 8).flatMap fun q => [PageKind.seq, .tset, .site].map fun k => (k, q, Off.pgCtrl, 1))

/-- The part with the supervisor in M8. -/
def on (i : Nat) : State := onIn .m8 i

/-- A stall with every channel assigned and parked. -/
def unparkable (i : Nat) : State := 
  (on i).put ([(.stl, i, Off.stlPark, 0xFFFF), (.stl, i, Off.stlStat, 0xFFFF)] ++ (upto 16).map fun c => (.stl, i, Off.stlAssign c, 2 ^ 31))

/-- A stall ready for a load strobe. -/
def levels (i : Nat) : State := (on i).put ((upto 16).map fun c => (.lvl, i, Off.lvlPre c 5, 0x8000))


/-- The pages and the epoch that a measuring stall needs. -/
def measIn (m : DomMode) (i : Nat) : State := (onIn m i).put ((upto 8).map fun b => (.tmb, b, Off.tmbStat, 3))

def meas (i : Nat) : State := measIn .m8 i

/-- The 320-bit word of a vector (R164, R165). -/
def vecWord (op operand siteop evsel : Nat) : Nat := 2 ^ 256 * op + 2 ^ 262 * operand + 2 ^ 303 * siteop + 2 ^ 311 * evsel

/-- The vector at address 5. -/
def vec (op operand siteop evsel : Nat) : Vec := Vec.ofWord 5 (vecWord op operand siteop evsel)

/-- Sequencer 1 in a state of its run, at address 5 of a map of one segment, with the given vector there. -/
def runAt (st op operand siteop evsel : Nat) (f : SeqSt → SeqSt) : State :=
  ((meas 0).put [(.seq, 1, Off.seqStat, st)]).setSeq 1
    (f { SeqSt.idle with next := 5, issued := true, map := some [⟨0, 8, 0, []⟩]
                         resident := [(0, 2 ^ (320 * 5) * vecWord op operand siteop evsel)] })

/-- Sequencer 1 about to issue the given vector. -/
def ready (op operand siteop evsel : Nat) (f : SeqSt → SeqSt) : State := runAt 2 op operand siteop evsel f

/-- Every entry of a list is the same sequencer's channel 0, column 0, site 0. -/
def followed (s : State) (q : Nat) : State := { s with follow := [(0, word (2 ^ 31 + 2 ^ 8 * q))] }


/-- Ring `n` of the supervisor: a word of RNG_CTRL, and its indices; its 256 bytes lie at 0x2000. -/
def State.ringAt (s : State) (n ctrl pidx cidx : Nat) : State :=
  ((((s.setReg (ringAddr n Off.rngCtrl) (word (ctrl + 2 ^ 4 * 8 + 2 ^ 12 * 15))).setReg (ringAddr n Off.rngBaseLo) (word 0x2000)).setReg
    (ringAddr n Off.rngPidx) (word pidx)).setReg (ringAddr n Off.rngCidx) (word cidx))

/-- A full OUT ring of eight entries. -/
def fullRing (n policy : Nat) : State := State.ringAt m4 n (1 + 4 * policy) 0xFFFFFFFF 0xFFFFFFF7

/-- A part whose sequencer 1 meets every condition of a start: channels 0 to 3 are site 0. -/
def startable : State :=
  (meas 0).put ([(.seq, 1, Off.seqStrmStat, 2), (.site, 1, Off.siteEnroll 0, 1)] ++
    (upto 4).map fun c => (PageKind.stl, 0, Off.stlAssign c, 2 ^ 31 + 2 ^ 8 + c))

/-- Sequencer 1 in a prime of one segment of eight granules at 0x1000, its directory at 0. -/
def primed : State :=
  let s := { (meas 0).put [(.seq, 1, Off.seqStrmStat, 1), (.seq, 1, Off.seqSdirN, 1)] with regions := [(0, ⟨0, 0, 15, 0, true⟩)] }
  let s1 := (((s.hayPut 15 0 8 0x1000).hayPut 15 0x1000 64 0).hayPut 15 0x1000 6 0x14E474553).hayPut 15 0x100C 4 8
  s1.hayPut 15 0x103C 4 (crc32 (s1.hayBytes 15 0x1000 60))


/-- The stall in M9, with registers of its PMU page. -/
def pmuAt (i : Nat) (l : List (Nat × Nat)) : State := (measIn .m9 i).put (l.map fun e => (.pmu, i, e.1, e.2))

/-- The stall in M9, with registers of its CNV page. -/
def cnvAt (i : Nat) (l : List (Nat × Nat)) : State := (measIn .m9 i).put (l.map fun e => (.cnv, i, e.1, e.2))

/-- The stall in M9, with registers of its WCH page. -/
def wchAt (i : Nat) (l : List (Nat × Nat)) : State := (measIn .m9 i).put (l.map fun e => (.wch, i, e.1, e.2))

/-- Barn `b` in M9, with registers of its ACQ page and an engine. -/
def acqAt (b : Nat) (l : List (Nat × Nat)) (a : AcqSt) : State :=
  ((measIn .m9 (16 * b)).put (l.map fun e => (.acq, b, e.1, e.2))).setAcq b a

/-- The farrier's page in use, with registers of it. -/
def farAt (m : DevMode) (l : List (Nat × Nat)) (f : FarSt) : State :=
  { (dev m).put ((.far, 0, Off.pgCtrl, 1) :: (.tak, 0, Off.pgCtrl, 1) :: l.map fun e => (.far, 0, e.1, e.2)) with far := f }


/-- A record of the supervisor's. -/
def rcdOf (op : Nat) (ps : List Nat) : Record := ⟨15, op, false, false, false, false, 7, 41, 40, 0, ps.map word⟩

/-- The context of a ROM routine at a stage, with its working values. -/
def ctxAt (op k : Nat) (ps tmp : List Nat) : Ctx := { (rcdOf op ps).start 0 0 0 with stage := k, tmp := tmp }

/-- What a stage meets: nothing wrong. -/
def pr : Probe := ⟨none, .clean, 0, []⟩

/-- Groom 3 runs a routine of the ROM; the supervisor has a region of 16 MiB at 0. -/
def running (c : Ctx) (s : State) : State :=
  ({ s with
    cluster := { s.cluster with patchDisp := [(c.rcd.op, 0)] }
    regions := [(0, ⟨0, 0xF, 15, 1, true⟩)] }.put [(.grm, 0, Off.pgCtrl, 1)]).setCtx 3 c


/-- A routine of patched operation 0x50 at the start of patch RAM, with parameters 5 and 7. -/
def uctx : Ctx := (rcdOf 0x50 [5, 7]).start 0x4000 0 0

/-- Groom 3 runs microcode, and the word at the start of patch RAM is `w`. -/
def micro (c : Ctx) (w : Nat) (s : State) : State :=
  ({ s with
    cluster := { s.cluster with patchDisp := [(0x50, 0xC0004000)], patchRam := [(0x4000, BitVec.ofNat 24 w)] }
    regions := [(0, ⟨0, 0xF, 15, 1, true⟩)] }.put [(.grm, 0, Off.pgCtrl, 1)]).setCtx 3 c

/-- An entry that holds a record for RRING 41: its operation, its flags from URGENT up, and its parameters. -/
def entryOf (op flags ps : Nat) : Nat := 0x0A + 2 ^ 32 * op + 2 ^ 39 * flags + 2 ^ 48 * 7 + 2 ^ 64 * 41 + 2 ^ 96 * ps

/-- Command ring 40 of the supervisor holds one record; every groom takes records. -/
def cmdRing (e : Nat) : State :=
  (((State.ringAt m4 40 3 1 0).setReg (ringAddr 41 Off.rngCtrl) 0xF000).put ([(.grm, 0, Off.pgCtrl, 1), (.grm, 0, Off.grmCtrl, 0xFF)] ++
    (upto 8).map fun g => (PageKind.groom, g, Off.pgCtrl, 1))).hayPut 15 0x2000 32 e

/-- Groom 3 runs a context, whatever its operation. -/
def holds (c : Ctx) : State := m4.setCtx 3 c

/-! ### Ill-formed commands are refused -/

/-- Two samples of one channel at one instant. -/
def twice : List Sample := [⟨3, .stbA, true, false⟩, ⟨3, .stbA, true, true⟩]

theorem test_flash_piece_within_its_addresses : Instr.wf (.bootDone ⟨[(0xFFFFFFFF, [1, 2])], none, true⟩) = false := by decide

theorem test_link_generation : Instr.wf (.linkUp 0 6 8) = false ∧ Instr.wf (.linkUp 0 5 3) = false := by decide

theorem test_bar4_length :
    Instr.wf (.bar4Access 0 0 none 0 .clean) = false ∧ Instr.wf (.bar4Access 0 0 (some [1]) 2 .clean) = false := by decide

theorem test_value_fits_width :
    Instr.wf (.registerWrite sup 0 .w32 0x100000000) = false ∧
      Instr.wf (.unreachableAccess sup 0 .w32 (some 0x100000000)) = false := by decide

theorem test_one_sample_per_instant : Instr.wf (.cont 0 twice) = false ∧ Instr.wf (.send 0 twice) = false := by decide

theorem test_sample_tick_has_every_channel : Instr.wf (.wchSampleTick 0 [] 0 true) = false := by decide

theorem test_frame_lengths :
    Instr.wf (.wr 0 (List.replicate 65 0)) = false ∧ Instr.wf (.win 0 (List.replicate 65 0)) = false ∧
      Instr.wf (.masterTransferDone (List.replicate 129 0)) = false ∧
      Instr.wf (.multiMasterFault 5 (List.replicate 129 0)) = false := by decide

theorem test_use_of_every_owner : Instr.wf (.grmUsedUpdate [1]) = false := by decide

/-- The lantern at reset is what LANTERN_POR leaves with VIN in range (R629, R630). -/
theorem test_reset_lantern_counts_its_own_reset : ∃ t, exec .lanternPor State.reset = .next t ∧ t.lan = State.reset.lan :=
  ⟨_, rfl, by decide +kernel⟩


/-- The hypotheses of DeviceRequestsAreTaken are met. -/
theorem witness_deviceRequestsAreTaken :
    (∃ (r : Requester) (s : State), s.accepts r .mod0 0 Off.modCmd (word (5 + 2 ^ 8 * 0xC3)) = true ∧ s.mayShed = true ∧
      s.hbmBit 10 = false ∧ s.hbmBit 8 = false) ∧
    (∃ (r : Requester) (s : State), s.accepts r .mod0 0 Off.modCmd (word (10 + 2 ^ 8 * 0xC3)) = true ∧ s.mayShed = true) ∧
    (∃ (r : Requester) (s : State), s.accepts r .mod0 0 Off.modCmd (word (4 + 2 ^ 8 * 0xC3)) = true ∧ s.mode.dev = .m10 ∧
      s.mode.trans = none) ∧
    (∃ (r : Requester) (clock : Bool) (shield : Bool) (s : State), s.accepts r .mod0 0 Off.modCmd (word (2 + 2 ^ 8 *
      0xC3)) = true ∧ s.mode.dev = .m11 ∧ s.mode.trans = none ∧ s.causePresent clock shield = false) :=
  ⟨⟨sup, m4, by decide +kernel⟩,
    ⟨sup, m4, by decide +kernel⟩,
    ⟨sup, dev .m10, by decide +kernel⟩,
    ⟨sup, false, false, (dev .m11).put [(.mod0, 0, Off.modM11Cause, 1)], by decide +kernel⟩⟩

/-- The hypotheses of DomainRequestsAreTaken are met. -/
theorem witness_domainRequestsAreTaken :
    ∃ (c : Instr) (r : Requester) (d : Fin 9) (m : DomMode) (s : State), ((c = .modPcmdM4 r d 0xC3 ∧ m = .m4) ∨ (c =
      .modPcmdM6 r d 0xC3 ∧ m = .m6) ∨ (c = .modPcmdM7 r d 0xC3 ∧ m = .m7) ∨ (c = .modPcmdM8 r d 0xC3 ∧ m = .m8) ∨ (c =
      .modPcmdM9 r d 0xC3 ∧ m = .m9)) ∧ s.accepts r .modp d Off.modPcmd (word (m.num + 2 ^ 8 * 0xC3)) = true ∧ s.quietM4 =
      true ∧ Store.get? s.mode.domTrans d = none ∧ (d.val < 8 → s.penBusy d = false) ∧ m ≠ s.domMode (domOwner d) ∧
      (s.domMode (domOwner d) = .m4 ∨ s.unitActive (domOwner d) m = false) :=
  ⟨.modPcmdM6 sup 8 0xC3, sup, 8, .m6, m4, by decide +kernel⟩

/-- The hypotheses of BadConfirmChangesNoMode are met. -/
theorem witness_badConfirmChangesNoMode :
    ∃ (c : Instr) (r : Requester) (d : Fin 9) (confirm : BitVec 8) (m : DomMode) (s : State), ((c = .modPcmdM4 r d confirm
      ∧ m = .m4) ∨ (c = .modPcmdM6 r d confirm ∧ m = .m6) ∨ (c = .modPcmdM7 r d confirm ∧ m = .m7) ∨ (c = .modPcmdM8 r d
      confirm ∧ m = .m8) ∨ (c = .modPcmdM9 r d confirm ∧ m = .m9)) ∧ confirm ≠ 0xC3 ∧ s.accepts r .modp d Off.modPcmd
      (word (m.num + 2 ^ 8 * confirm.toNat)) = true ∧ Store.get? s.mode.domTrans d = none :=
  ⟨.modPcmdM9 sup 8 0xC2, sup, 8, 0xC2, .m9, m4, by decide +kernel⟩

/-- The hypotheses of TransitionsComplete are met. -/
theorem witness_transitionsComplete :
    (∃ (m : DevMode) (req : Bool) (s : State), s.mode.trans = some (m, req) ∧ ((s.mode.dev = .m4 ∧ (m = .m5 ∨ m = .m10)) ∨
      (s.mode.dev = .m5 ∧ m = .m4) ∨ (s.mode.dev = .m10 ∧ m = .m4 ∧ s.farState = fIdle))) ∧
    (∃ (d : Fin 9) (m : DomMode) (s : State), Store.get? s.mode.domTrans d = some m) ∧
    (∃ (req : Bool) (s : State), s.mode.dev = .m5 ∧ s.mode.trans = some (.m4, req)) ∧
    (∃ (k : Fin 4) (rise : Bool) (s : State), natBit s.pins.evIn k ≠ rise) :=
  ⟨⟨.m5, true, { m4 with mode := { m4.mode with trans := some (.m5, true) } }, by decide +kernel⟩,
    ⟨8, .m6, { m4 with mode := { m4.mode with domTrans := [(8, .m6)] } }, by decide +kernel⟩,
    ⟨false, { dev .m5 with mode := { (dev .m5).mode with trans := some (.m4, false) } }, by decide +kernel⟩,
    ⟨3, true, m4, by decide +kernel⟩⟩

/-- The hypotheses of ParkCommandsTakeEffect are met. -/
theorem witness_parkCommandsTakeEffect :
    (∃ (r : Requester) (st : Fin 128) (mask : BitVec 16) (s : State), s.accepts r .stl st Off.stlPark (s.rd .stl st
      Off.stlPark ||| word mask.toNat) = true) ∧
    (∃ (r : Requester) (st : Fin 128) (mask : BitVec 16) (s : State), s.accepts r .stl st Off.stlPark (s.rd .stl st
      Off.stlPark &&& ~~~ word mask.toNat) = true ∧ s.pinPagesOn st = true ∧ 6 ≤ s.modeOf (s.stallOwner st) ∧ s.modeOf
      (s.stallOwner st) ≤ 9) ∧
    (∃ (st : Fin 128) (c : Fin 16) (s : State), s.rb .stl st Off.stlPark c = true ∧ s.rb .stl st Off.stlStat c = false) ∧
    (∃ (r : Requester) (st : Fin 128) (c : Fin 16) (v : Word) (s : State), s.accepts r .stl st (Off.stlAssign c) v = true
      ∧ s.rb .stl st Off.stlStat c = true ∧ (tbit v 31 = true → s.ownerOf .seq (fld v 8 3) = s.stallOwner st)) ∧
    (∃ (st : Fin 128) (c : Fin 16) (s : State), s.driverOut (16 * st + c) ≠ .hiz) ∧
    (∃ (st : Fin 128) (c : Fin 16) (s : State), s.driverOut (16 * st + c) = .hiz) :=
  ⟨⟨sup, 127, 0x8001, m4.put [(.stl, 127, Off.stlPark, 0)], by decide +kernel⟩,
    ⟨sup, 5, 0xFFFF, unparkable 5, by decide +kernel⟩,
    ⟨5, 15, m4.put [(.stl, 5, Off.stlPark, 0xFFFF), (.stl, 5, Off.stlStat, 0)], by decide +kernel⟩,
    ⟨sup, 5, 15, 0x80000000, m4.put [(.stl, 5, Off.stlStat, 0xFFFF)], by decide +kernel⟩,
    ⟨5, 3,
      { (on 5).put [(.stl, 5, Off.stlPark, 0), (.drv, 5, Off.drvCtrl, 1)] with follow := [(83, word (2 ^ 31))] }.setChan
      83 { ChanSt.idle with window := .term }, by decide +kernel⟩,
    ⟨5, 3, m4, by decide +kernel⟩⟩

/-- The hypotheses of LevelCommandsTakeEffect are met. -/
theorem witness_levelCommandsTakeEffect :
    (∃ (r : Requester) (st : Fin 128) (en : Bool) (s : State), s.accepts r .lvl st Off.lvlCtrl (word (1 + 2 * bit en)) =
      true ∧ s.pageEn .lvl st = true ∧ s.mode.dev ≠ .m11 ∧ (∀ c < 16, s.levelsOk st (Off.lvlPre c) = true)) ∧
    (∃ (r : Requester) (st : Fin 128) (v : Word) (s : State), s.accepts r .lvl st Off.lvlBcastVal v = true ∧ fld v 0 16 ≤
      0xFA00 ∧ s.rf .lvl st Off.lvlBcastSel 16 3 < 7) ∧
    (∃ (r : Requester) (st : Fin 128) (s : State), s.accepts r .cmp st Off.cmpCtrl 1 = true) :=
  ⟨⟨sup, 5, true, levels 5, by decide +kernel⟩,
    ⟨sup, 5, 0xFA00, m4.put [(.lvl, 5, Off.lvlBcastSel, 0x60005)], by decide +kernel⟩,
    ⟨sup, 5, m4.put [(.cmp, 5, Off.cmpFcnt 3, 7)], by decide +kernel⟩⟩

/-- The hypotheses of BadLevelsRefuseTheStrobe are met. -/
theorem witness_badLevelsRefuseTheStrobe :
    ∃ (r : Requester) (st : Fin 128) (en : Bool) (c : Fin 16) (s : State), s.accepts r .lvl st Off.lvlCtrl (word (1 + 2 *
      bit en)) = true ∧ s.pageEn .lvl st = true ∧ s.mode.dev ≠ .m11 ∧ s.levelsOk st (Off.lvlPre c) = false :=
  ⟨sup, 5, false, 2, (levels 5).put [(.lvl, 5, Off.lvlPre 2 2, 0x8001)], by decide +kernel⟩

/-- The hypotheses of SwitchCommandsTakeEffect are met. -/
theorem witness_switchCommandsTakeEffect :
    (∃ (r : Requester) (st : Fin 128) (hot : Bool) (s : State), s.accepts r .swm st Off.swmCtrl (word (1 + 2 * bit hot)) =
      true ∧ s.pageEn .swm st = true ∧ s.rb .swm st Off.swmStat 0 = false ∧ (s.plainWrite .swm st Off.swmCtrl (word (1 + 2
      * bit hot))).batchCheck st = 0) ∧
    (∃ (st : Fin 128) (b : Batch) (s : State), (s.stall st).batch = some b ∧ s.stepIn st = false) ∧
    (∃ (st : Fin 128) (b : Batch) (s : State), (s.stall st).batch = some b ∧ b.waiting = false) ∧
    (∃ (r : Requester) (st : Fin 128) (v : Word) (s : State), s.accepts r .swm st Off.swmWearWarn v = true) :=
  ⟨⟨sup, 5, false, on 5, by decide +kernel⟩,
    ⟨5, ⟨1, 2, false, true, 1, 3⟩, (on 5).setStall 5 { StallSt.idle with batch := some ⟨1, 2, false, true, 1, 3⟩ },
      by decide +kernel⟩,
    ⟨5, ⟨1, 2, true, false, 1, 3⟩, (on 5).setStall 5 { StallSt.idle with batch := some ⟨1, 2, true, false, 1, 3⟩ },
      by decide +kernel⟩,
    ⟨sup, 5, 1000, m4, by decide +kernel⟩⟩

/-- The hypotheses of TimingCommandsTakeEffect are met. -/
theorem witness_timingCommandsTakeEffect :
    (∃ (r : Requester) (mode : Fin 4) (s : State), s.accepts r .tmb 0 Off.tmbCtrl (word (16 + mode)) = true ∧ mode.val ≠ 3
      ∧ s.pageEn .tmb 0 = true ∧ s.anySeqActive = false ∧ s.anyTimArmed = false) ∧
    (∃ (a : Arm) (s : State), s.armed = some a ∧ a.mode = standalone) ∧
    (∃ (s : State), s.armed = none) ∧
    (∃ (a : Arm) (s : State), s.armed = some a ∧ a.mode ≠ standalone ∧ a.pulseEdge ≤ s.refEdge) ∧
    (∃ (r : Requester) (q : Fin 8) (k : Fin 38) (v : Word) (s : State), k.val < 32 ∧ s.accepts r .tset q (Off.seqTsPer k)
      v = true ∧ s.seqActive q = false ∧ 10000 ≤ v.toNat ∧ v.toNat ≤ 4000000000) ∧
    (∃ (r : Requester) (q : Fin 8) (k : Fin 38) (v : Word) (s : State), 32 ≤ k.val ∧ s.accepts r .tset q (Off.seqTsEdge (k
      - 32)) v = true ∧ s.seqActive q = false) :=
  ⟨⟨sup, 0, on 0, by decide +kernel⟩,
    ⟨⟨standalone, 5⟩, { m4 with armed := some ⟨standalone, 5⟩, now := 77 }, by decide +kernel⟩,
    ⟨m4, by decide +kernel⟩,
    ⟨⟨2, 10⟩, { m4 with armed := some ⟨2, 10⟩, now := 1000 }, by decide +kernel⟩,
    ⟨sup, 7, 31, 10000, m4, by decide +kernel⟩,
    ⟨sup, 3, 37, 123, m4, by decide +kernel⟩⟩

/-- The hypotheses of RunningSequencerKeepsItsTimingSets are met. -/
theorem witness_runningSequencerKeepsItsTimingSets :
    ∃ (q : Fin 8) (s : State), s.seqActive q = true :=
  ⟨2, m4.put [(.seq, 2, Off.seqStat, 2)], by decide +kernel⟩

/-- The hypotheses of NewEpochRestartsTheTickCount are met. -/
theorem witness_newEpochRestartsTheTickCount :
    ∃ (s : State) (a : Arm), s.armed = some a ∧ a.mode = standalone ∧ s.now ≤ a.second :=
  ⟨{ m4 with armed := some ⟨standalone, 5⟩, now := 5 }, ⟨standalone, 5⟩, by decide +kernel⟩

/-- The hypotheses of RunCommandsTakeEffect are met. -/
theorem witness_runCommandsTakeEffect :
    (∃ (r : Requester) (q : Fin 8) (s : State), s.accepts r .seq q Off.seqCtrl (putFld (s.rd .seq q Off.seqCtrl) 0 3 1) =
      true ∧ fld (putFld (s.rd .seq q Off.seqCtrl) 0 3 1) 4 2 ≠ 3 ∧ s.startError q = none ∧ s.siteError q = none ∧
      (s.pageEn .apg q = true → s.apgRangeOk q = true)) ∧
    (∃ (r : Requester) (q : Fin 8) (s : State), s.accepts r .seq q Off.seqCtrl (putFld (s.rd .seq q Off.seqCtrl) 0 3 2) =
      true ∧ fld (putFld (s.rd .seq q Off.seqCtrl) 0 3 2) 4 2 ≠ 3 ∧ s.seqState q = sHold) ∧
    (∃ (r : Requester) (q : Fin 8) (s : State), s.accepts r .seq q Off.seqCtrl (putFld (s.rd .seq q Off.seqCtrl) 0 3 4) =
      true ∧ fld (putFld (s.rd .seq q Off.seqCtrl) 0 3 4) 4 2 ≠ 3 ∧ (s.seqState q = sRun ∨ s.seqState q = sHold)) ∧
    (∃ (q : Fin 8) (k : Nat) (s : State), (s.seq q).startAt = some k ∧ s.seqState q = sArmed ∧ s.farrierHolds q = false) ∧
    (∃ (q : Fin 8) (k : BitVec 48) (s : State), s.seqState q = sHold ∧ s.rf .seq q Off.seqStat 4 2 = 0 ∧ (s.seq q).vtime ≤
      k.toNat * 1250 ∧ s.edgesPending q (k.toNat * 1250) = false) ∧
    (∃ (q : Fin 8) (e : RunEnd) (s : State), (s.seq q).ending = some e ∧ e.code ≤ 9 ∧ s.seqState q = sDrain ∧ (∀ c ∈
      s.chansOf q, (s.chan c.1).edges = [])) ∧
    (∃ (q : Fin 8) (ch : Fin 2048) (c : Nat × Nat × Nat) (e : Edge) (es : List Edge) (s : State), (s.seqState q = sHold ∨
      s.seqState q = sDrain ∨ s.seqState q = sRun ∧ e.time < (s.seq q).vtime) ∧ (s.chansOf q).find? (fun x => x.1 ==
      ch.val) = some c ∧ (s.chan ch).edges = e :: es) :=
  ⟨⟨sup, 1, (startable), by decide +kernel⟩,
    ⟨sup, 1, runAt 3 0 0 0 0 id, by decide +kernel⟩,
    ⟨sup, 1, runAt 2 0 0 0 0 id, by decide +kernel⟩,
    ⟨1, 70000, runAt 1 0 0 0 0 fun x => { x with startAt := some 70000 }, by decide +kernel⟩,
    ⟨1, 100, runAt 3 0 0 0 0 fun x => { x with vtime := 1250 }, by decide +kernel⟩,
    ⟨1, ⟨9, 5, true, true⟩, runAt 4 0 0 0 0 fun x => { x with ending := some ⟨9, 5, true, true⟩ }, by decide +kernel⟩,
    ⟨1, 0, (0, 0, 0), ⟨1000, 4, .expLow, 3, 0, false⟩, [], (followed (runAt 3 0 0 0 0 id) 1).setChan 0
      { ChanSt.idle with edges := [⟨1000, 4, .expLow, 3, 0, false⟩] }, by decide +kernel⟩⟩

/-- The hypotheses of VectorsFollowInAddressOrder are met. -/
theorem witness_vectorsFollowInAddressOrder :
    (∃ (c : Instr) (q : Fin 8) (k : Nat) (obs : List Sample) (v : Vec) (s : State), ((c = .cont q obs ∧ k = 0x00) ∨ (c =
      .ldlv q obs ∧ k = 0x0A) ∨ (c = .trig q obs ∧ k = 0x0B) ∨ (c = .mark q obs ∧ k = 0x0D)) ∧ s.vecReady q k v = true ∧
      (k = 0x0B → v.operand < (s.seq q).period v.tsel) ∧ s.mapped q (v.addr + 1) = true) ∧
    (∃ (c : Instr) (q : Fin 8) (k : Nat) (obs : List Sample) (v : Vec) (s : State), ((c = .rpt q obs ∧ k = 0x01) ∨ (c =
      .calgap q obs ∧ k = 0x0C)) ∧ s.vecReady q k v = true ∧ v.operand ≠ 0 ∧ s.mapped q (v.addr + 1) = true) ∧
    (∃ (q : Fin 8) (v : Vec) (s : State), s.vecReady q 0x02 v = true ∧ v.operand ≠ 0 ∧ s.mapped q (v.addr + 1) = true ∧
      (s.seq q).fromEndl = false ∧ (s.seq q).loops.length < 8) ∧
    (∃ (q : Fin 8) (v : Vec) (s : State), s.vecReady q 0x02 v = true ∧ v.operand ≠ 0 ∧ s.mapped q (v.addr + 1) = true ∧
      (s.seq q).fromEndl = true) ∧
    (∃ (q : Fin 8) (v : Vec) (s : State), s.vecReady q 0x09 v = true) :=
  ⟨⟨.cont 1 [], 1, 0, [], vec 0 0 0 0, ready 0 0 0 0 id, by decide +kernel⟩,
    ⟨.rpt 1 [], 1, 1, [], vec 1 9 0 0, ready 1 9 0 0 id, by decide +kernel⟩,
    ⟨1, vec 2 9 0 0, ready 2 9 0 0 id, by decide +kernel⟩,
    ⟨1, vec 2 9 0 0, ready 2 9 0 0 (fun x => { x with fromEndl := true, loops := [(5, 3)] }), by decide +kernel⟩,
    ⟨1, vec 9 3 0 0, ready 9 3 0 0 id, by decide +kernel⟩⟩

/-- The hypotheses of VectorsTransferControl are met. -/
theorem witness_vectorsTransferControl :
    (∃ (q : Fin 8) (v : Vec) (s : State), s.vecReady q 0x04 v = true ∧ s.mapped q v.operand = true ∧ v.evsel.testBit 8 =
      false) ∧
    (∃ (q : Fin 8) (v : Vec) (s : State) (l : _) (ls : _), s.vecReady q 0x04 v = true ∧ s.mapped q v.operand = true ∧
      v.evsel.testBit 8 = true ∧ (s.seq q).loops = l :: ls) ∧
    (∃ (q : Fin 8) (v : Vec) (s : State), s.vecReady q 0x05 v = true ∧ s.mapped q v.operand = true ∧ (s.seq
      q).calls.length < 8) ∧
    (∃ (q : Fin 8) (v : Vec) (a : Nat) (as : List Nat) (s : State), s.vecReady q 0x06 v = true ∧ (s.seq q).calls = a :: as
      ∧ s.mapped q a = true) ∧
    (∃ (q : Fin 8) (v : Vec) (a : Nat) (n : Nat) (ls : List (Nat × Nat)) (s : State), s.vecReady q 0x03 v = true ∧ (s.seq
      q).loops = (a, n) :: ls ∧ 1 < n ∧ s.mapped q a = true) ∧
    (∃ (q : Fin 8) (v : Vec) (a : Nat) (n : Nat) (ls : List (Nat × Nat)) (s : State), s.vecReady q 0x03 v = true ∧ (s.seq
      q).loops = (a, n) :: ls ∧ n ≤ 1 ∧ s.mapped q (v.addr + 1) = true) ∧
    (∃ (q : Fin 8) (obs : List Sample) (v : Vec) (s : State), s.vecReady q 0x07 v = true ∧ ((s.seq q).loops = [] → ((xor
      (branchCond ((s.retireHead q obs).1.seq q).sites (s.retireHead q obs).2 (if v.evsel.testBit 2 then .sticky else
      .fail) (v.evsel.testBit 0)) (v.evsel.testBit 1)) && v.evsel.testBit 8) = false) ∧ s.mapped q (if (xor (branchCond
      ((s.retireHead q obs).1.seq q).sites (s.retireHead q obs).2 (if v.evsel.testBit 2 then .sticky else .fail)
      (v.evsel.testBit 0)) (v.evsel.testBit 1)) then v.operand else v.addr + 1) = true) ∧
    (∃ (q : Fin 8) (obs : List Sample) (v : Vec) (c : Bool) (s : State), s.vecReady q 0x08 v = true ∧ ((nfld v.evsel 0 6)
      < 4 ∧ c = ((s.retireHead q obs).2.map fun y => y.evIn.testBit (nfld v.evsel 0 6)).getD false ∨ 8 ≤ (nfld v.evsel 0
      6) ∧ (nfld v.evsel 0 6) < 16 ∧ c = branchCond ((s.retireHead q obs).1.seq q).sites (s.retireHead q obs).2 (.event
      (nfld v.evsel 0 6)) (v.evsel.testBit 6) ∨ 16 ≤ (nfld v.evsel 0 6) ∧ (nfld v.evsel 0 6) < 24 ∧ c = ((s.retireHead q
      obs).2.map fun y => y.flags.testBit ((nfld v.evsel 0 6) - 16)).getD false) ∧ ((s.seq q).loops = [] → ((xor c
      (v.evsel.testBit 7)) && v.evsel.testBit 8) = false) ∧ s.mapped q (if (xor c (v.evsel.testBit 7)) then v.operand else
      v.addr + 1) = true) :=
  ⟨⟨1, vec 4 100 0 0, ready 4 100 0 0 id, by decide +kernel⟩,
    ⟨1, vec 4 100 0 0x100, ready 4 100 0 0x100 (fun x => { x with loops := [(1, 2)] }), (1, 2), [], by decide +kernel⟩,
    ⟨1, vec 5 100 0 0, ready 5 100 0 0 id, by decide +kernel⟩,
    ⟨1, vec 6 0 0 0, 77, [3], ready 6 0 0 0 (fun x => { x with calls := [77, 3] }), by decide +kernel⟩,
    ⟨1, vec 3 0 0 0, 2, 2, [], ready 3 0 0 0 (fun x => { x with loops := [(2, 2)] }), by decide +kernel⟩,
    ⟨1, vec 3 0 0 0, 2, 1, [], ready 3 0 0 0 (fun x => { x with loops := [(2, 1)] }), by decide +kernel⟩,
    ⟨1, [], vec 7 100 0 2, ready 7 100 0 2 id, by decide +kernel⟩,
    ⟨1, [], vec 8 100 0 0x83, false, ready 8 100 0 0x83 id, by decide +kernel⟩⟩

/-- The hypotheses of VectorsPredicateSites are met. -/
theorem witness_vectorsPredicateSites :
    (∃ (q : Fin 8) (obs : List Sample) (v : Vec) (s : State), s.vecReady q 0x10 v = true ∧ badCond v 0 = false ∧
      (((s.retireHead q obs).1.seq q).sites).stack.length < 8 ∧ s.mapped q (if ((((s.retireHead q obs).1.seq
      q).sites).active) &&& (siteCond (((s.retireHead q obs).1.seq q).sites) (s.retireHead q obs).2 (siteSource v)
      (v.evsel.testBit 2)) = 0 then v.operand else v.addr + 1) = true) ∧
    (∃ (q : Fin 8) (obs : List Sample) (v : Vec) (s : State) (m : Nat) (e : Nat) (l : List PredEntry), s.vecReady q 0x11 v
      = true ∧ (((s.retireHead q obs).1.seq q).sites).stack = .cond m e false :: l ∧ s.mapped q (if e = 0 then v.operand
      else v.addr + 1) = true) ∧
    (∃ (q : Fin 8) (obs : List Sample) (v : Vec) (s : State) (m : Nat) (e : Nat) (p : Bool) (l : List PredEntry),
      s.vecReady q 0x12 v = true ∧ (((s.retireHead q obs).1.seq q).sites).stack = .cond m e p :: l ∧ s.mapped q (v.addr +
      1) = true) ∧
    (∃ (q : Fin 8) (obs : List Sample) (v : Vec) (s : State), s.vecReady q 0x13 v = true ∧ nfld v.operand 0 16 ≠ 0 ∧
      (((s.retireHead q obs).1.seq q).sites).stack.length < 8 ∧ s.mapped q (v.addr + 1) = true) ∧
    (∃ (q : Fin 8) (obs : List Sample) (v : Vec) (s : State) (m : Nat) (n : Nat) (k : List (Nat × Nat)) (l : List
      PredEntry), s.vecReady q 0x14 v = true ∧ badCond v 0 = false ∧ (((s.retireHead q obs).1.seq q).sites).stack = .loop
      m n k :: l ∧ s.mapped q (if (andNot ((((s.retireHead q obs).1.seq q).sites).active) (siteMask ((sitesOf
      ((((s.retireHead q obs).1.seq q).sites).active)).filter fun i => natBit (siteCond (((s.retireHead q obs).1.seq
      q).sites) (s.retireHead q obs).2 (siteSource v) (v.evsel.testBit 2)) i || (fun i => Store.getD (fun _ => 0) k i + 1)
      i == n))) = 0 then v.addr + 1 else v.operand) = true) :=
  ⟨⟨1, [], vec 0x10 100 0 0, ready 0x10 100 0 0 (fun x => { x with sites := { x.sites with enrolled := 7, active := 7 } }),
      by decide +kernel⟩,
    ⟨1, [], vec 0x11 100 0 0, ready 0x11 100 0 0 (fun x =>
      { x with sites := { x.sites with active := 3, stack := [.cond 7 4 false] } }), 7, 4, [], by decide +kernel⟩,
    ⟨1, [], vec 0x12 0 0 0, ready 0x12 0 0 0 (fun x =>
      { x with sites := { x.sites with active := 3, stack := [.cond 7 4 true] } }), 7, 4, true, [], by decide +kernel⟩,
    ⟨1, [], vec 0x13 10 0 0, ready 0x13 10 0 0 (fun x => { x with sites := { x.sites with active := 3 } }),
      by decide +kernel⟩,
    ⟨1, [], vec 0x14 2 0 0, ready 0x14 2 0 0 (fun x =>
      { x with sites := { x.sites with active := 3, stack := [.loop 3 5 []] } }), 3, 5, [], [], by decide +kernel⟩⟩

/-- The hypotheses of StreamCommandsTakeEffect are met. -/
theorem witness_streamCommandsTakeEffect :
    (∃ (r : Requester) (q : Fin 8) (s : State), s.accepts r .seq q Off.seqStrmCtrl (putBit (s.rd .seq q Off.seqStrmCtrl) 0
      true) = true ∧ 8 ≤ fld (putBit (s.rd .seq q Off.seqStrmCtrl) 0 true) 8 8 ∧ s.pageEn .seq q = true ∧ s.seqActive q =
      false ∧ s.mstate q ≠ mMapping) ∧
    (∃ (q : Fin 8) (i : Nat) (m : List Seg) (s : State), s.mstate q = mMapping ∧ s.primeCheck q [] = (0, i, m) ∧ s.hbmBit
      10 = false ∧ (∀ g ∈ s.startWindow q m, ∃ sg, segOf m (64 * g) = some sg ∧ s.refillOk q sg g = true ∧ s.poisoned
      (sg.granuleAt g) 2560 = false)) ∧
    (∃ (r : Requester) (q : Fin 8) (a : BitVec 24) (s : State), s.accepts r .seq q Off.seqStartAddr (word a.toNat) = true)
      ∧
    (∃ (q : Fin 8) (m : List Seg) (s : State), (s.seq q).map = some m ∧ s.mstate q = mFilling ∧ s.seqActive q = false ∧
      s.hbmBit 10 = false ∧ (segOf m (s.rf .seq q Off.seqStartAddr 0 24)).isSome = true ∧ (∀ g ∈ s.startWindow q m, ∃ sg,
      segOf m (64 * g) = some sg ∧ s.refillOk q sg g = true ∧ s.poisoned (sg.granuleAt g) 2560 = false)) ∧
    (∃ (r : Requester) (q : Fin 8) (v : Word) (s : State), s.accepts r .seq q Off.seqSdirN v = true ∧ s.seqActive q =
      false ∧ s.mstate q ≠ mMapping) ∧
    (∃ (q : Fin 8) (g : Fin 262144) (m : List Seg) (sg : Seg) (s : State), (s.seq q).map = some m ∧ s.mstate q =
      mStreaming ∧ s.seqState q ≠ sDrain ∧ (s.seq q).has g.val = false ∧ s.hbmBit 10 = false ∧ (s.wanted q m (s.seq
      q).next).contains g.val = true ∧ segOf m (64 * g.val) = some sg ∧ s.refillOk q sg g = true ∧ (s.eccRead
      (sg.granuleAt g.val) 2560 reqRefill .clean).2 = false) :=
  ⟨⟨sup, 1, (meas 0).put [(.seq, 1, Off.seqStrmCtrl, 0x800)], by decide +kernel⟩,
    ⟨1, 0, [⟨0, 8, 0x1000, []⟩], primed, by decide +kernel⟩,
    ⟨sup, 1, 0x123456, (meas 0).put [(.seq, 1, Off.seqStrmStat, 2)], by decide +kernel⟩,
    ⟨1, [⟨0, 8, 0, []⟩],
      { (((meas 0).put [(.seq, 1, Off.seqStrmStat, 3)]).setSeq 1 { SeqSt.idle with map := some [⟨0, 8, 0, []⟩] }) with regions := [(0, ⟨0, 0, 15, patternKind, true⟩)] },
      by decide +kernel⟩,
    ⟨sup, 1, 1024, meas 0, by decide +kernel⟩,
    ⟨1, 1, [⟨0, 8, 0, []⟩], ⟨0, 8, 0, []⟩,
      { (runAt 2 0 0 0 0 fun x => { x with resident := [(0, 0)] }).put [(.seq, 1, Off.seqStrmStat, 4)] with regions := [(0, ⟨0, 0, 15, patternKind, true⟩)] },
      by decide +kernel⟩⟩

/-- The hypotheses of CaptureCommandsTakeEffect are met. -/
theorem witness_captureCommandsTakeEffect :
    (∃ (q : Fin 8) (b : List Nat) (l : List (List Nat)) (s : State), (s.seq q).snaps = b :: l) ∧
    (∃ (q : Fin 8) (b : List Nat) (l : List (List Nat)) (s : State), (s.seq q).snaps = b :: l ∧ ((s.seq q).cfg.siteRing) <
      0x8000 ∧ s.ringEn ((s.seq q).cfg.siteRing) = true ∧ s.ringIn ((s.seq q).cfg.siteRing) = false ∧ s.ringPaused = false
      ∧ s.ringBehind ((s.seq q).cfg.siteRing) (.site q) = false ∧ 5 ≤ s.ringLog2 ((s.seq q).cfg.siteRing) ∧ s.ringFill
      ((s.seq q).cfg.siteRing) + b.length ≤ s.ringCap ((s.seq q).cfg.siteRing) ∧ (∀ e ∈ b, e < 2 ^ 256)) ∧
    (∃ (q : Fin 8) (b : List Nat) (l : List (List Nat)) (s : State), (s.seq q).snaps = b :: l ∧ s.ringEn ((s.seq
      q).cfg.siteRing) = false) ∧
    (∃ (c : CapRec) (l : List CapRec) (s : State), s.catBuf = c :: l ∧ c.seq < 8 ∧ s.hbmBit 10 = true) ∧
    (∃ (c : CapRec) (l : List CapRec) (s : State), s.catBuf = c :: l ∧ c.seq < 8 ∧ s.hbmBit 10 = false ∧ c.body < 2 ^ 128
      ∧ ((s.seq c.seq).cfg).capSize ≤ 34 ∧ s.inRegion (s.ownerOf .seq c.seq) [captureKind] (((s.seq c.seq).cfg).capBase +
      (s.rd2 .site c.seq Off.capWptrLo Off.capWptrHi) % (2 ^ ((s.seq c.seq).cfg).capSize)) 16 = true ∧ ((s.rd2 .site c.seq
      Off.capWptrLo Off.capWptrHi) < (2 ^ ((s.seq c.seq).cfg).capSize) ∨ tbit ((s.seq c.seq).cfg).siteCtrl 2 = true)) ∧
    (∃ (c : CapRec) (l : List CapRec) (s : State), s.catBuf = c :: l ∧ c.seq < 8 ∧ s.hbmBit 10 = false ∧ (2 ^ ((s.seq
      c.seq).cfg).capSize) ≤ (s.rd2 .site c.seq Off.capWptrLo Off.capWptrHi) ∧ tbit ((s.seq c.seq).cfg).siteCtrl 2 =
      false) ∧
    (∃ (q : Fin 8) (s : State), (s.seq q).ran = true ∧ s.seqActive q = false ∧ (∀ c ∈ s.catBuf, c.seq ≠ q.val)) :=
  ⟨⟨1, [5], [], (meas 0).setSeq 1 { SeqSt.idle with snaps := [[5]] }, by decide +kernel⟩,
    ⟨1, [2 ^ 40 * 7, 2 ^ 200 * 9], [], (State.ringAt (meas 0) 9 1 5 3).setSeq 1
      { SeqSt.idle with snaps := [[2 ^ 40 * 7, 2 ^ 200 * 9]], cfg := { RunCfg.idle with siteRing := 9 } },
      by decide +kernel⟩,
    ⟨1, [5, 6], [], (meas 0).setSeq 1 { SeqSt.idle with snaps := [[5, 6]], cfg := { RunCfg.idle with siteRing := 9 } },
      by decide +kernel⟩,
    ⟨⟨1, 3, 0xABCD⟩, [], { (meas 0).put [(.hbm, 0, Off.hbmStat, 0x400)] with catBuf := [⟨1, 3, 0xABCD⟩] },
      by decide +kernel⟩,
    ⟨⟨1, 3, 0xABCD⟩, [], State.setSeq
      { meas 0 with catBuf := [⟨1, 3, 0xABCD⟩], regions := [(0, ⟨0, 0, 15, captureKind, true⟩)] } 1
      { SeqSt.idle with cfg := { RunCfg.idle with capBase := 0x2000, capSize := 12 } }, by decide +kernel⟩,
    ⟨⟨1, 3, 0xABCD⟩, [], { ((meas 0).put [(.site, 1, Off.capWptrLo, 4096)]).setSeq 1
      { SeqSt.idle with cfg := { RunCfg.idle with capSize := 12 } } with catBuf := [⟨1, 3, 0xABCD⟩] }, by decide +kernel⟩,
    ⟨1, (meas 0).setSeq 1 { SeqSt.idle with ran := true }, by decide +kernel⟩⟩

/-- The hypotheses of TimUnitsMeasure are met. -/
theorem witness_timUnitsMeasure :
    (∃ (r : Requester) (st : Fin 128) (c : Fin 16) (s : State), s.accepts r .tim st Off.timArm (word (2 ^ c.val)) = true ∧
      s.pageEn .tim st = true ∧ s.measuring st = true ∧ s.epochValid = true ∧ s.timMode st c ≠ tmTdr ∧ s.timState st c =
      tIdle) ∧
    (∃ (r : Requester) (st : Fin 128) (s : State), s.accepts r .tim st Off.timArm (word (2 ^ 16)) = true ∧ s.pageEn .tim
      st = true ∧ s.measuring st = true ∧ s.epochValid = true ∧ s.rb .tim st Off.timVstat 8 = false) ∧
    (∃ (r : Requester) (st : Fin 128) (c : Fin 17) (s : State), s.accepts r .tim st Off.timStop (word (2 ^ c.val)) = true)
      ∧
    (∃ (st : Fin 128) (c : Fin 16) (s : State), s.timState st c = tAcq ∧ s.timMode st c = tmStamp ∧ s.timSrc st c < 4 ∧
      s.timGate st c = 0 ∧ s.rb .stl st Off.stlPark c = false ∧ s.rf .tim st (Off.timCfg c) 24 4 = 0 ∧ (s.tim st c).skip =
      0 ∧ (s.tim st c).lastRaw = none) ∧
    (∃ (st : Fin 128) (s : State), s.rb .tim st Off.timVstat 8 = true ∧ s.rb .stl st Off.stlPark (s.vernier st).chan =
      false ∧ (s.vernier st).last = none ∧ (s.vernier st).fifo.length < 16) ∧
    (∃ (st : Fin 128) (c : Fin 16) (s : State), s.timState st c = tAcq ∧ s.timMode st c = tmTdr) ∧
    (∃ (st : Fin 128) (c : Fin 16) (s : State), s.timState st c = tDrain ∧ (s.tim st c).stored = false ∧ (s.tim st c).ring
      = none) ∧
    (∃ (st : Fin 128) (c : Fin 16) (n : Nat) (s : State), (s.tim st c).ring = some n ∧ (s.tim st c).fifo ≠ [] ∧
      s.ringStuck n = false ∧ s.timTurn st c = true) ∧
    (∃ (r : Requester) (st : Fin 128) (c : Fin 16) (e : Stamp) (l : List Stamp) (s : State), s.reach r .tim st = .full ∧
      (s.tim st c).fifo = e :: l ∧ (s.tim st c).ring = none) ∧
    (∃ (r : Requester) (st : Fin 128) (e : Nat) (l : List Nat) (s : State), s.reach r .tim st = .full ∧ (s.vernier
      st).fifo = e :: l ∧ (s.vernier st).ring = none) :=
  ⟨⟨sup, 0, 15, meas 0, by decide +kernel⟩,
    ⟨sup, 0, meas 0, by decide +kernel⟩,
    ⟨sup, 0, 16, (meas 0).put [(.tim, 0, Off.timVstat, 0x100)], by decide +kernel⟩,
    ⟨3, 2, (meas 3).put [(.tim, 3, Off.timState, 0x20), (.stl, 3, Off.stlPark, 0)], by decide +kernel⟩,
    ⟨3, (meas 3).put [(.tim, 3, Off.timVstat, 0x100), (.stl, 3, Off.stlPark, 0)], by decide +kernel⟩,
    ⟨3, 2, (meas 3).put [(.tim, 3, Off.timState, 0x20), (.tim, 3, Off.timCfg 2, 4)], by decide +kernel⟩,
    ⟨3, 2, ((meas 3).put [(.tim, 3, Off.timState, 0x30)]).setTim 3 2 { TimUnit.idle with live := true, count := 9 },
      by decide +kernel⟩,
    ⟨3, 2, 7, (meas 3).setTim 3 2 { TimUnit.idle with ring := some 7, fifo := [⟨1, 0, false⟩, ⟨2, 0, false⟩] },
      by decide +kernel⟩,
    ⟨sup, 3, 2, ⟨5, 0, false⟩, [], (meas 3).setTim 3 2 { TimUnit.idle with fifo := [⟨5, 0, false⟩] }, by decide +kernel⟩,
    ⟨sup, 3, 5, [6], (meas 3).setVernier 3 { Vernier.idle with fifo := [5, 6] }, by decide +kernel⟩⟩

/-- The hypotheses of PmuCommandsTakeEffect are met. -/
theorem witness_pmuCommandsTakeEffect :
    (∃ (r : Requester) (st : Fin 128) (u : Fin 4) (s : State), s.accepts r .pmu st (Off.pmuCtrl u) (putBit (s.rd .pmu st
      (Off.pmuCtrl u)) 0 true) = true ∧ s.follower st u = false ∧ s.rf .pmu st (Off.pmuCtrl u) 4 3 < 6 ∧ s.rb .pmu st
      (Off.pmuCtrl u) 0 = false ∧ s.pageEn .pmu st = true ∧ s.pmuPowered st = true ∧ s.modeOf (s.ownerOf .stl st) ≠ 6 ∧
      s.pmuState st u ≠ pmuShut ∧ s.pmuState st u ≠ pmuClamped ∧ (∀ w ∈ s.gangUnits st u, s.farUsesPmu st w = false)) ∧
    (∃ (r : Requester) (st : Fin 128) (u : Fin 4) (s : State), s.accepts r .pmu st (Off.pmuCtrl u) (putBit (s.rd .pmu st
      (Off.pmuCtrl u)) 0 false) = true ∧ s.follower st u = false ∧ s.rf .pmu st (Off.pmuCtrl u) 4 3 < 6 ∧ s.rb .pmu st
      (Off.pmuCtrl u) 0 = true) ∧
    (∃ (r : Requester) (st : Fin 128) (u : Fin 4) (fi : Bool) (s : State), s.accepts r .pmu st (Off.pmuCtrl u) (putBit
      (s.rd .pmu st (Off.pmuCtrl u)) 1 fi) = true ∧ s.follower st u = false ∧ s.rf .pmu st (Off.pmuCtrl u) 4 3 < 6 ∧ s.rb
      .pmu st (Off.pmuCtrl u) 0 = false ∧ s.rb .pmu st (Off.pmuCtrl u) 1 ≠ fi) ∧
    (∃ (r : Requester) (st : Fin 128) (u : Fin 4) (range : Fin 8) (s : State), s.accepts r .pmu st (Off.pmuCtrl u) (putFld
      (s.rd .pmu st (Off.pmuCtrl u)) 4 3 range) = true ∧ s.follower st u = false ∧ range.val < 6 ∧ s.rf .pmu st
      (Off.pmuCtrl u) 4 3 ≠ range ∧ s.rb .pmu st (Off.pmuStat u) 3 = false ∧ s.rb .pmu st (Off.pmuCtrl u) 0 = false ∧
      s.pmuState st u ≠ pmuForce) ∧
    (∃ (r : Requester) (st : Fin 128) (u : Fin 4) (range : Fin 8) (s : State), s.accepts r .pmu st (Off.pmuCtrl u) (putFld
      (s.rd .pmu st (Off.pmuCtrl u)) 4 3 range) = true ∧ s.follower st u = false ∧ range.val < 6 ∧ s.rf .pmu st
      (Off.pmuCtrl u) 4 3 ≠ range ∧ s.rb .pmu st (Off.pmuStat u) 3 = false ∧ s.rb .pmu st (Off.pmuCtrl u) 0 = true ∧ s.rb
      .pmu st (Off.pmuCtrl u) 1 = false ∧ s.pmuState st u = pmuForce) ∧
    (∃ (st : Fin 128) (u : Fin 4) (s : State), s.rb .pmu st (Off.pmuStat u) 3 = true ∧ s.pmuState st u = pmuRanging ∧
      (s.pmu st u).clampNext = false) ∧
    (∃ (r : Requester) (st : Fin 128) (u : Fin 4) (code : BitVec 18) (s : State), s.accepts r .pmu st (Off.pmuForce u)
      (word code.toNat) = true ∧ s.follower st u = false ∧ codeLo (s.pmuFi st u) ≤ code.toNat ∧ code.toNat ≤ codeHi
      (s.pmuFi st u) ∧ s.rb .pmu st (Off.pmuCtrl u) 10 = false ∧ s.rb .pmu st (Off.pmuStat u) 3 = false) ∧
    (∃ (r : Requester) (st : Fin 128) (u : Fin 4) (code : BitVec 16) (s : State), s.accepts r .pmu st (Off.pmuVclh u)
      (word code.toNat) = true ∧ s.follower st u = false ∧ code.toNat ≤ 0xFA00 ∧ s.rf .pmu st (Off.pmuVcll u) 0 16 + 4000
      ≤ code.toNat) ∧
    (∃ (r : Requester) (st : Fin 128) (u : Fin 4) (code : BitVec 16) (s : State), s.accepts r .pmu st (Off.pmuVcll u)
      (word code.toNat) = true ∧ s.follower st u = false ∧ code.toNat ≤ 0xFA00 ∧ code.toNat + 4000 ≤ s.rf .pmu st
      (Off.pmuVclh u) 0 16) ∧
    (∃ (r : Requester) (st : Fin 128) (en : Bool) (s : State), s.accepts r .pmu st Off.pmuGang (word (bit en)) = true ∧ (∀
      u < 4, s.rb .pmu st (Off.pmuCtrl u) 0 = false)) ∧
    (∃ (st : Fin 128) (u : Fin 4) (s : State), s.pmuLive st u = true ∧ s.pmuFi st u = false) ∧
    (∃ (st : Fin 128) (u : Fin 4) (s : State), s.pmuState st u = pmuForce ∧ s.pmuLive st u = true ∧ s.pmuFi st u = false ∧
      s.rb .pmu st (Off.pmuIlim (s.leader st u)) 8 = true) ∧
    (∃ (st : Fin 128) (u : Fin 4) (s : State), s.pmuLive st u = true ∧ s.pmuFi st u = true) ∧
    (∃ (st : Fin 128) (u : Fin 4) (s : State), s.rb .pmu st (Off.pmuCtrl (s.leader st u)) 8 = true ∧ s.rb .pmu st
      (Off.pmuCtrl u) 0 = true) ∧
    (∃ (st : Fin 128) (u : Fin 4) (p : PmuSt) (s : State), Store.sorted s.pmus = true ∧ Store.get? s.pmus (4 * st + u) =
      some p ∧ p.wave = .running ∧ s.rb .pmu st (Off.pmuWave u) 20 = true ∧ s.follower st u = false) ∧
    (∃ (r : Requester) (st : Fin 128) (v : Word) (s : State), s.accepts r .pmu st Off.pmuWtData v = true ∧ s.rb .pmu st
      (Off.pmuWave (s.rf .pmu st Off.pmuWtIdx 16 2)) 20 = false) ∧
    (∃ (r : Requester) (st : Fin 128) (u : Fin 4) (s : State), s.accepts r .pmu st Off.pmuWtIdx (putBit (putFld (s.rd .pmu
      st Off.pmuWtIdx) 16 2 u) 24 true) = true ∧ s.pageEn .pmu st = true ∧ s.rb .pmu st (Off.pmuWave u) 20 = false ∧ s.rb
      .pmu st Off.pmuWtIdx 24 = false) ∧
    (∃ (st : Fin 128) (u : Fin 4) (s : State), (s.pmu st u).reload = true) :=
  ⟨⟨sup, 5, 2, pmuAt 5 [], by decide +kernel⟩,
    ⟨sup, 5, 2, pmuAt 5 [(Off.pmuCtrl 2, 0x31), (Off.pmuStat 2, 2)], by decide +kernel⟩,
    ⟨sup, 127, 3, true, pmuAt 127 [], by decide +kernel⟩,
    ⟨sup, 0, 0, 5, pmuAt 0 [], by decide +kernel⟩,
    ⟨sup, 0, 0, 0, pmuAt 0 [(Off.pmuCtrl 0, 0x31), (Off.pmuStat 0, 2)], by decide +kernel⟩,
    ⟨0, 1, pmuAt 0 [(Off.pmuCtrl 1, 0x11), (Off.pmuStat 1, 0xB)], by decide +kernel⟩,
    ⟨sup, 0, 1, 0x3E800, pmuAt 0 [], by decide +kernel⟩,
    ⟨sup, 0, 1, 0xFA00, pmuAt 0 [], by decide +kernel⟩,
    ⟨sup, 0, 1, 0, pmuAt 0 [], by decide +kernel⟩,
    ⟨sup, 0, true, pmuAt 0 [], by decide +kernel⟩,
    ⟨0, 1, pmuAt 0 [(Off.pmuCtrl 1, 0x31), (Off.pmuStat 1, 2), (Off.pmuIlimCnt, 0xFFFF)], by decide +kernel⟩,
    ⟨0, 1, pmuAt 0 [(Off.pmuCtrl 1, 0x31), (Off.pmuStat 1, 2), (Off.pmuIlim 1, 0x164)], by decide +kernel⟩,
    ⟨0, 1, pmuAt 0 [(Off.pmuCtrl 1, 0x33), (Off.pmuStat 1, 2)], by decide +kernel⟩,
    ⟨0, 1, pmuAt 0 [(Off.pmuCtrl 1, 0x131), (Off.pmuStat 1, 2)], by decide +kernel⟩,
    ⟨0, 1, { PmuSt.idle with wave := .running, acc := 0xFFFFFFFF }, (pmuAt 0 [(Off.pmuCtrl 1, 0x31), (Off.pmuStat 1, 2),
      (Off.pmuWave 1, 0x100000), (Off.pmuFreq 1, 7)]).setPmu 0 1 { PmuSt.idle with wave := .running, acc := 0xFFFFFFFF },
      by decide +kernel⟩,
    ⟨sup, 0, 0x3FFFF, pmuAt 0 [(Off.pmuWtIdx, 0x20FFF)], by decide +kernel⟩,
    ⟨sup, 0, 3, pmuAt 0 [], by decide +kernel⟩,
    ⟨0, 3, (pmuAt 0 []).setPmu 0 3 { PmuSt.idle with reload := true }, by decide +kernel⟩⟩

/-- The hypotheses of ConvertersConvert are met. -/
theorem witness_convertersConvert :
    (∃ (r : Requester) (st : Fin 128) (u : Fin 4) (s : State), s.accepts r .cnv st Off.cnvArm (word (2 ^ u.val)) = true ∧
      (s.cnvReachAll st).cnvArmShut r st = none ∧ (s.cnvReachAll st).cnvArmError st u = none ∧ (s.cnvReachAll st).cnvState
      st u = kIdle) ∧
    (∃ (r : Requester) (st : Fin 128) (u : Fin 4) (s : State), s.accepts r .cnv st Off.cnvStop (word (2 ^ u.val)) = true ∧
      (s.cnvReachAll st).cnvState st u = kArmed) ∧
    (∃ (r : Requester) (st : Fin 128) (u : Fin 4) (s : State), s.accepts r .cnv st Off.cnvStop (word (2 ^ u.val)) = true ∧
      (s.cnvReachAll st).cnvState st u = kWake ∨ (s.cnvReachAll st).cnvState st u = kInteg) ∧
    (∃ (st : Fin 128) (u : Fin 4) (s : State), s.cnvState st u = kArmed ∧ s.cnvTrig st u = 1) ∧
    (∃ (st : Fin 128) (u : Fin 4) (s : State), s.cnvState st u = kWake) ∧
    (∃ (st : Fin 128) (u : Fin 4) (s : State), s.cnvState st u = kInteg ∧ (s.cnv st u).ovr = false ∧ (s.cnv st u).endCode
      = 0 ∧ s.cnvStream st u = false) ∧
    (∃ (st : Fin 128) (u : Fin 4) (s : State), s.cnvState st u = kInteg ∧ (s.cnv st u).ovr = false ∧ (s.cnv st u).endCode
      = 0 ∧ s.cnvStream st u = true) ∧
    (∃ (st : Fin 128) (u : Fin 4) (s : State), s.cnvState st u = kResid ∧ s.cnvStream st u = false ∧ s.pmuPowered st =
      true ∧ s.cnvRearm st u = false) :=
  ⟨⟨sup, 0, 3, cnvAt 0 [(Off.cnvState, 0x249)], by decide +kernel⟩,
    ⟨sup, 0, 3, cnvAt 0 [(Off.cnvState, 0x449)], by decide +kernel⟩,
    ⟨sup, 0, 3, cnvAt 0 [(Off.cnvState, 0x649)], by decide +kernel⟩,
    ⟨0, 3, cnvAt 0 [(Off.cnvState, 0x449), (Off.cnvCfg 3, 1), (Off.cnvStartTickLo, 77), (Off.cnvStartTickHi, 3)],
      by decide +kernel⟩,
    ⟨0, 3, (cnvAt 0 [(Off.cnvState, 0x649)]).setCnv 0 3 { CnvUnit.idle with trig := 2 ^ 48 - 1 }, by decide +kernel⟩,
    ⟨0, 3, (cnvAt 0 [(Off.cnvState, 0x849)]).setCnv 0 3 { CnvUnit.idle with trig := 5 }, by decide +kernel⟩,
    ⟨0, 3, (cnvAt 0 [(Off.cnvState, 0x849), (Off.cnvCfg 3, 0x200000)]).setCnv 0 3
      { CnvUnit.idle with trig := 5, start := 100, len := 6400 }, by decide +kernel⟩,
    ⟨0, 3, (cnvAt 0 [(Off.cnvState, 0xA49)]).setCnv 0 3 { CnvUnit.idle with trig := 5, code := 0x123 },
      by decide +kernel⟩⟩

/-- The hypotheses of MainsAndReferenceFollowTheirInputs are met. -/
theorem witness_mainsAndReferenceFollowTheirInputs :
    (∃ (per : BitVec 32) (s : State), s.line.seen = true ∧ s.rf .brn 0 Off.brnLineCfg 0 2 = 0 ∧ (48484848 ≤ per.toNat ∧
      per.toNat ≤ 71111111 ∧ s.line.periods.length = 15)) ∧
    (∃ (per : BitVec 32) (s : State), s.line.seen = true ∧ s.rf .brn 0 Off.brnLineCfg 0 2 = 0 ∧ (per.toNat < 48484848 ∨
      71111111 < per.toNat)) ∧
    (∃ (s : State), s.rf .brn 0 Off.brnLineCfg 0 2 = 0) ∧
    (∃ (r : Requester) (b : Fin 8) (s : State), s.accepts r .brn b Off.brnRefCtrl (word 1) = true ∧ s.pageEn .brn b =
      true) ∧
    (∃ (r : Requester) (b : Fin 8) (s : State), s.accepts r .brn b Off.brnRefCtrl (word 0) = true) ∧
    (∃ (b : Fin 8) (s : State), s.rb .brn b Off.brnRefStat 0 = true) :=
  ⟨⟨48484848, { m4 with line := ⟨true, List.replicate 15 48484848, none⟩ }, by decide +kernel⟩,
    ⟨71111112, { m4 with line := ⟨true, [], none⟩ }, by decide +kernel⟩,
    ⟨{ m4 with line := ⟨true, [5], none⟩ }, by decide +kernel⟩,
    ⟨sup, 7, on 112, by decide +kernel⟩,
    ⟨sup, 7, (on 112).put [(.brn, 7, Off.brnRefCtrl, 1), (.brn, 7, Off.brnRefStat, 3)], by decide +kernel⟩,
    ⟨7, (on 112).put [(.brn, 7, Off.brnRefCtrl, 1), (.brn, 7, Off.brnRefStat, 1)], by decide +kernel⟩⟩

/-- The hypotheses of AcquisitionEnginesRecord are met. -/
theorem witness_acquisitionEnginesRecord :
    (∃ (r : Requester) (b : Fin 8) (s : State), s.accepts r .acq b Off.acqCtrl 1 = true ∧ (s.acqReach b).acqArmShut b =
      none ∧ (s.acqReach b).acqArmError b = none ∧ (s.acqReach b).acqState b = aIdle) ∧
    (∃ (r : Requester) (b : Fin 8) (s : State), s.accepts r .acq b Off.acqCtrl 2 = true ∧ (s.acqReach b).acqState b =
      aFill) ∧
    (∃ (r : Requester) (b : Fin 8) (s : State), s.accepts r .acq b Off.acqCtrl 4 = true ∧ (s.acqReach b).acqState b =
      aFill ∧ (s.acqReach b).now ≠ ((s.acqReach b).acq b).armTick ∧ ((s.acqReach b).acq b).lastTrig ≠ some (s.acqReach
      b).now ∧ (s.acqReach b).acqQualified b (s.acqReach b).now = true ∧ ((s.acqReach b).acq b).fillSlot + (s.acqReach
      b).rf .acq b Off.acqQual 16 16 ≤ ((s.acqReach b).acq b).slotOf (s.acqReach b).now) ∧
    (∃ (b : Fin 8) (s : State), s.acqState b ≠ aIdle ∧ (∃ i ∈ s.acqGood b, (s.acq b).slots < (s.acq b).apersOf i) ∧ (∀ i ∈
      s.acqGood b, natBit (s.acq b).begun i = false ∨ natBit (s.acq b).ended i = true ∨ ((s.acq b).slots : Int) < ((s.acq
      b).apersOf i : Int) + s.acqSkewOf b i)) ∧
    (∃ (b : Fin 8) (rc : AcqRec) (s : State), s.acqState b = aRearm ∧ (s.acq b).ring = none ∧ (s.acq b).rcd = some rc ∧
      rc.stored = true ∧ s.rf .acq b Off.acqNrec 0 16 = 1) :=
  ⟨⟨sup, 1, ((acqAt 1 [(Off.acqSmaskLo, 1)] AcqSt.idle).put [(.cnv, 16, Off.cnvCfg 0, 0x200000), (.cnv, 16, Off.cnvState,
      0x24C), (.brn, 1, Off.brnRefStat, 3)]).setCnv 16 0 { CnvUnit.idle with live := true, len := 6400 },
      by decide +kernel⟩,
    ⟨sup, 1, acqAt 1 [(Off.acqStat, 1)] AcqSt.idle, by decide +kernel⟩,
    ⟨sup, 1,
      { acqAt 1 [(Off.acqStat, 1), (Off.acqSmaskLo, 1)] { AcqSt.idle with t0 := some 0, len := 100, slots := 5 } with now := 500, ticking := true },
      by decide +kernel⟩,
    ⟨1, acqAt 1 [(Off.acqStat, 1), (Off.acqSmaskLo, 1)]
      { AcqSt.idle with t0 := some 0, len := 100, begun := 1, apers := [(0, 1)] }, by decide +kernel⟩,
    ⟨1, ⟨5, 0, 0, false, 0, 0, 0, true, true, 0, 0, 0, false, some (0, 0), 5, 0, true, none, none⟩, acqAt 1 [(Off.acqStat,
      3), (Off.acqNrec, 1)]
      { AcqSt.idle with done := 0, rcd := some ⟨5, 0, 0, false, 0, 0, 0, true, true, 0, 0, 0, false, some (0, 0), 5, 0, true, none, none⟩ },
      by decide +kernel⟩⟩

/-- The hypotheses of WatchComparatorsWatch are met. -/
theorem witness_watchComparatorsWatch :
    (∃ (r : Requester) (st : Fin 128) (c : Fin 16) (v : Word) (s : State), s.accepts r .wch st (Off.wchCfg c) v = true ∧
      (tbit v 2 = false ∨ c.val % 4 = 0) ∧ fld v 8 6 ≤ 50 ∧ fld v 16 2 < 2 ∧ fld v 18 2 < 2) ∧
    (∃ (r : Requester) (st : Fin 128) (c : Fin 16) (v : Word) (s : State), s.accepts r .wch st (Off.wchThr c) v = true ∧
      fld v 16 12 < fld v 0 12) ∧
    (∃ (st : Fin 128) (i : Fin 32) (v : Int) (s : State), s.watchSampled st = false ∧ s.analogOn = true ∧ natBit
      (s.watchEnabled st) i = true ∧ s.rb .wch st Off.wchUnres i = true ∧ s.watchSide st i v = some false) ∧
    (∃ (st : Fin 128) (i : Fin 32) (v : Int) (s : State), s.watchSampled st = false ∧ s.analogOn = true ∧ natBit
      (s.watchEnabled st) i = true ∧ s.rb .wch st Off.wchUnres i = false ∧ s.rb .wch st Off.wchLive i = false ∧
      s.watchSide st i v = some true ∧ s.watchAct st i = 0) ∧
    (∃ (st : Fin 128) (i : Fin 32) (v : Int) (s : State), s.watchSampled st = false ∧ s.analogOn = true ∧ natBit
      (s.watchEnabled st) i = true ∧ s.rb .wch st Off.wchUnres i = false ∧ s.rb .wch st Off.wchLive i = false ∧
      s.watchSide st i v = some true ∧ s.watchAct st i = 1 ∧ s.watchTest st (i % 16) = 0) ∧
    (∃ (st : Fin 128) (i : Fin 32) (v : Int) (s : State), s.watchSampled st = false ∧ s.analogOn = true ∧ natBit
      (s.watchEnabled st) i = true ∧ s.rb .wch st Off.wchLive i = true ∧ s.watchSide st i v = some false) ∧
    (∃ (st : Fin 128) (s : State), s.rb .wch st Off.wchCtrl 0 = true ∧ s.watchEnabled st = 0) ∧
    (∃ (s : State), s.mode.dev ≠ .m11) :=
  ⟨⟨sup, 0, 4, 0xFF303207, wchAt 0 [], by decide +kernel⟩,
    ⟨sup, 0, 4, 0x0FFE0FFF, wchAt 0 [], by decide +kernel⟩,
    ⟨0, 4, 0, wchAt 0 [(Off.wchCfg 4, 1), (Off.wchThr 4, 0x800), (Off.wchUnres, 0x10)], by decide +kernel⟩,
    ⟨0, 4, 200000, wchAt 0 [(Off.wchCfg 4, 1), (Off.wchThr 4, 0x800)], by decide +kernel⟩,
    ⟨0, 4, 200000, wchAt 0 [(Off.wchCfg 4, 0x10001), (Off.wchThr 4, 0x800)], by decide +kernel⟩,
    ⟨0, 4, 0, wchAt 0 [(Off.wchCfg 4, 1), (Off.wchThr 4, 0x800), (Off.wchLive, 0x10)], by decide +kernel⟩,
    ⟨0, wchAt 0 [(Off.wchCtrl, 1)], by decide +kernel⟩,
    ⟨{ m4 with pins := { m4.pins with tripLow := true } }, by decide +kernel⟩⟩

/-- The hypotheses of FarrierRunsAndSteps are met. -/
theorem witness_farrierRunsAndSteps :
    (∃ (r : Requester) (s : State), s.accepts r .far 0 Off.farCtrl 1 = true ∧ s.pageEn .far 0 = true ∧ (s.mode.dev = .m4 ∨
      s.mode.dev = .m10) ∧ s.farState = fIdle) ∧
    (∃ (r : Requester) (s : State), s.accepts r .far 0 Off.farCtrl 2 = true ∧ 1 ≤ s.farState ∧ s.farState ≤ 3 ∧
      s.far.ending = none ∧ s.far.steps = []) ∧
    (∃ (s : State), s.farState = fCopy ∧ s.far.steps = [] ∧ (∃ g < 7, s.groupCan g = true ∧ instances g s.far.barns ≠ [])
      ∧ s.far.done = []) ∧
    (∃ (st : Fin 128) (g : Fin 7) (inst : Fin 2048) (mask : BitVec 16) (src : GapSource) (n : BitVec 48) (s : State),
      s.stepOk st g inst mask.toNat src n.toNat = true) ∧
    (∃ (st : Fin 128) (s : State), s.stepIn st = true) ∧
    (∃ (n : BitVec 48) (s : State), s.farState = fSwWait ∧ (s.owningSeqs.any fun q => !s.seqQuiet q n.toNat) = false) ∧
    (∃ (s : State), s.farState = fSwWait) :=
  ⟨⟨sup, farAt .m10 [(Off.farSteps, 9)] m4.far, by decide +kernel⟩,
    ⟨sup, farAt .m4 [(Off.farStat, 1)] m4.far, by decide +kernel⟩,
    ⟨farAt .m4 [(Off.farStat, 1)] { m4.far with groups := 1, barns := 0x80 }, by decide +kernel⟩,
    ⟨3, 0, 3, 0x1, .idle, 1000, farAt .m4 [(Off.farStat, 2), (Off.farPenEn, 0x1FF)]
      { m4.far with groups := 1, runs := 1, barns := 1 }, by decide +kernel⟩,
    ⟨3, farAt .m4 [(Off.farStat, 2)]
      { m4.far with groups := 1, runs := 1, barns := 1, steps := [⟨3, 0, 3, 1, false, .idle, false⟩] },
      by decide +kernel⟩,
    ⟨5, farAt .m4 [(Off.farStat, 3)] { m4.far with groups := 1, runs := 1, barns := 1 }, by decide +kernel⟩,
    ⟨farAt .m4 [(Off.farStat, 3)] m4.far, by decide +kernel⟩⟩

/-- The hypotheses of FarrierStoresAndWindows are met. -/
theorem witness_farrierStoresAndWindows :
    (∃ (r : Requester) (s : State), s.accepts r .far 0 Off.farCtrl 4 = true ∧ s.pageEn .far 0 = true ∧ s.farState = fIdle)
      ∧
    (∃ (s : State), s.farState = fStore) ∧
    (∃ (r : Requester) (v : Word) (s : State), s.accepts r .far 0 Off.farWinCfg (putBit v 31 true) = true ∧ 0 < fld v 0 20
      ∧ fld v 0 20 ≤ 1000000 ∧ s.far.win = none ∧ s.pageEn .far 0 = true) ∧
    (∃ (s : State), s.far.win ≠ none) ∧
    (∃ (s : State), s.winOpen = true) :=
  ⟨⟨sup, farAt .m4 [] m4.far, by decide +kernel⟩,
    ⟨farAt .m4 [(Off.farStat, 4)] m4.far, by decide +kernel⟩,
    ⟨sup, 1000000, farAt .m4 [(Off.farWinTickLo, 5)] m4.far, by decide +kernel⟩,
    ⟨farAt .m4 [] { m4.far with win := some (0, 5, 1, false) }, by decide +kernel⟩,
    ⟨farAt .m4 [(Off.farStat, 0x40)] { m4.far with win := some (0, 5, 1, false) }, by decide +kernel⟩⟩

/-- The hypotheses of RegisterServicesAnswer are met. -/
theorem witness_registerServicesAnswer :
    (∃ (g : Fin 8) (p : Probe) (c : Ctx) (s : State), s.romRuns g c 0x00 0 p = true) ∧
    (∃ (g : Fin 8) (p : Probe) (c : Ctx) (s : State), c.rcd.f 0 0 2 = 0 ∧ s.reaches (.groom g) (c.rcd.f 0 2 30 * 4) = true
      ∧ s.romRuns g c 0x01 0 p = true) ∧
    (∃ (g : Fin 8) (p : Probe) (c : Ctx) (s : State), c.rcd.f 0 0 2 = 0 ∧ s.reaches (.groom g) (c.rcd.f 0 2 30 * 4) = true
      ∧ s.romRuns g c 0x02 0 p = true ∧ ((s.reach15 c.rcd.op p.addr.toNat).read32 (.groom g) (c.rcd.f 0 2 30 * 4)).1.takes
      (.groom g) (c.rcd.f 0 2 30 * 4) (word (c.rcd.p 1)) = true) ∧
    (∃ (g : Fin 8) (p : Probe) (c : Ctx) (s : State), s.romRuns g c 0x03 0 p = true ∧ s.reaches (.groom g) (c.rcd.f 0 2 30
      * 4) = true ∧ ((s.reach15 c.rcd.op p.addr.toNat).read32 (.groom g) (c.rcd.f 0 2 30 * 4)).1.takes (.groom g) (c.rcd.f
      0 2 30 * 4) (word ((((s.reach15 c.rcd.op p.addr.toNat).read32 (.groom g) (c.rcd.f 0 2 30 * 4)).2.toNat &&& c.rcd.p
      1) ||| c.rcd.p 2)) = true) ∧
    (∃ (g : Fin 8) (p : Probe) (c : Ctx) (s : State), s.romRuns g c 0x04 0 p = true ∧ c.tmp = [] ∧ s.reaches (.groom g)
      (c.rcd.f 0 2 30 * 4) = true ∧ ((s.reach15 c.rcd.op p.addr.toNat).read32 (.groom g) (c.rcd.f 0 2 30 * 4)).2.toNat &&&
      c.rcd.p 1 = c.rcd.p 2) ∧
    (∃ (g : Fin 8) (p : Probe) (c : Ctx) (s : State), s.romRuns g c 0x05 0 p = true ∧ c.rcd.p 2 = 1 ∧ s.hayOk c.rcd.owner
      (c.rcd.hay 0) 8 = true ∧ (s.reach15 c.rcd.op p.addr.toNat).takes (.groom g) (nfld (s.hayGet c.rcd.owner (c.rcd.hay
      0) 8) 0 32) (word (nfld (s.hayGet c.rcd.owner (c.rcd.hay 0) 8) 32 32)) = true) :=
  ⟨⟨3, pr, ctxAt 0x00 0 [] [], running (ctxAt 0x00 0 [] []) (m4), by decide +kernel⟩,
    ⟨3, pr, ctxAt 0x01 0 [PageKind.lvl.base 3 + Off.lvlPre 2 1] [], running (ctxAt 0x01 0 [PageKind.lvl.base 3 +
      Off.lvlPre 2 1] []) (on 3), by decide +kernel⟩,
    ⟨3, pr, ctxAt 0x02 0 [PageKind.lvl.base 3 + Off.lvlPre 2 1, 0x7000] [], running (ctxAt 0x02 0 [PageKind.lvl.base 3 +
      Off.lvlPre 2 1, 0x7000] []) (on 3), by decide +kernel⟩,
    ⟨3, pr, ctxAt 0x03 0 [PageKind.lvl.base 3 + Off.lvlPre 2 1, 0xFF, 0x1200] [], running (ctxAt 0x03 0 [PageKind.lvl.base
      3 + Off.lvlPre 2 1, 0xFF, 0x1200] []) (on 3), by decide +kernel⟩,
    ⟨3, pr, ctxAt 0x04 0 [PageKind.lvl.base 3 + Off.lvlPre 2 1, 0, 0, 9] [], running (ctxAt 0x04 0 [PageKind.lvl.base 3 +
      Off.lvlPre 2 1, 0, 0, 9] []) (on 3), by decide +kernel⟩,
    ⟨3, pr, ctxAt 0x05 0 [0x1000, 0, 1] [], running (ctxAt 0x05 0 [0x1000, 0, 1] []) ((on 3).hayPut 15 0x1000 8
      (PageKind.lvl.base 3 + Off.lvlPre 2 1 + 2 ^ 32 * 0x77)), by decide +kernel⟩⟩

/-- The hypotheses of HayloftServicesAnswer are met. -/
theorem witness_hayloftServicesAnswer :
    (∃ (g : Fin 8) (p : Probe) (c : Ctx) (s : State), 0 < (c.rcd.p 4) ∧ s.romRuns g c 0x06 0 p = true ∧ s.hayOk
      (c.rcd.owner) (c.rcd.hay 0) (c.rcd.p 4) = true ∧ s.hayOk (c.rcd.owner) (c.rcd.hay 2) (c.rcd.p 4) = true) ∧
    (∃ (g : Fin 8) (p : Probe) (c : Ctx) (s : State), 0 < (c.rcd.p 4) ∧ s.romRuns g c 0x07 0 p = true ∧ (c.rcd.p 4) % 4 =
      0 ∧ s.hayOk (c.rcd.owner) (c.rcd.hay 0) (c.rcd.p 4) = true) ∧
    (∃ (g : Fin 8) (p : Probe) (c : Ctx) (s : State), 0 < (c.rcd.p 4) ∧ s.romRuns g c 0x08 0 p = true ∧ s.hayOk
      (c.rcd.owner) (c.rcd.hay 0) (c.rcd.p 4) = true) ∧
    (∃ (g : Fin 8) (p : Probe) (c : Ctx) (s : State), 0 < (c.rcd.p 4) ∧ s.romRuns g c 0x09 0 p = true ∧ s.hayOk
      (c.rcd.owner) (c.rcd.hay 0) (c.rcd.p 4) = true ∧ s.hayOk (c.rcd.owner) (c.rcd.hay 2) (c.rcd.p 4) = true ∧ s.hayBytes
      (c.rcd.owner) (c.rcd.hay 0) (c.rcd.p 4) = s.hayBytes (c.rcd.owner) (c.rcd.hay 2) (c.rcd.p 4)) :=
  ⟨⟨3, pr, ctxAt 0x06 0 [0x1000, 0, 0x1008, 0, 16] [], running (ctxAt 0x06 0 [0x1000, 0, 0x1008, 0, 16] []) (m4.hayPut 15
      0x1000 16 0x123456789ABCDEF0112233), by decide +kernel⟩,
    ⟨3, pr, ctxAt 0x07 0 [0x1000, 0, 0x12345678, 0, 8] [], running (ctxAt 0x07 0 [0x1000, 0, 0x12345678, 0, 8] []) (m4),
      by decide +kernel⟩,
    ⟨3, pr, ctxAt 0x08 0 [0x1000, 0, 0, 0, 5] [], running (ctxAt 0x08 0 [0x1000, 0, 0, 0, 5] []) (m4.hayPut 15 0x1000 8
      0x1122334455), by decide +kernel⟩,
    ⟨3, pr, ctxAt 0x09 0 [0x1000, 0, 0x1010, 0, 4] [], running (ctxAt 0x09 0 [0x1000, 0, 0x1010, 0, 4] []) ((m4.hayPut 15
      0x1000 4 7).hayPut 15 0x1010 4 7), by decide +kernel⟩⟩

/-- The hypotheses of WaitRunAndSwitchServicesAnswer are met. -/
theorem witness_waitRunAndSwitchServicesAnswer :
    (∃ (g : Fin 8) (p : Probe) (c : Ctx) (s : State), s.romRuns g c 0x0A 1 p = true ∧ c.rcd.p 0 * 3200 ≤ s.now - c.t 0) ∧
    (∃ (g : Fin 8) (p : Probe) (c : Ctx) (s : State), s.romRuns g c 0x0B 1 p = true ∧ c.rcd.f 0 0 2 = 0 ∧ natBit
      s.pins.evIn (c.rcd.f 0 4 3) = (c.rcd.f 0 8 1 == 1)) ∧
    (∃ (g : Fin 8) (p : Probe) (c : Ctx) (s : State), s.romRuns g c 0x0C 2 p = true ∧ s.rb .seq (c.rcd.f 0 0 3)
      Off.seqResultLo 16 = true) ∧
    (∃ (g : Fin 8) (p : Probe) (c : Ctx) (s : State), s.romRuns g c 0x0D 1 p = true ∧ c.t 1 + 1 = c.rcd.p 2 ∧ s.rb .seq
      (nfld (c.t 5) 24 3) Off.seqResultLo 16 = true) ∧
    (∃ (g : Fin 8) (p : Probe) (c : Ctx) (st : Fin 128) (ch : Fin 16) (s : State), s.romRuns g c 0x0E 0 p = true ∧
      c.rcd.selects st (2 ^ ch.val) 16 = true ∧ s.ownerOf .stl st = c.rcd.owner ∧ c.rcd.f 1 8 1 = 0 ∧ (s.reach15 c.rcd.op
      p.addr.toNat).takes (.groom g) (PageKind.lvl.base st + Off.lvlPre ch (c.rcd.f 1 0 3)) (word (c.rcd.f 2 0 16)) =
      true) ∧
    (∃ (g : Fin 8) (p : Probe) (c : Ctx) (st : Fin 128) (s : State), s.romRuns g c 0x0F 1 p = true ∧ c.rcd.f 0 0 7 = st ∧
      c.rcd.f 0 8 7 = st ∧ c.t 1 = 0 ∧ s.rb .swm st Off.swmResult 16 = true) :=
  ⟨⟨3, pr, ctxAt 0x0A 1 [2] [5], running (ctxAt 0x0A 1 [2] [5]) ({ m4 with now := 6405 }), by decide +kernel⟩,
    ⟨3, pr, ctxAt 0x0B 1 [0x120] [5], running (ctxAt 0x0B 1 [0x120] [5]) ({ m4 with pins := { m4.pins with evIn := 4 } }),
      by decide +kernel⟩,
    ⟨3, pr, ctxAt 0x0C 2 [1] [5], running (ctxAt 0x0C 2 [1] [5]) ((on 0).put [(.seq, 1, Off.seqResultLo, 0x10203)]),
      by decide +kernel⟩,
    ⟨3, pr, ctxAt 0x0D 1 [0x1000, 0, 1] [5, 0, 0, 0, 0, 0x1000007], running (ctxAt 0x0D 1 [0x1000, 0, 1] [5, 0, 0, 0, 0,
      0x1000007]) ((on 0).put [(.seq, 1, Off.seqResultLo, 0x10203)]), by decide +kernel⟩,
    ⟨3, pr, ctxAt 0x0E 0 [0x80303, 5, 0x7000] [], 3, 3, running (ctxAt 0x0E 0 [0x80303, 5, 0x7000] []) (on 3),
      by decide +kernel⟩,
    ⟨3, pr, ctxAt 0x0F 1 [0x80303] [5, 0], 3, running (ctxAt 0x0F 1 [0x80303] [5, 0]) ((on 3).put [(.swm, 3,
      Off.swmResult, 0x10201)]), by decide +kernel⟩⟩

/-- The hypotheses of ContactServicesAnswer are met. -/
theorem witness_contactServicesAnswer :
    (∃ (g : Fin 8) (p : Probe) (c : Ctx) (s : State), s.romRuns g c 0x10 6 p = true ∧ c.rcd.f 1 0 2 = 0) ∧
    (∃ (g : Fin 8) (p : Probe) (c : Ctx) (s : State), s.romRuns g c 0x14 6 p = true ∧ (∀ st < 128, c.rcd.f 0 0 7 ≤ st → st
      ≤ c.rcd.f 0 8 7 → s.rb .swm st Off.swmResult 16 = true)) ∧
    (∃ (g : Fin 8) (p : Probe) (c : Ctx) (s : State), s.romRuns g c 0x12 4 p = true ∧ c.t 1 = 3 ∧ (∀ st < 128, ∀ u < 4,
      c.rcd.f 0 0 7 ≤ st → st ≤ c.rcd.f 0 8 7 → s.rb .cnv st (Off.cnvRes u 0) 16 = true ∧ s.rb .pmu st (Off.pmuCtrl u) 0 =
      false)) ∧
    (∃ (g : Fin 8) (p : Probe) (c : Ctx) (s : State), s.romRuns g c 0x15 0 p = true ∧ s.ownerOf .seq (c.rcd.f 2 0 3) =
      (c.rcd.owner) ∧ s.inRegion (c.rcd.owner) anyKind (c.rcd.hay 0) 64 = true ∧ c.rcd.f 2 8 1 = 0) ∧
    (∃ (g : Fin 8) (p : Probe) (c : Ctx) (s : State), s.romRuns g c 0x16 0 p = true ∧ s.inRegion (c.rcd.owner) anyKind
      (c.rcd.hay 0) 1024 = true) ∧
    (∃ (g : Fin 8) (p : Probe) (c : Ctx) (s : State), s.romRuns g c 0x17 1 p = true ∧ s.pins.indexN = (c.rcd.f 0 0 1 ==
      1)) :=
  ⟨⟨3, pr, ctxAt 0x10 6 [0x30303] [], running (ctxAt 0x10 6 [0x30303] []) (measIn .m6 3), by decide +kernel⟩,
    ⟨3, pr, ctxAt 0x14 6 [0x30303] [], running (ctxAt 0x14 6 [0x30303] []) ((measIn .m6 3).put [(.swm, 3, Off.swmResult,
      0x10201)]), by decide +kernel⟩,
    ⟨3, pr, ctxAt 0x12 4 [0x80303] [0, 3], running (ctxAt 0x12 4 [0x80303] [0, 3]) ((measIn .m6 3).put ((upto 4).map fun u
      => (.cnv, 3, Off.cnvRes u 0, 0x10000))), by decide +kernel⟩,
    ⟨3, pr, ctxAt 0x15 0 [0x1000, 0, 1] [], running (ctxAt 0x15 0 [0x1000, 0, 1] []) ((measIn .m6 3).put [(.stl, 3,
      Off.stlAssign 2, 0x80010000)]), by decide +kernel⟩,
    ⟨3, pr, ctxAt 0x16 0 [0x1000, 0, 1] [], running (ctxAt 0x16 0 [0x1000, 0, 1] []) (measIn .m6 3), by decide +kernel⟩,
    ⟨3, pr, ctxAt 0x17 1 [1] [0], running (ctxAt 0x17 1 [1] [0]) (m4), by decide +kernel⟩⟩

/-- The hypotheses of ForcingAndConverterServicesAnswer are met. -/
theorem witness_forcingAndConverterServicesAnswer :
    (∃ (g : Fin 8) (p : Probe) (c : Ctx) (s : State), (∀ n ∈ (c.rcd.pmuList), tbit (s.resWord n 0) 16 = true) ∧ s.romRuns
      g c 0x18 2 p = true ∧ c.t 1 = 0) ∧
    (∃ (g : Fin 8) (p : Probe) (c : Ctx) (s : State), (∀ n ∈ (c.rcd.pmuList), tbit (s.resWord n 0) 16 = true) ∧ s.romRuns
      g c 0x19 2 p = true ∧ c.t 1 + 1 = c.rcd.f 3 20 12 ∧ c.t 2 = c.t 1) ∧
    (∃ (g : Fin 8) (p : Probe) (c : Ctx) (s : State), (∀ n ∈ (c.rcd.pmuList), tbit (s.resWord n 0) 16 = true) ∧ s.romRuns
      g c 0x1A 2 p = true ∧ c.t 1 + 1 = c.rcd.f 3 20 12 ∧ c.t 2 = c.t 1) ∧
    (∃ (g : Fin 8) (p : Probe) (c : Ctx) (s : State), (∀ n ∈ (c.rcd.pmuList), tbit (s.resWord n 0) 16 = true) ∧ s.romRuns
      g c 0x1B 2 p = true ∧ c.t 1 = 1) ∧
    (∃ (g : Fin 8) (p : Probe) (c : Ctx) (s : State), (∀ n ∈ (c.rcd.pmuList), tbit (s.resWord n 0) 16 = true) ∧ s.romRuns
      g c 0x1C 2 p = true ∧ c.t 1 = 0) ∧
    (∃ (g : Fin 8) (p : Probe) (c : Ctx) (s : State), (∀ n ∈ (c.rcd.pmuList), tbit (s.resWord n 0) 16 = true) ∧ s.romRuns
      g c 0x1D 2 p = true ∧ c.t 1 = 0) ∧
    (∃ (g : Fin 8) (p : Probe) (c : Ctx) (s : State), (∀ n ∈ (c.rcd.pmuList), tbit (s.resWord n 0) 16 = true) ∧ s.romRuns
      g c 0x13 2 p = true ∧ c.t 1 = 1) ∧
    (∃ (g : Fin 8) (p : Probe) (c : Ctx) (s : State), (∀ n ∈ (c.rcd.pmuList), tbit (s.resWord n 0) 16 = true) ∧ s.romRuns
      g c 0x1E 2 p = true ∧ s.ownerOf .seq (c.rcd.f 3 0 3) = c.rcd.owner ∧ c.t 1 + 1 = c.rcd.f 4 16 16 ∧ c.t 2 = c.t 1 ∧
      (s.reach15 c.rcd.op p.addr.toNat).takes (.groom g) (PageKind.seq.base (c.rcd.f 3 0 3) + Off.seqSwflag) (word ((s.rd
      .seq (c.rcd.f 3 0 3) Off.seqSwflag).toNat ||| 2 ^ c.rcd.f 3 8 3)) = true) ∧
    (∃ (g : Fin 8) (p : Probe) (c : Ctx) (s : State), 0 < c.rcd.p 2 ∧ c.t 2 = c.rcd.p 2 ∧ c.rcd.p 2 * 3200 ≤ s.now - c.t 0
      ∧ s.romRuns g c 0x1F 1 p = true) ∧
    (∃ (g : Fin 8) (p : Probe) (c : Ctx) (s : State), 0 < c.rcd.p 2 ∧ c.t 2 = c.rcd.p 2 ∧ c.rcd.p 2 * 3200 ≤ s.now - c.t 0
      ∧ s.romRuns g c 0x20 1 p = true) ∧
    (∃ (g : Fin 8) (p : Probe) (c : Ctx) (st : Fin 128) (u : Fin 4) (s : State), c.rcd.selects st (2 ^ u.val) 4 = true ∧
      s.ownerOf .stl st = c.rcd.owner ∧ s.romRuns g c 0x21 0 p = true ∧ s.ownerOf .seq (c.rcd.f 3 24 3) = c.rcd.owner ∧
      (s.reach15 c.rcd.op p.addr.toNat).takes ((.groom g : Requester)) ((fun o => PageKind.pmu.base st + o) (Off.pmuFreq
      u)) (word (c.rcd.p 1)) = true ∧ ((s.reach15 c.rcd.op p.addr.toNat).write32 ((.groom g : Requester)) ((fun o =>
      PageKind.pmu.base st + o) (Off.pmuFreq u)) (word (c.rcd.p 1))).takes ((.groom g : Requester)) ((fun o =>
      PageKind.pmu.base st + o) (Off.pmuPhase u)) (word (c.rcd.f 3 0 12)) = true ∧ (((s.reach15 c.rcd.op
      p.addr.toNat).write32 ((.groom g : Requester)) ((fun o => PageKind.pmu.base st + o) (Off.pmuFreq u)) (word (c.rcd.p
      1))).write32 ((.groom g : Requester)) ((fun o => PageKind.pmu.base st + o) (Off.pmuPhase u)) (word (c.rcd.f 3 0
      12))).takes ((.groom g : Requester)) ((fun o => PageKind.pmu.base st + o) (Off.pmuWave u)) (word (pack [(0, 17,
      c.rcd.f 2 0 17), (20, 1, 1), (21, 1, c.rcd.f 3 16 1), (24, 3, c.rcd.f 3 24 3), (28, 3, c.rcd.f 3 28 3)])) = true) ∧
    (∃ (g : Fin 8) (p : Probe) (c : Ctx) (st : Fin 128) (u : Fin 4) (s : State), c.rcd.selects st (2 ^ u.val) 4 = true ∧
      s.ownerOf .stl st = c.rcd.owner ∧ s.romRuns g c 0x22 0 p = true ∧ s.rb .pmu st (Off.pmuWave u) 20 = true ∧
      (s.reach15 c.rcd.op p.addr.toNat).takes ((.groom g : Requester)) ((fun o => PageKind.pmu.base st + o) (Off.pmuWave
      u)) (putBit (s.rd .pmu st (Off.pmuWave u)) 20 false) = true) ∧
    (∃ (g : Fin 8) (p : Probe) (c : Ctx) (st : Fin 128) (u : Fin 4) (s : State), c.rcd.selects st (2 ^ u.val) 4 = true ∧
      s.ownerOf .stl st = c.rcd.owner ∧ s.romRuns g c 0x22 0 p = true ∧ s.rb .pmu st (Off.pmuWave u) 20 = false) ∧
    (∃ (g : Fin 8) (p : Probe) (c : Ctx) (s : State), (∀ n ∈ (c.rcd.pmuList), tbit (s.resWord n 0) 16 = true) ∧ s.romRuns
      g c 0x23 1 p = true ∧ c.t 1 + 1 = c.rcd.f 1 0 16) ∧
    (∃ (g : Fin 8) (p : Probe) (c : Ctx) (s : State), s.romRuns g c 0x24 1 p = true ∧ s.acqState (c.rcd.f 0 0 3) = aIdle)
      ∧
    (∃ (g : Fin 8) (p : Probe) (c : Ctx) (s : State), s.romRuns g c 0x27 1 p = true ∧ c.rcd.f 0 0 7 + c.t 1 = c.rcd.f 0 8
      7 ∧ s.rb .swm (c.rcd.f 0 8 7) Off.swmResult 16 = true) :=
  ⟨⟨3, pr, ctxAt 0x18 2 [0x80303, 0, 0, 0, 1] [0], running (ctxAt 0x18 2 [0x80303, 0, 0, 0, 1] [0]) ((measIn .m9 3).put
      [(.cnv, 3, Off.cnvRes 3 0, 0x30000), (.cnv, 3, Off.cnvRes 3 1, 0xFFF000)]), by decide +kernel⟩,
    ⟨3, pr, ctxAt 0x19 2 [0x80303, 0, 0, 0x200000] [0, 1, 1], running (ctxAt 0x19 2 [0x80303, 0, 0, 0x200000] [0, 1, 1])
      ((measIn .m9 3).put [(.cnv, 3, Off.cnvRes 3 0, 0x30000), (.cnv, 3, Off.cnvRes 3 1, 0xFFF000)]), by decide +kernel⟩,
    ⟨3, pr, ctxAt 0x1A 2 [0x80303, 0, 0, 0x200000] [0, 1, 1], running (ctxAt 0x1A 2 [0x80303, 0, 0, 0x200000] [0, 1, 1])
      ((measIn .m9 3).put [(.cnv, 3, Off.cnvRes 3 0, 0x30000), (.cnv, 3, Off.cnvRes 3 1, 0xFFF000)]), by decide +kernel⟩,
    ⟨3, pr, ctxAt 0x1B 2 [0x80303] [0, 1], running (ctxAt 0x1B 2 [0x80303] [0, 1]) ((measIn .m9 3).put [(.cnv, 3,
      Off.cnvRes 3 0, 0x30000), (.cnv, 3, Off.cnvRes 3 1, 0xFFF000)]), by decide +kernel⟩,
    ⟨3, pr, ctxAt 0x1C 2 [0x80303] [0], running (ctxAt 0x1C 2 [0x80303] [0]) ((measIn .m9 3).put [(.cnv, 3, Off.cnvRes 3
      0, 0x30000), (.cnv, 3, Off.cnvRes 3 1, 0xFFF000)]), by decide +kernel⟩,
    ⟨3, pr, ctxAt 0x1D 2 [0x80303] [0], running (ctxAt 0x1D 2 [0x80303] [0]) ((measIn .m9 3).put [(.cnv, 3, Off.cnvRes 3
      0, 0x30000), (.cnv, 3, Off.cnvRes 3 1, 0xFFF000)]), by decide +kernel⟩,
    ⟨3, pr, ctxAt 0x13 2 [0x80303] [0, 1], running (ctxAt 0x13 2 [0x80303] [0, 1]) ((measIn .m9 3).put [(.cnv, 3,
      Off.cnvRes 3 0, 0x30000), (.cnv, 3, Off.cnvRes 3 1, 0xFFF000)]), by decide +kernel⟩,
    ⟨3, pr, ctxAt 0x1E 2 [0x80303, 0, 0, 0x501, 0x20000] [0, 1, 1], running (ctxAt 0x1E 2 [0x80303, 0, 0, 0x501, 0x20000]
      [0, 1, 1]) ((measIn .m9 3).put [(.cnv, 3, Off.cnvRes 3 0, 0x30000), (.cnv, 3, Off.cnvRes 3 1, 0xFFF000)]),
      by decide +kernel⟩,
    ⟨3, pr, ctxAt 0x1F 1 [0x80303, 0, 1] [0, 0, 1], running (ctxAt 0x1F 1 [0x80303, 0, 1] [0, 0, 1])
      ({ (measIn .m9 3).put [(.pmu, 3, Off.pmuFlags 3, 9)] with now := 3200 }), by decide +kernel⟩,
    ⟨3, pr, ctxAt 0x20 1 [0x80303, 0, 1] [0, 0, 1], running (ctxAt 0x20 1 [0x80303, 0, 1] [0, 0, 1])
      ({ (measIn .m9 3).put [(.pmu, 3, Off.pmuFlags 0, 9)] with now := 3200 }), by decide +kernel⟩,
    ⟨3, pr, ctxAt 0x21 0 [0x80303, 70, 0x8000, 0x5, 0] [], 3, 3, running (ctxAt 0x21 0 [0x80303, 70, 0x8000, 0x5, 0] [])
      (measIn .m9 3), by decide +kernel⟩,
    ⟨3, pr, ctxAt 0x22 0 [0x80303] [], 3, 3, running (ctxAt 0x22 0 [0x80303] []) ((measIn .m9 3).put [(.pmu, 3,
      Off.pmuWave 3, 0x100000)]), by decide +kernel⟩,
    ⟨3, pr, ctxAt 0x22 0 [0x80303] [], 3, 3, running (ctxAt 0x22 0 [0x80303] []) (measIn .m9 3), by decide +kernel⟩,
    ⟨3, pr, ctxAt 0x23 1 [0x80303, 1] [0, 0], running (ctxAt 0x23 1 [0x80303, 1] [0, 0]) ((measIn .m9 3).put [(.cnv, 3,
      Off.cnvRes 3 0, 0x30000), (.cnv, 3, Off.cnvRes 3 1, 0xFFF000)]), by decide +kernel⟩,
    ⟨3, pr, ctxAt 0x24 1 [0] [0, 0], running (ctxAt 0x24 1 [0] [0, 0]) (measIn .m9 3), by decide +kernel⟩,
    ⟨3, pr, ctxAt 0x27 1 [0x30403] [0, 1], running (ctxAt 0x27 1 [0x30403] [0, 1]) ((measIn .m9 4).put [(.swm, 4,
      Off.swmResult, 0x10001)]), by decide +kernel⟩⟩

/-- The hypotheses of TimeServicesAnswer are met. -/
theorem witness_timeServicesAnswer :
    (∃ (g : Fin 8) (p : Probe) (c : Ctx) (st : Fin 128) (i : Fin 16) (s : State), c.rcd.selects st (2 ^ i.val) 16 = true ∧
      s.rb .tim st (Off.timRes i 0) 16 = true ∧ s.romRuns g c 0x28 1 p = true) ∧
    (∃ (g : Fin 8) (p : Probe) (c : Ctx) (st : Fin 128) (i : Fin 16) (s : State), c.rcd.selects st (2 ^ i.val) 16 = true ∧
      s.rb .tim st (Off.timRes i 0) 16 = true ∧ s.romRuns g c 0x29 1 p = true) ∧
    (∃ (g : Fin 8) (p : Probe) (c : Ctx) (st : Fin 128) (i : Fin 16) (s : State), c.rcd.selects st (2 ^ i.val) 16 = true ∧
      s.rb .tim st (Off.timRes i 0) 16 = true ∧ s.romRuns g c 0x2A 1 p = true) ∧
    (∃ (g : Fin 8) (p : Probe) (c : Ctx) (st : Fin 128) (i : Fin 16) (s : State), c.rcd.selects st (2 ^ i.val) 16 = true ∧
      s.rb .tim st (Off.timRes i 0) 16 = true ∧ s.romRuns g c 0x2B 1 p = true) ∧
    (∃ (g : Fin 8) (p : Probe) (c : Ctx) (st : Fin 128) (i : Fin 16) (s : State), c.rcd.selects st (2 ^ i.val) 16 = true ∧
      s.rb .tim st (Off.timRes i 0) 16 = true ∧ s.romRuns g c 0x2C 1 p = true) ∧
    (∃ (g : Fin 8) (p : Probe) (c : Ctx) (st : Fin 128) (i : Fin 16) (s : State), c.rcd.selects st (2 ^ i.val) 16 = true ∧
      s.rb .tim st (Off.timRes i 0) 16 = true ∧ s.romRuns g c 0x2D 2 p = true) ∧
    (∃ (g : Fin 8) (p : Probe) (c : Ctx) (s : State), s.romRuns g c 0x11 2 p = true ∧ (∀ st < 128, ∀ i < 16, c.rcd.f 0 0 7
      ≤ st → st ≤ c.rcd.f 0 8 7 → natBit (c.rcd.f 0 16 16) i = true → s.rb .tim st (Off.timRes i 0) 16 = true) ∧ c.rcd.f 2
      8 1 = 0) ∧
    (∃ (g : Fin 8) (p : Probe) (c : Ctx) (st : Fin 128) (s : State), s.romRuns g c 0x2E 0 p = true ∧ c.rcd.f 0 0 7 = st ∧
      c.rcd.f 0 8 7 = st ∧ s.ownerOf .stl st = c.rcd.owner ∧ (s.vernier st).fifo = []) ∧
    (∃ (g : Fin 8) (p : Probe) (c : Ctx) (s : State), s.romRuns g c 0x2F 0 p = true ∧ 0 < c.rcd.p 2 ∧ s.hayOk c.rcd.owner
      (c.rcd.hay 0) (8 * c.rcd.p 2) = true) :=
  ⟨⟨3, pr, ctxAt 0x28 1 [0x80303] [], 3, 3, running (ctxAt 0x28 1 [0x80303] []) ((measIn .m9 3).put [(.tim, 3, Off.timRes 3
      0, 0x10000), (.tim, 3, Off.timRes 3 1, 9)]), by decide +kernel⟩,
    ⟨3, pr, ctxAt 0x29 1 [0x80303] [], 3, 3, running (ctxAt 0x29 1 [0x80303] []) ((measIn .m9 3).put [(.tim, 3, Off.timRes
      3 0, 0x10000), (.tim, 3, Off.timRes 3 1, 9)]), by decide +kernel⟩,
    ⟨3, pr, ctxAt 0x2A 1 [0x80303] [], 3, 3, running (ctxAt 0x2A 1 [0x80303] []) ((measIn .m9 3).put [(.tim, 3, Off.timRes
      3 0, 0x10000), (.tim, 3, Off.timRes 3 1, 9)]), by decide +kernel⟩,
    ⟨3, pr, ctxAt 0x2B 1 [0x80303] [], 3, 3, running (ctxAt 0x2B 1 [0x80303] []) ((measIn .m9 3).put [(.tim, 3, Off.timRes
      3 0, 0x10000), (.tim, 3, Off.timRes 3 1, 9)]), by decide +kernel⟩,
    ⟨3, pr, ctxAt 0x2C 1 [0x80303] [], 3, 3, running (ctxAt 0x2C 1 [0x80303] []) ((measIn .m9 3).put [(.tim, 3, Off.timRes
      3 0, 0x10000), (.tim, 3, Off.timRes 3 1, 9)]), by decide +kernel⟩,
    ⟨3, pr, ctxAt 0x2D 2 [0x80303] [], 3, 3, running (ctxAt 0x2D 2 [0x80303] []) ((measIn .m9 3).put [(.tim, 3, Off.timRes
      3 0, 0x10000), (.tim, 3, Off.timRes 3 1, 9), (.tim, 3, Off.timRes 3 2, 900)]), by decide +kernel⟩,
    ⟨3, pr, ctxAt 0x11 2 [0x80303] [], running (ctxAt 0x11 2 [0x80303] []) ((measIn .m6 3).put [(.tim, 3, Off.timRes 3 0,
      0x10000), (.tim, 3, Off.timRes 3 1, 9), (.tim, 3, Off.timRes 3 2, 900)]), by decide +kernel⟩,
    ⟨3, pr, ctxAt 0x2E 0 [0x303] [], 3, running (ctxAt 0x2E 0 [0x303] []) (measIn .m9 3), by decide +kernel⟩,
    ⟨3, pr, ctxAt 0x2F 0 [0x1000, 0, 3, 0] [], running (ctxAt 0x2F 0 [0x1000, 0, 3, 0] []) ((m4.hayPut 15 0x1000 8
      4).hayPut 15 0x1008 8 0x300), by decide +kernel⟩⟩

/-- The hypotheses of DataAndCaptureServicesAnswer are met. -/
theorem witness_dataAndCaptureServicesAnswer :
    (∃ (g : Fin 8) (p : Probe) (c : Ctx) (s : State), s.ringOwner (c.rcd.f 0 0 15) = (c.rcd.owner) ∧ c.rcd.f 0 16 16 = 1 ∧
      s.hayOk (c.rcd.owner) (s.ringBase (c.rcd.f 0 0 15) + 32 * (c.rcd.p 1 % s.ringCap (c.rcd.f 0 0 15))) 32 = true ∧
      s.romRuns g c 0x30 0 p = true) ∧
    (∃ (g : Fin 8) (p : Probe) (c : Ctx) (s : State), s.ringOwner (c.rcd.f 0 0 15) = (c.rcd.owner) ∧ c.rcd.f 0 16 16 = 1 ∧
      s.hayOk (c.rcd.owner) (s.ringBase (c.rcd.f 0 0 15) + 32 * (c.rcd.p 1 % s.ringCap (c.rcd.f 0 0 15))) 32 = true ∧
      s.romRuns g c 0x31 0 p = true) ∧
    (∃ (g : Fin 8) (p : Probe) (c : Ctx) (s : State), s.ringOwner (c.rcd.f 0 0 15) = (c.rcd.owner) ∧ c.rcd.f 0 16 16 = 1 ∧
      s.hayOk (c.rcd.owner) (s.ringBase (c.rcd.f 0 0 15) + 32 * (c.rcd.p 1 % s.ringCap (c.rcd.f 0 0 15))) 32 = true ∧
      s.romRuns g c 0x32 0 p = true) ∧
    (∃ (g : Fin 8) (p : Probe) (c : Ctx) (s : State), s.ringOwner (c.rcd.f 0 0 15) = (c.rcd.owner) ∧ c.rcd.f 0 16 16 = 1 ∧
      s.hayOk (c.rcd.owner) (s.ringBase (c.rcd.f 0 0 15) + 32 * (c.rcd.p 1 % s.ringCap (c.rcd.f 0 0 15))) 32 = true ∧
      s.romRuns g c 0x37 0 p = true) ∧
    (∃ (g : Fin 8) (p : Probe) (c : Ctx) (s : State), s.ringOwner (c.rcd.f 0 0 15) = (c.rcd.owner) ∧ c.rcd.f 0 16 16 = 1 ∧
      s.hayOk (c.rcd.owner) (s.ringBase (c.rcd.f 0 0 15) + 32 * (c.rcd.p 1 % s.ringCap (c.rcd.f 0 0 15))) 32 = true ∧
      s.romRuns g c 0x3E 0 p = true ∧ s.inRegion (c.rcd.owner) anyKind (c.rcd.hay 3) 4 = true) ∧
    (∃ (g : Fin 8) (p : Probe) (c : Ctx) (s : State), s.ringOwner (c.rcd.f 0 0 15) = (c.rcd.owner) ∧ c.rcd.f 0 16 16 = 1 ∧
      s.hayOk (c.rcd.owner) (s.ringBase (c.rcd.f 0 0 15) + 32 * (c.rcd.p 1 % s.ringCap (c.rcd.f 0 0 15))) 32 = true ∧
      s.romRuns g c 0x33 0 p = true ∧ s.hayOk (c.rcd.owner) (c.rcd.hay 2) 640 = true) ∧
    (∃ (g : Fin 8) (p : Probe) (c : Ctx) (s : State), s.ringOwner (c.rcd.f 0 0 15) = (c.rcd.owner) ∧ c.rcd.f 0 16 16 = 1 ∧
      s.hayOk (c.rcd.owner) (s.ringBase (c.rcd.f 0 0 15) + 32 * (c.rcd.p 1 % s.ringCap (c.rcd.f 0 0 15))) 32 = true ∧
      s.romRuns g c 0x35 0 p = true ∧ s.inRegion (c.rcd.owner) anyKind (c.rcd.hay 2) 4096 = true) ∧
    (∃ (g : Fin 8) (p : Probe) (c : Ctx) (s : State), s.ringOwner (c.rcd.f 0 0 15) = (c.rcd.owner) ∧ c.rcd.f 0 16 16 = 1 ∧
      s.hayOk (c.rcd.owner) (s.ringBase (c.rcd.f 0 0 15) + 32 * (c.rcd.p 1 % s.ringCap (c.rcd.f 0 0 15))) 32 = true ∧
      s.romRuns g c 0x3D 0 p = true) ∧
    (∃ (g : Fin 8) (p : Probe) (c : Ctx) (s : State), s.romRuns g c 0x34 0 p = true ∧ s.hayOk (c.rcd.owner) (c.rcd.hay 0)
      512 = true ∧ s.inRegion (c.rcd.owner) anyKind (c.rcd.hay 3) 64 = true) ∧
    (∃ (g : Fin 8) (p : Probe) (c : Ctx) (s : State), s.romRuns g c 0x36 0 p = true ∧ s.hayOk (c.rcd.owner) (c.rcd.hay 0)
      64 = true ∧ s.hayOk (c.rcd.owner) (c.rcd.hay 2) 64 = true ∧ c.rcd.f 4 0 2 = 0) ∧
    (∃ (g : Fin 8) (p : Probe) (c : Ctx) (s : State), s.romRuns g c 0x3C 0 p = true ∧ s.hayOk (c.rcd.owner) (c.rcd.hay 0)
      512 = true ∧ s.hayOk (c.rcd.owner) (c.rcd.hay 2) 2048 = true ∧ s.inRegion (c.rcd.owner) anyKind (c.rcd.hay 2) 67584
      = true) ∧
    (∃ (g : Fin 8) (p : Probe) (c : Ctx) (s : State), s.romRuns g c 0x3F 0 p = true ∧ s.ownerOf .seq (c.rcd.f 0 0 3) =
      (c.rcd.owner) ∧ s.enrollMask (c.rcd.f 0 0 3) = 0) ∧
    (∃ (g : Fin 8) (p : Probe) (c : Ctx) (s : State), s.rb .site (c.rcd.f 0 0 3) Off.capStat 2 = true ∧ s.rb .site
      (c.rcd.f 0 0 3) Off.capStat 1 = false ∧ s.rd2 .site (c.rcd.f 0 0 3) Off.capWptrLo Off.capWptrHi = 16 ∧ s.hayOk
      (c.rcd.owner) (s.seq (c.rcd.f 0 0 3)).cfg.capBase 16 = true ∧ s.romRuns g c 0x38 1 p = true ∧ s.inRegion
      (c.rcd.owner) anyKind (c.rcd.hay 2) 2048 = true) ∧
    (∃ (g : Fin 8) (p : Probe) (c : Ctx) (s : State), s.rb .site (c.rcd.f 0 0 3) Off.capStat 2 = true ∧ s.rb .site
      (c.rcd.f 0 0 3) Off.capStat 1 = false ∧ s.rd2 .site (c.rcd.f 0 0 3) Off.capWptrLo Off.capWptrHi = 16 ∧ s.hayOk
      (c.rcd.owner) (s.seq (c.rcd.f 0 0 3)).cfg.capBase 16 = true ∧ s.romRuns g c 0x39 1 p = true ∧ s.inRegion
      (c.rcd.owner) anyKind (c.rcd.hay 2) ((2 ^ (c.rcd.f 4 0 5 + c.rcd.f 4 8 5) + 7) / 8) = true) ∧
    (∃ (g : Fin 8) (p : Probe) (c : Ctx) (s : State), s.rb .site (c.rcd.f 0 0 3) Off.capStat 2 = true ∧ s.rb .site
      (c.rcd.f 0 0 3) Off.capStat 1 = false ∧ s.rd2 .site (c.rcd.f 0 0 3) Off.capWptrLo Off.capWptrHi = 16 ∧ s.hayOk
      (c.rcd.owner) (s.seq (c.rcd.f 0 0 3)).cfg.capBase 16 = true ∧ s.romRuns g c 0x3A 1 p = true ∧ (nfld (s.hayGet
      (c.rcd.owner) (s.seq (c.rcd.f 0 0 3)).cfg.capBase 16) 48 9 < c.rcd.f 1 0 9 ∨ c.rcd.f 1 16 9 < nfld (s.hayGet
      (c.rcd.owner) (s.seq (c.rcd.f 0 0 3)).cfg.capBase 16) 48 9)) ∧
    (∃ (g : Fin 8) (p : Probe) (c : Ctx) (s : State), s.rb .site (c.rcd.f 0 0 3) Off.capStat 2 = true ∧ s.rb .site
      (c.rcd.f 0 0 3) Off.capStat 1 = false ∧ s.rd2 .site (c.rcd.f 0 0 3) Off.capWptrLo Off.capWptrHi = 16 ∧ s.hayOk
      (c.rcd.owner) (s.seq (c.rcd.f 0 0 3)).cfg.capBase 16 = true ∧ s.romRuns g c 0x3B 1 p = true ∧ (nfld (s.hayGet
      (c.rcd.owner) (s.seq (c.rcd.f 0 0 3)).cfg.capBase 16) 48 9 < c.rcd.f 1 0 9 ∨ c.rcd.f 1 16 9 < nfld (s.hayGet
      (c.rcd.owner) (s.seq (c.rcd.f 0 0 3)).cfg.capBase 16) 48 9)) :=
  ⟨⟨3, pr, ctxAt 0x30 0 [0x10009, 0, 1] [], running (ctxAt 0x30 0 [0x10009, 0, 1] []) ((State.ringAt m4 9 1 1 0).hayPut 15
      0x2000 32 0x1000000000_00000001), by decide +kernel⟩,
    ⟨3, pr, ctxAt 0x31 0 [0x10009, 0, 1] [], running (ctxAt 0x31 0 [0x10009, 0, 1] []) ((State.ringAt m4 9 1 1 0).hayPut
      15 0x2000 32 2), by decide +kernel⟩,
    ⟨3, pr, ctxAt 0x32 0 [0x10009, 0, 1] [], running (ctxAt 0x32 0 [0x10009, 0, 1] []) ((State.ringAt m4 9 1 1 0).hayPut
      15 0x2000 32 1), by decide +kernel⟩,
    ⟨3, pr, ctxAt 0x37 0 [0x10009, 0, 1] [], running (ctxAt 0x37 0 [0x10009, 0, 1] []) ((State.ringAt m4 9 1 1 0).hayPut
      15 0x2000 32 1), by decide +kernel⟩,
    ⟨3, pr, ctxAt 0x3E 0 [0x10009, 0, 1, 0x3000] [], running (ctxAt 0x3E 0 [0x10009, 0, 1, 0x3000] []) ((State.ringAt m4 9
      1 1 0).hayPut 15 0x2000 32 1), by decide +kernel⟩,
    ⟨3, pr, ctxAt 0x33 0 [0x10009, 0, 0x3000] [], running (ctxAt 0x33 0 [0x10009, 0, 0x3000] []) ((State.ringAt m4 9 1 1
      0).hayPut 15 0x2000 32 0x100000000001), by decide +kernel⟩,
    ⟨3, pr, ctxAt 0x35 0 [0x10009, 0, 0x3000] [], running (ctxAt 0x35 0 [0x10009, 0, 0x3000] []) ((State.ringAt m4 9 1 1
      0).hayPut 15 0x2000 32 0x100000000001), by decide +kernel⟩,
    ⟨3, pr, ctxAt 0x3D 0 [0x10009, 0, 0x3000] [], running (ctxAt 0x3D 0 [0x10009, 0, 0x3000] []) ((State.ringAt m4 9 1 1
      0).hayPut 15 0x2000 32 1), by decide +kernel⟩,
    ⟨3, pr, ctxAt 0x34 0 [0x1000, 0, 0, 0x3000] [], running (ctxAt 0x34 0 [0x1000, 0, 0, 0x3000] []) (m4),
      by decide +kernel⟩,
    ⟨3, pr, ctxAt 0x36 0 [0x1000, 0, 0x3000, 0, 0] [], running (ctxAt 0x36 0 [0x1000, 0, 0x3000, 0, 0] []) (m4.hayPut 15
      0x1000 4 7), by decide +kernel⟩,
    ⟨3, pr, ctxAt 0x3C 0 [0x1000, 0, 0x3000, 0, 0] [], running (ctxAt 0x3C 0 [0x1000, 0, 0x3000, 0, 0] []) (m4),
      by decide +kernel⟩,
    ⟨3, pr, ctxAt 0x3F 0 [1] [], running (ctxAt 0x3F 0 [1] []) (measIn .m9 0), by decide +kernel⟩,
    ⟨3, pr, ctxAt 0x38 1 [1, 0, 0x3000] [0, 0, 0, 0], running (ctxAt 0x38 1 [1, 0, 0x3000] [0, 0, 0, 0]) (((measIn .m9
      0).put [(.site, 1, Off.capStat, 4), (.site, 1, Off.capWptrLo, 16)])), by decide +kernel⟩,
    ⟨3, pr, ctxAt 0x39 1 [1, 0, 0x3000, 0, 0x304] [0, 0, 0, 0], running (ctxAt 0x39 1 [1, 0, 0x3000, 0, 0x304] [0, 0, 0,
      0]) (((measIn .m9 0).put [(.site, 1, Off.capStat, 4), (.site, 1, Off.capWptrLo, 16)])), by decide +kernel⟩,
    ⟨3, pr, ctxAt 0x3A 1 [1, 1] [0, 0, 0, 0], running (ctxAt 0x3A 1 [1, 1] [0, 0, 0, 0]) (((measIn .m9 0).put [(.site, 1,
      Off.capStat, 4), (.site, 1, Off.capWptrLo, 16)]).hayPut 15 0 16 0), by decide +kernel⟩,
    ⟨3, pr, ctxAt 0x3B 1 [1, 1] [0, 0, 0, 0], running (ctxAt 0x3B 1 [1, 1] [0, 0, 0, 0]) (((measIn .m9 0).put [(.site, 1,
      Off.capStat, 4), (.site, 1, Off.capWptrLo, 16)]).hayPut 15 0 16 0), by decide +kernel⟩⟩

/-- The hypotheses of MaintenanceAndRecordServicesAnswer are met. -/
theorem witness_maintenanceAndRecordServicesAnswer :
    (∃ (g : Fin 8) (p : Probe) (c : Ctx) (st : Fin 128) (i : Fin 16) (s : State), c.rcd.selects st (2 ^ i.val) 16 = true ∧
      s.ownerOf .stl st = c.rcd.owner ∧ s.romRuns g c 0x25 0 p = true ∧ (s.reach15 c.rcd.op p.addr.toNat).takes ((.groom g
      : Requester)) (PageKind.wch.base st + Off.wchThr i) (word (c.rcd.p 1)) = true ∧ ((s.reach15 c.rcd.op
      p.addr.toNat).write32 ((.groom g : Requester)) (PageKind.wch.base st + Off.wchThr i) (word (c.rcd.p 1))).takes
      ((.groom g : Requester)) (PageKind.wch.base st + Off.wchCfg i) (word (c.rcd.p 2)) = true) ∧
    (∃ (g : Fin 8) (p : Probe) (c : Ctx) (st : Fin 128) (i : Fin 16) (s : State), c.rcd.selects st (2 ^ i.val) 16 = true ∧
      s.ownerOf .stl st = c.rcd.owner ∧ s.romRuns g c 0x26 3 p = true ∧ c.items = [] ∧ max 10 (if s.rb .wch st Off.wchCtrl
      0 then 2 * s.rf .wch st Off.wchTick 0 17 else 10) * 3200 ≤ s.now - c.t 0) ∧
    (∃ (g : Fin 8) (p : Probe) (c : Ctx) (s : State), s.romRuns g c 0x40 1 p = true ∧ s.rb .far 0 Off.farResultLo 16 =
      true) ∧
    (∃ (g : Fin 8) (p : Probe) (c : Ctx) (s : State), s.romRuns g c 0x41 1 p = true ∧ s.rb .tak 0 Off.takStoreResult 16 =
      true) ∧
    (∃ (g : Fin 8) (p : Probe) (c : Ctx) (s : State), s.romRuns g c 0x42 0 p = true ∧ (fun k => s.reach (.groom g) k 0 =
      .full ∧ s.rb k 0 Off.pgCtrl 1 = false ∧ s.locked k 0 = false) .lan ∧ s.inRegion (c.rcd.owner) anyKind (c.rcd.hay 0)
      24576 = true) ∧
    (∃ (g : Fin 8) (p : Probe) (c : Ctx) (s : State), s.romRuns g c 0x43 0 p = true ∧ (fun k => s.reach (.groom g) k 0 =
      .full ∧ s.rb k 0 Off.pgCtrl 1 = false ∧ s.locked k 0 = false) .wvn ∧ s.inRegion (c.rcd.owner) anyKind (c.rcd.hay 0)
      384 = true) ∧
    (∃ (g : Fin 8) (p : Probe) (c : Ctx) (s : State), s.romRuns g c 0x44 0 p = true ∧ (fun k => s.reach (.groom g) k 0 =
      .full ∧ s.rb k 0 Off.pgCtrl 1 = false ∧ s.locked k 0 = false) .lan ∧ s.inRegion (c.rcd.owner) anyKind (c.rcd.hay 0)
      4096 = true) ∧
    (∃ (g : Fin 8) (p : Probe) (c : Ctx) (s : State), s.romRuns g c 0x45 0 p = true) ∧
    (∃ (g : Fin 8) (p : Probe) (c : Ctx) (s : State), s.romRuns g c 0x46 0 p = true ∧ c.rcd.hay 0 + c.rcd.p 4 ≤ hayEnd ∧
      s.hay.poison = [] ∧ p.inp = []) ∧
    (∃ (g : Fin 8) (p : Probe) (c : Ctx) (s : State), s.romRuns g c 0x47 0 p = true ∧ p.inp = []) ∧
    (∃ (g : Fin 8) (p : Probe) (c : Ctx) (s : State), s.romRuns g c 0x48 0 p = true ∧ s.inRegion (c.rcd.owner) anyKind
      (c.rcd.hay 0) (32 * c.rcd.p 2) = true) ∧
    (∃ (g : Fin 8) (p : Probe) (c : Ctx) (s : State), s.romRuns g c 0x4A 0 p = true ∧ (Store.get? s.cluster.results
      (ownerIx (c.rcd.owner) * 2 ^ 16 + c.rcd.f 0 0 16)) = some (c.rcd.f 1 0 8) ∧ s.inRegion (c.rcd.owner) anyKind
      (c.rcd.hay 2) (32 * c.rcd.p 4) = true) ∧
    (∃ (g : Fin 8) (p : Probe) (c : Ctx) (s : State), s.romRuns g c 0x4A 0 p = true ∧ (Store.get? s.cluster.results
      (ownerIx (c.rcd.owner) * 2 ^ 16 + c.rcd.f 0 0 16)) = none) ∧
    (∃ (g : Fin 8) (p : Probe) (c : Ctx) (s : State), s.romRuns g c 0x49 0 p = true ∧ (∀ d ∈ s.ctxs, d.rcd.owner =
      c.rcd.owner → c.serial ≤ d.serial)) ∧
    (∃ (g : Fin 8) (p : Probe) (c : Ctx) (s : State), s.romRuns g c 0x4B 0 p = true ∧ s.ringOwner (c.rcd.f 0 0 15) =
      (c.rcd.owner)) ∧
    (∃ (g : Fin 8) (p : Probe) (c : Ctx) (s : State), s.romRuns g c 0x4C 0 p = true ∧ s.ringOwner (c.rcd.f 1 0 15) =
      (c.rcd.owner)) ∧
    (∃ (g : Fin 8) (p : Probe) (c : Ctx) (s : State), s.romRuns g c 0x4D 0 p = true) ∧
    (∃ (g : Fin 8) (p : Probe) (c : Ctx) (s : State), s.romRuns g c 0x4E 0 p = true) ∧
    (∃ (g : Fin 8) (p : Probe) (c : Ctx) (s : State), s.romRuns g c 0x4F 1 p = true ∧ s.rb .site (c.rcd.f 0 0 3)
      Off.capStat 2 = true ∧ s.seqPosted (c.rcd.f 0 0 3) = true) :=
  ⟨⟨3, pr, ctxAt 0x25 0 [0x80303, 0x0FFF, 0x100] [], 3, 3, running (ctxAt 0x25 0 [0x80303, 0x0FFF, 0x100] []) (measIn .m9 3),
      by decide +kernel⟩,
    ⟨3, pr, ctxAt 0x26 3 [0x80303] [0], 3, 3, running (ctxAt 0x26 3 [0x80303] [0]) ({ measIn .m9 3 with now := 32000 }),
      by decide +kernel⟩,
    ⟨3, pr, ctxAt 0x40 1 [0] [0], running (ctxAt 0x40 1 [0] [0]) (m4.put [(.far, 0, Off.farResultLo, 0x10001)]),
      by decide +kernel⟩,
    ⟨3, pr, ctxAt 0x41 1 [0] [0], running (ctxAt 0x41 1 [0] [0]) (m4.put [(.tak, 0, Off.takStoreResult, 0x10001)]),
      by decide +kernel⟩,
    ⟨3, pr, ctxAt 0x42 0 [0x10000] [0], running (ctxAt 0x42 0 [0x10000] [0]) (m4), by decide +kernel⟩,
    ⟨3, pr, ctxAt 0x43 0 [0x10000] [0], running (ctxAt 0x43 0 [0x10000] [0]) (m4), by decide +kernel⟩,
    ⟨3, pr, ctxAt 0x44 0 [0x10000] [0], running (ctxAt 0x44 0 [0x10000] [0]) (m4), by decide +kernel⟩,
    ⟨3, pr, ctxAt 0x45 0 [7] [0], running (ctxAt 0x45 0 [7] [0]) (m4), by decide +kernel⟩,
    ⟨3, pr, ctxAt 0x46 0 [0x1000, 0, 0, 0, 64] [0], running (ctxAt 0x46 0 [0x1000, 0, 0, 0, 64] [0]) (m4),
      by decide +kernel⟩,
    ⟨3, pr, ctxAt 0x47 0 [] [0], running (ctxAt 0x47 0 [] [0]) (m4), by decide +kernel⟩,
    ⟨3, pr, ctxAt 0x48 0 [0x1000, 0, 2] [0], running (ctxAt 0x48 0 [0x1000, 0, 2] [0]) (m4), by decide +kernel⟩,
    ⟨3, pr, ctxAt 0x4A 0 [5, 3, 0x1000, 0, 2] [0], running (ctxAt 0x4A 0 [5, 3, 0x1000, 0, 2] [0])
      ({ m4 with cluster := { m4.cluster with results := [(8 * 2 ^ 16 + 5, 3)] } }), by decide +kernel⟩,
    ⟨3, pr, ctxAt 0x4A 0 [5, 3, 0x1000, 0, 2] [0], running (ctxAt 0x4A 0 [5, 3, 0x1000, 0, 2] [0]) (m4),
      by decide +kernel⟩,
    ⟨3, pr, ctxAt 0x49 0 [] [0], running (ctxAt 0x49 0 [] [0]) (m4), by decide +kernel⟩,
    ⟨3, pr, ctxAt 0x4B 0 [9] [0], running (ctxAt 0x4B 0 [9] [0]) (State.ringAt m4 9 1 1 0), by decide +kernel⟩,
    ⟨3, pr, ctxAt 0x4C 0 [5, 9] [0], running (ctxAt 0x4C 0 [5, 9] [0]) (State.ringAt m4 9 1 1 0), by decide +kernel⟩,
    ⟨3, pr, ctxAt 0x4D 0 [5, 9] [0], running (ctxAt 0x4D 0 [5, 9] [0]) (m4), by decide +kernel⟩,
    ⟨3, pr, ctxAt 0x4E 0 [5, 9] [0], running (ctxAt 0x4E 0 [5, 9] [0]) (m4), by decide +kernel⟩,
    ⟨3, pr, ctxAt 0x4F 1 [1] [0], running (ctxAt 0x4F 1 [1] [0]) (((measIn .m9 0).put [(.site, 1, Off.capStat, 4), (.site,
      1, Off.capWptrLo, 16)])), by decide +kernel⟩⟩

/-- The hypotheses of GroomsTakeAndEndRecords are met. -/
theorem witness_groomsTakeAndEndRecords :
    (∃ (g : Fin 8) (s : State), (s.groom g).chains = []) ∧
    (∃ (g : Fin 8) (n : Fin 32768) (r : Record) (s : State), s.headRecord n = some r ∧ r.cancel = false ∧ s.mayTake g r =
      true ∧ 0x50 ≤ r.op ∧ r.op < 0x60 ∧
      ({ (s.takeHead n).saveCtx g with cluster := { s.cluster with serial := s.cluster.serial + 1 } } : State).check r =
      .pass) ∧
    (∃ (g : Fin 8) (n : Fin 32768) (r : Record) (s : State), s.headRecord n = some r ∧ r.cancel = false ∧ s.mayTake g r =
      true ∧ 0x5F < r.op ∧ s.groomIdle g = true ∧ s.ringOwner r.rring = r.owner ∧ s.mode.dev ≠ .m11) ∧
    (∃ (g : Fin 8) (n : Fin 32768) (r : Record) (s : State), s.headRecord n = some r ∧ r.cancel = true ∧ s.mayTake g r =
      true ∧ s.groomIdle g = true ∧ s.ringOwner r.rring = r.owner ∧ s.mode.dev ≠ .m11) ∧
    (∃ (g : Fin 8) (c : Ctx) (s : State), (s.groom g).ctx = some c) ∧
    (∃ (r : Requester) (g : Fin 8) (en : Bool) (s : State), s.accepts r .grm 0 Off.grmCtrl (putBit (s.rd .grm 0
      Off.grmCtrl) g en) = true) ∧
    (∃ (used : List (Fin 101)), used.length = 9) :=
  ⟨⟨3, holds uctx, by decide +kernel⟩,
    ⟨3, 40, recordOf 15 40 0 (entryOf 0x50 0 9),
      { cmdRing (entryOf 0x50 0 9) with cluster := { m4.cluster with patchDisp := [(0x50, 0xC0004000)] } },
      by decide +kernel⟩,
    ⟨3, 40, recordOf 15 40 0 (entryOf 0x60 0 9), cmdRing (entryOf 0x60 0 9), by decide +kernel⟩,
    ⟨3, 40, recordOf 15 40 0 (entryOf 0 4 9), cmdRing (entryOf 0 4 9), by decide +kernel⟩,
    ⟨3, uctx, holds uctx, by decide +kernel⟩,
    ⟨sup, 3, true, m4, by decide +kernel⟩,
    ⟨[1, 2, 3, 4, 5, 6, 7, 8, 100], by decide +kernel⟩⟩

/-- The hypotheses of MicrowordsActOnTheRoutine are met. -/
theorem witness_microwordsActOnTheRoutine :
    (∃ (g : Fin 8) (c : Ctx) (w : Nat) (s : State), s.fetches g c w = true ∧ fmtOf w = 0) ∧
    (∃ (g : Fin 8) (c : Ctx) (w : Nat) (s : State), s.fetches g c w = true ∧ fmtOf w = 1) ∧
    (∃ (g : Fin 8) (c : Ctx) (w : Nat) (s : State), s.fetches g c w = true ∧ fmtOf w = 6) ∧
    (∃ (g : Fin 8) (c : Ctx) (w : Nat) (s : State), s.fetches g c w = true ∧ fmtOf w = 7) ∧
    (∃ (g : Fin 8) (c : Ctx) (w : Nat) (s : State), s.fetches g c w = true ∧ fmtOf w = 8 ∧ c.stack.length < 8) ∧
    (∃ (g : Fin 8) (c : Ctx) (w : Nat) (s : State), s.fetches g c w = true ∧ isCtl 0 w = true ∧ c.stack ≠ []) ∧
    (∃ (g : Fin 8) (c : Ctx) (w : Nat) (s : State), s.fetches g c w = true ∧ isCtl 4 w = true) ∧
    (∃ (g : Fin 8) (c : Ctx) (w : Nat) (s : State), s.fetches g c w = true ∧ fmtOf w = 2 ∧ c.staged = [] ∧ s.reaches
      (.groom g) (c.address w) = true ∧ (c.address w) % 4 = 0) ∧
    (∃ (g : Fin 8) (c : Ctx) (w : Nat) (s : State), s.fetches g c w = true ∧ fmtOf w = 3 ∧ c.staged.length < 64) ∧
    (∃ (g : Fin 8) (c : Ctx) (w : Nat) (s : State), s.fetches g c w = true ∧ fmtOf w = 4 ∧ s.trainPause = false ∧ s.hayOk
      (c.rcd.owner) (c.hreg (nfld w 12 2)) 4 = true) ∧
    (∃ (g : Fin 8) (c : Ctx) (w : Nat) (s : State), s.fetches g c w = true ∧ fmtOf w = 5 ∧ s.trainPause = false ∧ s.hayOk
      (c.rcd.owner) (c.hreg (nfld w 12 2)) 4 = true) :=
  ⟨⟨3, uctx, 0x841, micro (uctx) (0x841) (m4), by decide +kernel⟩,
    ⟨3, uctx, 2 ^ 18 + 2 ^ 15 + 0x123, micro (uctx) (2 ^ 18 + 2 ^ 15 + 0x123) (m4), by decide +kernel⟩,
    ⟨3, uctx, 6 * 2 ^ 18 + 2 ^ 15 + 2 ^ 11, micro (uctx) (6 * 2 ^ 18 + 2 ^ 15 + 2 ^ 11) (m4), by decide +kernel⟩,
    ⟨3, uctx, 7 * 2 ^ 18 + 0x4005, micro (uctx) (7 * 2 ^ 18 + 0x4005) (m4), by decide +kernel⟩,
    ⟨3, { uctx with stack := [1, 2, 3, 4, 5, 6, 7] }, 8 * 2 ^ 18 + 0x4005, micro
      ({ uctx with stack := [1, 2, 3, 4, 5, 6, 7] }) (8 * 2 ^ 18 + 0x4005) (m4), by decide +kernel⟩,
    ⟨3, { uctx with stack := [1, 2, 3, 4, 5, 6, 7] }, 9 * 2 ^ 18, micro ({ uctx with stack := [1, 2, 3, 4, 5, 6, 7] }) (9
      * 2 ^ 18) (m4), by decide +kernel⟩,
    ⟨3, uctx, 9 * 2 ^ 18 + 4 * 2 ^ 14 + 5, micro (uctx) (9 * 2 ^ 18 + 4 * 2 ^ 14 + 5) (m4), by decide +kernel⟩,
    ⟨3, { uctx with a := [(0, word (PageKind.lvl.base 3))] }, 2 * 2 ^ 18 + 2 ^ 14 + 4 * 0x20, micro
      ({ uctx with a := [(0, word (PageKind.lvl.base 3))] }) (2 * 2 ^ 18 + 2 ^ 14 + 4 * 0x20) (on 3), by decide +kernel⟩,
    ⟨3, { uctx with a := [(0, word (PageKind.lvl.base 3))] }, 3 * 2 ^ 18 + 2 ^ 14 + 4 * 0x20, micro
      ({ uctx with a := [(0, word (PageKind.lvl.base 3))] }) (3 * 2 ^ 18 + 2 ^ 14 + 4 * 0x20) (on 3), by decide +kernel⟩,
    ⟨3, { uctx with h := [(0, 0x1000)] }, 4 * 2 ^ 18 + 2 ^ 14 + 2 ^ 11, micro ({ uctx with h := [(0, 0x1000)] }) (4 * 2 ^
      18 + 2 ^ 14 + 2 ^ 11) (m4.hayPut 15 0x1000 4 0x12345678), by decide +kernel⟩,
    ⟨3, { uctx with h := [(0, 0x1000)] }, 5 * 2 ^ 18 + 2 ^ 14 + 2 ^ 11, micro ({ uctx with h := [(0, 0x1000)] }) (5 * 2 ^
      18 + 2 ^ 14 + 2 ^ 11) (m4.hayPut 15 0x1000 4 0x12345678), by decide +kernel⟩⟩

/-- The hypotheses of YieldPointsCommitAndGoOn are met. -/
theorem witness_yieldPointsCommitAndGoOn :
    (∃ (g : Fin 8) (c : Ctx) (w : Nat) (s : State), s.fetches g c w = true ∧ c.clean = true ∧ isCtl 1 w = true) ∧
    (∃ (g : Fin 8) (c : Ctx) (w : Nat) (s : State), s.fetches g c w = true ∧ c.clean = true ∧ isCtl 2 w = true) ∧
    (∃ (g : Fin 8) (c : Ctx) (w : Nat) (s : State), s.fetches g c w = true ∧ c.clean = true ∧ isCtl 3 w = true) ∧
    (∃ (g : Fin 8) (c : Ctx) (w : Nat) (s : State), s.fetches g c w = true ∧ c.clean = true ∧ isCtl 5 w = true) ∧
    (∃ (g : Fin 8) (c : Ctx) (s : State), (s.groom g).ctx = some c ∧ c.clean = true ∧ c.after = .commit ∧ c.staged = []) ∧
    (∃ (g : Fin 8) (c : Ctx) (s : State) (a : Nat) (v : Word), (s.groom g).ctx = some c ∧ c.clean = true ∧ c.after =
      .commit ∧ c.staged = [(a, v)] ∧ a % 4 = 0 ∧ s.takes (.groom g) a v = true) ∧
    (∃ (g : Fin 8) (c : Ctx) (s : State) (st : Nat), (s.groom g).ctx = some c ∧ c.clean = true ∧ c.after = .commitEnd st ∧
      c.staged = [] ∧ (s.groom g).chains = []) ∧
    (∃ (g : Fin 8) (c : Ctx) (s : State), (s.groom g).ctx = some c ∧ c.after = .asleep ∧ c.abort = false) ∧
    (∃ (g : Fin 8) (i : Fin 4) (c : Ctx) (l : List Chain) (s : State), s.groomIdle g = true ∧ (s.groom g).saved[i.val]? =
      some (c, l) ∧ c.abort = false) :=
  ⟨⟨3, uctx, 9 * 2 ^ 18 + 2 ^ 14, micro (uctx) (9 * 2 ^ 18 + 2 ^ 14) (m4), by decide +kernel⟩,
    ⟨3, uctx, 9 * 2 ^ 18 + 2 * 2 ^ 14 + 0x85, micro (uctx) (9 * 2 ^ 18 + 2 * 2 ^ 14 + 0x85) (m4), by decide +kernel⟩,
    ⟨3, uctx, 9 * 2 ^ 18 + 3 * 2 ^ 14 + 0x85, micro (uctx) (9 * 2 ^ 18 + 3 * 2 ^ 14 + 0x85) (m4), by decide +kernel⟩,
    ⟨3, uctx, 9 * 2 ^ 18 + 5 * 2 ^ 14 + 0x85, micro (uctx) (9 * 2 ^ 18 + 5 * 2 ^ 14 + 0x85) (m4), by decide +kernel⟩,
    ⟨3, { uctx with after := .commit }, holds { uctx with after := .commit }, by decide +kernel⟩,
    ⟨3, { uctx with after := .commit, staged := [(PageKind.lvl.base 3 + Off.lvlPre 2 1, 0x7000)] }, (on 3).setCtx 3
      { uctx with after := .commit, staged := [(PageKind.lvl.base 3 + Off.lvlPre 2 1, 0x7000)] }, PageKind.lvl.base 3 +
      Off.lvlPre 2 1, 0x7000, by decide +kernel⟩,
    ⟨3, { uctx with after := .commitEnd 0x85 }, holds { uctx with after := .commitEnd 0x85 }, 0x85, by decide +kernel⟩,
    ⟨3, { uctx with after := .asleep, tmp := [10, 2] }, holds { uctx with after := .asleep, tmp := [10, 2] },
      by decide +kernel⟩,
    ⟨3, 0, uctx, [], m4.setGroom 3 { GroomSt.idle with saved := [(uctx, [])] }, by decide +kernel⟩⟩

/-- The hypotheses of RingCommandsTakeEffect are met. -/
theorem witness_ringCommandsTakeEffect :
    (∃ (r : Requester) (n : Fin 32768) (s : State), s.reachRing r n = true ∧ s.ringPolicy n ≠ 3 ∧ 8 ≤ s.ringLog2 n ∧
      s.ringLog2 n ≤ 30 ∧ s.ringEn n = false ∧ s.ringBase n % 2 ^ s.ringLog2 n = 0 ∧ s.inRegion (s.ringOwner n) anyKind
      (s.ringBase n) (2 ^ s.ringLog2 n) = true) ∧
    (∃ (r : Requester) (n : Fin 32768) (s : State), s.reachRing r n = true ∧ s.ringPolicy n ≠ 3 ∧ 8 ≤ s.ringLog2 n ∧
      s.ringLog2 n ≤ 30 ∧ s.ringEn n = true) ∧
    (∃ (f : Fin 18) (n : Fin 32768) (v : Word) (s : State), s.reachRing (.fn f) n = true ∧ s.ringEn n = true ∧ s.ringIn n
      = true ∧ (v.toNat + 2 ^ 32 - s.pidx n) % 2 ^ 32 ≤ (s.cidx n + s.ringCap n + 2 ^ 32 - s.pidx n) % 2 ^ 32) ∧
    (∃ (f : Fin 18) (n : Fin 32768) (v : Word) (s : State), s.reachRing (.fn f) n = true ∧ s.ringEn n = true ∧ s.ringIn n
      = false ∧ (v.toNat + 2 ^ 32 - s.cidx n) % 2 ^ 32 ≤ (s.pidx n + 2 ^ 32 - s.cidx n) % 2 ^ 32) ∧
    (∃ (n : Fin 32768) (h : Held) (tl : List Held) (s : State), (s.ring n).held = h :: tl ∧ (∀ b, h.prod ≠ .acq b) ∧
      s.ringEn n = true ∧ s.ringIn n = false ∧ s.ringFull n = false ∧ s.ringPaused = false) ∧
    (∃ (n : Fin 32768) (a : Nat) (e : Nat) (s : State), s.headEntry n = some (a, e) ∧ e % 256 ≠ 0x0A ∧ s.poisoned a 32 =
      false ∧ (s.ring n).cancelled = []) ∧
    (∃ (g : Fin 8) (n : Fin 32768) (o : Nat) (h : Held) (x : RingSt) (s : State), s.rings = [(n.val, x)] ∧ x.held = [h] ∧
      h.prod = .groom g o) ∧
    (∃ (n : Fin 32768) (s : State), s.ringEn n = true ∧ s.ringF n Off.rngCtrl 16 1 = 1 ∧ s.ringF n Off.rngMod 16 16 ≠ 0 ∧
      0 < (s.ring n).since) ∧
    (∃ (r : Requester) (owner : Fin 16) (n : Nat) (s : State), s.accepts r .rng 0 Off.rngAsgCmd (word (2 ^ 31 + owner)) =
      true ∧ (owner.val < 8 ∨ owner.val = 15) ∧ s.pageEn .rng 0 = true ∧ (s.enabledRings.any fun m => decide (s.rf .rng 0
      Off.rngAsgRange 0 15 ≤ m) && decide (m ≤ s.rf .rng 0 Off.rngAsgRange 16 15)) = false ∧ s.ownerInM4 owner = true ∧ (∀
      m ∈ List.range' (s.rf .rng 0 Off.rngAsgRange 0 15) (s.rf .rng 0 Off.rngAsgRange 16 15 + 1 - s.rf .rng 0
      Off.rngAsgRange 0 15), s.ownerInM4 (s.ringOwner m) = true) ∧ s.rf .rng 0 Off.rngAsgRange 0 15 ≤ n ∧ n ≤ s.rf .rng 0
      Off.rngAsgRange 16 15) :=
  ⟨⟨sup, 40, ({ State.ringAt m4 40 0 9 5 with regions := [(0, ⟨0, 0xF, 15, 1, true⟩)] }), by decide +kernel⟩,
    ⟨sup, 40, cmdRing 0, by decide +kernel⟩,
    ⟨0, 40, 8, cmdRing 0, by decide +kernel⟩,
    ⟨0, 40, 1, State.ringAt m4 40 1 1 0, by decide +kernel⟩,
    ⟨40, ⟨.groom 3 15, 5, 9⟩, [], (State.ringAt m4 40 1 1 0).setRing 40
      { RingSt.idle with held := [⟨.groom 3 15, 5, 9⟩] }, by decide +kernel, by intro b; simp, by decide +kernel⟩,
    ⟨40, 0x2000, 5, cmdRing 5, by decide +kernel⟩,
    ⟨3, 40, 15, ⟨.groom 3 15, 5, 9⟩, { RingSt.idle with held := [⟨.groom 3 15, 5, 9⟩] }, (State.ringAt m4 40 1 0xFFFFFFFF
      0xFFFFFFF7).setRing 40 { RingSt.idle with held := [⟨.groom 3 15, 5, 9⟩] }, by decide +kernel⟩,
    ⟨40, ((State.ringAt m4 40 0x10001 1 0).setReg (ringAddr 40 Off.rngMod) 0x10000).setRing 40
      { RingSt.idle with since := 1 }, by decide +kernel⟩,
    ⟨sup, 3, 100, m4.put [(.rng, 0, Off.pgCtrl, 1), (.rng, 0, Off.rngAsgRange, 0x640063)], by decide +kernel⟩⟩

/-- The hypotheses of HayloftControllerCommandsTakeEffect are met. -/
theorem witness_hayloftControllerCommandsTakeEffect :
    (∃ (r : Requester) (s : State), s.accepts r .hbm 0 Off.hbmCtrl (putBit (s.rd .hbm 0 Off.hbmCtrl) 0 true) = true ∧ s.rf
      .hbm 0 Off.hbmCtrl 8 8 ≠ 0 ∧ s.rb .hbm 0 Off.hbmCtrl 0 = false ∧ s.pageEn .hbm 0 = true ∧ s.mode.dev = .m4 ∧
      s.domainsInM4 = true ∧ s.enabledRings = [] ∧ s.groomBusy = false ∧ s.hbmBit 8 = false) ∧
    (∃ (s : State), s.rb .hbm 0 Off.hbmCtrl 0 = true) ∧
    (∃ (r : Requester) (p : Fin 4) (s : State), s.accepts r .hbm 0 Off.hbmRateCmd (word p) = true ∧ p.val ≠ 3 ∧ s.pageEn
      .hbm 0 = true ∧ s.mode.dev = .m4 ∧ s.hbmBit 8 = false ∧ s.ratePoint ≠ p ∧ s.hbmBit 10 = false ∧ s.hbm.tracking =
      false ∧ s.rtActive = false ∧ s.rateTrained p = true) ∧
    (∃ (p : Fin 3) (s : State), s.hbm.want = some p.val ∧ s.hbmBit 9 = false ∧ s.rateTrained p = true) ∧
    (∃ (p : Fin 3) (s : State), s.hbm.heldRate = some p.val ∧ s.hbmBit 10 = false ∧ s.hbm.tracking = false ∧ s.ratePoint =
      p) ∧
    (∃ (p : Fin 3) (w : Fin 3) (s : State), s.hbm.heldRate = some p.val ∧ s.hbm.want = some w.val ∧ s.hbmBit 10 = true ∧
      s.hbmBit 9 = true ∧ s.hbm.tracking = false ∧ s.rtActive = false ∧ s.rateTrained p = true ∧ w ≠ p) ∧
    (∃ (pc : Fin 32) (s : State), s.hbmBit 11 = false ∧ s.debt pc ≤ 8) ∧
    (∃ (pc : Fin 32) (s : State), s.hbmBit 11 = false ∧ s.debt pc ≤ 8 ∧ s.hbmBit 10 = false) ∧
    (∃ (pc : Fin 32) (s : State), s.hbmBit 11 = false ∧ s.debt pc ≤ 8 ∧ s.hbmBit 10 = false ∧ s.debt pc ≠ 0) ∧
    (∃ (pc : Fin 32) (s : State), s.hbmBit 11 = false ∧ s.debt pc ≤ 8 ∧ s.hbmBit 10 = false ∧ s.debt pc = 8) ∧
    (∃ (r : Requester) (i : Fin 16) (e : Nat × Bool) (s : State), s.accepts r .hbm 0 Off.hbmRepairCmd (word (2 ^ 31 + i))
      = true ∧ s.hbm.repairing = none ∧ s.pageEn .hbm 0 = true ∧ s.mode.dev = .m4 ∧ s.rtActive = false ∧
      s.hay.rowLog[i.val]? = some e ∧ Store.getD (fun _ => 0) s.hbm.spares (e.1 / 2 ^ 15) < 2) ∧
    (∃ (i : Nat) (e : Nat × Bool) (s : State), s.hbm.repairing = some i ∧ s.hay.rowLog[i]? = some e) :=
  ⟨⟨sup, m4.put [(.hbm, 0, Off.pgCtrl, 1), (.hbm, 0, Off.hbmCtrl, 0xFF00)], by decide +kernel⟩,
    ⟨{ (m4.hayPut 15 0 4 7).put [(.hbm, 0, Off.hbmCtrl, 0xFF01)] with hbm := { m4.hbm with mapDue := List.replicate 10 3 } },
      by decide +kernel⟩,
    ⟨sup, 1, m4.put [(.hbm, 0, Off.pgCtrl, 1), (.hbm, 0, Off.hbmStat, 0x27F)], by decide +kernel⟩,
    ⟨1, { m4.put [(.hbm, 0, Off.pgCtrl, 1), (.hbm, 0, Off.hbmStat, 0x47F)] with hbm := { m4.hbm with want := some 1 } },
      by decide +kernel⟩,
    ⟨2,
      { m4.put [(.hbm, 0, Off.pgCtrl, 1), (.hbm, 0, Off.hbmStat, 0x17E)] with hbm := { m4.hbm with heldRate := some 2 } },
      by decide +kernel⟩,
    ⟨1, 2,
      { m4.put [(.hbm, 0, Off.pgCtrl, 1), (.hbm, 0, Off.hbmStat, 0x730)] with hbm := { m4.hbm with heldRate := some 1, want := some 2, training := true } },
      by decide +kernel⟩,
    ⟨31, { m4 with hbm := { m4.hbm with debts := [(31, 8)] } }, by decide +kernel⟩,
    ⟨31, { m4 with hbm := { m4.hbm with debts := [(31, 4)] } }, by decide +kernel⟩,
    ⟨31, { m4 with hbm := { m4.hbm with debts := [(31, 8)] } }, by decide +kernel⟩,
    ⟨31, { m4 with hbm := { m4.hbm with debts := [(31, 8)] } }, by decide +kernel⟩,
    ⟨sup, 0, (7, false), { m4.put [(.hbm, 0, Off.pgCtrl, 1)] with hay := { m4.hay with rowLog := [(7, false)] } },
      by decide +kernel⟩,
    ⟨0, (7, false),
      { m4.put [(.hbm, 0, Off.pgCtrl, 1)] with hay := { m4.hay with rowLog := [(7, false)] }, hbm := { m4.hbm with repairing := some 0 } },
      by decide +kernel⟩⟩

/-- The hypotheses of PowerAndResetPinsTakeEffect are met. -/
theorem witness_powerAndResetPinsTakeEffect :
    (∃ (s : State), s.pins.vin = false) ∧
    (∃ (s : State), s.pins.vin = true) ∧
    (∃ (s : State), s.pins.resetN = false ∧ s.rst.choreLost = false) ∧
    (∃ (s : State), s.pins.resetN = false ∧ s.rst.choreLost = true) ∧
    (∃ (s : State), s.pins.resetN = true) ∧
    (∃ (s : State), s.pins.perstN = false) ∧
    (∃ (s : State), s.pins.perstN = true) ∧
    (∃ (i : Fin 12) (s : State), s.rb .rst 0 Off.rstIslPend i = true) :=
  ⟨⟨{ State.reset with mode := { State.reset.mode with dev := .m1 }, pins := { State.reset.pins with vin := false } },
      by decide +kernel⟩,
    ⟨m4.hayPut 15 0 4 7, by decide +kernel⟩,
    ⟨m4, by decide +kernel⟩,
    ⟨{ m4 with rst := { m4.rst with choreLost := true } }, by decide +kernel⟩,
    ⟨{ State.reset with pins := { State.reset.pins with resetN := true } }, by decide +kernel⟩,
    ⟨m4, by decide +kernel⟩,
    ⟨{ m4 with pins := { m4.pins with perstN := true } }, by decide +kernel⟩,
    ⟨11, m4.put [(.rst, 0, Off.rstIslPend, 0xFFF)], by decide +kernel⟩⟩

/-- The hypotheses of BootLeadsToPark are met. -/
theorem witness_bootLeadsToPark :
    (∃ (s : State), s.mode.dev = .m2 ∧ s.rst.loading = true) ∧
    (∃ (s : State), s.mode.dev = .m3 ∧ s.mode.autoArmed = false ∧ (∀ b < 8, natBit s.rst.isl b = true)) ∧
    (∃ (s : State), s.mode.dev = .m3 ∧ s.hbmBit 9 = true) ∧
    (∃ (p : Fin 3) (s : State), s.mode.dev ≠ .m3 ∧ s.hbm.want = some p.val ∧ s.hbmBit 9 = true) ∧
    (∃ (k : Fin 2) (s : State), natBit s.rst.isl (10 + k) = true ∧ s.linkUp k = false ∧ s.pins.perstN = false ∧ 3 ≤
      s.mode.dev.num) ∧
    (∃ (s : State), s.mode.dev = .m3 ∧ s.pins.perstN = false ∧ s.linkUp 0 = false) ∧
    (∃ (s : State), s.mode.dev = .m3 ∧ s.pins.perstN = false ∧ s.split = true ∧ s.linkUp 1 = false) :=
  ⟨⟨State.reset, by decide +kernel⟩,
    ⟨{ m4 with mode := { m4.mode with dev := .m3, autoArmed := false } }, by decide +kernel⟩,
    ⟨{ dev .m3 with mode := { m4.mode with dev := .m3, trainDone := false } }.put [(.hbm, 0, Off.hbmStat, 0x200)],
      by decide +kernel⟩,
    ⟨2, { m4 with hbm := { m4.hbm with want := some 2 } }.put [(.hbm, 0, Off.hbmStat, 0x200)], by decide +kernel⟩,
    ⟨0, m4.ports 0 false, by decide +kernel⟩,
    ⟨(dev .m3).ports 0 false, by decide +kernel⟩,
    ⟨{ m4 with mode := { m4.mode with dev := .m3, trainDone := false }, otp := { m4.otp with split := true } }.ports 1
      true, by decide +kernel⟩⟩

/-- The hypotheses of HostRequestsAreServed are met. -/
theorem witness_hostRequestsAreServed :
    (∃ (f : Fin 18) (s : State), s.linkUp (portOf f) = true ∧ s.rst.yardLost = true) ∧
    (∃ (f : Fin 18) (s : State), s.linkUp (portOf f) = true ∧ s.rst.yardLost = false ∧ s.mode.served = false) ∧
    (∃ (f : Fin 18) (q : CfgRequest) (s : State) (mse : Bool) (bme : Bool), s.linkUp (portOf f) = true ∧ s.rst.yardLost =
      false ∧ s.mode.served = true ∧ s.fnAnswers f = true ∧ q = .command mse bme) ∧
    (∃ (f : Fin 18) (a : BitVec 35) (o : Nat) (s : State) (bs : List Byte), s.mode.dev ≠ .m5 ∧ s.trainPause = false ∧
      s.acting (.fn f) = some o ∧ s.fnBlocked f = false ∧ s.hayOk o a.toNat bs.length = true) ∧
    (∃ (f : Fin 18) (a : BitVec 35) (n : Fin 513) (o : Nat) (s : State), s.mode.dev ≠ .m5 ∧ s.trainPause = false ∧
      s.acting (.fn f) = some o ∧ s.fnBlocked f = false ∧ s.hayOk o a.toNat n = true) ∧
    (∃ (f : Fin 18) (v : Fin 4096) (s : State), s.memServed f = true ∧ v.val < s.rf .hlk 0 (Off.hlkVec f) 0 13 ∧
      s.fnBlocked f = false) ∧
    (∃ (r : Requester) (f : Fin 18) (v : Word) (s : State), s.accepts r .hlk 0 (Off.hlkFnmap f) v = true ∧ f.val ≠ 0 ∧
      (fld v 0 4 < 8 ∨ fld v 0 4 = 14) ∧ s.memMapped f = false) ∧
    (∃ (r : Requester) (f : Fin 18) (v : Word) (s : State), s.accepts r .hlk 0 (Off.hlkVec f) v = true ∧ (s.fnCfg
      f).msixEn = false ∧ (isPf f = false → (s.fnCfg (pfOf f)).vfEn = false) ∧ 0 < fld v 0 13 ∧ fld v 0 13 + (((portFns
      (portOf f)).filter fun g => g != f.val).map fun g => s.rf .hlk 0 (Off.hlkVec g) 0 13).sum ≤ 4096) ∧
    (∃ (k : Fin 2) (s : State), s.linkUp k = true ∧ (k.val = 0 ∨ s.hbmBit 10 = false)) ∧
    (∃ (k : Fin 2) (s : State), s.linkUp k = true ∧ k.val = 1 ∧ s.hbmBit 10 = true) ∧
    (∃ (k : Fin 2) (s : State), s.linkUp k = true) ∧
    (∃ (f : Fin 18) (s : State), f.val ≠ 0 ∧ s.fnExists f = true) :=
  ⟨⟨0, { m4 with rst := { m4.rst with yardLost := true } }, by decide +kernel⟩,
    ⟨0, { m4 with mode := { m4.mode with served := false } }, by decide +kernel⟩,
    ⟨0, .command true true, m4, true, true, by decide +kernel⟩,
    ⟨0, 0xFFFFFE, 15, { m4 with regions := [(0, ⟨0, 0xF, 15, 1, true⟩)] }, [1, 2], by decide +kernel⟩,
    ⟨0, 0xFFFFFE, 2, 15, { m4 with regions := [(0, ⟨0, 0xF, 15, 1, true⟩)] }, by decide +kernel⟩,
    ⟨0, 7, m4.put [(.hlk, 0, Off.hlkVec 0, 8)], by decide +kernel⟩,
    ⟨sup, 1, 14, m4, by decide +kernel⟩,
    ⟨sup, 1, 8, m4, by decide +kernel⟩,
    ⟨0, m4, by decide +kernel⟩,
    ⟨1, (m4.ports 2 true).put [(.hlk, 0, Off.hlkLstat 1, 0x185), (.hbm, 0, Off.hbmStat, 0x400)], by decide +kernel⟩,
    ⟨0, m4, by decide +kernel⟩,
    ⟨1, { m4 with fns := [(0, { FnCfg.reset with vfEn := true })] }, by decide +kernel⟩⟩

/-- The hypotheses of PageAccessesTakeEffect are met. -/
theorem witness_pageAccessesTakeEffect :
    (∃ (r : Requester) (a : BitVec 26) (v : BitVec 64) (k : PageKind) (i : Nat) (s : State), i < k.count ∧ a.toNat =
      k.base i + Off.pgEvtEn ∧ s.accepts r k i Off.pgEvtEn (word v.toNat) = true) ∧
    (∃ (r : Requester) (a : BitVec 26) (v : BitVec 64) (k : PageKind) (i : Nat) (s : State), i < k.count ∧ a.toNat =
      k.base i + Off.pgEvt ∧ s.accepts r k i Off.pgEvt (word v.toNat) = true) ∧
    (∃ (f : Fin 18) (a : BitVec 26) (s : State), s.reaches (.fn f) a.toNat = false) ∧
    (∃ (r : Requester) (a : BitVec 26) (k : PageKind) (i : Nat) (o : Nat) (n : Nat) (s : State), i < k.count ∧ o < 0x1000
      ∧ k ≠ .tim ∧ rsGroup k o = some (o, n) ∧ regRow k o ≠ none ∧ a.toNat = k.base i + o ∧ a.toNat % 4 = 0 ∧ s.reach r k
      i = .full ∧ s.rb k i Off.pgCtrl 1 = false) ∧
    (∃ (r : Requester) (q : Fin 8) (a : BitVec 26) (v : Word) (s : State), a.toNat = PageKind.seq.base q +
      Off.seqStartTickHi ∧ s.accepts r .seq q Off.seqStartTickHi v = true) ∧
    (∃ (r : Requester) (p : BitVec 14) (k : PageKind) (i : Nat) (s : State) (en : Bool), i < k.count ∧ p.toNat * 0x1000 =
      k.base i ∧ s.accepts r k i Off.pgCtrl (word (bit en)) = true) ∧
    (∃ (r : Requester) (p : BitVec 14) (k : PageKind) (i : Nat) (s : State), i < k.count ∧ p.toNat * 0x1000 = k.base i ∧
      s.accepts r k i Off.pgCtrl (putBit (s.rd k i Off.pgCtrl) 1 true) = true ∧ s.widerReset k i = false) ∧
    (∃ (p : BitVec 14) (k : PageKind) (i : Nat) (s : State), i < k.count ∧ p.toNat * 0x1000 = k.base i ∧ s.widerReset k i
      = false) ∧
    (∃ (r : Requester) (p : BitVec 14) (k : PageKind) (i : Nat) (s : State) (v : Word), i < k.count ∧ p.toNat * 0x1000 =
      k.base i ∧ s.isSup r = true ∧ s.accepts r k i Off.pgLock v = true ∧ fld v 8 8 = 0x5A) ∧
    (∃ (r : Requester) (p : BitVec 14) (k : PageKind) (i : Nat) (s : State) (v : Word), i < k.count ∧ p.toNat * 0x1000 =
      k.base i ∧ ownerHome k ≠ none ∧ s.accepts r k i Off.pgOwner v = true ∧ (fld v 0 4 < 8 ∨ fld v 0 4 = 15) ∧
      s.ownerInM4 (s.ownerOf k i) = true ∧ s.ownerInM4 (fld v 0 4) = true) ∧
    (∃ (s : State), (s.mode.dev = .m2 ∨ s.mode.dev = .m3 ∨ (s.mode.dev = .m4 ∧ s.domainsInM4 = true ∧ s.allParked =
      true))) ∧
    (∃ (s : State), (¬(s.mode.dev = .m2 ∨ s.mode.dev = .m3 ∨ (s.mode.dev = .m4 ∧ s.domainsInM4 = true ∧ s.allParked =
      true)))) :=
  ⟨⟨sup, BitVec.ofNat 26 (PageKind.lvl.base 3 + Off.pgEvtEn), 7, .lvl, 3, on 3, by decide +kernel⟩,
    ⟨sup, BitVec.ofNat 26 (PageKind.lvl.base 3 + Off.pgEvt), 7, .lvl, 3, (on 3).put [(.lvl, 3, Off.pgEvt, 0xF)],
      by decide +kernel⟩,
    ⟨1, BitVec.ofNat 26 (PageKind.lvl.base 3 + Off.pgEvt), on 3, by decide +kernel⟩,
    ⟨sup, BitVec.ofNat 26 (PageKind.tmb.base 3 + Off.tmbTickLo), .tmb, 3, Off.tmbTickLo, 2, on 3, by decide +kernel⟩,
    ⟨sup, 2, BitVec.ofNat 26 (PageKind.seq.base 2 + Off.seqStartTickHi), 5, { on 3 with stage := [] }, by decide +kernel⟩,
    ⟨sup, BitVec.ofNat 14 (PageKind.lvl.base 3 / 0x1000), .lvl, 3, on 3, false, by decide +kernel⟩,
    ⟨sup, BitVec.ofNat 14 (PageKind.lvl.base 3 / 0x1000), .lvl, 3, on 3, by decide +kernel⟩,
    ⟨BitVec.ofNat 14 (PageKind.lvl.base 3 / 0x1000), .lvl, 3, (on 3).put [(.lvl, 3, Off.pgCtrl, 3)], by decide +kernel⟩,
    ⟨sup, BitVec.ofNat 14 (PageKind.lvl.base 3 / 0x1000), .lvl, 3, on 3, 0x5A03, by decide +kernel⟩,
    ⟨sup, BitVec.ofNat 14 (PageKind.stl.base 3 / 0x1000), .stl, 3, m4.put [(.stl, 3, Off.pgCtrl, 1)], 7,
      by decide +kernel⟩,
    ⟨dev .m2, by decide +kernel⟩,
    ⟨dom .m8, by decide +kernel⟩⟩

/-- The hypotheses of GatehouseCommandsTakeEffect are met. -/
theorem witness_gatehouseCommandsTakeEffect :
    (∃ (r : Requester) (v : Word) (s : State), s.accepts r .pen 0 Off.penRgnCfg v = true ∧ (s.region (s.rf .pen 0
      Off.penRgnIdx 0 6)).en = false ∧ ownerCode ((⟨s.rf .pen 0 Off.penRgnBase 0 15, s.rf .pen 0 Off.penRgnLast 0 15, fld
      v 0 4, fld v 4 2, tbit v 31⟩ : Region)).owner = true ∧ ((⟨s.rf .pen 0 Off.penRgnBase 0 15, s.rf .pen 0
      Off.penRgnLast 0 15, fld v 0 4, fld v 4 2, tbit v 31⟩ : Region)).kind < 3 ∧ ((⟨s.rf .pen 0 Off.penRgnBase 0 15, s.rf
      .pen 0 Off.penRgnLast 0 15, fld v 0 4, fld v 4 2, tbit v 31⟩ : Region)).base ≤ ((⟨s.rf .pen 0 Off.penRgnBase 0 15,
      s.rf .pen 0 Off.penRgnLast 0 15, fld v 0 4, fld v 4 2, tbit v 31⟩ : Region)).last ∧ ((⟨s.rf .pen 0 Off.penRgnBase 0
      15, s.rf .pen 0 Off.penRgnLast 0 15, fld v 0 4, fld v 4 2, tbit v 31⟩ : Region)).last < 0x6000 ∧ s.ownerInM4
      (s.region (s.rf .pen 0 Off.penRgnIdx 0 6)).owner = true ∧ s.ownerInM4 ((⟨s.rf .pen 0 Off.penRgnBase 0 15, s.rf .pen
      0 Off.penRgnLast 0 15, fld v 0 4, fld v 4 2, tbit v 31⟩ : Region)).owner = true ∧ (∀ e ∈ s.regions, e.1 ≠ (s.rf .pen
      0 Off.penRgnIdx 0 6) → e.2.en = true → e.2.last < ((⟨s.rf .pen 0 Off.penRgnBase 0 15, s.rf .pen 0 Off.penRgnLast 0
      15, fld v 0 4, fld v 4 2, tbit v 31⟩ : Region)).base ∨ ((⟨s.rf .pen 0 Off.penRgnBase 0 15, s.rf .pen 0
      Off.penRgnLast 0 15, fld v 0 4, fld v 4 2, tbit v 31⟩ : Region)).last < e.2.base)) ∧
    (∃ (r : Requester) (pens : BitVec 8) (s : State), s.accepts r .pen 0 Off.penRst (word pens.toNat) = true ∧ s.pageEn
      .pen 0 = true) ∧
    (∃ (s : State), s.pins.perstN = false) ∧
    (∃ (r : Requester) (n : BitVec 7) (s : State), s.accepts r .gth 0 Off.gthSvnCmd (word (n.toNat + 2 ^ 8 * 0xC3)) = true
      ∧ s.farState ≠ fStore ∧ s.gth.programming = none ∧ s.isSup r = true ∧ s.mode.dev = .m4 ∧ s.otp.svn < n.toNat ∧
      n.toNat ≤ s.gth.bootSvn ∧ (∀ m, s.gth.patchSvn = some m → n.toNat ≤ m) ∧ s.pageEn .gth 0 = true) ∧
    (∃ (n : Nat) (s : State), s.gth.programming = some n ∧ s.gth.heldTamper = 0) ∧
    (∃ (n : Nat) (s : State) (src : Fin 4), s.gth.programming = some n ∧ s.gth.heldTamper = 2 ^ src.val ∧ 2 ≤
      s.mode.dev.num) ∧
    (∃ (r : Requester) (s : State), s.pageEn .gth 0 = true ∧ s.accepts r .gth 0 Off.gthDbgCmd 1 = true) ∧
    (∃ (r : Requester) (s : State), s.pageEn .gth 0 = true ∧ s.accepts r .gth 0 Off.gthDbgCmd 2 = true ∧ s.rb .gth 0
      Off.gthDbgCmd 1 = false) ∧
    (∃ (good : Bool) (scope : Nat) (s : State), s.rb .gth 0 Off.gthDbgCmd 1 = true ∧ s.gth.submit = some (good, scope) ∧
      good = true) ∧
    (∃ (good : Bool) (scope : Nat) (s : State), s.rb .gth 0 Off.gthDbgCmd 1 = true ∧ s.gth.submit = some (good, scope)) ∧
    (∃ (good : Bool) (scope : Nat) (s : State), s.rb .gth 0 Off.gthDbgCmd 1 = true ∧ s.gth.submit = some (good, scope) ∧
      good = false) ∧
    (∃ (src : Fin 5) (s : State), 2 ≤ s.mode.dev.num ∧ s.rb .gth 0 Off.gthTamperEn src = true ∧ s.gth.programming = none)
      ∧
    (∃ (src : Fin 5) (s : State) (n : Nat), 2 ≤ s.mode.dev.num ∧ s.rb .gth 0 Off.gthTamperEn src = true ∧
      s.gth.programming = some n) :=
  ⟨⟨sup, 0x8000001F, m4.put [(.pen, 0, Off.pgCtrl, 1), (.pen, 0, Off.penRgnIdx, 63), (.pen, 0, Off.penRgnLast, 0x5FFF)],
      by decide +kernel⟩,
    ⟨sup, 0x81, m4.put [(.pen, 0, Off.pgCtrl, 1)], by decide +kernel⟩,
    ⟨m4.put [(.pen, 0, Off.penStat, 0xFF)], by decide +kernel⟩,
    ⟨sup, 64, { m4.put [(.gth, 0, Off.pgCtrl, 1)] with gth := { m4.gth with bootSvn := 64 } }, by decide +kernel⟩,
    ⟨64, { m4 with gth := { m4.gth with programming := some 64 } }, by decide +kernel⟩,
    ⟨64, { m4 with gth := { m4.gth with programming := some 64, heldTamper := 1 } }, 0, by decide +kernel⟩,
    ⟨sup, m4.put [(.gth, 0, Off.pgCtrl, 1)], by decide +kernel⟩,
    ⟨sup, { m4 with gth := { m4.gth with nonce := true } }.put [(.gth, 0, Off.pgCtrl, 1)], by decide +kernel⟩,
    ⟨true, 5, { m4 with gth := { m4.gth with submit := some (true, 5) } }.put [(.gth, 0, Off.pgCtrl, 1), (.gth, 0,
      Off.gthDbgCmd, 2)], by decide +kernel⟩,
    ⟨true, 5, { m4 with gth := { m4.gth with submit := some (true, 5) } }.put [(.gth, 0, Off.pgCtrl, 1), (.gth, 0,
      Off.gthDbgCmd, 2)], by decide +kernel⟩,
    ⟨false, 5, { m4 with gth := { m4.gth with submit := some (false, 5), rejected := 7 } }.put [(.gth, 0, Off.pgCtrl, 1),
      (.gth, 0, Off.gthDbgCmd, 2), (.gth, 0, Off.gthTamperEn, 8)], by decide +kernel⟩,
    ⟨4, m4.put [(.gth, 0, Off.pgCtrl, 1), (.gth, 0, Off.gthTamperEn, 0x1F)], by decide +kernel⟩,
    ⟨4, { m4 with gth := { m4.gth with programming := some 64, heldTamper := 1 } }.put [(.gth, 0, Off.pgCtrl, 1), (.gth,
      0, Off.gthTamperEn, 0x1F)], 64, by decide +kernel⟩⟩

/-- The hypotheses of HalterFramesTakeEffect are met. -/
theorem witness_halterFramesTakeEffect :
    (∃ (n : Fin 65) (s : State), s.halPowered = true ∧ s.halter.conflict = false ∧ s.pins.csLow = false ∧ 0 < n.val) ∧
    (∃ (n : Fin 65) (s : State), s.halPowered = true ∧ s.halter.conflict = false ∧ s.pins.csLow = false ∧ 0 < n.val ∧
      s.halBusy = false) ∧
    (∃ (ws : List Word) (s : State), s.halPowered = true ∧ s.halter.conflict = false ∧ s.pins.csLow = false ∧ s.halBusy =
      false ∧ 0 < ws.length ∧ ws.length ≤ 64) ∧
    (∃ (idx : Fin 64) (ws : List Word) (s : State) (w : Word), s.halPowered = true ∧ s.halter.conflict = false ∧
      s.pins.csLow = false ∧ s.halBusy = false ∧ ws = [w] ∧ idx.val = 0 ∧ fld w 0 8 = 0 ∧ fld w 26 6 = 0) ∧
    (∃ (s : State), s.halPowered = true ∧ s.halter.conflict = false ∧ s.pins.csLow = true) ∧
    (∃ (s : State), s.halPowered = true ∧ s.halter.conflict = false ∧ s.pins.csLow = false) ∧
    (∃ (i : Nat) (s : State) (ws : List Word), s.halter.commit = some (i, ws)) ∧
    (∃ (i : Nat) (s : State) (v : Word), s.halter.commit = some (i, [v]) ∧ s.winAddr i / 0x1000 ≠ PageKind.mod0.base 0 /
      0x1000) ∧
    (∃ (i : Nat) (s : State) (n : Nat), s.halter.fetch = some (i, n)) ∧
    (∃ (i : Nat) (s : State), s.halter.fetch = some (i, 1)) ∧
    (∃ (r : Requester) (v : Word) (s : State), s.accepts r .hal 0 Off.halMctrl (putBit v 0 true) = true ∧ s.pageEn .hal 0
      = true ∧ s.gateHolds = false ∧ s.rb .hal 0 Off.halMctrl 0 = false ∧ 0 < (s.rf .hal 0 Off.halMlen 0 13) ∧ (s.rf .hal
      0 Off.halMlen 0 13) ≤ 4096 ∧ s.pins.csLow = false) ∧
    (∃ (x : Xfer) (s : State), s.halter.xfer = some x) :=
  ⟨⟨64, { m4 with halter := { m4.halter with rbuf := [(62, 5), (63, 9)] } }, by decide +kernel⟩,
    ⟨64, m4, by decide +kernel⟩,
    ⟨List.replicate 64 5, m4, by decide +kernel⟩,
    ⟨0, [0x100], m4, 0x100, by decide +kernel⟩,
    ⟨{ m4 with pins := { m4.pins with csLow := true } }, by decide +kernel⟩,
    ⟨m4, by decide +kernel⟩,
    ⟨63, { m4 with halter := { m4.halter with commit := some (63, [5, 6]) } }, [5, 6], by decide +kernel⟩,
    ⟨16, ({ m4 with halter := { m4.halter with commit := some (16, [7]) } }.put [(.hal, 0, Off.halSwin, 0x100)]), 7,
      by decide +kernel⟩,
    ⟨63, { m4 with halter := { m4.halter with fetch := some (63, 64) } }, 64, by decide +kernel⟩,
    ⟨63, { m4 with halter := { m4.halter with fetch := some (63, 1) } }, by decide +kernel⟩,
    ⟨sup, 0x200, m4.put [(.hal, 0, Off.pgCtrl, 1), (.hal, 0, Off.halMlen, 0x1000)], by decide +kernel⟩,
    ⟨⟨32, true, [7]⟩, { m4 with halter := { m4.halter with xfer := some ⟨32, true, [7]⟩ } }.put [(.hal, 0, Off.halMctrl,
      0x201)], by decide +kernel⟩⟩

/-- The hypotheses of LogbookAndWeathervaneCommandsTakeEffect are met. -/
theorem witness_logbookAndWeathervaneCommandsTakeEffect :
    (∃ (e : Nat) (l : List Nat) (s : State), s.lan.queue = e :: l ∧ s.lan.tick < 2 ^ 40) ∧
    (∃ (s : State), s.lan.closed = true ∧ s.lan.frozen = false) ∧
    (∃ (s : State), s.lan.frozen = false ∧ s.lan.closed = false ∧ s.lan.queue.length < 16) ∧
    (∃ (s : State), s.rst.choreLost = false) ∧
    (∃ (s : State), s.rst.choreLost = true) ∧
    (∃ (r : Requester) (s : State), s.pageEn .log 0 = true ∧ s.accepts r .log 0 Off.logCtrl 0xC301 = true ∧ s.mode.dev =
      .m4) ∧
    (∃ (r : Requester) (s : State), s.pageEn .log 0 = true ∧ s.accepts r .log 0 Off.logCtrl 0xC302 = true ∧ s.lan.frozen =
      false) ∧
    (∃ (r : Requester) (s : State) (data : BitVec 16), s.pageEn .log 0 = true ∧ s.accepts r .log 0 Off.logMark (word
      data.toNat) = true ∧ s.lan.frozen = false ∧ s.lan.closed = false ∧ s.lan.queue.length < 16) ∧
    (∃ (s : State), s.pins.vin = true ∧ natBit s.rst.isl 8 = true ∧ s.rst.choreLost = false ∧ s.weather.slot < 96) ∧
    (∃ (s : State), s.wvnState = wWarn) ∧
    (∃ (q : Fin 8) (s : State), s.wvnState = wEnforce ∧ (s.seq q).thermSeg = true ∧ s.seqState q ≠ sHold) ∧
    (∃ (q : Fin 8) (s : State), s.wvnState = wEnforce ∧ (s.seq q).thermSeg = true ∧ s.seqState q = sHold) ∧
    (∃ (c : ClockLoss) (s : State), 2 ≤ s.mode.dev.num ∧ (s.rst.choreLost = false ∨ (c ≠ .chore ∧ c ≠ .refclk))) ∧
    (∃ (c : ClockLoss) (s : State), 2 ≤ s.mode.dev.num ∧ s.rst.choreLost = true ∧ (c = .chore ∨ c = .refclk)) :=
  ⟨⟨9, [8], { m4 with lan := { m4.lan with queue := [9, 8], wptr := 511 } }, by decide +kernel⟩,
    ⟨{ m4 with lan := { m4.lan with queue := [9, 8], closed := true } }, by decide +kernel⟩,
    ⟨{ m4 with lan := { m4.lan with queue := List.replicate 15 7, tick := 5 } }, by decide +kernel⟩,
    ⟨m4, by decide +kernel⟩,
    ⟨{ m4 with rst := { m4.rst with choreLost := true } }, by decide +kernel⟩,
    ⟨sup, { m4 with lan := { m4.lan with frozen := true } }.put [(.log, 0, Off.pgCtrl, 1)], by decide +kernel⟩,
    ⟨sup, { m4 with lan := { m4.lan with slots := [(0, 5)], wptr := 1 } }.put [(.log, 0, Off.pgCtrl, 1)],
      by decide +kernel⟩,
    ⟨sup, m4.put [(.log, 0, Off.pgCtrl, 1)], 0xFFFF, by decide +kernel⟩,
    ⟨m4, by decide +kernel⟩,
    ⟨m4.put [(.wvn, 0, Off.wvnStat, 1)], by decide +kernel⟩,
    ⟨1, (m4.put [(.wvn, 0, Off.wvnStat, 2)]).setSeq 1 { SeqSt.idle with thermSeg := true }, by decide +kernel⟩,
    ⟨1, (m4.put [(.wvn, 0, Off.wvnStat, 2), (.seq, 1, Off.seqStat, 3), (.wvn, 0, Off.wvnForcedHold, 0xFFFF)]).setSeq 1
      { SeqSt.idle with thermSeg := true }, by decide +kernel⟩,
    ⟨.yardPll, m4, by decide +kernel⟩,
    ⟨.refclk, { m4 with rst := { m4.rst with choreLost := true } }, by decide +kernel⟩⟩

/-- The hypotheses of ModSetShowsTheModesInForce are met. -/
theorem witness_modSetShowsTheModesInForce :
    ∃ (m : Nat), m < 32 :=
  ⟨9, by decide +kernel⟩

/-- The hypotheses of ArmIsRefusedWhileMeasuring are met. -/
theorem witness_armIsRefusedWhileMeasuring :
    (∃ (r : Requester) (mode : Fin 4) (s : State), s.accepts r .tmb 0 Off.tmbCtrl (word (16 + mode)) = true ∧ mode.val ≠ 3
      ∧ s.pageEn .tmb 0 = true ∧ ((∃ q < 8, s.seqActive q = true) ∨ (∃ st < 128, (s.rd .tim st Off.timState).toNat ≠ 0) ∨
      ∃ st < 128, s.rb .tim st Off.timVstat 8 = true)) ∧
    (∃ (s : State), s.armed = none) :=
  ⟨⟨sup, 1, (on 0).put [(.seq, 7, Off.seqStat, 1)], by decide +kernel⟩,
    ⟨(on 0).put [(.tmb, 3, Off.tmbSyncIgn, 0xFFFF)], by decide +kernel⟩⟩

/-- The hypotheses of StackFaultsIssueNothing are met. -/
theorem witness_stackFaultsIssueNothing :
    (∃ (q : Fin 8) (v : Vec) (s : State), s.vecReady q 0x02 v = true ∧ v.operand ≠ 0 ∧ (s.seq q).fromEndl = false ∧ (s.seq
      q).loops.length = 8) ∧
    (∃ (q : Fin 8) (v : Vec) (s : State), s.vecReady q 0x05 v = true ∧ (s.seq q).calls.length = 8) ∧
    (∃ (q : Fin 8) (v : Vec) (s : State), s.vecReady q 0x06 v = true ∧ (s.seq q).calls = []) ∧
    (∃ (q : Fin 8) (v : Vec) (s : State), s.vecReady q 0x03 v = true ∧ (s.seq q).loops = []) ∧
    (∃ (q : Fin 8) (v : Vec) (s : State), (s.seq q).loops = [] ∧ v.evsel.testBit 8 = true ∧ s.vecReady q 0x04 v = true) ∧
    (∃ (q : Fin 8) (obs : List Sample) (v : Vec) (s : State), (s.seq q).loops = [] ∧ v.evsel.testBit 8 = true ∧ s.vecReady
      q 0x07 v = true ∧ xor (branchCond ((s.retireHead q obs).1.seq q).sites (s.retireHead q obs).2 (if v.evsel.testBit 2
      then .sticky else .fail) (v.evsel.testBit 0)) (v.evsel.testBit 1) = true) ∧
    (∃ (q : Fin 8) (obs : List Sample) (v : Vec) (s : State) (c : _), (s.seq q).loops = [] ∧ v.evsel.testBit 8 = true ∧
      s.vecReady q 0x08 v = true ∧ badEvent (nfld v.evsel 0 6) = false ∧ (8 ≤ nfld v.evsel 0 6 → nfld v.evsel 0 6 < 16 → c
      = branchCond ((s.retireHead q obs).1.seq q).sites (s.retireHead q obs).2 (.event (nfld v.evsel 0 6))
      (v.evsel.testBit 6)) ∧ (nfld v.evsel 0 6 < 4 → c = ((s.retireHead q obs).2.map fun y => y.evIn.testBit (nfld v.evsel
      0 6)).getD false) ∧ (16 ≤ nfld v.evsel 0 6 → c = ((s.retireHead q obs).2.map fun y => y.flags.testBit (nfld v.evsel
      0 6 - 16)).getD false) ∧ xor c (v.evsel.testBit 7) = true) :=
  ⟨⟨1, vec 2 9 0 0, ready 2 9 0 0 (fun x => { x with loops := List.replicate 8 (0, 2) }), by decide +kernel⟩,
    ⟨1, vec 5 9 0 0, ready 5 9 0 0 (fun x => { x with calls := List.replicate 8 2 }), by decide +kernel⟩,
    ⟨1, vec 6 9 0 0, ready 6 9 0 0 id, by decide +kernel⟩,
    ⟨1, vec 3 9 0 0, ready 3 9 0 0 id, by decide +kernel⟩,
    ⟨1, vec 4 9 0 0x100, ready 4 9 0 0x100 id, by decide +kernel⟩,
    ⟨1, [], vec 7 9 0 0x102, ready 7 9 0 0x102 id, by decide +kernel⟩,
    ⟨1, [], vec 8 9 0 0x183, ready 8 9 0 0x183 id, false, by decide +kernel⟩⟩

/-- The hypotheses of FullRingFollowsItsPolicy are met. -/
theorem witness_fullRingFollowsItsPolicy :
    ∃ (n : Nat) (s : State), n < 0x8000 ∧ s.ringEn n = true ∧ s.ringIn n = false ∧ s.ringFull n = true ∧ s.ringPaused =
      false ∧ 5 ≤ s.ringLog2 n :=
  ⟨9, fullRing 9 0, by decide +kernel⟩

/-- The hypotheses of HayloftStoresStayInTheirWords are met. -/
theorem witness_hayloftStoresStayInTheirWords :
    (∃ (g : Fin 8) (c : Ctx) (s : State) (w : _), s.fetches g c w = true ∧ fmtOf w = 5 ∧ s.trainPause = false ∧ s.hayOk
      (c.rcd.owner) (c.hreg (nfld w 12 2)) 4 = true) ∧
    (∃ (g : Fin 8) (p : Probe) (c : Ctx) (s : State), 0 < c.rcd.p 4 ∧ s.romRuns g c 0x07 0 p = true ∧ c.rcd.p 4 % 4 = 0 ∧
      s.hayOk (c.rcd.owner) (c.rcd.hay 0) (c.rcd.p 4) = true) ∧
    (∃ (g : Fin 8) (p : Probe) (c : Ctx) (s : State), 0 < c.rcd.p 4 ∧ s.romRuns g c 0x06 0 p = true ∧ s.hayOk
      (c.rcd.owner) (c.rcd.hay 0) (c.rcd.p 4) = true ∧ s.hayOk (c.rcd.owner) (c.rcd.hay 2) (c.rcd.p 4) = true) :=
  ⟨⟨3, { uctx with h := [(0, 0x1000)] }, micro { uctx with h := [(0, 0x1000)] } (5 * 2 ^ 18 + 2 ^ 14 + 2 ^ 11) m4, 5 * 2 ^ 18
      + 2 ^ 14 + 2 ^ 11, by decide +kernel⟩,
    ⟨3, pr, ctxAt 0x07 0 [0x1000, 0, 0x12345678, 0, 8] [], running (ctxAt 0x07 0 [0x1000, 0, 0x12345678, 0, 8] []) (m4),
      by decide +kernel⟩,
    ⟨3, pr, ctxAt 0x06 0 [0x1000, 0, 0x1008, 0, 16] [], running (ctxAt 0x06 0 [0x1000, 0, 0x1008, 0, 16] []) (m4.hayPut 15
      0x1000 16 0x123456789ABCDEF0112233), by decide +kernel⟩⟩

/-! ### Statements about a step -/

/-- One command waits. -/
def waiting : State := { m4 with pending := [.oscFail] }

theorem witness_idleStepPassesOneTick : ∃ s : State, s.pending = [] := ⟨m4, rfl⟩

theorem witness_commandsLeaveTheQueue : ∃ (c : Instr) (s t : State), exec c s = .next t :=
  ⟨.oscFail, waiting, _, rfl⟩

theorem witness_stepKeepsCanonicalStores : ∃ s t : State, s.storesOk = true ∧ step s = .next t :=
  ⟨{ waiting with hay := { waiting.hay with cells := [(3, 7)] } }, _, by decide +kernel, rfl⟩

theorem witness_stepKeepsTheLogbookBounds :
    ∃ s t : State, (s.lan.queue.length ≤ 16 ∧ s.lan.wptr < 512) ∧ step s = .next t :=
  ⟨{ waiting with lan := { waiting.lan with queue := List.replicate 16 9, wptr := 511 } }, _, by decide +kernel, rfl⟩

theorem witness_stepNeverLowersTheAntiRollbackCounter :
    ∃ s t : State, (∀ n, s.gth.programming = some n → s.otp.svn ≤ n) ∧ step s = .next t :=
  ⟨{ waiting with gth := { waiting.gth with programming := some 64 } }, _, fun n _ => Nat.zero_le n, rfl⟩

/-- Groom 3 about to run a YIELD. -/
def atYield : State := micro uctx 0x244000 m4

theorem witness_microwordsChangeOnlyTheirGroom :
    ∃ (i : Instr) (g : Fin 8) (c : Ctx) (w : Nat) (s t : State),
      s.fetches g c w = true ∧ (s.groom g).chains = [] ∧ i = .yield g .clean ∧ exec i s = .next t ∧ (t.groom g).ctx ≠ none :=
  ⟨_, 3, uctx, 0x244000, atYield, _, by decide +kernel, by decide +kernel, rfl, rfl, by decide +kernel⟩

/-! ### Boot and tack-room load -/

/-- Cells that hold the given bytes from an address on. -/
def cellsAt (a : Nat) (bs : List Byte) : List (Nat × Byte) :=
  match bs with
  | [] => []
  | b :: t => (a, b) :: cellsAt (a + 1) t

theorem get?_cellsAt_outside (a x : Nat) (bs : List Byte) (l : List (Nat × Byte)) (h : x < a ∨ a + bs.length ≤ x) :
    Store.get? (cellsAt a bs ++ l) x = Store.get? l x := by
  induction bs generalizing a with
  | nil => rfl
  | cons b t ih =>
    have hx : x ≠ a := by simp at h; omega
    have ht : x < a + 1 ∨ a + 1 + t.length ≤ x := by simp at h; omega
    simp [cellsAt, Store.get?, hx, ih _ ht]

theorem get?_cellsAt_inside (a i : Nat) (bs : List Byte) (l : List (Nat × Byte)) (h : i < bs.length) :
    Store.get? (cellsAt a bs ++ l) (a + i) = some bs[i] := by
  induction bs generalizing a i with
  | nil => simp at h
  | cons b t ih =>
    cases i with
    | zero => simp [cellsAt, Store.get?]
    | succ i =>
      have := ih (a + 1) i (by simpa using h)
      rw [show a + (i + 1) = a + 1 + i by omega]
      simp [cellsAt, Store.get?, this]
      omega

/-- The header of an image of 256 bytes up to FLAGS and the reserved bytes after it (R583). -/
def head32 (type version len flags : Nat) : List Byte :=
  bytesOf 4 0x48544147 ++ bytesOf 2 type ++ bytesOf 2 version ++ bytesOf 8 0 ++ bytesOf 4 len ++ bytesOf 4 flags ++ bytesOf 8 0

/-- What is signed of an image. -/
def signed (head tag pay : List Byte) : List Byte := head ++ bytesOf 12 0 ++ tag ++ bytesOf 4 0 ++ sha384 pay ++ bytesOf 48 0

/-- The header of a signed image. -/
def imageOf (head tag pay : List Byte) : List Byte :=
  signed head tag pay ++ (upto 96).map (Config.signature (signed head tag pay) 0)

/-- The payload of the patch image: erased bytes. -/
def pay : List Byte := (upto 4736).map fun _ => 0xFF

/-- The tag of the patch image, and one that differs in its first byte. -/
def goodTag : List Byte := (upto 16).map (Config.gcmTag (bytesOf 12 0) (head32 2 9 4736 1) pay)
def badTag : List Byte := (Config.gcmTag (bytesOf 12 0) (head32 2 9 4736 1) pay 0 + 1) :: bytesOf 15 0

def bootImage : List Byte := imageOf (head32 1 3 0 0) (bytesOf 16 0) []
def patchImage (tag : List Byte) : List Byte := imageOf (head32 2 9 4736 1) tag pay

/-- The directory at the start of the flash, with the lengths of slots 0 and 1: the images lie at 0x1000 and 0x2000. -/
def dir60 (len0 len1 : Nat) : List Byte :=
  bytesOf 8 0x52494446 ++ bytesOf 4 0x1000 ++ bytesOf 4 len0 ++ bytesOf 4 0x2000 ++ bytesOf 4 len1 ++ bytesOf 36 0
def dirOf (len0 len1 : Nat) : List Byte := dir60 len0 len1 ++ bytesOf 4 (crc32 (dir60 len0 len1))

/-- The part in M2, about to end its boot, with the given flash. -/
def bootAt (l : List (Nat × Byte)) : State :=
  { m4 with mode := { m4.mode with dev := .m2 }, rst := { m4.rst with booting := true }, flash := l }

/-- The same with a directory, the boot image, and what stands where a patch image has its header. -/
def bootFrom (len0 len1 : Nat) (img : List Byte) : State :=
  bootAt (cellsAt 0 (dirOf len0 len1) ++ (cellsAt 0x1000 bootImage ++ (cellsAt 0x2000 img ++ [])))

theorem sigOk_first (msg : List Byte) : sigOk msg ((upto 96).map (Config.signature msg 0)) = true :=
  List.any_eq_true.mpr ⟨0, by simp [upto], by simp⟩

theorem length_bytesOf (n v : Nat) : (bytesOf n v).length = n := by
  induction n generalizing v with
  | zero => rfl
  | succ n ih => simp [bytesOf, ih]

theorem length_head32 (t v l f : Nat) : (head32 t v l f).length = 32 := by simp [head32, length_bytesOf]

theorem length_signed (t v l f : Nat) {tag p : List Byte} (ht : tag.length = 16) :
    (signed (head32 t v l f) tag p).length = 160 := by
  simp [signed, length_head32, length_bytesOf, ht, sha384, upto]

theorem length_imageOf (t v l f : Nat) {tag p : List Byte} (ht : tag.length = 16) :
    (imageOf (head32 t v l f) tag p).length = 256 := by simp [imageOf, length_signed, ht, upto]

/-- An image whose bytes stand in the flash passes every check of step 3 (R585). -/
theorem imageCheck_imageOf {s : State} {a t v len f : Nat} {tag p : List Byte} (patch : Bool)
    (h4 : natBit s.otp.bootCfg 8 = false)
    (ha : a + 256 < 2 ^ 24) (ht : tag.length = 16) (h : s.flashBytes a 256 = imageOf (head32 t v len f) tag p)
    (hp : s.payload a = p) (hh : s.headerOk patch a = true) (hn : s.imageSvn a = 0)
    (ho : s.otp.svn = 0) : s.imageCheck patch a = 0 := by
  have hs := length_signed t v len f (p := p) ht
  have h0 : s.flashBytes a 160 = signed (head32 t v len f) tag p := by
    have := flashBytes_part h4 ha h 0 160 (by decide)
    rw [Nat.add_zero] at this
    rw [this, imageOf, List.drop_zero, List.take_append_of_le_length (by omega), List.take_of_length_le (by omega)]
  have h1 : s.flashBytes (a + 160) 96 = (upto 96).map (Config.signature (signed (head32 t v len f) tag p) 0) := by
    rw [flashBytes_part h4 ha h 160 96 (by decide), imageOf, List.drop_append_of_le_length (by omega),
      List.drop_of_length_le (by omega)]
    exact List.take_of_length_le (by simp [upto])
  have h2 : s.flashBytes (a + 64) 48 = sha384 p := by
    rw [flashBytes_part h4 (by omega) h0 64 48 (by decide), signed]
    have e1 : (head32 t v len f).drop 64 = [] := List.drop_of_length_le (by rw [length_head32]; decide)
    have e2 : tag.drop 20 = [] := List.drop_of_length_le (by omega)
    simp [length_head32, ht, e1, e2, List.drop_append, sha384, upto, bytesOf]
  simp [State.imageCheck, hh, h0, h1, h2, hp, hn, ho, sigOk_first]

theorem length_dirOf (x y : Nat) : (dirOf x y).length = 64 := by simp [dirOf, dir60, length_bytesOf]

/-- The flash is read with 24 address bits. -/
theorem short_addresses (x y : Nat) (img : List Byte) : natBit (bootFrom x y img).otp.bootCfg 8 = false := by
  have : (bootFrom x y img).otp = State.reset.otp := rfl
  rw [this]
  decide

theorem bootFrom_flash (x y : Nat) (img : List Byte) :
    (bootFrom x y img).flash = cellsAt 0 (dirOf x y) ++ (cellsAt 0x1000 bootImage ++ (cellsAt 0x2000 img ++ [])) := rfl

theorem bootImage_stands (x y : Nat) (img : List Byte) : (bootFrom x y img).flashBytes 0x1000 256 = bootImage := by
  have hl : bootImage.length = 256 := length_imageOf 1 3 0 0 (length_bytesOf 16 0)
  rw [← hl]
  refine flashBytes_eq (short_addresses ..) (by decide) fun i hi => ?_
  rw [Store.getD, bootFrom_flash, get?_cellsAt_outside _ _ _ _ (by rw [length_dirOf]; omega), get?_cellsAt_inside _ _ _ _ hi]
  rfl

theorem patchImage_stands (x y : Nat) {tag : List Byte} (ht : tag.length = 16) :
    (bootFrom x y (patchImage tag)).flashBytes 0x2000 256 = patchImage tag := by
  have hl : (patchImage tag).length = 256 := length_imageOf 2 9 4736 1 ht
  have hb : bootImage.length = 256 := length_imageOf 1 3 0 0 (length_bytesOf 16 0)
  rw [← hl]
  refine flashBytes_eq (short_addresses ..) (by decide) fun i hi => ?_
  rw [Store.getD, bootFrom_flash, get?_cellsAt_outside _ _ _ _ (by rw [length_dirOf]; omega),
    get?_cellsAt_outside _ _ _ _ (by omega), get?_cellsAt_inside _ _ _ _ hi]
  rfl

theorem patchPayload_stands (x y : Nat) {tag : List Byte} (ht : tag.length = 16) :
    (bootFrom x y (patchImage tag)).flashBytes 0x2100 4736 = pay := by
  have hl : pay.length = 4736 := by rw [pay, List.length_map, upto, List.length_range]
  have hb : bootImage.length = 256 := length_imageOf 1 3 0 0 (length_bytesOf 16 0)
  have hp : (patchImage tag).length = 256 := length_imageOf 2 9 4736 1 ht
  rw [← hl]
  refine flashBytes_eq (short_addresses ..) (by decide) fun i hi => ?_
  rw [Store.getD, bootFrom_flash, get?_cellsAt_outside _ _ _ _ (by rw [length_dirOf]; omega),
    get?_cellsAt_outside _ _ _ _ (by omega), get?_cellsAt_outside _ _ _ _ (by omega)]
  rw [Store.get?, Option.getD_none]
  simp only [pay, List.getElem_map]
  rfl

theorem boot_passes (x y : Nat) (img : List Byte) (h : (bootFrom x y img).headerOk false 0x1000 = true)
    (hn : (bootFrom x y img).imageSvn 0x1000 = 0) (hp : (bootFrom x y img).payload 0x1000 = []) :
    (bootFrom x y img).imageCheck false 0x1000 = 0 :=
  imageCheck_imageOf false (short_addresses ..) (by decide) (length_bytesOf 16 0) (bootImage_stands x y img) hp h hn rfl

theorem patch_passes (x y : Nat) {tag : List Byte} (ht : tag.length = 16)
    (h : (bootFrom x y (patchImage tag)).headerOk true 0x2000 = true)
    (hn : (bootFrom x y (patchImage tag)).imageSvn 0x2000 = 0) (hl : (bootFrom x y (patchImage tag)).flashNum 0x2010 4 = 4736) :
    (bootFrom x y (patchImage tag)).imageCheck true 0x2000 = 0 :=
  imageCheck_imageOf true (short_addresses ..) (by decide) ht (patchImage_stands x y ht)
    (by rw [State.payload, hl]; exact patchPayload_stands x y ht) h hn rfl

/-- The boot image is there and passes. -/
def State.bootable (s : State) : Prop := s.dirOk = true ∧ s.slotLen 0 ≠ 0 ∧ s.imageCheck false (s.slotAt 0) = 0

theorem bootable_bootFrom (y : Nat) (img : List Byte)
    (h : (bootFrom 256 y img).dirOk = true ∧ (bootFrom 256 y img).slotLen 0 ≠ 0 ∧ (bootFrom 256 y img).slotAt 0 = 0x1000 ∧
      (bootFrom 256 y img).headerOk false 0x1000 = true ∧ (bootFrom 256 y img).imageSvn 0x1000 = 0)
    (hp : (bootFrom 256 y img).payload 0x1000 = []) : State.bootable (bootFrom 256 y img) :=
  ⟨h.1, h.2.1, by rw [h.2.2.1]; exact boot_passes 256 y img h.2.2.2.1 h.2.2.2.2 hp⟩

theorem patch_good : (bootFrom 256 4992 (patchImage goodTag)).imageCheck true 0x2000 = 0 :=
  patch_passes 256 4992 (by simp [goodTag, upto]) (by decide +kernel) (by decide +kernel) (by decide +kernel)

theorem patch_bad : (bootFrom 256 4992 (patchImage badTag)).imageCheck true 0x2000 = 0 :=
  patch_passes 256 4992 (by simp [badTag, length_bytesOf]) (by decide +kernel) (by decide +kernel) (by decide +kernel)

/-- Associated data, nonce, payload and tag of the patch image as they are read from the flash. -/
theorem patch_reads {tag : List Byte} (ht : tag.length = 16)
    (hl : (bootFrom 256 4992 (patchImage tag)).flashNum 0x2010 4 = 4736) :
    (bootFrom 256 4992 (patchImage tag)).tagOk 0x2000 =
      (tag == (upto 16).map (Config.gcmTag (bytesOf 12 0) (head32 2 9 4736 1) pay)) := by
  have h := patchImage_stands 256 4992 ht
  have hp : (bootFrom 256 4992 (patchImage tag)).payload 0x2000 = pay := by
    rw [State.payload, hl]
    exact patchPayload_stands 256 4992 ht
  have e0 : (bootFrom 256 4992 (patchImage tag)).flashBytes 0x2000 32 = head32 2 9 4736 1 := by
    have := flashBytes_part (short_addresses ..) (by decide) h 0 32 (by decide)
    rw [Nat.add_zero] at this
    rw [this]
    simp [patchImage, imageOf, signed, length_head32]
  have e1 : (bootFrom 256 4992 (patchImage tag)).flashBytes (0x2000 + 32) 12 = bytesOf 12 0 := by
    rw [flashBytes_part (short_addresses ..) (by decide) h 32 12 (by decide)]
    simp [patchImage, imageOf, signed, length_head32, length_bytesOf]
  have e2 : (bootFrom 256 4992 (patchImage tag)).flashBytes (0x2000 + 44) 16 = tag := by
    rw [flashBytes_part (short_addresses ..) (by decide) h 44 16 (by decide)]
    simp [patchImage, imageOf, signed, length_head32, List.drop_append, List.take_append, length_bytesOf, ht]
  rw [State.tagOk, e0, e1, e2, hp]

/-- Every clause of the boot is met: what reaches it, and what stands in the flash. -/
theorem witness_bootLeadsToPark_boot :
    (∃ (o : BootRead) (s : State), (s.mode.dev = .m2 ∧ s.rst.booting = true) ∧ o.fault = some 0) ∧
    (∃ (o : BootRead) (s : State), let x : State := { s with flash := flashFill s.flash o.flash }
      (s.mode.dev = .m2 ∧ s.rst.booting = true) ∧ o.fault ≠ some 0 ∧ x.dirOk = false) ∧
    (∃ (o : BootRead) (s : State), let x : State := { s with flash := flashFill s.flash o.flash }
      (s.mode.dev = .m2 ∧ s.rst.booting = true) ∧ o.fault ≠ some 0 ∧ x.dirOk = true ∧ x.slotLen 0 = 0) ∧
    (∃ (o : BootRead) (s : State), let x : State := { s with flash := flashFill s.flash o.flash }
      (s.mode.dev = .m2 ∧ s.rst.booting = true) ∧ o.fault = some 1 ∧ x.dirOk = true ∧ x.slotLen 0 ≠ 0) ∧
    (∃ (o : BootRead) (s : State), let x : State := { s with flash := flashFill s.flash o.flash }
      (s.mode.dev = .m2 ∧ s.rst.booting = true) ∧ o.fault = none ∧ x.dirOk = true ∧ x.slotLen 0 ≠ 0 ∧
        x.imageCheck false (x.slotAt 0) ≠ 0) ∧
    (∃ (o : BootRead) (s : State), let x : State := { s with flash := flashFill s.flash o.flash }
      (s.mode.dev = .m2 ∧ s.rst.booting = true) ∧ o.fault = none ∧ State.bootable x ∧ x.slotLen 1 = 0) ∧
    (∃ (o : BootRead) (s : State), let x : State := { s with flash := flashFill s.flash o.flash }
      (s.mode.dev = .m2 ∧ s.rst.booting = true) ∧ o.fault = some 2 ∧ State.bootable x ∧ x.slotLen 1 ≠ 0) ∧
    (∃ (o : BootRead) (s : State), let x : State := { s with flash := flashFill s.flash o.flash }
      (s.mode.dev = .m2 ∧ s.rst.booting = true) ∧ o.fault = none ∧ State.bootable x ∧ x.slotLen 1 ≠ 0 ∧
        x.imageCheck true (x.slotAt 1) ≠ 0) ∧
    (∃ (o : BootRead) (s : State), let x : State := { s with flash := flashFill s.flash o.flash }
      (s.mode.dev = .m2 ∧ s.rst.booting = true) ∧ o.fault = none ∧ State.bootable x ∧ x.slotLen 1 ≠ 0 ∧
        x.imageCheck true (x.slotAt 1) = 0 ∧ x.tagOk (x.slotAt 1) = false) ∧
    (∃ (o : BootRead) (s : State), let x : State := { s with flash := flashFill s.flash o.flash }
      (s.mode.dev = .m2 ∧ s.rst.booting = true) ∧ o.fault = none ∧ State.bootable x ∧ x.slotLen 1 ≠ 0 ∧
        x.imageCheck true (x.slotAt 1) = 0 ∧ x.tagOk (x.slotAt 1) = true) := by
  have b0 := bootable_bootFrom 0 [] (by decide +kernel) (by decide +kernel)
  have be := bootable_bootFrom 4992 [] (by decide +kernel) (by decide +kernel)
  have bg := bootable_bootFrom 4992 (patchImage goodTag) (by decide +kernel) (by decide +kernel)
  have bb := bootable_bootFrom 4992 (patchImage badTag) (by decide +kernel) (by decide +kernel)
  have ag : (bootFrom 256 4992 (patchImage goodTag)).slotAt 1 = 0x2000 := by decide +kernel
  have ab : (bootFrom 256 4992 (patchImage badTag)).slotAt 1 = 0x2000 := by decide +kernel
  have tg : (bootFrom 256 4992 (patchImage goodTag)).tagOk 0x2000 = true := by
    rw [patch_reads (by simp [goodTag, upto]) (by decide +kernel)]
    simp [goodTag]
  have tb : (bootFrom 256 4992 (patchImage badTag)).tagOk 0x2000 = false := by
    rw [patch_reads (by simp [badTag, length_bytesOf]) (by decide +kernel)]
    simp [badTag, upto, List.range_succ]
  refine ⟨⟨⟨[], some 0, false⟩, bootAt [], ⟨rfl, rfl⟩, rfl⟩,
    ⟨⟨[], none, false⟩, bootAt [], ⟨rfl, rfl⟩, by decide, by decide +kernel⟩,
    ⟨⟨[], none, false⟩, bootAt (cellsAt 0 (dirOf 0 0)), ⟨rfl, rfl⟩, by decide, by decide +kernel⟩,
    ⟨⟨[], some 1, false⟩, bootAt (cellsAt 0 (dirOf 1 0)), ⟨rfl, rfl⟩, rfl, by decide +kernel⟩,
    ⟨⟨[], none, false⟩, bootAt (cellsAt 0 (dirOf 1 0)), ⟨rfl, rfl⟩, rfl, by decide +kernel⟩,
    ⟨⟨[], none, false⟩, bootFrom 256 0 [], ⟨rfl, rfl⟩, rfl, b0, by decide +kernel⟩,
    ⟨⟨[], some 2, false⟩, bootFrom 256 4992 (patchImage goodTag), ⟨rfl, rfl⟩, rfl, bg, by decide +kernel⟩,
    ⟨⟨[], none, false⟩, bootFrom 256 4992 [], ⟨rfl, rfl⟩, rfl, be, by decide +kernel⟩,
    ⟨⟨[], none, false⟩, bootFrom 256 4992 (patchImage badTag), ⟨rfl, rfl⟩, rfl, bb, by decide +kernel,
      by exact ab ▸ patch_bad, by exact ab ▸ tb⟩,
    ⟨⟨[], none, false⟩, bootFrom 256 4992 (patchImage goodTag), ⟨rfl, rfl⟩, rfl, bg, by decide +kernel,
      by exact ag ▸ patch_good, by exact ag ▸ tg⟩⟩

/-- A part in M3 with a sealed image of epoch 5 and an empty body in slot 2. -/
def sealed : List Byte := bytesOf 4 0x4B434154 ++ bytesOf 8 0 ++ bytesOf 4 5 ++ bytesOf 48 0

def tackAt (l : List (Nat × Byte)) : State :=
  { m4 with mode := { m4.mode with dev := .m3, tackLoaded := false }, flash := l }

def tackFrom (tag : List Byte) : State := tackAt (cellsAt 24 (bytesOf 4 0x1000) ++ (cellsAt 0x1000 (sealed ++ tag) ++ []))

theorem tack_stands {tag : List Byte} (ht : tag.length = 48) :
    (tackFrom tag).flashBytes 0x1000 64 = sealed ∧ (tackFrom tag).flashBytes 0x1040 48 = tag := by
  have h4 : natBit (tackFrom tag).otp.bootCfg 8 = false := by
    have : (tackFrom tag).otp = State.reset.otp := rfl
    rw [this]
    decide
  have hs : sealed.length = 64 := by simp [sealed, length_bytesOf]
  have hl : (sealed ++ tag).length = 112 := by simp [hs, ht]
  have h : (tackFrom tag).flashBytes 0x1000 112 = sealed ++ tag := by
    rw [← hl]
    refine flashBytes_eq h4 (by decide) fun i hi => ?_
    have : (tackFrom tag).flash = cellsAt 24 (bytesOf 4 0x1000) ++ (cellsAt 0x1000 (sealed ++ tag) ++ []) := rfl
    rw [Store.getD, this, get?_cellsAt_outside _ _ _ _ (by rw [length_bytesOf]; omega), get?_cellsAt_inside _ _ _ _ hi]
    rfl
  constructor
  · have := flashBytes_part h4 (by decide) h 0 64 (by decide)
    rw [Nat.add_zero] at this
    rw [this]
    simp [hs]
  · rw [flashBytes_part h4 (by decide) h 64 48 (by decide)]
    simp [hs, ← ht]

/-- The seal of that image. -/
def tackTag : List Byte := (upto 48).map (Config.sealTag 0 sealed)

/-- A load finds a valid image, an invalid one, or none. -/
theorem witness_bootLeadsToPark_tack :
    (∃ (faults : BitVec 2) (s : State) (k : Nat), s.mode.dev = .m3 ∧ s.mode.tackLoaded = false ∧
      s.tackChoice faults.toNat = some k) ∧
    (∃ (faults : BitVec 2) (s : State), s.mode.dev = .m3 ∧ s.mode.tackLoaded = false ∧ s.tackChoice faults.toNat = none ∧
      (s.tackThere 2 || s.tackThere 3) = true) ∧
    (∃ (faults : BitVec 2) (s : State), s.mode.dev = .m3 ∧ s.mode.tackLoaded = false ∧ s.tackChoice faults.toNat = none ∧
      s.slotLen 2 = 0 ∧ s.slotLen 3 = 0) := by
  have ht : tackTag.length = 48 := by simp [tackTag, upto]
  have ha : (tackFrom tackTag).slotAt 2 = 0x1000 := by decide +kernel
  have hn : (tackFrom tackTag).tackLen 2 = 0 := by decide +kernel
  have h3 : (tackFrom tackTag).tackValid 3 = false := by decide +kernel
  have hr : (tackFrom tackTag).tackThere 2 = true ∧ (tackFrom tackTag).flashNum (0x1000 + 4) 8 = 0 ∧
      112 ≤ (tackFrom tackTag).slotLen 2 := by
    decide +kernel
  have ho : (tackFrom tackTag).otp.serial = 0 := rfl
  have h2 : (tackFrom tackTag).tackValid 2 = true := by
    have ⟨e1, e2⟩ := tack_stands ht
    have e3 : (tackFrom tackTag).sealTag sealed = tackTag := rfl
    simp [State.tackValid, ha, hn, hr, ho, e1, e2, e3, bodyMax]
  refine ⟨⟨0, tackFrom tackTag, 2, rfl, rfl, ?_⟩,
    ⟨0, tackAt (cellsAt 24 (bytesOf 4 0x1000) ++ cellsAt 0x1000 (bytesOf 4 0x4B434154)), rfl, rfl, by decide +kernel⟩,
    ⟨0, tackAt (cellsAt 28 (bytesOf 4 0) ++ cellsAt 36 (bytesOf 4 0)), rfl, rfl, by decide +kernel⟩⟩
  simp [State.tackChoice, h2, h3, natBit]

theorem noSpace_eq {s : State} {k n : Nat} (hk : s.storeSlot = k) (hn : s.slotLen k = n) :
    s.noSpace = decide (n < s.sealedBody.length + 112) := by rw [State.noSpace, hk, hn]

/-- The image of a STORE does not fit its slot, or fits. -/
theorem witness_farrierStoresAndWindows_room :
    (∃ s : State, s.farState = fStore ∧ s.noSpace = true) ∧ (∃ s : State, s.farState = fStore ∧ s.noSpace = false) := by
  refine ⟨⟨{ farAt .m4 [(Off.farStat, 4)] m4.far with flash := cellsAt 28 (bytesOf 4 0) ++ cellsAt 36 (bytesOf 4 0) },
    by decide +kernel, ?_⟩, ⟨farAt .m4 [(Off.farStat, 4)] m4.far, by decide +kernel, ?_⟩⟩
  · rw [noSpace_eq (k := 2) (n := 0) (by decide +kernel) (by decide +kernel)]
    simp
  · rw [noSpace_eq (k := 2) (n := 2 ^ 32 - 1) (by decide +kernel) (by decide +kernel)]
    have hb : (farAt .m4 [(Off.farStat, 4)] m4.far).sealedBody.length ≤ bodyMax := List.length_take_le ..
    simp only [bodyMax] at hb
    simp only [decide_eq_false_iff_not]
    omega

end Sys2Proof.Tests
end

/-!
PROOF. The end of a park (R115 to R117, R456): it opens the switches that were commanded open, and no other.
-/

namespace Sys2Proof.Machine

/-! ### What the end of a park opens -/

theorem StallSt.opens_eq_false_iff (x : StallSt) (c : Nat) :
    x.opens c = false ↔ ∀ k < 3, (natBit x.opening (3 * c + k) || natBit x.stuck (3 * c + k)) = false := by
  simp [StallSt.opens, upto]

theorem rd_pullUpdate_kind (s : State) (st i o : Nat) {k : PageKind} (h : k ≠ .stl) :
    (s.pullUpdate st).rd k i o = s.rd k i o := rd_wf_kind s st _ i o _ _ _ h

/-- Where no switch of the channel is commanded open, the end of its park moves none (R456). -/
theorem rd_parkDone_swm_of_not_opens (s : State) (st c i o : Nat) (h : (s.stall st).opens c = false) :
    (s.parkDone st c).rd .swm i o = s.rd .swm i o := by
  rw [StallSt.opens_eq_false_iff] at h
  unfold State.parkDone
  simp only [h 0 (by decide), h 1 (by decide), h 2 (by decide), Bool.and_false, Bool.false_eq_true, if_false]
  rw [rd_pullUpdate_kind _ st i o (by decide)]
  split
  · exact rd_wb_kind _ st _ i o c true (by decide)
  · rfl

theorem exec_parkComplete_of_parking {s : State} {st : Fin 128} {c : Fin 16} (hp : s.rb .stl st Off.stlPark c = true)
    (hs : s.rb .stl st Off.stlStat c = false) : exec (.parkComplete st c) s = .next (s.parkDone st c) := by
  change execParkComplete st c s = _
  simp [execParkComplete, hp, hs]

/-- PARK_COMPLETE of a parking channel leaves the switch page as it is where no switch of the channel is commanded open. -/
theorem rd_swm_of_parkComplete {s t : State} {st : Fin 128} {c : Fin 16} (hp : s.rb .stl st Off.stlPark c = true)
    (hs : s.rb .stl st Off.stlStat c = false) (ho : (s.stall st).opens c = false)
    (h : exec (.parkComplete st c) s = .next t) (i o : Nat) : t.rd .swm i o = s.rd .swm i o := by
  obtain rfl := Host.Outcome.next.inj ((exec_parkComplete_of_parking hp hs).symm.trans h)
  exact rd_parkDone_swm_of_not_opens s st c i o ho

/-! ### A channel that parks with a closed switch which nothing has commanded open -/

/-- The state after reset, but for channel 15 of stall 5: it is not PARKED yet, and its driver switch is closed, though
nothing has commanded it open. -/
def parkingClosed : State := (State.reset.wb .stl 5 Off.stlStat 15 false).wb .swm 5 Off.swmCurDrv 15 true

theorem parkingClosed_parking :
    parkingClosed.rb .stl (5 : Fin 128) Off.stlPark (15 : Fin 16) = true ∧
      parkingClosed.rb .stl (5 : Fin 128) Off.stlStat (15 : Fin 16) = false := by
  decide +kernel

theorem parkingClosed_closed :
    parkingClosed.rb .swm (5 : Fin 128) Off.swmCurDrv (15 : Fin 16) = true ∧
      (parkingClosed.stall (5 : Fin 128)).opens (15 : Fin 16) = false := by
  decide +kernel

/-- Refutes O13: its clause on PARK_COMPLETE asks for open switches in every state with the PARK bit set and PARKED clear,
but the end of a park opens only what was commanded open. In `parkingClosed` the driver switch is closed with no such
command, and CUR_DRV still reads 1 afterwards. The clause lacks the hypothesis that the closed switches of the channel have
been commanded open, as the park itself does (R117). -/
theorem not_parkCommandsTakeEffect : ¬ Obligations.ParkCommandsTakeEffect := by
  unfold Obligations.ParkCommandsTakeEffect
  rintro ⟨-, -, parkCompletes, -⟩
  obtain ⟨hp, hs⟩ := parkingClosed_parking
  obtain ⟨hclosed, ho⟩ := parkingClosed_closed
  obtain ⟨t, hexec, -, hopen, -⟩ := parkCompletes 5 15 parkingClosed hp hs
  have hkept := rb_of_rd (rd_swm_of_parkComplete hp hs ho hexec (5 : Fin 128) Off.swmCurDrv) (15 : Fin 16)
  exact Bool.false_ne_true (hopen.symm.trans (hkept.trans hclosed))

end Sys2Proof.Machine

/-!
PROOF. The shell of the state: what the blocks behind the pages leave as it is (the mode layer but for the end of M10 that the
farrier asks for, the pins, the state of reset and boot, the functions, the reset counters), first for the named updates and
for posting entries.
-/

namespace Sys2Proof.Machine

/-- The mode layer, but for the end of M10 that the farrier asks for itself when its run ends (row 8 of R47). -/
def ModeSt.settled (m : ModeSt) : ModeSt :=
  if m.dev = .m10 ∧ m.trans = some (.m4, false) then { m with trans := none } else m

/-- What the pin electronics, the sequencers, the converters, the rings and the grooms leave as it is: the settled mode layer,
the pins, the state of reset and boot, the configuration of the functions, and the reset counters of the lantern. -/
structure Shell where
  mode : ModeSt
  pins : Pins
  rst : RstSt
  fns : List (Nat × FnCfg)
  rstCnt : List (Nat × Nat)

def State.shell (s : State) : Shell := ⟨s.mode.settled, s.pins, s.rst, s.fns, s.lan.rstCnt⟩

/-! ### Reading the shell -/

theorem pins_of_shell {s t : State} (h : t.shell = s.shell) : t.pins = s.pins := congrArg Shell.pins h
theorem rst_of_shell {s t : State} (h : t.shell = s.shell) : t.rst = s.rst := congrArg Shell.rst h
theorem fns_of_shell {s t : State} (h : t.shell = s.shell) : t.fns = s.fns := congrArg Shell.fns h
theorem rstCnt_of_shell {s t : State} (h : t.shell = s.shell) : t.lan.rstCnt = s.lan.rstCnt := congrArg Shell.rstCnt h

/-- A mode layer that is neither at rest in M10 nor leaving it for the farrier is as its settled form shows it. -/
theorem ModeSt.eq_of_settled {m n : ModeSt} (h : n.settled = m.settled)
    (hm : ¬(m.dev = .m10 ∧ (m.trans = none ∨ m.trans = some (.m4, false)))) : n = m := by
  unfold ModeSt.settled at h
  split at h <;> split at h
  · simp_all
  · rename_i hn _
    subst h
    exact absurd ⟨hn.1, Or.inl rfl⟩ hm
  · simp_all
  · exact h

theorem mode_of_shell {s t : State} (h : t.shell = s.shell)
    (hs : ¬(s.mode.dev = .m10 ∧ (s.mode.trans = none ∨ s.mode.trans = some (.m4, false)))) : t.mode = s.mode :=
  ModeSt.eq_of_settled (congrArg Shell.mode h) hs

/-- All of the mode layer but the transition in progress. -/
theorem ModeSt.settled_but_trans (m : ModeSt) : { m.settled with trans := none } = { m with trans := none } := by
  unfold ModeSt.settled
  split <;> rfl

theorem modeParts_of_shell {s t : State} (h : t.shell = s.shell) :
    { t.mode with trans := none } = { s.mode with trans := none } := by
  have := congrArg Shell.mode h
  rw [← ModeSt.settled_but_trans t.mode, ← ModeSt.settled_but_trans s.mode]
  exact congrArg (fun m : ModeSt => { m with trans := none }) this

variable (s : State)

/-! ### Branches and folds -/

/-- Within `State.shell` only the outermost operation is rewritten: what it stores is of no account. -/
@[congr] theorem shell_congr : s.shell = s.shell := rfl

@[simp] theorem shell_ite (c : Prop) [Decidable c] (a b : State) :
    (if c then a else b).shell = if c then a.shell else b.shell := apply_ite State.shell c a b

/-- A fold of steps that keep the shell keeps it. -/
@[simp] theorem shell_foldl {α : Type} (f : State → α → State) (l : List α) (h : ∀ x a, (f x a).shell = x.shell) :
    (l.foldl f s).shell = s.shell :=
  foldl_keeps (fun x => x.shell = s.shell) (fun x a hx => (h x a).trans hx) l rfl

/-! ### Named updates -/

@[simp] theorem shell_setReg (a : Nat) (v : Word) : (s.setReg a v).shell = s.shell := (rfl)
@[simp] theorem shell_wr (k : PageKind) (i o : Nat) (v : Word) : (s.wr k i o v).shell = s.shell := (rfl)
@[simp] theorem shell_wf (k : PageKind) (i o lo n v : Nat) : (s.wf k i o lo n v).shell = s.shell := (rfl)
@[simp] theorem shell_wb (k : PageKind) (i o b : Nat) (v : Bool) : (s.wb k i o b v).shell = s.shell := (rfl)
@[simp] theorem shell_sat (k : PageKind) (i o lo n v : Nat) : (s.sat k i o lo n v).shell = s.shell := (rfl)
@[simp] theorem shell_inc (k : PageKind) (i o lo n v : Nat) : (s.inc k i o lo n v).shell = s.shell := (rfl)
@[simp] theorem shell_wr2 (k : PageKind) (i lo hi v : Nat) : (s.wr2 k i lo hi v).shell = s.shell := (rfl)
@[simp] theorem shell_resetPage (k : PageKind) (i : Nat) (p : Nat → Bool) : (s.resetPage k i p).shell = s.shell := (rfl)
@[simp] theorem shell_startResult (k : PageKind) (i o : Nat) : (s.startResult k i o).shell = s.shell := shell_wb s k i o 16 false
@[simp] theorem shell_storeResult (k : PageKind) (i o v : Nat) : (s.storeResult k i o v).shell = s.shell := shell_wr s k i o _
@[simp] theorem shell_useFree : s.useFree.shell = s.shell := (rfl)
@[simp] theorem shell_setStall (i : Nat) (v : StallSt) : (s.setStall i v).shell = s.shell := (rfl)
@[simp] theorem shell_setRing (i : Nat) (v : RingSt) : (s.setRing i v).shell = s.shell := (rfl)
@[simp] theorem shell_setGroom (i : Nat) (v : GroomSt) : (s.setGroom i v).shell = s.shell := (rfl)
@[simp] theorem shell_setSeq (i : Nat) (v : SeqSt) : (s.setSeq i v).shell = s.shell := (rfl)
@[simp] theorem shell_setChan (i : Nat) (v : ChanSt) : (s.setChan i v).shell = s.shell := (rfl)
@[simp] theorem shell_setTim (i c : Nat) (v : TimUnit) : (s.setTim i c v).shell = s.shell := (rfl)
@[simp] theorem shell_setPmu (i u : Nat) (v : PmuSt) : (s.setPmu i u v).shell = s.shell := (rfl)
@[simp] theorem shell_setCnv (i u : Nat) (v : CnvUnit) : (s.setCnv i u v).shell = s.shell := (rfl)
@[simp] theorem shell_setAcq (i : Nat) (v : AcqSt) : (s.setAcq i v).shell = s.shell := (rfl)
@[simp] theorem shell_setFar (v : FarSt) : (s.setFar v).shell = s.shell := (rfl)
@[simp] theorem shell_setHbmSt (v : HbmSt) : (s.setHbmSt v).shell = s.shell := (rfl)
@[simp] theorem shell_setTrips (i t : Nat) : (s.setTrips i t).shell = s.shell := (rfl)
@[simp] theorem shell_setPba (f v : Nat) (b : Bool) : (s.setPba f v b).shell = s.shell := (rfl)
@[simp] theorem shell_emit (f v : Nat) : (s.emit f v).shell = s.shell := (rfl)
@[simp] theorem shell_hayWrite (o a : Nat) (b : Byte) : (s.hayWrite o a b).shell = s.shell := (rfl)
@[simp] theorem shell_forgetPage (k : PageKind) (i : Nat) : (s.forgetPage k i).shell = s.shell := (rfl)
@[simp] theorem shell_logLose : s.logLose.shell = s.shell := (rfl)
@[simp] theorem shell_ringSet (n o lo w v : Nat) : (s.ringSet n o lo w v).shell = s.shell := (rfl)
@[simp] theorem shell_clusterForget (p : Nat) : (s.clusterForget p).shell = s.shell := (rfl)
@[simp] theorem shell_unlockAll : s.unlockAll.shell = s.shell := (rfl)
@[simp] theorem shell_debugLock : s.debugLock.shell = s.shell := (rfl)

/-! ### Updates of one field -/

@[simp] theorem shell_with_hay (v : Hayloft) : { s with hay := v }.shell = s.shell := (rfl)
@[simp] theorem shell_with_flash (v : List (Nat × Byte)) : { s with flash := v }.shell = s.shell := (rfl)
@[simp] theorem shell_with_catBuf (v : List CapRec) : { s with catBuf := v }.shell = s.shell := (rfl)
@[simp] theorem shell_with_caps (v : List (Nat × Nat)) : { s with caps := v }.shell = s.shell := (rfl)
@[simp] theorem shell_with_grooms (v : List (Nat × GroomSt)) : { s with grooms := v }.shell = s.shell := (rfl)
@[simp] theorem shell_with_follow (v : List (Nat × Word)) : { s with follow := v }.shell = s.shell := (rfl)

@[simp] theorem shell_with_cluster (v : Cluster) : { s with cluster := v }.shell = s.shell := (rfl)
@[simp] theorem shell_with_tims (v : List (Nat × TimUnit)) (w : List (Nat × Vernier)) :
    { s with tims := v, verniers := w }.shell = s.shell := (rfl)
@[simp] theorem shell_with_pmus (v : List (Nat × PmuSt)) (w : List (Nat × Nat)) :
    { s with pmus := v, waves := w }.shell = s.shell := (rfl)
@[simp] theorem shell_with_cnvs (v : List (Nat × CnvUnit)) : { s with cnvs := v }.shell = s.shell := (rfl)
@[simp] theorem shell_with_acqs (v : List (Nat × AcqSt)) : { s with acqs := v }.shell = s.shell := (rfl)
@[simp] theorem shell_with_line (v : Line) : { s with line := v }.shell = s.shell := (rfl)
@[simp] theorem shell_with_sampling (v : List (Nat × Bool)) (w : List (Nat × Nat)) :
    { s with sampling := v, wchPend := w }.shell = s.shell := (rfl)

/-- An update of the lantern that leaves the reset counters. -/
theorem shell_with_lan (v : Lantern) (h : v.rstCnt = s.lan.rstCnt) : { s with lan := v }.shell = s.shell := by
  simp only [State.shell, h]

/-! ### Rings, entries and events -/

/-- What posting an entry leaves as it is includes the shell. -/
theorem shell_of_entryFrame {s t : State} (h : State.EntryFrame s t) : t.shell = s.shell := by
  rw [h.eq]
  rfl

@[simp] theorem shell_event (k : PageKind) (i n : Nat) : (s.event k i n).shell = s.shell := shell_of_entryFrame (event_frame s k i n)
@[simp] theorem shell_err (k : PageKind) (i c o : Nat) : (s.err k i c o).shell = s.shell := shell_of_entryFrame (err_frame s k i c o)
@[simp] theorem shell_logOffer (c ty i d : Nat) : (s.logOffer c ty i d).shell = s.shell := by
  unfold State.logOffer
  split <;> rfl
@[simp] theorem shell_countLoss (p : Producer) : (s.countLoss p).shell = s.shell := by
  cases p <;> simp only [State.countLoss, shell_sat]
@[simp] theorem shell_ringLose (n : Nat) : (s.ringLose n).shell = s.shell := shell_of_entryFrame (posted_ringLose s n).frame
@[simp] theorem shell_ringFlags (n : Nat) : (s.ringFlags n).shell = s.shell := shell_of_entryFrame (posted_ringFlags s n).frame
@[simp] theorem shell_ringDrop (n : Nat) : (s.ringDrop n).shell = s.shell := (rfl)
@[simp] theorem shell_ringCount (n k : Nat) : (s.ringCount n k).shell = s.shell := shell_of_entryFrame (posted_ringCount s n k).frame
@[simp] theorem shell_ringDropSignal (n : Nat) : (s.ringDropSignal n).shell = s.shell :=
  shell_of_entryFrame (posted_ringDropSignal s n).frame
@[simp] theorem shell_ringStore (n : Nat) (p : Producer) (ty body : Nat) (gap : Bool) :
    (s.ringStore n p ty body gap).shell = s.shell := shell_of_entryFrame (posted_ringStore s n p ty body gap).frame

/-- An offer, however it ends and whatever loss its producer counts. -/
@[simp] theorem shell_offer (n : Nat) (p : Producer) (wait : Bool) (ty body : Nat) :
    (s.offer n p wait ty body).1.shell = s.shell := by
  unfold State.offer
  split
  · simp
  · split
    · split
      · split <;> simp
      · simp
      · simp
    · simp

@[simp] theorem shell_post (n : Nat) (p : Producer) (wait : Bool) (ty body : Nat) : (s.post n p wait ty body).shell = s.shell :=
  shell_offer s n p wait ty body

@[simp] theorem shell_ringDisable (n : Nat) : (s.ringDisable n).shell = s.shell := by
  unfold State.ringDisable
  simp

@[simp] theorem shell_deviceMsg (c d : Nat) : (s.deviceMsg c d).shell = s.shell := by
  unfold State.deviceMsg
  split
  · rfl
  · exact shell_foldl _ _ _ fun x ix => shell_of_entryFrame (posted_eventPost x ix .device _ _ rfl).frame

/-! ### Hayloft -/

@[simp] theorem shell_hayWriteBytes (o a : Nat) (bs : List Byte) : (s.hayWriteBytes o a bs).shell = s.shell :=
  shell_of_entryFrame (posted_hayWriteBytes s o a bs).frame

@[simp] theorem shell_poisonWrite (a n : Nat) : (s.poisonWrite a n).shell = s.shell := by
  refine shell_foldl _ _ _ fun x e => ?_
  simp

@[simp] theorem shell_hayStore (o a : Nat) (bs : List Byte) : (s.hayStore o a bs).shell = s.shell := by
  unfold State.hayStore
  simp

end Sys2Proof.Machine

/-!
PROOF. The shell of the state under the operations of the blocks: sequencers, farrier, acquisition engines, converters, PMUs,
switches, hayloft controller and grooms.
-/

namespace Sys2Proof.Machine

variable (s : State)

/-! ### Capture and the end of a run -/

@[simp] theorem shell_hbmErrAddr (a r : Nat) (ue : Bool) : (s.hbmErrAddr a r ue).shell = s.shell := by
  unfold State.hbmErrAddr
  simp
@[simp] theorem shell_hbmUe (a r : Nat) : (s.hbmUe a r).shell = s.shell := by simp [State.hbmUe]
@[simp] theorem shell_hbmCe (a r : Nat) : (s.hbmCe a r).shell = s.shell := by simp [State.hbmCe]

@[simp] theorem shell_hayMerge (o a : Nat) (bs : List Byte) (r : Nat) (e : Ecc) : (s.hayMerge o a bs r e).shell = s.shell := by
  unfold State.hayMerge
  dsimp only
  split <;> simp

@[simp] theorem shell_capWrite (c : CapRec) : (s.capWrite c).shell = s.shell := by simp [State.capWrite]
@[simp] theorem shell_capFlush (q : Nat) : (s.capFlush q).shell = s.shell := by simp [State.capFlush]
@[simp] theorem shell_capture (q : Nat) (v : VecRec) (i : Nat) : (s.capture q v i).shell = s.shell := by
  unfold State.capture
  simp only [shell_ite, shell_setSeq, shell_event, shell_sat, shell_wr, shell_with_catBuf, ite_self]

@[simp] theorem shell_retire (q : Nat) (v : VecRec) : (s.retire q v).shell = s.shell := by
  unfold State.retire
  split <;> simp

@[simp] theorem shell_retireAll (q : Nat) : (s.retireAll q).shell = s.shell := by simp [State.retireAll]
@[simp] theorem shell_postSites (q : Nat) (l : List Nat) : (s.postSites q l).shell = s.shell := by simp [State.postSites]
@[simp] theorem shell_setSeqState (q v : Nat) : (s.setSeqState q v).shell = s.shell := by
  unfold State.setSeqState
  simp
@[simp] theorem shell_portCalm (b : Nat) : (s.portCalm b).shell = s.shell := by
  unfold State.portCalm
  simp
@[simp] theorem shell_panicEnd (q : Nat) : (s.panicEnd q).shell = s.shell := by simp [State.panicEnd]
@[simp] theorem shell_keepGranules (q : Nat) (w : List Nat) : (s.keepGranules q w).shell = s.shell := by
  unfold State.keepGranules
  simp

@[simp] theorem shell_evictIdle (q : Nat) : (s.evictIdle q).shell = s.shell := by
  unfold State.evictIdle
  split <;> simp

@[simp] theorem shell_setMstate (q v : Nat) : (s.setMstate q v).shell = s.shell := by simp [State.setMstate]
@[simp] theorem shell_finishRun (q : Nat) (e : RunEnd) : (s.finishRun q e).shell = s.shell := by simp [State.finishRun]

/-! ### Farrier -/

@[simp] theorem shell_setFarState (v : Nat) : (s.setFarState v).shell = s.shell := by
  unfold State.setFarState
  simp

/-- The end of M10 that a run of the farrier asks for is not of the shell. -/
theorem ModeSt.settled_leaving (m : ModeSt) (hd : m.dev = .m10) (ht : m.trans = none) :
    { m with trans := some (.m4, false) }.settled = m.settled := by
  cases m
  simp_all [ModeSt.settled]

theorem shell_farLeave (h : s.mode.dev = .m10 ∧ s.mode.trans = none) : (s.setTrans (some (.m4, false))).shell = s.shell := by
  simp only [State.shell, State.setTrans, ModeSt.settled_leaving s.mode h.1 h.2]

@[simp] theorem shell_farStore (c : Nat) : (s.farStore c).shell = s.shell := by
  unfold State.farStore
  dsimp only
  split
  · rename_i h
    rw [shell_farLeave _ h]
    simp
  · simp

@[simp] theorem shell_farSettle : s.farSettle.shell = s.shell := by
  unfold State.farSettle
  split <;> simp

@[simp] theorem shell_farEnd (c : Nat) : (s.farEnd c).shell = s.shell := by simp [State.farEnd]

@[simp] theorem shell_wearCycle (st n : Nat) (hot : Bool) : (s.wearCycle st n hot).shell = s.shell := by
  unfold State.wearCycle
  simp only [shell_ite, shell_event, shell_with_lan, ite_self]

@[simp] theorem shell_pullUpdate (st : Nat) : (s.pullUpdate st).shell = s.shell := by
  unfold State.pullUpdate
  simp
@[simp] theorem shell_busOpen (st m : Nat) : (s.busOpen st m).shell = s.shell := by simp [State.busOpen]
@[simp] theorem shell_busOpening (st m : Nat) : (s.busOpening st m).shell = s.shell := by
  unfold State.busOpening
  simp
@[simp] theorem shell_pmuRelease (st u : Nat) : (s.pmuRelease st u).shell = s.shell := by simp [State.pmuRelease]
@[simp] theorem shell_setTimState (st c v : Nat) : (s.setTimState st c v).shell = s.shell := by
  unfold State.setTimState
  simp
@[simp] theorem shell_timEnd (st c e : Nat) : (s.timEnd st c e).shell = s.shell := by simp [State.timEnd]
@[simp] theorem shell_farTimEnd (st : Nat) : (s.farTimEnd st).shell = s.shell := by simp [State.farTimEnd]
@[simp] theorem shell_seqUndefer (q : Nat) : (s.seqUndefer q).shell = s.shell := by simp [State.seqUndefer]
@[simp] theorem shell_stepRelease (x : FarStep) (w : Bool) : (s.stepRelease x w).shell = s.shell := by simp [State.stepRelease]
@[simp] theorem shell_farAbort (p : FarStep → Bool) : (s.farAbort p).shell = s.shell := by simp [State.farAbort]
@[simp] theorem shell_farAbortChans (st m : Nat) : (s.farAbortChans st m).shell = s.shell := by simp [State.farAbortChans]
@[simp] theorem shell_farPreempt : s.farPreempt.shell = s.shell := by simp [State.farPreempt]
@[simp] theorem shell_storeSpoil : s.storeSpoil.shell = s.shell := by
  unfold State.storeSpoil
  split <;> rfl
@[simp] theorem shell_storeCut : s.storeCut.shell = s.shell := by simp [State.storeCut]

/-! ### Sequencers -/

@[simp] theorem shell_starveCount (q : Nat) : (s.starveCount q).shell = s.shell := by
  unfold State.starveCount
  simp
@[simp] theorem shell_endRun (q : Nat) (e : RunEnd) : (s.endRun q e).shell = s.shell := by simp [State.endRun]
@[simp] theorem shell_cutWindows (q t : Nat) : (s.cutWindows q t).shell = s.shell := by simp [State.cutWindows]
@[simp] theorem shell_cancelEdges (q : Nat) : (s.cancelEdges q).shell = s.shell := by simp [State.cancelEdges]
@[simp] theorem shell_cutRun (q c : Nat) (f : Bool) : (s.cutRun q c f).shell = s.shell := by simp [State.cutRun]
@[simp] theorem shell_seqPreempt (q : Nat) : (s.seqPreempt q).shell = s.shell := by simp [State.seqPreempt]
@[simp] theorem shell_primePreempt (q : Nat) : (s.primePreempt q).shell = s.shell := by simp [State.primePreempt]

@[simp] theorem shell_seqClear (q : Nat) : (s.seqClear q).shell = s.shell := by
  unfold State.seqClear
  rw [shell_setSeq]
  split <;> simp

@[simp] theorem shell_seqEdge (k : Nat) : (s.seqEdge k).shell = s.shell := by simp [State.seqEdge]

/-! ### Acquisition engines -/

@[simp] theorem shell_setAcqState (b v : Nat) : (s.setAcqState b v).shell = s.shell := by
  unfold State.setAcqState
  simp
@[simp] theorem shell_portPanic (b : Nat) : (s.portPanic b).shell = s.shell := by simp [State.portPanic]
@[simp] theorem shell_acqPort (b : Nat) : (s.acqPort b).shell = s.shell := by simp [State.acqPort]

@[simp] theorem shell_acqRelease (b n : Nat) : (s.acqRelease b n).shell = s.shell := by
  unfold State.acqRelease
  split <;> simp

theorem shell_acqOffer {b n : Nat} {force : Bool} {t : State} (h : s.acqOffer b n force = some t) : t.shell = s.shell := by
  unfold State.acqOffer at h
  dsimp only at h
  repeat' split at h
  all_goals cases h
  all_goals simp

@[simp] theorem shell_acqPumpN (b n : Nat) (force : Bool) (fuel : Nat) : (s.acqPumpN b n force fuel).shell = s.shell := by
  induction fuel generalizing s with
  | zero => rfl
  | succ f ih =>
    rw [State.acqPumpN]
    split
    · rename_i x hx
      rw [ih, shell_acqOffer s hx]
    · rfl

@[simp] theorem shell_acqStore (b : Nat) (r : AcqRec) : (s.acqStore b r).shell = s.shell := by simp [State.acqStore]

@[simp] theorem shell_acqPump (b : Nat) (force : Bool) : (s.acqPump b force).shell = s.shell := by
  unfold State.acqPump
  dsimp only
  repeat' split
  all_goals simp

@[simp] theorem shell_acqClose (b n c : Nat) (trunc : Bool) : (s.acqClose b n c trunc).shell = s.shell := by
  unfold State.acqClose
  dsimp only
  split <;> simp

@[simp] theorem shell_acqPostCheck (b : Nat) : (s.acqPostCheck b).shell = s.shell := by
  unfold State.acqPostCheck
  dsimp only
  split <;> simp

@[simp] theorem shell_acqOverflow (b n : Nat) : (s.acqOverflow b n).shell = s.shell := by
  unfold State.acqOverflow
  split <;> simp

@[simp] theorem shell_acqEvent (b t : Nat) : (s.acqEvent b t).shell = s.shell := by simp [State.acqEvent]
@[simp] theorem shell_acqReach (b : Nat) : (s.acqReach b).shell = s.shell := by simp [State.acqReach]
@[simp] theorem shell_acqDrained (b : Nat) : (s.acqDrained b).shell = s.shell := by simp [State.acqDrained]
@[simp] theorem shell_acqIdle (b : Nat) : (s.acqIdle b).shell = s.shell := by simp [State.acqIdle]
@[simp] theorem shell_acqEnd (st u : Nat) : (s.acqEnd st u).shell = s.shell := by simp [State.acqEnd]
@[simp] theorem shell_acqPreempt (b : Nat) : (s.acqPreempt b).shell = s.shell := by simp [State.acqPreempt]
@[simp] theorem shell_acqEdge (k : Nat) (rise : Bool) : (s.acqEdge k rise).shell = s.shell := by simp [State.acqEdge]

/-! ### Converters and PMUs -/

@[simp] theorem shell_setCnvState (st u v : Nat) : (s.setCnvState st u v).shell = s.shell := by
  unfold State.setCnvState
  simp
@[simp] theorem shell_cnvDisturb (st u : Nat) : (s.cnvDisturb st u).shell = s.shell := by simp [State.cnvDisturb]
@[simp] theorem shell_cnvTrigger (st u t : Nat) : (s.cnvTrigger st u t).shell = s.shell := by simp [State.cnvTrigger]
@[simp] theorem shell_cnvReach (st u : Nat) : (s.cnvReach st u).shell = s.shell := by simp [State.cnvReach]
@[simp] theorem shell_cnvCut (st u c : Nat) : (s.cnvCut st u c).shell = s.shell := by simp [State.cnvCut]
@[simp] theorem shell_cnvPreempt (st u : Nat) : (s.cnvPreempt st u).shell = s.shell := by simp [State.cnvPreempt]
@[simp] theorem shell_cnvPower (st : Nat) (on : Bool) : (s.cnvPower st on).shell = s.shell := by simp [State.cnvPower]

/-- A step over every unit listed, each keeping the shell. -/
@[simp] theorem shell_cnvAll (f : State → Nat → Nat → State) (h : ∀ x i u, (f x i u).shell = x.shell) :
    (s.cnvAll f).shell = s.shell := shell_foldl _ _ _ fun x _ => h x _ _

@[simp] theorem shell_cnvEdge (k : Nat) : (s.cnvEdge k).shell = s.shell := by simp [State.cnvEdge]
@[simp] theorem shell_refOff (b : Nat) : (s.refOff b).shell = s.shell := by simp [State.refOff]

@[simp] theorem shell_throttle (st u : Nat) : (s.throttle st u).shell = s.shell := by
  unfold State.throttle
  simp
@[simp] theorem shell_pmuFlag (st u f : Nat) : (s.pmuFlag st u f).shell = s.shell := by simp [State.pmuFlag]
@[simp] theorem shell_applyWave (st u : Nat) (p : PmuSt) : (s.applyWave st u p).shell = s.shell := by simp [State.applyWave]
@[simp] theorem shell_setPmuState (st u v : Nat) : (s.setPmuState st u v).shell = s.shell := by
  unfold State.setPmuState
  simp
@[simp] theorem shell_pmuOutOff (st u v : Nat) : (s.pmuOutOff st u v).shell = s.shell := by simp [State.pmuOutOff]
@[simp] theorem shell_pmuPower (st : Nat) (on : Bool) : (s.pmuPower st on).shell = s.shell := by simp [State.pmuPower]
@[simp] theorem shell_pmuClamp (st u : Nat) : (s.pmuClamp st u).shell = s.shell := by simp [State.pmuClamp]
@[simp] theorem shell_pmuClampStall (st : Nat) : (s.pmuClampStall st).shell = s.shell := by simp [State.pmuClampStall]
@[simp] theorem shell_pmuParked (st m : Nat) : (s.pmuParked st m).shell = s.shell := by simp [State.pmuParked]
@[simp] theorem shell_setCaps (l : List (Nat × Nat)) : (s.setCaps l).shell = s.shell := by simp [State.setCaps]

/-! ### Switches and parking -/

@[simp] theorem shell_openSwitches (st m : Nat) : (s.openSwitches st m).shell = s.shell := by
  unfold State.openSwitches
  simp
@[simp] theorem shell_vernierStop (st : Nat) : (s.vernierStop st).shell = s.shell := by
  unfold State.vernierStop
  simp
@[simp] theorem shell_timPreempt (st m : Nat) : (s.timPreempt st m).shell = s.shell := by simp [State.timPreempt]
@[simp] theorem shell_batchEnd (st c : Nat) : (s.batchEnd st c).shell = s.shell := by simp [State.batchEnd]
@[simp] theorem shell_batchClose (st : Nat) (b : Batch) (h : Nat) : (s.batchClose st b h).shell = s.shell := by
  unfold State.batchClose
  simp
@[simp] theorem shell_batchOpen (st : Nat) (b : Batch) (h : Nat) : (s.batchOpen st b h).shell = s.shell := by
  simp [State.batchOpen]
@[simp] theorem shell_batchMove (st : Nat) (b : Batch) (ho hc : Nat) (c : Bool) : (s.batchMove st b ho hc c).shell = s.shell := by
  simp [State.batchMove]

@[simp] theorem shell_batchPreempt (st m : Nat) : (s.batchPreempt st m).shell = s.shell := by
  unfold State.batchPreempt
  split <;> simp

@[simp] theorem shell_park (st m : Nat) : (s.park st m).shell = s.shell := by simp [State.park]
@[simp] theorem shell_parkDone (st c : Nat) : (s.parkDone st c).shell = s.shell := by simp [State.parkDone]
@[simp] theorem shell_hwPark (st m : Nat) : (s.hwPark st m).shell = s.shell := by simp [State.hwPark]
@[simp] theorem shell_stallsTripped : s.stallsTripped.shell = s.shell := by simp [State.stallsTripped]

@[simp] theorem shell_breakAll : s.breakAll.shell = s.shell := by
  refine shell_foldl _ _ _ fun x e => ?_
  split <;> simp

/-! ### Watch comparators, timing base, hayloft controller, grooms -/

@[simp] theorem shell_tripHold (st t : Nat) : (s.tripHold st t).shell = s.shell := by
  unfold State.tripHold
  simp
@[simp] theorem shell_watchUnres (st m : Nat) : (s.watchUnres st m).shell = s.shell := by simp [State.watchUnres]
@[simp] theorem shell_tmbBit (b : Nat) (v : Bool) : (s.tmbBit b v).shell = s.shell := by simp [State.tmbBit]
@[simp] theorem shell_setHbm (b : Nat) (v : Bool) : (s.setHbm b v).shell = s.shell := by
  unfold State.setHbm
  simp
@[simp] theorem shell_reserve : s.reserve.shell = s.shell := by simp [State.reserve]
@[simp] theorem shell_debtsClear : s.debtsClear.shell = s.shell := by
  unfold State.debtsClear
  simp
@[simp] theorem shell_hayWake : s.hayWake.shell = s.shell := by simp [State.hayWake]
@[simp] theorem shell_rateEnd (c p : Nat) : (s.rateEnd c p).shell = s.shell := by simp [State.rateEnd]

@[simp] theorem shell_ratePreempt : s.ratePreempt.shell = s.shell := by
  unfold State.ratePreempt
  split <;> simp

@[simp] theorem shell_groomAbort (p : Nat → Bool) : (s.groomAbort p).shell = s.shell := by simp [State.groomAbort]
@[simp] theorem shell_modEnd (c t : Nat) : (s.modEnd c t).shell = s.shell := by simp [State.modEnd]
@[simp] theorem shell_pmodEnd (d c t : Nat) : (s.pmodEnd d c t).shell = s.shell := by simp [State.pmodEnd]

@[simp] theorem shell_transPreempt : s.transPreempt.shell = s.shell := by
  unfold State.transPreempt
  split <;> simp

end Sys2Proof.Machine

/-!
PROOF. The shell of the state under the resets of pages and owners, and under the entry into a domain mode.
-/

namespace Sys2Proof.Machine

variable (s : State)

/-! ### Resets of pages and owners -/

/-- Two kinds of page hold pins, which the reset of the block drives. -/
def PageKind.drivesPins (k : PageKind) : Bool := k == .hal || k == .wvn

theorem shell_blockClear (k : PageKind) (i : Nat) (hk : k.drivesPins = false) : (s.blockClear k i).shell = s.shell := by
  cases k
  case hal => simp [PageKind.drivesPins] at hk
  case wvn => simp [PageKind.drivesPins] at hk
  case stl => exact (shell_with_follow _ _).trans (shell_park s i allChans)
  case lvl => exact shell_park s i allChans
  case cmp => exact shell_park s i allChans
  case swm => exact shell_park s i allChans
  case drv => exact (shell_setStall _ i _).trans (shell_park s i allChans)
  case tim => exact (shell_with_tims _ _ _).trans (shell_park s i allChans)
  case pmu =>
    refine (shell_with_pmus _ _ _).trans ?_
    simp
  case cnv =>
    refine (shell_with_cnvs _ _).trans ?_
    simp
  case wch => exact (shell_with_sampling _ _ _).trans (shell_setStall (s.setTrips i 0) i _)
  case seq => exact shell_seqClear s i
  case apg => exact shell_setSeq s i _
  case site => exact (shell_setSeq _ i _).trans (shell_capFlush s i)
  case acq => exact (shell_with_acqs _ _).trans (shell_acqPreempt s i)
  case brn =>
    simp only [State.blockClear]
    split
    · exact (shell_with_line _ _).trans (shell_refOff s i)
    · exact shell_refOff s i
  case tmb =>
    simp only [State.blockClear]
    split <;> rfl
  case far =>
    refine (shell_setFar _ _).trans ?_
    simp
  all_goals rfl

@[simp] theorem shell_linePerUpdate : s.linePerUpdate.shell = s.shell := by simp [State.linePerUpdate]
@[simp] theorem shell_lineShow : s.lineShow.shell = s.shell := by simp [State.lineShow]
@[simp] theorem shell_repower (k : PageKind) (i : Nat) : (s.repower k i).shell = s.shell := by simp [State.repower]
@[simp] theorem shell_pageWipe (ref : State) (k : PageKind) (i : Nat) : (s.pageWipe ref k i).shell = s.shell := by
  simp [State.pageWipe]

theorem shell_pageReset (k : PageKind) (i : Nat) (hk : k.drivesPins = false) : (s.pageReset k i).shell = s.shell := by
  simp [State.pageReset, shell_blockClear s k i hk]

theorem shell_penPage (ref : State) (k : PageKind) (i : Nat) (hk : k.drivesPins = false) :
    (s.penPage ref k i).shell = s.shell := by
  simp [State.penPage, shell_blockClear s k i hk]

/-- A fold of page resets over kinds that drive no pin. -/
theorem shell_penPages (ref : State) (l : List PageKind) (i : Nat) (hl : ∀ k ∈ l, k.drivesPins = false) :
    (l.foldl (fun x k => x.penPage ref k i) s).shell = s.shell := by
  induction l generalizing s with
  | nil => rfl
  | cons k t ih =>
    rw [List.foldl_cons, ih _ fun j hj => hl j (List.mem_cons_of_mem _ hj), shell_penPage s ref k i (hl k List.mem_cons_self)]

@[simp] theorem shell_stallReset (ref : State) (st : Nat) : (s.stallReset ref st).shell = s.shell :=
  shell_penPages s ref stallPages st (by decide)
@[simp] theorem shell_seqReset (ref : State) (q : Nat) : (s.seqReset ref q).shell = s.shell :=
  shell_penPages s ref seqPages q (by decide)
@[simp] theorem shell_ringsOff (o : Nat) : (s.ringsOff o).shell = s.shell := by simp [State.ringsOff]
@[simp] theorem shell_ownerReset (o : Nat) (acqs : Bool) : (s.ownerReset o acqs).shell = s.shell := by
  have h : ∀ (x : State) (b : Nat), (x.penPage s .acq b).shell = x.shell := fun x b => shell_penPage x s .acq b rfl
  simp [State.ownerReset, h]

@[simp] theorem shell_clusterReset : s.clusterReset.shell = s.shell := by
  have h1 : ((upto 8).foldl (fun (x : State) g => x.pageReset .groom g) s).shell = s.shell :=
    shell_foldl _ _ _ fun x g => shell_pageReset x .groom g rfl
  unfold State.clusterReset
  simp only [shell_wr, shell_pageReset _ .grm 0 rfl, shell_with_cluster, h1]

/-! ### Entering and leaving device and domain modes -/

@[simp] theorem shell_enterDom (o : Nat) (m : DomMode) : (s.enterDom o m).shell = s.shell := by
  unfold State.enterDom
  cases m <;> simp

end Sys2Proof.Machine

/-!
PROOF. The modes in force (R38) and the requests of domain modes (R47, R52, R53): O54, O11 and O10.
-/

namespace Sys2Proof.Machine

/-! ### Masks -/

theorem maskOf_succ (n : Nat) (p : Nat → Bool) : maskOf (n + 1) p = maskOf n p + 2 ^ n * bit (p n) := by
  simp only [maskOf, List.range_succ, List.foldl_append, List.foldl_cons, List.foldl_nil]
  cases p n <;> simp [bit]

theorem maskOf_lt (n : Nat) (p : Nat → Bool) : maskOf n p < 2 ^ n := by
  induction n with
  | zero => simp [maskOf]
  | succ n ih =>
    rw [maskOf_succ, Nat.pow_succ]
    refine lt_mul_of_parts ih ?_
    cases p n <;> simp [bit]

theorem testBit_bit (b : Bool) (j : Nat) : (bit b).testBit j = (decide (j = 0) && b) := by
  cases b
  · simp [bit]
  · cases j <;> simp [bit, Nat.testBit_succ]

/-- Bit `i` of a mask is set where its predicate holds below the mask's width. -/
theorem testBit_maskOf (n : Nat) (p : Nat → Bool) (i : Nat) : (maskOf n p).testBit i = (decide (i < n) && p i) := by
  induction n with
  | zero => simp [maskOf]
  | succ n ih =>
    rw [maskOf_succ, Nat.add_comm, Nat.testBit_two_pow_mul_add _ (maskOf_lt n p), ih, testBit_bit]
    rcases Nat.lt_trichotomy i n with h | rfl | h
    · simp [h, Nat.lt_succ_of_lt h]
    · simp
    · simp [Nat.not_lt_of_gt h, Nat.sub_ne_zero_of_lt h, show ¬i < n + 1 by omega]

@[simp] theorem natBit_maskOf (n : Nat) (p : Nat → Bool) (i : Nat) : natBit (maskOf n p) i = (decide (i < n) && p i) :=
  testBit_maskOf n p i

theorem tbit_word_maskOf (n : Nat) (p : Nat → Bool) (i : Nat) (hn : n ≤ 32) :
    tbit (word (maskOf n p)) i = (decide (i < n) && p i) := by
  rw [tbit, toNat_word _ (lt_of_lt_of_le (maskOf_lt n p) (Nat.pow_le_pow_right (by decide) hn)), testBit_maskOf]

/-! ### The modes in force -/

/-- The view of MOD_SET is the mask of the pen modes in force. -/
theorem view_modSet (s : State) (r : Requester) : s.view r .mod0 0 Off.modSet = s.modSetView := rfl

/-- Outside M4 no domain shows a pen mode, for it shows the device mode. -/
theorem domNum_of_not_m4 {s : State} (h : s.mode.dev ≠ .m4) (d : Nat) : s.domNum d = s.mode.dev.num := if_neg h

/-- A domain shows a pen mode in M4 alone. -/
theorem dev_of_domNum {s : State} {d m : Nat} (h : s.domNum d = m) (h6 : 6 ≤ m) (h9 : m ≤ 9) : s.mode.dev = .m4 := by
  by_contra hd
  rw [domNum_of_not_m4 hd] at h
  cases hm : s.mode.dev <;> simp only [hm, DevMode.num] at h <;> omega

/-- Settles O54: MOD_SET is a mask over the modes below 10, and a domain that shows a pen mode shows it in M4. -/
theorem modSetShowsTheModesInForce : Obligations.ModSetShowsTheModesInForce := by
  unfold Obligations.ModSetShowsTheModesInForce
  intro r s m _
  rw [view_modSet, State.modSetView, tbit_word_maskOf _ _ _ (by decide)]
  simp only [upto, Bool.and_eq_true, decide_eq_true_eq, beq_iff_eq, List.any_eq_true, List.mem_range]
  constructor
  · rintro ⟨hlt, ⟨h6, -⟩, d, hd, he⟩
    exact ⟨h6, by omega, d, hd, he⟩
  · rintro ⟨h6, h9, d, hd, he⟩
    exact ⟨by omega, ⟨h6, dev_of_domNum he h6 h9⟩, d, hd, he⟩

/-! ### Registers beside the mode layer -/

@[simp] theorem rd_with_mode (s : State) (m : ModeSt) (k : PageKind) (i o : Nat) :
    { s with mode := m }.rd k i o = s.rd k i o := rfl
@[simp] theorem rb_with_mode (s : State) (m : ModeSt) (k : PageKind) (i o b : Nat) :
    { s with mode := m }.rb k i o b = s.rb k i o b := rfl

/-! ### Mode requests: the word written and the result stored -/

theorem request_target (t : Nat) (c : BitVec 8) (ht : t < 16) : fld (word (t + 2 ^ 8 * c.toNat)) 0 4 = t := by
  rw [fld_word _ _ _ (by decide)]
  omega

theorem request_confirm (t : Nat) (c : BitVec 8) (ht : t < 16) : fld (word (t + 2 ^ 8 * c.toNat)) 8 8 = c.toNat := by
  rw [fld_word _ _ _ (by decide)]
  have := c.isLt
  omega

/-- The result of a domain request shows its code, VALID, and the next sequence number (R53, R84). -/
theorem pmodEnd_result (s : State) (d : Nat) {code target : Nat} (hc : code < 16) (ht : target < 16) :
    (s.pmodEnd d code target).rf .modp d Off.modPresult 8 4 = code ∧
      (s.pmodEnd d code target).rb .modp d Off.modPresult 16 = true ∧
      (s.pmodEnd d code target).rf .modp d Off.modPresult 0 8 = (s.rf .modp d Off.modPresult 0 8 + 1) % 256 := by
  have hseq : (s.rf .modp d Off.modPresult 0 8 + 1) % 256 < 256 := Nat.mod_lt _ (by decide)
  have hrd := storeResult_rd s .modp d Off.modPresult (code * 2 ^ 8 + target * 2 ^ 12)
  generalize (s.rf .modp d Off.modPresult 0 8 + 1) % 256 = n at hseq hrd
  refine ⟨?_, ?_, ?_⟩
  · rw [State.rf, State.pmodEnd, hrd, fld_word _ _ _ (by decide)]
    omega
  · rw [State.rb, State.pmodEnd, hrd, tbit_eq_fld, fld_word _ _ _ (by decide), decide_eq_true_eq]
    omega
  · rw [State.rf, State.pmodEnd, hrd, fld_word _ _ _ (by decide)]
    omega

theorem DomMode.num_lt (m : DomMode) : m.num < 16 := by cases m <;> decide

theorem domTarget_num (m : DomMode) : domTarget m.num = some m := by cases m <;> rfl

/-- A MOD_PCMD command of any target writes that target and its CONFIRM. -/
theorem exec_modPcmd {c : Instr} {r : Requester} {d : Fin 9} {confirm : BitVec 8} {m : DomMode} (s : State)
    (h : (c = .modPcmdM4 r d confirm ∧ m = .m4) ∨ (c = .modPcmdM6 r d confirm ∧ m = .m6) ∨
      (c = .modPcmdM7 r d confirm ∧ m = .m7) ∨ (c = .modPcmdM8 r d confirm ∧ m = .m8) ∨
      (c = .modPcmdM9 r d confirm ∧ m = .m9))
    (ha : s.accepts r .modp d Off.modPcmd (word (m.num + 2 ^ 8 * confirm.toNat)) = true) :
    exec c s = .next (modPcmdWrite d (word (m.num + 2 ^ 8 * confirm.toNat)) s) := by
  rw [← guarded_of_accepts ha (modPcmdWrite d (word (m.num + 2 ^ 8 * confirm.toNat)))]
  rcases h with ⟨rfl, rfl⟩ | ⟨rfl, rfl⟩ | ⟨rfl, rfl⟩ | ⟨rfl, rfl⟩ | ⟨rfl, rfl⟩ <;> rfl

/-- A wrong CONFIRM is found before any other fault (R53). -/
theorem pmodCheck_badConfirm {s : State} {d : Nat} {v : Word} (h : fld v 8 8 ≠ 0xC3) : s.pmodCheck d v = modBadConfirm := if_pos h

/-- A request refused with a code leaves its result. -/
theorem modPcmdWrite_refused {s : State} {d : Nat} {v : Word} (hn : Store.get? s.mode.domTrans d = none)
    (hc : s.pmodCheck d v = modBadConfirm) :
    modPcmdWrite d v s = (s.startResult .modp d Off.modPresult).pmodEnd d modBadConfirm (fld v 0 4) := by
  unfold modPcmdWrite
  simp only [hn, hc, Option.isSome_none, Bool.false_eq_true, if_false]
  rfl

/-- Settles O11: the check of CONFIRM comes first, and a refused request stores its result and nothing else. -/
theorem badConfirmChangesNoMode : Obligations.BadConfirmChangesNoMode := by
  unfold Obligations.BadConfirmChangesNoMode
  intro c r d confirm m s hreq hconfirm hacc hn
  have hbad : fld (word (m.num + 2 ^ 8 * confirm.toNat)) 8 8 ≠ 0xC3 := by
    rw [request_confirm _ _ m.num_lt]
    exact fun h => hconfirm (BitVec.eq_of_toNat_eq h)
  have hres := pmodEnd_result (s.startResult .modp d Off.modPresult) d (code := modBadConfirm) (by decide) m.num_lt
  rw [startResult_field _ _ _ _ _ _ (by decide)] at hres
  obtain ⟨hcode, hvalid, hseq⟩ := hres
  refine ⟨_, exec_modPcmd s hreq hacc, ?_⟩
  rw [modPcmdWrite_refused hn (pmodCheck_badConfirm hbad), request_target _ _ m.num_lt]
  refine ⟨?_, hcode, hvalid, hseq⟩
  rw [State.pmodEnd, State.storeResult_mode, State.startResult_mode]

/-- A request that no rule of R53 refuses is honoured. -/
theorem pmodCheck_ok {s : State} {d : Fin 9} {m : DomMode} (hq : s.quietM4 = true)
    (hn : Store.get? s.mode.domTrans d = none) (hb : d.val < 8 → s.penBusy d = false) (hm : m ≠ s.domMode (domOwner d))
    (hu : s.domMode (domOwner d) = .m4 ∨ s.unitActive (domOwner d) m = false) :
    s.pmodCheck d (word (m.num + 2 ^ 8 * (0xC3 : BitVec 8).toNat)) = modOk := by
  have hbusy : ¬((Store.get? s.mode.domTrans d).isSome = true ∨ d.val < 8 ∧ s.penBusy d = true) := by
    rintro (h | ⟨h, hp⟩)
    · simp [hn] at h
    · simp [hb h] at hp
  have hunit : ¬((s.domMode (domOwner d) == .m4) = false ∧ s.unitActive (domOwner d) m = true) := by
    rintro ⟨h4, h⟩
    rcases hu with hu | hu
    · simp [hu] at h4
    · simp [hu] at h
  unfold State.pmodCheck
  rw [request_confirm _ _ m.num_lt, request_target _ _ m.num_lt, domTarget_num]
  dsimp only
  rw [if_neg (by decide), if_neg (by simp [hq]), if_neg hbusy, if_neg hm, if_neg hunit]

/-- An honoured request is held as the transition of its domain, and VALID of its result is clear (R53). -/
theorem modPcmdWrite_ok {s : State} {d : Nat} {v : Word} {m : DomMode} (hn : Store.get? s.mode.domTrans d = none)
    (hc : s.pmodCheck d v = modOk) (ht : domTarget (fld v 0 4) = some m) :
    modPcmdWrite d v s =
      { s.startResult .modp d Off.modPresult with mode := { s.mode with domTrans := Store.put s.mode.domTrans d m } } := by
  unfold modPcmdWrite
  simp only [hn, hc, ht, modOk, Option.isSome_none, Bool.false_eq_true, if_false, State.startResult_mode]

/-- Settles O10: a request that meets every rule of R53 is held, and only VALID of its result changes beside. -/
theorem domainRequestsAreTaken : Obligations.DomainRequestsAreTaken := by
  unfold Obligations.DomainRequestsAreTaken
  intro c r d m s hreq hacc hq hn hb hm hu
  refine ⟨_, exec_modPcmd s hreq hacc, ?_⟩
  rw [modPcmdWrite_ok hn (pmodCheck_ok hq hn hb hm hu) (by rw [request_target _ _ m.num_lt, domTarget_num])]
  refine ⟨by simp [Store.get?_put], ?_, rfl, rfl, rfl⟩
  rw [rb_with_mode, startResult_valid]

end Sys2Proof.Machine

/-!
PROOF. The requests of device modes (R47, R52, R53, R57) and the recovery reset: O9.
-/

namespace Sys2Proof.Machine

/-! ### Resets of VIN_POR reach -/

section
variable (s : State) (por recovery : Bool)

theorem wideReset_mode : (s.wideReset por recovery).mode = ⟨.m2, none, [], [], false, recovery, false, none, false⟩ := by
  unfold State.wideReset
  rw [State.wf_mode]
  rfl

theorem wideReset_pins : (s.wideReset por recovery).pins =
    { State.reset.pins with vin := s.pins.vin, vbak := s.pins.vbak, resetN := s.pins.resetN, perstN := s.pins.perstN
                            evIn := s.pins.evIn, indexN := s.pins.indexN, csLow := s.pins.csLow } := by
  unfold State.wideReset
  rw [State.wf_pins]

theorem wideReset_rst : (s.wideReset por recovery).rst =
    { State.reset.rst with isl := 0, loading := false, porCounted := s.rst.porCounted, episode := s.rst.episode
                           lanternLost := s.rst.lanternLost, choreLost := s.rst.choreLost && s.pins.vin } := by
  unfold State.wideReset
  rw [State.wf_rst]

theorem wideReset_pending : (s.wideReset por recovery).pending = s.pending := by
  unfold State.wideReset
  rw [State.wf_pending]

/-- Without VIN the hayloft loses its contents. -/
theorem wideReset_cells (h : s.pins.vin = false) : (s.wideReset por recovery).hay.cells = [] := by
  unfold State.wideReset
  rw [State.wf_hay]
  simp only [h, Bool.not_false, if_true]
  rfl

/-! ### Counting, the episode, and the yard -/

@[simp] theorem countReset_mode (c : Nat) : (s.countReset c).mode = s.mode := rfl
@[simp] theorem countReset_pins (c : Nat) : (s.countReset c).pins = s.pins := rfl
@[simp] theorem countReset_rst (c : Nat) : (s.countReset c).rst = s.rst := rfl
@[simp] theorem countReset_pending (c : Nat) : (s.countReset c).pending = s.pending := rfl
@[simp] theorem countReset_hay (c : Nat) : (s.countReset c).hay = s.hay := rfl
@[simp] theorem episodeJoin_mode (c : Nat) : (s.episodeJoin c).mode = s.mode := rfl
@[simp] theorem episodeJoin_pins (c : Nat) : (s.episodeJoin c).pins = s.pins := rfl
@[simp] theorem episodeJoin_lan (c : Nat) : (s.episodeJoin c).lan = s.lan := rfl
@[simp] theorem episodeJoin_isl (c : Nat) : (s.episodeJoin c).rst.isl = s.rst.isl := rfl

theorem yardDue_cases : s.yardDue = s ∨ s.yardDue = s.wb .rst 0 Off.rstIslPend 8 true := by
  unfold State.yardDue
  split
  · exact Or.inr rfl
  · exact Or.inl rfl

@[simp] theorem yardDue_mode : s.yardDue.mode = s.mode := by
  rcases yardDue_cases s with h | h <;> simp only [h, State.wb_mode]

/-- The end of an episode names its cause and offers one entry; else nothing happens. -/
theorem episodeEnd_cases : s.episodeEnd = s ∨
    ∃ c, s.episodeEnd = { s with rst := { s.rst with episode := none }, lan := { s.lan with rstLast := c } }.logOffer logReset
      PageKind.rst.typeCode 0 c := by
  unfold State.episodeEnd
  split
  · split
    · exact Or.inr ⟨_, rfl⟩
    · exact Or.inl rfl
  · exact Or.inl rfl

@[simp] theorem episodeEnd_mode : s.episodeEnd.mode = s.mode := by
  rcases episodeEnd_cases s with h | ⟨c, h⟩
  · rw [h]
  · rw [h, State.logOffer_mode]

end

/-! ### Device requests -/

@[simp] theorem setTrans_trans (s : State) (t : Option (DevMode × Bool)) : (s.setTrans t).mode.trans = t := rfl
@[simp] theorem setTrans_dev (s : State) (t : Option (DevMode × Bool)) : (s.setTrans t).mode.dev = s.mode.dev := rfl
@[simp] theorem rb_setTrans (s : State) (t : Option (DevMode × Bool)) (k : PageKind) (i o b : Nat) :
    (s.setTrans t).rb k i o b = s.rb k i o b := rfl

/-- The word that MOD_CMD takes for target `t` with the right CONFIRM. -/
def modWord (t : Nat) : Word := word (t + 2 ^ 8 * 0xC3)

theorem modWord_confirm {t : Nat} (ht : t < 16) : fld (modWord t) 8 8 = 0xC3 := request_confirm t 0xC3 ht
theorem modWord_target {t : Nat} (ht : t < 16) : fld (modWord t) 0 4 = t := request_target t 0xC3 ht

/-- A device request that meets its preconditions in M4, M10 or M11 passes every check of R53. -/
theorem modCheck_m5 {s : State} (hs : s.mayShed = true) (hp : s.hbmBit 10 = false) (hh : s.hbmBit 8 = false) :
    s.modCheck (modWord 5) false false = modOk := by
  simp only [State.mayShed, State.quietM4, Bool.and_eq_true, decide_eq_true_eq, Option.isNone_iff_eq_none,
    Bool.not_eq_true'] at hs
  obtain ⟨⟨⟨hd, ht⟩, hdom⟩, hg⟩ := hs
  simp [State.modCheck, modWord_confirm, modWord_target, devTarget, hd, ht, hdom, hg, hp, hh]

theorem modCheck_m10 {s : State} (hs : s.mayShed = true) : s.modCheck (modWord 10) false false = modOk := by
  simp only [State.mayShed, State.quietM4, Bool.and_eq_true, decide_eq_true_eq, Option.isNone_iff_eq_none,
    Bool.not_eq_true'] at hs
  obtain ⟨⟨⟨hd, ht⟩, hdom⟩, hg⟩ := hs
  simp [State.modCheck, modWord_confirm, modWord_target, devTarget, hd, ht, hdom, hg]

theorem modCheck_m4_of_m10 {s : State} (hd : s.mode.dev = .m10) (ht : s.mode.trans = none) :
    s.modCheck (modWord 4) false false = modOk := by
  simp [State.modCheck, modWord_confirm, modWord_target, devTarget, hd, ht]

theorem modCheck_m2_of_m11 {s : State} {clock shield : Bool} (hd : s.mode.dev = .m11) (ht : s.mode.trans = none)
    (hc : s.causePresent clock shield = false) : s.modCheck (modWord 2) clock shield = modOk := by
  simp [State.modCheck, modWord_confirm, modWord_target, devTarget, hd, ht, hc]

/-- A request taken in M4 is held as the transition; VALID of its result is clear (R53). -/
theorem modCmdWrite_of_m4 {s : State} {t : Nat} {m : DevMode} (hd : s.mode.dev = .m4) (ht : s.mode.trans = none) (h16 : t < 16)
    (hm : devTarget t = some m) (hc : s.modCheck (modWord t) false false = modOk) :
    modCmdWrite (modWord t) false false s = (s.startResult .mod0 0 Off.modResult).setTrans (some (m, true)) := by
  simp [modCmdWrite, hc, ht, hd, modWord_target h16, hm]

/-- The way back from M10 also ends the run of the farrier (R51). -/
theorem modCmdWrite_of_m10 {s : State} (hd : s.mode.dev = .m10) (ht : s.mode.trans = none) :
    modCmdWrite (modWord 4) false false s =
      ((s.startResult .mod0 0 Off.modResult).setTrans (some (.m4, true))).farEnd farPreempted := by
  simp [modCmdWrite, modCheck_m4_of_m10 hd ht, ht, hd, modWord_target, devTarget]

/-- From M11 an honoured request is the recovery reset (R48). -/
theorem modCmdWrite_of_m11 {s : State} {clock shield : Bool} (hd : s.mode.dev = .m11) (ht : s.mode.trans = none)
    (hc : s.causePresent clock shield = false) : modCmdWrite (modWord 2) clock shield s = s.recover := by
  simp [modCmdWrite, modCheck_m2_of_m11 hd ht hc, hd]

/-- The recovery reset leads to M2 (R625). -/
theorem recover_mode (s : State) : s.recover.mode = ⟨.m2, none, [], [], false, true, false, none, false⟩ := by
  simp [State.recover, wideReset_mode]

/-- A transition that a request holds in M10 outlasts the end of the farrier's run. -/
theorem farEnd_mode_of_request {s : State} {m : DevMode} (c : Nat) (h : s.mode.trans = some (m, true)) :
    (s.farEnd c).mode = s.mode := mode_of_shell (shell_farEnd s c) (by simp [h])

theorem mayShed_m4 {s : State} (h : s.mayShed = true) : s.mode.dev = .m4 ∧ s.mode.trans = none := by
  simp only [State.mayShed, State.quietM4, Bool.and_eq_true, decide_eq_true_eq, Option.isNone_iff_eq_none] at h
  obtain ⟨⟨hm4, -⟩, -⟩ := h
  exact hm4

/-- Settles O9: each request passes the checks of R53; from M4 and M10 it is then held as the transition, from M11 it is the
recovery reset. -/
theorem deviceRequestsAreTaken : Obligations.DeviceRequestsAreTaken := by
  unfold Obligations.DeviceRequestsAreTaken
  have taken : ∀ {t : Nat} {m : DevMode} {s : State}, s.mayShed = true → t < 16 → devTarget t = some m →
      s.modCheck (modWord t) false false = modOk → ∀ {x : State}, x = modCmdWrite (modWord t) false false s →
      x.mode.trans = some (m, true) ∧ x.rb .mod0 0 Off.modResult 16 = false ∧ x.mode.dev = .m4 := by
    intro t m s hs h16 hm hc x hx
    obtain ⟨hd, ht⟩ := mayShed_m4 hs
    rw [hx, modCmdWrite_of_m4 hd ht h16 hm hc]
    refine ⟨rfl, ?_, ?_⟩
    · rw [rb_setTrans, startResult_valid]
    · rw [setTrans_dev, State.startResult_mode, hd]
  refine ⟨fun r s hacc hs hp hh => ?_, fun r s hacc hs => ?_, fun r s hacc hd ht => ?_, fun r clock shield s hacc hd ht hc => ?_⟩
  · exact ⟨_, congrArg Host.Outcome.next (guarded_of_accepts hacc _), taken hs (by decide) rfl (modCheck_m5 hs hp hh) rfl⟩
  · exact ⟨_, congrArg Host.Outcome.next (guarded_of_accepts hacc _), taken hs (by decide) rfl (modCheck_m10 hs) rfl⟩
  · refine ⟨_, congrArg Host.Outcome.next (guarded_of_accepts hacc _), ?_⟩
    change (modCmdWrite (modWord 4) false false s).mode.trans = _ ∧ (modCmdWrite (modWord 4) false false s).mode.dev = _
    rw [modCmdWrite_of_m10 hd ht, farEnd_mode_of_request _ (setTrans_trans _ _)]
    exact ⟨rfl, by rw [setTrans_dev, State.startResult_mode, hd]⟩
  · refine ⟨_, congrArg Host.Outcome.next (guarded_of_accepts hacc _), ?_⟩
    change (modCmdWrite (modWord 2) clock shield s).mode.dev = _ ∧ (modCmdWrite (modWord 2) clock shield s).mode.trans = _
    rw [modCmdWrite_of_m11 hd ht hc, recover_mode]
    exact ⟨rfl, rfl⟩

end Sys2Proof.Machine

/-!
PROOF. The ends of device and domain transitions (R36, R47, R50, R53, R54) and EV_IN: O12.
-/

namespace Sys2Proof.Machine

/-! ### The device mode after a transition -/

/-- A state reached over the blocks alone, and then a device mode entered. -/
theorem enterDev_mode_of_shell {s t : State} (h : t.shell = s.shell) (d : DevMode) :
    (t.enterDev d).mode = { s.mode with dev := d, trans := none, doms := [], domTrans := [] } :=
  congrArg (fun m : ModeSt => { m with dev := d, trans := none, doms := [], domTrans := [] }) (modeParts_of_shell h)

@[simp] theorem enterDev_dev (s : State) (d : DevMode) : (s.enterDev d).mode.dev = d := rfl
@[simp] theorem enterDev_trans (s : State) (d : DevMode) : (s.enterDev d).mode.trans = none := rfl

theorem enterM5_mode (s : State) : s.enterM5.mode = { s.mode with dev := .m5, trans := none, doms := [], domTrans := [] } := by
  unfold State.enterM5
  exact enterDev_mode_of_shell (by simp) .m5

theorem enterM10_mode (s : State) : s.enterM10.mode = { s.mode with dev := .m10, trans := none, doms := [], domTrans := [] } := by
  unfold State.enterM10
  exact enterDev_mode_of_shell (by simp) .m10

theorem leaveM10_mode (s : State) : s.leaveM10.mode = { s.mode with dev := .m4, trans := none, doms := [], domTrans := [] } := by
  unfold State.leaveM10
  exact enterDev_mode_of_shell (by simp) .m4

/-- A time base that starts again is not of the shell. -/
@[simp] theorem shell_with_epoch (s : State) (e : Nat) : { s with epoch := e }.shell = s.shell := (rfl)

theorem leaveM5_mode (s : State) : s.leaveM5.mode = { s.mode with dev := .m4, trans := none, doms := [], domTrans := [] } := by
  unfold State.leaveM5
  refine (mode_of_shell (shell_hayWake _) (by simp)).trans ?_
  exact enterDev_mode_of_shell (by simp) .m4

/-! ### The end of a device transition -/

/-- What follows the entry into the target of a transition: the result of a request (R53), and a wake that came during the
entry to M5 (R54). -/
def State.transEnd (y : State) (m : DevMode) (req : Bool) : State :=
  let z := if req then y.modEnd modOk m.num else y
  match z.mode.wakeDue with
  | some src =>
    let w := { z with mode := { z.mode with wakeDue := none } }
    if w.mode.dev = .m5 then w.wakeBegin src false else w
  | none => z

/-- The entry into the target of a transition (rows 5, 6, 7 and 8 of R47). -/
def State.transApply (s : State) (m : DevMode) : State :=
  match s.mode.dev, m with
  | .m4, .m5 => s.enterM5
  | .m4, .m10 => s.enterM10
  | .m5, .m4 => s.leaveM5
  | .m10, .m4 => s.leaveM10
  | _, _ => s.setTrans none

/-- A transition completes by the entry into its target and what follows it; the farrier holds M10 while a step runs (R51). -/
theorem exec_deviceTransitionDone {s : State} {m : DevMode} {req : Bool} (ht : s.mode.trans = some (m, req))
    (hf : s.mode.dev = .m10 → s.farState = fIdle) :
    exec .deviceTransitionDone s = .next ((s.transApply m).transEnd m req) := by
  have hrun : ¬(s.mode.dev = .m10 ∧ s.farState ≠ fIdle ∧ s.farState ≠ fStore) := fun h => h.2.1 (hf h.1)
  change execDeviceTransitionDone s = _
  unfold execDeviceTransitionDone
  simp only [ht, if_neg hrun]
  change (match (if req then (s.transApply m).modEnd modOk m.num else s.transApply m).mode.wakeDue with
    | some src => _
    | none => _) = _
  unfold State.transEnd
  split
  · rename_i src h
    simp only [h]
    rfl
  · rename_i h
    simp only [h]
    rfl

/-- The four ways of R47 lead to their target, with no transition left. -/
theorem transApply_mode {s : State} {m : DevMode}
    (h : (s.mode.dev = .m4 ∧ (m = .m5 ∨ m = .m10)) ∨ (s.mode.dev = .m5 ∧ m = .m4) ∨
      (s.mode.dev = .m10 ∧ m = .m4 ∧ s.farState = fIdle)) :
    (s.transApply m).mode = { s.mode with dev := m, trans := none, doms := [], domTrans := [] } := by
  unfold State.transApply
  rcases h with ⟨hd, rfl | rfl⟩ | ⟨hd, rfl⟩ | ⟨hd, rfl, -⟩ <;> rw [hd]
  · exact enterM5_mode s
  · exact enterM10_mode s
  · exact leaveM5_mode s
  · exact leaveM10_mode s

@[simp] theorem modEnd_mode (s : State) (c t : Nat) : (s.modEnd c t).mode = s.mode := State.storeResult_mode s _ _ _ _

/-- A transition has left the device in mode `m`, no domain transition, and none of the device unless a wake follows. -/
theorem transEnd_settles {s y : State} {m : DevMode} (req : Bool)
    (hy : y.mode = { s.mode with dev := m, trans := none, doms := [], domTrans := [] }) :
    (y.transEnd m req).mode.dev = m ∧ (y.transEnd m req).mode.doms = [] ∧ (y.transEnd m req).mode.domTrans = [] ∧
      (s.mode.wakeDue = none → (y.transEnd m req).mode.trans = none) := by
  have hz : (if req then y.modEnd modOk m.num else y).mode = y.mode := by
    split
    · exact modEnd_mode y modOk m.num
    · rfl
  unfold State.transEnd
  generalize (if req then y.modEnd modOk m.num else y) = z at hz
  rw [hy] at hz
  dsimp only
  split
  · rename_i src hw
    have hdue : s.mode.wakeDue = some src := by rwa [hz] at hw
    split <;> simp [State.wakeBegin, State.setTrans, hz, hdue]
  · simp [hz]

/-! ### The end of a domain transition -/

/-- The domain shows its target, and no transition of it is left. -/
theorem exec_domainTransitionDone {s : State} {d : Fin 9} {m : DomMode} (h : Store.get? s.mode.domTrans d = some m) :
    ∃ t, exec (.domainTransitionDone d) s = .next t ∧ t.mode.doms = Store.setD (fun _ => DomMode.m4) s.mode.doms d m ∧
      t.mode.domTrans = Store.drop s.mode.domTrans d := by
  let y : State := { s with mode := { s.mode with
    doms := Store.setD (fun _ => DomMode.m4) s.mode.doms d m, domTrans := Store.drop s.mode.domTrans d } }
  refine ⟨(y.enterDom (domOwner d) m).pmodEnd d modOk m.num, ?_, ?_⟩
  · change execDomainTransitionDone d s = _
    simp only [execDomainTransitionDone, h]
    rfl
  · have hsh : ((y.enterDom (domOwner d) m).pmodEnd d modOk m.num).shell = y.shell := by simp
    have hmode := modeParts_of_shell hsh
    exact ⟨congrArg ModeSt.doms hmode, congrArg ModeSt.domTrans hmode⟩

/-! ### M11 -/

/-- What the entry into M11 does to the blocks. -/
theorem shell_goM11_blocks (x : State) :
    ((((upto 8).foldl (fun x b => x.acqPreempt b) ((upto 8).foldl (fun x q => (x.seqPreempt q).primePreempt q)
      x.hayWake.farPreempt.stallsTripped)).cnvAll State.cnvPreempt).ratePreempt.groomAbort fun _ => true).shell = x.shell := by
  simp

/-- The entry into M11 ends every transition; the end of the farrier's run asks for none there. -/
theorem goM11_mode (s : State) : s.goM11.mode = (s.transPreempt.enterDev .m11).mode := by
  obtain ⟨x, hx, p, l, h⟩ : ∃ x : State, x.shell = (s.transPreempt.enterDev .m11).shell ∧
      ∃ p l, s.goM11 = { x with pins := p, lan := l } := ⟨_, shell_goM11_blocks _, _, _, rfl⟩
  rw [h]
  change x.mode = _
  exact mode_of_shell hx (by simp)

theorem enterM11_of_m5 {s : State} (hd : s.mode.dev = .m5) (c : Nat) :
    s.enterM11 c = (s.wb .mod0 0 Off.modM11Cause c true).goM11 := by
  unfold State.enterM11
  rw [hd]

/-- Barn `b` is marked as one that has not locked, and the request for the wake ends FAILED. -/
def State.wakeFails (s : State) (b : Nat) (req : Bool) : State :=
  let s1 := s.setTrans none
  let s2 := if req then s1.modEnd modFailed 4 else s1
  let s3 := s2.wb .rst 0 Off.rstIslLockfail b true
  let s4 := s3.logOffer logLockFail PageKind.rst.typeCode 0 (s3.rf .rst 0 Off.rstIslLockfail 0 12)
  { s4 with pins := { s4.pins with wakeLow := false } }

theorem wakeFails_dev (s : State) (b : Nat) (req : Bool) : (s.wakeFails b req).mode.dev = s.mode.dev := by
  unfold State.wakeFails
  dsimp only
  rw [State.logOffer_mode, State.wb_mode]
  split
  · rw [modEnd_mode, setTrans_dev]
  · rfl

/-- A lock that fails in a wake ends in the entry into M11 (R50). -/
theorem exec_wakeLockTimeout {s : State} {b : Fin 8} {req : Bool} (hd : s.mode.dev = .m5) (ht : s.mode.trans = some (.m4, req)) :
    ∃ y : State, exec (.wakeLockTimeout b) s = .next y.goM11 := by
  have e : exec (.wakeLockTimeout b) s = .next ((s.wakeFails b req).enterM11 causeLock) := by
    change execWakeLockTimeout b s = _
    unfold execWakeLockTimeout
    rw [hd, ht]
    rfl
  exact ⟨_, e.trans (congrArg _ (enterM11_of_m5 ((wakeFails_dev s b req).trans hd) causeLock))⟩

/-! ### EV_IN -/

@[simp] theorem wake_evIn (s : State) (src line : Nat) (req : Bool) : (s.wake src line req).pins.evIn = s.pins.evIn := by
  unfold State.wake
  dsimp only
  split
  · rfl
  · split
    · simp [State.wakeBegin]
    · split
      · simp
      · rfl

/-- The edge is recorded before anything acts on it. -/
theorem exec_evInEdge {s : State} {k : Fin 4} {rise : Bool} (h : natBit s.pins.evIn k ≠ rise) :
    ∃ t, exec (.evInEdge k rise) s = .next t ∧
      t.pins.evIn = maskOf 4 fun i => if i = k.val then rise else natBit s.pins.evIn i := by
  have hsh : ∀ x : State, ((if rise then (x.seqEdge k).cnvEdge k else x).acqEdge k rise).shell = x.shell := by
    intro x
    simp
  refine ⟨_, (if_neg h : execEvInEdge k rise s = _), ?_⟩
  split
  · rw [wake_evIn, pins_of_shell (hsh _)]
    rfl
  · rw [pins_of_shell (hsh _)]
    rfl

/-- Settles O12: what enters or leaves a device mode passes over blocks that keep the mode layer, and sets the new mode last or
over blocks that keep it. -/
theorem transitionsComplete : Obligations.TransitionsComplete := by
  unfold Obligations.TransitionsComplete
  refine ⟨fun m req s ht hway => ?_, fun d m s h => ?_, fun b req s hd ht => ?_, fun k rise s h => ?_⟩
  · have hf : s.mode.dev = .m10 → s.farState = fIdle := by
      intro h10
      rcases hway with ⟨hd, -⟩ | ⟨hd, -⟩ | ⟨-, -, hf⟩
      · simp [h10] at hd
      · simp [h10] at hd
      · exact hf
    exact ⟨_, exec_deviceTransitionDone ht hf, transEnd_settles req (transApply_mode hway)⟩
  · obtain ⟨t, hexec, hdoms, htrans⟩ := exec_domainTransitionDone h
    exact ⟨t, hexec, by rw [hdoms, Store.getD_setD_same], by rw [htrans, Store.get?_drop, if_pos rfl]⟩
  · obtain ⟨y, hexec⟩ := exec_wakeLockTimeout (b := b) hd ht
    exact ⟨_, hexec, by rw [goM11_mode, enterDev_dev], by rw [goM11_mode, enterDev_trans]⟩
  · obtain ⟨t, hexec, hev⟩ := exec_evInEdge h
    exact ⟨t, hexec, by simp [hev]⟩

end Sys2Proof.Machine

/-!
PROOF. The way from M3 to M4, the logbook, and the end of a reset episode.
-/

namespace Sys2Proof.Machine

/-! ### The way from M3 to M4 -/

/-- `t` is `s` but for the watch comparators: their WCH pages, the trip conditions and the high impedance of the stalls. -/
structure State.WatchFrame (s t : State) : Prop where
  eq : t = { s with regs := t.regs, trips := t.trips, stalls := t.stalls }
  rd : ∀ (k : PageKind) (i o : Nat), k ≠ .wch → t.rd k i o = s.rd k i o

theorem State.WatchFrame.refl (s : State) : State.WatchFrame s s := ⟨rfl, fun _ _ _ _ => rfl⟩

theorem State.WatchFrame.trans {s t u : State} (h1 : State.WatchFrame s t) (h2 : State.WatchFrame t u) : State.WatchFrame s u := by
  refine ⟨?_, fun k i o hk => (h2.rd k i o hk).trans (h1.rd k i o hk)⟩
  have e1 := h1.eq
  rw [h2.eq, e1]

theorem watchFrame_setTrips (s : State) (st t : Nat) : State.WatchFrame s (s.setTrips st t) := ⟨rfl, fun _ _ _ _ => rfl⟩
theorem watchFrame_setStall (s : State) (st : Nat) (v : StallSt) : State.WatchFrame s (s.setStall st v) := ⟨rfl, fun _ _ _ _ => rfl⟩
theorem watchFrame_tripHold (s : State) (st t : Nat) : State.WatchFrame s (s.tripHold st t) :=
  (watchFrame_setTrips s st t).trans (watchFrame_setStall _ st _)

theorem watchFrame_setReg {s : State} {a : Nat} {v : Word}
    (h : ∀ (k : PageKind) (i o : Nat), k ≠ .wch → (s.setReg a v).rd k i o = s.rd k i o) : State.WatchFrame s (s.setReg a v) := ⟨rfl, h⟩

theorem watchFrame_wr (s : State) (i o : Nat) (v : Word) : State.WatchFrame s (s.wr .wch i o v) :=
  watchFrame_setReg fun _ i' o' hk => rd_wr_kind s i o i' o' v hk

theorem watchFrame_watchUnres (s : State) (st m : Nat) : State.WatchFrame s (s.watchUnres st m) := by
  unfold State.watchUnres
  dsimp only
  split
  · exact (watchFrame_wr s st _ _).trans (watchFrame_wr _ st _ _)
  · exact ((watchFrame_wr s st _ _).trans (watchFrame_wr _ st _ _)).trans (watchFrame_tripHold _ st _)

/-- The state in which M4 is entered from M3, but for the comparators. -/
def State.enterM4 (s : State) : State :=
  { s.enterDev .m4 with mode := { (s.enterDev .m4).mode with served := true } }

/-- What M3 waits for (R47, R49, R156, R567). -/
def State.M3Done (s : State) : Prop :=
  s.mode.dev = .m3 ∧ s.rst.m3Fail = false ∧ s.islandsUp ∧ s.mode.trainDone ∧ s.mode.tackLoaded ∧ s.epochValid ∧ s.linkUp 0 ∧
    (s.split = false ∨ s.linkUp 1 ∨ s.rst.bExpired)

theorem m3Exit_of_done {s : State} (h : s.M3Done) : State.WatchFrame s.enterM4 s.m3Exit := by
  have e : s.m3Exit = (upto 128).foldl (fun x st => x.watchUnres st allWatch) s.enterM4 := if_pos h
  rw [e]
  exact foldl_keeps (State.WatchFrame s.enterM4) (fun x st hx => hx.trans (watchFrame_watchUnres x st allWatch)) _ (.refl _)

theorem m3Exit_of_not_done {s : State} (h : ¬s.M3Done) : s.m3Exit = s := if_neg h

theorem m3Exit_cases (s : State) : s.m3Exit = s ∨ State.WatchFrame s.enterM4 s.m3Exit := by
  by_cases h : s.M3Done
  · exact .inr (m3Exit_of_done h)
  · exact .inl (m3Exit_of_not_done h)

section
variable (s : State)

theorem rd_enterM4 (k : PageKind) (i o : Nat) : s.enterM4.rd k i o = s.rd k i o := rfl

/-- The end of M3 moves no register but those of the WCH pages. -/
theorem rd_m3Exit {k : PageKind} (i o : Nat) (h : k ≠ .wch) : s.m3Exit.rd k i o = s.rd k i o := by
  rcases m3Exit_cases s with e | e
  · rw [e]
  · rw [e.rd k i o h, rd_enterM4]

/-- The end of M3 keeps what the entry into M4 keeps. -/
theorem m3Exit_field {α : Type} (f : State → α) (h4 : f s.enterM4 = f s)
    (hw : ∀ (t : State) r tr st, f { t with regs := r, trips := tr, stalls := st } = f t) : f s.m3Exit = f s := by
  rcases m3Exit_cases s with e | e
  · rw [e]
  · exact (congrArg f e.eq).trans ((hw _ _ _ _).trans h4)

@[simp] theorem m3Exit_rst : s.m3Exit.rst = s.rst := m3Exit_field s State.rst rfl fun _ _ _ _ => rfl
@[simp] theorem m3Exit_far : s.m3Exit.far = s.far := m3Exit_field s State.far rfl fun _ _ _ _ => rfl
@[simp] theorem m3Exit_trainDone : s.m3Exit.mode.trainDone = s.mode.trainDone :=
  m3Exit_field s (fun x => x.mode.trainDone) rfl fun _ _ _ _ => rfl
@[simp] theorem m3Exit_tackLoaded : s.m3Exit.mode.tackLoaded = s.mode.tackLoaded :=
  m3Exit_field s (fun x => x.mode.tackLoaded) rfl fun _ _ _ _ => rfl

theorem rb_m3Exit {k : PageKind} (i o b : Nat) (h : k ≠ .wch) : s.m3Exit.rb k i o b = s.rb k i o b := rb_of_rd (rd_m3Exit s i o h) b

/-- Once nothing is left to wait for, the device is in M4. -/
theorem m3Exit_dev {s : State} (h : s.M3Done) : s.m3Exit.mode.dev = .m4 := congrArg (fun x => x.mode.dev) (m3Exit_of_done h).eq

@[simp] theorem m3Failed_isl : s.m3Failed.rst.isl = s.rst.isl := by
  unfold State.m3Failed
  split <;> rfl
@[simp] theorem m3Failed_mode : s.m3Failed.mode = s.mode := by
  unfold State.m3Failed
  split <;> rfl
@[simp] theorem rd_m3Failed (k : PageKind) (i o : Nat) : s.m3Failed.rd k i o = s.rd k i o := by
  unfold State.m3Failed
  split <;> rfl
@[simp] theorem rb_m3Failed (k : PageKind) (i o b : Nat) : s.m3Failed.rb k i o b = s.rb k i o b := rb_of_rd (rd_m3Failed s k i o) b
theorem m3Failed_of_m3 {s : State} (h : s.mode.dev = .m3) : s.m3Failed = { s with rst := { s.rst with m3Fail := true } } := if_pos h

end

/-! ### The logbook and the reset layer -/

/-- `t` is `s` but for the lantern, whose reset counters are the same. -/
structure State.LanternFrame (s t : State) : Prop where
  eq : t = { s with lan := t.lan }
  rstCnt : t.lan.rstCnt = s.lan.rstCnt

theorem State.LanternFrame.refl (s : State) : State.LanternFrame s s := ⟨rfl, rfl⟩
theorem State.LanternFrame.trans {s t u : State} (h1 : State.LanternFrame s t) (h2 : State.LanternFrame t u) :
    State.LanternFrame s u := by
  refine ⟨?_, h2.rstCnt.trans h1.rstCnt⟩
  have e1 := h1.eq
  rw [h2.eq, e1]

theorem State.LanternFrame.field {s t : State} (h : State.LanternFrame s t) {α : Type} (f : State → α)
    (hf : ∀ (x : State) l, f { x with lan := l } = f x) : f t = f s := (congrArg f h.eq).trans (hf _ _)

theorem lanternFrame_lan (s : State) (l : Lantern) (h : l.rstCnt = s.lan.rstCnt) : State.LanternFrame s { s with lan := l } := ⟨rfl, h⟩
theorem lanternFrame_logWrite (s : State) (b : Nat) : State.LanternFrame s (s.logWrite b) := ⟨rfl, rfl⟩

theorem lanternFrame_logDrain (s : State) : State.LanternFrame s s.logDrain :=
  (foldl_keeps (State.LanternFrame s) (fun x b hx => hx.trans (lanternFrame_logWrite x b)) _ (.refl s)).trans (lanternFrame_lan _ _ rfl)

theorem lanternFrame_freeze (s : State) : State.LanternFrame s s.freeze := by
  unfold State.freeze
  split
  · exact .refl s
  · exact (lanternFrame_logDrain s).trans ((lanternFrame_logWrite _ _).trans (lanternFrame_lan _ _ rfl))

section
variable (s : State)

theorem logOffer_lan (c ty i d : Nat) : ∃ q l, (s.logOffer c ty i d).lan = { s.lan with queue := q, lost := l } := by
  unfold State.logOffer
  split
  · exact ⟨_, _, rfl⟩
  · exact ⟨_, _, rfl⟩

@[simp] theorem logOffer_rstCnt (c ty i d : Nat) : (s.logOffer c ty i d).lan.rstCnt = s.lan.rstCnt :=
  rstCnt_of_shell (shell_logOffer s c ty i d)

theorem rd_of_regs {s t : State} (h : t.regs = s.regs) (k : PageKind) (i o : Nat) : t.rd k i o = s.rd k i o := by
  rw [State.rd, State.reg, h]
  rfl
@[simp] theorem rd_logOffer (c ty i d : Nat) (k : PageKind) (i' o : Nat) : (s.logOffer c ty i d).rd k i' o = s.rd k i' o :=
  rd_of_regs (State.logOffer_regs s c ty i d) k i' o
@[simp] theorem rb_logOffer (c ty i d : Nat) (k : PageKind) (i' o b : Nat) : (s.logOffer c ty i d).rb k i' o b = s.rb k i' o b :=
  rb_of_rd (rd_logOffer s c ty i d k i' o) b
@[simp] theorem rf_logOffer (c ty i d : Nat) (k : PageKind) (i' o lo n : Nat) :
    (s.logOffer c ty i d).rf k i' o lo n = s.rf k i' o lo n := rf_of_rd (rd_logOffer s c ty i d k i' o) lo n

@[simp] theorem shell_freeze : s.freeze.shell = s.shell := by
  rw [(lanternFrame_freeze s).eq]
  exact shell_with_lan s _ (lanternFrame_freeze s).rstCnt

@[simp] theorem shell_tamperMark (src : Nat) : (s.tamperMark src).shell = s.shell := by
  unfold State.tamperMark
  simp [shell_with_lan s { s.lan with tamper := s.lan.tamper ||| 2 ^ src } rfl]

/-- A reset of the wider reaches keeps the reset counters. -/
theorem wideReset_rstCnt (por recovery : Bool) : (s.wideReset por recovery).lan.rstCnt = s.lan.rstCnt := by
  have h := rstCnt_of_shell (show (if s.pins.vin then
    (onesOf s.gth.heldTamper 5).foldl State.tamperMark s.breakAll else s).freeze.shell = s.shell by simp)
  unfold State.wideReset
  rw [State.wf_lan]
  exact h

/-! ### The yard and the end of an episode -/

@[simp] theorem yardDue_lan : s.yardDue.lan = s.lan := by rcases yardDue_cases s with h | h <;> rw [h]; rfl
@[simp] theorem yardDue_rst : s.yardDue.rst = s.rst := by rcases yardDue_cases s with h | h <;> rw [h]; rfl
@[simp] theorem yardDue_pins : s.yardDue.pins = s.pins := by rcases yardDue_cases s with h | h <;> rw [h]; rfl

theorem rb_yardDue : s.yardDue.rb .rst 0 Off.rstIslPend 8 = (s.pins.vin && !s.pins.resetN || s.rb .rst 0 Off.rstIslPend 8) := by
  unfold State.yardDue
  split
  case isTrue h => rw [rb_wb_same _ _ _ _ _ _ (by decide), h, Bool.true_or]
  case isFalse h => rw [Bool.eq_false_iff.2 h, Bool.false_or]

@[simp] theorem rb_episodeEnd (k : PageKind) (i o b : Nat) : s.episodeEnd.rb k i o b = s.rb k i o b := by
  rcases episodeEnd_cases s with h | ⟨c, h⟩
  · rw [h]
  · rw [h, rb_logOffer]; rfl
@[simp] theorem episodeEnd_pins : s.episodeEnd.pins = s.pins := by
  rcases episodeEnd_cases s with h | ⟨c, h⟩
  · rw [h]
  · rw [h, State.logOffer_pins]
@[simp] theorem episodeEnd_isl : s.episodeEnd.rst.isl = s.rst.isl := by
  rcases episodeEnd_cases s with h | ⟨c, h⟩
  · rw [h]
  · rw [h, State.logOffer_rst]

/-- The end of an episode changes the queue of the lantern, its count of losses, and RST_LAST. -/
theorem episodeEnd_lan : ∃ q n c, s.episodeEnd.lan = { s.lan with queue := q, lost := n, rstLast := c } := by
  rcases episodeEnd_cases s with h | ⟨c, h⟩
  · exact ⟨_, _, _, congrArg State.lan h⟩
  · obtain ⟨q, n, hl⟩ := logOffer_lan { s with rst := { s.rst with episode := none }, lan := { s.lan with rstLast := c } }
      logReset PageKind.rst.typeCode 0 c
    exact ⟨q, n, c, (congrArg State.lan h).trans hl⟩

/-- With no source asserted, RST_LAST names the widest cause of the episode. -/
theorem episodeEnd_rstLast {s : State} {c : Nat} (he : s.rst.episode = some c) (hv : s.pins.vin = true) (hr : s.pins.resetN = false)
    (hp : s.pins.perstN = false) : s.episodeEnd.lan.rstLast = c := by
  unfold State.episodeEnd
  rw [he]
  simp only [hv, hr, hp, Bool.not_false, Bool.and_self, if_true]
  obtain ⟨q, n, hl⟩ := logOffer_lan { s with rst := { s.rst with episode := none }, lan := { s.lan with rstLast := c } }
    logReset PageKind.rst.typeCode 0 c
  rw [hl]

@[simp] theorem count_countReset (c : Nat) : (s.countReset c).lan.count c = satAdd 0xFFFF (s.lan.count c) 1 := Store.getD_setD_same _ _ _ _
theorem count_congr {l m : Lantern} (h : l.rstCnt = m.rstCnt) (c : Nat) : l.count c = m.count c := by rw [Lantern.count, h]; rfl

end

end Sys2Proof.Machine

/-!
PROOF. Power, reset pins and islands (R47, R625 to R635, R664, R668): O47.
-/

namespace Sys2Proof.Machine

/-! ### VBAK, the lantern supply, and VIN -/

theorem exec_vbakPresent_of_vin {s : State} (h : s.pins.vin = true ∨ s.mode.dev ≠ .m0) :
    exec .vbakPresent s = .next { s with pins := { s.pins with vbak := true } } := if_pos h

theorem exec_vbakPresent_of_m0 {s : State} (hv : s.pins.vin = false) (hd : s.mode.dev = .m0) :
    exec .vbakPresent s = .next { { s with pins := { s.pins with vbak := true } }.enterDev .m1 with
      lan := { s.lan with onVbak := true } } := if_neg (by simp [hv, hd])

theorem vbakPresent_takes (s : State) : ∃ t, exec .vbakPresent s = .next t ∧ t.pins.vbak = true ∧
    (s.pins.vin = false → s.mode.dev = .m0 → t.mode.dev = .m1 ∧ t.lan.onVbak = true) ∧
    ((s.pins.vin = true ∨ s.mode.dev ≠ .m0) → t = { s with pins := { s.pins with vbak := true } }) := by
  by_cases h : s.pins.vin = true ∨ s.mode.dev ≠ .m0
  · refine ⟨_, exec_vbakPresent_of_vin h, rfl, fun hv hd => ?_, fun _ => rfl⟩
    simp [hv, hd] at h
  · obtain ⟨hv, hd⟩ : s.pins.vin = false ∧ s.mode.dev = .m0 := by simpa using h
    exact ⟨_, exec_vbakPresent_of_m0 hv hd, rfl, fun _ _ => ⟨rfl, rfl⟩, fun h' => absurd h' h⟩

/-- The lantern as LANTERN_POR leaves it, that reset counted. -/
def lanternAfterPor : Lantern := { Lantern.blank with rstCnt := [(rstLanternPor, 1)], rstTotal := 1 }

/-- The state behind LANTERN_POR before the yard is due, over the state `x` that the reset of everything else leaves. -/
def State.lanternCleared (x : State) (lost : Bool) : State :=
  { x with lan := lanternAfterPor, rst := { x.rst with porCounted := false, lanternLost := lost } }.episodeJoin rstLanternPor

theorem exec_lanternPor (s : State) : ∃ lost, exec .lanternPor s = .next
    (if s.pins.vin then ((s.wideReset true false).lanternCleared lost).yardDue.episodeEnd
    else { ((s.wideReset true false).lanternCleared lost).enterDev .m0 with
      pins := { ((s.wideReset true false).lanternCleared lost).pins with vbak := false } }) := by
  refine ⟨s.rst.lanternLost || s.mode.dev = .m1, ?_⟩
  change execLanternPor s = _
  unfold execLanternPor
  by_cases h : s.pins.vin = true
  · rw [if_pos h, if_pos h]; rfl
  · rw [if_neg h, if_neg h]; rfl

theorem lanternCleared_episode (x : State) (lost : Bool) : (x.lanternCleared lost).rst.episode = some rstLanternPor :=
  congrArg some (Nat.zero_min _)

/-- What the fields of the lantern that an episode's end keeps read as after LANTERN_POR. -/
theorem lanternPor_lan {l : Lantern} (h : ∃ q n c, l = { lanternAfterPor with queue := q, lost := n, rstLast := c }) :
    l.slots = [] ∧ l.tick = 0 ∧ l.rstCnt = [(rstLanternPor, 1)] ∧ l.rstTotal = 1 := by
  obtain ⟨q, n, c, rfl⟩ := h
  exact ⟨rfl, rfl, rfl, rfl⟩

theorem lanternPor_takes (s : State) : ∃ t, exec .lanternPor s = .next t ∧ t.lan.slots = [] ∧ t.lan.tick = 0 ∧
    t.lan.rstCnt = [(rstLanternPor, 1)] ∧ t.lan.rstTotal = 1 ∧ t.rst.isl = 0 ∧ (s.pins.vin = false → t.mode.dev = .m0) ∧
    (s.pins.vin = true → s.pins.resetN = false → t.rb .rst 0 Off.rstIslPend 8 = true ∧
      (s.pins.perstN = false → t.lan.rstLast = rstLanternPor)) := by
  obtain ⟨lost, he⟩ := exec_lanternPor s
  have hpins := wideReset_pins s true false
  have hisl : (s.wideReset true false).rst.isl = 0 := by rw [wideReset_rst]
  refine ⟨_, he, ?_⟩
  generalize s.wideReset true false = x at *
  obtain ⟨p, l, c, hlan⟩ := episodeEnd_lan (x.lanternCleared lost).yardDue
  have hxp : (x.lanternCleared lost).pins = x.pins := rfl
  rw [yardDue_lan] at hlan
  by_cases hv : s.pins.vin = true
  · rw [if_pos hv]
    obtain ⟨h1, h2, h3, h4⟩ := lanternPor_lan ⟨p, l, c, hlan⟩
    refine ⟨h1, h2, h3, h4, ?_, fun hv' => absurd hv (by simp [hv']), fun _ hr => ⟨?_, fun hp => ?_⟩⟩
    · rw [episodeEnd_isl, yardDue_rst]
      exact hisl
    · rw [rb_episodeEnd, rb_yardDue, hxp, hpins]
      simp [hv, hr]
    · refine episodeEnd_rstLast ?_ ?_ ?_ ?_
      · rw [yardDue_rst, lanternCleared_episode]
      · rw [yardDue_pins, hxp, hpins, hv]
      · rw [yardDue_pins, hxp, hpins, hr]
      · rw [yardDue_pins, hxp, hpins, hp]
  · rw [if_neg hv]
    exact ⟨rfl, rfl, rfl, rfl, hisl, fun _ => rfl, fun h => absurd h hv⟩

/-- VIN_POR as it is counted when VIN comes into range: not again where the loss of VIN was (R629). -/
def State.vinSeen (s : State) : State :=
  let s1 := { s with pins := { s.pins with vin := true }, lan := { s.lan with onVbak := false } }
  let s2 := if s1.rst.porCounted then s1 else s1.countReset rstVinPor
  { s2 with rst := { s2.rst with porCounted := false, lanternLost := false } }.episodeJoin rstVinPor

theorem exec_vinInRange {s : State} (h : s.pins.vin = false) : exec .vinInRange s = .next
    (if s.rst.lanternLost then s.vinSeen.tamperMark 4 else s.vinSeen).yardDue.episodeEnd := by
  change execVinInRange s = _
  unfold execVinInRange
  rw [if_neg (by simp [h])]
  rfl

theorem vinSeen_pins (s : State) : s.vinSeen.pins = { s.pins with vin := true } := by
  unfold State.vinSeen
  dsimp only
  split <;> rfl

theorem rb_vinSeen (s : State) (k : PageKind) (i o b : Nat) : s.vinSeen.rb k i o b = s.rb k i o b := by
  unfold State.vinSeen
  dsimp only
  split <;> rfl

theorem vinSeen_onVbak (s : State) : s.vinSeen.lan.onVbak = false := by
  unfold State.vinSeen
  dsimp only
  split <;> rfl

theorem vinSeen_count (s : State) : s.vinSeen.lan.count rstVinPor =
    if s.rst.porCounted then s.lan.count rstVinPor else satAdd 0xFFFF (s.lan.count rstVinPor) 1 := by
  unfold State.vinSeen
  dsimp only
  split
  · rfl
  · exact count_countReset _ rstVinPor

theorem rb_tamperMark_rst (s : State) (src i b : Nat) : (s.tamperMark src).rb .rst i Off.rstIslPend b = s.rb .rst i Off.rstIslPend b := by
  refine rb_of_rd ?_ b
  unfold State.tamperMark
  rw [rd_event _ _ _ _ _ _ _ (by simp [postReg]) (.inl (by simp)), rd_logOffer]
  rfl

theorem logOffer_onVbak (s : State) (c ty i d : Nat) : (s.logOffer c ty i d).lan.onVbak = s.lan.onVbak := by
  obtain ⟨q, l, h⟩ := logOffer_lan s c ty i d
  rw [h]

theorem tamperMark_onVbak (s : State) (src : Nat) : (s.tamperMark src).lan.onVbak = s.lan.onVbak := by
  unfold State.tamperMark
  rw [State.event_lan, logOffer_onVbak]

theorem vinInRange_takes {s : State} (hv : s.pins.vin = false) : ∃ t, exec .vinInRange s = .next t ∧ t.pins.vin = true ∧
    t.lan.onVbak = false ∧ t.rb .rst 0 Off.rstIslPend 8 = (!s.pins.resetN || s.rb .rst 0 Off.rstIslPend 8) ∧
    t.lan.count rstVinPor = (if s.rst.porCounted then s.lan.count rstVinPor else satAdd 0xFFFF (s.lan.count rstVinPor) 1) := by
  obtain ⟨y, hy, hsh, hon, hrb⟩ : ∃ y : State, exec .vinInRange s = .next y.yardDue.episodeEnd ∧ y.shell = s.vinSeen.shell ∧
      y.lan.onVbak = false ∧ y.rb .rst 0 Off.rstIslPend 8 = s.rb .rst 0 Off.rstIslPend 8 := by
    refine ⟨_, exec_vinInRange hv, by simp, ?_, ?_⟩
    · split
      · rw [tamperMark_onVbak, vinSeen_onVbak]
      · exact vinSeen_onVbak s
    · split
      · rw [rb_tamperMark_rst, rb_vinSeen]
      · exact rb_vinSeen s _ _ _ _
  have hp : y.pins = { s.pins with vin := true } := (pins_of_shell hsh).trans (vinSeen_pins s)
  obtain ⟨q, n, c, hl⟩ := episodeEnd_lan y.yardDue
  rw [yardDue_lan] at hl
  refine ⟨_, hy, ?_, ?_, ?_, ?_⟩
  · rw [episodeEnd_pins, yardDue_pins, hp]
  · rw [hl, hon]
  · rw [rb_episodeEnd, rb_yardDue, hrb, hp, Bool.true_and]
  · rw [hl]
    exact (count_congr (rstCnt_of_shell hsh) rstVinPor).trans (vinSeen_count s)

/-- The lantern's last entries as VIN falls (R664). -/
def State.lanternCloses (s : State) (n : Nat) : State :=
  let s1 := s.lanAt n
  if s1.lan.frozen ∨ s1.lan.closed then s1.freeze
  else (s1.logDrain).logWrite (logBody logVinLost PageKind.lan.typeCode 0 0)

/-- The state after the loss of VIN, over the state `x` that the reset leaves. -/
def State.vinGone (x : State) (vbak : Bool) : State :=
  let s4 := x.countReset rstVinPor
  let s5 := { s4 with rst := { s4.rst with porCounted := true, lanternLost := decide (vbak = false) }
                      lan := { s4.lan with onVbak := vbak } }
  (s5.episodeJoin rstVinPor).enterDev (if vbak = false then .m0 else .m1)

theorem lanternFrame_lanternCloses (s : State) (n : Nat) : State.LanternFrame s (s.lanternCloses n) := by
  have h1 : State.LanternFrame s (s.lanAt n) := ⟨rfl, rfl⟩
  unfold State.lanternCloses
  dsimp only
  split
  · exact h1.trans (lanternFrame_freeze _)
  · exact h1.trans ((lanternFrame_logDrain _).trans (lanternFrame_logWrite _ _))

theorem exec_vinLost {s : State} (n : BitVec 40) (h : s.pins.vin = true) : ∃ y, State.LanternFrame s y ∧
    exec (.vinLost n) s = .next (({ y with pins := { y.pins with vin := false } }.wideReset true false).vinGone s.pins.vbak) := by
  refine ⟨s.lanternCloses n.toNat, lanternFrame_lanternCloses s _, ?_⟩
  change execVinLost n s = _
  unfold execVinLost
  rw [if_neg (by simp [h])]
  rfl

theorem vinGone_count (x : State) (vbak : Bool) : (x.vinGone vbak).lan.count rstVinPor = satAdd 0xFFFF (x.lan.count rstVinPor) 1 :=
  count_countReset x rstVinPor

theorem vinLost_takes (n : BitVec 40) {s : State} (h : s.pins.vin = true) : ∃ t, exec (.vinLost n) s = .next t ∧
    t.pins.vin = false ∧ t.mode.dev = (if s.pins.vbak then .m1 else .m0) ∧ t.hay.cells = [] ∧ t.rst.isl = 0 ∧
    t.lan.count rstVinPor = satAdd 0xFFFF (s.lan.count rstVinPor) 1 ∧ t.pending = s.pending := by
  obtain ⟨y, hy, he⟩ := exec_vinLost n h
  obtain ⟨z, hz, hzv, hzl, hzp⟩ : ∃ z : State, z = { y with pins := { y.pins with vin := false } } ∧ z.pins.vin = false ∧
      z.lan.rstCnt = s.lan.rstCnt ∧ z.pending = s.pending :=
    ⟨_, rfl, rfl, hy.rstCnt, hy.field State.pending fun _ _ => rfl⟩
  rw [← hz] at he
  refine ⟨_, he, ?_, ?_, ?_, ?_, ?_, ?_⟩
  · have : (z.wideReset true false).pins.vin = false := by rw [wideReset_pins]; exact hzv
    exact this
  · change (if s.pins.vbak = false then DevMode.m0 else .m1) = _
    cases s.pins.vbak <;> rfl
  · exact wideReset_cells z true false hzv
  · have : (z.wideReset true false).rst.isl = 0 := by rw [wideReset_rst]
    exact this
  · rw [vinGone_count, count_congr ((wideReset_rstCnt z true false).trans hzl)]
  · exact (wideReset_pending z true false).trans hzp

/-! ### RESET_N -/

/-- RESET_N taken as low, with the reset that it causes where there is power. -/
def State.resetNLow (s : State) : State :=
  let s1 := { s with pins := { s.pins with resetN := true } }
  if s1.pins.vin then s1.wideReset false false else s1

theorem exec_resetNAssert {s : State} (hr : s.pins.resetN = false) (hc : s.rst.choreLost = false) :
    exec .resetNAssert s = .next ((s.resetNLow.countReset rstResetN).episodeJoin rstResetN) := by
  change execResetNAssert s = _
  unfold execResetNAssert
  rw [if_neg (by simp [hr, hc])]
  rfl

theorem exec_resetNAssert_of_choreLost {s : State} (hc : s.rst.choreLost = true) : exec .resetNAssert s = .next s :=
  if_pos (.inr hc)

theorem resetNLow_resetN (s : State) : s.resetNLow.pins.resetN = true := by
  unfold State.resetNLow
  dsimp only
  split
  · rw [wideReset_pins]
  · rfl

theorem resetNLow_rstCnt (s : State) : s.resetNLow.lan.rstCnt = s.lan.rstCnt := by
  unfold State.resetNLow
  dsimp only
  split
  · rw [wideReset_rstCnt]
  · rfl

theorem resetNLow_isl {s : State} (h : s.pins.vin = true) : s.resetNLow.rst.isl = 0 := by
  have e : s.resetNLow = { s with pins := { s.pins with resetN := true } }.wideReset false false := if_pos h
  rw [e, wideReset_rst]

theorem resetNAssert_takes {s : State} (hr : s.pins.resetN = false) (hc : s.rst.choreLost = false) :
    ∃ t, exec .resetNAssert s = .next t ∧ t.pins.resetN = true ∧
      t.lan.count rstResetN = satAdd 0xFFFF (s.lan.count rstResetN) 1 ∧ (s.pins.vin = true → t.rst.isl = 0) := by
  refine ⟨_, exec_resetNAssert hr hc, resetNLow_resetN s, ?_, fun hv => ?_⟩
  · rw [episodeJoin_lan, count_countReset, count_congr (resetNLow_rstCnt s)]
  · rw [episodeJoin_isl, countReset_rst, resetNLow_isl hv]

theorem exec_resetNRelease {s : State} (h : s.pins.resetN = true) :
    exec .resetNRelease s = .next ({ s with pins := { s.pins with resetN := false } }.yardDue).episodeEnd :=
  if_neg (by simp [h])

theorem resetNRelease_takes {s : State} (h : s.pins.resetN = true) : ∃ t, exec .resetNRelease s = .next t ∧ t.pins.resetN = false ∧
    t.rb .rst 0 Off.rstIslPend 8 = (s.pins.vin || s.rb .rst 0 Off.rstIslPend 8) := by
  refine ⟨_, exec_resetNRelease h, ?_, ?_⟩
  · rw [episodeEnd_pins, yardDue_pins]
  · rw [rb_episodeEnd, rb_yardDue]
    exact congrArg (· || s.rb .rst 0 Off.rstIslPend 8) (Bool.and_true _)

/-! ### PERST_N goes low -/

/-- What the host sees of the ports, beside the pins and the reset counters. -/
structure LinkView where
  pins : Pins
  links : Nat
  fns : List (Nat × FnCfg)
  rstCnt : List (Nat × Nat)

def State.linkView (s : State) : LinkView := ⟨s.pins, s.rst.links, s.fns, s.lan.rstCnt⟩

theorem linkView_of_shell {s t : State} (h : t.shell = s.shell) : t.linkView = s.linkView := by
  unfold State.linkView
  rw [pins_of_shell h, rst_of_shell h, fns_of_shell h, rstCnt_of_shell h]

section
variable (s : State)

@[simp] theorem linkView_wf (k : PageKind) (i o lo n v : Nat) : (s.wf k i o lo n v).linkView = s.linkView := (rfl)
@[simp] theorem linkView_with_rst_pens (i p : Nat) : { s with rst := { s.rst with isl := i, pens := p } }.linkView = s.linkView := (rfl)

@[simp] theorem linkView_with_mode (m : ModeSt) : { s with mode := m }.linkView = s.linkView := (rfl)
@[simp] theorem linkView_setPenBusy (p : Nat) (v : Bool) : (s.setPenBusy p v).linkView = s.linkView := (rfl)

@[simp] theorem linkView_domainHome (d : Nat) : (s.domainHome d).linkView = s.linkView := by
  unfold State.domainHome
  dsimp only
  split
  · exact (linkView_with_mode _ _).trans (linkView_of_shell (shell_pmodEnd s d _ _))
  · rfl

/-- A pen's reset moves no pin, link, function or counter of the reset layer. -/
@[simp] theorem linkView_penApply (p : Nat) : (s.penApply p).linkView = s.linkView := by
  have h1 : (((s.groomAbort fun o => o == p).ratePreempt.ownerReset p true).pageReset .modp p).shell = s.shell := by
    simp [shell_pageReset _ .modp p rfl]
  unfold State.penApply
  refine (linkView_of_shell (shell_foldl _ _ _ fun x st => shell_pmuPower x st false)).trans ?_
  rw [linkView_setPenBusy, linkView_domainHome]
  exact linkView_of_shell ((shell_clusterForget _ p).trans h1)

@[simp] theorem linkView_perstApply : s.perstApply.linkView = ((s.portReset 0).portReset 1).linkView := by
  unfold State.perstApply
  dsimp only
  rw [linkView_wf, linkView_wf, linkView_with_rst_pens]
  refine (linkView_of_shell (t := ((State.ownerReset _ 15 false).unlockAll).debugLock) (by simp; rfl)).trans ?_
  refine foldl_keeps (fun x : State => x.linkView = ((s.portReset 0).portReset 1).linkView) (fun x p hx => ?_) _
    (linkView_of_shell (shell_clusterReset _))
  split
  · exact hx
  · rw [linkView_penApply, hx]

end

section
variable (s : State)

theorem setLink_rst (k : Nat) (v : Word) : (s.setLink k v).rst =
    { s.rst with links := maskOf 2 fun i => if i = k then tbit v 8 else s.linkUp i } := by
  unfold State.setLink
  dsimp only
  split
  · rw [State.event_rst, State.wr_rst]
  · rw [State.wr_rst]

/-- After a port's link has been stored, every port shows its own. -/
theorem linkUp_setLink (k i : Nat) (v : Word) (h : i < 2) :
    (s.setLink k v).linkUp i = if i = k then tbit v 8 else s.linkUp i := by
  rw [State.linkUp, setLink_rst, natBit_maskOf, decide_eq_true h, Bool.true_and]

@[simp] theorem setLink_fns (k : Nat) (v : Word) : (s.setLink k v).fns = s.fns := by
  unfold State.setLink
  dsimp only
  split <;> simp
@[simp] theorem setLink_pins (k : Nat) (v : Word) : (s.setLink k v).pins = s.pins := by
  unfold State.setLink
  dsimp only
  split <;> simp
@[simp] theorem setLink_lan (k : Nat) (v : Word) : (s.setLink k v).lan = s.lan := by
  unfold State.setLink
  dsimp only
  split <;> simp

theorem fnCfg_fnReset (f g : Nat) : (s.fnReset f).fnCfg g = if g = f then FnCfg.reset else s.fnCfg g := by
  unfold State.fnCfg Store.getD
  change (Store.get? (Store.drop s.fns f) g).getD _ = _
  rw [Store.get?_drop]
  split <;> rfl

theorem fnCfg_fnResets (l : List Nat) (g : Nat) :
    (l.foldl State.fnReset s).fnCfg g = if g ∈ l then FnCfg.reset else s.fnCfg g := by
  induction l generalizing s with
  | nil => rfl
  | cons f l ih =>
    rw [List.foldl_cons, ih, fnCfg_fnReset]
    by_cases hl : g ∈ l <;> simp [hl]

/-- Resets of functions keep what is not of a function. -/
theorem fnResets_field {α : Type} (p : State → α) (hp : ∀ x f, p (State.fnReset x f) = p x) (l : List Nat) :
    p (l.foldl State.fnReset s) = p s := foldl_keeps (fun x => p x = p s) (fun x f hx => (hp x f).trans hx) l rfl

theorem linkUp_portReset (k i : Nat) (h : i < 2) : (s.portReset k).linkUp i = if i = k then false else s.linkUp i := by
  unfold State.portReset
  rw [fnResets_field _ (fun x => x.linkUp i) (fun _ _ => rfl), linkUp_setLink _ _ _ _ h]
  rfl

theorem fnCfg_portReset (k f : Nat) : (s.portReset k).fnCfg f = if f ∈ portFns k then FnCfg.reset else s.fnCfg f := by
  unfold State.portReset
  rw [fnCfg_fnResets, State.fnCfg, setLink_fns]
  rfl

@[simp] theorem portReset_pins (k : Nat) : (s.portReset k).pins = s.pins := by
  unfold State.portReset
  rw [fnResets_field _ State.pins (fun _ _ => rfl), setLink_pins]
@[simp] theorem portReset_lan (k : Nat) : (s.portReset k).lan = s.lan := by
  unfold State.portReset
  rw [fnResets_field _ State.lan (fun _ _ => rfl), setLink_lan]

theorem linkUp_portResets {k : Nat} (h : k < 2) : ((s.portReset 0).portReset 1).linkUp k = false := by
  rw [linkUp_portReset _ _ _ h, linkUp_portReset _ _ _ h]
  split
  · rfl
  · rw [if_pos (by omega)]

theorem mem_portFns {f : Nat} (h : f < 18) : f ∈ portFns 1 ∨ f ∈ portFns 0 := by
  simp only [portFns, List.mem_range'_1]
  omega

theorem fnCfg_portResets {f : Nat} (h : f < 18) : ((s.portReset 0).portReset 1).fnCfg f = FnCfg.reset := by
  rw [fnCfg_portReset, fnCfg_portReset]
  rcases mem_portFns h with h1 | h0
  · rw [if_pos h1]
  · rw [if_pos h0, ite_self]

theorem pins_of_linkView {s t : State} (h : t.linkView = s.linkView) : t.pins = s.pins := congrArg LinkView.pins h
theorem linkUp_of_linkView {s t : State} (h : t.linkView = s.linkView) (k : Nat) : t.linkUp k = s.linkUp k :=
  congrArg (natBit · k) (congrArg LinkView.links h)
theorem fnCfg_of_linkView {s t : State} (h : t.linkView = s.linkView) (f : Nat) : t.fnCfg f = s.fnCfg f :=
  congrArg (Store.getD (fun _ => FnCfg.reset) · f) (congrArg LinkView.fns h)

end

theorem exec_perstNAssert {s : State} (h : s.pins.perstN = false) : exec .perstNAssert s = .next
    (({ s with pins := { s.pins with perstN := true } }.countReset rstPerst).episodeJoin rstPerst).perstApply :=
  if_neg (by simp [h])

theorem perstNAssert_takes {s : State} (h : s.pins.perstN = false) : ∃ t, exec .perstNAssert s = .next t ∧ t.pins.perstN = true ∧
    (∀ k < 2, t.linkUp k = false) ∧ (∀ f < 18, t.fnCfg f = FnCfg.reset) ∧
    t.lan.count rstPerst = satAdd 0xFFFF (s.lan.count rstPerst) 1 := by
  obtain ⟨x, he, hx, hl⟩ : ∃ x : State, exec .perstNAssert s = .next x.perstApply ∧ x.pins.perstN = true ∧
      x.lan.count rstPerst = satAdd 0xFFFF (s.lan.count rstPerst) 1 :=
    ⟨_, exec_perstNAssert h, rfl, count_countReset _ rstPerst⟩
  have hv := linkView_perstApply x
  refine ⟨_, he, ?_, fun k hk => ?_, fun f hf => ?_, ?_⟩
  · rw [pins_of_linkView hv, portReset_pins, portReset_pins, hx]
  · rw [linkUp_of_linkView hv, linkUp_portResets x hk]
  · rw [fnCfg_of_linkView hv, fnCfg_portResets x hf]
  · rw [count_congr (congrArg LinkView.rstCnt hv), ← hl]
    exact count_congr (by rw [portReset_lan, portReset_lan]) _

/-! ### PERST_N goes high -/

/-- The key of owner `o` (R592). -/
def State.key (s : State) (o : Nat) : Nat := Store.getD (fun i => i) s.keys o

theorem key_newKey (s : State) (p o : Nat) : (s.newKey p).key o = if o = p then s.keyGen else s.key o := Store.getD_put _ _ _ _ _

/-- Owners of a list all have keys from `n` on, once each of them has drawn one. -/
theorem le_key_newKeys {n : Nat} (l : List Nat) {s : State} (hn : n ≤ s.keyGen) {o : Nat} (h : o ∈ l ∨ n ≤ s.key o) :
    n ≤ (l.foldl State.newKey s).key o := by
  induction l generalizing s with
  | nil => simpa using h
  | cons p l ih =>
    refine ih (Nat.le_succ_of_le hn) ?_
    rw [key_newKey]
    by_cases ho : o = p
    · exact .inr (by rwa [if_pos ho])
    · rw [if_neg ho]
      exact h.imp_left fun hm => (List.mem_cons.1 hm).resolve_left ho

/-- Fresh keys move keys and their epochs alone. -/
theorem newKeys_field {α : Type} (p : State → α) (hp : ∀ x o, p (State.newKey x o) = p x) (s : State) : p s.newKeys = p s :=
  foldl_keeps (fun x => p x = p s) (fun x o hx => (hp x o).trans hx) _ rfl

theorem srstRelease_field {α : Type} (p : State → α) (hp : ∀ (x : State) k i o b v, p (x.wb k i o b v) = p x) (s : State)
    (ok : PageKind → Nat → Bool) : p (s.srstRelease ok) = p s := by
  refine foldl_keeps (fun x => p x = p s) (fun x e hx => ?_) _ rfl
  split
  · exact (hp ..).trans hx
  · exact hx

/-- The island of a port is due, unless it is out of reset. -/
def State.portDue (s : State) (i : Nat) : State := if natBit s.rst.isl i then s else s.wb .rst 0 Off.rstIslPend i true

theorem portsDue_cases (s : State) : s.portsDue = s ∨ s.portsDue = (s.portDue 10).portDue 11 ∨ s.portsDue = s.portDue 10 := by
  unfold State.portsDue
  split
  · exact .inl rfl
  · by_cases h : s.split = true
    · exact .inr (.inl (if_pos h))
    · exact .inr (.inr (if_neg h))

theorem portsDue_field {α : Type} (p : State → α) (hp : ∀ (x : State) b, p (x.wb .rst 0 Off.rstIslPend b true) = p x) (s : State) :
    p s.portsDue = p s := by
  have hd : ∀ (x : State) i, p (x.portDue i) = p x := by
    intro x i
    unfold State.portDue
    split
    · rfl
    · exact hp x i
  rcases portsDue_cases s with h | h | h
  · rw [h]
  · rw [h, hd, hd]
  · rw [h, hd]

theorem rb_portDue {s : State} {i : Nat} (hi : i < 32) (h : natBit s.rst.isl i = false) :
    (s.portDue i).rb .rst 0 Off.rstIslPend i = true := by
  rw [State.portDue, if_neg (by simp [h]), rb_wb_same _ _ _ _ _ _ hi]

theorem rb_portDue_other (s : State) {i j : Nat} (hi : i < 32) (h : j ≠ i) :
    (s.portDue i).rb .rst 0 Off.rstIslPend j = s.rb .rst 0 Off.rstIslPend j := by
  unfold State.portDue
  split
  · rfl
  · rw [rb_wb_other _ _ _ _ _ _ _ hi h]

/-- From M3 on, with PERST_N high, port A is due unless its island is out of reset. -/
theorem rb_portsDue {s : State} (hp : s.pins.perstN = false) (hd : 3 ≤ s.mode.dev.num) (hi : natBit s.rst.isl 10 = false) :
    s.portsDue.rb .rst 0 Off.rstIslPend 10 = true := by
  have e : s.portsDue = if s.split then (s.portDue 10).portDue 11 else s.portDue 10 := if_neg (by simp [hp]; omega)
  rw [e]
  split
  · rw [rb_portDue_other _ (by decide) (by decide), rb_portDue (by decide) hi]
  · rw [rb_portDue (by decide) hi]

@[simp] theorem episodeEnd_keys (s : State) : s.episodeEnd.keys = s.keys := by
  rcases episodeEnd_cases s with h | ⟨c, h⟩
  · rw [h]
  · rw [h, State.logOffer_keys]

theorem exec_perstNRelease {s : State} (h : s.pins.perstN = true) : exec .perstNRelease s = .next
    (({ s with pins := { s.pins with perstN := false }, rst := { s.rst with bExpired := false } }.newKeys.srstRelease
      s.perstPage).portsDue).episodeEnd := if_neg (by simp [h])

theorem perstNRelease_takes {s : State} (h : s.pins.perstN = true) : ∃ t, exec .perstNRelease s = .next t ∧ t.pins.perstN = false ∧
    (∀ o < 9, s.keyGen ≤ Store.getD (fun i => i) t.keys o) ∧
    (3 ≤ s.mode.dev.num → natBit s.rst.isl 10 = false → t.rb .rst 0 Off.rstIslPend 10 = true) := by
  obtain ⟨x, he, hp, hg, hm, hi⟩ : ∃ x : State,
      exec .perstNRelease s = .next ((x.newKeys.srstRelease s.perstPage).portsDue).episodeEnd ∧ x.pins.perstN = false ∧
      x.keyGen = s.keyGen ∧ x.mode = s.mode ∧ x.rst.isl = s.rst.isl := ⟨_, exec_perstNRelease h, rfl, rfl, rfl, rfl⟩
  have hy : ∀ {α : Type} (p : State → α), (∀ (x : State) k i o b v, p (x.wb k i o b v) = p x) →
      (∀ y o, p (State.newKey y o) = p y) → p (x.newKeys.srstRelease s.perstPage) = p x := fun p hw hn =>
    (srstRelease_field p hw _ _).trans (newKeys_field p hn x)
  have hyp := hy State.pins (fun _ _ _ _ _ _ => rfl) (fun _ _ => rfl)
  refine ⟨_, he, ?_, fun o ho => ?_, fun hd hisl => ?_⟩
  · rw [episodeEnd_pins, portsDue_field State.pins (fun _ _ => rfl), hyp, hp]
  · rw [episodeEnd_keys, portsDue_field State.keys (fun _ _ => rfl), srstRelease_field State.keys (fun _ _ _ _ _ _ => rfl)]
    exact le_key_newKeys _ (Nat.le_of_eq hg.symm) (.inl (List.mem_range.2 ho))
  · rw [rb_episodeEnd]
    refine rb_portsDue (by rw [hyp, hp]) ?_ ?_
    · rw [hy State.mode (fun _ _ _ _ _ _ => rfl) (fun _ _ => rfl), hm]
      exact hd
    · rw [hy (fun y => y.rst.isl) (fun _ _ _ _ _ _ => rfl) (fun _ _ => rfl), hi, hisl]

/-! ### Islands -/

/-- Island `i` comes out of reset. -/
def State.islandUp (s : State) (i : Nat) : State :=
  let s1 := s.wb .rst 0 Off.rstIslPend i false
  { s1 with rst := { s1.rst with isl := s1.rst.isl ||| 2 ^ i } }

theorem natBit_islandUp (s : State) (i : Nat) : natBit (s.islandUp i).rst.isl i = true := by
  change (s.rst.isl ||| 2 ^ i).testBit i = true
  rw [Nat.testBit_or, Nat.testBit_two_pow_self, Bool.or_true]

theorem rb_islandUp (s : State) {i : Nat} (h : i < 32) : (s.islandUp i).rb .rst 0 Off.rstIslPend i = false :=
  rb_wb_same s .rst 0 Off.rstIslPend i false h

/-- What follows the release of an island (R545, R566, R631) leaves the islands as they are. -/
structure State.IslandFrame (s t : State) : Prop where
  isl : t.rst.isl = s.rst.isl
  pend : t.rd .rst 0 Off.rstIslPend = s.rd .rst 0 Off.rstIslPend

theorem State.IslandFrame.trans {s t u : State} (h1 : State.IslandFrame s t) (h2 : State.IslandFrame t u) : State.IslandFrame s u :=
  ⟨h2.isl.trans h1.isl, h2.pend.trans h1.pend⟩

theorem islandFrame_wr {s : State} {k : PageKind} (i o : Nat) (v : Word) (h : k ≠ .rst ∨ Off.rstIslPend % 0x1000 ≠ o % 0x1000) :
    State.IslandFrame s (s.wr k i o v) := by
  refine ⟨congrArg RstSt.isl (State.wr_rst s k i o v), ?_⟩
  rcases eq_or_ne k .rst with rfl | hk
  · exact rd_wr_offset _ _ _ _ _ _ _ (h.resolve_left (by simp))
  · exact rd_wr_kind _ _ _ _ _ _ hk.symm

theorem islandFrame_wf {s : State} {k : PageKind} (i o lo n v : Nat) (h : k ≠ .rst ∨ Off.rstIslPend % 0x1000 ≠ o % 0x1000) :
    State.IslandFrame s (s.wf k i o lo n v) := islandFrame_wr i o _ h

theorem islandFrame_m3Exit (s : State) : State.IslandFrame s s.m3Exit := ⟨by rw [m3Exit_rst], rd_m3Exit s _ _ (by decide)⟩

theorem islandFrame_enterM2 (s : State) : State.IslandFrame s s.enterM2 :=
  State.IslandFrame.trans (t := { s.enterDev .m2 with rst := { s.rst with loading := true, optDone := false } }) ⟨rfl, rfl⟩
    ((islandFrame_wf _ _ _ _ _ (.inr (by decide))).trans (islandFrame_wf _ _ _ _ _ (.inr (by decide))))

theorem exec_islandLock {i : Fin 12} {s : State} (h : s.rb .rst 0 Off.rstIslPend i = true) :
    ∃ t, exec (.islandLock i) s = .next t ∧ State.IslandFrame (s.islandUp i) t := by
  have e : exec (.islandLock i) s = .next (if i.val < 8 then ((s.islandUp i).wb .tmb i Off.tmbStat 0 true).m3Exit
      else if i.val = 8 then (if s.mode.dev = .m11 then s.islandUp i else (s.islandUp i).enterM2)
      else if i.val = 9 then (((s.islandUp i).setHbm 9 true).wr .hbm 0 Off.hbmTrn 0).m3Exit
      else (s.islandUp i).wb .hlk 0 (Off.hlkLstat (i - 10)) 9 true) := by
    change execIslandLock i s = _
    unfold execIslandLock
    rw [if_neg (by simp [h])]
    split_ifs <;> rfl
  refine ⟨_, e, ?_⟩
  split_ifs
  · exact (islandFrame_wf _ _ _ _ _ (.inl (by decide))).trans (islandFrame_m3Exit _)
  · exact ⟨rfl, rfl⟩
  · exact islandFrame_enterM2 _
  · have h9 : State.IslandFrame (s.islandUp i) ((s.islandUp i).setHbm 9 true) := islandFrame_wf 0 Off.hbmStat 9 1 _ (.inl (by decide))
    exact (h9.trans (islandFrame_wr 0 Off.hbmTrn 0 (.inl (by decide)))).trans (islandFrame_m3Exit _)
  · exact islandFrame_wf _ _ _ _ _ (.inl (by decide))

theorem islandLock_takes {i : Fin 12} {s : State} (h : s.rb .rst 0 Off.rstIslPend i = true) :
    ∃ t, exec (.islandLock i) s = .next t ∧ natBit t.rst.isl i = true ∧ t.rb .rst 0 Off.rstIslPend i = false := by
  obtain ⟨t, he, hf⟩ := exec_islandLock h
  exact ⟨t, he, by rw [hf.isl, natBit_islandUp], by rw [rb_of_rd hf.pend, rb_islandUp s (by omega)]⟩

/-- Island `i` is marked as one that has not locked. -/
def State.islandFails (s : State) (i : Nat) : State := (s.wb .rst 0 Off.rstIslPend i false).wb .rst 0 Off.rstIslLockfail i true

theorem exec_islandLockFail {i : Fin 12} {s : State} (h : s.rb .rst 0 Off.rstIslPend i = true) : exec (.islandLockFail i) s = .next
    ((if i.val = 8 ∨ i.val = 11 then s.islandFails i else (s.islandFails i).m3Failed).logOffer logLockFail PageKind.rst.typeCode 0
      ((s.islandFails i).rf .rst 0 Off.rstIslLockfail 0 12)) := if_neg (by simp [h])

theorem islandLockFail_takes {i : Fin 12} {s : State} (h : s.rb .rst 0 Off.rstIslPend i = true) :
    ∃ t, exec (.islandLockFail i) s = .next t ∧ t.rst.isl = s.rst.isl ∧ t.rb .rst 0 Off.rstIslLockfail i = true ∧
      t.rb .rst 0 Off.rstIslPend i = false := by
  have hi : i.val < 32 := by omega
  refine ⟨_, exec_islandLockFail h, ?_, ?_, ?_⟩
  · rw [State.logOffer_rst]
    split_ifs
    · rfl
    · rw [m3Failed_isl]; rfl
  · rw [rb_logOffer, apply_ite (fun x : State => x.rb .rst 0 Off.rstIslLockfail i), rb_m3Failed, ite_self]
    exact rb_wb_same _ _ _ _ _ _ hi
  · rw [rb_logOffer, apply_ite (fun x : State => x.rb .rst 0 Off.rstIslPend i), rb_m3Failed, ite_self]
    exact (rb_of_rd (rd_wb_offset _ _ _ _ _ _ _ _ (by decide)) _).trans (rb_wb_same _ _ _ _ _ _ hi)

/-- Settles O47: each pin, supply and island command by its own lemma above. -/
theorem powerAndResetPinsTakeEffect : Obligations.PowerAndResetPinsTakeEffect := by
  unfold Obligations.PowerAndResetPinsTakeEffect
  exact ⟨vbakPresent_takes, lanternPor_takes, fun _ => vinInRange_takes, fun n _ => vinLost_takes n,
    fun _ hr => ⟨resetNAssert_takes hr, exec_resetNAssert_of_choreLost⟩, fun _ => resetNRelease_takes,
    fun _ => perstNAssert_takes, fun _ => perstNRelease_takes, fun _ _ h => ⟨islandLock_takes h, islandLockFail_takes h⟩⟩

end Sys2Proof.Machine

/-!
PROOF. From M2 to M4 (R47, R49, R156, R468, R545, R566, R567, R585, R587, R595, R631): O48.
-/

namespace Sys2Proof.Machine

/-! ### Option loading -/

/-- Option loading is over. -/
def State.loaded (s : State) : State := { s with rst := { s.rst with loading := false } }

/-- The options are in force, and the gatehouse boot starts (R631). -/
def State.bootBegin (s : State) : State :=
  let s2 := (s.loaded.wb .rst 0 Off.rstStat 0 true).wb .hlk 0 Off.hlkPortcfg 0 s.otp.split
  { s2 with rst := { s2.rst with booting := true, optDone := true } }

theorem exec_optionLoadDone_none {s : State} (hd : s.mode.dev = .m2) (hl : s.rst.loading = true) :
    exec (.optionLoadDone none) s = .next s.bootBegin := if_neg (by simp [hd, hl])

theorem exec_optionLoadDone_some {s : State} (hd : s.mode.dev = .m2) (hl : s.rst.loading = true) (row : Fin 256) :
    exec (.optionLoadDone (some row)) s = .next (((s.loaded.wb .rst 0 Off.rstStat 1 true).wf .rst 0 Off.rstOpt 0 8 row).logOffer logOptErr
      PageKind.rst.typeCode 0 row) := if_neg (by simp [hd, hl])

theorem bootBegin_takes (s : State) : s.bootBegin.rst.loading = false ∧ s.bootBegin.rst.booting = true ∧
    s.bootBegin.rb .rst 0 Off.rstStat 0 = true ∧ s.bootBegin.rb .hlk 0 Off.hlkPortcfg 0 = s.otp.split := by
  obtain ⟨y, hy, hr⟩ : ∃ y : State, y = s.loaded.wb .rst 0 Off.rstStat 0 true ∧ y.rb .rst 0 Off.rstStat 0 = true :=
    ⟨_, rfl, rb_wb_same _ _ _ _ _ _ (by decide)⟩
  have hl : y.rst.loading = false := by rw [hy, State.wb_rst]; rfl
  unfold State.bootBegin
  rw [← hy]
  exact ⟨hl, rfl, (rb_of_rd (rd_wb_kind y 0 Off.hlkPortcfg 0 Off.rstStat 0 _ (by decide)) 0).trans hr,
    rb_wb_same y .hlk 0 Off.hlkPortcfg 0 s.otp.split (by decide)⟩

theorem optionLoadDone_takes {s : State} (hd : s.mode.dev = .m2) (hl : s.rst.loading = true) :
    (∃ t, exec (.optionLoadDone none) s = .next t ∧ t.rst.loading = false ∧ t.rst.booting = true ∧
      t.rb .rst 0 Off.rstStat 0 = true ∧ t.rb .hlk 0 Off.hlkPortcfg 0 = s.otp.split) ∧
    (∀ row : Fin 256, ∃ t, exec (.optionLoadDone (some row)) s = .next t ∧ t.rst.booting = s.rst.booting ∧
      t.rb .rst 0 Off.rstStat 1 = true ∧ t.rf .rst 0 Off.rstOpt 0 8 = row) := by
  refine ⟨⟨_, exec_optionLoadDone_none hd hl, bootBegin_takes s⟩, fun row => ?_⟩
  refine ⟨_, exec_optionLoadDone_some hd hl row, ?_, ?_, ?_⟩
  · rw [State.logOffer_rst, State.wf_rst, State.wb_rst]
    rfl
  · rw [rb_logOffer, rb_of_rd (rd_wf_offset _ _ _ _ _ _ _ _ _ (by decide)), rb_wb_same _ _ _ _ _ _ (by decide)]
  · rw [rf_logOffer, rf_wf_same _ _ _ _ _ _ _ (by decide)]
    exact Nat.mod_eq_of_lt row.isLt

/-! ### The gatehouse boot -/

theorem ofBytes_lt (bs : List Byte) : ofBytes bs < 256 ^ bs.length := by
  induction bs with
  | nil => decide
  | cons b bs ih =>
    have hb := b.isLt
    rw [ofBytes, List.length_cons, Nat.pow_succ]
    omega

theorem flashNum_lt (s : State) (a n : Nat) : s.flashNum a n < 256 ^ n := by
  simpa [State.flashNum] using ofBytes_lt (s.flashBytes a n)

/-- An image that passes the checks has a security version of at most 64 (R588). -/
theorem imageSvn_le {s : State} {patch : Bool} {a : Nat} (h : s.imageCheck patch a = 0) : s.imageSvn a ≤ 64 := by
  unfold State.imageCheck at h
  by_contra hn
  split_ifs at h
  omega

section
variable (s : State)

/-- A check of the boot has failed with `code` at image field `image`. -/
def State.bootStuck (t : State) (code image : Nat) : Prop :=
  t.mode.dev = .m2 ∧ t.rst.booting = false ∧ t.rd .gth 0 Off.gthBootResult = word (code + 16 * image)

theorem bootStuck_bootFail {s : State} (hd : s.mode.dev = .m2) (hb : s.rst.booting = false) (code image : Nat) :
    (s.bootFail code image).bootStuck code image := by
  unfold State.bootFail
  refine ⟨?_, ?_, ?_⟩
  · rw [State.logOffer_mode, State.wr_mode, hd]
  · rw [State.logOffer_rst, State.wr_rst, hb]
  · rw [rd_logOffer, rd_wr_same]

/-- M3 is entered without a change of what the gatehouse and the groom pages show. -/
theorem rd_enterM3 {k : PageKind} (i o : Nat) (h : k ≠ .rst) (h' : k ≠ .hlk) : s.enterM3.rd k i o = s.rd k i o := by
  unfold State.enterM3
  rw [portsDue_field (fun x => x.rd k i o) (fun x b => rd_wb_kind x _ _ _ _ _ _ h), rd_wb_kind _ _ _ _ _ _ _ h,
    rd_wf_kind _ _ _ _ _ _ _ _ h]
  exact rd_wb_kind s 0 Off.hlkPortcfg i o 8 (s.rb .hlk 0 Off.hlkPortcfg 0) h'

theorem enterM3_mode : s.enterM3.mode.dev = .m3 := by
  unfold State.enterM3
  rw [portsDue_field State.mode (fun _ _ => rfl)]
  rfl
theorem enterM3_rst : s.enterM3.rst.booting = false := by
  unfold State.enterM3
  rw [portsDue_field State.rst (fun _ _ => rfl)]
  rfl
theorem enterM3_gth : s.enterM3.gth = s.gth := by
  unfold State.enterM3
  rw [portsDue_field State.gth (fun _ _ => rfl), State.wb_gth, State.wf_gth]
  exact State.wb_gth s .hlk 0 Off.hlkPortcfg 8 (s.rb .hlk 0 Off.hlkPortcfg 0)

theorem rd_newKey {k : PageKind} (p i o : Nat) (h : k ≠ .pen) : (s.newKey p).rd k i o = s.rd k i o :=
  rd_wf_kind _ _ _ _ _ _ _ _ h

/-- The end of the boot moves BOOTED of the gatehouse page alone. -/
theorem rd_bootEnd (listed : Bool) {k : PageKind} (i o : Nat) (h : k ≠ .rst) (h' : k ≠ .hlk) (hp : k ≠ .pen) :
    (s.bootEnd listed).rd k i o = (s.wb .gth 0 Off.gthStat 0 true).rd k i o := by
  unfold State.bootEnd
  rw [rd_enterM3 _ _ _ h h', newKeys_field (fun x => x.rd k i o) (fun x p => rd_newKey x p i o hp)]
  rfl

theorem bootEnd_dev (listed : Bool) : (s.bootEnd listed).mode.dev = .m3 := enterM3_mode _
theorem bootEnd_booting (listed : Bool) : (s.bootEnd listed).rst.booting = false := enterM3_rst _
theorem bootEnd_listed (listed : Bool) : (s.bootEnd listed).gth.listed = listed := by
  unfold State.bootEnd
  rw [enterM3_gth, newKeys_field State.gth (fun _ _ => rfl)]

theorem rf_bootEnd_imgSvn (listed : Bool) (lo n : Nat) : (s.bootEnd listed).rf .gth 0 Off.gthImgSvn lo n = s.rf .gth 0 Off.gthImgSvn lo n :=
  rf_of_rd ((rd_bootEnd s listed _ _ (by decide) (by decide) (by decide)).trans (rd_wb_offset _ _ _ _ _ _ _ _ (by decide))) _ _
theorem rf_bootEnd_patch (listed : Bool) (lo n : Nat) : (s.bootEnd listed).rf .grm 0 Off.grmPatch lo n = s.rf .grm 0 Off.grmPatch lo n :=
  rf_of_rd ((rd_bootEnd s listed _ _ (by decide) (by decide) (by decide)).trans (rd_wb_kind _ _ _ _ _ _ _ (by decide))) _ _
theorem rb_bootEnd_running (listed : Bool) : (s.bootEnd listed).rb .gth 0 Off.gthStat 0 = true :=
  (rb_of_rd (rd_bootEnd s listed _ _ (by decide) (by decide) (by decide)) _).trans (rb_wb_same _ _ _ _ _ _ (by decide))
theorem rb_bootEnd_patched (listed : Bool) : (s.bootEnd listed).rb .gth 0 Off.gthStat 1 = s.rb .gth 0 Off.gthStat 1 :=
  (rb_of_rd (rd_bootEnd s listed _ _ (by decide) (by decide) (by decide)) _).trans (rb_wb_other _ _ _ _ _ _ _ (by decide) (by decide))

theorem rf_bootStart {a : Nat} (h : s.imageSvn a ≤ 64) : (s.bootStart a).rf .gth 0 Off.gthImgSvn 0 7 = s.imageSvn a := by
  unfold State.bootStart
  rw [rf_wf_same _ _ _ _ _ _ _ (by decide)]
  exact Nat.mod_eq_of_lt (by omega)

/-! What a loaded patch shows. -/

theorem rf_loadPatch_boot (p : PatchImage) : (s.loadPatch p).rf .gth 0 Off.gthImgSvn 0 7 = s.rf .gth 0 Off.gthImgSvn 0 7 := by
  unfold State.loadPatch
  rw [rf_wf_other _ _ _ _ _ _ _ _ _ (by decide) (by decide)]
  refine rf_of_rd ((rd_wb_offset _ _ _ _ _ _ _ _ (by decide)).trans ((rd_wr_kind _ _ _ _ _ _ (by decide)).trans ?_)) _ _
  rfl
theorem rf_loadPatch_svn {p : PatchImage} (h : p.svn ≤ 64) : (s.loadPatch p).rf .gth 0 Off.gthImgSvn 8 7 = p.svn := by
  unfold State.loadPatch
  rw [rf_wf_same _ _ _ _ _ _ _ (by decide)]
  exact Nat.mod_eq_of_lt (by omega)
theorem rb_loadPatch (p : PatchImage) : (s.loadPatch p).rb .gth 0 Off.gthStat 1 = true := by
  unfold State.loadPatch
  rw [rb_of_rd (rd_wf_offset _ _ _ _ _ _ _ _ _ (by decide)), rb_wb_same _ _ _ _ _ _ (by decide)]
theorem rf_loadPatch_version {p : PatchImage} (h : p.version < 65536) : (s.loadPatch p).rf .grm 0 Off.grmPatch 0 16 = p.version := by
  unfold State.loadPatch
  rw [rf_of_rd (rd_wf_kind _ _ _ _ _ _ _ _ (by decide)), rf_of_rd (rd_wb_kind _ _ _ _ _ _ _ (by decide)), rf_wr_same,
    fld_word _ _ _ (by decide)]
  omega

end

/-! The boot reads the flash and the fuses alone. -/

/-- The gatehouse boot is over, with the flash in its state as read. -/
def State.bootOver (x : State) : State := { x with rst := { x.rst with booting := false } }

section
variable {x t : State} (hf : t.flash = x.flash) (ho : t.otp = x.otp)
include hf ho

theorem flashBytes_of_flash (a n : Nat) : t.flashBytes a n = x.flashBytes a n := by simp only [State.flashBytes, State.flashByte, hf, ho]
theorem flashNum_of_flash (a n : Nat) : t.flashNum a n = x.flashNum a n := by rw [State.flashNum, flashBytes_of_flash hf ho, State.flashNum]
theorem dirOk_of_flash : t.dirOk = x.dirOk := by
  simp only [State.dirOk, flashNum_of_flash hf ho, flashBytes_of_flash hf ho, ho]
theorem slotLen_of_flash (k : Nat) : t.slotLen k = x.slotLen k := by rw [State.slotLen, flashNum_of_flash hf ho, ho, State.slotLen]
theorem slotAt_of_flash (k : Nat) : t.slotAt k = x.slotAt k := by rw [State.slotAt, flashNum_of_flash hf ho, ho, State.slotAt]
theorem imageSvn_of_flash (a : Nat) : t.imageSvn a = x.imageSvn a := flashNum_of_flash hf ho _ _
theorem payload_of_flash (a : Nat) : t.payload a = x.payload a := by
  rw [State.payload, flashNum_of_flash hf ho, flashBytes_of_flash hf ho, State.payload]
theorem tagOk_of_flash (a : Nat) : t.tagOk a = x.tagOk a := by
  simp only [State.tagOk, flashBytes_of_flash hf ho, payload_of_flash hf ho]
theorem imageCheck_of_flash (patch : Bool) (a : Nat) : t.imageCheck patch a = x.imageCheck patch a := by
  have hh : t.headerOk patch a = x.headerOk patch a := by simp only [State.headerOk, flashNum_of_flash hf ho]
  simp only [State.imageCheck, hh, flashBytes_of_flash hf ho, payload_of_flash hf ho, imageSvn_of_flash hf ho, ho]

end

section
variable (x : State) (a : Nat)

@[simp] theorem bootStart_mode : (x.bootStart a).mode = x.mode := State.wf_mode _ _ _ _ _ _ _
@[simp] theorem bootStart_rst : (x.bootStart a).rst = x.rst := State.wf_rst _ _ _ _ _ _ _
@[simp] theorem bootStart_flash : (x.bootStart a).flash = x.flash := State.wf_flash _ _ _ _ _ _ _
@[simp] theorem bootStart_otp : (x.bootStart a).otp = x.otp := State.wf_otp _ _ _ _ _ _ _
@[simp] theorem dirOk_bootOver : x.bootOver.dirOk = x.dirOk := dirOk_of_flash rfl rfl
@[simp] theorem slotLen_bootOver (k : Nat) : x.bootOver.slotLen k = x.slotLen k := slotLen_of_flash rfl rfl k
@[simp] theorem slotAt_bootOver (k : Nat) : x.bootOver.slotAt k = x.slotAt k := slotAt_of_flash rfl rfl k
@[simp] theorem imageCheck_bootOver (patch : Bool) : x.bootOver.imageCheck patch a = x.imageCheck patch a :=
  imageCheck_of_flash rfl rfl patch a
@[simp] theorem imageSvn_bootOver : x.bootOver.imageSvn a = x.imageSvn a := imageSvn_of_flash rfl rfl a
@[simp] theorem tagOk_bootOver : x.bootOver.tagOk a = x.tagOk a := tagOk_of_flash rfl rfl a

section
variable (b : Nat)

@[simp] theorem slotLen_bootStart : (x.bootStart a).slotLen b = x.slotLen b := slotLen_of_flash (bootStart_flash x a) (bootStart_otp x a) b
@[simp] theorem slotAt_bootStart : (x.bootStart a).slotAt b = x.slotAt b := slotAt_of_flash (bootStart_flash x a) (bootStart_otp x a) b
@[simp] theorem imageCheck_bootStart (patch : Bool) : (x.bootStart a).imageCheck patch b = x.imageCheck patch b :=
  imageCheck_of_flash (bootStart_flash x a) (bootStart_otp x a) patch b
@[simp] theorem tagOk_bootStart : (x.bootStart a).tagOk b = x.tagOk b := tagOk_of_flash (bootStart_flash x a) (bootStart_otp x a) b
theorem patchAt_version : ((x.bootOver.bootStart a).patchAt b).version = x.flashNum (b + 6) 2 :=
  flashNum_of_flash (bootStart_flash x.bootOver a) (bootStart_otp x.bootOver a) _ _
theorem patchAt_svn : ((x.bootOver.bootStart a).patchAt b).svn = x.imageSvn b :=
  imageSvn_of_flash (bootStart_flash x.bootOver a) (bootStart_otp x.bootOver a) b

end
end

/-- The boot has ended in M3, with the images that run as the page shows them. -/
def State.bootRuns (t x : State) (a b : Nat) (listed patch : Bool) : Prop :=
  t.mode.dev = .m3 ∧ t.rst.booting = false ∧ t.rf .gth 0 Off.gthImgSvn 0 7 = x.imageSvn a ∧ t.rb .gth 0 Off.gthStat 0 = true ∧
    t.gth.listed = listed ∧ (patch = true → t.rb .gth 0 Off.gthStat 1 = true ∧ t.rf .gth 0 Off.gthImgSvn 8 7 = x.imageSvn b ∧
      t.rf .grm 0 Off.grmPatch 0 16 = x.flashNum (b + 6) 2)

/-- Without a patch image the boot ends with the boot image alone. -/
theorem bootRuns_bootEnd {x : State} {a : Nat} (b : Nat) (listed : Bool) (ha : x.imageSvn a ≤ 64) :
    ((x.bootOver.bootStart a).bootEnd listed).bootRuns x a b listed false := by
  refine ⟨bootEnd_dev _ _, bootEnd_booting _ _, ?_, rb_bootEnd_running _ _, bootEnd_listed _ _, fun h => by simp at h⟩
  rw [rf_bootEnd_imgSvn, rf_bootStart _ (by simpa using ha), imageSvn_bootOver]

theorem bootRuns_patch {x : State} {a b : Nat} (listed : Bool) (ha : x.imageSvn a ≤ 64) (hb : x.imageSvn b ≤ 64) :
    (((x.bootOver.bootStart a).loadPatch ((x.bootOver.bootStart a).patchAt b)).bootEnd listed).bootRuns x a b listed true := by
  have hv := flashNum_lt x (b + 6) 2
  refine ⟨bootEnd_dev _ _, bootEnd_booting _ _, ?_, rb_bootEnd_running _ _, bootEnd_listed _ _, fun _ => ⟨?_, ?_, ?_⟩⟩
  · rw [rf_bootEnd_imgSvn, rf_loadPatch_boot, rf_bootStart _ (by simpa using ha), imageSvn_bootOver]
  · rw [rb_bootEnd_patched, rb_loadPatch]
  · rw [rf_bootEnd_imgSvn, rf_loadPatch_svn _ (by rw [patchAt_svn]; exact hb), patchAt_svn]
  · rw [rf_bootEnd_patch, rf_loadPatch_version _ (by rw [patchAt_version]; omega), patchAt_version]

theorem exec_bootDone {o : BootRead} {s : State} (hd : s.mode.dev = .m2) (hb : s.rst.booting = true) : exec (.bootDone o) s = .next
    ({ s with flash := flashFill s.flash o.flash }.bootOver.boot o.fault o.listed) := if_neg (by simp [hd, hb])

section
variable {x : State} {fault : Option (Fin 3)} (listed : Bool)

/-- The boot image passes the checks: its own steps follow, then those of the patch image (R585). -/
theorem boot_starts (h0 : fault ≠ some 0) (h1 : fault ≠ some 1) (hdir : x.dirOk = true) (hlen : x.slotLen 0 ≠ 0)
    (hok : x.imageCheck false (x.slotAt 0) = 0) :
    x.bootOver.boot fault listed = (x.bootOver.bootStart (x.slotAt 0)).bootPatch fault listed := by
  simp [State.boot, h0, h1, hdir, hlen, hok]

end

/-! ### M3: the epoch and the training -/

theorem exec_autoEpochArm {s : State} (hd : s.mode.dev = .m3) (ha : s.mode.autoArmed = false) (hi : ∀ b < 8, natBit s.rst.isl b = true) :
    exec .autoEpochArm s = .next { s.epochArm standalone with mode := { s.mode with autoArmed := true } } :=
  if_pos ⟨hd, ha, List.all_eq_true.2 fun b hb => hi b (List.mem_range.1 hb)⟩

theorem autoEpochArm_takes {s : State} (hd : s.mode.dev = .m3) (ha : s.mode.autoArmed = false)
    (hi : ∀ b < 8, natBit s.rst.isl b = true) :
    ∃ t, exec .autoEpochArm s = .next t ∧ t.armed = some ⟨standalone, s.now⟩ ∧ t.mode.autoArmed = true := by
  refine ⟨_, exec_autoEpochArm hd ha hi, ?_, rfl⟩
  change (s.epochArm standalone).armed = _
  unfold State.epochArm
  rw [if_neg (by decide)]

/-- What HBM_STAT shows when the training of point `p` ends. -/
def State.trained (s : State) (p : Nat) (ok : Bool) : State := (s.setHbm (4 + p) ok).setHbm 9 false

section
variable (s : State)

theorem hbmBit_setHbm_same {b : Nat} (v : Bool) (h : b < 32) : (s.setHbm b v).hbmBit b = v := rb_wb_same s .hbm 0 Off.hbmStat b v h
theorem hbmBit_setHbm_other {b c : Nat} (v : Bool) (h : b < 32) (hc : c ≠ b) : (s.setHbm b v).hbmBit c = s.hbmBit c :=
  rb_wb_other s .hbm 0 Off.hbmStat b c v h hc

theorem hbmBit_trained {p : Nat} (ok : Bool) (h : p < 3) : (s.trained p ok).hbmBit (4 + p) = ok := by
  rw [State.trained, hbmBit_setHbm_other _ _ (by decide) (by omega), hbmBit_setHbm_same _ _ (by omega)]
theorem busy_trained (p : Nat) (ok : Bool) : (s.trained p ok).hbmBit 9 = false := hbmBit_setHbm_same _ _ (by decide)

@[simp] theorem mode_trained (p : Nat) (ok : Bool) : (s.trained p ok).mode = s.mode :=
  (State.wb_mode _ _ _ _ _ _).trans (State.wb_mode _ _ _ _ _ _)

theorem hbmBit_m3Exit (b : Nat) : s.m3Exit.hbmBit b = s.hbmBit b := rb_m3Exit s 0 Off.hbmStat b (by decide)
theorem hbmBit_m3Failed (b : Nat) : s.m3Failed.hbmBit b = s.hbmBit b := rb_m3Failed s .hbm 0 Off.hbmStat b

/-- The reservations are bits 12 and 13 of HBM_STAT. -/
theorem hbmBit_reserve {b : Nat} (h : b < 12) : s.reserve.hbmBit b = s.hbmBit b := by
  unfold State.reserve
  rw [hbmBit_setHbm_other _ _ (by decide) (by omega), hbmBit_setHbm_other _ _ (by decide) (by omega)]

/-- The hayloft works at its fastest point from here on, with the reservations that it allows. -/
def State.hayTrained (s : State) : State :=
  let s2 := (s.wf .hbm 0 Off.hbmStat 0 2 0).reserve
  { s2 with mode := { s2.mode with trainDone := true } }

theorem hbmBit_hayTrained {b : Nat} (h : b < 12) (h2 : 2 ≤ b) : s.hayTrained.hbmBit b = s.hbmBit b :=
  (rb_with_mode _ _ .hbm 0 Off.hbmStat b).trans ((hbmBit_reserve _ h).trans
    (rb_wf_other s .hbm 0 Off.hbmStat 0 2 0 b (by decide) (.inr h2)))

end

/-- The training that ends is the one that runs. -/
theorem exec_trainingDone {s : State} {p : Fin 3} (ok : Bool) (hb : s.hbmBit 9 = true)
    (hm : (s.mode.dev = .m3 ∧ p.val = 0) ∨ (s.mode.dev ≠ .m3 ∧ s.hbm.want = some p.val)) : exec (.trainingDone p ok) s = .next
    (if s.mode.dev = .m3 ∧ ok then (s.trained p ok).hayTrained.m3Exit else (s.trained p ok).m3Failed) := by
  change execTrainingDone p ok s = _
  unfold execTrainingDone
  rw [if_neg (fun h => h.elim (by simp [hb]) fun hn => hn hm)]
  exact (apply_ite Host.Outcome.next ..).symm

theorem trainingDone_m3 {s : State} (hd : s.mode.dev = .m3) (hb : s.hbmBit 9 = true) :
    (∃ t, exec (.trainingDone 0 true) s = .next t ∧ t.mode.trainDone = true ∧ t.hbmBit 9 = false ∧ t.hbmBit 4 = true) ∧
    (∃ t, exec (.trainingDone 0 false) s = .next t ∧ t.mode.trainDone = s.mode.trainDone ∧ t.hbmBit 9 = false ∧
      t.rst.m3Fail = true) := by
  constructor
  · have e : exec (.trainingDone 0 true) s = .next (s.trained 0 true).hayTrained.m3Exit :=
      (exec_trainingDone true hb (.inl ⟨hd, rfl⟩)).trans (congrArg _ (if_pos ⟨hd, rfl⟩))
    refine ⟨_, e, ?_, ?_, ?_⟩
    · rw [m3Exit_trainDone]
      rfl
    · rw [hbmBit_m3Exit, hbmBit_hayTrained _ (by decide) (by decide), busy_trained]
    · rw [hbmBit_m3Exit, hbmBit_hayTrained _ (by decide) (by decide), hbmBit_trained s true (p := 0) (by decide)]
  · have e : exec (.trainingDone 0 false) s = .next (s.trained 0 false).m3Failed :=
      (exec_trainingDone false hb (.inl ⟨hd, rfl⟩)).trans (congrArg _ (if_neg (by simp)))
    refine ⟨_, e, ?_, ?_, ?_⟩
    · rw [m3Failed_mode, mode_trained]
    · rw [hbmBit_m3Failed, busy_trained]
    · rw [m3Failed_of_m3 (by rw [mode_trained, hd])]

theorem trainingDone_asked {s : State} (p : Fin 3) (ok : Bool) (hd : s.mode.dev ≠ .m3) (hw : s.hbm.want = some p.val)
    (hb : s.hbmBit 9 = true) : ∃ t, exec (.trainingDone p ok) s = .next t ∧ t.hbmBit (4 + p) = ok ∧ t.hbmBit 9 = false := by
  refine ⟨_, (exec_trainingDone ok hb (.inr ⟨hd, hw⟩)).trans (congrArg _ (if_neg fun h => hd h.1)), ?_, ?_⟩
  · rw [hbmBit_m3Failed, hbmBit_trained _ _ p.isLt]
  · rw [hbmBit_m3Failed, busy_trained]

/-! ### M3: the tack room -/

/-- The coefficients `c` of slot `slot` are loaded. -/
def State.tackLoad (s : State) (c : Coefs) (slot : Option Nat) : State :=
  { s.setFar { s.far with bankA := c.bank, bankB := c.bank, trims := c.trims, base := c.base, gen := s.far.gen + 1, slot := slot } with
    mode := { s.mode with tackLoaded := true } }

/-- The coefficients of the image in slot `k` are loaded, and are known from here on. -/
def State.tackTake (s : State) (k : Nat) : State :=
  let body := s.tackBody k
  let s1 := s.tackLoad (s.tackCoefs body) (some k)
  s1.setFar { s1.far with known := (body, s.tackCoefs body) :: s1.far.known }

theorem exec_tackRoomLoadDone_some {s : State} {faults : BitVec 2} {k : Nat} (hd : s.mode.dev = .m3) (ht : s.mode.tackLoaded = false)
    (hk : s.tackChoice faults.toNat = some k) : exec (.tackRoomLoadDone faults) s = .next
    ((s.tackTake k).tackShow 1 (word (s.tackEpoch k))).m3Exit := by
  change execTackRoomLoadDone faults s = _
  unfold execTackRoomLoadDone
  rw [if_neg (by simp [hd, ht]), hk]
  rfl

/-- The slot that a load without a valid image reports. -/
def State.tackBad (s : State) (faults : Nat) : Option Nat :=
  [2, 3].find? fun k => s.tackThere k || (s.slotLen k != 0 && natBit faults (k - 2))

theorem exec_tackRoomLoadDone_none {s : State} {faults : BitVec 2} (hd : s.mode.dev = .m3) (ht : s.mode.tackLoaded = false)
    (hk : s.tackChoice faults.toNat = none) : exec (.tackRoomLoadDone faults) s = .next
    (match s.tackBad faults.toNat with
      | some k => (((s.tackLoad ⟨0, [], []⟩ none).tackShow 3 0).logOffer logTakInvalid PageKind.tak.typeCode 0 k).m3Exit
      | none => ((s.tackLoad ⟨0, [], []⟩ none).tackShow 0 0).m3Exit) := by
  change execTackRoomLoadDone faults s = _
  unfold execTackRoomLoadDone
  rw [if_neg (by simp [hd, ht]), hk]
  unfold State.tackBad
  dsimp only
  cases h : [2, 3].find? fun k => s.tackThere k || (s.slotLen k != 0 && natBit faults.toNat (k - 2)) <;> rfl

section
variable (s : State) (st : Nat) (e : Word)

@[simp] theorem tackShow_mode : (s.tackShow st e).mode = s.mode := by
  unfold State.tackShow
  rw [State.wr_mode, State.wr_mode, State.wr_mode]
@[simp] theorem tackShow_far : (s.tackShow st e).far = s.far := by
  unfold State.tackShow
  rw [State.wr_far, State.wr_far, State.wr_far]
theorem rd_tackShow_farEpoch : (s.tackShow st e).rd .far 0 Off.farEpoch = e := rd_wr_same _ _ _ _ _
theorem rd_tackShow_epochA : (s.tackShow st e).rd .tak 0 Off.takEpochA = e :=
  (rd_wr_kind _ _ _ _ _ _ (by decide)).trans (rd_wr_same _ _ _ _ _)
theorem rf_tackShow_stat (h : st < 8) : (s.tackShow st e).rf .tak 0 Off.takStat 4 3 = st := by
  unfold State.tackShow
  rw [rf_of_rd (rd_wr_kind _ _ _ _ _ _ (by decide)), rf_of_rd (rd_wr_offset _ _ _ _ _ _ _ (by decide)), rf_wr_same,
    fld_word _ _ _ (by decide)]
  split <;> omega

theorem rd_m3Exit_tak (i o : Nat) : s.m3Exit.rd .tak i o = s.rd .tak i o := rd_m3Exit s i o (by decide)
theorem rd_m3Exit_far (i o : Nat) : s.m3Exit.rd .far i o = s.rd .far i o := rd_m3Exit s i o (by decide)
theorem rf_m3Exit_tak (i o lo n : Nat) : s.m3Exit.rf .tak i o lo n = s.rf .tak i o lo n := rf_of_rd (rd_m3Exit_tak s i o) lo n

end

theorem tackTake_tackLoaded (s : State) (k : Nat) : (s.tackTake k).mode.tackLoaded = true := rfl
theorem tackTake_slot (s : State) (k : Nat) : (s.tackTake k).far.slot = some k := rfl

theorem tackRoomLoadDone_valid {s : State} {faults : BitVec 2} (hd : s.mode.dev = .m3) (ht : s.mode.tackLoaded = false) (k : Nat)
    (hk : s.tackChoice faults.toNat = some k) :
    ∃ t, exec (.tackRoomLoadDone faults) s = .next t ∧ t.mode.tackLoaded = true ∧ t.rf .tak 0 Off.takStat 4 3 = 1 ∧
      t.rd .tak 0 Off.takEpochA = word (s.tackEpoch k) ∧ t.rd .far 0 Off.farEpoch = word (s.tackEpoch k) ∧ t.far.slot = some k := by
  refine ⟨_, exec_tackRoomLoadDone_some hd ht hk, ?_, ?_, ?_, ?_, ?_⟩
  · rw [m3Exit_tackLoaded, tackShow_mode, tackTake_tackLoaded]
  · rw [rf_m3Exit_tak, rf_tackShow_stat _ _ _ (by decide)]
  · rw [rd_m3Exit_tak, rd_tackShow_epochA]
  · rw [rd_m3Exit_far, rd_tackShow_farEpoch]
  · rw [m3Exit_far, tackShow_far, tackTake_slot]

/-- The load of no valid image shows epoch 0, and the status of what it found. -/
theorem tackRoomLoadDone_shows {s : State} {faults : BitVec 2} (hd : s.mode.dev = .m3) (ht : s.mode.tackLoaded = false)
    (hk : s.tackChoice faults.toNat = none) :
    ∃ t, exec (.tackRoomLoadDone faults) s = .next t ∧ t.mode.tackLoaded = true ∧ t.rd .tak 0 Off.takEpochA = 0 ∧
      t.rd .far 0 Off.farEpoch = 0 ∧ t.rf .tak 0 Off.takStat 4 3 = if (s.tackBad faults.toNat).isSome then 3 else 0 := by
  refine ⟨_, exec_tackRoomLoadDone_none hd ht hk, ?_⟩
  cases s.tackBad faults.toNat with
  | some k =>
    refine ⟨?_, ?_, ?_, ?_⟩
    · rw [m3Exit_tackLoaded, State.logOffer_mode, tackShow_mode]
      rfl
    · rw [rd_m3Exit_tak, rd_logOffer, rd_tackShow_epochA]
    · rw [rd_m3Exit_far, rd_logOffer, rd_tackShow_farEpoch]
    · rw [rf_m3Exit_tak, rf_logOffer, rf_tackShow_stat _ _ _ (by decide)]
      rfl
  | none =>
    refine ⟨?_, ?_, ?_, ?_⟩
    · rw [m3Exit_tackLoaded, tackShow_mode]
      rfl
    · rw [rd_m3Exit_tak, rd_tackShow_epochA]
    · rw [rd_m3Exit_far, rd_tackShow_farEpoch]
    · rw [rf_m3Exit_tak, rf_tackShow_stat _ _ _ (by decide)]
      rfl

theorem tackBad_of_there {s : State} (faults : Nat) (h : (s.tackThere 2 || s.tackThere 3) = true) : (s.tackBad faults).isSome = true := by
  rw [State.tackBad, List.find?_isSome]
  rcases Bool.or_eq_true_iff.1 h with h2 | h3
  · exact ⟨2, by simp, by simp [h2]⟩
  · exact ⟨3, by simp, by simp [h3]⟩

theorem tackBad_of_absent {s : State} (faults : Nat) (h2 : s.slotLen 2 = 0) (h3 : s.slotLen 3 = 0) : s.tackBad faults = none := by
  rw [State.tackBad, List.find?_eq_none]
  simp [State.tackThere, h2, h3]

theorem tackRoomLoadDone_takes (faults : BitVec 2) {s : State} (hd : s.mode.dev = .m3) (ht : s.mode.tackLoaded = false) :
    (∀ k : Nat, s.tackChoice faults.toNat = some k →
      ∃ t, exec (.tackRoomLoadDone faults) s = .next t ∧ t.mode.tackLoaded = true ∧ t.rf .tak 0 Off.takStat 4 3 = 1 ∧
        t.rd .tak 0 Off.takEpochA = word (s.tackEpoch k) ∧ t.rd .far 0 Off.farEpoch = word (s.tackEpoch k) ∧ t.far.slot = some k) ∧
    (s.tackChoice faults.toNat = none →
      ∃ t, exec (.tackRoomLoadDone faults) s = .next t ∧ t.mode.tackLoaded = true ∧ t.rd .tak 0 Off.takEpochA = 0 ∧
        t.rd .far 0 Off.farEpoch = 0 ∧
        ((s.tackThere 2 || s.tackThere 3) = true → t.rf .tak 0 Off.takStat 4 3 = 3) ∧
        (s.slotLen 2 = 0 → s.slotLen 3 = 0 → t.rf .tak 0 Off.takStat 4 3 = 0)) := by
  refine ⟨tackRoomLoadDone_valid hd ht, fun hk => ?_⟩
  obtain ⟨t, he, hl, ha, hf, hs⟩ := tackRoomLoadDone_shows hd ht hk
  refine ⟨t, he, hl, ha, hf, fun h => ?_, fun h2 h3 => ?_⟩
  · rw [hs, if_pos (tackBad_of_there _ h)]
  · rw [hs, tackBad_of_absent _ h2 h3]
    rfl

/-! ### Links -/

/-- HLK_LSTAT of a port whose link is up (R568). -/
def linkWord (gen : Fin 8) (width : Fin 16) (slow : Bool) : Word := word (pack [(0, 3, gen), (4, 4, width), (8, 1, 1), (10, 1, bit slow)])

theorem linkWord_fields (gen : Fin 8) (width : Fin 16) (slow : Bool) : tbit (linkWord gen width slow) 8 = true ∧
    fld (linkWord gen width slow) 0 3 = gen ∧ fld (linkWord gen width slow) 4 4 = width := by
  have hg := gen.isLt
  have hw := width.isLt
  rw [tbit_eq_fld]
  simp only [linkWord, fld_word _ 8 1 (by decide), fld_word _ 0 3 (by decide), fld_word _ 4 4 (by decide), pack, decide_eq_true_eq]
  omega

theorem exec_linkUp {k : Fin 2} {s : State} (gen : Fin 8) (width : Fin 16) (hi : natBit s.rst.isl (10 + k) = true)
    (hl : s.linkUp k = false) (hp : s.pins.perstN = false) (hd : 3 ≤ s.mode.dev.num) :
    ∃ slow, exec (.linkUp k gen width) s = .next (s.setLink k (linkWord gen width slow)).m3Exit := by
  refine ⟨decide (gen.val < 5) || decide (width.val < if s.split then 4 else 8), ?_⟩
  exact if_neg (by simp [hi, hl, hp]; omega)

section
variable (s : State) (k : Nat) (v : Word)

@[simp] theorem setLink_mode : (s.setLink k v).mode = s.mode := by
  unfold State.setLink
  dsimp only
  split <;> simp

/-- What an event of the host link leaves as it is, the store of a link leaves too. -/
theorem rd_setLink {k' : PageKind} {i o : Nat} (hp : ¬postReg k' o)
    (he : k' ≠ .hlk ∨ i % PageKind.hlk.count ≠ 0 ∨ o % 0x1000 ≠ Off.pgEvt) :
    (s.setLink k v).rd k' i o = (s.wr .hlk 0 (Off.hlkLstat k) v).rd k' i o := by
  unfold State.setLink
  dsimp only
  split
  · exact (rd_event _ _ _ _ _ _ _ hp he).trans rfl
  · rfl

theorem rd_setLink_lstat (h : k < 2) : (s.setLink k v).rd .hlk 0 (Off.hlkLstat k) = v := by
  have hk : k = 0 ∨ k = 1 := by omega
  rw [rd_setLink, rd_wr_same]
  · rcases hk with rfl | rfl <;> exact fun hp => absurd hp.2 (by decide)
  · rcases hk with rfl | rfl <;> exact .inr (.inr (by decide))

theorem epochValid_setLink : (s.setLink k v).epochValid = s.epochValid :=
  rb_of_rd ((rd_setLink s k v (fun hp => absurd hp.1 (by decide)) (.inl (by decide))).trans
    (rd_wr_kind _ _ _ _ _ _ (by decide))) 1

end

/-- The last link that M3 waits for. -/
theorem m3Done_setLink {s : State} {v : Word} (hd : s.mode.dev = .m3) (hi : s.islandsUp = true) (ht : s.mode.trainDone = true)
    (hl : s.mode.tackLoaded = true) (he : s.epochValid = true) (hs : s.split = false) (hf : s.rst.m3Fail = false)
    (hv : tbit v 8 = true) : (s.setLink 0 v).M3Done := by
  have hr := setLink_rst s 0 v
  refine ⟨?_, ?_, ?_, ?_, ?_, ?_, ?_, .inl ?_⟩
  · rw [setLink_mode, hd]
  · rw [hr]; exact hf
  · rw [State.islandsUp, hr]; exact hi
  · rw [setLink_mode, ht]
  · rw [setLink_mode, hl]
  · rw [epochValid_setLink, he]
  · rw [linkUp_setLink _ _ _ _ (by decide), if_pos rfl, hv]
  · rw [State.split, hr]; exact hs

theorem linkUp_takes (k : Fin 2) (gen : Fin 8) (width : Fin 16) {s : State} (hi : natBit s.rst.isl (10 + k) = true)
    (hl : s.linkUp k = false) (hp : s.pins.perstN = false) (hd : 3 ≤ s.mode.dev.num) :
    ∃ t, exec (.linkUp k gen width) s = .next t ∧ t.linkUp k = true ∧ t.rf .hlk 0 (Off.hlkLstat k) 0 3 = gen ∧
      t.rf .hlk 0 (Off.hlkLstat k) 4 4 = width ∧
      (k.val = 0 → s.mode.dev = .m3 → s.islandsUp = true → s.mode.trainDone = true → s.mode.tackLoaded = true →
        s.epochValid = true → s.split = false → s.rst.m3Fail = false → t.mode.dev = .m4) := by
  obtain ⟨slow, he⟩ := exec_linkUp gen width hi hl hp hd
  obtain ⟨hup, hgen, hwidth⟩ := linkWord_fields gen width slow
  have hw : (s.setLink k (linkWord gen width slow)).m3Exit.rd .hlk 0 (Off.hlkLstat k) = linkWord gen width slow :=
    (rd_m3Exit _ _ _ (by decide)).trans (rd_setLink_lstat _ _ _ k.isLt)
  refine ⟨_, he, ?_, ?_, ?_, fun hk hd3 hisl ht hload hep hs hf => ?_⟩
  · rw [State.linkUp, m3Exit_rst]
    exact (linkUp_setLink s k k _ k.isLt).trans ((if_pos rfl).trans hup)
  · rw [State.rf, hw, hgen]
  · rw [State.rf, hw, hwidth]
  · rw [hk]
    exact m3Exit_dev (m3Done_setLink hd3 hisl ht hload hep hs hf hup)

theorem linkTrainingTimeout_takes {s : State} (hd : s.mode.dev = .m3) (hp : s.pins.perstN = false) :
    (s.linkUp 0 = false → ∃ t, exec (.linkTrainingTimeout 0) s = .next t ∧ t.rst.m3Fail = true ∧ t.mode = s.mode) ∧
    (s.split = true → s.linkUp 1 = false → ∃ t, exec (.linkTrainingTimeout 1) s = .next t ∧ t.rst.bExpired = true) := by
  constructor
  · intro hl
    have e : exec (.linkTrainingTimeout 0) s = .next s.m3Failed := if_neg (by simp [hd, hp, hl])
    exact ⟨_, e, by rw [m3Failed_of_m3 hd], m3Failed_mode s⟩
  · intro hs hl
    have e : exec (.linkTrainingTimeout 1) s = .next { s with rst := { s.rst with bExpired := true } }.m3Exit :=
      (if_neg (by simp [hd, hp, hl])).trans (if_pos hs)
    exact ⟨_, e, by rw [m3Exit_rst]⟩

/-- Settles O48: each event on the way from M2 to M4 by its own lemma above; the boot by the checks of R585 in their order. -/
theorem bootLeadsToPark : Obligations.BootLeadsToPark := by
  unfold Obligations.BootLeadsToPark
  refine ⟨fun _ => optionLoadDone_takes, fun o s => ?_, fun _ => autoEpochArm_takes, fun _ => trainingDone_m3,
    fun p ok _ => trainingDone_asked p ok, fun faults _ => tackRoomLoadDone_takes faults,
    fun k gen width _ => linkUp_takes k gen width, fun _ => linkTrainingTimeout_takes⟩
  intro x a b fails runs hd hb
  have he : exec (.bootDone o) s = .next (x.bootOver.boot o.fault o.listed) := exec_bootDone hd hb
  have stuck : ∀ {y : State} {code image : Nat}, y.mode = s.mode → y.rst = x.bootOver.rst →
      x.bootOver.boot o.fault o.listed = y.bootFail code image → fails code image := fun hm hr e =>
    ⟨_, he.trans (congrArg Host.Outcome.next e), bootStuck_bootFail (by rw [hm, hd]) (by rw [hr]; rfl) _ _⟩
  have ran : ∀ {t : State} {patch : Bool}, t.bootRuns x a b o.listed patch → x.bootOver.boot o.fault o.listed = t → runs patch :=
    fun ht e => ⟨_, he.trans (congrArg Host.Outcome.next e), ht⟩
  refine ⟨fun h => ?_, fun h0 hdir => ?_, fun h0 hdir hlen => ?_, fun h1 hdir hlen => ?_,
    fun h0 h1 hdir hlen => ⟨fun hbad => ?_, fun hok => ?_⟩⟩
  · exact stuck (y := x.bootOver) rfl rfl (by simp [State.boot, h])
  · exact stuck (y := x.bootOver) rfl rfl (by simp [State.boot, h0, hdir])
  · exact stuck (y := x.bootOver) rfl rfl (by simp [State.boot, h0, hdir, hlen])
  · exact stuck (y := x.bootOver) rfl rfl (by simp [State.boot, h1, hdir, hlen])
  · exact stuck (y := x.bootOver) rfl rfl (by simp [State.boot, h0, h1, hdir, hlen, hbad, a])
  · have hstart := boot_starts o.listed h0 h1 hdir hlen hok
    have ha := imageSvn_le hok
    have later : ∀ {code : Nat}, (x.bootOver.bootStart a).bootPatch o.fault o.listed = (x.bootOver.bootStart a).bootFail code 2 →
        fails code 2 := fun e => stuck (bootStart_mode x.bootOver a) (bootStart_rst x.bootOver a) (hstart.trans e)
    refine ⟨fun h => ?_, fun h hf => ?_, fun h hf hbad => ?_, fun h hf hb0 ht => ?_, fun h hf hb0 ht => ?_⟩
    · exact ran (bootRuns_bootEnd b o.listed ha) (hstart.trans (by simp [State.bootPatch, h, a]))
    · exact later (by simp [State.bootPatch, h, hf])
    · exact later (by simp [State.bootPatch, h, hf, hbad, b])
    · exact later (by simp [State.bootPatch, h, hf, hb0, ht, b])
    · exact ran (bootRuns_patch o.listed ha (imageSvn_le hb0)) (hstart.trans (by simp [State.bootPatch, h, hf, hb0, ht, a, b]))

end Sys2Proof.Machine

/-!
PROOF. The head of a page: PG_CTRL and PG_OWNER, which only their own writes and the resets of pages move (R60, R68). What the
blocks of sequencers, farrier, acquisition engines, converters, PMUs, switches and comparators do when they stop leaves them.
-/

namespace Sys2Proof.Machine

/-- PG_CTRL and PG_OWNER of every page. -/
def State.heads (s : State) : PageKind → Nat → Word × Word := fun k i => (s.rd k i Off.pgCtrl, s.rd k i Off.pgOwner)

/-- The offset is neither that of PG_CTRL nor that of PG_OWNER. -/
def offHeads (o : Nat) : Bool := o % 0x1000 != Off.pgCtrl && o % 0x1000 != Off.pgOwner

/-! ### Reading the heads -/

theorem rd_pgCtrl_of_heads {s t : State} (h : t.heads = s.heads) (k : PageKind) (i : Nat) :
    t.rd k i Off.pgCtrl = s.rd k i Off.pgCtrl := congrArg Prod.fst (congrFun (congrFun h k) i)

theorem rd_pgOwner_of_heads {s t : State} (h : t.heads = s.heads) (k : PageKind) (i : Nat) :
    t.rd k i Off.pgOwner = s.rd k i Off.pgOwner := congrArg Prod.snd (congrFun (congrFun h k) i)

theorem pageEn_of_heads {s t : State} (h : t.heads = s.heads) (k : PageKind) (i : Nat) : t.pageEn k i = s.pageEn k i :=
  rb_of_rd (rd_pgCtrl_of_heads h k i) 0

theorem rf_pgOwner_of_heads {s t : State} (h : t.heads = s.heads) (k : PageKind) (i : Nat) :
    t.rf k i Off.pgOwner 0 4 = s.rf k i Off.pgOwner 0 4 := rf_of_rd (rd_pgOwner_of_heads h k i) 0 4

/-- The heads are read from the registers alone. -/
theorem heads_of_regs {s t : State} (h : t.regs = s.regs) : t.heads = s.heads := by
  unfold State.heads
  simp only [rd_of_regs h]

/-- A register at another BAR0 offset reads as before. -/
theorem rd_wr_ne (s : State) {k k' : PageKind} {i i' o o' : Nat} (v : Word) (h : k'.addr i' o' ≠ k.addr i o) :
    (s.wr k i o v).rd k' i' o' = s.rd k' i' o' := reg_setReg_ne s v h

/-- A register at another offset of any page reads as before. -/
theorem rd_wr_off (s : State) (k k' : PageKind) {i i' o o' : Nat} (v : Word) (h : o' % 0x1000 ≠ o % 0x1000) :
    (s.wr k i o v).rd k' i' o' = s.rd k' i' o' := by
  by_cases hk : k' = k
  · subst hk
    exact rd_wr_offset s k' i o i' o' v h
  · exact rd_wr_kind s i o i' o' v hk

/-! ### Branches, folds and fields -/

variable (s : State)

/-- Within `State.heads` only the outermost operation is rewritten: what it stores is of no account. -/
@[congr] theorem heads_congr : s.heads = s.heads := rfl

@[simp] theorem heads_ite (c : Prop) [Decidable c] (a b : State) :
    (if c then a else b).heads = if c then a.heads else b.heads := apply_ite State.heads c a b

/-- A fold of steps that keep the heads keeps them. -/
theorem heads_foldl {α : Type} (f : State → α → State) (l : List α) (h : ∀ x a, (f x a).heads = x.heads) :
    (l.foldl f s).heads = s.heads :=
  foldl_keeps (fun x => x.heads = s.heads) (fun x a hx => (h x a).trans hx) l rfl

/-- A fold of steps that keep the heads for the members of its list keeps them. -/
theorem heads_foldl_mem {α : Type} (f : State → α → State) (l : List α) (h : ∀ x, ∀ a ∈ l, (f x a).heads = x.heads) :
    (l.foldl f s).heads = s.heads := by
  induction l generalizing s with
  | nil => rfl
  | cons a t ih =>
    rw [List.foldl_cons, ih _ fun x b hb => h x b (List.mem_cons_of_mem _ hb), h s a List.mem_cons_self]

@[simp] theorem heads_useFree : s.useFree.heads = s.heads := (rfl)
@[simp] theorem heads_setStall (i : Nat) (v : StallSt) : (s.setStall i v).heads = s.heads := (rfl)
@[simp] theorem heads_setRing (i : Nat) (v : RingSt) : (s.setRing i v).heads = s.heads := (rfl)
@[simp] theorem heads_setSeq (i : Nat) (v : SeqSt) : (s.setSeq i v).heads = s.heads := (rfl)
@[simp] theorem heads_setChan (i : Nat) (v : ChanSt) : (s.setChan i v).heads = s.heads := (rfl)
@[simp] theorem heads_setTim (i c : Nat) (v : TimUnit) : (s.setTim i c v).heads = s.heads := (rfl)
@[simp] theorem heads_setPmu (i u : Nat) (v : PmuSt) : (s.setPmu i u v).heads = s.heads := (rfl)
@[simp] theorem heads_setCnv (i u : Nat) (v : CnvUnit) : (s.setCnv i u v).heads = s.heads := (rfl)
@[simp] theorem heads_setAcq (i : Nat) (v : AcqSt) : (s.setAcq i v).heads = s.heads := (rfl)
@[simp] theorem heads_setFar (v : FarSt) : (s.setFar v).heads = s.heads := (rfl)
@[simp] theorem heads_setTrips (i t : Nat) : (s.setTrips i t).heads = s.heads := (rfl)
@[simp] theorem heads_setTrans (t : Option (DevMode × Bool)) : (s.setTrans t).heads = s.heads := (rfl)
@[simp] theorem heads_forgetPage (k : PageKind) (i : Nat) : (s.forgetPage k i).heads = s.heads := (rfl)
@[simp] theorem heads_with_lan (v : Lantern) : { s with lan := v }.heads = s.heads := (rfl)
@[simp] theorem heads_with_catBuf (v : List CapRec) : { s with catBuf := v }.heads = s.heads := (rfl)

/-! ### Registers other than the heads -/

@[simp] theorem heads_wr (k : PageKind) (i o : Nat) (v : Word) (h : offHeads o = true) : (s.wr k i o v).heads = s.heads := by
  unfold offHeads at h
  simp only [Bool.and_eq_true, bne_iff_ne] at h
  obtain ⟨hc, ho⟩ := h
  funext k' i'
  unfold State.heads
  rw [rd_wr_off s k k' v (Ne.symm hc), rd_wr_off s k k' v (Ne.symm ho)]

@[simp] theorem heads_wf (k : PageKind) (i o lo n v : Nat) (h : offHeads o = true) : (s.wf k i o lo n v).heads = s.heads :=
  heads_wr s k i o _ h
@[simp] theorem heads_wb (k : PageKind) (i o b : Nat) (v : Bool) (h : offHeads o = true) : (s.wb k i o b v).heads = s.heads :=
  heads_wr s k i o _ h
@[simp] theorem heads_sat (k : PageKind) (i o lo n v : Nat) (h : offHeads o = true) : (s.sat k i o lo n v).heads = s.heads :=
  heads_wr s k i o _ h
@[simp] theorem heads_startResult (k : PageKind) (i o : Nat) (h : offHeads o = true) : (s.startResult k i o).heads = s.heads :=
  heads_wr s k i o _ h
@[simp] theorem heads_storeResult (k : PageKind) (i o v : Nat) (h : offHeads o = true) : (s.storeResult k i o v).heads = s.heads :=
  heads_wr s k i o _ h
@[simp] theorem heads_wr2 (k : PageKind) (i lo hi v : Nat) (h1 : offHeads lo = true) (h2 : offHeads hi = true) :
    (s.wr2 k i lo hi v).heads = s.heads := (heads_wr _ k i hi _ h2).trans (heads_wr s k i lo _ h1)

/-! ### Rings, entries and events -/

theorem heads_of_posted {s t : State} (h : State.Posted s t) : t.heads = s.heads := by
  funext k i
  unfold State.heads
  rw [h.rd k i _ (Or.inr (by decide)), h.rd k i _ (Or.inr (by decide))]

@[simp] theorem heads_event (k : PageKind) (i n : Nat) : (s.event k i n).heads = s.heads := by
  unfold State.event
  split
  · rfl
  · dsimp only
    split
    · exact (heads_of_posted (posted_eventPost _ _ .page _ _ rfl)).trans (heads_wb s k i Off.pgEvt n true rfl)
    · exact heads_wb s k i Off.pgEvt n true rfl

@[simp] theorem heads_err (k : PageKind) (i c o : Nat) : (s.err k i c o).heads = s.heads := by
  unfold State.err
  simp (disch := decide)

@[simp] theorem heads_countLoss (p : Producer) : (s.countLoss p).heads = s.heads := by
  cases p with
  | groom g o =>
    refine heads_sat s .grm 0 _ 0 16 1 ?_
    have : ownerIx o ≤ 8 := by unfold ownerIx; split <;> omega
    simp only [offHeads, Off.grmLost, Off.pgCtrl, Off.pgOwner, Bool.and_eq_true, bne_iff_ne]
    omega
  | _ => simp (disch := decide) [State.countLoss]

@[simp] theorem heads_ringLose (n : Nat) : (s.ringLose n).heads = s.heads := heads_of_posted (posted_ringLose s n)
@[simp] theorem heads_ringFlags (n : Nat) : (s.ringFlags n).heads = s.heads := heads_of_posted (posted_ringFlags s n)
@[simp] theorem heads_ringDrop (n : Nat) : (s.ringDrop n).heads = s.heads := heads_of_posted (posted_ringDrop s n)
@[simp] theorem heads_ringWord (n o : Nat) (v : Word) : (s.setReg (ringAddr n o) v).heads = s.heads :=
  heads_of_posted (posted_ringWord s n o v)
@[simp] theorem heads_ringCount (n k : Nat) : (s.ringCount n k).heads = s.heads := heads_of_posted (posted_ringCount s n k)
@[simp] theorem heads_ringDropSignal (n : Nat) : (s.ringDropSignal n).heads = s.heads := heads_of_posted (posted_ringDropSignal s n)
@[simp] theorem heads_ringStore (n : Nat) (p : Producer) (ty body : Nat) (gap : Bool) :
    (s.ringStore n p ty body gap).heads = s.heads := heads_of_posted (posted_ringStore s n p ty body gap)

/-- An offer, however it ends and whatever loss its producer counts. -/
@[simp] theorem heads_offer (n : Nat) (p : Producer) (wait : Bool) (ty body : Nat) :
    (s.offer n p wait ty body).1.heads = s.heads := by
  unfold State.offer
  split
  · simp
  · split
    · split
      · split <;> simp
      · simp
      · simp
    · simp

@[simp] theorem heads_post (n : Nat) (p : Producer) (wait : Bool) (ty body : Nat) : (s.post n p wait ty body).heads = s.heads :=
  heads_offer s n p wait ty body

end Sys2Proof.Machine

/-!
PROOF. The heads of the pages under the operations by which the blocks stop.
-/

namespace Sys2Proof.Machine

variable (s : State)

/-! ### Farrier and TIM units -/

@[simp] theorem heads_wearCycle (st n : Nat) (hot : Bool) : (s.wearCycle st n hot).heads = s.heads := by
  unfold State.wearCycle
  simp only [heads_ite, heads_event, heads_with_lan, ite_self]

@[simp] theorem heads_pullUpdate (st : Nat) : (s.pullUpdate st).heads = s.heads := by
  unfold State.pullUpdate
  simp (disch := decide)

@[simp] theorem heads_busOpen (st m : Nat) : (s.busOpen st m).heads = s.heads := by
  unfold State.busOpen
  simp (disch := decide) [heads_foldl _ _ _ fun x c => heads_wearCycle x st (3 * c + 2) false]

@[simp] theorem heads_busOpening (st m : Nat) : (s.busOpening st m).heads = s.heads := heads_setStall s st _

@[simp] theorem heads_timEnd (st c e : Nat) : (s.timEnd st c e).heads = s.heads := by
  unfold State.timEnd State.setTimState
  simp (disch := decide)

@[simp] theorem heads_vernierStop (st : Nat) : (s.vernierStop st).heads = s.heads := by
  unfold State.vernierStop
  simp (disch := decide)

@[simp] theorem heads_timPreempt (st m : Nat) : (s.timPreempt st m).heads = s.heads := by
  unfold State.timPreempt
  simp [heads_foldl _ _ _ fun x c => heads_timEnd x st c endPreempt]

@[simp] theorem heads_farTimEnd (st : Nat) : (s.farTimEnd st).heads = s.heads :=
  heads_foldl _ _ _ fun x c => by simp

/-- A register of a unit block is none of the header. -/
theorem offHeads_unit {b u : Nat} (hb : 0x100 ≤ b) (hb' : b < 0x140) (hu : u < 4) : offHeads (b + u * 0x40) = true := by
  simp only [offHeads, Off.pgCtrl, Off.pgOwner, Bool.and_eq_true, bne_iff_ne]
  omega

theorem leader_lt {st u : Nat} (hu : u < 4) : s.leader st u < 4 := by
  unfold State.leader
  split <;> omega

theorem gangUnits_lt {st u w : Nat} (hu : u < 4) (hw : w ∈ s.gangUnits st u) : w < 4 := by
  unfold State.gangUnits at hw
  split at hw <;> simp at hw <;> omega

theorem heads_pmuRelease (st : Nat) {u : Nat} (hu : u < 4) : (s.pmuRelease st u).heads = s.heads := by
  unfold State.pmuRelease
  dsimp only
  split
  · refine heads_foldl_mem s _ _ fun x w hw => ?_
    have hs := offHeads_unit (b := 0x104) (by decide) (by decide) (gangUnits_lt s (leader_lt s hu) hw)
    split
    · exact heads_wf x .pmu st _ 0 3 2 hs
    · rfl
  · rfl

@[simp] theorem heads_seqUndefer (q : Nat) : (s.seqUndefer q).heads = s.heads := by simp [State.seqUndefer]

@[simp] theorem heads_stepRelease (x : FarStep) (w : Bool) : (s.stepRelease x w).heads = s.heads := by
  unfold State.stepRelease
  rw [heads_foldl _ _ _ fun y q => heads_seqUndefer y q]
  simp [heads_pmuRelease _ x.stall (Nat.mod_lt x.inst (show 0 < 4 by decide))]

@[simp] theorem heads_setFarState (v : Nat) : (s.setFarState v).heads = s.heads := by
  unfold State.setFarState
  simp (disch := decide)

@[simp] theorem heads_farStore (c : Nat) : (s.farStore c).heads = s.heads := by
  unfold State.farStore
  dsimp only
  split <;> simp (disch := decide)

@[simp] theorem heads_farSettle : s.farSettle.heads = s.heads := by
  unfold State.farSettle
  split <;> simp

@[simp] theorem heads_farEnd (c : Nat) : (s.farEnd c).heads = s.heads := by simp [State.farEnd]

@[simp] theorem heads_farAbort (p : FarStep → Bool) : (s.farAbort p).heads = s.heads := by
  unfold State.farAbort
  rw [heads_farSettle, heads_foldl _ _ _ fun x e => ?_]
  simp (disch := decide)

@[simp] theorem heads_farAbortChans (st m : Nat) : (s.farAbortChans st m).heads = s.heads := heads_farAbort s _

@[simp] theorem heads_farStop : s.farStop.heads = s.heads := by
  unfold State.farStop
  simp (disch := decide)

/-! ### Switches and parking -/

@[simp] theorem heads_batchEnd (st c : Nat) : (s.batchEnd st c).heads = s.heads := by
  unfold State.batchEnd
  simp (disch := decide)

@[simp] theorem heads_batchClose (st : Nat) (b : Batch) (h : Nat) : (s.batchClose st b h).heads = s.heads := by
  unfold State.batchClose
  simp (disch := decide)

/-- Cycles counted for the switches of a list. -/
theorem heads_wearCycles (st : Nat) (n : Nat → Nat) (hot : Nat → Bool) (l : List Nat) :
    (l.foldl (fun x c => x.wearCycle st (n c) (hot c)) s).heads = s.heads :=
  heads_foldl _ _ _ fun x c => heads_wearCycle x st (n c) (hot c)

@[simp] theorem heads_batchOpen (st : Nat) (b : Batch) (h : Nat) : (s.batchOpen st b h).heads = s.heads := by
  unfold State.batchOpen
  simp (disch := decide) [heads_wearCycles]

@[simp] theorem heads_batchMove (st : Nat) (b : Batch) (ho hc : Nat) (c : Bool) : (s.batchMove st b ho hc c).heads = s.heads := by
  simp [State.batchMove]

@[simp] theorem heads_batchPreempt (st m : Nat) : (s.batchPreempt st m).heads = s.heads := by
  unfold State.batchPreempt
  split
  · rfl
  · simp [heads_wearCycles]

@[simp] theorem heads_openSwitches (st m : Nat) : (s.openSwitches st m).heads = s.heads := by
  unfold State.openSwitches
  simp

/-- Pending edges of a list of channels are cancelled. -/
theorem heads_setChans {α : Type} (ch : α → Nat) (v : State → α → ChanSt) (l : List α) :
    (l.foldl (fun x c => x.setChan (ch c) (v x c)) s).heads = s.heads := heads_foldl _ _ _ fun x c => heads_setChan x (ch c) (v x c)

@[simp] theorem heads_park (st m : Nat) : (s.park st m).heads = s.heads := by
  unfold State.park
  simp (disch := decide) [heads_setChans]

/-! ### Acquisition engines -/

@[simp] theorem heads_portPanic (b : Nat) : (s.portPanic b).heads = s.heads := by
  unfold State.portPanic
  simp (disch := decide)

@[simp] theorem heads_portCalm (b : Nat) : (s.portCalm b).heads = s.heads := by
  unfold State.portCalm
  simp (disch := decide)

@[simp] theorem heads_setAcqState (b v : Nat) : (s.setAcqState b v).heads = s.heads := by
  unfold State.setAcqState
  simp (disch := decide)

@[simp] theorem heads_acqIdle (b : Nat) : (s.acqIdle b).heads = s.heads := by
  unfold State.acqIdle State.acqDrained
  simp (disch := decide)

@[simp] theorem heads_acqStore (b : Nat) (r : AcqRec) : (s.acqStore b r).heads = s.heads := by
  unfold State.acqStore
  simp (disch := decide)

@[simp] theorem heads_acqRelease (b n : Nat) : (s.acqRelease b n).heads = s.heads := by
  unfold State.acqRelease
  split <;> simp

@[simp] theorem heads_acqPort (b : Nat) : (s.acqPort b).heads = s.heads := by simp [State.acqPort]

theorem heads_acqOffer {b n : Nat} {force : Bool} {t : State} (h : s.acqOffer b n force = some t) : t.heads = s.heads := by
  unfold State.acqOffer at h
  dsimp only at h
  repeat' split at h
  all_goals cases h
  all_goals simp

@[simp] theorem heads_acqPumpN (b n : Nat) (force : Bool) (fuel : Nat) : (s.acqPumpN b n force fuel).heads = s.heads := by
  induction fuel generalizing s with
  | zero => rfl
  | succ f ih =>
    rw [State.acqPumpN]
    split
    · rename_i x hx
      rw [ih, heads_acqOffer s hx]
    · rfl

@[simp] theorem heads_acqPump (b : Nat) (force : Bool) : (s.acqPump b force).heads = s.heads := by
  unfold State.acqPump
  dsimp only
  repeat' split
  all_goals simp

@[simp] theorem heads_acqClose (b n c : Nat) (trunc : Bool) : (s.acqClose b n c trunc).heads = s.heads := by
  unfold State.acqClose
  dsimp only
  split <;> simp

@[simp] theorem heads_acqPostCheck (b : Nat) : (s.acqPostCheck b).heads = s.heads := by
  unfold State.acqPostCheck
  dsimp only
  split <;> simp

@[simp] theorem heads_acqOverflow (b n : Nat) : (s.acqOverflow b n).heads = s.heads := by
  unfold State.acqOverflow
  split <;> simp

@[simp] theorem heads_acqEvent (b t : Nat) : (s.acqEvent b t).heads = s.heads := by
  unfold State.acqEvent
  simp (disch := decide)

@[simp] theorem heads_acqReach (b : Nat) : (s.acqReach b).heads = s.heads := by
  unfold State.acqReach
  simp [heads_foldl _ _ _ fun x t => heads_acqEvent x b t]

@[simp] theorem heads_acqEnd (st u : Nat) : (s.acqEnd st u).heads = s.heads := by simp [State.acqEnd]
@[simp] theorem heads_acqPreempt (b : Nat) : (s.acqPreempt b).heads = s.heads := by simp [State.acqPreempt]

/-! ### Converters and PMUs -/

@[simp] theorem heads_setCnvState (st u v : Nat) : (s.setCnvState st u v).heads = s.heads := by
  unfold State.setCnvState
  simp (disch := decide)

@[simp] theorem heads_cnvCut (st u c : Nat) : (s.cnvCut st u c).heads = s.heads := by simp [State.cnvCut]
@[simp] theorem heads_cnvDisturb (st u : Nat) : (s.cnvDisturb st u).heads = s.heads := by simp [State.cnvDisturb]

theorem heads_cnvTrigger (st t : Nat) {u : Nat} (hu : u < 4) : (s.cnvTrigger st u t).heads = s.heads := by
  have hr : offHeads (Off.cnvRes u 0) = true := offHeads_unit (b := 0x110) (by decide) (by decide) hu
  have hd : offHeads (Off.cnvDropped u) = true := offHeads_unit (b := 0x108) (by decide) (by decide) hu
  unfold State.cnvTrigger
  simp [hr, hd]

theorem heads_cnvPreempt (st : Nat) {u : Nat} (hu : u < 4) : (s.cnvPreempt st u).heads = s.heads := by
  have hr : (s.cnvReach st u).heads = s.heads := by
    unfold State.cnvReach
    simp [heads_foldl _ _ _ fun x t => heads_cnvTrigger x st t hu]
  simp [State.cnvPreempt, hr]

@[simp] theorem heads_refOff (b : Nat) : (s.refOff b).heads = s.heads := by
  unfold State.refOff State.cnvAll
  rw [heads_foldl _ _ _ fun _ _ => ?_]
  · simp (disch := decide)
  · simp

theorem heads_applyWave (st : Nat) (p : PmuSt) {u : Nat} (hu : u < 4) : (s.applyWave st u p).heads = s.heads := by
  have hf : offHeads (Off.pmuFlags u) = true := offHeads_unit (b := 0x124) (by decide) (by decide) hu
  unfold State.applyWave State.pmuFlag
  simp [hf]

theorem heads_pmuOutOff (st v : Nat) {u : Nat} (hu : u < 4) : (s.pmuOutOff st u v).heads = s.heads := by
  have hc : offHeads (Off.pmuCtrl u) = true := offHeads_unit (b := 0x100) (by decide) (by decide) hu
  have hs : offHeads (Off.pmuStat u) = true := offHeads_unit (b := 0x104) (by decide) (by decide) hu
  unfold State.pmuOutOff State.throttle State.setPmuState
  simp [hc, hs, heads_applyWave _ st _ hu]

theorem heads_waveOff (st : Nat) {u : Nat} (hu : u < 4) : (s.waveOff st u).heads = s.heads := heads_applyWave s st _ hu

/-! ### Sequencers -/

@[simp] theorem heads_setSeqState (q v : Nat) : (s.setSeqState q v).heads = s.heads := by
  unfold State.setSeqState
  simp (disch := decide)

@[simp] theorem heads_setMstate (q v : Nat) : (s.setMstate q v).heads = s.heads := by
  unfold State.setMstate
  simp (disch := decide)

@[simp] theorem heads_panicEnd (q : Nat) : (s.panicEnd q).heads = s.heads := by
  unfold State.panicEnd
  simp (disch := decide)

@[simp] theorem heads_keepGranules (q : Nat) (w : List Nat) : (s.keepGranules q w).heads = s.heads := heads_setSeq s q _

@[simp] theorem heads_evictIdle (q : Nat) : (s.evictIdle q).heads = s.heads := by
  unfold State.evictIdle
  split <;> simp

@[simp] theorem heads_starveCount (q : Nat) : (s.starveCount q).heads = s.heads := by
  unfold State.starveCount
  simp (disch := decide)

@[simp] theorem heads_endRun (q : Nat) (e : RunEnd) : (s.endRun q e).heads = s.heads := by simp [State.endRun]

@[simp] theorem heads_capture (q : Nat) (v : VecRec) (i : Nat) : (s.capture q v i).heads = s.heads := by
  unfold State.capture
  simp (disch := decide) only [heads_ite, heads_setSeq, heads_event, heads_sat, heads_wr, heads_with_catBuf, ite_self]

@[simp] theorem heads_retire (q : Nat) (v : VecRec) : (s.retire q v).heads = s.heads := by
  have hc : ∀ (l : List Nat) (y : State) (f : State → Nat → SeqSt),
      (l.foldl (fun y i => (y.setSeq q (f y i)).capture q v i) y).heads = y.heads := fun l y f =>
    heads_foldl _ _ _ fun x i => by simp
  unfold State.retire
  split <;> simp (disch := decide) [hc]

@[simp] theorem heads_retireAll (q : Nat) : (s.retireAll q).heads = s.heads := by
  simp [State.retireAll, heads_foldl _ _ _ fun x v => heads_retire x q v]

@[simp] theorem heads_postSites (q : Nat) (l : List Nat) : (s.postSites q l).heads = s.heads :=
  heads_foldl _ _ _ fun x _ => heads_post x _ _ _ _ _

@[simp] theorem heads_cancelEdges (q : Nat) : (s.cancelEdges q).heads = s.heads := heads_setChans s _ _ _
@[simp] theorem heads_cutWindows (q t : Nat) : (s.cutWindows q t).heads = s.heads := heads_setChans s _ _ _

/-- The sixteen words of the fail verdict. -/
theorem heads_siteFails (q : Nat) (v : Nat → Word) :
    ((upto 16).foldl (fun y w => y.wr .site q (Off.siteFail w) (v w)) s).heads = s.heads := by
  refine heads_foldl_mem s _ _ fun x w hw => heads_wr x .site q _ _ ?_
  have : w < 16 := List.mem_range.mp hw
  simp only [offHeads, Off.siteFail, Off.pgCtrl, Off.pgOwner, Bool.and_eq_true, bne_iff_ne]
  omega

@[simp] theorem heads_finishRun (q : Nat) (e : RunEnd) : (s.finishRun q e).heads = s.heads := by
  unfold State.finishRun
  simp (disch := decide) [heads_setChans, heads_siteFails, heads_foldl _ _ _ fun x b => heads_postSites x q b]

@[simp] theorem heads_seqPreempt (q : Nat) : (s.seqPreempt q).heads = s.heads := by simp [State.seqPreempt, State.cutRun]

@[simp] theorem heads_primePreempt (q : Nat) : (s.primePreempt q).heads = s.heads := by
  unfold State.primePreempt
  simp (disch := decide)

/-! ### Comparators, timing base and halter -/

@[simp] theorem heads_watchUnres (st m : Nat) : (s.watchUnres st m).heads = s.heads := by
  unfold State.watchUnres State.tripHold
  simp (disch := decide)

@[simp] theorem heads_tmbBit (b : Nat) (v : Bool) : (s.tmbBit b v).heads = s.heads :=
  heads_foldl _ _ _ fun x i => heads_wb x .tmb i Off.tmbStat b v rfl

@[simp] theorem heads_xferPreempt : s.xferPreempt.heads = s.heads := by
  unfold State.xferPreempt State.masterEnd
  split
  · simp (disch := decide) only [heads_event, heads_storeResult, heads_wb]
    rfl
  · rfl

/-! ### The stop of a block -/

/-- The block of a page that goes idle moves neither PG_CTRL nor PG_OWNER of any page. -/
@[simp] theorem heads_blockStop (k : PageKind) (i : Nat) : (s.blockStop k i).heads = s.heads := by
  cases k
  case pmu =>
    refine heads_foldl_mem s _ _ fun x u hu => ?_
    have hu : u < 4 := List.mem_range.mp hu
    rw [heads_waveOff _ i hu]
    split
    · exact heads_pmuOutOff x i pmuIdle hu
    · rfl
  case cnv => exact heads_foldl_mem s _ _ fun x u hu => heads_cnvPreempt x i (List.mem_range.mp hu)
  case tmb =>
    simp only [State.blockStop]
    split
    · rw [heads_tmbBit, heads_wb _ _ _ _ _ _ rfl]
      rfl
    · rfl
  case stl | lvl | drv | cmp | swm => exact heads_park s i allChans
  case tim => simp [State.blockStop]
  case seq => simp [State.blockStop]
  case wch => exact heads_watchUnres s i allWatch
  case acq => exact heads_acqPreempt s i
  case brn => exact heads_refOff s i
  case far => exact heads_farStop s
  case hal => exact heads_xferPreempt s
  all_goals rfl

end Sys2Proof.Machine

/-!
PROOF. Accesses to register pages (R60, R74 to R81): what a 32-bit write or read at a page's offset is, what an access to what the
requester does not reach is, and what a plain write stores. Result registers (R84): O55.
-/

namespace Sys2Proof.Machine

/-! ### Plain writes -/

theorem plainWrite_of_row {k : PageKind} {o : Nat} {row : RegRow} {ij : Nat × Nat} (h : regRow k o = some (row, ij)) (s : State)
    (i : Nat) (v : Word) : s.plainWrite k i o v = s.wr k i o (mergeWrite row (s.rd k i o) v) := by
  unfold State.plainWrite
  rw [h]

/-- A field at bit 0 of all whose bits the row is RW takes the written value. -/
theorem fld_mergeWrite {row : RegRow} {n : Nat} (hrw : row.rw = 2 ^ n - 1) (hw1c : row.w1c = 0) (hn : n ≤ 32) (old v : Word) :
    fld (mergeWrite row old v) 0 n = fld v 0 n := by
  apply Nat.eq_of_testBit_eq
  intro j
  unfold fld mergeWrite word
  simp only [hrw, hw1c, Nat.pow_zero, Nat.div_one, Nat.testBit_mod_two_pow, BitVec.testBit_toNat, BitVec.getLsbD_and,
    BitVec.getLsbD_or, BitVec.getLsbD_not, BitVec.getLsbD_ofNat, Nat.testBit_two_pow_sub_one, Nat.zero_testBit]
  by_cases hj : j < n
  · simp [hj, show j < 32 by omega]
  · simp [hj]

/-- A register all whose bits are RW holds the written value. -/
theorem mergeWrite_rw {row : RegRow} (hrw : row.rw = 2 ^ 32 - 1) (hw1c : row.w1c = 0) (old v : Word) : mergeWrite row old v = v := by
  apply BitVec.eq_of_toNat_eq
  have h := fld_mergeWrite hrw hw1c (le_refl 32) old v
  simpa only [fld, Nat.pow_zero, Nat.div_one, Nat.mod_eq_of_lt (BitVec.isLt _)] using h

/-- A register all whose bits are W1C loses the bits written 1. -/
theorem mergeWrite_w1c {row : RegRow} (hrw : row.rw = 0) (hw1c : row.w1c = 2 ^ 32 - 1) (old v : Word) :
    mergeWrite row old v = old &&& ~~~v := by
  have h0 : word 0 = 0#32 := rfl
  have h1 : word (2 ^ 32 - 1) = BitVec.allOnes 32 := rfl
  rw [mergeWrite, hrw, hw1c, h0, h1, BitVec.and_allOnes, BitVec.and_zero, BitVec.or_zero, BitVec.not_zero, BitVec.and_allOnes]

/-! ### Accesses at a page's offset -/

variable {s : State} {r : Requester} {k : PageKind} {i o : Nat} {v : Word}

theorem aligned_page (k : PageKind) (i : Nat) (h4 : o % 4 = 0) : aligned .w32 (k.base i + o) = true := by
  have := base_mod k i
  simp only [aligned, beq_iff_eq]
  omega

/-- A 32-bit write at the offset of a page's register is a write of the page. -/
theorem write_w32_page (s : State) (r : Requester) (hi : i < k.count) (ho : o < 0x1000) (h4 : o % 4 = 0) (v : Nat) :
    s.write r (k.base i + o) .w32 v = s.pageWrite r k i o (word v) := by
  unfold State.write
  rw [aligned_page k i h4, if_neg (by decide)]
  exact write32_page s r k hi ho (word v)

theorem pageWrite_header (h : s.accepts r k i o v = true) (ho : o < 0x40) : s.pageWrite r k i o v = headerWrite r k i o v s := by
  unfold State.pageWrite
  rw [guarded_of_accepts h, if_pos ho]

theorem pageWrite_block (h : s.accepts r k i o v = true) (ho : 0x40 ≤ o) : s.pageWrite r k i o v = blockWrite r k i o v s := by
  unfold State.pageWrite
  rw [guarded_of_accepts h, if_neg (by omega)]

/-- An accepted write of a header register by page number. -/
theorem headerAccess_of_accepts {p : Nat} (hi : i < k.count) (hp : p * 0x1000 = k.base i) (ho : o < 0x40)
    (h : s.accepts r k i o v = true) : s.headerAccess r p o v = headerWrite r k i o v s := by
  unfold State.headerAccess
  rw [hp, write32_page s r k hi (by omega), pageWrite_header h ho]

/-! ### Accesses to what the requester does not reach (R78) -/

/-- The two ways in which a page is not reached are those of the common checks. -/
theorem reach_of_not_reached {a : Nat} (h : (s.reach r k i == .full || (s.reach r k i == .header && decide (a < 0x40))) = false) :
    s.reach r k i = .none ∨ (s.reach r k i = .header ∧ 0x40 ≤ a) := by
  cases hr : s.reach r k i <;> simp_all

theorem write32_unreached {a : Nat} (h : s.reaches r a = false) (v : Word) : s.write32 r a v = s.accessError r := by
  unfold State.reaches at h
  unfold State.write32
  split
  · rename_i hw
    rw [if_pos hw] at h
    unfold ringDescWrite
    rw [if_pos h]
  · rename_i hw
    rw [if_neg hw] at h
    split
    · rfl
    · rename_i p hp
      simp only [hp] at h
      unfold State.pageWrite State.guarded
      rw [if_pos (reach_of_not_reached h)]

theorem read32_unreached {a : Nat} (h : s.reaches r a = false) : s.read32 r a = (s.accessError r, 0xFFFFFFFF) := by
  unfold State.reaches at h
  unfold State.read32
  split
  · rename_i hw
    rw [if_pos hw] at h
    rw [h]
    rfl
  · rename_i hw
    rw [if_neg hw] at h
    split
    · rfl
    · rename_i p hp
      simp only [hp] at h
      dsimp only
      rw [if_pos (reach_of_not_reached h)]

theorem write_w32_unreached {a : Nat} (h : s.reaches r a = false) (v : Nat) : s.write r a .w32 v = s.accessError r := by
  unfold State.write
  split
  · rw [if_neg (by simp [h])]
  · exact write32_unreached h _

theorem read_w32_unreached {a : Nat} (h : s.reaches r a = false) : s.read r a .w32 = (s.accessError r, [0xFFFFFFFF]) := by
  unfold State.read
  split
  · rw [if_neg (by simp [h])]
  · simp only [read32_unreached h]

/-- An access by a function is counted in its HLK_ACCERR, or as an Unsupported Request where its memory space is off (R78, R560). -/
theorem accessError_fn (s : State) (f : Fin 18) :
    s.accessError (.fn f) = s.sat .hlk 0 (if s.memServed f then Off.hlkAccerr f else Off.hlkUrCnt) 0 32 1 := by
  simp only [State.accessError]
  split <;> rfl

/-! ### Reads of a wide value (R80) -/

/-- Values listed one by one, each a function of its key: every one reads back. -/
theorem getD_foldl_put {α : Type} (inv key : Nat → Nat) (val dflt : Nat → α) (l : List Nat) (m : List (Nat × α)) {j : Nat}
    (hinv : ∀ a, inv (key a) = a) (hj : j ∈ l ∨ Store.get? m (key j) = some (val j)) :
    Store.getD dflt (l.foldl (fun x a => Store.put x (key a) (val a)) m) (key j) = val j := by
  induction l generalizing m with
  | nil =>
    have h := hj.resolve_left List.not_mem_nil
    simp [Store.getD, h]
  | cons a t ih =>
    refine ih _ ?_
    by_cases hja : key j = key a
    · have : j = a := by rw [← hinv j, hja, hinv a]
      exact Or.inr (by simp [Store.get?_put, this])
    · rcases hj with hj | hj
      · exact Or.inl ((List.mem_cons.mp hj).resolve_left fun e => hja (by rw [e]))
      · exact Or.inr (by rw [Store.get?_put, if_neg hja, hj])

/-- The words above the low one of a wide value stand in the requester's snapshot. -/
theorem snaps_snapshot (s : State) (r : Requester) (k : PageKind) (i o n : Nat) {j : Nat} (h0 : 0 < j) (hj : j < n) :
    Store.getD (fun _ => 0) (s.snapshot r k i o n).snaps (reqKey r (k.base i + o + 4 * j)) = s.view r k i (o + 4 * j) :=
  getD_foldl_put (fun x => (x - reqKey r (k.base i + o)) / 4) (fun j => reqKey r (k.base i + o + 4 * j))
    (fun j => s.view r k i (o + 4 * j)) _ _ _ (fun a => by unfold reqKey; omega)
    (Or.inl (List.mem_range'_1.mpr (by omega)))

/-- A read of the low word of a wide RS value takes the snapshot of the words above it: but for TIM pages, whose FIFOs pop, no
register that holds such a word is one whose read takes a free value or moves an index. -/
theorem readReg_low {n : Nat} (hk : k ≠ .tim) (hg : rsGroup k o = some (o, n)) (hs : s.rb k i Off.pgCtrl 1 = false) :
    s.readReg r k i o = (s.snapshot r k i o n, s.view r k i o) := by
  have hcmp : ¬(k = .cmp ∧ o = Off.cmpLive) := by
    rintro ⟨rfl, -⟩
    simp [rsGroup] at hg
  have hrst : ¬(k = .rst ∧ o = Off.rstOpt ∧ s.rst.loading = true) := by
    rintro ⟨rfl, -⟩
    simp [rsGroup] at hg
  have hhbm : ¬(k = .hbm ∧ o = Off.hbmTrn ∧ s.rb .hbm 0 Off.hbmStat 9 = true) := by
    rintro ⟨rfl, rfl, -⟩
    simp [rsGroup] at hg
  have hwt : ¬(k = .pmu ∧ o = Off.pmuWtData) := by
    rintro ⟨rfl, -⟩
    simp [rsGroup] at hg
  have hpmu : ¬(k = .pmu ∧ 0x100 ≤ o ∧ o < 0x200 ∧ o % 64 = 4) := by
    rintro ⟨rfl, -⟩
    simp [rsGroup] at hg
  unfold State.readReg
  rw [hs, if_neg (by simp), if_neg hcmp, if_neg hhbm, if_neg hrst, if_neg fun h => hk h.1, if_neg fun h => hk h.1, if_neg hwt,
    if_neg hpmu, hg]
  exact if_pos rfl

theorem read_w32_low {n : Nat} (hi : i < k.count) (ho : o < 0x1000) (h4 : (k.base i + o) % 4 = 0) (hr : s.reach r k i = .full)
    (hrow : regRow k o ≠ none) (hk : k ≠ .tim) (hg : rsGroup k o = some (o, n)) (hs : s.rb k i Off.pgCtrl 1 = false) :
    s.read r (k.base i + o) .w32 = (s.snapshot r k i o n, [s.view r k i o]) := by
  have ha : ¬aligned .w32 (k.base i + o) = false := by simp [aligned, h4]
  have hw : ¬(ringWindow ≤ k.base i + o ∧ k.base i + o < ringWindowEnd) := by
    have := base_add_lt k hi ho
    omega
  have hm : (k.base i + o) % 0x1000 = o := by
    have := base_mod k i
    omega
  obtain ⟨row, hrow⟩ := Option.ne_none_iff_exists'.mp hrow
  have h32 : s.read32 r (k.base i + o) = (s.snapshot r k i o n, s.view r k i o) := by
    unfold State.read32
    rw [if_neg hw, pageAt_base_add k hi ho]
    dsimp only
    rw [hm, hrow, if_neg (by simp [hr])]
    exact readReg_low hk hg hs
  unfold State.read
  rw [if_neg ha]
  simp only [h32]

/-! ### Result registers (R84) -/

/-- A stored result shows the next SEQ and VALID, whatever CODE and the fields above VALID are. -/
theorem storeResult_fields (s : State) (k : PageKind) (i o : Nat) {code : Nat} (rest : Nat) (hc : code < 256) :
    (s.storeResult k i o (code * 2 ^ 8 + rest * 2 ^ 17)).rf k i o 0 8 = (s.rf k i o 0 8 + 1) % 256 ∧
      (s.storeResult k i o (code * 2 ^ 8 + rest * 2 ^ 17)).rb k i o 16 = true := by
  have hseq : (s.rf k i o 0 8 + 1) % 256 < 256 := Nat.mod_lt _ (by decide)
  have hrd := storeResult_rd s k i o (code * 2 ^ 8 + rest * 2 ^ 17)
  generalize (s.rf k i o 0 8 + 1) % 256 = n at hseq hrd ⊢
  constructor
  · rw [State.rf, hrd, fld_word _ _ _ (by decide)]
    omega
  · rw [State.rb, hrd, tbit_eq_fld, fld_word _ _ _ (by decide), decide_eq_true_eq]
    omega

/-- Settles O55: a started result loses VALID alone, and a stored one takes the next SEQ with VALID. -/
theorem resultsCountAndShowValid : Obligations.ResultsCountAndShowValid := by
  unfold Obligations.ResultsCountAndShowValid
  intro k i o s
  refine ⟨⟨startResult_valid s k i o, startResult_field s k i o 0 8 (by decide)⟩, fun code rest hc _ => ?_⟩
  obtain ⟨hseq, hvalid⟩ := storeResult_fields s k i o rest hc
  exact ⟨hseq, hvalid, fun k' i' o' hne => ⟨rd_wr_ne s _ hne, rd_wr_ne s _ hne⟩⟩

end Sys2Proof.Machine

/-!
PROOF. The header of a page (R60 to R69, R629): enabling, soft reset, locks and owners; and O50.
-/

namespace Sys2Proof.Machine

/-! ### PG_EVT and PG_EVT_EN -/

/-- The row of PG_EVT_EN: every bit RW. -/
theorem plainWrite_pgEvtEn (s : State) (k : PageKind) (i : Nat) (v : Word) :
    s.plainWrite k i Off.pgEvtEn v = s.wr k i Off.pgEvtEn v := by
  rw [plainWrite_of_row (k := k) rfl s i v, mergeWrite_rw rfl rfl]

/-- The row of PG_EVT: every bit W1C. -/
theorem plainWrite_pgEvt (s : State) (k : PageKind) (i : Nat) (v : Word) :
    s.plainWrite k i Off.pgEvt v = s.wr k i Off.pgEvt (s.rd k i Off.pgEvt &&& ~~~v) := by
  rw [plainWrite_of_row (k := k) rfl s i v, mergeWrite_w1c rfl rfl]

/-! ### PG_CTRL -/

theorem tbit_word_bit (b : Bool) : tbit (word (bit b)) 0 = b ∧ tbit (word (bit b)) 1 = false := by cases b <;> decide

/-- A write of PG_CTRL without SRST stores EN: what the block then does leaves it (R60). -/
theorem pageEn_pgCtrlWrite (s : State) (k : PageKind) (i : Nat) {v : Word} (h : tbit v 1 = false) :
    (pgCtrlWrite k i v s).pageEn k i = tbit v 0 := by
  have hb : (s.wb k i Off.pgCtrl 0 (tbit v 0)).pageEn k i = tbit v 0 := rb_wb_same s k i Off.pgCtrl 0 _ (by decide)
  unfold pgCtrlWrite
  rw [if_neg (by simp [h])]
  dsimp only
  split
  · exact hb
  · split
    · split
      · exact (pageEn_of_heads (heads_watchUnres _ i allWatch) k i).trans hb
      · exact hb
    · exact (pageEn_of_heads (heads_blockStop _ k i) k i).trans hb

/-! ### Page soft reset (R63, R629) -/

section
variable (s : State) (k : PageKind) (i : Nat)

/-- The block of a page that is reset leaves the reset counters, those that drive pins too. -/
theorem rstCnt_blockClear : (s.blockClear k i).lan.rstCnt = s.lan.rstCnt := by
  by_cases hk : k.drivesPins = false
  · exact rstCnt_of_shell (shell_blockClear s k i hk)
  · cases k <;> simp [PageKind.drivesPins] at hk
    case hal => rfl
    case wvn =>
      refine (rstCnt_of_shell (shell_foldl _ _ _ fun x q => ?_)).trans
        (show (s.setCaps []).lan.rstCnt = s.lan.rstCnt from rstCnt_of_shell (shell_setCaps s []))
      exact (shell_setSeq _ q _).trans (shell_wb x .seq q Off.seqStat 5 false)

theorem rstCnt_pageReset : (s.pageReset k i).lan.rstCnt = s.lan.rstCnt := by
  refine (rstCnt_of_shell (s := s.blockClear k i) ?_).trans (rstCnt_blockClear s k i)
  simp [State.pageReset]

/-- A soft reset outside a wider one is counted once. -/
theorem count_softReset (h : s.widerReset k i = false) :
    (s.softReset k i).lan.count rstPage = satAdd 0xFFFF (s.lan.count rstPage) 1 := by
  have hs : (s.softReset k i).lan.rstCnt = (s.countReset rstPage).lan.rstCnt := by
    unfold State.softReset
    rw [if_neg (by simp [h]), State.wb_lan, rstCnt_pageReset]
  unfold Lantern.count
  rw [hs]
  exact Store.getD_setD_same _ _ _ _

/-- SRST reads 1 from the start of a soft reset. -/
theorem srst_softReset : (s.softReset k i).rb k i Off.pgCtrl 1 = true := rb_wb_same _ k i Off.pgCtrl 1 true (by decide)

/-- A register of a reset page that nothing keeps reads its reset value. -/
theorem rd_resetPage (keep : Nat → Bool) {o : Nat} (ho : o < 0x1000) (hk : keep o = false) :
    (s.resetPage k i keep).rd k i o = regReset (k.addr i o) := by
  have ha : k.addr i o = k.addr i 0 + o := by
    unfold PageKind.addr
    omega
  unfold State.rd State.reg State.resetPage
  dsimp only
  rw [Store.getD_keep, if_neg]
  simp only [ha, Bool.or_eq_true, decide_eq_true_eq, not_or, Nat.add_sub_cancel_left, hk]
  exact ⟨⟨by omega, by omega⟩, by decide⟩

/-- The block registers of an APG page return to reset (R63). -/
theorem rd_softReset_apg (h : s.widerReset .apg i = false) {o : Nat} (ho : 0x40 ≤ o) (ho' : o < 0x1000) :
    (s.softReset .apg i).rd .apg i o = regReset (PageKind.apg.addr i o) := by
  have hm : o % 0x1000 = o := Nat.mod_eq_of_lt ho'
  unfold State.softReset
  rw [if_neg (by simp [h]), rd_wb_offset _ _ _ _ _ _ _ _ (by rw [hm]; simp only [Off.pgCtrl]; omega)]
  have hw : ∀ x y : State, (x.pageWipe y .apg i).rd .apg i o = regReset (PageKind.apg.addr i o) := fun x y => by
    change ((x.resetPage .apg i _).wb .apg i Off.pgLock 0 false).rd .apg i o = _
    rw [rd_wb_offset _ _ _ _ _ _ _ _ (by rw [hm]; simp only [Off.pgLock]; omega)]
    refine rd_resetPage x .apg i _ ho' ?_
    have hown : (o == Off.pgOwner) = false := by simp only [Off.pgOwner, beq_eq_false_iff_ne]; omega
    have hlock : (o == Off.pgLock) = false := by simp only [Off.pgLock, beq_eq_false_iff_ne]; omega
    rw [hown, hlock]
    rfl
  exact hw _ _

end

/-! ### PG_LOCK and PG_OWNER -/

/-- The supervisor sets or clears both locks with KEY 0x5A (R60, R65). -/
theorem rf_pgLockWrite {s : State} {r : Requester} (k : PageKind) (i : Nat) {v : Word} (hsup : s.isSup r = true)
    (hkey : fld v 8 8 = 0x5A) :
    (pgLockWrite r k i v s).rf k i Off.pgLock 0 2 = fld v 0 2 := by
  unfold pgLockWrite
  dsimp only
  rw [if_neg (by simp [hkey]), if_neg (by simp [hsup]), rf_wf_same _ _ _ _ _ _ _ (by decide), Nat.mod_eq_of_lt (fld_lt v 0 2)]

/-- The owner of a page whose PG_OWNER can be written stands in its home page (R68). -/
theorem ownerOf_of_home (s : State) {k h : PageKind} (hh : ownerHome k = some h) (i : Nat) :
    s.ownerOf k i = s.rf h i Off.pgOwner 0 4 := by
  cases k <;> simp only [ownerHome, reduceCtorEq, Option.some.injEq] at hh <;> subst hh <;> rfl

/-- Dropping the snapshots of the pages whose owner changes leaves the owners as written (R82). -/
theorem heads_dropSnaps (s : State) (k : PageKind) (i : Nat) : (s.dropSnaps k i).heads = s.heads :=
  heads_foldl _ _ _ fun x p => heads_forgetPage x p i

/-- So does the end of the acquisition engine's record (R16, R423). -/
theorem heads_acqOwnerMoves (s : State) (b old : Nat) : (s.acqOwnerMoves b old).heads = s.heads := by simp [State.acqOwnerMoves]

/-- PG_OWNER, written from one owner in M4 to another, is the owner of the page (R46, R68, R69). -/
theorem ownerOf_pgOwnerWrite {s : State} {k : PageKind} {i : Nat} {v : Word} (hk : ownerHome k ≠ none)
    (hn : fld v 0 4 < 8 ∨ fld v 0 4 = 15) (hold : s.ownerInM4 (s.ownerOf k i) = true) (hnew : s.ownerInM4 (fld v 0 4) = true) :
    (pgOwnerWrite k i v s).ownerOf k i = fld v 0 4 := by
  obtain ⟨h, hh⟩ := Option.ne_none_iff_exists'.mp hk
  unfold pgOwnerWrite
  simp only [hh]
  rw [if_neg (by omega)]
  split
  · rename_i he
    exact he.symm
  · rw [if_neg (by simp [hold, hnew])]
    have hw : ((s.wf h i Off.pgOwner 0 4 (fld v 0 4)).dropSnaps h i).dropForeign.rf h i Off.pgOwner 0 4 = fld v 0 4 := by
      refine (rf_pgOwner_of_heads ((heads_of_regs rfl).trans (heads_dropSnaps _ h i)) h i).trans ?_
      rw [rf_wf_same _ _ _ _ _ _ _ (by decide), Nat.mod_eq_of_lt (fld_lt v 0 4)]
    rw [ownerOf_of_home _ hh]
    split
    · exact (rf_pgOwner_of_heads ((heads_farAbort _ _).trans (heads_acqOwnerMoves _ _ _)) h i).trans hw
    · exact hw

/-! ### The commands -/

/-- The page of a page number, as the end of a soft reset finds it. -/
theorem exec_pageSoftResetDone {s : State} {p : BitVec 14} {k : PageKind} {i : Nat} (hi : i < k.count)
    (hp : p.toNat * 0x1000 = k.base i) (hw : s.widerReset k i = false) :
    exec (.pageSoftResetDone p) s = .next (s.wb k i Off.pgCtrl 1 false) := by
  change execPageSoftResetDone p s = _
  unfold execPageSoftResetDone
  rw [hp, show pageAt (k.base i) = some ⟨k, i⟩ from pageAt_base_add k (o := 0) hi (by decide)]
  simp [hw]

/-- A soft reset writes the PG_CTRL of the page with SRST = 1. -/
theorem exec_pageSoftReset {s : State} {r : Requester} {p : BitVec 14} {k : PageKind} {i : Nat} (hi : i < k.count)
    (hp : p.toNat * 0x1000 = k.base i) (ha : s.accepts r k i Off.pgCtrl (putBit (s.rd k i Off.pgCtrl) 1 true) = true) :
    exec (.pageSoftReset r p) s = .next (s.softReset k i) := by
  have haddr : p.toNat * 0x1000 + Off.pgCtrl = k.addr i Off.pgCtrl := by
    unfold PageKind.addr
    rw [Nat.mod_eq_of_lt hi, hp, Nat.mod_eq_of_lt (by decide)]
  change Host.Outcome.next (s.headerAccess r p.toNat Off.pgCtrl (putBit (s.reg (p.toNat * 0x1000 + Off.pgCtrl)) 1 true)) = _
  rw [haddr]
  refine congrArg _ ((headerAccess_of_accepts hi hp (by decide) ha).trans ?_)
  exact if_pos (tbit_putBit_same _ 1 true (by decide))

theorem blockWrite_startTickHi (s : State) (r : Requester) (q : Nat) (v : Word) :
    blockWrite r .seq q Off.seqStartTickHi v s = seqStartTickWrite r q true v s := by
  unfold blockWrite seqWrite
  rw [if_neg (by decide), if_neg (by decide), if_neg (by decide), if_pos rfl]

theorem rd_unstage (s : State) (k k' : PageKind) (i o i' o' : Nat) : (s.unstage k i o).rd k' i' o' = s.rd k' i' o' := rfl

/-- A write of SEQ_START_TICK_HI commits the staged low word with it (R81). -/
theorem seqStartTickWrite_hi (r : Requester) (q : Nat) (v : Word) (s : State) :
    (seqStartTickWrite r q true v s).rd .seq q Off.seqStartTickLo = s.staged r .seq q Off.seqStartTickLo ∧
      (seqStartTickWrite r q true v s).rf .seq q Off.seqStartTickHi 0 16 = fld v 0 16 := by
  have h : seqStartTickWrite r q true v s =
      ((s.wr .seq q Off.seqStartTickLo (s.staged r .seq q Off.seqStartTickLo)).plainWrite .seq q Off.seqStartTickHi v).unstage
        .seq q Off.seqStartTickLo := by
    change ((s.plainWrite .seq q Off.seqStartTickLo _).plainWrite .seq q Off.seqStartTickHi v).unstage .seq q _ = _
    rw [plainWrite_of_row (k := .seq) (o := Off.seqStartTickLo) rfl, mergeWrite_rw rfl rfl]
  rw [h, State.rf, rd_unstage, rd_unstage, plainWrite_of_row (k := .seq) (o := Off.seqStartTickHi) rfl, rd_wr_same]
  constructor
  · rw [rd_wr_offset _ _ _ _ _ _ _ (by decide), rd_wr_same]
  · exact fld_mergeWrite rfl rfl (by decide) _ v

/-- What a write of SEQ_START_TICK_HI runs. -/
theorem exec_wideWriteCommit_startTick {s : State} {r : Requester} {q : Fin 8} {a : BitVec 26} {v : Word}
    (ha : a.toNat = PageKind.seq.base q + Off.seqStartTickHi) (hacc : s.accepts r .seq q Off.seqStartTickHi v = true) :
    exec (.wideWriteCommit r a v) s = .next (seqStartTickWrite r q true v s) := by
  have hw : s.write r a.toNat .w32 v.toNat = blockWrite r .seq q Off.seqStartTickHi v s := by
    rw [ha, write_w32_page s r q.isLt (by decide) (by decide), word_toNat, pageWrite_block hacc (by decide)]
  exact congrArg Host.Outcome.next (hw.trans (blockWrite_startTickHi s r q v))

/-- An access of a function to what it does not reach only counts (R78, R560). -/
theorem exec_unreached_fn {s : State} {f : Fin 18} {a : BitVec 26} (h : s.reaches (.fn f) a.toNat = false) :
    (∀ v : BitVec 64, exec (.registerWrite (.fn f) a .w32 v) s = .next (s.accessError (.fn f)) ∧
      exec (.unreachableAccess (.fn f) a .w32 (some v)) s = .next (s.accessError (.fn f))) ∧
    exec (.unreachableAccess (.fn f) a .w32 none) s = .next { s.accessError (.fn f) with
      resp := [0xFFFFFFFF], cpl := some ((s.accessError (.fn f)).readStatus f) } := by
  have hn : ¬s.reaches (.fn f) a.toNat = true := by simp [h]
  refine ⟨fun v => ?_, ?_⟩
  · have hw := write_w32_unreached h v.toNat
    exact ⟨congrArg _ hw, (if_neg hn).trans (congrArg _ hw)⟩
  · change (if s.reaches (.fn f) a.toNat = true then _ else Host.Outcome.next (State.answer (s.read (.fn f) a.toNat .w32) (.fn f))) = _
    rw [if_neg hn, read_w32_unreached h]
    unfold State.answer
    rw [if_pos (show (Requester.fn f).index < 18 from f.isLt)]
    rfl

theorem readStatus_sat (s : State) (k : PageKind) (i o lo n add f : Nat) :
    (s.sat k i o lo n add).readStatus f = if s.memServed f then .success else .unsupported := rfl

/-- EXTEST is loaded in M2, in M3, and in M4 with every domain in M4 and every channel parked (R704). -/
theorem exec_extest (x : TapInstr) (s : State) :
    exec (.extest x) s = .next { s with tap :=
      if s.mode.dev = .m2 ∨ s.mode.dev = .m3 ∨ (s.mode.dev = .m4 ∧ s.domainsInM4 = true ∧ s.allParked = true) then x
      else .bypass } := by
  change Host.Outcome.next { s with tap := if _ then x else .bypass } = _
  simp only [← or_assoc, or_comm]

/-- Settles O50: each access by the lemma above that says what it is. -/
theorem pageAccessesTakeEffect : Obligations.PageAccessesTakeEffect := by
  unfold Obligations.PageAccessesTakeEffect
  refine ⟨fun r a v k i s hi => ⟨fun ha hacc => ?_, fun ha hacc => ?_⟩, fun f a v s => ?_,
    fun r a k i o n s hi ho hk hg hrow ha h4 hr hs => ?_, fun r q a v s ha hacc => ?_,
    fun r p k i s hi hp => ⟨fun en hacc => ?_, fun hacc hw => ?_, fun hw => ?_, fun v hsup hacc hkey => ?_,
      fun v hk hacc hn hold hnew => ?_⟩, fun x s => ⟨fun h => ?_, fun h => ?_⟩⟩
  · refine ⟨_, congrArg Host.Outcome.next ?_, rd_wr_same s k i _ _, fun k' i' o hne => rd_wr_ne s _ hne⟩
    rw [ha, write_w32_page s r hi (by decide) (by decide), pageWrite_header hacc (by decide)]
    exact plainWrite_pgEvtEn s k i _
  · refine ⟨_, congrArg Host.Outcome.next ?_, rd_wr_same s k i Off.pgEvt _⟩
    rw [ha, write_w32_page s r hi (by decide) (by decide), pageWrite_header hacc (by decide)]
    exact plainWrite_pgEvt s k i _
  · intro y hy
    obtain ⟨hwrite, hread⟩ := exec_unreached_fn hy
    rw [accessError_fn s f, readStatus_sat] at hread
    obtain ⟨hw, hu⟩ := hwrite v
    rw [accessError_fn s f] at hw hu
    exact ⟨hw, hu, _, hread, rfl, rfl, rfl⟩
  · refine ⟨_, rfl, ?_⟩
    rw [ha] at h4 ⊢
    rw [read_w32_low hi ho h4 hr hrow hk hg hs]
    exact ⟨rfl, rfl, fun j h0 hj => snaps_snapshot s r k i o n h0 hj⟩
  · exact ⟨_, exec_wideWriteCommit_startTick ha hacc, seqStartTickWrite_hi r q v s⟩
  · refine ⟨_, congrArg Host.Outcome.next (headerAccess_of_accepts hi hp (by decide) hacc), ?_⟩
    exact (pageEn_pgCtrlWrite s k i (tbit_word_bit en).2).trans (tbit_word_bit en).1
  · refine ⟨_, exec_pageSoftReset hi hp hacc, srst_softReset s k i, count_softReset s k i hw, ?_⟩
    rintro rfl o ho ho'
    rw [rd_softReset_apg s i hw ho ho', PageKind.addr, Nat.mod_eq_of_lt hi, Nat.mod_eq_of_lt ho']
  · exact ⟨_, exec_pageSoftResetDone hi hp hw, rb_wb_same s k i _ 1 false (by decide),
      rb_wb_other s k i _ 1 0 false (by decide) (by decide)⟩
  · exact ⟨_, congrArg Host.Outcome.next (headerAccess_of_accepts hi hp (by decide) hacc), rf_pgLockWrite k i hsup hkey⟩
  · exact ⟨_, congrArg Host.Outcome.next (headerAccess_of_accepts hi hp (by decide) hacc), ownerOf_pgOwnerWrite hk hn hold hnew⟩
  · rw [exec_extest, if_pos (by tauto)]
  · rw [exec_extest, if_neg (by tauto)]

end Sys2Proof.Machine

/-!
PROOF. The refill of a sequencer (R211 to R230, R551 to R553): reads of the hayloft find no more poison than stood there, and a
granule whose read finds no uncorrectable error becomes resident.
-/

namespace Sys2Proof.Machine

/-! ### Poison: posting an entry and counting errors add none -/

/-- `t` holds no poison that `s` does not hold. -/
def State.NoMorePoison (s t : State) : Prop := ∀ e ∈ t.hay.poison, e ∈ s.hay.poison

theorem State.NoMorePoison.refl (s : State) : State.NoMorePoison s s := fun _ h => h

theorem State.NoMorePoison.trans {s t u : State} (h1 : State.NoMorePoison s t) (h2 : State.NoMorePoison t u) :
    State.NoMorePoison s u :=
  fun e h => h1 e (h2 e h)

theorem noMorePoison_of_poison {s t : State} (h : t.hay.poison = s.hay.poison) : State.NoMorePoison s t := fun _ he => h ▸ he

theorem noMorePoison_of_hay {s t : State} (h : t.hay = s.hay) : State.NoMorePoison s t :=
  noMorePoison_of_poison (congrArg Hayloft.poison h)

/-- What reads clean goes on to read clean where no poison is added. -/
theorem poisoned_of_noMorePoison {s t : State} (h : State.NoMorePoison s t) {a n : Nat} (hp : s.poisoned a n = false) :
    t.poisoned a n = false := by
  unfold State.poisoned at hp ⊢
  rw [List.any_eq_false] at hp ⊢
  exact fun e he => hp e (h e he)

variable (s : State)

/-- A message is dropped and counted, or its vector becomes pending, or it is sent. -/
theorem sendMsg_cases (ix v : Nat) : ∃ f, s.sendMsg ix v = s.sat .hlk 0 Off.hlkMsgDrop 0 32 1 ∨
    s.sendMsg ix v = s.setPba f v true ∨ s.sendMsg ix v = s.emit f v := by
  refine ⟨s.rf .hlk 0 (Off.hlkSig ix) 0 5, ?_⟩
  unfold State.sendMsg
  dsimp only
  split
  · exact Or.inl rfl
  · split
    · exact Or.inr (Or.inl rfl)
    · exact Or.inr (Or.inr rfl)

@[simp] theorem hay_sendMsg (ix v : Nat) : (s.sendMsg ix v).hay = s.hay := by
  obtain ⟨f, h | h | h⟩ := sendMsg_cases s ix v
  · rw [h, State.sat_hay]
  · rw [h, State.setPba_hay]
  · rw [h, State.emit_hay]

@[simp] theorem hay_ringFlags (n : Nat) : (s.ringFlags n).hay = s.hay := by
  rw [State.ringFlags, State.ringSet_hay, State.ringSet_hay]
@[simp] theorem hay_ringDrop (n : Nat) : (s.ringDrop n).hay = s.hay := by rw [State.ringDrop, State.ringSet_hay]

@[simp] theorem hay_ringCount (n k : Nat) : (s.ringCount n k).hay = s.hay := by
  unfold State.ringCount State.ringSignal
  dsimp only
  split <;> simp

@[simp] theorem hay_ringDropSignal (n : Nat) : (s.ringDropSignal n).hay = s.hay := by
  unfold State.ringDropSignal
  split <;> simp

@[simp] theorem hay_ringLose (n : Nat) : (s.ringLose n).hay = s.hay := by
  rw [State.ringLose, hay_ringDropSignal, State.setRing_hay, hay_ringDrop]

@[simp] theorem hay_countLoss (p : Producer) : (s.countLoss p).hay = s.hay := by
  cases p with
  | mark | page | device => rfl
  | _ => rw [State.countLoss, State.sat_hay]

theorem noMorePoison_poisonWrite (a n : Nat) : State.NoMorePoison s (s.poisonWrite a n) := by
  refine foldl_keeps (State.NoMorePoison s) (fun x e hx => ?_) s.hay.poison (State.NoMorePoison.refl s)
  dsimp only
  split
  · exact hx
  · split
    · exact hx.trans fun e he => (Store.mem_drop he).1
    · exact hx

@[simp] theorem poison_hayWriteBytes (o a : Nat) (bs : List Byte) : (s.hayWriteBytes o a bs).hay.poison = s.hay.poison := by
  induction bs generalizing s a with
  | nil => rfl
  | cons b t ih => exact ih (s.hayWrite o a b) (a + 1)

theorem noMorePoison_hayPut (o a n v : Nat) : State.NoMorePoison s (s.hayPut o a n v) :=
  (noMorePoison_poisonWrite s a (bytesOf n v).length).trans (noMorePoison_of_poison (poison_hayWriteBytes _ o a (bytesOf n v)))

theorem noMorePoison_ringStore (n : Nat) (p : Producer) (ty body : Nat) (gap : Bool) :
    State.NoMorePoison s (s.ringStore n p ty body gap) := by
  unfold State.ringStore
  dsimp only
  exact (noMorePoison_hayPut s _ _ _ _).trans (noMorePoison_of_hay (by rw [hay_ringFlags, State.setRing_hay, State.setReg_hay]))

/-- An offer of an entry, however it ends. -/
theorem noMorePoison_offer (n : Nat) (p : Producer) (wait : Bool) (ty body : Nat) :
    State.NoMorePoison s (s.offer n p wait ty body).1 := by
  have lost : State.NoMorePoison s ((s.ringLose n).countLoss p) := noMorePoison_of_hay (by simp)
  unfold State.offer
  split
  · exact lost
  · split
    · split
      · split
        · exact noMorePoison_of_hay (by simp)
        · exact lost
      · have dropped : State.NoMorePoison s ((s.setReg (ringAddr n Off.rngCidx) (word (s.cidx n + 1))).ringDrop n) :=
          noMorePoison_of_hay (by simp)
        exact (dropped.trans (noMorePoison_ringStore _ n p ty body true)).trans
          (noMorePoison_of_hay (by rw [hay_ringCount, hay_ringDropSignal]))
      · exact lost
    · exact (noMorePoison_ringStore s n p ty body _).trans (noMorePoison_of_hay (hay_ringCount _ n 1))

theorem noMorePoison_event (k : PageKind) (i n : Nat) : State.NoMorePoison s (s.event k i n) := by
  have raised : State.NoMorePoison s (s.wb k i Off.pgEvt n true) := noMorePoison_of_hay (State.wb_hay ..)
  unfold State.event
  split
  · exact State.NoMorePoison.refl s
  · dsimp only
    split
    · unfold State.eventPost
      dsimp only
      split
      · exact raised.trans (noMorePoison_offer _ _ _ _ _ _)
      · exact raised
    · exact raised

/-! ### What reads for a sequencer do -/

/-- What reads of the hayloft for sequencer `q` can do: registers of its control page, the regions and its map stay, a resident
granule stays resident, and no poison is added. -/
structure State.Refills (q : Nat) (s t : State) : Prop where
  map : (t.seq q).map = (s.seq q).map
  has : ∀ g, (s.seq q).has g = true → (t.seq q).has g = true
  regions : t.regions = s.regions
  rd : ∀ o, t.rd .seq q o = s.rd .seq q o
  poison : State.NoMorePoison s t

theorem State.Refills.refl (q : Nat) (s : State) : State.Refills q s s :=
  ⟨rfl, fun _ h => h, rfl, fun _ => rfl, State.NoMorePoison.refl s⟩

theorem State.Refills.trans {q : Nat} {s t u : State} (h1 : State.Refills q s t) (h2 : State.Refills q t u) : State.Refills q s u :=
  ⟨h2.map.trans h1.map, fun g h => h2.has g (h1.has g h), h2.regions.trans h1.regions, fun o => (h2.rd o).trans (h1.rd o),
    h1.poison.trans h2.poison⟩

theorem seq_of_seqs {s t : State} (h : t.seqs = s.seqs) (q : Nat) : t.seq q = s.seq q := by
  unfold State.seq
  rw [h]

/-- An operation that leaves the sequencers, the regions and the sequencer's control page, and adds no poison. -/
theorem refills_of_seqs {s t : State} (q : Nat) (hs : t.seqs = s.seqs) (hr : t.regions = s.regions)
    (hrd : ∀ o, t.rd .seq q o = s.rd .seq q o) (hp : State.NoMorePoison s t) : State.Refills q s t :=
  ⟨by rw [seq_of_seqs hs], fun g h => by rwa [seq_of_seqs hs], hr, hrd, hp⟩

/-- What a refill is judged by stays: its region and its owner. -/
theorem refillOk_of_refills {q : Nat} {s t : State} (h : State.Refills q s t) (sg : Seg) (g : Nat) :
    t.refillOk q sg g = s.refillOk q sg g := by
  have ho : t.ownerOf .seq q = s.ownerOf .seq q := rf_of_rd (h.rd _) 0 4
  unfold State.refillOk State.inRegion
  rw [ho, h.regions]

variable (q : Nat)

theorem refills_wr_hbm (o : Nat) (v : Word) : State.Refills q s (s.wr .hbm 0 o v) :=
  refills_of_seqs q rfl rfl (fun o' => rd_wr_kind s 0 o q o' v (by decide)) (noMorePoison_of_hay rfl)

theorem refills_event_hbm (n : Nat) : State.Refills q s (s.event .hbm 0 n) :=
  refills_of_seqs q (by simp) (by simp) (fun o => rd_event s .hbm 0 n .seq q o (by simp [postReg]) (Or.inl (by decide)))
    (noMorePoison_event s .hbm 0 n)

theorem refills_logOffer (c ty i d : Nat) : State.Refills q s (s.logOffer c ty i d) :=
  refills_of_seqs q (by simp) (by simp) (fun o => by simp) (noMorePoison_of_hay (by simp))

theorem refills_useFree : State.Refills q s s.useFree := refills_of_seqs q rfl rfl (fun _ => rfl) (noMorePoison_of_hay rfl)

/-- Rows and counts of corrected errors are no contents. -/
theorem refills_with_hay (v : Hayloft) (h : v.poison = s.hay.poison) : State.Refills q s { s with hay := v } :=
  refills_of_seqs q rfl rfl (fun _ => rfl) (noMorePoison_of_poison h)

theorem refills_sat_hbm (o lo n v : Nat) : State.Refills q s (s.sat .hbm 0 o lo n v) := refills_wr_hbm s q o _
theorem refills_wb_hbm (o b : Nat) (v : Bool) : State.Refills q s (s.wb .hbm 0 o b v) := refills_wr_hbm s q o _

theorem refills_hbmErrAddr (a r : Nat) (ue : Bool) : State.Refills q s (s.hbmErrAddr a r ue) := by
  unfold State.hbmErrAddr State.wr2
  exact (refills_wr_hbm s q _ _).trans (refills_wr_hbm _ q _ _)

theorem refills_hbmUe (a r : Nat) : State.Refills q s (s.hbmUe a r) := by
  unfold State.hbmUe
  exact (((refills_sat_hbm s q _ _ _ _).trans (refills_hbmErrAddr _ q a r true)).trans (refills_event_hbm _ q 3)).trans
    (refills_logOffer _ q _ _ _ _)

theorem refills_hbmCe (a r : Nat) : State.Refills q s (s.hbmCe a r) := by
  have counted := (refills_sat_hbm s q Off.hbmCeCnt 0 32 1).trans (refills_hbmErrAddr _ q a r false)
  unfold State.hbmCe
  dsimp only
  generalize (s.sat .hbm 0 Off.hbmCeCnt 0 32 1).hbmErrAddr a r false = x at counted ⊢
  let y : State := { x with hay := { x.hay with
    rowCe := Store.put x.hay.rowCe (s.rowKey a) (Store.getD (fun _ => 0) s.hay.rowCe (s.rowKey a) + 1) } }
  have rows : State.Refills q s y := counted.trans (refills_with_hay x q y.hay rfl)
  change State.Refills q s (if _ then (if _ then y.wb .hbm 0 Off.hbmStat 15 true else
    ({ y with hay := { y.hay with rowLog := y.hay.rowLog ++ [(s.rowKey a, false)] } } : State).event .hbm 0 4) else y)
  split
  · split
    · exact rows.trans (refills_wb_hbm y q _ _ _)
    · exact (rows.trans (refills_with_hay y q { y.hay with rowLog := y.hay.rowLog ++ [(s.rowKey a, false)] } rfl)).trans
        (refills_event_hbm _ q 4)
  · exact rows

/-- The uncorrectable errors of poisoned words. -/
theorem refills_hbmUes (l : List Nat) (r : Nat) : State.Refills q s (l.foldl (fun x w => x.hbmUe (32 * w) r) s) :=
  foldl_keeps (State.Refills q s) (fun x w hx => hx.trans (refills_hbmUe x q (32 * w) r)) l (State.Refills.refl q s)

/-- A read, whatever error correction finds in it. -/
theorem refills_eccRead (a n r : Nat) (e : Ecc) : State.Refills q s (s.eccRead a n r e).1 := by
  have dead := refills_hbmUes s q (s.deadWords a n) r
  have used : State.Refills q s (if n ≤ 32 then (s.deadWords a n).foldl (fun x w => x.hbmUe (32 * w) r) s
      else ((s.deadWords a n).foldl (fun x w => x.hbmUe (32 * w) r) s).useFree) := by
    split
    · exact dead
    · exact dead.trans (refills_useFree _ q)
  cases e with
  | clean => exact dead
  | corrected => exact used.trans (refills_hbmCe _ q _ r)
  | uncorrectable => exact used.trans (refills_hbmUe _ q _ r)

/-- A read in which error correction finds nothing uncorrectable, of words that are not poisoned. -/
theorem eccRead_ok {s : State} {a n r : Nat} {e : Ecc} (hp : s.poisoned a n = false) (he : e ≠ .uncorrectable) :
    (s.eccRead a n r e).2 = false := by
  cases e with
  | clean => exact hp
  | corrected => exact hp
  | uncorrectable => exact absurd rfl he

/-! ### Granules -/

theorem seq_setSeq_same (v : SeqSt) : (s.setSeq q v).seq q = v := Store.getD_setD_same _ _ _ _

theorem seq_fillGranule (sg : Seg) (g : Nat) :
    (s.fillGranule q sg g).seq q = { s.seq q with
      resident := (g, s.granuleWords q sg g) :: (s.seq q).resident, retried := (s.seq q).retried.filter fun r => r != g } :=
  seq_setSeq_same s q _

/-- The granule read is resident. -/
theorem has_fillGranule (sg : Seg) (g : Nat) : ((s.fillGranule q sg g).seq q).has g = true := by
  rw [seq_fillGranule]
  simp [SeqSt.has]

theorem refills_fillGranule (sg : Seg) (g : Nat) : State.Refills q s (s.fillGranule q sg g) := by
  refine ⟨by rw [seq_fillGranule], fun g' h => ?_, rfl, fun _ => rfl, noMorePoison_of_hay rfl⟩
  rw [seq_fillGranule]
  unfold SeqSt.has at h ⊢
  rw [List.any_cons, h, Bool.or_true]

/-- One granule of `State.loadGranules`. -/
def State.loadGranule (s : State) (q : Nat) (m : List Seg) (ecc : State → Nat → Bool → Ecc) (g : Nat) : State :=
  match segOf m (64 * g) with
  | none => s
  | some sg =>
    if s.refillOk q sg g = false then s
    else
      let r := s.useFree.eccRead (sg.granuleAt g) 2560 reqRefill (ecc s g false)
      let r2 := if r.2 then r.1.eccRead (sg.granuleAt g) 2560 reqRefill (ecc s g true) else r
      if r2.2 then r2.1 else r2.1.fillGranule q sg g

theorem loadGranules_eq (m : List Seg) (l : List Nat) (ecc : State → Nat → Bool → Ecc) :
    s.loadGranules q m l ecc = (l.filter fun g => !(s.seq q).has g).foldl (fun x g => x.loadGranule q m ecc g) s := rfl

/-- A granule in a PATTERN region that holds no poisoned word (R590). -/
def State.granuleOk (s : State) (q : Nat) (m : List Seg) (g : Nat) : Prop :=
  ∃ sg, segOf m (64 * g) = some sg ∧ s.refillOk q sg g = true ∧ s.poisoned (sg.granuleAt g) 2560 = false

theorem granuleOk_of_refills {q : Nat} {s t : State} {m : List Seg} {g : Nat} (h : State.Refills q s t) (hg : s.granuleOk q m g) :
    t.granuleOk q m g := by
  obtain ⟨sg, hs, hr, hp⟩ := hg
  exact ⟨sg, hs, (refillOk_of_refills h sg g).trans hr, poisoned_of_noMorePoison h.poison hp⟩

section
variable {s : State} {q : Nat} {m : List Seg} {ecc : State → Nat → Bool → Ecc} (hecc : ∀ x g, ecc x g true = .clean)
include hecc

/-- Such a granule becomes resident where the second read, if there is one, finds nothing uncorrectable (R229). -/
theorem loadGranule_loads {g : Nat} (hg : s.granuleOk q m g) :
    State.Refills q s (s.loadGranule q m ecc g) ∧ ((s.loadGranule q m ecc g).seq q).has g = true := by
  obtain ⟨sg, hs, hr, hp⟩ := hg
  have first := (refills_useFree s q).trans (refills_eccRead s.useFree q (sg.granuleAt g) 2560 reqRefill (ecc s g false))
  unfold State.loadGranule
  simp only [hs, hr, Bool.true_eq_false, if_false]
  by_cases h1 : (s.useFree.eccRead (sg.granuleAt g) 2560 reqRefill (ecc s g false)).2 = true
  · simp only [h1, if_true, hecc]
    rw [if_neg (by simp [eccRead_ok (poisoned_of_noMorePoison first.poison hp)])]
    exact ⟨(first.trans (refills_eccRead _ q _ _ _ _)).trans (refills_fillGranule _ q sg g), has_fillGranule _ q sg g⟩
  · simp only [h1, Bool.false_eq_true, if_false]
    exact ⟨first.trans (refills_fillGranule _ q sg g), has_fillGranule _ q sg g⟩

theorem loadGranules_fold (l : List Nat) (hl : ∀ g ∈ l, s.granuleOk q m g) :
    State.Refills q s (l.foldl (fun x g => x.loadGranule q m ecc g) s) ∧
      ∀ g ∈ l, ((l.foldl (fun x g => x.loadGranule q m ecc g) s).seq q).has g = true := by
  induction l generalizing s with
  | nil => exact ⟨State.Refills.refl q s, fun _ h => absurd h List.not_mem_nil⟩
  | cons a t ih =>
    obtain ⟨hstep, hhas⟩ := loadGranule_loads hecc (hl a List.mem_cons_self)
    obtain ⟨hrest, hall⟩ := ih fun g hg => granuleOk_of_refills hstep (hl g (List.mem_cons_of_mem _ hg))
    refine ⟨hstep.trans hrest, fun g hg => ?_⟩
    rcases List.mem_cons.mp hg with rfl | hg
    · exact hrest.has g hhas
    · exact hall g hg

/-- Every granule of a list that can be read is resident once the list is loaded. -/
theorem loadGranules_loads (l : List Nat) (hl : ∀ g ∈ l, s.granuleOk q m g) :
    State.Refills q s (s.loadGranules q m l ecc) ∧ (l.all fun g => ((s.loadGranules q m l ecc).seq q).has g) = true := by
  rw [loadGranules_eq]
  obtain ⟨hrefills, hall⟩ := loadGranules_fold hecc (l.filter fun g => !(s.seq q).has g) fun g hg => hl g (List.mem_filter.mp hg).1
  refine ⟨hrefills, List.all_eq_true.mpr fun g hg => ?_⟩
  by_cases h : (s.seq q).has g = true
  · exact hrefills.has g h
  · exact hall g (List.mem_filter.mpr ⟨hg, by simpa using h⟩)

end

/-! ### The reads of a prime -/

theorem refills_entryReads (i : Nat) (errs : List (PrimeRead × Ecc)) : State.Refills q s (s.entryReads q i errs) := by
  unfold State.entryReads
  dsimp only
  split
  · exact refills_eccRead s q _ _ _ _
  · exact (refills_eccRead s q _ _ _ _).trans (refills_eccRead _ q _ _ _ _)

theorem refills_primeReads (errs : List (PrimeRead × Ecc)) : State.Refills q s (s.primeReads q errs) := by
  unfold State.primeReads
  dsimp only
  split
  · exact State.Refills.refl q s
  · exact foldl_keeps (State.Refills q s) (fun x i hx => hx.trans (refills_entryReads x q i errs)) _ (State.Refills.refl q s)

end Sys2Proof.Machine

/-!
PROOF. The streamer of a sequencer (R211 to R230): MSTATE, the commands that write its registers, the end of a prime, the start
window and the arrival of a granule; and O24.
-/

namespace Sys2Proof.Machine

variable (s : State) (q : Nat)

/-! ### MSTATE -/

theorem seqs_setMstate (v : Nat) : (s.setMstate q v).seqs = s.seqs := by
  unfold State.setMstate
  dsimp only
  split
  · rw [State.event_seqs, State.wb_seqs, State.wb_seqs, State.wf_seqs]
  · rw [State.wb_seqs, State.wb_seqs, State.wf_seqs]

/-- A register of the control page that neither shows MSTATE nor takes its event. -/
theorem rd_setMstate (v : Nat) {o : Nat}
    (h : o % 0x1000 ≠ Off.pgEvt ∧ o % 0x1000 ≠ Off.seqStrmStat ∧ o % 0x1000 ≠ Off.seqStrmCtrl) :
    (s.setMstate q v).rd .seq q o = s.rd .seq q o := by
  obtain ⟨he, hs, hc⟩ := h
  have hw : (((s.wf .seq q Off.seqStrmStat 0 3 v).wb .seq q Off.seqStrmStat 3 (v == mReady)).wb .seq q Off.seqStrmCtrl 0
      (v == mMapping)).rd .seq q o = s.rd .seq q o := by
    rw [rd_wb_offset _ _ _ _ _ _ _ _ hc, rd_wb_offset _ _ _ _ _ _ _ _ hs, rd_wf_offset _ _ _ _ _ _ _ _ _ hs]
  unfold State.setMstate
  dsimp only
  split
  · exact (rd_event _ .seq q 5 .seq q o (by simp [postReg]) (Or.inr (Or.inr he))).trans hw
  · exact hw

/-- MSTATE reads as stored. -/
theorem mstate_setMstate {v : Nat} (hv : v < 8) : (s.setMstate q v).mstate q = v := by
  have hw : (((s.wf .seq q Off.seqStrmStat 0 3 v).wb .seq q Off.seqStrmStat 3 (v == mReady)).wb .seq q Off.seqStrmCtrl 0
      (v == mMapping)).rf .seq q Off.seqStrmStat 0 3 = v := by
    rw [rf_of_rd (rd_wb_offset _ _ _ _ _ _ _ _ (by decide)), rf_wb_other _ _ _ _ _ _ _ _ (by decide) (by decide),
      rf_wf_same _ _ _ _ _ _ _ (by decide), Nat.mod_eq_of_lt (show v < 2 ^ 3 from hv)]
  unfold State.mstate State.setMstate
  dsimp only
  split
  · exact (rf_of_rd (rd_event _ .seq q 5 .seq q _ (by simp [postReg]) (Or.inr (Or.inr (by decide)))) 0 3).trans hw
  · exact hw

theorem seq_setMstate (v : Nat) : (s.setMstate q v).seq q = s.seq q := seq_of_seqs (seqs_setMstate s q v) q

theorem rd_setSeq (v : SeqSt) (k : PageKind) (i o : Nat) : (s.setSeq q v).rd k i o = s.rd k i o := rfl

/-- Eviction moves no register. -/
theorem rd_evictIdle (k : PageKind) (i o : Nat) : (s.evictIdle q).rd k i o = s.rd k i o := by
  unfold State.evictIdle
  split
  · exact rd_setSeq s q _ k i o
  · rfl

/-! ### SEQ_STRM_CTRL, SEQ_START_ADDR and SEQ_SDIR_N -/

variable {s} {q}

theorem seqState_of_not_active (h : s.seqActive q = false) : s.seqState q = sIdle := by
  simpa [State.seqActive, State.seqState, sIdle] using h

/-- A PRIME that nothing refuses (R211): the map is dropped, VALID of the result is clear and mapping starts. -/
theorem strmCtrlWrite_prime {v : Word} (hp : tbit v 0 = true) (hl : 8 ≤ fld v 8 8) (he : s.pageEn .seq q = true)
    (ha : s.seqActive q = false) (hm : s.mstate q ≠ mMapping) :
    ∃ x : State, strmCtrlWrite q v s =
      ((x.setSeq q { x.seq q with map := none, resident := [], recent := [], retried := [] }).startResult .seq q
        Off.seqPrimeResult).setMstate q mMapping := by
  have hidle := seqState_of_not_active ha
  have hrun : s.seqState q ≠ sRun ∧ s.seqState q ≠ sHold := by rw [hidle]; decide
  unfold strmCtrlWrite
  dsimp only
  rw [if_neg (by omega), if_pos hrun, if_neg (by simp [hp]), if_neg (by simp [he]), if_neg (by simp [ha]), if_neg hm]
  exact ⟨_, rfl⟩

/-- A PRIME, its PANIC_LVL being at least 8, of an idle enabled sequencer starts mapping with an empty map. -/
theorem prime_takes {r : Requester} {q : Fin 8}
    (hacc : s.accepts r .seq q Off.seqStrmCtrl (putBit (s.rd .seq q Off.seqStrmCtrl) 0 true) = true)
    (hl : 8 ≤ fld (putBit (s.rd .seq q Off.seqStrmCtrl) 0 true) 8 8) (he : s.pageEn .seq q = true) (ha : s.seqActive q = false)
    (hm : s.mstate q ≠ mMapping) :
    ∃ t, exec (.prime r q) s = .next t ∧ t.mstate q = mMapping ∧ (t.seq q).map = none ∧ (t.seq q).resident = [] ∧
      t.rb .seq q Off.seqPrimeResult 16 = false := by
  obtain ⟨x, hx⟩ := strmCtrlWrite_prime (tbit_putBit_same _ 0 true (by decide)) hl he ha hm
  refine ⟨_, congrArg Host.Outcome.next ((guarded_of_accepts hacc _).trans hx), mstate_setMstate _ q (by decide), ?_⟩
  rw [seq_setMstate, rb_of_rd (rd_setMstate _ q _ (by decide)), startResult_valid]
  have hseq : ∀ v : SeqSt, ((x.setSeq q v).startResult .seq q Off.seqPrimeResult).seq q = v := fun v =>
    (seq_of_seqs (State.startResult_seqs ..) q).trans (seq_setSeq_same x q v)
  rw [hseq]
  exact ⟨rfl, rfl, rfl⟩

/-- A start address is stored, and a READY sequencer out of a run loads its start window again (R213). -/
theorem startAddrWrite_takes {r : Requester} {q : Fin 8} {a : BitVec 24}
    (hacc : s.accepts r .seq q Off.seqStartAddr (word a.toNat) = true) :
    ∃ t, exec (.startAddrWrite r q a) s = .next t ∧ t.rf .seq q Off.seqStartAddr 0 24 = a.toNat ∧
      (s.seqActive q = false → s.mstate q = mReady → t.mstate q = mFilling) := by
  refine ⟨_, congrArg Host.Outcome.next (guarded_of_accepts hacc _), ?_⟩
  unfold startAddrWrite
  dsimp only
  rw [plainWrite_of_row (k := .seq) (o := Off.seqStartAddr) rfl]
  generalize hw : mergeWrite _ _ _ = w
  have hf : fld w 0 24 = a.toNat := by
    rw [← hw, fld_mergeWrite rfl rfl (by decide), fld_word _ _ _ (by decide), Nat.pow_zero, Nat.div_one, Nat.mod_eq_of_lt a.isLt]
  have hrd : (s.wr .seq q Off.seqStartAddr w).rf .seq q Off.seqStartAddr 0 24 = a.toNat := (rf_wr_same ..).trans hf
  split
  · refine ⟨?_, fun _ _ => ?_⟩
    · rw [rf_of_rd (rd_evictIdle _ q _ _ _), rf_of_rd (rd_setMstate _ q _ (by decide)), hrd]
    · rw [State.mstate, rf_of_rd (rd_evictIdle _ q _ _ _)]
      exact mstate_setMstate _ q (by decide)
  · rename_i h
    exact ⟨hrd, fun ha hm => absurd ⟨ha, Or.inl hm⟩ h⟩

/-- A directory size written to an idle sequencer is stored, and the map is dropped (R216, R230). -/
theorem sdirWrite_takes {r : Requester} {q : Fin 8} {v : Word} (hacc : s.accepts r .seq q Off.seqSdirN v = true)
    (ha : s.seqActive q = false) (hm : s.mstate q ≠ mMapping) :
    ∃ t, exec (.sdirWrite r q 2 v) s = .next t ∧ t.rf .seq q Off.seqSdirN 0 11 = fld v 0 11 ∧ t.mstate q = mNomap ∧
      (t.seq q).map = none := by
  have hw : sdirWrite r q 2 v s = ((s.plainWrite .seq q Off.seqSdirN v).setSeq q
      { (s.plainWrite .seq q Off.seqSdirN v).seq q with map := none, resident := [], recent := [], retried := [] }).setMstate q mNomap :=
    if_neg (by simp [ha, hm])
  refine ⟨_, congrArg Host.Outcome.next ((guarded_of_accepts hacc _).trans hw), ?_, mstate_setMstate _ q (by decide), ?_⟩
  · rw [rf_of_rd (rd_setMstate _ q _ (by decide)), rf_of_rd (rd_setSeq _ q _ _ _ _),
      plainWrite_of_row (k := .seq) (o := Off.seqSdirN) rfl, rf_wr_same, fld_mergeWrite rfl rfl (by decide)]
  · rw [seq_setMstate, seq_setSeq_same]

/-! ### The end of a prime, and the start window -/

/-- A result without CODE or other fields. -/
theorem storeResult_ok (s : State) (k : PageKind) (i o : Nat) :
    (s.storeResult k i o 0).rf k i o 8 4 = 0 ∧ (s.storeResult k i o 0).rb k i o 16 = true := by
  refine ⟨?_, (storeResult_fields s k i o (code := 0) 0 (by decide)).2⟩
  rw [State.rf, storeResult_rd, fld_word _ _ _ (by decide)]
  omega

theorem granuleOk_setSeq {m : List Seg} {g : Nat} (v : SeqSt) (h : s.granuleOk q m g) : (s.setSeq q v).granuleOk q m g := h

/-- A prime whose directory passes and whose start window reads ends READY with the map and code 0 (R211, R232). -/
theorem primeDone_takes {q : Fin 8} {i : Nat} {m : List Seg} (hm : s.mstate q = mMapping) (hc : s.primeCheck q [] = (0, i, m))
    (hp : s.hbmBit 10 = false) (hw : ∀ g ∈ s.startWindow q m, s.granuleOk q m g) :
    ∃ t, exec (.primeDone q []) s = .next t ∧ t.mstate q = mReady ∧ (t.seq q).map = some m ∧
      t.rf .seq q Off.seqPrimeResult 8 4 = 0 ∧ t.rb .seq q Off.seqPrimeResult 16 = true := by
  have hreads := refills_primeReads s q []
  generalize hx : s.primeReads q [] = x at hreads
  obtain ⟨hload, hall⟩ := loadGranules_loads (s := x.setSeq q { x.seq q with map := some m }) (q := q) (m := m)
    (ecc := fun _ g second => eccOf [] (PrimeRead.isGranule g second)) (fun _ _ => rfl) (s.startWindow q m)
    fun g hg => granuleOk_setSeq _ (granuleOk_of_refills hreads (hw g hg))
  have hmap := hload.map
  rw [seq_setSeq_same] at hmap
  have hgo : ¬(s.mstate q ≠ mMapping ∨ s.rb .hbm 0 Off.hbmStat 10 = true) := by
    rintro (h | h)
    · exact h hm
    · exact Bool.false_ne_true (hp.symm.trans h)
  change ∃ t, execPrimeDone q [] s = .next t ∧ _
  unfold execPrimeDone
  rw [if_neg hgo]
  simp only [hc, hx]
  generalize State.loadGranules _ _ _ _ _ = y at hall hmap ⊢
  obtain ⟨hcode, hvalid⟩ := storeResult_ok y .seq q Off.seqPrimeResult
  refine ⟨_, if_pos hall, mstate_setMstate _ q (by decide), ?_, ?_, ?_⟩
  · rw [seq_setMstate, seq_of_seqs (State.storeResult_seqs ..), hmap]
  · rw [rf_of_rd (rd_setMstate _ q _ (by decide)), hcode]
  · rw [rb_of_rd (rd_setMstate _ q _ (by decide)), hvalid]

/-- A start window that reads makes a FILLING sequencer READY (R213). -/
theorem startWindowLoaded_takes {q : Fin 8} {m : List Seg} (hmap : (s.seq q).map = some m) (hm : s.mstate q = mFilling)
    (ha : s.seqActive q = false) (hp : s.hbmBit 10 = false) (hs : (segOf m (s.rf .seq q Off.seqStartAddr 0 24)).isSome = true)
    (hw : ∀ g ∈ s.startWindow q m, s.granuleOk q m g) :
    ∃ t, exec (.startWindowLoaded q) s = .next t ∧ t.mstate q = mReady ∧ (t.seq q).map = some m := by
  obtain ⟨hload, hall⟩ := loadGranules_loads (s := s.setSeq q { s.seq q with retried := [] }) (q := q) (m := m) (ecc := freeReads)
    (fun _ _ => rfl) (s.startWindow q m) fun g hg => granuleOk_setSeq _ (hw g hg)
  have hkept := hload.map
  rw [seq_setSeq_same] at hkept
  refine ⟨_, ?_, mstate_setMstate _ q (by decide), by rw [seq_setMstate, hkept, hmap]⟩
  change execStartWindowLoaded q s = _
  unfold execStartWindowLoaded
  dsimp only
  split
  · rename_i m' hmap'
    obtain rfl := Option.some.inj (hmap.symm.trans hmap')
    exact (if_pos ⟨hm, ha, hs, hp⟩).trans (congrArg Host.Outcome.next (if_pos hall))
  · rename_i hnone
    exact absurd (hmap.symm.trans hnone) (Option.some_ne_none m)

/-! ### A granule arrives -/

theorem seqs_portPanic (s : State) (b : Nat) : (s.portPanic b).seqs = s.seqs := by
  unfold State.portPanic
  split
  · rfl
  · rw [State.event_seqs, State.sat_seqs, State.wb_seqs]

/-- Panic of the refill port is of the registers alone. -/
theorem seqs_panicUpdate (s : State) (q : Nat) (m : List Seg) (a : Nat) : (s.panicUpdate q m a).seqs = s.seqs := by
  unfold State.panicUpdate State.portCalm
  dsimp only
  split
  · rw [State.wf_seqs]
  · split
    · split
      · rw [State.wf_seqs]
      · rw [seqs_portPanic, State.event_seqs, State.sat_seqs, State.wb_seqs, State.wf_seqs]
    · rw [State.wb_seqs, State.wb_seqs, State.wf_seqs]

/-- What the arrival of a granule leaves of the sequencers: the manger with the granule. -/
theorem granuleResident_takes {q : Fin 8} {g : Fin 262144} {m : List Seg} {sg : Seg} (hmap : (s.seq q).map = some m)
    (hm : s.mstate q = mStreaming) (hd : s.seqState q ≠ sDrain) (hn : (s.seq q).has g.val = false) (hp : s.hbmBit 10 = false)
    (hwant : (s.wanted q m (s.seq q).next).contains g.val = true) (hs : segOf m (64 * g.val) = some sg)
    (hr : s.refillOk q sg g = true) (he : (s.eccRead (sg.granuleAt g.val) 2560 reqRefill .clean).2 = false) :
    ∃ t, exec (.granuleResident q g .clean) s = .next t ∧
      t.seqs = ((s.eccRead (sg.granuleAt g.val) 2560 reqRefill .clean).1.fillGranule q sg g).seqs := by
  have hgo : ¬(s.mstate q ≠ mStreaming ∨ s.seqState q = sDrain ∨ (s.seq q).has g = true ∨ s.rb .hbm 0 Off.hbmStat 10 = true ∨
      (s.wanted q m (s.seq q).next).contains g.val = false) := by
    rintro (h | h | h | h | h)
    · exact h hm
    · exact hd h
    · exact Bool.false_ne_true (hn.symm.trans h)
    · exact Bool.false_ne_true (hp.symm.trans h)
    · exact Bool.false_ne_true (h.symm.trans hwant)
  change ∃ t, execGranuleResident q g .clean s = .next t ∧ _
  unfold execGranuleResident
  simp only [hmap, hs]
  rw [if_neg hgo, if_neg (by simp [hr]), if_neg (by simp [he])]
  split
  · exact ⟨_, rfl, by rw [State.wb_seqs, State.wb_seqs, seqs_panicUpdate]⟩
  · exact ⟨_, rfl, seqs_panicUpdate ..⟩

/-- Settles O24: each command of the streamer by its own lemma above. -/
theorem streamCommandsTakeEffect : Obligations.StreamCommandsTakeEffect := by
  unfold Obligations.StreamCommandsTakeEffect
  refine ⟨fun r q s => prime_takes, fun q i m s hm hc hp hw => primeDone_takes hm hc hp hw, fun r q a s => startAddrWrite_takes,
    fun q m s hmap hm ha hp hs hw => startWindowLoaded_takes hmap hm ha hp hs hw, fun r q v s => sdirWrite_takes,
    fun q g m sg s hmap hm hd hn hp hwant hs hr he => ?_⟩
  obtain ⟨t, hexec, hseqs⟩ := granuleResident_takes hmap hm hd hn hp hwant hs hr he
  refine ⟨t, hexec, ?_⟩
  rw [seq_of_seqs hseqs q]
  exact ⟨has_fillGranule _ q sg g, by rw [seq_fillGranule]; rfl⟩

end Sys2Proof.Machine

/-!
PROOF. A write of LOAD on the tick of an LDLV (R99, R101, R123): O14 and O15.
-/

namespace Sys2Proof.Machine

/-! ### Plain writes and stalls -/

section
variable (s : State)

/-- A plain write is a write of its register, or, where the page has none, nothing. -/
theorem plainWrite_cases (k : PageKind) (i o : Nat) (v : Word) :
    (∃ w, s.plainWrite k i o v = s.wr k i o w) ∨ s.plainWrite k i o v = s := by
  unfold State.plainWrite
  split
  · exact Or.inl ⟨_, rfl⟩
  · exact Or.inr rfl

theorem rd_plainWrite_off (k k' : PageKind) {i i' o o' : Nat} (v : Word) (h : o' % 0x1000 ≠ o % 0x1000) :
    (s.plainWrite k i o v).rd k' i' o' = s.rd k' i' o' := by
  obtain ⟨w, e⟩ | e := plainWrite_cases s k i o v
  · rw [e, rd_wr_off s k k' w h]
  · rw [e]

@[simp] theorem stalls_plainWrite (k : PageKind) (i o : Nat) (v : Word) : (s.plainWrite k i o v).stalls = s.stalls := by
  obtain ⟨w, e⟩ | e := plainWrite_cases s k i o v
  · rw [e, State.wr_stalls]
  · rw [e]

@[simp] theorem now_plainWrite (k : PageKind) (i o : Nat) (v : Word) : (s.plainWrite k i o v).now = s.now := by
  obtain ⟨w, e⟩ | e := plainWrite_cases s k i o v
  · rw [e, State.wr_now]
  · rw [e]

theorem stall_of_stalls {s t : State} (h : t.stalls = s.stalls) (st : Nat) : t.stall st = s.stall st := by
  rw [State.stall, State.stall, h]

theorem stall_setStall_same (st : Nat) (v : StallSt) : (s.setStall st v).stall st = v := Store.getD_setD_same _ _ _ _

theorem rd_setStall (st : Nat) (v : StallSt) (k : PageKind) (i o : Nat) : (s.setStall st v).rd k i o = s.rd k i o := rfl

end

/-! ### LOAD on the tick of an LDLV -/

/-- An LDLV gave the stall its strobe on this very tick, accepted or refused. -/
def State.ldlvNow (s : State) (st : Nat) : Bool := decide ((s.stall st).strobeAt = some (s.now, true))

/-- On the tick of an LDLV a LOAD gives no second strobe: LDLV_EN alone is stored (R123, assumption 52). -/
theorem lvlCtrlWrite_of_ldlvNow {s : State} {st : Nat} {v : Word} (hload : tbit v 0 = true) (hen : s.pageEn .lvl st = true)
    (hm : s.mode.dev ≠ .m11) (hs : s.ldlvNow st = true) : lvlCtrlWrite st v s = s.plainWrite .lvl st Off.lvlCtrl v := by
  have hstrobe : ((s.plainWrite .lvl st Off.lvlCtrl v).stall st).strobeAt = some ((s.plainWrite .lvl st Off.lvlCtrl v).now, true) := by
    rw [stall_of_stalls (stalls_plainWrite ..), now_plainWrite]
    exact of_decide_eq_true hs
  unfold lvlCtrlWrite
  dsimp only
  rw [if_neg (by simp [hload]), if_neg (by simp [hen]), if_neg hm, if_pos hstrobe]

/-- A control word with its command bit set and one option. -/
theorem tbit_controlWord (on : Bool) : tbit (word (1 + 2 * bit on)) 0 = true ∧ tbit (word (1 + 2 * bit on)) 1 = on := by
  cases on <;> decide

/-- A LOAD on the tick of an LDLV leaves LVL_STAT, where SETTLING and LAST_REFUSED stand. -/
theorem rd_lvlStat_of_loadStrobe_ldlvNow {s t : State} {r : Requester} {st : Fin 128} {en : Bool}
    (hacc : s.accepts r .lvl st Off.lvlCtrl (word (1 + 2 * bit en)) = true) (hen : s.pageEn .lvl st = true)
    (hm : s.mode.dev ≠ .m11) (hs : s.ldlvNow st = true) (h : exec (.loadStrobe r st en) s = .next t) :
    t.rd .lvl st Off.lvlStat = s.rd .lvl st Off.lvlStat := by
  have hexec : exec (.loadStrobe r st en) s = .next (s.plainWrite .lvl st Off.lvlCtrl (word (1 + 2 * bit en))) :=
    congrArg Host.Outcome.next ((guarded_of_accepts hacc _).trans (lvlCtrlWrite_of_ldlvNow (tbit_controlWord en).1 hen hm hs))
  obtain rfl := Host.Outcome.next.inj (hexec.symm.trans h)
  exact rd_plainWrite_off s .lvl .lvl _ (by decide)

/-! ### A stall on the tick of an LDLV -/

/-- The part in M4, in which function 0 reaches the pages and the LVL page of stall 5 is enabled. -/
def levelsOn : State :=
  { State.reset with
    mode := { State.reset.mode with dev := .m4 }
    fns := [(0, { FnCfg.reset with mse := true })] }.wb .lvl 5 Off.pgCtrl 0 true

/-- Stall 5 on the tick of an LDLV's strobe, with `hi` written since as the preload of CLAMP_HI of every channel. -/
def ldlvStrobed (hi : Nat) : State :=
  ((upto 16).foldl (fun x c => x.wf .lvl 5 (Off.lvlPre c 5) 0 16 hi) levelsOn).strobed 5 levelsOn.now true

/-- The write of LOAD that the two obligations speak of passes every check, and LVL_STAT reads 0 before it. -/
theorem ldlvStrobed_admits {hi : Nat} (h : hi = 0 ∨ hi = 0x8000) :
    (ldlvStrobed hi).accepts (.fn 0) .lvl (5 : Fin 128) Off.lvlCtrl (word (1 + 2 * bit false)) = true ∧
      (ldlvStrobed hi).pageEn .lvl (5 : Fin 128) = true ∧ (ldlvStrobed hi).mode.dev ≠ .m11 ∧
      (ldlvStrobed hi).ldlvNow (5 : Fin 128) = true ∧ (ldlvStrobed hi).rd .lvl (5 : Fin 128) Off.lvlStat = 0 := by
  rcases h with rfl | rfl <;> decide +kernel

/-- With CLAMP_HI at 0x8000 every channel passes the check of R101, and with 0 channel 0 fails it. -/
theorem ldlvStrobed_levelsOk :
    (∀ c < 16, (ldlvStrobed 0x8000).levelsOk (5 : Fin 128) (Off.lvlPre c) = true) ∧
      (ldlvStrobed 0).levelsOk (5 : Fin 128) (Off.lvlPre (0 : Fin 16)) = false := by
  decide +kernel

/-- No bit of LVL_STAT is set by the LOAD. -/
theorem rb_lvlStat_of_loadStrobe_ldlvStrobed {hi : Nat} {t : State} (h : hi = 0 ∨ hi = 0x8000)
    (hexec : exec (.loadStrobe (.fn 0) 5 false) (ldlvStrobed hi) = .next t) (b : Nat) :
    t.rb .lvl (5 : Fin 128) Off.lvlStat b = false := by
  obtain ⟨hacc, hen, hm, hnow, hstat⟩ := ldlvStrobed_admits h
  rw [State.rb, rd_lvlStat_of_loadStrobe_ldlvNow hacc hen hm hnow hexec, hstat]
  exact Nat.zero_testBit b

/-- Refutes O14: its clause on load strobes leaves out the case of R123 that an LDLV falls on the same cycle. In
`ldlvStrobed 0x8000` the preloads written since the LDLV's strobe pass the check of R101, yet a LOAD on the same tick gives no
second strobe: it copies nothing, and SETTLING stays 0. The clause lacks the hypothesis that no LDLV gave the stall a strobe on
this tick. -/
theorem not_levelCommandsTakeEffect : ¬ Obligations.LevelCommandsTakeEffect := by
  unfold Obligations.LevelCommandsTakeEffect
  rintro ⟨strobes, -⟩
  have hhi : (0x8000 : Nat) = 0 ∨ (0x8000 : Nat) = 0x8000 := Or.inr rfl
  obtain ⟨hacc, hen, hm, -⟩ := ldlvStrobed_admits hhi
  obtain ⟨t, hexec, -, hsettling⟩ := strobes (.fn 0) 5 false (ldlvStrobed 0x8000) hacc hen hm ldlvStrobed_levelsOk.1
  exact Bool.false_ne_true ((rb_lvlStat_of_loadStrobe_ldlvStrobed hhi hexec 1).symm.trans hsettling)

/-- Refutes O15 by the same case of R123. In `ldlvStrobed 0` the preloads written since the LDLV's strobe fail the check of R101,
and a LOAD on the same tick is no strobe, so that nothing is refused and LAST_REFUSED stays 0. -/
theorem not_badLevelsRefuseTheStrobe : ¬ Obligations.BadLevelsRefuseTheStrobe := by
  unfold Obligations.BadLevelsRefuseTheStrobe
  intro refuses
  have hhi : (0 : Nat) = 0 ∨ (0 : Nat) = 0x8000 := Or.inl rfl
  obtain ⟨hacc, hen, hm, -⟩ := ldlvStrobed_admits hhi
  obtain ⟨t, hexec, -, -, hrefused, -⟩ := refuses (.fn 0) 5 false 0 (ldlvStrobed 0) hacc hen hm ldlvStrobed_levelsOk.2
  exact Bool.false_ne_true ((rb_lvlStat_of_loadStrobe_ldlvStrobed hhi hexec 2).symm.trans hrefused)

end Sys2Proof.Machine

/-!
PROOF. Switch batches (R106, R110, R113, R123) and the wear level (R114): O16.
-/

namespace Sys2Proof.Machine

section
variable (s : State)

/-! ### Masks of 16 switches -/

/-- Bit `c` of a field at bit 0 is bit `c` of the register. -/
theorem natBit_rf (k : PageKind) (i o n c : Nat) : natBit (s.rf k i o 0 n) c = (decide (c < n) && s.rb k i o c) := by
  simp [natBit, State.rf, State.rb, fld, tbit, Nat.testBit_mod_two_pow]

/-- Bit `c` of a register whose low half has been stored. -/
theorem rb_wf_mask (k : PageKind) (i o m : Nat) {c : Nat} (hc : c < 16) : (s.wf k i o 0 16 m).rb k i o c = natBit m c := by
  have h := natBit_rf (s.wf k i o 0 16 m) k i o 16 c
  rw [rf_wf_same _ _ _ _ _ _ _ (by decide), natBit, Nat.testBit_mod_two_pow, decide_eq_true hc, Bool.true_and, Bool.true_and] at h
  exact h.symm

/-- A mask of the switches of 16 channels without those of it that move to open. -/
theorem natBit_opened (cur mv tgt : Nat) (n : Nat → Nat) {c : Nat} (hc : c < 16) :
    natBit (clearMask cur (maskOf 16 fun d => natBit cur d && natBit mv d && !natBit tgt d && !natBit 0 (n d))) c =
      (natBit cur c && !(natBit mv c && !natBit tgt c)) := by
  have hheld : natBit 0 (n c) = false := Nat.zero_testBit _
  rw [clearMask, natBit_maskOf, natBit_maskOf, decide_eq_true hc, hheld]
  cases natBit cur c <;> simp

/-- A mask of the switches of 16 channels with those outside it that move to closed. -/
theorem natBit_closed (cur mv tgt : Nat) (n : Nat → Nat) {c : Nat} (hc : c < 16) :
    natBit (cur ||| maskOf 16 fun d => !natBit cur d && natBit mv d && natBit tgt d && !natBit 0 (n d)) c =
      (natBit cur c || (natBit mv c && natBit tgt c)) := by
  have hheld : natBit 0 (n c) = false := Nat.zero_testBit _
  rw [natBit, Nat.testBit_or, ← natBit, ← natBit, natBit_maskOf, decide_eq_true hc, hheld]
  cases natBit cur c <;> simp

/-! ### TDR runs that a batch ends -/

theorem rd_timEnd_kind (st c e : Nat) {k : PageKind} (h : k ≠ .tim) (i o : Nat) : (s.timEnd st c e).rd k i o = s.rd k i o := by
  unfold State.timEnd
  split
  · exact rd_wf_kind _ st _ i o _ _ _ h
  · rfl

theorem stalls_timEnd (st c e : Nat) : (s.timEnd st c e).stalls = s.stalls := by
  unfold State.timEnd
  split
  · exact (State.wf_stalls ..).trans (State.setTim_stalls ..)
  · rfl

/-- What the end of each TDR run keeps, the batch keeps as it begins to move. -/
theorem batchTdr_keeps (P : State → Prop) (st : Nat) (b : Batch) (hP : ∀ x c, P x → P (x.timEnd st c endPreempt)) (h : P s) :
    P (s.batchTdr st b) := by
  unfold State.batchTdr
  split
  · exact h
  · refine foldl_keeps P (fun x c hx => ?_) _ h
    split
    · exact hP x c hx
    · exact hx

theorem rd_batchTdr_kind (st : Nat) (b : Batch) {k : PageKind} (h : k ≠ .tim) (i o : Nat) :
    (s.batchTdr st b).rd k i o = s.rd k i o :=
  batchTdr_keeps s (fun x => x.rd k i o = s.rd k i o) st b (fun x c hx => (rd_timEnd_kind x st c _ h i o).trans hx) rfl

theorem stalls_batchTdr (st : Nat) (b : Batch) : (s.batchTdr st b).stalls = s.stalls :=
  batchTdr_keeps s (fun x => x.stalls = s.stalls) st b (fun x c hx => (stalls_timEnd x st c _).trans hx) rfl

/-! ### The switches that a batch moves -/

/-- The switches of a stall after a step of a batch has stored `d` and `p` (R106). -/
theorem rb_storeSwitches (st d p : Nat) (v : StallSt) {c : Nat} (hc : c < 16) :
    let t := (((s.wf .swm st Off.swmCurDrv 0 16 d).wf .swm st Off.swmCurPmu 0 16 p).setStall st v).pullUpdate st
    t.rb .swm st Off.swmCurDrv c = natBit d c ∧ t.rb .swm st Off.swmCurPmu c = natBit p c := by
  dsimp only
  constructor
  · rw [rb_of_rd (rd_pullUpdate_kind _ st st _ (by decide)), rb_of_rd (rd_setStall _ st _ .swm st _),
      rb_of_rd (rd_wf_offset _ .swm st _ st _ _ _ _ (by decide)), rb_wf_mask _ _ _ _ _ hc]
  · rw [rb_of_rd (rd_pullUpdate_kind _ st st _ (by decide)), rb_of_rd (rd_setStall _ st _ .swm st _), rb_wf_mask _ _ _ _ _ hc]

/-- Step 4 opens the closed switches that move to open (R106). -/
theorem rb_batchOpen (st : Nat) (b : Batch) {c : Nat} (hc : c < 16) :
    (s.batchOpen st b 0).rb .swm st Off.swmCurDrv c = (s.rb .swm st Off.swmCurDrv c && !(natBit b.mvDrv c && !natBit b.tgtDrv c)) ∧
      (s.batchOpen st b 0).rb .swm st Off.swmCurPmu c =
        (s.rb .swm st Off.swmCurPmu c && !(natBit b.mvPmu c && !natBit b.tgtPmu c)) := by
  unfold State.batchOpen
  obtain ⟨hd, hp⟩ := rb_storeSwitches _ st _ _ _ hc
  refine ⟨hd.trans ?_, hp.trans ?_⟩ <;> rw [natBit_opened _ _ _ _ hc, natBit_rf, decide_eq_true hc, Bool.true_and]

/-- Step 6 closes the open switches that move to closed (R106). -/
theorem rb_batchClose (st : Nat) (b : Batch) {c : Nat} (hc : c < 16) :
    (s.batchClose st b 0).rb .swm st Off.swmCurDrv c = (s.rb .swm st Off.swmCurDrv c || (natBit b.mvDrv c && natBit b.tgtDrv c)) ∧
      (s.batchClose st b 0).rb .swm st Off.swmCurPmu c =
        (s.rb .swm st Off.swmCurPmu c || (natBit b.mvPmu c && natBit b.tgtPmu c)) := by
  unfold State.batchClose
  obtain ⟨hd, hp⟩ := rb_storeSwitches _ st _ _ _ hc
  refine ⟨hd.trans ?_, hp.trans ?_⟩ <;> rw [natBit_closed _ _ _ _ hc, natBit_rf, decide_eq_true hc, Bool.true_and]

/-- A batch that has moved whole stands at its targets, and leaves the switches that it does not move. -/
theorem rb_batchMove (st : Nat) (b : Batch) {c : Nat} (hc : c < 16) :
    (s.batchMove st b 0 0 true).rb .swm st Off.swmCurDrv c =
        (if natBit b.mvDrv c then natBit b.tgtDrv c else s.rb .swm st Off.swmCurDrv c) ∧
      (s.batchMove st b 0 0 true).rb .swm st Off.swmCurPmu c =
        (if natBit b.mvPmu c then natBit b.tgtPmu c else s.rb .swm st Off.swmCurPmu c) := by
  have moved : ∀ cur mv tgt : Bool, ((cur && !(mv && !tgt)) || (mv && tgt)) = if mv then tgt else cur := by decide
  obtain ⟨hopenD, hopenP⟩ := rb_batchOpen s st b hc
  obtain ⟨hcloseD, hcloseP⟩ := rb_batchClose (s.batchOpen st b 0) st b hc
  rw [State.batchMove, if_pos rfl, hcloseD, hcloseP, hopenD, hopenP, moved, moved]
  exact ⟨rfl, rfl⟩

/-! ### The end of a batch -/

/-- The end of a batch moves no register of the SWM page but SWM_STAT, SWM_RESULT and PG_EVT. -/
theorem rd_batchEnd (st code : Nat) {o : Nat}
    (h : o % 0x1000 ≠ Off.pgEvt ∧ o % 0x1000 ≠ Off.swmStat ∧ o % 0x1000 ≠ Off.swmResult) :
    (s.batchEnd st code).rd .swm st o = s.rd .swm st o := by
  obtain ⟨he, hs, hr⟩ := h
  unfold State.batchEnd
  dsimp only
  rw [rd_event _ .swm st 1 .swm st o (by simp [postReg]) (Or.inr (Or.inr he)), State.storeResult,
    rd_wr_offset _ _ _ _ _ _ _ hr, rd_wb_offset _ _ _ _ _ _ _ _ hs, rd_setStall]

/-- The end of a batch takes it from the stall and clears BUSY. -/
theorem batchEnd_idle (st code : Nat) :
    ((s.batchEnd st code).stall st).batch = none ∧ (s.batchEnd st code).rb .swm st Off.swmStat 0 = false := by
  unfold State.batchEnd
  dsimp only
  constructor
  · rw [stall_of_stalls ((State.event_stalls ..).trans ((State.storeResult_stalls ..).trans (State.wb_stalls ..))),
      stall_setStall_same]
  · rw [rb_of_rd (rd_event _ .swm st 1 .swm st _ (by simp [postReg]) (Or.inr (Or.inr (by decide)))), State.storeResult,
      rb_of_rd (rd_wr_offset _ _ _ _ _ _ _ (by decide)), rb_wb_same _ _ _ _ _ _ (by decide)]

/-- A batch that ends OK stores that code with VALID. -/
theorem batchEnd_ok (st : Nat) :
    (s.batchEnd st 0).rf .swm st Off.swmResult 8 4 = 0 ∧ (s.batchEnd st 0).rb .swm st Off.swmResult 16 = true := by
  unfold State.batchEnd
  dsimp only
  rw [rf_of_rd (rd_event _ .swm st 1 .swm st _ (by simp [postReg]) (Or.inr (Or.inr (by decide)))),
    rb_of_rd (rd_event _ .swm st 1 .swm st _ (by simp [postReg]) (Or.inr (Or.inr (by decide))))]
  exact storeResult_ok _ .swm st Off.swmResult

end

/-! ### The commands -/

section
variable {s : State}

/-- A GO that nothing refuses: the stall holds the batch, BUSY is set and VALID of the result clear (R106). -/
theorem swmCtrlWrite_go {st : Nat} {v : Word} (hgo : tbit v 0 = true) (he : s.pageEn .swm st = true)
    (hb : s.rb .swm st Off.swmStat 0 = false) (hc : (s.plainWrite .swm st Off.swmCtrl v).batchCheck st = 0) :
    let b := s.mkBatch st (s.rf .swm st Off.swmTgtDrv 0 16) (s.rf .swm st Off.swmTgtPmu 0 16) (tbit v 1) (s.stepIn st)
    ((swmCtrlWrite st v s).stall st).batch = some b ∧ (swmCtrlWrite st v s).rb .swm st Off.swmStat 0 = true ∧
      (swmCtrlWrite st v s).rb .swm st Off.swmResult 16 = false := by
  unfold swmCtrlWrite
  dsimp only
  rw [if_neg (by simp [hgo, hb]), if_neg (by simp [he]), if_neg (by simp [hc])]
  refine ⟨?_, ?_, startResult_valid _ _ _ _⟩
  · rw [stall_of_stalls ((State.startResult_stalls ..).trans ((State.wb_stalls ..).trans (stalls_batchTdr ..))), stall_setStall_same]
  · rw [State.startResult, rb_of_rd (rd_wb_offset _ _ _ _ _ _ _ _ (by decide)), rb_wb_same _ _ _ _ _ _ (by decide)]

/-- A waiting batch goes on once no step of the farrier is in the stall, and a running one runs on (R123). -/
theorem switchBatchResume_takes {st : Fin 128} {b : Batch} (hb : (s.stall st).batch = some b) (hs : s.stepIn st = false) :
    ∃ t, exec (.switchBatchResume st) s = .next t ∧ (t.stall st).batch = some { b with waiting := false } := by
  change ∃ t, execSwitchBatchResume st s = .next t ∧ _
  unfold execSwitchBatchResume
  simp only [hb, hs, Bool.not_false, Bool.and_true]
  split
  · exact ⟨_, rfl, by rw [stall_of_stalls (stalls_batchTdr ..), stall_setStall_same]⟩
  · rename_i hw
    refine ⟨s, rfl, hb.trans (congrArg some ?_)⟩
    rw [← Bool.not_eq_true _ |>.mp hw]

/-- The end of a running batch is its whole move and the code OK. -/
theorem exec_switchBatchDone {st : Fin 128} {b : Batch} (hb : (s.stall st).batch = some b) (hw : b.waiting = false) :
    exec (.switchBatchDone st) s = .next (((s.batchTdr st b).batchMove st b 0 0 true).batchEnd st 0) := by
  change execSwitchBatchDone st s = _
  unfold execSwitchBatchDone
  simp [hb, hw]

/-- The switches of a stall at the end of a batch. -/
theorem rb_cur_batchDone (st : Nat) (b : Batch) {c : Nat} (hc : c < 16) :
    (((s.batchTdr st b).batchMove st b 0 0 true).batchEnd st 0).rb .swm st Off.swmCurDrv c =
        (if natBit b.mvDrv c then natBit b.tgtDrv c else s.rb .swm st Off.swmCurDrv c) ∧
      (((s.batchTdr st b).batchMove st b 0 0 true).batchEnd st 0).rb .swm st Off.swmCurPmu c =
        (if natBit b.mvPmu c then natBit b.tgtPmu c else s.rb .swm st Off.swmCurPmu c) := by
  obtain ⟨hd, hp⟩ := rb_batchMove (s.batchTdr st b) st b hc
  rw [rb_of_rd (rd_batchTdr_kind s st b (by decide) st _)] at hd hp
  exact ⟨(rb_of_rd (rd_batchEnd _ st 0 (by decide)) c).trans hd, (rb_of_rd (rd_batchEnd _ st 0 (by decide)) c).trans hp⟩

/-- The flags that follow from a wear level leave the level as written (R114). -/
theorem rd_wearWarnWrite (st : Nat) (v : Word) : (wearWarnWrite st v s).rd .swm st Off.swmWearWarn = v := by
  have hw : (s.plainWrite .swm st Off.swmWearWarn v).rd .swm st Off.swmWearWarn = v := by
    rw [plainWrite_of_row (k := .swm) (o := Off.swmWearWarn) rfl, rd_wr_same, mergeWrite_rw rfl rfl]
  unfold wearWarnWrite
  refine foldl_keeps (fun x : State => x.rd .swm st Off.swmWearWarn = v) (fun x n hx => ?_) _ hw
  dsimp only
  split
  · exact (rd_event _ .swm st 2 .swm st _ (by simp [postReg]) (Or.inr (Or.inr (by decide)))).trans hx
  · exact hx

end

/-- Settles O16: each command by its own lemma above. -/
theorem switchCommandsTakeEffect : Obligations.SwitchCommandsTakeEffect := by
  unfold Obligations.SwitchCommandsTakeEffect
  refine ⟨fun r st hot s hacc he hb hc => ?_, fun st b s => switchBatchResume_takes, fun st b s hb hw => ?_, fun r st v s hacc => ?_⟩
  · obtain ⟨hgo, hhot⟩ := tbit_controlWord hot
    obtain ⟨hbatch, hbusy, hvalid⟩ := swmCtrlWrite_go hgo he hb hc
    exact ⟨_, congrArg Host.Outcome.next (guarded_of_accepts hacc _), hbusy, hvalid, _, hbatch, hhot, rfl, rfl⟩
  · obtain ⟨hnone, hidle⟩ := batchEnd_idle ((s.batchTdr st b).batchMove st b 0 0 true) st 0
    exact ⟨_, exec_switchBatchDone hb hw, hnone, hidle, fun c => rb_cur_batchDone st b c.isLt, batchEnd_ok _ st⟩
  · exact ⟨_, congrArg Host.Outcome.next (guarded_of_accepts hacc _), rd_wearWarnWrite st v⟩

end Sys2Proof.Machine

/-!
PROOF. The timing base (R151 to R156, R708) and the timing sets (R134 to R139): O17, O18, O19 and O56.
-/

namespace Sys2Proof.Machine

section
variable (s : State)

/-! ### One step on the page of every barn -/

/-- A fold of a step over the barns, each step moving the page of its own barn alone, does to each barn what its step does. -/
theorem foldl_barns {α : Type} (view : State → Nat → α) (g : α → α) (f : State → Nat → State)
    (same : ∀ x b, view (f x b) b = g (view x b))
    (other : ∀ x b c, b < 8 → c < 8 → c ≠ b → view (f x b) c = view x c) {b : Nat} (hb : b < 8) :
    view ((upto 8).foldl f s) b = g (view s b) := by
  have upTo : ∀ n ≤ 8, ∀ c < 8, view ((List.range n).foldl f s) c = if c < n then g (view s c) else view s c := by
    intro n
    induction n with
    | zero => exact fun _ c _ => rfl
    | succ n ih =>
      intro hn c hc
      rw [List.range_succ, List.foldl_append, List.foldl_cons, List.foldl_nil]
      by_cases h : c = n
      · subst h
        rw [same, ih (by omega) c hc, if_neg (by omega), if_pos (by omega)]
      · rw [other _ _ _ (by omega) hc h, ih (by omega) c hc]
        by_cases hlt : c < n
        · rw [if_pos hlt, if_pos (by omega)]
        · rw [if_neg hlt, if_neg (by omega)]
  exact (upTo 8 (by decide) b hb).trans (if_pos hb)

/-- A fold of steps of which each can do no more than post an entry can do no more either. -/
theorem entryFrame_foldl {α : Type} {f : State → α → State} (h : ∀ x a, State.EntryFrame x (f x a)) (l : List α) :
    State.EntryFrame s (l.foldl f s) :=
  foldl_keeps (State.EntryFrame s) (fun x a hx => hx.trans (h x a)) l (State.EntryFrame.refl s)

theorem entryFrame_wf (k : PageKind) (i o lo n v : Nat) : State.EntryFrame s (s.wf k i o lo n v) := entryFrame_wr s k i o _
theorem entryFrame_wb (k : PageKind) (i o b : Nat) (v : Bool) : State.EntryFrame s (s.wb k i o b v) := entryFrame_wr s k i o _
theorem entryFrame_sat (k : PageKind) (i o lo n v : Nat) : State.EntryFrame s (s.sat k i o lo n v) := entryFrame_wr s k i o _

/-! What posting an entry leaves of the timing base. -/

theorem State.EntryFrame.now {s t : State} (h : State.EntryFrame s t) : t.now = s.now := (congrArg State.now h.eq :)
theorem State.EntryFrame.epoch {s t : State} (h : State.EntryFrame s t) : t.epoch = s.epoch := (congrArg State.epoch h.eq :)
theorem State.EntryFrame.armed {s t : State} (h : State.EntryFrame s t) : t.armed = s.armed := (congrArg State.armed h.eq :)
theorem State.EntryFrame.ticking {s t : State} (h : State.EntryFrame s t) : t.ticking = s.ticking := (congrArg State.ticking h.eq :)

/-- Two barns have TMB pages of their own. -/
theorem tmb_inst_ne {b c : Nat} (hb : b < 8) (hc : c < 8) (h : c ≠ b) : c % PageKind.tmb.count ≠ b % PageKind.tmb.count := by
  rw [show PageKind.tmb.count = 8 from rfl]
  omega

/-! ### TMB_STAT -/

theorem entryFrame_tmbBit (b : Nat) (v : Bool) : State.EntryFrame s (s.tmbBit b v) :=
  entryFrame_foldl s (fun x i => entryFrame_wb x .tmb i _ b v) _

theorem rd_tmbBit_off (b : Nat) (v : Bool) {k : PageKind} {i o : Nat} (h : o % 0x1000 ≠ Off.tmbStat) :
    (s.tmbBit b v).rd k i o = s.rd k i o :=
  foldl_keeps (fun x : State => x.rd k i o = s.rd k i o) (fun x _ hx => (rd_wr_off x .tmb k _ h).trans hx) _ rfl

/-- The bit stored reads so in every barn. -/
theorem rb_tmbBit_same (v : Bool) {b i : Nat} (hb : b < 32) (hi : i < 8) : (s.tmbBit b v).rb .tmb i Off.tmbStat b = v :=
  foldl_barns s (fun x j => x.rb .tmb j Off.tmbStat b) (fun _ => v) _ (fun x j => rb_wb_same x .tmb j _ b v hb)
    (fun x j c hj hc h => rb_of_rd (rd_wr_inst x .tmb j _ c _ _ (tmb_inst_ne hj hc h)) b) hi

/-- Another bit of TMB_STAT reads as before. -/
theorem rb_tmbBit_other (v : Bool) {b c i : Nat} (hb : b < 32) (hc : c ≠ b) (hi : i < 8) :
    (s.tmbBit b v).rb .tmb i Off.tmbStat c = s.rb .tmb i Off.tmbStat c :=
  foldl_barns s (fun x j => x.rb .tmb j Off.tmbStat c) id _ (fun x j => rb_wb_other x .tmb j _ b c v hb hc)
    (fun x j d hj hd h => rb_of_rd (rd_wr_inst x .tmb j _ d _ _ (tmb_inst_ne hj hd h)) c) hi

end

/-! ### ARM (R151, R154, R155) -/

section
variable {s : State}

/-- TMB_CTRL as EPOCH_ARM writes it. -/
theorem epochArm_word (mode : Fin 4) : fld (word (16 + mode)) 0 2 = mode ∧ tbit (word (16 + mode)) 4 = true := by
  revert mode
  decide

/-- A write of ARM in a legal mode on the enabled page: refused whole with STATE while anything measures, else it arms. -/
theorem tmbCtrlWrite_arm {mode : Fin 4} (hm : mode.val ≠ 3) (he : s.pageEn .tmb 0 = true) :
    tmbCtrlWrite 0 (word (16 + mode)) s =
      if s.anySeqActive || s.anyTimArmed then s.err .tmb 0 errState Off.tmbCtrl else s.epochArm mode := by
  obtain ⟨hmode, harm⟩ := epochArm_word mode
  unfold tmbCtrlWrite
  rw [hmode, harm, if_neg (by simp), if_neg hm, if_neg (by simp), if_neg (by simp [he])]

/-- TMB_CTRL and TMB_STAT as an arm in a mode shows them. -/
def State.armShown (s : State) (mode : Nat) : State :=
  (((s.wf .tmb 0 Off.tmbCtrl 0 2 mode).wb .tmb 0 Off.tmbCtrl 4 true).tmbBit 1 false).tmbBit 2 true

theorem entryFrame_armShown (s : State) (mode : Nat) : State.EntryFrame s (s.armShown mode) :=
  (((entryFrame_wf s .tmb 0 _ 0 2 mode).trans (entryFrame_wb _ .tmb 0 _ 4 true)).trans (entryFrame_tmbBit _ 1 false)).trans
    (entryFrame_tmbBit _ 2 true)

theorem rf_armShown_mode (s : State) (mode : Fin 4) : (s.armShown mode).rf .tmb 0 Off.tmbCtrl 0 2 = mode := by
  rw [State.armShown, rf_of_rd (rd_tmbBit_off _ 2 true (by decide)), rf_of_rd (rd_tmbBit_off _ 1 false (by decide)),
    rf_wb_other _ _ _ _ _ _ _ _ (by decide) (by decide), rf_wf_same _ _ _ _ _ _ _ (by decide)]
  exact Nat.mod_eq_of_lt mode.isLt

theorem rb_armShown_valid (s : State) (mode : Nat) {b : Nat} (hb : b < 8) : (s.armShown mode).rb .tmb b Off.tmbStat 1 = false :=
  (rb_tmbBit_other _ true (by decide) (by decide) hb).trans (rb_tmbBit_same _ false (by decide) hb)

/-- An arm beside its registers: it waits from the present tick on, and the epoch and the time stay. -/
theorem epochArm_state (s : State) (mode : Nat) :
    (s.epochArm mode).regs = (s.armShown mode).regs ∧ (s.epochArm mode).armed = some ⟨mode, s.now⟩ ∧
      (s.epochArm mode).epoch = s.epoch ∧ (s.epochArm mode).now = s.now := by
  have frame := entryFrame_armShown s mode
  unfold State.epochArm
  extract_lets _ shown waits
  have hshown : shown = s.armShown mode := rfl
  clear_value shown
  rw [← hshown] at frame ⊢
  split <;> exact ⟨rfl, rfl, frame.epoch, frame.now⟩

/-- An arm shows its mode, clears EPOCH_VALID in every barn and waits; the epoch and the time stay. -/
theorem epochArm_takes (s : State) (mode : Fin 4) :
    (s.epochArm mode).armed = some ⟨mode, s.now⟩ ∧ (s.epochArm mode).rf .tmb 0 Off.tmbCtrl 0 2 = mode ∧
      (∀ b < 8, (s.epochArm mode).rb .tmb b Off.tmbStat 1 = false) ∧ (s.epochArm mode).epoch = s.epoch ∧
      (s.epochArm mode).now = s.now := by
  obtain ⟨hregs, harmed, hepoch, hnow⟩ := epochArm_state s mode
  refine ⟨harmed, ?_, fun b hb => ?_, hepoch, hnow⟩
  · rw [rf_of_rd (rd_of_regs hregs _ _ _), rf_armShown_mode]
  · rw [rb_of_rd (rd_of_regs hregs _ _ _), rb_armShown_valid s mode hb]

/-- The error bit reads 1 afterwards. -/
theorem rb_err_same (s : State) (k : PageKind) (i off : Nat) {c : Nat} (hc : c < 32) :
    (s.err k i c off).rb k i Off.pgErr c = true := by
  unfold State.err
  dsimp only
  rw [rb_of_rd (rd_event _ k i 0 k i _ (fun h => absurd h.2 (by decide)) (Or.inr (Or.inr (by decide)))),
    rb_of_rd (rd_wf_offset _ _ _ _ _ _ _ _ _ (by decide)), rb_of_rd (rd_wf_offset _ _ _ _ _ _ _ _ _ (by decide)),
    rb_of_rd (rd_sat_offset _ _ _ _ _ _ _ _ _ (by decide)), rb_wb_same _ _ _ _ _ _ hc]

/-- What ARM is refused for: a sequencer outside IDLE, or an armed channel unit or vernier. -/
theorem measuring_of {s : State}
    (h : (∃ q < 8, s.seqActive q = true) ∨ (∃ st < 128, (s.rd .tim st Off.timState).toNat ≠ 0) ∨
      ∃ st < 128, s.rb .tim st Off.timVstat 8 = true) :
    (s.anySeqActive || s.anyTimArmed) = true := by
  have unit : ∀ st < 128, ((s.rd .tim st Off.timState).toNat != 0 || s.rb .tim st Off.timVstat 8) = true →
      s.anyTimArmed = true := fun st hst hu => List.any_eq_true.mpr ⟨st, List.mem_range.mpr hst, hu⟩
  rw [Bool.or_eq_true]
  rcases h with ⟨q, hq, ha⟩ | ⟨st, hst, ha⟩ | ⟨st, hst, ha⟩
  · exact Or.inl (List.any_eq_true.mpr ⟨q, List.mem_range.mpr hq, ha⟩)
  · exact Or.inr (unit st hst (by simp [ha]))
  · exact Or.inr (unit st hst (by simp [ha]))

/-! ### SYNC_IN pulses (R153, R154, R708) -/

/-- A recognised pulse of margin `m` shows in barn `b`. -/
def State.shownIn (m : BitVec 16) (x : State) (b : Nat) : State :=
  let low := decide (m.toNat < 500)
  let y := (x.wf .tmb b Off.tmbSyncMargin 0 16 m.toNat).wb .tmb b Off.tmbStat 3 low
  if low then y.event .tmb b 2 else y

/-- A recognised pulse of margin `m` shows in every barn. -/
def State.pulseShown (s : State) (m : BitVec 16) : State := (upto 8).foldl (State.shownIn m) s

/-- A pulse that finds nothing armed is counted in every barn. -/
def State.pulseIgnored (s : State) : State := (upto 8).foldl (fun x b => x.sat .tmb b Off.tmbSyncIgn 0 16 1) s

theorem exec_syncInPulse_unarmed (m : BitVec 16) (h : s.armed = none) :
    exec (.syncInPulse m) s = .next (s.pulseShown m).pulseIgnored := by
  change execSyncInPulse m s = _
  unfold execSyncInPulse
  simp only [h]
  rfl

/-- A pulse whose low sample comes after the arm sets the epoch, at the edge that recognises it. -/
theorem exec_syncInPulse_armed (m : BitVec 16) {a : Arm} (h : s.armed = some a) (hm : a.mode ≠ standalone)
    (he : a.pulseEdge ≤ s.refEdge) : ∃ (x : State) (e : Nat), exec (.syncInPulse m) s = .next ((x.pulseShown m).epochSet e true) := by
  change ∃ (x : State) (e : Nat), execSyncInPulse m s = _
  unfold execSyncInPulse
  simp only [h]
  rw [if_neg hm, if_pos (by omega)]
  exact ⟨_, _, rfl⟩

/-- A pulse that shows in a barn moves SYNC_MARGIN, TMB_STAT and PG_EVT of its page alone. -/
theorem rd_shownIn (m : BitVec 16) (x : State) (b : Nat) {i o : Nat}
    (h : i % PageKind.tmb.count ≠ b % PageKind.tmb.count ∨
      (o % 0x1000 ≠ Off.tmbSyncMargin ∧ o % 0x1000 ≠ Off.tmbStat ∧ o % 0x1000 ≠ Off.pgEvt)) :
    (x.shownIn m b).rd .tmb i o = x.rd .tmb i o := by
  have kept : ((x.wf .tmb b Off.tmbSyncMargin 0 16 m.toNat).wb .tmb b Off.tmbStat 3 (decide (m.toNat < 500))).rd .tmb i o =
      x.rd .tmb i o := by
    rcases h with h | ⟨hm, hs, -⟩
    · exact (rd_wr_inst _ .tmb b _ i o _ h).trans (rd_wr_inst x .tmb b _ i o _ h)
    · exact (rd_wr_off _ .tmb .tmb _ hs).trans (rd_wr_off x .tmb .tmb _ hm)
  unfold State.shownIn
  dsimp only
  split
  · exact (rd_event _ .tmb b 2 .tmb i o (by simp [postReg]) (by tauto)).trans kept
  · exact kept

/-- The margin shows in the barn. -/
theorem rf_shownIn_margin (m : BitVec 16) (x : State) (b : Nat) : (x.shownIn m b).rf .tmb b Off.tmbSyncMargin 0 16 = m.toNat := by
  have shown : ((x.wf .tmb b Off.tmbSyncMargin 0 16 m.toNat).wb .tmb b Off.tmbStat 3 (decide (m.toNat < 500))).rf .tmb b
      Off.tmbSyncMargin 0 16 = m.toNat := by
    rw [rf_of_rd (rd_wb_offset _ _ _ _ _ _ _ _ (by decide)), rf_wf_same _ _ _ _ _ _ _ (by decide), Nat.mod_eq_of_lt m.isLt]
  unfold State.shownIn
  dsimp only
  split
  · exact (rf_of_rd (rd_event _ .tmb b 2 .tmb b _ (by simp [postReg]) (Or.inr (Or.inr (by decide)))) 0 16).trans shown
  · exact shown

theorem entryFrame_shownIn (m : BitVec 16) (x : State) (b : Nat) : State.EntryFrame x (x.shownIn m b) := by
  have written := (entryFrame_wf x .tmb b Off.tmbSyncMargin 0 16 m.toNat).trans
    (entryFrame_wb _ .tmb b Off.tmbStat 3 (decide (m.toNat < 500)))
  unfold State.shownIn
  dsimp only
  split
  · exact written.trans (event_frame _ .tmb b 2)
  · exact written

theorem entryFrame_pulseShown (s : State) (m : BitVec 16) : State.EntryFrame s (s.pulseShown m) :=
  entryFrame_foldl s (entryFrame_shownIn m) _

/-- Every barn shows the margin. -/
theorem rf_pulseShown_margin (s : State) (m : BitVec 16) {b : Nat} (hb : b < 8) :
    (s.pulseShown m).rf .tmb b Off.tmbSyncMargin 0 16 = m.toNat :=
  foldl_barns s (fun x i => x.rf .tmb i Off.tmbSyncMargin 0 16) (fun _ => m.toNat) _ (rf_shownIn_margin m)
    (fun x _ _ hi hc h => rf_of_rd (rd_shownIn m x _ (Or.inl (tmb_inst_ne hi hc h))) 0 16) hb

theorem rf_pulseShown_ign (s : State) (m : BitVec 16) (b : Nat) :
    (s.pulseShown m).rf .tmb b Off.tmbSyncIgn 0 16 = s.rf .tmb b Off.tmbSyncIgn 0 16 :=
  foldl_keeps (fun x : State => x.rf .tmb b Off.tmbSyncIgn 0 16 = s.rf .tmb b Off.tmbSyncIgn 0 16)
    (fun x i hx => (rf_of_rd (rd_shownIn m x i (Or.inr (by decide))) 0 16).trans hx) _ rfl

theorem entryFrame_pulseIgnored (s : State) : State.EntryFrame s s.pulseIgnored :=
  entryFrame_foldl s (fun x b => entryFrame_sat x .tmb b _ _ _ _) _

/-- Every barn counts the pulse, up to the limit. -/
theorem rf_pulseIgnored (s : State) {b : Nat} (hb : b < 8) :
    s.pulseIgnored.rf .tmb b Off.tmbSyncIgn 0 16 = min 0xFFFF (s.rf .tmb b Off.tmbSyncIgn 0 16 + 1) := by
  have counted := foldl_barns s (fun x i => x.rf .tmb i Off.tmbSyncIgn 0 16) (satAdd 0xFFFF · 1) _
    (fun x i => rf_sat_same x .tmb i Off.tmbSyncIgn 0 16 1 (by decide))
    (fun x i c hi hc h => rf_of_rd (rd_wr_inst x .tmb i _ c _ _ (tmb_inst_ne hi hc h)) 0 16) hb
  refine counted.trans ?_
  unfold satAdd
  split <;> omega

/-- A stray pulse leaves the arming, the epoch and the time, and is counted in every barn. -/
theorem syncInPulse_unarmed_takes (m : BitVec 16) (h : s.armed = none) :
    ∃ t, exec (.syncInPulse m) s = .next t ∧ t.epoch = s.epoch ∧ t.now = s.now ∧ t.armed = none ∧
      ∀ b < 8, t.rf .tmb b Off.tmbSyncIgn 0 16 = min 0xFFFF (s.rf .tmb b Off.tmbSyncIgn 0 16 + 1) := by
  have frame := (entryFrame_pulseShown s m).trans (entryFrame_pulseIgnored _)
  refine ⟨_, exec_syncInPulse_unarmed m h, frame.epoch, frame.now, frame.armed.trans h, fun b hb => ?_⟩
  rw [rf_pulseIgnored _ hb, rf_pulseShown_ign]

/-! ### The epoch (R132, R151, R155) -/

/-- The TMB pages show a new epoch: capture disarmed, EPOCH_VALID set, and the epoch counted, in every barn. -/
def State.epochShown (s : State) : State :=
  (upto 8).foldl (fun x b => (x.sat .tmb b Off.tmbEpochCnt 0 16 1).event .tmb b 1)
    (((s.wb .tmb 0 Off.tmbCtrl 4 false).tmbBit 2 false).tmbBit 1 true)

/-- What setting the epoch stores outside the registers, before the pages show it. -/
theorem epochSet_eq (s : State) (e : Nat) (dly : Bool) :
    ∃ x : State, s.epochSet e dly = x.epochShown ∧ x.regs = s.regs ∧ x.armed = none ∧ x.ticking = true ∧
      (dly = false → x.epoch = 1250 * e ∧ x.now = max s.now e) := by
  refine ⟨_, rfl, rfl, rfl, rfl, ?_⟩
  rintro rfl
  constructor
  · simp only [Bool.false_eq_true, if_false, Int.add_zero, Int.toNat_natCast, Nat.mul_comm]
  · simp only [Bool.false_eq_true, if_false, Int.add_zero, Int.toNat_natCast]
    omega

theorem entryFrame_epochShown (s : State) : State.EntryFrame s s.epochShown := by
  have shown := ((entryFrame_wb s .tmb 0 Off.tmbCtrl 4 false).trans (entryFrame_tmbBit _ 2 false)).trans
    (entryFrame_tmbBit _ 1 true)
  exact shown.trans (entryFrame_foldl _ (fun x b => (entryFrame_sat x .tmb b _ _ _ _).trans (event_frame _ .tmb b 1)) _)

/-- Counting the epoch moves TMB_EPOCH_CNT and PG_EVT alone. -/
theorem rd_epochCounted (s : State) (l : List Nat) {i o : Nat} (hc : o % 0x1000 ≠ Off.tmbEpochCnt)
    (he : o % 0x1000 ≠ Off.pgEvt) :
    (l.foldl (fun x b => (x.sat .tmb b Off.tmbEpochCnt 0 16 1).event .tmb b 1) s).rd .tmb i o = s.rd .tmb i o :=
  foldl_keeps (fun x : State => x.rd .tmb i o = s.rd .tmb i o)
    (fun x b hx => (rd_event _ .tmb b 1 .tmb i o (by simp [postReg]) (Or.inr (Or.inr he))).trans
      ((rd_wr_off x .tmb .tmb _ hc).trans hx)) l rfl

theorem rb_epochShown_valid (s : State) {b : Nat} (hb : b < 8) : s.epochShown.rb .tmb b Off.tmbStat 1 = true :=
  (rb_of_rd (rd_epochCounted _ _ (by decide) (by decide)) 1).trans (rb_tmbBit_same _ true (by decide) hb)

theorem rd_epochShown_margin (s : State) (b : Nat) : s.epochShown.rd .tmb b Off.tmbSyncMargin = s.rd .tmb b Off.tmbSyncMargin := by
  rw [State.epochShown, rd_epochCounted _ _ (by decide) (by decide), rd_tmbBit_off _ _ _ (by decide),
    rd_tmbBit_off _ _ _ (by decide), rd_wb_offset _ _ _ _ _ _ _ _ (by decide)]

/-- An armed pulse ends the arming, makes the epoch valid and shows its margin in every barn. -/
theorem syncInPulse_armed_takes (m : BitVec 16) {a : Arm} (h : s.armed = some a) (hm : a.mode ≠ standalone)
    (he : a.pulseEdge ≤ s.refEdge) : ∃ t, exec (.syncInPulse m) s = .next t ∧ t.armed = none ∧
      ∀ b < 8, t.rb .tmb b Off.tmbStat 1 = true ∧ t.rf .tmb b Off.tmbSyncMargin 0 16 = m.toNat := by
  obtain ⟨x, e, hexec⟩ := exec_syncInPulse_armed m h hm he
  obtain ⟨y, hset, hregs, harmed, -⟩ := epochSet_eq (x.pulseShown m) e true
  refine ⟨_, hexec, ?_, fun b hb => ?_⟩ <;> rw [hset]
  · exact (entryFrame_epochShown y).armed.trans harmed
  · rw [rf_of_rd ((rd_epochShown_margin y b).trans (rd_of_regs hregs _ _ _))]
    exact ⟨rb_epochShown_valid y hb, rf_pulseShown_margin x m hb⟩

/-- The tick count from an epoch at tick `e` of State.now (R132). -/
theorem tick_of_epoch {t : State} {e : Nat} (ht : t.ticking = true) (he : t.epoch = 1250 * e) : t.tick = (t.now - e) % 2 ^ 48 := by
  rw [State.tick, if_pos ht, he, show t.now * 1250 - 1250 * e = 1250 * (t.now - e) by omega, Nat.mul_div_cancel_left _ (by decide)]

/-- The epoch of a STANDALONE arm is its second REFCLK edge, where time stands at the earliest. -/
theorem epochSet_standalone {a : Arm} (h : s.armed = some a) (hm : a.mode = standalone) :
    ∃ t, exec .epochSet s = .next t ∧ t.armed = none ∧ t.ticking = true ∧ (∀ b < 8, t.rb .tmb b Off.tmbStat 1 = true) ∧
      t.epoch = 1250 * a.second ∧ t.now = max s.now a.second := by
  obtain ⟨x, hset, -, harmed, hticking, hplain⟩ := epochSet_eq s a.second false
  obtain ⟨hepoch, hnow⟩ := hplain rfl
  have hexec : exec .epochSet s = .next (s.epochSet a.second false).m3Exit := by
    change execEpochSet s = _
    unfold execEpochSet
    simp only [h, if_pos hm]
  have frame := entryFrame_epochShown x
  rw [hset] at hexec
  refine ⟨_, hexec, ?_, ?_, fun b hb => ?_, ?_, ?_⟩
  · exact (m3Exit_field _ State.armed rfl fun _ _ _ _ => rfl).trans (frame.armed.trans harmed)
  · exact (m3Exit_field _ State.ticking rfl fun _ _ _ _ => rfl).trans (frame.ticking.trans hticking)
  · exact (rb_m3Exit _ b Off.tmbStat 1 (by decide)).trans (rb_epochShown_valid x hb)
  · exact (m3Exit_field _ State.epoch rfl fun _ _ _ _ => rfl).trans (frame.epoch.trans hepoch)
  · exact (m3Exit_field _ State.now rfl fun _ _ _ _ => rfl).trans (frame.now.trans hnow)

/-! ### Timing sets (R134 to R139) -/

theorem markDirty_chk (s : State) (q t : Nat) : (s.markDirty q t).rb .tset q Off.seqTsChk 0 = true :=
  rb_wb_same _ .tset q Off.seqTsChk 0 true (by decide)

/-- A period within its bounds is stored for an idle sequencer, and the set waits for its check. -/
theorem periodWrite_takes {q t : Nat} {v : Word} (ht : t < 32) (ha : s.seqActive q = false) (hl : 10000 ≤ v.toNat)
    (hh : v.toNat ≤ 4000000000) :
    (periodWrite q t v s).period q t = v.toNat ∧ (periodWrite q t v s).rb .tset q Off.seqTsChk 0 = true := by
  have hw : periodWrite q t v s = (s.wr .tset q (Off.seqTsPer t) v).markDirty q t := by
    unfold periodWrite
    rw [if_neg (by simp [ha]), if_neg (by omega)]
  rw [hw]
  refine ⟨?_, markDirty_chk _ q t⟩
  have hoff : Off.seqTsPer t % 0x1000 ≠ Off.seqTsChk % 0x1000 := by
    simp only [Off.seqTsPer, Off.seqTsChk]
    omega
  have kept : ((s.wr .tset q (Off.seqTsPer t) v).markDirty q t).rd .tset q (Off.seqTsPer t) =
      (s.wr .tset q (Off.seqTsPer t) v).rd .tset q (Off.seqTsPer t) := rd_wb_offset _ .tset q Off.seqTsChk q _ 0 true hoff
  rw [State.period, kept, rd_wr_same]

/-- An edge is stored for an idle sequencer where the window points, and the set waits for its check. -/
theorem edgeWrite_takes {q i : Nat} {v : Word} (ha : s.seqActive q = false) :
    (edgeWrite q i v s).tsEdge q (s.rf .tset q Off.seqTsIdx 0 5) (s.rf .tset q Off.seqTsIdx 8 6) i = v.toNat ∧
      (edgeWrite q i v s).rb .tset q Off.seqTsChk 0 = true := by
  unfold edgeWrite
  rw [if_neg (by simp [ha])]
  dsimp only
  generalize s.rf .tset q Off.seqTsIdx 0 5 = t
  generalize s.rf .tset q Off.seqTsIdx 8 6 = c
  let x : State := { s with tsEdges := Store.setD edgeReset s.tsEdges (tsKey q t c i) v }
  have stored : (x.markDirty q t).tsEdge q t c i = v.toNat :=
    congrArg BitVec.toNat (Store.getD_setD_same edgeReset s.tsEdges (tsKey q t c i) v)
  split
  · exact ⟨stored, (rb_of_rd (rd_wf_offset _ .tset q _ q _ _ _ _ (by decide)) 0).trans (markDirty_chk x q t)⟩
  · exact ⟨stored, markDirty_chk x q t⟩

/-- The check judges the sets of a list one by one: each set in it shows its verdict. -/
theorem rb_setsJudged (q : Nat) (bad : Nat → Bool) {k : Nat} (hk : k < 32) (l : List Nat) (s : State)
    (h : (∃ e ∈ l, e % 32 = k) ∨ s.rb .tset q Off.seqTsStat k = bad k) :
    (l.foldl (fun x e => x.wb .tset q Off.seqTsStat (e % 32) (bad (e % 32))) s).rb .tset q Off.seqTsStat k = bad k := by
  induction l generalizing s with
  | nil => simpa using h
  | cons a l ih =>
    refine ih _ ?_
    by_cases ha : a % 32 = k
    · subst ha
      exact Or.inr (rb_wb_same s .tset q _ _ _ hk)
    · have later : ∀ e ∈ a :: l, e % 32 = k → e ∈ l := fun e he hek =>
        (List.mem_cons.mp he).resolve_left fun heq => ha (heq ▸ hek)
      refine h.imp (fun ⟨e, he, hek⟩ => ⟨e, later e he hek, hek⟩) fun hs => ?_
      exact (rb_wb_other s .tset q _ (a % 32) k _ (Nat.mod_lt _ (by decide)) (Ne.symm ha)).trans hs

/-- The end of the check clears CHECKING, and every written set shows whether it is sound. -/
theorem timingSetCheckDone_takes (q : Fin 8) (s : State) :
    ∃ t, exec (.timingSetCheckDone q) s = .next t ∧ t.rb .tset q Off.seqTsChk 0 = false ∧
      ∀ k : Fin 32, 32 * q.val + k.val ∈ s.tsDirty → t.rb .tset q Off.seqTsStat k = !s.setSound q k := by
  refine ⟨_, rfl, rb_wb_same _ .tset q Off.seqTsChk 0 false (by decide), fun k hk => ?_⟩
  rw [rb_of_rd (rd_wb_offset _ .tset q Off.seqTsChk q Off.seqTsStat 0 false (by decide))]
  have mine : (32 * q.val + k.val) / 32 == q.val := beq_iff_eq.mpr (by omega)
  exact rb_setsJudged q (fun t => !s.setSound q t) k.isLt _ s
    (Or.inl ⟨32 * q.val + k.val, List.mem_filter.mpr ⟨hk, mine⟩, by omega⟩)

/-- What a write can come to: its effect, or a refusal that at most counts an access error or records an error of the page. -/
theorem guarded_cases (s : State) (r : Requester) (k : PageKind) (i o : Nat) (v : Word) (eff : State → State) :
    s.guarded r k i o v eff = eff s ∨ s.guarded r k i o v eff = s ∨ s.guarded r k i o v eff = s.accessError r ∨
      ∃ c st, s.guarded r k i o v eff = ({ s with stage := st } : State).err k i c o := by
  unfold State.guarded
  split
  · exact Or.inr (Or.inr (Or.inl rfl))
  · split
    · exact Or.inr (Or.inr (Or.inr ⟨_, s.stage, rfl⟩))
    · split
      · exact Or.inr (Or.inr (Or.inr ⟨_, s.stage, rfl⟩))
      · split
        · exact Or.inr (Or.inl rfl)
        · split
          · exact Or.inr (Or.inr (Or.inr ⟨_, s.stage, rfl⟩))
          · split
            · exact Or.inr (Or.inr (Or.inr ⟨_, _, rfl⟩))
            · split
              · exact Or.inr (Or.inl rfl)
              · exact Or.inl rfl

/-- `t` has the timing sets of `s`. -/
def State.SameSets (q : Nat) (s t : State) : Prop := t.tsEdges = s.tsEdges ∧ ∀ n < 32, t.period q n = s.period q n

theorem sameSets_accessError (s : State) (q : Nat) (r : Requester) : State.SameSets q s (s.accessError r) := by
  have counted : ∀ (k : PageKind) (o w : Nat), k ≠ .tset → State.SameSets q s (s.sat k 0 o 0 w 1) := fun k o w hk =>
    ⟨rfl, fun n _ => congrArg BitVec.toNat (rd_sat_kind s 0 o q (Off.seqTsPer n) 0 w 1 hk.symm)⟩
  cases r with
  | fn f =>
    unfold State.accessError
    dsimp only
    split <;> exact counted _ _ _ (by decide)
  | groom g => exact counted _ _ _ (by decide)
  | halter => exact counted _ _ _ (by decide)

/-- An error of the timing page leaves the sets. -/
theorem sameSets_err (s : State) (q i c o : Nat) : State.SameSets q s (s.err .tset i c o) := by
  refine ⟨State.err_tsEdges .., fun n hn => congrArg BitVec.toNat ?_⟩
  refine rd_err s .tset i c o .tset q (Off.seqTsPer n) (by simp [postReg]) ?_
  simp only [Off.seqTsPer, Off.pgErr, Off.pgErrCnt, Off.pgEvt]
  omega

/-- A write whose effect leaves the sets leaves them however it ends. -/
theorem sameSets_guarded {s : State} {q : Nat} (r : Requester) (i o : Nat) (v : Word) {eff : State → State}
    (h : State.SameSets q s (eff s)) : State.SameSets q s (s.guarded r .tset i o v eff) := by
  rcases guarded_cases s r .tset i o v eff with e | e | e | ⟨c, st, e⟩ <;> rw [e]
  · exact h
  · exact ⟨rfl, fun _ _ => rfl⟩
  · exact sameSets_accessError s q r
  · exact sameSets_err { s with stage := st } q i c o

end

/-- Settles O17: each command by its own lemma above. -/
theorem timingCommandsTakeEffect : Obligations.TimingCommandsTakeEffect := by
  unfold Obligations.TimingCommandsTakeEffect
  refine ⟨fun r mode s hacc hm he hq ht => ?_, fun a s h hm => ?_, fun m s h => ?_,
    fun m a s h hm he => syncInPulse_armed_takes m h hm he, fun r q k v s hk hacc ha hl hh => ?_,
    fun r q k v s hk hacc ha => ?_, timingSetCheckDone_takes⟩
  · have hw : tmbCtrlWrite 0 (word (16 + mode)) s = s.epochArm mode := by simp [tmbCtrlWrite_arm hm he, hq, ht]
    exact ⟨_, congrArg Host.Outcome.next ((guarded_of_accepts hacc _).trans hw), epochArm_takes s mode⟩
  · obtain ⟨t, hexec, harmed, hticking, hvalid, hepoch, hnow⟩ := epochSet_standalone h hm
    refine ⟨t, hexec, harmed, hticking, hvalid, hepoch, ?_⟩
    rw [tick_of_epoch hticking hepoch, hnow, show max s.now a.second - a.second = s.now - a.second by omega]
  · obtain ⟨t, hexec, hepoch, -, -, hign⟩ := syncInPulse_unarmed_takes m h
    exact ⟨t, hexec, hepoch, hign⟩
  · exact ⟨_, (if_pos hk).trans (congrArg Host.Outcome.next (guarded_of_accepts hacc _)), periodWrite_takes hk ha hl hh⟩
  · exact ⟨_, (if_neg (by omega)).trans (congrArg Host.Outcome.next (guarded_of_accepts hacc _)), edgeWrite_takes ha⟩

/-- Settles O18: the write is refused, whether by the common checks or with STATE by R139, and a refusal leaves the sets. -/
theorem runningSequencerKeepsItsTimingSets : Obligations.RunningSequencerKeepsItsTimingSets := by
  unfold Obligations.RunningSequencerKeepsItsTimingSets
  intro r q k v s ha
  by_cases hk : k.val < 32
  · refine ⟨_, if_pos hk, sameSets_guarded r q _ v ?_⟩
    rw [periodWrite, if_pos ha]
    exact sameSets_err s q q errState _
  · refine ⟨_, if_neg hk, sameSets_guarded r q _ v ?_⟩
    rw [edgeWrite, if_pos ha]
    exact sameSets_err s q q errState _

/-- Settles O19: time stands at the epoch, and the tick count is the time since. -/
theorem newEpochRestartsTheTickCount : Obligations.NewEpochRestartsTheTickCount := by
  unfold Obligations.NewEpochRestartsTheTickCount
  intro s a n h hm hnow
  obtain ⟨t, hexec, -, hticking, -, hepoch, htime⟩ := epochSet_standalone h hm
  have hat : t.now = a.second := htime.trans (max_eq_right hnow)
  refine ⟨t, hexec, hat, ?_⟩
  rw [tick_of_epoch (t := { t with now := t.now + n }) hticking hepoch]
  dsimp only
  rw [hat, Nat.add_sub_cancel_left]

/-- Settles O56: what measures makes the write an error STATE of the page, and a pulse with nothing armed is shown and counted. -/
theorem armIsRefusedWhileMeasuring : Obligations.ArmIsRefusedWhileMeasuring := by
  unfold Obligations.ArmIsRefusedWhileMeasuring
  refine ⟨fun r mode s hacc hm he hbusy => ?_, fun m s h => syncInPulse_unarmed_takes m h⟩
  have hw : tmbCtrlWrite 0 (word (16 + mode)) s = s.err .tmb 0 errState Off.tmbCtrl := by
    rw [tmbCtrlWrite_arm hm he, if_pos (measuring_of hbusy)]
  have kept : ∀ b o, o % 0x1000 ≠ Off.pgErr ∧ o % 0x1000 ≠ Off.pgErrCnt ∧ o % 0x1000 ≠ Off.pgEvt →
      (s.err .tmb 0 errState Off.tmbCtrl).rd .tmb b o = s.rd .tmb b o := fun b o ho =>
    rd_err s .tmb 0 errState Off.tmbCtrl .tmb b o (by simp [postReg]) (Or.inr (Or.inr ho))
  refine ⟨_, congrArg Host.Outcome.next ((guarded_of_accepts hacc _).trans hw), rb_err_same s .tmb 0 Off.tmbCtrl (by decide),
    kept 0 _ (by decide), fun b _ => kept b _ (by decide), ?_⟩
  simp only [State.err_armed, State.err_epoch, State.err_now, State.err_ticking, and_self]

end Sys2Proof.Machine

/-!
PROOF. Ends of a run (R197 to R201), vector 0 (R193) and late edges (R141): what these commands leave of a sequencer.
-/

namespace Sys2Proof.Machine

/-! ### What other blocks leave of a run -/

/-- What goes on beside a run: the control page of sequencer `q` stays and, unless the run is ARMED and may take its lead, the
sequencer too. -/
structure State.RunFrame (q : Nat) (s t : State) : Prop where
  rd : ∀ o, t.rd .seq q o = s.rd .seq q o
  seq : s.seqState q ≠ sArmed → t.seq q = s.seq q

theorem State.RunFrame.seqState {q : Nat} {s t : State} (h : State.RunFrame q s t) : t.seqState q = s.seqState q :=
  rf_of_rd (h.rd _) 0 3

theorem State.RunFrame.refl (q : Nat) (s : State) : State.RunFrame q s s := ⟨fun _ => rfl, fun _ => rfl⟩

theorem State.RunFrame.trans {q : Nat} {s t u : State} (h1 : State.RunFrame q s t) (h2 : State.RunFrame q t u) :
    State.RunFrame q s u :=
  ⟨fun o => (h2.rd o).trans (h1.rd o), fun h => (h2.seq (h1.seqState.symm ▸ h)).trans (h1.seq h)⟩

section
variable (q : Nat) (s : State)

theorem runFrame_of_seqs {t : State} (hs : t.seqs = s.seqs) (hr : ∀ o, t.rd .seq q o = s.rd .seq q o) : State.RunFrame q s t :=
  ⟨hr, fun _ => seq_of_seqs hs q⟩

theorem runFrame_of_regs {t : State} (hs : t.seqs = s.seqs) (hr : t.regs = s.regs) : State.RunFrame q s t :=
  runFrame_of_seqs q s hs fun o => rd_of_regs hr .seq q o

/-- A write of a page of another kind. -/
theorem runFrame_wr {k : PageKind} (i o : Nat) (v : Word) (h : .seq ≠ k) : State.RunFrame q s (s.wr k i o v) :=
  runFrame_of_seqs q s rfl fun _ => rd_wr_kind s i o q _ v h

theorem runFrame_event {k : PageKind} (i n : Nat) (h : .seq ≠ k) : State.RunFrame q s (s.event k i n) :=
  runFrame_of_seqs q s (State.event_seqs ..) fun o => rd_event s k i n .seq q o (by simp [postReg]) (Or.inl h)

theorem runFrame_foldl {α : Type} {f : State → α → State} (h : ∀ x a, State.RunFrame q x (f x a)) (l : List α) :
    State.RunFrame q s (l.foldl f s) :=
  foldl_keeps (State.RunFrame q s) (fun x a hx => hx.trans (h x a)) l (State.RunFrame.refl q s)

/-- The end of a step lets a deferred start of an ARMED sequencer go on, and leaves every other sequencer. -/
theorem runFrame_seqUndefer (p : Nat) : State.RunFrame q s (s.seqUndefer p) := by
  unfold State.seqUndefer
  split
  · rename_i h
    refine ⟨fun _ => rfl, fun hq => Store.getD_setD_ne _ _ _ fun e => hq ?_⟩
    exact e ▸ h.1
  · exact State.RunFrame.refl q s

theorem runFrame_timEnd (st c e : Nat) : State.RunFrame q s (s.timEnd st c e) := by
  unfold State.timEnd
  split
  · exact (runFrame_of_regs q s (State.setTim_seqs ..) (State.setTim_regs ..)).trans (runFrame_wr q _ st _ _ (by decide))
  · exact State.RunFrame.refl q s

theorem runFrame_farTimEnd (st : Nat) : State.RunFrame q s (s.farTimEnd st) := by
  refine runFrame_foldl q s (fun x c => ?_) _
  split
  · exact runFrame_timEnd q x st c _
  · exact State.RunFrame.refl q x

theorem runFrame_pmuRelease (st u : Nat) : State.RunFrame q s (s.pmuRelease st u) := by
  unfold State.pmuRelease
  dsimp only
  split
  · refine runFrame_foldl q s (fun x w => ?_) _
    split
    · exact runFrame_wr q x st _ _ (by decide)
    · exact State.RunFrame.refl q x
  · exact State.RunFrame.refl q s

/-- A step of the farrier that is cut off. -/
theorem runFrame_stepRelease (x : FarStep) : State.RunFrame q s (s.stepRelease x false) := by
  unfold State.stepRelease
  extract_lets _ y z w
  have hy : State.RunFrame q s y := runFrame_of_regs q s rfl rfl
  have hz : State.RunFrame q y z := by
    simp only [z, Bool.false_eq_true, if_false]
    split
    · exact State.RunFrame.refl q y
    · exact runFrame_of_regs q y rfl rfl
  have hw : State.RunFrame q z w := by
    simp only [w]
    split
    · exact runFrame_pmuRelease q z _ _
    · split
      · exact runFrame_farTimEnd q z _
      · exact State.RunFrame.refl q z
  exact ((hy.trans hz).trans hw).trans (runFrame_foldl q w (fun v p => runFrame_seqUndefer q v p) _)

theorem runFrame_farStore (c : Nat) : State.RunFrame q s (s.farStore c) := by
  have hfar : ∀ (x : State) (o : Nat) (v : Word), State.RunFrame q x (x.wr .far 0 o v) := fun x o v =>
    runFrame_wr q x 0 o v (by decide)
  unfold State.farStore
  extract_lets s1 s2 s3 _ s4
  have h3 : State.RunFrame q s s3 := (((hfar s _ _).trans (hfar s1 _ _)).trans (hfar s2 _ _)).trans (hfar _ _ _)
  have h4 : State.RunFrame q s s4 :=
    (h3.trans (runFrame_of_regs q s3 (State.setFar_seqs ..) (State.setFar_regs ..))).trans (runFrame_event q _ 0 1 (by decide))
  split
  · exact h4.trans (runFrame_of_regs q s4 rfl rfl)
  · exact h4

/-- Steps that are cut off, and the end of the run of the farrier with them. -/
theorem runFrame_farAbort (p : FarStep → Bool) : State.RunFrame q s (s.farAbort p) := by
  have cut : State.RunFrame q s
      ((s.far.steps.filter p).foldl (fun x e => (x.stepRelease e false).sat .far 0 Off.farStepAbort 0 32 1) s) :=
    runFrame_foldl q s (fun x e => (runFrame_stepRelease q x e).trans (runFrame_wr q _ 0 _ _ (by decide))) _
  refine cut.trans ?_
  change State.RunFrame q _ (State.farSettle _)
  unfold State.farSettle
  split
  · split
    · exact runFrame_farStore q _ _
    · exact State.RunFrame.refl q _
  · exact State.RunFrame.refl q _

end

/-! ### States of a run -/

section
variable (s : State) (q : Nat)

theorem seqState_setSeqState {v : Nat} (hv : v < 8) : (s.setSeqState q v).seqState q = v :=
  (rf_wf_same s .seq q Off.seqStat 0 3 v (by decide)).trans (Nat.mod_eq_of_lt hv)

theorem seq_setSeqState (v : Nat) : (s.setSeqState q v).seq q = s.seq q := seq_of_seqs (State.wf_seqs ..) q

theorem rd_setSeqState (v : Nat) {o : Nat} (h : o % 0x1000 ≠ Off.seqStat) : (s.setSeqState q v).rd .seq q o = s.rd .seq q o :=
  rd_wf_offset s .seq q _ q o 0 3 v h

/-- Another bit of SEQ_STAT moves no STATE. -/
theorem seqState_wb {b : Nat} (v : Bool) (hb : b < 32) (h3 : 3 ≤ b) : (s.wb .seq q Off.seqStat b v).seqState q = s.seqState q :=
  rf_wb_other s .seq q Off.seqStat b 0 3 v hb (by omega)

/-- The run enters DRAIN with the end given (R198, R200). -/
theorem endRun_drains (e : RunEnd) : (s.endRun q e).seqState q = sDrain ∧ ((s.endRun q e).seq q).ending = some e := by
  unfold State.endRun
  extract_lets x _ y
  have hstate : y.seqState q = sDrain := seqState_setSeqState _ q (by decide)
  have hend : (y.seq q).ending = some e := by
    rw [seq_setSeqState, seq_setSeq_same]
  split
  · have frame := runFrame_farAbort q y fun f => f.src = .calgap &&
      (onesOf f.mask 16).any fun c => fld (s.following (16 * f.stall + c)) 8 3 == q
    rw [frame.seqState, frame.seq (by rw [hstate]; decide)]
    exact ⟨hstate, hend⟩
  · exact ⟨hstate, hend⟩

end

/-! ### SEQ_CTRL (R198, R201, R203) -/

/-- A field of a register's low end, stored whole, reads bit by bit. -/
theorem tbit_putFld_low (w : Word) (n v : Nat) {i : Nat} (hn : n ≤ 32) (hi : i < n) : tbit (putFld w 0 n v) i = v.testBit i := by
  have h : ∀ x : Word, (fld x 0 n).testBit i = tbit x i := fun x => by
    simp [fld, tbit, Nat.testBit_mod_two_pow, hi]
  rw [← h, fld_putFld_same _ _ _ _ (by omega), Nat.testBit_mod_two_pow, decide_eq_true hi, Bool.true_and]

/-- The settings that a write of SEQ_CTRL stores: START_MODE, EV_SEL and END_HIZ. -/
def State.ctrlStored (s : State) (q : Nat) (v : Word) : State :=
  ((s.wf .seq q Off.seqCtrl 4 2 (fld v 4 2)).wf .seq q Off.seqCtrl 8 2 (fld v 8 2)).wb .seq q Off.seqCtrl 12 (tbit v 12)

section
variable (s : State) (q : Nat)

theorem seqState_ctrlStored (v : Word) : (s.ctrlStored q v).seqState q = s.seqState q := by
  rw [State.ctrlStored, State.seqState, rf_of_rd (rd_wb_offset _ _ _ _ _ _ _ _ (by decide)),
    rf_of_rd (rd_wf_offset _ _ _ _ _ _ _ _ _ (by decide)), rf_of_rd (rd_wf_offset _ _ _ _ _ _ _ _ _ (by decide)), State.seqState]

variable {s q}

/-- Commands written beside the settings in the three low bits: ABORT or STOP acts first, and START then (R201, R203). -/
theorem seqCtrlWrite_commands {w : Word} {n : Nat} (h : fld (putFld w 0 3 n) 4 2 ≠ 3) :
    seqCtrlWrite q (putFld w 0 3 n) s =
      let x := s.ctrlStored q (putFld w 0 3 n)
      let y := if n.testBit 2 then (x.seqAbort q).stopNoted q (n.testBit 1) else if n.testBit 1 then x.seqStop q else x
      if n.testBit 0 then y.seqStart q else y := by
  unfold seqCtrlWrite
  rw [if_neg h, tbit_putFld_low w 3 n (by decide) (show 0 < 3 by decide), tbit_putFld_low w 3 n (by decide) (show 1 < 3 by decide),
    tbit_putFld_low w 3 n (by decide) (show 2 < 3 by decide)]
  rfl

theorem seqCtrlWrite_start {w : Word} (h : fld (putFld w 0 3 1) 4 2 ≠ 3) :
    seqCtrlWrite q (putFld w 0 3 1) s = (s.ctrlStored q (putFld w 0 3 1)).seqStart q := by
  simp [seqCtrlWrite_commands h, Nat.testBit_eq_decide_div_mod_eq]

theorem seqCtrlWrite_stop {w : Word} (h : fld (putFld w 0 3 2) 4 2 ≠ 3) :
    seqCtrlWrite q (putFld w 0 3 2) s = (s.ctrlStored q (putFld w 0 3 2)).seqStop q := by
  simp [seqCtrlWrite_commands h, Nat.testBit_eq_decide_div_mod_eq]

theorem seqCtrlWrite_abort {w : Word} (h : fld (putFld w 0 3 4) 4 2 ≠ 3) :
    seqCtrlWrite q (putFld w 0 3 4) s = (s.ctrlStored q (putFld w 0 3 4)).seqAbort q := by
  simp [seqCtrlWrite_commands h, Nat.testBit_eq_decide_div_mod_eq, State.stopNoted]

/-- A STOP in a hold ends the run there (R198). -/
theorem seqStop_hold (h : s.seqState q = sHold) :
    ∃ (x : State) (e : RunEnd), s.seqStop q = x.endRun q e ∧ e.code = cStopped := by
  unfold State.seqStop
  dsimp only
  rw [h, if_neg (by decide), if_neg (by decide), if_neg (by decide), if_neg (fun hr => absurd hr.1 (by decide))]
  exact ⟨_, _, rfl, rfl⟩

/-- An ABORT in a run or a hold cuts the run off (R198, R200). -/
theorem seqAbort_run (h : s.seqState q = sRun ∨ s.seqState q = sHold) :
    ∃ (x : State) (e : RunEnd), s.seqAbort q = x.endRun q e ∧ e.code = cAborted ∧ e.hiz = true := by
  have hstate : (s.wb .seq q Off.seqCtrl 2 true).seqState q = s.seqState q :=
    rf_of_rd (rd_wb_offset _ _ _ _ _ _ _ _ (by decide)) 0 3
  have hne : s.seqState q ≠ sIdle ∧ s.seqState q ≠ sArmed ∧ s.seqState q ≠ sDrain := by
    rcases h with h | h <;> rw [h] <;> decide
  obtain ⟨hidle, harmed, hdrain⟩ := hne
  unfold State.seqAbort
  dsimp only
  rw [if_neg hidle, if_neg harmed]
  unfold State.cutRun
  dsimp only
  rw [hstate, if_neg (by tauto), if_neg harmed]
  exact ⟨_, _, rfl, rfl, rfl⟩

theorem seqStop_takes {r : Requester} {q : Fin 8}
    (hacc : s.accepts r .seq q Off.seqCtrl (putFld (s.rd .seq q Off.seqCtrl) 0 3 2) = true)
    (hm : fld (putFld (s.rd .seq q Off.seqCtrl) 0 3 2) 4 2 ≠ 3) (h : s.seqState q = sHold) :
    ∃ t, exec (.seqStop r q) s = .next t ∧ t.seqState q = sDrain ∧ ((t.seq q).ending.map RunEnd.code) = some cStopped := by
  obtain ⟨x, e, hx, hcode⟩ := seqStop_hold ((seqState_ctrlStored s q (putFld (s.rd .seq q Off.seqCtrl) 0 3 2)).trans h)
  obtain ⟨hstate, hend⟩ := endRun_drains x q e
  refine ⟨_, congrArg Host.Outcome.next ((guarded_of_accepts hacc _).trans ((seqCtrlWrite_stop hm).trans hx)), hstate, ?_⟩
  rw [hend, Option.map_some, hcode]

theorem seqAbort_takes {r : Requester} {q : Fin 8}
    (hacc : s.accepts r .seq q Off.seqCtrl (putFld (s.rd .seq q Off.seqCtrl) 0 3 4) = true)
    (hm : fld (putFld (s.rd .seq q Off.seqCtrl) 0 3 4) 4 2 ≠ 3) (h : s.seqState q = sRun ∨ s.seqState q = sHold) :
    ∃ t, exec (.seqAbort r q) s = .next t ∧ t.seqState q = sDrain ∧ ((t.seq q).ending.map RunEnd.code) = some cAborted ∧
      (t.seq q).ending.map RunEnd.hiz = some true := by
  rw [← seqState_ctrlStored s q (putFld (s.rd .seq q Off.seqCtrl) 0 3 4)] at h
  obtain ⟨x, e, hx, hcode, hhiz⟩ := seqAbort_run h
  obtain ⟨hstate, hend⟩ := endRun_drains x q e
  refine ⟨_, congrArg Host.Outcome.next ((guarded_of_accepts hacc _).trans ((seqCtrlWrite_abort hm).trans hx)), hstate, ?_⟩
  rw [hend, Option.map_some, Option.map_some, hcode, hhiz]
  exact ⟨rfl, rfl⟩

/-! ### Vector 0 (R193) -/

/-- Panic of the refill port moves SEQ_STRM_STAT, the panic count and PG_EVT of the control page alone (R223). -/
theorem rd_panicUpdate (s : State) (q : Nat) (m : List Seg) (a : Nat) {o : Nat}
    (h : o % 0x1000 ≠ Off.pgEvt ∧ o % 0x1000 ≠ Off.seqStrmStat ∧ o % 0x1000 ≠ Off.seqPanicCnt) :
    (s.panicUpdate q m a).rd .seq q o = s.rd .seq q o := by
  obtain ⟨he, hs, hc⟩ := h
  have hport : ∀ x : State, (x.portPanic q).rd .seq q o = x.rd .seq q o := fun x => by
    unfold State.portPanic
    split
    · rfl
    · rw [rd_event _ .hbm 0 2 .seq q o (by simp [postReg]) (Or.inl (by decide)), rd_sat_kind _ _ _ _ _ _ _ _ (by decide),
        rd_wb_kind _ _ _ _ _ _ _ (by decide)]
  unfold State.panicUpdate State.portCalm
  dsimp only
  split
  · exact rd_wf_offset _ _ _ _ _ _ _ _ _ hs
  · split
    · split
      · exact rd_wf_offset _ _ _ _ _ _ _ _ _ hs
      · rw [hport, rd_event _ .seq q 6 .seq q o (by simp [postReg]) (Or.inr (Or.inr he)), rd_sat_offset _ _ _ _ _ _ _ _ _ hc,
          rd_wb_offset _ _ _ _ _ _ _ _ hs, rd_wf_offset _ _ _ _ _ _ _ _ _ hs]
    · rw [rd_wb_kind _ _ _ _ _ _ _ (by decide), rd_wb_offset _ _ _ _ _ _ _ _ hs, rd_wf_offset _ _ _ _ _ _ _ _ _ hs]

/-- The start of vector 0 or of a run shows the run-ahead, if there is a map, and moves neither STATE nor the sequencer. -/
theorem panicUpdate_run (s : State) (q : Nat) (m : List Seg) (a : Nat) :
    (s.panicUpdate q m a).seqState q = s.seqState q ∧ (s.panicUpdate q m a).seq q = s.seq q :=
  ⟨rf_of_rd (rd_panicUpdate s q m a (by decide)) 0 3, seq_of_seqs (seqs_panicUpdate s q m a) q⟩

/-- Vector 0 begins on its tick with the sequencer in RUN, unless the farrier holds a channel. -/
theorem vector0Begin_takes {q : Fin 8} {k : Nat} (hk : (s.seq q).startAt = some k) (hs : s.seqState q = sArmed)
    (hf : s.farrierHolds q = false) : ∃ t, exec (.vector0Begin q) s = .next t ∧ t.seqState q = sRun ∧
      (t.seq q).vtime = k * 1250 ∧ (t.seq q).startAt = none := by
  change ∃ t, execVector0Begin q s = .next t ∧ _
  unfold execVector0Begin
  simp only [hk, hs]
  rw [if_neg (by decide), if_neg (by simp [hf])]
  generalize hx : State.setSeq _ _ _ = x
  have hseq : (x.seq q).vtime = k * 1250 ∧ (x.seq q).startAt = none := by
    rw [← hx, seq_setSeq_same]
    exact ⟨rfl, rfl⟩
  generalize hy : List.foldl _ _ _ = y
  have hframe : y.seqs = x.seqs ∧ y.seqState q = sRun := by
    rw [← hy]
    refine foldl_keeps (fun z : State => z.seqs = x.seqs ∧ z.seqState q = sRun) (fun z c hz => ?_) _ ⟨?_, ?_⟩
    · exact hz
    · rw [State.wb_seqs, State.setSeqState, State.wf_seqs]
    · exact (seqState_wb _ q false (by decide) (by decide)).trans (seqState_setSeqState x q (by decide))
  obtain ⟨hseqs, hstate⟩ := hframe
  rw [← seq_of_seqs hseqs] at hseq
  cases (s.seq q).map with
  | none => exact ⟨y, rfl, hstate, hseq⟩
  | some m =>
    obtain ⟨hps, hpq⟩ := panicUpdate_run y q m (s.seq q).next
    exact ⟨_, rfl, hps.trans hstate, by rw [hpq]; exact hseq⟩

/-! ### The end of a hold (R197) -/

/-- A hold without a cause ends in RUN at the tick given, once every edge before it has fired. -/
theorem holdEnd_takes {q : Fin 8} {k : BitVec 48} (hs : s.seqState q = sHold) (hc : s.rf .seq q Off.seqStat 4 2 = 0)
    (ht : (s.seq q).vtime ≤ k.toNat * 1250) (he : s.edgesPending q (k.toNat * 1250) = false) :
    ∃ t, exec (.holdEnd q k) s = .next t ∧ t.seqState q = sRun ∧ (t.seq q).vtime = k.toNat * 1250 := by
  have hgo : ¬(s.seqState q ≠ sHold ∨ s.rf .seq q Off.seqStat 4 2 ≠ 0 ∨ k.toNat * 1250 < (s.seq q).vtime ∨
      s.edgesPending q (k.toNat * 1250) = true) := by
    rw [hs, hc, he]
    simp [ht]
  refine ⟨_, if_neg hgo, seqState_setSeqState _ q (by decide), ?_⟩
  rw [seq_setSeqState, seq_setSeq_same]

/-! ### The end of a drain (R199) -/

/-- What a drain leaves once the result is stored: the page and the streamer are those of an idle sequencer. -/
def State.runEnded (x : State) (q : Nat) (e : RunEnd) : State :=
  let y := (x.storeResult .seq q Off.seqResultLo (e.code * 2 ^ 8)).wr .seq q Off.seqResultHi (word (e.info % 2 ^ 24))
  let z := ((y.wf .seq q Off.seqCtrl 0 3 0).wf .seq q Off.seqStat 3 3 0).wb .seq q Off.seqStat 16 false
  let w := ((z.wb .seq q Off.seqStrmStat 5 false).panicEnd q).setSeqState q sIdle
  (if w.mstate q = mStreaming then (w.setMstate q mFilling).evictIdle q else w).event .seq q 1

theorem finishRun_eq (s : State) (q : Nat) (e : RunEnd) : ∃ x : State, s.finishRun q e = x.runEnded q e := ⟨_, rfl⟩

/-- A stored result shows its code. -/
theorem rf_storeResult_code (s : State) (k : PageKind) (i o : Nat) {code : Nat} (hc : code < 32) :
    (s.storeResult k i o (code * 2 ^ 8)).rf k i o 8 5 = code := by
  rw [State.rf, storeResult_rd, fld_word _ _ _ (by decide)]
  omega

/-- A drain ends with the sequencer IDLE and its result stored. -/
theorem runEnded_takes (x : State) (q : Nat) {e : RunEnd} (hc : e.code < 32) :
    (x.runEnded q e).seqState q = sIdle ∧ (x.runEnded q e).rb .seq q Off.seqResultLo 16 = true ∧
      (x.runEnded q e).rf .seq q Off.seqResultLo 8 5 = e.code := by
  unfold State.runEnded
  extract_lets y z w
  have hstate : w.seqState q = sIdle := seqState_setSeqState _ q (by decide)
  have hres : w.rd .seq q Off.seqResultLo = (x.storeResult .seq q Off.seqResultLo (e.code * 2 ^ 8)).rd .seq q Off.seqResultLo := by
    simp only [w, z, y, State.panicEnd, State.portCalm]
    rw [rd_setSeqState _ q _ (by decide), rd_wb_kind _ _ _ _ _ _ _ (by decide), rd_wb_offset _ _ _ _ _ _ _ _ (by decide),
      rd_wf_offset _ _ _ _ _ _ _ _ _ (by decide), rd_wb_offset _ _ _ _ _ _ _ _ (by decide),
      rd_wb_offset _ _ _ _ _ _ _ _ (by decide), rd_wf_offset _ _ _ _ _ _ _ _ _ (by decide),
      rd_wf_offset _ _ _ _ _ _ _ _ _ (by decide), rd_wr_offset _ _ _ _ _ _ _ (by decide)]
  have kept : ∀ o, o % 0x1000 ≠ Off.pgEvt ∧ o % 0x1000 ≠ Off.seqStrmStat ∧ o % 0x1000 ≠ Off.seqStrmCtrl →
      ((if w.mstate q = mStreaming then (w.setMstate q mFilling).evictIdle q else w).event .seq q 1).rd .seq q o =
        w.rd .seq q o := by
    intro o ho
    rw [rd_event _ .seq q 1 .seq q o (by simp [postReg]) (Or.inr (Or.inr ho.1))]
    split
    · rw [rd_evictIdle, rd_setMstate _ q _ ho]
    · rfl
  refine ⟨(rf_of_rd (kept _ (by decide)) 0 3).trans hstate, ?_, ?_⟩
  · rw [rb_of_rd ((kept _ (by decide)).trans hres)]
    simpa using (storeResult_fields x .seq q Off.seqResultLo (code := e.code) 0 (by omega)).2
  · rw [rf_of_rd ((kept _ (by decide)).trans hres), rf_storeResult_code _ _ _ _ hc]

/-- A drain with no edge pending ends, cut off or not. -/
theorem drainComplete_takes {q : Fin 8} {e : RunEnd} (he : (s.seq q).ending = some e) (hc : e.code ≤ 9)
    (hs : s.seqState q = sDrain)
    (hch : ∀ c ∈ s.chansOf q, (s.chan c.1).edges = []) :
    ∃ t, exec (.drainComplete q) s = .next t ∧ t.seqState q = sIdle ∧ t.rb .seq q Off.seqResultLo 16 = true ∧
      t.rf .seq q Off.seqResultLo 8 5 = e.code := by
  have hnone : ((s.chansOf q).any fun c => !(s.chan c.1).edges.isEmpty) = false :=
    List.any_eq_false.mpr fun c hc => by simp [hch c hc]
  have hends : ∃ x : State, exec (.drainComplete q) s = .next (x.finishRun q e) := by
    change ∃ x : State, execDrainComplete q s = _
    unfold execDrainComplete
    simp only [he]
    rw [if_neg (by simp [hs, hnone])]
    split
    · exact ⟨_, rfl⟩
    · exact ⟨_, rfl⟩
  obtain ⟨x, hexec⟩ := hends
  obtain ⟨y, hy⟩ := finishRun_eq x q e
  rw [hy] at hexec
  exact ⟨_, hexec, runEnded_takes y q (by omega)⟩

/-! ### Late edges (R141) -/

theorem chans_recordFail (s : State) (q : Nat) (c : Nat × Nat × Nat) (e : Edge) : (s.recordFail q c e).chans = s.chans := by
  unfold State.recordFail
  dsimp only
  split
  · rfl
  · rw [State.setSeq_chans, State.sat_chans]

/-- An edge that fires is not pending any more, whatever it does. -/
theorem edges_act (c : ChanSt) (e : Edge) (p : Nat × Nat) : (c.act e p).edges = c.edges := by
  unfold ChanSt.act ChanSt.drive
  cases e.act <;> rfl

/-- The earliest pending edge of a channel fires when nothing that the run still waits for comes before it. -/
theorem lateEdgeFire_takes {q : Fin 8} {ch : Fin 2048} (h l : Bool) {c : Nat × Nat × Nat} {e : Edge} {es : List Edge}
    (hs : s.seqState q = sHold ∨ s.seqState q = sDrain ∨ s.seqState q = sRun ∧ e.time < (s.seq q).vtime)
    (hc : (s.chansOf q).find? (fun x => x.1 == ch.val) = some c) (he : (s.chan ch).edges = e :: es) :
    ∃ t, exec (.lateEdgeFire q ch h l) s = .next t ∧ (t.chan ch).edges = es := by
  have fired : ∀ (p : Nat × Nat) (t : State), t.chans = (s.setChan ch ({ s.chan ch with edges := es }.act e p)).chans →
      (t.chan ch).edges = es := fun p t ht => by
    rw [State.chan, ht]
    exact (congrArg ChanSt.edges (Store.getD_setD_same _ _ _ _)).trans (edges_act _ e p)
  change ∃ t, execLateEdgeFire q ch h l s = .next t ∧ _
  unfold execLateEdgeFire
  simp only [hc, he]
  rw [if_neg (by tauto)]
  split
  · exact ⟨_, rfl, fired _ _ (chans_recordFail ..)⟩
  · exact ⟨_, rfl, fired _ _ rfl⟩

end

end Sys2Proof.Machine

/-!
PROOF. START (R192 to R195, R235): what judges it, what it clears and what the run begins with; and O20.
-/

namespace Sys2Proof.Machine

/-! ### Registers stored anew as they were -/

/-- A field stored with what it holds leaves the register. -/
theorem putFld_fld (w : Word) (lo n : Nat) (h : lo + n ≤ 32) : putFld w lo n (fld w lo n) = w := by
  apply BitVec.eq_of_toNat_eq
  rw [toNat_putFld w lo n _ h, Nat.mod_eq_of_lt (fld_lt w lo n)]
  exact (toNat_split w lo n).symm

/-- A list of entries read through `f` does not show the key `k`, so that what is stored under it does not matter. -/
theorem filterMap_setD {α β : Type} [DecidableEq α] (d : Nat → α) {f : Nat × α → Option β} {k : Nat}
    (hf : ∀ v, f (k, v) = none) (m : List (Nat × α)) (v : α) : (Store.setD d m k v).filterMap f = m.filterMap f := by
  have dropped : ∀ l : List (Nat × α), (Store.drop l k).filterMap f = l.filterMap f := by
    intro l
    induction l with
    | nil => rfl
    | cons e t ih =>
      obtain ⟨k', v'⟩ := e
      unfold Store.drop
      split
      · rename_i h
        rw [ih, List.filterMap_cons_none (h ▸ hf v')]
      · rw [List.filterMap_cons, List.filterMap_cons, ih]
  have inserted : ∀ l : List (Nat × α), (Store.insert l k v).filterMap f = l.filterMap f := by
    intro l
    induction l with
    | nil => exact List.filterMap_cons_none (hf v)
    | cons e t ih =>
      obtain ⟨k', v'⟩ := e
      unfold Store.insert
      split
      · exact List.filterMap_cons_none (hf v)
      · rw [List.filterMap_cons, List.filterMap_cons, ih]
  unfold Store.setD Store.put
  split
  · exact dropped m
  · rw [inserted, dropped]

/-- `t` is `s` with registers stored anew as they were: each reads the same, and the assignments of channels are listed alike. -/
structure State.Restored (s t : State) : Prop where
  eq : t = { s with regs := t.regs }
  rd : ∀ k i o, t.rd k i o = s.rd k i o
  assigned : t.assigned = s.assigned

theorem State.Restored.trans {s t u : State} (h1 : State.Restored s t) (h2 : State.Restored t u) : State.Restored s u :=
  ⟨by rw [h2.eq, h1.eq], fun k i o => (h2.rd k i o).trans (h1.rd k i o), h2.assigned.trans h1.assigned⟩

/-- A register of the control page that is stored with what it holds. -/
theorem restored_wr {s : State} {q o : Nat} {v : Word} (h : v = s.rd .seq q o) : State.Restored s (s.wr .seq q o v) := by
  refine ⟨rfl, fun k i o' => ?_, filterMap_setD regReset (fun w => ?_) s.regs v⟩
  · subst h
    exact (reg_setReg s _ _ _).trans (ite_eq_right_iff.mpr fun e => congrArg s.reg e.symm)
  · have hpage : assignChan (PageKind.seq.addr q o) = none := by
      unfold assignChan
      rw [pageAt_addr]
    simp [hpage]

theorem restored_wf {s : State} {q o lo n v : Nat} (hn : lo + n ≤ 32) (h : v = s.rf .seq q o lo n) :
    State.Restored s (s.wf .seq q o lo n v) := restored_wr (by rw [h, State.rf, putFld_fld _ _ _ hn])

section
variable {s t : State} (h : State.Restored s t)
include h

theorem State.Restored.rf (k : PageKind) (i o lo n : Nat) : t.rf k i o lo n = s.rf k i o lo n := rf_of_rd (h.rd k i o) lo n
theorem State.Restored.rb (k : PageKind) (i o b : Nat) : t.rb k i o b = s.rb k i o b := rb_of_rd (h.rd k i o) b
theorem State.Restored.mode : t.mode = s.mode := (congrArg State.mode h.eq :)
theorem State.Restored.follow : t.follow = s.follow := (congrArg State.follow h.eq :)
theorem State.Restored.tims : t.tims = s.tims := (congrArg State.tims h.eq :)
theorem State.Restored.regions : t.regions = s.regions := (congrArg State.regions h.eq :)
theorem State.Restored.tick : t.tick = s.tick := (congrArg State.tick h.eq :)

theorem State.Restored.ownerOf (k : PageKind) (i : Nat) : t.ownerOf k i = s.ownerOf k i := by
  simp only [State.ownerOf, State.acqOwner, h.rf]

theorem State.Restored.followAfter (q : Nat) : t.followAfter q = s.followAfter q := by
  simp only [State.followAfter, State.sameOwner, h.assigned, h.ownerOf, h.follow]
  rfl

/-- START is judged by what the registers read, so that one stored anew is judged alike (R192, R235, R288). -/
theorem State.Restored.startError (q : Nat) : t.startError q = s.startError q := by
  simp only [State.startError, State.modeOf, State.domMode, State.startChans, State.pageEn, State.seqActive, State.tdrRun,
    State.timState, State.timMode, State.tim, State.epochValid, State.mstate, State.startTick, State.rd2, h.rd, h.rf, h.rb, h.mode,
    h.tims, h.tick, h.ownerOf, h.followAfter]
  rfl

theorem State.Restored.enrollMask (q : Nat) : t.enrollMask q = s.enrollMask q := by
  simp only [State.enrollMask, h.rd]

theorem State.Restored.siteError (q : Nat) : t.siteError q = s.siteError q := by
  simp only [State.siteError, State.inRegion, State.capBaseOf, h.rf, h.rb, h.regions, h.ownerOf, h.followAfter, h.enrollMask]
  rfl

theorem State.Restored.apgRangeOk (q : Nat) : t.apgRangeOk q = s.apgRangeOk q := by
  simp only [State.apgRangeOk, State.limX, State.limY, State.limZ, h.rf]
  rfl

end

/-- SEQ_CTRL written with its own settings stores them anew. -/
theorem restored_ctrlStored (s : State) (q n : Nat) :
    State.Restored s (s.ctrlStored q (putFld (s.rd .seq q Off.seqCtrl) 0 3 n)) := by
  unfold State.ctrlStored
  rw [fld_putFld_above _ 0 3 n 4 2 (by decide) (by decide), fld_putFld_above _ 0 3 n 8 2 (by decide) (by decide),
    tbit_putFld_other _ 0 3 n 12 (by decide) (by decide)]
  have h1 : State.Restored s (s.wf .seq q Off.seqCtrl 4 2 (fld (s.rd .seq q Off.seqCtrl) 4 2)) := restored_wf (by decide) rfl
  have h2 := h1.trans (restored_wf (q := q) (o := Off.seqCtrl) (lo := 8) (n := 2) (by decide) (h1.rf .seq q Off.seqCtrl 8 2).symm)
  refine h2.trans (restored_wf (by decide) ?_)
  rw [h2.rf, State.rf, fld_one_eq_bit]

/-! ### What a start clears -/

/-- The records that the catch unit still holds of the run before move neither the control page nor, from SITE_ENROLL on, the site
page (R266). -/
def State.FlushFrame (s t : State) : Prop :=
  ∀ i o, t.rd .seq i o = s.rd .seq i o ∧ (0x100 ≤ o % 0x1000 → t.rd .site i o = s.rd .site i o)

theorem State.FlushFrame.refl (s : State) : State.FlushFrame s s := fun _ _ => ⟨rfl, fun _ => rfl⟩

theorem State.FlushFrame.trans {s t u : State} (h1 : State.FlushFrame s t) (h2 : State.FlushFrame t u) : State.FlushFrame s u :=
  fun i o => ⟨(h2 i o).1.trans (h1 i o).1, fun ho => ((h2 i o).2 ho).trans ((h1 i o).2 ho)⟩

section
variable (s : State)

theorem flushFrame_of_regs {t : State} (h : t.regs = s.regs) : State.FlushFrame s t :=
  fun i o => ⟨rd_of_regs h .seq i o, fun _ => rd_of_regs h .site i o⟩

/-- A write of a page of neither kind, or of a counter of the site page. -/
theorem flushFrame_wr {k : PageKind} (i o : Nat) (v : Word) (h : .seq ≠ k ∧ (.site ≠ k ∨ o % 0x1000 < 0x100)) :
    State.FlushFrame s (s.wr k i o v) := by
  obtain ⟨hseq, hsite⟩ := h
  refine fun i' o' => ⟨rd_wr_kind s i o i' o' v hseq, fun ho => ?_⟩
  rcases hsite with hk | hlow
  · exact rd_wr_kind s i o i' o' v hk
  · exact rd_wr_off s k .site v (by omega)

theorem flushFrame_event {k : PageKind} (i n : Nat) (h : .seq ≠ k ∧ .site ≠ k) : State.FlushFrame s (s.event k i n) :=
  fun i' o' => ⟨rd_event s k i n .seq i' o' (by simp [postReg]) (Or.inl h.1),
    fun _ => rd_event s k i n .site i' o' (by simp [postReg]) (Or.inl h.2)⟩

theorem flushFrame_foldl {α : Type} {f : State → α → State} (h : ∀ x a, State.FlushFrame x (f x a)) (l : List α) :
    State.FlushFrame s (l.foldl f s) :=
  foldl_keeps (State.FlushFrame s) (fun x a hx => hx.trans (h x a)) l (State.FlushFrame.refl s)

theorem flushFrame_with_hay (v : Hayloft) : State.FlushFrame s { s with hay := v } := flushFrame_of_regs s rfl

theorem flushFrame_sat_hbm (o lo n v : Nat) : State.FlushFrame s (s.sat .hbm 0 o lo n v) :=
  flushFrame_wr s 0 _ _ ⟨by decide, Or.inl (by decide)⟩

theorem flushFrame_wb_hbm (o b : Nat) (v : Bool) : State.FlushFrame s (s.wb .hbm 0 o b v) :=
  flushFrame_wr s 0 _ _ ⟨by decide, Or.inl (by decide)⟩

theorem flushFrame_hbmErrAddr (a r : Nat) (ue : Bool) : State.FlushFrame s (s.hbmErrAddr a r ue) :=
  (flushFrame_wr s 0 _ _ (by decide)).trans (flushFrame_wr _ 0 _ _ (by decide))

theorem flushFrame_hbmUe (a r : Nat) : State.FlushFrame s (s.hbmUe a r) :=
  (((flushFrame_sat_hbm s _ _ _ _).trans (flushFrame_hbmErrAddr _ a r true)).trans (flushFrame_event _ 0 3 (by decide))).trans
    (flushFrame_of_regs _ (State.logOffer_regs ..))

theorem flushFrame_hbmCe (a r : Nat) : State.FlushFrame s (s.hbmCe a r) := by
  have counted := (flushFrame_sat_hbm s Off.hbmCeCnt 0 32 1).trans (flushFrame_hbmErrAddr _ a r false)
  unfold State.hbmCe
  dsimp only
  generalize (s.sat .hbm 0 Off.hbmCeCnt 0 32 1).hbmErrAddr a r false = x at counted ⊢
  have rows : ∀ v, State.FlushFrame s { x with hay := v } := fun v => counted.trans (flushFrame_with_hay x v)
  split
  · split
    · exact (rows _).trans (flushFrame_wb_hbm _ _ _ _)
    · exact (rows _).trans (flushFrame_event _ 0 4 (by decide))
  · exact rows _

theorem flushFrame_hayStore (o a : Nat) (bs : List Byte) : State.FlushFrame s (s.hayStore o a bs) := by
  have poison : State.FlushFrame s (s.poisonWrite a bs.length) := by
    refine flushFrame_foldl s (fun x e => ?_) _
    dsimp only
    split
    · exact State.FlushFrame.refl x
    · split
      · exact flushFrame_of_regs x rfl
      · exact flushFrame_wr x 0 _ _ (by decide)
  have stored := posted_hayWriteBytes (s.poisonWrite a bs.length) o a bs
  exact poison.trans fun i o' => ⟨stored.rd .seq i o' (Or.inl (by decide)), fun _ => stored.rd .site i o' (Or.inl (by decide))⟩

theorem flushFrame_hayMerge (o a : Nat) (bs : List Byte) (r : Nat) (e : Ecc) : State.FlushFrame s (s.hayMerge o a bs r e) := by
  unfold State.hayMerge
  extract_lets parts dead live x
  have hx : State.FlushFrame s x :=
    (flushFrame_hayStore s o a bs).trans (flushFrame_foldl _ (fun y w => flushFrame_hbmUe y (32 * w) r) _)
  clear_value live x
  cases live with
  | nil => exact hx
  | cons w ws =>
    cases e with
    | clean => exact hx
    | corrected => exact hx.trans (flushFrame_hbmCe x _ r)
    | uncorrectable =>
      exact ((hx.trans (flushFrame_with_hay x _)).trans (flushFrame_sat_hbm _ _ _ _ _)).trans (flushFrame_hbmUe _ _ r)

theorem flushFrame_capWrite (c : CapRec) : State.FlushFrame s (s.capWrite c) := by
  have hwr : ∀ (x : State) (o : Nat) (v : Word), o % 0x1000 < 0x100 → State.FlushFrame x (x.wr .site c.seq o v) :=
    fun x o v ho => flushFrame_wr x _ o v ⟨by decide, Or.inr ho⟩
  have hcat : ∀ (x : State) (o : Nat) (v : Word), State.FlushFrame x (x.wr .cat 0 o v) := fun x o v =>
    flushFrame_wr x 0 o v ⟨by decide, Or.inl (by decide)⟩
  unfold State.capWrite
  dsimp only
  split
  · exact ((hwr s _ _ (by decide)).trans (hwr _ _ _ (by decide))).trans (flushFrame_of_regs _ rfl)
  · have merged : ∀ o a bs r e, State.FlushFrame s (s.useFree.hayMerge o a bs r e) := fun o a bs r e =>
      (flushFrame_of_regs s rfl).trans (flushFrame_hayMerge s.useFree o a bs r e)
    split
    · exact ((((((merged _ _ _ _ _).trans (hwr _ _ _ (by decide))).trans (hcat _ _ _)).trans (hcat _ _ _)).trans
        (hwr _ _ _ (by decide))).trans (hwr _ _ _ (by decide))).trans (hwr _ _ _ (by decide))
    · exact (((((merged _ _ _ _ _).trans (hwr _ _ _ (by decide))).trans (hcat _ _ _)).trans (hcat _ _ _)).trans
        (hwr _ _ _ (by decide))).trans (hwr _ _ _ (by decide))

theorem flushFrame_capFlush (q : Nat) : State.FlushFrame s (s.capFlush q) :=
  (flushFrame_of_regs s rfl).trans (flushFrame_foldl _ flushFrame_capWrite _)

end

section
variable {s t : State} (q : Nat)

theorem State.FlushFrame.rf (h : State.FlushFrame s t) (o lo n : Nat) : t.rf .seq q o lo n = s.rf .seq q o lo n :=
  rf_of_rd (h q o).1 lo n

theorem State.FlushFrame.enrollMask (h : State.FlushFrame s t) : t.enrollMask q = s.enrollMask q := by
  have kept : ∀ w ∈ upto 16, t.rd .site q (Off.siteEnroll w) = s.rd .site q (Off.siteEnroll w) := fun w hw => by
    have hw' : w < 16 := List.mem_range.mp (by simpa [upto] using hw)
    exact (h q _).2 (by simp only [Off.siteEnroll]; omega)
  unfold State.enrollMask
  refine List.foldl_ext _ _ _ fun m w hw => ?_
  rw [kept w hw]

end

section
variable (s : State) (q : Nat)

/-- Registers of a page set to 0. -/
def State.zeroed (s : State) (q : Nat) (l : List (PageKind × Nat)) : State := l.foldl (fun x e => x.wr e.1 q e.2 0) s

theorem rd_zeroed_kept {o : Nat} {l : List (PageKind × Nat)} (h : ∀ e ∈ l, .seq ≠ e.1 ∨ o % 0x1000 ≠ e.2 % 0x1000) :
    (s.zeroed q l).rd .seq q o = s.rd .seq q o := by
  induction l generalizing s with
  | nil => rfl
  | cons e l ih =>
    refine (ih (s.wr e.1 q e.2 0) fun e' he' => h e' (List.mem_cons_of_mem e he')).trans ?_
    rcases h e List.mem_cons_self with hk | ho
    · exact rd_wr_kind s q e.2 q o 0 hk
    · exact rd_wr_off s e.1 .seq 0 ho

theorem rd_zeroed {o : Nat} {l : List (PageKind × Nat)} (h : (.seq, o) ∈ l) : (s.zeroed q l).rd .seq q o = 0 := by
  have later : ∀ (l : List (PageKind × Nat)) (x : State), x.rd .seq q o = 0 → (x.zeroed q l).rd .seq q o = 0 := fun l x hx =>
    foldl_keeps (fun x : State => x.rd .seq q o = 0)
      (fun x e hx => (reg_setReg x _ _ _).trans (ite_eq_left_iff.mpr fun _ => hx)) l hx
  induction l generalizing s with
  | nil => exact absurd h List.not_mem_nil
  | cons e l ih =>
    rcases List.mem_cons.mp h with rfl | h
    · exact later l _ (rd_wr_same s .seq q o 0)
    · exact ih (s.wr e.1 q e.2 0) h

theorem seqs_zeroed (l : List (PageKind × Nat)) : (s.zeroed q l).seqs = s.seqs :=
  foldl_keeps (f := fun x (e : PageKind × Nat) => x.wr e.1 q e.2 0) (fun x : State => x.seqs = s.seqs) (fun _ _ hx => hx) l rfl

/-- The registers that a start sets to 0 (R192, R203, R232, R269). -/
def startCleared : List (PageKind × Nat) :=
  [(PageKind.seq, Off.seqVcntLo), (.seq, Off.seqVcntHi), (.seq, Off.seqMarkCnt), (.seq, Off.seqTrigCnt),
    (.seq, Off.seqPanicCnt), (.seq, Off.seqStarveEvt), (.seq, Off.seqStarveCycLo), (.seq, Off.seqStarveCycHi),
    (.seq, Off.seqSegCnt), (.tset, Off.seqClashCnt), (.site, Off.siteLost), (.site, Off.sitePostDrop), (.site, Off.capWptrLo),
    (.site, Off.capWptrHi), (.site, Off.capStat), (.site, Off.capCnt), (.site, Off.capDrop)]

theorem startClear_eq : s.startClear q =
    ((s.zeroed q startCleared).wf .seq q Off.seqStrmFault 24 4 0).wb .seq q Off.seqStrmStat 6 false := rfl

theorem rd_startClear {o : Nat} (h : o % 0x1000 ≠ Off.seqStrmFault ∧ o % 0x1000 ≠ Off.seqStrmStat) :
    (s.startClear q).rd .seq q o = (s.zeroed q startCleared).rd .seq q o := by
  rw [startClear_eq, rd_wb_offset _ _ _ _ _ _ _ _ h.2, rd_wf_offset _ _ _ _ _ _ _ _ _ h.1]

theorem seqs_startClear : (s.startClear q).seqs = s.seqs := by
  rw [startClear_eq, State.wb_seqs, State.wf_seqs, seqs_zeroed]

/-! ### What a run begins with -/

/-- The run of sequencer `q` stands before its vector 0, at address `a` with the sites of `m`, and has no result yet. -/
structure State.RunBegun (s : State) (q a m : Nat) : Prop where
  armed : s.seqState q = sArmed
  count : s.vcnt q = 0
  next : (s.seq q).next = a
  sites : (s.seq q).sites.enrolled = m
  noResult : s.rb .seq q Off.seqResultLo 16 = false

/-- What shows the same state, count, address, sites and result of a run. -/
theorem State.RunBegun.keep {s t : State} {q a m : Nat} (h : s.RunBegun q a m) (hstate : t.seqState q = s.seqState q)
    (hrd : ∀ o ∈ [Off.seqVcntLo, Off.seqVcntHi, Off.seqResultLo], t.rd .seq q o = s.rd .seq q o)
    (hnext : (t.seq q).next = (s.seq q).next) (hsites : (t.seq q).sites = (s.seq q).sites) : t.RunBegun q a m where
  armed := hstate.trans h.armed
  count := by
    have hcount := h.count
    unfold State.vcnt State.rd2 at hcount ⊢
    rwa [hrd _ (by decide), hrd _ (by decide)]
  next := hnext.trans h.next
  sites := hsites ▸ h.sites
  noResult := (rb_of_rd (hrd _ (by decide)) 16).trans h.noResult

/-- The sequencer takes up the state `x` of a new run, with its counters cleared and its streamer at work. -/
def State.runArmed (s : State) (q : Nat) (x : SeqSt) : State :=
  ((((s.setSeq q x).startResult .seq q Off.seqResultLo).startClear q).setMstate q mStreaming).setSeqState q sArmed

theorem runArmed_begun (x : SeqSt) : (s.runArmed q x).RunBegun q x.next x.sites.enrolled := by
  have hrd : ∀ o, o % 0x1000 ≠ Off.seqStat ∧ o % 0x1000 ≠ Off.pgEvt ∧ o % 0x1000 ≠ Off.seqStrmStat ∧
      o % 0x1000 ≠ Off.seqStrmCtrl ∧ o % 0x1000 ≠ Off.seqStrmFault → (s.runArmed q x).rd .seq q o =
        (((s.setSeq q x).startResult .seq q Off.seqResultLo).zeroed q startCleared).rd .seq q o := fun o ho => by
    obtain ⟨hstat, hevt, hstrm, hctrl, hfault⟩ := ho
    rw [State.runArmed, rd_setSeqState _ q _ hstat, rd_setMstate _ q _ ⟨hevt, hstrm, hctrl⟩,
      rd_startClear _ q ⟨hfault, hstrm⟩]
  have hseq : (s.runArmed q x).seq q = x := by
    rw [State.runArmed, seq_setSeqState, seq_setMstate, seq_of_seqs (seqs_startClear _ q), State.startResult,
      seq_of_seqs (State.wb_seqs ..), seq_setSeq_same]
  refine ⟨seqState_setSeqState _ q (by decide), ?_, by rw [hseq], by rw [hseq], ?_⟩
  · rw [State.vcnt, State.rd2, hrd _ (by decide), hrd _ (by decide), rd_zeroed _ q (by decide), rd_zeroed _ q (by decide)]
    rfl
  · rw [rb_of_rd ((hrd _ (by decide)).trans (rd_zeroed_kept _ q (by decide)))]
    exact startResult_valid ..

/-- What an ARMED run waits for by START_MODE: the event, the tick `k`, the farrier or the earliest tick `first` (R193, R194). -/
def State.runScheduled (s : State) (q mode k first : Nat) : State :=
  if mode = onEvent then s
  else if mode = atTickMode then s.setSeq q { s.seq q with startAt := some k }
  else if s.farrierHolds q then (s.wb .seq q Off.seqStat 16 true).event .seq q 4
  else s.setSeq q { s.seq q with startAt := some first }

theorem runScheduled_begun {s : State} {q a m : Nat} (h : s.RunBegun q a m) (mode k first : Nat) :
    (s.runScheduled q mode k first).RunBegun q a m := by
  have scheduled : ∀ n, (s.setSeq q { s.seq q with startAt := some n }).RunBegun q a m := fun n =>
    h.keep rfl (fun _ _ => rfl) (by rw [seq_setSeq_same]) (by rw [seq_setSeq_same])
  have deferred : ((s.wb .seq q Off.seqStat 16 true).event .seq q 4).RunBegun q a m := by
    have hevent : ∀ o, o % 0x1000 ≠ Off.pgEvt →
        ((s.wb .seq q Off.seqStat 16 true).event .seq q 4).rd .seq q o = (s.wb .seq q Off.seqStat 16 true).rd .seq q o :=
      fun o ho => rd_event _ .seq q 4 .seq q o (by simp [postReg]) (Or.inr (Or.inr ho))
    have hseq : ((s.wb .seq q Off.seqStat 16 true).event .seq q 4).seq q = s.seq q :=
      seq_of_seqs ((State.event_seqs ..).trans (State.wb_seqs ..)) q
    refine h.keep ?_ (fun o ho => ?_) (by rw [hseq]) (by rw [hseq])
    · exact (rf_of_rd (hevent _ (by decide)) 0 3).trans (seqState_wb s q true (by decide) (by decide))
    · have hoff : o % 0x1000 ≠ Off.pgEvt ∧ o % 0x1000 ≠ Off.seqStat := by
        revert o
        decide
      exact (hevent o hoff.1).trans (rd_wb_offset _ _ _ _ _ _ _ _ hoff.2)
  unfold State.runScheduled
  split
  · exact h
  · split
    · exact scheduled k
    · split
      · exact deferred
      · exact scheduled first

theorem startRun_eq (s : State) (q : Nat) : ∃ (y : State) (x : SeqSt) (mode k first : Nat),
    x.next = (s.capFlush q).rf .seq q Off.seqStartAddr 0 24 ∧ x.sites.enrolled = (s.capFlush q).enrollMask q ∧
      s.startRun q = (y.runArmed q x).runScheduled q mode k first := by
  unfold State.startRun
  generalize s.capFlush q = y
  exact ⟨_, _, _, _, _, rfl, rfl, rfl⟩

/-- A start begins at SEQ_START_ADDR with the enrolled sites, whatever it waits for (R193, R235). -/
theorem startRun_begun : (s.startRun q).RunBegun q (s.rf .seq q Off.seqStartAddr 0 24) (s.enrollMask q) := by
  have frame := flushFrame_capFlush s q
  obtain ⟨y, x, mode, k, first, hnext, hsites, heq⟩ := startRun_eq s q
  rw [heq, ← frame.rf q, ← frame.enrollMask q, ← hnext, ← hsites]
  exact runScheduled_begun (runArmed_begun y q x) mode k first

/-- The streamer's run-ahead that a start shows is no part of the run. -/
theorem startShown_begun {s : State} {q a m : Nat} (h : s.RunBegun q a m) : (s.startShown q).RunBegun q a m := by
  unfold State.startShown
  cases (s.seq q).map with
  | none => exact h
  | some l =>
    obtain ⟨hstate, hseq⟩ := panicUpdate_run s q l (s.seq q).next
    refine h.keep hstate (fun o ho => rd_panicUpdate s q l _ ?_) (by rw [hseq]) (by rw [hseq])
    revert o
    decide

/-- A START that every check lets pass begins the run. -/
theorem seqStart_begins {s : State} {q : Nat} (he : s.startError q = none) (hs : s.siteError q = none)
    (ha : s.pageEn .apg q = true → s.apgRangeOk q = true) :
    (s.seqStart q).RunBegun q (s.rf .seq q Off.seqStartAddr 0 24) (s.enrollMask q) := by
  unfold State.seqStart
  simp only [he, hs]
  rw [if_neg fun h => Bool.false_ne_true (h.2.symm.trans (ha h.1))]
  exact startShown_begun (startRun_begun s q)

theorem seqStart_takes {s : State} {r : Requester} {q : Fin 8}
    (hacc : s.accepts r .seq q Off.seqCtrl (putFld (s.rd .seq q Off.seqCtrl) 0 3 1) = true)
    (hm : fld (putFld (s.rd .seq q Off.seqCtrl) 0 3 1) 4 2 ≠ 3) (he : s.startError q = none) (hs : s.siteError q = none)
    (ha : s.pageEn .apg q = true → s.apgRangeOk q = true) :
    ∃ t, exec (.seqStart r q) s = .next t ∧ t.RunBegun q (s.rf .seq q Off.seqStartAddr 0 24) (s.enrollMask q) := by
  have stored := restored_ctrlStored s q 1
  refine ⟨_, congrArg Host.Outcome.next ((guarded_of_accepts hacc _).trans (seqCtrlWrite_start hm)), ?_⟩
  rw [← stored.rf, ← stored.enrollMask q]
  exact seqStart_begins ((stored.startError q).trans he) ((stored.siteError q).trans hs) fun h =>
    (stored.apgRangeOk q).trans (ha ((stored.rb .apg q Off.pgCtrl 0).symm.trans h))

end

/-- Settles O20: each command by its own lemma above. -/
theorem runCommandsTakeEffect : Obligations.RunCommandsTakeEffect := by
  refine ⟨fun r q s hacc hm he hs ha => ?_, fun r q s => seqStop_takes, fun r q s => seqAbort_takes,
    fun q k s => vector0Begin_takes, fun q k s => holdEnd_takes, fun q e s => drainComplete_takes,
    fun q ch h l c e es s => lateEdgeFire_takes h l⟩
  obtain ⟨t, hexec, begun⟩ := seqStart_takes hacc hm he hs ha
  exact ⟨t, hexec, begun.armed, begun.count, begun.next, begun.sites, begun.noResult⟩

end Sys2Proof.Machine

/-!
PROOF. The sequencers and their control pages under the operations of the other blocks: entries and events, the hayloft, TIM
units, converters, acquisition engines, PMUs and levels. What an LDLV, a TRIG or the refill does there leaves every run.
-/

namespace Sys2Proof.Machine

/-- The sequencers, and the registers of their control pages. -/
def State.control (s : State) : List (Nat × SeqSt) × (Nat → Nat → Word) := (s.seqs, fun q o => s.rd .seq q o)

/-! ### Reading the control -/

theorem seqs_of_control {s t : State} (h : t.control = s.control) : t.seqs = s.seqs := congrArg Prod.fst h

theorem seq_of_control {s t : State} (h : t.control = s.control) (q : Nat) : t.seq q = s.seq q :=
  seq_of_seqs (seqs_of_control h) q

theorem rd_of_control {s t : State} (h : t.control = s.control) (q o : Nat) : t.rd .seq q o = s.rd .seq q o :=
  congrFun (congrFun (congrArg Prod.snd h) q) o

theorem control_eq {s t : State} (hs : t.seqs = s.seqs) (hr : ∀ q o, t.rd .seq q o = s.rd .seq q o) : t.control = s.control :=
  Prod.ext hs (funext fun q => funext (hr q))

/-! ### Branches, folds and fields -/

variable (s : State)

/-- Within `State.control` only the outermost operation is rewritten: what it stores is of no account. -/
@[congr] theorem control_congr : s.control = s.control := rfl

@[simp] theorem control_ite (c : Prop) [Decidable c] (a b : State) :
    (if c then a else b).control = if c then a.control else b.control := apply_ite State.control c a b

theorem control_foldl {α : Type} (f : State → α → State) (l : List α) (h : ∀ x a, (f x a).control = x.control) :
    (l.foldl f s).control = s.control :=
  foldl_keeps (fun x => x.control = s.control) (fun x a hx => (h x a).trans hx) l rfl

@[simp] theorem control_useFree : s.useFree.control = s.control := (rfl)
@[simp] theorem control_setStall (i : Nat) (v : StallSt) : (s.setStall i v).control = s.control := (rfl)
@[simp] theorem control_setRing (i : Nat) (v : RingSt) : (s.setRing i v).control = s.control := (rfl)
@[simp] theorem control_setChan (i : Nat) (v : ChanSt) : (s.setChan i v).control = s.control := (rfl)
@[simp] theorem control_setTim (i c : Nat) (v : TimUnit) : (s.setTim i c v).control = s.control := (rfl)
@[simp] theorem control_setPmu (i u : Nat) (v : PmuSt) : (s.setPmu i u v).control = s.control := (rfl)
@[simp] theorem control_setCnv (i u : Nat) (v : CnvUnit) : (s.setCnv i u v).control = s.control := (rfl)
@[simp] theorem control_setAcq (i : Nat) (v : AcqSt) : (s.setAcq i v).control = s.control := (rfl)
@[simp] theorem control_with_hay (v : Hayloft) : { s with hay := v }.control = s.control := (rfl)
@[simp] theorem control_with_catBuf (v : List CapRec) : { s with catBuf := v }.control = s.control := (rfl)
@[simp] theorem control_with_lastTrig (v : List (Nat × Nat × Nat)) : { s with lastTrig := v }.control = s.control := (rfl)

/-! ### Pages of other kinds -/

section
variable {k : PageKind} (h : .seq ≠ k)
include h

@[simp] theorem control_wr (i o : Nat) (v : Word) : (s.wr k i o v).control = s.control :=
  control_eq (State.wr_seqs ..) fun q o' => rd_wr_kind s i o q o' v h
@[simp] theorem control_wf (i o lo n v : Nat) : (s.wf k i o lo n v).control = s.control := control_wr s h i o _
@[simp] theorem control_wb (i o b : Nat) (v : Bool) : (s.wb k i o b v).control = s.control := control_wr s h i o _
@[simp] theorem control_sat (i o lo n v : Nat) : (s.sat k i o lo n v).control = s.control := control_wr s h i o _
@[simp] theorem control_inc (i o lo n v : Nat) : (s.inc k i o lo n v).control = s.control := control_wr s h i o _
@[simp] theorem control_startResult (i o : Nat) : (s.startResult k i o).control = s.control := control_wr s h i o _
@[simp] theorem control_storeResult (i o v : Nat) : (s.storeResult k i o v).control = s.control := control_wr s h i o _
@[simp] theorem control_wr2 (i lo hi v : Nat) : (s.wr2 k i lo hi v).control = s.control :=
  (control_wr _ h i hi _).trans (control_wr s h i lo _)

@[simp] theorem control_event (i n : Nat) : (s.event k i n).control = s.control :=
  control_eq (State.event_seqs ..) fun q o => rd_event s k i n .seq q o (by simp [postReg]) (Or.inl h)

@[simp] theorem control_err (i c off : Nat) : (s.err k i c off).control = s.control :=
  control_eq (State.err_seqs ..) fun q o => rd_err s k i c off .seq q o (by simp [postReg]) (Or.inl h)

end

/-! ### Rings and entries -/

theorem control_of_posted {s t : State} (h : State.Posted s t) : t.control = s.control :=
  control_eq (congrArg State.seqs h.frame.eq :) fun q o => h.rd .seq q o (Or.inl (by decide))

@[simp] theorem control_countLoss (p : Producer) : (s.countLoss p).control = s.control := by
  cases p <;> simp (disch := decide) [State.countLoss]

@[simp] theorem control_ringLose (n : Nat) : (s.ringLose n).control = s.control := control_of_posted (posted_ringLose s n)
@[simp] theorem control_ringFlags (n : Nat) : (s.ringFlags n).control = s.control := control_of_posted (posted_ringFlags s n)
@[simp] theorem control_ringDrop (n : Nat) : (s.ringDrop n).control = s.control := control_of_posted (posted_ringDrop s n)
@[simp] theorem control_ringWord (n o : Nat) (v : Word) : (s.setReg (ringAddr n o) v).control = s.control :=
  control_of_posted (posted_ringWord s n o v)
@[simp] theorem control_ringCount (n k : Nat) : (s.ringCount n k).control = s.control := control_of_posted (posted_ringCount s n k)
@[simp] theorem control_ringDropSignal (n : Nat) : (s.ringDropSignal n).control = s.control :=
  control_of_posted (posted_ringDropSignal s n)
@[simp] theorem control_ringStore (n : Nat) (p : Producer) (ty body : Nat) (gap : Bool) :
    (s.ringStore n p ty body gap).control = s.control := control_of_posted (posted_ringStore s n p ty body gap)

/-- An offer, however it ends and whatever loss its producer counts. -/
@[simp] theorem control_offer (n : Nat) (p : Producer) (wait : Bool) (ty body : Nat) :
    (s.offer n p wait ty body).1.control = s.control := by
  unfold State.offer
  split
  · simp
  · split
    · split
      · split <;> simp
      · simp
      · simp
    · simp

@[simp] theorem control_post (n : Nat) (p : Producer) (wait : Bool) (ty body : Nat) :
    (s.post n p wait ty body).control = s.control := control_offer s n p wait ty body

/-! ### The hayloft -/

@[simp] theorem control_logOffer (c ty i d : Nat) : (s.logOffer c ty i d).control = s.control :=
  control_eq (State.logOffer_seqs ..) fun q o => rd_of_regs (State.logOffer_regs ..) .seq q o

@[simp] theorem control_hbmUe (a r : Nat) : (s.hbmUe a r).control = s.control := by
  simp (disch := decide) [State.hbmUe, State.hbmErrAddr]

@[simp] theorem control_hbmCe (a r : Nat) : (s.hbmCe a r).control = s.control := by
  have counted : ((s.sat .hbm 0 Off.hbmCeCnt 0 32 1).hbmErrAddr a r false).seqs = s.seqs := by
    rw [State.hbmErrAddr, State.wr2_seqs, State.sat_seqs]
  refine control_eq ?_ fun q o => (refills_hbmCe s q a r).rd o
  unfold State.hbmCe
  dsimp only
  generalize (s.sat .hbm 0 Off.hbmCeCnt 0 32 1).hbmErrAddr a r false = x at counted ⊢
  split
  · split
    · exact (State.wb_seqs ..).trans counted
    · exact (State.event_seqs ..).trans counted
  · exact counted

/-- A read, whatever error correction finds in it. -/
@[simp] theorem control_eccRead (a n r : Nat) (e : Ecc) : (s.eccRead a n r e).1.control = s.control := by
  have dead := control_foldl s (fun x w => x.hbmUe (32 * w) r) (s.deadWords a n) fun x w => control_hbmUe x (32 * w) r
  cases e <;> simp [State.eccRead, dead]

@[simp] theorem control_portPanic (b : Nat) : (s.portPanic b).control = s.control := by
  simp (disch := decide) [State.portPanic]

@[simp] theorem control_portCalm (b : Nat) : (s.portCalm b).control = s.control := control_wb s (by decide) _ _ _ _

/-! ### TIM units -/

@[simp] theorem control_timPulse (st c : Nat) (p : Nat × Nat) : (s.timPulse st c p).control = s.control := by
  simp (disch := decide) [State.timPulse, State.setTimState]

@[simp] theorem control_timNow (st c : Nat) : (s.timNow st c).control = s.control :=
  (control_foldl _ _ _ fun x p => control_timPulse x st c p).trans (control_setTim s st c _)

@[simp] theorem control_timTrigger (q m t : Nat) : (s.timTrigger q m t).control = s.control := by
  refine (control_foldl _ _ _ fun x e => ?_).trans (control_with_lastTrig s _)
  simp

/-! ### Acquisition engines -/

@[simp] theorem control_setAcqState (b v : Nat) : (s.setAcqState b v).control = s.control := control_wf s (by decide) _ _ _ _ _

@[simp] theorem control_acqStore (b : Nat) (r : AcqRec) : (s.acqStore b r).control = s.control := by
  simp (disch := decide) [State.acqStore]

@[simp] theorem control_acqRelease (b n : Nat) : (s.acqRelease b n).control = s.control := by
  unfold State.acqRelease
  split <;> simp

@[simp] theorem control_acqPort (b : Nat) : (s.acqPort b).control = s.control := by simp [State.acqPort]

theorem control_acqOffer {b n : Nat} {force : Bool} {t : State} (h : s.acqOffer b n force = some t) : t.control = s.control := by
  unfold State.acqOffer at h
  dsimp only at h
  repeat' split at h
  all_goals cases h
  all_goals simp

@[simp] theorem control_acqPumpN (b n : Nat) (force : Bool) (fuel : Nat) : (s.acqPumpN b n force fuel).control = s.control := by
  induction fuel generalizing s with
  | zero => rfl
  | succ f ih =>
    rw [State.acqPumpN]
    split
    · rename_i x hx
      rw [ih, control_acqOffer s hx]
    · rfl

@[simp] theorem control_acqPump (b : Nat) (force : Bool) : (s.acqPump b force).control = s.control := by
  unfold State.acqPump
  dsimp only
  repeat' split
  all_goals simp

@[simp] theorem control_acqClose (b n c : Nat) (trunc : Bool) : (s.acqClose b n c trunc).control = s.control := by
  unfold State.acqClose
  dsimp only
  split <;> simp (disch := decide)

@[simp] theorem control_acqPostCheck (b : Nat) : (s.acqPostCheck b).control = s.control := by
  unfold State.acqPostCheck
  dsimp only
  split <;> simp

@[simp] theorem control_acqOverflow (b n : Nat) : (s.acqOverflow b n).control = s.control := by
  unfold State.acqOverflow
  split <;> simp

@[simp] theorem control_acqEvent (b t : Nat) : (s.acqEvent b t).control = s.control := by
  simp (disch := decide) [State.acqEvent]

@[simp] theorem control_acqReach (b : Nat) : (s.acqReach b).control = s.control := by
  simp [State.acqReach, control_foldl _ _ _ fun x t => control_acqEvent x b t]

@[simp] theorem control_acqLine (q m t : Nat) : (s.acqLine q m t).control = s.control :=
  control_foldl s _ _ fun x b => by simp

/-! ### Converters -/

@[simp] theorem control_cnvTrigger (st u t : Nat) : (s.cnvTrigger st u t).control = s.control := by
  simp (disch := decide) [State.cnvTrigger, State.setCnvState]

@[simp] theorem control_cnvReach (st u : Nat) : (s.cnvReach st u).control = s.control := by
  simp [State.cnvReach, control_foldl _ _ _ fun x t => control_cnvTrigger x st u t]

@[simp] theorem control_cnvLine (q m t : Nat) : (s.cnvLine q m t).control = s.control :=
  control_foldl s _ _ fun x e => by simp

/-! ### PMUs and levels -/

@[simp] theorem control_pmuTrigger (q m k : Nat) : (s.pmuTrigger q m k).control = s.control := by
  refine control_foldl s _ _ fun x e => ?_
  dsimp only
  split <;> simp

@[simp] theorem control_applyWave (st u : Nat) (p : PmuSt) : (s.applyWave st u p).control = s.control := by
  simp (disch := decide) [State.applyWave, State.pmuFlag]

@[simp] theorem control_pmuStrobe (st : Nat) : (s.pmuStrobe st).control = s.control :=
  control_foldl s _ _ fun x u => by simp (disch := decide) [State.applyForce]

@[simp] theorem control_copyLevels (st c : Nat) : (s.copyLevels st c).control = s.control :=
  control_foldl s _ _ fun x i => control_wr x (by decide) _ _ _

/-- A load strobe, taken or refused. -/
@[simp] theorem control_loadStrobe (st off : Nat) : (s.loadStrobe st off).control = s.control := by
  have copied := control_foldl s _ (upto 16) fun x c => control_copyLevels x st c
  simp (disch := decide) [State.loadStrobe, copied]

end Sys2Proof.Machine

/-!
PROOF. One issued vector (R166 to R168, R177, R206): what leaves the pipeline before it, what it leaves of the run, and that what
follows its issue (its effect on other blocks, the boundary, the end of the run) moves no address, count, stack or site mask.
-/

namespace Sys2Proof.Machine

/-! ### What leaves the pipeline (R177, R251) -/

/-- A sequencer but for its pipeline, the state of its sites and the waiting snapshots. -/
def SeqSt.flow (x : SeqSt) : SeqSt := { x with pipe := [], sites := Sites.idle, snaps := [] }

/-- Edges have fired and vectors have left the pipeline of sequencer `q`: the control page and what decides the flow stay. -/
structure State.RetireFrame (q : Nat) (s t : State) : Prop where
  rd : ∀ o, t.rd .seq q o = s.rd .seq q o
  flow : (t.seq q).flow = (s.seq q).flow

theorem State.RetireFrame.refl (q : Nat) (s : State) : State.RetireFrame q s s := ⟨fun _ => rfl, rfl⟩

theorem State.RetireFrame.trans {q : Nat} {s t u : State} (h1 : State.RetireFrame q s t) (h2 : State.RetireFrame q t u) :
    State.RetireFrame q s u :=
  ⟨fun o => (h2.rd o).trans (h1.rd o), h2.flow.trans h1.flow⟩

theorem State.RetireFrame.vcnt {q : Nat} {s t : State} (h : State.RetireFrame q s t) : t.vcnt q = s.vcnt q := by
  rw [State.vcnt, State.rd2, h.rd, h.rd, State.vcnt, State.rd2]

section
variable (q : Nat) (s : State)

theorem retireFrame_of_control {t : State} (h : t.control = s.control) : State.RetireFrame q s t :=
  ⟨rd_of_control h q, by rw [seq_of_control h]⟩

theorem retireFrame_setSeq {v : SeqSt} (h : v.flow = (s.seq q).flow) :
    State.RetireFrame q s (s.setSeq q v) :=
  ⟨fun _ => rfl, by rw [seq_setSeq_same]; exact h⟩

theorem retireFrame_foldl {α : Type} {f : State → α → State} (h : ∀ x a, State.RetireFrame q x (f x a)) (l : List α) :
    State.RetireFrame q s (l.foldl f s) :=
  foldl_keeps (State.RetireFrame q s) (fun x a hx => hx.trans (h x a)) l (State.RetireFrame.refl q s)

theorem retireFrame_recordFail (c : Nat × Nat × Nat) (e : Edge) : State.RetireFrame q s (s.recordFail q c e) := by
  unfold State.recordFail
  dsimp only
  split
  · exact State.RetireFrame.refl q s
  · exact (retireFrame_of_control q s (control_sat s (by decide) _ _ _ _ _)).trans (retireFrame_setSeq q _ rfl)

theorem retireFrame_fireAll (cur limit : Nat) (obs : List Sample) : State.RetireFrame q s (s.fireAll q cur limit obs) :=
  retireFrame_foldl q s (fun x c =>
    (retireFrame_of_control q x (control_setChan x _ _)).trans
      (retireFrame_foldl q _ (fun y e => retireFrame_recordFail q y c e) _)) _

theorem retireFrame_capture (v : VecRec) (site : Nat) : State.RetireFrame q s (s.capture q v site) := by
  unfold State.capture
  extract_lets x n _ s1 y _ lost kept
  have h1 : State.RetireFrame q s s1 := retireFrame_setSeq q s rfl
  split
  · exact State.RetireFrame.refl q s
  · split
    · exact retireFrame_setSeq q s rfl
    · split
      · have hl : State.RetireFrame q s1 lost := retireFrame_setSeq q s1 rfl
        exact (h1.trans hl).trans (retireFrame_of_control q lost (by simp (disch := decide)))
      · exact h1.trans (retireFrame_of_control q s1 ((control_wr kept (by decide) _ _ _).trans (control_with_catBuf s1 _)))

/-- A vector leaves the pipeline. -/
theorem retireFrame_retire (v : VecRec) : State.RetireFrame q s (s.retire q v) := by
  unfold State.retire
  extract_lets x op fail st ff x1 _ s1 s2 y _ s3 z _
  have h1 : State.RetireFrame q s s1 := retireFrame_setSeq q s rfl
  have h2 : State.RetireFrame q s1 s2 := by
    simp only [s2]
    split
    · exact State.RetireFrame.refl q s1
    · exact retireFrame_foldl q s1 (fun z i => (retireFrame_setSeq q z (by rfl)).trans (retireFrame_capture q _ v i)) _
  have h3 : State.RetireFrame q s2 s3 := by
    simp only [s3]
    split
    · exact retireFrame_setSeq q s2 rfl
    · exact State.RetireFrame.refl q s2
  refine (h1.trans h2).trans (h3.trans ?_)
  split
  · exact State.RetireFrame.refl q s3
  · split
    · exact retireFrame_of_control q s3 (by simp (disch := decide))
    · exact retireFrame_setSeq q s3 rfl

theorem retireFrame_retireHead (obs : List Sample) : State.RetireFrame q s (s.retireHead q obs).1 := by
  unfold State.retireHead
  extract_lets s1 x
  have fired : State.RetireFrame q s s1 := retireFrame_fireAll q s (s.vcnt q) (s.seq q).vtime obs
  have popped : ∀ p, State.RetireFrame q s1 (s1.setSeq q { x with pipe := p }) := fun p => retireFrame_setSeq q s1 rfl
  split
  · exact fired
  · split
    · exact fired
    · exact (fired.trans (popped _)).trans (retireFrame_retire q _ _)

end

/-! ### What follows the issue of a vector -/

/-- A sequencer but for what the boundary after a vector, the refill and the end of the run move. -/
def SeqSt.course (x : SeqSt) : SeqSt :=
  { x with
    ending := none, thermSeg := false, thermVec := false, gap := none, starving := false
    resident := [], recent := [], retried := []
    sites := { x.sites with starved := 0 } }

/-- The address of the vector last issued, and the vector count. -/
def vecRegs : List Nat := [Off.seqPc, Off.seqVcntLo, Off.seqVcntHi]

/-- What follows the issue of a vector of sequencer `q`: its address, the vector count, and the course of the run stay. -/
structure State.VecFrame (q : Nat) (s t : State) : Prop where
  rd : ∀ o ∈ vecRegs, t.rd .seq q o = s.rd .seq q o
  course : (t.seq q).course = (s.seq q).course

theorem State.VecFrame.refl (q : Nat) (s : State) : State.VecFrame q s s := ⟨fun _ _ => rfl, rfl⟩

theorem State.VecFrame.trans {q : Nat} {s t u : State} (h1 : State.VecFrame q s t) (h2 : State.VecFrame q t u) :
    State.VecFrame q s u :=
  ⟨fun o ho => (h2.rd o ho).trans (h1.rd o ho), h2.course.trans h1.course⟩

theorem State.VecFrame.vcnt {q : Nat} {s t : State} (h : State.VecFrame q s t) : t.vcnt q = s.vcnt q := by
  rw [State.vcnt, State.rd2, h.rd _ (by decide), h.rd _ (by decide), State.vcnt, State.rd2]

section
variable (q : Nat) (s : State)

theorem vecFrame_of_seqs {t : State} (hs : t.seqs = s.seqs) (hr : ∀ o ∈ vecRegs, t.rd .seq q o = s.rd .seq q o) :
    State.VecFrame q s t := ⟨hr, by rw [seq_of_seqs hs]⟩

theorem vecFrame_of_control {t : State} (h : t.control = s.control) : State.VecFrame q s t :=
  vecFrame_of_seqs q s (seqs_of_control h) fun o _ => rd_of_control h q o

theorem vecFrame_setSeq {v : SeqSt} (h : v.course = (s.seq q).course) : State.VecFrame q s (s.setSeq q v) :=
  ⟨fun _ _ => rfl, by rw [seq_setSeq_same]; exact h⟩

/-- A write of the control page beside the address and the count. -/
theorem vecFrame_wr (o : Nat) (v : Word) (h : ∀ o' ∈ vecRegs, o' % 0x1000 ≠ o % 0x1000) :
    State.VecFrame q s (s.wr .seq q o v) :=
  vecFrame_of_seqs q s (State.wr_seqs ..) fun o' ho => rd_wr_offset s .seq q o q o' v (h o' ho)

theorem vecFrame_wf (o lo n v : Nat) (h : ∀ o' ∈ vecRegs, o' % 0x1000 ≠ o % 0x1000) :
    State.VecFrame q s (s.wf .seq q o lo n v) :=
  vecFrame_wr q s o _ h

theorem vecFrame_setSeqState (v : Nat) : State.VecFrame q s (s.setSeqState q v) := vecFrame_wf q s _ _ _ _ (by decide)

theorem vecFrame_event (n : Nat) : State.VecFrame q s (s.event .seq q n) :=
  vecFrame_of_seqs q s (State.event_seqs ..) fun o ho =>
    rd_event s .seq q n .seq q o (by simp [postReg])
      (Or.inr (Or.inr ((by decide : ∀ o' ∈ vecRegs, o' % 0x1000 ≠ Off.pgEvt) o ho)))

theorem vecFrame_foldl {α : Type} {f : State → α → State} (h : ∀ x a, State.VecFrame q x (f x a)) (l : List α) :
    State.VecFrame q s (l.foldl f s) :=
  foldl_keeps (State.VecFrame q s) (fun x a hx => hx.trans (h x a)) l (State.VecFrame.refl q s)

theorem vecFrame_panicUpdate (m : List Seg) (a : Nat) : State.VecFrame q s (s.panicUpdate q m a) :=
  vecFrame_of_seqs q s (seqs_panicUpdate s q m a) fun o ho => rd_panicUpdate s q m a
    ((by decide : ∀ o' ∈ vecRegs, o' % 0x1000 ≠ Off.pgEvt ∧ o' % 0x1000 ≠ Off.seqStrmStat ∧ o' % 0x1000 ≠ Off.seqPanicCnt) o ho)

theorem vecFrame_evict (m : List Seg) (a : Nat) : State.VecFrame q s (s.evict q m a) := vecFrame_setSeq q s rfl

theorem vecFrame_enterGranule (a : Nat) : State.VecFrame q s (s.enterGranule q a) := by
  unfold State.enterGranule
  dsimp only
  split
  · exact State.VecFrame.refl q s
  · split
    · exact State.VecFrame.refl q s
    · exact (vecFrame_setSeq q s (by rfl)).trans (vecFrame_evict q _ _ a)

/-- The refill reads a granule. -/
theorem vecFrame_loadGranule (m : List Seg) (ecc : State → Nat → Bool → Ecc) (g : Nat) :
    State.VecFrame q s (s.loadGranule q m ecc g) := by
  unfold State.loadGranule
  split
  · exact State.VecFrame.refl q s
  · rename_i sg _
    split
    · exact State.VecFrame.refl q s
    · extract_lets r r2
      have h2 : State.VecFrame q s r2.1 := by
        refine vecFrame_of_control q s ?_
        simp only [r2]
        split <;> simp [r]
      split
      · exact h2
      · exact h2.trans (vecFrame_setSeq q _ rfl)

theorem vecFrame_windowsLoaded (m : List Seg) (a : Nat) : State.VecFrame q s (s.windowsLoaded q m a) := by
  unfold State.windowsLoaded
  split
  · exact vecFrame_foldl q s (fun x g => vecFrame_loadGranule q x m freeReads g) _
  · exact State.VecFrame.refl q s

theorem vecFrame_starveCount : State.VecFrame q s (s.starveCount q) := by
  unfold State.starveCount State.wr2
  exact (vecFrame_wr q s _ _ (by decide)).trans (vecFrame_wr q _ _ _ (by decide))

/-- The run enters DRAIN (R198, R200). -/
theorem vecFrame_endRun (e : RunEnd) : State.VecFrame q s (s.endRun q e) := by
  unfold State.endRun
  extract_lets s0 x s1
  have counted : State.VecFrame q s s0 := vecFrame_starveCount q s
  have hseq : s0.seq q = s.seq q := seq_of_seqs (State.wr2_seqs ..) q
  have drained : State.VecFrame q s s1 :=
    (counted.trans (vecFrame_setSeq q s0 (by rw [hseq]; rfl))).trans (vecFrame_setSeqState q _ sDrain)
  split
  · have aborted := runFrame_farAbort q s1 fun f => f.src = .calgap &&
      (onesOf f.mask 16).any fun c => fld (s.following (16 * f.stall + c)) 8 3 == q
    refine drained.trans ⟨fun o _ => aborted.rd o, ?_⟩
    rw [aborted.seq (by rw [seqState_setSeqState _ q (by decide)]; decide)]
  · exact drained

/-- The boundary after a vector (R206, R223, R225 to R228). -/
theorem vecFrame_boundary (v : Vec) (active : Nat) (inRep : Bool) : State.VecFrame q s (s.boundary q v active inRep) := by
  unfold State.boundary
  extract_lets x same
  split
  · exact State.VecFrame.refl q s
  · rename_i m _
    extract_lets segCh s1 s2 starves therm y starved shown s3 held thermal _ s4
    have h1 : State.VecFrame q s s1 := by
      simp only [s1]
      split
      · exact vecFrame_wf q s _ _ _ _ (by decide)
      · exact State.VecFrame.refl q s
    have h2 : State.VecFrame q s1 s2 := by
      refine State.VecFrame.trans ?_ (vecFrame_panicUpdate q _ m _)
      refine State.VecFrame.trans ?_ (vecFrame_windowsLoaded q _ m _)
      split
      · exact State.VecFrame.refl q s1
      · exact vecFrame_evict q s1 m _
    have h3 : State.VecFrame q s2 s3 := by
      have hs : State.VecFrame q s2 starved := vecFrame_setSeq q s2 rfl
      have hb : State.VecFrame q starved shown :=
        (vecFrame_wf q starved Off.seqStat 4 1 1 (by decide)).trans (vecFrame_wf q _ Off.seqStrmStat 5 2 3 (by decide))
      simp only [s3]
      split
      · exact ((hs.trans hb).trans (vecFrame_wf q shown Off.seqStarveEvt 0 16 _ (by decide))).trans (vecFrame_event q _ 7)
      · exact State.VecFrame.refl q s2
    have h4 : State.VecFrame q s3 s4 := by
      have hh : State.VecFrame q s3 held := vecFrame_wf q s3 Off.seqStat 5 1 1 (by decide)
      have ht : State.VecFrame q held thermal := by
        simp only [thermal]
        split
        · exact vecFrame_of_control q held (control_sat held (by decide) _ _ _ _ _)
        · exact State.VecFrame.refl q held
      simp only [s4]
      split
      · exact (hh.trans ht).trans (vecFrame_setSeq q thermal rfl)
      · exact State.VecFrame.refl q s3
    split
    · exact (h1.trans h2).trans (vecFrame_endRun q s2 _)
    · split
      · exact h1.trans h2
      · exact (((h1.trans h2).trans (h3.trans h4)).trans (vecFrame_setSeqState q s4 _)).trans (vecFrame_event q _ 3)

end

/-! ### The issue of a vector -/

/-- The masks and the stack by which sites are predicated. -/
def Sites.masks (x : Sites) : Nat × List PredEntry × Nat × Nat × Nat := (x.active, x.stack, x.enrolled, x.killed, x.swto)

/-- `t` follows from `s` by the issue of vector `v` of sequencer `q` as `c` decides, with `n` repetitions to come. -/
structure State.VecIssued (s t : State) (q : Nat) (v : Vec) (c : Ctl) (n : Nat) : Prop where
  pc : t.rd .seq q Off.seqPc = word v.addr
  count : t.vcnt q = (s.vcnt q + 1) % 2 ^ 48
  left : (t.seq q).left = n
  next : (t.seq q).next = if n = 0 then c.next else v.addr
  loops : (t.seq q).loops = c.loops
  calls : (t.seq q).calls = c.calls
  masks : (t.seq q).sites.masks = (if v.siteop.testBit 5 then c.sites.kill (s.seq q).sites.active else c.sites).masks

/-- What follows the issue leaves it. -/
theorem State.VecIssued.keep {s t u : State} {q : Nat} {v : Vec} {c : Ctl} {n : Nat} (h : s.VecIssued t q v c n)
    (f : State.VecFrame q t u) : s.VecIssued u q v c n where
  pc := (f.rd _ (by decide)).trans h.pc
  count := f.vcnt.trans h.count
  left := (congrArg SeqSt.left f.course :).trans h.left
  next := (congrArg SeqSt.next f.course :).trans h.next
  loops := (congrArg SeqSt.loops f.course :).trans h.loops
  calls := (congrArg SeqSt.calls f.course :).trans h.calls
  masks := (congrArg (fun x : SeqSt => x.sites.masks) f.course :).trans h.masks

/-- A value stored in a low and a high register reads back. -/
theorem rd2_wr2 (s : State) (k : PageKind) (i : Nat) {lo hi v : Nat} (h : lo % 0x1000 ≠ hi % 0x1000) (hv : v < 2 ^ 64) :
    (s.wr2 k i lo hi v).rd2 k i lo hi = v := by
  rw [State.rd2, State.wr2, rd_wr_offset _ _ _ _ _ _ _ h, rd_wr_same, rd_wr_same, toNat_word (v / 2 ^ 32) (by omega), word,
    BitVec.toNat_ofNat]
  exact Nat.mod_add_div v (2 ^ 32)

/-- A vector is issued with its effect on other blocks, and a HALT ends the run (R166 to R168, R191). -/
theorem runVec_issued (s : State) (q : Nat) (v : Vec) (obs : List Sample) (c : Ctl) (first gap : Bool) {fx : State → State}
    (hfx : ∀ x, State.VecFrame q x (fx x)) :
    s.VecIssued (s.runVec q v obs c first gap fx) q v c (if first then c.count - 1 else (s.seq q).left - 1) ∧
      (c.halt.isSome → (s.runVec q v obs c first gap fx).seqState q = sDrain ∧
        ((s.runVec q v obs c first gap fx).seq q).ending.map RunEnd.code = some cHalted) := by
  unfold State.runVec
  extract_lets x idx active vend evIn flags slots tag record s1 s2 _ s3 sites1 post apg y left s5 s6 s7
  have issued : s.VecIssued s6 q v c left := by
    have hseq : s6.seq q = s5.seq q := seq_of_seqs ((State.wr2_seqs ..).trans (State.wr_seqs ..)) q
    have hs5 : s5.seq q = _ := seq_setSeq_same s3 q _
    rw [hs5] at hseq
    have hpc : s6.rd .seq q Off.seqPc = word v.addr := by
      simp only [s6, State.wr2]
      rw [rd_wr_offset _ _ _ _ _ _ _ (by decide), rd_wr_offset _ _ _ _ _ _ _ (by decide), rd_wr_same]
    have hcount : s6.vcnt q = (idx + 1) % 2 ^ 48 :=
      rd2_wr2 _ .seq q (by decide) (Nat.lt_trans (Nat.mod_lt _ (by decide)) (by decide))
    exact ⟨hpc, hcount, by rw [hseq], by rw [hseq], by rw [hseq], by rw [hseq], by rw [hseq]; rfl⟩
  have after : s.VecIssued s7 q v c left := (issued.keep (hfx s6)).keep (vecFrame_enterGranule q _ _)
  cases c.halt with
  | some code =>
    obtain ⟨hstate, hend⟩ := endRun_drains s7 q ⟨cHalted, code, x.cfg.endHiz, true⟩
    exact ⟨after.keep (vecFrame_endRun q s7 _), fun _ => ⟨hstate, by rw [hend]; rfl⟩⟩
  | none =>
    refine ⟨?_, fun h => absurd h (by decide)⟩
    dsimp only
    split
    · exact after.keep (vecFrame_endRun q s7 _)
    · exact after.keep (vecFrame_boundary q s7 _ _ _)

end Sys2Proof.Machine

/-!
PROOF. The opcodes of the sequencer (R166 to R191): what each decides, what its effect leaves of the run, and when its vector is
issued or ends the run; and O21, O22 and O57.
-/

namespace Sys2Proof.Machine

/-! ### Effects (R186, R187, R190) -/

section
variable (q : Nat) (s : State)

@[simp] theorem control_markPost (ty tag n t off : Nat) : (s.markPost q ty tag n t off).control = s.control := by
  simp [State.markPost]

theorem vecFrame_noFx (v : Vec) (t : Nat) : State.VecFrame q s (noFx v t s) := State.VecFrame.refl q s

theorem vecFrame_fxLdlv (v : Vec) (t : Nat) : State.VecFrame q s (fxLdlv q v t s) :=
  vecFrame_of_control q s (control_foldl s _ _ fun x st => by simp [State.strobed])

theorem vecFrame_fxTrig (v : Vec) (t : Nat) : State.VecFrame q s (fxTrig q v t s) := by
  unfold fxTrig
  extract_lets m at_ s1 n s2
  have counted : State.VecFrame q s s1 := vecFrame_wf q s _ _ _ _ (by decide)
  have pulsed : State.VecFrame q s1 s2 := vecFrame_of_control q s1 (by simp [s2])
  split
  · exact (counted.trans pulsed).trans (vecFrame_of_control q s2 (control_markPost ..))
  · exact counted.trans pulsed

theorem vecFrame_fxMark (v : Vec) (t : Nat) : State.VecFrame q s (fxMark q v t s) := by
  have counted : State.VecFrame q s (s.inc .seq q Off.seqMarkCnt 0 32 1) := vecFrame_wf q s _ _ _ _ (by decide)
  unfold fxMark
  dsimp only
  split
  · exact (counted.trans (vecFrame_of_control q _ (control_markPost ..))).trans (vecFrame_event q _ 2)
  · exact counted.trans (vecFrame_of_control q _ (control_markPost ..))

end

/-! ### Decisions (R173 to R182) -/

/-- A transfer that does not pop an empty loop stack. -/
theorem jumpTo_eq (v : Vec) (x : SeqSt) (taken pop : Bool) (h : x.loops = [] → (taken && pop) = false) :
    jumpTo v x taken pop = .inr { Ctl.fall v x with
      next := if taken then v.operand else v.addr + 1, loops := if taken && pop then x.loops.tail else x.loops } := by
  unfold jumpTo
  cases taken with
  | false => rfl
  | true =>
    cases pop with
    | false => rfl
    | true =>
      cases hl : x.loops with
      | nil => simp [hl] at h
      | cons l ls => rfl

theorem jumpTo_empty {v : Vec} {x : SeqSt} (h : x.loops = []) : jumpTo v x true true = .inl cStack := by
  simp [jumpTo, h]

/-- A condition of BRE as its source gives it, false where no vector leaves the pipeline (R180 to R183). -/
def breCond (v : Vec) (x : SeqSt) (h : Option VecRec) (c : Bool) : Prop :=
  let n := nfld v.evsel 0 6
  n < 4 ∧ c = (h.map fun y => y.evIn.testBit n).getD false ∨
    8 ≤ n ∧ n < 16 ∧ c = branchCond x.sites h (.event n) (v.evsel.testBit 6) ∨
    16 ≤ n ∧ n < 24 ∧ c = (h.map fun y => y.flags.testBit (n - 16)).getD false

theorem flowBre_eq {v : Vec} {x : SeqSt} {h : Option VecRec} {c : Bool} (hc : breCond v x h c) :
    flowBre v x h = jumpTo v x (xor c (v.evsel.testBit 7)) (v.evsel.testBit 8) := by
  unfold flowBre
  dsimp only
  rcases hc with ⟨hn, rfl⟩ | ⟨hlo, hhi, rfl⟩ | ⟨hlo, hhi, rfl⟩
  · rw [if_neg (by omega)]
    cases h <;> simp [hn]
  · rw [if_pos ⟨hlo, hhi⟩]
  · rw [if_neg (by omega)]
    cases h <;> simp [show ¬ nfld v.evsel 0 6 < 4 by omega]

theorem badEvent_eq_false_iff {n : Nat} : badEvent n = false ↔ n < 4 ∨ 8 ≤ n ∧ n < 24 := by
  simp only [badEvent, Bool.or_eq_false_iff, Bool.and_eq_false_iff, decide_eq_false_iff_not]
  omega

/-- Such a source is none of the reserved ones. -/
theorem badBre_of_breCond {v : Vec} {x : SeqSt} {h : Option VecRec} {c : Bool} (hc : breCond v x h c) (p : Nat) :
    badBre v p = false := by
  refine badEvent_eq_false_iff.mpr ?_
  rcases hc with ⟨hn, -⟩ | ⟨hlo, hhi, -⟩ | ⟨hlo, hhi, -⟩ <;> omega

/-! ### A vector about to be issued -/

section
variable {s : State} {q k : Nat} {v : Vec}

theorem vecReady_spec (h : s.vecReady q k v = true) :
    s.seqState q = sRun ∧ (s.seq q).left = 0 ∧ s.fetchVec q (s.seq q).next = some v ∧ v.op = k ∧
      ((s.seq q).cfg.bypass = true ∨ nfld v.apgop 0 3 ≠ 7 ∧ nfld v.apgop 10 2 ≠ 3) := by
  simpa [State.vecReady, and_assoc] using h

theorem loops_retireHead (obs : List Sample) : ((s.retireHead q obs).1.seq q).loops = (s.seq q).loops :=
  (congrArg SeqSt.loops (retireFrame_retireHead q s obs).flow :)

theorem calls_retireHead (obs : List Sample) : ((s.retireHead q obs).1.seq q).calls = (s.seq q).calls :=
  (congrArg SeqSt.calls (retireFrame_retireHead q s obs).flow :)

theorem fromEndl_retireHead (obs : List Sample) : ((s.retireHead q obs).1.seq q).fromEndl = (s.seq q).fromEndl :=
  (congrArg SeqSt.fromEndl (retireFrame_retireHead q s obs).flow :)

/-- A vector ready for issue whose operand is good breaks none of the first rules of R713. -/
theorem vecFault_of_vecReady (hk : knownOp k = true) (h : s.vecReady q k v = true) (obs : List Sample) :
    (s.retireHead q obs).1.vecFault q v false = none := by
  obtain ⟨-, -, -, hop, hapg⟩ := vecReady_spec h
  have hcfg : ((s.retireHead q obs).1.seq q).cfg = (s.seq q).cfg :=
    (congrArg SeqSt.cfg (retireFrame_retireHead q s obs).flow :)
  unfold State.vecFault
  rw [hop, hk, hcfg, if_neg (by decide), if_neg, if_neg (by decide)]
  rintro ⟨hb, hr⟩
  rcases hapg with hb' | ⟨hx, hy⟩
  · exact absurd (hb.symm.trans hb') (by decide)
  · exact hr.elim hx hy

variable {obs : List Sample} {bad : Vec → Nat → Bool} {flow : Vec → SeqSt → Option VecRec → Nat ⊕ Ctl}
  {fx : Vec → Nat → State → State} (hk : knownOp k = true) (h : s.vecReady q k v = true)
  (hb : bad v ((s.seq q).period v.tsel) = false)
include hk h hb

/-- A vector ready for issue whose operand is good goes as its opcode decides: it ends the run, or it is issued where its next
address is mapped. -/
theorem issue_decided :
    (∀ code, flow v ((s.retireHead q obs).1.seq q) (s.retireHead q obs).2 = .inl code →
      s.issue q k obs bad flow fx = (s.retireHead q obs).1.progFault q v code) ∧
    (∀ c, flow v ((s.retireHead q obs).1.seq q) (s.retireHead q obs).2 = .inr c →
      (c.halt = none → s.mapped q c.next = true) →
      s.issue q k obs bad flow fx = (s.retireHead q obs).1.runVec q v obs c true (k == 0x0C) (fx v (s.seq q).vtime)) := by
  obtain ⟨hrun, hleft, hfetch, hop, -⟩ := vecReady_spec h
  have hfault := vecFault_of_vecReady hk h obs
  unfold State.issue
  simp only [hfetch, hb, hfault]
  rw [if_neg (not_not.mpr hrun), if_neg fun hne => hne.2 hop, hleft]
  refine ⟨fun code hf => by simp only [hf], fun c hf hm => ?_⟩
  simp only [hf]
  refine if_neg fun hu => ?_
  obtain ⟨-, hhalt, hnone⟩ := hu
  have hmapped := hm hhalt
  rw [State.mapped, hnone] at hmapped
  exact Bool.false_ne_true hmapped

/-- A vector whose decision is a fault ends the run unissued (R175, R198). -/
theorem issue_faults {code : Nat} (hf : flow v ((s.retireHead q obs).1.seq q) (s.retireHead q obs).2 = .inl code) :
    (s.issue q k obs bad flow fx).seqState q = sDrain ∧ (s.issue q k obs bad flow fx).vcnt q = s.vcnt q ∧
      ((s.issue q k obs bad flow fx).seq q).ending.map RunEnd.code = some code := by
  rw [(issue_decided hk h hb).1 code hf, State.progFault]
  obtain ⟨hstate, hend⟩ := endRun_drains (s.retireHead q obs).1 q ⟨code, v.addr, true, true⟩
  exact ⟨hstate, (vecFrame_endRun q _ _).vcnt.trans (retireFrame_retireHead q s obs).vcnt, by rw [hend]; rfl⟩

variable {c : Ctl} (hf : flow v ((s.retireHead q obs).1.seq q) (s.retireHead q obs).2 = .inr c)
include hf

section
variable (hm : c.halt = none → s.mapped q c.next = true) (hfx : ∀ x, State.VecFrame q x (fx v (s.seq q).vtime x))
include hm hfx

/-- A vector is issued as its opcode decides. -/
theorem issue_issued : (s.retireHead q obs).1.VecIssued (s.issue q k obs bad flow fx) q v c (c.count - 1) := by
  rw [(issue_decided hk h hb).2 c hf hm]
  exact (runVec_issued _ q v obs c true _ hfx).1

/-- A HALT is issued and starts the drain (R191). -/
theorem issue_halts (hc : c.halt.isSome) : (s.issue q k obs bad flow fx).seqState q = sDrain ∧
    ((s.issue q k obs bad flow fx).seq q).ending.map RunEnd.code = some cHalted := by
  rw [(issue_decided hk h hb).2 c hf hm]
  exact (runVec_issued _ q v obs c true _ hfx).2 hc

end

/-- An opcode without an effect of its own, at whose next address a segment is mapped. -/
theorem issue_issued_noFx (hm : s.mapped q c.next = true) :
    (s.retireHead q obs).1.VecIssued (s.issue q k obs bad flow noFx) q v c (c.count - 1) :=
  issue_issued hk h hb hf (fun _ => hm) fun x => vecFrame_noFx q x v _

end

/-- The vector count after an issue, from that before the pipeline moved. -/
theorem State.VecIssued.vcnt {s t : State} {q n : Nat} {obs : List Sample} {v : Vec} {c : Ctl}
    (h : (s.retireHead q obs).1.VecIssued t q v c n) : t.vcnt q = (s.vcnt q + 1) % 2 ^ 48 := by
  rw [h.count, (retireFrame_retireHead q s obs).vcnt]

/-! ### Vectors in address order -/

section
variable {s : State} {q : Fin 8} {v : Vec} (obs : List Sample)

/-- CONT, LDLV, TRIG and MARK. -/
theorem flowCont_issued {k : Nat} {bad : Vec → Nat → Bool} {fx : Vec → Nat → State → State} (hk : knownOp k = true)
    (h : s.vecReady q k v = true) (hb : bad v ((s.seq q).period v.tsel) = false) (hm : s.mapped q (v.addr + 1) = true)
    (hfx : ∀ x, State.VecFrame q x (fx v (s.seq q).vtime x)) :
    ((s.issue q k obs bad flowCont fx).seq q).next = v.addr + 1 ∧
      (s.issue q k obs bad flowCont fx).rd .seq q Off.seqPc = word v.addr ∧
      (s.issue q k obs bad flowCont fx).vcnt q = (s.vcnt q + 1) % 2 ^ 48 := by
  have issued := issue_issued (obs := obs) (flow := flowCont) hk h hb rfl (fun _ => hm) hfx
  exact ⟨issued.next, issued.pc, issued.vcnt⟩

/-- RPT and CALGAP: the first of the repetitions. -/
theorem flowRepeat_issued {k : Nat} (hk : knownOp k = true) (h : s.vecReady q k v = true) (hn : v.operand ≠ 0)
    (hm : s.mapped q (v.addr + 1) = true) :
    ((s.issue q k obs badCount flowRepeat noFx).seq q).left = v.operand - 1 ∧
      ((s.issue q k obs badCount flowRepeat noFx).seq q).next = (if v.operand = 1 then v.addr + 1 else v.addr) ∧
      (s.issue q k obs badCount flowRepeat noFx).vcnt q = (s.vcnt q + 1) % 2 ^ 48 := by
  have issued := issue_issued_noFx (obs := obs) (bad := badCount) (flow := flowRepeat) hk h (beq_false_of_ne hn) rfl hm
  refine ⟨issued.left, issued.next.trans (if_congr ?_ rfl rfl), issued.vcnt⟩
  change v.operand - 1 = 0 ↔ v.operand = 1
  omega

theorem loop_pushes (h : s.vecReady q 0x02 v = true) (hn : v.operand ≠ 0) (hm : s.mapped q (v.addr + 1) = true)
    (he : (s.seq q).fromEndl = false) (hl : (s.seq q).loops.length < 8) :
    ∃ t, exec (.loop q obs) s = .next t ∧ (t.seq q).loops = (v.addr, v.operand) :: (s.seq q).loops ∧
      (t.seq q).next = v.addr + 1 ∧ t.vcnt q = (s.vcnt q + 1) % 2 ^ 48 := by
  have hf : flowLoop v ((s.retireHead q obs).1.seq q) (s.retireHead q obs).2 =
      .inr { Ctl.fall v ((s.retireHead q obs).1.seq q) with loops := (v.addr, v.operand) :: (s.seq q).loops } := by
    unfold flowLoop
    rw [fromEndl_retireHead, he, loops_retireHead, if_neg (by decide), if_neg (by omega)]
  have issued := issue_issued_noFx (bad := badCount) (by decide) h (beq_false_of_ne hn) hf hm
  exact ⟨_, rfl, issued.loops, issued.next, issued.vcnt⟩

theorem loop_again (h : s.vecReady q 0x02 v = true) (hn : v.operand ≠ 0) (hm : s.mapped q (v.addr + 1) = true)
    (he : (s.seq q).fromEndl = true) :
    ∃ t, exec (.loop q obs) s = .next t ∧ (t.seq q).loops = (s.seq q).loops ∧ (t.seq q).next = v.addr + 1 ∧
      t.vcnt q = (s.vcnt q + 1) % 2 ^ 48 := by
  have hf : flowLoop v ((s.retireHead q obs).1.seq q) (s.retireHead q obs).2 =
      .inr (Ctl.fall v ((s.retireHead q obs).1.seq q)) := by
    unfold flowLoop
    rw [fromEndl_retireHead, he, if_pos rfl]
  have issued := issue_issued_noFx (bad := badCount) (by decide) h (beq_false_of_ne hn) hf hm
  exact ⟨_, rfl, issued.loops.trans (loops_retireHead obs), issued.next, issued.vcnt⟩

theorem halt_drains (h : s.vecReady q 0x09 v = true) :
    ∃ t, exec (.halt q obs) s = .next t ∧ t.seqState q = sDrain ∧ ((t.seq q).ending.map RunEnd.code) = some cHalted ∧
      t.vcnt q = (s.vcnt q + 1) % 2 ^ 48 := by
  have hm : ∀ n, ((some v.operand : Option Nat) = none) → s.mapped q n = true := fun _ hn => absurd hn (by simp)
  have issued := issue_issued (obs := obs) (bad := noBad) (flow := flowHalt) (by decide) h rfl rfl (hm _)
    fun x => vecFrame_noFx q x v _
  obtain ⟨hstate, hend⟩ := issue_halts (obs := obs) (bad := noBad) (flow := flowHalt) (by decide) h rfl rfl (hm _)
    (fun x => vecFrame_noFx q x v _) rfl
  exact ⟨_, rfl, hstate, hend, issued.vcnt⟩

end

/-- Settles O21: each opcode by its own lemma above. -/
theorem vectorsFollowInAddressOrder : Obligations.VectorsFollowInAddressOrder := by
  refine ⟨?_, ?_, fun q obs v s => loop_pushes obs, fun q obs v s => loop_again obs, fun q obs v s => halt_drains obs⟩
  · rintro c q k obs v s (⟨rfl, rfl⟩ | ⟨rfl, rfl⟩ | ⟨rfl, rfl⟩ | ⟨rfl, rfl⟩) h ht hm
    · exact ⟨_, rfl, flowCont_issued obs (bad := noBad) (by decide) h rfl hm fun x => vecFrame_noFx q x v _⟩
    · exact ⟨_, rfl, flowCont_issued obs (bad := noBad) (by decide) h rfl hm fun x => vecFrame_fxLdlv q x v _⟩
    · exact ⟨_, rfl, flowCont_issued obs (bad := badTrig) (by decide) h (decide_eq_false (Nat.not_le.mpr (ht rfl))) hm fun x =>
        vecFrame_fxTrig q x v _⟩
    · exact ⟨_, rfl, flowCont_issued obs (bad := noBad) (by decide) h rfl hm fun x => vecFrame_fxMark q x v _⟩
  · rintro c q k obs v s (⟨rfl, rfl⟩ | ⟨rfl, rfl⟩) h hn hm
    · exact ⟨_, rfl, flowRepeat_issued obs (by decide) h hn hm⟩
    · exact ⟨_, rfl, flowRepeat_issued obs (by decide) h hn hm⟩

/-! ### Transfers of control -/

section
variable {s : State} {q : Fin 8} {v : Vec} (obs : List Sample)

/-- A transfer: a JMP, or a branch by its condition. -/
theorem jumpTo_issued {k : Nat} {bad : Vec → Nat → Bool} {flow : Vec → SeqSt → Option VecRec → Nat ⊕ Ctl} {taken pop : Bool}
    (hk : knownOp k = true) (h : s.vecReady q k v = true) (hb : bad v ((s.seq q).period v.tsel) = false)
    (hf : flow v ((s.retireHead q obs).1.seq q) (s.retireHead q obs).2 = jumpTo v ((s.retireHead q obs).1.seq q) taken pop)
    (hp : (s.seq q).loops = [] → (taken && pop) = false)
    (hm : s.mapped q (if taken then v.operand else v.addr + 1) = true) :
    ((s.issue q k obs bad flow noFx).seq q).next = (if taken then v.operand else v.addr + 1) ∧
      ((s.issue q k obs bad flow noFx).seq q).loops = (if taken && pop then (s.seq q).loops.tail else (s.seq q).loops) := by
  rw [← loops_retireHead obs] at hp
  have issued := issue_issued_noFx hk h hb (hf.trans (jumpTo_eq v _ taken pop hp)) hm
  exact ⟨issued.next, issued.loops.trans (by rw [loops_retireHead])⟩

theorem call_pushes (h : s.vecReady q 0x05 v = true) (hm : s.mapped q v.operand = true) (hl : (s.seq q).calls.length < 8) :
    ∃ t, exec (.call q obs) s = .next t ∧ (t.seq q).next = v.operand ∧
      (t.seq q).calls = (v.addr + 1) % 2 ^ 24 :: (s.seq q).calls := by
  have hf : flowCall v ((s.retireHead q obs).1.seq q) (s.retireHead q obs).2 =
      .inr { Ctl.fall v ((s.retireHead q obs).1.seq q) with
        next := v.operand, calls := (v.addr + 1) % 2 ^ 24 :: (s.seq q).calls } := by
    unfold flowCall
    rw [calls_retireHead, if_neg (by omega)]
  have issued := issue_issued_noFx (bad := noBad) (by decide) h rfl hf hm
  exact ⟨_, rfl, issued.next, issued.calls⟩

theorem ret_pops {a : Nat} {as : List Nat} (h : s.vecReady q 0x06 v = true) (hc : (s.seq q).calls = a :: as)
    (hm : s.mapped q a = true) :
    ∃ t, exec (.ret q obs) s = .next t ∧ (t.seq q).next = a ∧ (t.seq q).calls = as := by
  have hf : flowRet v ((s.retireHead q obs).1.seq q) (s.retireHead q obs).2 =
      .inr { Ctl.fall v ((s.retireHead q obs).1.seq q) with next := a, calls := as } := by
    simp only [flowRet, calls_retireHead, hc]
  have issued := issue_issued_noFx (bad := noBad) (by decide) h rfl hf hm
  exact ⟨_, rfl, issued.next, issued.calls⟩

theorem endl_goes_back {a n : Nat} {ls : List (Nat × Nat)} (h : s.vecReady q 0x03 v = true) (hl : (s.seq q).loops = (a, n) :: ls)
    (hn : 1 < n) (hm : s.mapped q a = true) :
    ∃ t, exec (.endl q obs) s = .next t ∧ (t.seq q).next = a ∧ (t.seq q).loops = (a, n - 1) :: ls := by
  have hf : flowEndl v ((s.retireHead q obs).1.seq q) (s.retireHead q obs).2 =
      .inr { Ctl.fall v ((s.retireHead q obs).1.seq q) with next := a, loops := (a, n - 1) :: ls, fromEndl := true } := by
    simp only [flowEndl, loops_retireHead, hl]
    rw [if_pos hn]
  have issued := issue_issued_noFx (bad := noBad) (by decide) h rfl hf hm
  exact ⟨_, rfl, issued.next, issued.loops⟩

theorem endl_pops {a n : Nat} {ls : List (Nat × Nat)} (h : s.vecReady q 0x03 v = true) (hl : (s.seq q).loops = (a, n) :: ls)
    (hn : n ≤ 1) (hm : s.mapped q (v.addr + 1) = true) :
    ∃ t, exec (.endl q obs) s = .next t ∧ (t.seq q).next = v.addr + 1 ∧ (t.seq q).loops = ls := by
  have hf : flowEndl v ((s.retireHead q obs).1.seq q) (s.retireHead q obs).2 =
      .inr { Ctl.fall v ((s.retireHead q obs).1.seq q) with loops := ls } := by
    simp only [flowEndl, loops_retireHead, hl]
    rw [if_neg (by omega)]
  have issued := issue_issued_noFx (bad := noBad) (by decide) h rfl hf hm
  exact ⟨_, rfl, issued.next, issued.loops⟩

end

/-- Settles O22: the transfers by `jumpTo_issued`, the other opcodes each by its own lemma above. -/
theorem vectorsTransferControl : Obligations.VectorsTransferControl := by
  refine ⟨fun q obs v s h hm => ⟨fun hp => ?_, fun l ls hp hl => ?_⟩, fun q obs v s => call_pushes obs,
    fun q obs v a as s => ret_pops obs, fun q obs v a n ls s h hl => ⟨endl_goes_back obs h hl, endl_pops obs h hl⟩,
    fun q obs v s h hp hm => ?_, fun q obs v c s h hc hp hm => ?_⟩
  · obtain ⟨hnext, hloops⟩ := jumpTo_issued obs (bad := noBad) (flow := flowJmp) (by decide) h rfl rfl (by simp [hp]) hm
    exact ⟨_, rfl, hnext, by simpa [hp] using hloops⟩
  · obtain ⟨hnext, hloops⟩ := jumpTo_issued obs (bad := noBad) (flow := flowJmp) (by decide) h rfl rfl (by simp [hl]) hm
    exact ⟨_, rfl, hnext, by simpa [hp, hl] using hloops⟩
  · exact ⟨_, rfl, jumpTo_issued obs (bad := noBad) (flow := flowBrf) (by decide) h rfl rfl hp hm⟩
  · exact ⟨_, rfl, jumpTo_issued obs (by decide) h (badBre_of_breCond hc _) (flowBre_eq hc) hp hm⟩

/-! ### Stack faults (R175) -/

/-- Settles O57: each of these decisions is FAULT_STACK. -/
theorem stackFaultsIssueNothing : Obligations.StackFaultsIssueNothing := by
  intro q obs v s faults h x
  have hx : x.loops = (s.seq q).loops ∧ x.calls = (s.seq q).calls ∧ x.fromEndl = (s.seq q).fromEndl :=
    ⟨loops_retireHead obs, calls_retireHead obs, fromEndl_retireHead obs⟩
  obtain ⟨hloops, hcalls, hendl⟩ := hx
  refine ⟨fun hr hn he hl => ?_, fun hr hl => ?_, fun hr hc => ?_, fun hr hl => ?_,
    fun hl hp => ⟨fun hr => ?_, fun hr ht => ?_, ?_⟩⟩
  · have hf : flowLoop v x h.2 = .inl cStack := by
      unfold flowLoop
      rw [hendl, he, hloops, hl, if_neg (by decide), if_pos (by decide)]
    exact ⟨_, rfl, issue_faults (by decide) hr (beq_false_of_ne hn) hf⟩
  · have hf : flowCall v x h.2 = .inl cStack := by
      unfold flowCall
      rw [hcalls, hl, if_pos (by decide)]
    exact ⟨_, rfl, issue_faults (bad := noBad) (by decide) hr rfl hf⟩
  · have hf : flowRet v x h.2 = .inl cStack := by simp only [flowRet, hcalls, hc]
    exact ⟨_, rfl, issue_faults (bad := noBad) (by decide) hr rfl hf⟩
  · have hf : flowEndl v x h.2 = .inl cStack := by simp only [flowEndl, hloops, hl]
    exact ⟨_, rfl, issue_faults (bad := noBad) (by decide) hr rfl hf⟩
  · have hf : flowJmp v x h.2 = .inl cStack := by rw [flowJmp, hp, jumpTo_empty (hloops.trans hl)]
    exact ⟨_, rfl, issue_faults (bad := noBad) (by decide) hr rfl hf⟩
  · have hf : flowBrf v x h.2 = .inl cStack := by
      rw [flowBrf, hp]
      simp only [x, h] at ht ⊢
      rw [ht, jumpTo_empty (hloops.trans hl)]
    exact ⟨_, rfl, issue_faults (bad := noBad) (by decide) hr rfl hf⟩
  · intro hr hb c h1 h2 h3 ht
    have hc : breCond v x h.2 c := by
      rcases badEvent_eq_false_iff.mp hb with hn | ⟨hlo, hhi⟩
      · exact Or.inl ⟨hn, h2 hn⟩
      · rcases Nat.lt_or_ge (nfld v.evsel 0 6) 16 with hn | hn
        · exact Or.inr (Or.inl ⟨hlo, hn, h1 hlo hn⟩)
        · exact Or.inr (Or.inr ⟨hn, hhi, h3 hn⟩)
    have hf : flowBre v x h.2 = .inl cStack := by rw [flowBre_eq hc, ht, hp, jumpTo_empty (hloops.trans hl)]
    exact ⟨_, rfl, issue_faults (by decide) hr hb hf⟩

end Sys2Proof.Machine

/-!
PROOF. Predicated sites (R238 to R245, R250): what PIF, PELSE, PJOIN, SWHILE and SEND decide, and O23.
-/

namespace Sys2Proof.Machine

/-- KILL takes the same sites out of the masks and stacks of equal masks (R250). -/
theorem masks_kill_congr {x y : Sites} (h : x.masks = y.masks) (m : Nat) : (x.kill m).masks = (y.kill m).masks := by
  simp only [Sites.masks, Prod.mk.injEq] at h
  obtain ⟨hactive, hstack, henrolled, hkilled, hswto⟩ := h
  simp only [Sites.masks, Sites.kill, hactive, hstack, henrolled, hkilled, hswto]

section
variable {s : State} {q : Fin 8} {v : Vec} (obs : List Sample)

/-- A vector without repetitions leaves the masks and the stack that its opcode decides, less what its KILL takes. -/
theorem issue_issuedWith {k : Nat} {bad : Vec → Nat → Bool} {flow : Vec → SeqSt → Option VecRec → Nat ⊕ Ctl} {c : Ctl} {y : Sites}
    (hk : knownOp k = true) (h : s.vecReady q k v = true) (hb : bad v ((s.seq q).period v.tsel) = false)
    (hf : flow v ((s.retireHead q obs).1.seq q) (s.retireHead q obs).2 = .inr c) (hcount : c.count = 1)
    (hm : s.mapped q c.next = true) (hy : c.sites.masks = y.masks) :
    IssuedWith s (s.issue q k obs bad flow noFx) q v c.next ((s.retireHead q obs).1.seq q).sites.active y := by
  have issued := issue_issued_noFx hk h hb hf hm
  rw [hcount] at issued
  have hkill : (if v.siteop.testBit 5 then c.sites.kill ((s.retireHead q obs).1.seq q).sites.active else c.sites).masks =
      (if v.siteop.testBit 5 then y.kill ((s.retireHead q obs).1.seq q).sites.active else y).masks := by
    split
    · exact masks_kill_congr hy _
    · exact hy
  have masks := issued.masks.trans hkill
  simp only [Sites.masks, Prod.mk.injEq] at masks
  obtain ⟨hactive, hstack, henrolled, hkilled, hswto⟩ := masks
  exact ⟨issued.next, hactive, hstack, henrolled, hkilled, hswto, issued.vcnt⟩

end

/-! ### Decisions (R240 to R245) -/

section
variable {v : Vec} {x : SeqSt} {h : Option VecRec}

theorem flowPif_eq (hl : x.sites.stack.length < 8) :
    let a := x.sites.active
    let c := siteCond x.sites h (siteSource v) (v.evsel.testBit 2)
    flowPif v x h = .inr { Ctl.fall v x with
      next := if a &&& c = 0 then v.operand else v.addr + 1
      sites := { x.sites with active := a &&& c, stack := .cond a (andNot a c) false :: x.sites.stack } } :=
  if_neg (Nat.not_le.mpr hl)

theorem flowPelse_eq {m e : Nat} {l : List PredEntry} (hx : x.sites.stack = .cond m e false :: l) :
    flowPelse v x h = .inr { Ctl.fall v x with
      next := if e = 0 then v.operand else v.addr + 1
      sites := { x.sites with active := e, stack := .cond m e true :: l } } := by
  rw [flowPelse, hx]

theorem flowPjoin_eq {m e : Nat} {p : Bool} {l : List PredEntry} (hx : x.sites.stack = .cond m e p :: l) :
    flowPjoin v x h = .inr { Ctl.fall v x with sites := { x.sites with active := m, stack := l } } := by
  rw [flowPjoin, hx]

theorem flowSwhile_eq (hl : x.sites.stack.length < 8) :
    flowSwhile v x h = .inr { Ctl.fall v x with
      sites := { x.sites with stack := .loop x.sites.active (nfld v.operand 0 16) [] :: x.sites.stack } } :=
  if_neg (Nat.not_le.mpr hl)

/-- SEND counts a pass of every active site, and goes back while any of them stays (R244, R245). -/
theorem flowSend_eq {m n : Nat} {k : List (Nat × Nat)} {l : List PredEntry}
    (hx : x.sites.stack = .loop m n k :: l) :
    let a := x.sites.active
    let c := siteCond x.sites h (siteSource v) (v.evsel.testBit 2)
    let pass := fun i => Store.getD (fun _ => 0) k i + 1
    let late := siteMask ((sitesOf a).filter fun i => !natBit c i && pass i == n)
    let out := siteMask ((sitesOf a).filter fun i => natBit c i || pass i == n)
    let stay := andNot a out
    let k1 := (sitesOf a).foldl (fun o i => Store.put o i (pass i)) k
    flowSend v x h = .inr { Ctl.fall v x with
      next := if stay = 0 then v.addr + 1 else v.operand
      sites := { x.sites with
        swto := x.sites.swto ||| late
        lastSw := (sitesOf out).foldl (fun l i => Store.setD (fun _ => 0) l i (pass i)) x.sites.lastSw
        active := if stay = 0 then m else stay
        stack := if stay = 0 then l else .loop m n k1 :: l } } := by
  intro a c pass late out stay k1
  unfold flowSend
  rw [hx]
  change (if stay = 0 then _ else _) = _
  by_cases hs : stay = 0
  · simp only [if_pos hs]
    rfl
  · simp only [if_neg hs]
    rfl

end

/-- Settles O23: what each opcode decides, issued by `issue_issuedWith`. -/
theorem vectorsPredicateSites : Obligations.VectorsPredicateSites := by
  intro q obs v s h x a c
  refine ⟨fun hr hb hl hm => ⟨_, rfl, ?_⟩, fun m e l hr hx hm => ⟨_, rfl, ?_⟩, fun m e p l hr hx hm => ⟨_, rfl, ?_⟩,
    fun hr hn hl hm => ⟨_, rfl, ?_⟩, fun m n k l hr hb hx hm => ⟨_, rfl, ?_⟩⟩
  · exact issue_issuedWith obs (by decide) hr hb (flowPif_eq hl) rfl hm rfl
  · exact issue_issuedWith obs (bad := noBad) (by decide) hr rfl (flowPelse_eq hx) rfl hm rfl
  · exact issue_issuedWith obs (bad := noBad) (by decide) hr rfl (flowPjoin_eq hx) rfl hm rfl
  · exact issue_issuedWith obs (by decide) hr (beq_false_of_ne hn) (flowSwhile_eq hl) rfl hm rfl
  · exact issue_issuedWith obs (by decide) hr hb (flowSend_eq hx) rfl hm (by unfold Sites.masks; rfl)

end Sys2Proof.Machine

/-!
PROOF. What stands written in the hayloft under the key of an owner (R552, R590 to R593): a write of bytes reads back and leaves
the other bytes written, and what error correction finds in a merged write (R551 to R553) moves none of them.
-/

namespace Sys2Proof.Machine

/-! ### Bytes that stand written -/

/-- The bytes of the hayloft, the keys of its words and those of the owners: all on which a read of written bytes depends. -/
def State.contents (s : State) : List Host.Cell × List (Nat × Nat) × List (Nat × Nat) := (s.hay.cells, s.hay.tags, s.keys)

/-- Byte `b` stands at `a`, written under the key of owner `o`. -/
def State.Stands (s : State) (o a : Nat) (b : Byte) : Prop :=
  Store.get? s.hay.cells a = some b ∧ Store.get? s.hay.tags (a / 32) = some (s.keyOf o)

/-- The bytes `bs` stand from `a` on. -/
def State.StandsAll (s : State) (o a : Nat) (bs : List Byte) : Prop := ∀ i (h : i < bs.length), s.Stands o (a + i) bs[i]

section
variable {s t : State} {o a x : Nat} {b c : Byte} {bs : List Byte}

theorem hayRead_of_stands (h : s.Stands o a b) : s.hayRead o a = b := by
  obtain ⟨hcell, htag⟩ := h
  simp [State.hayRead, hcell, htag]

theorem stands_of_contents (hc : t.contents = s.contents) (h : s.Stands o a b) : t.Stands o a b := by
  obtain ⟨hcells, htags, hkeys⟩ : t.hay.cells = s.hay.cells ∧ t.hay.tags = s.hay.tags ∧ t.keys = s.keys := by
    simpa [State.contents] using hc
  unfold State.Stands State.keyOf at *
  rwa [hcells, htags, hkeys]

theorem stands_hayWrite_same : (s.hayWrite o a b).Stands o a b :=
  ⟨by simp [State.hayWrite, Store.get?_put], by simp [State.hayWrite, State.keyOf, Store.get?_put]⟩

/-- A write leaves every other byte that stands under the same key, in its own word too. -/
theorem stands_hayWrite_other (h : s.Stands o x c) (hx : x ≠ a) : (s.hayWrite o a b).Stands o x c := by
  obtain ⟨hcell, htag⟩ := h
  by_cases hw : x / 32 = a / 32
  · rw [hw] at htag
    exact ⟨by simp [State.hayWrite, htag, Store.get?_put, hx, hcell],
      by simp [State.hayWrite, State.keyOf, Store.get?_put, hw]⟩
  · exact ⟨(get?_hayWrite_word s o a x b hw).trans hcell, (get?_tags_hayWrite s o a _ b hw).trans htag⟩

theorem stands_hayWriteBytes_outside (h : s.Stands o x c) (hx : x < a ∨ a + bs.length ≤ x) :
    (s.hayWriteBytes o a bs).Stands o x c := by
  induction bs generalizing s a with
  | nil => exact h
  | cons b t ih =>
    rw [List.length_cons] at hx
    exact ih (stands_hayWrite_other h (by omega)) (by omega)

theorem standsAll_hayWriteBytes : (s.hayWriteBytes o a bs).StandsAll o a bs := by
  induction bs generalizing s a with
  | nil => exact fun i hi => absurd hi (Nat.not_lt_zero i)
  | cons b t ih =>
    intro i hi
    cases i with
    | zero =>
      change ((s.hayWrite o a b).hayWriteBytes o (a + 1) t).Stands o a b
      exact stands_hayWriteBytes_outside stands_hayWrite_same (Or.inl (Nat.lt_succ_self a))
    | succ i =>
      rw [show a + (i + 1) = a + 1 + i by omega]
      exact ih i (Nat.lt_of_succ_lt_succ hi)

theorem standsAll_of_contents (hc : t.contents = s.contents) (h : s.StandsAll o a bs) : t.StandsAll o a bs :=
  fun i hi => stands_of_contents hc (h i hi)

theorem hayBytes_of_standsAll (h : s.StandsAll o a bs) : s.hayBytes o a bs.length = bs := by
  induction bs generalizing a with
  | nil => rfl
  | cons b t ih =>
    have rest : s.StandsAll o (a + 1) t := fun i hi => by
      rw [show a + 1 + i = a + (i + 1) by omega]
      exact h (i + 1) (Nat.succ_lt_succ hi)
    have first : s.hayRead o a = b := hayRead_of_stands (h 0 (Nat.zero_lt_succ _))
    rw [List.length_cons, State.hayBytes, ih rest, first]

theorem ofBytes_bytesOf (n v : Nat) : ofBytes (bytesOf n v) = v % 256 ^ n := by
  induction n generalizing v with
  | zero => rw [Nat.pow_zero, Nat.mod_one]; rfl
  | succ n ih =>
    rw [bytesOf, ofBytes, ih, BitVec.toNat_ofNat, Nat.pow_succ' (m := 256), Nat.mod_mul]

/-- A number that stands written in its bytes reads back. -/
theorem hayGet_of_standsAll {n v : Nat} (h : s.StandsAll o a (bytesOf n v)) (hv : v < 256 ^ n) : s.hayGet o a n = v := by
  have hbytes := hayBytes_of_standsAll h
  rw [bytesOf_length] at hbytes
  rw [State.hayGet, hbytes, ofBytes_bytesOf, Nat.mod_eq_of_lt hv]

/-! ### Writes as one access -/

theorem contents_of_hay {s t : State} (hc : t.hay.cells = s.hay.cells) (ht : t.hay.tags = s.hay.tags) (hk : t.keys = s.keys) :
    t.contents = s.contents := by
  rw [State.contents, hc, ht, hk, State.contents]

@[simp] theorem contents_poisonWrite (s : State) (a n : Nat) : (s.poisonWrite a n).contents = s.contents := by
  refine foldl_keeps (fun x : State => x.contents = s.contents) (fun x e hx => ?_) s.hay.poison rfl
  dsimp only
  split
  · exact hx
  · split <;> exact hx

theorem standsAll_hayStore : (s.hayStore o a bs).StandsAll o a bs := standsAll_hayWriteBytes

theorem stands_hayStore_outside (h : s.Stands o x c) (hx : x < a ∨ a + bs.length ≤ x) : (s.hayStore o a bs).Stands o x c :=
  stands_hayWriteBytes_outside (stands_of_contents (contents_poisonWrite s a bs.length) h) hx

end

/-! ### What error correction finds -/

/-- What counting, logging and announcing an error of the hayloft can do: the records of the catch unit and the pages but HBM and HLK
stay, and, where the HBM page posts no event to a ring, all that stands written. -/
structure State.Announced (s t : State) : Prop where
  catBuf : t.catBuf = s.catBuf
  rd : ∀ (k : PageKind) (i o : Nat), k ≠ .hbm → k ≠ .hlk → t.rd k i o = s.rd k i o
  stands : s.rd .hbm 0 Off.pgEvtEn = 0 → t.rd .hbm 0 Off.pgEvtEn = 0 ∧ t.contents = s.contents

theorem State.Announced.refl (s : State) : State.Announced s s := ⟨rfl, fun _ _ _ _ _ => rfl, fun h => ⟨h, rfl⟩⟩

theorem State.Announced.trans {s t u : State} (h1 : State.Announced s t) (h2 : State.Announced t u) : State.Announced s u where
  catBuf := h2.catBuf.trans h1.catBuf
  rd k i o hk hk' := (h2.rd k i o hk hk').trans (h1.rd k i o hk hk')
  stands h :=
    have ⟨hen, hcontents⟩ := h1.stands h
    have ⟨hen', hcontents'⟩ := h2.stands hen
    ⟨hen', hcontents'.trans hcontents⟩

section
variable (s : State)

/-- A change outside the registers that moves nothing written. -/
theorem announced_of_regs {t : State} (hb : t.catBuf = s.catBuf) (hr : t.regs = s.regs) (hc : t.contents = s.contents) :
    State.Announced s t :=
  ⟨hb, fun k i o _ _ => rd_of_regs hr k i o, fun h => ⟨(rd_of_regs hr .hbm 0 _).trans h, hc⟩⟩

/-- Poison, rows and counts of corrected errors are no contents. -/
theorem announced_with_hay (v : Hayloft) (hc : v.cells = s.hay.cells) (ht : v.tags = s.hay.tags) :
    State.Announced s { s with hay := v } :=
  announced_of_regs s rfl rfl (contents_of_hay hc ht rfl)

theorem announced_wr_hbm (o : Nat) (v : Word) (ho : Off.pgEvtEn % 0x1000 ≠ o % 0x1000) : State.Announced s (s.wr .hbm 0 o v) :=
  ⟨rfl, fun _ i o' hk _ => rd_wr_kind s 0 o i o' v hk, fun h => ⟨(rd_wr_offset s .hbm 0 o 0 _ v ho).trans h, rfl⟩⟩

theorem announced_wf_hbm (o lo n v : Nat) (ho : Off.pgEvtEn % 0x1000 ≠ o % 0x1000) : State.Announced s (s.wf .hbm 0 o lo n v) :=
  announced_wr_hbm s o _ ho

theorem announced_sat_hbm (o lo n v : Nat) (ho : Off.pgEvtEn % 0x1000 ≠ o % 0x1000) :
    State.Announced s (s.sat .hbm 0 o lo n v) :=
  announced_wr_hbm s o _ ho

theorem announced_event_hbm (n : Nat) : State.Announced s (s.event .hbm 0 n) where
  catBuf := State.event_catBuf ..
  rd k i o hk hk' := rd_event s .hbm 0 n k i o (fun hp => hk' hp.1) (Or.inl hk)
  stands h := by
    have raised := announced_wr_hbm s Off.pgEvt (putBit (s.rd .hbm 0 Off.pgEvt) n true) (by decide)
    have off : s.rb .hbm 0 Off.pgEvtEn n = false := by
      rw [State.rb, h]
      exact Nat.zero_testBit n
    unfold State.event
    split
    · exact ⟨h, rfl⟩
    · dsimp only
      rw [off, if_neg (by decide)]
      exact raised.stands h

theorem announced_logOffer (c ty i d : Nat) : State.Announced s (s.logOffer c ty i d) :=
  announced_of_regs s (State.logOffer_catBuf ..) (State.logOffer_regs ..)
    (contents_of_hay (by rw [State.logOffer_hay]) (by rw [State.logOffer_hay]) (State.logOffer_keys ..))

theorem announced_hbmErrAddr (a r : Nat) (ue : Bool) : State.Announced s (s.hbmErrAddr a r ue) :=
  (announced_wr_hbm s _ _ (by decide)).trans (announced_wr_hbm _ _ _ (by decide))

theorem announced_hbmUe (a r : Nat) : State.Announced s (s.hbmUe a r) := by
  have counted := (announced_sat_hbm s Off.hbmUeCnt 0 32 1 (by decide)).trans (announced_hbmErrAddr _ a r true)
  exact (counted.trans (announced_event_hbm _ 3)).trans (announced_logOffer _ _ _ _ _)

theorem announced_hbmCe (a r : Nat) : State.Announced s (s.hbmCe a r) := by
  have counted := (announced_sat_hbm s Off.hbmCeCnt 0 32 1 (by decide)).trans (announced_hbmErrAddr _ a r false)
  unfold State.hbmCe
  dsimp only
  generalize (s.sat .hbm 0 Off.hbmCeCnt 0 32 1).hbmErrAddr a r false = x at counted ⊢
  have rows : ∀ v : Hayloft, v.cells = x.hay.cells → v.tags = x.hay.tags → State.Announced s { x with hay := v } :=
    fun v hc ht => counted.trans (announced_with_hay x v hc ht)
  split
  · split
    · exact (rows _ (by rfl) (by rfl)).trans (announced_wf_hbm _ Off.hbmStat _ _ _ (by decide))
    · exact (rows _ (by rfl) (by rfl)).trans (announced_event_hbm _ 4)
  · exact rows _ (by rfl) (by rfl)

/-- A merged write is a write, and what is found in the words that it covers in part (R552). -/
theorem announced_hayMerge (o a : Nat) (bs : List Byte) (r : Nat) (e : Ecc) :
    State.Announced (s.hayStore o a bs) (s.hayMerge o a bs r e) := by
  unfold State.hayMerge
  extract_lets parts dead live x
  have hx : State.Announced (s.hayStore o a bs) x :=
    foldl_keeps (State.Announced _) (fun y w hy => hy.trans (announced_hbmUe y (32 * w) r)) dead (State.Announced.refl _)
  clear_value live x
  cases live with
  | nil => exact hx
  | cons w ws =>
    cases e with
    | clean => exact hx
    | corrected => exact hx.trans (announced_hbmCe x _ r)
    | uncorrectable =>
      exact ((hx.trans (announced_with_hay x _ (by rfl) (by rfl))).trans
        (announced_sat_hbm _ Off.hbmPoisonCnt 0 32 1 (by decide))).trans (announced_hbmUe _ _ r)

/-- Poison cleared, or written again and counted. -/
theorem announced_poisonWrite (a n : Nat) : State.Announced s (s.poisonWrite a n) := by
  refine foldl_keeps (State.Announced s) (fun x e hx => ?_) s.hay.poison (State.Announced.refl s)
  dsimp only
  split
  · exact hx
  · split
    · exact hx.trans (announced_with_hay x _ (by rfl) (by rfl))
    · exact hx.trans (announced_sat_hbm x Off.hbmPoisonCnt 0 32 1 (by decide))

end

end Sys2Proof.Machine

/-!
PROOF. Entries of a ring (R512, R518, R519, R521, R525): what accepting an entry stores and leaves, and what a disabled ring loses.
-/

namespace Sys2Proof.Machine

/-! ### Descriptor words and state of a ring -/

/-- The words of the descriptor of ring `n`, and its state beside them. -/
def State.descr (s : State) (n : Nat) : (Nat → Word) × RingSt := (fun o => s.reg (ringAddr n o), s.ring n)

section
variable (s : State) (n : Nat)

theorem word_of_descr {s t : State} {n : Nat} (h : t.descr n = s.descr n) (o : Nat) :
    t.reg (ringAddr n o) = s.reg (ringAddr n o) :=
  congrFun (congrArg Prod.fst h) o

theorem ring_of_descr {s t : State} {n : Nat} (h : t.descr n = s.descr n) : t.ring n = s.ring n := congrArg Prod.snd h

theorem ring_of_rings {s t : State} (h : t.rings = s.rings) (n : Nat) : t.ring n = s.ring n := by
  rw [State.ring, h, State.ring]

theorem reg_of_regs {s t : State} (h : t.regs = s.regs) (a : Nat) : t.reg a = s.reg a := by
  rw [State.reg, h]
  rfl

theorem reg_setRing (v : RingSt) (a : Nat) : (s.setRing n v).reg a = s.reg a := reg_of_regs (State.setRing_regs ..) a

theorem ring_setReg (a : Nat) (v : Word) : (s.setReg a v).ring n = s.ring n := ring_of_rings (State.setReg_rings ..) n

@[simp] theorem ring_setRing_same (v : RingSt) : (s.setRing n v).ring n = v := Store.getD_setD_same ..

/-- Pages lie apart from the descriptors. -/
theorem descr_wr (k : PageKind) (i o : Nat) (v : Word) : (s.wr k i o v).descr n = s.descr n :=
  Prod.ext (funext fun _ => ringWord_wr ..) (ring_of_rings (State.wr_rings ..) n)

theorem descr_of_regs {s t : State} {n : Nat} (hr : t.regs = s.regs) (h : t.rings = s.rings) : t.descr n = s.descr n :=
  Prod.ext (funext fun _ => reg_of_regs hr _) (ring_of_rings h n)

theorem descr_sendMsg (ix v : Nat) : (s.sendMsg ix v).descr n = s.descr n := by
  obtain ⟨f, h | h | h⟩ := sendMsg_cases s ix v
  · rw [h]
    exact descr_wr s n .hlk 0 _ _
  · rw [h]
    exact descr_of_regs (State.setPba_regs ..) (State.setPba_rings ..)
  · rw [h]
    exact descr_of_regs (State.emit_regs ..) (State.emit_rings ..)

theorem descr_hayPut (o a m v : Nat) : (s.hayPut o a m v).descr n = s.descr n := by
  have poison : (s.poisonWrite a (bytesOf m v).length).descr n = s.descr n := by
    refine foldl_keeps (fun x : State => x.descr n = s.descr n) (fun x e hx => ?_) s.hay.poison rfl
    dsimp only
    split
    · exact hx
    · split
      · exact hx
      · exact (descr_wr x n .hbm 0 _ _).trans hx
  have bytes : ∀ (bs : List Byte) (x : State) (a : Nat), (x.hayWriteBytes o a bs).descr n = x.descr n := by
    intro bs
    induction bs with
    | nil => exact fun _ _ => rfl
    | cons b t ih =>
      exact fun x a => (ih (x.hayWrite o a b) (a + 1)).trans (descr_of_regs (State.hayWrite_regs ..) (State.hayWrite_rings ..))
  exact (bytes _ _ _).trans poison

theorem word_ringSet {o o' lo w v : Nat} (h : o' % 0x20 ≠ o % 0x20) :
    (s.ringSet n o lo w v).reg (ringAddr n o') = s.reg (ringAddr n o') :=
  reg_setReg_ne s _ fun e => h (ringAddr_inj.mp e).2

theorem word_ringFlags {o : Nat} (h : o % 0x20 ≠ Off.rngStat) :
    (s.ringFlags n).reg (ringAddr n o) = s.reg (ringAddr n o) :=
  (word_ringSet _ n h).trans (word_ringSet s n h)

theorem ring_ringFlags (m : Nat) : (s.ringFlags m).ring n = s.ring n :=
  ring_of_rings (by rw [State.ringFlags, State.ringSet_rings, State.ringSet_rings]) n

/-- Counting accepted entries and signalling them moves no descriptor word. -/
theorem word_ringCount (k o : Nat) : (s.ringCount n k).reg (ringAddr n o) = s.reg (ringAddr n o) := by
  unfold State.ringCount
  dsimp only
  split
  · exact word_of_descr (descr_sendMsg _ n _ _) o
  · rfl

/-- It moves neither the entries held nor GAP. -/
theorem ring_ringCount (k : Nat) :
    ((s.ringCount n k).ring n).held = (s.ring n).held ∧ ((s.ringCount n k).ring n).gap = (s.ring n).gap := by
  unfold State.ringCount
  dsimp only
  split
  · rw [State.ringSignal, ring_of_descr (descr_sendMsg _ n _ _), ring_setRing_same, ring_setRing_same]
    exact ⟨rfl, rfl⟩
  · rw [ring_setRing_same]
    exact ⟨rfl, rfl⟩

theorem pidx_lt : s.pidx n < 2 ^ 32 := (s.reg (ringAddr n Off.rngPidx)).isLt
theorem cidx_lt : s.cidx n < 2 ^ 32 := (s.reg (ringAddr n Off.rngCidx)).isLt

/-- A capacity is a power of two below 2²⁷ (R512). -/
theorem ringCap_eq {s : State} {n : Nat} (h : 5 ≤ s.ringLog2 n) : ∃ e ≤ 26, s.ringCap n = 2 ^ e := by
  have hlt : s.ringLog2 n < 2 ^ 5 := fld_lt _ 4 5
  refine ⟨s.ringLog2 n - 5, by omega, ?_⟩
  rw [State.ringCap, show 32 = 2 ^ 5 from rfl, Nat.pow_div h (by decide)]

end

/-! ### Accepting entries -/

/-- Where the `j`-th entry from now on is written. -/
def State.entryAddr (s : State) (n j : Nat) : Nat := s.ringBase n + 32 * ((s.pidx n + j) % s.ringCap n)

theorem entryAddr_mod (s : State) (n j : Nat) : s.entryAddr n j % 32 = 0 := by
  have := ringBase_mod s n
  unfold State.entryAddr
  omega

/-- The `j`-th entry from now on, with header (R519) and body: the first carries GAP. -/
def State.entryValue (s : State) (n : Nat) (p : Producer) (ty j body : Nat) : Nat :=
  pack [(0, 8, ty), (8, 4, p.src.1), (12, 7, p.src.2), (30, 1, bit (j == 0 && (s.ring n).gap)),
    (31, 1, (s.pidx n + j) % 2 ^ 32 / s.ringCap n)] + 2 ^ 32 * (body / 2 ^ 32)

theorem entryValue_lt (s : State) (n : Nat) (p : Producer) (ty j : Nat) {body : Nat} (h : body < 2 ^ 256) :
    s.entryValue n p ty j body < 256 ^ 32 := by
  have hbody : body / 2 ^ 32 < 2 ^ 224 := by omega
  simp only [State.entryValue, pack]
  omega

/-- Ring `n` is an enabled OUT ring to which entries of producer `p` are written as they come. -/
structure State.RingTakes (s : State) (n : Nat) (p : Producer) : Prop where
  en : s.ringEn n = true
  out : s.ringIn n = false
  awake : s.ringPaused = false
  first : s.ringBehind n p = false
  size : 5 ≤ s.ringLog2 n

/-- `t` follows from `s` by `k` entries accepted by ring `n`. -/
structure State.Accepted (n k : Nat) (s t : State) : Prop where
  posted : State.Posted s t
  word : ∀ o, o % 0x20 ≠ Off.rngPidx → o % 0x20 ≠ Off.rngStat → t.reg (ringAddr n o) = s.reg (ringAddr n o)
  held : (t.ring n).held = (s.ring n).held
  gap : (t.ring n).gap = (k == 0 && (s.ring n).gap)
  pidx : t.pidx n = (s.pidx n + k) % 2 ^ 32

theorem State.Accepted.zero (n : Nat) (s : State) : State.Accepted n 0 s s :=
  ⟨State.Posted.refl s, fun _ _ _ => rfl, rfl, rfl, (Nat.mod_eq_of_lt (pidx_lt s n)).symm⟩

theorem State.Accepted.succ {n k : Nat} {s t u : State} (h : State.Accepted n k s t) (h1 : State.Accepted n 1 t u) :
    State.Accepted n (k + 1) s u where
  posted := h.posted.trans h1.posted
  word o hp hs := (h1.word o hp hs).trans (h.word o hp hs)
  held := h1.held.trans h.held
  gap := by simp [h1.gap]
  pidx := by rw [h1.pidx, h.pidx, Nat.mod_add_mod, Nat.add_assoc]

section
variable {n k : Nat} {s t : State} (h : State.Accepted n k s t)
include h

theorem State.Accepted.ringF (o lo w : Nat) (hp : o % 0x20 ≠ Off.rngPidx) (hs : o % 0x20 ≠ Off.rngStat) :
    t.ringF n o lo w = s.ringF n o lo w := by
  rw [State.ringF, h.word o hp hs, State.ringF]

theorem State.Accepted.ringCap : t.ringCap n = s.ringCap n := by
  rw [State.ringCap, State.ringLog2, h.ringF _ _ _ (by decide) (by decide), State.ringCap, State.ringLog2]

theorem State.Accepted.ringOwner : t.ringOwner n = s.ringOwner n := h.ringF _ _ _ (by decide) (by decide)

theorem State.Accepted.ringBase : t.ringBase n = s.ringBase n := by
  rw [State.ringBase, h.ringF _ _ _ (by decide) (by decide), h.ringF _ _ _ (by decide) (by decide), State.ringBase]

theorem State.Accepted.cidx : t.cidx n = s.cidx n := by
  rw [State.cidx, h.word _ (by decide) (by decide), State.cidx]

/-- The ring goes on to take entries. -/
theorem State.Accepted.takes {p : Producer} (ht : s.RingTakes n p) : t.RingTakes n p where
  en := by rw [State.ringEn, h.ringF _ _ _ (by decide) (by decide)]; exact ht.en
  out := by rw [State.ringIn, h.ringF _ _ _ (by decide) (by decide)]; exact ht.out
  awake := by
    have hbm : t.hbm = s.hbm := (congrArg State.hbm h.posted.frame.eq :)
    have stat : ∀ b, t.rb .hbm 0 Off.hbmStat b = s.rb .hbm 0 Off.hbmStat b :=
      rb_of_rd (h.posted.rd .hbm 0 _ (Or.inl (by decide)))
    rw [State.ringPaused, State.trainPause, stat, stat, hbm]
    exact ht.awake
  first := by rw [State.ringBehind, h.held]; exact ht.first
  size := by rw [State.ringLog2, h.ringF _ _ _ (by decide) (by decide)]; exact ht.size

/-- A capacity divides 2³², so that the slot of an entry is that of its index before the indices wrap. -/
theorem State.Accepted.entryAddr (hl : 5 ≤ s.ringLog2 n) : t.entryAddr n 0 = s.entryAddr n k := by
  obtain ⟨e, he, hcap⟩ := ringCap_eq hl
  rw [State.entryAddr, State.entryAddr, h.ringBase, h.ringCap, h.pidx, Nat.add_zero, hcap,
    Nat.mod_mod_of_dvd _ (pow_dvd_pow 2 (by omega))]

theorem State.Accepted.entryValue (p : Producer) (ty body : Nat) : t.entryValue n p ty 0 body = s.entryValue n p ty k body := by
  rw [State.entryValue, State.entryValue, h.gap, h.ringCap, h.pidx, Nat.add_zero, Nat.mod_mod, beq_self_eq_true, Bool.true_and]

/-- With fewer entries than fill it, the ring is not full. -/
theorem State.Accepted.ringFull (hk : s.ringFill n + k < s.ringCap n) (hl : 5 ≤ s.ringLog2 n) : t.ringFull n = false := by
  obtain ⟨e, he, hcap⟩ := ringCap_eq hl
  have hle : 2 ^ e ≤ 2 ^ 26 := Nat.pow_le_pow_right (by decide) he
  have hp := pidx_lt s n
  have hc := cidx_lt s n
  refine beq_false_of_ne ?_
  rw [State.ringFill] at hk ⊢
  rw [h.pidx, h.cidx, h.ringCap]
  omega

end

section
variable (s : State) (n : Nat) (p : Producer) (ty body : Nat)

/-- An entry that a ring takes is written, counted and signalled. -/
theorem post_of_takes {s : State} {n : Nat} {p : Producer} (ht : s.RingTakes n p) (hf : s.ringFull n = false) (wait : Bool) :
    s.post n p wait ty body = (s.ringStore n p ty body (s.ring n).gap).ringCount n 1 := by
  unfold State.post State.offer
  rw [if_neg (by simp [ht.en, ht.out]), if_neg (by simp [hf, ht.first, ht.awake])]

theorem ring_ringStore (gap : Bool) : (s.ringStore n p ty body gap).ring n = { s.ring n with gap := false } := by
  unfold State.ringStore
  dsimp only
  rw [ring_ringFlags, ring_setRing_same, ring_setReg, ring_of_descr (descr_hayPut ..)]

/-- Storing an entry moves PIDX, and the flags of RNG_STAT. -/
theorem word_ringStore (gap : Bool) {o : Nat} (hs : o % 0x20 ≠ Off.rngStat) :
    (s.ringStore n p ty body gap).reg (ringAddr n o) =
      if o % 0x20 = Off.rngPidx then word (s.pidx n + 1) else s.reg (ringAddr n o) := by
  unfold State.ringStore
  dsimp only
  rw [word_ringFlags _ n hs, reg_setRing, reg_setReg, word_of_descr (descr_hayPut ..)]
  exact if_congr (ringAddr_inj.trans (and_iff_right rfl)) rfl rfl

theorem accepted_ringStore (gap : Bool) : State.Accepted n 1 s (s.ringStore n p ty body gap) where
  posted := posted_ringStore s n p ty body gap
  word o hp hs := by rw [word_ringStore _ _ _ _ _ _ hs, if_neg hp]
  held := by rw [ring_ringStore]
  gap := by rw [ring_ringStore]; rfl
  pidx := by
    rw [State.pidx, word_ringStore _ _ _ _ _ _ (by decide), if_pos (by decide), word, BitVec.toNat_ofNat]

theorem accepted_ringCount {s t : State} (h : State.Accepted n 1 s t) : State.Accepted n 1 s (t.ringCount n 1) where
  posted := h.posted.trans (posted_ringCount t n 1)
  word o hp hs := (word_ringCount t n 1 o).trans (h.word o hp hs)
  held := (ring_ringCount t n 1).1.trans h.held
  gap := (ring_ringCount t n 1).2.trans h.gap
  pidx := (congrArg BitVec.toNat (word_ringCount t n 1 Off.rngPidx)).trans h.pidx

theorem accepted_post {s : State} {n : Nat} {p : Producer} (ht : s.RingTakes n p) (hf : s.ringFull n = false) (wait : Bool) :
    State.Accepted n 1 s (s.post n p wait ty body) := by
  rw [post_of_takes ty body ht hf]
  exact accepted_ringCount n (accepted_ringStore s n p ty body _)

/-- The hayloft after an accepted entry: its 32 bytes are written, and nothing else is. -/
theorem contents_post {s : State} {n : Nat} {p : Producer} (ht : s.RingTakes n p) (hf : s.ringFull n = false) (wait : Bool) :
    (s.post n p wait ty body).contents =
      (s.hayPut (s.ringOwner n) (s.entryAddr n 0) 32 (s.entryValue n p ty 0 body)).contents := by
  have hkeys : ((s.ringStore n p ty body (s.ring n).gap).ringCount n 1).keys = s.keys :=
    (congrArg State.keys ((posted_ringStore s n p ty body _).trans (posted_ringCount _ n 1)).frame.eq :)
  have hput : (s.hayPut (s.ringOwner n) (s.entryAddr n 0) 32 (s.entryValue n p ty 0 body)).keys = s.keys :=
    (congrArg State.keys (posted_hayPut_word s _ _ _ (entryAddr_mod s n 0)).frame.eq :)
  have hhay : ((s.ringStore n p ty body (s.ring n).gap).ringCount n 1).hay =
      (s.hayPut (s.ringOwner n) (s.entryAddr n 0) 32 (s.entryValue n p ty 0 body)).hay := by
    rw [hay_ringCount, State.ringStore, hay_ringFlags, State.setRing_hay, State.setReg_hay, State.entryAddr, State.entryValue,
      Nat.add_zero, Nat.mod_eq_of_lt (pidx_lt s n), beq_self_eq_true, Bool.true_and]
  rw [post_of_takes ty body ht hf]
  exact contents_of_hay (by rw [hhay]) (by rw [hhay]) (hkeys.trans hput.symm)

theorem entry_stands {s : State} {n : Nat} {p : Producer} (ht : s.RingTakes n p) (hf : s.ringFull n = false) (wait : Bool) :
    (s.post n p wait ty body).StandsAll (s.ringOwner n) (s.entryAddr n 0) (bytesOf 32 (s.entryValue n p ty 0 body)) :=
  standsAll_of_contents (contents_post ty body ht hf wait) standsAll_hayStore

theorem stands_post {s : State} {n : Nat} {p : Producer} (ht : s.RingTakes n p) (hf : s.ringFull n = false) (wait : Bool)
    {x : Nat} {c : Byte} (h : s.Stands (s.ringOwner n) x c) (hx : x < s.entryAddr n 0 ∨ s.entryAddr n 0 + 32 ≤ x) :
    (s.post n p wait ty body).Stands (s.ringOwner n) x c :=
  stands_of_contents (contents_post ty body ht hf wait) (stands_hayStore_outside h (by rwa [bytesOf_length]))

/-- Two of the next entries lie in different slots, as long as they fit. -/
theorem entryAddr_apart {s : State} {n j k : Nat} (hjk : j < k) (hk : k < s.ringCap n) :
    s.entryAddr n j + 32 ≤ s.entryAddr n k ∨ s.entryAddr n k + 32 ≤ s.entryAddr n j := by
  have hne : (s.pidx n + j) % s.ringCap n ≠ (s.pidx n + k) % s.ringCap n := fun e =>
    Nat.ne_of_lt hjk (Nat.ModEq.eq_of_lt_of_lt (Nat.ModEq.add_left_cancel' _ e) (hjk.trans hk) hk)
  unfold State.entryAddr
  omega

/-- Entries for which a ring has room are accepted one after the other, and all of them stand written. -/
theorem posts_accepted {s : State} {n : Nat} {p : Producer} (ht : s.RingTakes n p) (l : List Nat)
    (hroom : s.ringFill n + l.length ≤ s.ringCap n) :
    State.Accepted n l.length s (l.foldl (fun x b => x.post n p false ty b) s) ∧
      ∀ j < l.length, (l.foldl (fun x b => x.post n p false ty b) s).StandsAll (s.ringOwner n) (s.entryAddr n j)
        (bytesOf 32 (s.entryValue n p ty j (l.getD j 0))) := by
  induction l using List.reverseRecOn with
  | nil => exact ⟨State.Accepted.zero n s, fun j hj => absurd hj (Nat.not_lt_zero j)⟩
  | append_singleton l b ih =>
    rw [List.length_append, List.length_singleton] at hroom ⊢
    rw [List.foldl_append]
    obtain ⟨accepted, stand⟩ := ih (by omega)
    generalize l.foldl (fun x b => x.post n p false ty b) s = t at accepted stand ⊢
    have takes := accepted.takes ht
    have hfull := accepted.ringFull (by omega) ht.size
    have haddr := accepted.entryAddr ht.size
    change State.Accepted n (l.length + 1) s (t.post n p false ty b) ∧ _
    refine ⟨accepted.succ (accepted_post ty b takes hfull false), fun j hj => ?_⟩
    change (t.post n p false ty b).StandsAll _ _ _
    rw [← accepted.ringOwner]
    rcases Nat.lt_succ_iff_lt_or_eq.mp hj with hlt | rfl
    · rw [List.getD_append _ _ _ _ hlt]
      intro i hi
      have hi32 : i < 32 := by rwa [bytesOf_length] at hi
      refine stands_post ty b takes hfull false (by rw [accepted.ringOwner]; exact stand j hlt i hi) ?_
      rw [haddr]
      have := entryAddr_apart hlt (s := s) (n := n) (by omega)
      omega
    · rw [List.getD_append_right _ _ _ _ (Nat.le_refl _), Nat.sub_self, ← haddr, ← accepted.entryValue]
      exact entry_stands ty b takes hfull false

/-! ### A disabled ring -/

theorem post_of_disabled {s : State} {n : Nat} (h : s.ringEn n = false) (wait : Bool) :
    s.post n p wait ty body = (s.ringLose n).countLoss p :=
  congrArg Prod.fst (if_pos (Or.inl h) :)

theorem word_ringDropSignal (o : Nat) : (s.ringDropSignal n).reg (ringAddr n o) = s.reg (ringAddr n o) := by
  unfold State.ringDropSignal
  split
  · rw [word_of_descr (descr_sendMsg _ n _ _), reg_setRing]
  · rfl

/-- Losing an entry leaves the ring's settings. -/
theorem word_ringLose {o : Nat} (h : o % 0x20 ≠ Off.rngDrop) : (s.ringLose n).reg (ringAddr n o) = s.reg (ringAddr n o) := by
  rw [State.ringLose, word_ringDropSignal, reg_setRing]
  exact word_ringSet s n h

theorem ringEn_countLoss : (s.countLoss p).ringEn n = s.ringEn n := by
  cases p with
  | mark | page | device => rfl
  | _ => rw [State.ringEn, State.ringF, State.countLoss, State.sat, State.wf, ringWord_wr]; rfl

/-- Site-result entries offered to a disabled ring are lost and counted (R258). -/
theorem siteEntries_lost {s : State} {n q : Nat} (h : s.ringEn n = false) (l : List Nat) :
    (l.foldl (fun x b => x.post n (.site q) false ty b) s).hay = s.hay ∧
      (l.foldl (fun x b => x.post n (.site q) false ty b) s).rf .site q Off.siteLost 0 16 =
        min 0xFFFF (s.rf .site q Off.siteLost 0 16 + l.length) := by
  induction l generalizing s with
  | nil =>
    have hlt : s.rf .site q Off.siteLost 0 16 < 2 ^ 16 := fld_lt _ 0 16
    exact ⟨rfl, by rw [List.foldl_nil, List.length_nil]; omega⟩
  | cons b l ih =>
    rw [List.foldl_cons, post_of_disabled _ _ _ h, List.length_cons]
    have en : ((s.ringLose n).countLoss (.site q)).ringEn n = false := by
      rw [ringEn_countLoss, State.ringEn, State.ringF, word_ringLose s n (by decide)]
      exact h
    have lost : ((s.ringLose n).countLoss (.site q)).rf .site q Off.siteLost 0 16 =
        satAdd 0xFFFF (s.rf .site q Off.siteLost 0 16) 1 := by
      rw [State.countLoss, rf_sat_same _ _ _ _ _ _ _ (by decide), rf_of_rd ((posted_ringLose s n).rd .site q _ (Or.inl (by decide)))]
      rfl
    obtain ⟨hhay, hcount⟩ := ih en
    refine ⟨hhay.trans (by rw [hay_countLoss, hay_ringLose]), ?_⟩
    rw [hcount, lost, satAdd]
    split <;> omega

end

end Sys2Proof.Machine

/-!
PROOF. Site results and fail capture (R257 to R266): the commands that post a snapshot, write a capture record and show that a
buffer is flushed; and O25.
-/

namespace Sys2Proof.Machine

/-! ### Snapshots (R257, R259) -/

section
variable (s : State) (q : Nat)

theorem control_postSites (l : List Nat) : (s.postSites q l).control = s.control :=
  control_foldl s _ l fun x _ => control_post x _ _ _ _ _

/-- The entries of a snapshot go to one ring: posting leaves the setting of the run. -/
theorem postSites_eq (l : List Nat) :
    s.postSites q l = l.foldl (fun x b => x.post (s.seq q).cfg.siteRing (.site q) false 0x01 b) s := by
  induction l generalizing s with
  | nil => rw [State.postSites, List.foldl_nil, List.foldl_nil]
  | cons b l ih =>
    have kept := seq_of_control (control_post s (s.seq q).cfg.siteRing (.site q) false 0x01 b) q
    have rest := ih (s.post (s.seq q).cfg.siteRing (.site q) false 0x01 b)
    rw [kept, State.postSites] at rest
    rw [State.postSites, List.foldl_cons, List.foldl_cons, rest]

end

section
variable {s : State} {q : Fin 8} {b : List Nat} {l : List (List Nat)}

/-- The state in which the oldest snapshot has left its queue. -/
def State.snapTaken (s : State) (q : Fin 8) (l : List (List Nat)) : State := s.setSeq q { s.seq q with snaps := l }

theorem exec_snapshotPost_eq : exec (.snapshotPost q) s = execSnapshotPost q s := rfl

theorem exec_snapshotPost (h : (s.seq q).snaps = b :: l) :
    exec (.snapshotPost q) s =
      .next (b.foldl (fun x e => x.post (s.seq q).cfg.siteRing (.site q) false 0x01 e) (s.snapTaken q l)) := by
  have posted := postSites_eq (s.snapTaken q l) q b
  rw [State.snapTaken, seq_setSeq_same] at posted
  rw [exec_snapshotPost_eq]
  simp only [execSnapshotPost, h]
  exact congrArg Host.Outcome.next posted

theorem snaps_snapshotPost (h : (s.seq q).snaps = b :: l) : ∃ t, exec (.snapshotPost q) s = .next t ∧ (t.seq q).snaps = l := by
  refine ⟨_, exec_snapshotPost h, ?_⟩
  have kept := seq_of_control (control_foldl (s.snapTaken q l) _ b fun x e =>
    control_post x (s.seq q).cfg.siteRing (.site q) false 0x01 e) q
  rw [kept, State.snapTaken, seq_setSeq_same]

/-- A ring with room takes the entries of a snapshot in order. -/
theorem snapshotPost_accepted (h : (s.seq q).snaps = b :: l) (ht : s.RingTakes (s.seq q).cfg.siteRing (.site q))
    (hroom : s.ringFill (s.seq q).cfg.siteRing + b.length ≤ s.ringCap (s.seq q).cfg.siteRing) (hb : ∀ e ∈ b, e < 2 ^ 256) :
    ∃ t, exec (.snapshotPost q) s = .next t ∧ State.Accepted (s.seq q).cfg.siteRing b.length (s.snapTaken q l) t ∧
      ∀ j < b.length, t.hayGet (s.ringOwner (s.seq q).cfg.siteRing) (s.entryAddr (s.seq q).cfg.siteRing j) 32 =
        s.entryValue (s.seq q).cfg.siteRing (.site q) 0x01 j (b.getD j 0) := by
  have takes : (s.snapTaken q l).RingTakes (s.seq q).cfg.siteRing (.site q) := ⟨ht.en, ht.out, ht.awake, ht.first, ht.size⟩
  obtain ⟨accepted, stand⟩ := posts_accepted 0x01 takes b hroom
  refine ⟨_, exec_snapshotPost h, accepted, fun j hj => hayGet_of_standsAll (stand j hj) (entryValue_lt s _ _ _ _ ?_)⟩
  rw [List.getD_eq_getElem _ _ hj]
  exact hb _ (List.getElem_mem hj)

end

/-! ### Capture records (R264 to R266, R519) -/

theorem satAdd_eq_min (top a b : Nat) : satAdd top a b = min top (a + b) := by
  unfold satAdd
  split <;> omega

section
variable (s : State) (o a : Nat) (bs : List Byte) (r : Nat) (e : Ecc)

/-- A merged write leaves the records of the catch unit, and the pages but HBM and HLK. -/
theorem hayMerge_keeps : (s.hayMerge o a bs r e).catBuf = s.catBuf ∧
    ∀ (k : PageKind) (i o' : Nat), k ≠ .hbm → k ≠ .hlk → (s.hayMerge o a bs r e).rd k i o' = s.rd k i o' := by
  have poison := announced_poisonWrite s a bs.length
  have bytes := posted_hayWriteBytes (s.poisonWrite a bs.length) o a bs
  have found := announced_hayMerge s o a bs r e
  exact ⟨(found.catBuf.trans (congrArg State.catBuf bytes.frame.eq :)).trans poison.catBuf, fun k i o' hk hk' =>
    ((found.rd k i o' hk hk').trans (bytes.rd k i o' (Or.inl hk'))).trans (poison.rd k i o' hk hk')⟩

/-- Its bytes stand written, where the HBM page posts no event to a ring. -/
theorem standsAll_hayMerge (h : s.rd .hbm 0 Off.pgEvtEn = 0) : (s.hayMerge o a bs r e).StandsAll o a bs := by
  have bytes := posted_hayWriteBytes (s.poisonWrite a bs.length) o a bs
  obtain ⟨hen, -⟩ := (announced_poisonWrite s a bs.length).stands h
  obtain ⟨-, hcontents⟩ := (announced_hayMerge s o a bs r e).stands ((bytes.rd .hbm 0 _ (Or.inl (by decide))).trans hen)
  exact standsAll_of_contents hcontents standsAll_hayStore

end

section
variable (s : State) (k : PageKind) (i : Nat)

theorem contents_wr (o : Nat) (v : Word) : (s.wr k i o v).contents = s.contents :=
  contents_of_hay (by rw [State.wr_hay]) (by rw [State.wr_hay]) (State.wr_keys ..)

theorem contents_wr2 (lo hi v : Nat) : (s.wr2 k i lo hi v).contents = s.contents :=
  (contents_wr _ k i hi _).trans (contents_wr s k i lo _)

theorem rf_inc_same (o lo n add : Nat) (h : lo + n ≤ 32) :
    (s.inc k i o lo n add).rf k i o lo n = (s.rf k i o lo n + add) % 2 ^ n :=
  rf_wf_same s k i o lo n _ h

theorem rd2_of_rd {s t : State} {k : PageKind} {i lo hi : Nat} (hlo : t.rd k i lo = s.rd k i lo)
    (hhi : t.rd k i hi = s.rd k i hi) : t.rd2 k i lo hi = s.rd2 k i lo hi := by
  rw [State.rd2, hlo, hhi, State.rd2]

end

section
variable {s : State} {c : CapRec}

/-- A record for which a buffer has no room is dropped and counted (R264). -/
theorem capWrite_full (hfull : 2 ^ (s.seq c.seq).cfg.capSize ≤ s.rd2 .site c.seq Off.capWptrLo Off.capWptrHi)
    (hwrap : tbit (s.seq c.seq).cfg.siteCtrl 2 = false) :
    (s.capWrite c).catBuf = s.catBuf ∧ (s.capWrite c).hay = s.hay ∧ (s.capWrite c).rb .site c.seq Off.capStat 0 = true ∧
      (s.capWrite c).rf .site c.seq Off.capDrop 0 32 = min 0xFFFFFFFF (s.rf .site c.seq Off.capDrop 0 32 + 1) ∧
      natBit ((s.capWrite c).seq c.seq).sites.caplost c.site = true ∧
      (s.capWrite c).rd .site c.seq Off.capCnt = s.rd .site c.seq Off.capCnt := by
  unfold State.capWrite
  dsimp only
  rw [if_pos (Or.inl ⟨hfull, hwrap⟩), State.setSeq_catBuf, State.setSeq_hay, State.rb, State.rf, rd_setSeq, rd_setSeq, rd_setSeq,
    seq_setSeq_same, State.wb_catBuf, State.sat_catBuf, State.wb_hay, State.sat_hay]
  have shown := rb_wb_same (s.sat .site c.seq Off.capDrop 0 32 1) .site c.seq Off.capStat 0 true (by decide)
  have kept : ∀ o, o % 0x1000 ≠ Off.capStat →
      ((s.sat .site c.seq Off.capDrop 0 32 1).wb .site c.seq Off.capStat 0 true).rd .site c.seq o =
        (s.sat .site c.seq Off.capDrop 0 32 1).rd .site c.seq o :=
    fun o ho => rd_wb_offset _ .site c.seq Off.capStat c.seq o 0 true ho
  have counted := rf_sat_same s .site c.seq Off.capDrop 0 32 1 (by decide)
  rw [satAdd_eq_min] at counted
  rw [kept Off.capDrop (by decide), kept Off.capCnt (by decide)]
  exact ⟨rfl, rfl, shown, counted, by simp [natBit, Nat.testBit_or, Nat.testBit_two_pow_self],
    rd_sat_offset s .site c.seq Off.capDrop c.seq Off.capCnt 0 32 1 (by decide)⟩

end

/-! ### The steps by which a record is written -/

/-- The state in which the bytes of record `c` have been merged at address `a`. -/
def State.capMerged (s : State) (c : CapRec) (a : Nat) : State :=
  s.useFree.hayMerge (s.ownerOf .seq c.seq) a (bytesOf 16 c.body) reqRing (freeEcc s.free)

/-- The state in which, after that, the record has been counted and the write pointer stands at `p`. -/
def State.capCounted (s : State) (c : CapRec) (p : Nat) : State :=
  ((s.inc .site c.seq Off.capCnt 0 32 1).wr2 .cat 0 Off.catRecLo Off.catRecHi
    ((s.rd2 .cat 0 Off.catRecLo Off.catRecHi + 1) % 2 ^ 48)).wr2 .site c.seq Off.capWptrLo Off.capWptrHi p

/-- The state in which, after that, it is shown whether the write pointer has been around. -/
def State.capAround (s : State) (c : CapRec) (around : Bool) : State :=
  if around then s.wb .site c.seq Off.capStat 1 true else s

section
variable (s : State) (c : CapRec)

theorem capMerged_keeps (a : Nat) : (s.capMerged c a).catBuf = s.catBuf ∧
    ∀ (k : PageKind) (i o : Nat), k ≠ .hbm → k ≠ .hlk → (s.capMerged c a).rd k i o = s.rd k i o :=
  hayMerge_keeps s.useFree _ _ _ _ _

theorem capMerged_stands (a : Nat) (h : s.rd .hbm 0 Off.pgEvtEn = 0) :
    (s.capMerged c a).StandsAll (s.ownerOf .seq c.seq) a (bytesOf 16 c.body) :=
  standsAll_hayMerge s.useFree _ _ _ _ _ h

variable {p : Nat}

theorem capCounted_catBuf : (s.capCounted c p).catBuf = s.catBuf := by
  rw [State.capCounted, State.wr2_catBuf, State.wr2_catBuf, State.inc, State.wf_catBuf]

theorem capCounted_contents : (s.capCounted c p).contents = s.contents := by
  rw [State.capCounted, contents_wr2, contents_wr2]
  exact contents_wr ..

theorem capCounted_wptr (hp : p < 2 ^ 64) : (s.capCounted c p).rd2 .site c.seq Off.capWptrLo Off.capWptrHi = p :=
  rd2_wr2 _ .site c.seq (by decide) hp

theorem capCounted_cnt : (s.capCounted c p).rf .site c.seq Off.capCnt 0 32 = (s.rf .site c.seq Off.capCnt 0 32 + 1) % 2 ^ 32 := by
  unfold State.capCounted State.wr2
  rw [State.rf, rd_wr_offset _ _ _ _ _ _ _ (by decide), rd_wr_offset _ _ _ _ _ _ _ (by decide),
    rd_wr_kind _ _ _ _ _ _ (by decide), rd_wr_kind _ _ _ _ _ _ (by decide)]
  exact rf_inc_same s .site c.seq Off.capCnt 0 32 1 (by decide)

theorem capCounted_rec : (s.capCounted c p).rd2 .cat 0 Off.catRecLo Off.catRecHi =
    (s.rd2 .cat 0 Off.catRecLo Off.catRecHi + 1) % 2 ^ 48 := by
  have kept : ∀ (x : State) (o : Nat), (x.wr2 .site c.seq Off.capWptrLo Off.capWptrHi p).rd .cat 0 o = x.rd .cat 0 o := fun x o =>
    (rd_wr_kind _ _ _ _ _ _ (by decide)).trans (rd_wr_kind _ _ _ _ _ _ (by decide))
  rw [State.capCounted, rd2_of_rd (kept _ _) (kept _ _), rd2_wr2 _ _ _ (by decide) (by omega)]

theorem capAround_keeps (around : Bool) : (s.capAround c around).catBuf = s.catBuf ∧ (s.capAround c around).contents = s.contents ∧
    ∀ (k : PageKind) (i o : Nat), k ≠ .site ∨ o % 0x1000 ≠ Off.capStat → (s.capAround c around).rd k i o = s.rd k i o := by
  cases around with
  | false => exact ⟨rfl, rfl, fun _ _ _ _ => rfl⟩
  | true =>
    refine ⟨State.wb_catBuf .., contents_wr .., fun k i o h => ?_⟩
    by_cases hk : k = .site
    · subst hk
      exact rd_wb_offset s .site c.seq Off.capStat i o 1 true (h.resolve_left (not_not.mpr rfl))
    · exact rd_wb_kind s c.seq Off.capStat i o 1 true hk

/-- The next value of the write pointer (R265). -/
def State.capNext (s : State) (c : CapRec) : Nat :=
  let p := s.rd2 .site c.seq Off.capWptrLo Off.capWptrHi
  let size := 2 ^ (s.seq c.seq).cfg.capSize
  if size ≤ p + 16 ∧ tbit (s.seq c.seq).cfg.siteCtrl 2 then 0 else p + 16

/-- Where the next record is written (R264). -/
def State.capAddr (s : State) (c : CapRec) : Nat :=
  (s.seq c.seq).cfg.capBase + s.rd2 .site c.seq Off.capWptrLo Off.capWptrHi % 2 ^ (s.seq c.seq).cfg.capSize

/-- There is room for the next record, or the buffer wraps. -/
def State.capRoom (s : State) (c : CapRec) : Prop :=
  s.rd2 .site c.seq Off.capWptrLo Off.capWptrHi < 2 ^ (s.seq c.seq).cfg.capSize ∨ tbit (s.seq c.seq).cfg.siteCtrl 2 = true

/-- A record for which there is room, in a CAPTURE region, is written, counted and shown (R264, R265). -/
theorem capWrite_of_room (hserved : s.inRegion (s.ownerOf .seq c.seq) [captureKind] (s.capAddr c) 16 = true)
    (hroom : s.capRoom c) :
    ∃ around, s.capWrite c = ((s.capMerged c (s.capAddr c)).capCounted c (s.capNext c)).capAround c around := by
  have hopen : ¬((2 ^ (s.seq c.seq).cfg.capSize ≤ s.rd2 .site c.seq Off.capWptrLo Off.capWptrHi ∧
      tbit (s.seq c.seq).cfg.siteCtrl 2 = false) ∨
      s.inRegion (s.ownerOf .seq c.seq) [captureKind] (s.capAddr c) 16 = false) := by
    rw [hserved]
    rintro (⟨hfull, hwrap⟩ | hout)
    · rcases hroom with hlt | hw
      · exact Nat.not_le.mpr hlt hfull
      · exact Bool.false_ne_true (hwrap.symm.trans hw)
    · exact Bool.false_ne_true hout.symm
  exact ⟨_, if_neg hopen⟩

/-- The next value of the write pointer of a buffer of at most 16 GiB fits its registers. -/
theorem capNext_lt (hsize : (s.seq c.seq).cfg.capSize ≤ 34) (hroom : s.capRoom c) : s.capNext c < 2 ^ 64 := by
  have hle : 2 ^ (s.seq c.seq).cfg.capSize ≤ 2 ^ 34 := Nat.pow_le_pow_right (by decide) hsize
  unfold State.capNext
  dsimp only
  split
  · decide
  · rename_i hn
    rcases hroom with hlt | hwrap
    · omega
    · have : ¬2 ^ (s.seq c.seq).cfg.capSize ≤ _ := fun hge => hn ⟨hge, hwrap⟩
      omega

theorem capWrite_room (hsize : (s.seq c.seq).cfg.capSize ≤ 34)
    (hserved : s.inRegion (s.ownerOf .seq c.seq) [captureKind] (s.capAddr c) 16 = true) (hroom : s.capRoom c) :
    (s.capWrite c).catBuf = s.catBuf ∧
      (s.rd .hbm 0 Off.pgEvtEn = 0 → (s.capWrite c).StandsAll (s.ownerOf .seq c.seq) (s.capAddr c) (bytesOf 16 c.body)) ∧
      (s.capWrite c).rd2 .site c.seq Off.capWptrLo Off.capWptrHi = s.capNext c ∧
      (s.capWrite c).rf .site c.seq Off.capCnt 0 32 = (s.rf .site c.seq Off.capCnt 0 32 + 1) % 2 ^ 32 ∧
      (s.capWrite c).rd2 .cat 0 Off.catRecLo Off.catRecHi = (s.rd2 .cat 0 Off.catRecLo Off.catRecHi + 1) % 2 ^ 48 := by
  obtain ⟨around, hwrite⟩ := capWrite_of_room s c hserved hroom
  obtain ⟨hbuf, hrd⟩ := capMerged_keeps s c (s.capAddr c)
  obtain ⟨habuf, hacontents, hard⟩ := capAround_keeps ((s.capMerged c (s.capAddr c)).capCounted c (s.capNext c)) c around
  rw [hwrite]
  refine ⟨(habuf.trans (capCounted_catBuf ..)).trans hbuf, fun h => ?_, ?_, ?_, ?_⟩
  · exact standsAll_of_contents (hacontents.trans (capCounted_contents ..)) (capMerged_stands s c _ h)
  · rw [rd2_of_rd (hard .site _ _ (Or.inr (by decide))) (hard .site _ _ (Or.inr (by decide)))]
    exact capCounted_wptr _ c (capNext_lt s c hsize hroom)
  · rw [rf_of_rd (hard .site _ _ (Or.inr (by decide))), capCounted_cnt, rf_of_rd (hrd .site _ _ (by decide) (by decide))]
  · rw [rd2_of_rd (hard .cat _ _ (Or.inl (by decide))) (hard .cat _ _ (Or.inl (by decide))), capCounted_rec,
      rd2_of_rd (hrd .cat _ _ (by decide) (by decide)) (hrd .cat _ _ (by decide) (by decide))]

end

/-! ### The commands of the catch unit -/

theorem exec_captureRecordWritten {s : State} {c : CapRec} {l : List CapRec} (h : s.catBuf = c :: l) :
    exec .captureRecordWritten s =
      if s.hbmBit 10 then .next s else .next (State.capWrite { s with catBuf := l } c) := by
  change execCaptureRecordWritten s = _
  rw [execCaptureRecordWritten, h]
  rfl

/-- With no record of its sequencer left, a buffer is flushed (R266). -/
theorem captureFlushed_takes {s : State} {q : Fin 8} (hran : (s.seq q).ran = true) (hidle : s.seqActive q = false)
    (hnone : ∀ c ∈ s.catBuf, c.seq ≠ q.val) :
    ∃ t, exec (.captureFlushed q) s = .next t ∧ t.rb .site q Off.capStat 2 = true ∧ t.rb .site q Off.pgEvt 2 = true := by
  have hall : (s.catBuf.all fun c => c.seq != q.val) = true := List.all_eq_true.mpr fun c hc => bne_iff_ne.mpr (hnone c hc)
  refine ⟨_, if_pos ⟨hran, hidle, hall⟩, ?_, rb_event_same _ .site q 2 (by decide)⟩
  rw [rb_of_rd (rd_event _ .site q 2 .site q Off.capStat (by simp [postReg]) (Or.inr (Or.inr (by decide))))]
  exact rb_wb_same s .site q Off.capStat 2 true (by decide)

/-- Settles O25: each command by its own lemmas above. -/
theorem captureCommandsTakeEffect : Obligations.CaptureCommandsTakeEffect := by
  refine ⟨fun q b l s h => ⟨snaps_snapshotPost h, fun _ hen hin hpause hbehind hlog hroom hb => ?_, fun hen => ?_⟩,
    fun c l s h _ => ⟨fun hpause => ?_, fun hpause hbody hsize hserved hroom => ?_, fun hpause hfull hwrap => ?_⟩,
    fun q s => captureFlushed_takes⟩
  · obtain ⟨t, hexec, accepted, stored⟩ := snapshotPost_accepted h ⟨hen, hin, hpause, hbehind, hlog⟩ hroom hb
    exact ⟨t, hexec, accepted.pidx, stored⟩
  · exact ⟨_, exec_snapshotPost h, siteEntries_lost (s := s.snapTaken q l) 0x01 hen b⟩
  · rw [exec_captureRecordWritten h, if_pos hpause]
  · obtain ⟨hbuf, hstands, hwptr, hcnt, hrec⟩ := capWrite_room { s with catBuf := l } c hsize hserved hroom
    rw [exec_captureRecordWritten h, hpause, if_neg Bool.false_ne_true]
    exact ⟨_, rfl, hbuf, fun hev => hayGet_of_standsAll (hstands hev) (by simpa using hbody), hwptr, hcnt, hrec⟩
  · rw [exec_captureRecordWritten h, hpause, if_neg Bool.false_ne_true]
    exact ⟨_, rfl, capWrite_full (s := { s with catBuf := l }) hfull hwrap⟩

end Sys2Proof.Machine

/-!
PROOF. Native TIM units and vernier units (R294 to R329): what the operations over a unit leave of it and of its registers, the
pulses that a run reaches, and each command of the TIM page; and O26.
-/

namespace Sys2Proof.Machine

/-! ### Units and their registers -/

section
variable {s t : State} {st c : Nat}

@[simp] theorem tim_setTim_same (v : TimUnit) : (s.setTim st c v).tim st c = v := Store.getD_setD_same ..

theorem tim_of_tims (h : t.tims = s.tims) : t.tim st c = s.tim st c := by rw [State.tim, State.tim, h]

@[simp] theorem vernier_setVernier_same (v : Vernier) : (s.setVernier st v).vernier st = v := Store.getD_setD_same ..

theorem vernier_of_verniers (h : t.verniers = s.verniers) : t.vernier st = s.vernier st := by
  rw [State.vernier, State.vernier, h]

theorem timState_of_rd (h : t.rd .tim st Off.timState = s.rd .tim st Off.timState) : t.timState st c = s.timState st c :=
  rf_of_rd h _ _

theorem timState_setTimState {v : Nat} (hc : c < 16) (hv : v < 4) : (s.setTimState st c v).timState st c = v :=
  (rf_wf_same s .tim st Off.timState (2 * c) 2 v (by omega)).trans (Nat.mod_eq_of_lt hv)

@[simp] theorem tim_setTimState (i j v : Nat) : (s.setTimState i j v).tim st c = s.tim st c := tim_of_tims (State.wf_tims ..)

theorem timMode_of_regs (h : t.regs = s.regs) (hf : (t.tim st c).farrier = (s.tim st c).farrier) :
    t.timMode st c = s.timMode st c := by
  rw [State.timMode, State.timMode, hf, rf_of_rd (rd_of_regs h _ _ _)]

theorem timMode_setTim {v : TimUnit} (h : v.farrier = (s.tim st c).farrier) :
    (s.setTim st c v).timMode st c = s.timMode st c := timMode_of_regs rfl (by rw [tim_setTim_same, h])

/-- The word of TIM_ARM or TIM_STOP with the bit of one native unit. -/
theorem unitBit (c : Fin 16) : onesOf (fld (word (2 ^ c.val)) 0 16) 16 = [c.val] ∧ tbit (word (2 ^ c.val)) 16 = false := by
  revert c
  decide

/-- The word of TIM_ARM or TIM_STOP with the bit of the vernier unit. -/
theorem vernierBit : onesOf (fld (word (2 ^ 16)) 0 16) 16 = [] ∧ tbit (word (2 ^ 16)) 16 = true := by decide

end

/-! ### Arming (R322) -/

section
variable {s : State} {r : Requester} {st : Nat}

theorem timArmWrite_unit (r : Requester) (st : Nat) (c : Fin 16) (s : State) :
    timArmWrite r st (word (2 ^ c.val)) s = timArmUnit (some r) st c s := by
  obtain ⟨hone, hv⟩ := unitBit c
  simp only [timArmWrite, hone, hv, List.foldl_cons, List.foldl_nil, Bool.false_eq_true, if_false]

theorem timArmWrite_vernier (r : Requester) (st : Nat) (s : State) : timArmWrite r st (word (2 ^ 16)) s = vernierArm st s := by
  obtain ⟨hnone, hv⟩ := vernierBit
  simp only [timArmWrite, hnone, hv, List.foldl_nil, if_true]

/-- What a requester's arm outside TDR mode passes. -/
theorem timArmUnit_arms {c : Nat} (hen : s.pageEn .tim st = true) (hm : s.measuring st = true) (he : s.epochValid = true)
    (hmode : s.timMode st c ≠ tmTdr) (hidle : s.timState st c = tIdle) :
    timArmUnit (some r) st c s = s.timArmed st c false := by
  simp [timArmUnit, hen, hm, he, hmode, hidle]

/-- A unit takes up a run: its record, its result without VALID, its FIFO status and its state (R322). -/
def State.unitStarted (s : State) (st c : Nat) (u : TimUnit) (v : Nat) : State :=
  (((s.setTim st c u).wb .tim st (Off.timRes c 0) 16 false).wr .tim st (Off.timFstat c) 0).setTimState st c v

/-- A unit that takes up a run holds the record given, is in the state given and shows no result. -/
theorem unitStarted_shows {c v : Nat} (u : TimUnit) (hc : c < 16) (hv : v < 4) :
    (s.unitStarted st c u v).timState st c = v ∧ (s.unitStarted st c u v).tim st c = u ∧
      (s.unitStarted st c u v).rb .tim st (Off.timRes c 0) 16 = false := by
  refine ⟨timState_setTimState hc hv, ?_, ?_⟩
  · rw [State.unitStarted, tim_setTimState, tim_of_tims (State.wr_tims ..), tim_of_tims (State.wb_tims ..), tim_setTim_same]
  · have stateApart : Off.timRes c 0 % 0x1000 ≠ Off.timState % 0x1000 := by
      simp only [Off.timRes, Off.timState]
      omega
    have fstatApart : Off.timRes c 0 % 0x1000 ≠ Off.timFstat c % 0x1000 := by
      simp only [Off.timRes, Off.timFstat]
      omega
    rw [State.unitStarted, State.setTimState, rb_of_rd (rd_wf_offset _ .tim st _ st _ _ _ _ stateApart),
      rb_of_rd (rd_wr_offset _ .tim st _ st _ _ fstatApart)]
    exact rb_wb_same _ .tim st _ 16 false (by decide)

/-- An armed unit waits for its line or acquires, with empty statistics and no result (R321, R322). -/
theorem timArmed_shows {c : Nat} (hc : c < 16) (far : Bool) :
    (s.timArmed st c far).timState st c = (if !far && s.rb .tim st (Off.timCfg c) 17 then tWait else tAcq) ∧
      ((s.timArmed st c far).tim st c).count = 0 ∧ ((s.timArmed st c far).tim st c).live = true ∧
      (s.timArmed st c far).rb .tim st (Off.timRes c 0) 16 = false := by
  obtain ⟨x, u, e, hcount, hlive⟩ : ∃ x u, s.timArmed st c far =
      State.unitStarted x st c u (if !far && s.rb .tim st (Off.timCfg c) 17 then tWait else tAcq) ∧ u.count = 0 ∧ u.live = true :=
    ⟨_, _, rfl, rfl, rfl⟩
  obtain ⟨hstate, hunit, hres⟩ := unitStarted_shows (s := x) (st := st) u hc
    (show (if !far && s.rb .tim st (Off.timCfg c) 17 then tWait else tAcq) < 4 by split <;> decide)
  rw [e, hunit]
  exact ⟨hstate, hcount, hlive, hres⟩

/-- An arm of the vernier unit that is not armed (R322, R329). -/
theorem vernierArm_arms (hen : s.pageEn .tim st = true) (hm : s.measuring st = true) (he : s.epochValid = true)
    (hoff : s.rb .tim st Off.timVstat 8 = false) :
    (vernierArm st s).rb .tim st Off.timVstat 8 = true ∧ ((vernierArm st s).vernier st).chan = s.rf .tim st Off.timVcfg 0 4 := by
  simp only [vernierArm, hen, hm, he, hoff, Bool.true_eq_false, Bool.false_eq_true, if_false]
  constructor
  · rw [rb_wb_other _ .tim st _ 9 8 false (by decide) (by decide), rb_wb_same _ .tim st _ 8 true (by decide)]
  · rw [vernier_of_verniers ((State.wb_verniers ..).trans (State.wb_verniers ..)), vernier_setVernier_same]

/-- A stop of an armed unit (R324). -/
theorem timEnd_drains {c : Nat} (hc : c < 16) (code : Nat) (h : s.timState st c = tWait ∨ s.timState st c = tAcq) :
    (s.timEnd st c code).timState st c = tDrain ∧ ((s.timEnd st c code).tim st c).endCode = code := by
  rw [State.timEnd, if_pos h]
  refine ⟨timState_setTimState hc (by decide), ?_⟩
  rw [tim_setTimState, tim_setTim_same]

theorem timStopWrite_unit (st : Nat) (c : Fin 16) (s : State) :
    timStopWrite st (word (2 ^ c.val)) s = s.timEnd st c endStop := by
  obtain ⟨hone, hv⟩ := unitBit c
  simp only [timStopWrite, hone, hv, List.foldl_cons, List.foldl_nil, Bool.false_eq_true, if_false]

theorem timStopWrite_vernier (st : Nat) (s : State) : timStopWrite st (word (2 ^ 16)) s = s.vernierStop st := by
  obtain ⟨hnone, hv⟩ := vernierBit
  simp only [timStopWrite, hnone, hv, List.foldl_nil, if_true]

end

/-! ### What a stamp's logging leaves of the statistics (R308) -/

/-- The count, the sum and the last stamp of a run. -/
def TimUnit.stats (u : TimUnit) : Nat × Int × Option Nat := (u.count, u.sum, u.last)

theorem stats_eq_iff {u : TimUnit} {n : Nat} {x : Int} {v : Option Nat} :
    u.stats = (n, x, v) ↔ u.count = n ∧ u.sum = x ∧ u.last = v := by
  simp only [TimUnit.stats, Prod.mk.injEq]

section
variable (s : State) (st c : Nat)

theorem stats_timLog (v src : Nat) : ((s.timLog st c v src).tim st c).stats = (s.tim st c).stats := by
  unfold State.timLog
  extract_lets u s1
  split
  · rfl
  · split
    · rw [tim_of_tims (t := State.event _ _ _ _) (State.event_tims ..), tim_of_tims (State.wb_tims ..),
        tim_of_tims (State.sat_tims ..), tim_setTim_same]
      rfl
    · rw [tim_setTim_same]
      rfl

theorem stats_timNote (v : Nat) : ((s.timNote st c v).tim st c).stats = (s.tim st c).stats := by
  rw [State.timNote, tim_setTim_same]
  rfl

theorem stats_timEnd (code : Nat) : ((s.timEnd st c code).tim st c).stats = (s.tim st c).stats := by
  unfold State.timEnd
  split
  · rw [tim_setTimState, tim_setTim_same]
    rfl
  · rfl

/-- A stamp is logged and noted, and the run ends where it has reached its length (R305, R315). -/
def State.stampKept (v src : Nat) : State :=
  let x := (s.timLog st c v src).timNote st c v
  if x.timDone st c then x.timEnd st c endCount else x

theorem stats_stampKept (v src : Nat) : ((s.stampKept st c v src).tim st c).stats = (s.tim st c).stats := by
  have hx := (stats_timNote (s.timLog st c v src) st c v).trans (stats_timLog s st c v src)
  unfold State.stampKept
  extract_lets x
  split
  · exact (stats_timEnd x st c endCount).trans hx
  · exact hx

/-- A stamp of a STAMP run is counted and is the last one (R303). -/
theorem stats_timStamp {v src : Nat} (hmode : s.timMode st c = tmStamp) :
    ((s.timStamp st c v src).tim st c).stats = ((s.tim st c).count + 1, (s.tim st c).sum, some v) := by
  have h : s.timStamp st c v src =
      (s.setTim st c { s.tim st c with last := some v, count := (s.tim st c).count + 1 }).stampKept st c v src := by
    simp only [State.timStamp, hmode, if_true]
    rfl
  rw [h, stats_stampKept, tim_setTim_same]
  rfl

end

/-! ### Pulses that a run reaches -/

/-- What the pulses reached in a run change: the unit's references, its LINES window and its pulses to come (R301, R304). -/
structure State.RunPulsed (st c : Nat) (s t : State) : Prop where
  frame : t = { s with tims := t.tims }
  unit : t.tim st c = { s.tim st c with
    refs := (t.tim st c).refs, opened := (t.tim st c).opened, closedAt := (t.tim st c).closedAt, pulses := (t.tim st c).pulses }

section
variable {s t u : State} {st c : Nat}

theorem State.RunPulsed.regs (h : State.RunPulsed st c s t) : t.regs = s.regs := (congrArg State.regs h.frame :)

theorem State.RunPulsed.rf (h : State.RunPulsed st c s t) (k : PageKind) (i o lo n : Nat) : t.rf k i o lo n = s.rf k i o lo n :=
  rf_of_rd (rd_of_regs h.regs k i o) lo n

theorem State.RunPulsed.timState (h : State.RunPulsed st c s t) : t.timState st c = s.timState st c := h.rf ..

theorem State.RunPulsed.timMode (h : State.RunPulsed st c s t) : t.timMode st c = s.timMode st c :=
  timMode_of_regs h.regs (congrArg TimUnit.farrier h.unit :)

theorem State.RunPulsed.stats (h : State.RunPulsed st c s t) : (t.tim st c).stats = (s.tim st c).stats :=
  (congrArg TimUnit.stats h.unit :)

theorem State.RunPulsed.trans (h1 : State.RunPulsed st c s t) (h2 : State.RunPulsed st c t u) : State.RunPulsed st c s u :=
  ⟨h2.frame.trans (by rw [h1.frame]), h2.unit.trans (by rw [h1.unit])⟩

theorem runPulsed_setTim {v : TimUnit} (h : v = { s.tim st c with
    refs := v.refs, opened := v.opened, closedAt := v.closedAt, pulses := v.pulses }) :
    State.RunPulsed st c s (s.setTim st c v) := ⟨rfl, by rw [tim_setTim_same]; exact h⟩

/-- A unit that acquires does not wait for the pulse. -/
theorem runPulsed_timPulse (p : Nat × Nat) (h : s.timState st c = tAcq) : State.RunPulsed st c s (s.timPulse st c p) := by
  unfold State.timPulse
  extract_lets w line u k u1
  rw [if_neg (by rintro ⟨-, hwait⟩; rw [h] at hwait; exact absurd hwait (by decide))]
  exact runPulsed_setTim rfl

theorem runPulsed_timReach (ok : Nat → Bool) (h : s.timState st c = tAcq) : State.RunPulsed st c s (s.timReach st c ok) :=
  foldl_keeps (State.RunPulsed st c s) (fun _ p hx => hx.trans (runPulsed_timPulse p (hx.timState.trans h))) _
    (runPulsed_setTim rfl)

end

/-! ### Events (R296 to R302, R313, R314) -/

/-- An ungated event of a STAMP run with no prescaler and no stamp yet is stamped, with the statistics as they were. -/
theorem timTake_stamps {s : State} {st c t : Nat} {edge : Bool} (hacq : s.timState st c = tAcq)
    (hmode : s.timMode st c = tmStamp) (hgate : s.timGate st c = 0) (hpark : s.rb .stl st Off.stlPark c = false)
    (hpre : s.rf .tim st (Off.timCfg c) 24 4 = 0) (hskip : (s.tim st c).skip = 0) (hraw : (s.tim st c).lastRaw = none) :
    ∃ y src, s.timTake st c t edge = State.timStamp y st c (s.needleStamp (16 * st + c) t) src ∧
      State.timMode y st c = tmStamp ∧ (State.tim y st c).stats = (s.tim st c).stats := by
  unfold State.timTake
  extract_lets v x u src gated near s1
  have hx : State.RunPulsed st c s x := runPulsed_timReach _ hacq
  have hgated : gated = true := by
    have h : x.timGate st c = 0 := (hx.rf ..).trans hgate
    simp only [gated, h]
  have hxskip : u.skip = 0 := (congrArg TimUnit.skip hx.unit :).trans hskip
  have hxraw : u.lastRaw = none := (congrArg TimUnit.lastRaw hx.unit :).trans hraw
  rw [if_neg (by
      rw [hx.timState, hx.timMode, hacq, hmode, hgated, rb_of_rd (rd_of_regs hx.regs ..), hpark]
      simp [tmStamp, tmTdr]),
    if_neg (by rw [hx.rf, hpre]; simp), if_neg (by omega), if_neg (by simp [near, hxraw])]
  have hunit : s1.tim st c = { u with skip := 2 ^ x.rf .tim st (Off.timCfg c) 24 4 - 1, lastEvent := some t } :=
    tim_setTim_same _
  have hs1 : s1.timMode st c = x.timMode st c := timMode_setTim rfl
  refine ⟨_, _, rfl, ?_, ?_⟩
  · rw [timMode_setTim, hs1, hx.timMode, hmode]
    rfl
  · rw [tim_setTim_same]
    exact (congrArg TimUnit.stats hunit).trans hx.stats

/-- An event on an armed vernier with no stamp before joins its FIFO. -/
theorem exec_vernierEvent {s : State} {st : Fin 128} {x : BitVec 64} (harm : s.rb .tim st Off.timVstat 8 = true)
    (hpark : s.rb .stl st Off.stlPark (s.vernier st).chan = false) (hlast : (s.vernier st).last = none)
    (hroom : (s.vernier st).fifo.length < 16) :
    exec (.vernierEvent st x) s = .next (State.event (s.setVernier st { s.vernier st with
      last := some x.toNat, fifo := (s.vernier st).fifo ++ [s.needleVernier (16 * st + (s.vernier st).chan) x.toNat] })
        .tim st 3) := by
  change execVernierEvent st x s = _
  simp [execVernierEvent, harm, hpark, hlast, Nat.not_le.mpr hroom]

/-! ### Reflectometry (R309) -/

/-- A launch leaves the statistics. -/
theorem stats_launched {s t : State} {st c : Nat} {l : Option Nat}
    (h : t.tims = (s.setTim st c { s.tim st c with launched := l }).tims) : (t.tim st c).stats = (s.tim st c).stats := by
  rw [tim_of_tims h, tim_setTim_same]
  rfl

theorem stats_sampled {u w : TimUnit} (x : Int) (v : Nat) (h : u.stats = w.stats) :
    TimUnit.stats { u.sample x with last := some v } = (w.count + 1, w.sum + x, some v) := by
  obtain ⟨hcount, hsum, -⟩ := stats_eq_iff.mp h
  rw [← hcount, ← hsum]
  rfl

/-- A launch of a TDR run, with the round trip of its first H rise, is one more sample. -/
theorem tdrLaunch_samples {s : State} {st : Fin 128} {c : Fin 16} {x : BitVec 48} (hacq : s.timState st c = tAcq)
    (hmode : s.timMode st c = tmTdr) :
    ∃ t, exec (.tdrLaunch st c (some x)) s = .next t ∧ (t.tim st c).count = (s.tim st c).count + 1 ∧
      (t.tim st c).sum = (s.tim st c).sum + x.toNat := by
  have hy : State.RunPulsed st c s (s.timNow st c) := runPulsed_timReach _ hacq
  have hrun : ¬(s.timStateNow st c ≠ tAcq ∨ s.timMode st c ≠ tmTdr) := by
    simp [State.timStateNow, hy.timState, hacq, hmode]
  obtain ⟨y, v, hexec, hstats⟩ : ∃ y v, exec (.tdrLaunch st c (some x)) s = .next (State.stampKept y st c v 0) ∧
      (State.tim y st c).stats = ((s.tim st c).count + 1, (s.tim st c).sum + x.toNat, some v) := by
    refine ⟨_, _, if_neg hrun, ?_⟩
    rw [tim_setTim_same]
    exact stats_sampled _ _ ((stats_launched rfl).trans hy.stats)
  obtain ⟨hcount, hsum, -⟩ := stats_eq_iff.mp ((stats_stampKept y st c v 0).trans hstats)
  exact ⟨_, hexec, hcount, hsum⟩

/-! ### Results and entries (R306, R320, R321) -/

/-- A fold of register writes leaves each register at another offset. -/
theorem rd_foldl_wr (s : State) (k k' : PageKind) (i i' : Nat) {o' : Nat} (f : Nat → Nat) (g : Nat → Word) (l : List Nat)
    (h : ∀ j ∈ l, o' % 0x1000 ≠ f j % 0x1000) : (l.foldl (fun x j => x.wr k i (f j) (g j)) s).rd k' i' o' = s.rd k' i' o' := by
  induction l generalizing s with
  | nil => rfl
  | cons j l ih =>
    rw [List.foldl_cons, ih _ fun n hn => h n (List.mem_cons_of_mem _ hn), rd_wr_off _ _ _ _ (h j List.mem_cons_self)]

/-- Fields that start at or above bit `k` pack to a multiple of 2^k. -/
theorem two_pow_dvd_pack {k : Nat} {l : List (Nat × Nat × Nat)} (h : ∀ p ∈ l.map Prod.fst, k ≤ p) : 2 ^ k ∣ pack l := by
  induction l with
  | nil => exact Nat.dvd_zero _
  | cons f l ih =>
    obtain ⟨hf, hl⟩ := List.forall_mem_cons.mp h
    exact Nat.dvd_add (Nat.dvd_mul_left_of_dvd (Nat.pow_dvd_pow 2 hf) _) (ih hl)

/-- The fields of the first word of a result lie above VALID (R329). -/
theorem timWords_head (s : State) (st c : Nat) : 2 ^ 17 ∣ ((s.timWords st c)[0]?).getD 0 := by
  obtain ⟨l, hhead, hpos⟩ : ∃ l, (s.timWords st c).head? = some (pack l) ∧ l.map Prod.fst = [17, 18, 19, 20, 21, 22, 24] :=
    ⟨_, rfl, rfl⟩
  rw [← List.head?_eq_getElem?, hhead, Option.getD_some]
  exact two_pow_dvd_pack (by rw [hpos]; decide)

theorem timWords_count {s : State} {st c : Nat} (h : (s.tim st c).count < 2 ^ 24) :
    ((s.timWords st c)[1]?).getD 0 = (s.tim st c).count := if_pos h

/-- The nine words of a result are stored, with VALID (R84, R306). -/
def State.timWordsStored (s : State) (st c : Nat) (w : List Nat) : State :=
  (List.range' 1 8).foldl (fun x i => x.wr .tim st (Off.timRes c i) (word ((w[i]?).getD 0)))
    (s.storeResult .tim st (Off.timRes c 0) ((w[0]?).getD 0))

section
variable (s : State) (st c : Nat) (w : List Nat)

theorem timWordsStored_tims : (s.timWordsStored st c w).tims = s.tims :=
  foldl_keeps (fun x : State => x.tims = s.tims) (fun x _ hx => (State.wr_tims x .tim st _ _).trans hx) _
    (State.storeResult_tims ..)

theorem timWordsStored_timState (hc : c < 16) : (s.timWordsStored st c w).timState st c = s.timState st c := by
  refine timState_of_rd ((rd_foldl_wr _ .tim .tim st st _ _ _ fun i hi => ?_).trans (rd_wr_off s .tim .tim _ ?_))
  · have := List.mem_range'_1.mp hi
    simp only [Off.timRes, Off.timState]
    omega
  · simp only [Off.timRes, Off.timState]
    omega

theorem timWordsStored_valid (hw : 2 ^ 17 ∣ (w[0]?).getD 0) :
    (s.timWordsStored st c w).rb .tim st (Off.timRes c 0) 16 = true := by
  obtain ⟨n, hn⟩ := hw
  have hvalid := (storeResult_fields s .tim st (Off.timRes c 0) (code := 0) n (by decide)).2
  rw [Nat.zero_mul, Nat.zero_add, Nat.mul_comm, ← hn] at hvalid
  refine (rb_of_rd (rd_foldl_wr _ .tim .tim st st _ _ _ fun i hi => ?_) 16).trans hvalid
  have := List.mem_range'_1.mp hi
  simp only [Off.timRes]
  omega

theorem timWordsStored_count :
    (s.timWordsStored st c w).rd .tim st (Off.timRes c 1) = word ((w[1]?).getD 0) := by
  rw [State.timWordsStored, List.range'_succ, List.foldl_cons, rd_foldl_wr _ .tim .tim st st _ _ _ fun i hi => ?_,
    rd_wr_same]
  have := List.mem_range'_1.mp hi
  simp only [Off.timRes]
  omega

end

/-- With no ring, no entry is posted (R316). -/
theorem timPost_of_noRing {s : State} {st c : Nat} (h : (s.tim st c).ring = none) : s.timPost st c = s := by
  rw [State.timPost]
  simp only [h]

theorem timPosts_of_noRing {s : State} {st c : Nat} (h : (s.tim st c).ring = none) (l : List Nat) :
    l.foldl (fun x _ => x.timPost st c) s = s :=
  foldl_keeps (fun x => x = s) (fun _ _ hx => by rw [hx, timPost_of_noRing h]) l rfl

/-- A drained unit whose result is stored shows it, and returns to IDLE when it posts to no ring (R321, R329). -/
theorem resultShown_idle {s : State} {st c : Nat} (hc : c < 16) (hdrain : s.timState st c = tDrain)
    (hring : (s.tim st c).ring = none) :
    let t := ((s.setTim st c { s.tim st c with stored := true }).event .tim st 1).timSettle st c
    t.timState st c = tIdle ∧ ∀ i < 9, t.rd .tim st (Off.timRes c i) = s.rd .tim st (Off.timRes c i) := by
  have hrd : ∀ o, o % 0x1000 ≠ Off.pgEvt →
      ((s.setTim st c { s.tim st c with stored := true }).event .tim st 1).rd .tim st o = s.rd .tim st o := fun o ho =>
    (rd_event _ .tim st 1 .tim st o (by simp [postReg]) (Or.inr (Or.inr ho))).trans (rd_of_regs (State.setTim_regs ..) ..)
  have hunit : ((s.setTim st c { s.tim st c with stored := true }).event .tim st 1).tim st c =
      { s.tim st c with stored := true } := by
    rw [tim_of_tims (State.event_tims ..), tim_setTim_same]
  intro t
  simp only [t, State.timSettle]
  rw [hunit, if_pos ⟨(timState_of_rd (hrd _ (by decide))).trans hdrain, rfl, by simp [hring]⟩]
  refine ⟨timState_setTimState hc (by decide), fun i hi => ?_⟩
  exact (rd_wr_off _ .tim .tim _ (by simp only [Off.timRes, Off.timState]; omega)).trans
    (hrd _ (by simp only [Off.timRes, Off.pgEvt]; omega))

theorem fifo_timSettle (s : State) (st c : Nat) : ((s.timSettle st c).tim st c).fifo = (s.tim st c).fifo := by
  unfold State.timSettle
  extract_lets u
  split
  · rw [tim_setTimState, tim_setTim_same]
  · rfl

/-- The result of a drained unit that posts to no ring is stored, and the unit is idle. -/
theorem timResultStored_stores {s : State} {st : Fin 128} {c : Fin 16} (hdrain : s.timState st c = tDrain)
    (hstored : (s.tim st c).stored = false) (hring : (s.tim st c).ring = none) :
    ∃ t, exec (.timResultStored st c) s = .next t ∧ t.rb .tim st (Off.timRes c 0) 16 = true ∧ t.timState st c = tIdle ∧
      ((s.tim st c).count < 2 ^ 24 → t.rd .tim st (Off.timRes c 1) = word (s.tim st c).count) := by
  change ∃ t, execTimResultStored st c s = .next t ∧ _
  unfold execTimResultStored
  rw [if_neg (by simp [hdrain, hstored])]
  extract_lets w x s1 s2 unit s3
  obtain ⟨hregs, htims⟩ : x.regs = s.regs ∧ x.tims = s.tims := by
    simp only [x]
    split <;> exact ⟨rfl, rfl⟩
  have hs2 : s2 = x.timWordsStored st c w := rfl
  have hunit : s2.tim st c = s.tim st c := tim_of_tims ((timWordsStored_tims ..).trans htims)
  have hring2 : (s2.tim st c).ring = none := (congrArg TimUnit.ring hunit).trans hring
  have hs3 : s3 = s2.setTim st c { s2.tim st c with stored := true } :=
    timPosts_of_noRing (by rw [tim_setTim_same]; exact hring2) _
  have hstate : s2.timState st c = tDrain :=
    (timWordsStored_timState x st c w c.isLt).trans ((timState_of_rd (rd_of_regs hregs ..)).trans hdrain)
  obtain ⟨hidle, hkept⟩ := resultShown_idle c.isLt hstate hring2
  rw [hs3]
  refine ⟨_, rfl, ?_, hidle, fun h => ?_⟩
  · exact (rb_of_rd (hkept 0 (by decide)) 16).trans (timWordsStored_valid x st c w (timWords_head s st c))
  · rw [hkept 1 (by decide), hs2, timWordsStored_count, timWords_count h]

/-! ### Entries and FIFOs (R316, R320, R327) -/

theorem entryFrame_countLoss (s : State) (p : Producer) : State.EntryFrame s (s.countLoss p) := by
  cases p <;> rfl

/-- An offer, however it ends and whatever loss its producer counts. -/
theorem entryFrame_offer (s : State) (n : Nat) (p : Producer) (wait : Bool) (ty body : Nat) :
    State.EntryFrame s (s.offer n p wait ty body).1 := by
  have lost := (posted_ringLose s n).frame.trans (entryFrame_countLoss _ p)
  unfold State.offer
  split
  · exact lost
  · split
    · split
      · split
        · exact ((posted_setRing s n _).trans (posted_ringFlags _ n)).frame
        · exact lost
      · exact (((((posted_ringWord s n _ _).trans (posted_ringDrop _ n)).trans (posted_ringStore _ n p ty body true)).trans
          (posted_ringDropSignal _ n)).trans (posted_ringCount _ n 1)).frame
      · exact lost
    · exact ((posted_ringStore s n p ty body _).trans (posted_ringCount _ n 1)).frame

theorem post_tims (s : State) (n : Nat) (p : Producer) (wait : Bool) (ty body : Nat) : (s.post n p wait ty body).tims = s.tims :=
  (congrArg State.tims (entryFrame_offer s n p wait ty body).eq :)

/-- A unit's entry takes up to four stamps from its FIFO when its ring can accept. -/
theorem fifo_timPost {s : State} {st c n : Nat} (hring : (s.tim st c).ring = some n) (hfifo : (s.tim st c).fifo ≠ [])
    (hstuck : s.ringStuck n = false) : ((s.timPost st c).tim st c).fifo = (s.tim st c).fifo.drop 4 := by
  have h : (s.tim st c).fifo.isEmpty = false := by simpa using hfifo
  simp only [State.timPost, hring, hstuck, h, Bool.or_self, Bool.false_eq_true, if_false]
  rw [tim_of_tims (post_tims ..), tim_setTim_same]

theorem fifo_timEntryPost {s : State} {st : Fin 128} {c : Fin 16} {n : Nat} (hring : (s.tim st c).ring = some n)
    (hfifo : (s.tim st c).fifo ≠ []) (hstuck : s.ringStuck n = false) (hturn : s.timTurn st c = true) :
    ∃ t, exec (.timEntryPost st ⟨c, by omega⟩) s = .next t ∧ (t.tim st c).fifo = (s.tim st c).fifo.drop 4 := by
  let y := s.setStall st { s.stall st with turn := (c + 1) % 17 }
  have hexec : exec (.timEntryPost st ⟨c, by omega⟩) s = .next ((y.timPost st c).timSettle st c) :=
    (if_neg (by simp [hturn])).trans (if_pos c.isLt)
  refine ⟨_, hexec, ?_⟩
  rw [fifo_timSettle]
  exact fifo_timPost (s := y) hring hfifo hstuck

theorem timFifoPop_pops {s : State} {st c : Nat} {e : Stamp} {l : List Stamp} (r : Requester) (hfifo : (s.tim st c).fifo = e :: l)
    (hring : (s.tim st c).ring = none) :
    ((timFifoPop r st c s).tim st c).fifo = l ∧ (timFifoPop r st c s).resp = [word e.val] := by
  have hpop : (timFifoPop r st c s).tims = (s.setTim st c { s.tim st c with fifo := l }).tims ∧
      (timFifoPop r st c s).resp = [word e.val] := by
    simp [timFifoPop, hfifo, hring]
  rw [tim_of_tims hpop.1, tim_setTim_same]
  exact ⟨rfl, hpop.2⟩

theorem vernierFifoPop_pops {s : State} {st e : Nat} {l : List Nat} (hfifo : (s.vernier st).fifo = e :: l)
    (hring : (s.vernier st).ring = none) :
    ((vernierFifoPop st s).vernier st).fifo = l ∧ (vernierFifoPop st s).resp = [word e] := by
  have hpop : (vernierFifoPop st s).verniers = (s.setVernier st { s.vernier st with fifo := l }).verniers ∧
      (vernierFifoPop st s).resp = [word e] := by
    simp [vernierFifoPop, hfifo, hring]
  rw [vernier_of_verniers hpop.1, vernier_setVernier_same]
  exact ⟨rfl, hpop.2⟩

/-! ### The commands -/

section
variable {s : State} {r : Requester} {st : Fin 128}

theorem exec_timArm {c : Fin 16} (h : s.accepts r .tim st Off.timArm (word (2 ^ c.val)) = true) :
    exec (.timArm r st c) s = .next (timArmUnit (some r) st c s) :=
  congrArg Host.Outcome.next ((guarded_of_accepts h _).trans (timArmWrite_unit r st c s))

theorem exec_vernierArm (h : s.accepts r .tim st Off.timArm (word (2 ^ 16)) = true) :
    exec (.vernierArm r st) s = .next (vernierArm st s) :=
  congrArg Host.Outcome.next ((guarded_of_accepts h _).trans (timArmWrite_vernier r st s))

theorem exec_timStop {c : Fin 17} (h : s.accepts r .tim st Off.timStop (word (2 ^ c.val)) = true) :
    exec (.timStop r st c) s = .next (timStopWrite st (word (2 ^ c.val)) s) :=
  congrArg Host.Outcome.next (guarded_of_accepts h _)

theorem exec_timEvent {c : Fin 16} {x : BitVec 64} {strobe : Bool} (h : s.timSrc st c < 4) :
    exec (.timEvent st c x strobe) s = .next (s.timTake st c x.toNat strobe) := if_pos h

theorem exec_timFifoRead {c : Fin 16} (h : s.reach r .tim st = .full) :
    exec (.timFifoRead r st c) s = .next (timFifoPop r st c s) := if_pos h

theorem exec_vernierFifoRead (h : s.reach r .tim st = .full) :
    exec (.vernierFifoRead r st) s = .next (vernierFifoPop st s) := if_pos h

/-- A stop drains a native unit that is armed, and disarms the vernier unit (R324). -/
theorem timStopWrite_stops (st : Nat) (c : Fin 17) (s : State) :
    (c.val < 16 → (s.timState st c = tWait ∨ s.timState st c = tAcq) →
      (timStopWrite st (word (2 ^ c.val)) s).timState st c = tDrain ∧
        ((timStopWrite st (word (2 ^ c.val)) s).tim st c).endCode = endStop) ∧
      (c.val = 16 → (timStopWrite st (word (2 ^ c.val)) s).rb .tim st Off.timVstat 8 = false) := by
  refine ⟨fun hc harmed => ?_, fun hc => ?_⟩
  · rw [timStopWrite_unit st ⟨c, hc⟩ s]
    exact timEnd_drains hc endStop harmed
  · rw [hc, timStopWrite_vernier]
    exact rb_wb_same s .tim st Off.timVstat 8 false (by decide)

/-- A front-end event that is stamped in a STAMP run is counted, and its needle-plane time is the last stamp (R296, R303). -/
theorem timEvent_stamps {c : Fin 16} {x : BitVec 64} {strobe : Bool} (hacq : s.timState st c = tAcq)
    (hmode : s.timMode st c = tmStamp) (hsrc : s.timSrc st c < 4) (hgate : s.timGate st c = 0)
    (hpark : s.rb .stl st Off.stlPark c = false) (hpre : s.rf .tim st (Off.timCfg c) 24 4 = 0)
    (hskip : (s.tim st c).skip = 0) (hraw : (s.tim st c).lastRaw = none) :
    ∃ t, exec (.timEvent st c x strobe) s = .next t ∧ (t.tim st c).count = (s.tim st c).count + 1 ∧
      (t.tim st c).last = some (s.needleStamp (16 * st + c) x.toNat) := by
  obtain ⟨y, src, htake, hymode, hstats⟩ := timTake_stamps (t := x.toNat) (edge := strobe) hacq hmode hgate hpark hpre hskip hraw
  obtain ⟨hkept, -, -⟩ := stats_eq_iff.mp hstats
  obtain ⟨hcount, -, hlast⟩ := stats_eq_iff.mp (stats_timStamp y st c hymode)
  exact ⟨_, (exec_timEvent hsrc).trans (congrArg Host.Outcome.next htake), hcount.trans (congrArg (· + 1) hkept), hlast⟩

end

/-- Settles O26: each command by its own lemma above. -/
theorem timUnitsMeasure : Obligations.TimUnitsMeasure := by
  refine ⟨⟨fun r st c s hacc hen hm he hmode hidle => ⟨_, exec_timArm hacc, ?_⟩,
      fun r st s hacc hen hm he hoff => ⟨_, exec_vernierArm hacc, vernierArm_arms hen hm he hoff⟩,
      fun r st c s hacc => ⟨_, exec_timStop hacc, timStopWrite_stops st c s⟩⟩,
    fun st c x strobe s => timEvent_stamps,
    fun st x s harm hpark hlast hroom => ⟨_, exec_vernierEvent harm hpark hlast hroom, ?_⟩,
    fun st c x s => tdrLaunch_samples, fun st c s => timResultStored_stores, fun st c n s => fifo_timEntryPost,
    fun r st c e l s hreach hfifo hring => ⟨_, exec_timFifoRead hreach, timFifoPop_pops r hfifo hring⟩,
    fun r st e l s hreach hfifo hring => ⟨_, exec_vernierFifoRead hreach, vernierFifoPop_pops hfifo hring⟩⟩
  · rw [timArmUnit_arms hen hm he hmode hidle]
    exact timArmed_shows c.isLt false
  · rw [vernier_of_verniers (State.event_verniers ..), vernier_setVernier_same]

end Sys2Proof.Machine

/-!
PROOF. Pages that ring entries, acquisition engines and converters leave alone: what an offer, a preemption of a converter and what
it calls leave of the registers of every other page.
-/

namespace Sys2Proof.Machine

/-- The kinds of page whose registers neither a ring entry, nor an acquisition engine, nor a converter moves. -/
def PageKind.isAside (k : PageKind) : Bool :=
  match k with
  | .hlk | .hbm | .site | .tim | .cnv | .acq | .grm => false
  | _ => true

/-- The registers of every page that stands aside. -/
def State.aside (s : State) (k : PageKind) (i o : Nat) : Word := if k.isAside then s.rd k i o else 0

theorem rd_of_aside {s t : State} (h : t.aside = s.aside) {k : PageKind} (hk : k.isAside = true) (i o : Nat) :
    t.rd k i o = s.rd k i o := by
  simpa only [State.aside, hk, if_true] using congrFun (congrFun (congrFun h k) i) o

theorem aside_eq {s t : State} (h : ∀ k i o, k.isAside = true → t.rd k i o = s.rd k i o) : t.aside = s.aside := by
  funext k i o
  unfold State.aside
  split
  · exact h k i o ‹_›
  · rfl

variable (s : State)

/-! ### Branches, folds and fields -/

/-- Within `State.aside` only the outermost operation is rewritten: what it stores is of no account. -/
@[congr] theorem aside_congr : s.aside = s.aside := rfl

@[simp] theorem aside_ite (c : Prop) [Decidable c] (a b : State) :
    (if c then a else b).aside = if c then a.aside else b.aside := apply_ite State.aside c a b

theorem aside_foldl {α : Type} (f : State → α → State) (l : List α) (h : ∀ x a, (f x a).aside = x.aside) :
    (l.foldl f s).aside = s.aside :=
  foldl_keeps (fun x => x.aside = s.aside) (fun x a hx => (h x a).trans hx) l rfl

@[simp] theorem aside_useFree : s.useFree.aside = s.aside := (rfl)
@[simp] theorem aside_setRing (i : Nat) (v : RingSt) : (s.setRing i v).aside = s.aside := (rfl)
@[simp] theorem aside_setPmu (i u : Nat) (v : PmuSt) : (s.setPmu i u v).aside = s.aside := (rfl)
@[simp] theorem aside_setCnv (i u : Nat) (v : CnvUnit) : (s.setCnv i u v).aside = s.aside := (rfl)
@[simp] theorem aside_setAcq (i : Nat) (v : AcqSt) : (s.setAcq i v).aside = s.aside := (rfl)

/-! ### Pages of the other kinds -/

section
variable {k : PageKind} (h : k.isAside = false)
include h

theorem ne_of_isAside {k' : PageKind} (h' : k'.isAside = true) : k' ≠ k := by
  rintro rfl
  simp [h] at h'

@[simp] theorem aside_wr (i o : Nat) (v : Word) : (s.wr k i o v).aside = s.aside :=
  aside_eq fun _ i' o' h' => rd_wr_kind s i o i' o' v (ne_of_isAside h h')
@[simp] theorem aside_wf (i o lo n v : Nat) : (s.wf k i o lo n v).aside = s.aside := aside_wr s h i o _
@[simp] theorem aside_wb (i o b : Nat) (v : Bool) : (s.wb k i o b v).aside = s.aside := aside_wr s h i o _
@[simp] theorem aside_sat (i o lo n v : Nat) : (s.sat k i o lo n v).aside = s.aside := aside_wr s h i o _
@[simp] theorem aside_startResult (i o : Nat) : (s.startResult k i o).aside = s.aside := aside_wr s h i o _
@[simp] theorem aside_storeResult (i o v : Nat) : (s.storeResult k i o v).aside = s.aside := aside_wr s h i o _
@[simp] theorem aside_wr2 (i lo hi v : Nat) : (s.wr2 k i lo hi v).aside = s.aside :=
  (aside_wr _ h i hi _).trans (aside_wr s h i lo _)

@[simp] theorem aside_event (i n : Nat) : (s.event k i n).aside = s.aside := by
  refine aside_eq fun k' i' o' h' => rd_event s k i n k' i' o' ?_ (Or.inl (ne_of_isAside h h'))
  rintro ⟨rfl, -⟩
  cases h'

end

/-! ### Entries -/

/-- An offer moves no register of a page but those in which its producer counts a loss, and HLK_MSG_DROP. -/
theorem rd_offer (n : Nat) (p : Producer) (wait : Bool) (ty body : Nat) {k : PageKind} {i o : Nat} (hk : k ≠ .hlk)
    (hloss : ∀ x : State, (x.countLoss p).rd k i o = x.rd k i o) : (s.offer n p wait ty body).1.rd k i o = s.rd k i o := by
  have posted : ∀ {x y : State}, State.Posted x y → y.rd k i o = x.rd k i o := fun h => h.rd k i o (Or.inl hk)
  have lost := (hloss (s.ringLose n)).trans (posted (posted_ringLose s n))
  unfold State.offer
  split
  · exact lost
  · split
    · split
      · split
        · exact posted ((posted_setRing s n _).trans (posted_ringFlags _ n))
        · exact lost
      · exact posted (((((posted_ringWord s n _ _).trans (posted_ringDrop _ n)).trans (posted_ringStore _ n p ty body true)).trans
          (posted_ringDropSignal _ n)).trans (posted_ringCount _ n 1))
      · exact lost
    · exact posted ((posted_ringStore s n p ty body _).trans (posted_ringCount _ n 1))

@[simp] theorem aside_countLoss (p : Producer) : (s.countLoss p).aside = s.aside := by
  cases p <;> simp (disch := decide) [State.countLoss]

@[simp] theorem aside_offer (n : Nat) (p : Producer) (wait : Bool) (ty body : Nat) :
    (s.offer n p wait ty body).1.aside = s.aside := by
  refine aside_eq fun k i o h => rd_offer s n p wait ty body ?_ fun x => rd_of_aside (aside_countLoss x p) h i o
  rintro rfl
  cases h

@[simp] theorem aside_post (n : Nat) (p : Producer) (wait : Bool) (ty body : Nat) : (s.post n p wait ty body).aside = s.aside :=
  aside_offer s n p wait ty body

/-! ### Acquisition engines -/

@[simp] theorem aside_portPanic (b : Nat) : (s.portPanic b).aside = s.aside := by simp (disch := decide) [State.portPanic]
@[simp] theorem aside_portCalm (b : Nat) : (s.portCalm b).aside = s.aside := aside_wb s (by decide) _ _ _ _
@[simp] theorem aside_setAcqState (b v : Nat) : (s.setAcqState b v).aside = s.aside := aside_wf s (by decide) _ _ _ _ _

@[simp] theorem aside_acqIdle (b : Nat) : (s.acqIdle b).aside = s.aside := by
  simp (disch := decide) [State.acqIdle, State.acqDrained]

@[simp] theorem aside_acqStore (b : Nat) (r : AcqRec) : (s.acqStore b r).aside = s.aside := by
  simp (disch := decide) [State.acqStore]

@[simp] theorem aside_acqRelease (b n : Nat) : (s.acqRelease b n).aside = s.aside := by
  unfold State.acqRelease
  split <;> simp

@[simp] theorem aside_acqPort (b : Nat) : (s.acqPort b).aside = s.aside := by simp [State.acqPort]

theorem aside_acqOffer {b n : Nat} {force : Bool} {t : State} (h : s.acqOffer b n force = some t) : t.aside = s.aside := by
  unfold State.acqOffer at h
  dsimp only at h
  repeat' split at h
  all_goals cases h
  all_goals simp

@[simp] theorem aside_acqPumpN (b n : Nat) (force : Bool) (fuel : Nat) : (s.acqPumpN b n force fuel).aside = s.aside := by
  induction fuel generalizing s with
  | zero => rfl
  | succ f ih =>
    rw [State.acqPumpN]
    split
    · rename_i x hx
      rw [ih, aside_acqOffer s hx]
    · rfl

@[simp] theorem aside_acqPump (b : Nat) (force : Bool) : (s.acqPump b force).aside = s.aside := by
  unfold State.acqPump
  dsimp only
  repeat' split
  all_goals simp

@[simp] theorem aside_acqClose (b n c : Nat) (trunc : Bool) : (s.acqClose b n c trunc).aside = s.aside := by
  unfold State.acqClose
  dsimp only
  split <;> simp (disch := decide)

@[simp] theorem aside_acqPostCheck (b : Nat) : (s.acqPostCheck b).aside = s.aside := by
  unfold State.acqPostCheck
  dsimp only
  split <;> simp

@[simp] theorem aside_acqOverflow (b n : Nat) : (s.acqOverflow b n).aside = s.aside := by
  unfold State.acqOverflow
  split <;> simp

@[simp] theorem aside_acqEvent (b t : Nat) : (s.acqEvent b t).aside = s.aside := by
  simp (disch := decide) [State.acqEvent]

@[simp] theorem aside_acqReach (b : Nat) : (s.acqReach b).aside = s.aside := by
  simp [State.acqReach, aside_foldl _ _ _ fun x t => aside_acqEvent x b t]

@[simp] theorem aside_acqEnd (st u : Nat) : (s.acqEnd st u).aside = s.aside := by simp [State.acqEnd]

/-! ### Converters -/

@[simp] theorem aside_cnvTrigger (st u t : Nat) : (s.cnvTrigger st u t).aside = s.aside := by
  simp (disch := decide) [State.cnvTrigger, State.setCnvState]

@[simp] theorem aside_cnvReach (st u : Nat) : (s.cnvReach st u).aside = s.aside := by
  simp [State.cnvReach, aside_foldl _ _ _ fun x t => aside_cnvTrigger x st u t]

@[simp] theorem aside_cnvCut (st u c : Nat) : (s.cnvCut st u c).aside = s.aside := by
  simp (disch := decide) [State.cnvCut, State.setCnvState]

@[simp] theorem aside_cnvPreempt (st u : Nat) : (s.cnvPreempt st u).aside = s.aside := by simp [State.cnvPreempt]
@[simp] theorem aside_cnvDisturb (st u : Nat) : (s.cnvDisturb st u).aside = s.aside := by simp [State.cnvDisturb]

end Sys2Proof.Machine

/-!
PROOF. Parametric source-measure units (R330 to R364): what the operations over a unit leave of it and of its registers, the
writes of the PMU page, limits and waves; and O27.
-/

namespace Sys2Proof.Machine

/-! ### Offsets of the unit registers -/

/-- Two registers at different places of the unit blocks, of one unit or two. -/
theorem unitReg_apart {a b u w : Nat} (ha : 0x100 ≤ a ∧ a < 0x140 := by decide) (hb : 0x100 ≤ b ∧ b < 0x140 := by decide)
    (h : a ≠ b := by decide) :
    (a + u * 0x40) % 0x1000 ≠ (b + w * 0x40) % 0x1000 := by omega

/-- The registers at one place of the blocks of two units. -/
theorem unitReg_apart_unit {a u w : Nat} (hu : u < 4) (hw : w < 4) (h : u ≠ w) :
    (a + u * 0x40) % 0x1000 ≠ (a + w * 0x40) % 0x1000 := by omega

/-- A register of a unit block and one of the header or of the registers before the blocks. -/
theorem unitReg_apart_low {a u o : Nat} (hu : u < 4) (ha : 0x100 ≤ a ∧ a < 0x140 := by decide) (ho : o < 0x100 := by decide) :
    (a + u * 0x40) % 0x1000 ≠ o := by omega

/-- A register before the unit blocks and one within them. -/
theorem lowReg_apart {a u o : Nat} (h : o % 0x40 ≠ a % 0x40 := by decide) : o % 0x1000 ≠ (a + u * 0x40) % 0x1000 := by omega

/-! ### Plain writes of fields -/

/-- A field all of whose bits the row is RW takes the written value. -/
theorem fld_mergeWrite_field {row : RegRow} {lo n : Nat} (hrw : ∀ j < n, row.rw.testBit (lo + j) = true) (hw1c : row.w1c = 0)
    (h : lo + n ≤ 32) (old v : Word) : fld (mergeWrite row old v) lo n = fld v lo n := by
  apply Nat.eq_of_testBit_eq
  intro j
  unfold fld mergeWrite word
  simp only [hw1c, Nat.testBit_mod_two_pow, Nat.testBit_div_two_pow, BitVec.testBit_toNat, BitVec.getLsbD_and,
    BitVec.getLsbD_or, BitVec.getLsbD_not, BitVec.getLsbD_ofNat, Nat.zero_testBit]
  by_cases hj : j < n
  · have hb := hrw j hj
    rw [Nat.add_comm] at hb
    simp [hj, hb, show j + lo < 32 by omega]
  · simp [hj]

theorem tbit_mergeWrite {row : RegRow} {b : Nat} (hrw : row.rw.testBit b = true) (hw1c : row.w1c = 0) (h : b < 32) (old v : Word) :
    tbit (mergeWrite row old v) b = tbit v b := by
  rw [tbit_eq_fld, tbit_eq_fld, fld_mergeWrite_field (fun j hj => by rwa [Nat.lt_one_iff.mp hj]) hw1c (by omega)]

theorem fld_word_toNat {n : Nat} (hn : n ≤ 32) (b : BitVec n) : fld (word b.toNat) 0 n = b.toNat := by
  rw [fld_word _ _ _ (by omega), Nat.pow_zero, Nat.div_one, Nat.mod_eq_of_lt b.isLt]

/-- The row of PMU_CTRL. -/
theorem regRow_pmuCtrl (u : Fin 4) :
    ∃ ij, regRow .pmu (Off.pmuCtrl u) = some (⟨0x100, 0x40, 4, 0, 1, 0x30, 0, false, 0x773, 0, 0, 0⟩, ij) := by
  fin_cases u <;> exact ⟨_, rfl⟩

theorem regRow_pmuForce (u : Fin 4) :
    ∃ ij, regRow .pmu (Off.pmuForce u) = some (⟨0x108, 0x40, 4, 0, 1, 0xBB80, 0, false, 0x3FFFF, 0, 0, 0⟩, ij) := by
  fin_cases u <;> exact ⟨_, rfl⟩

theorem regRow_pmuVclh (u : Fin 4) :
    ∃ ij, regRow .pmu (Off.pmuVclh u) = some (⟨0x110, 0x40, 4, 0, 1, 0xFA00, 0, false, 0xFFFF, 0, 0, 0⟩, ij) := by
  fin_cases u <;> exact ⟨_, rfl⟩

theorem regRow_pmuVcll (u : Fin 4) :
    ∃ ij, regRow .pmu (Off.pmuVcll u) = some (⟨0x114, 0x40, 4, 0, 1, 0, 0, false, 0xFFFF, 0, 0, 0⟩, ij) := by
  fin_cases u <;> exact ⟨_, rfl⟩

/-! ### Units -/

section
variable {s t : State} {st u : Nat}

@[simp] theorem pmu_setPmu_same (v : PmuSt) : (s.setPmu st u v).pmu st u = v := Store.getD_setD_same ..

theorem pmu_setPmu_ne {st' u' : Nat} (v : PmuSt) (h : 4 * st + u ≠ 4 * st' + u') : (s.setPmu st' u' v).pmu st u = s.pmu st u :=
  Store.getD_setD_ne _ _ v h

theorem pmu_of_pmus (h : t.pmus = s.pmus) : t.pmu st u = s.pmu st u := by rw [State.pmu, State.pmu, h]

theorem pmuState_of_rd (h : t.rd .pmu st (Off.pmuStat u) = s.rd .pmu st (Off.pmuStat u)) : t.pmuState st u = s.pmuState st u :=
  rf_of_rd h _ _

theorem pmuState_setPmuState {v : Nat} (h : v < 8) : (s.setPmuState st u v).pmuState st u = v :=
  (rf_wf_same s .pmu st (Off.pmuStat u) 0 3 v (by decide)).trans (Nat.mod_eq_of_lt h)

theorem ganged_of_rd (h : t.rd .pmu st Off.pmuGang = s.rd .pmu st Off.pmuGang) : t.ganged st = s.ganged st := rb_of_rd h _

/-- A unit that follows no leader is its own leader and heads its gang. -/
theorem gang_of_leads (h : s.follower st u = false) : s.leader st u = u ∧ u ∈ s.gangUnits st u ∧ (s.gangUnits st u).Nodup := by
  unfold State.follower at h
  unfold State.leader State.gangUnits
  cases hg : s.ganged st
  · simp
  · obtain rfl : u = 0 := by simpa [hg] using h
    decide

end

/-! ### What an operation leaves of the registers of the page -/

section
variable (s : State) {st u i o : Nat}

theorem rd_pmuEvent (n : Nat) (he : o % 0x1000 ≠ Off.pgEvt) : (s.event .pmu st n).rd .pmu i o = s.rd .pmu i o :=
  rd_event s .pmu st n .pmu i o (by simp [postReg]) (Or.inr (Or.inr he))

theorem rd_pmuFlag (f : Nat) (hf : o % 0x1000 ≠ Off.pmuFlags u % 0x1000) (he : o % 0x1000 ≠ Off.pgEvt) :
    (s.pmuFlag st u f).rd .pmu i o = s.rd .pmu i o :=
  (rd_pmuEvent _ 1 he).trans (rd_wb_offset s .pmu st _ i o f true hf)

theorem rb_pmuFlag {f : Nat} (hu : u < 4) (hf : f < 32) : (s.pmuFlag st u f).rb .pmu st (Off.pmuFlags u) f = true := by
  rw [State.pmuFlag, rb_of_rd (rd_pmuEvent _ 1 (unitReg_apart_low hu))]
  exact rb_wb_same s .pmu st _ f true hf

@[simp] theorem pmus_pmuFlag (f : Nat) : (s.pmuFlag st u f).pmus = s.pmus := (State.event_pmus ..).trans (State.wb_pmus ..)

theorem rd_applyWave (p : PmuSt) (hf : o % 0x1000 ≠ Off.pmuFlags u % 0x1000) (he : o % 0x1000 ≠ Off.pgEvt) :
    (s.applyWave st u p).rd .pmu i o = s.rd .pmu i o := by
  unfold State.applyWave
  dsimp only
  split
  · split
    · exact rd_pmuFlag _ 5 hf he
    · rfl
  · rfl

/-- A unit that applies its code holds the record given but for the applied code, which is the force code where no wave plays. -/
theorem pmus_applyWave (st u : Nat) (p : PmuSt) : ∃ a, (s.applyWave st u p).pmus = (s.setPmu st u { p with applied := a }).pmus ∧
    (p.wave.plays = false → a = p.force) := by
  unfold State.applyWave
  dsimp only
  split
  · rename_i h
    refine ⟨(waveCode p.force (s.waveEntry st u (p.acc / 2 ^ 20)) p.amp (codeLo (s.pmuFi st u)) (codeHi (s.pmuFi st u))).1,
      ?_, fun hp => by simp [h] at hp⟩
    split
    · exact pmus_pmuFlag ..
    · rfl
  · exact ⟨_, rfl, fun _ => rfl⟩

theorem pmu_applyWave_same (st u : Nat) (p : PmuSt) : ∃ a, (s.applyWave st u p).pmu st u = { p with applied := a } ∧
    (p.wave.plays = false → a = p.force) := by
  obtain ⟨a, h, ha⟩ := pmus_applyWave s st u p
  exact ⟨a, (pmu_of_pmus h).trans (pmu_setPmu_same ..), ha⟩

theorem pmu_applyWave_ne {st' u' : Nat} (p : PmuSt) (h : 4 * st + u ≠ 4 * st' + u') :
    (s.applyWave st' u' p).pmu st u = s.pmu st u := by
  obtain ⟨a, ha, -⟩ := pmus_applyWave s st' u' p
  exact (pmu_of_pmus ha).trans (pmu_setPmu_ne _ h)

theorem rd_cnvDisturb : (s.cnvDisturb st u).rd .pmu i o = s.rd .pmu i o := rd_of_aside (aside_cnvDisturb s st u) rfl i o

@[simp] theorem pmus_cnvDisturb (st u : Nat) : (s.cnvDisturb st u).pmus = s.pmus := by
  unfold State.cnvDisturb
  split <;> rfl

theorem rd_throttle (h : o % 0x1000 ≠ Off.pmuStat u % 0x1000) : (s.throttle st u).rd .pmu i o = s.rd .pmu i o :=
  rd_wb_offset s .pmu st _ i o 6 _ h

@[simp] theorem pmus_throttle (st u : Nat) : (s.throttle st u).pmus = s.pmus := State.wb_pmus ..

end

/-! ### An output goes off (R339, R360, R361) -/

section
variable (s : State) {st u : Nat}

/-- The part of `pmuOutOff` before the state register: the output is disabled, and the range of the register is in force. -/
def State.pmuDrop (s : State) (st u : Nat) : State :=
  let p := s.pmu st u
  let s0 := if s.ganged st ∨ p.range = s.rf .pmu st (Off.pmuCtrl u) 4 3 then s else s.cnvDisturb st u
  let s1 := s0.wb .pmu st (Off.pmuCtrl u) 0 false
  let p' := { p with held := none, cut := false, clampNext := false, hiz := false, fallback := false
                     force := p.held.getD p.force, range := s.rf .pmu st (Off.pmuCtrl u) 4 3 }
  if p.held.isSome then s1.applyWave st u p' else s1.setPmu st u p'

theorem pmuOutOff_eq (next : Nat) : s.pmuOutOff st u next =
    (((s.pmuDrop st u).throttle st u).wb .pmu st (Off.pmuStat u) 3 false).setPmuState st u next := rfl

/-- The converter is disturbed where the range in force is not that of the register. -/
theorem pmuDrop_from (st u : Nat) : ∃ x : State, x.pmus = s.pmus ∧ (∀ i o, x.rd .pmu i o = s.rd .pmu i o) ∧
    s.pmuDrop st u =
      (let y := x.wb .pmu st (Off.pmuCtrl u) 0 false
       let p' := { s.pmu st u with held := none, cut := false, clampNext := false, hiz := false, fallback := false
                                   force := (s.pmu st u).held.getD (s.pmu st u).force
                                   range := s.rf .pmu st (Off.pmuCtrl u) 4 3 }
       if (s.pmu st u).held.isSome then y.applyWave st u p' else y.setPmu st u p') := by
  refine ⟨_, ?_, fun i o => ?_, rfl⟩
  · split
    · rfl
    · exact pmus_cnvDisturb ..
  · split
    · rfl
    · exact rd_cnvDisturb s

theorem rd_pmuDrop {i o : Nat} (hc : o % 0x1000 ≠ Off.pmuCtrl u % 0x1000) (hf : o % 0x1000 ≠ Off.pmuFlags u % 0x1000)
    (he : o % 0x1000 ≠ Off.pgEvt) : (s.pmuDrop st u).rd .pmu i o = s.rd .pmu i o := by
  obtain ⟨x, -, hx, e⟩ := pmuDrop_from s st u
  have hy := (rd_wb_offset x .pmu st (Off.pmuCtrl u) i o 0 false hc).trans (hx i o)
  rw [e]
  dsimp only
  split
  · exact (rd_applyWave _ _ hf he).trans hy
  · exact hy

theorem rd_pmuDrop_ctrl (hu : u < 4) :
    (s.pmuDrop st u).rd .pmu st (Off.pmuCtrl u) = putBit (s.rd .pmu st (Off.pmuCtrl u)) 0 false := by
  obtain ⟨x, -, hx, e⟩ := pmuDrop_from s st u
  have hy : (x.wb .pmu st (Off.pmuCtrl u) 0 false).rd .pmu st (Off.pmuCtrl u) = putBit (s.rd .pmu st (Off.pmuCtrl u)) 0 false := by
    rw [wb_eq_wr, rd_wr_same, hx]
  rw [e]
  dsimp only
  split
  · exact (rd_applyWave _ _ unitReg_apart (unitReg_apart_low hu)).trans hy
  · exact hy

theorem pmu_pmuDrop_ne {st' u' : Nat} (h : 4 * st + u ≠ 4 * st' + u') : (s.pmuDrop st' u').pmu st u = s.pmu st u := by
  obtain ⟨x, hx, -, e⟩ := pmuDrop_from s st' u'
  rw [e]
  dsimp only
  split
  · exact (pmu_applyWave_ne _ _ h).trans (pmu_of_pmus hx)
  · exact (pmu_setPmu_ne _ h).trans (pmu_of_pmus hx)

/-- An output that goes off takes the range of its register, and where no code was held its codes stand. -/
theorem pmu_pmuDrop_same (st u : Nat) : ((s.pmuDrop st u).pmu st u).range = s.rf .pmu st (Off.pmuCtrl u) 4 3 ∧
    ((s.pmu st u).held = none → ((s.pmuDrop st u).pmu st u).force = (s.pmu st u).force ∧
      ((s.pmuDrop st u).pmu st u).applied = (s.pmu st u).applied) := by
  obtain ⟨x, -, -, e⟩ := pmuDrop_from s st u
  rw [e]
  dsimp only
  split
  · rename_i hheld
    obtain ⟨a, ha, -⟩ := pmu_applyWave_same (x.wb .pmu st (Off.pmuCtrl u) 0 false) st u _
    rw [ha]
    exact ⟨rfl, fun h => by simp [h] at hheld⟩
  · rw [pmu_setPmu_same]
    exact ⟨rfl, fun h => by simp [h]⟩

end

section
variable (s : State) {st u : Nat}

theorem pmus_pmuOutOff (st u next : Nat) : (s.pmuOutOff st u next).pmus = (s.pmuDrop st u).pmus := by
  rw [pmuOutOff_eq, State.setPmuState, State.wf_pmus, State.wb_pmus, pmus_throttle]

theorem rd_pmuOutOff {i o : Nat} (next : Nat) (hs : o % 0x1000 ≠ Off.pmuStat u % 0x1000) :
    (s.pmuOutOff st u next).rd .pmu i o = (s.pmuDrop st u).rd .pmu i o := by
  rw [pmuOutOff_eq, State.setPmuState, rd_wf_offset _ .pmu st _ i o 0 3 next hs, rd_wb_offset _ .pmu st _ i o 3 false hs,
    rd_throttle _ hs]

/-- An output goes off: OUT_EN alone of its PMU_CTRL moves, and the unit is in the state given. -/
theorem pmuOutOff_shows {next : Nat} (hu : u < 4) (hn : next < 8) :
    (s.pmuOutOff st u next).pmuState st u = next ∧
      (s.pmuOutOff st u next).rd .pmu st (Off.pmuCtrl u) = putBit (s.rd .pmu st (Off.pmuCtrl u)) 0 false ∧
      (s.pmuOutOff st u next).rd .pmu st (Off.pmuForce u) = s.rd .pmu st (Off.pmuForce u) :=
  ⟨pmuState_setPmuState hn, (rd_pmuOutOff s next unitReg_apart).trans (rd_pmuDrop_ctrl s hu),
    (rd_pmuOutOff s next unitReg_apart).trans (rd_pmuDrop s unitReg_apart unitReg_apart (unitReg_apart_low hu))⟩

end

/-! ### One unit through the operations over others -/

/-- In a fold whose other steps keep a relation, one element meets its own step alone. -/
theorem foldl_meets {α β : Type} {R : β → β → Prop} (refl : ∀ x, R x x) (trans : ∀ {x y z}, R x y → R y z → R x z)
    {f : β → α → β} {l m : List α} (h : ∀ x, ∀ b ∈ l ++ m, R x (f x b)) (s : β) (a : α) :
    ∃ y, R s y ∧ R (f y a) ((l ++ a :: m).foldl f s) := by
  have keeps : ∀ (n : List α) (x : β), (∀ b ∈ n, b ∈ l ++ m) → R x (n.foldl f x) := by
    intro n
    induction n with
    | nil => exact fun x _ => refl x
    | cons b n ih =>
      exact fun x hn => trans (h x b (hn b List.mem_cons_self)) (ih _ fun c hc => hn c (List.mem_cons_of_mem _ hc))
  refine ⟨l.foldl f s, keeps l s fun b => List.mem_append_left m, ?_⟩
  rw [List.foldl_append, List.foldl_cons]
  exact keeps m _ fun b => List.mem_append_right l

/-- From `s` to `t` unit `u` of the stall keeps its record, its control, its state and its force code. -/
structure State.KeepsUnit (st u : Nat) (s t : State) : Prop where
  pmu : t.pmu st u = s.pmu st u
  ctrl : t.rd .pmu st (Off.pmuCtrl u) = s.rd .pmu st (Off.pmuCtrl u)
  stat : t.rd .pmu st (Off.pmuStat u) = s.rd .pmu st (Off.pmuStat u)
  force : t.rd .pmu st (Off.pmuForce u) = s.rd .pmu st (Off.pmuForce u)

theorem State.KeepsUnit.refl (st u : Nat) (s : State) : State.KeepsUnit st u s s := ⟨rfl, rfl, rfl, rfl⟩

theorem State.KeepsUnit.trans {st u : Nat} {s t x : State} (h : State.KeepsUnit st u s t) (h' : State.KeepsUnit st u t x) :
    State.KeepsUnit st u s x :=
  ⟨h'.pmu.trans h.pmu, h'.ctrl.trans h.ctrl, h'.stat.trans h.stat, h'.force.trans h.force⟩

theorem State.KeepsUnit.state {st u : Nat} {s t : State} (h : State.KeepsUnit st u s t) : t.pmuState st u = s.pmuState st u :=
  pmuState_of_rd h.stat

section
variable (s : State) {st u w : Nat}

theorem keepsUnit_cnvDisturb (st u w : Nat) : State.KeepsUnit st u s (s.cnvDisturb st w) :=
  ⟨pmu_of_pmus (pmus_cnvDisturb ..), rd_cnvDisturb s, rd_cnvDisturb s, rd_cnvDisturb s⟩

theorem keepsUnit_event (n : Nat) (hu : u < 4) : State.KeepsUnit st u s (s.event .pmu st n) :=
  ⟨pmu_of_pmus (State.event_pmus ..), rd_pmuEvent s n (unitReg_apart_low hu), rd_pmuEvent s n (unitReg_apart_low hu),
    rd_pmuEvent s n (unitReg_apart_low hu)⟩

theorem keepsUnit_pmuFlag (w f : Nat) (hu : u < 4) : State.KeepsUnit st u s (s.pmuFlag st w f) :=
  ⟨pmu_of_pmus (pmus_pmuFlag ..), rd_pmuFlag s f unitReg_apart (unitReg_apart_low hu),
    rd_pmuFlag s f unitReg_apart (unitReg_apart_low hu), rd_pmuFlag s f unitReg_apart (unitReg_apart_low hu)⟩

theorem keepsUnit_setPmuState (v : Nat) (hu : u < 4) (hw : w < 4) (h : w ≠ u) : State.KeepsUnit st u s (s.setPmuState st w v) :=
  ⟨pmu_of_pmus (State.wf_pmus ..), rd_wf_offset s .pmu st _ st _ 0 3 v unitReg_apart,
    rd_wf_offset s .pmu st _ st _ 0 3 v (unitReg_apart_unit hu hw h.symm), rd_wf_offset s .pmu st _ st _ 0 3 v unitReg_apart⟩

theorem keepsUnit_pmuOutOff (next : Nat) (hu : u < 4) (hw : w < 4) (h : w ≠ u) :
    State.KeepsUnit st u s (s.pmuOutOff st w next) := by
  have hne : 4 * st + u ≠ 4 * st + w := by omega
  refine ⟨(pmu_of_pmus (pmus_pmuOutOff ..)).trans (pmu_pmuDrop_ne s hne), ?_, ?_, ?_⟩
  · exact (rd_pmuOutOff s next unitReg_apart).trans
      (rd_pmuDrop s (unitReg_apart_unit hu hw h.symm) unitReg_apart (unitReg_apart_low hu))
  · exact (rd_pmuOutOff s next (unitReg_apart_unit hu hw h.symm)).trans
      (rd_pmuDrop s unitReg_apart unitReg_apart (unitReg_apart_low hu))
  · exact (rd_pmuOutOff s next unitReg_apart).trans (rd_pmuDrop s unitReg_apart unitReg_apart (unitReg_apart_low hu))

/-- In a fold over units each of which keeps `u` where it is another, unit `u` meets its own step alone. -/
theorem keepsUnit_foldl {f : State → Nat → State} {l : List Nat} (hu : u ∈ l) (hl : l.Nodup)
    (h : ∀ x, ∀ w ∈ l, w ≠ u → State.KeepsUnit st u x (f x w)) :
    ∃ y, State.KeepsUnit st u s y ∧ State.KeepsUnit st u (f y u) (l.foldl f s) := by
  obtain ⟨a, b, rfl⟩ := List.append_of_mem hu
  obtain ⟨hua, -⟩ := List.nodup_cons.mp (List.nodup_middle.mp hl)
  refine foldl_meets (State.KeepsUnit.refl st u) (fun h h' => h.trans h') (fun x w hw => h x w ?_ ?_) s u
  · exact List.mem_append.mpr ((List.mem_append.mp hw).imp id (List.mem_cons_of_mem _))
  · rintro rfl
    exact hua hw

end

/-! ### PMU_CTRL (R337, R343, R344, R348, R356, R361) -/

/-- PMU_CTRL as it holds the written value. -/
theorem rd_plainWrite_ctrl (s : State) (st : Nat) (u : Fin 4) (v : Word) :
    tbit ((s.plainWrite .pmu st (Off.pmuCtrl u) v).rd .pmu st (Off.pmuCtrl u)) 0 = tbit v 0 ∧
      tbit ((s.plainWrite .pmu st (Off.pmuCtrl u) v).rd .pmu st (Off.pmuCtrl u)) 1 = tbit v 1 ∧
      fld ((s.plainWrite .pmu st (Off.pmuCtrl u) v).rd .pmu st (Off.pmuCtrl u)) 4 3 = fld v 4 3 := by
  obtain ⟨ij, h⟩ := regRow_pmuCtrl u
  rw [plainWrite_of_row h, rd_wr_same]
  exact ⟨tbit_mergeWrite rfl rfl (by decide) _ v, tbit_mergeWrite rfl rfl (by decide) _ v,
    fld_mergeWrite_field (by decide) rfl (by decide) _ v⟩

@[simp] theorem pmus_plainWrite (s : State) (k : PageKind) (i o : Nat) (v : Word) : (s.plainWrite k i o v).pmus = s.pmus := by
  obtain ⟨w, e⟩ | e := plainWrite_cases s k i o v
  · rw [e, State.wr_pmus]
  · rw [e]

theorem plainWrite_far (s : State) (k : PageKind) (i o : Nat) (v : Word) : (s.plainWrite k i o v).far = s.far := by
  obtain ⟨w, e⟩ | e := plainWrite_cases s k i o v
  · rw [e, State.wr_far]
  · rw [e]

/-- A plain write of PMU_CTRL leaves the record, the state and the force code of its unit. -/
theorem plainWrite_ctrl_keeps (s : State) (st u : Nat) (v : Word) :
    let x := s.plainWrite .pmu st (Off.pmuCtrl u) v
    x.pmu st u = s.pmu st u ∧ (∀ w, x.pmuState st w = s.pmuState st w) ∧
      x.rd .pmu st (Off.pmuForce u) = s.rd .pmu st (Off.pmuForce u) :=
  ⟨pmu_of_pmus (pmus_plainWrite ..), fun _ => pmuState_of_rd (rd_plainWrite_off s .pmu .pmu v unitReg_apart),
    rd_plainWrite_off s .pmu .pmu v unitReg_apart⟩

/-- The outputs that PMU_CTRL of unit `u` governs go off. -/
def State.unitsOff (s : State) (st u : Nat) (x : State) : State := (s.gangUnits st u).foldl (fun y w => y.pmuOutOff st w pmuIdle) x

theorem unitsOff_shows {s : State} (x : State) {st u : Nat} (hlead : s.follower st u = false) (hu : u < 4) :
    let t := s.unitsOff st u x
    t.pmuState st u = pmuIdle ∧ t.rd .pmu st (Off.pmuCtrl u) = putBit (x.rd .pmu st (Off.pmuCtrl u)) 0 false ∧
      t.rd .pmu st (Off.pmuForce u) = x.rd .pmu st (Off.pmuForce u) ∧
      (t.pmu st u).range = x.rf .pmu st (Off.pmuCtrl u) 4 3 ∧
      ((x.pmu st u).held = none → (t.pmu st u).force = (x.pmu st u).force ∧ (t.pmu st u).applied = (x.pmu st u).applied) := by
  obtain ⟨-, hmem, hnodup⟩ := gang_of_leads hlead
  obtain ⟨y, hy, ht⟩ := keepsUnit_foldl (f := fun y w => y.pmuOutOff st w pmuIdle) x hmem hnodup
    fun z w hw hne => keepsUnit_pmuOutOff z pmuIdle hu (gangUnits_lt s hu hw) hne
  obtain ⟨hstate, hctrl, hforce⟩ := pmuOutOff_shows y (st := st) hu (show pmuIdle < 8 by decide)
  obtain ⟨hrange, hcodes⟩ := pmu_pmuDrop_same y st u
  have hpmu := ht.pmu.trans (pmu_of_pmus (pmus_pmuOutOff ..))
  intro t
  have hpmu : t.pmu st u = (y.pmuDrop st u).pmu st u := hpmu
  refine ⟨ht.state.trans hstate, ht.ctrl.trans (hctrl.trans (by rw [hy.ctrl])), ht.force.trans (hforce.trans hy.force), ?_, ?_⟩
  · rw [hpmu, hrange, rf_of_rd hy.ctrl]
  · rw [hpmu, ← hy.pmu]
    exact hcodes

section
variable {s : State} {r : Requester} {st : Nat} {u : Fin 4}

/-- Unit `w` forces once its output is enabled, unless it is in SHUT or CLAMP (R359, R361). -/
def State.forceUnit (x : State) (st w : Nat) : State :=
  if x.pmuState st w = pmuShut ∨ x.pmuState st w = pmuClamped then x else x.setPmuState st w pmuForce

/-- What a write of PMU_CTRL that enables a dead output does. -/
theorem pmuCtrlWrite_enable (hlead : s.follower st u = false) (hrange : s.rf .pmu st (Off.pmuCtrl u) 4 3 < 6)
    (hdead : s.rb .pmu st (Off.pmuCtrl u) 0 = false) (hen : s.pageEn .pmu st = true) (hpow : s.pmuPowered st = true)
    (hmode : s.modeOf (s.ownerOf .stl st) ≠ 6) (hfar : ∀ w ∈ s.gangUnits st u, s.farUsesPmu st w = false) :
    let v := putBit (s.rd .pmu st (Off.pmuCtrl u)) 0 true
    pmuCtrlWrite r st u v s =
      (s.gangUnits st u).foldl (fun x w => x.forceUnit st w) (s.plainWrite .pmu st (Off.pmuCtrl u) v) := by
  intro v
  have h0 : tbit v 0 = true := tbit_putBit_same _ _ _ (by decide)
  have h1 : tbit v 1 = tbit (s.rd .pmu st (Off.pmuCtrl u)) 1 := tbit_putBit_other _ _ _ _ (by decide) (by decide)
  have h4 : fld v 4 3 = fld (s.rd .pmu st (Off.pmuCtrl u)) 4 3 := fld_putFld_other _ _ _ _ _ _ (by decide) (by decide)
  have hdead' : tbit (s.rd .pmu st (Off.pmuCtrl u)) 0 = false := hdead
  have hrange' : ¬6 ≤ fld (s.rd .pmu st (Off.pmuCtrl u)) 4 3 := Nat.not_le.mpr hrange
  have hfar' : ((s.gangUnits st u).any fun w => (s.plainWrite .pmu st (Off.pmuCtrl u) v).farUsesPmu st w) = false := by
    refine List.any_eq_false.mpr fun w hw => ?_
    rw [State.farUsesPmu, plainWrite_far]
    simpa [State.farUsesPmu] using hfar w hw
  have hmode' : (s.modeOf (s.ownerOf .stl st) == 6) = false := by simpa using hmode
  unfold pmuCtrlWrite
  simp only [hlead, h0, h1, h4, hdead', hrange', hen, hpow, hmode', hfar', bne_self_eq_false, Bool.not_true, Bool.not_false,
    Bool.and_false, Bool.false_and, Bool.false_or, Bool.and_self, Bool.or_self, Bool.false_eq_true, if_false, if_true, and_self]
  rfl

/-- What a write of PMU_CTRL that disables a live output does. -/
theorem pmuCtrlWrite_disable (hlead : s.follower st u = false) (hrange : s.rf .pmu st (Off.pmuCtrl u) 4 3 < 6)
    (hlive : s.rb .pmu st (Off.pmuCtrl u) 0 = true) :
    let v := putBit (s.rd .pmu st (Off.pmuCtrl u)) 0 false
    pmuCtrlWrite r st u v s = s.unitsOff st u (s.plainWrite .pmu st (Off.pmuCtrl u) v) := by
  intro v
  have h0 : tbit v 0 = false := tbit_putBit_same _ _ _ (by decide)
  have h1 : tbit v 1 = tbit (s.rd .pmu st (Off.pmuCtrl u)) 1 := tbit_putBit_other _ _ _ _ (by decide) (by decide)
  have h4 : fld v 4 3 = fld (s.rd .pmu st (Off.pmuCtrl u)) 4 3 := fld_putFld_other _ _ _ _ _ _ (by decide) (by decide)
  have hlive' : tbit (s.rd .pmu st (Off.pmuCtrl u)) 0 = true := hlive
  have hrange' : ¬6 ≤ fld (s.rd .pmu st (Off.pmuCtrl u)) 4 3 := Nat.not_le.mpr hrange
  unfold pmuCtrlWrite
  simp only [hlead, h0, h1, h4, hlive', hrange', bne_self_eq_false, Bool.not_false, Bool.false_and, Bool.true_or, Bool.true_and,
    Bool.or_self, Bool.false_eq_true, if_false, if_true]
  rfl

end

/-- A unit takes up the zero code of a mode (R337). -/
def State.zeroLoaded (x : State) (st u : Nat) (fi : Bool) : State :=
  ((x.wf .pmu st (Off.pmuForce u) 0 18 (zeroCode fi)).wb .pmu st (Off.pmuStat u) 9 false).applyWave st u
    { x.pmu st u with force := zeroCode fi, held := none }

theorem zeroLoaded_shows (x : State) (st : Nat) {u : Nat} (fi : Bool) (hu : u < 4) :
    let t := x.zeroLoaded st u fi
    t.rd .pmu st (Off.pmuCtrl u) = x.rd .pmu st (Off.pmuCtrl u) ∧ t.rf .pmu st (Off.pmuForce u) 0 18 = zeroCode fi ∧
      (t.pmu st u).force = zeroCode fi ∧ (t.pmu st u).held = none ∧
      ((x.pmu st u).wave.plays = false → (t.pmu st u).applied = zeroCode fi) := by
  intro t
  let y := (x.wf .pmu st (Off.pmuForce u) 0 18 (zeroCode fi)).wb .pmu st (Off.pmuStat u) 9 false
  obtain ⟨a, hpmu, ha⟩ := pmu_applyWave_same y st u { x.pmu st u with force := zeroCode fi, held := none }
  have hz : zeroCode fi < 2 ^ 18 := by cases fi <;> decide
  have hrd : ∀ {b : Nat}, (0x100 ≤ b ∧ b < 0x140) → b ≠ 0x104 → b ≠ 0x124 →
      t.rd .pmu st (b + u * 0x40) = (x.wf .pmu st (Off.pmuForce u) 0 18 (zeroCode fi)).rd .pmu st (b + u * 0x40) :=
    fun hb hs hf => (rd_applyWave y _ (unitReg_apart hb (h := hf)) (unitReg_apart_low hu hb)).trans
      (rd_wb_offset _ .pmu st _ st _ 9 false (unitReg_apart hb (h := hs)))
  have hpmu : t.pmu st u = _ := hpmu
  rw [hpmu]
  refine ⟨(hrd (by decide) (by decide) (by decide)).trans (rd_wf_offset x .pmu st _ st _ 0 18 _ unitReg_apart), ?_, rfl, rfl, ha⟩
  rw [rf_of_rd (hrd (b := 0x108) (by decide) (by decide) (by decide)), rf_wf_same _ _ _ _ _ _ _ (by decide), Nat.mod_eq_of_lt hz]

/-- The converters of the units that PMU_CTRL of unit `u` governs are disturbed by a change of mode or range. -/
def State.ctrlDisturbed (s : State) (st u : Nat) (v : Word) : State :=
  (s.gangUnits st u).foldl (fun x w => x.cnvDisturb st w) (s.plainWrite .pmu st (Off.pmuCtrl u) v)

/-- A write that changes the mode or the range holds its fields; record, state and force code stand. -/
theorem ctrlDisturbed_shows (s : State) (st : Nat) (u : Fin 4) (v : Word) :
    let x := s.ctrlDisturbed st u v
    x.pmu st u = s.pmu st u ∧ x.rb .pmu st (Off.pmuCtrl u) 1 = tbit v 1 ∧ x.rf .pmu st (Off.pmuCtrl u) 4 3 = fld v 4 3 := by
  have hkeep : State.KeepsUnit st u (s.plainWrite .pmu st (Off.pmuCtrl u) v) (s.ctrlDisturbed st u v) :=
    foldl_keeps (State.KeepsUnit st u _) (fun x w hx => hx.trans (keepsUnit_cnvDisturb x st u w)) _ (.refl st u _)
  obtain ⟨-, hfi, hrange⟩ := rd_plainWrite_ctrl s st u v
  exact ⟨hkeep.pmu.trans (pmu_of_pmus (pmus_plainWrite ..)), (rb_of_rd hkeep.ctrl 1).trans hfi, (rf_of_rd hkeep.ctrl 4 3).trans hrange⟩

/-- A unit that PMU_CTRL of unit `u` governs is in SHUT or CLAMP. -/
def State.unitsShut (s : State) (st u : Nat) : Bool :=
  (s.gangUnits st u).any fun w => s.pmuState st w == pmuShut || s.pmuState st w == pmuClamped

section
variable {s : State} {r : Requester} {st : Nat} {u : Fin 4}

/-- What a write of PMU_CTRL that changes the mode of a dead output does. -/
theorem pmuCtrlWrite_mode {fi : Bool} (hlead : s.follower st u = false) (hrange : s.rf .pmu st (Off.pmuCtrl u) 4 3 < 6)
    (hdead : s.rb .pmu st (Off.pmuCtrl u) 0 = false) (hch : s.rb .pmu st (Off.pmuCtrl u) 1 ≠ fi) :
    let v := putBit (s.rd .pmu st (Off.pmuCtrl u)) 1 fi
    let x := (s.ctrlDisturbed st u v).zeroLoaded st u fi
    pmuCtrlWrite r st u v s = if s.unitsShut st u then s.unitsOff st u x else x := by
  intro v x
  have h0 : tbit v 0 = false := (tbit_putBit_other _ _ _ _ (by decide) (by decide)).trans hdead
  have h1 : tbit v 1 = fi := tbit_putBit_same _ _ _ (by decide)
  have h4 : fld v 4 3 = fld (s.rd .pmu st (Off.pmuCtrl u)) 4 3 := fld_putFld_other _ _ _ _ _ _ (by decide) (by decide)
  have hdead' : tbit (s.rd .pmu st (Off.pmuCtrl u)) 0 = false := hdead
  have hrange' : ¬6 ≤ fld (s.rd .pmu st (Off.pmuCtrl u)) 4 3 := Nat.not_le.mpr hrange
  have hch' : (fi != tbit (s.rd .pmu st (Off.pmuCtrl u)) 1) = true := bne_iff_ne.mpr hch.symm
  unfold pmuCtrlWrite
  simp only [hlead, h0, h1, h4, hdead', hrange', hch', bne_self_eq_false, Bool.not_false, Bool.and_false, Bool.false_and,
    Bool.false_or, Bool.and_true, Bool.or_false, Bool.false_eq_true, false_and, if_false, if_true]
  rfl

/-- What a write of PMU_CTRL that changes the range does to a dead output that does not force. -/
theorem pmuCtrlWrite_range_dead {range : Fin 8} (hlead : s.follower st u = false) (hrange : range.val < 6)
    (hch : s.rf .pmu st (Off.pmuCtrl u) 4 3 ≠ range) (hrng : s.rb .pmu st (Off.pmuStat u) 3 = false)
    (hdead : s.rb .pmu st (Off.pmuCtrl u) 0 = false) (hstate : s.pmuState st u ≠ pmuForce) :
    let v := putFld (s.rd .pmu st (Off.pmuCtrl u)) 4 3 range
    let x := s.ctrlDisturbed st u v
    pmuCtrlWrite r st u v s =
      if s.unitsShut st u then s.unitsOff st u x else x.setPmu st u { x.pmu st u with range := range } := by
  intro v x
  have h0 : tbit v 0 = false := (tbit_putFld_other _ _ _ _ _ (by decide) (by decide)).trans hdead
  have h1 : tbit v 1 = tbit (s.rd .pmu st (Off.pmuCtrl u)) 1 := tbit_putFld_other _ _ _ _ _ (by decide) (by decide)
  have h4 : fld v 4 3 = range := (fld_putFld_same _ _ _ _ (by decide)).trans (Nat.mod_eq_of_lt range.isLt)
  have hdead' : tbit (s.rd .pmu st (Off.pmuCtrl u)) 0 = false := hdead
  have hrange' : ¬6 ≤ range.val := Nat.not_le.mpr hrange
  have hch' : (range.val != fld (s.rd .pmu st (Off.pmuCtrl u)) 4 3) = true := bne_iff_ne.mpr (Ne.symm hch)
  have hclamp : s.unitsShut st u = false → s.pmuState st u ≠ pmuClamped := by
    intro h e
    have := List.any_eq_false.mp h u (gang_of_leads hlead).2.1
    simp [e] at this
  unfold pmuCtrlWrite
  simp only [hlead, h0, h1, h4, hdead', hrange', hch', hrng, hstate, bne_self_eq_false, Bool.not_false, Bool.and_false,
    Bool.false_and, Bool.false_or, Bool.or_true, Bool.and_true, Bool.false_eq_true, false_and, if_false, if_true]
  change (if s.unitsShut st u = true then _ else _) = _
  split
  · rfl
  · rename_i h
    rw [if_neg (hclamp (by simpa using h))]
    rfl

/-- What a write of PMU_CTRL that changes the range does to a live FV output: the change begins (R343). -/
theorem pmuCtrlWrite_range_live {range : Fin 8} (hlead : s.follower st u = false) (hrange : range.val < 6)
    (hch : s.rf .pmu st (Off.pmuCtrl u) 4 3 ≠ range) (hrng : s.rb .pmu st (Off.pmuStat u) 3 = false)
    (hlive : s.rb .pmu st (Off.pmuCtrl u) 0 = true) (hfv : s.rb .pmu st (Off.pmuCtrl u) 1 = false)
    (hstate : s.pmuState st u = pmuForce) :
    let v := putFld (s.rd .pmu st (Off.pmuCtrl u)) 4 3 range
    pmuCtrlWrite r st u v s = ((s.ctrlDisturbed st u v).wb .pmu st (Off.pmuStat u) 3 true).setPmuState st u pmuRanging := by
  intro v
  have h0 : tbit v 0 = true := (tbit_putFld_other _ _ _ _ _ (by decide) (by decide)).trans hlive
  have h1 : tbit v 1 = tbit (s.rd .pmu st (Off.pmuCtrl u)) 1 := tbit_putFld_other _ _ _ _ _ (by decide) (by decide)
  have h4 : fld v 4 3 = range := (fld_putFld_same _ _ _ _ (by decide)).trans (Nat.mod_eq_of_lt range.isLt)
  have hlive' : tbit (s.rd .pmu st (Off.pmuCtrl u)) 0 = true := hlive
  have hfv' : tbit (s.rd .pmu st (Off.pmuCtrl u)) 1 = false := hfv
  have hrange' : ¬6 ≤ range.val := Nat.not_le.mpr hrange
  have hch' : (range.val != fld (s.rd .pmu st (Off.pmuCtrl u)) 4 3) = true := bne_iff_ne.mpr (Ne.symm hch)
  unfold pmuCtrlWrite
  simp only [hlead, h0, h1, h4, hlive', hfv', hrange', hch', hrng, hstate, bne_self_eq_false, Bool.not_true, Bool.and_false,
    Bool.false_and, Bool.or_true, Bool.false_eq_true, false_and, if_false, if_true]
  rfl

end

section
variable {s : State} {r : Requester} {st : Fin 128} {u : Fin 4}

/-! ### Commands of PMU_CTRL -/

theorem pmuOutputEnable_forces (hacc : s.accepts r .pmu st (Off.pmuCtrl u) (putBit (s.rd .pmu st (Off.pmuCtrl u)) 0 true) = true)
    (hlead : s.follower st u = false) (hrange : s.rf .pmu st (Off.pmuCtrl u) 4 3 < 6)
    (hdead : s.rb .pmu st (Off.pmuCtrl u) 0 = false) (hen : s.pageEn .pmu st = true) (hpow : s.pmuPowered st = true)
    (hmode : s.modeOf (s.ownerOf .stl st) ≠ 6) (hshut : s.pmuState st u ≠ pmuShut) (hclamp : s.pmuState st u ≠ pmuClamped)
    (hfar : ∀ w ∈ s.gangUnits st u, s.farUsesPmu st w = false) :
    ∃ t, exec (.pmuOutputEnable r st u) s = .next t ∧ t.rb .pmu st (Off.pmuCtrl u) 0 = true ∧ t.pmuState st u = pmuForce := by
  let v := putBit (s.rd .pmu st (Off.pmuCtrl u)) 0 true
  let x := s.plainWrite .pmu st (Off.pmuCtrl u) v
  have hexec : exec (.pmuOutputEnable r st u) s = .next ((s.gangUnits st u).foldl (fun x w => x.forceUnit st w) x) :=
    congrArg Host.Outcome.next ((guarded_of_accepts hacc _).trans (pmuCtrlWrite_enable hlead hrange hdead hen hpow hmode hfar))
  obtain ⟨-, hmem, hnodup⟩ := gang_of_leads hlead
  have others : ∀ y : State, ∀ w ∈ s.gangUnits st u, w ≠ u → State.KeepsUnit st u y (y.forceUnit st w) := by
    intro y w hw hne
    unfold State.forceUnit
    split
    · exact .refl ..
    · exact keepsUnit_setPmuState y _ u.isLt (gangUnits_lt s u.isLt hw) hne
  obtain ⟨y, hy, ht⟩ := keepsUnit_foldl x hmem hnodup others
  obtain ⟨-, hstate, -⟩ := plainWrite_ctrl_keeps s st u v
  have hf : y.forceUnit st u = y.setPmuState st u pmuForce := if_neg (by
    rw [hy.state, hstate]
    exact not_or.mpr ⟨hshut, hclamp⟩)
  refine ⟨_, hexec, ?_, ?_⟩
  · rw [rb_of_rd ht.ctrl, hf, State.setPmuState, rb_of_rd (rd_wf_offset y .pmu st _ st _ 0 3 _ unitReg_apart), rb_of_rd hy.ctrl]
    exact (rd_plainWrite_ctrl s st u v).1.trans (tbit_putBit_same _ _ _ (by decide))
  · rw [ht.state, hf]
    exact pmuState_setPmuState (by decide)

theorem pmuOutputDisable_idles (hacc : s.accepts r .pmu st (Off.pmuCtrl u) (putBit (s.rd .pmu st (Off.pmuCtrl u)) 0 false) = true)
    (hlead : s.follower st u = false) (hrange : s.rf .pmu st (Off.pmuCtrl u) 4 3 < 6)
    (hlive : s.rb .pmu st (Off.pmuCtrl u) 0 = true) :
    ∃ t, exec (.pmuOutputDisable r st u) s = .next t ∧ t.rb .pmu st (Off.pmuCtrl u) 0 = false ∧ t.pmuState st u = pmuIdle := by
  obtain ⟨hstate, hctrl, -⟩ := unitsOff_shows
    (s.plainWrite .pmu st (Off.pmuCtrl u) (putBit (s.rd .pmu st (Off.pmuCtrl u)) 0 false)) hlead u.isLt
  refine ⟨_, congrArg Host.Outcome.next ((guarded_of_accepts hacc _).trans (pmuCtrlWrite_disable hlead hrange hlive)), ?_, hstate⟩
  rw [State.rb, hctrl]
  exact tbit_putBit_same _ _ _ (by decide)

theorem pmuModeWrite_loadsZero {fi : Bool}
    (hacc : s.accepts r .pmu st (Off.pmuCtrl u) (putBit (s.rd .pmu st (Off.pmuCtrl u)) 1 fi) = true)
    (hlead : s.follower st u = false) (hrange : s.rf .pmu st (Off.pmuCtrl u) 4 3 < 6)
    (hdead : s.rb .pmu st (Off.pmuCtrl u) 0 = false) (hch : s.rb .pmu st (Off.pmuCtrl u) 1 ≠ fi) :
    ∃ t, exec (.pmuModeWrite r st u fi) s = .next t ∧ t.rb .pmu st (Off.pmuCtrl u) 1 = fi ∧
      t.rf .pmu st (Off.pmuForce u) 0 18 = zeroCode fi ∧ (t.pmu st u).force = zeroCode fi ∧
      ((s.pmu st u).wave.plays = false → (t.pmu st u).applied = zeroCode fi) := by
  let v := putBit (s.rd .pmu st (Off.pmuCtrl u)) 1 fi
  let x := s.ctrlDisturbed st u v
  let y := x.zeroLoaded st u fi
  obtain ⟨hpmu, hfi, -⟩ := ctrlDisturbed_shows s st u v
  obtain ⟨hctrl, hcode, hforce, hheld, happlied⟩ := zeroLoaded_shows x st fi u.isLt
  have hyfi : y.rb .pmu st (Off.pmuCtrl u) 1 = fi :=
    (rb_of_rd hctrl 1).trans (hfi.trans (tbit_putBit_same _ _ _ (by decide)))
  have happlied : (s.pmu st u).wave.plays = false → (y.pmu st u).applied = zeroCode fi := fun h => happlied (by rwa [hpmu])
  refine ⟨_, congrArg Host.Outcome.next ((guarded_of_accepts hacc _).trans (pmuCtrlWrite_mode hlead hrange hdead hch)), ?_⟩
  split
  · obtain ⟨-, hoff, hoffCode, -, hcodes⟩ := unitsOff_shows y hlead u.isLt
    obtain ⟨hoffForce, hoffApplied⟩ := hcodes hheld
    refine ⟨?_, (rf_of_rd hoffCode 0 18).trans hcode, hoffForce.trans hforce, fun h => hoffApplied.trans (happlied h)⟩
    rw [State.rb, hoff, tbit_putBit_other _ _ _ _ (by decide) (by decide)]
    exact hyfi
  · exact ⟨hyfi, hcode, hforce, happlied⟩

theorem pmuRangeWrite_dead {range : Fin 8}
    (hacc : s.accepts r .pmu st (Off.pmuCtrl u) (putFld (s.rd .pmu st (Off.pmuCtrl u)) 4 3 range) = true)
    (hlead : s.follower st u = false) (hrange : range.val < 6) (hch : s.rf .pmu st (Off.pmuCtrl u) 4 3 ≠ range)
    (hrng : s.rb .pmu st (Off.pmuStat u) 3 = false) (hdead : s.rb .pmu st (Off.pmuCtrl u) 0 = false)
    (hstate : s.pmuState st u ≠ pmuForce) :
    ∃ t, exec (.pmuRangeWrite r st u range) s = .next t ∧ t.rf .pmu st (Off.pmuCtrl u) 4 3 = range ∧
      (t.pmu st u).range = range := by
  let v := putFld (s.rd .pmu st (Off.pmuCtrl u)) 4 3 range
  obtain ⟨-, -, hx⟩ := ctrlDisturbed_shows s st u v
  have hx : (s.ctrlDisturbed st u v).rf .pmu st (Off.pmuCtrl u) 4 3 = range :=
    hx.trans ((fld_putFld_same _ _ _ _ (by decide)).trans (Nat.mod_eq_of_lt range.isLt))
  refine ⟨_, congrArg Host.Outcome.next
    ((guarded_of_accepts hacc _).trans (pmuCtrlWrite_range_dead hlead hrange hch hrng hdead hstate)), ?_⟩
  split
  · obtain ⟨-, hoff, -, hoffRange, -⟩ := unitsOff_shows (s.ctrlDisturbed st u v) hlead u.isLt
    refine ⟨?_, hoffRange.trans hx⟩
    rw [State.rf, hoff, putBit, fld_putFld_other _ _ _ _ _ _ (by decide) (by decide)]
    exact hx
  · exact ⟨hx, by rw [pmu_setPmu_same]⟩

theorem pmuRangeWrite_live {range : Fin 8}
    (hacc : s.accepts r .pmu st (Off.pmuCtrl u) (putFld (s.rd .pmu st (Off.pmuCtrl u)) 4 3 range) = true)
    (hlead : s.follower st u = false) (hrange : range.val < 6) (hch : s.rf .pmu st (Off.pmuCtrl u) 4 3 ≠ range)
    (hrng : s.rb .pmu st (Off.pmuStat u) 3 = false) (hlive : s.rb .pmu st (Off.pmuCtrl u) 0 = true)
    (hfv : s.rb .pmu st (Off.pmuCtrl u) 1 = false) (hstate : s.pmuState st u = pmuForce) :
    ∃ t, exec (.pmuRangeWrite r st u range) s = .next t ∧ t.rf .pmu st (Off.pmuCtrl u) 4 3 = range ∧
      t.rb .pmu st (Off.pmuStat u) 3 = true ∧ t.pmuState st u = pmuRanging := by
  let x := s.ctrlDisturbed st u (putFld (s.rd .pmu st (Off.pmuCtrl u)) 4 3 range)
  obtain ⟨-, -, hx⟩ := ctrlDisturbed_shows s st u (putFld (s.rd .pmu st (Off.pmuCtrl u)) 4 3 range)
  refine ⟨_, congrArg Host.Outcome.next
    ((guarded_of_accepts hacc _).trans (pmuCtrlWrite_range_live hlead hrange hch hrng hlive hfv hstate)), ?_, ?_,
    pmuState_setPmuState (by decide)⟩
  · rw [State.setPmuState, rf_of_rd (rd_wf_offset _ .pmu st _ st _ 0 3 _ unitReg_apart),
      rf_of_rd (rd_wb_offset _ .pmu st _ st _ 3 true unitReg_apart), hx, fld_putFld_same _ _ _ _ (by decide)]
    exact Nat.mod_eq_of_lt range.isLt
  · rw [State.setPmuState, rb_wf_other _ _ _ _ _ _ _ _ (by decide) (by decide)]
    exact rb_wb_same _ _ _ _ _ _ (by decide)

/-! ### The end of a range change (R343, R361, R362) -/

/-- A unit whose range changes takes the range of its register, and the code held meanwhile. -/
theorem pmuRangeDone_forces (hrng : s.rb .pmu st (Off.pmuStat u) 3 = true) (hstate : s.pmuState st u = pmuRanging)
    (hnext : (s.pmu st u).clampNext = false) :
    ∃ t, exec (.pmuRangeDone st u) s = .next t ∧ t.rb .pmu st (Off.pmuStat u) 3 = false ∧ t.pmuState st u = pmuForce ∧
      (t.pmu st u).range = s.rf .pmu st (Off.pmuCtrl u) 4 3 := by
  have hexec := show exec (.pmuRangeDone st u) s = execPmuRangeDone st u s from rfl
  unfold execPmuRangeDone at hexec
  rw [if_pos hrng] at hexec
  extract_lets p q s1 s2 s3 at hexec
  have hs1 : (s1.pmu st u).range = s.rf .pmu st (Off.pmuCtrl u) 4 3 := by
    dsimp only [s1]
    split
    · obtain ⟨a, ha, -⟩ := pmu_applyWave_same s st u q
      rw [ha]
    · rw [pmu_setPmu_same]
  have hs3 : s3 = s2.setPmuState st u pmuForce := by
    dsimp only [s3]
    rw [show p.clampNext = false from hnext, if_neg (by decide), if_pos hstate]
  have hkeep : State.KeepsUnit st u s3 ((if p.range = q.range then s3 else s3.cnvDisturb st u).event .pmu st 2) := by
    refine .trans ?_ (keepsUnit_event _ 2 u.isLt)
    split
    · exact .refl ..
    · exact keepsUnit_cnvDisturb ..
  refine ⟨_, hexec, ?_, ?_, ?_⟩
  · rw [rb_of_rd hkeep.stat, hs3, State.setPmuState, rb_wf_other _ _ _ _ _ _ _ _ (by decide) (by decide)]
    exact rb_wb_same _ _ _ _ _ _ (by decide)
  · rw [hkeep.state, hs3]
    exact pmuState_setPmuState (by decide)
  · rw [hkeep.pmu, hs3, State.setPmuState, pmu_of_pmus (State.wf_pmus ..), pmu_of_pmus (State.wb_pmus ..)]
    exact hs1

/-! ### Codes, clamps and gangs (R335, R341, R347, R348) -/

theorem pmuForceWrite_forces {code : BitVec 18} (hacc : s.accepts r .pmu st (Off.pmuForce u) (word code.toNat) = true)
    (hlead : s.follower st u = false) (hlo : codeLo (s.pmuFi st u) ≤ code.toNat) (hhi : code.toNat ≤ codeHi (s.pmuFi st u))
    (hsync : s.rb .pmu st (Off.pmuCtrl u) 10 = false) (hrng : s.rb .pmu st (Off.pmuStat u) 3 = false) :
    ∃ t, exec (.pmuForceWrite r st u code) s = .next t ∧ t.rf .pmu st (Off.pmuForce u) 0 18 = code.toNat ∧
      (t.pmu st u).force = code.toNat ∧ ((s.pmu st u).wave.plays = false → (t.pmu st u).applied = code.toNat) := by
  have hfld : fld (word code.toNat) 0 18 = code.toNat := fld_word_toNat (by decide) code
  let x := s.plainWrite .pmu st (Off.pmuForce u) (word code.toNat)
  let y := x.wb .pmu st (Off.pmuStat u) 9 false
  let p := { s.pmu st u with force := code.toNat }
  have hypmu : y.pmu st u = s.pmu st u := pmu_of_pmus ((State.wb_pmus ..).trans (pmus_plainWrite ..))
  have hyrng : y.rb .pmu st (Off.pmuStat u) 3 = false :=
    (rb_wb_other x .pmu st _ 9 3 false (by decide) (by decide)).trans
      ((rb_of_rd (rd_plainWrite_off s .pmu .pmu _ unitReg_apart) 3).trans hrng)
  have hwrite : pmuForceWrite st u (word code.toNat) s = y.applyWave st u p := by
    simp only [pmuForceWrite, hlead, hfld, hsync, Nat.not_lt.mpr hlo, Nat.not_lt.mpr hhi, or_self, Bool.false_eq_true, if_false]
    change y.applyForce st u code.toNat = _
    unfold State.applyForce
    rw [if_neg (by simp [hyrng]), hypmu]
  obtain ⟨a, hpmu, ha⟩ := pmu_applyWave_same y st u p
  obtain ⟨ij, hrow⟩ := regRow_pmuForce u
  refine ⟨_, congrArg Host.Outcome.next ((guarded_of_accepts hacc _).trans hwrite), ?_, by rw [hpmu], fun h => by rw [hpmu]; exact ha h⟩
  rw [rf_of_rd (rd_applyWave y p unitReg_apart (unitReg_apart_low u.isLt)),
    rf_of_rd (rd_wb_offset x .pmu st _ st _ 9 false unitReg_apart)]
  dsimp only [x]
  rw [plainWrite_of_row hrow, rf_wr_same, fld_mergeWrite rfl rfl (by decide), hfld]

end

section
variable {s : State} {r : Requester} {st : Fin 128} {u : Fin 4}

theorem pmuClampWrite_high {code : BitVec 16} (hacc : s.accepts r .pmu st (Off.pmuVclh u) (word code.toNat) = true)
    (hlead : s.follower st u = false) (hmax : code.toNat ≤ 0xFA00) (hgap : s.rf .pmu st (Off.pmuVcll u) 0 16 + 4000 ≤ code.toNat) :
    ∃ t, exec (.pmuClampWrite r st u true code) s = .next t ∧ t.rf .pmu st (Off.pmuVclh u) 0 16 = code.toNat := by
  have hfld : fld (word code.toNat) 0 16 = code.toNat := fld_word_toNat (by decide) code
  have hwrite : pmuClampWrite st u true (word code.toNat) s = s.plainWrite .pmu st (Off.pmuVclh u) (word code.toNat) := by
    simp only [pmuClampWrite, hlead, hfld, Nat.not_lt.mpr hmax, Nat.not_lt.mpr hgap, Bool.false_eq_true, if_true, if_false]
  obtain ⟨ij, hrow⟩ := regRow_pmuVclh u
  refine ⟨_, congrArg Host.Outcome.next ((guarded_of_accepts hacc _).trans hwrite), ?_⟩
  rw [plainWrite_of_row hrow, rf_wr_same, fld_mergeWrite rfl rfl (by decide), hfld]

theorem pmuClampWrite_low {code : BitVec 16} (hacc : s.accepts r .pmu st (Off.pmuVcll u) (word code.toNat) = true)
    (hlead : s.follower st u = false) (hmax : code.toNat ≤ 0xFA00) (hgap : code.toNat + 4000 ≤ s.rf .pmu st (Off.pmuVclh u) 0 16) :
    ∃ t, exec (.pmuClampWrite r st u false code) s = .next t ∧ t.rf .pmu st (Off.pmuVcll u) 0 16 = code.toNat := by
  have hfld : fld (word code.toNat) 0 16 = code.toNat := fld_word_toNat (by decide) code
  have hwrite : pmuClampWrite st u false (word code.toNat) s = s.plainWrite .pmu st (Off.pmuVcll u) (word code.toNat) := by
    simp only [pmuClampWrite, hlead, hfld, Nat.not_lt.mpr hmax, Nat.not_lt.mpr hgap, Bool.false_eq_true, if_false]
  obtain ⟨ij, hrow⟩ := regRow_pmuVcll u
  refine ⟨_, congrArg Host.Outcome.next ((guarded_of_accepts hacc _).trans hwrite), ?_⟩
  rw [plainWrite_of_row hrow, rf_wr_same, fld_mergeWrite rfl rfl (by decide), hfld]

/-- A write of PMU_GANG while every output is off holds EN. -/
theorem pmuGangWrite_holds {en : Bool} (hacc : s.accepts r .pmu st Off.pmuGang (word (bit en)) = true)
    (hoff : ∀ u < 4, s.rb .pmu st (Off.pmuCtrl u) 0 = false) :
    ∃ t, exec (.pmuGangWrite r st en) s = .next t ∧ t.rb .pmu st Off.pmuGang 0 = en := by
  let x := s.plainWrite .pmu st Off.pmuGang (word (bit en))
  have hx : x.rb .pmu st Off.pmuGang 0 = en := by
    change (s.plainWrite .pmu st Off.pmuGang (word (bit en))).rb .pmu st Off.pmuGang 0 = en
    rw [plainWrite_of_row (k := .pmu) (o := Off.pmuGang) rfl, rb_wr_same, tbit_mergeWrite rfl rfl (by decide)]
    cases en <;> rfl
  have apart : ∀ u, Off.pmuGang % 0x1000 ≠ Off.pmuStat u % 0x1000 := fun u => by
    simp only [Off.pmuGang, Off.pmuStat]
    omega
  let y := (upto 4).foldl (fun x u => x.throttle st u) x
  have hy : y.rb .pmu st Off.pmuGang 0 = en :=
    foldl_keeps (fun z => z.rb .pmu st Off.pmuGang 0 = en)
      (fun z u hz => (rb_of_rd (rd_throttle z (apart u)) 0).trans hz) (upto 4) hx
  have kept : ∀ t : State, t.aside = y.aside → t.rb .pmu st Off.pmuGang 0 = en := fun t h =>
    (rb_of_rd (rd_of_aside h rfl _ _) 0).trans hy
  refine ⟨_, congrArg Host.Outcome.next (guarded_of_accepts hacc _), ?_⟩
  unfold pmuGangWrite
  rw [if_neg (by simpa [upto] using hoff)]
  dsimp only
  split
  · exact hy
  · split
    · exact kept _ ((aside_cnvDisturb ..).trans (aside_foldl y _ _ fun x u => aside_cnvPreempt x st u))
    · exact kept _ (aside_foldl y _ _ fun x u => aside_cnvDisturb x st u)

/-! ### Limits (R331, R338, R339, R340) -/

theorem pmuIlim_flags (hlive : s.pmuLive st u = true) (hfv : s.pmuFi st u = false) :
    ∃ t, exec (.pmuIlim st u) s = .next t ∧ t.rb .pmu st (Off.pmuFlags u) 0 = true ∧
      t.rf .pmu st Off.pmuIlimCnt 0 16 = min 0xFFFF (s.rf .pmu st Off.pmuIlimCnt 0 16 + 1) := by
  refine ⟨_, if_pos ⟨hlive, hfv⟩, rb_pmuFlag _ u.isLt (by decide), ?_⟩
  have low : Off.pmuIlimCnt % 0x1000 ≠ Off.pmuFlags u % 0x1000 := by
    simp only [Off.pmuIlimCnt, Off.pmuFlags]
    omega
  rw [rf_of_rd (rd_pmuFlag _ 0 low (by decide)), rf_sat_same _ _ _ _ _ _ _ (by decide), satAdd_eq_min]
  rfl

theorem pmuVclamp_flags (hlive : s.pmuLive st u = true) (hfi : s.pmuFi st u = true) :
    ∃ t, exec (.pmuVclamp st u) s = .next t ∧ t.rb .pmu st (Off.pmuFlags u) 1 = true :=
  ⟨_, if_pos ⟨hlive, hfi⟩, rb_pmuFlag s u.isLt (by decide)⟩

theorem senseOpen_flags (hsense : s.rb .pmu st (Off.pmuCtrl (s.leader st u)) 8 = true) (hon : s.rb .pmu st (Off.pmuCtrl u) 0 = true) :
    ∃ t, exec (.senseOpen st u) s = .next t ∧ t.rb .pmu st (Off.pmuFlags u) 4 = true ∧ (t.pmu st u).fallback = true := by
  refine ⟨_, if_pos ⟨hsense, hon⟩, rb_pmuFlag _ u.isLt (by decide), ?_⟩
  rw [pmu_of_pmus (pmus_pmuFlag ..), pmu_setPmu_same]

/-- A unit that forces is shut (R339). -/
def State.shutUnit (x : State) (st w : Nat) : State := if x.pmuState st w = pmuForce then x.pmuOutOff st w pmuShut else x

/-- A limit that has held for TIME with ACTION = 1 takes the output off. -/
theorem pmuShut_shuts (hstate : s.pmuState st u = pmuForce) (hlive : s.pmuLive st u = true) (hfv : s.pmuFi st u = false)
    (hact : s.rb .pmu st (Off.pmuIlim (s.leader st u)) 8 = true) :
    ∃ t, exec (.pmuShut st u) s = .next t ∧ t.rb .pmu st (Off.pmuCtrl u) 0 = false ∧ t.pmuState st u = pmuShut ∧
      t.rb .pmu st (Off.pmuFlags u) 3 = true := by
  let units := if s.ganged st then [0, 1, 2, 3] else [u.val]
  let x := units.foldl (fun x w => x.shutUnit st w) s
  let z := x.wb .pmu st (Off.pmuCtrl (s.leader st u)) 0 false
  have hexec : exec (.pmuShut st u) s = .next ((z.pmuFlag st u 3).event .pmu st 3) := if_pos ⟨hstate, hlive, hfv, hact⟩
  have hunits : u.val ∈ units ∧ units.Nodup ∧ ∀ w ∈ units, w < 4 := by
    dsimp only [units]
    split
    · exact ⟨(List.mem_range (n := 4)).mpr u.isLt, by decide, by decide⟩
    · simp
  obtain ⟨hmem, hnodup, hlt⟩ := hunits
  have others : ∀ y : State, ∀ w ∈ units, w ≠ u → State.KeepsUnit st u y (y.shutUnit st w) := by
    intro y w hw hne
    unfold State.shutUnit
    split
    · exact keepsUnit_pmuOutOff y _ u.isLt (hlt w hw) hne
    · exact .refl ..
  obtain ⟨y, hy, hx⟩ := keepsUnit_foldl s hmem hnodup others
  have hf : y.shutUnit st u = y.pmuOutOff st u pmuShut := if_pos (hy.state.trans hstate)
  obtain ⟨hshut, hctrl, -⟩ := pmuOutOff_shows y (st := st) (next := pmuShut) u.isLt (by decide)
  rw [← hf] at hshut hctrl
  have hxoff : x.rb .pmu st (Off.pmuCtrl u) 0 = false := by
    rw [rb_of_rd hx.ctrl, State.rb, hctrl]
    exact tbit_putBit_same _ _ _ (by decide)
  have hend := (keepsUnit_pmuFlag (st := st) z u 3 u.isLt).trans (keepsUnit_event (st := st) _ 3 u.isLt)
  refine ⟨_, hexec, ?_, ?_, ?_⟩
  · rw [rb_of_rd hend.ctrl]
    by_cases hl : s.leader st u = u
    · rw [show z = x.wb .pmu st (Off.pmuCtrl u) 0 false from congrArg (fun l => x.wb .pmu st (Off.pmuCtrl l) 0 false) hl]
      exact rb_wb_same _ _ _ _ _ _ (by decide)
    · exact (rb_of_rd (rd_wb_offset x .pmu st _ st _ 0 false
        (unitReg_apart_unit u.isLt (leader_lt s u.isLt) (Ne.symm hl))) 0).trans hxoff
  · rw [hend.state, pmuState_of_rd (rd_wb_offset x .pmu st _ st _ 0 false unitReg_apart), hx.state]
    exact hshut
  · rw [rb_of_rd (rd_pmuEvent _ 3 (unitReg_apart_low u.isLt))]
    exact rb_pmuFlag z u.isLt (by decide)

end

/-! ### Waves (R351 to R354) -/

/-- A key of a rising list stands in it once. -/
theorem Store.split_of_get? {α : Type} {m : List (Nat × α)} {k : Nat} {v : α} (hs : Store.sorted m = true)
    (h : Store.get? m k = some v) : ∃ l r, m = l ++ (k, v) :: r ∧ ∀ e ∈ l ++ r, e.1 ≠ k := by
  induction m with
  | nil => cases h
  | cons a t ih =>
    obtain ⟨k', v'⟩ := a
    obtain ⟨habove, ht⟩ := (Store.sorted_cons k' v' t).mp hs
    by_cases hk : k = k'
    · subst hk
      obtain rfl : v' = v := by simpa [Store.get?] using h
      exact ⟨[], t, rfl, fun e he => (habove e he).ne'⟩
    · obtain ⟨l, r, rfl, hne⟩ := ih ht (by simpa [Store.get?, hk] using h)
      refine ⟨(k', v') :: l, r, rfl, fun e he => ?_⟩
      rcases List.mem_cons.mp he with rfl | he
      · exact Ne.symm hk
      · exact hne e he

/-- An update of a wave source leaves its unit, or has it apply a code. -/
theorem waveStep_cases (s : State) (st u : Nat) : s.waveStep st u = s ∨ ∃ p, s.waveStep st u = s.applyWave st u p := by
  unfold State.waveStep
  dsimp only
  split
  · exact Or.inl rfl
  · split
    · exact Or.inr ⟨_, rfl⟩
    · split
      · exact Or.inr ⟨_, rfl⟩
      · split <;> exact Or.inr ⟨_, rfl⟩
      · exact Or.inr ⟨_, rfl⟩
      · exact Or.inr ⟨_, rfl⟩

/-- From `s` to `t` unit `u` of the stall keeps its record and what governs its wave. -/
structure State.KeepsWave (st u : Nat) (s t : State) : Prop where
  pmu : t.pmu st u = s.pmu st u
  wave : t.rd .pmu st (Off.pmuWave u) = s.rd .pmu st (Off.pmuWave u)
  freq : t.rd .pmu st (Off.pmuFreq u) = s.rd .pmu st (Off.pmuFreq u)
  gang : t.rd .pmu st Off.pmuGang = s.rd .pmu st Off.pmuGang

theorem State.KeepsWave.refl (st u : Nat) (s : State) : State.KeepsWave st u s s := ⟨rfl, rfl, rfl, rfl⟩

theorem State.KeepsWave.trans {st u : Nat} {s t x : State} (h : State.KeepsWave st u s t) (h' : State.KeepsWave st u t x) :
    State.KeepsWave st u s x :=
  ⟨h'.pmu.trans h.pmu, h'.wave.trans h.wave, h'.freq.trans h.freq, h'.gang.trans h.gang⟩

theorem keepsWave_waveStep (s : State) {st u k : Nat} (hu : u < 4) (hk : k ≠ 4 * st + u) :
    State.KeepsWave st u s (s.waveStep (k / 4) (k % 4)) := by
  obtain e | ⟨p, e⟩ := waveStep_cases s (k / 4) (k % 4)
  · rw [e]
    exact .refl ..
  · rw [e]
    exact ⟨pmu_applyWave_ne s p (by omega), rd_applyWave s p unitReg_apart (unitReg_apart_low hu),
      rd_applyWave s p unitReg_apart (unitReg_apart_low hu), rd_applyWave s p lowReg_apart (by decide)⟩

/-- An update of an enabled running wave advances its accumulator and takes the AMP of its register. -/
theorem waveStep_running {s : State} {st u : Nat} (hlead : s.follower st u = false) (hen : s.rb .pmu st (Off.pmuWave u) 20 = true)
    (hrun : (s.pmu st u).wave = .running) :
    s.waveStep st u = s.applyWave st u { s.pmu st u with
      wave := .running, acc := ((s.pmu st u).acc + s.rf .pmu st (Off.pmuFreq u) 0 32) % 2 ^ 32
      amp := s.rf .pmu st (Off.pmuWave u) 0 17, pulse := none } := by
  simp only [State.waveStep, hlead, hen, hrun, Bool.false_eq_true, Bool.true_eq_false, reduceCtorEq, or_self, if_false]

theorem waveUpdate_advances {s : State} {st : Fin 128} {u : Fin 4} {p : PmuSt} (hs : Store.sorted s.pmus = true)
    (hp : Store.get? s.pmus (4 * st + u) = some p) (hrun : p.wave = .running) (hen : s.rb .pmu st (Off.pmuWave u) 20 = true)
    (hlead : s.follower st u = false) :
    ∃ t, exec .waveUpdate s = .next t ∧ (t.pmu st u).acc = (p.acc + s.rf .pmu st (Off.pmuFreq u) 0 32) % 2 ^ 32 ∧
      (t.pmu st u).wave = .running ∧ (t.pmu st u).amp = s.rf .pmu st (Off.pmuWave u) 0 17 := by
  obtain ⟨l, m, hsplit, hne⟩ := Store.split_of_get? hs hp
  obtain ⟨y, hy, ht⟩ := foldl_meets (f := fun (x : State) (e : Nat × PmuSt) => x.waveStep (e.1 / 4) (e.1 % 4))
    (State.KeepsWave.refl st u) (fun h h' => h.trans h') (fun x e he => keepsWave_waveStep x u.isLt (hne e he)) s (4 * st.val + u, p)
  have hypmu : y.pmu st u = p := hy.pmu.trans (by rw [State.pmu, Store.getD, hp]; rfl)
  have hylead : y.follower st u = false := by
    rw [State.follower, ganged_of_rd hy.gang]
    exact hlead
  have hstep : y.waveStep ((4 * st.val + u) / 4) ((4 * st.val + u) % 4) = y.waveStep st u := by
    congr 1 <;> omega
  dsimp only at ht
  rw [← hsplit, hstep, waveStep_running hylead ((rb_of_rd hy.wave 20).trans hen) (by rw [hypmu]; exact hrun), hypmu,
    rf_of_rd hy.freq, rf_of_rd hy.wave] at ht
  obtain ⟨a, ha, -⟩ := pmu_applyWave_same y st u { p with
      wave := .running, acc := (p.acc + s.rf .pmu st (Off.pmuFreq u) 0 32) % 2 ^ 32
      amp := s.rf .pmu st (Off.pmuWave u) 0 17, pulse := none }
  refine ⟨_, rfl, ?_⟩
  rw [ht.pmu, ha]
  exact ⟨rfl, rfl, rfl⟩

/-! ### Wave tables (R353, R364) -/

section
variable {s : State} {r : Requester} {st : Fin 128} {u : Fin 4}

theorem waveTableWrite_writes {v : Word} (hacc : s.accepts r .pmu st Off.pmuWtData v = true)
    (hen : s.rb .pmu st (Off.pmuWave (s.rf .pmu st Off.pmuWtIdx 16 2)) 20 = false) :
    ∃ t, exec (.waveTableWrite r st v) s = .next t ∧
      t.waveEntry st (s.rf .pmu st Off.pmuWtIdx 16 2) (s.rf .pmu st Off.pmuWtIdx 0 12) = fld v 0 18 := by
  refine ⟨_, congrArg Host.Outcome.next (guarded_of_accepts hacc _), ?_⟩
  have advance : ∀ x : State, (x.wtAdvance st).waves = x.waves := fun x => by
    unfold State.wtAdvance
    split
    · exact State.wf_waves ..
    · rfl
  unfold wtDataWrite
  rw [if_neg (by simp [hen]), State.waveEntry, advance]
  exact Store.getD_setD_same ..

theorem waveTableDefault_begins
    (hacc : s.accepts r .pmu st Off.pmuWtIdx (putBit (putFld (s.rd .pmu st Off.pmuWtIdx) 16 2 u) 24 true) = true)
    (hpage : s.pageEn .pmu st = true) (hen : s.rb .pmu st (Off.pmuWave u) 20 = false) (hidle : s.rb .pmu st Off.pmuWtIdx 24 = false) :
    ∃ t, exec (.waveTableDefault r st u) s = .next t ∧ t.rb .pmu st Off.pmuWtIdx 24 = true ∧ (t.pmu st u).reload = true := by
  have hunit : fld (putBit (putFld (s.rd .pmu st Off.pmuWtIdx) 16 2 u) 24 true) 16 2 = u := by
    rw [putBit, fld_putFld_other _ _ _ _ _ _ (by decide) (by decide), fld_putFld_same _ _ _ _ (by decide)]
    exact Nat.mod_eq_of_lt u.isLt
  have hdef : tbit (putBit (putFld (s.rd .pmu st Off.pmuWtIdx) 16 2 u) 24 true) 24 = true := tbit_putBit_same _ _ _ (by decide)
  refine ⟨_, congrArg Host.Outcome.next (guarded_of_accepts hacc _), ?_⟩
  simp only [wtIdxWrite, hunit, hdef, hpage, hen, hidle, Bool.true_eq_false, Bool.false_eq_true, or_self, if_false]
  constructor
  · rw [rb_of_rd (rd_of_regs (State.setPmu_regs ..) _ _ _)]
    exact rb_wb_same _ .pmu st Off.pmuWtIdx 24 true (by decide)
  · rw [pmu_setPmu_same]

/-- A reload that is done leaves every entry of the table at its default. -/
theorem waveTableDefaultDone_reloads (h : (s.pmu st u).reload = true) :
    ∃ t, exec (.waveTableDefaultDone st u) s = .next t ∧ t.rb .pmu st Off.pmuWtIdx 24 = false ∧
      ∀ i < 4096, t.waveEntry st u i = sineEntry i := by
  refine ⟨_, if_pos h, rb_wb_same _ _ _ _ _ _ (by decide), fun i hi => ?_⟩
  have hkey : (4096 * (4 * st.val + u.val) + i) / 4096 = 4 * st.val + u.val := by omega
  have hentry : (4096 * (4 * st.val + u.val) + i) % 4096 = i := by omega
  rw [State.waveEntry, State.wb_waves]
  change Store.getD waveDefault (Store.keep (fun k => k / 4096 != 4 * st.val + u.val) s.waves) _ = _
  rw [Store.getD_keep, if_neg (by simp [hkey]), waveDefault, hentry]

end

/-- Settles O27: each command by its own lemma above. -/
theorem pmuCommandsTakeEffect : Obligations.PmuCommandsTakeEffect :=
  ⟨⟨fun _ _ _ _ => pmuOutputEnable_forces, fun _ _ _ _ => pmuOutputDisable_idles, fun _ _ _ _ _ => pmuModeWrite_loadsZero,
      fun _ _ _ _ _ hacc hlead hrange hch hrng => ⟨pmuRangeWrite_dead hacc hlead hrange hch hrng,
        pmuRangeWrite_live hacc hlead hrange hch hrng⟩,
      fun _ _ _ => pmuRangeDone_forces, fun _ _ _ _ _ => pmuForceWrite_forces, fun _ _ _ _ _ => pmuClampWrite_high,
      fun _ _ _ _ _ => pmuClampWrite_low, fun _ _ _ _ => pmuGangWrite_holds⟩,
    fun _ _ _ => pmuIlim_flags, fun _ _ _ => pmuShut_shuts, fun _ _ _ => pmuVclamp_flags, fun _ _ _ => senseOpen_flags,
    fun _ _ _ _ => waveUpdate_advances, fun _ _ _ _ => waveTableWrite_writes, fun _ _ _ _ => waveTableDefault_begins,
    fun _ _ _ => waveTableDefaultDone_reloads⟩

end Sys2Proof.Machine

/-!
PROOF. Stages of the ROM routines (R484, R493; assumption 40): what the steps of a stage leave of its job, counting over a list of
PMUs, writes that their blocks take, and the end of a service.
-/

namespace Sys2Proof.Machine

/-! ### Jobs at work -/

/-- The job goes on: the routine has neither ended nor waits for the hayloft. -/
def Job.Runs (j : Job) : Prop := j.done = none ∧ j.stall = false

/-- The job of a stage that begins. -/
def State.newJob (s : State) (g : Fin 8) (c : Ctx) (p : Probe) : Job :=
  ⟨s.reach15 c.rcd.op p.addr.toNat, c, g, p, none, none, false⟩

theorem runs_newJob (s : State) (g : Fin 8) (c : Ctx) (p : Probe) : (s.newJob g c p).Runs := ⟨rfl, rfl⟩

@[simp] theorem regs_reach15 (s : State) (op a : Nat) : (s.reach15 op a).regs = s.regs := by
  unfold State.reach15
  dsimp only
  split <;> rfl

@[simp] theorem now_reach15 (s : State) (op a : Nat) : (s.reach15 op a).now = s.now := by
  unfold State.reach15
  dsimp only
  split <;> rfl

@[simp] theorem acqs_reach15 (s : State) (op a : Nat) : (s.reach15 op a).acqs = s.acqs := by
  unfold State.reach15
  dsimp only
  split <;> rfl

@[simp] theorem rd_newJob (s : State) (g : Fin 8) (c : Ctx) (p : Probe) (k : PageKind) (i o : Nat) :
    (s.newJob g c p).s.rd k i o = s.rd k i o := rd_of_regs (regs_reach15 ..) k i o

section
variable {j y : Job}

theorem Job.bind_of_runs (h : j.Runs) (f : Job → Job) : j.bind f = f j := by
  obtain ⟨hd, hs⟩ := h
  simp [Job.bind, hd, hs]

/-- A property that each step keeps holds after all of them. -/
theorem Job.each_keeps {α : Type} {P : Job → Prop} {f : α → Job → Job} (h : ∀ a y, P y → P (f a y)) (l : List α)
    (hj : P j) : P (j.each l f) := by
  refine foldl_keeps P (fun y a hy => ?_) l hj
  unfold Job.bind
  split
  · exact hy
  · exact h a y hy

theorem Job.each_cons {α : Type} (hj : j.Runs) (a : α) (l : List α) (f : α → Job → Job) :
    j.each (a :: l) f = (f a j).each l f := by
  rw [Job.each, List.foldl_cons, Job.bind_of_runs hj]
  rfl

theorem Job.t_setT (hj : j.Runs) {i k v : Nat} (hk : k < 12) : (j.setT i v).t k = if k = i then v else j.t k := by
  have hlt : k < max 12 (i + 1) := by omega
  rw [Job.setT, Job.bind_of_runs hj, Job.t]
  simp only [List.getD_eq_getElem?_getD, List.getElem?_map, upto, List.getElem?_range hlt, Option.map_some, Option.getD_some]

theorem Job.t_addT (hj : j.Runs) {i k v : Nat} (hk : k < 12) : (j.addT i v).t k = if k = i then j.t i + v else j.t k :=
  Job.t_setT hj hk

theorem Job.t_first (hy : y.Runs) {i m : Nat} (v : Nat) (hm : m < 12) (hmi : m ≠ i) : (y.first i v).t m = y.t m := by
  unfold Job.first
  split
  · rw [Job.t_setT hy hm, if_neg hmi]
  · rfl

theorem Job.s_setT (y : Job) (i v : Nat) : (y.setT i v).s = y.s := by
  unfold Job.setT Job.bind
  split <;> rfl

theorem Job.s_first (y : Job) (i v : Nat) : (y.first i v).s = y.s := by
  unfold Job.first
  split
  · exact y.s_setT i _
  · rfl

theorem Job.need_true {b : Bool} (h : b = true) : j.need b = j := if_pos h

/-! ### Counting (R485) -/

/-- From `j` to `y` the routine goes on, with its record, its working list and its groom, and no register of a converter moves. -/
structure Job.Tallied (j y : Job) : Prop where
  runs : y.Runs
  rcd : y.c.rcd = j.c.rcd
  items : y.c.items = j.c.items
  groom : y.g = j.g
  cnv : ∀ i o, y.s.rd .cnv i o = j.s.rd .cnv i o

theorem Job.Tallied.refl (h : j.Runs) : j.Tallied j := ⟨h, rfl, rfl, rfl, fun _ _ => rfl⟩

theorem Job.Tallied.setT (h : j.Tallied y) (i v : Nat) : j.Tallied (y.setT i v) := by
  obtain ⟨hr, hrcd, hitems, hg, hcnv⟩ := h
  rw [Job.setT, Job.bind_of_runs hr]
  exact ⟨hr, hrcd, hitems, hg, hcnv⟩

theorem Job.Tallied.addT (h : j.Tallied y) (i v : Nat) : j.Tallied (y.addT i v) := h.setT i _

theorem Job.Tallied.first (h : j.Tallied y) (i v : Nat) : j.Tallied (y.first i v) := by
  unfold Job.first
  split
  · exact h.setT i _
  · exact h

/-- Where `b`, one more item counts in working value `i`, and `n` is the first of them if working value `k` holds none. -/
def Job.count (y : Job) (b : Bool) (i k n : Nat) : Job := if b then (y.addT i 1).first k n else y

theorem Job.Tallied.count (h : j.Tallied y) (b : Bool) (i k n : Nat) : j.Tallied (y.count b i k n) := by
  unfold Job.count
  split
  · exact (h.addT i 1).first k n
  · exact h

theorem Job.t_count (hy : y.Runs) (b : Bool) {i k m : Nat} (n : Nat) (hm : m < 12) (hk : k < 12) (hik : i ≠ k) :
    (y.count b i k n).t m =
      if m = i then y.t i + bit b else if m = k then (if b = true ∧ y.t k = 0 then n + 1 else y.t k) else y.t m := by
  cases b
  · simp [Job.count, bit]
    grind
  · have hadd : (y.addT i 1).Runs := ((Job.Tallied.refl hy).addT i 1).runs
    simp only [Job.count, Job.first, if_true, true_and, bit]
    rw [Job.t_addT hy hk, if_neg hik.symm]
    split
    · rw [Job.t_setT hadd hm, Job.t_addT hy hm]
      grind
    · rw [Job.t_addT hy hm]
      grind

theorem Job.s_count (y : Job) (b : Bool) (i k n : Nat) : (y.count b i k n).s = y.s := by
  unfold Job.count
  split
  · exact (Job.s_first ..).trans (y.s_setT i _)
  · rfl

theorem Job.Tallied.postResult (h : j.Tallied y) (n : Nat) : j.Tallied (y.postResult n) := by
  obtain ⟨hr, hrcd, hitems, hg, hcnv⟩ := h
  rw [Job.postResult, Job.post, Job.act, Job.bind_of_runs hr]
  exact ⟨hr, hrcd, hitems, hg, fun i o =>
    (rd_offer (k := .cnv) y.s _ (.groom y.g y.o) true _ _ (by decide) fun x =>
      rd_sat_kind (k := .grm) x 0 _ i o 0 16 1 (by decide)).trans (hcnv i o)⟩

theorem Job.t_postResult (n k : Nat) : (y.postResult n).t k = y.t k := by
  unfold Job.postResult Job.post Job.act Job.bind
  split <;> rfl

/-- A result that is posted, where the service asks for it. -/
def Job.posted (y : Job) (post : Bool) (n : Nat) : Job := if post then y.postResult n else y

theorem Job.Tallied.posted (h : j.Tallied y) (post : Bool) (n : Nat) : j.Tallied (y.posted post n) := by
  unfold Job.posted
  split
  · exact h.postResult n
  · exact h

theorem Job.t_posted (post : Bool) (n k : Nat) : (y.posted post n).t k = y.t k := by
  unfold Job.posted
  split
  · exact Job.t_postResult n k
  · rfl

/-- What the steps over a list add to a working value. -/
theorem Job.each_adds {f : Nat → Job → Job} {w : Nat → Nat} {i : Nat}
    (h : ∀ y n, j.Tallied y → j.Tallied (f n y) ∧ (f n y).t i = y.t i + w n) (l : List Nat) :
    ∀ y, j.Tallied y → (y.each l f).t i = y.t i + (l.map w).sum := by
  induction l with
  | nil => exact fun y _ => rfl
  | cons n l ih =>
    intro y hy
    obtain ⟨hf, ht⟩ := h y n hy
    rw [Job.each_cons hy.runs, ih _ hf, ht, List.map_cons, List.sum_cons, Nat.add_assoc]

/-- The steps over a list remember the first item counted. -/
theorem Job.each_first {f : Nat → Job → Job} {bad : Nat → Bool} {i : Nat}
    (h : ∀ y n, j.Tallied y → j.Tallied (f n y) ∧ (f n y).t i = if bad n = true ∧ y.t i = 0 then n + 1 else y.t i)
    (l : List Nat) : ∀ y, j.Tallied y → ∀ n, (if y.t i = 0 then (l.filter bad).head? else some (y.t i - 1)) = some n →
      (y.each l f).t i = n + 1 := by
  induction l with
  | nil =>
    intro y _ n hn
    change y.t i = n + 1
    split at hn
    · cases hn
    · simp only [Option.some.injEq] at hn
      omega
  | cons a l ih =>
    intro y hy n hn
    obtain ⟨hf, ht⟩ := h y a hy
    rw [Job.each_cons hy.runs]
    refine ih _ hf n ?_
    rw [ht]
    by_cases ha : bad a = true
    · rw [List.filter_cons_of_pos ha, List.head?_cons] at hn
      grind
    · rw [List.filter_cons_of_neg ha] at hn
      simpa [ha] using hn

theorem sum_map_bit (bad : Nat → Bool) (l : List Nat) : (l.map fun n => bit (bad n)).sum = (l.filter bad).length := by
  induction l with
  | nil => rfl
  | cons n l ih =>
    rw [List.map_cons, List.sum_cons, ih, List.filter_cons]
    cases bad n <;> simp [bit, Nat.add_comm]

end

/-! ### Writes -/

/-- A write that its block takes goes into the part and into the commit log. -/
theorem Job.wrAt_takes {j : Job} {a v : Nat} (hj : j.Runs) (h : j.s.takes (.groom j.g) a (word v) = true) :
    j.wrAt a v = { j with s := j.s.write32 (.groom j.g) a (word v), c := j.c.note ⟨false, a, (word v).toNat⟩ } := by
  simp only [State.takes, Bool.and_eq_true, Option.isNone_iff_eq_none] at h
  obtain ⟨hr, hb⟩ := h
  rw [Job.wrAt, Job.bind_of_runs hj]
  simp only [Job.r, hr, hb, Bool.true_eq_false, if_false]

/-- The job goes on in state `x` for the record `r` on groom `g`. -/
structure Job.GoesOn (j : Job) (r : Record) (g : Fin 8) (x : State) : Prop where
  runs : j.Runs
  rcd : j.c.rcd = r
  groom : j.g = g
  state : j.s = x

theorem goesOn_newJob (s : State) (g : Fin 8) (c : Ctx) (p : Probe) :
    (s.newJob g c p).GoesOn c.rcd g (s.reach15 c.rcd.op p.addr.toNat) := ⟨runs_newJob s g c p, rfl, rfl, rfl⟩

/-- A write that its block takes leads on. -/
theorem Job.GoesOn.wr {j : Job} {r : Record} {g : Fin 8} {x : State} (h : j.GoesOn r g x) {k : PageKind} {i o v : Nat}
    (ht : x.takes (.groom g) (k.base i + o) (word v) = true) :
    (j.wr k i o v).GoesOn r g (x.write32 (.groom g) (k.base i + o) (word v)) := by
  obtain ⟨hr, rfl, rfl, rfl⟩ := h
  have hw : j.wr k i o v = _ := Job.wrAt_takes hr ht
  rw [hw]
  exact ⟨hr, rfl, rfl, rfl⟩

theorem Job.GoesOn.t_wr {j : Job} {r : Record} {g : Fin 8} {x : State} (h : j.GoesOn r g x) {k : PageKind} {i o v : Nat}
    (ht : x.takes (.groom g) (k.base i + o) (word v) = true) (m : Nat) : (j.wr k i o v).t m = j.t m := by
  obtain ⟨hr, rfl, rfl, rfl⟩ := h
  have hw : j.wr k i o v = _ := Job.wrAt_takes hr ht
  rw [hw]
  rfl

/-! ### The end of a service -/

/-- The routine has ended OK for the record of `c`, with the words `vs`. -/
structure Job.EndsOk (d : Job) (c : Ctx) (vs : List Nat) : Prop where
  done : d.done = some svOk
  stall : d.stall = false
  rcd : d.c.rcd = c.rcd
  words : d.c.vs = vs.map word

/-- A stage that ends OK ends the service. -/
theorem service_endsOk {s : State} {g : Fin 8} {c : Ctx} {op k : Nat} {p : Probe} (h : s.romRuns g c op k p = true) {i : Instr}
    {is : Nat → Bool} {f : Job → Job} (hexec : exec i s = .next (s.service g none p is f)) (hop : is op = true) {vs : List Nat}
    (hd : (f (s.newJob g c p)).EndsOk c vs) :
    ∃ t y, exec i s = .next t ∧ ServiceEnds t y g c vs ∧ y.regs = (f (s.newJob g c p)).s.regs := by
  obtain ⟨hdone, hstall, hrcd, hwords⟩ := hd
  refine ⟨_, { (f (s.newJob g c p)).s with free := (f (s.newJob g c p)).s.free + 32 }, hexec,
    ⟨(f (s.newJob g c p)).c, ?_, hrcd, hwords⟩, rfl⟩
  rw [service_of_romRuns h is hop f]
  change s.stageEnds g (f (s.newJob g c p)) = _
  simp only [State.stageEnds, hstall, hdone, Bool.false_eq_true, if_false]

section
variable {j : Job}

theorem Job.vals_of_runs (hj : j.Runs) (vs : List Nat) : j.vals vs = { j with c := { j.c with vs := vs.map word } } :=
  Job.bind_of_runs hj _

theorem Job.stage_of_runs (hj : j.Runs) (n : Nat) : j.stage n = { j with c := { j.c with stage := n } } := Job.bind_of_runs hj _

/-- A routine that goes on ends OK with the result values it has. -/
theorem Job.endsOk_fail {c : Ctx} {vs : List Nat} (hj : j.Runs) (hrcd : j.c.rcd = c.rcd) (hvs : j.c.vs = vs.map word) :
    (j.fail svOk).EndsOk c vs ∧ (j.fail svOk).s = j.s := by
  rw [Job.fail, Job.bind_of_runs hj]
  exact ⟨⟨rfl, hj.2, hrcd, hvs⟩, rfl⟩

theorem Job.endsOk_vals {c : Ctx} (hj : j.Runs) (hrcd : j.c.rcd = c.rcd) (vs : List Nat) :
    ((j.vals vs).fail svOk).EndsOk c vs ∧ ((j.vals vs).fail svOk).s = j.s := by
  rw [Job.vals_of_runs hj]
  exact Job.endsOk_fail hj hrcd rfl

/-- Where a job goes on, it ends OK with the words given. -/
theorem Job.GoesOn.ends {c : Ctx} {g : Fin 8} {x : State} (h : j.GoesOn c.rcd g x) (vs : List Nat) :
    ((j.vals vs).fail svOk).EndsOk c vs ∧ ((j.vals vs).fail svOk).s = x := by
  obtain ⟨hends, hs⟩ := Job.endsOk_vals h.runs h.rcd vs
  exact ⟨hends, hs.trans h.state⟩

end

end Sys2Proof.Machine

/-!
PROOF. The forcing, sweep, supply, wave, converter and acquisition services (R484, R485): what the last stage of each
leaves; and O38.
-/

namespace Sys2Proof.Machine

theorem romRuns_stage {s : State} {g : Fin 8} {c : Ctx} {op k : Nat} {p : Probe} (h : s.romRuns g c op k p = true) :
    c.stage = k := by
  unfold State.romRuns at h
  simp only [Bool.and_eq_true, decide_eq_true_eq] at h
  exact h.1.1.1.1.1.1.2

section
variable {s : State} {g : Fin 8} {c : Ctx} {p : Probe}

/-! ### Results of the converters -/

theorem res_of_tallied {y : Job} (h : (s.newJob g c p).Tallied y) (n w : Nat) : y.res n w = s.resWord n w :=
  (h.cnv _ _).trans (rd_newJob ..)

theorem flagged_of_tallied {y : Job} (h : (s.newJob g c p).Tallied y) (n : Nat) : y.flagged n = s.resFlagged n := by
  rw [Job.flagged, res_of_tallied h]
  rfl

theorem complete_of_tallied {y : Job} (h : (s.newJob g c p).Tallied y) (n : Nat) : y.complete n = s.resComplete n := by
  rw [Job.complete, res_of_tallied h]
  rfl

theorem code_of_tallied {y : Job} (h : (s.newJob g c p).Tallied y) (n : Nat) : y.code n = s.resCode n := by
  rw [Job.code, res_of_tallied h]
  rfl

theorem kept_of_tallied {y : Job} (h : (s.newJob g c p).Tallied y) (n : Nat) : y.kept n = c.kept n := by
  rw [Job.kept, h.items]
  rfl

theorem f_of_tallied {y : Job} (h : (s.newJob g c p).Tallied y) (i lo n : Nat) : y.f i lo n = c.rcd.f i lo n := by
  rw [Job.f, h.rcd]
  rfl

theorem converted_of_results {l : List Nat} (h : ∀ n ∈ l, tbit (s.resWord n 0) 16 = true) :
    (s.newJob g c p).converted l = true :=
  List.all_eq_true.mpr fun n hn => by
    rw [res_of_tallied (.refl (runs_newJob s g c p))]
    exact h n hn

/-! ### Counting over the PMUs -/

/-- The steps over a list count the items that `bad` names in working value `i` and remember the first in `k`. -/
theorem each_counts {step : Nat → Job → Job} {bad : Nat → Bool} {i k : Nat}
    (h : ∀ y n, (s.newJob g c p).Tallied y → (s.newJob g c p).Tallied (step n y) ∧ (step n y).t i = y.t i + bit (bad n) ∧
      (step n y).t k = if bad n = true ∧ y.t k = 0 then n + 1 else y.t k) (l : List Nat) :
    let j1 := (s.newJob g c p).each l step
    (s.newJob g c p).Tallied j1 ∧ j1.t i = c.t i + (l.filter bad).length ∧
      ∀ n, c.firstOf k (l.filter bad) = some n → j1.t k = n + 1 := by
  have hj := Job.Tallied.refl (runs_newJob s g c p)
  refine ⟨Job.each_keeps (fun n y hy => (h y n hy).1) l hj, ?_,
    Job.each_first (fun y n hy => ⟨(h y n hy).1, (h y n hy).2.2⟩) l _ hj⟩
  rw [Job.each_adds (fun y n hy => ⟨(h y n hy).1, (h y n hy).2.1⟩) l _ hj, sum_map_bit]
  rfl

theorem Job.firstV_eq {y : Job} {i n : Nat} (h : y.t i = n + 1) : y.firstV i = n := by
  rw [Job.firstV, h, if_neg (Nat.succ_ne_zero n), Nat.add_sub_cancel]

/-! ### The last point of a sweep -/

/-- Every result of a point judged. -/
def Sweep.judged (x : Sweep) (j : Job) : Job := j.each x.pmus fun n y => x.judge (j.t 1) n (y.posted x.post n)

/-- The working values after the last point of a sweep. -/
def Sweep.final (x : Sweep) (j : Job) : Job := ((x.judged j).bind (x.after (j.t 1))).addT 1 1

theorem Sweep.final_of_runs {x : Sweep} {j : Job} (h : (x.judged j).Runs) : x.final j = (x.after (j.t 1) (x.judged j)).addT 1 1 :=
  congrArg (Job.addT · 1 1) (Job.bind_of_runs h _)

/-- At the last point, with every result stored, a sweep ends OK with its words of the job `z` that it leaves. -/
theorem sweep_endsOk {x : Sweep} {op : Nat} (hrun : s.romRuns g c op 2 p = true) {i : Instr} {is : Nat → Bool} {f : Job → Job}
    (hexec : exec i s = .next (s.service g none p is f)) (hop : is op = true)
    (hf : f (s.newJob g c p) = (s.newJob g c p).sweep x) (hres : ∀ n ∈ x.pmus, tbit (s.resWord n 0) 16 = true)
    (hlast : c.t 1 + 1 = x.points) {Q : Job → Prop}
    (hfinal : let z := x.final (s.newJob g c p); z.Runs ∧ z.c.rcd = c.rcd ∧ Q z) :
    ∃ t y z, exec i s = .next t ∧ ServiceEnds t y g c (x.words z) ∧ y.regs = z.s.regs ∧ Q z := by
  obtain ⟨hgo, hrcd, hQ⟩ := hfinal
  have hsweep : (s.newJob g c p).sweep x =
      (((x.final (s.newJob g c p)).vals (x.words (x.final (s.newJob g c p)))).stage 0).fail svOk := by
    have hstage : (s.newJob g c p).c.stage = 2 := romRuns_stage hrun
    have hend : (s.newJob g c p).t 1 + 1 = x.points := hlast
    unfold Job.sweep
    simp only [hstage, converted_of_results hres, hend, if_true]
    rfl
  rw [Job.vals_of_runs hgo, Job.stage_of_runs (by exact hgo)] at hsweep
  obtain ⟨hends, hs⟩ := Job.endsOk_fail
    (j := { x.final (s.newJob g c p) with
      c := { (x.final (s.newJob g c p)).c with vs := (x.words (x.final (s.newJob g c p))).map word, stage := 0 } }) hgo hrcd rfl
  rw [← hsweep, ← hf] at hends hs
  obtain ⟨t, y, ht, hserv, hregs⟩ := service_endsOk hrun hexec hop hends
  exact ⟨t, y, _, ht, hserv, hregs.trans (congrArg State.regs hs), hQ⟩

/-! ### Sweeps with the words of SV_FORCE_MEASURE -/

/-- From `y` to `z` a step over PMU `n` adds `w` to working value 2, counts `n` in 3 where `b`, and remembers in 4 the first
counted. -/
structure Job.Scores (j y z : Job) (w : Nat) (b : Bool) (n : Nat) : Prop where
  tallied : j.Tallied z
  adds : z.t 2 = y.t 2 + w
  counts : z.t 3 = y.t 3 + bit b
  first : z.t 4 = if b = true ∧ y.t 4 = 0 then n + 1 else y.t 4

/-- What the steps over a list score. -/
theorem each_scores {step : Nat → Job → Job} {w : Nat → Nat} {bad : Nat → Bool}
    (hstep : ∀ y n, (s.newJob g c p).Tallied y → (s.newJob g c p).Scores y (step n y) (w n) (bad n) n) (l : List Nat) :
    let j1 := (s.newJob g c p).each l step
    (s.newJob g c p).Tallied j1 ∧ j1.t 2 = c.t 2 + (l.map w).sum ∧ j1.t 3 = c.t 3 + (l.filter bad).length ∧
      ∀ n, c.firstOf 4 (l.filter bad) = some n → j1.t 4 = n + 1 := by
  obtain ⟨hj, h3, h4⟩ := each_counts (fun y n hy => ⟨(hstep y n hy).tallied, (hstep y n hy).counts, (hstep y n hy).first⟩) l
  have h2 := Job.each_adds (fun y n hy => ⟨(hstep y n hy).tallied, (hstep y n hy).adds⟩) l _ (.refl (runs_newJob s g c p))
  exact ⟨hj, h2, h3, h4⟩

/-- What a sweep does after the results of a point adds `d` to working value 2, and leaves 3 and 4. -/
def addsAfter (j : Job) (after : Job → Job) (d : Nat) : Prop :=
  ∀ y, j.Tallied y → j.Tallied (after y) ∧ (after y).t 2 = y.t 2 + d ∧ (after y).t 3 = y.t 3 ∧ (after y).t 4 = y.t 4

/-- The last point of a sweep whose words are its counts and the first PMU counted. -/
theorem countingSweep_ends {x : Sweep} {op d : Nat} {w : Nat → Nat} {bad : Nat → Bool} (hrun : s.romRuns g c op 2 p = true)
    {i : Instr} {is : Nat → Bool} {f : Job → Job} (hexec : exec i s = .next (s.service g none p is f)) (hop : is op = true)
    (hf : f (s.newJob g c p) = (s.newJob g c p).sweep x)
    (hpmus : x.pmus = c.rcd.pmuList) (hres : ∀ n ∈ c.rcd.pmuList, tbit (s.resWord n 0) 16 = true) (hlast : c.t 1 + 1 = x.points)
    (hwords : x.words = fun y => [y.t 2, y.t 3, y.firstV 4])
    (hstep : ∀ y n, (s.newJob g c p).Tallied y →
      (s.newJob g c p).Scores y (x.judge (c.t 1) n (y.posted x.post n)) (w n) (bad n) n)
    (hafter : addsAfter (s.newJob g c p) (x.after (c.t 1)) d) :
    ∃ t y vs, exec i s = .next t ∧ ServiceEnds t y g c vs ∧
      vs.getD 0 0 = c.t 2 + (c.rcd.pmuList.map w).sum + d ∧ vs.getD 1 0 = c.t 3 + (c.rcd.pmuList.filter bad).length ∧
      ∀ n, c.firstOf 4 (c.rcd.pmuList.filter bad) = some n → vs.getD 2 0 = n := by
  rw [← hpmus] at hres ⊢
  obtain ⟨t, y, z, ht, hends, -, h2, h3, h4⟩ := sweep_endsOk hrun hexec hop hf hres hlast
    (Q := fun z => z.t 2 = c.t 2 + (x.pmus.map w).sum + d ∧ z.t 3 = c.t 3 + (x.pmus.filter bad).length ∧
      ∀ n, c.firstOf 4 (x.pmus.filter bad) = some n → z.t 4 = n + 1) (by
      obtain ⟨hj, h2, h3, h4⟩ := each_scores hstep x.pmus
      obtain ⟨hk, hk2, hk3, hk4⟩ := hafter _ hj
      rw [Sweep.final_of_runs (by exact hj.runs)]
      refine ⟨(hk.addT 1 1).runs, (hk.addT 1 1).rcd, ?_, ?_, fun n hn => ?_⟩
      · exact (Job.t_addT hk.runs (by decide)).trans (hk2.trans (congrArg (· + d) h2))
      · exact (Job.t_addT hk.runs (by decide)).trans (hk3.trans h3)
      · exact (Job.t_addT hk.runs (by decide)).trans (hk4.trans (h4 n hn)))
  rw [hwords] at hends
  exact ⟨t, y, _, ht, hends, h2, h3, fun n hn => Job.firstV_eq (h4 n hn)⟩

theorem addsAfter_none (j : Job) : addsAfter j (fun y => y) 0 := fun _ hy => ⟨hy, rfl, rfl, rfl⟩

section
variable {j y z : Job} {w n : Nat} {b : Bool}

theorem Job.Tallied.scores_count (h : j.Tallied z) (b : Bool) (n : Nat) : j.Scores z (z.count b 3 4 n) 0 b n := by
  refine ⟨h.count b 3 4 n, ?_, ?_, ?_⟩ <;> simp [Job.t_count h.runs]

/-- An addition to working value 2 leaves 3 and 4. -/
theorem addsAfter_addT (j : Job) (v : Nat) : addsAfter j (Job.addT · 2 v) v := fun _ h =>
  ⟨h.addT 2 v, Job.t_addT h.runs (by decide), Job.t_addT h.runs (by decide), Job.t_addT h.runs (by decide)⟩

/-- Where `a`, one more item counts in working value 2, and where `b`, one more in 3 with the first of them in 4. -/
theorem Job.Tallied.scores_both (h : j.Tallied z) (a b : Bool) (n : Nat) :
    j.Scores z ((if a then z.addT 2 1 else z).count b 3 4 n) (bit a) b n := by
  cases a
  · exact h.scores_count b n
  · obtain ⟨hy, h2, h3, h4⟩ := addsAfter_addT j 1 z h
    obtain ⟨hc, hc2, hc3, hc4⟩ := hy.scores_count b n
    exact ⟨hc, hc2.trans h2, h3 ▸ hc3, h4 ▸ hc4⟩

theorem Job.Scores.of_posted {post : Bool} (h : j.Scores (y.posted post n) z w b n) : j.Scores y z w b n := by
  obtain ⟨ht, h2, h3, h4⟩ := h
  simp only [Job.t_posted] at h2 h3 h4
  exact ⟨ht, h2, h3, h4⟩

theorem Job.Scores.addT (h : j.Scores y z w b n) (v : Nat) : j.Scores y (z.addT 2 v) (w + v) b n := by
  obtain ⟨hz, hz2, hz3, hz4⟩ := h
  obtain ⟨ha, ha2, ha3, ha4⟩ := addsAfter_addT j v z hz
  exact ⟨ha, by rw [ha2, hz2, Nat.add_assoc], ha3.trans hz3, ha4.trans hz4⟩

end

/-! ### SV_FORCE_MEASURE, SV_SWEEP and SV_SWEEP_LOG -/

/-- A flagged result, posted or not, counts. -/
theorem tallyFlag_scores {post : Bool} {y : Job} (hy : (s.newJob g c p).Tallied y) (n : Nat) :
    (s.newJob g c p).Scores y (tallyFlag n (y.posted post n)) 0 (s.resFlagged n) n := by
  have hp := hy.posted post n
  have hz : tallyFlag n (y.posted post n) = (y.posted post n).count (s.resFlagged n) 3 4 n := by
    rw [← flagged_of_tallied hp]
    rfl
  rw [hz]
  exact (hp.scores_count (s.resFlagged n) n).of_posted

theorem svForceMeasure_ends (hres : ∀ n ∈ c.rcd.pmuList, tbit (s.resWord n 0) 16 = true) (hrun : s.romRuns g c 0x18 2 p = true)
    (hpoint : c.t 1 = 0) :
    ∃ t y vs, exec (.svForceMeasure g none p) s = .next t ∧ ServiceEnds t y g c vs ∧
      vs.getD 0 0 = c.t 2 + c.rcd.pmuList.length ∧ vs.getD 1 0 = c.t 3 + (c.rcd.pmuList.filter s.resFlagged).length ∧
      ∀ n, c.firstOf 4 (c.rcd.pmuList.filter s.resFlagged) = some n → vs.getD 2 0 = n := by
  obtain ⟨t, y, vs, hexec, hends, h0, h1, h2⟩ := countingSweep_ends (w := fun _ => 1) (bad := s.resFlagged) hrun
    (i := .svForceMeasure g none p) rfl rfl rfl rfl hres (by rw [hpoint]) rfl
    (fun _ n hy => (tallyFlag_scores hy n).addT 1) (addsAfter_none _)
  exact ⟨t, y, vs, hexec, hends, by simpa using h0, h1, h2⟩

/-- The last point of a sweep of posted results, each flagged one counted. -/
theorem sweepOf_ends {m op : Nat} {code : Nat → Nat} {i : Instr} {is : Nat → Bool} {f : Job → Job}
    (hexec : exec i s = .next (s.service g none p is f)) (hop : is op = true)
    (hf : f (s.newJob g c p) = (s.newJob g c p).sweepOf m code)
    (hres : ∀ n ∈ c.rcd.pmuList, tbit (s.resWord n 0) 16 = true) (hrun : s.romRuns g c op 2 p = true)
    (hlast : c.t 1 + 1 = m) (hpoints : c.t 2 = c.t 1) :
    ∃ t y vs, exec i s = .next t ∧ ServiceEnds t y g c vs ∧ vs.getD 0 0 = m ∧
      vs.getD 1 0 = c.t 3 + (c.rcd.pmuList.filter s.resFlagged).length ∧
      ∀ n, c.firstOf 4 (c.rcd.pmuList.filter s.resFlagged) = some n → vs.getD 2 0 = n := by
  obtain ⟨t, y, vs, ht, hends, h0, h1, h2⟩ := countingSweep_ends (w := fun _ => 0) (bad := s.resFlagged) hrun hexec hop hf
    rfl hres hlast rfl (fun _ n hy => tallyFlag_scores hy n) (addsAfter_addT _ 1)
  refine ⟨t, y, vs, ht, hends, ?_, h1, h2⟩
  rw [h0, hpoints, ← hlast]
  simp

theorem svSweep_ends (hres : ∀ n ∈ c.rcd.pmuList, tbit (s.resWord n 0) 16 = true) (hrun : s.romRuns g c 0x19 2 p = true)
    (hlast : c.t 1 + 1 = c.rcd.f 3 20 12) (hpoints : c.t 2 = c.t 1) :
    ∃ t y vs, exec (.svSweep g none p) s = .next t ∧ ServiceEnds t y g c vs ∧ vs.getD 0 0 = c.rcd.f 3 20 12 ∧
      vs.getD 1 0 = c.t 3 + (c.rcd.pmuList.filter s.resFlagged).length ∧
      ∀ n, c.firstOf 4 (c.rcd.pmuList.filter s.resFlagged) = some n → vs.getD 2 0 = n :=
  sweepOf_ends (i := .svSweep g none p) (f := svSweep) rfl rfl rfl hres hrun hlast hpoints

theorem svSweepLog_ends (hres : ∀ n ∈ c.rcd.pmuList, tbit (s.resWord n 0) 16 = true) (hrun : s.romRuns g c 0x1A 2 p = true)
    (hlast : c.t 1 + 1 = c.rcd.f 3 20 12) (hpoints : c.t 2 = c.t 1) :
    ∃ t y vs, exec (.svSweepLog g none p) s = .next t ∧ ServiceEnds t y g c vs ∧ vs.getD 0 0 = c.rcd.f 3 20 12 ∧
      vs.getD 1 0 = c.t 3 + (c.rcd.pmuList.filter s.resFlagged).length ∧
      ∀ n, c.firstOf 4 (c.rcd.pmuList.filter s.resFlagged) = some n → vs.getD 2 0 = n :=
  sweepOf_ends (i := .svSweepLog g none p) (f := svSweepLog) rfl rfl (svSweepLog.eq_1 _) hres hrun hlast hpoints

/-! ### SV_LEAKAGE, SV_VOH_IOH and SV_VOL_IOL -/

/-- PMU `n` leaks beyond the limit at one of the two points. -/
def State.leaks (s : State) (c : Ctx) (n : Nat) : Bool :=
  s.resComplete n && decide (c.rcd.f 3 0 24 < (s.resCode n).natAbs) || natBit (c.kept n) 1

theorem svLeakage_ends (hres : ∀ n ∈ c.rcd.pmuList, tbit (s.resWord n 0) 16 = true) (hrun : s.romRuns g c 0x1B 2 p = true)
    (hpoint : c.t 1 = 1) :
    ∃ t y vs, exec (.svLeakage g none p) s = .next t ∧ ServiceEnds t y g c vs ∧
      vs.getD 0 0 = c.t 2 + (c.rcd.pmuList.filter fun n => s.resComplete n && natBit (c.kept n) 0).length ∧
      vs.getD 1 0 = c.t 3 + (c.rcd.pmuList.filter (s.leaks c)).length ∧
      ∀ n, c.firstOf 4 (c.rcd.pmuList.filter (s.leaks c)) = some n → vs.getD 2 0 = n := by
  obtain ⟨t, y, vs, hexec, hends, h0, h1, h2⟩ := countingSweep_ends
    (w := fun n => bit (s.resComplete n && natBit (c.kept n) 0)) (bad := s.leaks c) hrun
    (i := .svLeakage g none p) rfl rfl rfl rfl hres (by rw [hpoint]) rfl (fun y n hy => by
      have hp := hy.posted true n
      simp only [hpoint, complete_of_tallied hp, code_of_tallied hp, kept_of_tallied hp, f_of_tallied hp, Nat.one_ne_zero, if_false]
      exact (hp.scores_both (s.resComplete n && natBit (c.kept n) 0) (s.leaks c n) n).of_posted)
    (addsAfter_none _)
  exact ⟨t, y, vs, hexec, hends, by rw [h0, sum_map_bit, Nat.add_zero], h1, h2⟩

/-- What the pad's voltage of PMU `n` is judged by: above or below the level code of the record. -/
def State.offLevel (s : State) (c : Ctx) (above : Bool) (n : Nat) : Bool :=
  s.resComplete n && if above then decide (125 * (c.rcd.f 2 0 16 : Int) - 1500000 < s.resCode n)
    else decide (s.resCode n < 125 * (c.rcd.f 2 0 16 : Int) - 1500000)

/-- The one point of a voltage compared with a level. -/
theorem outLevel_ends {above : Bool} {op : Nat} {i : Instr} {is : Nat → Bool} {f : Job → Job}
    (hexec : exec i s = .next (s.service g none p is f)) (hop : is op = true)
    (hf : f (s.newJob g c p) = (s.newJob g c p).outLevel above)
    (hres : ∀ n ∈ c.rcd.pmuList, tbit (s.resWord n 0) 16 = true) (hrun : s.romRuns g c op 2 p = true) (hpoint : c.t 1 = 0) :
    ∃ t y vs, exec i s = .next t ∧ ServiceEnds t y g c vs ∧ vs.getD 0 0 = c.t 2 + c.rcd.pmuList.length ∧
      vs.getD 1 0 = c.t 3 + (c.rcd.pmuList.filter (s.offLevel c above)).length ∧
      ∀ n, c.firstOf 4 (c.rcd.pmuList.filter (s.offLevel c above)) = some n → vs.getD 2 0 = n := by
  obtain ⟨t, y, vs, ht, hends, h0, h1, h2⟩ := countingSweep_ends (w := fun _ => 1) (bad := s.offLevel c above) hrun hexec hop hf
    rfl hres (by rw [hpoint]) rfl (fun y n hy => by
      have hlim : (-1500000 + 125 * ((s.newJob g c p).f 2 0 16 : Int)) = 125 * (c.rcd.f 2 0 16 : Int) - 1500000 :=
        neg_add_eq_sub ..
      simp only [Job.posted, hlim, complete_of_tallied hy, code_of_tallied hy, Bool.false_eq_true, if_false]
      exact hy.scores_both true (s.offLevel c above n) n)
    (addsAfter_none _)
  exact ⟨t, y, vs, ht, hends, by simpa using h0, h1, h2⟩

theorem svVohIoh_ends (hres : ∀ n ∈ c.rcd.pmuList, tbit (s.resWord n 0) 16 = true) (hrun : s.romRuns g c 0x1C 2 p = true)
    (hpoint : c.t 1 = 0) :
    ∃ t y vs, exec (.svVohIoh g none p) s = .next t ∧ ServiceEnds t y g c vs ∧ vs.getD 0 0 = c.t 2 + c.rcd.pmuList.length ∧
      vs.getD 1 0 = c.t 3 + (c.rcd.pmuList.filter (s.offLevel c false)).length ∧
      ∀ n, c.firstOf 4 (c.rcd.pmuList.filter (s.offLevel c false)) = some n → vs.getD 2 0 = n :=
  outLevel_ends (i := .svVohIoh g none p) (f := svVohIoh) rfl rfl rfl hres hrun hpoint

theorem svVolIol_ends (hres : ∀ n ∈ c.rcd.pmuList, tbit (s.resWord n 0) 16 = true) (hrun : s.romRuns g c 0x1D 2 p = true)
    (hpoint : c.t 1 = 0) :
    ∃ t y vs, exec (.svVolIol g none p) s = .next t ∧ ServiceEnds t y g c vs ∧ vs.getD 0 0 = c.t 2 + c.rcd.pmuList.length ∧
      vs.getD 1 0 = c.t 3 + (c.rcd.pmuList.filter (s.offLevel c true)).length ∧
      ∀ n, c.firstOf 4 (c.rcd.pmuList.filter (s.offLevel c true)) = some n → vs.getD 2 0 = n :=
  outLevel_ends (i := .svVolIol g none p) (f := svVolIol) rfl rfl rfl hres hrun hpoint

/-! ### SV_KELVIN -/

/-- The two readings of PMU `n` differ beyond the limit. -/
def State.senseApart (s : State) (c : Ctx) (n : Nat) : Bool :=
  c.kept n != 0x800000 && s.resComplete n && decide (c.rcd.f 2 0 24 < (s.resCode n - signed 24 (c.kept n)).natAbs)

/-- A sweep that only counts, in working value `i`, and remembers the first item in `k`. -/
theorem Sweep.final_counts {x : Sweep} {i k : Nat} {bad : Nat → Bool} (hi : i < 12) (hk : k < 12) (hik : i ≠ k)
    (hne : i ≠ 1 ∧ k ≠ 1)
    (hjudge : ∀ y n, (s.newJob g c p).Tallied y → x.judge (c.t 1) n (y.posted x.post n) = y.count (bad n) i k n)
    (hafter : ∀ y, x.after (c.t 1) y = y) :
    let z := x.final (s.newJob g c p)
    z.Runs ∧ z.c.rcd = c.rcd ∧ z.t i = c.t i + (x.pmus.filter bad).length ∧
      ∀ n, c.firstOf k (x.pmus.filter bad) = some n → z.t k = n + 1 := by
  obtain ⟨hj, hti, htk⟩ := each_counts (step := fun n y => x.judge (c.t 1) n (y.posted x.post n)) (i := i) (k := k) (bad := bad)
    (fun y n hy => by
      rw [hjudge y n hy]
      exact ⟨hy.count .., by simp [Job.t_count hy.runs, hi, hk, hik], by simp [Job.t_count hy.runs, hk, hik, hik.symm]⟩) x.pmus
  have hz : x.final (s.newJob g c p) = (x.judged (s.newJob g c p)).addT 1 1 :=
    (Sweep.final_of_runs (by exact hj.runs)).trans (congrArg (Job.addT · 1 1) (hafter _))
  have hj' : (s.newJob g c p).Tallied (x.judged (s.newJob g c p)) := hj
  intro z
  rw [show z = _ from hz]
  exact ⟨(hj'.addT 1 1).runs, (hj'.addT 1 1).rcd, by rw [Job.t_addT hj'.runs hi, if_neg hne.1]; exact hti,
    fun n hn => by rw [Job.t_addT hj'.runs hk, if_neg hne.2]; exact htk n hn⟩

theorem svKelvin_ends (hres : ∀ n ∈ c.rcd.pmuList, tbit (s.resWord n 0) 16 = true) (hrun : s.romRuns g c 0x13 2 p = true)
    (hpoint : c.t 1 = 1) :
    ∃ t y vs, exec (.svKelvin g none p) s = .next t ∧ ServiceEnds t y g c vs ∧
      vs.getD 0 0 = c.t 2 + (c.rcd.pmuList.filter (s.senseApart c)).length ∧
      ∀ n, c.firstOf 3 (c.rcd.pmuList.filter (s.senseApart c)) = some n → vs.getD 1 0 = n := by
  obtain ⟨t, y, z, ht, hends, -, h2, h3⟩ := sweep_endsOk hrun (i := .svKelvin g none p) rfl rfl rfl hres (by rw [hpoint])
    (Q := fun z => z.t 2 = c.t 2 + (c.rcd.pmuList.filter (s.senseApart c)).length ∧
      ∀ n, c.firstOf 3 (c.rcd.pmuList.filter (s.senseApart c)) = some n → z.t 3 = n + 1) (by
      refine Sweep.final_counts (by decide) (by decide) (by decide) (by decide) (fun y n hy => ?_) fun _ => rfl
      simp only [hpoint, Nat.one_ne_zero, if_false, Job.posted, Bool.false_eq_true, complete_of_tallied hy, code_of_tallied hy,
        kept_of_tallied hy, f_of_tallied hy]
      rfl)
  exact ⟨t, y, _, ht, hends, h2, fun n hn => Job.firstV_eq (h3 n hn)⟩

/-! ### SV_IDDQ -/

/-- A sequencer of the record's owner is no access fault. -/
theorem ownSeq_newJob {q : Nat} (h : s.ownerOf .seq q = c.rcd.owner) : (s.newJob g c p).ownSeq q = s.newJob g c p :=
  Job.need_true (beq_iff_eq.mpr ((congrArg (fld · 0 4) (rd_newJob s g c p .seq q Off.pgOwner)).trans h))

/-- The quiescent current of PMU `n` is beyond the limit. -/
def State.overIddq (s : State) (c : Ctx) (n : Nat) : Bool :=
  s.resComplete n && decide (c.rcd.f 2 0 24 < (s.resCode n).natAbs)

/-- The step of SV_IDDQ over the result of a PMU at state `k`. -/
def iddqJudge (k n : Nat) (y : Job) : Job :=
  if y.complete n && decide (y.f 2 0 24 < (y.code n).natAbs) then ((y.addT 3 1).first 4 n).first 5 k else y

/-- The step counts the PMU, and no register moves. -/
theorem iddqJudge_scores {y : Job} (hy : (s.newJob g c p).Tallied y) (k n : Nat) :
    (s.newJob g c p).Scores y (iddqJudge k n y) 0 (s.overIddq c n) n ∧ (iddqJudge k n y).s = y.s := by
  have hstep : iddqJudge k n y = if s.overIddq c n then ((y.addT 3 1).first 4 n).first 5 k else y := by
    rw [iddqJudge, complete_of_tallied hy, f_of_tallied hy, code_of_tallied hy]
    rfl
  rw [hstep]
  cases s.overIddq c n
  · exact ⟨hy.scores_count false n, rfl⟩
  · obtain ⟨hc, h2, h3, h4⟩ := hy.scores_count true n
    have ht := fun m (hm : m < 12) (hne : m ≠ 5) => Job.t_first hc.runs k hm hne
    exact ⟨⟨hc.first 5 k, (ht 2 (by decide) (by decide)).trans h2, (ht 3 (by decide) (by decide)).trans h3,
      (ht 4 (by decide) (by decide)).trans h4⟩, (Job.s_first ..).trans (y.s_count true 3 4 n)⟩

/-- The results of state `k` of SV_IDDQ counted: no register moves. -/
theorem iddq_judged (k : Nat) (l : List Nat) :
    let j1 := (s.newJob g c p).each l (iddqJudge k)
    (s.newJob g c p).Tallied j1 ∧ j1.s = (s.newJob g c p).s ∧ j1.t 2 = c.t 2 ∧
      j1.t 3 = c.t 3 + (l.filter (s.overIddq c)).length ∧
      ∀ n, c.firstOf 4 (l.filter (s.overIddq c)) = some n → j1.t 4 = n + 1 := by
  obtain ⟨hj, h2, h3, h4⟩ := each_scores (w := fun _ => 0) (fun _ n hy => (iddqJudge_scores hy k n).1) l
  obtain ⟨-, hs⟩ := Job.each_keeps (P := fun y => (s.newJob g c p).Tallied y ∧ y.s = (s.newJob g c p).s)
    (fun n y ⟨hy, hs⟩ => ⟨(iddqJudge_scores hy k n).1.tallied, (iddqJudge_scores hy k n).2.trans hs⟩) l
    ⟨.refl (runs_newJob s g c p), rfl⟩
  exact ⟨hj, hs, by simpa using h2, h3, h4⟩

/-- State `k` of SV_IDDQ over the PMUs `l`: its results, and its flag of sequencer `q`. -/
def Job.iddqState (j : Job) (k q : Nat) (l : List Nat) : Job :=
  let y := j.each l (iddqJudge k)
  (y.addT 2 1).wr .seq q Off.seqSwflag ((y.s.rd .seq q Off.seqSwflag).toNat ||| 2 ^ y.f 3 8 3)

/-- A state of SV_IDDQ makes its counts and one write. -/
theorem iddqState_shows (k q : Nat) (l : List Nat) :
    let a := PageKind.seq.base q + Off.seqSwflag
    let v := word ((s.rd .seq q Off.seqSwflag).toNat ||| 2 ^ c.rcd.f 3 8 3)
    let x := s.reach15 c.rcd.op p.addr.toNat
    let z := (s.newJob g c p).iddqState k q l
    x.takes (.groom g) a v = true →
    z.Runs ∧ z.c.rcd = c.rcd ∧ z.s = x.write32 (.groom g) a v ∧ z.t 2 = c.t 2 + 1 ∧
      z.t 3 = c.t 3 + (l.filter (s.overIddq c)).length ∧
      ∀ n, c.firstOf 4 (l.filter (s.overIddq c)) = some n → z.t 4 = n + 1 := by
  intro a v x z htakes
  obtain ⟨hj, hs, h2, h3, h4⟩ := iddq_judged (s := s) (g := g) (c := c) (p := p) k l
  have hadd := hj.addT 2 1
  have hgo : (((s.newJob g c p).each l (iddqJudge k)).addT 2 1).GoesOn c.rcd g x :=
    ⟨hadd.runs, hadd.rcd, hadd.groom, (Job.s_setT ..).trans hs⟩
  have hz : z = (((s.newJob g c p).each l (iddqJudge k)).addT 2 1).wr .seq q Off.seqSwflag
      ((s.rd .seq q Off.seqSwflag).toNat ||| 2 ^ c.rcd.f 3 8 3) := by
    simp only [z, Job.iddqState, hs, rd_newJob, f_of_tallied hj]
  obtain ⟨hruns, hrcd, -, hstate⟩ := hgo.wr htakes
  have ht := fun m (hm : m < 12) => (hgo.t_wr htakes m).trans (Job.t_addT hj.runs hm)
  rw [hz]
  exact ⟨hruns, hrcd, hstate, (ht 2 (by decide)).trans (by rw [if_pos rfl, h2]), (ht 3 (by decide)).trans h3,
    fun n hn => (ht 4 (by decide)).trans (h4 n hn)⟩

theorem svIddq_ends (hres : ∀ n ∈ c.rcd.pmuList, tbit (s.resWord n 0) 16 = true) (hrun : s.romRuns g c 0x1E 2 p = true)
    (hown : s.ownerOf .seq (c.rcd.f 3 0 3) = c.rcd.owner) (hlast : c.t 1 + 1 = c.rcd.f 4 16 16) (hstates : c.t 2 = c.t 1) :
    let a := PageKind.seq.base (c.rcd.f 3 0 3) + Off.seqSwflag
    let v := word ((s.rd .seq (c.rcd.f 3 0 3) Off.seqSwflag).toNat ||| 2 ^ c.rcd.f 3 8 3)
    let x := s.reach15 c.rcd.op p.addr.toNat
    x.takes (.groom g) a v = true →
    ∃ t y vs, exec (.svIddq g none p) s = .next t ∧ ServiceEnds t y g c vs ∧ vs.getD 0 0 = c.rcd.f 4 16 16 ∧
      vs.getD 1 0 = c.t 3 + (c.rcd.pmuList.filter (s.overIddq c)).length ∧
      (∀ n, c.firstOf 4 (c.rcd.pmuList.filter (s.overIddq c)) = some n → vs.getD 2 0 = n) ∧
      y.regs = (x.write32 (.groom g) a v).regs := by
  intro a v x htakes
  obtain ⟨t, y, z, ht, hends, hregs, h2, h3, h4, hs⟩ := sweep_endsOk hrun (i := .svIddq g none p) rfl rfl
    (congrArg (Job.sweep · _) (ownSeq_newJob hown)) hres hlast
    (Q := fun z => z.t 2 = c.t 2 + 1 ∧ z.t 3 = c.t 3 + (c.rcd.pmuList.filter (s.overIddq c)).length ∧
      (∀ n, c.firstOf 4 (c.rcd.pmuList.filter (s.overIddq c)) = some n → z.t 4 = n + 1) ∧ z.s = x.write32 (.groom g) a v) (by
      obtain ⟨hruns, hrcd, hstate, h2, h3, h4⟩ := iddqState_shows (c.t 1) (c.rcd.f 3 0 3) c.rcd.pmuList htakes
      have ht := fun m (hm : m < 12) => Job.t_addT hruns (i := 1) (v := 1) hm
      have hadd := (Job.Tallied.refl hruns).addT 1 1
      rw [Sweep.final_of_runs (by exact (iddq_judged (c.t 1) c.rcd.pmuList).1.runs)]
      exact ⟨hadd.runs, hadd.rcd.trans hrcd, (ht 2 (by decide)).trans h2, (ht 3 (by decide)).trans h3,
        fun n hn => (ht 4 (by decide)).trans (h4 n hn), (Job.s_setT ..).trans hstate⟩)
  exact ⟨t, y, _, ht, hends, by rw [List.getD_cons_zero, h2, hstates, hlast], h3, fun n hn => Job.firstV_eq (h4 n hn),
    hregs.trans (congrArg State.regs hs)⟩

/-! ### SV_SUPPLY_RAMP and SV_GANG_SUPPLY -/

/-- A ramp whose steps are all made and due ends with its words. -/
theorem ramp_done {j : Job} (hstage : j.c.stage = 1) (hsteps : 0 < j.a 2) (hmade : j.t 2 = j.a 2)
    (hdue : j.a 2 * 3200 ≤ j.s.now - j.t 0) (l : List Nat) (ready : Job → Job) (words : Job → List Nat) :
    j.ramp l ready words = ((j.setT 2 (j.a 2)).vals (words (j.setT 2 (j.a 2)))).fail svOk := by
  have hmin : min (j.a 2) ((j.s.now - j.t 0) / 3200) = j.a 2 := Nat.min_eq_left ((Nat.le_div_iff_mul_le (by decide)).mpr hdue)
  unfold Job.ramp
  simp [hstage, hmin, hmade, hsteps.ne', Job.each]

theorem flagsOf_newJob (y : Job) (hs : y.s = (s.newJob g c p).s) (n : Nat) :
    y.flagsOf n = (s.rd .pmu (n / 4) (Off.pmuFlags (n % 4))).toNat := by
  rw [Job.flagsOf, hs, rd_newJob]

theorem atTarget_newJob (y : Job) (hs : y.s = (s.newJob g c p).s) (n code : Nat) :
    y.atTarget n code = (s.rf .pmu (n / 4) (Off.pmuForce (n % 4)) 0 18 == code && s.rb .pmu (n / 4) (Off.pmuCtrl (n % 4)) 0) := by
  simp only [Job.atTarget, hs, State.rf, State.rb, rd_newJob]

/-- A ramp whose steps are all made and due ends its service. -/
theorem ramp_ends {op : Nat} (hrun : s.romRuns g c op 1 p = true) {i : Instr} {is : Nat → Bool} {f : Job → Job}
    (hexec : exec i s = .next (s.service g none p is f)) (hop : is op = true) {l : List Nat} {ready : Job → Job}
    {words : Job → List Nat} (hf : f (s.newJob g c p) = (s.newJob g c p).ramp l ready words)
    (hsteps : 0 < c.rcd.p 2) (hmade : c.t 2 = c.rcd.p 2) (hdue : c.rcd.p 2 * 3200 ≤ s.now - c.t 0) :
    ∃ t y z, exec i s = .next t ∧ ServiceEnds t y g c (words z) ∧ z.s = (s.newJob g c p).s := by
  have hj := runs_newJob s g c p
  have hset := (Job.Tallied.refl hj).setT 2 (c.rcd.p 2)
  have hstage : (s.newJob g c p).c.stage = 1 := romRuns_stage hrun
  have hnow : s.now = (s.newJob g c p).s.now := (now_reach15 ..).symm
  rw [hnow] at hdue
  obtain ⟨t, y, ht, hends, -⟩ := service_endsOk hrun hexec hop (by
    rw [hf, ramp_done hstage hsteps hmade hdue]
    exact (Job.endsOk_vals hset.runs hset.rcd _).1)
  exact ⟨t, y, _, ht, hends, Job.s_setT ..⟩

/-- The flags of PMU `n`, as its page holds them. -/
def State.pmuFlagsWord (s : State) (n : Nat) : Nat := (s.rd .pmu (n / 4) (Off.pmuFlags (n % 4))).toNat

/-- PMU `n` is live at the force code of the record. -/
def State.pmuThere (s : State) (c : Ctx) (n : Nat) : Bool :=
  s.rf .pmu (n / 4) (Off.pmuForce (n % 4)) 0 18 == c.rcd.f 1 0 18 && s.rb .pmu (n / 4) (Off.pmuCtrl (n % 4)) 0

theorem svSupplyRamp_ends (hsteps : 0 < c.rcd.p 2) (hmade : c.t 2 = c.rcd.p 2) (hdue : c.rcd.p 2 * 3200 ≤ s.now - c.t 0)
    (hrun : s.romRuns g c 0x1F 1 p = true) :
    ∃ t y vs, exec (.svSupplyRamp g none p) s = .next t ∧ ServiceEnds t y g c vs ∧
      vs.getD 0 0 = (c.rcd.pmuList.filter (s.pmuThere c)).length ∧
      vs.getD 1 0 = c.rcd.pmuList.foldl (fun a n => a ||| s.pmuFlagsWord n) 0 ∧
      ∀ n, (c.rcd.pmuList.filter fun n => natBit (s.pmuFlagsWord n) 3).head? = some n → vs.getD 2 0 = n := by
  obtain ⟨t, y, z, ht, hends, hz⟩ := ramp_ends hrun (i := .svSupplyRamp g none p) rfl rfl (svSupplyRamp.eq_1 _)
    hsteps hmade hdue
  simp only [flagsOf_newJob z hz, atTarget_newJob z hz] at hends
  refine ⟨t, y, _, ht, hends, rfl, rfl, fun n hn => ?_⟩
  rw [List.getD_cons_succ, List.getD_cons_succ, List.getD_cons_zero, List.headD_eq_head?_getD]
  exact congrArg (Option.getD · _) hn

theorem svGangSupply_ends (hsteps : 0 < c.rcd.p 2) (hmade : c.t 2 = c.rcd.p 2) (hdue : c.rcd.p 2 * 3200 ≤ s.now - c.t 0)
    (hrun : s.romRuns g c 0x20 1 p = true) :
    let gangs := (List.range' (c.rcd.f 0 0 7) (c.rcd.f 0 8 7 + 1 - c.rcd.f 0 0 7)).map (4 * ·)
    ∃ t y vs, exec (.svGangSupply g none p) s = .next t ∧ ServiceEnds t y g c vs ∧
      vs.getD 0 0 = (gangs.filter (s.pmuThere c)).length ∧ vs.getD 1 0 = gangs.foldl (fun a n => a ||| s.pmuFlagsWord n) 0 := by
  obtain ⟨t, y, z, ht, hends, hz⟩ := ramp_ends hrun (i := .svGangSupply g none p) rfl rfl (svGangSupply.eq_1 _)
    hsteps hmade hdue
  simp only [flagsOf_newJob z hz, atTarget_newJob z hz] at hends
  exact ⟨t, y, _, ht, hends, rfl, rfl⟩

/-! ### SV_WAVE_START and SV_WAVE_STOP -/

theorem pmuList_of_selects {st : Fin 128} {u : Fin 4} (h : c.rcd.selects st (2 ^ u.val) 4 = true) :
    c.rcd.pmuList = [4 * st.val + u.val] := by
  unfold Record.selects at h
  simp only [Bool.and_eq_true, decide_eq_true_eq] at h
  obtain ⟨⟨hfirst, hlast⟩, hmask⟩ := h
  have hones : ∀ u : Fin 4, onesOf (2 ^ u.val) 4 = [u.val] := by decide
  rw [Record.pmuList, hfirst, hlast, hmask, hones, Nat.add_sub_cancel_left]
  rfl

/-- The one stall that a record selects is of its owner. -/
theorem ownStalls_newJob {st : Fin 128} {m n : Nat} (h : c.rcd.selects st m n = true) (hown : s.ownerOf .stl st = c.rcd.owner) :
    (s.newJob g c p).ownStalls 0 = s.newJob g c p := by
  unfold Record.selects at h
  simp only [Bool.and_eq_true, decide_eq_true_eq] at h
  obtain ⟨⟨hfirst, hlast⟩, -⟩ := h
  have hstalls : (s.newJob g c p).stalls 0 = [st.val] := by
    change List.range' (c.rcd.f 0 0 7) (c.rcd.f 0 8 7 + 1 - c.rcd.f 0 0 7) = _
    rw [hfirst, hlast, Nat.add_sub_cancel_left]
    rfl
  refine Job.need_true ?_
  rw [hstalls]
  simp only [List.all_cons, List.all_nil, Bool.and_true, beq_iff_eq]
  exact (congrArg (fld · 0 4) (rd_newJob s g c p .stl st Off.pgOwner)).trans hown

/-- A stage over the one PMU that a record selects. -/
theorem each_enumerate_one {j : Job} (hj : j.Runs) (n : Nat) (f : Nat × Nat → Job → Job) :
    j.each (enumerate [n]) f = f (0, n) j :=
  Job.bind_of_runs hj _

section
variable {st : Fin 128} {u : Fin 4}

theorem pmu_stall : (4 * st.val + u.val) / 4 = st.val := by omega

theorem pmu_unit : (4 * st.val + u.val) % 4 = u.val := by omega

/-- The settings of a wave that starts. -/
def Record.waveWord (r : Record) : Nat :=
  pack [(0, 17, r.f 2 0 17), (20, 1, 1), (21, 1, r.f 3 16 1), (24, 3, r.f 3 24 3), (28, 3, r.f 3 28 3)]

/-- The stage of SV_WAVE_START for the one PMU that a record selects. -/
theorem svWaveStart_one (hsel : c.rcd.selects st (2 ^ u.val) 4 = true) (hown : s.ownerOf .stl st = c.rcd.owner)
    (hseq : s.ownerOf .seq (c.rcd.f 3 24 3) = c.rcd.owner) :
    svWaveStart (s.newJob g c p) =
      (((((s.newJob g c p).wr .pmu st (Off.pmuFreq u) (c.rcd.p 1)).wr .pmu st (Off.pmuPhase u) (c.rcd.f 3 0 12)).wr .pmu st
        (Off.pmuWave u) c.rcd.waveWord).vals [1]).fail svOk := by
  have hpmus : (s.newJob g c p).pmus = [4 * st.val + u.val] := pmuList_of_selects hsel
  have hseq' : (s.newJob g c p).ownSeq ((s.newJob g c p).f 3 24 3) = s.newJob g c p := ownSeq_newJob hseq
  unfold svWaveStart
  rw [ownStalls_newJob hsel hown, hseq', hpmus]
  simp only [each_enumerate_one (runs_newJob s g c p), pmu_stall, pmu_unit, List.isEmpty_cons, Bool.false_eq_true, if_false]
  rfl

theorem svWaveStart_ends (hsel : c.rcd.selects st (2 ^ u.val) 4 = true) (hown : s.ownerOf .stl st = c.rcd.owner)
    (hrun : s.romRuns g c 0x21 0 p = true) (hseq : s.ownerOf .seq (c.rcd.f 3 24 3) = c.rcd.owner) :
    let v1 := word (c.rcd.p 1)
    let v2 := word (c.rcd.f 3 0 12)
    let v3 := word c.rcd.waveWord
    let x := s.reach15 c.rcd.op p.addr.toNat
    let x1 := x.write32 (.groom g) (PageKind.pmu.base st + Off.pmuFreq u) v1
    let x2 := x1.write32 (.groom g) (PageKind.pmu.base st + Off.pmuPhase u) v2
    x.takes (.groom g) (PageKind.pmu.base st + Off.pmuFreq u) v1 = true →
    x1.takes (.groom g) (PageKind.pmu.base st + Off.pmuPhase u) v2 = true →
    x2.takes (.groom g) (PageKind.pmu.base st + Off.pmuWave u) v3 = true →
    ∃ t y, exec (.svWaveStart g none p) s = .next t ∧ ServiceEnds t y g c [1] ∧
      y.regs = (x2.write32 (.groom g) (PageKind.pmu.base st + Off.pmuWave u) v3).regs := by
  intro v1 v2 v3 x x1 x2 h1 h2 h3
  obtain ⟨hends, hs⟩ := ((((goesOn_newJob s g c p).wr h1).wr h2).wr h3).ends [1]
  rw [← svWaveStart_one hsel hown hseq] at hends hs
  obtain ⟨t, y, ht, hserv, hregs⟩ := service_endsOk hrun (i := .svWaveStart g none p) rfl rfl hends
  exact ⟨t, y, ht, hserv, hregs.trans (congrArg State.regs hs)⟩

/-- The stage of SV_WAVE_STOP for the one PMU that a record selects. -/
theorem svWaveStop_one (hsel : c.rcd.selects st (2 ^ u.val) 4 = true) (hown : s.ownerOf .stl st = c.rcd.owner) :
    svWaveStop (s.newJob g c p) = (((s.newJob g c p).waveOff (4 * st.val + u.val)).vals [1]).fail svOk := by
  have hpmus : (s.newJob g c p).pmus = [4 * st.val + u.val] := pmuList_of_selects hsel
  unfold svWaveStop
  rw [ownStalls_newJob hsel hown, hpmus, each_enumerate_one (runs_newJob s g c p)]
  rfl

theorem svWaveStop_live (hsel : c.rcd.selects st (2 ^ u.val) 4 = true) (hown : s.ownerOf .stl st = c.rcd.owner)
    (hrun : s.romRuns g c 0x22 0 p = true) (hen : s.rb .pmu st (Off.pmuWave u) 20 = true) :
    let x := s.reach15 c.rcd.op p.addr.toNat
    let off := putBit (s.rd .pmu st (Off.pmuWave u)) 20 false
    x.takes (.groom g) (PageKind.pmu.base st + Off.pmuWave u) off = true →
    ∃ t y, exec (.svWaveStop g none p) s = .next t ∧ ServiceEnds t y g c [1] ∧
      y.regs = (x.write32 (.groom g) (PageKind.pmu.base st + Off.pmuWave u) off).regs := by
  intro x off htakes
  have hoff : (s.newJob g c p).waveOff (4 * st.val + u.val) = (s.newJob g c p).wr .pmu st (Off.pmuWave u) off.toNat := by
    unfold Job.waveOff
    simp only [pmu_stall, pmu_unit, State.rb, rd_newJob] at hen ⊢
    rw [if_neg (by simp [hen])]
  rw [← word_toNat off] at htakes ⊢
  obtain ⟨hends, hs⟩ := ((goesOn_newJob s g c p).wr htakes).ends [1]
  rw [← hoff, ← svWaveStop_one hsel hown] at hends hs
  obtain ⟨t, y, ht, hserv, hregs⟩ := service_endsOk hrun (i := .svWaveStop g none p) rfl rfl hends
  exact ⟨t, y, ht, hserv, hregs.trans (congrArg State.regs hs)⟩

theorem svWaveStop_idle (hsel : c.rcd.selects st (2 ^ u.val) 4 = true) (hown : s.ownerOf .stl st = c.rcd.owner)
    (hrun : s.romRuns g c 0x22 0 p = true) (hen : s.rb .pmu st (Off.pmuWave u) 20 = false) :
    ∃ t y, exec (.svWaveStop g none p) s = .next t ∧ ServiceEnds t y g c [1] ∧ y.regs = s.regs := by
  have hoff : (s.newJob g c p).waveOff (4 * st.val + u.val) = s.newJob g c p := by
    unfold Job.waveOff
    simp only [pmu_stall, pmu_unit, State.rb, rd_newJob] at hen ⊢
    rw [if_pos hen]
  obtain ⟨hends, hs⟩ := (goesOn_newJob s g c p).ends [1]
  rw [← hoff, ← svWaveStop_one hsel hown] at hends hs
  obtain ⟨t, y, ht, hserv, hregs⟩ := service_endsOk hrun (i := .svWaveStop g none p) rfl rfl hends
  exact ⟨t, y, ht, hserv, (hregs.trans (congrArg State.regs hs)).trans (regs_reach15 ..)⟩

end

/-! ### SV_CNV_BATCH -/

/-- The step of SV_CNV_BATCH over the result of a PMU. -/
def cnvJudge (n : Nat) (y : Job) : Job :=
  let y1 := y.posted (y.b 4 0) n
  (y1.addT 3 (bit (tbit (y1.res n 0) 17))).addT 4 (bit (tbit (y1.res n 0) 18))

/-- The results of one round of conversions counted, and the round. -/
def Job.cnvRound (j : Job) : Job := (j.each j.pmus cnvJudge).addT 1 1

/-- CNV_DROPPED of the converters of a list, summed. -/
def State.cnvDrops (s : State) (l : List Nat) : Nat :=
  l.foldl (fun a n => a + s.rf .cnv (n / 4) (Off.cnvDropped (n % 4)) 0 16) 0

/-- The result words of SV_CNV_BATCH. -/
def Job.cnvWords (j : Job) (l : List Nat) : List Nat := [j.t 1 * l.length, j.t 3, j.t 4, j.s.cnvDrops l]

/-- The last round of SV_CNV_BATCH. -/
theorem svCnvBatch_last {j : Job} {l : List Nat} (hl : j.pmus = l) (hstage : j.c.stage = 1) (hconv : j.converted l = true)
    (hlast : j.cnvRound.t 1 = j.f 1 0 16) :
    svCnvBatch j = (j.cnvRound.vals (j.cnvRound.cnvWords l)).fail svOk := by
  subst hl
  unfold svCnvBatch
  simp only [hstage, hconv, Nat.one_ne_zero, if_false, if_true]
  exact if_pos hlast

theorem cnvJudge_adds {y : Job} (hy : (s.newJob g c p).Tallied y) (n : Nat) :
    (s.newJob g c p).Tallied (cnvJudge n y) ∧ (cnvJudge n y).t 1 = y.t 1 + 0 ∧
      (cnvJudge n y).t 3 = y.t 3 + bit (tbit (s.resWord n 0) 17) ∧
      (cnvJudge n y).t 4 = y.t 4 + bit (tbit (s.resWord n 0) 18) := by
  have hp := hy.posted (y.b 4 0) n
  have h3 := hp.addT 3 (bit (tbit (s.resWord n 0) 17))
  simp only [cnvJudge, res_of_tallied hp]
  exact ⟨h3.addT 4 _, by simp [Job.t_addT h3.runs, Job.t_addT hp.runs, Job.t_posted]⟩

theorem cnvRound_counts :
    let z := (s.newJob g c p).cnvRound
    (s.newJob g c p).Tallied z ∧ z.t 1 = c.t 1 + 1 ∧
      z.t 3 = c.t 3 + (c.rcd.pmuList.filter fun n => tbit (s.resWord n 0) 17).length ∧
      z.t 4 = c.t 4 + (c.rcd.pmuList.filter fun n => tbit (s.resWord n 0) 18).length := by
  have hj := Job.Tallied.refl (runs_newJob s g c p)
  have h1 := Job.each_adds (w := fun _ => 0)
    (fun _ n hy => let ⟨ht, h1, _⟩ := cnvJudge_adds hy n; ⟨ht, h1⟩) c.rcd.pmuList _ hj
  have h3 := Job.each_adds (fun _ n hy => let ⟨ht, _, h3, _⟩ := cnvJudge_adds hy n; ⟨ht, h3⟩) c.rcd.pmuList _ hj
  have h4 := Job.each_adds (fun _ n hy => let ⟨ht, _, _, h4⟩ := cnvJudge_adds hy n; ⟨ht, h4⟩) c.rcd.pmuList _ hj
  have ht := Job.each_keeps (P := (s.newJob g c p).Tallied) (fun n _ hy => (cnvJudge_adds hy n).1) c.rcd.pmuList hj
  have hadd := fun k (hk : k < 12) => Job.t_addT ht.runs (i := 1) (v := 1) hk
  rw [List.map_const', List.sum_replicate, smul_zero] at h1
  rw [sum_map_bit] at h3 h4
  exact ⟨ht.addT 1 1, (hadd 1 (by decide)).trans (congrArg (· + 1) h1), (hadd 3 (by decide)).trans h3,
    (hadd 4 (by decide)).trans h4⟩

theorem svCnvBatch_ends (hres : ∀ n ∈ c.rcd.pmuList, tbit (s.resWord n 0) 16 = true) (hrun : s.romRuns g c 0x23 1 p = true)
    (hlast : c.t 1 + 1 = c.rcd.f 1 0 16) :
    let l := c.rcd.pmuList
    ∃ t y, exec (.svCnvBatch g none p) s = .next t ∧
      ServiceEnds t y g c [c.rcd.f 1 0 16 * l.length, c.t 3 + (l.filter fun n => tbit (s.resWord n 0) 17).length,
        c.t 4 + (l.filter fun n => tbit (s.resWord n 0) 18).length, s.cnvDrops l] := by
  intro l
  obtain ⟨hz, h1, h3, h4⟩ := cnvRound_counts (s := s) (g := g) (c := c) (p := p)
  rw [hlast] at h1
  have hdrops : (s.newJob g c p).cnvRound.s.cnvDrops l = s.cnvDrops l := by
    simp only [State.cnvDrops, State.rf, hz.cnv, rd_newJob]
  have hlist : (s.newJob g c p).pmus = l := rfl
  have hround : (s.newJob g c p).f 1 0 16 = c.rcd.f 1 0 16 := rfl
  have hlastRound := svCnvBatch_last hlist (romRuns_stage hrun) (converted_of_results hres) (h1.trans hround.symm)
  obtain ⟨hends, -⟩ := Job.endsOk_vals hz.runs hz.rcd ((s.newJob g c p).cnvRound.cnvWords l)
  rw [← hlastRound] at hends
  obtain ⟨t, y, hexec, hserv, -⟩ := service_endsOk hrun (i := .svCnvBatch g none p) rfl rfl hends
  rw [Job.cnvWords, h1, h3, h4, hdrops] at hserv
  exact ⟨t, y, hexec, hserv⟩

/-! ### SV_ACQ_RECORD -/

theorem svAcqRecord_ends (hrun : s.romRuns g c 0x24 1 p = true) (hidle : s.acqState (c.rcd.f 0 0 3) = aIdle) :
    let b := c.rcd.f 0 0 3
    ∃ t y, exec (.svAcqRecord g none p) s = .next t ∧
      ServiceEnds t y g c [(s.acq b).done, (s.rd .acq b Off.acqMissed).toNat, (s.rd .acq b (Off.acqRes 0)).toNat] := by
  intro b
  have hj := runs_newJob s g c p
  have hstage : (s.newJob g c p).c.stage = 1 := romRuns_stage hrun
  have hacq : (s.newJob g c p).s.acq b = s.acq b := congrArg (Store.getD _ · b) (acqs_reach15 ..)
  have hb : (s.newJob g c p).f 0 0 3 = b := rfl
  have hidle' : (s.newJob g c p).s.acqState b = aIdle := (congrArg (fld · 0 2) (rd_newJob ..)).trans hidle
  obtain ⟨t, y, ht, hends, -⟩ := service_endsOk hrun (i := .svAcqRecord g none p) rfl rfl (f := svAcqRecord)
    (vs := [(s.acq b).done, (s.rd .acq b Off.acqMissed).toNat, (s.rd .acq b (Off.acqRes 0)).toNat]) (by
    unfold svAcqRecord
    simp only [hstage, hb, hacq, rd_newJob, hidle', Job.await, Nat.one_ne_zero, if_false, beq_self_eq_true, if_true]
    rw [Job.bind_of_runs (by rw [Job.vals_of_runs hj]; exact hj)]
    exact (Job.endsOk_vals hj rfl _).1)
  exact ⟨t, y, ht, hends⟩

/-! ### SV_PMU_SAFE -/

theorem svPmuSafe_ends (hrun : s.romRuns g c 0x27 1 p = true) (hlast : c.rcd.f 0 0 7 + c.t 1 = c.rcd.f 0 8 7)
    (hover : s.rb .swm (c.rcd.f 0 8 7) Off.swmResult 16 = true) :
    ∃ t y, exec (.svPmuSafe g none p) s = .next t ∧ ServiceEnds t y g c [(c.t 1 + 1) * popCount (c.rcd.f 0 16 4) 4] := by
  have hj := runs_newJob s g c p
  have hstage : (s.newJob g c p).c.stage = 1 := romRuns_stage hrun
  have hstalls : (s.newJob g c p).stalls 0 = List.range' (c.rcd.f 0 0 7) (c.t 1 + 1) := by
    change List.range' (c.rcd.f 0 0 7) (c.rcd.f 0 8 7 + 1 - c.rcd.f 0 0 7) = _
    rw [← hlast, Nat.add_assoc, Nat.add_sub_cancel_left]
  have hstall : ((s.newJob g c p).stalls 0).getD ((s.newJob g c p).t 1) 0 = c.rcd.f 0 8 7 := by
    rw [hstalls, List.getD_eq_getElem _ _ (by rw [List.length_range']; exact Nat.lt_succ_self _), List.getElem_range', Nat.one_mul]
    exact hlast
  have hdone : (s.newJob g c p).batchOver (c.rcd.f 0 8 7) = true := (congrArg (tbit · 16) (rd_newJob ..)).trans hover
  have ht1 : ((s.newJob g c p).addT 1 1).t 1 = c.t 1 + 1 := Job.t_addT hj (by decide)
  have hadd := (Job.Tallied.refl hj).addT 1 1
  have hlen : ((s.newJob g c p).stalls 0).length = c.t 1 + 1 := by rw [hstalls, List.length_range']
  obtain ⟨t, y, ht, hends, -⟩ := service_endsOk hrun (i := .svPmuSafe g none p) rfl rfl (f := svPmuSafe)
    (vs := [(c.t 1 + 1) * popCount (c.rcd.f 0 16 4) 4]) (by
    unfold svPmuSafe
    simp only [hstage, hstall, hdone, ht1, hlen, Nat.one_ne_zero, if_false, if_true]
    exact (Job.endsOk_vals hadd.runs hadd.rcd _).1)
  exact ⟨t, y, ht, hends⟩

end

/-- Settles O38: each service by its own lemma above. -/
theorem forcingAndConverterServicesAnswer : Obligations.ForcingAndConverterServicesAnswer := by
  unfold Obligations.ForcingAndConverterServicesAnswer
  exact ⟨fun _ _ _ _ hres => ⟨svForceMeasure_ends hres, svSweep_ends hres, svSweepLog_ends hres⟩,
    fun _ _ _ _ hres => ⟨svLeakage_ends hres, svVohIoh_ends hres, svVolIol_ends hres, svKelvin_ends hres⟩,
    fun _ _ _ _ => svIddq_ends,
    fun _ _ _ _ hsteps hmade hdue => ⟨svSupplyRamp_ends hsteps hmade hdue, svGangSupply_ends hsteps hmade hdue⟩,
    fun _ _ _ _ _ _ hsel hown =>
      ⟨svWaveStart_ends hsel hown, fun hrun => ⟨svWaveStop_live hsel hown hrun, svWaveStop_idle hsel hown hrun⟩⟩,
    fun _ _ _ _ => svCnvBatch_ends, fun _ _ _ _ => svAcqRecord_ends, fun _ _ _ _ => svPmuSafe_ends⟩

end Sys2Proof.Machine

/-!
PROOF. What acquisition engines leave alone: a view of the state that none of the moves of an engine changes (its own record, free
values, the ACQ and HBM pages, entries) is the same after every operation of an engine on a stream.
-/

namespace Sys2Proof.Machine

/-- No move of an acquisition engine changes what `view` shows of the state. -/
structure State.AcqFree {α : Type} (view : State → α) : Prop where
  setAcq : ∀ (s : State) (b : Nat) (v : AcqSt), view (s.setAcq b v) = view s
  useFree : ∀ s : State, view s.useFree = view s
  wr : ∀ (s : State) {k : PageKind} (i o : Nat) (v : Word), k = .acq ∨ k = .hbm → view (s.wr k i o v) = view s
  event : ∀ (s : State) {k : PageKind} (i n : Nat), k = .acq ∨ k = .hbm → view (s.event k i n) = view s
  offer : ∀ (s : State) (n b : Nat) (wait : Bool) (ty body : Nat), view (s.offer n (.acq b) wait ty body).1 = view s

theorem view_foldl {α β : Type} {view : State → α} {f : State → β → State} (hf : ∀ x a, view (f x a) = view x) (s : State)
    (l : List β) : view (l.foldl f s) = view s :=
  foldl_keeps (fun x => view x = view s) (fun x a hx => (hf x a).trans hx) l rfl

namespace State.AcqFree

section
variable {α : Type} {view : State → α} (h : State.AcqFree view) (s : State)
include h

theorem acqWr (i o : Nat) (v : Word) : view (s.wr .acq i o v) = view s := h.wr s i o v (.inl rfl)
theorem acqWr2 (i lo hi v : Nat) : view (s.wr2 .acq i lo hi v) = view s := (h.acqWr _ i hi _).trans (h.acqWr s i lo _)

/-! ### The port, the record and its entries -/

theorem portPanic (b : Nat) : view (s.portPanic b) = view s := by
  unfold State.portPanic
  split
  · rfl
  · exact (h.event _ _ _ (.inr rfl)).trans ((h.wr _ _ _ _ (.inr rfl)).trans (h.wr s _ _ _ (.inr rfl)))

theorem portCalm (b : Nat) : view (s.portCalm b) = view s := h.wr s _ _ _ (.inr rfl)

theorem acqIdle (b : Nat) : view (s.acqIdle b) = view s := by
  refine (h.acqWr _ _ _ _).trans ((h.acqWr _ _ _ _).trans ?_)
  unfold State.acqDrained
  dsimp only
  split
  · exact (h.portCalm _ _).trans (h.setAcq s b _)
  · exact h.setAcq s b _

theorem acqStore (b : Nat) (r : AcqRec) : view (s.acqStore b r) = view s :=
  (h.setAcq _ b _).trans ((h.acqWr2 _ _ _ _ _).trans ((h.acqWr _ _ _ _).trans ((h.acqWr _ _ _ _).trans
    ((h.acqWr _ _ _ _).trans (h.acqWr s _ _ _)))))

theorem acqRelease (b n : Nat) : view (s.acqRelease b n) = view s := by
  unfold State.acqRelease
  split
  · rfl
  · exact h.setAcq s b _

theorem acqPort (b : Nat) : view (s.acqPort b) = view s := by
  unfold State.acqPort
  extract_lets a held s1
  have hs1 : view s1 = view s := (h.setAcq _ b _).trans (h.useFree s)
  split
  · rfl
  · split
    · exact (h.portPanic s1 _).trans hs1
    · split
      · exact (h.portCalm s1 _).trans hs1
      · exact hs1

theorem acqOffer {b n : Nat} {force : Bool} {t : State} (ht : s.acqOffer b n force = some t) : view t = view s := by
  unfold State.acqOffer at ht
  dsimp only at ht
  repeat' split at ht
  all_goals cases ht
  all_goals exact (h.setAcq _ b _).trans (h.offer s n b true _ _)

theorem acqPumpN (b n : Nat) (force : Bool) (fuel : Nat) : view (s.acqPumpN b n force fuel) = view s := by
  induction fuel generalizing s with
  | zero => rfl
  | succ f ih =>
    rw [State.acqPumpN]
    split
    · rename_i x hx
      rw [ih, h.acqOffer s hx]
    · rfl

theorem acqPump (b : Nat) (force : Bool) : view (s.acqPump b force) = view s := by
  unfold State.acqPump
  extract_lets fuel s1
  have hs1 : view s1 = view s := by
    simp only [s1]
    split
    · exact (h.acqPort _ b).trans ((h.acqRelease _ b _).trans (h.acqPumpN s b _ force fuel))
    · rfl
  split
  · exact hs1
  · extract_lets posted
    split
    · exact (h.acqStore s1 b _).trans hs1
    · exact hs1

/-! ### Records and triggers -/

theorem acqClose (b n code : Nat) (trunc : Bool) : view (s.acqClose b n code trunc) = view s := by
  unfold State.acqClose
  extract_lets a s1
  have hs1 : view s1 = view s := by
    simp only [s1]
    split
    · exact h.useFree s
    · rfl
  split
  · rfl
  · exact (h.event _ _ _ (.inl rfl)).trans ((h.acqPump _ b _).trans ((h.acqWr _ _ _ _).trans ((h.setAcq s1 b _).trans hs1)))

theorem acqPostCheck (b : Nat) : view (s.acqPostCheck b) = view s := by
  unfold State.acqPostCheck
  extract_lets a
  split
  · rfl
  · split
    · exact h.acqClose s b _ _ _
    · rfl

theorem acqOverflow (b n : Nat) : view (s.acqOverflow b n) = view s := by
  unfold State.acqOverflow
  split
  · extract_lets top
    split
    · exact (h.acqPostCheck _ b).trans (h.setAcq s b _)
    · rfl
  · rfl

theorem acqEvent (b t : Nat) : view (s.acqEvent b t) = view s := by
  unfold State.acqEvent
  extract_lets a n pre room r r1 s1 s2
  split
  · rfl
  · split
    · exact h.acqWr s _ _ _
    · split
      · rfl
      · split
        · have hs2 : view s2 = view s := (h.acqWr _ _ _ _).trans ((h.acqWr _ _ _ _).trans (h.setAcq s b _))
          exact (h.acqPostCheck _ b).trans ((h.acqOverflow _ b _).trans ((h.event _ _ _ (.inl rfl)).trans
            ((h.acqPump s2 b false).trans hs2)))
        · exact (h.event _ _ _ (.inl rfl)).trans ((h.setAcq _ b _).trans (h.acqWr s _ _ _))

theorem acqReach (b : Nat) : view (s.acqReach b) = view s := by
  unfold State.acqReach
  extract_lets a
  split
  · rfl
  · exact (view_foldl (fun x t => h.acqEvent x b t) _ _).trans (h.setAcq s b _)

/-! ### Streams -/

theorem acqEnd (st u : Nat) : view (s.acqEnd st u) = view s := by
  unfold State.acqEnd
  extract_lets b i x a x1
  have hx : view x = view s := h.acqReach s b
  have hx1 : view x1 = view s := (h.setAcq x b _).trans hx
  split
  · exact hx
  · split
    · exact hx1
    · split
      · exact (h.acqIdle x1 b).trans hx1
      · split
        · exact (h.acqClose x1 b _ _ _).trans hx1
        · exact hx1

theorem acqBegin (st u start len : Nat) : view (s.acqBegin st u start len) = view s := by
  unfold State.acqBegin
  extract_lets b i a bad a1 s1
  have hbad : ∀ x j, view (bad x j) = view x := fun x j => (h.acqWr2 _ _ _ _ _).trans (h.setAcq x b _)
  split
  · rfl
  · split
    · refine (view_foldl (fun x e => ?_) s1 _).trans (h.setAcq s b _)
      split
      · rfl
      · exact hbad x _
    · split
      · exact h.setAcq s b _
      · split
        · exact h.setAcq s b _
        · exact (hbad _ i).trans (h.setAcq s b _)

theorem acqSample (st u code : Nat) (flag : Bool) : view (s.acqSample st u code flag) = view s := by
  unfold State.acqSample
  extract_lets b i a k slot a1 s1 x beyond level mem
  have hs1 : view s1 = view s := (h.acqOverflow _ b _).trans (h.setAcq s b _)
  split
  · rfl
  · split
    · exact h.setAcq s b _
    · split
      · exact hs1
      · exact (h.setAcq s1 b _).trans hs1

end

end State.AcqFree

end Sys2Proof.Machine

/-!
PROOF. Integrating converters (R365 to R394): what the operations over a converter leave of it and of its registers, each command of
the CNV page and of the aperture; and O28.
-/

namespace Sys2Proof.Machine

/-! ### Records and states of converters -/

section
variable {s t : State} {st u : Nat}

@[simp] theorem cnv_setCnv_same (v : CnvUnit) : (s.setCnv st u v).cnv st u = v := Store.getD_setD_same ..

theorem cnv_setCnv_ne {st' u' : Nat} (v : CnvUnit) (h : 4 * st + u ≠ 4 * st' + u') : (s.setCnv st' u' v).cnv st u = s.cnv st u :=
  Store.getD_setD_ne _ _ v h

theorem cnv_of_cnvs (h : t.cnvs = s.cnvs) : t.cnv st u = s.cnv st u := by rw [State.cnv, State.cnv, h]

@[simp] theorem cnv_setCnvState (i j v : Nat) : (s.setCnvState i j v).cnv st u = s.cnv st u := cnv_of_cnvs (State.wf_cnvs ..)

theorem cnvState_of_rd (h : t.rd .cnv st Off.cnvState = s.rd .cnv st Off.cnvState) : t.cnvState st u = s.cnvState st u :=
  rf_of_rd h _ _

theorem cnvState_setCnvState_same {v : Nat} (hu : u < 4) (hv : v < 8) : (s.setCnvState st u v).cnvState st u = v :=
  (rf_wf_same s .cnv st Off.cnvState (3 * u) 3 v (by omega)).trans (Nat.mod_eq_of_lt hv)

theorem cnvState_setCnvState_ne {w v : Nat} (hw : w < 4) (h : w ≠ u) :
    (s.setCnvState st w v).cnvState st u = s.cnvState st u :=
  rf_wf_other s .cnv st Off.cnvState (3 * w) 3 v (3 * u) 3 (by omega) (by omega)

theorem rd_setCnvState {o : Nat} (w v : Nat) (h : o % 0x1000 ≠ Off.cnvState % 0x1000) :
    (s.setCnvState st w v).rd .cnv st o = s.rd .cnv st o := rd_wf_offset s .cnv st _ st o _ 3 v h

theorem cnvTrig_of_rd (h : t.rd .cnv st (Off.cnvCfg u) = s.rd .cnv st (Off.cnvCfg u)) : t.cnvTrig st u = s.cnvTrig st u :=
  rf_of_rd h _ _

theorem rd_cnvEvent {o : Nat} (n : Nat) (h : o % 0x1000 ≠ Off.pgEvt) : (s.event .cnv st n).rd .cnv st o = s.rd .cnv st o :=
  rd_event s .cnv st n .cnv st o (by simp [postReg]) (.inr (.inr h))

/-- The word of CNV_ARM or CNV_STOP with the bit of one converter. -/
theorem cnvBit (u : Fin 4) : onesOf (fld (word (2 ^ u.val)) 0 4) 4 = [u.val] := by
  revert u
  decide

end

/-! ### Converters beside the acquisition engines -/

/-- The converters: their records and the registers of their pages. -/
def State.cnvPart (s : State) : List (Nat × CnvUnit) × (Nat → Nat → Word) := (s.cnvs, fun i o => s.rd .cnv i o)

theorem acqFree_cnvPart : State.AcqFree State.cnvPart where
  setAcq _ _ _ := rfl
  useFree _ := rfl
  wr s _ i o v hk := Prod.ext rfl (funext fun i' => funext fun o' =>
    rd_wr_kind s i o i' o' v (by rcases hk with rfl | rfl <;> decide))
  event s k i n hk := Prod.ext (State.event_cnvs ..) (funext fun i' => funext fun o' =>
    rd_event s k i n .cnv i' o' (by simp [postReg]) (.inl (by rcases hk with rfl | rfl <;> decide)))
  offer s n b wait ty body := Prod.ext (congrArg State.cnvs (entryFrame_offer s n (.acq b) wait ty body).eq :)
    (funext fun _ => funext fun _ => rd_offer s n (.acq b) wait ty body (by decide) fun x => rd_sat_kind x _ _ _ _ _ _ _ (by decide))

section
variable {s t : State} (h : t.cnvPart = s.cnvPart) (st u : Nat)
include h

theorem cnv_of_cnvPart : t.cnv st u = s.cnv st u := cnv_of_cnvs (congrArg Prod.fst h)
theorem rd_of_cnvPart (o : Nat) : t.rd .cnv st o = s.rd .cnv st o := congrFun (congrFun (congrArg Prod.snd h) st) o
theorem cnvState_of_cnvPart : t.cnvState st u = s.cnvState st u := cnvState_of_rd (rd_of_cnvPart h st _)

end

/-- The end of a stream, where one runs, leaves the converters. -/
theorem cnvPart_streamEnds (s x : State) (st u : Nat) :
    (if s.cnvStream st u then x.acqEnd st u else x).cnvPart = x.cnvPart := by
  split
  · exact acqFree_cnvPart.acqEnd x st u
  · rfl

/-! ### Arms and triggers (R373, R376, R385) -/

/-- A converter starts: it takes the record given, its result loses VALID, and it is in the state given. -/
def State.cnvStarted (s : State) (st u : Nat) (c : CnvUnit) (v : Nat) : State :=
  ((s.setCnv st u c).startResult .cnv st (Off.cnvRes u 0)).setCnvState st u v

section
variable {s : State} {st u : Nat}

/-- A result word and a register before the unit blocks. -/
theorem cnvRes_apart_low {u w o : Nat} (hu : u < 4) (hw : w < 5 := by decide) (ho : o < 0x100 := by decide) :
    Off.cnvRes u w % 0x1000 ≠ o := by
  simp only [Off.cnvRes]
  omega

/-- Two result words of a converter. -/
theorem cnvRes_apart {u i j : Nat} (hi : i < 5 := by decide) (hj : j < 5 := by decide) (h : i ≠ j := by decide) :
    Off.cnvRes u i % 0x1000 ≠ Off.cnvRes u j % 0x1000 := by
  simp only [Off.cnvRes]
  omega

@[simp] theorem cnv_cnvStarted (c : CnvUnit) (v : Nat) : (s.cnvStarted st u c v).cnv st u = c := by
  rw [State.cnvStarted, cnv_setCnvState, cnv_of_cnvs (State.startResult_cnvs ..), cnv_setCnv_same]

theorem cnvState_cnvStarted (c : CnvUnit) {v : Nat} (hu : u < 4) (hv : v < 8) : (s.cnvStarted st u c v).cnvState st u = v :=
  cnvState_setCnvState_same hu hv

/-- A converter that starts shows no result (R385). -/
theorem valid_cnvStarted (c : CnvUnit) (v : Nat) (hu : u < 4) : (s.cnvStarted st u c v).rb .cnv st (Off.cnvRes u 0) 16 = false :=
  (rb_of_rd (rd_setCnvState u v (cnvRes_apart_low hu)) 16).trans (startResult_valid ..)

theorem rd_cnvStarted {o : Nat} (c : CnvUnit) (v : Nat) (hr : o % 0x1000 ≠ Off.cnvRes u 0 % 0x1000)
    (hs : o % 0x1000 ≠ Off.cnvState % 0x1000) : (s.cnvStarted st u c v).rd .cnv st o = s.rd .cnv st o :=
  (rd_setCnvState u v hs).trans (rd_wb_offset _ .cnv st _ st o 16 false hr)

/-- A trigger of TRIG SW or TICK wakes an armed converter (R373). -/
theorem cnvTrigger_armed (t : Nat) (harm : s.cnvState st u = kArmed) (hsrc : s.cnvTrig st u < 2) :
    s.cnvTrigger st u t = s.cnvStarted st u { s.cnv st u with trig := t, begun := false } kWake :=
  if_pos ⟨harm, .inl hsrc⟩

/-- A pulse that reaches a converter under way is at most counted and told (R377). -/
theorem cnvTrigger_busy (t : Nat) (hbusy : kArmed < s.cnvState st u) :
    s.cnvTrigger st u t = s ∨ s.cnvTrigger st u t = (s.sat .cnv st (Off.cnvDropped u) 0 16 1).event .cnv st 3 := by
  have hk : s.cnvState st u ≠ kArmed := Nat.ne_of_gt hbusy
  unfold State.cnvTrigger
  extract_lets k c
  rw [if_neg fun hc => hk hc.1, if_neg fun hc => hk hc.1]
  split
  · exact .inr rfl
  · exact .inl rfl

end

/-! ### One converter beside the triggers of the others -/

/-- From `s` to `t` converter `u` of the stall keeps its record, its state and its configuration. -/
structure State.KeepsCnv (st u : Nat) (s t : State) : Prop where
  cnv : t.cnv st u = s.cnv st u
  state : t.cnvState st u = s.cnvState st u
  cfg : t.rd .cnv st (Off.cnvCfg u) = s.rd .cnv st (Off.cnvCfg u)

theorem State.KeepsCnv.refl (st u : Nat) (s : State) : State.KeepsCnv st u s s := ⟨rfl, rfl, rfl⟩

theorem State.KeepsCnv.trans {st u : Nat} {s t x : State} (h : State.KeepsCnv st u s t) (h' : State.KeepsCnv st u t x) :
    State.KeepsCnv st u s x :=
  ⟨h'.cnv.trans h.cnv, h'.state.trans h.state, h'.cfg.trans h.cfg⟩

theorem keepsCnv_cnvStarted (s : State) {st u w : Nat} (c : CnvUnit) (v : Nat) (hw : w < 4) (h : w ≠ u) :
    State.KeepsCnv st u s (s.cnvStarted st w c v) := by
  refine ⟨?_, ?_, rd_cnvStarted c v ?_ ?_⟩
  · rw [State.cnvStarted, cnv_setCnvState, cnv_of_cnvs (State.startResult_cnvs ..), cnv_setCnv_ne _ (by omega)]
  · refine (cnvState_setCnvState_ne hw h).trans (cnvState_of_rd (rd_wb_offset _ .cnv st _ st _ 16 false ?_))
    exact (cnvRes_apart_low hw).symm
  · simp only [Off.cnvCfg, Off.cnvRes]
    omega
  · simp only [Off.cnvCfg, Off.cnvState]
    omega

theorem keepsCnv_cnvTrigger (s : State) {st u w : Nat} (t : Nat) (hu : u < 4) (hw : w < 4) (h : w ≠ u) :
    State.KeepsCnv st u s (s.cnvTrigger st w t) := by
  unfold State.cnvTrigger
  extract_lets k c
  split
  · exact keepsCnv_cnvStarted s _ kWake hw h
  · split
    · exact State.KeepsCnv.refl st u s
    · split
      · have hrd : ∀ o, o % 0x1000 ≠ Off.cnvDropped w % 0x1000 → o % 0x1000 ≠ Off.pgEvt →
            ((s.sat .cnv st (Off.cnvDropped w) 0 16 1).event .cnv st 3).rd .cnv st o = s.rd .cnv st o := fun o hd he =>
          (rd_cnvEvent 3 he).trans (rd_sat_offset s .cnv st _ st o 0 16 1 hd)
        refine ⟨cnv_of_cnvs ((State.event_cnvs ..).trans (State.sat_cnvs ..)), cnvState_of_rd (hrd _ ?_ (by decide)), hrd _ ?_ ?_⟩
        · simp only [Off.cnvState, Off.cnvDropped]
          omega
        · exact unitReg_apart
        · exact unitReg_apart_low hu
      · exact State.KeepsCnv.refl st u s

/-- In a fold over converters each of which keeps `u` where it is another, converter `u` meets its own step alone. -/
theorem keepsCnv_foldl (s : State) {st u : Nat} {f : State → Nat → State} {l : List Nat} (hu : u ∈ l) (hl : l.Nodup)
    (h : ∀ x, ∀ w ∈ l, w ≠ u → State.KeepsCnv st u x (f x w)) :
    ∃ y, State.KeepsCnv st u s y ∧ State.KeepsCnv st u (f y u) (l.foldl f s) := by
  obtain ⟨a, b, rfl⟩ := List.append_of_mem hu
  obtain ⟨hua, -⟩ := List.nodup_cons.mp (List.nodup_middle.mp hl)
  refine foldl_meets (State.KeepsCnv.refl st u) (fun h h' => h.trans h') (fun x w hw => ?_) s u
  have hmem : w ∈ a ++ u :: b := List.mem_append.mpr ((List.mem_append.mp hw).imp id (List.mem_cons_of_mem _))
  exact h x w hmem fun e => hua (e ▸ hw)

/-! ### Pulses that reach a converter under way (R377) -/

/-- What the pulses reached by a converter under way change: those to come, its count of dropped triggers, and PG_EVT. -/
structure State.PulsesDropped (st u : Nat) (s t : State) : Prop where
  unit : t.cnv st u = { s.cnv st u with ahead := (t.cnv st u).ahead }
  rd : ∀ o, o % 0x1000 ≠ Off.cnvDropped u % 0x1000 → o % 0x1000 ≠ Off.pgEvt → t.rd .cnv st o = s.rd .cnv st o
  line : t.line = s.line

section
variable {s t x : State} {st u : Nat}

theorem State.PulsesDropped.trans (h : State.PulsesDropped st u s t) (h' : State.PulsesDropped st u t x) :
    State.PulsesDropped st u s x :=
  ⟨h'.unit.trans (by rw [h.unit]), fun o hd he => (h'.rd o hd he).trans (h.rd o hd he), h'.line.trans h.line⟩

theorem State.PulsesDropped.state (hu : u < 4) (h : State.PulsesDropped st u s t) : t.cnvState st u = s.cnvState st u :=
  cnvState_of_rd (h.rd _ (by simp only [Off.cnvState, Off.cnvDropped]; omega) (by decide))

theorem pulsesDropped_cnvTrigger (n : Nat) (hbusy : kArmed < s.cnvState st u) :
    State.PulsesDropped st u s (s.cnvTrigger st u n) := by
  rcases cnvTrigger_busy n hbusy with e | e <;> rw [e]
  · exact ⟨rfl, fun _ _ _ => rfl, rfl⟩
  · refine ⟨?_, fun o hd he => (rd_cnvEvent 3 he).trans (rd_sat_offset s .cnv st _ st o 0 16 1 hd), ?_⟩
    · rw [cnv_of_cnvs ((State.event_cnvs ..).trans (State.sat_cnvs ..))]
    · exact (State.event_line ..).trans (State.sat_line ..)

theorem pulsesDropped_cnvReach (hu : u < 4) (hbusy : kArmed < s.cnvState st u) :
    State.PulsesDropped st u s (s.cnvReach st u) := by
  unfold State.cnvReach
  extract_lets c
  split
  · exact ⟨rfl, fun _ _ _ => rfl, rfl⟩
  · refine foldl_keeps (State.PulsesDropped st u s)
      (fun y n hy => hy.trans (pulsesDropped_cnvTrigger n (by rw [hy.state hu]; exact hbusy))) _ ⟨?_, fun _ _ _ => rfl, rfl⟩
    rw [cnv_setCnv_same]

/-- The same where time has passed before the pulses are reached. -/
theorem pulsesDropped_later (n : Nat) (hu : u < 4) (hbusy : kArmed < s.cnvState st u) :
    State.PulsesDropped st u s ((s.atNow n).cnvReach st u) :=
  have h := pulsesDropped_cnvReach (s := s.atNow n) hu hbusy
  ⟨h.unit, h.rd, h.line⟩

/-- The length of an aperture hangs on the unit's CNV_APER and on the mains line (R369, R370). -/
theorem cnvLen_of_rd (ha : t.rd .cnv st (Off.cnvAper u) = s.rd .cnv st (Off.cnvAper u))
    (hb : t.rd .brn 0 Off.brnLineCfg = s.rd .brn 0 Off.brnLineCfg) (hl : t.line = s.line) : t.cnvLen st u = s.cnvLen st u := by
  have hper : t.linePer = s.linePer := by
    simp only [State.linePer, State.linePer0, rf_of_rd hb, rb_of_rd hb, hl]
  simp only [State.cnvLen, rf_of_rd ha, rb_of_rd ha, hper]

/-- The PMUs of a stall are powered by the mode of its owner (R355). -/
theorem pmuPowered_of_aside (ha : t.aside = s.aside) (hm : t.shell = s.shell) : t.pmuPowered st = s.pmuPowered st := by
  have hmode := modeParts_of_shell hm
  have hdev : t.mode.dev = s.mode.dev := (congrArg ModeSt.dev hmode :)
  have hdoms : t.mode.doms = s.mode.doms := (congrArg ModeSt.doms hmode :)
  have howner : t.rf .stl st Off.pgOwner 0 4 = s.rf .stl st Off.pgOwner 0 4 := rf_of_rd (rd_of_aside ha rfl st Off.pgOwner) 0 4
  simp only [State.pmuPowered, State.modeOf, State.domMode, State.ownerOf, hdev, hdoms, howner]

end

/-! ### Arming and stopping (R376, R386) -/

section
variable {s : State} {r : Requester} {st : Fin 128} {u : Fin 4}

/-- An accepted arm: the converter starts with a record of its own, armed, and TRIG SW triggers it at once (R374, R376). -/
theorem cnvArmed_shows (y : State) (st u : Nat) (hu : u < 4) :
    let t := y.cnvArmed st u
    t.rb .cnv st (Off.cnvRes u 0) 16 = false ∧ (t.cnv st u).live = true ∧ (y.cnvTrig st u ≠ 0 → t.cnvState st u = kArmed) ∧
      (y.cnvTrig st u = 0 → t.cnvState st u = kWake ∧ (t.cnv st u).trig = y.now) := by
  obtain ⟨c, hlive, e⟩ : ∃ c : CnvUnit, c.live = true ∧ y.cnvArmed st u =
      if y.cnvTrig st u = 0 then (y.cnvStarted st u c kArmed).cnvTrigger st u y.now else y.cnvStarted st u c kArmed :=
    ⟨_, rfl, rfl⟩
  have harm := cnvState_cnvStarted (s := y) (st := st) c hu (show kArmed < 8 by decide)
  have hcfg : (y.cnvStarted st u c kArmed).cnvTrig st u = y.cnvTrig st u := by
    refine cnvTrig_of_rd (rd_cnvStarted c kArmed ?_ ?_)
    · exact unitReg_apart (b := 0x110)
    · simp only [Off.cnvCfg, Off.cnvState]
      omega
  intro t
  by_cases h0 : y.cnvTrig st u = 0
  · have ht : t = _ := (e.trans (if_pos h0)).trans (cnvTrigger_armed y.now harm (by omega))
    rw [ht, cnv_cnvStarted, cnv_cnvStarted]
    exact ⟨valid_cnvStarted _ _ hu, hlive, fun h => absurd h0 h, fun _ => ⟨cnvState_cnvStarted _ hu (by decide), rfl⟩⟩
  · have ht : t = _ := e.trans (if_neg h0)
    rw [ht, cnv_cnvStarted]
    exact ⟨valid_cnvStarted _ _ hu, hlive, fun _ => harm, fun h => absurd h h0⟩

theorem cnvArmUnit_arms {y : State} (hshut : y.cnvArmShut r st = none) (herr : y.cnvArmError st u = none)
    (hidle : y.cnvState st u = kIdle) : cnvArmUnit r st u y = y.cnvArmed st u := by
  simp [cnvArmUnit, hshut, herr, hidle]

theorem exec_cnvArm (hacc : s.accepts r .cnv st Off.cnvArm (word (2 ^ u.val)) = true) :
    exec (.cnvArm r st u) s = .next (cnvArmUnit r st u (s.cnvReachAll st)) := by
  refine congrArg Host.Outcome.next ((guarded_of_accepts hacc _).trans ?_)
  rw [cnvArmWrite, cnvBit u, List.foldl_cons, List.foldl_nil]

theorem exec_cnvStop (hacc : s.accepts r .cnv st Off.cnvStop (word (2 ^ u.val)) = true) :
    exec (.cnvStop r st u) s = .next (cnvStopUnit st u (s.cnvReachAll st)) := by
  refine congrArg Host.Outcome.next ((guarded_of_accepts hacc _).trans ?_)
  rw [cnvStopWrite, cnvBit u, List.foldl_cons, List.foldl_nil]

/-- A stop of an armed converter makes it idle (R386). -/
theorem cnvStopUnit_armed {y : State} (harm : y.cnvState st u = kArmed) : (cnvStopUnit st u y).cnvState st u = kIdle := by
  unfold cnvStopUnit
  extract_lets k c s1
  rw [if_pos harm, cnvState_of_cnvPart (cnvPart_streamEnds y s1 st u)]
  exact cnvState_setCnvState_same u.isLt (by decide)

/-- A conversion that is cut goes to RESID with the END code given (R386). -/
theorem cnvCut_shows (y : State) (st u code : Nat) (hu : u < 4) :
    (y.cnvCut st u code).cnvState st u = kResid ∧ ((y.cnvCut st u code).cnv st u).endCode = code := by
  refine ⟨cnvState_setCnvState_same hu (by decide), ?_⟩
  unfold State.cnvCut
  extract_lets c s1 s2
  rw [cnv_setCnvState, cnv_of_cnvPart (cnvPart_streamEnds y s1 st u), cnv_setCnv_same]

theorem cnvStopUnit_busy {y : State} (hbusy : y.cnvState st u = kWake ∨ y.cnvState st u = kInteg) :
    cnvStopUnit st u y = y.cnvCut st u kStop := by
  unfold cnvStopUnit
  extract_lets k
  rw [if_neg (by rcases hbusy with h | h <;> simp only [k, h] <;> decide), if_pos hbusy]

/-! ### CNV_START_TICK (R374) -/

/-- An armed TICK converter wakes at the tick of the stall, whichever others wake with it. -/
theorem cnvTickTrigger_wakes (harm : s.cnvState st u = kArmed) (htrig : s.cnvTrig st u = 1) :
    ∃ t, exec (.cnvTickTrigger st) s = .next t ∧ t.cnvState st u = kWake ∧
      (t.cnv st u).trig = s.nowTick (s.rd2 .cnv st Off.cnvStartTickLo Off.cnvStartTickHi) := by
  change ∃ t, execCnvTickTrigger st s = .next t ∧ _
  unfold execCnvTickTrigger
  extract_lets n us
  have hmem : u.val ∈ us := by simp [us, upto, harm, htrig]
  have hlt : ∀ w ∈ us, w < 4 := fun w hw => List.mem_range.mp (List.mem_filter.mp hw).1
  obtain ⟨y, hy, ht⟩ := keepsCnv_foldl (s.atTick n) hmem (List.nodup_range.filter _)
    fun x w hw hne => keepsCnv_cnvTrigger x (s.nowTick n) u.isLt (hlt w hw) hne
  have hyarm : y.cnvState st u = kArmed := hy.state.trans harm
  have hytrig : y.cnvTrig st u < 2 := lt_of_eq_of_lt ((cnvTrig_of_rd hy.cfg).trans htrig) (by decide)
  rw [cnvTrigger_armed _ hyarm hytrig] at ht
  rw [if_neg (List.ne_nil_of_mem hmem)]
  refine ⟨_, rfl, ht.state.trans (cnvState_cnvStarted _ u.isLt (by decide)), ?_⟩
  rw [ht.cnv, cnv_cnvStarted]

/-! ### Apertures (R367, R369, R373, R379) -/

/-- An aperture begins at tick `n`: the converter integrates for the length of R369. -/
theorem cnvBegin_integrates (y : State) (st u n : Nat) (hu : u < 4) :
    (y.cnvBegin st u n).cnvState st u = kInteg ∧ ((y.cnvBegin st u n).cnv st u).start = n ∧
      ((y.cnvBegin st u n).cnv st u).len = y.cnvLen st u := by
  unfold State.cnvBegin
  extract_lets c plc main len meas c1 s1
  have hpart : (if y.cnvStream st u then s1.acqBegin st u n len else s1).cnvPart = s1.cnvPart := by
    split
    · exact acqFree_cnvPart.acqBegin s1 st u n len
    · rfl
  rw [cnvState_of_cnvPart hpart, cnv_of_cnvPart hpart, cnv_setCnvState, cnv_setCnv_same]
  exact ⟨cnvState_setCnvState_same hu (by decide), rfl, rfl⟩

/-- The aperture begins 64,000 ticks after the trigger (R373). -/
theorem apertureStart_integrates (hwake : s.cnvState st u = kWake) :
    ∃ t, exec (.apertureStart st u) s = .next t ∧ t.cnvState st u = kInteg ∧
      (t.cnv st u).start = (s.cnv st u).trig + 64000 ∧ (t.cnv st u).len = s.cnvLen st u := by
  have hreach : State.PulsesDropped st u s ((s.atNow ((s.cnv st u).trig + 64000)).cnvReach st u) :=
    pulsesDropped_later _ u.isLt (lt_of_lt_of_eq (by decide) hwake.symm)
  obtain ⟨hstate, hstart, hlen⟩ := cnvBegin_integrates ((s.atNow ((s.cnv st u).trig + 64000)).cnvReach st u) st u
    ((s.cnv st u).trig + 64000) u.isLt
  refine ⟨_, if_neg (not_not.mpr hwake), hstate, hstart, hlen.trans ?_⟩
  exact cnvLen_of_rd (hreach.rd _ unitReg_apart (unitReg_apart_low u.isLt)) (rd_of_aside (aside_cnvReach ..) rfl _ _) hreach.line

/-- With no converter named, none saturates. -/
theorem cnvSaturate_none (y : State) (st : Nat) : y.cnvSaturate st 0 = y := rfl

/-- An aperture ends neither saturated nor disturbed: its code is resolved, never "invalid", or in STREAM the next one starts
where it ended (R367, R379). -/
theorem apertureEnd_resolves (code : BitVec 24) (neg : Bool) (hinteg : s.cnvState st u = kInteg) (hovr : (s.cnv st u).ovr = false)
    (hend : (s.cnv st u).endCode = 0) :
    (s.cnvStream st u = false →
      ∃ t, exec (.apertureEnd st u code 0 neg) s = .next t ∧ t.cnvState st u = kResid ∧
        (t.cnv st u).code = (if code.toNat = 0x800000 then 0x800001 else code.toNat)) ∧
    (s.cnvStream st u = true →
      ∃ t, exec (.apertureEnd st u code 0 neg) s = .next t ∧ t.cnvState st u = kInteg ∧
        (t.cnv st u).start = (s.cnv st u).start + (s.cnv st u).len) := by
  change (_ → ∃ t, execApertureEnd st u code 0 neg s = .next t ∧ _) ∧ (_ → ∃ t, execApertureEnd st u code 0 neg s = .next t ∧ _)
  unfold execApertureEnd
  rw [if_neg (not_not.mpr hinteg)]
  extract_lets n s1 c near nbr v c1 s2
  have hreach : State.PulsesDropped st u s s1 := by
    rw [show s1 = _ from cnvSaturate_none _ st]
    exact pulsesDropped_later n u.isLt (lt_of_lt_of_eq (by decide) hinteg.symm)
  have hv : v = clampCode code.toNat := by
    have hcend : c.endCode = 0 := (congrArg CnvUnit.endCode hreach.unit).trans hend
    have hcovr : c.ovr = false := (congrArg CnvUnit.ovr hreach.unit).trans hovr
    simp only [v, hcend, hcovr, ne_eq, not_true_eq_false, Bool.false_eq_true, if_false]
  constructor
  · intro hstream
    rw [if_neg (by simp [hstream])]
    refine ⟨_, rfl, cnvState_setCnvState_same u.isLt (by decide), ?_⟩
    rw [cnv_setCnvState, cnv_setCnv_same]
    exact hv
  · intro hstream
    rw [if_pos hstream]
    obtain ⟨hstate, hstart, -⟩ := cnvBegin_integrates (s2.acqSample st u v (c.ovr || nbr)) st u n u.isLt
    exact ⟨_, rfl, hstate, hstart⟩

/-! ### Results (R385 to R387) -/

/-- The first word of a stored result: SEQ advanced, VALID, and END above the marks, MEAS and the range (R385). -/
theorem cnvResult_head (x : State) (st o ovr nbr est hold nrdy meas range code : Nat) :
    let t := x.storeResult .cnv st o (pack [(17, 1, ovr), (18, 1, nbr), (19, 1, est), (20, 1, hold), (21, 1, nrdy), (22, 1, meas),
      (23, 3, range), (26, 2, code)])
    t.rb .cnv st o 16 = true ∧ t.rf .cnv st o 0 8 = (x.rf .cnv st o 0 8 + 1) % 256 ∧ t.rf .cnv st o 26 2 = code % 4 := by
  intro t
  have hrd : t.rd .cnv st o = _ := storeResult_rd x .cnv st o _
  have hseq : (x.rf .cnv st o 0 8 + 1) % 256 < 256 := Nat.mod_lt _ (by decide)
  generalize (x.rf .cnv st o 0 8 + 1) % 256 = n at hrd hseq ⊢
  simp only [pack] at hrd
  refine ⟨?_, ?_, ?_⟩
  · rw [State.rb, hrd, tbit_eq_fld, fld_word _ _ _ (by decide), decide_eq_true_eq]
    omega
  · rw [State.rf, hrd, fld_word _ _ _ (by decide)]
    omega
  · rw [State.rf, hrd, fld_word _ _ _ (by decide)]
    omega

/-- The words of a result: head, code, start and length (R385). -/
def State.cnvWordsStored (s : State) (st u head code start len : Nat) : State :=
  (((s.storeResult .cnv st (Off.cnvRes u 0) head).wr .cnv st (Off.cnvRes u 1) (word code)).wr2 .cnv st (Off.cnvRes u 2)
    (Off.cnvRes u 3) start).wr .cnv st (Off.cnvRes u 4) (word len)

/-- Of the words stored, those after the first two move neither of them. -/
theorem rd_cnvWordsStored (x : State) (st u head code start len : Nat) :
    let t := x.cnvWordsStored st u head code start len
    t.rd .cnv st (Off.cnvRes u 0) = (x.storeResult .cnv st (Off.cnvRes u 0) head).rd .cnv st (Off.cnvRes u 0) ∧
      t.rd .cnv st (Off.cnvRes u 1) = word code := by
  have later : ∀ (y : State) {i : Nat}, i < 2 →
      ((y.wr2 .cnv st (Off.cnvRes u 2) (Off.cnvRes u 3) start).wr .cnv st (Off.cnvRes u 4) (word len)).rd .cnv st (Off.cnvRes u i) =
        y.rd .cnv st (Off.cnvRes u i) := fun y i hi =>
    (rd_wr_off _ .cnv .cnv _ (cnvRes_apart (by omega) (by decide) (by omega))).trans
      ((rd_wr_off _ .cnv .cnv _ (cnvRes_apart (by omega) (by decide) (by omega))).trans
        (rd_wr_off y .cnv .cnv _ (cnvRes_apart (by omega) (by decide) (by omega))))
  exact ⟨(later _ (by decide)).trans (rd_wr_off _ .cnv .cnv _ cnvRes_apart), (later _ (by decide)).trans (rd_wr_same ..)⟩

/-- An entry of a converter moves no register of its page but the count of lost entries (R388). -/
theorem rd_cnvPost (x : State) (n st ty body : Nat) {o : Nat} (h : o % 0x1000 ≠ Off.cnvRingDrop) :
    (x.post n (.cnv st) false ty body).rd .cnv st o = x.rd .cnv st o :=
  rd_offer x n (.cnv st) false ty body (by decide) fun y => rd_sat_offset y .cnv st Off.cnvRingDrop st o 0 16 1 h

/-- A result is told: the converter takes the record and the state given, and OVR has an event of its own (R385, R389). -/
def State.cnvTold (s : State) (st u : Nat) (v : CnvUnit) (next : Nat) (ovr : Bool) : State :=
  let t := ((s.event .cnv st 1).setCnv st u v).setCnvState st u next
  if ovr then t.event .cnv st 2 else t

theorem cnvTold_shows (x : State) {st u next : Nat} (v : CnvUnit) (ovr : Bool) (hu : u < 4) (hnext : next < 8) :
    (x.cnvTold st u v next ovr).cnvState st u = next ∧
      ∀ {i}, i < 5 → (x.cnvTold st u v next ovr).rd .cnv st (Off.cnvRes u i) = x.rd .cnv st (Off.cnvRes u i) := by
  unfold State.cnvTold
  extract_lets t
  have hlast : ∀ {o}, o % 0x1000 ≠ Off.pgEvt → (if ovr then t.event .cnv st 2 else t).rd .cnv st o = t.rd .cnv st o := by
    intro o ho
    split
    · exact rd_cnvEvent 2 ho
    · rfl
  refine ⟨(cnvState_of_rd (hlast (by decide))).trans (cnvState_setCnvState_same hu hnext), fun hi => ?_⟩
  exact (hlast (cnvRes_apart_low hu hi)).trans
    ((rd_setCnvState u next (cnvRes_apart_low hu hi)).trans (rd_cnvEvent 1 (cnvRes_apart_low hu hi)))

/-- A resolved converter with no REARM stores its result and goes idle (R385 to R389). -/
theorem cnvResultStored_stores (hresid : s.cnvState st u = kResid) (hstream : s.cnvStream st u = false)
    (hpow : s.pmuPowered st = true) (hrearm : s.cnvRearm st u = false) :
    ∃ t, exec (.cnvResultStored st u) s = .next t ∧ t.cnvState st u = kIdle ∧
      t.rb .cnv st (Off.cnvRes u 0) 16 = true ∧
      t.rf .cnv st (Off.cnvRes u 0) 0 8 = (s.rf .cnv st (Off.cnvRes u 0) 0 8 + 1) % 256 ∧
      t.rf .cnv st (Off.cnvRes u 0) 26 2 = (s.cnv st u).endCode % 4 ∧
      t.rd .cnv st (Off.cnvRes u 1) = word (s.cnv st u).code := by
  change ∃ t, execCnvResultStored st u s = .next t ∧ _
  unfold execCnvResultStored
  extract_lets x c off next rest f x0 meas range start len x1 b w s1 s2 s3 s4
  have hreach : State.PulsesDropped st u s x := pulsesDropped_cnvReach u.isLt (lt_of_lt_of_eq (by decide) hresid.symm)
  have hcfg := hreach.rd (Off.cnvCfg u) unitReg_apart (unitReg_apart_low u.isLt)
  have hseq := hreach.rd (Off.cnvRes u 0) (unitReg_apart (a := 0x110)) (cnvRes_apart_low u.isLt)
  have hoff : off = false := by
    simp only [off, x, pmuPowered_of_aside (aside_cnvReach s st u) (shell_cnvReach s st u), hpow, Bool.not_true]
  have hnext : next = kIdle := by
    simp only [next, hoff, show x.cnvRearm st u = false from (rb_of_rd hcfg 20).trans hrearm, Bool.false_and, Bool.false_eq_true,
      if_false]
  have hx1 : x1.rf .cnv st (Off.cnvRes u 0) 0 8 = s.rf .cnv st (Off.cnvRes u 0) 0 8 := by
    refine rf_of_rd (Eq.trans ?_ hseq) 0 8
    simp only [x1, x0]
    split <;> rfl
  have hs3 : ∀ {i}, i < 5 → s3.rd .cnv st (Off.cnvRes u i) = s2.rd .cnv st (Off.cnvRes u i) := by
    intro i hi
    simp only [s3]
    split
    · exact rd_cnvPost s2 _ st _ _ (cnvRes_apart_low u.isLt hi)
    · rfl
  obtain ⟨hwords, hcode⟩ := rd_cnvWordsStored x1 st u w c.code (start % 2 ^ 48) len
  obtain ⟨hvalid, hnew, hend⟩ := cnvResult_head x1 st (Off.cnvRes u 0) (bit (c.ovr && c.endCode == 0))
    (bit (c.nbr && (c.endCode == 0 || c.endCode == kDisturbed))) (bit (b && c.est)) (bit (b && c.hold)) (bit (b && c.nrdy)) meas
    range c.endCode
  obtain ⟨hidle, hkept⟩ := cnvTold_shows s3 (st := st) { (s3.event .cnv st 1).cnv st u with
      live := next == kArmed, begun := false, ahead := if next = kArmed then ((s3.event .cnv st 1).cnv st u).ahead else [] }
    (c.ovr && c.endCode == 0) u.isLt (show next < 8 by rw [hnext]; decide)
  have hhead := (hkept (i := 0) (by decide)).trans ((hs3 (by decide)).trans hwords)
  have hc : c = { s.cnv st u with ahead := c.ahead } := hreach.unit
  refine ⟨_, (if_neg (not_not.mpr ((hreach.state u.isLt).trans hresid))).trans
    (if_neg (by simp [show x.cnvStream st u = false from (rb_of_rd hcfg 21).trans hstream])), ?_, ?_, ?_, ?_, ?_⟩
  · exact hidle.trans hnext
  · exact (rb_of_rd hhead 16).trans hvalid
  · exact (rf_of_rd hhead 0 8).trans (hnew.trans (by rw [hx1]))
  · exact (rf_of_rd hhead 26 2).trans (hend.trans (by rw [hc]))
  · exact (hkept (i := 1) (by decide)).trans ((hs3 (by decide)).trans (hcode.trans (by rw [hc])))

end

/-- Settles O28: each command by its own lemma above. -/
theorem convertersConvert : Obligations.ConvertersConvert := by
  unfold Obligations.ConvertersConvert
  refine ⟨fun r st u s hacc hshut herr hidle => ⟨_, exec_cnvArm hacc, ?_⟩,
    fun r st u s hacc => ⟨fun harm => ⟨_, exec_cnvStop hacc, cnvStopUnit_armed harm⟩,
      fun hbusy => ⟨_, exec_cnvStop hacc, ?_⟩⟩,
    fun _ _ _ => cnvTickTrigger_wakes, fun _ _ _ => apertureStart_integrates,
    fun _ _ code neg _ => apertureEnd_resolves code neg, fun _ _ _ => cnvResultStored_stores⟩
  · rw [cnvArmUnit_arms hshut herr hidle]
    exact cnvArmed_shows _ st u u.isLt
  · rw [cnvStopUnit_busy hbusy]
    exact cnvCut_shows _ st u kStop u.isLt

end Sys2Proof.Machine

/-!
PROOF. The mains line and the reference buffers (R370, R371, R380, R381, R392): what the registers of every barn show of the line, and
what EN and the end of the settling time make of a buffer; and O29.
-/

namespace Sys2Proof.Machine

/-! ### The registers of a barn -/

/-- Two barns have BRN pages of their own. -/
theorem brn_inst_ne {b c : Nat} (hb : b < 8) (hc : c < 8) (h : c ≠ b) : c % PageKind.brn.count ≠ b % PageKind.brn.count := by
  rw [show PageKind.brn.count = 8 from rfl]
  omega

section
variable (s : State)

theorem rd_brnEvent (b n i : Nat) {o : Nat} (h : o % 0x1000 ≠ Off.pgEvt) : (s.event .brn b n).rd .brn i o = s.rd .brn i o :=
  rd_event s .brn b n .brn i o (by simp [postReg]) (.inr (.inr h))

/-! ### The line in every barn -/

/-- BRN_LINE_STAT of barn `b` is stored, and where LOST becomes set LINE_LOST is raised (R371). -/
def State.lineStatAt (s : State) (locked lost : Bool) (n b : Nat) : State :=
  let y := s.wr .brn b Off.brnLineStat (word (pack [(0, 1, bit locked), (1, 1, bit lost), (8, 5, n)]))
  if lost && !s.rb .brn b Off.brnLineStat 1 then y.event .brn b 2 else y

theorem lineStat_eq (locked lost : Bool) (n : Nat) :
    s.lineStat locked lost n = (upto 8).foldl (fun x b => x.lineStatAt locked lost n b) s := rfl

/-- The event of one barn is no part of LINE_STAT. -/
theorem rd_lineStatAt (locked lost : Bool) (n b i : Nat) : (s.lineStatAt locked lost n b).rd .brn i Off.brnLineStat =
    (s.wr .brn b Off.brnLineStat (word (pack [(0, 1, bit locked), (1, 1, bit lost), (8, 5, n)]))).rd .brn i Off.brnLineStat := by
  unfold State.lineStatAt
  extract_lets y
  split
  · exact rd_brnEvent y b 2 i (by decide)
  · rfl

/-- Every barn shows the same LINE_STAT. -/
theorem rd_lineStat (locked lost : Bool) (n : Nat) {b : Nat} (hb : b < 8) : (s.lineStat locked lost n).rd .brn b Off.brnLineStat =
    word (pack [(0, 1, bit locked), (1, 1, bit lost), (8, 5, n)]) := by
  rw [lineStat_eq]
  exact foldl_barns s (fun x i => x.rd .brn i Off.brnLineStat) (fun _ => _) _
    (fun x i => (rd_lineStatAt x locked lost n i i).trans (rd_wr_same ..))
    (fun x i j hi hj h => (rd_lineStatAt x locked lost n i j).trans (rd_wr_inst x .brn i _ j _ _ (brn_inst_ne hi hj h))) hb

theorem entryFrame_lineStat (locked lost : Bool) (n : Nat) : State.EntryFrame s (s.lineStat locked lost n) := by
  rw [lineStat_eq]
  refine entryFrame_foldl s (fun x b => ?_) _
  unfold State.lineStatAt
  extract_lets y
  have hy : State.EntryFrame x y := entryFrame_wr x .brn b _ _
  split
  · exact hy.trans (event_frame y .brn b 2)
  · exact hy

/-- PER of every barn alone moves with the period in use (R392). -/
theorem rd_linePerUpdate (i : Nat) {o : Nat} (h : o % 0x1000 ≠ Off.brnLinePer) : s.linePerUpdate.rd .brn i o = s.rd .brn i o :=
  foldl_keeps (fun x : State => x.rd .brn i o = s.rd .brn i o) (fun x _ hx => (rd_wr_off x .brn .brn _ h).trans hx) _ rfl

theorem linePerUpdate_line : s.linePerUpdate.line = s.line :=
  foldl_keeps (fun x : State => x.line = s.line) (fun x _ hx => (State.wr_line x ..).trans hx) _ rfl

/-- The line as it stands stored in barn `b` under SRC MAINS_REF. -/
theorem linePerUpdate_lineStat_shows (locked lost : Bool) (n : Nat) {b : Nat} (hb : b < 8) :
    (s.lineStat locked lost n).linePerUpdate.rd .brn b Off.brnLineStat =
        word (pack [(0, 1, bit locked), (1, 1, bit lost), (8, 5, n)]) ∧
      (s.lineStat locked lost n).linePerUpdate.line = s.line :=
  ⟨(rd_linePerUpdate _ b (by decide)).trans (rd_lineStat s locked lost n hb),
    (linePerUpdate_line _).trans (congrArg State.line (entryFrame_lineStat s locked lost n).eq :)⟩

end

/-! ### Lock and loss (R370, R371) -/

section
variable {s : State} (hsrc : s.rf .brn 0 Off.brnLineCfg 0 2 = 0) {b : Nat} (hb : b < 8)
include hsrc hb

/-- A line that is lost shows LOST and no LOCKED in every barn, and has no valid period. -/
theorem lineLose_shows : s.lineLose.rb .brn b Off.brnLineStat 0 = false ∧ s.lineLose.rb .brn b Off.brnLineStat 1 = true ∧
    s.lineLose.line.periods = [] := by
  unfold State.lineLose
  extract_lets l s1 main old
  have hmain : main = true := by simp only [main, hsrc, beq_self_eq_true]
  obtain ⟨hstat, hline⟩ := linePerUpdate_lineStat_shows s1 false true 0 hb
  rw [if_pos hmain, State.rb, State.rb, hstat, hline]
  exact ⟨by decide, by decide, rfl⟩

/-- With sixteen valid periods the line is locked in every barn. -/
theorem lineJudge_locks (hn : s.line.periods.length = 16) : s.lineJudge.rb .brn b Off.brnLineStat 0 = true ∧
    s.lineJudge.rb .brn b Off.brnLineStat 1 = false ∧ s.lineJudge.rf .brn b Off.brnLineStat 8 5 = 16 := by
  unfold State.lineJudge
  extract_lets l n old mean
  have hn' : n = 16 := hn
  rw [if_neg (not_not.mpr hsrc), if_pos hn', State.rb, State.rb, State.rf, (linePerUpdate_lineStat_shows _ true false n hb).1, hn']
  decide

theorem mainsCrossing_locks {per : BitVec 32} (hseen : s.line.seen = true) (hlo : 48484848 ≤ per.toNat) (hhi : per.toNat ≤ 71111111)
    (hn : s.line.periods.length = 15) :
    ∃ t, exec (.mainsCrossing per) s = .next t ∧ t.rb .brn b Off.brnLineStat 0 = true ∧ t.rb .brn b Off.brnLineStat 1 = false ∧
      t.rf .brn b Off.brnLineStat 8 5 = 16 := by
  let x : State := { s with line := { s.line with periods := (per.toNat :: s.line.periods).take 16 } }
  have hexec : exec (.mainsCrossing per) s = .next x.lineJudge := (if_neg (by simp [hseen])).trans (if_neg (by omega))
  exact ⟨_, hexec, lineJudge_locks (s := x) hsrc hb (by simp [x, hn])⟩

theorem mainsCrossing_loses {per : BitVec 32} (hseen : s.line.seen = true) (hper : per.toNat < 48484848 ∨ 71111111 < per.toNat) :
    ∃ t, exec (.mainsCrossing per) s = .next t ∧ t.rb .brn b Off.brnLineStat 0 = false ∧ t.rb .brn b Off.brnLineStat 1 = true := by
  obtain ⟨hlocked, hlost, -⟩ := lineLose_shows hsrc hb
  exact ⟨_, (if_neg (by simp [hseen])).trans (if_pos hper), hlocked, hlost⟩

end

/-! ### Reference buffers (R380, R381) -/

section
variable {s : State} {r : Requester} {b : Fin 8}

/-- A buffer that goes off shows EN = 0, and its status reads 0. -/
theorem refOff_shows (s : State) (b : Nat) :
    (s.refOff b).rb .brn b Off.brnRefCtrl 0 = false ∧ (s.refOff b).rd .brn b Off.brnRefStat = 0 := by
  have hregs : (s.refOff b).regs = ((s.wb .brn b Off.brnRefCtrl 0 false).wr .brn b Off.brnRefStat 0).regs := by
    refine foldl_keeps (fun x : State => x.regs = _) (fun x e hx => ?_) _ rfl
    dsimp only
    split
    · exact (State.setCnv_regs ..).trans hx
    · exact hx
  refine ⟨?_, (rd_of_regs hregs ..).trans (rd_wr_same ..)⟩
  rw [rb_of_rd (rd_of_regs hregs ..), rb_of_rd (rd_wr_off _ .brn .brn _ (by decide))]
  exact rb_wb_same s .brn b _ 0 false (by decide)

/-- EN of an enabled page takes effect (R380). -/
theorem refCtrlWrite_on (s : State) (b : Nat) (hen : s.pageEn .brn b = true) :
    (refCtrlWrite b (word 1) s).rb .brn b Off.brnRefCtrl 0 = true ∧ (refCtrlWrite b (word 1) s).rb .brn b Off.brnRefStat 0 = true := by
  unfold refCtrlWrite
  rw [if_neg (by decide), if_neg (by simp [hen])]
  refine ⟨?_, rb_wb_same _ .brn b _ 0 true (by decide)⟩
  rw [rb_of_rd (rd_wb_offset _ .brn b _ b _ 0 true (by decide))]
  exact rb_wb_same s .brn b _ 0 true (by decide)

theorem refEnable_on (hacc : s.accepts r .brn b Off.brnRefCtrl (word 1) = true) (hen : s.pageEn .brn b = true) :
    ∃ t, exec (.refEnable r b true) s = .next t ∧ t.rb .brn b Off.brnRefCtrl 0 = true ∧ t.rb .brn b Off.brnRefStat 0 = true :=
  ⟨_, congrArg Host.Outcome.next (guarded_of_accepts hacc _), refCtrlWrite_on s b hen⟩

theorem refEnable_off (hacc : s.accepts r .brn b Off.brnRefCtrl (word 0) = true) :
    ∃ t, exec (.refEnable r b false) s = .next t ∧ t.rb .brn b Off.brnRefCtrl 0 = false ∧ t.rd .brn b Off.brnRefStat = 0 :=
  have hoff : refCtrlWrite b (word 0) s = s.refOff b := if_pos (by decide)
  ⟨_, congrArg Host.Outcome.next ((guarded_of_accepts hacc _).trans hoff), refOff_shows s b⟩

/-- An enabled buffer is READY once its settling time is over (R380). -/
theorem refReady_shows (hen : s.rb .brn b Off.brnRefStat 0 = true) :
    ∃ t, exec (.refReady b) s = .next t ∧ t.rb .brn b Off.brnRefStat 1 = true := by
  change ∃ t, execRefReady b s = .next t ∧ _
  unfold execRefReady
  split
  · refine ⟨_, rfl, ?_⟩
    rw [rb_of_rd (rd_brnEvent _ b 1 b (by decide))]
    exact rb_wb_same s .brn b _ 1 true (by decide)
  · rename_i h
    exact ⟨s, rfl, by simpa [hen] using h⟩

end

/-- Settles O29: each command by its own lemma above. -/
theorem mainsAndReferenceFollowTheirInputs : Obligations.MainsAndReferenceFollowTheirInputs := by
  unfold Obligations.MainsAndReferenceFollowTheirInputs
  exact ⟨fun _ b _ hseen hsrc => ⟨fun ⟨hlo, hhi, hn⟩ => mainsCrossing_locks hsrc b.isLt hseen hlo hhi hn,
      mainsCrossing_loses hsrc b.isLt hseen⟩,
    fun b _ hsrc => ⟨_, rfl, lineLose_shows hsrc b.isLt⟩, fun _ _ _ => ⟨refEnable_on, refEnable_off⟩, fun _ _ => refReady_shows⟩

end Sys2Proof.Machine

/-!
PROOF. Acquisition engines (R395 to R427): what the operations over an engine leave of its slots, its records and the trigger of the
record in progress; each command of the ACQ page, the end of a slot and the end of REARM; and O30.
-/

namespace Sys2Proof.Machine

/-! ### Records and states of engines -/

section
variable {s t : State} {b : Nat}

@[simp] theorem acq_setAcq_same (v : AcqSt) : (s.setAcq b v).acq b = v := Store.getD_setD_same ..

theorem acq_of_acqs (h : t.acqs = s.acqs) : t.acq b = s.acq b := by rw [State.acq, State.acq, h]

@[simp] theorem acq_wr (k : PageKind) (i o : Nat) (v : Word) : (s.wr k i o v).acq b = s.acq b := acq_of_acqs (State.wr_acqs ..)

theorem rd_setAcq (v : AcqSt) (k : PageKind) (i o : Nat) : (s.setAcq b v).rd k i o = s.rd k i o :=
  rd_of_regs (State.setAcq_regs ..) ..

theorem acqState_setAcqState {v : Nat} (hv : v < 4) : (s.setAcqState b v).acqState b = v :=
  (rf_wf_same s .acq b Off.acqStat 0 2 v (by decide)).trans (Nat.mod_eq_of_lt hv)

end

/-! ### Entering FILL and IDLE -/

section
variable (s : State) (b : Nat)

theorem acq_acqDrained : (s.acqDrained b).acq b = { s.acq b with buf := 0 } := by
  unfold State.acqDrained
  extract_lets _ s1
  have hs1 : s1.acq b = { s.acq b with buf := 0 } := acq_setAcq_same _
  split
  · exact (acq_wr ..).trans hs1
  · exact hs1

/-- Of the registers, the port's panic alone may move. -/
theorem rd_acqDrained {k : PageKind} (i o : Nat) (hk : k ≠ .hbm) : (s.acqDrained b).rd k i o = s.rd k i o := by
  unfold State.acqDrained
  extract_lets _ s1
  split
  · exact (rd_wr_kind _ _ _ _ _ _ hk).trans (rd_setAcq ..)
  · exact rd_setAcq ..

/-- An engine that goes to IDLE keeps its record and its counts. -/
theorem acqIdle_shows : (s.acqIdle b).acqState b = aIdle ∧ (s.acqIdle b).acq b = { s.acq b with buf := 0 } :=
  ⟨acqState_setAcqState (by decide), (acq_wr ..).trans ((acq_wr ..).trans (acq_acqDrained s b))⟩

/-- An engine that enters FILL has an empty memory and no record (R402). -/
theorem acqFill_shows : (s.acqFill b).acqState b = aFill ∧ ((s.acqFill b).acq b).mem = [] ∧ ((s.acqFill b).acq b).rcd = none := by
  unfold State.acqFill
  extract_lets x a s1
  have hs1 : ((s1.wf .acq b Off.acqStat 16 16 0).setAcqState b aFill).acq b = _ :=
    (acq_wr ..).trans ((acq_wr ..).trans (acq_setAcq_same _))
  exact ⟨acqState_setAcqState (by decide), congrArg AcqSt.mem hs1, congrArg AcqSt.rcd hs1⟩

/-- Of the ACQ page, entering FILL moves ACQ_STAT alone. -/
theorem rd_acqFill {o : Nat} (h : o % 0x1000 ≠ Off.acqStat) : (s.acqFill b).rd .acq b o = s.rd .acq b o :=
  (rd_wf_offset _ .acq b _ b o _ _ _ h).trans ((rd_wf_offset _ .acq b _ b o _ _ _ h).trans
    ((rd_setAcq ..).trans (rd_acqDrained s b b o (by decide))))

end

/-! ### What the operations over an engine leave of it -/

/-- The trigger of a record: its tick and its slot. -/
def AcqRec.trigger (r : AcqRec) : Nat × Nat := (r.tick, r.slot)

/-- The slots and the records of an arm. -/
def AcqSt.counts (a : AcqSt) : Nat × Nat := (a.slots, a.done)

/-- The slots, the records and the trigger of the record in progress. -/
def AcqSt.marks (a : AcqSt) : (Nat × Nat) × Option (Nat × Nat) := (a.counts, a.rcd.map AcqRec.trigger)

def State.acqCounts (s : State) (b : Nat) : Nat × Nat := (s.acq b).counts
def State.acqMarks (s : State) (b : Nat) : (Nat × Nat) × Option (Nat × Nat) := (s.acq b).marks

section
variable {s t : State} {b n : Nat} {force : Bool} {r v : AcqRec}

theorem acqCounts_of_acqMarks (h : t.acqMarks b = s.acqMarks b) : t.acqCounts b = s.acqCounts b := congrArg Prod.fst h

theorem acqMarks_of_acqs (h : t.acqs = s.acqs) : t.acqMarks b = s.acqMarks b := congrArg AcqSt.marks (acq_of_acqs h)

theorem acqCounts_setAcq (a : AcqSt) : (s.setAcq b a).acqCounts b = a.counts := congrArg AcqSt.counts (acq_setAcq_same a)
theorem acqMarks_setAcq (a : AcqSt) : (s.setAcq b a).acqMarks b = a.marks := congrArg AcqSt.marks (acq_setAcq_same a)

/-- A record stored in place of one with the same trigger. -/
theorem marks_withRcd {a : AcqSt} (v : AcqRec) (hr : a.rcd = some r) (hv : v.trigger = r.trigger) :
    { a with rcd := some v }.marks = a.marks := by
  simp only [AcqSt.marks, AcqSt.counts, hr, Option.map_some, hv]

theorem acqs_portPanic (i : Nat) : (s.portPanic i).acqs = s.acqs := by
  unfold State.portPanic
  split
  · rfl
  · rw [State.event_acqs, State.sat_acqs, State.wb_acqs]

theorem acqs_offer (p : Producer) (wait : Bool) (ty body : Nat) : (s.offer n p wait ty body).1.acqs = s.acqs :=
  (congrArg State.acqs (entryFrame_offer s n p wait ty body).eq :)

theorem trigger_acqSettled : (s.acqSettled b n force r).trigger = r.trigger := by
  unfold State.acqSettled
  split
  · split <;> rfl
  · rfl

/-- An entry is offered and the record moves on. -/
theorem acqMarks_offered {x : State} (hx : x.acqs = s.acqs) (hr : (s.acq b).rcd = some r) (hv : v.trigger = r.trigger) (k : Nat) :
    (x.setAcq b { x.acq b with rcd := some v, buf := k }).acqMarks b = s.acqMarks b := by
  have hmarks := marks_withRcd (a := { x.acq b with buf := k }) v ((congrArg AcqSt.rcd (acq_of_acqs hx)).trans hr) hv
  exact (acqMarks_setAcq _).trans (hmarks.trans (acqMarks_of_acqs hx))

theorem acqMarks_acqOffer (ht : s.acqOffer b n force = some t) : t.acqMarks b = s.acqMarks b := by
  unfold State.acqOffer at ht
  dsimp only at ht
  split at ht
  · cases ht
  · rename_i v hv
    obtain ⟨r, hr, rfl⟩ := Option.map_eq_some_iff.mp hv
    repeat' split at ht
    all_goals cases ht
    all_goals exact acqMarks_offered (by exact acqs_offer ..) hr (by exact trigger_acqSettled) _

theorem acqMarks_acqPumpN (fuel : Nat) : (s.acqPumpN b n force fuel).acqMarks b = s.acqMarks b := by
  induction fuel generalizing s with
  | zero => rfl
  | succ f ih =>
    rw [State.acqPumpN]
    split
    · rename_i x hx
      rw [ih, acqMarks_acqOffer hx]
    · rfl

theorem acqMarks_acqRelease : (s.acqRelease b n).acqMarks b = s.acqMarks b := by
  unfold State.acqRelease
  split
  · rfl
  · exact acqMarks_setAcq _

theorem acqMarks_acqPort : (s.acqPort b).acqMarks b = s.acqMarks b := by
  unfold State.acqPort
  extract_lets a held s1
  have hs1 : s1.acqMarks b = s.acqMarks b := acqMarks_setAcq _
  split
  · rfl
  · split
    · exact (acqMarks_of_acqs (acqs_portPanic _)).trans hs1
    · split
      · exact (acqMarks_of_acqs (State.wb_acqs ..)).trans hs1
      · exact hs1

theorem acqMarks_acqStore (hr : (s.acq b).rcd = some r) : (s.acqStore b r).acqMarks b = s.acqMarks b := by
  unfold State.acqStore
  extract_lets e s1 s2 s3
  have hs3 : s3.acqs = s.acqs := (State.wr2_acqs ..).trans ((State.wr_acqs ..).trans ((State.wr_acqs ..).trans
    ((State.wr_acqs ..).trans (State.storeResult_acqs ..))))
  have hmarks := marks_withRcd (a := s3.acq b) { r with stored := true } ((congrArg AcqSt.rcd (acq_of_acqs hs3)).trans hr) rfl
  exact (acqMarks_setAcq _).trans (hmarks.trans (acqMarks_of_acqs hs3))

theorem acqMarks_acqPump : (s.acqPump b force).acqMarks b = s.acqMarks b := by
  unfold State.acqPump
  extract_lets fuel s1
  have hs1 : s1.acqMarks b = s.acqMarks b := by
    simp only [s1]
    split
    · exact acqMarks_acqPort.trans (acqMarks_acqRelease.trans (acqMarks_acqPumpN fuel))
    · rfl
  split
  · exact hs1
  · rename_i r hr
    extract_lets posted
    split
    · exact (acqMarks_acqStore hr).trans hs1
    · exact hs1

theorem acqMarks_acqClose (code : Nat) (trunc : Bool) : (s.acqClose b n code trunc).acqMarks b = s.acqMarks b := by
  unfold State.acqClose
  extract_lets a s1
  have hs1 : s1.acqs = s.acqs := by
    simp only [s1]
    split <;> rfl
  split
  · rfl
  · rename_i r hr
    extract_lets z r1
    have hset : (s1.setAcq b { a with rcd := some r1 }).acqMarks b = s.acqMarks b :=
      (acqMarks_setAcq _).trans (marks_withRcd r1 hr rfl)
    exact (acqMarks_of_acqs (State.event_acqs ..)).trans (acqMarks_acqPump.trans ((acqMarks_of_acqs (State.wf_acqs ..)).trans hset))

theorem acqMarks_acqPostCheck : (s.acqPostCheck b).acqMarks b = s.acqMarks b := by
  unfold State.acqPostCheck
  extract_lets a
  split
  · rfl
  · split
    · exact acqMarks_acqClose 0 _
    · rfl

theorem acqMarks_acqOverflow : (s.acqOverflow b n).acqMarks b = s.acqMarks b := by
  unfold State.acqOverflow
  split
  · rename_i r k hr _
    extract_lets top
    split
    · exact acqMarks_acqPostCheck.trans ((acqMarks_setAcq _).trans (marks_withRcd _ hr (by exact rfl)))
    · rfl
  · rfl

/-- A trigger is taken: its result is pending, POST is entered and what is due is posted (R405, R420). -/
def State.acqTriggered (s : State) (b n : Nat) : State :=
  (((((s.startResult .acq b (Off.acqRes 0)).setAcqState b aPost).acqPump b false).event .acq b 1).acqOverflow b n).acqPostCheck b

theorem acqMarks_acqTriggered : (s.acqTriggered b n).acqMarks b = s.acqMarks b :=
  acqMarks_acqPostCheck.trans (acqMarks_acqOverflow.trans ((acqMarks_of_acqs (State.event_acqs ..)).trans (acqMarks_acqPump.trans
    ((acqMarks_of_acqs (State.wf_acqs ..)).trans (acqMarks_of_acqs (State.startResult_acqs ..))))))

/-- An event starts or counts a trigger at most: slots and records stay (R405 to R408). -/
theorem acqCounts_acqEvent (s : State) (b t : Nat) : (s.acqEvent b t).acqCounts b = s.acqCounts b := by
  unfold State.acqEvent
  extract_lets a n pre room r r1 s1 s2
  split
  · rfl
  · split
    · exact congrArg AcqSt.counts (acq_wr ..)
    · split
      · rfl
      · split
        · exact (acqCounts_of_acqMarks acqMarks_acqTriggered).trans (acqCounts_setAcq _)
        · exact (acqCounts_of_acqMarks (acqMarks_of_acqs (State.event_acqs ..))).trans (acqCounts_setAcq _)

theorem acqCounts_acqReach (s : State) (b : Nat) : (s.acqReach b).acqCounts b = s.acqCounts b := by
  unfold State.acqReach
  extract_lets a
  split
  · rfl
  · exact (view_foldl (view := fun x => x.acqCounts b) (fun x t => acqCounts_acqEvent x b t) _ _).trans (acqCounts_setAcq _)

theorem acqCounts_acqLevelStep : (s.acqLevelStep b n).acqCounts b = s.acqCounts b := by
  unfold State.acqLevelStep
  extract_lets a i s0 thr hy fall c
  have hs0 : s0.acqCounts b = s.acqCounts b := acqCounts_setAcq _
  split
  · rfl
  · split
    · exact hs0
    · extract_lets v cross leave s1
      have hs1 : s1.acqCounts b = s.acqCounts b := (acqCounts_setAcq _).trans hs0
      split
      · exact (acqCounts_acqEvent s1 b _).trans hs1
      · exact hs1

end

/-! ### Arm, STOP and FORCE (R403, R422, R423, R425) -/

section
variable (b : Nat) (s : State)

theorem acqCtrlWrite_arm : acqCtrlWrite b 1 s = (s.acqReach b).acqArm b := by
  unfold acqCtrlWrite
  rw [if_pos (by decide), if_neg (by decide), if_neg (by decide)]

theorem acqCtrlWrite_stop : acqCtrlWrite b 2 s = (s.acqReach b).acqStop b := by
  unfold acqCtrlWrite
  rw [if_neg (by decide), if_pos (by decide)]

theorem acqCtrlWrite_force : acqCtrlWrite b 4 s = (s.acqReach b).acqEvent b (s.acqReach b).now := by
  unfold acqCtrlWrite
  rw [if_neg (by decide), if_neg (by decide), if_pos (by decide)]

end

section
variable {s : State} {r : Requester} {b : Fin 8}

/-- An accepted arm shows no result and no missed trigger (R422). -/
theorem acqArmed_shows (s : State) (b : Nat) : (s.acqArmed b).acqState b = aFill ∧ ((s.acqArmed b).acq b).mem = [] ∧
    ((s.acqArmed b).acq b).rcd = none ∧ (s.acqArmed b).rb .acq b (Off.acqRes 0) 16 = false ∧
    (s.acqArmed b).rd .acq b Off.acqMissed = 0 := by
  unfold State.acqArmed
  extract_lets s1 s2 w coming a0
  generalize hx : s2.setAcq b _ = x
  obtain ⟨hstate, hmem, hrcd⟩ := acqFill_shows x b
  have hrd : ∀ {o}, o % 0x1000 ≠ Off.acqStat → (x.acqFill b).rd .acq b o = s2.rd .acq b o := fun h =>
    (rd_acqFill x b h).trans (hx ▸ rd_setAcq ..)
  refine ⟨hstate, hmem, hrcd, ?_, ?_⟩
  · have kept : s2.rd .acq b (Off.acqRes 0) = ((s.acqStoreOld b).startResult .acq b (Off.acqRes 0)).rd .acq b (Off.acqRes 0) := by
      simp only [s2, s1, State.wr2]
      repeat rw [rd_wr_offset _ _ _ _ _ _ _ (by decide)]
    rw [rb_of_rd ((hrd (by decide)).trans kept)]
    exact startResult_valid ..
  · rw [hrd (by decide), rd_wr_offset _ _ _ _ _ _ _ (by decide), rd_wr_offset _ _ _ _ _ _ _ (by decide), rd_wr_same]

theorem acqArm_fills (hacc : s.accepts r .acq b Off.acqCtrl 1 = true) (hshut : (s.acqReach b).acqArmShut b = none)
    (herr : (s.acqReach b).acqArmError b = none) (hidle : (s.acqReach b).acqState b = aIdle) :
    exec (.acqArm r b) s = .next ((s.acqReach b).acqArmed b) := by
  have harm : (s.acqReach b).acqArm b = (s.acqReach b).acqArmed b := by
    unfold State.acqArm
    simp only [hshut, herr, hidle, ne_eq, not_true_eq_false, if_false]
  exact congrArg Host.Outcome.next ((guarded_of_accepts hacc _).trans ((acqCtrlWrite_arm b s).trans harm))

theorem acqStop_idles (hacc : s.accepts r .acq b Off.acqCtrl 2 = true) (hfill : (s.acqReach b).acqState b = aFill) :
    exec (.acqStop r b) s = .next ((s.acqReach b).acqIdle b) := by
  have hstop : (s.acqReach b).acqStop b = (s.acqReach b).acqIdle b := by
    unfold State.acqStop
    rw [if_neg (by rw [hfill]; decide), if_pos hfill]
  exact congrArg Host.Outcome.next ((guarded_of_accepts hacc _).trans ((acqCtrlWrite_stop b s).trans hstop))

theorem exec_acqForce (hacc : s.accepts r .acq b Off.acqCtrl 4 = true) :
    exec (.acqForce r b) s = .next ((s.acqReach b).acqEvent b (s.acqReach b).now) :=
  congrArg Host.Outcome.next ((guarded_of_accepts hacc _).trans (acqCtrlWrite_force b s))

/-- An event that passes in FILL starts a record at its tick and slot (R405, R406). -/
theorem acqEvent_triggers {b t : Nat} (hfill : s.acqState b = aFill) (harm : t ≠ (s.acq b).armTick)
    (hlast : (s.acq b).lastTrig ≠ some t) (hqual : s.acqQualified b t = true)
    (hhold : (s.acq b).fillSlot + s.rf .acq b Off.acqQual 16 16 ≤ (s.acq b).slotOf t) :
    ∃ rc, ((s.acqEvent b t).acq b).rcd = some rc ∧ rc.tick = t ∧ rc.slot = (s.acq b).slotOf t := by
  have hmarks : ((s.acqEvent b t).acqMarks b).2 = some (t, (s.acq b).slotOf t) := by
    unfold State.acqEvent
    extract_lets a n pre room r r1 s1 s2
    have hrun : ¬(s.acqState b = aIdle ∨ t = a.armTick) := by
      rintro (h | h)
      · exact absurd (hfill.symm.trans h) (by decide)
      · exact harm h
    have hpass : ¬(s.acqQualified b t = false ∨ n < a.fillSlot + s.rf .acq b Off.acqQual 16 16) := by
      rintro (h | h)
      · exact Bool.false_ne_true (h.symm.trans hqual)
      · exact absurd hhold (Nat.not_le.mpr h)
    rw [if_neg hrun, if_neg hpass, if_neg hlast, if_pos hfill]
    have hkept : (s1.acqTriggered b (a.slots - 1)).acqMarks b = s1.acqMarks b := acqMarks_acqTriggered
    exact congrArg Prod.snd (hkept.trans (acqMarks_setAcq _))
  obtain ⟨rc, hrc, htrig⟩ := Option.map_eq_some_iff.mp hmarks
  exact ⟨rc, hrc, congrArg Prod.fst htrig, congrArg Prod.snd htrig⟩

end

/-! ### The ends of a slot and of REARM (R396, R398, R420) -/

section
variable {s : State} {b : Fin 8}

/-- A slot that a stream has passed and every live stream has filled ends. -/
theorem acqSlotEnd_counts (hrun : s.acqState b ≠ aIdle) (hpast : ∃ i ∈ s.acqGood b, (s.acq b).slots < (s.acq b).apersOf i)
    (hall : ∀ i ∈ s.acqGood b, natBit (s.acq b).begun i = false ∨ natBit (s.acq b).ended i = true ∨
      ((s.acq b).slots : Int) < ((s.acq b).apersOf i : Int) + s.acqSkewOf b i) :
    ∃ t, exec (.acqSlotEnd b) s = .next t ∧ (t.acq b).slots = (s.acq b).slots + 1 := by
  change ∃ t, execAcqSlotEnd b s = .next t ∧ _
  unfold execAcqSlotEnd
  extract_lets a n good past all s0 _ s1 s2 x pre held s3
  have hp : past = true := by simpa [past, List.any_eq_true] using hpast
  have ha : all = true := by simpa [all, List.all_eq_true, or_assoc] using hall
  have hs2 : (s2.acq b).slots = n + 1 := (congrArg Prod.fst (acqCounts_acqLevelStep (s := s1) (b := b) (n := n))).trans
    (congrArg AcqSt.slots (acq_setAcq_same _))
  rw [if_neg (by simp [hrun, hp, ha])]
  split
  · refine ⟨_, rfl, ?_⟩
    rw [State.wf, acq_wr, acq_setAcq_same]
    exact hs2
  · split
    · exact ⟨_, rfl, (congrArg (fun m => m.1.1) (acqMarks_acqPostCheck.trans acqMarks_acqPump)).trans hs2⟩
    · exact ⟨_, rfl, hs2⟩

/-- With no ring and its result stored, a record has nothing left to post. -/
theorem acqPump_of_stored {b : Nat} {r : AcqRec} {force : Bool} (hring : (s.acq b).ring = none) (hrcd : (s.acq b).rcd = some r)
    (hstored : r.stored = true) : s.acqPump b force = s := by
  unfold State.acqPump
  simp only [hring, hrcd, hstored, Bool.not_true, Bool.and_false, Bool.false_eq_true, if_false]

/-- After the one record that was asked for the engine goes to IDLE. -/
theorem rearmEnd_idles {r : AcqRec} (hrearm : s.acqState b = aRearm) (hring : (s.acq b).ring = none) (hrcd : (s.acq b).rcd = some r)
    (hstored : r.stored = true) (hnrec : s.rf .acq b Off.acqNrec 0 16 = 1) :
    ∃ t, exec (.rearmEnd b) s = .next t ∧ t.acqState b = aIdle ∧ (t.acq b).done = (s.acq b).done + 1 := by
  change ∃ t, execRearmEnd b s = .next t ∧ _
  unfold execRearmEnd
  rw [if_neg (not_not.mpr hrearm), acqPump_of_stored hring hrcd hstored]
  extract_lets s1 nrec
  split
  · rename_i hnone
    exact absurd (hrcd.symm.trans hnone) (Option.some_ne_none r)
  · rename_i r' hr'
    obtain rfl : r = r' := Option.some_inj.mp (hrcd.symm.trans hr')
    rw [if_neg (by simp [hstored])]
    extract_lets s2 a d s3
    have hdone : a.done = (s.acq b).done := congrArg Prod.snd (acqCounts_acqReach (s.atNow (r.since + 6400)) b)
    have hlast : nrec ≠ 0 ∧ nrec ≤ a.done + 1 := by
      simp only [nrec, hnrec]
      omega
    rw [if_pos (.inr (.inl hlast))]
    obtain ⟨hidle, hacq⟩ := acqIdle_shows s3 b
    refine ⟨_, rfl, hidle, ?_⟩
    rw [hacq, acq_setAcq_same, ← hdone]

end

/-- Settles O30: each command by its own lemma above. -/
theorem acquisitionEnginesRecord : Obligations.AcquisitionEnginesRecord := by
  unfold Obligations.AcquisitionEnginesRecord
  refine ⟨fun r b s hacc hshut herr hidle => ⟨_, acqArm_fills hacc hshut herr hidle, acqArmed_shows (s.acqReach b) b⟩,
    fun r b s hacc hfill => ⟨_, acqStop_idles hacc hfill, (acqIdle_shows (s.acqReach b) b).1⟩,
    fun r b s hacc hfill harm hlast hqual hhold => ?_, fun b s => acqSlotEnd_counts, fun b rc s => rearmEnd_idles⟩
  obtain ⟨rc, hrc, hstart⟩ := acqEvent_triggers hfill harm hlast hqual hhold
  exact ⟨_, rc, exec_acqForce hacc, hrc, hstart⟩

end Sys2Proof.Machine

/-!
PROOF. What every command keeps, whatever it does: the queue of waiting commands, the canonical form of the stores, the bounds of
the logbook, and the option rows but for the counter, which never falls. One rule for each operation of the model says that it
keeps them; the commands follow, and with them O3, O4, O5, O7 and O8.
-/

namespace Sys2Proof.Machine

/-- At most 16 entries wait for the logbook, and its write pointer lies within its 512 slots (R660, R661). -/
def State.logBounded (s : State) : Prop := s.lan.queue.length ≤ 16 ∧ s.lan.wptr < 512

/-- The target of a programming in progress is not below the anti-rollback counter (R587). -/
def State.svnBelow (s : State) : Prop := ∀ n, s.gth.programming = some n → s.otp.svn ≤ n

/-- What each operation keeps on the way from `s` to `t`. -/
structure State.Keeps (s t : State) : Prop where
  queue : t.pending = s.pending
  stores : s.storesOk = true → t.storesOk = true
  log : s.logBounded → t.logBounded
  svn : s.svnBelow → s.otp.svn ≤ t.otp.svn ∧ t.otp = { s.otp with svn := t.otp.svn } ∧ t.svnBelow

/-- A command answers a next state, and keeps what each operation keeps. -/
def State.Answers (s : State) (r : Result) : Prop := ∃ t, r = .next t ∧ s.Keeps t

/-- A stage of a routine at work keeps it. -/
abbrev Job.Keeps (s : State) (j : Job) : Prop := s.Keeps j.s

/-- All of the state that these invariants speak of. -/
def State.kept (s : State) :=
  (s.pending, s.regs, s.hay.cells, s.hay.tags, s.flash, s.lan.queue, s.lan.wptr, s.otp, s.gth.programming)

section
variable {σ s t : State} {α : Type}

theorem storesOk_iff : s.storesOk = true ↔ s.regsOk ∧ s.hayWf ∧ s.flashWf := by
  simp only [State.storesOk, State.regsOk, State.hayWf, State.flashWf, Memory.wf, Bool.and_eq_true, and_assoc]

/-- Putting entries into a store one by one keeps its keys rising. -/
theorem sorted_foldl_put {β : Type} (l : List β) (key : β → Nat) (val : β → α) {m : List (Nat × α)} (h : Store.sorted m = true) :
    Store.sorted (l.foldl (fun m e => Store.put m (key e) (val e)) m) = true :=
  foldl_keeps (fun m => Store.sorted m = true) (fun _ _ hm => Store.sorted_put _ _ hm) l h

/-- The cells under the reset mapping are in canonical form again (R544). -/
theorem hayUnmap_sorted (h : s.hayWf) : Memory.wf s.hayUnmap.cells = true ∧ Store.sorted s.hayUnmap.tags = true := by
  unfold State.hayUnmap
  dsimp only
  split
  · exact h
  · exact ⟨sorted_foldl_put _ (fun e : Host.Cell => s.unmapped e.1) Prod.snd rfl,
      sorted_foldl_put _ (fun e : Nat × Nat => s.unmapped (32 * e.1) / 32) Prod.snd rfl⟩

namespace State.Keeps

theorem refl (s : State) : s.Keeps s := ⟨rfl, id, id, fun h => ⟨le_refl _, rfl, h⟩⟩

theorem trans (h : σ.Keeps s) (k : s.Keeps t) : σ.Keeps t where
  queue := k.queue.trans h.queue
  stores := k.stores ∘ h.stores
  log := k.log ∘ h.log
  svn h0 := by
    obtain ⟨hle, hrest, hs⟩ := h.svn h0
    obtain ⟨kle, krest, ks⟩ := k.svn hs
    exact ⟨hle.trans kle, by rw [krest, hrest], ks⟩

/-- An update of other fields. -/
theorem same (h : σ.Keeps s) (e : t.kept = s.kept) : σ.Keeps t := by
  simp only [State.kept, Prod.mk.injEq] at e
  obtain ⟨hp, hr, hc, ht, hf, hq, hw, ho, hg⟩ := e
  refine h.trans ⟨hp, fun k => ?_, fun k => ?_, fun k => ⟨by rw [ho], by rw [ho], fun n hn => ?_⟩⟩
  · rwa [State.storesOk, hr, hc, ht, hf]
  · rwa [State.logBounded, hq, hw]
  · rw [ho]
    exact k n (hg ▸ hn)

/-- An update of the stores alone. -/
theorem restored (h : σ.Keeps s) (e : ({ t with regs := s.regs, hay := s.hay, flash := s.flash } : State).kept = s.kept)
    (k : s.storesOk = true → t.storesOk = true) : σ.Keeps t := by
  simp only [State.kept, Prod.mk.injEq, true_and] at e
  obtain ⟨hp, hq, hw, ho, hg⟩ := e
  refine h.trans ⟨hp, k, fun l => ?_, fun l => ⟨by rw [ho], by rw [ho], fun n hn => ?_⟩⟩
  · rwa [State.logBounded, hq, hw]
  · rw [ho]
    exact l n (hg ▸ hn)

/-- An update of the logbook alone. -/
theorem relogged (h : σ.Keeps s) (e : ({ t with lan := s.lan } : State).kept = s.kept) (k : s.logBounded → t.logBounded) :
    σ.Keeps t := by
  simp only [State.kept, Prod.mk.injEq, true_and] at e
  obtain ⟨hp, hr, hc, ht, hf, ho, hg⟩ := e
  refine h.trans ⟨hp, fun k => ?_, k, fun l => ⟨by rw [ho], by rw [ho], fun n hn => ?_⟩⟩
  · rwa [State.storesOk, hr, hc, ht, hf]
  · rw [ho]
    exact l n (hg ▸ hn)

/-- The other fields are of no account. -/
theorem aside (h : σ.Keeps s) {now epoch : Nat} {epochLog : List Nat} {free : Nat} {snaps stage : List (Nat × Word)} {resp :
    List Word} {sent : List Msg} {pins : Pins} {mode : ModeSt} {keys : List (Nat × Nat)} {keyGen : Nat} {regions : List (Nat ×
    Region)} {rings : List (Nat × RingSt)} {fns : List (Nat × FnCfg)} {vmask : List (Nat × Bool)} {msix : List (Nat × Word)}
    {pba : List (Nat × Bool)} {stalls : List (Nat × StallSt)} {follow tsEdges : List (Nat × Word)} {tsDirty : List Nat} {armed :
    Option Arm} {chans : List (Nat × ChanSt)} {seqs : List (Nat × SeqSt)} {catBuf : List CapRec} {tims : List (Nat × TimUnit)}
    {verniers : List (Nat × Vernier)} {lastTrig : List (Nat × (Nat × Nat))} {pmus : List (Nat × PmuSt)} {waves caps : List (Nat
    × Nat)} {acqs : List (Nat × AcqSt)} {cnvs : List (Nat × CnvUnit)} {line : Line} {evHist : List (Nat × Nat)} {ticking : Bool}
    {trips : List (Nat × Nat)} {onsets : List (Nat × (Nat × Nat))} {sampling : List (Nat × Bool)} {wchPend : List (Nat × Nat)}
    {idxs : List (Nat × Word)} {halter : HalterSt} {rst : RstSt} {weather : Weather} {cpl : Option Completion} {tap : TapInstr}
    {far : FarSt} {grooms : List (Nat × GroomSt)} {cluster : Cluster} {hbm : HbmSt} :
    σ.Keeps ⟨now, epoch, epochLog, free, s.regs, snaps, stage, resp, sent, pins, mode, s.lan, s.otp, s.flash, s.hay, keys,
    keyGen, regions, rings, fns, vmask, msix, pba, stalls, follow, tsEdges, tsDirty, armed, chans, seqs, catBuf, tims, verniers,
    lastTrig, pmus, waves, caps, acqs, cnvs, line, evHist, ticking, trips, onsets, sampling, wchPend, idxs, s.gth, halter, rst,
    weather, cpl, tap, far, grooms, cluster, hbm, s.pending⟩ := h.same rfl

/-- Nor are the other fields of the hayloft. -/
theorem hayAside (h : σ.Keeps s) {poison : List (Nat × Bool)} {xmap : List (Nat × Word)} {rowCe : List (Nat × Nat)} {rowLog :
    List (Nat × Bool)} :
    σ.Keeps { s with hay := ⟨s.hay.cells, s.hay.tags, poison, xmap, rowCe, rowLog⟩ } := h.same rfl

/-- Nor those of the lantern. -/
theorem lanAside (h : σ.Keeps s) {tick : Nat} {slots : List (Nat × BitVec 64)} {wrapped : Bool} {frz : Nat} {frozen closed :
    Bool} {lost written : Nat} {onVbak oscFail : Bool} {wear : List (Nat × Nat)} {worn : List (Nat × Bool)} {rstCnt : List (Nat
    × Nat)} {rstTotal rstLast tamper : Nat} :
    σ.Keeps { s with lan := ⟨tick, slots, s.lan.wptr, wrapped, frz, frozen, closed, lost, written, s.lan.queue, onVbak, oscFail,
    wear, worn, rstCnt, rstTotal, rstLast, tamper⟩ } := h.same rfl

/-- Both together. -/
theorem lanAside' (h : σ.Keeps s) {now epoch : Nat} {epochLog : List Nat} {free : Nat} {snaps stage : List (Nat × Word)} {resp :
    List Word} {sent : List Msg} {pins : Pins} {mode : ModeSt} {tick : Nat} {slots : List (Nat × BitVec 64)} {wrapped : Bool}
    {frz : Nat} {frozen closed : Bool} {lost written : Nat} {onVbak oscFail : Bool} {wear : List (Nat × Nat)} {worn : List (Nat
    × Bool)} {rstCnt : List (Nat × Nat)} {rstTotal rstLast tamper : Nat} {keys : List (Nat × Nat)} {keyGen : Nat} {regions :
    List (Nat × Region)} {rings : List (Nat × RingSt)} {fns : List (Nat × FnCfg)} {vmask : List (Nat × Bool)} {msix : List (Nat
    × Word)} {pba : List (Nat × Bool)} {stalls : List (Nat × StallSt)} {follow tsEdges : List (Nat × Word)} {tsDirty : List Nat}
    {armed : Option Arm} {chans : List (Nat × ChanSt)} {seqs : List (Nat × SeqSt)} {catBuf : List CapRec} {tims : List (Nat ×
    TimUnit)} {verniers : List (Nat × Vernier)} {lastTrig : List (Nat × (Nat × Nat))} {pmus : List (Nat × PmuSt)} {waves caps :
    List (Nat × Nat)} {acqs : List (Nat × AcqSt)} {cnvs : List (Nat × CnvUnit)} {line : Line} {evHist : List (Nat × Nat)}
    {ticking : Bool} {trips : List (Nat × Nat)} {onsets : List (Nat × (Nat × Nat))} {sampling : List (Nat × Bool)} {wchPend :
    List (Nat × Nat)} {idxs : List (Nat × Word)} {halter : HalterSt} {rst : RstSt} {weather : Weather} {cpl : Option Completion}
    {tap : TapInstr} {far : FarSt} {grooms : List (Nat × GroomSt)} {cluster : Cluster} {hbm : HbmSt} :
    σ.Keeps ⟨now, epoch, epochLog, free, s.regs, snaps, stage, resp, sent, pins, mode, ⟨tick, slots, s.lan.wptr, wrapped, frz,
    frozen, closed, lost, written, s.lan.queue, onVbak, oscFail, wear, worn, rstCnt, rstTotal, rstLast, tamper⟩, s.otp, s.flash,
    s.hay, keys, keyGen, regions, rings, fns, vmask, msix, pba, stalls, follow, tsEdges, tsDirty, armed, chans, seqs, catBuf,
    tims, verniers, lastTrig, pmus, waves, caps, acqs, cnvs, line, evHist, ticking, trips, onsets, sampling, wchPend, idxs,
    s.gth, halter, rst, weather, cpl, tap, far, grooms, cluster, hbm, s.pending⟩ := h.same rfl

/-- Nor those of the gatehouse. -/
theorem gthAside (h : σ.Keeps s) {nonce : Bool} {rejected : Nat} {unlocked listed : Bool} {bootSvn : Nat} {patchSvn : Option
    Nat} {heldTamper : Nat} {submit : Option (Bool × Nat)} :
    σ.Keeps { s with gth := ⟨nonce, rejected, unlocked, listed, bootSvn, patchSvn, s.gth.programming, heldTamper, submit⟩ } := h.same rfl

theorem ite {c : Prop} [Decidable c] (hs : σ.Keeps s) (ht : σ.Keeps t) : σ.Keeps (if c then s else t) := by
  split <;> assumption

theorem foldl {f : State → α → State} {l : List α} (h : σ.Keeps s) (hf : ∀ x a, σ.Keeps x → σ.Keeps (f x a)) :
    σ.Keeps (l.foldl f s) := foldl_keeps σ.Keeps hf l h

theorem foldlFst {β : Type} {f : State × β → α → State × β} {l : List α} {x : State × β} (h : σ.Keeps x.1)
    (hf : ∀ (y : State × β) a, σ.Keeps y.1 → σ.Keeps (f y a).1) : σ.Keeps (l.foldl f x).1 := 
  foldl_keeps (fun y : State × β => σ.Keeps y.1) hf l h

end State.Keeps

theorem Job.Keeps.ite {c : Prop} [Decidable c] {j y : Job} (hj : j.Keeps σ) (hy : y.Keeps σ) :
    Job.Keeps σ (if c then j else y) := by
  split <;> assumption

theorem Job.Keeps.foldl {j : Job} {f : Job → α → Job} {l : List α} (h : j.Keeps σ) (hf : ∀ x a, x.Keeps σ → (f x a).Keeps σ) :
    (l.foldl f j).Keeps σ := foldl_keeps (Job.Keeps σ) hf l h

theorem Job.Keeps.foldlFst {β : Type} {f : Job × β → α → Job × β} {l : List α} {x : Job × β} (h : x.1.Keeps σ)
    (hf : ∀ (y : Job × β) a, Job.Keeps σ y.1 → Job.Keeps σ (f y a).1) : Job.Keeps σ (l.foldl f x).1 :=
  foldl_keeps (fun y : Job × β => Job.Keeps σ y.1) hf l h

theorem State.Answers.ite {c : Prop} [Decidable c] {r q : Result} (hr : σ.Answers r) (hq : σ.Answers q) :
    σ.Answers (if c then r else q) := by
  split <;> assumption

theorem State.Answers.next (h : σ.Keeps s) : σ.Answers (.next s) := ⟨s, rfl, h⟩

end

section
variable {σ : State}

/-! ### Registers, results and the hayloft -/

theorem State.Keeps.setReg {s : State} {a : Nat} {v : Word} (h : σ.Keeps s) :
    σ.Keeps (s.setReg a v) := by
  refine h.restored rfl fun hs => ?_
  obtain ⟨hr, hh, hf⟩ := storesOk_iff.mp hs
  exact storesOk_iff.mpr ⟨regsOk_setReg hr a v, hh, hf⟩

theorem State.Keeps.wr {s : State} {k : PageKind} {i o : Nat} {v : Word} (h : σ.Keeps s) :
    σ.Keeps (s.wr k i o v) := by
  unfold State.wr
  exact h.setReg

theorem State.Keeps.wf {s : State} {k : PageKind} {i o lo n v : Nat} (h : σ.Keeps s) :
    σ.Keeps (s.wf k i o lo n v) := by
  unfold State.wf
  exact h.wr

theorem State.Keeps.wb {s : State} {k : PageKind} {i o b : Nat} {v : Bool} (h : σ.Keeps s) :
    σ.Keeps (s.wb k i o b v) := by
  unfold State.wb
  exact h.wf

theorem State.Keeps.sat {s : State} {k : PageKind} {i o lo n add : Nat} (h : σ.Keeps s) :
    σ.Keeps (s.sat k i o lo n add) := by
  unfold State.sat
  exact h.wf

theorem State.Keeps.inc {s : State} {k : PageKind} {i o lo n add : Nat} (h : σ.Keeps s) :
    σ.Keeps (s.inc k i o lo n add) := by
  unfold State.inc
  exact h.wf

theorem State.Keeps.resetPage {s : State} {k : PageKind} {i : Nat} {keep : Nat → Bool} (h : σ.Keeps s) :
    σ.Keeps (s.resetPage k i keep) := by
  refine h.restored rfl fun hs => ?_
  obtain ⟨hr, hh, hf⟩ := storesOk_iff.mp hs
  exact storesOk_iff.mpr ⟨regsOk_resetPage hr k i keep, hh, hf⟩

theorem State.Keeps.wr2 {s : State} {k : PageKind} {i lo hi v : Nat} (h : σ.Keeps s) :
    σ.Keeps (s.wr2 k i lo hi v) := by
  unfold State.wr2
  exact h.wr.wr

theorem State.Keeps.useFree {s : State} (h : σ.Keeps s) :
    σ.Keeps s.useFree := by
  unfold State.useFree
  exact h.aside

theorem State.Keeps.atTick {s : State} {t : Nat} (h : σ.Keeps s) :
    σ.Keeps (s.atTick t) := by
  unfold State.atTick
  exact h.aside

theorem State.Keeps.atNow {s : State} {n : Nat} (h : σ.Keeps s) :
    σ.Keeps (s.atNow n) := by
  unfold State.atNow
  exact h.aside

theorem State.Keeps.startResult {s : State} {k : PageKind} {i o : Nat} (h : σ.Keeps s) :
    σ.Keeps (s.startResult k i o) := by
  unfold State.startResult
  exact h.wb

theorem State.Keeps.storeResult {s : State} {k : PageKind} {i o rest : Nat} (h : σ.Keeps s) :
    σ.Keeps (s.storeResult k i o rest) := by
  unfold State.storeResult
  exact h.wr

theorem State.Keeps.setPenBusy {s : State} {p : Nat} {v : Bool} (h : σ.Keeps s) :
    σ.Keeps (s.setPenBusy p v) := by
  unfold State.setPenBusy
  exact h.aside.wb

theorem State.Keeps.hayWrite {s : State} {o a : Nat} {b : Byte} (h : σ.Keeps s) :
    σ.Keeps (s.hayWrite o a b) := by
  refine h.restored rfl fun hs => ?_
  obtain ⟨hr, hh, hf⟩ := storesOk_iff.mp hs
  exact storesOk_iff.mpr ⟨hr, hayWf_hayWrite hh o a b, hf⟩

theorem State.Keeps.hayWriteBytes {s : State} {o a : Nat} {bs : List Byte} (h : σ.Keeps s) :
    σ.Keeps (s.hayWriteBytes o a bs) := by
  induction bs generalizing s a with
  | nil => exact h
  | cons b t ih => exact ih h.hayWrite

theorem State.Keeps.poisonWrite {s : State} {a n : Nat} (h : σ.Keeps s) :
    σ.Keeps (s.poisonWrite a n) := by
  unfold State.poisonWrite
  exact h.foldl (fun _ _ k => .ite k (.ite k.hayAside k.sat))

theorem State.Keeps.hayStore {s : State} {o a : Nat} {bs : List Byte} (h : σ.Keeps s) :
    σ.Keeps (s.hayStore o a bs) := by
  unfold State.hayStore
  exact h.poisonWrite.hayWriteBytes

theorem State.Keeps.hayPut {s : State} {o a n v : Nat} (h : σ.Keeps s) :
    σ.Keeps (s.hayPut o a n v) := by
  unfold State.hayPut
  exact h.hayStore

theorem State.Keeps.hayForget {s : State} (h : σ.Keeps s) :
    σ.Keeps s.hayForget := by
  refine h.restored rfl fun hs => ?_
  obtain ⟨hr, hh, hf⟩ := storesOk_iff.mp hs
  exact storesOk_iff.mpr ⟨hr, hayWf_hayForget, hf⟩

theorem State.Keeps.newKey {s : State} {ix : Nat} (h : σ.Keeps s) :
    σ.Keeps (s.newKey ix) := by
  unfold State.newKey
  exact h.aside.inc

theorem State.Keeps.newKeys {s : State} (h : σ.Keeps s) :
    σ.Keeps s.newKeys := by
  unfold State.newKeys
  exact h.foldl (fun _ _ k => k.newKey)

theorem State.Keeps.setStall {s : State} {i : Nat} {v : StallSt} (h : σ.Keeps s) :
    σ.Keeps (s.setStall i v) := by
  unfold State.setStall
  exact h.aside

theorem State.Keeps.setRing {s : State} {n : Nat} {v : RingSt} (h : σ.Keeps s) :
    σ.Keeps (s.setRing n v) := by
  unfold State.setRing
  exact h.aside

theorem State.Keeps.setFnCfg {s : State} {f : Nat} {v : FnCfg} (h : σ.Keeps s) :
    σ.Keeps (s.setFnCfg f v) := by
  unfold State.setFnCfg
  exact h.aside

theorem State.Keeps.setGroom {s : State} {g : Nat} {v : GroomSt} (h : σ.Keeps s) :
    σ.Keeps (s.setGroom g v) := by
  unfold State.setGroom
  exact h.aside

/-! ### Messages and rings -/

theorem State.Keeps.setPba {s : State} {f v : Nat} {b : Bool} (h : σ.Keeps s) :
    σ.Keeps (s.setPba f v b) := by
  unfold State.setPba
  exact h.aside

theorem State.Keeps.emit {s : State} {f v : Nat} (h : σ.Keeps s) :
    σ.Keeps (s.emit f v) := by
  unfold State.emit
  exact h.aside

theorem State.Keeps.sendMsg {s : State} {ix v : Nat} (h : σ.Keeps s) :
    σ.Keeps (s.sendMsg ix v) := by
  unfold State.sendMsg
  exact .ite h.sat (.ite h.setPba h.emit)

theorem State.Keeps.ringSet {s : State} {n o lo w v : Nat} (h : σ.Keeps s) :
    σ.Keeps (s.ringSet n o lo w v) := by
  unfold State.ringSet
  exact h.setReg

theorem State.Keeps.ringFlags {s : State} {n : Nat} (h : σ.Keeps s) :
    σ.Keeps (s.ringFlags n) := by
  unfold State.ringFlags
  exact h.ringSet.ringSet

theorem State.Keeps.ringDrop {s : State} {n : Nat} (h : σ.Keeps s) :
    σ.Keeps (s.ringDrop n) := by
  unfold State.ringDrop
  exact h.ringSet

theorem State.Keeps.ringSignal {s : State} {n : Nat} (h : σ.Keeps s) :
    σ.Keeps (s.ringSignal n) := by
  unfold State.ringSignal
  exact h.setRing.sendMsg

theorem State.Keeps.ringCount {s : State} {n k : Nat} (h : σ.Keeps s) :
    σ.Keeps (s.ringCount n k) := by
  unfold State.ringCount
  exact .ite h.setRing.ringSignal h.setRing

theorem State.Keeps.ringDropSignal {s : State} {n : Nat} (h : σ.Keeps s) :
    σ.Keeps (s.ringDropSignal n) := by
  unfold State.ringDropSignal
  exact .ite h.setRing.sendMsg h

theorem State.Keeps.countLoss {s : State} {p : Producer} (h : σ.Keeps s) :
    σ.Keeps (s.countLoss p) := by
  unfold State.countLoss
  split
  · exact h.sat
  · exact h.sat
  · exact h.sat
  · exact h.sat
  · exact h.sat
  · exact h
  · exact h
  · exact h

theorem State.Keeps.ringStore {s : State} {n : Nat} {p : Producer} {ty body : Nat} {gap : Bool} (h : σ.Keeps s) :
    σ.Keeps (s.ringStore n p ty body gap) := by
  unfold State.ringStore
  exact h.hayPut.setReg.setRing.ringFlags

theorem State.Keeps.ringLose {s : State} {n : Nat} (h : σ.Keeps s) :
    σ.Keeps (s.ringLose n) := by
  unfold State.ringLose
  exact h.ringDrop.setRing.ringDropSignal

theorem State.Keeps.offer {s : State} {n : Nat} {p : Producer} {wait : Bool} {ty body : Nat} (h : σ.Keeps s) :
    σ.Keeps (s.offer n p wait ty body).1 := by
  unfold State.offer
  split
  · exact h.ringLose.countLoss
  · split
    · split
      · split
        · exact h.setRing.ringFlags
        · exact h.ringLose.countLoss
      · dsimp only
        exact h.setReg.ringDrop.ringStore.ringDropSignal.ringCount
      · exact h.ringLose.countLoss
    · exact h.ringStore.ringCount

theorem State.Keeps.post {s : State} {n : Nat} {p : Producer} {wait : Bool} {ty body : Nat} (h : σ.Keeps s) :
    σ.Keeps (s.post n p wait ty body) := by
  unfold State.post
  exact h.offer

theorem State.Keeps.acceptHeld {s : State} {n : Nat} (h : σ.Keeps s) :
    σ.Keeps (s.acceptHeld n) := by
  unfold State.acceptHeld
  split
  · exact h
  · exact .ite h h.setRing.ringStore.ringCount

theorem State.Keeps.ringDisable {s : State} {n : Nat} (h : σ.Keeps s) :
    σ.Keeps (s.ringDisable n) := by
  unfold State.ringDisable
  exact .ringFlags (h.ringSet.setRing.foldl (fun _ _ k => k.ringLose.countLoss))

theorem State.Keeps.eventPost {s : State} {ix : Nat} {p : Producer} {ty body : Nat} (h : σ.Keeps s) :
    σ.Keeps (s.eventPost ix p ty body) := by
  unfold State.eventPost
  exact .ite h.post h

theorem State.Keeps.deviceMsg {s : State} {code data : Nat} (h : σ.Keeps s) :
    σ.Keeps (s.deviceMsg code data) := by
  unfold State.deviceMsg
  exact .ite h.aside (h.foldl (fun _ _ k => k.eventPost))

/-! ### Events and errors of a page -/

theorem State.Keeps.event {s : State} {k : PageKind} {i n : Nat} (h : σ.Keeps s) :
    σ.Keeps (s.event k i n) := by
  unfold State.event
  exact .ite h (.ite h.wb.eventPost h.wb)

theorem State.Keeps.err {s : State} {k : PageKind} {i c off : Nat} (h : σ.Keeps s) :
    σ.Keeps (s.err k i c off) := by
  unfold State.err
  exact h.wb.sat.wf.wf.event

/-! ### The logbook -/

theorem State.Keeps.logLose {s : State} (h : σ.Keeps s) :
    σ.Keeps s.logLose := by
  unfold State.logLose
  exact h.lanAside

theorem State.Keeps.logOffer {s : State} {cause ty inst data : Nat} (h : σ.Keeps s) :
    σ.Keeps (s.logOffer cause ty inst data) := by
  unfold State.logOffer
  split
  · exact h.logLose
  · rename_i hroom
    refine h.relogged rfl fun ⟨_, hw⟩ => ⟨?_, hw⟩
    simp only [Bool.or_eq_true, decide_eq_true_eq, not_or] at hroom
    simp only [List.length_append, List.length_singleton]
    omega

theorem State.Keeps.lanAt {s : State} {t : Nat} (h : σ.Keeps s) :
    σ.Keeps (s.lanAt t) := by
  unfold State.lanAt
  exact h.lanAside

theorem State.Keeps.logWrite {s : State} {body : Nat} (h : σ.Keeps s) :
    σ.Keeps (s.logWrite body) := by
  exact h.relogged rfl fun ⟨hq, _⟩ => ⟨hq, Nat.mod_lt _ (by decide)⟩

theorem State.Keeps.logDrain {s : State} (h : σ.Keeps s) :
    σ.Keeps s.logDrain := by
  have k : σ.Keeps (s.lan.queue.foldl State.logWrite s) := h.foldl fun _ _ k => k.logWrite
  exact k.relogged rfl fun ⟨_, hw⟩ => ⟨Nat.zero_le _, hw⟩

theorem State.Keeps.wearCycle {s : State} {st n : Nat} {hot : Bool} (h : σ.Keeps s) :
    σ.Keeps (s.wearCycle st n hot) := by
  unfold State.wearCycle
  exact .ite h.lanAside.lanAside.event h.lanAside

/-! ### Errors of the hayloft -/

theorem State.Keeps.hbmErrAddr {s : State} {a req : Nat} {ue : Bool} (h : σ.Keeps s) :
    σ.Keeps (s.hbmErrAddr a req ue) := by
  unfold State.hbmErrAddr
  exact h.wr2

theorem State.Keeps.hbmUe {s : State} {a req : Nat} (h : σ.Keeps s) :
    σ.Keeps (s.hbmUe a req) := by
  unfold State.hbmUe
  exact h.sat.hbmErrAddr.event.logOffer

theorem State.Keeps.hbmCe {s : State} {a req : Nat} (h : σ.Keeps s) :
    σ.Keeps (s.hbmCe a req) := by
  unfold State.hbmCe
  refine .ite (.ite h.sat.hbmErrAddr.hayAside.wb h.sat.hbmErrAddr.hayAside.hayAside.event) ?_
  exact h.sat.hbmErrAddr.hayAside

theorem State.Keeps.portPanic {s : State} {b : Nat} (h : σ.Keeps s) :
    σ.Keeps (s.portPanic b) := by
  unfold State.portPanic
  exact .ite h h.wb.sat.event

theorem State.Keeps.portCalm {s : State} {b : Nat} (h : σ.Keeps s) :
    σ.Keeps (s.portCalm b) := by
  unfold State.portCalm
  exact h.wb

theorem State.Keeps.eccRead {s : State} {a n req : Nat} {e : Ecc} (h : σ.Keeps s) :
    σ.Keeps (s.eccRead a n req e).1 := by
  unfold State.eccRead
  dsimp only
  split
  · exact h.foldl (fun _ _ k => k.hbmUe)
  · exact .hbmCe (.ite (h.foldl (fun _ _ k => k.hbmUe)) (.useFree (h.foldl (fun _ _ k => k.hbmUe))))
  · exact .hbmUe (.ite (h.foldl (fun _ _ k => k.hbmUe)) (.useFree (h.foldl (fun _ _ k => k.hbmUe))))

theorem State.Keeps.hayMerge {s : State} {o a : Nat} {bs : List Byte} {req : Nat} {e : Ecc} (h : σ.Keeps s) :
    σ.Keeps (s.hayMerge o a bs req e) := by
  unfold State.hayMerge
  dsimp only
  split
  · exact h.hayStore.foldl (fun _ _ k => k.hbmUe)
  · exact h.hayStore.foldl (fun _ _ k => k.hbmUe)
  · exact .hbmCe (h.hayStore.foldl (fun _ _ k => k.hbmUe))
  · exact .hbmUe (.sat (.hayAside (h.hayStore.foldl (fun _ _ k => k.hbmUe))))

/-! ### Operands -/

theorem State.Keeps.accessError {s : State} {r : Requester} (h : σ.Keeps s) :
    σ.Keeps (s.accessError r) := by
  unfold State.accessError
  split
  · exact .ite h.sat h.sat
  · exact h.sat
  · exact h.sat

theorem State.Keeps.stageAt {s : State} {r : Requester} {a : Nat} {v : Word} (h : σ.Keeps s) :
    σ.Keeps (s.stageAt r a v) := by
  unfold State.stageAt
  exact h.aside

theorem State.Keeps.unstageAt {s : State} {a : Nat} (h : σ.Keeps s) :
    σ.Keeps (s.unstageAt a) := by
  unfold State.unstageAt
  exact h.aside

theorem State.Keeps.forgetPage {s : State} {k : PageKind} {i : Nat} (h : σ.Keeps s) :
    σ.Keeps (s.forgetPage k i) := by
  unfold State.forgetPage
  exact h.aside

theorem State.Keeps.plainWrite {s : State} {k : PageKind} {i o : Nat} {v : Word} (h : σ.Keeps s) :
    σ.Keeps (s.plainWrite k i o v) := by
  unfold State.plainWrite
  split
  · exact h.wr
  · exact h

theorem State.Keeps.guarded {s : State} {r : Requester} {k : PageKind} {i o : Nat} {v : Word} {eff : Machine.State →
    Machine.State} (h : σ.Keeps s) (heff : ∀ x0, σ.Keeps x0 → σ.Keeps (eff x0)) :
    σ.Keeps (s.guarded r k i o v eff) := by
  unfold State.guarded
  refine .ite h.accessError ?_
  split
  · exact h.err
  · exact .ite h.err (.ite h (.ite h.err (.ite h.aside.err (.ite h (heff _ h)))))

/-! ### TIM units -/

theorem State.Keeps.setTim {s : State} {st c : Nat} {v : TimUnit} (h : σ.Keeps s) :
    σ.Keeps (s.setTim st c v) := by
  unfold State.setTim
  exact h.aside

theorem State.Keeps.setVernier {s : State} {st : Nat} {v : Vernier} (h : σ.Keeps s) :
    σ.Keeps (s.setVernier st v) := by
  unfold State.setVernier
  exact h.aside

theorem State.Keeps.setTimState {s : State} {st c v : Nat} (h : σ.Keeps s) :
    σ.Keeps (s.setTimState st c v) := by
  unfold State.setTimState
  exact h.wf

theorem State.Keeps.timEnd {s : State} {st c code : Nat} (h : σ.Keeps s) :
    σ.Keeps (s.timEnd st c code) := by
  unfold State.timEnd
  exact .ite h.setTim.setTimState h

theorem State.Keeps.vernierStop {s : State} {st : Nat} (h : σ.Keeps s) :
    σ.Keeps (s.vernierStop st) := by
  unfold State.vernierStop
  exact h.wb

theorem State.Keeps.timPreempt {s : State} {st m : Nat} (h : σ.Keeps s) :
    σ.Keeps (s.timPreempt st m) := by
  unfold State.timPreempt
  exact .ite (.vernierStop (h.foldl (fun _ _ k => k.timEnd))) (h.foldl (fun _ _ k => k.timEnd))

theorem State.Keeps.timArmed {s : State} {st c : Nat} {far : Bool} (h : σ.Keeps s) :
    σ.Keeps (s.timArmed st c far) := by
  unfold State.timArmed
  exact .setTimState (.wr (.wb (.setTim (.ite h h.setStall))))

theorem State.Keeps.timArmUnit {s : State} {r : Option Requester} {st c : Nat} (h : σ.Keeps s) :
    σ.Keeps (timArmUnit r st c s) := by
  unfold Machine.timArmUnit
  refine .ite h.err ?_
  refine .ite h.err ?_
  refine .ite h.err ?_
  split
  · exact h.err
  · exact .ite h h.timArmed

theorem State.Keeps.farTimArm {s : State} {st m : Nat} (h : σ.Keeps s) :
    σ.Keeps (s.farTimArm st m) := by
  unfold State.farTimArm
  exact h.foldl (fun _ _ k => k.timArmUnit)

theorem State.Keeps.farTimEnd {s : State} {st : Nat} (h : σ.Keeps s) :
    σ.Keeps (s.farTimEnd st) := by
  unfold State.farTimEnd
  exact h.foldl (fun _ _ k => .ite k.timEnd k)

theorem State.Keeps.vernierArm {s : State} {st : Nat} (h : σ.Keeps s) :
    σ.Keeps (vernierArm st s) := by
  unfold Machine.vernierArm
  exact .ite h.err (.ite h.err (.ite h.err (.ite h h.setVernier.wb.wb)))

theorem State.Keeps.timArmWrite {s : State} {r : Requester} {st : Nat} {v : Word} (h : σ.Keeps s) :
    σ.Keeps (timArmWrite r st v s) := by
  unfold Machine.timArmWrite
  exact .ite (.vernierArm (h.foldl (fun _ _ k => k.timArmUnit))) (h.foldl (fun _ _ k => k.timArmUnit))

theorem State.Keeps.timStopWrite {s : State} {st : Nat} {v : Word} (h : σ.Keeps s) :
    σ.Keeps (timStopWrite st v s) := by
  unfold Machine.timStopWrite
  exact .ite (.vernierStop (h.foldl (fun _ _ k => k.timEnd))) (h.foldl (fun _ _ k => k.timEnd))

theorem State.Keeps.timUnitWrite {s : State} {st c o : Nat} {v : Word} (h : σ.Keeps s) :
    σ.Keeps (timUnitWrite st c o v s) := by
  unfold Machine.timUnitWrite
  exact .ite h.err (.ite h.err (.ite h.err h.plainWrite))

theorem State.Keeps.timRingWrite {s : State} {st : Nat} {v : Word} (h : σ.Keeps s) :
    σ.Keeps (timRingWrite st v s) := by
  unfold Machine.timRingWrite
  exact .ite h.plainWrite h.err

theorem State.Keeps.tdrCtrlWrite {s : State} {st : Nat} {v : Word} (h : σ.Keeps s) :
    σ.Keeps (tdrCtrlWrite st v s) := by
  unfold Machine.tdrCtrlWrite
  exact .ite h.err h.plainWrite

theorem State.Keeps.timUnpair {s : State} {st c : Nat} (h : σ.Keeps s) :
    σ.Keeps (s.timUnpair st c) := by
  unfold State.timUnpair
  exact h.sat.setTim

theorem State.Keeps.timLog {s : State} {st c v src : Nat} (h : σ.Keeps s) :
    σ.Keeps (s.timLog st c v src) := by
  unfold State.timLog
  exact .ite h (.ite h.setTim.sat.wb.event h.setTim)

theorem State.Keeps.timNote {s : State} {st c v : Nat} (h : σ.Keeps s) :
    σ.Keeps (s.timNote st c v) := by
  unfold State.timNote
  exact h.setTim

theorem State.Keeps.timStamp {s : State} {st c v src : Nat} (h : σ.Keeps s) :
    σ.Keeps (s.timStamp st c v src) := by
  unfold State.timStamp
  refine .ite ?_ ?_
  · refine .timEnd ?_
    refine .timNote ?_
    refine .timLog ?_
    refine .ite h.setTim ?_
    split
    · exact h.setTim
    · exact .ite h.setTim h.setTim.timUnpair
  · refine .timNote ?_
    refine .timLog ?_
    refine .ite h.setTim ?_
    split
    · exact h.setTim
    · exact .ite h.setTim h.setTim.timUnpair

theorem State.Keeps.timPost {s : State} {st c : Nat} (h : σ.Keeps s) :
    σ.Keeps (s.timPost st c) := by
  unfold State.timPost
  dsimp only
  split
  · exact h
  · exact .ite h h.setTim.post

theorem State.Keeps.vernierPost {s : State} {st : Nat} (h : σ.Keeps s) :
    σ.Keeps (s.vernierPost st) := by
  unfold State.vernierPost
  dsimp only
  split
  · exact h
  · exact .ite h h.setVernier.post

theorem State.Keeps.timSettle {s : State} {st c : Nat} (h : σ.Keeps s) :
    σ.Keeps (s.timSettle st c) := by
  unfold State.timSettle
  exact .ite h.setTim.setTimState h

theorem State.Keeps.timPulse {s : State} {st c : Nat} {p : Nat × Nat} (h : σ.Keeps s) :
    σ.Keeps (s.timPulse st c p) := by
  unfold State.timPulse
  exact .ite h.setTim.setTimState h.setTim

theorem State.Keeps.timReach {s : State} {st c : Nat} {ok : Nat → Bool} (h : σ.Keeps s) :
    σ.Keeps (s.timReach st c ok) := by
  unfold State.timReach
  exact h.setTim.foldl (fun _ _ k => k.timPulse)

theorem State.Keeps.timNow {s : State} {st c : Nat} (h : σ.Keeps s) :
    σ.Keeps (s.timNow st c) := by
  unfold State.timNow
  exact h.timReach

theorem State.Keeps.timTrigger {s : State} {q m t : Nat} (h : σ.Keeps s) :
    σ.Keeps (s.timTrigger q m t) := by
  unfold State.timTrigger
  exact h.aside.foldl (fun _ _ k => .ite k k.timNow.setTim)

theorem State.Keeps.timBankSw {s : State} {m : Nat} (h : σ.Keeps s) :
    σ.Keeps (s.timBankSw m) := by
  unfold State.timBankSw
  exact h.foldl (fun _ _ k => .ite k.setTim k)

theorem State.Keeps.timFifoPop {s : State} {r : Requester} {st c : Nat} (h : σ.Keeps s) :
    σ.Keeps (timFifoPop r st c s) := by
  unfold Machine.timFifoPop
  dsimp only
  split
  · exact h.aside
  · exact .ite h.aside h.setTim.aside

theorem State.Keeps.vernierFifoPop {s : State} {st : Nat} (h : σ.Keeps s) :
    σ.Keeps (vernierFifoPop st s) := by
  unfold Machine.vernierFifoPop
  dsimp only
  split
  · exact h.aside.wb
  · exact .ite h.aside h.setVernier.aside

theorem State.Keeps.timTake {s0 : State} {st c t : Nat} {edge : Bool} (h : σ.Keeps s0) :
    σ.Keeps (s0.timTake st c t edge) := by
  unfold State.timTake
  refine .ite h.timReach ?_
  refine .ite h.timReach ?_
  exact .ite h.timReach.setTim (.ite h.timReach.setTim.sat.setTim h.timReach.setTim.setTim.timStamp)

theorem State.Keeps.execTdrLaunch {s : State} {st : Fin 128} {c : Fin 16} {rt : Option (BitVec 48)} (h : σ.Keeps s) :
    σ.Answers (execTdrLaunch st c rt s) := by
  unfold Machine.execTdrLaunch
  refine .ite (.next h) ?_
  dsimp only
  split
  · exact .next h.timNow.setStall.setTim.aside
  · refine .next ?_
    refine .ite h.timNow.setStall.setTim.aside.setTim.timLog.timNote.timEnd ?_
    exact h.timNow.setStall.setTim.aside.setTim.timLog.timNote

theorem State.Keeps.execTimResultStored {s0 : State} {st : Fin 128} {c : Fin 16} (h : σ.Keeps s0) :
    σ.Answers (execTimResultStored st c s0) := by
  unfold Machine.execTimResultStored
  refine .ite (.next h) ?_
  refine .next ?_
  refine .timSettle ?_
  refine .event ?_
  refine .foldl (.setTim (.foldl (.storeResult (.ite h h.useFree)) (fun _ _ k => k.wr))) fun _ _ k => ?_
  exact k.timPost

/-! ### Acquisition engines -/

theorem State.Keeps.setAcq {s : State} {b : Nat} {v : AcqSt} (h : σ.Keeps s) :
    σ.Keeps (s.setAcq b v) := by
  unfold State.setAcq
  exact h.aside

theorem State.Keeps.setAcqState {s : State} {b v : Nat} (h : σ.Keeps s) :
    σ.Keeps (s.setAcqState b v) := by
  unfold State.setAcqState
  exact h.wf

theorem State.Keeps.acqDrained {s : State} {b : Nat} (h : σ.Keeps s) :
    σ.Keeps (s.acqDrained b) := by
  unfold State.acqDrained
  exact .ite h.setAcq.portCalm h.setAcq

theorem State.Keeps.acqFill {s0 : State} {b : Nat} (h : σ.Keeps s0) :
    σ.Keeps (s0.acqFill b) := by
  unfold State.acqFill
  exact h.acqDrained.setAcq.wf.setAcqState

theorem State.Keeps.acqIdle {s : State} {b : Nat} (h : σ.Keeps s) :
    σ.Keeps (s.acqIdle b) := by
  unfold State.acqIdle
  exact h.acqDrained.wb.setAcqState

theorem State.Keeps.acqStore {s : State} {b : Nat} {r : AcqRec} (h : σ.Keeps s) :
    σ.Keeps (s.acqStore b r) := by
  unfold State.acqStore
  exact h.storeResult.wr.wr.wr.wr2.setAcq

theorem State.Keeps.acqOffer {s x : State} {b n : Nat} {force : Bool} (h : σ.Keeps s) (hx : s.acqOffer b n force = some x) :
    σ.Keeps x := by
  unfold State.acqOffer at hx
  dsimp only at hx
  split at hx
  · cases hx
  · split at hx
    · cases hx
    · split at hx
      · exact Option.some.inj hx ▸ h.post.setAcq
      · split at hx
        · split at hx
          · exact Option.some.inj hx ▸ h.offer.setAcq
          · cases hx
        · split at hx
          · exact Option.some.inj hx ▸ h.post.setAcq
          · cases hx

theorem State.Keeps.acqPumpN {s : State} {b n : Nat} {force : Bool} {fuel : Nat} (h : σ.Keeps s) :
    σ.Keeps (s.acqPumpN b n force fuel) := by
  induction fuel generalizing s with
  | zero => exact h
  | succ fuel ih =>
    unfold State.acqPumpN
    split
    · exact ih (h.acqOffer ‹_›)
    · exact h

theorem State.Keeps.acqRelease {s : State} {b n : Nat} (h : σ.Keeps s) :
    σ.Keeps (s.acqRelease b n) := by
  unfold State.acqRelease
  split
  · exact h
  · exact h.setAcq

theorem State.Keeps.acqPort {s : State} {b : Nat} (h : σ.Keeps s) :
    σ.Keeps (s.acqPort b) := by
  unfold State.acqPort
  exact .ite h (.ite h.useFree.setAcq.portPanic (.ite h.useFree.setAcq.portCalm h.useFree.setAcq))

theorem State.Keeps.acqPump {s : State} {b : Nat} {force : Bool} (h : σ.Keeps s) :
    σ.Keeps (s.acqPump b force) := by
  unfold State.acqPump
  extract_lets fuel x
  have hx : σ.Keeps x := by
    dsimp only [x]
    split
    · exact h.acqPumpN.acqRelease.acqPort
    · exact h
  clear_value x
  split
  · exact hx
  · exact .ite hx.acqStore hx

theorem State.Keeps.acqClose {s : State} {b n code : Nat} {trunc : Bool} (h : σ.Keeps s) :
    σ.Keeps (s.acqClose b n code trunc) := by
  unfold State.acqClose
  dsimp only
  split
  · exact h
  · exact .event (.acqPump (.setAcqState (.setAcq (.ite h.useFree h))))

theorem State.Keeps.acqPostCheck {s : State} {b : Nat} (h : σ.Keeps s) :
    σ.Keeps (s.acqPostCheck b) := by
  unfold State.acqPostCheck
  dsimp only
  split
  · exact h
  · exact .ite h.acqClose h

theorem State.Keeps.acqOverflow {s : State} {b n : Nat} (h : σ.Keeps s) :
    σ.Keeps (s.acqOverflow b n) := by
  unfold State.acqOverflow
  split
  · exact .ite h.setAcq.acqPostCheck h
  · exact h

theorem State.Keeps.evRecord {s : State} {lev : Nat} (h : σ.Keeps s) :
    σ.Keeps (s.evRecord lev) := by
  unfold State.evRecord
  exact h.aside

theorem State.Keeps.acqEvent {s : State} {b t : Nat} (h : σ.Keeps s) :
    σ.Keeps (s.acqEvent b t) := by
  unfold State.acqEvent
  refine .ite h ?_
  refine .ite h.sat ?_
  refine .ite h ?_
  exact .ite h.setAcq.startResult.setAcqState.acqPump.event.acqOverflow.acqPostCheck h.sat.setAcq.event

theorem State.Keeps.acqReach {s : State} {b : Nat} (h : σ.Keeps s) :
    σ.Keeps (s.acqReach b) := by
  unfold State.acqReach
  exact .ite h (h.setAcq.foldl (fun _ _ k => k.acqEvent))

theorem State.Keeps.acqLine {s : State} {q m t : Nat} (h : σ.Keeps s) :
    σ.Keeps (s.acqLine q m t) := by
  unfold State.acqLine
  exact h.foldl (fun _ _ k => .ite (.ite k.acqReach.acqEvent (.ite k.acqReach k.acqReach.setAcq)) k)

theorem State.Keeps.acqEdge {s : State} {k : Nat} {rise : Bool} (h : σ.Keeps s) :
    σ.Keeps (s.acqEdge k rise) := by
  unfold State.acqEdge
  exact h.foldl (fun _ _ k => .ite k.acqEvent k)

theorem State.Keeps.acqWatch {s : State} {ch : Nat} {side : Bool} (h : σ.Keeps s) :
    σ.Keeps (s.acqWatch ch side) := by
  unfold State.acqWatch
  exact .ite h.acqEvent h

theorem State.Keeps.acqLevelStep {s : State} {b n : Nat} (h : σ.Keeps s) :
    σ.Keeps (s.acqLevelStep b n) := by
  unfold State.acqLevelStep
  refine .ite h ?_
  dsimp only
  split
  · exact h.setAcq
  · exact .ite h.setAcq.setAcq.acqEvent h.setAcq.setAcq

theorem State.Keeps.acqBegin {s : State} {st u start len : Nat} (h : σ.Keeps s) :
    σ.Keeps (s.acqBegin st u start len) := by
  unfold State.acqBegin
  refine .ite h ?_
  refine .ite (h.setAcq.foldl (fun _ _ k => .ite k k.setAcq.wr2)) ?_
  split
  · exact h.setAcq
  · exact .ite h.setAcq h.setAcq.setAcq.wr2

theorem State.Keeps.acqSample {s : State} {st u code : Nat} {flag : Bool} (h : σ.Keeps s) :
    σ.Keeps (s.acqSample st u code flag) := by
  unfold State.acqSample
  exact .ite h (.ite h.setAcq (.ite h.setAcq.acqOverflow h.setAcq.acqOverflow.setAcq))

theorem State.Keeps.acqEnd {s0 : State} {st u : Nat} (h : σ.Keeps s0) :
    σ.Keeps (s0.acqEnd st u) := by
  unfold State.acqEnd
  refine .ite h.acqReach ?_
  refine .ite h.acqReach.setAcq ?_
  exact .ite h.acqReach.setAcq.acqIdle (.ite h.acqReach.setAcq.acqClose h.acqReach.setAcq)

theorem State.Keeps.acqStoreOld {s : State} {b : Nat} (h : σ.Keeps s) :
    σ.Keeps (s.acqStoreOld b) := by
  unfold State.acqStoreOld
  split
  · exact .ite h.acqStore h
  · exact h

theorem State.Keeps.acqArmed {s : State} {b : Nat} (h : σ.Keeps s) :
    σ.Keeps (s.acqArmed b) := by
  unfold State.acqArmed
  exact h.acqStoreOld.startResult.wr2.wr.wr.wr.setAcq.acqFill

theorem State.Keeps.acqArm {s : State} {b : Nat} (h : σ.Keeps s) :
    σ.Keeps (s.acqArm b) := by
  unfold State.acqArm
  split
  · exact h.err
  · refine .ite h ?_
    split
    · exact h.err
    · exact h.acqArmed

theorem State.Keeps.acqStop {s : State} {b : Nat} (h : σ.Keeps s) :
    σ.Keeps (s.acqStop b) := by
  unfold State.acqStop
  exact .ite h (.ite h.acqIdle (.ite h.wb.acqClose h.wb))

theorem State.Keeps.acqPreempt {s0 : State} {b : Nat} (h : σ.Keeps s0) :
    σ.Keeps (s0.acqPreempt b) := by
  unfold State.acqPreempt
  exact .ite h.acqReach.acqClose.acqIdle (.ite h.acqReach h.acqReach.acqIdle)

theorem State.Keeps.acqCtrlWrite {s0 : State} {b : Nat} {v : Word} (h : σ.Keeps s0) :
    σ.Keeps (acqCtrlWrite b v s0) := by
  unfold Machine.acqCtrlWrite
  refine .ite (.acqArm (.ite h.acqReach.acqStop (.ite h.acqReach.acqEvent h.acqReach))) ?_
  exact .ite h.acqReach.acqStop (.ite h.acqReach.acqEvent h.acqReach)

theorem State.Keeps.acqRegWrite {s : State} {b o : Nat} {v : Word} (h : σ.Keeps s) :
    σ.Keeps (acqRegWrite b o v s) := by
  unfold Machine.acqRegWrite
  refine .ite h.plainWrite ?_
  refine .ite h.err ?_
  split
  · exact h.err
  · exact h.plainWrite

theorem State.Keeps.execAcqSlotEnd {s : State} {b : Fin 8} (h : σ.Keeps s) :
    σ.Answers (execAcqSlotEnd b s) := by
  unfold Machine.execAcqSlotEnd
  refine .ite (.next h) ?_
  refine .ite (.next h.atNow.acqReach.setAcq.acqLevelStep.setAcq.wf) ?_
  refine .ite (.next h.atNow.acqReach.setAcq.acqLevelStep.acqPump.acqPostCheck) ?_
  exact .next h.atNow.acqReach.setAcq.acqLevelStep

theorem State.Keeps.execRearmEnd {s : State} {b : Fin 8} (h : σ.Keeps s) :
    σ.Answers (execRearmEnd b s) := by
  unfold Machine.execRearmEnd
  refine .ite (.next h) ?_
  dsimp only
  split
  · exact .next h.acqPump
  · refine .ite (.next h.acqPump) ?_
    refine .ite (.next h.acqPump.atNow.acqReach.setAcq.acqIdle) ?_
    exact .next h.acqPump.atNow.acqReach.setAcq.acqFill

/-! ### The course of a conversion -/

theorem State.Keeps.setCnv {s : State} {st u : Nat} {v : CnvUnit} (h : σ.Keeps s) :
    σ.Keeps (s.setCnv st u v) := by
  unfold State.setCnv
  exact h.aside

theorem State.Keeps.setCnvState {s : State} {st u v : Nat} (h : σ.Keeps s) :
    σ.Keeps (s.setCnvState st u v) := by
  unfold State.setCnvState
  exact h.wf

theorem State.Keeps.cnvCut {s : State} {st u code : Nat} (h : σ.Keeps s) :
    σ.Keeps (s.cnvCut st u code) := by
  unfold State.cnvCut
  exact .setCnvState (.ite h.setCnv.acqEnd h.setCnv)

theorem State.Keeps.cnvTrigger {s : State} {st u t : Nat} (h : σ.Keeps s) :
    σ.Keeps (s.cnvTrigger st u t) := by
  unfold State.cnvTrigger
  exact .ite h.setCnv.startResult.setCnvState (.ite h (.ite h.sat.event h))

theorem State.Keeps.cnvReach {s : State} {st u : Nat} (h : σ.Keeps s) :
    σ.Keeps (s.cnvReach st u) := by
  unfold State.cnvReach
  exact .ite h (h.setCnv.foldl (fun _ _ k => k.cnvTrigger))

theorem State.Keeps.cnvReachAll {s : State} {st : Nat} (h : σ.Keeps s) :
    σ.Keeps (s.cnvReachAll st) := by
  unfold State.cnvReachAll
  exact h.foldl (fun _ _ k => k.cnvReach)

theorem State.Keeps.cnvPreempt {s0 : State} {st u : Nat} (h : σ.Keeps s0) :
    σ.Keeps (s0.cnvPreempt st u) := by
  unfold State.cnvPreempt
  exact .ite h.cnvReach.setCnv.cnvCut (.ite h.cnvReach.setCnv h.cnvReach)

theorem State.Keeps.cnvPower {s : State} {st : Nat} {on : Bool} (h : σ.Keeps s) :
    σ.Keeps (s.cnvPower st on) := by
  unfold State.cnvPower
  exact h.foldl (fun _ _ k => .ite (.ite k.setCnvState k) (.ite k.cnvPreempt.setCnvState k.cnvPreempt))

theorem State.Keeps.cnvDisturb {s : State} {st u : Nat} (h : σ.Keeps s) :
    σ.Keeps (s.cnvDisturb st u) := by
  unfold State.cnvDisturb
  exact .ite h.setCnv h

theorem State.Keeps.cnvAll {s : State} {f : Machine.State → Nat → Nat → Machine.State} (h : σ.Keeps s) (hf : ∀ x0 x1 x2, σ.Keeps
    x0 → σ.Keeps (f x0 x1 x2)) :
    σ.Keeps (s.cnvAll f) := by
  unfold State.cnvAll
  exact h.foldl (fun _ _ k2 => hf _ _ _ k2)

theorem State.Keeps.cnvLine {s : State} {q m t : Nat} (h : σ.Keeps s) :
    σ.Keeps (s.cnvLine q m t) := by
  unfold State.cnvLine
  refine .cnvAll h (fun _ _ _ k => .ite (.ite k.cnvReach.cnvTrigger (.ite k.cnvReach.setCnv k.cnvReach)) k)

theorem State.Keeps.cnvEdge {s : State} {k : Nat} (h : σ.Keeps s) :
    σ.Keeps (s.cnvEdge k) := by
  unfold State.cnvEdge
  exact h.cnvAll (fun _ _ _ k => .ite k.cnvTrigger k)

theorem State.Keeps.cnvWatch {s : State} {ch : Nat} {side : Bool} (h : σ.Keeps s) :
    σ.Keeps (s.cnvWatch ch side) := by
  unfold State.cnvWatch
  exact .ite h.cnvTrigger h

/-! ### The state of a sequencer -/

theorem State.Keeps.setSeq {s : State} {q : Nat} {v : SeqSt} (h : σ.Keeps s) :
    σ.Keeps (s.setSeq q v) := by
  unfold State.setSeq
  exact h.aside

theorem State.Keeps.setSeqState {s : State} {q v : Nat} (h : σ.Keeps s) :
    σ.Keeps (s.setSeqState q v) := by
  unfold State.setSeqState
  exact h.wf

theorem State.Keeps.setMstate {s : State} {q v : Nat} (h : σ.Keeps s) :
    σ.Keeps (s.setMstate q v) := by
  unfold State.setMstate
  exact .ite h.wf.wb.wb.event h.wf.wb.wb

theorem State.Keeps.setChan {s : State} {ch : Nat} {c : ChanSt} (h : σ.Keeps s) :
    σ.Keeps (s.setChan ch c) := by
  unfold State.setChan
  exact h.aside

/-! ### The course of the farrier -/

theorem State.Keeps.setFarState {s : State} {v : Nat} (h : σ.Keeps s) :
    σ.Keeps (s.setFarState v) := by
  unfold State.setFarState
  exact h.wf

theorem State.Keeps.seqUndefer {s : State} {q : Nat} (h : σ.Keeps s) :
    σ.Keeps (s.seqUndefer q) := by
  unfold State.seqUndefer
  exact .ite h.setSeq h

theorem State.Keeps.pullUpdate {s : State} {st : Nat} (h : σ.Keeps s) :
    σ.Keeps (s.pullUpdate st) := by
  unfold State.pullUpdate
  exact h.wf

theorem State.Keeps.setFar {s : State} {f : FarSt} (h : σ.Keeps s) :
    σ.Keeps (s.setFar f) := by
  unfold State.setFar
  exact h.aside

theorem State.Keeps.busOpen {s : State} {st m : Nat} (h : σ.Keeps s) :
    σ.Keeps (s.busOpen st m) := by
  unfold State.busOpen
  exact .pullUpdate (.wf (h.foldl (fun _ _ k => k.wearCycle)))

theorem State.Keeps.pmuRelease {s : State} {st u : Nat} (h : σ.Keeps s) :
    σ.Keeps (s.pmuRelease st u) := by
  unfold State.pmuRelease
  exact .ite (h.foldl (fun _ _ k => .ite k.wf k)) h

theorem State.Keeps.busOpening {s : State} {st m : Nat} (h : σ.Keeps s) :
    σ.Keeps (s.busOpening st m) := by
  unfold State.busOpening
  exact h.setStall

theorem State.Keeps.stepRelease {s : State} {x : FarStep} {whole : Bool} (h : σ.Keeps s) :
    σ.Keeps (s.stepRelease x whole) := by
  unfold State.stepRelease
  refine .foldl ?_ fun _ _ k => ?_
  · refine .ite (.pmuRelease (.ite h.setFar (.ite h.setFar.busOpen h.setFar.busOpening))) ?_
    refine .ite (.farTimEnd (.ite h.setFar (.ite h.setFar.busOpen h.setFar.busOpening))) ?_
    exact .ite h.setFar (.ite h.setFar.busOpen h.setFar.busOpening)
  · exact k.seqUndefer

theorem State.Keeps.setInactive {s : State} {l : List (Nat × Nat)} {epoch : Word} (h : σ.Keeps s) :
    σ.Keeps (s.setInactive l epoch) := by
  unfold State.setInactive
  exact .ite h.setFar.wr h.setFar.wr

theorem State.Keeps.setTrans {s : State} {t : Option (DevMode × Bool)} (h : σ.Keeps s) :
    σ.Keeps (s.setTrans t) := by
  unfold State.setTrans
  exact h.aside

theorem State.Keeps.farStore {s : State} {code : Nat} (h : σ.Keeps s) :
    σ.Keeps (s.farStore code) := by
  unfold State.farStore
  refine .ite h.wr.storeResult.wb.setFarState.setFar.event.setTrans ?_
  exact h.wr.storeResult.wb.setFarState.setFar.event

theorem State.Keeps.farSettle {s : State} (h : σ.Keeps s) :
    σ.Keeps s.farSettle := by
  unfold State.farSettle
  split
  · exact .ite h.farStore h
  · exact h

theorem State.Keeps.farEnd {s : State} {code : Nat} (h : σ.Keeps s) :
    σ.Keeps (s.farEnd code) := by
  unfold State.farEnd
  exact .ite h h.setFar.farSettle

theorem State.Keeps.farAbort {s : State} {p : FarStep → Bool} (h : σ.Keeps s) :
    σ.Keeps (s.farAbort p) := by
  unfold State.farAbort
  exact .farSettle (h.foldl (fun _ _ k => k.stepRelease.sat))

theorem State.Keeps.farAbortChans {s : State} {st m : Nat} (h : σ.Keeps s) :
    σ.Keeps (s.farAbortChans st m) := by
  unfold State.farAbortChans
  exact h.farAbort

theorem State.Keeps.farPreempt {s : State} (h : σ.Keeps s) :
    σ.Keeps s.farPreempt := by
  unfold State.farPreempt
  exact h.farAbort.farEnd

/-! ### PMUs -/

theorem State.Keeps.setPmu {s : State} {st u : Nat} {v : PmuSt} (h : σ.Keeps s) :
    σ.Keeps (s.setPmu st u v) := by
  unfold State.setPmu
  exact h.aside

theorem State.Keeps.setPmuState {s : State} {st u v : Nat} (h : σ.Keeps s) :
    σ.Keeps (s.setPmuState st u v) := by
  unfold State.setPmuState
  exact h.wf

theorem State.Keeps.throttle {s : State} {st u : Nat} (h : σ.Keeps s) :
    σ.Keeps (s.throttle st u) := by
  unfold State.throttle
  exact h.wb

theorem State.Keeps.pmuFlag {s : State} {st u f : Nat} (h : σ.Keeps s) :
    σ.Keeps (s.pmuFlag st u f) := by
  unfold State.pmuFlag
  exact h.wb.event

theorem State.Keeps.applyWave {s : State} {st u : Nat} {p : PmuSt} (h : σ.Keeps s) :
    σ.Keeps (s.applyWave st u p) := by
  unfold State.applyWave
  exact .ite (.ite h.setPmu.pmuFlag h.setPmu) h.setPmu

theorem State.Keeps.applyForce {s : State} {st u code : Nat} (h : σ.Keeps s) :
    σ.Keeps (s.applyForce st u code) := by
  unfold State.applyForce
  exact .ite h.setPmu h.applyWave

theorem State.Keeps.pmuStrobe {s : State} {st : Nat} (h : σ.Keeps s) :
    σ.Keeps (s.pmuStrobe st) := by
  unfold State.pmuStrobe
  exact h.foldl (fun _ _ k => .ite k.wb.applyForce k)

theorem State.Keeps.pmuClamp {s : State} {st u : Nat} (h : σ.Keeps s) :
    σ.Keeps (s.pmuClamp st u) := by
  unfold State.pmuClamp
  exact .ite h (.ite h.setPmu.throttle (.ite h.setPmu.pmuFlag h.setPmu.throttle.setPmuState.pmuFlag))

theorem State.Keeps.pmuParked {s : State} {st m : Nat} (h : σ.Keeps s) :
    σ.Keeps (s.pmuParked st m) := by
  unfold State.pmuParked
  exact h.foldl (fun _ _ k => .ite k.setPmu k)

theorem State.Keeps.pmuClampStall {s : State} {st : Nat} (h : σ.Keeps s) :
    σ.Keeps (s.pmuClampStall st) := by
  unfold State.pmuClampStall
  exact h.foldl (fun _ _ k => k.pmuClamp)

theorem State.Keeps.pmuOutOff {s : State} {st u next : Nat} (h : σ.Keeps s) :
    σ.Keeps (s.pmuOutOff st u next) := by
  unfold State.pmuOutOff
  refine .setPmuState ?_
  refine .wb (.throttle (.ite (.applyWave (.wb (.ite h h.cnvDisturb))) (.setPmu (.wb (.ite h h.cnvDisturb)))))

theorem State.Keeps.pmuPower {s : State} {st : Nat} {on : Bool} (h : σ.Keeps s) :
    σ.Keeps (s.pmuPower st on) := by
  unfold State.pmuPower
  exact h.cnvPower.foldl (fun _ _ k => .ite (.ite k.setPmuState k) k.pmuOutOff)

theorem State.Keeps.pmuTrigger {s : State} {q m k : Nat} (h : σ.Keeps s) :
    σ.Keeps (s.pmuTrigger q m k) := by
  unfold State.pmuTrigger
  refine .foldl h fun _ _ k => ?_
  split
  · exact .ite k.setPmu k
  · exact k

theorem State.Keeps.pmuCtrlWrite {s : State} {r : Requester} {st u : Nat} {v : Word} (h : σ.Keeps s) :
    σ.Keeps (pmuCtrlWrite r st u v s) := by
  unfold Machine.pmuCtrlWrite
  refine .ite h.err ?_
  refine .ite h.err ?_
  refine .ite h.err ?_
  refine .ite h.err ?_
  refine .ite h.err ?_
  refine .ite h.err ?_
  refine .ite h.err ?_
  refine .ite ?_ ?_
  · refine .foldl ?_ fun _ _ k => ?_
    · refine .ite (.applyWave (.wb (.wf (.ite (h.plainWrite.foldl (fun _ _ k => k.cnvDisturb)) h.plainWrite)))) ?_
      exact .ite (h.plainWrite.foldl (fun _ _ k => k.cnvDisturb)) h.plainWrite
    · exact k.pmuOutOff
  · refine .ite ?_ ?_
    · refine .foldl ?_ fun _ _ k => ?_
      · refine .ite ?_ ?_
        · refine .ite ?_ ?_
          · refine .setPmuState ?_
            refine .wb ?_
            refine .ite (.applyWave (.wb (.wf (.ite (h.plainWrite.foldl (fun _ _ k => k.cnvDisturb)) h.plainWrite)))) ?_
            exact .ite (h.plainWrite.foldl (fun _ _ k => k.cnvDisturb)) h.plainWrite
          · refine .ite ?_ ?_
            · refine .wb ?_
              refine .ite (.applyWave (.wb (.wf (.ite (h.plainWrite.foldl (fun _ _ k => k.cnvDisturb)) h.plainWrite)))) ?_
              exact .ite (h.plainWrite.foldl (fun _ _ k => k.cnvDisturb)) h.plainWrite
            · refine .setPmu ?_
              refine .ite (.applyWave (.wb (.wf (.ite (h.plainWrite.foldl (fun _ _ k => k.cnvDisturb)) h.plainWrite)))) ?_
              exact .ite (h.plainWrite.foldl (fun _ _ k => k.cnvDisturb)) h.plainWrite
        · refine .ite (.applyWave (.wb (.wf (.ite (h.plainWrite.foldl (fun _ _ k => k.cnvDisturb)) h.plainWrite)))) ?_
          exact .ite (h.plainWrite.foldl (fun _ _ k => k.cnvDisturb)) h.plainWrite
      · exact .ite k k.setPmuState
    · refine .ite ?_ ?_
      · refine .ite ?_ ?_
        · refine .setPmuState ?_
          refine .wb ?_
          refine .ite (.applyWave (.wb (.wf (.ite (h.plainWrite.foldl (fun _ _ k => k.cnvDisturb)) h.plainWrite)))) ?_
          exact .ite (h.plainWrite.foldl (fun _ _ k => k.cnvDisturb)) h.plainWrite
        · refine .ite ?_ ?_
          · refine .wb ?_
            refine .ite (.applyWave (.wb (.wf (.ite (h.plainWrite.foldl (fun _ _ k => k.cnvDisturb)) h.plainWrite)))) ?_
            exact .ite (h.plainWrite.foldl (fun _ _ k => k.cnvDisturb)) h.plainWrite
          · refine .setPmu ?_
            refine .ite (.applyWave (.wb (.wf (.ite (h.plainWrite.foldl (fun _ _ k => k.cnvDisturb)) h.plainWrite)))) ?_
            exact .ite (h.plainWrite.foldl (fun _ _ k => k.cnvDisturb)) h.plainWrite
      · refine .ite (.applyWave (.wb (.wf (.ite (h.plainWrite.foldl (fun _ _ k => k.cnvDisturb)) h.plainWrite)))) ?_
        exact .ite (h.plainWrite.foldl (fun _ _ k => k.cnvDisturb)) h.plainWrite

theorem State.Keeps.pmuForceWrite {s : State} {st u : Nat} {v : Word} (h : σ.Keeps s) :
    σ.Keeps (pmuForceWrite st u v s) := by
  unfold Machine.pmuForceWrite
  exact .ite h.err (.ite h.err (.ite h.plainWrite.wb h.plainWrite.wb.applyForce))

theorem State.Keeps.pmuIlimWrite {s : State} {st u : Nat} {v : Word} (h : σ.Keeps s) :
    σ.Keeps (pmuIlimWrite st u v s) := by
  unfold Machine.pmuIlimWrite
  exact .ite h.err (.ite h.err (h.plainWrite.foldl (fun _ _ k => k.throttle)))

theorem State.Keeps.pmuClampWrite {s : State} {st u : Nat} {high : Bool} {v : Word} (h : σ.Keeps s) :
    σ.Keeps (pmuClampWrite st u high v s) := by
  unfold Machine.pmuClampWrite
  exact .ite h.err (.ite h.err (.ite h.err h.plainWrite))

theorem State.Keeps.pmuWaveWrite {s : State} {st u : Nat} {v : Word} (h : σ.Keeps s) :
    σ.Keeps (pmuWaveWrite st u v s) := by
  unfold Machine.pmuWaveWrite
  refine .ite h.err ?_
  exact .ite h.err (.ite h.err (.ite h.plainWrite (.ite h.plainWrite.setPmu h.plainWrite.setPmu)))

theorem State.Keeps.pmuFreqWrite {s : State} {st u : Nat} {v : Word} (h : σ.Keeps s) :
    σ.Keeps (pmuFreqWrite st u v s) := by
  unfold Machine.pmuFreqWrite
  exact .ite h.err (.ite h.err h.plainWrite)

theorem State.Keeps.pmuPhaseWrite {s : State} {st u : Nat} {v : Word} (h : σ.Keeps s) :
    σ.Keeps (pmuPhaseWrite st u v s) := by
  unfold Machine.pmuPhaseWrite
  exact .ite h.err h.plainWrite

theorem State.Keeps.pmuGangWrite {s : State} {st : Nat} {v : Word} (h : σ.Keeps s) :
    σ.Keeps (pmuGangWrite st v s) := by
  unfold Machine.pmuGangWrite
  refine .ite h.err ?_
  refine .ite (h.plainWrite.foldl (fun _ _ k => k.throttle)) ?_
  refine .ite (.cnvDisturb (.foldl (h.plainWrite.foldl (fun _ _ k => k.throttle)) (fun _ _ k => k.cnvPreempt))) ?_
  exact .foldl (h.plainWrite.foldl (fun _ _ k => k.throttle)) (fun _ _ k => k.cnvDisturb)

theorem State.Keeps.wtAdvance {s : State} {st : Nat} (h : σ.Keeps s) :
    σ.Keeps (s.wtAdvance st) := by
  unfold State.wtAdvance
  exact .ite h.inc h

theorem State.Keeps.wtDataWrite {s : State} {st : Nat} {v : Word} (h : σ.Keeps s) :
    σ.Keeps (wtDataWrite st v s) := by
  unfold Machine.wtDataWrite
  exact .ite h.err h.aside.wtAdvance

theorem State.Keeps.wtIdxWrite {s : State} {st : Nat} {v : Word} (h : σ.Keeps s) :
    σ.Keeps (wtIdxWrite st v s) := by
  unfold Machine.wtIdxWrite
  exact .ite h.plainWrite (.ite h.err (.ite h.err h.plainWrite.wb.setPmu))

theorem State.Keeps.waveStep {s : State} {st u : Nat} (h : σ.Keeps s) :
    σ.Keeps (s.waveStep st u) := by
  unfold State.waveStep
  refine .ite h ?_
  refine .ite h.applyWave ?_
  split
  · exact h.applyWave
  · exact .ite h.applyWave h.applyWave
  · exact h.applyWave
  · exact h.applyWave

theorem State.Keeps.waveOff {s : State} {st u : Nat} (h : σ.Keeps s) :
    σ.Keeps (s.waveOff st u) := by
  unfold State.waveOff
  exact h.applyWave

theorem State.Keeps.execPmuRangeDone {s : State} {st : Fin 128} {u : Fin 4} (h : σ.Keeps s) :
    σ.Answers (execPmuRangeDone st u s) := by
  unfold Machine.execPmuRangeDone
  refine .ite ?_ ?_
  · refine .next ?_
    refine .event ?_
    refine .ite ?_ ?_
    · refine .ite (.pmuFlag (.setPmuState (.wb (.ite h.applyWave h.setPmu)))) ?_
      exact .ite (.setPmuState (.wb (.ite h.applyWave h.setPmu))) (.wb (.ite h.applyWave h.setPmu))
    · refine .cnvDisturb ?_
      refine .ite (.pmuFlag (.setPmuState (.wb (.ite h.applyWave h.setPmu)))) ?_
      exact .ite (.setPmuState (.wb (.ite h.applyWave h.setPmu))) (.wb (.ite h.applyWave h.setPmu))
  · exact .next h

/-! ### Converters -/

theorem State.Keeps.cnvArmed {s : State} {st u : Nat} (h : σ.Keeps s) :
    σ.Keeps (s.cnvArmed st u) := by
  unfold State.cnvArmed
  exact .ite h.setCnv.startResult.setCnvState.cnvTrigger h.setCnv.startResult.setCnvState

theorem State.Keeps.cnvArmUnit {s : State} {r : Requester} {st u : Nat} (h : σ.Keeps s) :
    σ.Keeps (cnvArmUnit r st u s) := by
  unfold Machine.cnvArmUnit
  split
  · exact h.err
  · refine .ite h ?_
    split
    · exact h.err
    · exact h.cnvArmed

theorem State.Keeps.cnvArmWrite {s : State} {r : Requester} {st : Nat} {v : Word} (h : σ.Keeps s) :
    σ.Keeps (cnvArmWrite r st v s) := by
  unfold Machine.cnvArmWrite
  exact h.cnvReachAll.foldl (fun _ _ k => k.cnvArmUnit)

theorem State.Keeps.cnvStopUnit {s : State} {st u : Nat} (h : σ.Keeps s) :
    σ.Keeps (cnvStopUnit st u s) := by
  unfold Machine.cnvStopUnit
  exact .ite (.ite h.setCnv.setCnvState.acqEnd h.setCnv.setCnvState) (.ite h.cnvCut h)

theorem State.Keeps.cnvStopWrite {s : State} {st : Nat} {v : Word} (h : σ.Keeps s) :
    σ.Keeps (cnvStopWrite st v s) := by
  unfold Machine.cnvStopWrite
  exact h.cnvReachAll.foldl (fun _ _ k => k.cnvStopUnit)

theorem State.Keeps.cnvCfgWrite {s : State} {st u : Nat} {v : Word} (h : σ.Keeps s) :
    σ.Keeps (cnvCfgWrite st u v s) := by
  unfold Machine.cnvCfgWrite
  exact .ite h.err (.ite h.err (.ite h.err h.plainWrite))

theorem State.Keeps.cnvAperWrite {s : State} {st u : Nat} {v : Word} (h : σ.Keeps s) :
    σ.Keeps (cnvAperWrite st u v s) := by
  unfold Machine.cnvAperWrite
  exact .ite h.err (.ite h.err h.plainWrite)

theorem State.Keeps.cnvRingWrite {s : State} {st : Nat} {v : Word} (h : σ.Keeps s) :
    σ.Keeps (cnvRingWrite st v s) := by
  unfold Machine.cnvRingWrite
  exact .ite h.plainWrite h.err

theorem State.Keeps.stageWrite {s : State} {r : Requester} {k : PageKind} {i o : Nat} {v : Word} (h : σ.Keeps s) :
    σ.Keeps (s.stageWrite r k i o v) := by
  unfold State.stageWrite
  exact h.stageAt

theorem State.Keeps.unstage {s : State} {k : PageKind} {i o : Nat} (h : σ.Keeps s) :
    σ.Keeps (s.unstage k i o) := by
  unfold State.unstage
  exact h.unstageAt

theorem State.Keeps.cnvStartTickWrite {s : State} {r : Requester} {st : Nat} {hi : Bool} {v : Word} (h : σ.Keeps s) :
    σ.Keeps (cnvStartTickWrite r st hi v s) := by
  unfold Machine.cnvStartTickWrite
  exact .ite h.err (.ite h.plainWrite.plainWrite.unstage h.stageWrite)

theorem State.Keeps.linePerUpdate {s : State} (h : σ.Keeps s) :
    σ.Keeps s.linePerUpdate := by
  unfold State.linePerUpdate
  exact h.foldl (fun _ _ k => k.wr)

theorem State.Keeps.lineStat {s : State} {locked lost : Bool} {n : Nat} (h : σ.Keeps s) :
    σ.Keeps (s.lineStat locked lost n) := by
  unfold State.lineStat
  exact h.foldl (fun _ _ k => .ite k.wr.event k.wr)

theorem State.Keeps.lineLose {s : State} (h : σ.Keeps s) :
    σ.Keeps s.lineLose := by
  unfold State.lineLose
  exact .linePerUpdate (.ite h.aside.lineStat h.aside.lineStat)

theorem State.Keeps.lineJudge {s : State} (h : σ.Keeps s) :
    σ.Keeps s.lineJudge := by
  unfold State.lineJudge
  exact .ite h.lineStat (.ite h.aside.lineStat.linePerUpdate h.lineStat.linePerUpdate)

theorem State.Keeps.lineCfgWrite {s : State} {b : Nat} {v : Word} (h : σ.Keeps s) :
    σ.Keeps (lineCfgWrite b v s) := by
  unfold Machine.lineCfgWrite
  exact .ite h (.ite h.err h.plainWrite.lineJudge.linePerUpdate)

theorem State.Keeps.refOff {s : State} {b : Nat} (h : σ.Keeps s) :
    σ.Keeps (s.refOff b) := by
  unfold State.refOff
  exact h.wb.wr.cnvAll (fun _ _ _ k => .ite k.setCnv k)

theorem State.Keeps.refCtrlWrite {s : State} {b : Nat} {v : Word} (h : σ.Keeps s) :
    σ.Keeps (refCtrlWrite b v s) := by
  unfold Machine.refCtrlWrite
  exact .ite h.refOff (.ite h.err h.wb.wb)

theorem State.Keeps.cnvBegin {s : State} {st u t : Nat} (h : σ.Keeps s) :
    σ.Keeps (s.cnvBegin st u t) := by
  unfold State.cnvBegin
  exact .ite h.setCnv.setCnvState.acqBegin h.setCnv.setCnvState

theorem State.Keeps.cnvSaturate {s : State} {st m : Nat} (h : σ.Keeps s) :
    σ.Keeps (s.cnvSaturate st m) := by
  unfold State.cnvSaturate
  exact h.foldl (fun _ _ k => .ite (.foldl (.setCnv (.ite k.useFree k)) (fun _ _ k2 => k2.setCnv)) k)

theorem State.Keeps.execApertureEnd {s : State} {st : Fin 128} {u : Fin 4} {code : BitVec 24} {sat : BitVec 4} {neg : Bool} (h :
    σ.Keeps s) :
    σ.Answers (execApertureEnd st u code sat neg s) := by
  unfold Machine.execApertureEnd
  refine .ite (.next h) ?_
  refine .ite (.next h.atNow.cnvReach.cnvSaturate.setCnv.acqSample.cnvBegin) ?_
  exact .next h.atNow.cnvReach.cnvSaturate.setCnv.setCnvState

theorem State.Keeps.execCnvResultStored {s0 : State} {st : Fin 128} {u : Fin 4} (h : σ.Keeps s0) :
    σ.Answers (execCnvResultStored st u s0) := by
  unfold Machine.execCnvResultStored
  refine .ite (.next h.cnvReach) ?_
  refine .ite (.next h.cnvReach.setCnv.setCnvState) ?_
  refine .next ?_
  refine .ite ?_ ?_
  · refine .event ?_
    refine .setCnvState ?_
    refine .setCnv ?_
    refine .event ?_
    split
    · refine .post ?_
      refine .wr ?_
      refine .wr2 ?_
      refine .wr ?_
      refine .storeResult ?_
      refine .ite (.ite h.cnvReach h.cnvReach.useFree) ?_
      exact .useFree (.useFree (.useFree (.ite h.cnvReach h.cnvReach.useFree)))
    · refine .wr ?_
      refine .wr2 ?_
      refine .wr ?_
      refine .storeResult ?_
      refine .ite (.ite h.cnvReach h.cnvReach.useFree) ?_
      exact .useFree (.useFree (.useFree (.ite h.cnvReach h.cnvReach.useFree)))
  · refine .setCnvState ?_
    refine .setCnv ?_
    refine .event ?_
    split
    · refine .post ?_
      refine .wr ?_
      refine .wr2 ?_
      refine .wr ?_
      refine .storeResult ?_
      refine .ite (.ite h.cnvReach h.cnvReach.useFree) ?_
      exact .useFree (.useFree (.useFree (.ite h.cnvReach h.cnvReach.useFree)))
    · refine .wr ?_
      refine .wr2 ?_
      refine .wr ?_
      refine .storeResult ?_
      refine .ite (.ite h.cnvReach h.cnvReach.useFree) ?_
      exact .useFree (.useFree (.useFree (.ite h.cnvReach h.cnvReach.useFree)))

/-! ### Stalls: parking, levels and switches -/

theorem State.Keeps.copyLevels {s : State} {st c : Nat} (h : σ.Keeps s) :
    σ.Keeps (s.copyLevels st c) := by
  unfold State.copyLevels
  exact h.foldl (fun _ _ k => k.wr)

theorem State.Keeps.loadStrobe {s : State} {st off : Nat} (h : σ.Keeps s) :
    σ.Keeps (s.loadStrobe st off) := by
  unfold State.loadStrobe
  refine .ite (.event (.pmuStrobe (.wf (.inc (.setStall (h.foldl (fun _ _ k => k.copyLevels))))))) ?_
  exact h.sat.wb.err.event

theorem State.Keeps.strobed {s : State} {st t : Nat} {ldlv : Bool} (h : σ.Keeps s) :
    σ.Keeps (s.strobed st t ldlv) := by
  unfold State.strobed
  exact h.setStall

theorem State.Keeps.lvlCtrlWrite {s : State} {st : Nat} {v : Word} (h : σ.Keeps s) :
    σ.Keeps (lvlCtrlWrite st v s) := by
  unfold Machine.lvlCtrlWrite
  refine .ite h.plainWrite ?_
  refine .ite h.plainWrite.err ?_
  exact .ite h.plainWrite.err (.ite h.plainWrite h.plainWrite.loadStrobe.strobed)

theorem State.Keeps.lvlPreWrite {s : State} {st o : Nat} {v : Word} (h : σ.Keeps s) :
    σ.Keeps (lvlPreWrite st o v s) := by
  unfold Machine.lvlPreWrite
  exact .ite h.err h.plainWrite.wb

theorem State.Keeps.bcastSelWrite {s : State} {st : Nat} {v : Word} (h : σ.Keeps s) :
    σ.Keeps (bcastSelWrite st v s) := by
  unfold Machine.bcastSelWrite
  exact .ite h.err h.plainWrite

theorem State.Keeps.bcastValWrite {s : State} {st : Nat} {v : Word} (h : σ.Keeps s) :
    σ.Keeps (bcastValWrite st v s) := by
  unfold Machine.bcastValWrite
  exact .ite h.err (.ite (h.foldl (fun _ _ k => k.wf)) (.wb (h.foldl (fun _ _ k => k.wf))))

theorem State.Keeps.slewWrite {s : State} {st : Nat} {v : Word} (h : σ.Keeps s) :
    σ.Keeps (slewWrite st v s) := by
  unfold Machine.slewWrite
  exact h.plainWrite.wb

theorem State.Keeps.batchOpen {s : State} {st : Nat} {b : Batch} {held : Nat} (h : σ.Keeps s) :
    σ.Keeps (s.batchOpen st b held) := by
  unfold State.batchOpen
  refine .pullUpdate (.setStall (.wf (.wf (.foldl (h.foldl (fun _ _ k => k.wearCycle)) (fun _ _ k => k.wearCycle)))))

theorem State.Keeps.batchClose {s : State} {st : Nat} {b : Batch} {held : Nat} (h : σ.Keeps s) :
    σ.Keeps (s.batchClose st b held) := by
  unfold State.batchClose
  exact h.wf.wf.setStall.pullUpdate

theorem State.Keeps.batchMove {s : State} {st : Nat} {b : Batch} {heldO heldC : Nat} {closing : Bool} (h : σ.Keeps s) :
    σ.Keeps (s.batchMove st b heldO heldC closing) := by
  unfold State.batchMove
  exact .ite h.batchOpen.batchClose h.batchOpen

theorem State.Keeps.batchEnd {s : State} {st code : Nat} (h : σ.Keeps s) :
    σ.Keeps (s.batchEnd st code) := by
  unfold State.batchEnd
  exact h.setStall.wb.storeResult.event

theorem State.Keeps.batchPreempt {s : State} {st m : Nat} (h : σ.Keeps s) :
    σ.Keeps (s.batchPreempt st m) := by
  unfold State.batchPreempt
  split
  · exact h
  · refine .ite h.batchEnd ?_
    refine .batchEnd ?_
    refine .ite ?_ ?_
    · refine .foldl ?_ fun _ _ k => ?_
      · refine .ite ?_ ?_
        · refine .foldl (.useFree (.ite h.useFree.useFree.batchMove h.useFree.useFree)) fun _ _ k => ?_
          exact k.wearCycle
        · exact .useFree (.ite h.useFree.useFree.batchMove h.useFree.useFree)
      · exact k.wearCycle
    · refine .ite ?_ ?_
      · refine .foldl (.useFree (.ite h.useFree.useFree.batchMove h.useFree.useFree)) fun _ _ k => ?_
        exact k.wearCycle
      · exact .useFree (.ite h.useFree.useFree.batchMove h.useFree.useFree)

theorem State.Keeps.batchFault {s : State} {st : Nat} {b : Batch} {n : Nat} (h : σ.Keeps s) :
    σ.Keeps (s.batchFault st b n) := by
  unfold State.batchFault
  exact .batchEnd (.ite h.batchMove.setStall h.batchMove)

theorem State.Keeps.openSwitches {s : State} {st m : Nat} (h : σ.Keeps s) :
    σ.Keeps (s.openSwitches st m) := by
  unfold State.openSwitches
  exact h.setStall.pullUpdate

theorem State.Keeps.park {s : State} {st m : Nat} (h : σ.Keeps s) :
    σ.Keeps (s.park st m) := by
  unfold State.park
  refine .openSwitches (.farAbortChans (.timPreempt (.batchPreempt (h.wf.foldl (fun _ _ k => k.setChan)))))

theorem State.Keeps.hwPark {s : State} {st m : Nat} (h : σ.Keeps s) :
    σ.Keeps (s.hwPark st m) := by
  unfold State.hwPark
  exact .ite h h.park.event

theorem State.Keeps.parkDone {s : State} {st c : Nat} (h : σ.Keeps s) :
    σ.Keeps (s.parkDone st c) := by
  unfold State.parkDone
  refine .pullUpdate ?_
  refine .ite ?_ ?_
  · refine .wb ?_
    refine .setStall ?_
    refine .ite (.wearCycle (.wb (.ite (.wearCycle (.wb (.ite h.wb.wearCycle h))) (.ite h.wb.wearCycle h)))) ?_
    exact .ite (.wearCycle (.wb (.ite h.wb.wearCycle h))) (.ite h.wb.wearCycle h)
  · refine .setStall ?_
    refine .ite (.wearCycle (.wb (.ite (.wearCycle (.wb (.ite h.wb.wearCycle h))) (.ite h.wb.wearCycle h)))) ?_
    exact .ite (.wearCycle (.wb (.ite h.wb.wearCycle h))) (.ite h.wb.wearCycle h)

theorem State.Keeps.stlParkWrite {s : State} {st : Nat} {v : Word} (h : σ.Keeps s) :
    σ.Keeps (stlParkWrite st v s) := by
  unfold Machine.stlParkWrite
  refine .ite (.ite h h.park) ?_
  refine .ite (.err (.ite h h.park)) ?_
  refine .ite (.err (.ite h h.park)) ?_
  exact .ite (.wf (.wf (.ite h h.park))) (.err (.wf (.wf (.ite h h.park))))

theorem State.Keeps.assignWrite {s : State} {st c : Nat} {v : Word} (h : σ.Keeps s) :
    σ.Keeps (assignWrite st c v s) := by
  unfold Machine.assignWrite
  exact .ite h.err (.ite h.err h.plainWrite.aside)

theorem State.Keeps.batchTdr {s : State} {st : Nat} {b : Batch} (h : σ.Keeps s) :
    σ.Keeps (s.batchTdr st b) := by
  unfold State.batchTdr
  exact .ite h (h.foldl (fun _ _ k => .ite k.timEnd k))

theorem State.Keeps.swmCtrlWrite {s : State} {st : Nat} {v : Word} (h : σ.Keeps s) :
    σ.Keeps (swmCtrlWrite st v s) := by
  unfold Machine.swmCtrlWrite
  refine .ite h.plainWrite ?_
  refine .ite h.plainWrite.err ?_
  exact .ite h.plainWrite.startResult.storeResult.err h.plainWrite.setStall.batchTdr.wb.startResult

theorem State.Keeps.swmTgtWrite {s : State} {st o : Nat} {v : Word} (h : σ.Keeps s) :
    σ.Keeps (swmTgtWrite st o v s) := by
  unfold Machine.swmTgtWrite
  exact .ite h.err h.plainWrite

theorem State.Keeps.wearIdxWrite {s : State} {st : Nat} {v : Word} (h : σ.Keeps s) :
    σ.Keeps (wearIdxWrite st v s) := by
  unfold Machine.wearIdxWrite
  exact .ite h.err h.plainWrite

theorem State.Keeps.wearWarnWrite {s : State} {st : Nat} {v : Word} (h : σ.Keeps s) :
    σ.Keeps (wearWarnWrite st v s) := by
  unfold Machine.wearWarnWrite
  exact h.plainWrite.foldl (fun _ _ k => .ite k.lanAside.event k.lanAside)

theorem State.Keeps.cmpCtrlWrite {s : State} {st : Nat} {v : Word} (h : σ.Keeps s) :
    σ.Keeps (cmpCtrlWrite st v s) := by
  unfold Machine.cmpCtrlWrite
  exact .ite (h.foldl (fun _ _ k => k.wr)) h

theorem State.Keeps.execSwitchBatchResume {s : State} {st : Fin 128} (h : σ.Keeps s) :
    σ.Answers (execSwitchBatchResume st s) := by
  unfold Machine.execSwitchBatchResume
  split
  · exact .ite (.next h.setStall.batchTdr) (.next h)
  · exact .next h

theorem State.Keeps.execSwitchBatchDone {s : State} {st : Fin 128} (h : σ.Keeps s) :
    σ.Answers (execSwitchBatchDone st s) := by
  unfold Machine.execSwitchBatchDone
  split
  · exact .ite (.next h) (.next h.batchTdr.batchMove.batchEnd)
  · exact .next h

theorem State.Keeps.execSwitchFault {s : State} {st : Fin 128} {n : Fin 48} (h : σ.Keeps s) :
    σ.Answers (execSwitchFault st n s) := by
  unfold Machine.execSwitchFault
  refine .next ?_
  refine .event ?_
  refine .pullUpdate ?_
  refine .wb ?_
  refine .logOffer ?_
  refine .hwPark ?_
  refine .setStall ?_
  split
  · exact .ite h.batchTdr.batchFault.err h
  · exact h

/-! ### The timing base and timing sets -/

theorem State.Keeps.tmbBit {s : State} {b : Nat} {v : Bool} (h : σ.Keeps s) :
    σ.Keeps (s.tmbBit b v) := by
  unfold State.tmbBit
  exact h.foldl (fun _ _ k => k.wb)

theorem State.Keeps.epochArm {s : State} {mode : Nat} (h : σ.Keeps s) :
    σ.Keeps (s.epochArm mode) := by
  unfold State.epochArm
  exact .ite h.wf.wb.tmbBit.tmbBit.aside.aside h.wf.wb.tmbBit.tmbBit.aside

theorem State.Keeps.tmbCtrlWrite {s : State} {b : Nat} {v : Word} (h : σ.Keeps s) :
    σ.Keeps (tmbCtrlWrite b v s) := by
  unfold Machine.tmbCtrlWrite
  exact .ite h (.ite h.err (.ite h.wf (.ite h.err (.ite h.err h.epochArm))))

theorem State.Keeps.syncDlyWrite {s : State} {b : Nat} {v : Word} (h : σ.Keeps s) :
    σ.Keeps (syncDlyWrite b v s) := by
  unfold Machine.syncDlyWrite
  exact .ite h (.ite h.err h.wr)

theorem State.Keeps.epochSet {s : State} {e : Nat} {dly : Bool} (h : σ.Keeps s) :
    σ.Keeps (s.epochSet e dly) := by
  unfold State.epochSet
  exact h.aside.wb.tmbBit.tmbBit.foldl (fun _ _ k => k.sat.event)

theorem State.Keeps.execSyncInPulse {s : State} {margin : BitVec 16} (h : σ.Keeps s) :
    σ.Answers (execSyncInPulse margin s) := by
  unfold Machine.execSyncInPulse
  dsimp only
  split
  · exact .next (.foldl (h.foldl (fun _ _ k => .ite k.wf.wb.event k.wf.wb)) (fun _ _ k => k.sat))
  · refine .ite (.next h) ?_
    refine .ite (.next (.epochSet (.foldl (.ite h.useFree h) (fun _ _ k => .ite k.wf.wb.event k.wf.wb)))) ?_
    refine .ite (.next (.useFree (.ite h.useFree h))) ?_
    refine .next ?_
    exact .epochSet (.foldl (.useFree (.ite h.useFree h)) (fun _ _ k => .ite k.wf.wb.event k.wf.wb))

theorem State.Keeps.markDirty {s : State} {q t : Nat} (h : σ.Keeps s) :
    σ.Keeps (s.markDirty q t) := by
  unfold State.markDirty
  exact h.aside.wb

theorem State.Keeps.periodWrite {s : State} {q t : Nat} {v : Word} (h : σ.Keeps s) :
    σ.Keeps (periodWrite q t v s) := by
  unfold Machine.periodWrite
  exact .ite h.err (.ite h.err h.wr.markDirty)

theorem State.Keeps.edgeWrite {s : State} {q i : Nat} {v : Word} (h : σ.Keeps s) :
    σ.Keeps (edgeWrite q i v s) := by
  unfold Machine.edgeWrite
  exact .ite h.err (.ite h.aside.markDirty.wf h.aside.markDirty)

theorem State.Keeps.fmtWrite {s : State} {q e : Nat} {v : Word} (h : σ.Keeps s) :
    σ.Keeps (fmtWrite q e v s) := by
  unfold Machine.fmtWrite
  exact .ite h.err (.ite h.err h.plainWrite)

/-! ### Segments and granules -/

theorem State.Keeps.entryReads {s : State} {q i : Nat} {errs : List (PrimeRead × Ecc)} (h : σ.Keeps s) :
    σ.Keeps (s.entryReads q i errs) := by
  unfold State.entryReads
  exact .ite h.eccRead h.eccRead.eccRead

theorem State.Keeps.primeReads {s : State} {q : Nat} {errs : List (PrimeRead × Ecc)} (h : σ.Keeps s) :
    σ.Keeps (s.primeReads q errs) := by
  unfold State.primeReads
  exact .ite h (h.foldl (fun _ _ k => k.entryReads))

theorem State.Keeps.panicUpdate {s : State} {q : Nat} {m : List Seg} {a : Nat} (h : σ.Keeps s) :
    σ.Keeps (s.panicUpdate q m a) := by
  unfold State.panicUpdate
  exact .ite h.wf (.ite (.ite h.wf h.wf.wb.sat.event.portPanic) h.wf.wb.portCalm)

theorem State.Keeps.panicEnd {s : State} {q : Nat} (h : σ.Keeps s) :
    σ.Keeps (s.panicEnd q) := by
  unfold State.panicEnd
  exact h.wf.wb.portCalm

theorem State.Keeps.keepGranules {s : State} {q : Nat} {w : List Nat} (h : σ.Keeps s) :
    σ.Keeps (s.keepGranules q w) := by
  unfold State.keepGranules
  exact h.setSeq

theorem State.Keeps.evict {s : State} {q : Nat} {m : List Seg} {a : Nat} (h : σ.Keeps s) :
    σ.Keeps (s.evict q m a) := by
  unfold State.evict
  exact h.keepGranules

theorem State.Keeps.evictIdle {s : State} {q : Nat} (h : σ.Keeps s) :
    σ.Keeps (s.evictIdle q) := by
  unfold State.evictIdle
  split
  · exact h.keepGranules
  · exact h

theorem State.Keeps.fillGranule {s : State} {q : Nat} {sg : Seg} {g : Nat} (h : σ.Keeps s) :
    σ.Keeps (s.fillGranule q sg g) := by
  unfold State.fillGranule
  exact h.setSeq

theorem State.Keeps.loadGranules {s : State} {q : Nat} {m : List Seg} {l : List Nat} {ecc : Machine.State → Nat → Bool → Ecc} (h
    : σ.Keeps s) :
    σ.Keeps (s.loadGranules q m l ecc) := by
  unfold State.loadGranules
  refine .foldl h fun _ _ k => ?_
  split
  · exact k
  · refine .ite k ?_
    refine .ite ?_ ?_
    · split
      · exact k.useFree.eccRead.eccRead
      · exact k.useFree.eccRead
    · refine .fillGranule ?_
      split
      · exact k.useFree.eccRead.eccRead
      · exact k.useFree.eccRead

theorem State.Keeps.windowsLoaded {s : State} {q : Nat} {m : List Seg} {a : Nat} (h : σ.Keeps s) :
    σ.Keeps (s.windowsLoaded q m a) := by
  unfold State.windowsLoaded
  exact .ite h.loadGranules h

theorem State.Keeps.starveCount {s : State} {q : Nat} (h : σ.Keeps s) :
    σ.Keeps (s.starveCount q) := by
  unfold State.starveCount
  exact h.wr2

theorem State.Keeps.strmCtrlWrite {s : State} {q : Nat} {v : Word} (h : σ.Keeps s) :
    σ.Keeps (strmCtrlWrite q v s) := by
  unfold Machine.strmCtrlWrite
  refine .ite h.err ?_
  refine .ite ?_ ?_
  · refine .ite h.wb.wf ?_
    split
    · exact h.wb.wf.panicUpdate
    · exact h.wb.wf
  · refine .ite ?_ ?_
    · refine .err ?_
      refine .ite h.wb.wf ?_
      split
      · exact h.wb.wf.panicUpdate
      · exact h.wb.wf
    · refine .ite ?_ ?_
      · refine .err ?_
        refine .ite h.wb.wf ?_
        split
        · exact h.wb.wf.panicUpdate
        · exact h.wb.wf
      · refine .ite ?_ ?_
        · refine .ite h.wb.wf ?_
          split
          · exact h.wb.wf.panicUpdate
          · exact h.wb.wf
        · refine .setMstate ?_
          refine .startResult ?_
          refine .setSeq ?_
          refine .ite h.wb.wf ?_
          split
          · exact h.wb.wf.panicUpdate
          · exact h.wb.wf

theorem State.Keeps.startAddrWrite {s : State} {q : Nat} {v : Word} (h : σ.Keeps s) :
    σ.Keeps (startAddrWrite q v s) := by
  unfold Machine.startAddrWrite
  exact .ite h.plainWrite.setMstate.evictIdle h.plainWrite

theorem State.Keeps.sdirWrite {s : State} {r : Requester} {q which : Nat} {v : Word} (h : σ.Keeps s) :
    σ.Keeps (sdirWrite r q which v s) := by
  unfold Machine.sdirWrite
  refine .ite h.err ?_
  refine .setMstate ?_
  refine .setSeq ?_
  split
  · exact h.stageWrite
  · exact h.plainWrite.plainWrite.unstage
  · exact h.plainWrite

theorem State.Keeps.endRun {s : State} {q : Nat} {e : RunEnd} (h : σ.Keeps s) :
    σ.Keeps (s.endRun q e) := by
  unfold State.endRun
  exact .ite h.starveCount.setSeq.setSeqState.farAbort h.starveCount.setSeq.setSeqState

theorem State.Keeps.primeFail {s : State} {q code idx : Nat} (h : σ.Keeps s) :
    σ.Keeps (s.primeFail q code idx) := by
  unfold State.primeFail
  exact h.storeResult.setMstate.err

theorem State.Keeps.execPrimeDone {s : State} {q : Fin 8} {errs : List (PrimeRead × Ecc)} (h : σ.Keeps s) :
    σ.Answers (execPrimeDone q errs s) := by
  unfold Machine.execPrimeDone
  refine .ite (.next h) ?_
  dsimp only
  split
  · refine .ite (.next h.primeReads.setSeq.loadGranules.storeResult.setMstate) ?_
    exact .next h.primeReads.setSeq.loadGranules.setSeq.useFree.primeFail
  · exact .next h.primeReads.primeFail

theorem State.Keeps.execStartWindowLoaded {s : State} {q : Fin 8} (h : σ.Keeps s) :
    σ.Answers (execStartWindowLoaded q s) := by
  unfold Machine.execStartWindowLoaded
  dsimp only
  split
  · exact .ite (.next (.ite h.setSeq.loadGranules.setMstate h.setSeq.loadGranules)) (.next h)
  · exact .next h

theorem State.Keeps.execGranuleResident {s : State} {q : Fin 8} {g : Fin 262144} {ecc : Ecc} (h : σ.Keeps s) :
    σ.Answers (execGranuleResident q g ecc s) := by
  unfold Machine.execGranuleResident
  dsimp only
  split
  · exact .next h
  · refine .ite (.next h) ?_
    split
    · exact .next h
    · refine .ite (.next h) ?_
      refine .ite (.ite (.next h.eccRead.wr.endRun) (.next h.eccRead.setSeq)) ?_
      exact .ite (.next h.eccRead.fillGranule.panicUpdate.wb.wb) (.next h.eccRead.fillGranule.panicUpdate)

/-! ### Sites, captures and the end of a run -/

theorem State.Keeps.capture {s : State} {q : Nat} {v : VecRec} {site : Nat} (h : σ.Keeps s) :
    σ.Keeps (s.capture q v site) := by
  unfold State.capture
  exact .ite h (.ite h.setSeq (.ite h.setSeq.setSeq.sat.sat.event h.setSeq.aside.wr))

theorem State.Keeps.retire {s : State} {q : Nat} {v : VecRec} (h : σ.Keeps s) :
    σ.Keeps (s.retire q v) := by
  unfold State.retire
  dsimp only
  split
  · refine .ite (.setSeq (.ite h.setSeq (h.setSeq.foldl (fun _ _ k => k.setSeq.capture)))) ?_
    exact .ite h.setSeq (h.setSeq.foldl (fun _ _ k => k.setSeq.capture))
  · refine .ite ?_ ?_
    · refine .event ?_
      refine .sat ?_
      refine .ite (.setSeq (.ite h.setSeq (h.setSeq.foldl (fun _ _ k => k.setSeq.capture)))) ?_
      exact .ite h.setSeq (h.setSeq.foldl (fun _ _ k => k.setSeq.capture))
    · refine .setSeq ?_
      refine .ite (.setSeq (.ite h.setSeq (h.setSeq.foldl (fun _ _ k => k.setSeq.capture)))) ?_
      exact .ite h.setSeq (h.setSeq.foldl (fun _ _ k => k.setSeq.capture))

theorem State.Keeps.retireAll {s : State} {q : Nat} (h : σ.Keeps s) :
    σ.Keeps (s.retireAll q) := by
  unfold State.retireAll
  exact .setSeq (h.foldl (fun _ _ k => k.retire))

theorem State.Keeps.siteRingWrite {s : State} {q : Nat} {v : Word} (h : σ.Keeps s) :
    σ.Keeps (siteRingWrite q v s) := by
  unfold Machine.siteRingWrite
  exact .ite h.plainWrite h.err

theorem State.Keeps.capSizeWrite {s : State} {q : Nat} {v : Word} (h : σ.Keeps s) :
    σ.Keeps (capSizeWrite q v s) := by
  unfold Machine.capSizeWrite
  exact .ite h.err h.plainWrite

theorem State.Keeps.postSites {s : State} {q : Nat} {bodies : List Nat} (h : σ.Keeps s) :
    σ.Keeps (s.postSites q bodies) := by
  unfold State.postSites
  exact h.foldl (fun _ _ k => k.post)

theorem State.Keeps.execSnapshotPost {s : State} {q : Fin 8} (h : σ.Keeps s) :
    σ.Answers (execSnapshotPost q s) := by
  unfold Machine.execSnapshotPost
  split
  · exact .next h
  · exact .next h.setSeq.postSites

theorem State.Keeps.capWrite {s : State} {c : CapRec} (h : σ.Keeps s) :
    σ.Keeps (s.capWrite c) := by
  unfold State.capWrite
  exact .ite h.sat.wb.setSeq (.ite h.useFree.hayMerge.inc.wr2.wr2.wb h.useFree.hayMerge.inc.wr2.wr2)

theorem State.Keeps.capFlush {s : State} {q : Nat} (h : σ.Keeps s) :
    σ.Keeps (s.capFlush q) := by
  unfold State.capFlush
  exact h.aside.foldl (fun _ _ k => k.capWrite)

theorem State.Keeps.execCaptureRecordWritten {s : State} (h : σ.Keeps s) :
    σ.Answers (execCaptureRecordWritten s) := by
  unfold Machine.execCaptureRecordWritten
  split
  · exact .next h
  · exact .ite (.next h) (.next h.aside.capWrite)

/-! ### The algorithmic generators -/

theorem State.Keeps.apgWrite {s : State} {q o : Nat} {v : Word} (h : σ.Keeps s) :
    σ.Keeps (apgWrite q o v s) := by
  unfold Machine.apgWrite
  exact .ite h.err (.ite h.err h.plainWrite)

/-! ### The issue of a vector -/

theorem State.Keeps.cancelEdges {s : State} {q : Nat} (h : σ.Keeps s) :
    σ.Keeps (s.cancelEdges q) := by
  unfold State.cancelEdges
  exact h.foldl (fun _ _ k => k.setChan)

theorem State.Keeps.cutWindows {s : State} {q t : Nat} (h : σ.Keeps s) :
    σ.Keeps (s.cutWindows q t) := by
  unfold State.cutWindows
  exact h.foldl (fun _ _ k => k.setChan)

theorem State.Keeps.finishRun {s : State} {q : Nat} {e : RunEnd} (h : σ.Keeps s) :
    σ.Keeps (s.finishRun q e) := by
  unfold State.finishRun
  refine .event ?_
  refine .ite ?_ ?_
  · refine .evictIdle ?_
    refine .setMstate ?_
    refine .setSeqState ?_
    refine .panicEnd ?_
    refine .wb ?_
    refine .wb ?_
    refine .wf ?_
    refine .wf ?_
    refine .wr ?_
    refine .storeResult ?_
    refine .setSeq ?_
    refine .foldl ?_ fun _ _ k => ?_
    · refine .foldl ?_ fun _ _ k => ?_
      · refine .ite (.event (.postSites (.setSeq (h.retireAll.foldl (fun _ _ k => k.postSites))))) ?_
        exact .setSeq (h.retireAll.foldl (fun _ _ k => k.postSites))
      · exact k.wr
    · exact k.setChan
  · refine .setSeqState ?_
    refine .panicEnd ?_
    refine .wb ?_
    refine .wb ?_
    refine .wf ?_
    refine .wf ?_
    refine .wr ?_
    refine .storeResult ?_
    refine .setSeq ?_
    refine .foldl ?_ fun _ _ k => ?_
    · refine .foldl ?_ fun _ _ k => ?_
      · refine .ite (.event (.postSites (.setSeq (h.retireAll.foldl (fun _ _ k => k.postSites))))) ?_
        exact .setSeq (h.retireAll.foldl (fun _ _ k => k.postSites))
      · exact k.wr
    · exact k.setChan

theorem State.Keeps.cutRun {s : State} {q code : Nat} {final : Bool} (h : σ.Keeps s) :
    σ.Keeps (s.cutRun q code final) := by
  unfold State.cutRun
  exact .ite h (.ite h.finishRun (.endRun (.cutWindows (.cancelEdges (.ite h.setSeq h)))))

theorem State.Keeps.seqPreempt {s : State} {q : Nat} (h : σ.Keeps s) :
    σ.Keeps (s.seqPreempt q) := by
  unfold State.seqPreempt
  exact h.cutRun

theorem State.Keeps.clash {s : State} {q idx : Nat} {drops : List (Nat × Nat × Nat)} (h : σ.Keeps s) :
    σ.Keeps (s.clash q idx drops) := by
  unfold State.clash
  exact .ite h h.sat.wr.wr.event

theorem State.Keeps.placeChan {s : State} {q idx : Nat} {v : Vec} {gap : Bool} {active : Nat} {c : Nat × Nat × Nat} (h : σ.Keeps
    s) :
    σ.Keeps (s.placeChan q idx v gap active c).1 := by
  unfold State.placeChan
  dsimp only
  split
  · exact h.setChan
  · split
    · exact h.setChan
    · split
      · exact h.setChan
      · split
        · exact h.setChan
        · exact h.setChan

theorem State.Keeps.placeAll {s : State} {q idx : Nat} {v : Vec} {gap : Bool} {active : Nat} (h : σ.Keeps s) :
    σ.Keeps (s.placeAll q idx v gap active) := by
  exact .clash (.foldlFst h fun _ _ k => k.placeChan)

theorem State.Keeps.recordFail {s : State} {q : Nat} {c : Nat × Nat × Nat} {e : Edge} (h : σ.Keeps s) :
    σ.Keeps (s.recordFail q c e) := by
  unfold State.recordFail
  exact .ite h h.sat.setSeq

theorem State.Keeps.fireAll {s : State} {q cur limit : Nat} {obs : List Sample} (h : σ.Keeps s) :
    σ.Keeps (s.fireAll q cur limit obs) := by
  unfold State.fireAll
  exact h.foldl (fun _ _ k => k.setChan.foldl (fun _ _ k2 => k2.recordFail))

theorem State.Keeps.enterGranule {s : State} {q a : Nat} (h : σ.Keeps s) :
    σ.Keeps (s.enterGranule q a) := by
  unfold State.enterGranule
  dsimp only
  split
  · exact h
  · exact .ite h h.setSeq.evict

theorem State.Keeps.boundary {s : State} {q : Nat} {v : Vec} {active : Nat} {inRep : Bool} (h : σ.Keeps s) :
    σ.Keeps (s.boundary q v active inRep) := by
  unfold State.boundary
  dsimp only
  split
  · exact h
  · refine .ite (.endRun (.panicUpdate (.windowsLoaded (.ite (.ite h.inc h) (.evict (.ite h.inc h)))))) ?_
    refine .ite (.panicUpdate (.windowsLoaded (.ite (.ite h.inc h) (.evict (.ite h.inc h))))) ?_
    refine .event ?_
    refine .setSeqState ?_
    refine .ite ?_ ?_
    · refine .setSeq ?_
      refine .ite ?_ ?_
      · refine .sat ?_
        refine .wb ?_
        refine .ite ?_ ?_
        · refine .event ?_
          refine .sat ?_
          refine .wf (.wb (.setSeq (.panicUpdate (.windowsLoaded (.ite (.ite h.inc h) (.evict (.ite h.inc h)))))))
        · exact .panicUpdate (.windowsLoaded (.ite (.ite h.inc h) (.evict (.ite h.inc h))))
      · refine .wb ?_
        refine .ite ?_ ?_
        · refine .event ?_
          refine .sat ?_
          refine .wf (.wb (.setSeq (.panicUpdate (.windowsLoaded (.ite (.ite h.inc h) (.evict (.ite h.inc h)))))))
        · exact .panicUpdate (.windowsLoaded (.ite (.ite h.inc h) (.evict (.ite h.inc h))))
    · refine .ite ?_ ?_
      · refine .event ?_
        refine .sat ?_
        refine .wf (.wb (.setSeq (.panicUpdate (.windowsLoaded (.ite (.ite h.inc h) (.evict (.ite h.inc h)))))))
      · exact .panicUpdate (.windowsLoaded (.ite (.ite h.inc h) (.evict (.ite h.inc h))))

theorem State.Keeps.progFault {s : State} {q : Nat} {v : Vec} {code : Nat} (h : σ.Keeps s) :
    σ.Keeps (s.progFault q v code) := by
  unfold State.progFault
  exact h.endRun

theorem State.Keeps.addrFault {s : State} {q : Nat} {v : Vec} {next : Nat} (h : σ.Keeps s) :
    σ.Keeps (s.addrFault q v next) := by
  unfold State.addrFault
  exact h.wr.progFault

theorem State.Keeps.runVec {s : State} {q : Nat} {v : Vec} {obs : List Sample} {c : Ctl} {first gap : Bool} {fx : Machine.State
    → Machine.State} (h : σ.Keeps s) (hfx : ∀ x0, σ.Keeps x0 → σ.Keeps (fx x0)) :
    σ.Keeps (s.runVec q v obs c first gap fx) := by
  unfold State.runVec
  dsimp only
  split
  · exact .endRun (.enterGranule (hfx _ h.atTick.wr.placeAll.setSeq.setSeq.wr.wr2))
  · refine .ite (.endRun (.enterGranule (hfx _ h.atTick.wr.placeAll.setSeq.setSeq.wr.wr2))) ?_
    exact .boundary (.enterGranule (hfx _ h.atTick.wr.placeAll.setSeq.setSeq.wr.wr2))

theorem State.Keeps.retireHead {s : State} {q : Nat} {obs : List Sample} (h : σ.Keeps s) :
    σ.Keeps (s.retireHead q obs).1 := by
  unfold State.retireHead
  dsimp only
  split
  · exact h.fireAll
  · split
    · exact h.fireAll
    · exact h.fireAll.setSeq.retire

theorem State.Keeps.issue {s : State} {q k : Nat} {obs : List Sample} {bad : Vec → Nat → Bool} {flow : Vec → SeqSt → Option
    VecRec → Nat ⊕ Ctl} {fx : Vec → Nat → Machine.State → Machine.State} (h : σ.Keeps s) (hfx : ∀ x0 x1 x2, σ.Keeps x2 → σ.Keeps
    (fx x0 x1 x2)) :
    σ.Keeps (s.issue q k obs bad flow fx) := by
  unfold State.issue
  refine .ite h ?_
  dsimp only
  split
  · exact h
  · refine .ite h ?_
    split
    · exact h.retireHead.progFault
    · split
      · exact h.retireHead.progFault
      · exact .ite h.retireHead.addrFault (h.retireHead.runVec (fun _ k2 => hfx _ _ _ k2))

theorem State.Keeps.noFx {s : State} {v : Vec} {t : Nat} (h : σ.Keeps s) :
    σ.Keeps (noFx v t s) := by
  exact h

/-! ### The opcodes of a vector -/

theorem State.Keeps.startClear {s : State} {q : Nat} (h : σ.Keeps s) :
    σ.Keeps (s.startClear q) := by
  unfold State.startClear
  exact .wb (.wf (h.foldl (fun _ _ k => k.wr)))

theorem State.Keeps.startRun {s0 : State} {q : Nat} (h : σ.Keeps s0) :
    σ.Keeps (s0.startRun q) := by
  unfold State.startRun
  refine .ite h.capFlush.aside.setSeq.startResult.startClear.setMstate.setSeqState ?_
  refine .ite h.capFlush.aside.setSeq.startResult.startClear.setMstate.setSeqState.setSeq ?_
  refine .ite h.capFlush.aside.setSeq.startResult.startClear.setMstate.setSeqState.wb.event ?_
  exact h.capFlush.aside.setSeq.startResult.startClear.setMstate.setSeqState.setSeq

theorem State.Keeps.startShown {s : State} {q : Nat} (h : σ.Keeps s) :
    σ.Keeps (s.startShown q) := by
  unfold State.startShown
  split
  · exact h.panicUpdate
  · exact h

theorem State.Keeps.seqStart {s : State} {q : Nat} (h : σ.Keeps s) :
    σ.Keeps (s.seqStart q) := by
  unfold State.seqStart
  split
  · exact h.err
  · exact h
  · split
    · exact h.err
    · exact .ite h.err h.startRun.startShown

theorem State.Keeps.seqEdge {s : State} {k : Nat} (h : σ.Keeps s) :
    σ.Keeps (s.seqEdge k) := by
  unfold State.seqEdge
  exact h.foldl (fun _ _ k => .ite (.ite k.wb.event k.setSeq) k)

theorem State.Keeps.seqStop {s : State} {q : Nat} (h : σ.Keeps s) :
    σ.Keeps (s.seqStop q) := by
  unfold State.seqStop
  exact .ite h (.ite h.wb (.ite h.finishRun (.ite h.wb.setSeq (.endRun (.ite h.wb.atTick h.wb)))))

theorem State.Keeps.seqAbort {s : State} {q : Nat} (h : σ.Keeps s) :
    σ.Keeps (s.seqAbort q) := by
  unfold State.seqAbort
  exact .ite h (.ite h.cutRun h.wb.cutRun)

theorem State.Keeps.stopNoted {s : State} {q : Nat} {stop : Bool} (h : σ.Keeps s) :
    σ.Keeps (s.stopNoted q stop) := by
  unfold State.stopNoted
  exact .ite h.wb h

theorem State.Keeps.seqCtrlWrite {s : State} {q : Nat} {v : Word} (h : σ.Keeps s) :
    σ.Keeps (seqCtrlWrite q v s) := by
  unfold Machine.seqCtrlWrite
  refine .ite h.err ?_
  refine .ite (.seqStart (.ite h.wf.wf.wb.seqAbort.stopNoted (.ite h.wf.wf.wb.seqStop h.wf.wf.wb))) ?_
  exact .ite h.wf.wf.wb.seqAbort.stopNoted (.ite h.wf.wf.wb.seqStop h.wf.wf.wb)

theorem State.Keeps.seqStartTickWrite {s : State} {r : Requester} {q : Nat} {hi : Bool} {v : Word} (h : σ.Keeps s) :
    σ.Keeps (seqStartTickWrite r q hi v s) := by
  unfold Machine.seqStartTickWrite
  exact .ite h.plainWrite.plainWrite.unstage h.stageWrite

theorem State.Keeps.markRingWrite {s : State} {q : Nat} {v : Word} (h : σ.Keeps s) :
    σ.Keeps (markRingWrite q v s) := by
  unfold Machine.markRingWrite
  exact .ite h.plainWrite h.err

theorem State.Keeps.execVector0Begin {s : State} {q : Fin 8} (h : σ.Keeps s) :
    σ.Answers (execVector0Begin q s) := by
  unfold Machine.execVector0Begin
  dsimp only
  split
  · exact .next h
  · refine .ite (.next h) ?_
    refine .ite (.next h.setSeq.wb.event) ?_
    split
    · exact .next (.panicUpdate (h.atTick.setSeq.setSeqState.wb.foldl (fun _ _ k => k.setChan)))
    · exact .next (h.atTick.setSeq.setSeqState.wb.foldl (fun _ _ k => k.setChan))

theorem State.Keeps.execDrainComplete {s : State} {q : Fin 8} (h : σ.Keeps s) :
    σ.Answers (execDrainComplete q s) := by
  unfold Machine.execDrainComplete
  split
  · exact .ite (.next h) (.ite (.next h.finishRun) (.next h.atTick.finishRun))
  · exact .next h

theorem State.Keeps.execLateEdgeFire {s : State} {q : Fin 8} {ch : Fin 2048} {h l : Bool} (hs : σ.Keeps s) :
    σ.Answers (execLateEdgeFire q ch h l s) := by
  unfold Machine.execLateEdgeFire
  dsimp only
  split
  · exact .next hs
  · split
    · exact .next hs
    · exact .ite (.next hs) (.ite (.next hs.setChan.recordFail) (.next hs.setChan))

theorem State.Keeps.markPost {s : State} {q ty tag vcnt t off : Nat} (h : σ.Keeps s) :
    σ.Keeps (s.markPost q ty tag vcnt t off) := by
  unfold State.markPost
  exact .ite h.post h

theorem State.Keeps.fxLdlv {s : State} {q t : Nat} {v : Vec} (h : σ.Keeps s) :
    σ.Keeps (fxLdlv q v t s) := by
  exact h.foldl fun _ _ k => .ite k (.ite k.loadStrobe.strobed k)

theorem State.Keeps.fxTrig {s : State} {q : Nat} {v : Vec} {t : Nat} (h : σ.Keeps s) :
    σ.Keeps (fxTrig q v t s) := by
  unfold Machine.fxTrig
  refine .ite h.inc.timTrigger.pmuTrigger.cnvLine.acqLine.markPost ?_
  exact h.inc.timTrigger.pmuTrigger.cnvLine.acqLine

theorem State.Keeps.fxMark {s : State} {q : Nat} {v : Vec} {t : Nat} (h : σ.Keeps s) :
    σ.Keeps (fxMark q v t s) := by
  unfold Machine.fxMark
  exact .ite h.inc.markPost.event h.inc.markPost

/-! ### The flash -/

theorem State.Keeps.storeWrite {s : State} (h : σ.Keeps s) :
    σ.Keeps s.storeWrite := by
  refine h.restored rfl fun hs => ?_
  obtain ⟨hr, hh, hf⟩ := storesOk_iff.mp hs
  exact storesOk_iff.mpr ⟨hr, hh, flashWf_storeWrite hf⟩

theorem State.Keeps.storeSpoil {s : State} (h : σ.Keeps s) :
    σ.Keeps s.storeSpoil := by
  unfold State.storeSpoil
  refine .ite h (h.trans ⟨rfl, fun hs => ?_, id, fun hs => ⟨le_refl _, rfl, hs⟩⟩)
  obtain ⟨hr, hh, hf⟩ := storesOk_iff.mp hs
  exact storesOk_iff.mpr ⟨hr, hh, wf_flashPut _ _ hf⟩

theorem State.Keeps.storeCut {s : State} (h : σ.Keeps s) :
    σ.Keeps s.storeCut := by
  unfold State.storeCut
  exact .ite h.storeSpoil h

/-! ### The farrier -/

theorem State.Keeps.farRun {s : State} (h : σ.Keeps s) :
    σ.Keeps s.farRun := by
  unfold State.farRun
  refine .ite h.err ?_
  refine .ite h.err ?_
  exact .ite h.err (.setFarState (.startResult (h.setFar.wr.wr.wr.foldl (fun _ _ k => k.wr))))

theorem State.Keeps.farStop {s : State} (h : σ.Keeps s) :
    σ.Keeps s.farStop := by
  unfold State.farStop
  exact .ite h h.wb.wb.farEnd

theorem State.Keeps.farStoreStart {s : State} (h : σ.Keeps s) :
    σ.Keeps s.farStoreStart := by
  unfold State.farStoreStart
  exact .ite h.err (.ite h (.ite h.err h.startResult.setFarState))

theorem State.Keeps.farCtrlWrite {s : State} {v : Word} (h : σ.Keeps s) :
    σ.Keeps (farCtrlWrite v s) := by
  unfold Machine.farCtrlWrite
  refine .ite (.farStoreStart (.ite (.farRun (.ite h.farStop h)) (.ite h.farStop h))) ?_
  exact .ite (.farRun (.ite h.farStop h)) (.ite h.farStop h)

theorem State.Keeps.farSwTmoWrite {s : State} {v : Word} (h : σ.Keeps s) :
    σ.Keeps (farSwTmoWrite v s) := by
  unfold Machine.farSwTmoWrite
  exact .ite h.err h.plainWrite

theorem State.Keeps.farWinTickWrite {s : State} {r : Requester} {hi : Bool} {v : Word} (h : σ.Keeps s) :
    σ.Keeps (farWinTickWrite r hi v s) := by
  unfold Machine.farWinTickWrite
  exact .ite h.plainWrite.plainWrite.unstage h.stageWrite

theorem State.Keeps.farWinCfgWrite {s : State} {v : Word} (h : σ.Keeps s) :
    σ.Keeps (farWinCfgWrite v s) := by
  unfold Machine.farWinCfgWrite
  exact .ite h.err (.ite h.plainWrite (.ite h.plainWrite.err h.plainWrite.setFar.wb))

theorem State.Keeps.execFarrierStoreDone {s : State} {ok : Bool} (h : σ.Keeps s) :
    σ.Answers (execFarrierStoreDone ok s) := by
  unfold Machine.execFarrierStoreDone
  refine .ite (.next h) ?_
  refine .next ?_
  refine .event ?_
  refine .setFarState ?_
  refine .ite (.wb (.storeResult (.ite h.storeWrite (.ite h.storeSpoil h)))) ?_
  exact .storeResult (.ite h.storeWrite (.ite h.storeSpoil h))

theorem State.Keeps.farFinish {s : State} (h : σ.Keeps s) :
    σ.Keeps s.farFinish := by
  unfold State.farFinish
  exact .ite h.setFarState h.farStore

theorem State.Keeps.execFarrierCopyDone {s : State} (h : σ.Keeps s) :
    σ.Answers (execFarrierCopyDone s) := by
  unfold Machine.execFarrierCopyDone
  refine .ite (.next h) ?_
  exact .next (.ite h.setInactive.setFar.wr.setFarState.farFinish h.setInactive.setFar.wr.setFarState)

theorem State.Keeps.farCnvArm {s : State} {st u : Nat} (h : σ.Keeps s) :
    σ.Keeps (s.farCnvArm st u) := by
  unfold State.farCnvArm
  exact .ite h.err (.ite h.err h.startResult)

theorem State.Keeps.execFarrierStepStart {s : State} {st : Fin 128} {g : Fin 7} {inst : Fin 2048} {mask : BitVec 16} {src :
    GapSource} {t : BitVec 48} (h : σ.Keeps s) :
    σ.Answers (execFarrierStepStart st g inst mask src t s) := by
  unfold Machine.execFarrierStepStart
  refine .ite ?_ ?_
  · refine .next ?_
    refine .ite ?_ ?_
    · refine .pullUpdate (.wf (.ite h.atTick.setFar.farTimArm (.ite h.atTick.setFar.farCnvArm h.atTick.setFar)))
    · exact .ite h.atTick.setFar.farTimArm (.ite h.atTick.setFar.farCnvArm h.atTick.setFar)
  · exact .next h

theorem State.Keeps.instEnd {s : State} {g inst : Nat} (h : σ.Keeps s) :
    σ.Keeps (s.instEnd g inst) := by
  unfold State.instEnd
  exact .ite (.sat (.ite h.wf h)) h.setFar

theorem State.Keeps.execFarrierStepEnd {s : State} {st : Fin 128} {ok : Bool} (h : σ.Keeps s) :
    σ.Answers (execFarrierStepEnd st ok s) := by
  unfold Machine.execFarrierStepEnd
  split
  · exact .next h
  · refine .next ?_
    refine .ite (.farSettle (.ite h.stepRelease.setFar.inc.wr.instEnd h.stepRelease.setFar.inc.wr)) ?_
    refine .ite (.farFinish (.ite h.stepRelease.setFar.inc.wr.instEnd h.stepRelease.setFar.inc.wr)) ?_
    exact .ite h.stepRelease.setFar.inc.wr.instEnd h.stepRelease.setFar.inc.wr

theorem State.Keeps.execFarrierSwitchover {s : State} {t : BitVec 48} (h : σ.Keeps s) :
    σ.Answers (execFarrierSwitchover t s) := by
  unfold Machine.execFarrierSwitchover
  refine .ite (.next h) ?_
  refine .next ?_
  refine .event (.farStore (.wb (.timBankSw (h.atTick.setInactive.wr.wb.wf.wb.foldl (fun _ _ k => k.wf)))))

theorem State.Keeps.execFarrierWindowOpen {s : State} (h : σ.Keeps s) :
    σ.Answers (execFarrierWindowOpen s) := by
  unfold Machine.execFarrierWindowOpen
  split
  · exact .ite (.next h) (.next h.atTick.wb)
  · exact .next h

/-! ### The hayloft controller -/

theorem State.Keeps.setHbm {s : State} {b : Nat} {v : Bool} (h : σ.Keeps s) :
    σ.Keeps (s.setHbm b v) := by
  unfold State.setHbm
  exact h.wb

theorem State.Keeps.setHbmSt {s : State} {h : HbmSt} (hs : σ.Keeps s) :
    σ.Keeps (s.setHbmSt h) := by
  unfold State.setHbmSt
  exact hs.aside

theorem State.Keeps.hbmCtrlWrite {s : State} {v : Word} (h : σ.Keeps s) :
    σ.Keeps (hbmCtrlWrite v s) := by
  unfold Machine.hbmCtrlWrite
  refine .ite h.err ?_
  exact .ite h.plainWrite (.ite h.plainWrite.err (.ite h.plainWrite.err h.plainWrite.wb.aside))

theorem State.Keeps.xmapWrite {s : State} {j : Nat} {v : Word} (h : σ.Keeps s) :
    σ.Keeps (xmapWrite j v s) := by
  unfold Machine.xmapWrite
  exact .ite h.err h.plainWrite

theorem State.Keeps.rateEnd {s : State} {code p : Nat} (h : σ.Keeps s) :
    σ.Keeps (s.rateEnd code p) := by
  unfold State.rateEnd
  exact h.storeResult.event

theorem State.Keeps.reserve {s : State} (h : σ.Keeps s) :
    σ.Keeps s.reserve := by
  unfold State.reserve
  exact h.setHbm.setHbm

theorem State.Keeps.rateBegin {s : State} {p : Nat} (h : σ.Keeps s) :
    σ.Keeps (s.rateBegin p) := by
  unfold State.rateBegin
  refine .ite h.setHbm.setHbmSt.rateEnd ?_
  exact .reserve (.ite h.setHbm.setHbmSt.setHbmSt.setHbm h.setHbm.setHbmSt.setHbmSt.setHbm.setHbm.wr)

theorem State.Keeps.rateCmdWrite {s : State} {v : Word} (h : σ.Keeps s) :
    σ.Keeps (rateCmdWrite v s) := by
  unfold Machine.rateCmdWrite
  refine .ite h.err ?_
  refine .ite h.err ?_
  refine .ite h.startResult.rateEnd ?_
  refine .ite h.startResult.rateEnd ?_
  exact .ite h.startResult.rateEnd (.ite h.startResult.setHbm.setHbmSt h.startResult.rateBegin)

theorem State.Keeps.ratePreempt {s : State} (h : σ.Keeps s) :
    σ.Keeps s.ratePreempt := by
  unfold State.ratePreempt
  split
  · exact h.setHbm.setHbmSt.rateEnd
  · exact h

theorem State.Keeps.trainDrop {s : State} (h : σ.Keeps s) :
    σ.Keeps s.trainDrop := by
  unfold State.trainDrop
  split
  · exact h.setHbm.setHbm.setHbmSt.rateEnd
  · exact h

theorem State.Keeps.execHeldRateStart {s : State} (h : σ.Keeps s) :
    σ.Answers (execHeldRateStart s) := by
  unfold Machine.execHeldRateStart
  split
  · refine .ite (.next h) ?_
    refine .ite (.next (.ite h.rateBegin h.trainDrop.rateBegin)) ?_
    exact .ite (.next h.setHbm.setHbmSt.rateEnd) (.next h.rateBegin)
  · exact .next h

theorem State.Keeps.rateSwitched {s : State} {p : Nat} (h : σ.Keeps s) :
    σ.Keeps (s.rateSwitched p) := by
  unfold State.rateSwitched
  exact .rateEnd (.reserve (.ite h.setHbm.setHbmSt.wf h.setHbm.setHbmSt))

theorem State.Keeps.setDebt {s : State} {pc d : Nat} (h : σ.Keeps s) :
    σ.Keeps (s.setDebt pc d) := by
  unfold State.setDebt
  exact h.setHbmSt.wr

theorem State.Keeps.execRefreshDue {s : State} {pc : Fin 32} {c : RefreshCase} (h : σ.Keeps s) :
    σ.Answers (execRefreshDue pc c s) := by
  unfold Machine.execRefreshDue
  refine .ite (.next h) ?_
  split
  · exact .ite (.next h.sat.setDebt) (.next (.ite h h.setDebt))
  · exact .ite (.next h) (.next h.setDebt)
  · exact .ite (.next h) (.ite (.next h.sat.setDebt) (.ite (.next h.sat.setDebt) (.next h)))

theorem State.Keeps.debtsClear {s : State} (h : σ.Keeps s) :
    σ.Keeps s.debtsClear := by
  unfold State.debtsClear
  exact h.setHbmSt.wf

theorem State.Keeps.hayWake {s : State} (h : σ.Keeps s) :
    σ.Keeps s.hayWake := by
  unfold State.hayWake
  exact .ite h (h.debtsClear.setHbm.reserve.setHbmSt.foldl (fun _ _ k => k.deviceMsg))

theorem State.Keeps.repairEnd {s : State} {code : Nat} (h : σ.Keeps s) :
    σ.Keeps (s.repairEnd code) := by
  unfold State.repairEnd
  exact h.storeResult

theorem State.Keeps.repairCmdWrite {s : State} {v : Word} (h : σ.Keeps s) :
    σ.Keeps (repairCmdWrite v s) := by
  unfold Machine.repairCmdWrite
  refine .ite h ?_
  refine .ite h.err ?_
  refine .ite h.startResult.repairEnd ?_
  refine .ite h.startResult.repairEnd ?_
  split
  · exact h.startResult.repairEnd
  · exact .ite h.startResult.repairEnd h.startResult.setHbmSt

theorem State.Keeps.execRowRepairDone {s : State} (h : σ.Keeps s) :
    σ.Answers (execRowRepairDone s) := by
  unfold Machine.execRowRepairDone
  split
  · exact .next h
  · split
    · exact .next h.setHbmSt
    · exact .next h.setHbmSt.hayAside.repairEnd

/-! ### Ring commands -/

theorem State.Keeps.ringErr {s : State} {n cause off : Nat} (h : σ.Keeps s) :
    σ.Keeps (s.ringErr n cause off) := by
  unfold State.ringErr
  exact h.wr.err

theorem State.Keeps.producerGoesOn {s : State} {p : Producer} (h : σ.Keeps s) :
    σ.Keeps (s.producerGoesOn p) := by
  unfold State.producerGoesOn
  split
  · exact h.acqPump
  · exact h

theorem State.Keeps.ringCtrlWrite {s : State} {n : Nat} {v : Word} (h : σ.Keeps s) :
    σ.Keeps (ringCtrlWrite n v s) := by
  unfold Machine.ringCtrlWrite
  refine .ite h.ringErr ?_
  refine .ite h.ringErr ?_
  refine .ite ?_ ?_
  · refine .ite h.ringErr ?_
    exact .ite h.ringErr (.setRing (.foldl (.ite h.setReg.setRing h.setReg) (fun _ _ k => k.setReg)))
  · refine .ite (.foldl (.ringDisable (.ite h.setReg.setRing h.setReg)) (fun _ _ k => k.producerGoesOn)) ?_
    exact .ite h.setReg.setRing h.setReg

theorem State.Keeps.ringBaseWrite {s : State} {r : Requester} {n : Nat} {hi : Bool} {v : Word} (h : σ.Keeps s) :
    σ.Keeps (ringBaseWrite r n hi v s) := by
  unfold Machine.ringBaseWrite
  exact .ite h.unstageAt.ringErr (.ite h.setReg.setReg.unstageAt h.stageAt)

theorem State.Keeps.ringModWrite {s : State} {n : Nat} {v : Word} (h : σ.Keeps s) :
    σ.Keeps (ringModWrite n v s) := by
  unfold Machine.ringModWrite
  exact .ite h.ringErr h.setReg

theorem State.Keeps.ringDescWrite {s : State} {r : Requester} {n o : Nat} {v : Word} (h : σ.Keeps s) :
    σ.Keeps (ringDescWrite r n o v s) := by
  unfold Machine.ringDescWrite
  refine .ite h.accessError ?_
  split
  · exact h.ringCtrlWrite
  · exact h.ringBaseWrite
  · exact h.ringBaseWrite
  · exact h.ringModWrite
  · exact h

theorem State.Keeps.asgRangeWrite {s : State} {v : Word} (h : σ.Keeps s) :
    σ.Keeps (asgRangeWrite v s) := by
  unfold Machine.asgRangeWrite
  exact .ite h.err h.plainWrite

theorem State.Keeps.asgCmdWrite {s : State} {v : Word} (h : σ.Keeps s) :
    σ.Keeps (asgCmdWrite v s) := by
  unfold Machine.asgCmdWrite
  refine .ite h.err ?_
  refine .ite h.plainWrite ?_
  refine .ite h.plainWrite.err ?_
  refine .ite h.plainWrite.err ?_
  exact .ite h.plainWrite (.ite h.plainWrite.err (h.plainWrite.foldl (fun _ _ k => k.ringSet)))

theorem State.Keeps.evtRingWrite {s : State} {o : Nat} {v : Word} (h : σ.Keeps s) :
    σ.Keeps (evtRingWrite o v s) := by
  unfold Machine.evtRingWrite
  exact .ite h.plainWrite h.err

theorem State.Keeps.badDoorbell {s : State} {n : Nat} (h : σ.Keeps s) :
    σ.Keeps (s.badDoorbell n) := by
  unfold State.badDoorbell
  exact h.ringSet

theorem State.Keeps.bell {s : State} {n p : Nat} (h : σ.Keeps s) :
    σ.Keeps (s.bell n p) := by
  unfold State.bell
  exact .ite h h.setRing.aside

theorem State.Keeps.execDoorbell {s : State} {f : Fin 18} {n : Fin 32768} {v : Option Word} {aligned : Bool} (h : σ.Keeps s) :
    σ.Answers (execDoorbell f n v aligned s) := by
  unfold Machine.execDoorbell
  dsimp only
  split
  · exact .ite (.next h.accessError.aside) (.ite (.next h.badDoorbell.aside) (.next h.aside))
  · refine .ite (.next h.accessError) ?_
    refine .ite (.next h.badDoorbell) ?_
    refine .ite (.ite (.next h.bell.setReg.ringFlags) (.next h.badDoorbell)) ?_
    exact .ite (.next h.setReg.ringFlags) (.next h.badDoorbell)

theorem State.Keeps.execBackpAccept {s : State} {n : Fin 32768} (h : σ.Keeps s) :
    σ.Answers (execBackpAccept n s) := by
  unfold Machine.execBackpAccept
  split
  · exact .next h
  · exact .ite (.next h.acceptHeld.producerGoesOn) (.next h.acceptHeld)

/-! ### Trips and the entry into M11 -/

theorem State.Keeps.groomAbort {s : State} {p : Nat → Bool} (h : σ.Keeps s) :
    σ.Keeps (s.groomAbort p) := by
  unfold State.groomAbort
  exact h.foldl (fun _ _ k => k.setGroom)

theorem State.Keeps.seqRank1 {s : State} (h : σ.Keeps s) :
    σ.Keeps s.seqRank1 := by
  unfold State.seqRank1
  exact h.foldl (fun _ _ k => .ite k.seqPreempt k)

theorem State.Keeps.rank1 {s : State} {st m : Nat} (h : σ.Keeps s) :
    σ.Keeps (s.rank1 st m) := by
  unfold State.rank1
  refine .foldl (.hwPark (.farAbortChans (.timPreempt (.pmuParked (h.foldl (fun _ _ k => k.pmuClamp)))))) fun _ _ k => ?_
  exact k.setChan

theorem State.Keeps.modEnd {s : State} {code target : Nat} (h : σ.Keeps s) :
    σ.Keeps (s.modEnd code target) := by
  unfold State.modEnd
  exact h.storeResult

theorem State.Keeps.pmodEnd {s : State} {d code target : Nat} (h : σ.Keeps s) :
    σ.Keeps (s.pmodEnd d code target) := by
  unfold State.pmodEnd
  exact h.storeResult

theorem State.Keeps.transPreempt {s : State} (h : σ.Keeps s) :
    σ.Keeps s.transPreempt := by
  unfold State.transPreempt
  refine .foldl ?_ fun _ _ k => ?_
  · split
    · exact h.modEnd
    · exact h
  · exact k.pmodEnd

theorem State.Keeps.enterDev {s : State} {d : DevMode} (h : σ.Keeps s) :
    σ.Keeps (s.enterDev d) := by
  unfold State.enterDev
  exact h.aside

theorem State.Keeps.primePreempt {s : State} {q : Nat} (h : σ.Keeps s) :
    σ.Keeps (s.primePreempt q) := by
  unfold State.primePreempt
  exact .ite h.storeResult.setMstate.err h

theorem State.Keeps.stallsTripped {s : State} (h : σ.Keeps s) :
    σ.Keeps s.stallsTripped := by
  unfold State.stallsTripped
  exact h.foldl (fun _ _ k => k.pmuClampStall.pmuParked.timPreempt.hwPark)

theorem State.Keeps.goM11 {s : State} (h : σ.Keeps s) :
    σ.Keeps s.goM11 := by
  unfold State.goM11
  exact .lanAside' (.groomAbort (.ratePreempt (.cnvAll (.foldl (h.transPreempt.enterDev.hayWake.farPreempt.stallsTripped.foldl
      (fun _ _ k => k.seqPreempt.primePreempt)) (fun _ _ k => k.acqPreempt)) (fun _ _ _ k => k.cnvPreempt))))

theorem State.Keeps.enterM11 {s : State} {cause : Nat} (h : σ.Keeps s) :
    σ.Keeps (s.enterM11 cause) := by
  unfold State.enterM11
  split
  · exact h
  · exact h
  · exact h.wb
  · exact h.wb.goM11

theorem State.Keeps.freeze {s : State} (h : σ.Keeps s) :
    σ.Keeps s.freeze := by
  unfold State.freeze
  exact .ite h h.logDrain.logWrite.lanAside

theorem State.Keeps.execClockLoss {s0 : State} {c : ClockLoss} (h : σ.Keeps s0) :
    σ.Answers (execClockLoss c s0) := by
  unfold Machine.execClockLoss
  dsimp only
  split
  · exact .next (.ite h.aside h)
  · exact .next (.ite h.aside h)
  · refine .ite (.next (.ite h.aside h)) ?_
    refine .next ?_
    refine .enterM11 ?_
    refine .logOffer ?_
    split
    · exact .foldl (.ite h.aside h) (fun _ _ k => k.wb)
    · exact .wb (.ite h.aside h)
    · exact .aside (.ite h.aside h)
    · exact .ite h.aside h

/-! ### Resets -/

theorem State.Keeps.countReset {s : State} {c : Nat} (h : σ.Keeps s) :
    σ.Keeps (s.countReset c) := by
  unfold State.countReset
  exact h.lanAside

theorem State.Keeps.episodeJoin {s : State} {c : Nat} (h : σ.Keeps s) :
    σ.Keeps (s.episodeJoin c) := by
  unfold State.episodeJoin
  exact h.aside

theorem State.Keeps.episodeEnd {s : State} (h : σ.Keeps s) :
    σ.Keeps s.episodeEnd := by
  unfold State.episodeEnd
  split
  · exact .ite h.lanAside'.logOffer h
  · exact h

theorem State.Keeps.seqClear {s : State} {q : Nat} (h : σ.Keeps s) :
    σ.Keeps (s.seqClear q) := by
  unfold State.seqClear
  refine .setSeq ?_
  split
  · exact .ite h.seqPreempt.primePreempt.cancelEdges.finishRun h.seqPreempt.primePreempt
  · exact h.seqPreempt.primePreempt

theorem State.Keeps.setTrips {s : State} {st t : Nat} (h : σ.Keeps s) :
    σ.Keeps (s.setTrips st t) := by
  unfold State.setTrips
  exact h.aside

theorem State.Keeps.setCaps {s : State} {l : List (Nat × Nat)} (h : σ.Keeps s) :
    σ.Keeps (s.setCaps l) := by
  unfold State.setCaps
  exact .ite h (h.aside.foldl (fun _ _ k => k.throttle))

theorem State.Keeps.blockClear {s : State} {k : PageKind} {i : Nat} (h : σ.Keeps s) :
    σ.Keeps (s.blockClear k i) := by
  unfold State.blockClear
  split
  · exact h.park.aside
  · exact h.park
  · exact h.park
  · exact h.park.setStall
  · exact h.park
  · exact h.park.aside
  · exact .aside (h.park.foldl (fun _ _ k => .ite k.cnvDisturb k))
  · exact .aside (h.park.foldl (fun _ _ k => k.cnvPreempt))
  · exact h.setTrips.setStall.aside
  · exact h.seqClear
  · exact h.setSeq
  · exact h.capFlush.setSeq
  · exact h.aside
  · exact h.aside
  · exact h.acqPreempt.aside
  · exact .ite h.refOff.aside h.refOff
  · exact .ite h.aside h
  · exact h.storeCut.farAbort.setFar
  · exact h.same rfl
  · exact h.aside
  · exact h.aside.aside
  · exact h.gthAside
  · exact h.setCaps.aside.foldl (fun _ _ k => k.wb.setSeq)
  · exact h

theorem State.Keeps.lineShow {s : State} (h : σ.Keeps s) :
    σ.Keeps s.lineShow := by
  unfold State.lineShow
  exact h.linePerUpdate.foldl (fun _ _ k => k.wr)

theorem State.Keeps.repower {s : State} {k : PageKind} {i : Nat} (h : σ.Keeps s) :
    σ.Keeps (s.repower k i) := by
  unfold State.repower
  refine .ite (.pmuPower (.ite (h.foldl (fun _ _ k => k.throttle)) (.ite h.lineShow h))) ?_
  exact .ite (h.foldl (fun _ _ k => k.throttle)) (.ite h.lineShow h)

theorem State.Keeps.pageWipe {s : State} {ref : Machine.State} {k : PageKind} {i : Nat} (h : σ.Keeps s) :
    σ.Keeps (s.pageWipe ref k i) := by
  unfold State.pageWipe
  exact .forgetPage (.repower (.wb (h.resetPage.foldl (fun _ _ k => k.wr))))

theorem State.Keeps.pageReset {s : State} {k : PageKind} {i : Nat} (h : σ.Keeps s) :
    σ.Keeps (s.pageReset k i) := by
  unfold State.pageReset
  exact .ite h.blockClear.pageWipe.storeResult.event h.blockClear.pageWipe

theorem State.Keeps.penPage {s : State} {ref : Machine.State} {k : PageKind} {i : Nat} (h : σ.Keeps s) :
    σ.Keeps (s.penPage ref k i) := by
  unfold State.penPage
  exact h.blockClear.pageWipe

theorem State.Keeps.stallReset {s : State} {ref : Machine.State} {st : Nat} (h : σ.Keeps s) :
    σ.Keeps (s.stallReset ref st) := by
  unfold State.stallReset
  exact h.foldl (fun _ _ k => k.penPage)

theorem State.Keeps.seqReset {s : State} {ref : Machine.State} {q : Nat} (h : σ.Keeps s) :
    σ.Keeps (s.seqReset ref q) := by
  unfold State.seqReset
  exact h.foldl (fun _ _ k => k.penPage)

theorem State.Keeps.ringsOff {s : State} {o : Nat} (h : σ.Keeps s) :
    σ.Keeps (s.ringsOff o) := by
  unfold State.ringsOff
  exact h.foldl (fun _ _ k => k.ringDisable)

theorem State.Keeps.ownerReset {s : State} {o : Nat} {acqs : Bool} (h : σ.Keeps s) :
    σ.Keeps (s.ownerReset o acqs) := by
  unfold State.ownerReset
  refine .foldl (.foldl (.ite (h.ringsOff.foldl (fun _ _ k => k.penPage)) h.ringsOff) (fun _ _ k => k.seqReset)) fun _ _ k => ?_
  exact k.stallReset

theorem State.Keeps.domainHome {s : State} {d : Nat} (h : σ.Keeps s) :
    σ.Keeps (s.domainHome d) := by
  unfold State.domainHome
  dsimp only
  split
  · exact h.pmodEnd.aside
  · exact h.aside

theorem State.Keeps.clusterForget {s : State} {p : Nat} (h : σ.Keeps s) :
    σ.Keeps (s.clusterForget p) := by
  unfold State.clusterForget
  exact h.aside

theorem State.Keeps.penApply {s : State} {p : Nat} (h : σ.Keeps s) :
    σ.Keeps (s.penApply p) := by
  unfold State.penApply
  refine .foldl h.groomAbort.ratePreempt.ownerReset.pageReset.clusterForget.domainHome.setPenBusy fun _ _ k => ?_
  exact k.pmuPower

theorem State.Keeps.penReset {s : State} {p : Nat} (h : σ.Keeps s) :
    σ.Keeps (s.penReset p) := by
  unfold State.penReset
  exact .ite h h.countReset.penApply.newKey.aside

theorem State.Keeps.srstRelease {s : State} {ok : PageKind → Nat → Bool} (h : σ.Keeps s) :
    σ.Keeps (s.srstRelease ok) := by
  unfold State.srstRelease
  exact h.foldl (fun _ _ k => .ite k.wb k)

theorem State.Keeps.fnReset {s : State} {f : Nat} (h : σ.Keeps s) :
    σ.Keeps (s.fnReset f) := by
  unfold State.fnReset
  exact h.aside

theorem State.Keeps.setLink {s : State} {k : Nat} {v : Word} (h : σ.Keeps s) :
    σ.Keeps (s.setLink k v) := by
  unfold State.setLink
  exact .ite h.aside.wr.event h.aside.wr

theorem State.Keeps.portReset {s : State} {k : Nat} (h : σ.Keeps s) :
    σ.Keeps (s.portReset k) := by
  unfold State.portReset
  exact h.setLink.foldl (fun _ _ k => k.fnReset)

theorem State.Keeps.unlockAll {s : State} (h : σ.Keeps s) :
    σ.Keeps s.unlockAll := by
  refine h.restored rfl fun hs => ?_
  obtain ⟨hr, hh, hf⟩ := storesOk_iff.mp hs
  exact storesOk_iff.mpr ⟨Store.wf_keep _ _ hr, hh, hf⟩

theorem State.Keeps.debugLock {s : State} (h : σ.Keeps s) :
    σ.Keeps s.debugLock := by
  unfold State.debugLock
  exact h.gthAside.wf

theorem State.Keeps.clusterReset {s : State} (h : σ.Keeps s) :
    σ.Keeps s.clusterReset := by
  unfold State.clusterReset
  exact .wr (.pageReset (.aside (h.foldl (fun _ _ k => k.pageReset))))

theorem State.Keeps.perstApply {s : State} (h : σ.Keeps s) :
    σ.Keeps s.perstApply := by
  unfold State.perstApply
  refine .wf ?_
  refine .wf ?_
  exact .aside (.debugLock (.unlockAll (.ownerReset (h.portReset.portReset.clusterReset.foldl (fun _ _ k => .ite k
      k.penApply)))))

theorem State.Keeps.tamperMark {s : State} {src : Nat} (h : σ.Keeps s) :
    σ.Keeps (s.tamperMark src) := by
  unfold State.tamperMark
  exact h.lanAside.logOffer.event

theorem State.Keeps.breakAll {s : State} (h : σ.Keeps s) :
    σ.Keeps s.breakAll := by
  unfold State.breakAll
  refine .foldl h fun _ _ k => ?_
  split
  · refine .ite (k.foldl (fun _ _ k2 => k2.wearCycle)) ?_
    exact .ite (k.foldl (fun _ _ k2 => k2.wearCycle)) (.ite (k.foldl (fun _ _ k2 => k2.wearCycle)) k)
  · exact k

theorem State.Keeps.wideReset {s : State} {por recovery : Bool} (h : σ.Keeps s) :
    σ.Keeps (s.wideReset por recovery) := by
  have hlog : s.logBounded → (if s.pins.vin then (onesOf s.gth.heldTamper 5).foldl State.tamperMark s.breakAll
      else s).freeze.logBounded := by
    have k := Keeps.refl s
    exact (Keeps.freeze (.ite (k.breakAll.foldl fun _ _ k => k.tamperMark) k)).log
  unfold State.wideReset
  refine .wf (h.trans ⟨rfl, fun k => ?_, hlog, fun k => ⟨?_, rfl, fun n hn => nomatch hn⟩⟩)
  · obtain ⟨hr, hh, hf⟩ := storesOk_iff.mp k
    refine storesOk_iff.mpr ⟨Store.wf_keep _ _ hr, ?_, flashWf_storeCut hf⟩
    cases s.pins.vin
    · exact hayWf_reset
    · exact hayUnmap_sorted hh
  · show s.otp.svn ≤ s.gth.programming.getD s.otp.svn
    cases hn : s.gth.programming with
    | none => exact le_refl _
    | some n => exact k n hn

theorem State.Keeps.yardDue {s : State} (h : σ.Keeps s) :
    σ.Keeps s.yardDue := by
  unfold State.yardDue
  exact .ite h.wb h

theorem State.Keeps.recover {s : State} (h : σ.Keeps s) :
    σ.Keeps s.recover := by
  unfold State.recover
  exact h.wideReset.countReset.episodeJoin.yardDue.episodeEnd

/-! ### Modes -/

theorem State.Keeps.tripHold {s : State} {st t : Nat} (h : σ.Keeps s) :
    σ.Keeps (s.tripHold st t) := by
  unfold State.tripHold
  exact h.setTrips.setStall

theorem State.Keeps.watchUnres {s : State} {st m : Nat} (h : σ.Keeps s) :
    σ.Keeps (s.watchUnres st m) := by
  unfold State.watchUnres
  exact .ite h.wr.wr h.wr.wr.tripHold

theorem State.Keeps.enterM5 {s : State} (h : σ.Keeps s) :
    σ.Keeps s.enterM5 := by
  unfold State.enterM5
  refine .enterDev ?_
  refine .tmbBit (.foldl (h.debtsClear.setHbm.reserve.foldl (fun _ _ k => k.refOff)) (fun _ _ k => k.watchUnres))

theorem State.Keeps.leaveM5 {s : State} (h : σ.Keeps s) :
    σ.Keeps s.leaveM5 := by
  unfold State.leaveM5
  exact h.tmbBit.useFree.aside.enterDev.hayWake.aside

theorem State.Keeps.enterM10 {s : State} (h : σ.Keeps s) :
    σ.Keeps s.enterM10 := by
  unfold State.enterM10
  exact .enterDev (h.foldl (fun _ _ k => k.pmuPower.wf.wf.batchMove))

theorem State.Keeps.leaveM10 {s : State} (h : σ.Keeps s) :
    σ.Keeps s.leaveM10 := by
  unfold State.leaveM10
  exact .enterDev (h.foldl (fun _ _ k => .pmuPower (k.park.foldl (fun _ _ k2 => k2.parkDone))))

theorem State.Keeps.wakeBegin {s : State} {src : Nat} {req : Bool} (h : σ.Keeps s) :
    σ.Keeps (s.wakeBegin src req) := by
  unfold State.wakeBegin
  exact h.setTrans.aside

theorem State.Keeps.wake {s : State} {src line : Nat} {req : Bool} (h : σ.Keeps s) :
    σ.Keeps (s.wake src line req) := by
  unfold State.wake
  exact .ite h (.ite h.wb.wf.wakeBegin (.ite h.wb.wf.aside h))

theorem State.Keeps.modCmdWrite {s : State} {v : Word} {clock shield : Bool} (h : σ.Keeps s) :
    σ.Keeps (modCmdWrite v clock shield s) := by
  unfold Machine.modCmdWrite
  refine .ite (.wake (.modEnd (.ite h h.startResult))) ?_
  split
  · exact h.recover
  · exact .wake (.ite h h.startResult)
  · exact .farEnd (.setTrans (.ite h h.startResult))
  · exact .setTrans (.ite h h.startResult)
  · exact .modEnd (.ite h h.startResult)

theorem State.Keeps.modCmd {s : State} {r : Requester} {target : Nat} {confirm : BitVec 8} {clock shield : Bool} (h : σ.Keeps s)
    :
    σ.Keeps (s.modCmd r target confirm clock shield) := by
  unfold State.modCmd
  exact h.guarded (fun _ k => k.modCmdWrite)

theorem State.Keeps.execDeviceTransitionDone {s : State} (h : σ.Keeps s) :
    σ.Answers (execDeviceTransitionDone s) := by
  unfold Machine.execDeviceTransitionDone
  split
  · exact .next h
  · refine .ite (.next h) ?_
    extract_lets x y
    have hx : σ.Keeps x := by
      dsimp only [x]
      split
      · exact h.enterM5
      · exact h.enterM10
      · exact h.leaveM5
      · exact h.leaveM10
      · exact h.setTrans
    have hy : σ.Keeps y := .ite hx.modEnd hx
    clear_value y
    split
    · exact .next (.ite hy.aside.wakeBegin hy.aside)
    · exact .next hy

theorem State.Keeps.execWakeLockTimeout {s : State} {b : Fin 8} (h : σ.Keeps s) :
    σ.Answers (execWakeLockTimeout b s) := by
  unfold Machine.execWakeLockTimeout
  split
  · exact .next (.enterM11 (.aside (.logOffer (.wb (.ite h.setTrans.modEnd h.setTrans)))))
  · exact .next h

theorem State.Keeps.modPcmdWrite {s : State} {d : Nat} {v : Word} (h : σ.Keeps s) :
    σ.Keeps (modPcmdWrite d v s) := by
  unfold Machine.modPcmdWrite
  dsimp only
  split
  · exact .aside (.ite h h.startResult)
  · exact .pmodEnd (.ite h h.startResult)

theorem State.Keeps.modPcmd {s : State} {r : Requester} {d target : Nat} {confirm : BitVec 8} (h : σ.Keeps s) :
    σ.Keeps (s.modPcmd r d target confirm) := by
  unfold State.modPcmd
  exact h.guarded (fun _ k => k.modPcmdWrite)

theorem State.Keeps.enterDom {s : State} {o : Nat} {t : DomMode} (h : σ.Keeps s) :
    σ.Keeps (s.enterDom o t) := by
  unfold State.enterDom
  refine .foldl (.ite (h.foldl (fun _ _ k => k.acqPreempt)) h) fun _ _ k => ?_
  split
  · exact k.timPreempt.hwPark.pmuPower
  · exact k.pmuPower
  · exact k.pmuPower

theorem State.Keeps.execDomainTransitionDone {s : State} {d : Fin 9} (h : σ.Keeps s) :
    σ.Answers (execDomainTransitionDone d s) := by
  unfold Machine.execDomainTransitionDone
  split
  · exact .next h
  · exact .next h.aside.enterDom.pmodEnd

theorem State.Keeps.execEvInEdge {s : State} {k : Fin 4} {rise : Bool} (h : σ.Keeps s) :
    σ.Answers (execEvInEdge k rise s) := by
  unfold Machine.execEvInEdge
  refine .ite (.next h) ?_
  refine .next ?_
  refine .ite (.wake (.acqEdge (.ite h.evRecord.seqEdge.cnvEdge h.evRecord))) ?_
  exact .acqEdge (.ite h.evRecord.seqEdge.cnvEdge h.evRecord)

/-! ### Watch comparators -/

theorem State.Keeps.watchLog {s : State} {st i t : Nat} (h : σ.Keeps s) :
    σ.Keeps (s.watchLog st i t) := by
  unfold State.watchLog
  exact .ite h h.aside.logOffer

theorem State.Keeps.watchTrip {s : State} {st i t : Nat} (h : σ.Keeps s) :
    σ.Keeps (s.watchTrip st i t) := by
  unfold State.watchTrip
  refine .ite h.tripHold.rank1.seqRank1.sat.event.watchLog.aside.enterM11 ?_
  exact h.tripHold.rank1.seqRank1.sat.event.watchLog.aside

theorem State.Keeps.watchCross {s : State} {st i t : Nat} {strobe : Bool} (h : σ.Keeps s) :
    σ.Keeps (s.watchCross st i t strobe) := by
  unfold State.watchCross
  refine .ite h.wb.wb.wb.event ?_
  refine .ite ?_ ?_
  · refine .watchTrip ?_
    refine .ite (.wake (.acqWatch (.cnvWatch (.ite h.wb.wb.wb.event.sat.timTake h.wb.wb.wb.event.sat)))) ?_
    exact .acqWatch (.cnvWatch (.ite h.wb.wb.wb.event.sat.timTake h.wb.wb.wb.event.sat))
  · refine .ite (.wake (.acqWatch (.cnvWatch (.ite h.wb.wb.wb.event.sat.timTake h.wb.wb.wb.event.sat)))) ?_
    exact .acqWatch (.cnvWatch (.ite h.wb.wb.wb.event.sat.timTake h.wb.wb.wb.event.sat))

theorem State.Keeps.watchClear {s : State} {st i : Nat} (h : σ.Keeps s) :
    σ.Keeps (s.watchClear st i) := by
  unfold State.watchClear
  exact .ite h.wb.wb.tripHold h.wb.wb

theorem State.Keeps.watchLatch {s : State} {st : Nat} (h : σ.Keeps s) :
    σ.Keeps (s.watchLatch st) := by
  unfold State.watchLatch
  split
  · exact h.aside.watchUnres
  · exact h

theorem State.Keeps.watchJudge {s : State} {st i t : Nat} {v : Int} {strobe : Bool} (h : σ.Keeps s) :
    σ.Keeps (s.watchJudge st i t v strobe) := by
  unfold State.watchJudge
  refine .ite h ?_
  dsimp only
  split
  · exact .ite h.watchCross h
  · exact .ite h.watchClear h
  · exact h

theorem State.Keeps.wchCfgWrite {s : State} {st c : Nat} {v : Word} (h : σ.Keeps s) :
    σ.Keeps (wchCfgWrite st c v s) := by
  unfold Machine.wchCfgWrite
  exact .ite h.err (.ite h.err h.plainWrite.watchUnres)

theorem State.Keeps.wchThrWrite {s : State} {st c : Nat} {v : Word} (h : σ.Keeps s) :
    σ.Keeps (wchThrWrite st c v s) := by
  unfold Machine.wchThrWrite
  exact .ite h.err (.ite h.plainWrite (.ite h.plainWrite.aside h.plainWrite.watchUnres))

theorem State.Keeps.wchTickWrite {s : State} {st : Nat} {v : Word} (h : σ.Keeps s) :
    σ.Keeps (wchTickWrite st v s) := by
  unfold Machine.wchTickWrite
  exact .ite h.err h.plainWrite

/-! ### The weathervane -/

theorem State.Keeps.showTemps {s : State} (h : σ.Keeps s) :
    σ.Keeps s.showTemps := by
  unfold State.showTemps
  exact .wf (h.foldl (fun _ _ k => k.wr))

theorem State.Keeps.wvnMsg {s : State} {code sensor : Nat} (h : σ.Keeps s) :
    σ.Keeps (s.wvnMsg code sensor) := by
  unfold State.wvnMsg
  exact .ite h.deviceMsg h

theorem State.Keeps.thrSlot {s : State} (h : σ.Keeps s) :
    σ.Keeps s.thrSlot := by
  unfold State.thrSlot
  exact h.aside

theorem State.Keeps.capsFollow {s : State} (h : σ.Keeps s) :
    σ.Keeps s.capsFollow := by
  unfold State.capsFollow
  exact .ite h.setCaps h

theorem State.Keeps.judgeHeat {s : State} (h : σ.Keeps s) :
    σ.Keeps s.judgeHeat := by
  unfold State.judgeHeat
  refine .ite (.ite h.wf.aside.event.wvnMsg h) ?_
  exact .ite (.wvnMsg (.aside (h.wf.setCaps.foldl (fun _ _ k => k.wb.setSeq)))) h.capsFollow

theorem State.Keeps.setSensor {s : State} {t : Nat} {eff : Int} {diff : Nat} (h : σ.Keeps s) :
    σ.Keeps (s.setSensor t eff diff) := by
  unfold State.setSensor
  exact h.aside

theorem State.Keeps.sensorSlot {s : State} {t : Nat} {v : Int} (h : σ.Keeps s) :
    σ.Keeps (s.sensorSlot t v) := by
  unfold State.sensorSlot
  refine .ite h.aside.setSensor ?_
  exact .ite h.aside.setSensor (.ite h.aside.setSensor.wb.event.logOffer.wvnMsg h.aside.setSensor)

theorem State.Keeps.supplySlot {s : State} {n : Nat} {v : Int} (h : σ.Keeps s) :
    σ.Keeps (s.supplySlot n v) := by
  unfold State.supplySlot
  refine .ite (.enterM11 (.logOffer (.ite h.aside.wb.event h.aside.wb))) ?_
  exact .ite h.aside.wb.event h.aside.wb

theorem State.Keeps.slotEnd {s : State} (h : σ.Keeps s) :
    σ.Keeps s.slotEnd := by
  unfold State.slotEnd
  exact .ite h.aside (.ite h.aside.inc.wb h.aside.inc)

theorem State.Keeps.execWvnSlot {s : State} {v : BitVec 16} (h : σ.Keeps s) :
    σ.Answers (execWvnSlot v s) := by
  unfold Machine.execWvnSlot
  refine .ite (.next h) ?_
  refine .ite ?_ ?_
  · refine .next ?_
    refine .slotEnd (.ite h.thrSlot.sensorSlot.showTemps.judgeHeat.enterM11 h.thrSlot.sensorSlot.showTemps.judgeHeat)
  · exact .next h.thrSlot.supplySlot.judgeHeat.slotEnd

theorem State.Keeps.thermCause {s : State} {q : Nat} {forced : Bool} (h : σ.Keeps s) :
    σ.Keeps (s.thermCause q forced) := by
  unfold State.thermCause
  exact .ite (.ite h.setSeq.wb.sat h.setSeq.wb) h.setSeq

theorem State.Keeps.execThermEnforce {s : State} (h : σ.Keeps s) :
    σ.Answers (execThermEnforce s) := by
  unfold Machine.execThermEnforce
  refine .ite (.next h) ?_
  exact .next (.capsFollow (h.wf.sat.aside.event.wvnMsg.foldl (fun _ _ k => .ite k.thermCause k)))

theorem State.Keeps.wvnWrite {s : State} {o : Nat} {v : Word} (h : σ.Keeps s) :
    σ.Keeps (wvnWrite o v s) := by
  unfold Machine.wvnWrite
  exact .ite h.err h.plainWrite

/-! ### The LOG page -/

theorem State.Keeps.execLogEntryWrite {s : State} {t : BitVec 40} (h : σ.Keeps s) :
    σ.Answers (execLogEntryWrite t s) := by
  unfold Machine.execLogEntryWrite
  split
  · exact .next h
  · rename_i e l hq
    have k : s.logBounded → l.length ≤ 16 ∧ s.lan.wptr < 512 := by
      rintro ⟨hn, hw⟩
      rw [hq, List.length_cons] at hn
      exact ⟨Nat.le_of_succ_le hn, hw⟩
    exact .next (.logWrite (h.relogged rfl k))

theorem State.Keeps.logThaw {s : State} (h : σ.Keeps s) :
    σ.Keeps s.logThaw := by
  unfold State.logThaw
  exact .ite h.err h.lanAside.logOffer

theorem State.Keeps.logClear {s : State} (h : σ.Keeps s) :
    σ.Keeps s.logClear := by
  unfold State.logClear
  exact .ite h.err (.logOffer (h.relogged rfl fun ⟨hq, _⟩ => ⟨hq, show 0 < 512 by decide⟩))

theorem State.Keeps.logCtrlWrite {s : State} {v : Word} (h : σ.Keeps s) :
    σ.Keeps (logCtrlWrite v s) := by
  unfold Machine.logCtrlWrite
  exact .ite h.err (.ite h (.ite h.err (.ite (.logClear (.ite h.logThaw h)) (.ite h.logThaw h))))

theorem State.Keeps.logMarkWrite {s : State} {v : Word} (h : σ.Keeps s) :
    σ.Keeps (logMarkWrite v s) := by
  unfold Machine.logMarkWrite
  exact .ite h.err h.logOffer

theorem State.Keeps.idxWrite {s : State} {r : Requester} {k : PageKind} {o : Nat} {v : Word} (h : σ.Keeps s) :
    σ.Keeps (idxWrite r k o v s) := by
  unfold Machine.idxWrite
  exact .ite h.err h.aside

/-! ### Reset, boot and bring-up -/

theorem State.Keeps.m3Exit {s : State} (h : σ.Keeps s) :
    σ.Keeps s.m3Exit := by
  unfold State.m3Exit
  exact .ite (h.enterDev.aside.foldl (fun _ _ k => k.watchUnres)) h

theorem State.Keeps.m3Failed {s : State} (h : σ.Keeps s) :
    σ.Keeps s.m3Failed := by
  unfold State.m3Failed
  exact .ite h.aside h

/-- A lantern that starts anew holds no entry. -/
theorem State.Keeps.lanternFresh {s : State} {r : RstSt} (h : σ.Keeps s) :
    σ.Keeps { s with lan := { Lantern.blank with rstCnt := [(rstLanternPor, 1)], rstTotal := 1 }, rst := r } :=
  State.Keeps.relogged (s := { s with rst := r }) h.aside rfl fun _ => ⟨Nat.zero_le _, show 0 < 512 by decide⟩

theorem State.Keeps.execLanternPor {s : State} (h : σ.Keeps s) :
    σ.Answers (execLanternPor s) := by
  unfold Machine.execLanternPor
  refine .ite (.next (.episodeEnd (.yardDue (.episodeJoin ?_)))) (.next (.aside (.enterDev (.episodeJoin ?_))))
  all_goals exact h.wideReset.lanternFresh

theorem State.Keeps.execVinInRange {s : State} (h : σ.Keeps s) :
    σ.Answers (execVinInRange s) := by
  unfold Machine.execVinInRange
  refine .ite (.next h) ?_
  refine .next ?_
  refine .episodeEnd ?_
  refine .yardDue ?_
  refine .ite (.tamperMark (.episodeJoin (.aside (.ite h.lanAside' h.lanAside'.countReset)))) ?_
  exact .episodeJoin (.aside (.ite h.lanAside' h.lanAside'.countReset))

theorem State.Keeps.execVinLost {s : State} {t : BitVec 40} (h : σ.Keeps s) :
    σ.Answers (execVinLost t s) := by
  unfold Machine.execVinLost
  refine .ite (.next h) ?_
  refine .next ?_
  refine .enterDev ?_
  refine .episodeJoin (.lanAside' (.countReset (.wideReset (.aside (.ite h.lanAt.freeze h.lanAt.logDrain.logWrite)))))

theorem State.Keeps.portsDue {s : State} (h : σ.Keeps s) :
    σ.Keeps s.portsDue := by
  unfold State.portsDue
  exact .ite h (.ite (.ite (.ite h h.wb) (.wb (.ite h h.wb))) (.ite h h.wb))

theorem State.Keeps.enterM2 {s : State} (h : σ.Keeps s) :
    σ.Keeps s.enterM2 := by
  unfold State.enterM2
  exact h.enterDev.aside.wf.wf

theorem State.Keeps.execIslandLock {s : State} {i : Fin 12} (h : σ.Keeps s) :
    σ.Answers (execIslandLock i s) := by
  unfold Machine.execIslandLock
  refine .ite (.next h) ?_
  refine .ite (.next h.wb.aside.wb.m3Exit) ?_
  refine .ite (.next (.ite h.wb.aside h.wb.aside.enterM2)) ?_
  exact .ite (.next h.wb.aside.setHbm.wr.m3Exit) (.next h.wb.aside.wb)

theorem State.Keeps.execOptionLoadDone {s : State} {bad : Option (Fin 256)} (h : σ.Keeps s) :
    σ.Answers (execOptionLoadDone bad s) := by
  unfold Machine.execOptionLoadDone
  refine .ite (.next h) ?_
  dsimp only
  split
  · exact .next h.aside.wb.wf.logOffer
  · exact .next h.aside.wb.wb.aside

theorem State.Keeps.bootFail {s : State} {code image : Nat} (h : σ.Keeps s) :
    σ.Keeps (s.bootFail code image) := by
  unfold State.bootFail
  exact h.wr.logOffer

theorem State.Keeps.loadPatch {s : State} {p : PatchImage} (h : σ.Keeps s) :
    σ.Keeps (s.loadPatch p) := by
  unfold State.loadPatch
  exact .wf (.wb (.wr (h.same rfl)))

theorem State.Keeps.enterM3 {s : State} (h : σ.Keeps s) :
    σ.Keeps s.enterM3 := by
  unfold State.enterM3
  exact h.wb.aside.enterDev.aside.wf.wb.portsDue

theorem State.Keeps.bootEnd {s : State} {listed : Bool} (h : σ.Keeps s) :
    σ.Keeps (s.bootEnd listed) := by
  unfold State.bootEnd
  exact h.wb.gthAside.newKeys.enterM3

theorem State.Keeps.bootStart {s : State} {a : Nat} (h : σ.Keeps s) :
    σ.Keeps (s.bootStart a) := by
  unfold State.bootStart
  exact h.gthAside.wf

theorem State.Keeps.bootPatch {s : State} {fault : Option (Fin 3)} {listed : Bool} (h : σ.Keeps s) :
    σ.Keeps (s.bootPatch fault listed) := by
  unfold State.bootPatch
  exact .ite h.bootEnd (.ite h.bootFail (.ite h.bootFail (.ite h.loadPatch.bootEnd h.bootFail)))

theorem State.Keeps.boot {s : State} {fault : Option (Fin 3)} {listed : Bool} (h : σ.Keeps s) :
    σ.Keeps (s.boot fault listed) := by
  unfold State.boot
  refine .ite h.bootFail ?_
  exact .ite h.bootFail (.ite h.bootFail (.ite h.bootFail (.ite h.bootFail h.bootStart.bootPatch)))

theorem State.Keeps.execBootDone {s : State} {o : BootRead} (h : σ.Keeps s) :
    σ.Answers (execBootDone o s) := by
  unfold Machine.execBootDone
  refine .ite (.next h) (.next (.boot (h.trans ⟨rfl, fun hs => ?_, id, fun hs => ⟨le_refl _, rfl, hs⟩⟩)))
  obtain ⟨hr, hh, hf⟩ := storesOk_iff.mp hs
  exact storesOk_iff.mpr ⟨hr, hh, wf_flashFill _ hf⟩

theorem State.Keeps.execEpochSet {s : State} (h : σ.Keeps s) :
    σ.Answers (execEpochSet s) := by
  unfold Machine.execEpochSet
  split
  · exact .ite (.next h.epochSet.m3Exit) (.next h)
  · exact .next h

theorem State.Keeps.execTrainingDone {s : State} {p : Fin 3} {ok : Bool} (h : σ.Keeps s) :
    σ.Answers (execTrainingDone p ok s) := by
  unfold Machine.execTrainingDone
  refine .ite (.next h) ?_
  exact .ite (.next h.setHbm.setHbm.wf.reserve.aside.m3Exit) (.next h.setHbm.setHbm.m3Failed)

theorem State.Keeps.tackShow {s : State} {status : Nat} {epoch : Word} (h : σ.Keeps s) :
    σ.Keeps (s.tackShow status epoch) := by
  unfold State.tackShow
  exact h.wr.wr.wr

theorem State.Keeps.execTackRoomLoadDone {s : State} {faults : BitVec 2} (h : σ.Keeps s) :
    σ.Answers (execTackRoomLoadDone faults s) := by
  unfold Machine.execTackRoomLoadDone
  refine .ite (.next h) ?_
  dsimp only
  split
  · exact .next h.setFar.aside.setFar.tackShow.m3Exit
  · split
    · exact .next h.setFar.aside.tackShow.logOffer.m3Exit
    · exact .next h.setFar.aside.tackShow.m3Exit

theorem State.Keeps.portDown {s : State} {k down : Nat} (h : σ.Keeps s) :
    σ.Keeps (s.portDown k down) := by
  unfold State.portDown
  exact .logOffer (.foldl (h.foldl (fun _ _ k => k.fnReset)) (fun _ _ k => k.penReset))

theorem State.Keeps.execRateSwitchDone {s : State} (h : σ.Keeps s) :
    σ.Answers (execRateSwitchDone s) := by
  unfold Machine.execRateSwitchDone
  split
  · exact .next h
  · exact .ite (.next h) (.ite (.next h.rateSwitched.aside.portDown) (.next h.rateSwitched))

theorem State.Keeps.flr {s : State} {f : Nat} (h : σ.Keeps s) :
    σ.Keeps (s.flr f) := by
  unfold State.flr
  exact .ite h (.ite h.sat.event.fnReset.penReset h.sat.event.fnReset)

theorem State.Keeps.execFlr {s : State} {f : Fin 18} (h : σ.Keeps s) :
    σ.Answers (execFlr f s) := by
  unfold Machine.execFlr
  refine .ite (.next ?_) (.next h.flr)
  rw [List.foldr_eq_foldl_reverse]
  exact h.foldl fun _ _ k => k.flr

/-! ### The gatehouse -/

theorem State.Keeps.rgnCfgWrite {s : State} {v : Word} (h : σ.Keeps s) :
    σ.Keeps (rgnCfgWrite v s) := by
  unfold Machine.rgnCfgWrite
  exact .ite h.err (.ite h.err (.ite h.err h.aside))

theorem State.Keeps.penRstWrite {s : State} {v : Word} (h : σ.Keeps s) :
    σ.Keeps (penRstWrite v s) := by
  unfold Machine.penRstWrite
  exact .ite h (.ite h.err (h.foldl (fun _ _ k => k.penReset)))

theorem State.Keeps.svnCmdWrite {s : State} {r : Requester} {v : Word} (h : σ.Keeps s) :
    σ.Keeps (svnCmdWrite r v s) := by
  unfold Machine.svnCmdWrite
  refine .ite h.err ?_
  split
  · exact h.err
  · rename_i hcmd
    refine .ite h.err (.startResult (h.trans ⟨rfl, id, id, fun _ => ⟨le_refl _, rfl, fun m hm => ?_⟩⟩))
    obtain rfl := Option.some.inj hm
    simp only [not_or, not_le] at hcmd
    exact hcmd.2.2.2.1.le

theorem State.Keeps.tamper {s : State} {src : Nat} (h : σ.Keeps s) :
    σ.Keeps (s.tamper src) := by
  unfold State.tamper
  exact .ite h.tamperMark h.newKeys.wf.gthAside.tamperMark.enterM11

theorem State.Keeps.heldTampers {s : State} (h : σ.Keeps s) :
    σ.Keeps s.heldTampers := by
  unfold State.heldTampers
  exact h.gthAside.foldl (fun _ _ k => k.tamper)

theorem State.Keeps.tamperFound {s : State} {src : Nat} (h : σ.Keeps s) :
    σ.Keeps (s.tamperFound src) := by
  unfold State.tamperFound
  exact .ite h (.ite h.gthAside h.tamper)

theorem State.Keeps.execSvnAdvanceDone {s : State} {ok : Bool} (h : σ.Keeps s) :
    σ.Answers (execSvnAdvanceDone ok s) := by
  unfold Machine.execSvnAdvanceDone
  split
  · exact .next h
  · rename_i n hn
    refine .next (.heldTampers (.storeResult (h.trans ⟨rfl, id, id, fun k => ⟨?_, rfl, fun m hm => nomatch hm⟩⟩)))
    have := k n hn
    dsimp only
    split <;> omega

theorem State.Keeps.tamperWrite {s : State} {v : Word} (h : σ.Keeps s) :
    σ.Keeps (tamperWrite v s) := by
  unfold Machine.tamperWrite
  exact .ite h (.ite h.err h.lanAside)

theorem State.Keeps.dbgCmdWrite {s : State} {v : Word} (h : σ.Keeps s) :
    σ.Keeps (dbgCmdWrite v s) := by
  unfold Machine.dbgCmdWrite
  refine .ite h ?_
  refine .ite h.err ?_
  refine .ite (.ite (.gthAside (h.foldl (fun _ _ k => k.useFree.wr))) h) ?_
  exact .startResult (.wb (.gthAside (.ite (.gthAside (h.foldl (fun _ _ k => k.useFree.wr))) h)))

theorem State.Keeps.execDebugResult {s : State} {otpOk : Bool} (h : σ.Keeps s) :
    σ.Answers (execDebugResult otpOk s) := by
  unfold Machine.execDebugResult
  refine .ite (.next h) ?_
  refine .ite (.next h.gthAside.wb.storeResult) ?_
  refine .ite ?_ ?_
  · refine .next ?_
    refine .event ?_
    refine .storeResult ?_
    refine .logOffer (.wf (.gthAside (.foldl (h.gthAside.wb.foldl (fun _ _ k => k.penReset)) (fun _ _ k => k.newKey))))
  · exact .next (.ite h.gthAside.wb.gthAside.storeResult.tamperFound h.gthAside.wb.gthAside.storeResult)

/-! ### The host link -/

theorem State.Keeps.complete {s : State} {c : Completion} {ws : List Word} (h : σ.Keeps s) :
    σ.Keeps (s.complete c ws) := by
  unfold State.complete
  exact h.aside

theorem State.Keeps.unsupported {s : State} (h : σ.Keeps s) :
    σ.Keeps s.unsupported := by
  unfold State.unsupported
  exact h.sat.complete

theorem State.Keeps.sendPending {s : State} {f v : Nat} (h : σ.Keeps s) :
    σ.Keeps (s.sendPending f v) := by
  unfold State.sendPending
  exact .ite h (.ite h.setPba.emit h.setPba.sat)

theorem State.Keeps.sendAllPending {s : State} {f : Nat} (h : σ.Keeps s) :
    σ.Keeps (s.sendAllPending f) := by
  unfold State.sendAllPending
  exact h.foldl (fun _ _ k => k.sendPending)

theorem State.Keeps.execMsixUnmask {s : State} {f : Fin 18} {v : Fin 4096} {op : MsixOp} (h : σ.Keeps s) :
    σ.Answers (execMsixUnmask f v op s) := by
  unfold Machine.execMsixUnmask
  dsimp only
  split
  · exact .ite (.next h.accessError) (.next h.aside.sendPending)
  · exact .ite (.next h.accessError) (.next h.aside)
  · exact .ite (.next h.accessError.aside) (.next h.aside)
  · exact .ite (.next h.accessError.aside) (.next h.aside)
  · exact .next (.ite h.accessError h.accessError.aside)

theorem State.Keeps.aerPoison {s : State} {f : Nat} (h : σ.Keeps s) :
    σ.Keeps (s.aerPoison f) := by
  unfold State.aerPoison
  exact h.setFnCfg.aside

theorem State.Keeps.dropVfs {s : State} {pf : Nat} (h : σ.Keeps s) :
    σ.Keeps (s.dropVfs pf) := by
  unfold State.dropVfs
  exact h.foldl (fun _ _ k => k.flr)

theorem State.Keeps.config {s : State} {f : Nat} {q : CfgRequest} (h : σ.Keeps s) :
    σ.Keeps (s.config f q) := by
  unfold State.config
  dsimp only
  split
  · exact h.complete
  · exact h.complete
  · exact h.complete
  · exact h.complete
  · exact h.complete
  · exact h.complete
  · exact h.complete
  · exact h.setFnCfg.complete
  · exact h.setFnCfg.complete
  · exact h.setFnCfg.complete
  · exact .ite h.setFnCfg.complete.sendAllPending h.setFnCfg.complete
  · exact .ite h.complete (.complete (.setFnCfg (.ite h.dropVfs h)))
  · exact h.setFnCfg.complete

theorem State.Keeps.freeWords {s : State} {n : Nat} (h : σ.Keeps s) :
    σ.Keeps (s.freeWords n).1 := by
  induction n generalizing s with
  | zero => exact h
  | succ n ih => exact ih h.useFree

theorem State.Keeps.execBar4Access {s : State} {f : Fin 18} {a : BitVec 35} {data : Option (List Byte)} {n : Fin 513} {ecc :
    Ecc} (h : σ.Keeps s) :
    σ.Answers (execBar4Access f a data n ecc s) := by
  unfold Machine.execBar4Access
  refine .ite ?_ ?_
  · refine .next ?_
    dsimp only
    split
    · exact h.accessError
    · exact h.accessError.complete
  · refine .ite (.next h.complete) ?_
    split
    · refine .next ?_
      dsimp only
      split
      · exact h.accessError
      · exact h.accessError.complete
    · refine .ite ?_ ?_
      · refine .next ?_
        dsimp only
        split
        · exact h.accessError
        · exact h.accessError.complete
      · split
        · exact .next h.hayMerge
        · exact .ite (.next h.eccRead.freeWords.aerPoison.complete) (.next h.eccRead.complete)

theorem State.Keeps.portcfgWrite {s : State} {v : Word} (h : σ.Keeps s) :
    σ.Keeps (portcfgWrite v s) := by
  unfold Machine.portcfgWrite
  exact .ite h.err h.plainWrite

theorem State.Keeps.fnmapWrite {s : State} {f : Nat} {v : Word} (h : σ.Keeps s) :
    σ.Keeps (fnmapWrite f v s) := by
  unfold Machine.fnmapWrite
  exact .ite h (.ite h.err (.ite h.err h.wf))

theorem State.Keeps.vecWrite {s : State} {f : Nat} {v : Word} (h : σ.Keeps s) :
    σ.Keeps (vecWrite f v s) := by
  unfold Machine.vecWrite
  exact .ite h.err (.ite h.err h.wf)

theorem State.Keeps.sigWrite {s : State} {ix : Nat} {v : Word} (h : σ.Keeps s) :
    σ.Keeps (sigWrite ix v s) := by
  unfold Machine.sigWrite
  exact .ite h.plainWrite h.err

/-! ### The halter port -/

theorem State.Keeps.masterEnd {s : State} {code : Nat} (h : σ.Keeps s) :
    σ.Keeps (s.masterEnd code) := by
  unfold State.masterEnd
  exact h.storeResult.event

theorem State.Keeps.xferPreempt {s : State} (h : σ.Keeps s) :
    σ.Keeps s.xferPreempt := by
  unfold State.xferPreempt
  exact .ite h.aside.wb.masterEnd h

theorem State.Keeps.mctrlWrite {s : State} {v : Word} (h : σ.Keeps s) :
    σ.Keeps (mctrlWrite v s) := by
  unfold Machine.mctrlWrite
  refine .ite h.plainWrite ?_
  refine .ite h.plainWrite.err ?_
  refine .ite h.plainWrite.err ?_
  refine .ite h.plainWrite.err ?_
  exact .ite h.plainWrite.startResult.masterEnd h.plainWrite.wb.startResult.aside

theorem State.Keeps.rxStore {s : State} {rx : List Word} {n len : Nat} {cut : Bool} (h : σ.Keeps s) :
    σ.Keeps (s.rxStore rx n len cut) := by
  unfold State.rxStore
  exact h.foldl (fun _ _ k => k.wr)

theorem State.Keeps.execMasterTransferDone {s : State} {rx : List Word} (h : σ.Keeps s) :
    σ.Answers (execMasterTransferDone rx s) := by
  unfold Machine.execMasterTransferDone
  split
  · exact .next h
  · exact .next (.masterEnd (.ite h.aside.rxStore.wb h.aside.rxStore.wb.aside))

theorem State.Keeps.execMultiMasterFault {s : State} {n : Fin 4097} {rx : List Word} (h : σ.Keeps s) :
    σ.Answers (execMultiMasterFault n rx s) := by
  unfold Machine.execMultiMasterFault
  dsimp only
  split
  · exact .ite (.next h.aside.sat.event) (.next h)
  · exact .next h.aside.rxStore.wb.masterEnd.aside.sat.event

/-! ### Reads -/

theorem State.Keeps.snapshot {s : State} {r : Requester} {k : PageKind} {i lo n : Nat} (h : σ.Keeps s) :
    σ.Keeps (s.snapshot r k i lo n) := by
  unfold State.snapshot
  exact h.aside

theorem State.Keeps.readReg {s : State} {r : Requester} {k : PageKind} {i o : Nat} (h : σ.Keeps s) :
    σ.Keeps (s.readReg r k i o).1 := by
  unfold State.readReg
  split
  · exact h
  · split
    · exact h.useFree
    · split
      · exact h.useFree.wr
      · split
        · exact h.useFree.wr
        · split
          · dsimp only
            exact h.vernierFifoPop
          · split
            · dsimp only
              exact h.timFifoPop
            · split
              · exact h.wtAdvance
              · split
                · exact h.useFree.useFree
                · split
                  · exact h
                  · split
                    · exact h.snapshot
                    · exact h

theorem State.Keeps.read32 {s : State} {r : Requester} {a : Nat} (h : σ.Keeps s) :
    σ.Keeps (s.read32 r a).1 := by
  unfold State.read32
  split
  · split
    · exact h
    · exact h.accessError
  · split
    · exact h.accessError
    · dsimp only
      split
      · exact h.accessError
      · split
        · exact h.err
        · exact h.readReg

/-! ### Register writes -/

theorem State.Keeps.blockStop {s : State} {k : PageKind} {i : Nat} (h : σ.Keeps s) :
    σ.Keeps (s.blockStop k i) := by
  unfold State.blockStop
  split
  · exact h.park
  · exact h.park
  · exact h.park
  · exact h.park
  · exact h.park
  · exact h.timPreempt.vernierStop
  · exact h.foldl (fun _ _ k => .waveOff (.ite k.pmuOutOff k))
  · exact h.foldl (fun _ _ k => k.cnvPreempt)
  · exact h.watchUnres
  · exact h.seqPreempt.primePreempt
  · exact h.acqPreempt
  · exact h.refOff
  · exact .ite h.aside.wb.tmbBit h
  · exact h.farStop
  · exact h.xferPreempt
  · exact h

theorem State.Keeps.softReset {s : State} {k : PageKind} {i : Nat} (h : σ.Keeps s) :
    σ.Keeps (s.softReset k i) := by
  unfold State.softReset
  exact .wb (.ite h h.countReset.pageReset)

theorem State.Keeps.pgCtrlWrite {s : State} {k : PageKind} {i : Nat} {v : Word} (h : σ.Keeps s) :
    σ.Keeps (pgCtrlWrite k i v s) := by
  unfold Machine.pgCtrlWrite
  exact .ite h.softReset (.ite h.wb (.ite (.ite h.wb.watchUnres h.wb) h.wb.blockStop))

theorem State.Keeps.pgLockWrite {s : State} {r : Requester} {k : PageKind} {i : Nat} {v : Word} (h : σ.Keeps s) :
    σ.Keeps (pgLockWrite r k i v s) := by
  unfold Machine.pgLockWrite
  exact .ite h.err (.ite h.err h.wf)

theorem State.Keeps.dropSnaps {s : State} {k : PageKind} {i : Nat} (h : σ.Keeps s) :
    σ.Keeps (s.dropSnaps k i) := by
  unfold State.dropSnaps
  exact h.foldl (fun _ _ k => k.forgetPage)

theorem State.Keeps.acqOwnerMoves {s : State} {b old : Nat} (h : σ.Keeps s) :
    σ.Keeps (s.acqOwnerMoves b old) := by
  unfold State.acqOwnerMoves
  exact .ite h h.acqPreempt.forgetPage

theorem State.Keeps.dropForeign {s : State} (h : σ.Keeps s) :
    σ.Keeps s.dropForeign := by
  unfold State.dropForeign
  exact h.aside

theorem State.Keeps.pgOwnerWrite {s : State} {k : PageKind} {i : Nat} {v : Word} (h : σ.Keeps s) :
    σ.Keeps (pgOwnerWrite k i v s) := by
  unfold Machine.pgOwnerWrite
  split
  · exact h
  · refine .ite h.err ?_
    refine .ite h ?_
    exact .ite h.err (.ite h.wf.dropSnaps.dropForeign.acqOwnerMoves.farAbort h.wf.dropSnaps.dropForeign)

theorem State.Keeps.headerWrite {s : State} {r : Requester} {k : PageKind} {i o : Nat} {v : Word} (h : σ.Keeps s) :
    σ.Keeps (headerWrite r k i o v s) := by
  unfold Machine.headerWrite
  exact .ite h.pgCtrlWrite (.ite h.pgLockWrite (.ite h.pgOwnerWrite h.plainWrite))

theorem State.Keeps.mod0Write {s : State} {o : Nat} {v : Word} (h : σ.Keeps s) :
    σ.Keeps (mod0Write o v s) := by
  unfold Machine.mod0Write
  exact .ite h.aside.modCmdWrite h.plainWrite

theorem State.Keeps.modpWrite {s : State} {i o : Nat} {v : Word} (h : σ.Keeps s) :
    σ.Keeps (modpWrite i o v s) := by
  unfold Machine.modpWrite
  exact .ite h.modPcmdWrite h.plainWrite

theorem State.Keeps.penWrite {s : State} {o : Nat} {v : Word} (h : σ.Keeps s) :
    σ.Keeps (penWrite o v s) := by
  unfold Machine.penWrite
  exact .ite h.penRstWrite (.ite h.rgnCfgWrite h.plainWrite)

theorem State.Keeps.gthWrite {s : State} {r : Requester} {o : Nat} {v : Word} (h : σ.Keeps s) :
    σ.Keeps (gthWrite r o v s) := by
  unfold Machine.gthWrite
  exact .ite h.svnCmdWrite (.ite h.tamperWrite (.ite h.dbgCmdWrite (.ite h.wr h.plainWrite)))

theorem State.Keeps.hlkWrite {s : State} {o : Nat} {v : Word} (h : σ.Keeps s) :
    σ.Keeps (hlkWrite o v s) := by
  unfold Machine.hlkWrite
  exact .ite h.portcfgWrite (.ite h.fnmapWrite (.ite h.vecWrite (.ite h.sigWrite h.plainWrite)))

theorem State.Keeps.halWrite {s : State} {o : Nat} {v : Word} (h : σ.Keeps s) :
    σ.Keeps (halWrite o v s) := by
  unfold Machine.halWrite
  exact .ite h.mctrlWrite h.plainWrite

theorem State.Keeps.logWriteReg {s : State} {o : Nat} {v : Word} (h : σ.Keeps s) :
    σ.Keeps (logWriteReg o v s) := by
  unfold Machine.logWriteReg
  exact .ite h.logCtrlWrite h.logMarkWrite

theorem State.Keeps.hbmWrite {s : State} {o : Nat} {v : Word} (h : σ.Keeps s) :
    σ.Keeps (hbmWrite o v s) := by
  unfold Machine.hbmWrite
  refine .ite h.hbmCtrlWrite ?_
  exact .ite h.rateCmdWrite (.ite h.repairCmdWrite (.ite h.xmapWrite h.plainWrite))

theorem State.Keeps.rngWrite {s : State} {o : Nat} {v : Word} (h : σ.Keeps s) :
    σ.Keeps (rngWrite o v s) := by
  unfold Machine.rngWrite
  exact .ite h.asgRangeWrite (.ite h.asgCmdWrite h.evtRingWrite)

theorem State.Keeps.farWrite {s : State} {r : Requester} {o : Nat} {v : Word} (h : σ.Keeps s) :
    σ.Keeps (farWrite r o v s) := by
  unfold Machine.farWrite
  refine .ite h.farCtrlWrite ?_
  refine .ite h.farSwTmoWrite ?_
  exact .ite h.farWinTickWrite (.ite h.farWinTickWrite (.ite h.farWinCfgWrite h.plainWrite))

theorem State.Keeps.grmWrite {s : State} {o : Nat} {v : Word} (h : σ.Keeps s) :
    σ.Keeps (grmWrite o v s) := by
  unfold Machine.grmWrite
  exact .ite h.err (.ite h (.ite (.ite h.err h.plainWrite) h.plainWrite))

theorem State.Keeps.seqWrite {s : State} {r : Requester} {q o : Nat} {v : Word} (h : σ.Keeps s) :
    σ.Keeps (seqWrite r q o v s) := by
  unfold Machine.seqWrite
  refine .ite h.seqCtrlWrite ?_
  refine .ite h.startAddrWrite ?_
  refine .ite h.seqStartTickWrite ?_
  refine .ite h.seqStartTickWrite ?_
  refine .ite h.markRingWrite ?_
  exact .ite h.strmCtrlWrite (.ite h.sdirWrite (.ite h.sdirWrite (.ite h.sdirWrite h.plainWrite)))

theorem State.Keeps.tsetWrite {s : State} {q o : Nat} {v : Word} (h : σ.Keeps s) :
    σ.Keeps (tsetWrite q o v s) := by
  unfold Machine.tsetWrite
  exact .ite h.edgeWrite (.ite h.periodWrite (.ite h.fmtWrite h.plainWrite))

theorem State.Keeps.capBaseWrite {s : State} {r : Requester} {q : Nat} {hi : Bool} {v : Word} (h : σ.Keeps s) :
    σ.Keeps (capBaseWrite r q hi v s) := by
  unfold Machine.capBaseWrite
  exact .ite h.plainWrite.plainWrite.unstage h.stageWrite

theorem State.Keeps.siteWrite {s : State} {r : Requester} {q o : Nat} {v : Word} (h : σ.Keeps s) :
    σ.Keeps (siteWrite r q o v s) := by
  unfold Machine.siteWrite
  refine .ite h.siteRingWrite ?_
  exact .ite h.capBaseWrite (.ite h.capBaseWrite (.ite h.capSizeWrite h.plainWrite))

theorem State.Keeps.brnWrite {s : State} {b o : Nat} {v : Word} (h : σ.Keeps s) :
    σ.Keeps (brnWrite b o v s) := by
  unfold Machine.brnWrite
  exact .ite h.refCtrlWrite h.lineCfgWrite

theorem State.Keeps.tmbWrite {s : State} {b o : Nat} {v : Word} (h : σ.Keeps s) :
    σ.Keeps (tmbWrite b o v s) := by
  unfold Machine.tmbWrite
  exact .ite h.tmbCtrlWrite h.syncDlyWrite

theorem State.Keeps.acqWrite {s : State} {b o : Nat} {v : Word} (h : σ.Keeps s) :
    σ.Keeps (acqWrite b o v s) := by
  unfold Machine.acqWrite
  exact .ite h.acqCtrlWrite h.acqRegWrite

theorem State.Keeps.wchWrite {s : State} {st o : Nat} {v : Word} (h : σ.Keeps s) :
    σ.Keeps (wchWrite st o v s) := by
  unfold Machine.wchWrite
  exact .ite h.wchTickWrite (.ite (.ite h.wchCfgWrite h.wchThrWrite) h.plainWrite)

theorem State.Keeps.stlWrite {s : State} {st o : Nat} {v : Word} (h : σ.Keeps s) :
    σ.Keeps (stlWrite st o v s) := by
  unfold Machine.stlWrite
  exact .ite h.stlParkWrite h.assignWrite

theorem State.Keeps.lvlWrite {s : State} {st o : Nat} {v : Word} (h : σ.Keeps s) :
    σ.Keeps (lvlWrite st o v s) := by
  unfold Machine.lvlWrite
  exact .ite h.lvlCtrlWrite (.ite h.bcastSelWrite (.ite h.bcastValWrite h.lvlPreWrite))

theorem State.Keeps.drvWrite {s : State} {st o : Nat} {v : Word} (h : σ.Keeps s) :
    σ.Keeps (drvWrite st o v s) := by
  unfold Machine.drvWrite
  exact .ite h.slewWrite h.plainWrite

theorem State.Keeps.cmpWrite {s : State} {st o : Nat} {v : Word} (h : σ.Keeps s) :
    σ.Keeps (cmpWrite st o v s) := by
  unfold Machine.cmpWrite
  exact .ite h.cmpCtrlWrite h.plainWrite

theorem State.Keeps.swmWrite {s : State} {st o : Nat} {v : Word} (h : σ.Keeps s) :
    σ.Keeps (swmWrite st o v s) := by
  unfold Machine.swmWrite
  exact .ite h.swmCtrlWrite (.ite h.wearIdxWrite (.ite h.wearWarnWrite h.swmTgtWrite))

theorem State.Keeps.timWrite {s : State} {r : Requester} {st o : Nat} {v : Word} (h : σ.Keeps s) :
    σ.Keeps (timWrite r st o v s) := by
  unfold Machine.timWrite
  refine .ite h.timArmWrite ?_
  refine .ite h.timStopWrite ?_
  exact .ite h.timRingWrite (.ite h.tdrCtrlWrite (.ite h.timUnitWrite h.plainWrite))

theorem State.Keeps.pmuWrite {s : State} {r : Requester} {st o : Nat} {v : Word} (h : σ.Keeps s) :
    σ.Keeps (pmuWrite r st o v s) := by
  unfold Machine.pmuWrite
  refine .ite h.pmuGangWrite ?_
  refine .ite h.wtIdxWrite ?_
  refine .ite h.wtDataWrite ?_
  refine .ite h.pmuCtrlWrite ?_
  refine .ite h.pmuForceWrite ?_
  refine .ite h.pmuIlimWrite ?_
  refine .ite h.pmuClampWrite ?_
  refine .ite h.pmuClampWrite ?_
  exact .ite h.pmuWaveWrite (.ite h.pmuFreqWrite (.ite h.pmuPhaseWrite h.plainWrite))

theorem State.Keeps.cnvWrite {s : State} {r : Requester} {st o : Nat} {v : Word} (h : σ.Keeps s) :
    σ.Keeps (cnvWrite r st o v s) := by
  unfold Machine.cnvWrite
  refine .ite h.cnvArmWrite ?_
  refine .ite h.cnvStopWrite ?_
  refine .ite h.cnvRingWrite ?_
  exact .ite h.cnvStartTickWrite (.ite h.cnvStartTickWrite (.ite h.cnvCfgWrite h.cnvAperWrite))

theorem State.Keeps.blockWrite {s : State} {r : Requester} {k : PageKind} {i o : Nat} {v : Word} (h : σ.Keeps s) :
    σ.Keeps (blockWrite r k i o v s) := by
  unfold Machine.blockWrite
  split
  · exact h.idxWrite
  · exact h.idxWrite
  · exact h.mod0Write
  · exact h.modpWrite
  · exact h.penWrite
  · exact h.gthWrite
  · exact h.hlkWrite
  · exact h.halWrite
  · exact h.wvnWrite
  · exact h.logWriteReg
  · exact h.hbmWrite
  · exact h.rngWrite
  · exact h.farWrite
  · exact h.grmWrite
  · exact h.seqWrite
  · exact h.apgWrite
  · exact h.tsetWrite
  · exact h.siteWrite
  · exact h.brnWrite
  · exact h.tmbWrite
  · exact h.acqWrite
  · exact h.wchWrite
  · exact h.stlWrite
  · exact h.lvlWrite
  · exact h.drvWrite
  · exact h.cmpWrite
  · exact h.swmWrite
  · exact h.timWrite
  · exact h.pmuWrite
  · exact h.cnvWrite
  · exact h
  · exact h
  · exact h
  · exact h
  · exact h

theorem State.Keeps.pageWrite {s : State} {r : Requester} {k : PageKind} {i o : Nat} {v : Word} (h : σ.Keeps s) :
    σ.Keeps (s.pageWrite r k i o v) := by
  refine .guarded h fun x k => ?_
  split
  · exact k.headerWrite
  · exact k.blockWrite

theorem State.Keeps.write32 {s : State} {r : Requester} {a : Nat} {v : Word} (h : σ.Keeps s) :
    σ.Keeps (s.write32 r a v) := by
  unfold State.write32
  refine .ite h.ringDescWrite ?_
  split
  · exact h.accessError
  · exact h.pageWrite

theorem State.Keeps.widthError {s : State} {a : Nat} (h : σ.Keeps s) :
    σ.Keeps (s.widthError a) := by
  unfold State.widthError
  refine .ite h.ringErr ?_
  split
  · exact h
  · exact h.err

theorem State.Keeps.write {s : State} {r : Requester} {a : Nat} {w : Width} {v : Nat} (h : σ.Keeps s) :
    σ.Keeps (s.write r a w v) := by
  unfold State.write
  refine .ite (.ite h.widthError h.accessError) ?_
  split
  · exact h.write32.write32
  · exact h.write32

theorem State.Keeps.read {s : State} {r : Requester} {a : Nat} {w : Width} (h : σ.Keeps s) :
    σ.Keeps (s.read r a w).1 := by
  unfold State.read
  split
  · split
    · exact h.widthError
    · exact h.accessError
  · dsimp only
    split
    · exact h.read32.read32
    · exact h.read32

/-! ### Page commands -/

theorem State.Keeps.execRsSnapshotRead {s : State} {r : Requester} {a : BitVec 26} {w : Width} (h : σ.Keeps s) :
    σ.Answers (execRsSnapshotRead r a w s) := by
  exact .next h.read.aside

theorem State.Keeps.execUnreachableAccess {s : State} {r : Requester} {a : BitVec 26} {w : Width} {data : Option (BitVec 64)} (h
    : σ.Keeps s) :
    σ.Answers (execUnreachableAccess r a w data s) := by
  unfold Machine.execUnreachableAccess
  refine .ite (.next h) ?_
  split
  · exact .next h.write
  · exact .next h.read.aside

theorem State.Keeps.headerAccess {s : State} {r : Requester} {p o : Nat} {v : Word} (h : σ.Keeps s) :
    σ.Keeps (s.headerAccess r p o v) := by
  unfold State.headerAccess
  exact h.write32

theorem State.Keeps.execPageSoftResetDone {s : State} {p : BitVec 14} (h : σ.Keeps s) :
    σ.Answers (execPageSoftResetDone p s) := by
  unfold Machine.execPageSoftResetDone
  split
  · exact .next h
  · exact .ite (.next h) (.next h.wb)

/-! ### Halter frames -/

theorem State.Keeps.frameReject {s : State} {cause : Nat} (h : σ.Keeps s) :
    σ.Keeps (s.frameReject cause) := by
  unfold State.frameReject
  exact h.sat.event.aside

theorem State.Keeps.frameAccept {s : State} (h : σ.Keeps s) :
    σ.Keeps s.frameAccept := by
  unfold State.frameAccept
  exact h.inc.aside

theorem State.Keeps.shiftOut {s : State} {rd : Bool} {idx n : Nat} (h : σ.Keeps s) :
    σ.Keeps (s.shiftOut rd idx n) := by
  unfold State.shiftOut
  exact h.aside

theorem State.Keeps.frame {s : State} {rd : Bool} {idx n : Nat} {bad busy : Bool} {eff : Machine.State → Machine.State} (h :
    σ.Keeps s) (heff : ∀ x0, σ.Keeps x0 → σ.Keeps (eff x0)) :
    σ.Keeps (s.frame rd idx n bad busy eff) := by
  unfold State.frame
  refine .ite h ?_
  refine .ite h.aside ?_
  dsimp only
  split
  · exact h.shiftOut.frameReject
  · exact heff _ h.shiftOut.frameAccept

theorem State.Keeps.forgetErrors {s : State} (h : σ.Keeps s) :
    σ.Keeps s.forgetErrors := by
  refine h.restored rfl fun hs => ?_
  obtain ⟨hr, hh, hf⟩ := storesOk_iff.mp hs
  exact storesOk_iff.mpr ⟨Store.wf_keep _ _ hr, hh, hf⟩

theorem State.Keeps.slaveAccess {s : State} {a : Nat} {f : Machine.State → Machine.State} (h : σ.Keeps s) (hf : ∀ x0, σ.Keeps x0
    → σ.Keeps (f x0)) :
    σ.Keeps (s.slaveAccess a f) := by
  unfold State.slaveAccess
  exact .ite (.wake (.ite (.aside (hf _ h)) (hf _ h))) (.ite (.aside (hf _ h)) (hf _ h))

theorem State.Keeps.execWrCommitComplete {s : State} (h : σ.Keeps s) :
    σ.Answers (execWrCommitComplete s) := by
  unfold Machine.execWrCommitComplete
  split
  · exact .next h
  · exact .next (.aside (h.aside.foldl (fun _ _ k => k.slaveAccess (fun _ k2 => k2.write32))))

theorem State.Keeps.execFetchComplete {s : State} (h : σ.Keeps s) :
    σ.Answers (execFetchComplete s) := by
  unfold Machine.execFetchComplete
  split
  · exact .next h
  · exact .next (.aside (h.aside.foldl (fun _ _ k => .aside (k.slaveAccess (fun _ k2 => k2.read32)))))

/-! ### Grooms and records -/

theorem State.Keeps.dropBells {s : State} {n c : Nat} (h : σ.Keeps s) :
    σ.Keeps (s.dropBells n c) := by
  unfold State.dropBells
  exact h.setRing

theorem State.Keeps.consume {s : State} {n : Nat} (h : σ.Keeps s) :
    σ.Keeps (s.consume n) := by
  unfold State.consume
  exact h.setReg.dropBells.ringFlags.ringCount

theorem State.Keeps.passCancelled {s : State} {n k : Nat} (h : σ.Keeps s) :
    σ.Keeps (s.passCancelled n k) := by
  induction k generalizing s with
  | zero => exact h
  | succ k ih => exact .ite (ih h.consume.setRing) h

theorem State.Keeps.takeHead {s : State} {n : Nat} (h : σ.Keeps s) :
    σ.Keeps (s.takeHead n) := by
  unfold State.takeHead
  exact h.consume.passCancelled

theorem State.Keeps.groomPost {s : State} {g o ring ty body : Nat} (h : σ.Keeps s) :
    σ.Keeps (s.groomPost g o ring ty body) := by
  unfold State.groomPost
  exact h.post

theorem State.Keeps.postJournal {s : State} {g n : Nat} {c : Ctx} {l : List Change} (h : σ.Keeps s) :
    σ.Keeps (s.postJournal g c n l) := by
  induction n generalizing s l with
  | zero => exact h
  | succ n ih =>
    cases l with
    | nil => exact h
    | cons a l => exact ih h.groomPost

theorem State.Keeps.endOne {s : State} {g : Nat} {c : Ctx} {st : Nat} (h : σ.Keeps s) :
    σ.Keeps (s.endOne g c st) := by
  unfold State.endOne
  exact .inc (.aside (.groomPost (.aside (.ite h.postJournal h))))

theorem State.Keeps.settle {s : State} {g st : Nat} {l : List Chain} (h : σ.Keeps s) :
    σ.Keeps (s.settle g st l) := by
  induction l generalizing s st with
  | nil => exact h.setGroom
  | cons a l ih => exact .ite (ih h.endOne) (.ite (ih h.endOne) h.setGroom)

theorem State.Keeps.endRecord {s : State} {g : Nat} {c : Ctx} {st : Nat} (h : σ.Keeps s) :
    σ.Keeps (s.endRecord g c st) := by
  unfold State.endRecord
  exact h.endOne.settle

theorem State.Keeps.beginRecord {s : State} {g : Nat} {r : Record} (h : σ.Keeps s) :
    σ.Keeps (s.beginRecord g r) := by
  unfold State.beginRecord
  dsimp only
  split
  · exact h.aside.setGroom
  · exact h.aside.sat.settle
  · exact h.aside.endRecord

theorem State.Keeps.saveCtx {s : State} {g : Nat} (h : σ.Keeps s) :
    σ.Keeps (s.saveCtx g) := by
  unfold State.saveCtx
  dsimp only
  split
  · exact h.setGroom
  · exact h

theorem State.Keeps.chainRead {s : State} {g : Fin 8} {l : Chain} {e : Ecc} (h : σ.Keeps s) :
    σ.Keeps (s.chainRead g l e).1 := by
  unfold State.chainRead
  split
  · dsimp only
    exact h.accessError
  · dsimp only
    split
    · dsimp only
      exact h.eccRead.accessError
    · exact h.eccRead

/-- What a groom has taken keeps what each operation keeps. -/
def Taken.Keeps (σ : State) : Taken → Prop
  | .nothing => True
  | .listEnds s => σ.Keeps s
  | .record s _ => σ.Keeps s

theorem State.Keeps.take {s : State} {g : Fin 8} {ring : Option Nat} {ecc : Nat → Ecc} {ok : Record → Bool} (h : σ.Keeps s) :
    (s.take g ring ecc ok).Keeps σ := by
  unfold State.take
  split
  · split
    · split
      · exact h.takeHead.saveCtx
      · trivial
    · trivial
  · split
    · trivial
    · dsimp only
      split
      · exact h.endOne.settle
      · split
        · exact h.chainRead.endOne.settle
        · split
          · exact h.chainRead
          · trivial

theorem State.Keeps.groomReset {s : State} {g : Nat} (h : σ.Keeps s) :
    σ.Keeps (s.groomReset g) := by
  unfold State.groomReset
  exact .pageReset (h.foldl (fun _ _ k => k.foldl (fun _ _ k2 => k2.endOne)))

theorem State.Keeps.machineCheck {s : State} {g : Nat} {c : Ctx} {addr : Nat} (h : σ.Keeps s) :
    σ.Keeps (s.machineCheck g c addr) := by
  unfold State.machineCheck
  refine .groomReset (.aside (.countReset (.logOffer (.event (.wr (.sat (h.foldl (fun _ _ k => k.endOne))))))))

theorem State.Keeps.reach15 {s : State} {op addr : Nat} (h : σ.Keeps s) :
    σ.Keeps (s.reach15 op addr) := by
  unfold State.reach15
  exact .ite h h.aside

/-! ### Routines -/

theorem Job.Keeps.bind {j : Job} {f : Job → Job} (h : Job.Keeps σ j) (hf : ∀ x0, Job.Keeps σ x0 → Job.Keeps σ (f x0)) :
    Job.Keeps σ (j.bind f) := by
  unfold Job.bind
  exact .ite h (hf _ h)

theorem Job.Keeps.each {j : Job} {α : Type} {l : List α} {f : α → Job → Job} (h : Job.Keeps σ j) (hf : ∀ x0 x1, Job.Keeps σ x1 →
    Job.Keeps σ (f x0 x1)) :
    Job.Keeps σ (j.each l f) := by
  unfold Job.each
  exact h.foldl (fun _ _ k2 => k2.bind (fun _ k3 => hf _ _ k3))

theorem Job.Keeps.fail {j : Job} {st : Nat} (h : Job.Keeps σ j) :
    Job.Keeps σ (j.fail st) := by
  unfold Job.fail
  exact h.bind (fun _ k => k)

theorem Job.Keeps.vals {j : Job} {vs : List Nat} (h : Job.Keeps σ j) :
    Job.Keeps σ (j.vals vs) := by
  unfold Job.vals
  exact h.bind (fun _ k => k)

theorem Job.Keeps.finish {j : Job} {vs : List Nat} (h : Job.Keeps σ j) :
    Job.Keeps σ (j.finish vs) := by
  unfold Job.finish
  exact h.vals.fail

theorem Job.Keeps.stage {j : Job} {n : Nat} (h : Job.Keeps σ j) :
    Job.Keeps σ (j.stage n) := by
  unfold Job.stage
  exact h.bind (fun _ k => k)

theorem Job.Keeps.setT {j : Job} {i v : Nat} (h : Job.Keeps σ j) :
    Job.Keeps σ (j.setT i v) := by
  unfold Job.setT
  exact h.bind (fun _ k => k)

theorem Job.Keeps.addT {j : Job} {i v : Nat} (h : Job.Keeps σ j) :
    Job.Keeps σ (j.addT i v) := by
  unfold Job.addT
  exact h.setT

theorem Job.Keeps.first {j : Job} {i v : Nat} (h : Job.Keeps σ j) :
    Job.Keeps σ (j.first i v) := by
  unfold Job.first
  exact .ite h.setT h

theorem Job.Keeps.act {j : Job} {f : Machine.State → Machine.State} (h : Job.Keeps σ j) (hf : ∀ x0, σ.Keeps x0 → σ.Keeps (f x0))
    :
    Job.Keeps σ (j.act f) := by
  unfold Job.act
  exact h.bind (fun _ k2 => hf _ k2)

theorem Job.Keeps.fault {j : Job} (h : Job.Keeps σ j) :
    Job.Keeps σ j.fault := by
  exact h.bind fun y k => show σ.Keeps (y.s.accessError y.r) from State.Keeps.accessError k

theorem Job.Keeps.need {j : Job} {b : Bool} (h : Job.Keeps σ j) :
    Job.Keeps σ (j.need b) := by
  unfold Job.need
  exact .ite h h.fault

theorem Job.Keeps.wrAt {j : Job} {a v : Nat} (h : Job.Keeps σ j) :
    Job.Keeps σ (j.wrAt a v) := by
  unfold Job.wrAt
  refine .bind h (fun _ k => ?_)
  refine .ite k.write32 ?_
  split
  · exact k.write32
  · exact k.write32

theorem Job.Keeps.wr {j : Job} {k : PageKind} {i o v : Nat} (h : Job.Keeps σ j) :
    Job.Keeps σ (j.wr k i o v) := by
  unfold Job.wr
  exact h.wrAt

theorem Job.Keeps.rdAt {j : Job} {a : Nat} (h : Job.Keeps σ j) :
    Job.Keeps σ (j.rdAt a).1 := by
  unfold Job.rdAt
  split
  · exact h
  · dsimp only
    split
    · exact h.read32
    · exact h.read32

theorem State.Keeps.ecc {j : Job} {a n : Nat} (h : Job.Keeps σ j) :
    σ.Keeps (j.ecc a n).1 := by
  unfold Job.ecc
  dsimp only
  split
  · exact h.eccRead.hbmCe
  · exact h.eccRead.hbmUe
  · exact h.eccRead

theorem Job.Keeps.hayRd {j : Job} {a n : Nat} (h : Job.Keeps σ j) :
    Job.Keeps σ (j.hayRd a n).1 := by
  unfold Job.hayRd
  split
  · exact h
  · split
    · exact h
    · split
      · exact h.fault
      · dsimp only
        split
        · exact .fault h.ecc
        · exact h.ecc

theorem Job.Keeps.hayWr {j : Job} {a : Nat} {bs : List Byte} (h : Job.Keeps σ j) :
    Job.Keeps σ (j.hayWr a bs) := by
  unfold Job.hayWr
  exact .ite h (h.bind (fun _ k => .ite k (.ite k.fault k.hayMerge)))

theorem Job.Keeps.post {j : Job} {ty body : Nat} (h : Job.Keeps σ j) :
    Job.Keeps σ (j.post ty body) := by
  unfold Job.post
  exact h.act (fun _ k => k.groomPost)

theorem Job.Keeps.ownStalls {j : Job} {i : Nat} (h : Job.Keeps σ j) :
    Job.Keeps σ (j.ownStalls i) := by
  unfold Job.ownStalls
  exact h.need

theorem Job.Keeps.ownSeq {j : Job} {q : Nat} (h : Job.Keeps σ j) :
    Job.Keeps σ (j.ownSeq q) := by
  unfold Job.ownSeq
  exact h.need

theorem Job.Keeps.mark {j : Job} (h : Job.Keeps σ j) :
    Job.Keeps σ j.mark := by
  unfold Job.mark
  exact h.setT

theorem Job.Keeps.await {j : Job} {cond : Bool} {limit : Nat} {f : Job → Job} (h : Job.Keeps σ j) (hf : ∀ x0, Job.Keeps σ x0 →
    Job.Keeps σ (f x0)) :
    Job.Keeps σ (j.await cond limit f) := by
  unfold Job.await
  exact .ite (h.bind hf) (.ite h.fail h)

theorem State.Keeps.runStage {s : State} {g : Fin 8} {p : Probe} {f : Job → Job} (h : σ.Keeps s)
    (hf : ∀ j, Job.Keeps σ j → Job.Keeps σ (f j)) : σ.Keeps (s.runStage g p f) := by
  unfold State.runStage
  split
  · exact h
  · rename_i c _
    refine .ite h (.ite h.endRecord (.ite h.aside.setGroom (.ite h.reach15.machineCheck (.ite h ?_))))
    have k : Job.Keeps σ (f ⟨if p.fetch = .corrected then (s.reach15 c.rcd.op p.addr.toNat).sat .grm 0 Off.grmSbeCnt 0 32 1
        else s.reach15 c.rcd.op p.addr.toNat, c, g, p, none, none, false⟩) :=
      hf _ (show σ.Keeps _ from .ite h.reach15.sat h.reach15)
    split
    · exact .endRecord (.aside k)
    · exact .setGroom k
    · exact .setGroom k

theorem State.Keeps.service {s : State} {g : Fin 8} {ring : Option (Fin 32768)} {p : Probe} {op : Nat → Bool} {f : Job → Job}
    (h : σ.Keeps s) (hf : ∀ j, Job.Keeps σ j → Job.Keeps σ (f j)) :
    σ.Keeps (s.service g ring p op f) := by
  have hfresh : ∀ {x}, Taken.Keeps σ x → σ.Keeps (match x with
      | .nothing => s
      | .listEnds s1 => s1
      | .record s1 r => if s.romOp r.op then (s1.beginRecord g r).runStage g p f else s1.beginRecord g r) := by
    intro x hx
    cases x with
    | nothing => exact h
    | listEnds s1 => exact hx
    | record s1 r => exact .ite (.runStage (.beginRecord hx) hf) (.beginRecord hx)
  unfold State.service
  dsimp only
  split
  · exact .ite (h.runStage hf) h
  · exact hfresh h.take

/-! ### Register, hayloft, wait and switch services -/

theorem Job.Keeps.rdAll {j : Job} {l : List Nat} (h : Job.Keeps σ j) :
    Job.Keeps σ (j.rdAll l).1 := by
  exact .foldlFst h fun _ _ k => k.rdAt

theorem Job.Keeps.svNop {j : Job} (h : Job.Keeps σ j) :
    Job.Keeps σ (svNop j) := by
  unfold Machine.svNop
  exact h.finish

theorem Job.Keeps.svRegRead {j : Job} (h : Job.Keeps σ j) :
    Job.Keeps σ (svRegRead j) := by
  unfold Machine.svRegRead
  exact h.rdAll.finish

theorem Job.Keeps.svRegWrite {j : Job} (h : Job.Keeps σ j) :
    Job.Keeps σ (svRegWrite j) := by
  unfold Machine.svRegWrite
  exact .fail (h.rdAll.vals.each (fun _ _ k => k.wrAt))

theorem Job.Keeps.svRegRmw {j : Job} (h : Job.Keeps σ j) :
    Job.Keeps σ (svRegRmw j) := by
  unfold Machine.svRegRmw
  exact h.rdAt.vals.wrAt.fail

theorem Job.Keeps.svRegPoll {j : Job} (h : Job.Keeps σ j) :
    Job.Keeps σ (svRegPoll j) := by
  unfold Machine.svRegPoll
  refine .ite (.ite (.fail (.ite h.mark.stage h)) (.ite h.mark.stage h)) ?_
  refine .ite (.fail (.vals (.setT (.setT (.rdAt (.ite h.mark.stage h)))))) ?_
  refine .ite (.fail (.vals (.setT (.setT (.rdAt (.ite h.mark.stage h)))))) ?_
  exact .vals (.setT (.setT (.rdAt (.ite h.mark.stage h))))

theorem Job.Keeps.svRegBatch {j : Job} (h : Job.Keeps σ j) :
    Job.Keeps σ (svRegBatch j) := by
  unfold Machine.svRegBatch
  exact .fail (h.hayRd.vals.each (fun _ _ k => .ite k.wrAt k.wrAt.vals))

theorem Job.Keeps.svHayCopy {j : Job} (h : Job.Keeps σ j) :
    Job.Keeps σ (svHayCopy j) := by
  unfold Machine.svHayCopy
  exact h.hayRd.hayWr.finish

theorem Job.Keeps.svHayFill {j : Job} (h : Job.Keeps σ j) :
    Job.Keeps σ (svHayFill j) := by
  unfold Machine.svHayFill
  exact h.hayWr.finish

theorem Job.Keeps.svHayCrc {j : Job} (h : Job.Keeps σ j) :
    Job.Keeps σ (svHayCrc j) := by
  unfold Machine.svHayCrc
  exact h.hayRd.finish

theorem Job.Keeps.svHayCompare {j : Job} (h : Job.Keeps σ j) :
    Job.Keeps σ (svHayCompare j) := by
  unfold Machine.svHayCompare
  exact h.hayRd.hayRd.finish

theorem Job.Keeps.svDelay {j : Job} (h : Job.Keeps σ j) :
    Job.Keeps σ (svDelay j) := by
  unfold Machine.svDelay
  exact .ite h.mark.stage (.ite h.finish h)

theorem Job.Keeps.svWaitEvent {j : Job} (h : Job.Keeps σ j) :
    Job.Keeps σ (svWaitEvent j) := by
  unfold Machine.svWaitEvent
  refine .await ?_ (fun _ k => k.finish)
  split
  · exact .ownSeq (.ite h.mark.stage h)
  · exact .need (.ite h.mark.stage h)
  · exact .ite h.mark.stage h

theorem Job.Keeps.startAt {j : Job} {q addr : Nat} (h : Job.Keeps σ j) :
    Job.Keeps σ (j.startAt q addr) := by
  unfold Job.startAt
  exact h.wr.mark

theorem Job.Keeps.startSeq {j : Job} {q limit n : Nat} (h : Job.Keeps σ j) :
    Job.Keeps σ (j.startSeq q limit n) := by
  unfold Job.startSeq
  exact h.await (fun _ k => k.wr.mark.stage)

theorem Job.Keeps.svSeqRun {j : Job} (h : Job.Keeps σ j) :
    Job.Keeps σ (svSeqRun j) := by
  unfold Machine.svSeqRun
  dsimp only
  split
  · exact .ite h.ownSeq.wr.stage (h.ownSeq.bind (fun _ k => k.startAt.stage))
  · exact .ite (h.bind (fun _ k => k.startAt.stage)) h
  · exact h.startSeq
  · exact h.vals.await (fun _ k => k.fail)

theorem Job.Keeps.svSeqBatch {j : Job} (h : Job.Keeps σ j) :
    Job.Keeps σ (svSeqBatch j) := by
  unfold Machine.svSeqBatch
  dsimp only
  split
  · exact h.hayRd.ownSeq.setT.startAt.stage
  · exact h.startSeq
  · refine .await h (fun _ k => ?_)
    refine .ite (.fail (.stage (.vals (.addT (.setT (.ite k.addT k.first)))))) ?_
    exact .stage (.vals (.addT (.setT (.ite k.addT k.first))))

theorem Job.Keeps.svLevels {j : Job} (h : Job.Keeps σ j) :
    Job.Keeps σ (svLevels j) := by
  unfold Machine.svLevels
  refine .fail ?_
  refine .each h.ownStalls (fun _ _ k => ?_)
  refine .ite (.ite (.wr (.vals (k.each (fun _ _ k2 => k2.wr)))) (.wr (.vals (k.each (fun _ _ k2 => k2.wr))))) ?_
  exact .vals (k.each (fun _ _ k2 => k2.wr))

theorem Job.Keeps.batch {j : Job} {st drv pmu : Nat} {hot : Bool} (h : Job.Keeps σ j) :
    Job.Keeps σ (j.batch st drv pmu hot) := by
  unfold Job.batch
  exact h.wr.wr.wr

theorem Job.Keeps.svSwitch {j : Job} (h : Job.Keeps σ j) :
    Job.Keeps σ (svSwitch j) := by
  unfold Machine.svSwitch
  refine .ite (h.ownStalls.bind (fun _ k => .ite k.batch k.batch.stage)) ?_
  refine .ite ?_ ?_
  · refine .ite h.addT.setT.addT.vals.fail ?_
    exact h.addT.setT.addT.vals.bind (fun _ k => .ite k.batch k.batch.stage)
  · exact h

/-! ### PMU services -/

theorem Job.Keeps.pmuSet {j : Job} {n mode range sense meas code : Nat} (h : Job.Keeps σ j) :
    Job.Keeps σ (j.pmuSet n mode range sense meas code) := by
  unfold Job.pmuSet
  exact .ite (.wr (.wr (.ite h.wr h))) (.wr (.wr (.wr (.ite h.wr h))))

theorem Job.Keeps.force {j : Job} {n code : Nat} (h : Job.Keeps σ j) :
    Job.Keeps σ (j.force n code) := by
  unfold Job.force
  exact h.wr

theorem Job.Keeps.pmuOff {j : Job} {n : Nat} (h : Job.Keeps σ j) :
    Job.Keeps σ (j.pmuOff n) := by
  unfold Job.pmuOff
  exact .ite h.wr h

theorem Job.Keeps.convertAt {j : Job} {l : List Nat} {t : Nat} (h : Job.Keeps σ j) :
    Job.Keeps σ (j.convertAt l t) := by
  unfold Job.convertAt
  exact .each (h.each (fun _ _ k => k.wr)) (fun _ _ k => k.wr.wr.wr)

theorem Job.Keeps.convert {j : Job} {l : List Nat} (h : Job.Keeps σ j) :
    Job.Keeps σ (j.convert l) := by
  unfold Job.convert
  exact .convertAt h.useFree

theorem Job.Keeps.postResult {j : Job} {n : Nat} (h : Job.Keeps σ j) :
    Job.Keeps σ (j.postResult n) := by
  unfold Job.postResult
  exact h.post

/-- The steps of a sweep keep what each operation keeps. -/
structure Sweep.Keeps (σ : State) (x : Sweep) : Prop where
  set : ∀ k j, Job.Keeps σ j → Job.Keeps σ (x.set k j)
  judge : ∀ k n j, Job.Keeps σ j → Job.Keeps σ (x.judge k n j)
  after : ∀ k j, Job.Keeps σ j → Job.Keeps σ (x.after k j)

theorem Job.Keeps.sweep {j : Job} {x : Sweep} (h : Job.Keeps σ j) (hx : x.Keeps σ) :
    Job.Keeps σ (j.sweep x) := by
  have hbegin : ∀ k y, Job.Keeps σ y → Job.Keeps σ ((y.bind (x.set k)).mark.stage 1) :=
    fun k _ hy => (Job.Keeps.bind hy (hx.set k)).mark.stage
  unfold Job.sweep
  dsimp only
  split
  · have k : Job.Keeps σ ((j.ownStalls 0).bind fun y => y.vals (x.words y)) := h.ownStalls.bind fun _ k => k.vals
    exact .ite (hbegin _ _ k) k
  · exact .ite h.convert.stage h
  · refine .ite ?_ h
    have k : Job.Keeps σ (j.each x.pmus fun n y => x.judge (j.t 1) n (if x.post then y.postResult n else y)) :=
      h.each fun _ _ k => hx.judge _ _ _ (.ite k.postResult k)
    have k1 := (Job.Keeps.bind k (hx.after (j.t 1))).addT (i := 1) (v := 1)
    exact .ite k1.vals.stage.fail (.ite (hbegin _ _ k1.vals.stage) k1.vals.stage)

theorem Job.Keeps.tallyFlag {j : Job} {n : Nat} (h : Job.Keeps σ j) :
    Job.Keeps σ (tallyFlag n j) := by
  unfold Machine.tallyFlag
  exact .ite h.addT.first h

theorem Job.Keeps.forceAs {j : Job} {n code : Nat} (h : Job.Keeps σ j) :
    Job.Keeps σ (j.forceAs n code) := by
  unfold Job.forceAs
  exact h.pmuSet

theorem Job.Keeps.svForceMeasure {j : Job} (h : Job.Keeps σ j) :
    Job.Keeps σ (svForceMeasure j) := by
  unfold Machine.svForceMeasure
  refine .sweep h ⟨fun _ _ k => k.each (fun _ _ k2 => k2.forceAs), fun _ _ _ k => k.tallyFlag.addT, fun _ _ k => k⟩

theorem Job.Keeps.sweepOf {j : Job} {m : Nat} {f : Nat → Nat} (h : Job.Keeps σ j) :
    Job.Keeps σ (j.sweepOf m f) := by
  unfold Job.sweepOf
  refine .sweep h ⟨fun _ _ k => k.each (fun _ _ k2 => .ite k2.forceAs k2.force), fun _ _ _ k => k.tallyFlag, fun _ _ k =>
      k.addT⟩

theorem Job.Keeps.svSweep {j : Job} (h : Job.Keeps σ j) :
    Job.Keeps σ (svSweep j) := by
  unfold Machine.svSweep
  exact h.sweepOf

theorem Job.Keeps.svSweepLog {j : Job} (h : Job.Keeps σ j) :
    Job.Keeps σ (svSweepLog j) := by
  unfold Machine.svSweepLog
  exact h.sweepOf

theorem Job.Keeps.keep {j : Job} {n v : Nat} (h : Job.Keeps σ j) :
    Job.Keeps σ (j.keep n v) := by
  unfold Job.keep
  exact h.bind (fun _ k => k)

theorem Job.Keeps.svLeakage {j : Job} (h : Job.Keeps σ j) :
    Job.Keeps σ (svLeakage j) := by
  unfold Machine.svLeakage
  refine .sweep h ⟨fun _ _ k => k.each (fun _ _ k2 => .ite k2.pmuSet k2.force), fun _ _ _ k => .ite k.keep (.ite (.first (.addT
      (.ite k.addT k))) (.ite k.addT k)), fun _ _ k => k⟩

theorem Job.Keeps.outLevel {j : Job} {above : Bool} (h : Job.Keeps σ j) :
    Job.Keeps σ (j.outLevel above) := by
  unfold Job.outLevel
  refine .sweep h ⟨fun _ _ k => k.each (fun _ _ k2 => k2.pmuSet), fun _ _ _ k => .ite k.addT.addT.first k.addT, fun _ _ k => k⟩

theorem Job.Keeps.svVohIoh {j : Job} (h : Job.Keeps σ j) :
    Job.Keeps σ (svVohIoh j) := by
  unfold Machine.svVohIoh
  exact h.outLevel

theorem Job.Keeps.svVolIol {j : Job} (h : Job.Keeps σ j) :
    Job.Keeps σ (svVolIol j) := by
  unfold Machine.svVolIol
  exact h.outLevel

theorem Job.Keeps.svKelvin {j : Job} (h : Job.Keeps σ j) :
    Job.Keeps σ (svKelvin j) := by
  unfold Machine.svKelvin
  refine .sweep h ⟨fun _ _ k => k.each (fun _ _ k2 => k2.pmuSet), fun _ _ _ k => .ite k.keep (.ite k.addT.first k), fun _ _ k =>
      k⟩

theorem Job.Keeps.svIddq {j : Job} (h : Job.Keeps σ j) :
    Job.Keeps σ (svIddq j) := by
  unfold Machine.svIddq
  refine .sweep h.ownSeq ⟨fun _ _ k => k.each (fun _ _ k2 => .ite k2.wr k2), fun _ _ _ k => .ite k.addT.first.first k, fun _ _ k
      => k.addT.wr⟩

theorem Job.Keeps.ramp {j : Job} {l : List Nat} {ready : Job → Job} {words : Job → List Nat} (h : Job.Keeps σ j) (hready : ∀ x0,
    Job.Keeps σ x0 → Job.Keeps σ (ready x0)) :
    Job.Keeps σ (j.ramp l ready words) := by
  unfold Job.ramp
  refine .ite (.stage (.mark (.each (h.ownStalls.bind hready) (fun _ _ k2 => .keep (.ite k2.wr k2.wr.pmuSet))))) ?_
  refine .ite ?_ ?_
  · refine .fail ?_
    refine .vals ?_
    refine .ite (.each (.setT (h.each (fun _ _ k2 => k2.each (fun _ _ k3 => k3.force)))) (fun _ _ k2 => k2.force)) ?_
    exact .setT (h.each (fun _ _ k2 => k2.each (fun _ _ k3 => k3.force)))
  · exact .setT (h.each (fun _ _ k2 => k2.each (fun _ _ k3 => k3.force)))

theorem Job.Keeps.svSupplyRamp {j : Job} (h : Job.Keeps σ j) :
    Job.Keeps σ (svSupplyRamp j) := by
  unfold Machine.svSupplyRamp
  exact h.ramp (fun _ k => k)

theorem Job.Keeps.svGangSupply {j : Job} (h : Job.Keeps σ j) :
    Job.Keeps σ (svGangSupply j) := by
  unfold Machine.svGangSupply
  exact h.ramp (fun _ k => k.each (fun _ _ k2 => .ite k2 k2.wr))

theorem Job.Keeps.svWaveStart {j : Job} (h : Job.Keeps σ j) :
    Job.Keeps σ (svWaveStart j) := by
  unfold Machine.svWaveStart
  refine .ite (.finish (h.ownStalls.ownSeq.each (fun _ _ k => k.wr.wr.wr.vals))) ?_
  exact .fail (h.ownStalls.ownSeq.each (fun _ _ k => k.wr.wr.wr.vals))

theorem Job.Keeps.waveOff {j : Job} {n : Nat} (h : Job.Keeps σ j) :
    Job.Keeps σ (j.waveOff n) := by
  unfold Job.waveOff
  exact .ite h h.wr

theorem Job.Keeps.svWaveStop {j : Job} (h : Job.Keeps σ j) :
    Job.Keeps σ (svWaveStop j) := by
  unfold Machine.svWaveStop
  refine .ite (.finish (h.ownStalls.each (fun _ _ k => k.waveOff.vals))) ?_
  exact .fail (h.ownStalls.each (fun _ _ k => k.waveOff.vals))

theorem Job.Keeps.svCnvBatch {j : Job} (h : Job.Keeps σ j) :
    Job.Keeps σ (svCnvBatch j) := by
  unfold Machine.svCnvBatch
  refine .ite (.ite h.ownStalls.fail (.stage (.convertAt (.setT (.vals h.ownStalls.useFree))))) ?_
  refine .ite ?_ ?_
  · refine .ite (.fail (.vals (.addT (h.each (fun _ _ k => .addT (.addT (.ite k.postResult k))))))) ?_
    exact .convertAt (.vals (.addT (h.each (fun _ _ k => .addT (.addT (.ite k.postResult k))))))
  · exact h

theorem Job.Keeps.svAcqRecord {j : Job} (h : Job.Keeps σ j) :
    Job.Keeps σ (svAcqRecord j) := by
  unfold Machine.svAcqRecord
  exact .ite h.need.wr.mark.stage (h.vals.await (fun _ k => k.fail))

theorem Job.Keeps.svPmuSafe {j : Job} (h : Job.Keeps σ j) :
    Job.Keeps σ (svPmuSafe j) := by
  unfold Machine.svPmuSafe
  refine .ite ?_ ?_
  · refine .bind ?_ (fun _ k => k.batch.stage)
    refine .ite (.each (h.ownStalls.each (fun _ _ k => .ite k k.waveOff.pmuOff)) (fun _ _ k => .ite k.wr k)) ?_
    exact h.ownStalls.each (fun _ _ k => .ite k k.waveOff.pmuOff)
  · exact .ite (.ite h.addT.vals.fail (h.addT.vals.bind (fun _ k => k.batch.stage))) h

/-! ### Time services -/

theorem Job.Keeps.armTim {j : Job} {l : List Nat} {cfg n : Nat} {tl : Option Nat} (h : Job.Keeps σ j) :
    Job.Keeps σ (j.armTim l cfg n tl) := by
  unfold Job.armTim
  refine .each ?_ (fun _ _ k => k.wr)
  refine .each h (fun _ _ k => ?_)
  dsimp only
  split
  · exact k.wr.wr.wr
  · exact k.wr.wr

theorem Job.Keeps.stopTim {j : Job} {l : List Nat} (h : Job.Keeps σ j) :
    Job.Keeps σ (j.stopTim l) := by
  unfold Job.stopTim
  exact h.each (fun _ _ k => k.wr)

theorem Job.Keeps.timRun {j : Job} {cfg n : Nat} {tl : Option Nat} {limit : Nat} {f : Job → Nat → List Nat} (h : Job.Keeps σ j)
    :
    Job.Keeps σ (j.timRun cfg n tl limit f) := by
  unfold Job.timRun
  refine .ite ?_ ?_
  · refine .stage ?_
    refine .mark ?_
    refine .armTim ?_
    split
    · exact h.ownStalls.ownSeq
    · exact h.ownStalls
  · exact h.vals.await (fun _ k => k.fail)

theorem Job.Keeps.svTimRun {j : Job} (h : Job.Keeps σ j) :
    Job.Keeps σ (svTimRun j) := by
  unfold Machine.svTimRun
  exact h.timRun

theorem Job.Keeps.svPeriod {j : Job} (h : Job.Keeps σ j) :
    Job.Keeps σ (svPeriod j) := by
  unfold Machine.svPeriod
  exact h.timRun

theorem Job.Keeps.svJitter {j : Job} (h : Job.Keeps σ j) :
    Job.Keeps σ (svJitter j) := by
  unfold Machine.svJitter
  exact h.timRun

theorem Job.Keeps.svSkew {j : Job} (h : Job.Keeps σ j) :
    Job.Keeps σ (svSkew j) := by
  unfold Machine.svSkew
  exact h.timRun

theorem Job.Keeps.svDelayMeas {j : Job} (h : Job.Keeps σ j) :
    Job.Keeps σ (svDelayMeas j) := by
  unfold Machine.svDelayMeas
  exact h.timRun

theorem Job.Keeps.svFreq {j : Job} (h : Job.Keeps σ j) :
    Job.Keeps σ (svFreq j) := by
  unfold Machine.svFreq
  dsimp only
  split
  · exact h.ownStalls.armTim.mark.stage
  · exact .ite h.stopTim.mark.stage h
  · exact h.vals.await (fun _ k => k.fail)

theorem Job.Keeps.launch {j : Job} {l : List Nat} {rep phases n : Nat} (h : Job.Keeps σ j) :
    Job.Keeps σ (j.launch l rep phases n) := by
  unfold Job.launch
  exact .armTim (h.each (fun _ _ k => k.wr))

theorem Job.Keeps.verdict {j : Job} {ch v : Nat} (h : Job.Keeps σ j) :
    Job.Keeps σ (j.verdict ch v) := by
  unfold Job.verdict
  exact h.act (fun _ k => k.aside)

theorem Job.Keeps.svTdr {j : Job} (h : Job.Keeps σ j) :
    Job.Keeps σ (svTdr j) := by
  unfold Machine.svTdr
  dsimp only
  split
  · exact h.ownStalls.launch.mark.stage
  · exact .ite h.stage (.ite h.stopTim.stage h)
  · exact .ite (.finish (.ite (h.each (fun _ _ k => k.verdict.post)) h)) h

theorem Job.Keeps.popVernier {j : Job} {st n : Nat} (h : Job.Keeps σ j) :
    Job.Keeps σ (j.popVernier st n).1 := by
  induction n generalizing j with
  | zero => exact h
  | succ n ih =>
    unfold Job.popVernier
    split
    · exact h
    · exact ih h.rdAt

theorem Job.Keeps.svVernierDump {j : Job} (h : Job.Keeps σ j) :
    Job.Keeps σ (svVernierDump j) := by
  unfold Machine.svVernierDump
  exact .finish (.hayWr (.foldlFst h.ownStalls (fun _ _ k => k.popVernier)))

theorem Job.Keeps.svStampReduce {j : Job} (h : Job.Keeps σ j) :
    Job.Keeps σ (svStampReduce j) := by
  unfold Machine.svStampReduce
  exact h.hayRd.finish

/-! ### Contact services -/

theorem Job.Keeps.keepReg {j : Job} {k : PageKind} {i o : Nat} (h : Job.Keeps σ j) :
    Job.Keeps σ (j.keepReg k i o) := by
  unfold Job.keepReg
  exact h.keep

theorem Job.Keeps.restore {j : Job} {k : PageKind} {i o : Nat} (h : Job.Keeps σ j) :
    Job.Keeps σ (j.restore k i o) := by
  unfold Job.restore
  exact h.wr

theorem Job.Keeps.connect {j : Job} {l : List Nat} {drv pmu : Nat → Nat} (h : Job.Keeps σ j) :
    Job.Keeps σ (j.connect l drv pmu) := by
  unfold Job.connect
  exact h.each (fun _ _ k => k.batch)

theorem Job.Keeps.survey {j : Job} (h : Job.Keeps σ j) :
    Job.Keeps σ j.survey := by
  unfold Job.survey
  refine .each ?_ (fun _ _ k => k.keepReg.keepReg.keepReg.keepReg)
  refine .each (.each (h.each (fun _ _ k => k.keep.keep)) (fun _ _ k => k.keepReg.keepReg.keepReg)) (fun _ _ k =>
      k.keepReg.keepReg)

theorem Job.Keeps.clamps {j : Job} {n hi lo : Nat} (h : Job.Keeps σ j) :
    Job.Keeps σ (j.clamps n hi lo) := by
  unfold Job.clamps
  exact h.wr.wr.wr

theorem Job.Keeps.forceContact {j : Job} {n : Nat} (h : Job.Keeps σ j) :
    Job.Keeps σ (j.forceContact n) := by
  unfold Job.forceContact
  exact h.clamps.pmuSet.wr

theorem Job.Keeps.judgePmu {j : Job} {ch : Nat} (h : Job.Keeps σ j) :
    Job.Keeps σ (j.judgePmu ch) := by
  unfold Job.judgePmu
  exact h.keep

theorem Job.Keeps.report {j : Job} {ch : Nat} (h : Job.Keeps σ j) :
    Job.Keeps σ (j.report ch) := by
  unfold Job.report
  split
  · exact h.verdict.post

theorem Job.Keeps.restoreTim {j : Job} (h : Job.Keeps σ j) :
    Job.Keeps σ j.restoreTim := by
  unfold Job.restoreTim
  exact .each (h.each (fun _ _ k => k.restore)) (fun _ _ k => k.restore.restore)

theorem Job.Keeps.restorePmu {j : Job} {n : Nat} (h : Job.Keeps σ j) :
    Job.Keeps σ (j.restorePmu n) := by
  unfold Job.restorePmu
  exact .ite h.pmuOff.wr.restore.clamps.wr h.pmuOff.wr.restore.clamps

theorem Job.Keeps.pmuRound {j : Job} {i : Nat} (h : Job.Keeps σ j) :
    Job.Keeps σ (j.pmuRound i) := by
  unfold Job.pmuRound
  dsimp only
  split
  · exact h.setT.connect.stage
  · exact .stage (.each (h.restoreTim.each (fun _ _ k => k.restorePmu)) (fun _ _ k => k.batch))

theorem Job.Keeps.svContact {j : Job} (h : Job.Keeps σ j) :
    Job.Keeps σ (svContact j) := by
  unfold Machine.svContact
  dsimp only
  split
  · exact .ite h.ownStalls.survey.pmuRound h.ownStalls.survey.launch.mark.stage
  · exact .ite h.stage (.ite h.stopTim.stage h)
  · exact .ite h.pmuRound h
  · exact .ite (.stage (.mark (h.each (fun _ _ k => k.forceContact)))) h
  · exact .ite (.stage (.convert (h.each (fun _ _ k => k.wr)))) h
  · exact .ite (.pmuRound (h.each (fun _ _ k => k.judgePmu.pmuOff))) h
  · exact .ite (.finish (h.each (fun _ _ k => k.report))) h

theorem Job.Keeps.shortsRound {j : Job} {i : Nat} (h : Job.Keeps σ j) :
    Job.Keeps σ (j.shortsRound i) := by
  unfold Job.shortsRound
  split
  · exact h.vals.fail
  · exact .stage (h.setT.each (fun _ _ k => k.wr))

theorem Job.Keeps.svShorts {j : Job} (h : Job.Keeps σ j) :
    Job.Keeps σ (svShorts j) := by
  unfold Machine.svShorts
  dsimp only
  split
  · exact h.ownStalls.shortsRound
  · exact .ite h.connect.stage h
  · exact .ite (.stage (.mark (h.each (fun _ _ k => k.pmuSet)))) h
  · exact .ite h.convert.stage h
  · exact .ite (.shortsRound (.vals (h.each (fun _ _ k => .pmuOff (.ite k.addT.first k))))) h

theorem Job.Keeps.svOpenMap {j : Job} (h : Job.Keeps σ j) :
    Job.Keeps σ (svOpenMap j) := by
  unfold Machine.svOpenMap
  exact .finish (.ite (h.ownSeq.hayWr.each (fun _ _ k => k.wr)) h.ownSeq.hayWr)

theorem Job.Keeps.svContactReport {j : Job} (h : Job.Keeps σ j) :
    Job.Keeps σ (svContactReport j) := by
  unfold Machine.svContactReport
  exact h.hayWr.finish

theorem Job.Keeps.svIndexWait {j : Job} (h : Job.Keeps σ j) :
    Job.Keeps σ (svIndexWait j) := by
  unfold Machine.svIndexWait
  exact .await (.ite h.mark.stage h) (fun _ k => k.finish)

/-! ### Data and capture services -/

theorem Job.Keeps.rdEntries {j : Job} {n : Nat} {l : List Nat} (h : Job.Keeps σ j) :
    Job.Keeps σ (j.rdEntries n l).1 := by
  exact .foldlFst h fun _ _ k => k.hayRd

theorem Job.Keeps.input {j : Job} {ty : Nat} (h : Job.Keeps σ j) :
    Job.Keeps σ (j.input ty).1 := by
  unfold Job.input
  dsimp only
  exact h.need.rdEntries

theorem Job.Keeps.values {j : Job} (h : Job.Keeps σ j) :
    Job.Keeps σ (j.values).1 := by
  unfold Job.values
  dsimp only
  exact h.input

theorem Job.Keeps.svStats {j : Job} (h : Job.Keeps σ j) :
    Job.Keeps σ (svStats j) := by
  unfold Machine.svStats
  exact h.values.finish

theorem Job.Keeps.postWords {j : Job} {ty n : Nat} {l : List Nat} (h : Job.Keeps σ j) :
    Job.Keeps σ (j.postWords ty n l) := by
  induction n generalizing j l with
  | zero => exact h
  | succ n ih =>
    cases l with
    | nil => exact h
    | cons a l => exact ih h.post

theorem Job.Keeps.svHistogram {j : Job} (h : Job.Keeps σ j) :
    Job.Keeps σ (svHistogram j) := by
  unfold Machine.svHistogram
  exact h.values.postWords.finish

theorem Job.Keeps.svLimits {j : Job} (h : Job.Keeps σ j) :
    Job.Keeps σ (svLimits j) := by
  unfold Machine.svLimits
  exact h.values.finish

theorem Job.Keeps.svOutlier {j : Job} (h : Job.Keeps σ j) :
    Job.Keeps σ (svOutlier j) := by
  unfold Machine.svOutlier
  exact .ite h.values.postWords.finish h.values.postWords.finish

theorem Job.Keeps.svSort {j : Job} (h : Job.Keeps σ j) :
    Job.Keeps σ (svSort j) := by
  unfold Machine.svSort
  exact h.values.hayWr.finish

theorem Job.Keeps.finals {j : Job} (h : Job.Keeps σ j) :
    Job.Keeps σ (j.finals).1 := by
  unfold Job.finals
  dsimp only
  exact h.input

theorem Job.Keeps.svBin {j : Job} (h : Job.Keeps σ j) :
    Job.Keeps σ (svBin j) := by
  unfold Machine.svBin
  exact .finish (h.finals.hayRd.each (fun _ _ k => k.hayWr))

theorem Job.Keeps.svBinMap {j : Job} (h : Job.Keeps σ j) :
    Job.Keeps σ (svBinMap j) := by
  unfold Machine.svBinMap
  exact h.hayRd.hayWr.finish

theorem Job.Keeps.svSiteSummary {j : Job} (h : Job.Keeps σ j) :
    Job.Keeps σ (svSiteSummary j) := by
  unfold Machine.svSiteSummary
  exact .finish (h.finals.each (fun _ _ k => k.hayWr))

theorem Job.Keeps.svYield {j : Job} (h : Job.Keeps σ j) :
    Job.Keeps σ (svYield j) := by
  unfold Machine.svYield
  exact h.finals.finish

theorem Job.Keeps.svMerge {j : Job} (h : Job.Keeps σ j) :
    Job.Keeps σ (svMerge j) := by
  unfold Machine.svMerge
  exact h.hayRd.hayRd.hayWr.finish

theorem Job.Keeps.svWaferMap {j : Job} (h : Job.Keeps σ j) :
    Job.Keeps σ (svWaferMap j) := by
  unfold Machine.svWaferMap
  exact .finish (h.hayRd.hayRd.each (fun _ _ k => k.hayWr))

theorem Job.Keeps.siteRes {j : Job} {q site i : Nat} (h : Job.Keeps σ j) :
    Job.Keeps σ (j.siteRes q site i).1 := by
  unfold Job.siteRes
  dsimp only
  split
  · exact h.wr.rdAt
  · exact h.wr.rdAt.rdAt

theorem Job.Keeps.svFailCount {j : Job} (h : Job.Keeps σ j) :
    Job.Keeps σ (svFailCount j) := by
  unfold Machine.svFailCount
  exact .finish (.foldlFst h.ownSeq (fun _ _ k => k.siteRes))

theorem Job.Keeps.flushed {j : Job} {q : Nat} {f : Job → Job} (h : Job.Keeps σ j) (hf : ∀ x0, Job.Keeps σ x0 → Job.Keeps σ (f
    x0)) :
    Job.Keeps σ (j.flushed q f) := by
  unfold Job.flushed
  exact .await (.ite h.ownSeq.mark.stage h) hf

theorem Job.Keeps.records {j : Job} {q : Nat} (h : Job.Keeps σ j) :
    Job.Keeps σ (j.records q).1 := by
  exact .foldlFst h fun _ _ k => k.hayRd

theorem Job.Keeps.svCapScan {j : Job} (h : Job.Keeps σ j) :
    Job.Keeps σ (svCapScan j) := by
  unfold Machine.svCapScan
  exact h.flushed (fun _ k => k.records.hayWr.finish)

theorem Job.Keeps.svBitmap {j : Job} (h : Job.Keeps σ j) :
    Job.Keeps σ (svBitmap j) := by
  unfold Machine.svBitmap
  exact h.flushed (fun _ k => k.records.hayWr.finish)

theorem Job.Keeps.svRepair {j : Job} (h : Job.Keeps σ j) :
    Job.Keeps σ (svRepair j) := by
  unfold Machine.svRepair
  refine .flushed h (fun _ k => ?_)
  refine .fail ?_
  refine .each k.records.vals (fun _ _ k2 => ?_)
  refine .vals ?_
  refine .ite ?_ ?_
  · refine .addT ?_
    refine .each k2.siteRes.setT (fun _ _ k3 => .ite k3 (.ite k3.fail (.vals (.ite k3.hayWr.addT k3.hayWr.addT.setT))))
  · refine .addT ?_
    refine .each k2.siteRes.setT (fun _ _ k3 => .ite k3 (.ite k3.fail (.vals (.ite k3.hayWr.addT k3.hayWr.addT.setT))))

theorem Job.Keeps.svRepairVerify {j : Job} (h : Job.Keeps σ j) :
    Job.Keeps σ (svRepairVerify j) := by
  unfold Machine.svRepairVerify
  exact h.flushed (fun _ k => k.records.hayRd.finish)

/-! ### Maintenance and record services -/

theorem Job.Keeps.svWatchSetup {j : Job} (h : Job.Keeps σ j) :
    Job.Keeps σ (svWatchSetup j) := by
  unfold Machine.svWatchSetup
  exact .fail (h.ownStalls.vals.each (fun _ _ k => .ite k.wr.wr k.wr.wr.vals))

theorem Job.Keeps.setTest {j : Job} {ch v : Nat} (h : Job.Keeps σ j) :
    Job.Keeps σ (j.setTest ch v) := by
  unfold Job.setTest
  exact h.wr

theorem Job.Keeps.svWatchTest {j : Job} (h : Job.Keeps σ j) :
    Job.Keeps σ (svWatchTest j) := by
  unfold Machine.svWatchTest
  refine .ite (.stage (.mark (.each (h.ownStalls.each (fun _ _ k => k.keep)) (fun _ _ k => k.setTest)))) ?_
  refine .ite ?_ ?_
  · refine .ite (.finish (h.each (fun _ _ k => .setTest (.ite k k.keep)))) ?_
    exact .stage (.mark (h.each (fun _ _ k => .setTest (.ite k k.keep))))
  · exact h

theorem Job.Keeps.svCalItem {j : Job} (h : Job.Keeps σ j) :
    Job.Keeps σ (svCalItem j) := by
  unfold Machine.svCalItem
  exact .ite h.wr.wr.wr.wr.mark.stage (h.vals.await (fun _ k => k.fail))

theorem Job.Keeps.svCalStore {j : Job} (h : Job.Keeps σ j) :
    Job.Keeps σ (svCalStore j) := by
  unfold Machine.svCalStore
  exact .ite h.wr.stage (.ite h.finish h)

theorem Job.Keeps.window {j : Job} {k : PageKind} {idx n : Nat} {os : List Nat} (h : Job.Keeps σ j) :
    Job.Keeps σ (j.window k idx n os).1 := by
  exact .foldlFst h fun _ _ k => k.wr.rdAll

theorem Job.Keeps.hayWords {j : Job} {a : Nat} {l : List Nat} (h : Job.Keeps σ j) :
    Job.Keeps σ (j.hayWords a l) := by
  unfold Job.hayWords
  exact h.hayWr

theorem Job.Keeps.svWearReport {j : Job} (h : Job.Keeps σ j) :
    Job.Keeps σ (svWearReport j) := by
  unfold Machine.svWearReport
  exact h.window.hayWords.finish

theorem Job.Keeps.svTempReport {j : Job} (h : Job.Keeps σ j) :
    Job.Keeps σ (svTempReport j) := by
  unfold Machine.svTempReport
  exact h.window.hayWords.finish

theorem Job.Keeps.svLogRead {j : Job} (h : Job.Keeps σ j) :
    Job.Keeps σ (svLogRead j) := by
  unfold Machine.svLogRead
  exact h.window.hayWords.finish

theorem Job.Keeps.svSelftest {j : Job} (h : Job.Keeps σ j) :
    Job.Keeps σ (svSelftest j) := by
  unfold Machine.svSelftest
  exact h.finish

theorem Job.Keeps.svHbmScrub {j : Job} (h : Job.Keeps σ j) :
    Job.Keeps σ (svHbmScrub j) := by
  unfold Machine.svHbmScrub
  refine .ite h ?_
  refine .finish ?_
  refine .each (h.need.each (fun _ _ k => k.act (fun _ k2 => k2.hbmCe))) (fun _ _ k => k.act (fun _ k2 => k2.hbmUe))

theorem Job.Keeps.svRomCheck {j : Job} (h : Job.Keeps σ j) :
    Job.Keeps σ (svRomCheck j) := by
  unfold Machine.svRomCheck
  exact h.finish

theorem Job.Keeps.startChain {j : Job} {a n : Nat} {stop cond : Bool} (h : Job.Keeps σ j) :
    Job.Keeps σ (j.startChain a n stop cond) := by
  unfold Job.startChain
  exact h.need.bind (fun _ k => k)

theorem Job.Keeps.svChain {j : Job} (h : Job.Keeps σ j) :
    Job.Keeps σ (svChain j) := by
  unfold Machine.svChain
  exact h.startChain

theorem Job.Keeps.svIfStatus {j : Job} (h : Job.Keeps σ j) :
    Job.Keeps σ (svIfStatus j) := by
  unfold Machine.svIfStatus
  split
  · exact .ite h.startChain h.finish
  · exact h.finish

theorem Job.Keeps.svBarrier {j : Job} (h : Job.Keeps σ j) :
    Job.Keeps σ (svBarrier j) := by
  unfold Machine.svBarrier
  exact .ite h.stage h.finish

theorem Job.Keeps.svSignal {j : Job} (h : Job.Keeps σ j) :
    Job.Keeps σ (svSignal j) := by
  unfold Machine.svSignal
  exact .finish (h.need.act (fun _ k => k.groomPost))

theorem Job.Keeps.svTimer {j : Job} (h : Job.Keeps σ j) :
    Job.Keeps σ (svTimer j) := by
  unfold Machine.svTimer
  exact .finish (h.need.act (fun _ k => k.aside))

theorem Job.Keeps.svCounter {j : Job} (h : Job.Keeps σ j) :
    Job.Keeps σ (svCounter j) := by
  unfold Machine.svCounter
  exact .finish (h.act (fun _ k => k.aside))

theorem Job.Keeps.svMark {j : Job} (h : Job.Keeps σ j) :
    Job.Keeps σ (svMark j) := by
  unfold Machine.svMark
  exact h.post.finish

theorem Job.Keeps.svFlush {j : Job} (h : Job.Keeps σ j) :
    Job.Keeps σ (svFlush j) := by
  unfold Machine.svFlush
  exact .await (.ite h.ownSeq.mark.stage h) (fun _ k => k.finish)

/-! ### Microwords -/

theorem State.Keeps.faultEnd {s : State} {g : Nat} {c : Ctx} {st : Nat} (h : σ.Keeps s) :
    σ.Keeps (s.faultEnd g c st) := by
  unfold State.faultEnd
  exact h.endRecord

theorem State.Keeps.micro {s : State} {g : Fin 8} {ecc : Ecc} {is : Nat → Bool} {f : Ctx → Nat → Machine.State → Machine.State}
    (h : σ.Keeps s) (hf : ∀ x0 x1 x2, σ.Keeps x2 → σ.Keeps (f x0 x1 x2)) :
    σ.Keeps (s.micro g ecc is f) := by
  unfold State.micro
  split
  · exact h
  · refine .ite h ?_
    refine .ite h.faultEnd ?_
    refine .ite h.reach15.machineCheck ?_
    refine .ite (.faultEnd (.ite h.reach15.sat h.reach15)) ?_
    exact .ite (hf _ _ _ (.ite h.reach15.sat h.reach15)) h

theorem State.Keeps.setCtx {s : State} {g : Nat} {c : Ctx} (h : σ.Keeps s) :
    σ.Keeps (s.setCtx g c) := by
  unfold State.setCtx
  exact h.setGroom

theorem State.Keeps.execMicroRet {s : State} {g : Fin 8} {fetch : Ecc} (h : σ.Keeps s) :
    σ.Answers (execMicroRet g fetch s) := by
  unfold Machine.execMicroRet
  refine .next ?_
  refine .micro h (fun _ _ _ k => ?_)
  split
  · exact k.faultEnd
  · exact k.setCtx

theorem State.Keeps.execLd {s : State} {g : Fin 8} {fetch : Ecc} (h : σ.Keeps s) :
    σ.Answers (execLd g fetch s) := by
  unfold Machine.execLd
  refine .next ?_
  refine .micro h (fun _ _ _ k => ?_)
  dsimp only
  split
  · exact k.setCtx
  · exact k.read.setCtx

theorem State.Keeps.execHld {s : State} {g : Fin 8} {fetch ecc : Ecc} (h : σ.Keeps s) :
    σ.Answers (execHld g fetch ecc s) := by
  unfold Machine.execHld
  refine .ite (.next h) ?_
  refine .next ?_
  refine .micro h (fun _ _ _ k => .ite (.ite k.eccRead.accessError.setCtx k.eccRead.setCtx) k.accessError.setCtx)

theorem State.Keeps.yieldPoint {s : State} {g : Nat} {c : Ctx} {after : Yielding} (h : σ.Keeps s) :
    σ.Keeps (s.yieldPoint g c after) := by
  unfold State.yieldPoint
  exact .ite h.faultEnd (.ite h.faultEnd (.ite h.faultEnd h.setCtx))

theorem State.Keeps.commitOne {g : Fin 8} {x : State × Ctx} {e : Nat × Word} (h : σ.Keeps x.1) : σ.Keeps (commitOne g x e).1 :=
    by
  unfold Machine.commitOne
  dsimp only
  split
  · exact h.write
  · split
    · exact h.write
    · exact h.write

theorem State.Keeps.commit {s : State} {g : Fin 8} {c : Ctx} (h : σ.Keeps s) :
    σ.Keeps (s.commit g c).1 := by
  exact .foldlFst (x := (s, c)) h fun y _ k => State.Keeps.commitOne k

theorem State.Keeps.execCommitDone {s : State} {g : Fin 8} (h : σ.Keeps s) :
    σ.Answers (execCommitDone g s) := by
  unfold Machine.execCommitDone
  split
  · exact .next h
  · dsimp only
    split
    · exact .next h
    · exact .next h
    · exact .next h
    · exact .next (.ite h.faultEnd h.commit.setCtx)
    · exact .next (.ite h.faultEnd h.commit.faultEnd)
    · exact .next (.ite h.faultEnd h.commit.setCtx.groomPost)
    · exact .next (.ite h.faultEnd h.commit.setCtx)

theorem State.Keeps.execSleepEnd {s : State} {g : Fin 8} (h : σ.Keeps s) :
    σ.Answers (execSleepEnd g s) := by
  unfold Machine.execSleepEnd
  split
  · exact .next h
  · exact .ite (.next h) (.next (.ite h.aside.faultEnd h.aside.setCtx))

theorem State.Keeps.execContextResume {s : State} {g : Fin 8} {i : Fin 4} (h : σ.Keeps s) :
    σ.Answers (execContextResume g i s) := by
  unfold Machine.execContextResume
  refine .ite (.next h) ?_
  split
  · exact .next h
  · exact .next (.ite h.setGroom.faultEnd h.setGroom)

theorem State.Keeps.execGroomWatchdog {s : State} {g : Fin 8} (h : σ.Keeps s) :
    σ.Answers (execGroomWatchdog g s) := by
  unfold Machine.execGroomWatchdog
  split
  · exact .next h
  · refine .next ?_
    refine .groomReset ?_
    refine .countReset ?_
    refine .logOffer ?_
    refine .event ?_
    refine .sat ?_
    refine .foldl ?_ fun _ _ k => ?_
    · split
      · exact h.commit
      · exact h.commit
      · exact h.commit
      · exact h.commit
      · exact h
    · exact k.endOne

theorem State.Keeps.execBadOp {s : State} {g : Fin 8} {ring : Option (Fin 32768)} (h : σ.Keeps s) :
    σ.Answers (execBadOp g ring s) := by
  unfold Machine.execBadOp
  have k := h.take (g := g) (ring := ring.map Fin.val) (ecc := fun _ => .clean) (ok := fun r => !r.cancel && decide (0x5F <
      r.op))
  split <;> rename_i hx <;> rw [hx] at k
  · exact .next h
  · exact .next k
  · exact .next (.beginRecord k)

theorem State.Keeps.cancelOne {s : State} {g : Nat} {r : Record} (h : σ.Keeps s) :
    σ.Keeps (s.cancelOne g r) := by
  unfold State.cancelOne
  exact .ite h.setRing.endOne h.setRing.sat

theorem State.Keeps.abortTags {s : State} {o tag : Nat} (h : σ.Keeps s) :
    σ.Keeps (s.abortTags o tag) := by
  unfold State.abortTags
  exact h.foldl (fun _ _ k => k.setGroom)

theorem State.Keeps.execCancelRecord {s : State} {g : Fin 8} {ring : Option (Fin 32768)} (h : σ.Keeps s) :
    σ.Answers (execCancelRecord g ring s) := by
  unfold Machine.execCancelRecord
  have k := h.take (g := g) (ring := ring.map Fin.val) (ecc := fun _ => .clean) (ok := fun r => r.cancel)
  split <;> rename_i hx <;> rw [hx] at k
  · exact .next h
  · exact .next k
  · have hs : σ.Keeps _ := k
    refine .ite (.next hs.sat.settle) (.ite (.next hs.endRecord) (.next (.endRecord (.foldl ?_ fun _ _ k => k.passCancelled))))
    exact .abortTags (hs.foldl fun _ _ k => k.cancelOne)

theorem State.Keeps.execBadent {s : State} {n : Fin 32768} {ecc : Ecc} (h : σ.Keeps s) :
    σ.Answers (execBadent n ecc s) := by
  unfold Machine.execBadent
  split
  · exact .next h
  · exact .ite (.next h.eccRead) (.next h.eccRead.ringSet.takeHead)

theorem State.Keeps.execBackpDrop {s : State} {g : Fin 8} (h : σ.Keeps s) :
    σ.Answers (execBackpDrop g s) := by
  unfold Machine.execBackpDrop
  dsimp only
  split
  · exact .next h
  · exact .next h.setRing.ringLose.countLoss.ringFlags

theorem State.Keeps.postTimers {s : State} (h : σ.Keeps s) :
    σ.Keeps s.postTimers := by
  unfold State.postTimers
  exact .ite h (h.aside.foldl (fun _ _ k => k.post))

theorem State.Keeps.idleTick {s : State} (h : σ.Keeps s) :
    σ.Keeps s.idleTick := by
  unfold State.idleTick
  exact h.aside.postTimers

/-! ### Every command -/

/-- Each command answers a next state, and keeps what each operation keeps. -/
theorem State.Keeps.exec {s : State} (h : σ.Keeps s) (c : Instr) : σ.Answers (exec c s) := by
  cases c with
  | vbakPresent => exact .ite (.next h.aside) (.next h.aside.enterDev.lanAside)
  | lanternPor => exact h.execLanternPor
  | vinInRange => exact h.execVinInRange
  | vinLost => exact h.execVinLost
  | resetNAssert => exact .ite (.next h) (.next (.episodeJoin (.countReset (.ite h.aside.wideReset h.aside))))
  | resetNRelease => exact .ite (.next h) (.next h.aside.yardDue.episodeEnd)
  | perstNAssert => exact .ite (.next h) (.next h.aside.countReset.episodeJoin.perstApply)
  | perstNRelease => exact .ite (.next h) (.next h.aside.newKeys.srstRelease.portsDue.episodeEnd)
  | islandLock => exact h.execIslandLock
  | islandLockFail => exact .ite (.next h) (.next (.logOffer (.ite h.wb.wb h.wb.wb.m3Failed)))
  | optionLoadDone => exact h.execOptionLoadDone
  | bootDone => exact h.execBootDone
  | autoEpochArm => exact .ite (.next h.epochArm.aside) (.next h)
  | trainingDone => exact h.execTrainingDone
  | tackRoomLoadDone => exact h.execTackRoomLoadDone
  | linkUp => exact .ite (.next h) (.next h.setLink.m3Exit)
  | linkDown => exact .ite (.next h) (.next h.setLink.sat.portDown)
  | hotReset => exact .ite (.next h) (.ite (.next h.sat.aside) (.next h.sat.portDown))
  | flr => exact h.execFlr
  | configRequest => exact .ite (.next h) (.ite (.next h.complete) (.ite (.next h.unsupported) (.next h.config)))
  | unsupportedRequest => exact .next h.unsupported
  | bar4Access => exact h.execBar4Access
  | msixUnmask => exact h.execMsixUnmask
  | fnmapWrite => exact .next (h.guarded (fun _ k => k.fnmapWrite))
  | vecWrite => exact .next (h.guarded (fun _ k => k.vecWrite))
  | registerWrite => exact .next h.write
  | unreachableAccess => exact h.execUnreachableAccess
  | rsSnapshotRead => exact h.execRsSnapshotRead
  | wideWriteCommit => exact .next h.write
  | pageEnable => exact .next h.headerAccess
  | pageSoftReset => exact .next h.headerAccess
  | pageSoftResetDone => exact h.execPageSoftResetDone
  | pageLockWrite => exact .next h.headerAccess
  | pageOwnerWrite => exact .next h.headerAccess
  | modCmdM5 => exact .next h.modCmd
  | modCmdM10 => exact .next h.modCmd
  | modCmdM4 => exact .next h.modCmd
  | modCmdM2 => exact .next h.modCmd
  | modPcmdM4 => exact .next h.modPcmd
  | modPcmdM6 => exact .next h.modPcmd
  | modPcmdM7 => exact .next h.modPcmd
  | modPcmdM8 => exact .next h.modPcmd
  | modPcmdM9 => exact .next h.modPcmd
  | deviceTransitionDone => exact h.execDeviceTransitionDone
  | domainTransitionDone => exact h.execDomainTransitionDone
  | wakeLockTimeout => exact h.execWakeLockTimeout
  | evInEdge => exact h.execEvInEdge
  | channelPark => exact .next (h.guarded (fun _ k => k.stlParkWrite))
  | channelUnpark => exact .next (h.guarded (fun _ k => k.stlParkWrite))
  | parkComplete => exact .ite (.next h.parkDone) (.next h)
  | assignWrite => exact .next (h.guarded (fun _ k => k.assignWrite))
  | loadStrobe => exact .next (h.guarded (fun _ k => k.lvlCtrlWrite))
  | settlingEnd => exact .next h.wb
  | broadcastPreload => exact .next (h.guarded (fun _ k => k.bcastValWrite))
  | driverShort => exact .ite (.next h) (.next (.ite (.hwPark (.event (.ite h h.wb.sat))) (.event (.ite h h.wb.sat))))
  | failCountClear => exact .next (h.guarded (fun _ k => k.cmpCtrlWrite))
  | switchBatchGo => exact .next (h.guarded (fun _ k => k.swmCtrlWrite))
  | switchBatchResume => exact h.execSwitchBatchResume
  | switchBatchDone => exact h.execSwitchBatchDone
  | switchFault => exact h.execSwitchFault
  | wearWarnWrite => exact .next (h.guarded (fun _ k => k.wearWarnWrite))
  | epochArm => exact .next (h.guarded (fun _ k => k.tmbCtrlWrite))
  | epochSet => exact h.execEpochSet
  | syncInPulse => exact h.execSyncInPulse
  | timingSetWrite => exact .ite (.next (h.guarded (fun _ k => k.periodWrite))) (.next (h.guarded (fun _ k => k.edgeWrite)))
  | timingSetCheckDone => exact .next (.wb (.aside (h.foldl (fun _ _ k => k.wb))))
  | lateEdgeFire => exact h.execLateEdgeFire
  | seqStart => exact .next (h.guarded (fun _ k => k.seqCtrlWrite))
  | seqStop => exact .next (h.guarded (fun _ k => k.seqCtrlWrite))
  | seqAbort => exact .next (h.guarded (fun _ k => k.seqCtrlWrite))
  | vector0Begin => exact h.execVector0Begin
  | cont => exact .next (h.issue (fun _ _ _ k => k.noFx))
  | rpt => exact .next (h.issue (fun _ _ _ k => k.noFx))
  | loop => exact .next (h.issue (fun _ _ _ k => k.noFx))
  | endl => exact .next (h.issue (fun _ _ _ k => k.noFx))
  | jmp => exact .next (h.issue (fun _ _ _ k => k.noFx))
  | call => exact .next (h.issue (fun _ _ _ k => k.noFx))
  | ret => exact .next (h.issue (fun _ _ _ k => k.noFx))
  | brf => exact .next (h.issue (fun _ _ _ k => k.noFx))
  | bre => exact .next (h.issue (fun _ _ _ k => k.noFx))
  | halt => exact .next (h.issue (fun _ _ _ k => k.noFx))
  | ldlv => exact .next (h.issue (fun _ _ _ k => k.fxLdlv))
  | trig => exact .next (h.issue (fun _ _ _ k => k.fxTrig))
  | calgap => exact .next (h.issue (fun _ _ _ k => k.noFx))
  | mark => exact .next (h.issue (fun _ _ _ k => k.fxMark))
  | pif => exact .next (h.issue (fun _ _ _ k => k.noFx))
  | pelse => exact .next (h.issue (fun _ _ _ k => k.noFx))
  | pjoin => exact .next (h.issue (fun _ _ _ k => k.noFx))
  | swhile => exact .next (h.issue (fun _ _ _ k => k.noFx))
  | send => exact .next (h.issue (fun _ _ _ k => k.noFx))
  | holdEnd => exact .ite (.next h) (.next h.atTick.starveCount.setSeq.setSeqState)
  | drainComplete => exact h.execDrainComplete
  | snapshotPost => exact h.execSnapshotPost
  | captureRecordWritten => exact h.execCaptureRecordWritten
  | captureFlushed => exact .ite (.next h.wb.event) (.next h)
  | startAddrWrite => exact .next (h.guarded (fun _ k => k.startAddrWrite))
  | startWindowLoaded => exact h.execStartWindowLoaded
  | prime => exact .next (h.guarded (fun _ k => k.strmCtrlWrite))
  | primeDone => exact h.execPrimeDone
  | sdirWrite => exact .next (h.guarded (fun _ k => k.sdirWrite))
  | granuleResident => exact h.execGranuleResident
  | timArm => exact .next (h.guarded (fun _ k => k.timArmWrite))
  | vernierArm => exact .next (h.guarded (fun _ k => k.timArmWrite))
  | timStop => exact .next (h.guarded (fun _ k => k.timStopWrite))
  | timEvent => exact .ite (.next h.timTake) (.next h)
  | vernierEvent => exact .ite (.next h) (.ite (.next h.sat) (.ite (.next h.setVernier) (.next h.setVernier.event)))
  | tdrLaunch => exact h.execTdrLaunch
  | timResultStored => exact h.execTimResultStored
  | timEntryPost => exact .ite (.next h) (.ite (.next h.setStall.timPost.timSettle) (.next h.setStall.vernierPost))
  | timFifoRead => exact .ite (.next h.timFifoPop) (.next h.accessError.aside)
  | vernierFifoRead => exact .ite (.next h.vernierFifoPop) (.next h.accessError.aside)
  | pmuOutputEnable => exact .next (h.guarded (fun _ k => k.pmuCtrlWrite))
  | pmuOutputDisable => exact .next (h.guarded (fun _ k => k.pmuCtrlWrite))
  | pmuModeWrite => exact .next (h.guarded (fun _ k => k.pmuCtrlWrite))
  | pmuRangeWrite => exact .next (h.guarded (fun _ k => k.pmuCtrlWrite))
  | pmuRangeDone => exact h.execPmuRangeDone
  | pmuForceWrite => exact .next (h.guarded (fun _ k => k.pmuForceWrite))
  | pmuClampWrite => exact .next (h.guarded (fun _ k => k.pmuClampWrite))
  | pmuIlim => exact .ite (.next h.sat.pmuFlag) (.next h)
  | pmuShut => exact .ite (.next (.event (.pmuFlag (.wb (h.foldl (fun _ _ k => .ite k.pmuOutOff k)))))) (.next h)
  | pmuVclamp => exact .ite (.next h.pmuFlag) (.next h)
  | senseOpen => exact .ite (.next h.setPmu.pmuFlag) (.next h)
  | pmuGangWrite => exact .next (h.guarded (fun _ k => k.pmuGangWrite))
  | waveUpdate => exact .next (h.foldl (fun _ _ k => k.waveStep))
  | waveTableWrite => exact .next (h.guarded (fun _ k => k.wtDataWrite))
  | waveTableDefault => exact .next (h.guarded (fun _ k => k.wtIdxWrite))
  | waveTableDefaultDone => exact .ite (.next h.aside.setPmu.wb) (.next h)
  | cnvArm => exact .next (h.guarded (fun _ k => k.cnvArmWrite))
  | cnvStop => exact .next (h.guarded (fun _ k => k.cnvStopWrite))
  | cnvTickTrigger => exact .ite (.next h) (.next (h.atTick.foldl (fun _ _ k => k.cnvTrigger)))
  | apertureStart => exact .ite (.next h) (.next h.atNow.cnvReach.cnvBegin)
  | apertureEnd => exact h.execApertureEnd
  | cnvResultStored => exact h.execCnvResultStored
  | mainsCrossing => exact .ite (.next h.aside) (.ite (.next h.lineLose) (.next h.aside.lineJudge))
  | mainsLost => exact .next h.lineLose
  | refEnable => exact .next (h.guarded (fun _ k => k.refCtrlWrite))
  | refReady => exact .ite (.next h.wb.event) (.next h)
  | acqArm => exact .next (h.guarded (fun _ k => k.acqCtrlWrite))
  | acqStop => exact .next (h.guarded (fun _ k => k.acqCtrlWrite))
  | acqForce => exact .next (h.guarded (fun _ k => k.acqCtrlWrite))
  | acqSlotEnd => exact h.execAcqSlotEnd
  | rearmEnd => exact h.execRearmEnd
  | wchCfgWrite => exact .next (h.guarded (fun _ k => k.wchCfgWrite))
  | wchThrWrite => exact .next (h.guarded (fun _ k => k.wchThrWrite))
  | wchSampleTick => exact .ite (.next (h.aside.watchLatch.foldl (fun _ _ k => k.watchJudge))) (.next h.aside.watchLatch)
  | wchResolve => exact .ite (.next h.watchLatch.watchJudge) (.next h)
  | wchCrossing => exact .ite (.next h.watchJudge) (.next h)
  | wchRelease => exact .ite (.next h.watchJudge) (.next h)
  | tripNRelease => exact .ite (.next h) (.next h.aside)
  | farrierRun => exact .next (h.guarded (fun _ k => k.farCtrlWrite))
  | farrierAbort => exact .next (h.guarded (fun _ k => k.farCtrlWrite))
  | farrierStore => exact .next (h.guarded (fun _ k => k.farCtrlWrite))
  | farrierStoreDone => exact h.execFarrierStoreDone
  | farrierCopyDone => exact h.execFarrierCopyDone
  | farrierStepStart => exact h.execFarrierStepStart
  | farrierStepEnd => exact h.execFarrierStepEnd
  | farrierSwitchover => exact h.execFarrierSwitchover
  | swLate => exact .ite (.next h.wb.event) (.next h)
  | farrierWindowArm => exact .next (h.guarded (fun _ k => k.farWinCfgWrite))
  | farrierWindowOpen => exact h.execFarrierWindowOpen
  | farrierWindowEnd => exact .ite (.next h.setFar.wb.wb) (.next h)
  | indexNChange => exact .next (.ite h.aside.farAbort h.aside)
  | svNop => exact .next (h.service (fun _ k => k.svNop))
  | svRegRead => exact .next (h.service (fun _ k => k.svRegRead))
  | svRegWrite => exact .next (h.service (fun _ k => k.svRegWrite))
  | svRegRmw => exact .next (h.service (fun _ k => k.svRegRmw))
  | svRegPoll => exact .next (h.service (fun _ k => k.svRegPoll))
  | svRegBatch => exact .next (h.service (fun _ k => k.svRegBatch))
  | svHayCopy => exact .next (h.service (fun _ k => k.svHayCopy))
  | svHayFill => exact .next (h.service (fun _ k => k.svHayFill))
  | svHayCrc => exact .next (h.service (fun _ k => k.svHayCrc))
  | svHayCompare => exact .next (h.service (fun _ k => k.svHayCompare))
  | svDelay => exact .next (h.service (fun _ k => k.svDelay))
  | svWaitEvent => exact .next (h.service (fun _ k => k.svWaitEvent))
  | svSeqRun => exact .next (h.service (fun _ k => k.svSeqRun))
  | svSeqBatch => exact .next (h.service (fun _ k => k.svSeqBatch))
  | svLevels => exact .next (h.service (fun _ k => k.svLevels))
  | svSwitch => exact .next (h.service (fun _ k => k.svSwitch))
  | svContact => exact .next (h.service (fun _ k => k.svContact))
  | svTdr => exact .next (h.service (fun _ k => k.svTdr))
  | svShorts => exact .next (h.service (fun _ k => k.svShorts))
  | svKelvin => exact .next (h.service (fun _ k => k.svKelvin))
  | svContactPmu => exact .next (h.service (fun _ k => k.svContact))
  | svOpenMap => exact .next (h.service (fun _ k => k.svOpenMap))
  | svContactReport => exact .next (h.service (fun _ k => k.svContactReport))
  | svIndexWait => exact .next (h.service (fun _ k => k.svIndexWait))
  | svForceMeasure => exact .next (h.service (fun _ k => k.svForceMeasure))
  | svSweep => exact .next (h.service (fun _ k => k.svSweep))
  | svSweepLog => exact .next (h.service (fun _ k => k.svSweepLog))
  | svLeakage => exact .next (h.service (fun _ k => k.svLeakage))
  | svVohIoh => exact .next (h.service (fun _ k => k.svVohIoh))
  | svVolIol => exact .next (h.service (fun _ k => k.svVolIol))
  | svIddq => exact .next (h.service (fun _ k => k.svIddq))
  | svSupplyRamp => exact .next (h.service (fun _ k => k.svSupplyRamp))
  | svGangSupply => exact .next (h.service (fun _ k => k.svGangSupply))
  | svWaveStart => exact .next (h.service (fun _ k => k.svWaveStart))
  | svWaveStop => exact .next (h.service (fun _ k => k.svWaveStop))
  | svCnvBatch => exact .next (h.service (fun _ k => k.svCnvBatch))
  | svAcqRecord => exact .next (h.service (fun _ k => k.svAcqRecord))
  | svWatchSetup => exact .next (h.service (fun _ k => k.svWatchSetup))
  | svWatchTest => exact .next (h.service (fun _ k => k.svWatchTest))
  | svPmuSafe => exact .next (h.service (fun _ k => k.svPmuSafe))
  | svTimRun => exact .next (h.service (fun _ k => k.svTimRun))
  | svPeriod => exact .next (h.service (fun _ k => k.svPeriod))
  | svJitter => exact .next (h.service (fun _ k => k.svJitter))
  | svSkew => exact .next (h.service (fun _ k => k.svSkew))
  | svDelayMeas => exact .next (h.service (fun _ k => k.svDelayMeas))
  | svFreq => exact .next (h.service (fun _ k => k.svFreq))
  | svVernierDump => exact .next (h.service (fun _ k => k.svVernierDump))
  | svStampReduce => exact .next (h.service (fun _ k => k.svStampReduce))
  | svStats => exact .next (h.service (fun _ k => k.svStats))
  | svHistogram => exact .next (h.service (fun _ k => k.svHistogram))
  | svLimits => exact .next (h.service (fun _ k => k.svLimits))
  | svBin => exact .next (h.service (fun _ k => k.svBin))
  | svBinMap => exact .next (h.service (fun _ k => k.svBinMap))
  | svSiteSummary => exact .next (h.service (fun _ k => k.svSiteSummary))
  | svMerge => exact .next (h.service (fun _ k => k.svMerge))
  | svOutlier => exact .next (h.service (fun _ k => k.svOutlier))
  | svCapScan => exact .next (h.service (fun _ k => k.svCapScan))
  | svBitmap => exact .next (h.service (fun _ k => k.svBitmap))
  | svRepair => exact .next (h.service (fun _ k => k.svRepair))
  | svRepairVerify => exact .next (h.service (fun _ k => k.svRepairVerify))
  | svWaferMap => exact .next (h.service (fun _ k => k.svWaferMap))
  | svYield => exact .next (h.service (fun _ k => k.svYield))
  | svSort => exact .next (h.service (fun _ k => k.svSort))
  | svFailCount => exact .next (h.service (fun _ k => k.svFailCount))
  | svCalItem => exact .next (h.service (fun _ k => k.svCalItem))
  | svCalStore => exact .next (h.service (fun _ k => k.svCalStore))
  | svWearReport => exact .next (h.service (fun _ k => k.svWearReport))
  | svTempReport => exact .next (h.service (fun _ k => k.svTempReport))
  | svLogRead => exact .next (h.service (fun _ k => k.svLogRead))
  | svSelftest => exact .next (h.service (fun _ k => k.svSelftest))
  | svHbmScrub => exact .next (h.service (fun _ k => k.svHbmScrub))
  | svRomCheck => exact .next (h.service (fun _ k => k.svRomCheck))
  | svChain => exact .next (h.service (fun _ k => k.svChain))
  | svBarrier => exact .next (h.service (fun _ k => k.svBarrier))
  | svIfStatus => exact .next (h.service (fun _ k => k.svIfStatus))
  | svSignal => exact .next (h.service (fun _ k => k.svSignal))
  | svTimer => exact .next (h.service (fun _ k => k.svTimer))
  | svCounter => exact .next (h.service (fun _ k => k.svCounter))
  | svMark => exact .next (h.service (fun _ k => k.svMark))
  | svFlush => exact .next (h.service (fun _ k => k.svFlush))
  | svPatch => exact .next (h.service (fun _ k => k))
  | cancelRecord => exact h.execCancelRecord
  | alu => exact .next (h.micro (fun _ _ _ k => k.aside.setCtx))
  | ldi => exact .next (h.micro (fun _ _ _ k => k.setCtx))
  | ld => exact h.execLd
  | st => exact .next (h.micro (fun _ _ _ k => .ite k.faultEnd k.setCtx))
  | hld => exact h.execHld
  | hst => exact .ite (.next h) (.next (h.micro (fun _ _ _ k => .ite k.hayMerge.setCtx k.accessError.setCtx)))
  | seta => exact .next (h.micro (fun _ _ _ k => k.setCtx))
  | br => exact .next (h.micro (fun _ _ _ k => k.setCtx))
  | microCall => exact .next (h.micro (fun _ _ _ k => .ite k.faultEnd k.setCtx))
  | microRet => exact h.execMicroRet
  | yield => exact .next (h.micro (fun _ _ _ k => k.yieldPoint))
  | microEnd => exact .next (h.micro (fun _ _ _ k => k.yieldPoint))
  | microPost => exact .next (h.micro (fun _ _ _ k => k.yieldPoint))
  | microTick => exact .next (h.micro (fun _ _ _ k => k.setCtx))
  | sleep => exact .next (h.micro (fun _ _ _ k => k.yieldPoint))
  | sleepEnd => exact h.execSleepEnd
  | commitDone => exact h.execCommitDone
  | contextResume => exact h.execContextResume
  | groomWatchdog => exact h.execGroomWatchdog
  | groomEnable => exact .next h.write32
  | ringAssign => exact .next (h.guarded (fun _ k => k.asgCmdWrite))
  | ringEnable => exact .next h.ringDescWrite
  | ringDisable => exact .next h.ringDescWrite
  | doorbell => exact h.execDoorbell
  | backpAccept => exact h.execBackpAccept
  | ringTimer => exact .ite (.next h.ringSignal) (.next h)
  | remap => exact .next (h.guarded (fun _ k => k.hbmCtrlWrite))
  | remapDone => exact .ite (.next (.wb (h.useFree.hayForget.same rfl))) (.next h)
  | rateRequest => exact .next (h.guarded (fun _ k => k.rateCmdWrite))
  | heldRateStart => exact h.execHeldRateStart
  | rateSwitchDone => exact h.execRateSwitchDone
  | refreshDue => exact h.execRefreshDue
  | trackingStep => exact .next h.setHbmSt
  | hbmTempUpdate => exact .next (.ite h.wr.setHbm.event h.wr.setHbm)
  | rowRepair => exact .next (h.guarded (fun _ k => k.repairCmdWrite))
  | rowRepairDone => exact h.execRowRepairDone
  | regionWrite => exact .next (h.guarded (fun _ k => k.rgnCfgWrite))
  | penReset => exact .next (h.guarded (fun _ k => k.penRstWrite))
  | penResetDone => exact .ite (.next h) (.next h.setPenBusy.srstRelease.aside)
  | svnAdvance => exact .next (h.guarded (fun _ k => k.svnCmdWrite))
  | svnAdvanceDone => exact h.execSvnAdvanceDone
  | debugNonce => exact .next (h.guarded (fun _ k => k.dbgCmdWrite))
  | debugSubmit => exact .next (h.guarded (fun _ k => k.dbgCmdWrite))
  | debugResult => exact h.execDebugResult
  | tamperEvent => exact .ite (.next h) (.next h.tamperFound)
  | rd => exact .next (h.frame (fun _ k => k))
  | wr => exact .next (h.frame (fun _ k => k.aside))
  | fetch => exact .next (h.frame (fun _ k => k.aside))
  | win => exact .next (h.frame (fun _ k => k.wr))
  | frameReject => exact .ite (.next h) (.ite (.next h.aside) (.next h.frameReject))
  | wrCommitComplete => exact h.execWrCommitComplete
  | fetchComplete => exact h.execFetchComplete
  | masterTransfer => exact .next (h.guarded (fun _ k => k.mctrlWrite))
  | masterTransferDone => exact h.execMasterTransferDone
  | multiMasterFault => exact h.execMultiMasterFault
  | wvnSlot => exact h.execWvnSlot
  | thermEnforce => exact h.execThermEnforce
  | forcedHold => exact .ite (.next h.thermCause) (.next h)
  | clockLoss => exact h.execClockLoss
  | logEntryWrite => exact h.execLogEntryWrite
  | logFreeze => exact .next h.lanAt.freeze
  | tickMark => exact .next h.lanAside.logOffer
  | oscFail => exact .ite (.next h) (.next h.lanAside)
  | thaw => exact .next (h.guarded (fun _ k => k.logCtrlWrite))
  | clear => exact .next (h.guarded (fun _ k => k.logCtrlWrite))
  | hostMark => exact .next (h.guarded (fun _ k => k.logMarkWrite))
  | extest => exact .next h.aside
  | linkTrainingTimeout => exact .ite (.next h) (.ite (.next h.m3Failed) (.ite (.next h.aside.m3Exit) (.next h)))
  | badOp => exact h.execBadOp
  | badent => exact h.execBadent
  | backpDrop => exact h.execBackpDrop
  | grmUsedUpdate => exact .next (h.foldl (fun _ _ k => k.wf))

end

/-- What a step on a queue keeps is what its command keeps, and one tick with no command waiting keeps it too. -/
theorem step_keeps {s t : State} (h : step s = .next t) : ∃ q, ({ s with pending := q } : State).Keeps t := by
  unfold step at h
  split at h
  · rename_i hq
    obtain rfl := Host.Outcome.next.inj h
    exact ⟨s.pending, (State.Keeps.refl s).idleTick⟩
  · rename_i c q _
    obtain ⟨u, hu, k⟩ := (State.Keeps.refl { s with pending := q }).exec c
    obtain rfl := Host.Outcome.next.inj (hu.symm.trans h)
    exact ⟨q, k⟩

/-- Settles O8: a programming starts above the counter and ends at its target or below it, and nothing else moves it. -/
theorem stepNeverLowersTheAntiRollbackCounter : Obligations.StepNeverLowersTheAntiRollbackCounter := by
  unfold Obligations.StepNeverLowersTheAntiRollbackCounter
  intro s t hs h
  obtain ⟨q, k⟩ := step_keeps h
  exact k.svn hs

/-- Settles O5: every operation puts, drops and keeps entries of the stores in order. -/
theorem stepKeepsCanonicalStores : Obligations.StepKeepsCanonicalStores := by
  unfold Obligations.StepKeepsCanonicalStores
  intro s t hs h
  obtain ⟨q, k⟩ := step_keeps h
  exact k.stores hs

/-- Settles O7: an entry joins a queue with room alone, and the write pointer counts modulo 512. -/
theorem stepKeepsTheLogbookBounds : Obligations.StepKeepsTheLogbookBounds := by
  unfold Obligations.StepKeepsTheLogbookBounds
  intro s t hs h
  obtain ⟨q, k⟩ := step_keeps h
  exact k.log hs

/-- Settles O4: no operation touches the queue of waiting commands. -/
theorem commandsLeaveTheQueue : Obligations.CommandsLeaveTheQueue := by
  unfold Obligations.CommandsLeaveTheQueue
  intro c s t h
  obtain ⟨u, hu, k⟩ := (State.Keeps.refl s).exec c
  obtain rfl := Host.Outcome.next.inj (hu.symm.trans h)
  exact k.queue

/-- Settles O3: each command answers. -/
theorem everyCommandAnswers : Obligations.EveryCommandAnswers := by
  unfold Obligations.EveryCommandAnswers
  intro c s
  obtain ⟨t, ht, _⟩ := (State.Keeps.refl s).exec c
  exact ⟨t, ht⟩

/-- Settles O1: a step is defined so. -/
theorem stepRunsTheFrontCommand : Obligations.StepRunsTheFrontCommand := by
  unfold Obligations.StepRunsTheFrontCommand
  intro c q s
  rfl

/-- Posting the entries of SV_TIMER that are due lets no time pass. -/
theorem postTimers_now (s : State) : s.postTimers.now = s.now := by
  unfold State.postTimers
  dsimp only
  split
  · rfl
  · exact foldl_keeps (fun x : State => x.now = s.now) (fun x e hx => (congrArg State.now (entryFrame_offer x _ _ _ _ _).eq).trans hx)
      _ rfl

/-- With no entry of SV_TIMER due nothing is posted. -/
theorem postTimers_none {s : State} (h : ∀ e ∈ s.cluster.timers, s.now < e.due) : s.postTimers = s := by
  have hdue : (s.cluster.timers.filter fun e => decide (e.due ≤ s.now)) = [] :=
    List.filter_eq_nil_iff.mpr fun e he => by simp [h e he]
  unfold State.postTimers
  simp only [hdue, List.isEmpty_nil, if_true]

/-- Settles O2: the tick passes, and the entries that are due are all that it posts. -/
theorem idleStepPassesOneTick : Obligations.IdleStepPassesOneTick := by
  unfold Obligations.IdleStepPassesOneTick
  intro s hq
  have hstep : step s = .next s.idleTick := by
    unfold step
    rw [hq]
  refine ⟨_, hstep, postTimers_now _, fun h => ?_⟩
  have hidle : s.idleTick = { s with now := s.now + 1 } := postTimers_none h
  rw [hidle]
  exact ⟨rfl, rfl, rfl, hq⟩

/-- Settles O6: the state at reset lists nothing. -/
theorem resetMeetsTheInvariants : Obligations.ResetMeetsTheInvariants := by
  unfold Obligations.ResetMeetsTheInvariants
  exact ⟨rfl, by decide, by decide, fun n hn => nomatch hn⟩

end Sys2Proof.Machine

/-!
PROOF. Microwords (R498, R499), the stores that they stage and the yield points that commit them (R489 to R493): what each word
leaves of its routine, and that it leaves the rest of the part; and O43, O44 and O60.
-/

namespace Sys2Proof.Machine

/-! ### Grooms -/

section
variable (s : State) (g : Nat)

@[simp] theorem groom_setGroom_same (v : GroomSt) : (s.setGroom g v).groom g = v := Store.getD_setD_same _ _ _ _

theorem groom_setGroom_ne {g' : Nat} (v : GroomSt) (h : g' ≠ g) : (s.setGroom g v).groom g' = s.groom g' :=
  Store.getD_setD_ne _ _ v h

@[simp] theorem groom_setCtx_same (c : Ctx) : (s.setCtx g c).groom g = { s.groom g with ctx := some c } :=
  groom_setGroom_same s g _

/-- A routine that reaches an address is noted in the cluster, and nothing else changes. -/
theorem reach15_eq (op a : Nat) :
    s.reach15 op a = { s with cluster := { s.cluster with reached := (s.reach15 op a).cluster.reached } } := by
  unfold State.reach15
  dsimp only
  split <;> rfl

@[simp] theorem groom_reach15 (op a : Nat) : (s.reach15 op a).groom g = s.groom g := by
  rw [reach15_eq]
  rfl

/-- A record that ends on a groom with no record list leaves the groom free. -/
theorem groom_endRecord {c : Ctx} {st : Nat} (h : (s.groom g).chains = []) : ((s.endRecord g c st).groom g).ctx = none := by
  unfold State.endRecord
  rw [h]
  simp only [State.settle, groom_setGroom_same]

/-- The STATUS of a record that ends with no record list around it is the last result of its owner and TAG. -/
theorem results_endOne (c : Ctx) (st : Nat) : Store.get? (s.endOne g c st).cluster.results c.rcd.key = some st := by
  have hput : ∀ m : List (Nat × Nat), Store.get? (Store.put m c.rcd.key st) c.rcd.key = some st := fun m => by
    rw [Store.get?_put, if_pos rfl]
  unfold State.endOne
  exact hput _

theorem results_endRecord {c : Ctx} {st : Nat} (h : (s.groom g).chains = []) :
    Store.get? (s.endRecord g c st).cluster.results c.rcd.key = some st := by
  unfold State.endRecord
  rw [h]
  exact results_endOne s g c st

end

/-! ### Running a word -/

section
variable {s : State} {g : Fin 8} {c : Ctx} {w : Nat}

theorem fetches_ctx (h : s.fetches g c w = true) : (s.groom g).ctx = some c := by
  unfold State.fetches at h
  simp only [Bool.and_eq_true, decide_eq_true_eq] at h
  exact h.1.1.1.1.1.1

/-- The part as the routine finds it at its next word. -/
def State.atWord (s : State) (c : Ctx) : State := s.reach15 c.rcd.op (s.fetchAddr c.pc)

/-- The routine as its next word finds it: past the word. -/
def State.pastWord (s : State) (c : Ctx) : Ctx := { c with pc := (s.fetchAddr c.pc + 1) % 2 ^ 15, after := .no }

/-- A word of another row does nothing. -/
theorem micro_of_other (h : s.fetches g c w = true) {is : Nat → Bool} (hw : is w = false) (f : Ctx → Nat → State → State) :
    s.micro g .clean is f = s := by
  unfold State.fetches at h
  simp only [Bool.and_eq_true, Bool.not_eq_true', Bool.or_eq_true, decide_eq_true_eq] at h
  obtain ⟨⟨⟨⟨⟨⟨hc, hr⟩, hg⟩, ha⟩, hp⟩, hx⟩, hl⟩ := h
  have hgo : ¬(s.romCtx c = true ∨ s.groomWaits g = true ∨ (c.after ≠ .no ∧ c.after ≠ .done)) := by
    rcases ha with ha | ha <;> simp [hr, hg, ha]
  unfold State.micro
  simp only [hc]
  rw [if_neg hgo, if_neg (by omega)]
  simp [hx, hl, hw]

/-- What a word runs: its row `f` on the routine past it. -/
theorem exec_word (h : s.fetches g c w = true) {i : Instr} {is : Nat → Bool} {f : Ctx → Nat → State → State}
    (hi : exec i s = .next (s.micro g .clean is f)) (hw : is w = true) :
    exec i s = .next (f (s.pastWord c) w (s.atWord c)) :=
  hi.trans (congrArg Host.Outcome.next (micro_of_fetches h is hw f))

/-- A word that only moves its routine. -/
theorem exec_word_setCtx (h : s.fetches g c w = true) {i : Instr} {is : Nat → Bool} {f : Ctx → Nat → State → State}
    (hi : exec i s = .next (s.micro g .clean is f)) (hw : is w = true) {d : Ctx} {x : State}
    (hf : f (s.pastWord c) w (s.atWord c) = x.setCtx g d) :
    ∃ t d', exec i s = .next t ∧ (t.groom g).ctx = some d' ∧ d' = d ∧ t.regs = x.regs :=
  ⟨_, d, exec_word h hi hw, by rw [hf, groom_setCtx_same], rfl, by rw [hf]; rfl⟩

/-! ### Words that act on the routine alone -/

theorem reg_setReg_ctx (c : Ctx) (i : Nat) (v : Word) : (c.setReg i v).reg i = v := by
  simp [Ctx.reg, Ctx.setReg, Store.getD_put]

theorem word_mod (n : Nat) : word (n % 2 ^ 32) = word n := by
  apply BitVec.eq_of_toNat_eq
  simp [word]

theorem alu_keeps (c : Ctx) (w free : Nat) : (c.alu w free).rcd = c.rcd ∧ (c.alu w free).pc = c.pc := by
  unfold Ctx.alu
  dsimp only
  split <;> exact ⟨rfl, rfl⟩

/-- ALU with OP 0 adds. -/
theorem alu_add (c : Ctx) {w : Nat} (free : Nat) (hop : nfld w 14 4 = 0) :
    let b := if natBit w 5 then nfld w 0 5 else (c.reg (nfld w 0 4)).toNat
    let a := (c.reg (nfld w 6 4)).toNat
    (c.alu w free).reg (nfld w 10 4) = word (a + b) ∧ (c.alu w free).fz = decide ((a + b) % 2 ^ 32 = 0) ∧
      (c.alu w free).fc = decide (2 ^ 32 ≤ a + b) := by
  intro b a
  unfold Ctx.alu
  simp only [hop, aluOp, Nat.reduceEqDiff, if_false, reg_setReg_ctx, word_mod]
  exact ⟨rfl, rfl, rfl⟩

theorem exec_alu_word (h : s.fetches g c w = true) (hw : fmtOf w = 0) :
    ∃ t d, exec (.alu g .clean) s = .next t ∧ (t.groom g).ctx = some d ∧ d = (s.pastWord c).alu w s.free := by
  obtain ⟨t, d, ht, hd, hdd, -⟩ := exec_word_setCtx h (i := .alu g .clean) rfl (by simpa using hw) rfl
  refine ⟨t, d, ht, hd, hdd.trans ?_⟩
  rw [State.atWord, reach15_eq]

theorem exec_ldi_word (h : s.fetches g c w = true) (hw : fmtOf w = 1) :
    ∃ t d, exec (.ldi g .clean) s = .next t ∧ (t.groom g).ctx = some d ∧ d.pc = (s.pastWord c).pc ∧
      (nfld w 12 2 = 0 → d.reg (nfld w 14 4) = word (nfld w 0 12)) := by
  obtain ⟨t, d, ht, hd, rfl, -⟩ := exec_word_setCtx h (i := .ldi g .clean) rfl (by simpa using hw) rfl
  refine ⟨t, _, ht, hd, rfl, fun hsel => ?_⟩
  unfold Ctx.ldi
  dsimp only
  rw [reg_setReg_ctx, hsel]
  rfl

theorem exec_seta_word (h : s.fetches g c w = true) (hw : fmtOf w = 6) :
    ∃ t d, exec (.seta g .clean) s = .next t ∧ (t.groom g).ctx = some d ∧ d.pc = (s.pastWord c).pc ∧
      (natBit w 17 = false → d.areg (nfld w 15 2) = c.reg (nfld w 11 4)) := by
  obtain ⟨t, d, ht, hd, rfl, -⟩ := exec_word_setCtx h (i := .seta g .clean) rfl (by simpa using hw) rfl
  refine ⟨t, _, ht, hd, ?_, fun hpage => ?_⟩
  · unfold Ctx.seta
    dsimp only
    split <;> rfl
  · unfold Ctx.seta
    simp [hpage, Ctx.areg, Store.getD_put, State.pastWord, Ctx.reg]

theorem exec_br_word (h : s.fetches g c w = true) (hw : fmtOf w = 7) :
    ∃ t d, exec (.br g .clean) s = .next t ∧ (t.groom g).ctx = some d ∧ (nfld w 15 3 = 0 → d.pc = nfld w 0 15) ∧
      (nfld w 15 3 = 1 → d.pc = if c.fz then nfld w 0 15 else (s.pastWord c).pc) := by
  obtain ⟨t, d, ht, hd, rfl, -⟩ := exec_word_setCtx h (i := .br g .clean) rfl (by simpa using hw) rfl
  refine ⟨t, _, ht, hd, fun hc => ?_, fun hc => ?_⟩
  · simp [Ctx.br, hc]
  · simp only [Ctx.br, hc]
    change (if c.fz = true then _ else _ : Ctx).pc = _
    split <;> rfl

theorem exec_call_word (h : s.fetches g c w = true) (hw : fmtOf w = 8) (hroom : c.stack.length < 8) :
    ∃ t d, exec (.microCall g .clean) s = .next t ∧ (t.groom g).ctx = some d ∧
      d.stack = (s.pastWord c).pc :: c.stack ∧ d.pc = nfld w 0 15 := by
  obtain ⟨t, d, ht, hd, rfl, -⟩ := exec_word_setCtx h (i := .microCall g .clean) rfl (by simpa using hw)
    (if_neg (Nat.not_le.mpr hroom))
  exact ⟨t, _, ht, hd, rfl, rfl⟩

theorem exec_ret_word (h : s.fetches g c w = true) (hw : isCtl 0 w = true) (hstack : c.stack ≠ []) :
    ∃ t d, exec (.microRet g .clean) s = .next t ∧ (t.groom g).ctx = some d ∧ c.stack = d.pc :: d.stack := by
  obtain ⟨a, l, hl⟩ := List.exists_cons_of_ne_nil hstack
  obtain ⟨t, d, ht, hd, rfl, -⟩ := exec_word_setCtx (x := s.atWord c) (d := { s.pastWord c with stack := l, pc := a }) h
    (i := .microRet g .clean) rfl hw (by simp only [State.pastWord, hl])
  exact ⟨t, _, ht, hd, hl⟩

theorem exec_tick_word (h : s.fetches g c w = true) (hw : isCtl 4 w = true) :
    ∃ t d, exec (.microTick g .clean) s = .next t ∧ (t.groom g).ctx = some d ∧ d.reg (nfld w 0 4) = word (s.tick % 2 ^ 32) := by
  obtain ⟨t, d, ht, hd, rfl, -⟩ := exec_word_setCtx h (i := .microTick g .clean) rfl hw rfl
  refine ⟨t, _, ht, hd, ?_⟩
  rw [reg_setReg_ctx, State.atWord, reach15_eq]
  rfl

/-! ### Words that access registers and the hayloft -/

theorem reaches_reach15 (s : State) (r : Requester) (op x a : Nat) : (s.reach15 op x).reaches r a = s.reaches r a := by
  rw [reach15_eq]
  rfl

theorem inRegion_reach15 (s : State) (o : Nat) (l : List Nat) (op x a n : Nat) :
    (s.reach15 op x).inRegion o l a n = s.inRegion o l a n := by
  rw [reach15_eq]
  rfl

theorem hayOk_reach15 (s : State) (op x o a n : Nat) : (s.reach15 op x).hayOk o a n = s.hayOk o a n := by
  rw [reach15_eq]
  rfl

theorem hayBytes_congr {s t : State} (hh : t.hay = s.hay) (hk : t.keys = s.keys) (hf : t.free = s.free) (o a n : Nat) :
    t.hayBytes o a n = s.hayBytes o a n := by
  induction n generalizing a with
  | zero => rfl
  | succ n ih =>
    have hb : t.hayRead o a = s.hayRead o a := by
      unfold State.hayRead State.keyOf
      rw [hh, hk, hf]
    rw [State.hayBytes, hb, ih, State.hayBytes]

theorem hayBytes_reach15 (s : State) (op x o a n : Nat) : (s.reach15 op x).hayBytes o a n = s.hayBytes o a n := by
  rw [reach15_eq]
  exact hayBytes_congr (by rfl) (by rfl) (by rfl) o a n

theorem hayGet_reach15 (s : State) (op x o a n : Nat) : (s.reach15 op x).hayGet o a n = s.hayGet o a n :=
  congrArg ofBytes (hayBytes_reach15 s op x o a n)

theorem inRegion_of_hayOk {o a n : Nat} (h : s.hayOk o a n = true) : s.inRegion o anyKind a n = true :=
  (Bool.and_eq_true_iff.mp h).1

theorem poisoned_of_hayOk {o a n : Nat} (h : s.hayOk o a n = true) : s.poisoned a n = false := by
  simp only [State.hayOk, Bool.and_eq_true, Bool.not_eq_true'] at h
  exact h.2

/-- No word of what is not poisoned is found poisoned. -/
theorem deadWords_of_clean {a n : Nat} (h : s.poisoned a n = false) : s.deadWords a n = [] := by
  rw [State.poisoned, List.any_eq_false] at h
  rw [State.deadWords, List.map_eq_nil_iff, List.filter_eq_nil_iff]
  exact h

/-- A clean read of what is not poisoned changes nothing. -/
theorem eccRead_clean {a n : Nat} (req : Nat) (h : s.poisoned a n = false) : s.eccRead a n req .clean = (s, false) := by
  unfold State.eccRead
  simp only [deadWords_of_clean h, List.foldl_nil, h]

/-- Steps that each leave `x` alone leave it alone. -/
theorem foldl_same {α β : Type} {f : β → α → β} {x : β} {l : List α} (h : ∀ a ∈ l, f x a = x) : l.foldl f x = x := by
  induction l with
  | nil => rfl
  | cons a l ih =>
    rw [List.foldl_cons, h a List.mem_cons_self]
    exact ih fun b hb => h b (List.mem_cons_of_mem a hb)

/-- A write to what is not poisoned writes its bytes. -/
theorem poisonWrite_clean {a n : Nat} (h : s.poisoned a n = false) : s.poisonWrite a n = s := by
  rw [State.poisoned, List.any_eq_false] at h
  refine foldl_same fun e he => if_pos ?_
  have hout := h e he
  simp only [Bool.and_eq_true, decide_eq_true_eq] at hout
  by_cases hp : e.2 = true
  · right
    by_contra hin
    exact hout ⟨⟨hp, by omega⟩, by omega⟩
  · exact Or.inl (Bool.eq_false_iff.mpr hp)

theorem exec_ld_word (h : s.fetches g c w = true) (hw : fmtOf w = 2) (hstaged : c.staged = [])
    (hreach : s.reaches (.groom g) (c.address w) = true) (hal : c.address w % 4 = 0) :
    ∃ t d, exec (.ld g .clean) s = .next t ∧ (t.groom g).ctx = some d ∧
      d.reg (nfld w 14 4) = ((s.atWord c).read32 (.groom g) (c.address w)).2 := by
  have hread : (s.atWord c).read (.groom g) (c.address w) .w32 =
      (((s.atWord c).read32 (.groom g) (c.address w)).1, [((s.atWord c).read32 (.groom g) (c.address w)).2]) := by
    unfold State.read
    rw [if_neg (by simp [aligned, hal])]
  obtain ⟨t, d, ht, hd, rfl, -⟩ := exec_word_setCtx h (i := .ld g .clean) rfl (by simpa using hw)
    (x := ((s.atWord c).read32 (.groom g) (c.address w)).1)
    (d := (s.pastWord c).setReg (nfld w 14 4) ((s.atWord c).read32 (.groom g) (c.address w)).2) (by
      change (match (c.staged.filter _).getLast? with | some e => _ | none => _) = _
      rw [hstaged]
      change (((s.atWord c).read (.groom g) (c.address w) .w32).1.setCtx g _) = _
      have hr : (s.atWord c).reaches (.groom g) ((s.pastWord c).address w) = true := (reaches_reach15 ..).trans hreach
      rw [if_pos hr, show (s.pastWord c).address w = c.address w from rfl, hread]
      rfl)
  exact ⟨t, _, ht, hd, reg_setReg_ctx ..⟩

theorem exec_st_word (h : s.fetches g c w = true) (hw : fmtOf w = 3) (hroom : c.staged.length < 64) :
    ∃ t d, exec (.st g .clean) s = .next t ∧ (t.groom g).ctx = some d ∧
      d.staged = c.staged ++ [(c.address w, c.reg (nfld w 14 4))] ∧ t.regs = s.regs := by
  obtain ⟨t, d, ht, hd, rfl, hregs⟩ := exec_word_setCtx h (i := .st g .clean) rfl (by simpa using hw)
    (if_neg (Nat.not_le.mpr hroom))
  exact ⟨t, _, ht, hd, rfl, hregs.trans (regs_reach15 ..)⟩

/-- A word that a write covers in part is one of its words. -/
theorem mem_partWords {a n x : Nat} (h : x ∈ partWords a n) : a / 32 ≤ x ∧ 32 * x < a + n := by
  unfold partWords at h
  dsimp only at h
  split at h
  · cases h
  · split at h
    · obtain rfl := List.mem_singleton.mp h
      omega
    · rcases List.mem_append.mp h with h | h
      all_goals
        split at h
        · cases h
        · obtain rfl := List.mem_singleton.mp h
          omega

/-- What a store reads under a key is listed there. -/
theorem Store.mem_of_get? {α : Type} {m : List (Nat × α)} {k : Nat} {v : α} (h : Store.get? m k = some v) : (k, v) ∈ m := by
  induction m with
  | nil => cases h
  | cons e t ih =>
    rw [Store.get?] at h
    split at h
    · rename_i hk
      obtain rfl := Option.some.inj h
      rw [hk]
      exact List.mem_cons_self
    · exact List.mem_cons_of_mem e (ih h)

/-- A word that is listed as poisoned poisons every range that meets it. -/
theorem poisoned_of_word {a n x : Nat} (hx : Store.getD (fun _ => false) s.hay.poison x = true) (hlo : a / 32 ≤ x)
    (hhi : 32 * x < a + n) : s.poisoned a n = true := by
  have hmem : (x, true) ∈ s.hay.poison := by
    unfold Store.getD at hx
    cases hg : Store.get? s.hay.poison x with
    | none => simp [hg] at hx
    | some b =>
      obtain rfl : b = true := by simpa [hg] using hx
      exact Store.mem_of_get? hg
  exact List.any_eq_true.mpr ⟨_, hmem, by simp [hlo, hhi]⟩

/-- A merged write to what is not poisoned writes its bytes where error correction finds nothing. -/
theorem hayMerge_clean {o a : Nat} {bs : List Byte} (req : Nat) (h : s.poisoned a bs.length = false) :
    s.hayMerge o a bs req .clean = s.hayWriteBytes o a bs := by
  have hdead : (partWords a bs.length).filter (fun x => Store.getD (fun _ => false) s.hay.poison x) = [] :=
    List.filter_eq_nil_iff.mpr fun x hx hp => by
      obtain ⟨hlo, hhi⟩ := mem_partWords hx
      exact absurd (poisoned_of_word hp hlo hhi) (by simp [h])
  unfold State.hayMerge
  simp only [hdead, List.foldl_nil, State.hayStore, poisonWrite_clean h]
  generalize (partWords a bs.length).filter _ = live
  cases live <;> rfl

theorem reg_advance (c : Ctx) (w i : Nat) : (c.advance w).reg i = c.reg i := by
  unfold Ctx.advance
  split <;> rfl

theorem exec_hld_word (h : s.fetches g c w = true) (hw : fmtOf w = 4) (hpause : s.trainPause = false)
    (hok : s.hayOk c.rcd.owner (c.hreg (nfld w 12 2)) 4 = true) :
    ∃ t d, exec (.hld g .clean .clean) s = .next t ∧ (t.groom g).ctx = some d ∧
      d.reg (nfld w 14 4) = word (s.hayGet c.rcd.owner (c.hreg (nfld w 12 2)) 4) := by
  have hin := (inRegion_reach15 s c.rcd.owner anyKind c.rcd.op (s.fetchAddr c.pc) (c.hreg (nfld w 12 2)) 4).trans
    (inRegion_of_hayOk hok)
  have hread : (s.atWord c).eccRead (c.hreg (nfld w 12 2)) 4 reqGroom .clean = (s.atWord c, false) :=
    eccRead_clean _ (poisoned_of_hayOk ((hayOk_reach15 ..).trans hok))
  obtain ⟨t, d, ht, hd, rfl, -⟩ := exec_word_setCtx h (i := .hld g .clean .clean) (if_neg (by simp [hpause]))
    (by simpa using hw) (x := s.atWord c)
    (d := ((s.pastWord c).setReg (nfld w 14 4) (word ((s.atWord c).hayGet c.rcd.owner (c.hreg (nfld w 12 2)) 4))).advance w) (by
      refine (if_pos hin).trans ?_
      rw [show (s.pastWord c).hreg (nfld w 12 2) = c.hreg (nfld w 12 2) from rfl, hread]
      rfl)
  exact ⟨t, _, ht, hd, by rw [reg_advance, reg_setReg_ctx, State.atWord, hayGet_reach15]⟩

/-- HST writes the bytes of its register and nothing else of the part. -/
theorem exec_hst_stores (h : s.fetches g c w = true) (hw : fmtOf w = 5) (hpause : s.trainPause = false)
    (hok : s.hayOk c.rcd.owner (c.hreg (nfld w 12 2)) 4 = true) :
    exec (.hst g .clean .clean) s = .next (((s.atWord c).hayWriteBytes c.rcd.owner (c.hreg (nfld w 12 2))
      (bytesOf 4 (c.reg (nfld w 14 4)).toNat)).setCtx g (((s.pastWord c).note ⟨true, c.hreg (nfld w 12 2) / 64, 4⟩).advance w)) := by
  have hin := (inRegion_reach15 s c.rcd.owner anyKind c.rcd.op (s.fetchAddr c.pc) (c.hreg (nfld w 12 2)) 4).trans
    (inRegion_of_hayOk hok)
  have hclean : (s.atWord c).poisoned (c.hreg (nfld w 12 2)) (bytesOf 4 (c.reg (nfld w 14 4)).toNat).length = false := by
    rw [bytesOf_length]
    exact poisoned_of_hayOk ((hayOk_reach15 ..).trans hok)
  refine (exec_word h (i := .hst g .clean .clean) (if_neg (by simp [hpause])) (by simpa using hw)).trans ?_
  rw [← hayMerge_clean reqGroom hclean]
  exact congrArg Host.Outcome.next (if_pos hin)

theorem exec_hst_word (h : s.fetches g c w = true) (hw : fmtOf w = 5) (hpause : s.trainPause = false)
    (hok : s.hayOk c.rcd.owner (c.hreg (nfld w 12 2)) 4 = true) :
    ∃ t d, exec (.hst g .clean .clean) s = .next t ∧ (t.groom g).ctx = some d ∧
      t.hayGet c.rcd.owner (c.hreg (nfld w 12 2)) 4 = (c.reg (nfld w 14 4)).toNat :=
  ⟨_, ((s.pastWord c).note ⟨true, c.hreg (nfld w 12 2) / 64, 4⟩).advance w, exec_hst_stores h hw hpause hok,
    by rw [groom_setCtx_same],
    hayGet_of_standsAll (standsAll_of_contents (contents_of_hay (by rfl) (by rfl) (by rfl)) standsAll_hayWriteBytes)
      (c.reg (nfld w 14 4)).isLt⟩

end

/-- Settles O43: each microword by its own lemma above. -/
theorem microwordsActOnTheRoutine : Obligations.MicrowordsActOnTheRoutine := by
  unfold Obligations.MicrowordsActOnTheRoutine
  intro g c w s h
  refine ⟨fun hw => ?_, exec_ldi_word h, exec_seta_word h, exec_br_word h, exec_call_word h, exec_ret_word h, exec_tick_word h,
    exec_ld_word h, exec_st_word h, exec_hld_word h, exec_hst_word h⟩
  obtain ⟨t, d, ht, hd, rfl⟩ := exec_alu_word h hw
  obtain ⟨hrcd, hpc⟩ := alu_keeps (s.pastWord c) w s.free
  exact ⟨t, _, ht, hd, hrcd, hpc, alu_add _ _⟩

/-! ### Yield points -/

section
variable {s : State} {g : Fin 8} {c : Ctx} {w : Nat}

theorem yieldPoint_of_clean (x : State) (g : Nat) {d : Ctx} (h : d.clean = true) (after : Yielding) :
    x.yieldPoint g d after = x.setCtx g { d with after := after } := by
  simp only [Ctx.clean, Bool.and_eq_true, Bool.not_eq_true', Option.isNone_iff_eq_none] at h
  obtain ⟨⟨habort, haf⟩, hrefusal⟩ := h
  simp [State.yieldPoint, habort, haf, hrefusal]

/-- A row that reaches a yield point at which nothing ends the routine. -/
theorem exec_word_yields (h : s.fetches g c w = true) {i : Instr} {is : Nat → Bool} {f : Ctx → Nat → State → State}
    (hi : exec i s = .next (s.micro g .clean is f)) (hw : is w = true) {d : Ctx} {after : Yielding} (hd : d.clean = true)
    (hf : f (s.pastWord c) w (s.atWord c) = (s.atWord c).yieldPoint g d after) :
    ∃ t, exec i s = .next t ∧ (t.groom g).ctx = some { d with after := after } :=
  ⟨_, exec_word h hi hw, by rw [hf, yieldPoint_of_clean _ _ hd, groom_setCtx_same]⟩

theorem exec_yield_word (h : s.fetches g c w = true) (hc : c.clean = true) (hw : isCtl 1 w = true) :
    ∃ t d, exec (.yield g .clean) s = .next t ∧ (t.groom g).ctx = some d ∧ d.after = .commit ∧ d.staged = c.staged := by
  obtain ⟨t, ht, hd⟩ := exec_word_yields h (i := .yield g .clean) rfl hw (d := s.pastWord c) hc rfl
  exact ⟨t, _, ht, hd, rfl, rfl⟩

theorem exec_end_word (h : s.fetches g c w = true) (hc : c.clean = true) (hw : isCtl 2 w = true) :
    ∃ t d, exec (.microEnd g .clean) s = .next t ∧ (t.groom g).ctx = some d ∧ d.after = .commitEnd (nfld w 0 8) ∧
      d.vs = [c.reg 12, c.reg 13, c.reg 14, c.reg 15] := by
  obtain ⟨t, ht, hd⟩ := exec_word_yields h (i := .microEnd g .clean) rfl hw
    (d := { s.pastWord c with vs := [c.reg 12, c.reg 13, c.reg 14, c.reg 15] }) hc rfl
  exact ⟨t, _, ht, hd, rfl, rfl⟩

theorem exec_post_word (h : s.fetches g c w = true) (hc : c.clean = true) (hw : isCtl 3 w = true) :
    ∃ t d, exec (.microPost g .clean) s = .next t ∧ (t.groom g).ctx = some d ∧ d.after = .commitPost (nfld w 0 8) := by
  obtain ⟨t, ht, hd⟩ := exec_word_yields h (i := .microPost g .clean) rfl hw (d := s.pastWord c) hc rfl
  exact ⟨t, _, ht, hd, rfl⟩

theorem exec_sleep_word (h : s.fetches g c w = true) (hc : c.clean = true) (hw : isCtl 5 w = true) :
    ∃ t d, exec (.sleep g .clean) s = .next t ∧ (t.groom g).ctx = some d ∧ d.after = .commitSleep (nfld w 0 14) := by
  obtain ⟨t, ht, hd⟩ := exec_word_yields h (i := .sleep g .clean) rfl hw (d := s.pastWord c) hc rfl
  exact ⟨t, _, ht, hd, rfl⟩

theorem abort_of_clean (h : c.clean = true) : c.abort = false := by
  simp only [Ctx.clean, Bool.and_eq_true, Bool.not_eq_true'] at h
  exact h.1.1

theorem exec_commit_go_on (hctx : (s.groom g).ctx = some c) (hc : c.clean = true) (hafter : c.after = .commit) :
    exec (.commitDone g) s = .next ((s.commit g c).1.setCtx g { (s.commit g c).2 with after := .done }) := by
  change execCommitDone g s = _
  unfold execCommitDone
  simp only [hctx, hafter, abort_of_clean hc]
  rfl

theorem commit_nothing (hc : c.staged = []) : s.commit g c = (s, c) := by
  have hsame : { c with staged := [] } = c := by rw [← hc]
  unfold State.commit
  rw [hc]
  exact Prod.ext rfl hsame

/-- A routine with nothing staged goes on. -/
theorem exec_commit_nothing (hctx : (s.groom g).ctx = some c) (hc : c.clean = true) (hafter : c.after = .commit)
    (hstaged : c.staged = []) :
    ∃ t d, exec (.commitDone g) s = .next t ∧ (t.groom g).ctx = some d ∧ d.after = .done ∧ t.regs = s.regs := by
  refine ⟨_, _, exec_commit_go_on hctx hc hafter, congrArg GroomSt.ctx (groom_setCtx_same ..), rfl, ?_⟩
  rw [commit_nothing hstaged]
  rfl

theorem write_w32_aligned (x : State) (r : Requester) {a : Nat} (ha : a % 4 = 0) (v : Word) :
    x.write r a .w32 v.toNat = x.write32 r a v := by
  unfold State.write
  rw [if_neg (by simp [aligned, ha])]
  exact congrArg (x.write32 r a) (word_toNat v)

/-- A staged store that its block takes is that write. -/
theorem exec_commit_store (hctx : (s.groom g).ctx = some c) (hc : c.clean = true) {a : Nat} {v : Word}
    (hafter : c.after = .commit) (hstaged : c.staged = [(a, v)]) (ha : a % 4 = 0) (htakes : s.takes (.groom g) a v = true) :
    ∃ t, exec (.commitDone g) s = .next t ∧ t.regs = (s.write32 (.groom g) a v).regs := by
  refine ⟨_, exec_commit_go_on hctx hc hafter, ?_⟩
  simp only [State.takes, Bool.and_eq_true, Option.isNone_iff_eq_none] at htakes
  obtain ⟨hreach, htaken⟩ := htakes
  have hcommit : (s.commit g c).1 = s.write32 (.groom g) a v := by
    unfold State.commit
    rw [hstaged]
    change (commitOne g (s, c) (a, v)).1 = _
    unfold commitOne
    simp only [hreach, write_w32_aligned _ _ ha, htaken, Bool.true_eq_false, if_false]
  rw [← hcommit]
  rfl

/-- The commit of END ends the record with the code of the word. -/
theorem exec_commit_end (hctx : (s.groom g).ctx = some c) (hc : c.clean = true) {st : Nat}
    (hafter : c.after = .commitEnd st) (hstaged : c.staged = []) (hchains : (s.groom g).chains = []) :
    ∃ t, exec (.commitDone g) s = .next t ∧ (t.groom g).ctx = none ∧
      Store.get? t.cluster.results c.rcd.key = some st := by
  have hclean := hc
  simp only [Ctx.clean, Bool.and_eq_true, Bool.not_eq_true', Option.isNone_iff_eq_none] at hclean
  obtain ⟨⟨habort, haf⟩, hrefusal⟩ := hclean
  have hexec : exec (.commitDone g) s = .next (s.faultEnd g c st) := by
    change execCommitDone g s = _
    unfold execCommitDone
    simp only [hctx, hafter, commit_nothing hstaged]
    rw [if_neg (by simp [habort]), if_neg (by simp [haf]), if_neg (by simp [hrefusal])]
  exact ⟨_, hexec, groom_endRecord s g hchains, results_endRecord s g (c := { c with staged := [] }) hchains⟩

theorem exec_sleep_ends (hctx : (s.groom g).ctx = some c) (hafter : c.after = .asleep) (habort : c.abort = false) :
    ∃ t d, exec (.sleepEnd g) s = .next t ∧ (t.groom g).ctx = some d ∧ d.after = .no ∧ c.t 0 + 3200 * c.t 1 ≤ t.now := by
  have hexec : exec (.sleepEnd g) s = .next (State.setCtx { s with now := max s.now (c.t 0 + 3200 * c.t 1) } g
      { c with after := .no, tmp := [] }) := by
    change execSleepEnd g s = _
    unfold execSleepEnd
    simp only [hctx, hafter, habort]
    rfl
  exact ⟨_, _, hexec, congrArg GroomSt.ctx (groom_setCtx_same ..), rfl, Nat.le_max_right ..⟩

theorem exec_context_resumes {i : Fin 4} {l : List Chain} (hidle : s.groomIdle g = true)
    (hsaved : (s.groom g).saved[i.val]? = some (c, l)) (habort : c.abort = false) :
    ∃ t, exec (.contextResume g i) s = .next t ∧ (t.groom g).ctx = some (c.unpause s.now) ∧
      (t.groom g).chains = l.map fun h => { h with ctx := h.ctx.unpause s.now } := by
  have hgo : (c.unpause s.now).abort = false := habort
  have hexec : exec (.contextResume g i) s = .next (s.setGroom g { s.groom g with
      ctx := some (c.unpause s.now), chains := l.map fun h => { h with ctx := h.ctx.unpause s.now }
      saved := (s.groom g).saved.eraseIdx i.val }) := by
    change execContextResume g i s = _
    unfold execContextResume
    simp only [hidle, hsaved, hgo]
    rfl
  exact ⟨_, hexec, congrArg GroomSt.ctx (groom_setGroom_same ..), congrArg GroomSt.chains (groom_setGroom_same ..)⟩

end

/-- Settles O44: each yield point, each commit, sleep and resumption by its own lemma above. -/
theorem yieldPointsCommitAndGoOn : Obligations.YieldPointsCommitAndGoOn := by
  unfold Obligations.YieldPointsCommitAndGoOn
  exact ⟨fun g c w s h hc => ⟨exec_yield_word h hc, exec_end_word h hc, exec_post_word h hc, exec_sleep_word h hc⟩,
    fun g c s hctx hc => ⟨exec_commit_nothing hctx hc, fun _ _ => exec_commit_store hctx hc, fun _ => exec_commit_end hctx hc⟩,
    fun g c s => exec_sleep_ends, fun g i c l s => exec_context_resumes⟩

/-! ### What a word leaves alone -/

/-- From `s` to `t` nothing but groom `g`, the addresses that the cluster notes and the count of free values has changed. -/
def State.OnlyGroom (s t : State) (g : Nat) : Prop :=
  t = { s with grooms := t.grooms, free := t.free, cluster := { s.cluster with reached := t.cluster.reached } } ∧
    ∀ g' < 8, g' ≠ g → t.groom g' = s.groom g'

section
variable {s : State} {g : Fin 8} {c : Ctx} {w : Nat}

theorem onlyGroom_refl (s : State) (g : Nat) : s.OnlyGroom s g := ⟨rfl, fun _ _ _ => rfl⟩

/-- A word that stores the context of its routine. -/
theorem onlyGroom_setCtx (s : State) (c : Ctx) (g f : Nat) (d : Ctx) :
    s.OnlyGroom (State.setCtx { s.atWord c with free := f } g d) g := by
  rw [State.atWord, reach15_eq]
  exact ⟨rfl, fun g' _ hne => groom_setGroom_ne _ g _ hne⟩

/-- Where `t` holds a routine on groom `g`, nothing but the groom has changed. -/
def State.Leaves (s t : State) (g : Nat) : Prop := (t.groom g).ctx ≠ none → s.OnlyGroom t g

theorem leaves_setCtx (s : State) (c : Ctx) (g f : Nat) (d : Ctx) : s.Leaves (State.setCtx { s.atWord c with free := f } g d) g :=
  fun _ => onlyGroom_setCtx s c g f d

theorem leaves_faultEnd (hchains : (s.groom g).chains = []) (d : Ctx) (st : Nat) : s.Leaves ((s.atWord c).faultEnd g d st) g :=
  fun h => absurd (groom_endRecord _ _ ((congrArg GroomSt.chains (groom_reach15 ..)).trans hchains)) h

theorem leaves_yieldPoint (hchains : (s.groom g).chains = []) (d : Ctx) (after : Yielding) :
    s.Leaves ((s.atWord c).yieldPoint g d after) g := by
  unfold State.yieldPoint
  split
  · exact leaves_faultEnd hchains _ _
  · split
    · exact leaves_faultEnd hchains _ _
    · split
      · exact leaves_faultEnd hchains _ _
      · exact leaves_setCtx s c g _ _

/-- What a row leaves, whether or not the word is its own. -/
theorem word_leaves (h : s.fetches g c w = true) {i : Instr} {is : Nat → Bool} {f : Ctx → Nat → State → State} {t : State}
    (hi : exec i s = .next (s.micro g .clean is f)) (hf : s.Leaves (f (s.pastWord c) w (s.atWord c)) g)
    (ht : exec i s = .next t) (hctx : (t.groom g).ctx ≠ none) : s.OnlyGroom t g := by
  obtain rfl := Host.Outcome.next.inj (hi.symm.trans ht)
  cases hw : is w with
  | true =>
    rw [micro_of_fetches h is hw] at hctx ⊢
    exact hf hctx
  | false =>
    rw [micro_of_other h hw]
    exact onlyGroom_refl s g

end

/-- Settles O60: each of the words stores the context, or ends the routine. -/
theorem microwordsChangeOnlyTheirGroom : Obligations.MicrowordsChangeOnlyTheirGroom := by
  unfold Obligations.MicrowordsChangeOnlyTheirGroom
  intro i g c w s t h hchains hi ht hctx
  simp only [List.mem_cons, List.not_mem_nil, or_false] at hi
  change s.OnlyGroom t g
  have keep := fun f d => leaves_setCtx s c g f d
  have fault := fun d st => leaves_faultEnd (c := c) hchains d st
  rcases hi with rfl | rfl | rfl | rfl | rfl | rfl | rfl | rfl | rfl | rfl | rfl | rfl
  · exact word_leaves h rfl (keep _ _) ht hctx
  · exact word_leaves h rfl (keep _ _) ht hctx
  · exact word_leaves h rfl (keep _ _) ht hctx
  · exact word_leaves h rfl (keep _ _) ht hctx
  · refine word_leaves h rfl ?_ ht hctx
    split
    · exact fault _ _
    · exact keep _ _
  · refine word_leaves h rfl ?_ ht hctx
    split
    · exact fault _ _
    · exact keep _ _
  · exact word_leaves h rfl (keep _ _) ht hctx
  · refine word_leaves h rfl ?_ ht hctx
    split
    · exact fault _ _
    · exact keep _ _
  · exact word_leaves h rfl (leaves_yieldPoint hchains _ _) ht hctx
  · exact word_leaves h rfl (leaves_yieldPoint hchains _ _) ht hctx
  · exact word_leaves h rfl (leaves_yieldPoint hchains _ _) ht hctx
  · exact word_leaves h rfl (leaves_yieldPoint hchains _ _) ht hctx

end Sys2Proof.Machine

/-!
PROOF. Register accesses and hayloft accesses of a ROM routine (R484, R492, R493): what a read and a write that meet no fault
leave; the register, hayloft, wait, run, level and switch services (R485); and O34, O35, O36 and O59.
-/

namespace Sys2Proof.Machine

/-! ### Bytes of the hayloft -/

section
variable {s : State} {o : Nat}

theorem hayBytes_length (a n : Nat) : (s.hayBytes o a n).length = n := by
  induction n generalizing a with
  | zero => rfl
  | succ n ih => rw [State.hayBytes, List.length_cons, ih]

theorem hayBytes_getElem {a n i : Nat} (h : i < (s.hayBytes o a n).length) : (s.hayBytes o a n)[i] = s.hayRead o (a + i) := by
  induction n generalizing a i with
  | zero => exact absurd h (Nat.not_lt_zero i)
  | succ n ih =>
    cases i with
    | zero => rfl
    | succ i =>
      have hrest : (s.hayBytes o a (n + 1))[i + 1] = (s.hayBytes o (a + 1) n)[i]'(Nat.lt_of_succ_lt_succ h) := rfl
      rw [hrest, ih, show a + 1 + i = a + (i + 1) by omega]

/-- Bytes written leave the bytes of every other 32-byte word alone. -/
theorem cells_hayWriteBytes_outside {a x : Nat} {bs : List Byte} (hx : x / 32 < a / 32 ∨ a + bs.length ≤ x / 32 * 32) :
    Store.get? (s.hayWriteBytes o a bs).hay.cells x = Store.get? s.hay.cells x := by
  induction bs generalizing s a with
  | nil => rfl
  | cons b t ih =>
    rw [List.length_cons] at hx
    have hrest : (s.hayWriteBytes o a (b :: t)) = (s.hayWrite o a b).hayWriteBytes o (a + 1) t := rfl
    rw [hrest, ih (by omega), get?_hayWrite_word _ _ _ _ _ (by omega)]

theorem regs_hayWriteBytes (a : Nat) (bs : List Byte) : (s.hayWriteBytes o a bs).regs = s.regs := by
  induction bs generalizing s a with
  | nil => rfl
  | cons b t ih => exact ih (s := s.hayWrite o a b) (a + 1)

theorem hayRead_hayWriteBytes {a i : Nat} {bs : List Byte} (h : i < bs.length) {t : State}
    (ht : t.contents = (s.hayWriteBytes o a bs).contents) : t.hayRead o (a + i) = bs[i] :=
  hayRead_of_stands (stands_of_contents ht (standsAll_hayWriteBytes i h))

end

/-! ### Accesses of a job -/

section
variable {j : Job}

/-- A read of a register that the owner reaches. -/
theorem Job.rdAt_reaches (hj : j.Runs) {a : Nat} (h : j.s.reaches j.r a = true) :
    j.rdAt a = ({ j with s := (j.s.read32 j.r a).1 }, (j.s.read32 j.r a).2.toNat) := by
  obtain ⟨hd, hs⟩ := hj
  simp [Job.rdAt, hd, hs, h]

/-- A read of the hayloft within the owner's regions and without an error. -/
theorem Job.hayRd_ok (hj : j.Runs) (hpause : j.s.trainPause = false) (hp : j.p.hay = none) {a n : Nat} (hn : 0 < n)
    (h : j.s.hayOk j.o a n = true) : j.hayRd a n = (j, j.s.hayBytes j.o a n) := by
  obtain ⟨hd, hs⟩ := hj
  have hecc : j.ecc a n = (j.s, false) := by
    simp [Job.ecc, probeMeets, hp, eccRead_clean reqGroom (poisoned_of_hayOk h)]
  unfold Job.hayRd
  rw [if_neg (by simp [hd, hs, hn.ne']), if_neg (by simp [hpause]), if_neg (by simp [inRegion_of_hayOk h])]
  simp only [hecc, Bool.false_eq_true, if_false]

/-- A write of the hayloft within the owner's regions, to words that are not poisoned. -/
theorem Job.hayWr_ok (hj : j.Runs) (hpause : j.s.trainPause = false) (hp : j.p.hay = none) {a : Nat} {bs : List Byte}
    (hn : 0 < bs.length) (h : j.s.hayOk j.o a bs.length = true) :
    j.hayWr a bs = { j with s := j.s.hayWriteBytes j.o a bs, c := j.c.note ⟨true, a / 64, bs.length⟩ } := by
  have hne : ¬bs.isEmpty = true := by
    rw [List.isEmpty_iff_length_eq_zero]
    omega
  unfold Job.hayWr
  rw [if_neg hne, Job.bind_of_runs hj, if_neg (by simp [hpause]), if_neg (by simp [inRegion_of_hayOk h])]
  simp only [probeMeets, hp]
  rw [← hayMerge_clean reqGroom (poisoned_of_hayOk h)]
  rfl

/-- A job in another state of the part. -/
theorem Job.runs_with (hj : j.Runs) (x : State) (c : Ctx) : ({ j with s := x, c := c } : Job).Runs := hj

end

/-! ### A stage that ends -/

section
variable {s : State} {g : Fin 8} {c : Ctx} {p : Probe} {op k : Nat}

theorem romRuns_pause (h : s.romRuns g c op k p = true) : s.trainPause = false := by
  unfold State.romRuns at h
  simp only [Bool.and_eq_true, Bool.not_eq_true'] at h
  exact h.1.1.2

theorem romRuns_hay (h : s.romRuns g c op k p = true) : p.hay = none := by
  unfold State.romRuns at h
  simp only [Bool.and_eq_true, decide_eq_true_eq] at h
  exact h.2

/-- The part as a routine that ends leaves it, before the end of its record. -/
def Job.left (j : Job) : State := { j.s with free := j.s.free + 32 }

/-- A stage that ends OK ends the service, and the part is as the stage leaves it. -/
theorem service_leaves (h : s.romRuns g c op k p = true) {i : Instr} {is : Nat → Bool} {f : Job → Job}
    (hexec : exec i s = .next (s.service g none p is f)) (hop : is op = true) {vs : List Nat}
    (hd : (f (s.newJob g c p)).EndsOk c vs) :
    ∃ t, exec i s = .next t ∧ ServiceEnds t (f (s.newJob g c p)).left g c vs := by
  obtain ⟨hdone, hstall, hrcd, hwords⟩ := hd
  refine ⟨_, hexec, (f (s.newJob g c p)).c, ?_, hrcd, hwords⟩
  rw [service_of_romRuns h is hop f]
  change s.stageEnds g (f (s.newJob g c p)) = _
  simp only [State.stageEnds, hstall, hdone, Bool.false_eq_true, if_false]
  rfl

/-- The end of a routine with result words. -/
theorem Job.endsOk_finish {j : Job} (hj : j.Runs) (hrcd : j.c.rcd = c.rcd) (vs : List Nat) :
    (j.finish vs).EndsOk c vs ∧ (j.finish vs).s = j.s := Job.endsOk_vals hj hrcd vs

theorem pause_newJob (h : s.romRuns g c op k p = true) : (s.newJob g c p).s.trainPause = false := by
  rw [← romRuns_pause h, State.newJob, reach15_eq]
  rfl

theorem hayOk_newJob {a n : Nat} (h : s.hayOk c.rcd.owner a n = true) :
    (s.newJob g c p).s.hayOk (s.newJob g c p).o a n = true := (hayOk_reach15 ..).trans h

theorem hayRd_newJob (hrun : s.romRuns g c op k p = true) {a n : Nat} (hn : 0 < n) (h : s.hayOk c.rcd.owner a n = true) :
    (s.newJob g c p).hayRd a n = (s.newJob g c p, s.hayBytes c.rcd.owner a n) :=
  (Job.hayRd_ok (runs_newJob ..) (pause_newJob hrun) (romRuns_hay hrun) hn (hayOk_newJob h)).trans
    (congrArg (Prod.mk _) (hayBytes_reach15 ..))

theorem hayWr_newJob (hrun : s.romRuns g c op k p = true) {a : Nat} {bs : List Byte} (hn : 0 < bs.length)
    (h : s.hayOk c.rcd.owner a bs.length = true) :
    (s.newJob g c p).hayWr a bs = { s.newJob g c p with
      s := (s.newJob g c p).s.hayWriteBytes c.rcd.owner a bs, c := c.note ⟨true, a / 64, bs.length⟩ } :=
  Job.hayWr_ok (runs_newJob ..) (pause_newJob hrun) (romRuns_hay hrun) hn (hayOk_newJob h)

/-! ### The hayloft services -/

/-- A routine that writes `bs` at `a` and ends. -/
theorem hayWr_ends (hrun : s.romRuns g c op k p = true) {i : Instr} {is : Nat → Bool} {f : Job → Job}
    (hexec : exec i s = .next (s.service g none p is f)) (hop : is op = true) {a : Nat} {bs : List Byte} {vs : List Nat}
    (hn : 0 < bs.length) (h : s.hayOk c.rcd.owner a bs.length = true)
    (hf : f (s.newJob g c p) = ((s.newJob g c p).hayWr a bs).finish vs) :
    ∃ t y, exec i s = .next t ∧ ServiceEnds t y g c vs ∧ (∀ l, (hl : l < bs.length) → y.hayRead c.rcd.owner (a + l) = bs[l]) ∧
      (∀ b, (b / 32 < a / 32 ∨ a + bs.length ≤ b / 32 * 32) → Store.get? y.hay.cells b = Store.get? s.hay.cells b) ∧
      y.regs = s.regs := by
  rw [hayWr_newJob hrun hn h] at hf
  obtain ⟨hends, hs⟩ := Job.endsOk_finish (c := c) (Job.runs_with (runs_newJob s g c p)
    ((s.newJob g c p).s.hayWriteBytes c.rcd.owner a bs) (c.note ⟨true, a / 64, bs.length⟩)) rfl vs
  rw [← hf] at hends hs
  obtain ⟨t, ht, hserv⟩ := service_leaves hrun hexec hop hends
  have hleft : (f (s.newJob g c p)).left = { (s.newJob g c p).s.hayWriteBytes c.rcd.owner a bs with
      free := ((s.newJob g c p).s.hayWriteBytes c.rcd.owner a bs).free + 32 } := by
    rw [Job.left, hs]
  refine ⟨t, _, ht, hserv, fun l hl => ?_, fun b hb => ?_, ?_⟩
  · rw [hleft]
    exact hayRead_hayWriteBytes hl (contents_of_hay (by rfl) (by rfl) (by rfl))
  · rw [hleft]
    refine (cells_hayWriteBytes_outside hb).trans ?_
    rw [State.newJob, reach15_eq]
  · rw [hleft]
    exact (regs_hayWriteBytes ..).trans (regs_reach15 ..)

theorem svHayCopy_leaves (hn : 0 < c.rcd.p 4) (hrun : s.romRuns g c 0x06 0 p = true)
    (hsrc : s.hayOk c.rcd.owner (c.rcd.hay 0) (c.rcd.p 4) = true) (hdst : s.hayOk c.rcd.owner (c.rcd.hay 2) (c.rcd.p 4) = true) :
    ∃ t y, exec (.svHayCopy g none p) s = .next t ∧ ServiceEnds t y g c [c.rcd.p 4] ∧
      (∀ i < c.rcd.p 4, y.hayRead c.rcd.owner (c.rcd.hay 2 + i) = s.hayRead c.rcd.owner (c.rcd.hay 0 + i)) ∧
      (∀ b, (b / 32 < c.rcd.hay 2 / 32 ∨ c.rcd.hay 2 + c.rcd.p 4 ≤ b / 32 * 32) →
        Store.get? y.hay.cells b = Store.get? s.hay.cells b) ∧ y.regs = s.regs := by
  have hlen : (s.hayBytes c.rcd.owner (c.rcd.hay 0) (c.rcd.p 4)).length = c.rcd.p 4 := hayBytes_length ..
  have hf : svHayCopy (s.newJob g c p) = ((s.newJob g c p).hayWr (c.rcd.hay 2)
      (s.hayBytes c.rcd.owner (c.rcd.hay 0) (c.rcd.p 4))).finish [c.rcd.p 4] := by
    unfold svHayCopy
    rw [show (s.newJob g c p).hayRd ((s.newJob g c p).haddr 0) ((s.newJob g c p).a 4) = _ from hayRd_newJob hrun hn hsrc]
    rfl
  obtain ⟨t, y, ht, hserv, hread, hkept, hregs⟩ := hayWr_ends hrun (i := .svHayCopy g none p) rfl rfl (by omega) (by rwa [hlen]) hf
  rw [hlen] at hkept
  refine ⟨t, y, ht, hserv, fun i hi => ?_, hkept, hregs⟩
  rw [hread i (by omega), hayBytes_getElem]

/-- The bytes that SV_HAY_FILL writes. -/
def fillBytes (n v : Nat) : List Byte := ((upto n).map fun _ => bytesOf 4 v).flatten

theorem fillBytes_succ (n v : Nat) : fillBytes (n + 1) v = bytesOf 4 v ++ fillBytes n v := by
  simp [fillBytes, upto, List.replicate_succ]

theorem fillBytes_length (n v : Nat) : (fillBytes n v).length = 4 * n := by
  induction n with
  | zero => rfl
  | succ n ih => rw [fillBytes_succ, List.length_append, ih, bytesOf_length]; omega

theorem bytesOf_getElem {n v i : Nat} (h : i < (bytesOf n v).length) : (bytesOf n v)[i] = BitVec.ofNat 8 (v / 256 ^ i) := by
  induction n generalizing v i with
  | zero => exact absurd h (Nat.not_lt_zero i)
  | succ n ih =>
    cases i with
    | zero => simp [bytesOf]
    | succ i =>
      have hrest : (bytesOf (n + 1) v)[i + 1] = (bytesOf n (v / 256))[i]'(Nat.lt_of_succ_lt_succ h) := rfl
      rw [hrest, ih, Nat.div_div_eq_div_mul, ← Nat.pow_succ']

theorem fillBytes_getElem {n v i : Nat} (h : i < (fillBytes n v).length) :
    (fillBytes n v)[i] = BitVec.ofNat 8 (v / 256 ^ (i % 4)) := by
  induction n generalizing i with
  | zero => exact absurd h (Nat.not_lt_zero i)
  | succ n ih =>
    simp only [fillBytes_succ, List.getElem_append, bytesOf_length]
    split
    · rename_i hi
      rw [bytesOf_getElem, Nat.mod_eq_of_lt hi]
    · rename_i hi
      rw [ih, show (i - 4) % 4 = i % 4 by omega]

theorem svHayFill_leaves (hn : 0 < c.rcd.p 4) (hrun : s.romRuns g c 0x07 0 p = true) (h4 : c.rcd.p 4 % 4 = 0)
    (hdst : s.hayOk c.rcd.owner (c.rcd.hay 0) (c.rcd.p 4) = true) :
    ∃ t y, exec (.svHayFill g none p) s = .next t ∧ ServiceEnds t y g c [c.rcd.p 4] ∧
      (∀ i < c.rcd.p 4, y.hayRead c.rcd.owner (c.rcd.hay 0 + i) = BitVec.ofNat 8 (c.rcd.p 2 / 256 ^ (i % 4))) ∧
      (∀ b, (b / 32 < c.rcd.hay 0 / 32 ∨ c.rcd.hay 0 + c.rcd.p 4 ≤ b / 32 * 32) →
        Store.get? y.hay.cells b = Store.get? s.hay.cells b) ∧ y.regs = s.regs := by
  have hlen : (fillBytes (c.rcd.p 4 / 4) (c.rcd.p 2)).length = c.rcd.p 4 := by
    rw [fillBytes_length]
    omega
  obtain ⟨t, y, ht, hserv, hread, hkept, hregs⟩ := hayWr_ends hrun (i := .svHayFill g none p) (f := svHayFill) rfl rfl
    (a := c.rcd.hay 0) (bs := fillBytes (c.rcd.p 4 / 4) (c.rcd.p 2)) (vs := [c.rcd.p 4]) (by omega) (by rwa [hlen]) rfl
  rw [hlen] at hkept
  refine ⟨t, y, ht, hserv, fun i hi => ?_, hkept, hregs⟩
  rw [hread i (by omega), fillBytes_getElem]

theorem svHayCrc_ends (hn : 0 < c.rcd.p 4) (hrun : s.romRuns g c 0x08 0 p = true)
    (hsrc : s.hayOk c.rcd.owner (c.rcd.hay 0) (c.rcd.p 4) = true) :
    ∃ t y, exec (.svHayCrc g none p) s = .next t ∧
      ServiceEnds t y g c [c.rcd.p 4, crc32 (s.hayBytes c.rcd.owner (c.rcd.hay 0) (c.rcd.p 4))] := by
  have hf : svHayCrc (s.newJob g c p) =
      (s.newJob g c p).finish [c.rcd.p 4, crc32 (s.hayBytes c.rcd.owner (c.rcd.hay 0) (c.rcd.p 4))] := by
    unfold svHayCrc
    rw [show (s.newJob g c p).hayRd ((s.newJob g c p).haddr 0) ((s.newJob g c p).a 4) = _ from hayRd_newJob hrun hn hsrc]
    rfl
  obtain ⟨hends, -⟩ := Job.endsOk_finish (c := c) (runs_newJob s g c p) rfl
    [c.rcd.p 4, crc32 (s.hayBytes c.rcd.owner (c.rcd.hay 0) (c.rcd.p 4))]
  rw [← hf] at hends
  obtain ⟨t, ht, hserv⟩ := service_leaves hrun (i := .svHayCrc g none p) rfl rfl hends
  exact ⟨t, _, ht, hserv⟩

/-- A list beside itself shows no difference. -/
theorem zip_self_same {α : Type} {l : List α} {e : α × α} (h : e ∈ l.zip l) : e.1 = e.2 := by
  induction l with
  | nil => cases h
  | cons a l ih =>
    rcases List.mem_cons.mp h with rfl | h
    · rfl
    · exact ih h

theorem svHayCompare_ends (hn : 0 < c.rcd.p 4) (hrun : s.romRuns g c 0x09 0 p = true)
    (ha : s.hayOk c.rcd.owner (c.rcd.hay 0) (c.rcd.p 4) = true) (hb : s.hayOk c.rcd.owner (c.rcd.hay 2) (c.rcd.p 4) = true)
    (hsame : s.hayBytes c.rcd.owner (c.rcd.hay 0) (c.rcd.p 4) = s.hayBytes c.rcd.owner (c.rcd.hay 2) (c.rcd.p 4)) :
    ∃ t y, exec (.svHayCompare g none p) s = .next t ∧ ServiceEnds t y g c [c.rcd.p 4, 0xFFFFFFFF, 0] := by
  have hdiff : ∀ l : List Byte, (enumerate (l.zip l)).filter (fun e => e.2.1 != e.2.2) = [] := fun l =>
    List.filter_eq_nil_iff.mpr fun e he => by
      have hmem : e.2 ∈ l.zip l := (List.of_mem_zip he).2
      simp [zip_self_same hmem]
  have hf : svHayCompare (s.newJob g c p) = (s.newJob g c p).finish [c.rcd.p 4, 0xFFFFFFFF, 0] := by
    have hreadA : (s.newJob g c p).hayRd ((s.newJob g c p).haddr 0) ((s.newJob g c p).a 4) =
        (s.newJob g c p, s.hayBytes c.rcd.owner (c.rcd.hay 0) (c.rcd.p 4)) := hayRd_newJob hrun hn ha
    have hreadB : (s.newJob g c p).hayRd ((s.newJob g c p).haddr 2) ((s.newJob g c p).a 4) =
        (s.newJob g c p, s.hayBytes c.rcd.owner (c.rcd.hay 2) (c.rcd.p 4)) := hayRd_newJob hrun hn hb
    unfold svHayCompare
    simp only [hreadA, hreadB, ← hsame, hdiff]
    rfl
  obtain ⟨hends, -⟩ := Job.endsOk_finish (c := c) (runs_newJob s g c p) rfl [c.rcd.p 4, 0xFFFFFFFF, 0]
  rw [← hf] at hends
  obtain ⟨t, ht, hserv⟩ := service_leaves hrun (i := .svHayCompare g none p) rfl rfl hends
  exact ⟨t, _, ht, hserv⟩

end

/-- Settles O35: each service by its own lemma above. -/
theorem hayloftServicesAnswer : Obligations.HayloftServicesAnswer := by
  unfold Obligations.HayloftServicesAnswer
  intro g p c s n o hn
  refine ⟨fun hrun hsrc hdst => ?_, fun hrun h4 hdst => ?_, svHayCrc_ends hn, svHayCompare_ends hn⟩
  · obtain ⟨t, y, ht, hserv, hread, -⟩ := svHayCopy_leaves hn hrun hsrc hdst
    exact ⟨t, y, ht, hserv, hread⟩
  · obtain ⟨t, y, ht, hserv, hread, -⟩ := svHayFill_leaves hn hrun h4 hdst
    exact ⟨t, y, ht, hserv, hread⟩

/-- Settles O59: the bytes of each store lie in its words alone. -/
theorem hayloftStoresStayInTheirWords : Obligations.HayloftStoresStayInTheirWords := by
  unfold Obligations.HayloftStoresStayInTheirWords
  intro g p c s o kept
  refine ⟨fun w h hw hpause hok => ?_, fun hn => ⟨fun hrun h4 hdst => ?_, fun hrun hsrc hdst => ?_⟩⟩
  · refine ⟨_, exec_hst_stores h hw hpause hok, fun b hb => ?_, (regs_hayWriteBytes ..).trans (regs_reach15 ..)⟩
    refine (cells_hayWriteBytes_outside (by rwa [bytesOf_length])).trans ?_
    rw [State.atWord, reach15_eq]
  · obtain ⟨t, y, ht, hserv, -, hkept, hregs⟩ := svHayFill_leaves hn hrun h4 hdst
    exact ⟨t, y, ht, hserv, hkept, hregs⟩
  · obtain ⟨t, y, ht, hserv, -, hkept, hregs⟩ := svHayCopy_leaves hn hrun hsrc hdst
    exact ⟨t, y, ht, hserv, hkept, hregs⟩

end Sys2Proof.Machine

/-!
PROOF. A stage as a job that goes on in a state of the part with a context (assumption 40): what each of its steps makes of the two;
the register services (R485), and O34.
-/

namespace Sys2Proof.Machine

/-! ### Jobs that go on -/

/-- The job that goes on in state `x` with context `d`. -/
abbrev jobAt (x : State) (d : Ctx) (g : Fin 8) (p : Probe) : Job := ⟨x, d, g, p, none, none, false⟩

/-- Working value `i` stored. -/
def Ctx.setT (d : Ctx) (i v : Nat) : Ctx := { d with tmp := (upto (max 12 (i + 1))).map fun k => if k = i then v else d.t k }

/-- Result values stored. -/
def Ctx.withVals (d : Ctx) (vs : List Nat) : Ctx := { d with vs := vs.map word }

/-- The next stage. -/
def Ctx.atStage (d : Ctx) (n : Nat) : Ctx := { d with stage := n }

section
variable (d : Ctx)

@[simp] theorem rcd_setT (i v : Nat) : (d.setT i v).rcd = d.rcd := rfl
@[simp] theorem rcd_withVals (vs : List Nat) : (d.withVals vs).rcd = d.rcd := rfl
@[simp] theorem rcd_atStage (n : Nat) : (d.atStage n).rcd = d.rcd := rfl
@[simp] theorem rcd_note (e : Change) : (d.note e).rcd = d.rcd := rfl
@[simp] theorem vs_withVals (vs : List Nat) : (d.withVals vs).vs = vs.map word := rfl
@[simp] theorem vs_note (e : Change) : (d.note e).vs = d.vs := rfl

end

section
variable {x : State} {d : Ctx} {g : Fin 8} {p : Probe}

theorem newJob_eq (s : State) (g : Fin 8) (c : Ctx) (p : Probe) : s.newJob g c p = jobAt (s.reach15 c.rcd.op p.addr.toNat) c g p := rfl

theorem runs_jobAt : (jobAt x d g p).Runs := ⟨rfl, rfl⟩

@[simp] theorem bind_jobAt (f : Job → Job) : (jobAt x d g p).bind f = f (jobAt x d g p) := rfl

@[simp] theorem setT_jobAt (i v : Nat) : (jobAt x d g p).setT i v = jobAt x (d.setT i v) g p := rfl

@[simp] theorem addT_jobAt (i v : Nat) : (jobAt x d g p).addT i v = jobAt x (d.setT i (d.t i + v)) g p := rfl

@[simp] theorem vals_jobAt (vs : List Nat) : (jobAt x d g p).vals vs = jobAt x (d.withVals vs) g p := rfl

@[simp] theorem stage_jobAt (n : Nat) : (jobAt x d g p).stage n = jobAt x (d.atStage n) g p := rfl

@[simp] theorem mark_jobAt : (jobAt x d g p).mark = jobAt x (d.setT 0 x.now) g p := rfl

@[simp] theorem t_jobAt (i : Nat) : (jobAt x d g p).t i = d.t i := rfl

theorem each_jobAt_nil {α : Type} (f : α → Job → Job) : (jobAt x d g p).each [] f = jobAt x d g p := rfl

theorem each_jobAt_cons {α : Type} (a : α) (l : List α) (f : α → Job → Job) :
    (jobAt x d g p).each (a :: l) f = (f a (jobAt x d g p)).each l f := rfl

theorem act_jobAt (f : State → State) : (jobAt x d g p).act f = jobAt (f x) d g p := rfl

theorem Ctx.t_setT (d : Ctx) {i k v : Nat} (hk : k < 12) : (d.setT i v).t k = if k = i then v else d.t k :=
  Job.t_setT (j := ⟨State.reset, d, 0, ⟨none, .clean, 0, []⟩, none, none, false⟩) ⟨rfl, rfl⟩ hk

theorem await_jobAt {cond : Bool} (h : cond = true) (limit : Nat) (f : Job → Job) :
    (jobAt x d g p).await cond limit f = f (jobAt x d g p) := if_pos h

/-- A read of a register that the owner reaches. -/
theorem rdAt_jobAt {a : Nat} (h : x.reaches (.groom g) a = true) :
    (jobAt x d g p).rdAt a = (jobAt (x.read32 (.groom g) a).1 d g p, (x.read32 (.groom g) a).2.toNat) :=
  Job.rdAt_reaches runs_jobAt h

/-- A write that its block takes. -/
theorem wrAt_jobAt {a v : Nat} (h : x.takes (.groom g) a (word v) = true) :
    (jobAt x d g p).wrAt a v = jobAt (x.write32 (.groom g) a (word v)) (d.note ⟨false, a, (word v).toNat⟩) g p :=
  Job.wrAt_takes runs_jobAt h

/-- A read of the hayloft within the owner's regions and without an error. -/
theorem hayRd_jobAt (hpause : x.trainPause = false) (hp : p.hay = none) {a n : Nat} (hn : 0 < n)
    (h : x.hayOk d.rcd.owner a n = true) : (jobAt x d g p).hayRd a n = (jobAt x d g p, x.hayBytes d.rcd.owner a n) :=
  Job.hayRd_ok runs_jobAt hpause hp hn h

/-- A write of the hayloft within the owner's regions, to words that are not poisoned. -/
theorem hayWr_jobAt (hpause : x.trainPause = false) (hp : p.hay = none) {a : Nat} {bs : List Byte} (hn : 0 < bs.length)
    (h : x.hayOk d.rcd.owner a bs.length = true) : (jobAt x d g p).hayWr a bs =
      jobAt (x.hayWriteBytes d.rcd.owner a bs) (d.note ⟨true, a / 64, bs.length⟩) g p :=
  Job.hayWr_ok runs_jobAt hpause hp hn h

end

/-- The part as a routine that ends in state `x` leaves it, before the end of its record. -/
def State.atEnd (x : State) : State := { x with free := x.free + 32 }

section
variable {s : State} {g : Fin 8} {c : Ctx} {p : Probe} {op k : Nat}

/-- A stage that ends OK in state `x` with context `d` ends the service. -/
theorem service_ends_at (h : s.romRuns g c op k p = true) {i : Instr} {is : Nat → Bool} {f : Job → Job}
    (hexec : exec i s = .next (s.service g none p is f)) (hop : is op = true) {x : State} {d : Ctx} {vs : List Nat}
    (hf : f (s.newJob g c p) = (jobAt x d g p).fail svOk) (hrcd : d.rcd = c.rcd) (hvs : d.vs = vs.map word) :
    ∃ t, exec i s = .next t ∧ ServiceEnds t x.atEnd g c vs := by
  obtain ⟨hends, hs⟩ := Job.endsOk_fail (c := c) (j := jobAt x d g p) runs_jobAt hrcd hvs
  rw [← hf] at hends hs
  obtain ⟨t, ht, hserv⟩ := service_leaves h hexec hop hends
  rw [Job.left, hs] at hserv
  exact ⟨t, ht, hserv⟩

/-- A stage that finishes with result words ends the service. -/
theorem service_finishes_at (h : s.romRuns g c op k p = true) {i : Instr} {is : Nat → Bool} {f : Job → Job}
    (hexec : exec i s = .next (s.service g none p is f)) (hop : is op = true) {x : State} {d : Ctx} {vs : List Nat}
    (hf : f (s.newJob g c p) = (jobAt x d g p).finish vs) (hrcd : d.rcd = c.rcd) :
    ∃ t, exec i s = .next t ∧ ServiceEnds t x.atEnd g c vs :=
  service_ends_at h hexec hop (d := d.withVals vs) hf hrcd rfl

/-! ### The register services -/

theorem svNop_ends (hrun : s.romRuns g c 0x00 0 p = true) :
    ∃ t y, exec (.svNop g none p) s = .next t ∧ ServiceEnds t y g c [0, 0, 0, 0] ∧ y.regs = s.regs := by
  obtain ⟨t, ht, hserv⟩ := service_finishes_at hrun (i := .svNop g none p) (f := svNop) rfl rfl (d := c) rfl rfl
  exact ⟨t, _, ht, hserv, regs_reach15 ..⟩

theorem regList_one (hone : c.rcd.f 0 0 2 = 0) : (s.newJob g c p).regList = [c.rcd.f 0 2 30 * 4] := by
  have hn : (s.newJob g c p).f 0 0 2 = 0 := hone
  unfold Job.regList
  rw [hn]
  rfl

/-- A read of the one register that a record names. -/
theorem rdAt_newJob {a : Nat} (h : s.reaches (.groom g) a = true) :
    let x := (s.reach15 c.rcd.op p.addr.toNat).read32 (.groom g) a
    (s.newJob g c p).rdAt a = (jobAt x.1 c g p, x.2.toNat) :=
  rdAt_jobAt ((reaches_reach15 ..).trans h)

theorem svRegRead_ends (hone : c.rcd.f 0 0 2 = 0) (hreach : s.reaches (.groom g) (c.rcd.f 0 2 30 * 4) = true)
    (hrun : s.romRuns g c 0x01 0 p = true) :
    let x := (s.reach15 c.rcd.op p.addr.toNat).read32 (.groom g) (c.rcd.f 0 2 30 * 4)
    ∃ t y, exec (.svRegRead g none p) s = .next t ∧ ServiceEnds t y g c [x.2.toNat, 0, 0, 0] := by
  intro x
  obtain ⟨t, ht, hserv⟩ := service_finishes_at hrun (i := .svRegRead g none p) (f := svRegRead) rfl rfl (x := x.1) (d := c)
    (vs := [x.2.toNat, 0, 0, 0]) (by
      unfold svRegRead Job.rdAll
      simp only [regList_one hone, List.foldl_cons, List.foldl_nil, rdAt_newJob hreach]
      rfl) rfl
  exact ⟨t, _, ht, hserv⟩

theorem svRegWrite_ends (hone : c.rcd.f 0 0 2 = 0) (hreach : s.reaches (.groom g) (c.rcd.f 0 2 30 * 4) = true)
    (hrun : s.romRuns g c 0x02 0 p = true) :
    let a := c.rcd.f 0 2 30 * 4
    let x := (s.reach15 c.rcd.op p.addr.toNat).read32 (.groom g) a
    x.1.takes (.groom g) a (word (c.rcd.p 1)) = true →
    ∃ t y, exec (.svRegWrite g none p) s = .next t ∧ ServiceEnds t y g c [x.2.toNat, 0, 0, 0] ∧
      y.regs = (x.1.write32 (.groom g) a (word (c.rcd.p 1))).regs := by
  intro a x htakes
  obtain ⟨t, ht, hserv⟩ := service_ends_at hrun (i := .svRegWrite g none p) (f := svRegWrite) rfl rfl
    (x := x.1.write32 (.groom g) a (word (c.rcd.p 1)))
    (d := (c.withVals [x.2.toNat, 0, 0, 0]).note ⟨false, a, (word (c.rcd.p 1)).toNat⟩) (vs := [x.2.toNat, 0, 0, 0]) (by
      unfold svRegWrite Job.rdAll
      simp only [regList_one hone, List.foldl_cons, List.foldl_nil, rdAt_newJob hreach]
      rw [← wrAt_jobAt htakes]
      rfl) rfl rfl
  exact ⟨t, _, ht, hserv, rfl⟩

theorem svRegRmw_ends (hrun : s.romRuns g c 0x03 0 p = true) (hreach : s.reaches (.groom g) (c.rcd.f 0 2 30 * 4) = true) :
    let a := c.rcd.f 0 2 30 * 4
    let x := (s.reach15 c.rcd.op p.addr.toNat).read32 (.groom g) a
    let v := (x.2.toNat &&& c.rcd.p 1) ||| c.rcd.p 2
    x.1.takes (.groom g) a (word v) = true →
    ∃ t y, exec (.svRegRmw g none p) s = .next t ∧ ServiceEnds t y g c [x.2.toNat, v] ∧
      y.regs = (x.1.write32 (.groom g) a (word v)).regs := by
  intro a x v htakes
  have hread : (s.newJob g c p).rdAt ((s.newJob g c p).f 0 2 30 * 4) = (jobAt x.1 c g p, x.2.toNat) := rdAt_newJob hreach
  obtain ⟨t, ht, hserv⟩ := service_ends_at hrun (i := .svRegRmw g none p) (f := svRegRmw) rfl rfl
    (x := x.1.write32 (.groom g) a (word v)) (d := (c.withVals [x.2.toNat, v]).note ⟨false, a, (word v).toNat⟩)
    (vs := [x.2.toNat, v]) (by
      unfold svRegRmw
      simp only [hread]
      rw [← wrAt_jobAt htakes]
      rfl) rfl rfl
  exact ⟨t, _, ht, hserv, rfl⟩

/-- The first read of SV_REG_POLL meets its condition. -/
theorem svRegPoll_first {x y : State} {d : Ctx} {v : Nat} {j : Job} (hj : (if j.c.stage = 0 then j.mark.stage 1 else j) = jobAt x d g p)
    (hfirst : d.t 1 = 0) (hread : (jobAt x d g p).rdAt (j.f 0 2 30 * 4) = (jobAt y d g p, v)) (hmet : v &&& j.a 1 = j.a 2) :
    svRegPoll j = (jobAt y (((d.setT 1 1).setT 2 x.now).withVals [v, 1]) g p).fail svOk := by
  unfold svRegPoll
  dsimp only
  rw [hj, if_neg (by simp [hfirst]), hread, if_pos hmet, t_jobAt, hfirst]
  rfl

theorem svRegPoll_ends (hrun : s.romRuns g c 0x04 0 p = true) (htmp : c.tmp = [])
    (hreach : s.reaches (.groom g) (c.rcd.f 0 2 30 * 4) = true) :
    let x := (s.reach15 c.rcd.op p.addr.toNat).read32 (.groom g) (c.rcd.f 0 2 30 * 4)
    x.2.toNat &&& c.rcd.p 1 = c.rcd.p 2 →
    ∃ t y, exec (.svRegPoll g none p) s = .next t ∧ ServiceEnds t y g c [x.2.toNat, 1] := by
  intro x hmet
  have hread : (jobAt (s.reach15 c.rcd.op p.addr.toNat) ((c.setT 0 s.now).atStage 1) g p).rdAt (c.rcd.f 0 2 30 * 4) =
      (jobAt x.1 ((c.setT 0 s.now).atStage 1) g p, x.2.toNat) := rdAt_jobAt ((reaches_reach15 ..).trans hreach)
  have hfirst : ((c.setT 0 s.now).atStage 1).t 1 = 0 := by
    refine (Ctx.t_setT c (by decide)).trans ?_
    simp [Ctx.t, htmp]
  have hbegun : (if (s.newJob g c p).c.stage = 0 then (s.newJob g c p).mark.stage 1 else s.newJob g c p) =
      jobAt (s.reach15 c.rcd.op p.addr.toNat) ((c.setT 0 s.now).atStage 1) g p := by
    rw [if_pos (show (s.newJob g c p).c.stage = 0 from romRuns_stage hrun), newJob_eq, mark_jobAt, stage_jobAt, now_reach15]
  have hf := svRegPoll_first hbegun hfirst hread hmet
  obtain ⟨t, ht, hserv⟩ := service_ends_at hrun (i := .svRegPoll g none p) (f := svRegPoll) rfl rfl
    (vs := [x.2.toNat, 1]) hf (by simp) (vs_withVals ..)
  exact ⟨t, _, ht, hserv⟩

/-- The one pair of SV_REG_BATCH, as its 8 bytes of the hayloft name it. -/
theorem svRegBatch_ends (hrun : s.romRuns g c 0x05 0 p = true) (hone : c.rcd.p 2 = 1)
    (hok : s.hayOk c.rcd.owner (c.rcd.hay 0) 8 = true) :
    let e := s.hayGet c.rcd.owner (c.rcd.hay 0) 8
    let x := s.reach15 c.rcd.op p.addr.toNat
    x.takes (.groom g) (nfld e 0 32) (word (nfld e 32 32)) = true →
    ∃ t y, exec (.svRegBatch g none p) s = .next t ∧ ServiceEnds t y g c [1, 0xFFFFFFFF] ∧
      y.regs = (x.write32 (.groom g) (nfld e 0 32) (word (nfld e 32 32))).regs := by
  intro e x htakes
  have hcount : (s.newJob g c p).a 2 = 1 := hone
  have hread : (s.newJob g c p).hayRd ((s.newJob g c p).haddr 0) 8 = (s.newJob g c p, s.hayBytes c.rcd.owner (c.rcd.hay 0) 8) :=
    hayRd_newJob hrun (by decide) hok
  obtain ⟨t, ht, hserv⟩ := service_ends_at hrun (i := .svRegBatch g none p) (f := svRegBatch) rfl rfl
    (x := x.write32 (.groom g) (nfld e 0 32) (word (nfld e 32 32)))
    (d := ((c.withVals [0, 0xFFFFFFFF]).note ⟨false, nfld e 0 32, (word (nfld e 32 32)).toNat⟩).withVals [1, 0xFFFFFFFF])
    (vs := [1, 0xFFFFFFFF]) (by
      unfold svRegBatch
      simp only [hcount, Nat.mul_one, hread]
      change (if ((jobAt x (c.withVals [0, 0xFFFFFFFF]) g p).wrAt (nfld e 0 32) (nfld e 32 32)).done = some svRefused then _
        else ((jobAt x (c.withVals [0, 0xFFFFFFFF]) g p).wrAt (nfld e 0 32) (nfld e 32 32)).vals _ : Job).fail svOk = _
      rw [wrAt_jobAt htakes, if_neg (by simp)]
      rfl) rfl rfl
  exact ⟨t, _, ht, hserv, rfl⟩

end

/-- Settles O34: each service by its own lemma above. -/
theorem registerServicesAnswer : Obligations.RegisterServicesAnswer := by
  unfold Obligations.RegisterServicesAnswer
  exact ⟨fun _ _ _ _ => svNop_ends, fun _ _ _ _ hone hreach => ⟨svRegRead_ends hone hreach, svRegWrite_ends hone hreach⟩,
    fun _ _ _ _ => svRegRmw_ends, fun _ _ _ _ => svRegPoll_ends, fun _ _ _ _ => svRegBatch_ends⟩

end Sys2Proof.Machine

/-!
PROOF. The wait, run, level and switch services (R485): what the last stage of each leaves; and O36.
-/

namespace Sys2Proof.Machine

section
variable {s : State} {g : Fin 8} {c : Ctx} {p : Probe} {op k : Nat}

@[simp] theorem tick_reach15 (s : State) (op a : Nat) : (s.reach15 op a).tick = s.tick := by
  rw [reach15_eq]
  rfl

@[simp] theorem pins_reach15 (s : State) (op a : Nat) : (s.reach15 op a).pins = s.pins := by
  rw [reach15_eq]

@[simp] theorem rd_reach15 (s : State) (op a : Nat) (k : PageKind) (i o : Nat) : (s.reach15 op a).rd k i o = s.rd k i o :=
  rd_of_regs (regs_reach15 ..) k i o

@[simp] theorem rb_reach15 (s : State) (op a : Nat) (k : PageKind) (i o b : Nat) : (s.reach15 op a).rb k i o b = s.rb k i o b :=
  rb_of_rd (rd_reach15 ..) b

@[simp] theorem rf_reach15 (s : State) (op a : Nat) (k : PageKind) (i o lo n : Nat) :
    (s.reach15 op a).rf k i o lo n = s.rf k i o lo n := rf_of_rd (rd_reach15 ..) lo n

/-- The job that begins stage `k` of a routine. -/
theorem newJob_stage (h : s.romRuns g c op k p = true) : (s.newJob g c p).c.stage = k := romRuns_stage h

/-- The tick as two words. -/
def State.tickPair (s : State) : List Nat := [s.tick % 2 ^ 32, s.tick / 2 ^ 32]

theorem tickWords_newJob : (s.newJob g c p).tickWords = s.tickPair := by
  unfold Job.tickWords State.tickPair
  rw [newJob_eq]
  simp only [tick_reach15]

theorem passed_newJob (us : Nat) : (s.newJob g c p).passed us = decide (us * 3200 ≤ s.now - c.t 0) := by
  unfold Job.passed
  rw [newJob_eq]
  simp only [now_reach15]
  rfl

/-! ### SV_DELAY and SV_WAIT_EVENT -/

theorem svDelay_ends (hrun : s.romRuns g c 0x0A 1 p = true) (hpassed : c.rcd.p 0 * 3200 ≤ s.now - c.t 0) :
    ∃ t y, exec (.svDelay g none p) s = .next t ∧ ServiceEnds t y g c s.tickPair := by
  have hdue : (s.newJob g c p).passed ((s.newJob g c p).a 0) = true := (passed_newJob _).trans (decide_eq_true hpassed)
  obtain ⟨t, ht, hserv⟩ := service_finishes_at hrun (i := .svDelay g none p) (f := svDelay) rfl rfl (d := c) (vs := s.tickPair) (by
    unfold svDelay
    rw [if_neg (by simp [newJob_stage hrun]), if_pos hdue, tickWords_newJob]
    rfl) rfl
  exact ⟨t, _, ht, hserv⟩

theorem svWaitEvent_ends (hrun : s.romRuns g c 0x0B 1 p = true) (hkind : c.rcd.f 0 0 2 = 0)
    (hseen : natBit s.pins.evIn (c.rcd.f 0 4 3) = (c.rcd.f 0 8 1 == 1)) :
    ∃ t y, exec (.svWaitEvent g none p) s = .next t ∧ ServiceEnds t y g c s.tickPair := by
  have hk : (s.newJob g c p).f 0 0 2 = 0 := hkind
  have hev : (s.newJob g c p).eventSeen = true := by
    unfold Job.eventSeen
    simp only [hk]
    rw [newJob_eq, pins_reach15]
    exact beq_iff_eq.mpr hseen
  obtain ⟨t, ht, hserv⟩ := service_finishes_at hrun (i := .svWaitEvent g none p) (f := svWaitEvent) rfl rfl (d := c)
    (vs := s.tickPair) (by
    unfold svWaitEvent
    simp only [newJob_stage hrun, hk, Nat.one_ne_zero, if_false, hev]
    rw [newJob_eq, await_jobAt rfl, ← newJob_eq, tickWords_newJob]) rfl
  exact ⟨t, _, ht, hserv⟩

/-! ### SV_SEQ_RUN and SV_SEQ_BATCH -/

theorem svSeqRun_ends (hrun : s.romRuns g c 0x0C 2 p = true) (hover : s.rb .seq (c.rcd.f 0 0 3) Off.seqResultLo 16 = true) :
    let q := c.rcd.f 0 0 3
    ∃ t y, exec (.svSeqRun g none p) s = .next t ∧
      ServiceEnds t y g c [(s.rd .seq q Off.seqResultLo).toNat, (s.rd .seq q Off.seqResultHi).toNat,
        (s.rd .seq q Off.seqVcntLo).toNat, (s.rd .seq q Off.seqStarveEvt).toNat] := by
  intro q
  have hwords : (s.newJob g c p).runWords ((s.newJob g c p).f 0 0 3) = [(s.rd .seq q Off.seqResultLo).toNat,
      (s.rd .seq q Off.seqResultHi).toNat, (s.rd .seq q Off.seqVcntLo).toNat, (s.rd .seq q Off.seqStarveEvt).toNat] := by
    simp only [Job.runWords, rd_newJob]
    rfl
  have hdone : (s.newJob g c p).runOver ((s.newJob g c p).f 0 0 3) = true := (rb_of_rd (rd_newJob ..) 16).trans hover
  obtain ⟨t, ht, hserv⟩ := service_finishes_at hrun (i := .svSeqRun g none p) (f := svSeqRun) rfl rfl (d := c)
    (vs := (s.newJob g c p).runWords ((s.newJob g c p).f 0 0 3)) (by
    unfold svSeqRun
    simp only [newJob_stage hrun, hdone]
    rw [newJob_eq, vals_jobAt, await_jobAt rfl]
    rfl) rfl
  rw [hwords] at hserv
  exact ⟨t, _, ht, hserv⟩

/-- A run counted by SV_SEQ_BATCH, HALTED or not, leaves the index of the run. -/
theorem runCounted_jobAt {x : State} (c : Ctx) (halted : Bool) :
    ∃ d : Ctx, (if halted then (jobAt x c g p).addT 2 1 else (jobAt x c g p).first 3 (c.t 1)) = jobAt x d g p ∧
      d.rcd = c.rcd ∧ d.t 1 = c.t 1 := by
  cases halted
  · by_cases h3 : (jobAt x c g p).t 3 = 0
    · exact ⟨c.setT 3 (c.t 1 + 1), if_pos h3, rfl, Ctx.t_setT c (by decide)⟩
    · exact ⟨c, if_neg h3, rfl, rfl⟩
  · exact ⟨c.setT 2 (c.t 2 + 1), rfl, rfl, Ctx.t_setT c (by decide)⟩

/-- SV_SEQ_BATCH counts a run whose result word is `lo`. -/
def Job.seqBatchCounts (j : Job) (lo : Nat) (halted : Bool) : Job :=
  let y1 := if halted then j.addT 2 1 else j.first 3 (j.t 1)
  let y2 := (y1.setT 4 lo).addT 1 1
  let y3 := (y2.vals [y2.t 1, y2.t 2, y2.t 4, if y2.t 3 = 0 then 0xFFFFFFFF else y2.t 3 - 1]).stage 0
  if y2.t 1 = j.a 2 ∨ (halted = false ∧ j.b 4 0) then y3.fail svOk else y3

theorem svSeqBatch_over {j : Job} (hj : j.Runs) (hstage : j.c.stage = 1) (hover : j.runOver (nfld (j.t 5) 24 3) = true) :
    let lo := (j.s.rd .seq (nfld (j.t 5) 24 3) Off.seqResultLo).toNat
    svSeqBatch j = j.seqBatchCounts lo (decide (nfld lo 8 5 = 0)) := by
  intro lo
  unfold svSeqBatch
  simp only [hstage]
  exact (if_pos hover).trans (Job.bind_of_runs hj _)

/-- The last run of SV_SEQ_BATCH. -/
theorem seqBatchCounts_last {x : State} (lo : Nat) (halted : Bool) (hlast : c.t 1 + 1 = c.rcd.p 2) :
    ∃ (d : Ctx) (vs : List Nat), (jobAt x c g p).seqBatchCounts lo halted = (jobAt x d g p).fail svOk ∧ d.rcd = c.rcd ∧
      d.vs = vs.map word ∧ vs.getD 0 0 = c.rcd.p 2 := by
  obtain ⟨d, hd, hrcd, ht⟩ := runCounted_jobAt (x := x) (g := g) (p := p) c halted
  have hcount : (jobAt x ((d.setT 4 lo).setT 1 ((d.setT 4 lo).t 1 + 1)) g p).t 1 = (jobAt x c g p).a 2 := by
    change _ = c.rcd.p 2
    rw [t_jobAt, Ctx.t_setT _ (by decide), if_pos rfl, Ctx.t_setT _ (by decide), if_neg (by decide), ht, hlast]
  unfold Job.seqBatchCounts
  dsimp only
  rw [t_jobAt, hd, setT_jobAt, addT_jobAt, if_pos (Or.inl hcount)]
  exact ⟨_, _, rfl, by simp [hrcd], rfl, hcount⟩

theorem svSeqBatch_ends (hrun : s.romRuns g c 0x0D 1 p = true) (hlast : c.t 1 + 1 = c.rcd.p 2)
    (hover : s.rb .seq (nfld (c.t 5) 24 3) Off.seqResultLo 16 = true) :
    ∃ t y vs, exec (.svSeqBatch g none p) s = .next t ∧ ServiceEnds t y g c vs ∧ vs.getD 0 0 = c.rcd.p 2 := by
  have hcounts := svSeqBatch_over (j := s.newJob g c p) (runs_newJob ..) (newJob_stage hrun) ((rb_of_rd (rd_newJob ..) 16).trans hover)
  obtain ⟨d, vs, hf, hrcd, hvs, hfirst⟩ := seqBatchCounts_last (x := s.reach15 c.rcd.op p.addr.toNat) (g := g) (p := p) _ _ hlast
  obtain ⟨t, ht, hserv⟩ := service_ends_at hrun (i := .svSeqBatch g none p) rfl rfl (hcounts.trans hf) hrcd hvs
  exact ⟨t, _, vs, ht, hserv, hfirst⟩

/-! ### SV_LEVELS and SV_SWITCH -/

theorem onesOf_one (i : Fin 16) : onesOf (2 ^ i.val) 16 = [i.val] := by
  revert i
  decide

theorem stalls_of_selects {st : Fin 128} {m n : Nat} (h : c.rcd.selects st m n = true) :
    (s.newJob g c p).stalls 0 = [st.val] ∧ c.rcd.f 0 16 n = m := by
  unfold Record.selects at h
  simp only [Bool.and_eq_true, decide_eq_true_eq] at h
  obtain ⟨⟨hfirst, hlast⟩, hmask⟩ := h
  refine ⟨?_, hmask⟩
  change List.range' (c.rcd.f 0 0 7) (c.rcd.f 0 8 7 + 1 - c.rcd.f 0 0 7) = _
  rw [hfirst, hlast, Nat.add_sub_cancel_left]
  rfl

theorem svLevels_ends {st : Fin 128} {ch : Fin 16} (hrun : s.romRuns g c 0x0E 0 p = true)
    (hsel : c.rcd.selects st (2 ^ ch.val) 16 = true) (hown : s.ownerOf .stl st = c.rcd.owner) (hstrobe : c.rcd.f 1 8 1 = 0) :
    let x := s.reach15 c.rcd.op p.addr.toNat
    let a := PageKind.lvl.base st + Off.lvlPre ch (c.rcd.f 1 0 3)
    x.takes (.groom g) a (word (c.rcd.f 2 0 16)) = true →
    ∃ t y, exec (.svLevels g none p) s = .next t ∧ ServiceEnds t y g c [1, 0] ∧
      y.regs = (x.write32 (.groom g) a (word (c.rcd.f 2 0 16))).regs := by
  intro x a htakes
  obtain ⟨hstalls, hmask⟩ := stalls_of_selects (s := s) (g := g) (p := p) hsel
  have hchans : onesOf ((s.newJob g c p).f 0 16 16) 16 = [ch.val] := (congrArg (onesOf · 16) hmask).trans (onesOf_one ch)
  have hno : (s.newJob g c p).b 1 8 = false := by
    unfold Job.b
    rw [newJob_eq, hstrobe]
    rfl
  obtain ⟨t, ht, hserv⟩ := service_ends_at hrun (i := .svLevels g none p) (f := svLevels) rfl rfl
    (x := x.write32 (.groom g) a (word (c.rcd.f 2 0 16)))
    (d := (c.note ⟨false, a, (word (c.rcd.f 2 0 16)).toNat⟩).withVals [1, 0]) (vs := [1, 0]) (by
    unfold svLevels
    simp only [ownStalls_newJob hsel hown, hstalls, hchans, hno, Bool.false_eq_true, if_false]
    rw [newJob_eq]
    change (Job.vals (Job.wrAt (jobAt x c g p) a (c.rcd.f 2 0 16)) [1, 0]).fail svOk = _
    rw [wrAt_jobAt htakes, vals_jobAt]) rfl rfl
  exact ⟨t, _, ht, hserv, rfl⟩

/-- The one batch of SV_SWITCH, over. -/
theorem svSwitch_last {x : State} {st : Nat} (hstage : c.stage = 1) (hstalls : (jobAt x c g p).stalls 0 = [st])
    (hone : c.t 1 = 0) (hover : x.rb .swm st Off.swmResult 16 = true) :
    ∃ d, svSwitch (jobAt x c g p) = (jobAt x d g p).fail svOk ∧ d.rcd = c.rcd ∧
      d.vs = [1, x.rf .swm st Off.swmResult 8 4, c.t 3 + bit (x.rf .swm st Off.swmResult 8 4 != 0)].map word := by
  obtain ⟨code, hcode⟩ : ∃ code, code = x.rf .swm st Off.swmResult 8 4 := ⟨_, rfl⟩
  have hdone : (jobAt x c g p).batchOver st = true := hover
  have hread : (jobAt x c g p).batchCode st = code := hcode.symm
  rw [← hcode]
  have hlen : (((c.setT 1 1).setT 2 code).setT 3 (((c.setT 1 1).setT 2 code).t 3 + bit (code != 0))).t 1 = 1 := by
    simp [Ctx.t_setT]
  unfold svSwitch
  simp only [hstage, Nat.one_ne_zero, if_false, t_jobAt, hone, hstalls, List.getD_cons_zero, hdone, if_true, hread, addT_jobAt,
    setT_jobAt, Nat.zero_add, vals_jobAt, hlen, List.length_cons, List.length_nil]
  exact ⟨_, rfl, rfl, by simp [Ctx.t_setT]⟩

theorem svSwitch_ends {st : Fin 128} (hrun : s.romRuns g c 0x0F 1 p = true) (hfirst : c.rcd.f 0 0 7 = st) (hlast : c.rcd.f 0 8 7 = st)
    (hone : c.t 1 = 0) (hover : s.rb .swm st Off.swmResult 16 = true) :
    ∃ t y, exec (.svSwitch g none p) s = .next t ∧
      ServiceEnds t y g c [1, s.rf .swm st Off.swmResult 8 4, c.t 3 + bit (s.rf .swm st Off.swmResult 8 4 != 0)] := by
  have hstalls : (jobAt (s.reach15 c.rcd.op p.addr.toNat) c g p).stalls 0 = [st.val] := by
    change List.range' (c.rcd.f 0 0 7) (c.rcd.f 0 8 7 + 1 - c.rcd.f 0 0 7) = _
    rw [hfirst, hlast, Nat.add_sub_cancel_left]
    rfl
  obtain ⟨d, hf, hrcd, hvs⟩ := svSwitch_last (romRuns_stage hrun) hstalls hone ((rb_reach15 ..).trans hover)
  rw [rf_reach15] at hvs
  obtain ⟨t, ht, hserv⟩ := service_ends_at hrun (i := .svSwitch g none p) rfl rfl hf hrcd hvs
  exact ⟨t, _, ht, hserv⟩

end

/-- Settles O36: each service by its own lemma above. -/
theorem waitRunAndSwitchServicesAnswer : Obligations.WaitRunAndSwitchServicesAnswer := by
  unfold Obligations.WaitRunAndSwitchServicesAnswer
  exact ⟨fun _ _ _ _ => ⟨svDelay_ends, svWaitEvent_ends⟩, fun _ _ _ _ => svSeqRun_ends, fun _ _ _ _ => svSeqBatch_ends,
    fun _ _ _ _ _ _ => svLevels_ends, fun _ _ _ _ _ => svSwitch_ends⟩

end Sys2Proof.Machine

/-!
PROOF. The contact services (R485 to R487): the verdicts that a report keeps, the last round of SV_SHORTS, and the maps of the last
verdicts; and O37.
-/

namespace Sys2Proof.Machine

section
variable {s x : State} {g : Fin 8} {c d : Ctx} {p : Probe} {op k : Nat}

/-! ### Entries and writes that leave the rest of the part -/

theorem cluster_post (s : State) (n : Nat) (q : Producer) (wait : Bool) (ty body : Nat) :
    (s.post n q wait ty body).cluster = s.cluster := by
  rw [State.post, (entryFrame_offer s n q wait ty body).eq]

/-- A write of the hayloft within the owner's regions leads on, whatever the state of its words. -/
theorem hayWr_inRegion (hpause : x.trainPause = false) {a : Nat} {bs : List Byte}
    (h : x.inRegion d.rcd.owner anyKind a bs.length = true) :
    ∃ y e, (jobAt x d g p).hayWr a bs = jobAt y e g p ∧ e.rcd = d.rcd := by
  unfold Job.hayWr
  split
  · exact ⟨x, d, rfl, rfl⟩
  · rw [bind_jobAt, if_neg (by simp [hpause]), if_neg (by simp [Job.o, h])]
    exact ⟨_, _, rfl, rfl⟩

theorem pause_reach15 (h : s.romRuns g c op k p = true) (op' a : Nat) : (s.reach15 op' a).trainPause = false := by
  rw [← romRuns_pause h, reach15_eq]
  rfl

/-- So does that of a stage that begins. -/
theorem hayWr_newJob_inRegion (hrun : s.romRuns g c op k p = true) {a : Nat} {bs : List Byte}
    (h : s.inRegion c.rcd.owner anyKind a bs.length = true) :
    ∃ y e, (s.newJob g c p).hayWr a bs = jobAt y e g p ∧ e.rcd = c.rcd :=
  hayWr_inRegion (pause_reach15 hrun _ _) ((inRegion_reach15 ..).trans h)

/-! ### Verdicts -/

/-- The last verdict of channel `ch` for owner `o`, plus 1; 0 where it was never judged. -/
def State.verdictOf (s : State) (o ch : Nat) : Nat := Store.getD (fun _ => 0) s.cluster.verdicts (2048 * ownerIx o + ch)

/-- A report of a channel keeps a verdict of it, and leaves those of the others. -/
theorem report_jobAt (x : State) (c : Ctx) (g : Fin 8) (p : Probe) (ch : Nat) :
    ∃ y, (jobAt x c g p).report ch = jobAt y c g p ∧ y.verdictOf c.rcd.owner ch ≠ 0 ∧
      ∀ ch', x.verdictOf c.rcd.owner ch' ≠ 0 → y.verdictOf c.rcd.owner ch' ≠ 0 := by
  have hput : ∀ (v n : Nat) (q : Producer) (ty body ch' : Nat),
      (State.post { x with cluster := { x.cluster with
        verdicts := Store.put x.cluster.verdicts (2048 * ownerIx c.rcd.owner + ch) (v + 1) } } n q true ty body).verdictOf
          c.rcd.owner ch' = if ch' = ch then v + 1 else x.verdictOf c.rcd.owner ch' := by
    intro v n q ty body ch'
    unfold State.verdictOf
    rw [cluster_post]
    dsimp only
    rw [Store.getD_put]
    simp only [Nat.add_left_cancel_iff]
  refine ⟨_, rfl, ?_, fun ch' h => ?_⟩
  · refine (hput _ _ _ _ _ ch).trans_ne ?_
    simp
  · refine (hput _ _ _ _ _ ch').trans_ne ?_
    split
    · exact Nat.succ_ne_zero _
    · exact h

theorem each_report (l : List Nat) (x : State) (c : Ctx) (g : Fin 8) (p : Probe) :
    ∃ y, (jobAt x c g p).each l (fun ch z => z.report ch) = jobAt y c g p ∧ (∀ ch ∈ l, y.verdictOf c.rcd.owner ch ≠ 0) ∧
      ∀ ch, x.verdictOf c.rcd.owner ch ≠ 0 → y.verdictOf c.rcd.owner ch ≠ 0 := by
  induction l generalizing x with
  | nil => exact ⟨x, rfl, fun _ h => absurd h List.not_mem_nil, fun _ h => h⟩
  | cons a l ih =>
    obtain ⟨y, hy, hown, hother⟩ := report_jobAt x c g p a
    obtain ⟨z, hz, hall, hkeep⟩ := ih y
    refine ⟨z, ?_, fun ch hch => ?_, fun ch h => hkeep ch (hother ch h)⟩
    · rw [each_jobAt_cons, hy, hz]
    · rcases List.mem_cons.mp hch with rfl | hch
      · exact hkeep _ hown
      · exact hall ch hch

theorem mem_onesOf {m n i : Nat} : i ∈ onesOf m n ↔ i < n ∧ natBit m i = true := by
  simp [onesOf, natBit]

/-- The channels that a record selects. -/
theorem mem_chans {ch : Nat} : ch ∈ (jobAt x c g p).chans ↔
    ∃ st i, c.rcd.f 0 0 7 ≤ st ∧ st ≤ c.rcd.f 0 8 7 ∧ i < 16 ∧ natBit (c.rcd.f 0 16 16) i = true ∧ ch = 16 * st + i := by
  unfold Job.chans
  simp only [List.mem_flatten, List.mem_map, exists_exists_and_eq_and, Job.stalls, List.mem_range'_1, mem_onesOf, Job.f]
  constructor
  · rintro ⟨st, ⟨hlo, hhi⟩, i, ⟨hi, hbit⟩, rfl⟩
    exact ⟨st, i, hlo, by omega, hi, hbit, rfl⟩
  · rintro ⟨st, i, hlo, hhi, hi, hbit, rfl⟩
    exact ⟨st, ⟨hlo, by omega⟩, i, ⟨hi, hbit⟩, rfl⟩

/-! ### SV_CONTACT and SV_CONTACT_PMU -/

/-- The last stage of a contact check, every batch over: each selected channel is reported. -/
theorem svContact_last (hstage : c.stage = 6) (hover : (jobAt x c g p).connected (jobAt x c g p).pmuChans = true) :
    ∃ y, svContact (jobAt x c g p) = (jobAt y c g p).finish (jobAt x c g p).contactWords ∧
      ∀ ch ∈ (jobAt x c g p).chans, y.verdictOf c.rcd.owner ch ≠ 0 := by
  obtain ⟨y, hy, hall, -⟩ := each_report (jobAt x c g p).chans x c g p
  refine ⟨y, ?_, hall⟩
  unfold svContact
  simp only [hstage]
  rw [if_pos hover, hy]

/-- Every channel that record `c` selects has a verdict for its owner. -/
def State.Judged (y : State) (c : Ctx) : Prop :=
  ∀ st < 128, ∀ i < 16, c.rcd.f 0 0 7 ≤ st → st ≤ c.rcd.f 0 8 7 → natBit (c.rcd.f 0 16 16) i = true →
    y.verdictOf c.rcd.owner (16 * st + i) ≠ 0

theorem contact_ends (hrun : s.romRuns g c op 6 p = true) {i : Instr} {is : Nat → Bool}
    (hexec : exec i s = .next (s.service g none p is svContact)) (hop : is op = true)
    (hover : ∀ x : State, x.regs = s.regs → (jobAt x c g p).connected (jobAt x c g p).pmuChans = true) :
    ∃ t y vs, exec i s = .next t ∧ ServiceEnds t y g c vs ∧ y.Judged c := by
  obtain ⟨y, hf, hall⟩ := svContact_last (x := s.reach15 c.rcd.op p.addr.toNat) (romRuns_stage hrun)
    (hover _ (regs_reach15 ..))
  obtain ⟨t, ht, hserv⟩ := service_finishes_at hrun hexec hop hf rfl
  exact ⟨t, _, _, ht, hserv, fun st _ i hi hlo hhi hbit => hall _ (mem_chans.mpr ⟨st, i, hlo, hhi, hi, hbit, rfl⟩)⟩

theorem romRuns_op (h : s.romRuns g c op k p = true) : c.rcd.op = op := by
  unfold State.romRuns at h
  simp only [Bool.and_eq_true, decide_eq_true_eq] at h
  exact h.1.1.1.1.1.1.1.1.1.2

theorem svContact_ends (hrun : s.romRuns g c 0x10 6 p = true) (htdr : c.rcd.f 1 0 2 = 0) :
    ∃ t y vs, exec (.svContact g none p) s = .next t ∧ ServiceEnds t y g c vs ∧ y.Judged c := by
  refine contact_ends hrun rfl rfl fun x _ => ?_
  have hmethod : (jobAt x c g p).method = 0 := (if_neg (by simp [romRuns_op hrun])).trans htdr
  have hnone : (jobAt x c g p).pmuChans = [] := if_pos hmethod
  rw [hnone]
  rfl

theorem mem_stallsIn {l : List Nat} {st : Nat} (h : st ∈ stallsIn l) : ∃ ch ∈ l, ch / 16 = st := by
  simpa [stallsIn] using h

theorem svContactPmu_ends (hrun : s.romRuns g c 0x14 6 p = true)
    (hover : ∀ st < 128, c.rcd.f 0 0 7 ≤ st → st ≤ c.rcd.f 0 8 7 → s.rb .swm st Off.swmResult 16 = true) :
    ∃ t y vs, exec (.svContactPmu g none p) s = .next t ∧ ServiceEnds t y g c vs ∧ y.Judged c := by
  refine contact_ends hrun rfl rfl fun x hx => List.all_eq_true.mpr fun st hst => ?_
  obtain ⟨ch, hch, rfl⟩ := mem_stallsIn hst
  have hmem : ch ∈ (jobAt x c g p).chans := by
    unfold Job.pmuChans at hch
    split at hch
    · cases hch
    · exact List.mem_of_mem_filter hch
  obtain ⟨st, i, hlo, hhi, hi, -, rfl⟩ := mem_chans.mp hmem
  have hlt : c.rcd.f 0 8 7 < 128 := fld_lt _ _ _
  rw [show (16 * st + i) / 16 = st by omega]
  exact (rb_of_rd (rd_of_regs hx .swm st _) 16).trans (hover st (by omega) hlo hhi)

/-! ### SV_SHORTS -/

/-- A PMU whose output is off is left alone. -/
theorem pmuOff_of_off {j : Job} {n : Nat} (h : j.s.rb .pmu (n / 4) (Off.pmuCtrl (n % 4)) 0 = false) : j.pmuOff n = j := by
  unfold Job.pmuOff
  exact if_neg (by simp [h])

/-- The step of SV_SHORTS over the result of a channel, whose PMU is off. -/
theorem shortsJudge_jobAt (x : State) (c : Ctx) (g : Fin 8) (p : Probe) (ch : Nat)
    (hoff : x.rb .pmu (ch / 4 / 4) (Off.pmuCtrl (ch / 4 % 4)) 0 = false) :
    ∃ d : Ctx, Job.pmuOff (if (jobAt x c g p).complete (ch / 4) && decide ((jobAt x c g p).f 2 0 24 <
        ((jobAt x c g p).code (ch / 4)).natAbs) then ((jobAt x c g p).addT 2 1).first 3 ch else jobAt x c g p) (ch / 4) =
      jobAt x d g p ∧ d.rcd = c.rcd := by
  have hcount : ∃ d : Ctx, (if (jobAt x c g p).complete (ch / 4) && decide ((jobAt x c g p).f 2 0 24 <
        ((jobAt x c g p).code (ch / 4)).natAbs) then ((jobAt x c g p).addT 2 1).first 3 ch else jobAt x c g p) =
      jobAt x d g p ∧ d.rcd = c.rcd := by
    split
    · rw [addT_jobAt]
      unfold Job.first
      split
      · exact ⟨_, rfl, rfl⟩
      · exact ⟨_, rfl, rfl⟩
    · exact ⟨c, rfl, rfl⟩
  obtain ⟨d, hd, hrcd⟩ := hcount
  rw [hd]
  exact ⟨d, pmuOff_of_off hoff, hrcd⟩

/-- The step of SV_SHORTS over the result of a channel. -/
def shortsJudge (ch : Nat) (y : Job) : Job :=
  let y1 := if y.complete (ch / 4) && decide (y.f 2 0 24 < (y.code (ch / 4)).natAbs) then (y.addT 2 1).first 3 ch else y
  y1.pmuOff (ch / 4)

theorem each_shortsJudge (l : List Nat) (x : State) (c : Ctx) (g : Fin 8) (p : Probe)
    (hoff : ∀ ch ∈ l, x.rb .pmu (ch / 4 / 4) (Off.pmuCtrl (ch / 4 % 4)) 0 = false) :
    ∃ d, (jobAt x c g p).each l shortsJudge = jobAt x d g p ∧ d.rcd = c.rcd := by
  induction l generalizing c with
  | nil => exact ⟨c, rfl, rfl⟩
  | cons a l ih =>
    obtain ⟨d, hd, hrcd⟩ := shortsJudge_jobAt x c g p a (hoff a List.mem_cons_self)
    obtain ⟨e, he, hrcd'⟩ := ih d fun ch hch => hoff ch (List.mem_cons_of_mem a hch)
    refine ⟨e, ?_, hrcd'.trans hrcd⟩
    have hstep : shortsJudge a (jobAt x c g p) = jobAt x d g p := hd
    rw [each_jobAt_cons, hstep, he]

/-- After round 3 no round follows. -/
theorem shortsRound_over (j : Job) : j.shortsRound 4 = (j.vals [j.t 2, j.firstV 3]).fail svOk := by
  have hnone : (upto 4).filter (fun k => decide (4 ≤ k) && !(roundOf j.chans k).isEmpty) = [] :=
    List.filter_eq_nil_iff.mpr fun k hk => by
      have hlt : k < 4 := List.mem_range.mp hk
      simp [Nat.not_le.mpr hlt]
  unfold Job.shortsRound
  rw [hnone]

theorem svShorts_ends (hrun : s.romRuns g c 0x12 4 p = true) (hround : c.t 1 = 3)
    (hidle : ∀ st < 128, ∀ u < 4, c.rcd.f 0 0 7 ≤ st → st ≤ c.rcd.f 0 8 7 →
      s.rb .cnv st (Off.cnvRes u 0) 16 = true ∧ s.rb .pmu st (Off.pmuCtrl u) 0 = false) :
    ∃ t y vs, exec (.svShorts g none p) s = .next t ∧ ServiceEnds t y g c vs ∧ vs.length = 2 := by
  have hunit : ∀ ch ∈ roundOf (s.newJob g c p).chans 3, s.rb .cnv (ch / 4 / 4) (Off.cnvRes (ch / 4 % 4) 0) 16 = true ∧
      s.rb .pmu (ch / 4 / 4) (Off.pmuCtrl (ch / 4 % 4)) 0 = false := by
    intro ch hch
    obtain ⟨st, i, hlo, hhi, hi, -, rfl⟩ := mem_chans.mp (List.mem_of_mem_filter hch)
    have hlt : c.rcd.f 0 8 7 < 128 := fld_lt _ _ _
    rw [show (16 * st + i) / 4 / 4 = st by omega]
    exact hidle st (by omega) _ (Nat.mod_lt _ (by decide)) hlo hhi
  obtain ⟨d, hd, hrcd⟩ := each_shortsJudge (roundOf (s.newJob g c p).chans 3) (s.reach15 c.rcd.op p.addr.toNat) c g p
    fun ch hch => (rb_reach15 ..).trans (hunit ch hch).2
  have hconv : (s.newJob g c p).converted (pmusOf (roundOf (s.newJob g c p).chans 3)) = true := by
    refine List.all_eq_true.mpr fun n hn => ?_
    obtain ⟨ch, hch, rfl⟩ : ∃ ch ∈ roundOf (s.newJob g c p).chans 3, ch / 4 = n := by simpa [pmusOf] using hn
    exact (rb_of_rd (rd_newJob ..) 16).trans (hunit ch hch).1
  have hf : svShorts (s.newJob g c p) = ((jobAt (s.reach15 c.rcd.op p.addr.toNat) d g p).vals [d.t 2,
      (jobAt (s.reach15 c.rcd.op p.addr.toNat) d g p).firstV 3]).shortsRound 4 := by
    unfold svShorts
    simp only [newJob_stage hrun, show (s.newJob g c p).t 1 = 3 from hround, hconv, if_true]
    change (let y := (s.newJob g c p).each (roundOf (s.newJob g c p).chans 3) shortsJudge
      (y.vals [y.t 2, y.firstV 3]).shortsRound 4) = _
    have heach : (s.newJob g c p).each (roundOf (s.newJob g c p).chans 3) shortsJudge = _ := hd
    rw [heach]
    rfl
  rw [shortsRound_over] at hf
  obtain ⟨t, ht, hserv⟩ := service_finishes_at hrun (i := .svShorts g none p) rfl rfl (x := s.reach15 c.rcd.op p.addr.toNat)
    (d := d.withVals [d.t 2, (jobAt (s.reach15 c.rcd.op p.addr.toNat) d g p).firstV 3]) hf (by simpa using hrcd)
  exact ⟨t, _, _, ht, hserv, rfl⟩

/-! ### Maps of the last verdicts -/

theorem verdictOf_reach15 (o op a ch : Nat) : (s.reach15 op a).verdictOf o ch = s.verdictOf o ch := by
  rw [reach15_eq]
  rfl

theorem ownerOf_reach15 (op a : Nat) (k : PageKind) (i : Nat) : (s.reach15 op a).ownerOf k i = s.ownerOf k i := by
  rw [reach15_eq]
  rfl

theorem svOpenMap_ends (hrun : s.romRuns g c 0x15 0 p = true) (hseq : s.ownerOf .seq (c.rcd.f 2 0 3) = c.rcd.owner)
    (hin : s.inRegion c.rcd.owner anyKind (c.rcd.hay 0) 64 = true) (hno : c.rcd.f 2 8 1 = 0) :
    ∃ t y vs, exec (.svOpenMap g none p) s = .next t ∧ ServiceEnds t y g c vs ∧
      vs.getD 1 0 = ((upto 2048).filter fun ch => decide (1 < s.verdictOf c.rcd.owner ch) &&
        s.rb .stl (ch / 16) (Off.stlAssign (ch % 16)) 31 && s.ownerOf .stl (ch / 16) == c.rcd.owner).length := by
  have hkeep : (s.newJob g c p).b 2 8 = false := by
    unfold Job.b
    rw [newJob_eq, hno]
    rfl
  have hverdict : ∀ ch, (s.newJob g c p).lastVerdict ch = s.verdictOf c.rcd.owner ch := fun ch => verdictOf_reach15 ..
  have hassign : ∀ ch, (s.newJob g c p).s.rb .stl (ch / 16) (Off.stlAssign (ch % 16)) 31 =
      s.rb .stl (ch / 16) (Off.stlAssign (ch % 16)) 31 := fun ch => rb_reach15 ..
  have howner : ∀ ch, (s.newJob g c p).s.ownerOf .stl (ch / 16) = s.ownerOf .stl (ch / 16) := fun ch => ownerOf_reach15 ..
  obtain ⟨vs, hf, hvs⟩ : ∃ vs, (∃ y d, svOpenMap (s.newJob g c p) = (jobAt y d g p).finish vs ∧ d.rcd = c.rcd) ∧
      vs.getD 1 0 = ((upto 2048).filter fun ch => decide (1 < s.verdictOf c.rcd.owner ch) &&
        s.rb .stl (ch / 16) (Off.stlAssign (ch % 16)) 31 && s.ownerOf .stl (ch / 16) == c.rcd.owner).length := by
    have hown : (s.newJob g c p).ownSeq ((s.newJob g c p).f 2 0 3) = s.newJob g c p := ownSeq_newJob hseq
    choose y d hw hrcd using fun m => hayWr_newJob_inRegion (p := p) hrun (a := (s.newJob g c p).haddr 0)
      (bs := bytesOf 64 m) (by rw [bytesOf_length]; exact hin)
    unfold svOpenMap
    have ho : (s.newJob g c p).o = c.rcd.owner := rfl
    simp only [hown, hkeep, hverdict, hassign, howner, ho, Bool.false_eq_true, if_false]
    rw [hw]
    exact ⟨_, ⟨_, _, rfl, hrcd _⟩, by rw [List.getD_cons_succ, List.getD_cons_zero]⟩
  obtain ⟨y, d, hf, hrcd⟩ := hf
  obtain ⟨t, ht, hserv⟩ := service_finishes_at hrun (i := .svOpenMap g none p) rfl rfl hf hrcd
  exact ⟨t, _, vs, ht, hserv, hvs⟩

theorem svContactReport_ends (hrun : s.romRuns g c 0x16 0 p = true)
    (hin : s.inRegion c.rcd.owner anyKind (c.rcd.hay 0) 1024 = true) :
    ∃ t y, exec (.svContactReport g none p) s = .next t ∧
      ServiceEnds t y g c [((upto 2048).filter fun ch => s.verdictOf c.rcd.owner ch != 0).length,
        2048 - ((upto 2048).filter fun ch => s.verdictOf c.rcd.owner ch != 0).length] := by
  have hverdict : ∀ ch, (s.newJob g c p).lastVerdict ch = s.verdictOf c.rcd.owner ch := fun ch => verdictOf_reach15 ..
  choose y d hw hrcd using fun f : Nat → Byte => hayWr_newJob_inRegion (p := p) hrun (a := (s.newJob g c p).haddr 0)
    (bs := (upto 1024).map f) (by rw [List.length_map, upto, List.length_range]; exact hin)
  obtain ⟨e, y, hf, he⟩ : ∃ e y, svContactReport (s.newJob g c p) = (jobAt y e g p).finish
      [((upto 2048).filter fun ch => s.verdictOf c.rcd.owner ch != 0).length,
        2048 - ((upto 2048).filter fun ch => s.verdictOf c.rcd.owner ch != 0).length] ∧ e.rcd = c.rcd := by
    unfold svContactReport
    simp only [hverdict]
    rw [hw]
    exact ⟨_, _, rfl, hrcd _⟩
  obtain ⟨t, ht, hserv⟩ := service_finishes_at hrun (i := .svContactReport g none p) rfl rfl hf he
  exact ⟨t, _, ht, hserv⟩

theorem svIndexWait_ends (hrun : s.romRuns g c 0x17 1 p = true) (hlevel : s.pins.indexN = (c.rcd.f 0 0 1 == 1)) :
    ∃ t y, exec (.svIndexWait g none p) s = .next t ∧ ServiceEnds t y g c s.tickPair := by
  have hmet : ((s.newJob g c p).s.pins.indexN == (s.newJob g c p).b 0 0) = true := by
    rw [newJob_eq, pins_reach15]
    exact beq_iff_eq.mpr hlevel
  obtain ⟨t, ht, hserv⟩ := service_finishes_at hrun (i := .svIndexWait g none p) (f := svIndexWait) rfl rfl (d := c)
    (vs := s.tickPair) (by
    unfold svIndexWait
    simp only [newJob_stage hrun, Nat.one_ne_zero, if_false, hmet]
    rw [newJob_eq, await_jobAt rfl, ← newJob_eq, tickWords_newJob]) rfl
  exact ⟨t, _, ht, hserv⟩

end

/-- Settles O37: each service by its own lemma above. -/
theorem contactServicesAnswer : Obligations.ContactServicesAnswer := by
  unfold Obligations.ContactServicesAnswer
  exact ⟨fun _ _ _ _ => ⟨svContact_ends, svContactPmu_ends⟩, fun _ _ _ _ => svShorts_ends,
    fun _ _ _ _ => ⟨svOpenMap_ends, svContactReport_ends⟩, fun _ _ _ _ => svIndexWait_ends⟩

end Sys2Proof.Machine

/-!
PROOF. The time measurement, reflectometry and stamp services (R485): what the last stage of each leaves; and O39.
-/

namespace Sys2Proof.Machine

section
variable {s : State} {g : Fin 8} {c : Ctx} {p : Probe} {op k : Nat}

/-! ### Runs of a unit -/

theorem chans_of_selects {st : Fin 128} {i : Fin 16} (h : c.rcd.selects st (2 ^ i.val) 16 = true) :
    (s.newJob g c p).chans = [16 * st.val + i.val] := by
  obtain ⟨hstalls, hmask⟩ := stalls_of_selects (s := s) (g := g) (p := p) h
  have hones : onesOf ((s.newJob g c p).f 0 16 16) 16 = [i.val] := (congrArg (onesOf · 16) hmask).trans (onesOf_one i)
  rw [Job.chans, hstalls, hones]
  rfl

theorem tim_newJob (st : Fin 128) (i : Fin 16) (w : Nat) :
    (s.newJob g c p).tim (16 * st.val + i.val) w = (s.rd .tim st (Off.timRes i w)).toNat := by
  rw [Job.tim, rd_newJob, show (16 * st.val + i.val) / 16 = st.val by omega, show (16 * st.val + i.val) % 16 = i.val by omega]

/-- The one unit that the record selects has stored its result. -/
theorem timed_newJob {st : Fin 128} {i : Fin 16} (hsel : c.rcd.selects st (2 ^ i.val) 16 = true)
    (hdone : s.rb .tim st (Off.timRes i 0) 16 = true) : (s.newJob g c p).timed (s.newJob g c p).chans = true := by
  rw [chans_of_selects hsel]
  simp only [Job.timed, List.all_cons, List.all_nil, Bool.and_true, tim_newJob]
  exact hdone

/-- The last stage of a run of the one unit that the record selects. -/
theorem timRun_last {st : Fin 128} {i : Fin 16} (hsel : c.rcd.selects st (2 ^ i.val) 16 = true)
    (hdone : s.rb .tim st (Off.timRes i 0) 16 = true) (hstage : c.stage = 1) (cfg n : Nat) (tl : Option Nat) (limit : Nat)
    (f : Job → Nat → List Nat) :
    (s.newJob g c p).timRun cfg n tl limit f = (s.newJob g c p).finish (f (s.newJob g c p) (16 * st.val + i.val)) := by
  unfold Job.timRun
  rw [if_neg (by simp [newJob_eq, hstage]), timed_newJob hsel hdone, chans_of_selects hsel, newJob_eq]
  rfl

/-- A service that runs one unit ends with the words of its result. -/
theorem timRun_ends {st : Fin 128} {i : Fin 16} (hsel : c.rcd.selects st (2 ^ i.val) 16 = true)
    (hdone : s.rb .tim st (Off.timRes i 0) 16 = true) (hrun : s.romRuns g c op 1 p = true) {ins : Instr} {is : Nat → Bool}
    {h : Job → Job} (hexec : exec ins s = .next (s.service g none p is h)) (hop : is op = true) {cfg n limit : Nat}
    {tl : Option Nat} {f : Job → Nat → List Nat} (hh : h (s.newJob g c p) = (s.newJob g c p).timRun cfg n tl limit f)
    {vs : List Nat} (hvs : f (s.newJob g c p) (16 * st.val + i.val) = vs) :
    ∃ t y, exec ins s = .next t ∧ ServiceEnds t y g c vs := by
  rw [timRun_last hsel hdone (romRuns_stage hrun), hvs] at hh
  obtain ⟨t, ht, hserv⟩ := service_finishes_at hrun hexec hop hh rfl
  exact ⟨t, _, ht, hserv⟩

theorem svFreq_ends {st : Fin 128} {i : Fin 16} (hsel : c.rcd.selects st (2 ^ i.val) 16 = true)
    (hdone : s.rb .tim st (Off.timRes i 0) 16 = true) (hrun : s.romRuns g c 0x2D 2 p = true) :
    ∃ t y vs, exec (.svFreq g none p) s = .next t ∧ ServiceEnds t y g c vs ∧
      vs.getD 0 0 = (s.rd .tim st (Off.timRes i 1)).toNat ∧ vs.length = 3 := by
  obtain ⟨vs, hf, hvs⟩ : ∃ vs, svFreq (s.newJob g c p) = (s.newJob g c p).finish vs ∧
      vs.getD 0 0 = (s.rd .tim st (Off.timRes i 1)).toNat ∧ vs.length = 3 := by
    unfold svFreq
    simp only [newJob_stage hrun, timed_newJob hsel hdone]
    simp only [chans_of_selects hsel]
    exact ⟨_, rfl, by rw [List.getD_cons_zero]; exact tim_newJob st i 1, rfl⟩
  obtain ⟨t, ht, hserv⟩ := service_finishes_at hrun (i := .svFreq g none p) rfl rfl hf rfl
  exact ⟨t, _, vs, ht, hserv, hvs⟩

/-! ### SV_TDR -/

theorem svTdr_ends (hrun : s.romRuns g c 0x11 2 p = true)
    (hdone : ∀ st < 128, ∀ i < 16, c.rcd.f 0 0 7 ≤ st → st ≤ c.rcd.f 0 8 7 → natBit (c.rcd.f 0 16 16) i = true →
      s.rb .tim st (Off.timRes i 0) 16 = true) (hno : c.rcd.f 2 8 1 = 0) :
    ∃ t y vs, exec (.svTdr g none p) s = .next t ∧ ServiceEnds t y g c vs ∧
      vs.getD 2 0 = c.rcd.f 0 8 7 + 1 - c.rcd.f 0 0 7 := by
  have htimed : (s.newJob g c p).timed (s.newJob g c p).chans = true := by
    refine List.all_eq_true.mpr fun ch hch => ?_
    obtain ⟨st, i, hlo, hhi, hi, hbit, rfl⟩ := mem_chans.mp hch
    have hlt : c.rcd.f 0 8 7 < 128 := fld_lt _ _ _
    exact (congrArg (natBit · 16) (tim_newJob ⟨st, by omega⟩ ⟨i, hi⟩ 0)).trans (hdone st (by omega) i hi hlo hhi hbit)
  have hpost : (s.newJob g c p).b 2 8 = false := by
    unfold Job.b
    rw [newJob_eq, hno]
    rfl
  obtain ⟨vs, hf, hvs⟩ : ∃ vs, svTdr (s.newJob g c p) = (s.newJob g c p).finish vs ∧
      vs.getD 2 0 = c.rcd.f 0 8 7 + 1 - c.rcd.f 0 0 7 := by
    unfold svTdr
    simp only [newJob_stage hrun, htimed, if_true, hpost, Bool.false_eq_true, if_false]
    exact ⟨_, rfl, List.length_range' ..⟩
  obtain ⟨t, ht, hserv⟩ := service_finishes_at hrun (i := .svTdr g none p) rfl rfl hf rfl
  exact ⟨t, _, vs, ht, hserv, hvs⟩

/-! ### Stamps -/

theorem popVernier_empty {j : Job} {st : Nat} (h : (j.s.vernier st).fifo = []) (n : Nat) : j.popVernier st n = (j, []) := by
  cases n with
  | zero => rfl
  | succ n => simp [Job.popVernier, h]

theorem svVernierDump_ends {st : Fin 128} (hrun : s.romRuns g c 0x2E 0 p = true) (hfirst : c.rcd.f 0 0 7 = st)
    (hlast : c.rcd.f 0 8 7 = st) (hown : s.ownerOf .stl st = c.rcd.owner) (hempty : (s.vernier st).fifo = []) :
    ∃ t y, exec (.svVernierDump g none p) s = .next t ∧ ServiceEnds t y g c [0] ∧ y.regs = s.regs ∧ y.hay = s.hay := by
  have hsel : c.rcd.selects st (c.rcd.f 0 16 16) 16 = true := by simp [Record.selects, hfirst, hlast]
  have hfifo : ((s.newJob g c p).s.vernier st).fifo = [] := by
    rw [newJob_eq, reach15_eq]
    exact hempty
  obtain ⟨hstalls, -⟩ := stalls_of_selects (s := s) (g := g) (p := p) hsel
  have hf : svVernierDump (s.newJob g c p) = (s.newJob g c p).finish [0] := by
    unfold svVernierDump
    simp only [ownStalls_newJob hsel hown, hstalls, List.foldl_cons, List.foldl_nil, popVernier_empty hfifo]
    rfl
  obtain ⟨t, ht, hserv⟩ := service_finishes_at hrun (i := .svVernierDump g none p) rfl rfl hf rfl
  refine ⟨t, _, ht, hserv, regs_reach15 .., ?_⟩
  rw [reach15_eq]
  rfl

theorem count_foldl_sample (l : List Int) (u : TimUnit) : (l.foldl TimUnit.sample u).count = u.count + l.length := by
  induction l generalizing u with
  | nil => rfl
  | cons a l ih =>
    rw [List.foldl_cons, ih, List.length_cons]
    change u.count + 1 + l.length = _
    omega

theorem stampPairs_length (interval : Bool) : ∀ l : List Nat,
    (stampPairs interval l).length = if interval then l.length / 2 else l.length - 1
  | [] => by simp [stampPairs]
  | [a] => by simp [stampPairs]
  | a :: b :: t => by
    cases interval with
    | true =>
      have ih := stampPairs_length true t
      simp only [stampPairs, if_true, List.length_cons] at ih ⊢
      omega
    | false =>
      have ih := stampPairs_length false (b :: t)
      simp only [stampPairs, Bool.false_eq_true, if_false, List.length_cons] at ih ⊢
      omega

theorem svStampReduce_ends (hrun : s.romRuns g c 0x2F 0 p = true) (hn : 0 < c.rcd.p 2)
    (hok : s.hayOk c.rcd.owner (c.rcd.hay 0) (8 * c.rcd.p 2) = true) :
    ∃ t y vs, exec (.svStampReduce g none p) s = .next t ∧ ServiceEnds t y g c vs ∧
      vs.getD 0 0 = if c.rcd.f 3 0 1 = 1 then c.rcd.p 2 / 2 else c.rcd.p 2 - 1 := by
  have hread : (s.newJob g c p).hayRd ((s.newJob g c p).haddr 0) (8 * (s.newJob g c p).a 2) =
      (s.newJob g c p, s.hayBytes c.rcd.owner (c.rcd.hay 0) (8 * c.rcd.p 2)) := hayRd_newJob hrun (show 0 < 8 * c.rcd.p 2 by omega) hok
  obtain ⟨vs, hf, hvs⟩ : ∃ vs, svStampReduce (s.newJob g c p) = (s.newJob g c p).finish vs ∧
      vs.getD 0 0 = if c.rcd.f 3 0 1 = 1 then c.rcd.p 2 / 2 else c.rcd.p 2 - 1 := by
    unfold svStampReduce
    simp only [hread]
    refine ⟨_, rfl, ?_⟩
    rw [List.getD_cons_zero, count_foldl_sample, stampPairs_length, List.length_map, upto, List.length_range]
    change 0 + (if (c.rcd.f 3 0 1 == 1) = true then c.rcd.p 2 / 2 else c.rcd.p 2 - 1) = _
    simp
  obtain ⟨t, ht, hserv⟩ := service_finishes_at hrun (i := .svStampReduce g none p) rfl rfl hf rfl
  exact ⟨t, _, vs, ht, hserv, hvs⟩

end

/-- Settles O39: each service by its own lemma above. -/
theorem timeServicesAnswer : Obligations.TimeServicesAnswer := by
  unfold Obligations.TimeServicesAnswer
  refine ⟨?_, fun _ _ _ _ => svTdr_ends, fun _ _ _ _ _ => svVernierDump_ends, fun _ _ _ _ => svStampReduce_ends⟩
  intro g p c st i s w hsel hdone
  have hw : ∀ n, (s.newJob g c p).tim (16 * st.val + i.val) n = w n := tim_newJob st i
  have mean : (s.newJob g c p).meanWords (16 * st.val + i.val) = [w 1, w 2, w 3, w 4] := by simp only [Job.meanWords, hw]
  have spread : (s.newJob g c p).spreadWords (16 * st.val + i.val) = [w 1, w 4, w 5, w 7] := by simp only [Job.spreadWords, hw]
  exact ⟨fun hrun => timRun_ends hsel hdone hrun (h := svTimRun) rfl rfl rfl (by simp only [hw]),
    fun hrun => timRun_ends hsel hdone hrun (h := svPeriod) rfl rfl rfl mean,
    fun hrun => timRun_ends hsel hdone hrun (h := svJitter) rfl rfl rfl spread,
    fun hrun => timRun_ends hsel hdone hrun (h := svSkew) rfl rfl rfl mean,
    fun hrun => timRun_ends hsel hdone hrun (h := svDelayMeas) rfl rfl rfl mean,
    fun hrun => svFreq_ends hsel hdone hrun⟩

end Sys2Proof.Machine

/-!
PROOF. The timer entries of the cluster (R485, SV_TIMER): the end of a record leaves them as they are, and a new one is put in its place
by due time; and the refutation of O41.
-/

namespace Sys2Proof.Machine

/-! ### The end of a record leaves the timer entries -/

section
variable (s : State) (g : Nat)

theorem cluster_postJournal (c : Ctx) (n : Nat) (l : List Change) : (s.postJournal g c n l).cluster = s.cluster := by
  induction n generalizing s l with
  | zero => rfl
  | succ n ih =>
    cases l with
    | nil => rfl
    | cons e l => exact (ih _ _).trans (cluster_post ..)

theorem timers_endOne (c : Ctx) (st : Nat) : (s.endOne g c st).cluster.timers = s.cluster.timers := by
  have hpost : ∀ (x : State) (n : Nat) (q : Producer) (wait : Bool) (ty body : Nat),
      (x.post n q wait ty body).cluster.timers = x.cluster.timers := fun x n q wait ty body =>
    congrArg Cluster.timers (cluster_post x n q wait ty body)
  unfold State.endOne
  refine (hpost _ _ _ _ _ _).trans ?_
  dsimp only
  split
  · exact congrArg Cluster.timers (cluster_postJournal ..)
  · rfl

theorem timers_settle (st : Nat) (l : List Chain) : (s.settle g st l).cluster.timers = s.cluster.timers := by
  induction l generalizing s st with
  | nil => rfl
  | cons h t ih =>
    unfold State.settle
    dsimp only
    split
    · exact (ih ..).trans (timers_endOne ..)
    · split
      · exact (ih ..).trans (timers_endOne ..)
      · rfl

theorem timers_endRecord (c : Ctx) (st : Nat) : (s.endRecord g c st).cluster.timers = s.cluster.timers :=
  (timers_settle ..).trans (timers_endOne ..)

end

/-! ### SV_TIMER -/

/-- The timer entries after SV_TIMER, read off the end of its record. -/
theorem svTimer_timers {s y : State} {g : Fin 8} {c d : Ctx} {p : Probe} (hrun : s.romRuns g c 0x4C 0 p = true)
    (hown : s.ringOwner (c.rcd.f 1 0 15) = c.rcd.owner) (ht : exec (.svTimer g none p) s = .next (y.endRecord g d svOk)) :
    y.cluster.timers =
      timerInsert ⟨c.rcd.owner, c.rcd.f 1 0 15, g, s.now + 3200 * c.rcd.p 0⟩ s.cluster.timers := by
  let x := s.reach15 c.rcd.op p.addr.toNat
  let e : TimerDue := ⟨c.rcd.owner, c.rcd.f 1 0 15, g, x.now + 3200 * c.rcd.p 0⟩
  have hring : (s.newJob g c p).need ((s.newJob g c p).s.ringOwner ((s.newJob g c p).f 1 0 15) == (s.newJob g c p).o) =
      s.newJob g c p := by
    refine Job.need_true (beq_iff_eq.mpr ?_)
    rw [newJob_eq, reach15_eq]
    exact hown
  obtain ⟨t, hexec, d', hend, -⟩ := service_finishes_at hrun (i := .svTimer g none p) (f := svTimer) rfl rfl
    (x := { x with cluster := { x.cluster with timers := timerInsert e x.cluster.timers } }) (d := c) (vs := [0, 0, 0, 0]) (by
    unfold svTimer
    simp only [hring]
    rfl) rfl
  have hsame : y.endRecord g d svOk = t := Host.Outcome.next.inj (ht.symm.trans hexec)
  rw [← timers_endRecord y g d svOk, hsame, hend, timers_endRecord]
  change timerInsert ⟨_, _, _, x.now + _⟩ x.cluster.timers = _
  have hx : x.cluster.timers = s.cluster.timers := by
    change (s.reach15 _ _).cluster.timers = _
    rw [reach15_eq]
  rw [now_reach15, hx]

/-! ### An entry that is due before one that waits -/

/-- A record of SV_TIMER of the supervisor: an entry to ring 9 in 5 µs. -/
def timerRecord : Record :=
  { owner := 15, op := 0x4C, urgent := false, jrnlAll := false, cancel := false, barrier := false, tag := 7, rring := 9
    ring := 40, index := 0, ps := [5, 9, 0, 0, 0] }

/-- The state after reset, but for groom 3, which begins that record, its dispatch entry, and an entry that waits for a later time. -/
def timerWaits : State :=
  ({ State.reset with cluster := { State.reset.cluster with
    patchDisp := [(0x4C, 0)], timers := [⟨15, 9, 3, 10 ^ 9⟩] } }.setReg (ringAddr 9 Off.rngCtrl) 0xF000).setCtx 3
      (timerRecord.start 0 0 0)

theorem timerWaits_runs : timerWaits.romRuns 3 (timerRecord.start 0 0 0) 0x4C 0 ⟨none, .clean, 0, []⟩ = true := by decide +kernel

theorem timerWaits_owns : timerWaits.ringOwner ((timerRecord.start 0 0 0).rcd.f 1 0 15) = (timerRecord.start 0 0 0).rcd.owner := by
  decide +kernel

/-- Refutes O41: its clause on SV_TIMER puts the new entry behind every entry that waits, but the cluster holds them by due time. In
`timerWaits` an entry waits for 10⁹ ticks, and the new one, due after 16,000, goes before it. The clause lacks the hypothesis that
no entry that waits is due later. -/
theorem not_maintenanceAndRecordServicesAnswer : ¬ Obligations.MaintenanceAndRecordServicesAnswer := by
  unfold Obligations.MaintenanceAndRecordServicesAnswer
  rintro ⟨-, -, -, services, -⟩
  obtain ⟨-, timer, -⟩ := services 3 ⟨none, .clean, 0, []⟩ (timerRecord.start 0 0 0) timerWaits
  obtain ⟨t, y, hexec, ⟨d, rfl, -⟩, htimers⟩ := timer timerWaits_runs timerWaits_owns
  rw [svTimer_timers timerWaits_runs timerWaits_owns hexec] at htimers
  revert htimers
  decide +kernel

end Sys2Proof.Machine

/-!
PROOF. Full OUT rings (R525): what the loss of an entry does to a ring, what an entry written over the oldest leaves, and O58.
-/

namespace Sys2Proof.Machine

section
variable (s : State) (n : Nat) (p : Producer)

theorem descr_countLoss : (s.countLoss p).descr n = s.descr n := by
  cases p with
  | mark | page | device => rfl
  | _ => exact descr_wr ..

theorem ringF_of_word {s t : State} {n o : Nat} (h : t.reg (ringAddr n o) = s.reg (ringAddr n o)) (lo w : Nat) :
    t.ringF n o lo w = s.ringF n o lo w := by
  rw [State.ringF, h, State.ringF]

theorem ringF_of_descr {s t : State} {n : Nat} (h : t.descr n = s.descr n) (o lo w : Nat) : t.ringF n o lo w = s.ringF n o lo w :=
  ringF_of_word (word_of_descr h o) lo w

theorem pidx_of_word {s t : State} {n : Nat} (h : t.reg (ringAddr n Off.rngPidx) = s.reg (ringAddr n Off.rngPidx)) :
    t.pidx n = s.pidx n := by
  rw [State.pidx, h, State.pidx]

theorem cidx_of_word {s t : State} {n : Nat} (h : t.reg (ringAddr n Off.rngCidx) = s.reg (ringAddr n Off.rngCidx)) :
    t.cidx n = s.cidx n := by
  rw [State.cidx, h, State.cidx]

theorem ringF_ringSet_same (o lo w v : Nat) (h : lo + w ≤ 32) : (s.ringSet n o lo w v).ringF n o lo w = v % 2 ^ w := by
  rw [State.ringF, State.ringSet, reg_setReg_same, fld_putFld_same _ _ _ _ h]

theorem ring_ringSet (m o lo w v : Nat) : (s.ringSet m o lo w v).ring n = s.ring n := ring_setReg ..

/-- RNG_DROP counts up to its width. -/
theorem ringF_ringDrop : (s.ringDrop n).ringF n Off.rngDrop 0 32 = satAdd (2 ^ 32 - 1) (s.ringF n Off.rngDrop 0 32) 1 := by
  have hlt : satAdd (2 ^ 32 - 1) (s.ringF n Off.rngDrop 0 32) 1 < 2 ^ 32 := by
    unfold satAdd
    split <;> omega
  rw [State.ringDrop, ringF_ringSet_same _ _ _ _ _ _ (by decide), Nat.mod_eq_of_lt hlt]

theorem ring_sendMsg (m ix v : Nat) : (s.sendMsg ix v).ring m = s.ring m := ring_of_descr (descr_sendMsg s m ix v)

/-- The signal of a drop leaves the entries held and GAP. -/
theorem ring_ringDropSignal :
    ((s.ringDropSignal n).ring n).held = (s.ring n).held ∧ ((s.ringDropSignal n).ring n).gap = (s.ring n).gap := by
  unfold State.ringDropSignal
  split
  · rw [ring_sendMsg, ring_setRing_same]
    exact ⟨rfl, rfl⟩
  · exact ⟨rfl, rfl⟩

theorem ringF_ringLose : (s.ringLose n).ringF n Off.rngDrop 0 32 = satAdd (2 ^ 32 - 1) (s.ringF n Off.rngDrop 0 32) 1 := by
  rw [State.ringLose, ringF_of_word (word_ringDropSignal _ n _), ringF_of_word (reg_setRing ..), ringF_ringDrop]

/-- A lost entry shows in GAP of the next one, and drops none that is held (R525). -/
theorem ring_ringLose : ((s.ringLose n).ring n).gap = true ∧ ((s.ringLose n).ring n).held = (s.ring n).held := by
  obtain ⟨hheld, hgap⟩ := ring_ringDropSignal ((s.ringDrop n).setRing n { (s.ringDrop n).ring n with gap := true }) n
  rw [State.ringLose]
  refine ⟨hgap.trans (by rw [ring_setRing_same]), hheld.trans ?_⟩
  rw [ring_setRing_same, State.ringDrop, ring_ringSet]

/-- What a lost entry does to its ring and the hayloft, its producer's count included (R518, R525). -/
theorem lost_entry (t : State) (ht : t = (s.ringLose n).countLoss p) :
    t.hay = s.hay ∧ t.pidx n = s.pidx n ∧ t.cidx n = s.cidx n ∧
      t.ringF n Off.rngDrop 0 32 = satAdd (2 ^ 32 - 1) (s.ringF n Off.rngDrop 0 32) 1 ∧ (t.ring n).gap = true := by
  have hd := descr_countLoss (s.ringLose n) n p
  subst ht
  refine ⟨by rw [hay_countLoss, hay_ringLose], ?_, ?_, ?_, ?_⟩
  · exact pidx_of_word ((word_of_descr hd _).trans (word_ringLose s n (by decide)))
  · exact cidx_of_word ((word_of_descr hd _).trans (word_ringLose s n (by decide)))
  · rw [ringF_of_descr hd, ringF_ringLose]
  · rw [ring_of_descr hd]
    exact (ring_ringLose s n).1

end

/-! ### OVERWRITE (R525) -/

section
variable {s : State} {n : Nat} {p : Producer} {ty body : Nat}

/-- The first bytes of a number that stands written. -/
theorem standsAll_bytesOf_le {o a m k v : Nat} (h : s.StandsAll o a (bytesOf m v)) (hk : k ≤ m) : s.StandsAll o a (bytesOf k v) := by
  intro i hi
  have hi' : i < (bytesOf m v).length := by
    rw [bytesOf_length] at hi ⊢
    omega
  rw [bytesOf_getElem hi, ← bytesOf_getElem hi']
  exact h i hi'

theorem bytesOf_mod (k v : Nat) : bytesOf k (v % 256 ^ k) = bytesOf k v := by
  induction k generalizing v with
  | zero => rfl
  | succ k ih =>
    have hlow : BitVec.ofNat 8 (v % 256 ^ (k + 1)) = BitVec.ofNat 8 v :=
      BitVec.eq_of_toNat_eq (by
        rw [BitVec.toNat_ofNat, BitVec.toNat_ofNat]
        exact Nat.mod_mod_of_dvd v (dvd_pow_self 256 (Nat.succ_ne_zero k)))
    have hhigh : v % 256 ^ (k + 1) / 256 = v / 256 % 256 ^ k := by
      rw [Nat.pow_succ, Nat.mod_mul_left_div_self]
    rw [bytesOf, bytesOf, hlow, hhigh, ih]

theorem hayGet_of_standsAll_le {o a m k v : Nat} (h : s.StandsAll o a (bytesOf m v)) (hk : k ≤ m) :
    s.hayGet o a k = v % 256 ^ k :=
  hayGet_of_standsAll (by rw [bytesOf_mod]; exact standsAll_bytesOf_le h hk) (Nat.mod_lt _ (Nat.pow_pos (by decide)))

/-- An entry as it is stored: its header (R519) and its body. -/
def State.ringEntry (x : State) (n : Nat) (p : Producer) (ty body : Nat) (gap : Bool) : Nat :=
  pack [(0, 8, ty), (8, 4, p.src.1), (12, 7, p.src.2), (30, 1, bit gap), (31, 1, x.pidx n / x.ringCap n)] + 2 ^ 32 * (body / 2 ^ 32)

/-- TYPE, GAP and PHASE of an entry (R519). -/
theorem ringEntry_fields (x : State) (gap : Bool) :
    let e := x.ringEntry n p ty body gap % 256 ^ 4
    nfld e 0 8 = ty % 256 ∧ nfld e 30 1 = bit gap ∧ nfld e 31 1 = x.pidx n / x.ringCap n % 2 := by
  have hgap : bit gap < 2 := by cases gap <;> decide
  simp only [nfld, State.ringEntry, pack]
  omega

theorem hay_ringStore (x : State) (gap : Bool) :
    (x.ringStore n p ty body gap).hay =
      (x.hayPut (x.ringOwner n) (x.entryAddr n 0) 32 (x.ringEntry n p ty body gap)).hay := by
  rw [State.ringStore, hay_ringFlags, State.setRing_hay, State.setReg_hay, State.entryAddr, Nat.add_zero,
    State.ringEntry]

/-- The contents of the hayloft once an entry is stored, counted and signalled. -/
theorem contents_ringStore (x : State) (gap : Bool) :
    (((x.ringStore n p ty body gap).ringDropSignal n).ringCount n 1).contents =
      (x.hayPut (x.ringOwner n) (x.entryAddr n 0) 32 (x.ringEntry n p ty body gap)).contents := by
  have posted := ((posted_ringStore x n p ty body gap).trans (posted_ringDropSignal _ n)).trans (posted_ringCount _ n 1)
  have hkeys := (congrArg State.keys posted.frame.eq :)
  have hput := (congrArg State.keys (posted_hayPut_word x (x.ringOwner n) _ (x.ringEntry n p ty body gap) (entryAddr_mod x n 0)).frame.eq :)
  exact contents_of_hay (by rw [hay_ringCount, hay_ringDropSignal, hay_ringStore])
    (by rw [hay_ringCount, hay_ringDropSignal, hay_ringStore]) (hkeys.trans hput.symm)

/-- The ring as its oldest entry is given up. -/
def State.oldestLost (s : State) (n : Nat) : State := (s.setReg (ringAddr n Off.rngCidx) (word (s.cidx n + 1))).ringDrop n

theorem word_oldestLost {o : Nat} (hc : o % 0x20 ≠ Off.rngCidx) (hd : o % 0x20 ≠ Off.rngDrop) :
    (s.oldestLost n).reg (ringAddr n o) = s.reg (ringAddr n o) := by
  rw [State.oldestLost, State.ringDrop, word_ringSet _ n hd]
  exact reg_setReg_ne s _ fun e => hc (ringAddr_inj.mp e).2

/-- An entry written over the oldest (R525). -/
theorem overwritten_entry (t : State)
    (ht : t = (((s.oldestLost n).ringStore n p ty body true).ringDropSignal n).ringCount n 1) :
    t.cidx n = (s.cidx n + 1) % 2 ^ 32 ∧ t.pidx n = (s.pidx n + 1) % 2 ^ 32 ∧
      t.ringF n Off.rngDrop 0 32 = satAdd (2 ^ 32 - 1) (s.ringF n Off.rngDrop 0 32) 1 ∧
      t.hayGet (s.ringOwner n) (s.ringBase n + 32 * (s.pidx n % s.ringCap n)) 4 = s.ringEntry n p ty body true % 256 ^ 4 := by
  have signals : ∀ o, t.reg (ringAddr n o) = ((s.oldestLost n).ringStore n p ty body true).reg (ringAddr n o) := fun o => by
    rw [ht, word_ringCount, word_ringDropSignal]
  have kept : ∀ o, o % 0x20 ≠ Off.rngStat → o % 0x20 ≠ Off.rngPidx → t.reg (ringAddr n o) = (s.oldestLost n).reg (ringAddr n o) :=
    fun o hs hp => by rw [signals, word_ringStore _ _ _ _ _ _ hs, if_neg hp]
  have hpidx : (s.oldestLost n).pidx n = s.pidx n := pidx_of_word (word_oldestLost (by decide) (by decide))
  have settings : ∀ o lo w, o % 0x20 ≠ Off.rngCidx → o % 0x20 ≠ Off.rngDrop → (s.oldestLost n).ringF n o lo w = s.ringF n o lo w :=
    fun o lo w hc hd => ringF_of_word (word_oldestLost hc hd) lo w
  have howner : (s.oldestLost n).ringOwner n = s.ringOwner n := settings _ _ _ (by decide) (by decide)
  have hbase : (s.oldestLost n).ringBase n = s.ringBase n := by
    rw [State.ringBase, settings _ _ _ (by decide) (by decide), settings _ _ _ (by decide) (by decide), State.ringBase]
  have hcap : (s.oldestLost n).ringCap n = s.ringCap n := by
    rw [State.ringCap, State.ringLog2, settings _ _ _ (by decide) (by decide), State.ringCap, State.ringLog2]
  refine ⟨?_, ?_, ?_, ?_⟩
  · rw [State.cidx, kept _ (by decide) (by decide), State.oldestLost, State.ringDrop, word_ringSet _ n (by decide),
      reg_setReg_same, word, BitVec.toNat_ofNat]
  · rw [State.pidx, signals, word_ringStore _ _ _ _ _ _ (by decide), if_pos (by decide), hpidx, word, BitVec.toNat_ofNat]
  · rw [ringF_of_word (kept _ (by decide) (by decide)), State.oldestLost, ringF_ringDrop,
      ringF_of_word (reg_setReg_ne s _ fun e => absurd (ringAddr_inj.mp e).2 (by decide))]
  · have hcontents := contents_ringStore (n := n) (p := p) (ty := ty) (body := body) (s.oldestLost n) true
    rw [← ht, howner, State.entryAddr, hbase, hpidx, hcap, Nat.add_zero, State.ringEntry, hpidx, hcap, ← State.ringEntry] at hcontents
    exact hayGet_of_standsAll_le (standsAll_of_contents hcontents standsAll_hayStore) (by decide)

end

/-! ### What an offer to a full ring comes to (R525) -/

section
variable {s : State} {n : Nat} {p : Producer} {ty body : Nat} (hen : s.ringEn n = true) (hin : s.ringIn n = false)
  (hfull : s.ringFull n = true) (hgo : s.ringPaused = false)
include hen hin hfull hgo

theorem offer_full (wait : Bool) :
    s.offer n p wait ty body =
      match s.ringPolicy n with
      | 1 =>
        if wait then ((s.setRing n { s.ring n with held := (s.ring n).held ++ [⟨p, ty, body⟩] }).ringFlags n, .waits)
        else ((s.ringLose n).countLoss p, .dropped)
      | 2 => ((((s.oldestLost n).ringStore n p ty body true).ringDropSignal n).ringCount n 1, .accepted)
      | _ => ((s.ringLose n).countLoss p, .dropped) := by
  unfold State.offer
  rw [if_neg (by simp [hen, hin]), if_pos (by simp [hfull]), if_neg (by simp [hgo])]
  rfl

end

/-- An entry that its producer holds until the ring has room (R525). -/
theorem waiting_entry (s : State) (n : Nat) (h : Held) (t : State)
    (ht : t = (s.setRing n { s.ring n with held := (s.ring n).held ++ [h] }).ringFlags n) :
    t.hay = s.hay ∧ t.pidx n = s.pidx n ∧ t.cidx n = s.cidx n ∧ (t.ring n).held = (s.ring n).held ++ [h] ∧
      t.ringF n Off.rngStat 1 1 = 1 ∧ t.ringF n Off.rngDrop 0 32 = s.ringF n Off.rngDrop 0 32 := by
  have words : ∀ o, o % 0x20 ≠ Off.rngStat → t.reg (ringAddr n o) = s.reg (ringAddr n o) := fun o ho => by
    rw [ht, word_ringFlags _ n ho, reg_setRing]
  refine ⟨by rw [ht, hay_ringFlags, State.setRing_hay], pidx_of_word (words _ (by decide)), cidx_of_word (words _ (by decide)), ?_, ?_,
    ringF_of_word (words _ (by decide)) _ _⟩
  · rw [ht, ring_ringFlags, ring_setRing_same]
  · rw [ht, State.ringFlags, ringF_ringSet_same _ _ _ _ _ _ (by decide), ring_setRing_same]
    simp [bit]

/-- Settles O58: the policies one by one, each by what the ring then does with the entry. -/
theorem fullRingFollowsItsPolicy : Obligations.FullRingFollowsItsPolicy := by
  intro n p wait ty body s _ hen hin hfull hgo _
  have offered := offer_full (p := p) (ty := ty) (body := body) hen hin hfull hgo wait
  refine ⟨fun hpol => ?_, fun hpol => ?_, fun hpol => ?_⟩
  · rw [offered, hpol]
    exact ⟨rfl, lost_entry s n p _ rfl⟩
  · cases wait with
    | true =>
      obtain ⟨hhay, hpidx, hcidx, hheld, hstat, hdrop⟩ := waiting_entry s n ⟨p, ty, body⟩ _ rfl
      rw [offered, hpol]
      exact ⟨hhay, hpidx, hcidx, fun _ => ⟨rfl, hheld, hstat, hdrop⟩, nofun⟩
    | false =>
      obtain ⟨hhay, hpidx, hcidx, hdrop, _⟩ := lost_entry s n p _ rfl
      rw [offered, hpol]
      exact ⟨hhay, hpidx, hcidx, nofun, fun _ => ⟨rfl, hdrop⟩⟩
  · obtain ⟨hcidx, hpidx, hdrop, hentry⟩ := overwritten_entry (s := s) (n := n) (p := p) (ty := ty) (body := body) _ rfl
    rw [offered, hpol]
    exact ⟨rfl, hcidx, hpidx, hdrop, hentry ▸ ringEntry_fields s true⟩

end Sys2Proof.Machine

/-!
PROOF. Rings at work (R513 to R518, R525 to R528): descriptor writes, assignment, doorbells, entries held, skipped and dropped, the
timer; and O45.
-/

namespace Sys2Proof.Machine

/-! ### A disabled ring stays so, and holds nothing -/

/-- RNG_CTRL of ring `n`, and the entries held for it. -/
def State.ringHolds (s : State) (n : Nat) : Word × List Held := (s.reg (ringAddr n Off.rngCtrl), (s.ring n).held)

section
variable (s : State) (n m : Nat)

theorem ring_setRing_ne {s : State} {n m : Nat} (v : RingSt) (h : n ≠ m) : (s.setRing m v).ring n = s.ring n :=
  Store.getD_setD_ne _ _ _ h

theorem held_setRing {v : RingSt} (h : v.held = (s.ring m).held) : ((s.setRing m v).ring n).held = (s.ring n).held := by
  rcases eq_or_ne n m with rfl | hne
  · rw [ring_setRing_same, h]
  · rw [ring_setRing_ne v hne]

theorem ringHolds_setRing {v : RingSt} (h : v.held = (s.ring m).held) : (s.setRing m v).ringHolds n = s.ringHolds n :=
  Prod.ext (reg_setRing ..) (held_setRing s n m h)

theorem ringHolds_setReg {s : State} {n a : Nat} {v : Word} (h : ringAddr n Off.rngCtrl ≠ a) : (s.setReg a v).ringHolds n = s.ringHolds n :=
  Prod.ext (reg_setReg_ne s v h) (congrArg RingSt.held (ring_setReg ..))

theorem ringCtrl_ne {n m o : Nat} (h : o % 0x20 ≠ 0) : ringAddr n Off.rngCtrl ≠ ringAddr m o := fun e => h (ringAddr_inj.mp e).2.symm

theorem ringHolds_ringSet {o lo w v : Nat} (h : o % 0x20 ≠ 0) : (s.ringSet m o lo w v).ringHolds n = s.ringHolds n :=
  ringHolds_setReg (ringCtrl_ne h)

theorem ringHolds_of_descr {s t : State} {n : Nat} (h : t.descr n = s.descr n) : t.ringHolds n = s.ringHolds n :=
  Prod.ext (word_of_descr h _) (congrArg RingSt.held (ring_of_descr h))

theorem ringHolds_ringFlags : (s.ringFlags m).ringHolds n = s.ringHolds n :=
  (ringHolds_ringSet _ n m (by decide)).trans (ringHolds_ringSet s n m (by decide))

theorem ringHolds_ringDrop : (s.ringDrop m).ringHolds n = s.ringHolds n := ringHolds_ringSet s n m (by decide)

theorem ringHolds_sendMsg (ix v : Nat) : (s.sendMsg ix v).ringHolds n = s.ringHolds n := ringHolds_of_descr (descr_sendMsg s n ix v)

theorem ringHolds_ringDropSignal : (s.ringDropSignal m).ringHolds n = s.ringHolds n := by
  unfold State.ringDropSignal
  split
  · exact (ringHolds_sendMsg _ n _ _).trans (ringHolds_setRing s n m (by rfl))
  · rfl

theorem ringHolds_ringCount (k : Nat) : (s.ringCount m k).ringHolds n = s.ringHolds n := by
  unfold State.ringCount
  dsimp only
  have counted : (s.setRing m { s.ring m with since := (s.ring m).since + k }).ringHolds n = s.ringHolds n :=
    ringHolds_setRing s n m (by rfl)
  split
  · exact ((ringHolds_sendMsg _ n _ _).trans (ringHolds_setRing _ n m (by rfl))).trans counted
  · exact counted

theorem ringHolds_ringLose : (s.ringLose m).ringHolds n = s.ringHolds n :=
  ((ringHolds_ringDropSignal _ n m).trans (ringHolds_setRing _ n m (by rfl))).trans (ringHolds_ringDrop s n m)

theorem ringHolds_lost (p : Producer) : ((s.ringLose m).countLoss p).ringHolds n = s.ringHolds n :=
  (ringHolds_of_descr (descr_countLoss _ n p)).trans (ringHolds_ringLose s n m)

theorem ringHolds_ringStore (p : Producer) (ty body : Nat) (gap : Bool) : (s.ringStore m p ty body gap).ringHolds n = s.ringHolds n :=
  (((ringHolds_ringFlags _ n m).trans (ringHolds_setRing _ n m (by rfl))).trans (ringHolds_setReg (ringCtrl_ne (by decide)))).trans
    (ringHolds_of_descr (descr_hayPut ..))

theorem ringEn_of_holds {s t : State} {n : Nat} (h : (t.ringHolds n).1 = (s.ringHolds n).1) : t.ringEn n = s.ringEn n := by
  rw [State.ringEn, ringF_of_word h, State.ringEn]

/-- What an engine sees of a ring that is disabled: that, and the entries held for it. -/
def State.offHolds (n : Nat) (s : State) : Bool × Option (List Held) :=
  (s.ringEn n, if s.ringEn n then none else some (s.ring n).held)

theorem offHolds_of_holds {s t : State} {n : Nat} (h : t.ringHolds n = s.ringHolds n) : t.offHolds n = s.offHolds n := by
  have hheld : (t.ring n).held = (s.ring n).held := congrArg Prod.snd h
  rw [State.offHolds, ringEn_of_holds (congrArg Prod.fst h), hheld, State.offHolds]

theorem off_of_offHolds {s t : State} {n : Nat} (h : t.offHolds n = s.offHolds n) (hoff : s.ringEn n = false) :
    t.ringEn n = false ∧ (t.ring n).held = (s.ring n).held := by
  obtain ⟨hen, hheld⟩ := Prod.mk.inj h
  rw [hoff] at hen
  rw [hen, hoff] at hheld
  exact ⟨hen, Option.some.inj hheld⟩

/-- An offer to any ring leaves a disabled one as it is. -/
theorem offHolds_offer (p : Producer) (wait : Bool) (ty body : Nat) :
    (s.offer m p wait ty body).1.offHolds n = s.offHolds n := by
  have lost := offHolds_of_holds (ringHolds_lost s n m p)
  unfold State.offer
  split
  · exact lost
  · rename_i hen
    split
    · split
      · split
        · have hctrl : ((((s.setRing m { s.ring m with held := (s.ring m).held ++ [⟨p, ty, body⟩] }).ringFlags m).ringHolds n).1 =
              (s.ringHolds n).1) := (congrArg Prod.fst (ringHolds_ringFlags _ n m)).trans (reg_setRing ..)
          rcases eq_or_ne n m with rfl | hne
          · have hon : s.ringEn n = true := by simpa using mt Or.inl hen
            simp only [State.offHolds, ringEn_of_holds hctrl, hon, if_true]
          · exact offHolds_of_holds (Prod.ext hctrl (congrArg RingSt.held ((ring_ringFlags _ n m).trans (ring_setRing_ne _ hne))))
        · exact lost
      · exact offHolds_of_holds (((((ringHolds_ringCount _ n m 1).trans (ringHolds_ringDropSignal _ n m)).trans
          (ringHolds_ringStore _ n m ..)).trans (ringHolds_ringDrop _ n m)).trans (ringHolds_setReg (ringCtrl_ne (by decide))))
      · exact lost
    · exact offHolds_of_holds ((ringHolds_ringCount _ n m 1).trans (ringHolds_ringStore s n m ..))

theorem offHolds_wr (k : PageKind) (i o : Nat) (v : Word) : (s.wr k i o v).offHolds n = s.offHolds n :=
  offHolds_of_holds (ringHolds_of_descr (descr_wr ..))

theorem offHolds_event (k : PageKind) (i e : Nat) : (s.event k i e).offHolds n = s.offHolds n := by
  have raised : (s.wb k i Off.pgEvt e true).offHolds n = s.offHolds n := offHolds_wr s n k i _ _
  unfold State.event State.eventPost
  split
  · rfl
  · dsimp only
    split
    · split
      · exact (offHolds_offer _ n _ _ _ _ _).trans raised
      · exact raised
    · exact raised

/-- An engine leaves a disabled ring as it is. -/
theorem acqFree_offHolds : State.AcqFree (State.offHolds n) where
  setAcq _ _ _ := offHolds_of_holds (ringHolds_of_descr (descr_of_regs (State.setAcq_regs ..) (State.setAcq_rings ..)))
  useFree _ := rfl
  wr s _ i o v _ := offHolds_wr s n _ i o v
  event s _ i e _ := offHolds_event s n _ i e
  offer s m b wait ty body := offHolds_offer s n m (.acq b) wait ty body

theorem offHolds_producerGoesOn (p : Producer) : (s.producerGoesOn p).offHolds n = s.offHolds n := by
  cases p with
  | acq b => exact (acqFree_offHolds n).acqPump s b false
  | _ => rfl

/-! ### Descriptor writes (R516 to R518) -/

theorem ringEn_eq_tbit : s.ringEn n = tbit (s.reg (ringAddr n Off.rngCtrl)) 0 := by
  rw [State.ringEn, State.ringF, tbit_eq_fld, beq_eq_decide]

/-- RNG_CTRL of ring `n` with EN set to `on`. -/
abbrev State.ctrlWith (s : State) (n : Nat) (on : Bool) : Word := putBit (s.reg (ringAddr n Off.rngCtrl)) 0 on

theorem fld_ctrlWith (on : Bool) {lo w : Nat} (h : 0 < lo) : fld (s.ctrlWith n on) lo w = s.ringF n Off.rngCtrl lo w :=
  fld_putFld_other _ _ _ _ _ _ (by decide) (.inr h)

/-- The word that a write of RNG_CTRL stores (R516). -/
def ringCtrlWord (old v : Word) : Word :=
  word (pack [(0, 9, fld v 0 9), (12, 4, fld old 12 4), (16, 2, fld v 16 2), (20, 12, fld v 20 12)])

theorem ringCtrlWord_fields (old v : Word) :
    fld (ringCtrlWord old v) 0 1 = fld v 0 1 ∧ fld (ringCtrlWord old v) 12 4 = fld old 12 4 := by
  rw [ringCtrlWord, fld_word _ _ _ (by decide), fld_word _ _ _ (by decide)]
  have h1 := fld_lt v 0 9
  have h2 := fld_lt old 12 4
  have h3 := fld_lt v 16 2
  have h4 : fld v 0 1 = fld v 0 9 % 2 := by
    simp only [fld]
    omega
  simp only [pack]
  omega

end

section
variable {s : State} {n : Nat}

/-- The word with EN set, as IRQ_DROP newly set re-arms the message of a drop (R528). -/
def State.ctrlWritten (s : State) (n : Nat) (v : Word) : State :=
  let x := s.setReg (ringAddr n Off.rngCtrl) (ringCtrlWord (s.reg (ringAddr n Off.rngCtrl)) v)
  if tbit v 17 && !tbit (s.reg (ringAddr n Off.rngCtrl)) 17 then x.setRing n { x.ring n with dropMsg := false } else x

theorem reg_ctrlWritten (v : Word) (a : Nat) :
    (s.ctrlWritten n v).reg a =
      if a = ringAddr n Off.rngCtrl then ringCtrlWord (s.reg (ringAddr n Off.rngCtrl)) v else s.reg a := by
  unfold State.ctrlWritten
  dsimp only
  split
  · rw [reg_setRing, reg_setReg]
  · rw [reg_setReg]

theorem word_ctrlWritten (v : Word) {o : Nat} (h : o % 0x20 ≠ 0) : (s.ctrlWritten n v).reg (ringAddr n o) = s.reg (ringAddr n o) := by
  rw [reg_ctrlWritten, if_neg fun e => h (ringAddr_inj.mp e).2]

theorem ringF_ctrlWritten (v : Word) (lo w : Nat) :
    (s.ctrlWritten n v).ringF n Off.rngCtrl lo w = fld (ringCtrlWord (s.reg (ringAddr n Off.rngCtrl)) v) lo w := by
  rw [State.ringF, reg_ctrlWritten, if_pos rfl]

/-- The indices, the drops and the flags of a ring that is enabled start at 0 (R517). -/
def State.ringStarted (x : State) (n : Nat) : State :=
  [Off.rngPidx, Off.rngCidx, Off.rngDrop, Off.rngStat].foldl (fun x i => x.setReg (ringAddr n i) 0) x

theorem word_ringStarted (x : State) (n o : Nat) :
    (x.ringStarted n).reg (ringAddr n o) =
      if o % 0x20 = Off.rngPidx ∨ o % 0x20 = Off.rngCidx ∨ o % 0x20 = Off.rngDrop ∨ o % 0x20 = Off.rngStat then 0
      else x.reg (ringAddr n o) := by
  have hword : ∀ o', ringAddr n o = ringAddr n o' ↔ o % 0x20 = o' % 0x20 := fun o' => ringAddr_inj.trans (and_iff_right rfl)
  simp only [State.ringStarted, List.foldl_cons, List.foldl_nil, reg_setReg, hword, show Off.rngPidx % 0x20 = Off.rngPidx from rfl,
    show Off.rngCidx % 0x20 = Off.rngCidx from rfl, show Off.rngDrop % 0x20 = Off.rngDrop from rfl,
    show Off.rngStat % 0x20 = Off.rngStat from rfl]
  split_ifs <;> simp_all

section
variable (hpol : s.ringPolicy n ≠ 3) (hlo : 8 ≤ s.ringLog2 n) (hhi : s.ringLog2 n ≤ 30)
include hpol hlo hhi

/-- A ring with legal fields and its storage in place is enabled (R517). -/
theorem ringCtrlWrite_enables (hoff : s.ringEn n = false) (hbase : s.ringBase n % 2 ^ s.ringLog2 n = 0)
    (hreg : s.inRegion (s.ringOwner n) anyKind (s.ringBase n) (2 ^ s.ringLog2 n) = true) :
    ringCtrlWrite n (s.ctrlWith n true) s =
      ((s.ctrlWritten n (s.ctrlWith n true)).ringStarted n).setRing n { RingSt.idle with gap := (s.ring n).gap } := by
  have hpol' : fld (s.ctrlWith n true) 2 2 = s.ringPolicy n := fld_ctrlWith s n true (by decide)
  have hlog : fld (s.ctrlWith n true) 4 5 = s.ringLog2 n := fld_ctrlWith s n true (by decide)
  have hold : tbit (s.reg (ringAddr n Off.rngCtrl)) 0 = false := by rw [← ringEn_eq_tbit, hoff]
  have hnew : tbit (s.ctrlWith n true) 0 = true := tbit_putBit_same _ _ _ (by decide)
  unfold ringCtrlWrite
  dsimp only
  rw [hpol', hlog, hold, hnew, if_neg (by omega), if_neg (by simp), if_pos (by rfl), if_neg (by omega), if_neg (by simp [hreg])]
  rfl

/-- A ring that is disabled drops what is held for it, and the engines among its producers go on (R518). -/
theorem ringCtrlWrite_disables (hon : s.ringEn n = true) :
    ringCtrlWrite n (s.ctrlWith n false) s =
      (s.ring n).held.foldl (fun x h => x.producerGoesOn h.prod) ((s.ctrlWritten n (s.ctrlWith n false)).ringDisable n) := by
  have hpol' : fld (s.ctrlWith n false) 2 2 = s.ringPolicy n := fld_ctrlWith s n false (by decide)
  have hlog : fld (s.ctrlWith n false) 4 5 = s.ringLog2 n := fld_ctrlWith s n false (by decide)
  have hheld : fld (s.ctrlWith n false) 1 8 = s.ringF n Off.rngCtrl 1 8 := fld_ctrlWith s n false (by decide)
  have hold : tbit (s.reg (ringAddr n Off.rngCtrl)) 0 = true := by rw [← ringEn_eq_tbit, hon]
  have hnew : tbit (s.ctrlWith n false) 0 = false := tbit_putBit_same _ _ _ (by decide)
  unfold ringCtrlWrite
  dsimp only
  rw [hpol', hlog, hheld, hold, hnew, if_neg (by omega), if_neg (by simp [State.ringF]), if_neg (by simp), if_pos (by rfl)]
  rfl

end

theorem ringDescWrite_ctrl {r : Requester} (hreach : s.reachRing r n = true) (v : Word) :
    ringDescWrite r n Off.rngCtrl v s = ringCtrlWrite n v s := if_neg (by simp [hreach])

theorem ringEnable_starts {r : Requester} {n : Fin 32768} (hreach : s.reachRing r n = true) (hpol : s.ringPolicy n ≠ 3)
    (hlo : 8 ≤ s.ringLog2 n) (hhi : s.ringLog2 n ≤ 30) (hoff : s.ringEn n = false) (hbase : s.ringBase n % 2 ^ s.ringLog2 n = 0)
    (hreg : s.inRegion (s.ringOwner n) anyKind (s.ringBase n) (2 ^ s.ringLog2 n) = true) :
    ∃ t, exec (.ringEnable r n) s = .next t ∧ t.ringEn n = true ∧ t.pidx n = 0 ∧ t.cidx n = 0 ∧
      t.ringOwner n = s.ringOwner n ∧ t.ringBase n = s.ringBase n := by
  obtain ⟨hen, howner⟩ := ringCtrlWord_fields (s.reg (ringAddr n Off.rngCtrl)) (s.ctrlWith n true)
  have hset : fld (s.ctrlWith n true) 0 1 = 1 := fld_putFld_same _ _ _ _ (by decide)
  refine ⟨_, congrArg Host.Outcome.next ((ringDescWrite_ctrl hreach _).trans
    (ringCtrlWrite_enables hpol hlo hhi hoff hbase hreg)), ?_⟩
  have words : ∀ o lo w, (((s.ctrlWritten n (s.ctrlWith n true)).ringStarted n).setRing n
      { RingSt.idle with gap := (s.ring n).gap }).ringF n o lo w = ((s.ctrlWritten n (s.ctrlWith n true)).ringStarted n).ringF n o lo w :=
    fun o lo w => ringF_of_word (reg_setRing ..) lo w
  have started : ∀ o lo w, ¬(o % 0x20 = Off.rngPidx ∨ o % 0x20 = Off.rngCidx ∨ o % 0x20 = Off.rngDrop ∨ o % 0x20 = Off.rngStat) →
      ((s.ctrlWritten n (s.ctrlWith n true)).ringStarted n).ringF n o lo w = (s.ctrlWritten n (s.ctrlWith n true)).ringF n o lo w :=
    fun o lo w ho => ringF_of_word (by rw [word_ringStarted, if_neg ho]) lo w
  refine ⟨?_, ?_, ?_, ?_, ?_⟩
  · rw [State.ringEn, words, started _ _ _ (by decide), ringF_ctrlWritten, hen, hset]
    rfl
  · rw [State.pidx, reg_setRing, word_ringStarted, if_pos (by decide)]
    rfl
  · rw [State.cidx, reg_setRing, word_ringStarted, if_pos (by decide)]
    rfl
  · rw [State.ringOwner, words, started _ _ _ (by decide), ringF_ctrlWritten, howner]
    rfl
  · have base : ∀ o lo w, (o = Off.rngBaseLo ∨ o = Off.rngBaseHi) →
        (((s.ctrlWritten n (s.ctrlWith n true)).ringStarted n).setRing n { RingSt.idle with gap := (s.ring n).gap }).ringF n o lo w =
          s.ringF n o lo w := by
      rintro o lo w (rfl | rfl) <;>
        exact (words _ _ _).trans ((started _ _ _ (by decide)).trans (ringF_of_word (word_ctrlWritten _ (by decide)) lo w))
    rw [State.ringBase, base _ _ _ (.inl rfl), base _ _ _ (.inr rfl), State.ringBase]

/-- What is dropped with a ring leaves it disabled and empty (R518). -/
theorem ringDisable_empties (x : State) (n : Nat) : (x.ringDisable n).ringEn n = false ∧ ((x.ringDisable n).ring n).held = [] := by
  have lost : ∀ (l : List Held) (y : State), (l.foldl (fun y h => (y.ringLose n).countLoss h.prod) y).ringHolds n = y.ringHolds n :=
    fun l y => view_foldl (view := fun z : State => z.ringHolds n) (fun z h => ringHolds_lost z n n h.prod) y l
  have holds : (x.ringDisable n).ringHolds n =
      ((x.ringSet n Off.rngCtrl 0 1 0).setRing n { (x.ringSet n Off.rngCtrl 0 1 0).ring n with held := [] }).ringHolds n := by
    unfold State.ringDisable
    rw [ringHolds_ringFlags, lost]
  have hheld : ((x.ringDisable n).ring n).held = _ := congrArg Prod.snd holds
  refine ⟨(ringEn_of_holds (congrArg Prod.fst holds)).trans ?_, hheld.trans ?_⟩
  · rw [State.ringEn, ringF_of_word (reg_setRing ..), ringF_ringSet_same _ _ _ _ _ _ (by decide)]
    rfl
  · exact congrArg RingSt.held (ring_setRing_same _ n _)

theorem ringDisable_ends {r : Requester} {n : Fin 32768} (hreach : s.reachRing r n = true) (hpol : s.ringPolicy n ≠ 3)
    (hlo : 8 ≤ s.ringLog2 n) (hhi : s.ringLog2 n ≤ 30) (hon : s.ringEn n = true) :
    ∃ t, exec (.ringDisable r n) s = .next t ∧ t.ringEn n = false ∧ (t.ring n).held = [] := by
  refine ⟨_, congrArg Host.Outcome.next ((ringDescWrite_ctrl hreach _).trans (ringCtrlWrite_disables hpol hlo hhi hon)), ?_⟩
  obtain ⟨hoff, hheld⟩ := ringDisable_empties (s.ctrlWritten n (s.ctrlWith n false)) n
  generalize (s.ctrlWritten n (s.ctrlWith n false)).ringDisable n = x at hoff hheld ⊢
  have view : ((s.ring n).held.foldl (fun x h => x.producerGoesOn h.prod) x).offHolds n = x.offHolds n :=
    foldl_keeps (fun y => y.offHolds n = x.offHolds n) (fun y h hy => (offHolds_producerGoesOn y n h.prod).trans hy) _ rfl
  obtain ⟨hen, heq⟩ := off_of_offHolds view hoff
  exact ⟨hen, heq.trans hheld⟩

end

/-! ### Doorbells (R526) -/

theorem reg_bell (s : State) (n p a : Nat) : (s.bell n p).reg a = s.reg a := by
  unfold State.bell
  split
  · rfl
  · exact reg_setRing s n { s.ring n with bells := (s.ring n).bells ++ [(p, s.cluster.serial)] } a

section
variable {s : State} {f : Fin 18} {n : Fin 32768} {v : Word} (hreach : s.reachRing (.fn f) n = true) (hon : s.ringEn n = true)
include hreach hon

theorem doorbell_produces (hin : s.ringIn n = true)
    (hdist : (v.toNat + 2 ^ 32 - s.pidx n) % 2 ^ 32 ≤ (s.cidx n + s.ringCap n + 2 ^ 32 - s.pidx n) % 2 ^ 32) :
    ∃ t, exec (.doorbell f n (some v) true) s = .next t ∧ t.pidx n = v.toNat ∧ t.cidx n = s.cidx n := by
  have hrun : exec (.doorbell f n (some v) true) s =
      .next (((s.bell n v.toNat).setReg (ringAddr n Off.rngPidx) v).ringFlags n) :=
    (if_neg (by simp [hreach])).trans ((if_neg (by simp [hon])).trans ((if_pos hin).trans (if_pos hdist)))
  refine ⟨_, hrun, ?_, ?_⟩
  · rw [State.pidx, word_ringFlags _ _ (by decide), reg_setReg_same]
  · rw [State.cidx, word_ringFlags _ _ (by decide), reg_setReg_ne _ _ fun e => absurd (ringAddr_inj.mp e).2 (by decide), reg_bell,
      State.cidx]

theorem doorbell_consumes (hout : s.ringIn n = false)
    (hdist : (v.toNat + 2 ^ 32 - s.cidx n) % 2 ^ 32 ≤ (s.pidx n + 2 ^ 32 - s.cidx n) % 2 ^ 32) :
    ∃ t, exec (.doorbell f n (some v) true) s = .next t ∧ t.cidx n = v.toNat ∧ t.pidx n = s.pidx n := by
  have hrun : exec (.doorbell f n (some v) true) s = .next ((s.setReg (ringAddr n Off.rngCidx) v).ringFlags n) :=
    (if_neg (by simp [hreach])).trans ((if_neg (by simp [hon])).trans ((if_neg (by simp [hout])).trans (if_pos hdist)))
  refine ⟨_, hrun, ?_, ?_⟩
  · rw [State.cidx, word_ringFlags _ _ (by decide), reg_setReg_same]
  · rw [State.pidx, word_ringFlags _ _ (by decide), reg_setReg_ne _ _ fun e => absurd (ringAddr_inj.mp e).2 (by decide), State.pidx]

end

/-! ### Entries held, skipped and dropped (R496, R525, R527) -/

section
variable {s : State} {n : Fin 32768}

theorem acceptHeld_stores {h : Held} {tl : List Held} (hheld : (s.ring n).held = h :: tl) (hon : s.ringEn n = true)
    (hout : s.ringIn n = false) (hroom : s.ringFull n = false) (hgo : s.ringPaused = false) :
    s.acceptHeld n =
      ((s.setRing n { s.ring n with held := tl }).ringStore n h.prod h.ty h.body (s.ring n).gap).ringCount n 1 := by
  unfold State.acceptHeld
  rw [hheld]
  dsimp only
  rw [if_neg (by simp [hon, hout, hroom, hgo]), ring_setRing_same]

/-- The oldest entry held is written once the ring has room. -/
theorem backpAccept_stores {h : Held} {tl : List Held} (hheld : (s.ring n).held = h :: tl) (hprod : ∀ b, h.prod ≠ .acq b)
    (hon : s.ringEn n = true) (hout : s.ringIn n = false) (hroom : s.ringFull n = false) (hgo : s.ringPaused = false) :
    ∃ t, exec (.backpAccept n) s = .next t ∧ (t.ring n).held = tl ∧ t.pidx n = (s.pidx n + 1) % 2 ^ 32 := by
  have hstored := acceptHeld_stores hheld hon hout hroom hgo
  have accepted : State.Accepted n 1 (s.setRing n { s.ring n with held := tl }) (s.acceptHeld n) := by
    rw [hstored]
    exact accepted_ringCount n (accepted_ringStore _ n h.prod h.ty h.body _)
  have hleft : ((s.acceptHeld n).ring n).held = tl := accepted.held.trans (congrArg RingSt.held (ring_setRing_same s n _))
  have hsame : (s.acceptHeld n).producerGoesOn h.prod = s.acceptHeld n := by
    cases hp : h.prod with
    | acq b => exact absurd hp (hprod b)
    | _ => rfl
  refine ⟨s.acceptHeld n, ?_, hleft, accepted.pidx⟩
  change execBackpAccept n s = _
  unfold execBackpAccept
  rw [hheld]
  dsimp only
  rw [hsame, ite_self]

theorem cancelled_ringCount (x : State) (m k : Nat) : ((x.ringCount m k).ring m).cancelled = (x.ring m).cancelled := by
  unfold State.ringCount
  dsimp only
  split
  · rw [State.ringSignal, ring_sendMsg, ring_setRing_same, ring_setRing_same]
  · rw [ring_setRing_same]

/-- A head entry behind which nothing is cancelled is consumed alone (R494). -/
theorem takeHead_of_none {x : State} (hnone : (x.ring n).cancelled = []) : x.takeHead n = x.consume n := by
  have hcons : ((x.consume n).ring n).cancelled = [] := by
    rw [State.consume, cancelled_ringCount, ring_ringFlags, State.dropBells, ring_setRing_same, ring_setReg]
    exact hnone
  rw [State.takeHead, hcons]
  rfl

theorem cidx_consume (x : State) (m : Nat) : (x.consume m).cidx m = (x.cidx m + 1) % 2 ^ 32 := by
  rw [State.cidx, State.consume, word_ringCount, word_ringFlags _ _ (by decide), State.dropBells, reg_setRing, reg_setReg_same, word,
    BitVec.toNat_ofNat]

/-- Consuming an entry moves no count of RNG_STAT. -/
theorem badent_consume (x : State) (m : Nat) : (x.consume m).ringF m Off.rngStat 16 8 = x.ringF m Off.rngStat 16 8 := by
  rw [State.consume, ringF_of_word (word_ringCount ..)]
  unfold State.ringFlags
  rw [State.ringF, State.ringSet, reg_setReg_same, fld_putFld_other _ _ _ _ _ _ (by decide) (by decide), State.ringSet,
    reg_setReg_same, fld_putFld_other _ _ _ _ _ _ (by decide) (by decide), State.dropBells, reg_setRing,
    reg_setReg_ne _ _ fun e => absurd (ringAddr_inj.mp e).2 (by decide), State.ringF]

/-- An entry that is no service record is skipped and counted (R527). -/
theorem badent_skips {a e : Nat} (hhead : s.headEntry n = some (a, e)) (htype : e % 256 ≠ 0x0A) (hclean : s.poisoned a 32 = false)
    (hnone : (s.ring n).cancelled = []) :
    ∃ t, exec (.badent n .clean) s = .next t ∧ t.cidx n = (s.cidx n + 1) % 2 ^ 32 ∧
      t.ringF n Off.rngStat 16 8 = min 255 (s.ringF n Off.rngStat 16 8 + 1) := by
  have hlt : s.ringF n Off.rngStat 16 8 < 2 ^ 8 := fld_lt ..
  have hrun : exec (.badent n .clean) s =
      .next ((s.ringSet n Off.rngStat 16 8 (satAdd 255 (s.ringF n Off.rngStat 16 8) 1)).consume n) := by
    change execBadent n .clean s = _
    unfold execBadent
    rw [hhead]
    dsimp only
    rw [eccRead_clean _ hclean, if_neg fun h => htype h.1, takeHead_of_none (by rw [ring_ringSet]; exact hnone)]
  refine ⟨_, hrun, ?_, ?_⟩
  · rw [cidx_consume, cidx_of_word (word_ringSet s n (by decide))]
  · rw [badent_consume, ringF_ringSet_same _ _ _ _ _ _ (by decide), satAdd]
    split <;> omega

/-- A groom's entry held for the one ring that holds any is dropped (R496). -/
theorem backpDrop_drops {g : Fin 8} {o : Nat} {h : Held} {x : RingSt} (hrings : s.rings = [(n.val, x)]) (hheld : x.held = [h])
    (hprod : h.prod = .groom g o) :
    ∃ t, exec (.backpDrop g) s = .next t ∧ (t.ring n).held = [] ∧ (t.ring n).gap = true := by
  have hrun : exec (.backpDrop g) s =
      .next ((((s.setRing n { s.ring n with held := [] }).ringLose n).countLoss (.groom g o)).ringFlags n) := by
    change execBackpDrop g s = _
    unfold execBackpDrop
    simp [hrings, hheld, hprod, dropGroom]
  obtain ⟨hgap, hempty⟩ := ring_ringLose (s.setRing n { s.ring n with held := [] }) n
  refine ⟨_, hrun, ?_⟩
  rw [ring_ringFlags, ring_of_descr (descr_countLoss ..)]
  exact ⟨hempty.trans (congrArg RingSt.held (ring_setRing_same s n _)), hgap⟩

/-- The timer of a ring sends its message and starts anew (R528). -/
theorem ringTimer_signals (hirq : s.ringF n Off.rngCtrl 16 1 = 1) (htimer : s.ringF n Off.rngMod 16 16 ≠ 0)
    (hdue : 0 < (s.ring n).since) : ∃ t, exec (.ringTimer n) s = .next t ∧ (t.ring n).since = 0 := by
  refine ⟨_, if_pos ⟨hirq, htimer, hdue⟩, ?_⟩
  rw [State.ringSignal, ring_sendMsg, ring_setRing_same]

end

/-! ### Assignment (R513) -/

theorem ringOwner_ringSet {s : State} {n m own : Nat} (hown : own < 16) :
    (s.ringSet m Off.rngCtrl 12 4 own).ringOwner n = if n % 0x8000 = m % 0x8000 then own else s.ringOwner n := by
  rw [State.ringOwner, State.ringF, State.ringSet, reg_setReg, apply_ite (fun w => fld w 12 4), fld_putFld_same _ _ _ _ (by decide),
    Nat.mod_eq_of_lt (by omega : own < 2 ^ 4)]
  exact if_congr (ringAddr_inj.trans (and_iff_left rfl)) rfl rfl

/-- The rings of a list pass to a new owner; the others keep theirs. -/
theorem ringOwner_moved {own n : Nat} (hown : own < 16) (hn : n < 0x8000) (l : List Nat) (hl : ∀ m ∈ l, m < 0x8000) (s : State) :
    (l.foldl (fun x m => x.ringSet m Off.rngCtrl 12 4 own) s).ringOwner n = if n ∈ l then own else s.ringOwner n := by
  induction l generalizing s with
  | nil => simp
  | cons m l ih =>
    have hm : m < 0x8000 := hl m (List.mem_cons_self ..)
    rw [List.foldl_cons, ih fun k hk => hl k (List.mem_cons_of_mem _ hk), ringOwner_ringSet hown, Nat.mod_eq_of_lt hn,
      Nat.mod_eq_of_lt hm]
    by_cases h : n = m <;> simp [h]

section
variable {s : State} {own : Nat}

/-- The rings of the range of RNG_ASG_RANGE. -/
abbrev State.asgRange (s : State) : List Nat :=
  List.range' (s.rf .rng 0 Off.rngAsgRange 0 15) (s.rf .rng 0 Off.rngAsgRange 16 15 + 1 - s.rf .rng 0 Off.rngAsgRange 0 15)

theorem mem_asgRange {n : Nat} (hlo : s.rf .rng 0 Off.rngAsgRange 0 15 ≤ n) (hhi : n ≤ s.rf .rng 0 Off.rngAsgRange 16 15) :
    n ∈ s.asgRange := by
  rw [List.mem_range'_1]
  omega

theorem asgRange_lt {n : Nat} (h : n ∈ s.asgRange) : n < 0x8000 := by
  have := fld_lt (s.rd .rng 0 Off.rngAsgRange) 16 15
  rw [List.mem_range'_1, State.rf, State.rf] at h
  omega

/-- A range with no enabled ring, all of whose owners rest in M4, passes to its new owner. -/
theorem asgCmdWrite_assigns (hown : own < 8 ∨ own = 15) (hen : s.pageEn .rng 0 = true)
    (hfree : (s.enabledRings.any fun m =>
      decide (s.rf .rng 0 Off.rngAsgRange 0 15 ≤ m) && decide (m ≤ s.rf .rng 0 Off.rngAsgRange 16 15)) = false)
    (hm4 : s.ownerInM4 own = true) (hall : ∀ m ∈ s.asgRange, s.ownerInM4 (s.ringOwner m) = true) {n : Nat} (hn : n ∈ s.asgRange) :
    (asgCmdWrite (word (2 ^ 31 + own)) s).ringOwner n = own := by
  have hlt : own < 16 := by omega
  have hfld : fld (word (2 ^ 31 + own)) 0 4 = own := by
    rw [fld_word _ _ _ (by decide)]
    omega
  have hgo : tbit (word (2 ^ 31 + own)) 31 = true := by
    rw [tbit_eq_fld, fld_word _ _ _ (by decide), decide_eq_true_eq]
    omega
  have hplain : ∀ v, (s.plainWrite .rng 0 Off.rngAsgCmd v).ringOwner n = s.ringOwner n := fun v => by
    obtain ⟨row, ij, hrow⟩ : ∃ row ij, regRow .rng Off.rngAsgCmd = some (row, ij) := ⟨_, _, rfl⟩
    rw [plainWrite_of_row hrow]
    exact ringF_of_word (ringWord_wr ..) _ _
  unfold asgCmdWrite
  dsimp only
  rw [hfld, if_neg (by omega), hgo, if_neg (by decide), hen, if_neg (by decide), hfree, if_neg (by decide)]
  split
  · rename_i hnone
    rw [List.isEmpty_iff, List.filter_eq_nil_iff] at hnone
    rw [hplain]
    simpa using hnone n hn
  · rw [if_neg (by
      rintro (h | h)
      · rw [hm4] at h; cases h
      · obtain ⟨m, hm, hbad⟩ := List.any_eq_true.mp h
        simp [hall m (List.mem_of_mem_filter hm)] at hbad)]
    rw [ringOwner_moved hlt (asgRange_lt hn) _ fun m hm => asgRange_lt (List.mem_of_mem_filter hm)]
    split
    · rfl
    · rename_i hnot
      rw [hplain]
      simpa [hn] using hnot

end

/-- Settles O45: each command by what it does to its ring. -/
theorem ringCommandsTakeEffect : Obligations.RingCommandsTakeEffect := by
  refine ⟨fun r n s hreach hpol hlo hhi => ?_, fun f n v s hreach hon => ?_, fun n h tl s hheld hprod hon hout hroom hgo => ?_,
    fun n a e s hhead htype hclean hnone => ?_, fun g n o h x s hrings hheld hprod => ?_, fun n s _ hirq htimer hdue => ?_,
    fun r owner n s hacc hown hen hfree hm4 hall hlo hhi => ?_⟩
  · exact ⟨ringEnable_starts hreach hpol hlo hhi, ringDisable_ends hreach hpol hlo hhi⟩
  · exact ⟨doorbell_produces hreach hon, doorbell_consumes hreach hon⟩
  · exact backpAccept_stores hheld hprod hon hout hroom hgo
  · exact badent_skips hhead htype hclean hnone
  · exact backpDrop_drops hrings hheld hprod
  · exact ringTimer_signals hirq htimer hdue
  · exact ⟨_, congrArg Host.Outcome.next (guarded_of_accepts hacc _),
      asgCmdWrite_assigns hown hen hfree hm4 hall (mem_asgRange hlo hhi)⟩

end Sys2Proof.Machine

/-!
PROOF. The trip conditions and the WCH pages beside the other blocks: what a rank-1 event, an event of a TIM unit, a trigger of a
converter or an acquisition engine, and the wake logic leave of them.
-/

namespace Sys2Proof.Machine

/-- The trip conditions that are held, and the registers of the WCH pages. -/
def State.watchPart (s : State) : List (Nat × Nat) × (Nat → Nat → Word) := (s.trips, fun i o => s.rd .wch i o)

theorem trips_of_watchPart {s t : State} (h : t.watchPart = s.watchPart) : t.trips = s.trips := congrArg Prod.fst h

theorem rd_of_watchPart {s t : State} (h : t.watchPart = s.watchPart) (i o : Nat) : t.rd .wch i o = s.rd .wch i o :=
  congrFun (congrFun (congrArg Prod.snd h) i) o

theorem watchPart_eq {s t : State} (ht : t.trips = s.trips) (hr : ∀ i o, t.rd .wch i o = s.rd .wch i o) : t.watchPart = s.watchPart :=
  Prod.ext ht (funext fun i => funext (hr i))

variable (s : State)

/-! ### Branches, folds and fields -/

/-- Within `State.watchPart` only the outermost operation is rewritten: what it stores is of no account. -/
@[congr] theorem watchPart_congr : s.watchPart = s.watchPart := rfl

@[simp] theorem watchPart_ite (c : Prop) [Decidable c] (a b : State) :
    (if c then a else b).watchPart = if c then a.watchPart else b.watchPart := apply_ite State.watchPart c a b

theorem watchPart_foldl {α : Type} (f : State → α → State) (l : List α) (h : ∀ x a, (f x a).watchPart = x.watchPart) :
    (l.foldl f s).watchPart = s.watchPart := view_foldl h s l

@[simp] theorem watchPart_useFree : s.useFree.watchPart = s.watchPart := (rfl)
@[simp] theorem watchPart_setStall (i : Nat) (v : StallSt) : (s.setStall i v).watchPart = s.watchPart := (rfl)
@[simp] theorem watchPart_setRing (i : Nat) (v : RingSt) : (s.setRing i v).watchPart = s.watchPart := (rfl)
@[simp] theorem watchPart_setSeq (i : Nat) (v : SeqSt) : (s.setSeq i v).watchPart = s.watchPart := (rfl)
@[simp] theorem watchPart_setChan (i : Nat) (v : ChanSt) : (s.setChan i v).watchPart = s.watchPart := (rfl)
@[simp] theorem watchPart_setTim (i c : Nat) (v : TimUnit) : (s.setTim i c v).watchPart = s.watchPart := (rfl)
@[simp] theorem watchPart_setPmu (i u : Nat) (v : PmuSt) : (s.setPmu i u v).watchPart = s.watchPart := (rfl)
@[simp] theorem watchPart_setCnv (i u : Nat) (v : CnvUnit) : (s.setCnv i u v).watchPart = s.watchPart := (rfl)
@[simp] theorem watchPart_setFar (v : FarSt) : (s.setFar v).watchPart = s.watchPart := (rfl)
@[simp] theorem watchPart_setTrans (t : Option (DevMode × Bool)) : (s.setTrans t).watchPart = s.watchPart := (rfl)
@[simp] theorem watchPart_with_lan (v : Lantern) : { s with lan := v }.watchPart = s.watchPart := (rfl)
@[simp] theorem watchPart_with_catBuf (v : List CapRec) : { s with catBuf := v }.watchPart = s.watchPart := (rfl)
@[simp] theorem watchPart_with_mode (m : ModeSt) : { s with mode := m }.watchPart = s.watchPart := (rfl)

/-! ### Registers of other pages, entries and events -/

section
variable {k : PageKind} (h : PageKind.wch ≠ k)
include h

@[simp] theorem watchPart_wr (i o : Nat) (v : Word) : (s.wr k i o v).watchPart = s.watchPart :=
  watchPart_eq (State.wr_trips ..) fun i' o' => rd_wr_kind s i o i' o' v h
@[simp] theorem watchPart_wf (i o lo n v : Nat) : (s.wf k i o lo n v).watchPart = s.watchPart := watchPart_wr s h i o _
@[simp] theorem watchPart_wb (i o b : Nat) (v : Bool) : (s.wb k i o b v).watchPart = s.watchPart := watchPart_wr s h i o _
@[simp] theorem watchPart_sat (i o lo n v : Nat) : (s.sat k i o lo n v).watchPart = s.watchPart := watchPart_wr s h i o _
@[simp] theorem watchPart_startResult (i o : Nat) : (s.startResult k i o).watchPart = s.watchPart := watchPart_wr s h i o _
@[simp] theorem watchPart_storeResult (i o v : Nat) : (s.storeResult k i o v).watchPart = s.watchPart := watchPart_wr s h i o _
@[simp] theorem watchPart_wr2 (i lo hi v : Nat) : (s.wr2 k i lo hi v).watchPart = s.watchPart :=
  (watchPart_wr _ h i hi _).trans (watchPart_wr s h i lo _)
@[simp] theorem watchPart_event (i n : Nat) : (s.event k i n).watchPart = s.watchPart :=
  watchPart_eq (State.event_trips ..) fun i' o' => rd_event s k i n .wch i' o' (by simp [postReg]) (.inl h)

end

@[simp] theorem watchPart_offer (n : Nat) (p : Producer) (wait : Bool) (ty body : Nat) :
    (s.offer n p wait ty body).1.watchPart = s.watchPart :=
  watchPart_eq (congrArg State.trips (entryFrame_offer s n p wait ty body).eq :) fun i o =>
    rd_offer s n p wait ty body (by decide) fun x => by
      cases p with
      | mark | page | device => rfl
      | _ => exact rd_sat_kind x _ _ _ _ _ _ _ (by decide)

@[simp] theorem watchPart_post (n : Nat) (p : Producer) (wait : Bool) (ty body : Nat) :
    (s.post n p wait ty body).watchPart = s.watchPart := watchPart_offer s n p wait ty body

theorem acqFree_watchPart : State.AcqFree State.watchPart where
  setAcq _ _ _ := rfl
  useFree _ := rfl
  wr s _ i o v hk := watchPart_wr s (by rcases hk with rfl | rfl <;> decide) i o v
  event s _ i n hk := watchPart_event s (by rcases hk with rfl | rfl <;> decide) i n
  offer s n b wait ty body := watchPart_offer s n (.acq b) wait ty body

/-! ### Triggers of converters and engines, and the wake logic -/

@[simp] theorem watchPart_cnvWatch (ch : Nat) (side : Bool) : (s.cnvWatch ch side).watchPart = s.watchPart := by
  unfold State.cnvWatch State.cnvTrigger State.setCnvState
  simp (disch := decide)

@[simp] theorem watchPart_acqWatch (ch : Nat) (side : Bool) : (s.acqWatch ch side).watchPart = s.watchPart := by
  unfold State.acqWatch
  simp only [watchPart_ite, acqFree_watchPart.acqEvent, ite_self]

@[simp] theorem watchPart_wakeBegin (src : Nat) (req : Bool) : (s.wakeBegin src req).watchPart = s.watchPart := (rfl)

@[simp] theorem watchPart_wake (src line : Nat) (req : Bool) : (s.wake src line req).watchPart = s.watchPart := by
  have noted : ((s.wb .mod0 0 Off.modWakeSrc src true).wf .mod0 0 Off.modWakeSrc 8 4
      (s.rf .mod0 0 Off.modWakeSrc 8 4 ||| line)).watchPart = s.watchPart :=
    (watchPart_wf _ (by decide) ..).trans (watchPart_wb s (by decide) ..)
  unfold State.wake
  dsimp only
  split
  · rfl
  · split
    · exact noted
    · split
      · exact noted
      · rfl

/-! ### TIM units -/

@[simp] theorem watchPart_setTimState (st c v : Nat) : (s.setTimState st c v).watchPart = s.watchPart := by
  simp (disch := decide) [State.setTimState]

@[simp] theorem watchPart_timEnd (st c e : Nat) : (s.timEnd st c e).watchPart = s.watchPart := by simp [State.timEnd]
@[simp] theorem watchPart_timPulse (st c : Nat) (p : Nat × Nat) : (s.timPulse st c p).watchPart = s.watchPart := by
  simp [State.timPulse]

@[simp] theorem watchPart_timReach (st c : Nat) (ok : Nat → Bool) : (s.timReach st c ok).watchPart = s.watchPart := by
  simp [State.timReach, watchPart_foldl _ _ _ fun x p => watchPart_timPulse x st c p]

@[simp] theorem watchPart_timStamp (st c v src : Nat) : (s.timStamp st c v src).watchPart = s.watchPart := by
  unfold State.timStamp State.timLog State.timNote State.timUnpair
  dsimp only
  repeat' split
  all_goals simp (disch := decide)

@[simp] theorem watchPart_timTake (st c t : Nat) (edge : Bool) : (s.timTake st c t edge).watchPart = s.watchPart := by
  simp (disch := decide) [State.timTake]

@[simp] theorem watchPart_timPreempt (st m : Nat) : (s.timPreempt st m).watchPart = s.watchPart := by
  have ended := watchPart_foldl s _ (onesOf m 16) fun x c => watchPart_timEnd x st c endPreempt
  simp (disch := decide) [State.timPreempt, State.vernierStop, ended]

/-! ### PMUs -/

@[simp] theorem watchPart_pmuClamp (st u : Nat) : (s.pmuClamp st u).watchPart = s.watchPart := by
  simp (disch := decide) [State.pmuClamp, State.throttle, State.pmuFlag, State.setPmuState]

@[simp] theorem watchPart_pmuParked (st m : Nat) : (s.pmuParked st m).watchPart = s.watchPart :=
  watchPart_foldl _ _ _ fun x u => by simp

@[simp] theorem watchPart_pmuRelease (st u : Nat) : (s.pmuRelease st u).watchPart = s.watchPart := by
  unfold State.pmuRelease
  dsimp only
  split
  · exact watchPart_foldl _ _ _ fun x w => by simp (disch := decide)
  · rfl

/-! ### Farrier steps -/

@[simp] theorem watchPart_wearCycle (st n : Nat) (hot : Bool) : (s.wearCycle st n hot).watchPart = s.watchPart := by
  unfold State.wearCycle
  simp (disch := decide)

theorem watchPart_wearCycles (st : Nat) (n : Nat → Nat) (hot : Nat → Bool) (l : List Nat) :
    (l.foldl (fun x c => x.wearCycle st (n c) (hot c)) s).watchPart = s.watchPart :=
  watchPart_foldl _ _ _ fun x c => watchPart_wearCycle x st (n c) (hot c)

@[simp] theorem watchPart_pullUpdate (st : Nat) : (s.pullUpdate st).watchPart = s.watchPart := by
  simp (disch := decide) [State.pullUpdate]

@[simp] theorem watchPart_busOpen (st m : Nat) : (s.busOpen st m).watchPart = s.watchPart := by
  simp (disch := decide) [State.busOpen, watchPart_wearCycles]

@[simp] theorem watchPart_busOpening (st m : Nat) : (s.busOpening st m).watchPart = s.watchPart := watchPart_setStall s st _
@[simp] theorem watchPart_seqUndefer (q : Nat) : (s.seqUndefer q).watchPart = s.watchPart := by simp [State.seqUndefer]
@[simp] theorem watchPart_farTimEnd (st : Nat) : (s.farTimEnd st).watchPart = s.watchPart := watchPart_foldl s _ _ fun z c => by simp

@[simp] theorem watchPart_stepRelease (x : FarStep) (w : Bool) : (s.stepRelease x w).watchPart = s.watchPart := by
  unfold State.stepRelease
  rw [watchPart_foldl _ _ _ watchPart_seqUndefer]
  simp

@[simp] theorem watchPart_setFarState (v : Nat) : (s.setFarState v).watchPart = s.watchPart := watchPart_wf s (by decide) ..

@[simp] theorem watchPart_farStore (c : Nat) : (s.farStore c).watchPart = s.watchPart := by
  unfold State.farStore
  extract_lets s1 s2 s3 _ s4
  have h3 : s3.watchPart = s.watchPart :=
    (watchPart_setFarState _ _).trans ((watchPart_wb s2 (by decide) ..).trans
      ((watchPart_storeResult s1 (by decide) ..).trans (watchPart_wr s (by decide) ..)))
  have h4 : s4.watchPart = s.watchPart := (watchPart_event _ (by decide) ..).trans ((watchPart_setFar s3 _).trans h3)
  split
  · exact (watchPart_setTrans s4 _).trans h4
  · exact h4

@[simp] theorem watchPart_farSettle : s.farSettle.watchPart = s.watchPart := by
  unfold State.farSettle
  split <;> simp

@[simp] theorem watchPart_farAbort (p : FarStep → Bool) : (s.farAbort p).watchPart = s.watchPart := by
  unfold State.farAbort
  rw [watchPart_farSettle, watchPart_foldl _ _ _ fun x e => ?_]
  simp (disch := decide)

@[simp] theorem watchPart_farAbortChans (st m : Nat) : (s.farAbortChans st m).watchPart = s.watchPart := watchPart_farAbort s _

/-! ### Switches and parking -/

@[simp] theorem watchPart_batchEnd (st c : Nat) : (s.batchEnd st c).watchPart = s.watchPart := by
  simp (disch := decide) [State.batchEnd]

@[simp] theorem watchPart_batchMove (st : Nat) (b : Batch) (ho hc : Nat) (c : Bool) :
    (s.batchMove st b ho hc c).watchPart = s.watchPart := by
  unfold State.batchMove State.batchOpen State.batchClose
  simp (disch := decide) [watchPart_wearCycles]

@[simp] theorem watchPart_batchPreempt (st m : Nat) : (s.batchPreempt st m).watchPart = s.watchPart := by
  unfold State.batchPreempt
  split
  · rfl
  · simp [watchPart_wearCycles]

@[simp] theorem watchPart_openSwitches (st m : Nat) : (s.openSwitches st m).watchPart = s.watchPart := by simp [State.openSwitches]

/-- Pending edges of a list of channels are cancelled. -/
theorem watchPart_setChans {α : Type} (ch : α → Nat) (v : State → α → ChanSt) (l : List α) :
    (l.foldl (fun x c => x.setChan (ch c) (v x c)) s).watchPart = s.watchPart :=
  watchPart_foldl _ _ _ fun x c => watchPart_setChan x (ch c) (v x c)

@[simp] theorem watchPart_park (st m : Nat) : (s.park st m).watchPart = s.watchPart := by
  simp (disch := decide) [State.park, watchPart_setChans]

@[simp] theorem watchPart_hwPark (st m : Nat) : (s.hwPark st m).watchPart = s.watchPart := by
  simp (disch := decide) [State.hwPark]

/-- A rank-1 event leaves them. -/
@[simp] theorem watchPart_rank1 (st m : Nat) : (s.rank1 st m).watchPart = s.watchPart := by
  unfold State.rank1
  simp [watchPart_setChans, watchPart_foldl _ _ _ fun x u => watchPart_pmuClamp x st u]

/-! ### Sequencers -/

@[simp] theorem watchPart_endRun (q : Nat) (e : RunEnd) : (s.endRun q e).watchPart = s.watchPart := by
  unfold State.endRun State.starveCount State.setSeqState
  simp (disch := decide)

@[simp] theorem watchPart_capture (q : Nat) (v : VecRec) (i : Nat) : (s.capture q v i).watchPart = s.watchPart := by
  unfold State.capture
  simp (disch := decide) only [watchPart_ite, watchPart_setSeq, watchPart_event, watchPart_sat, watchPart_wr, watchPart_with_catBuf,
    ite_self]

@[simp] theorem watchPart_retire (q : Nat) (v : VecRec) : (s.retire q v).watchPart = s.watchPart := by
  have captured : ∀ (l : List Nat) (y : State) (f : State → Nat → SeqSt),
      (l.foldl (fun y i => (y.setSeq q (f y i)).capture q v i) y).watchPart = y.watchPart := fun l y f =>
    watchPart_foldl _ _ _ fun x i => by simp
  unfold State.retire
  split <;> simp (disch := decide) [captured]

@[simp] theorem watchPart_setSeqState (q v : Nat) : (s.setSeqState q v).watchPart = s.watchPart := by
  simp (disch := decide) [State.setSeqState]
@[simp] theorem watchPart_setMstate (q v : Nat) : (s.setMstate q v).watchPart = s.watchPart := by
  simp (disch := decide) [State.setMstate]
@[simp] theorem watchPart_panicEnd (q : Nat) : (s.panicEnd q).watchPart = s.watchPart := by 
  simp (disch := decide) [State.panicEnd, State.portCalm]
@[simp] theorem watchPart_evictIdle (q : Nat) : (s.evictIdle q).watchPart = s.watchPart := by
  unfold State.evictIdle State.keepGranules
  split <;> simp
@[simp] theorem watchPart_postSites (q : Nat) (l : List Nat) : (s.postSites q l).watchPart = s.watchPart :=
  watchPart_foldl s _ _ fun x _ => watchPart_post x _ _ _ _ _

@[simp] theorem watchPart_finishRun (q : Nat) (e : RunEnd) : (s.finishRun q e).watchPart = s.watchPart := by
  have retired : ∀ y : State, (y.retireAll q).watchPart = y.watchPart := fun y => by
    simp [State.retireAll, watchPart_foldl _ _ _ fun x v => watchPart_retire x q v]
  have fails : ∀ (y : State) (v : Nat → Word), ((upto 16).foldl (fun y w => y.wr .site q (Off.siteFail w) (v w)) y).watchPart =
      y.watchPart := fun y v => watchPart_foldl y _ _ fun x w => watchPart_wr x (by decide) q _ _
  unfold State.finishRun
  simp (disch := decide) [watchPart_setChans, retired, fails, watchPart_foldl _ _ _ fun x b => watchPart_postSites x q b]

@[simp] theorem watchPart_seqPreempt (q : Nat) : (s.seqPreempt q).watchPart = s.watchPart := by
  simp [State.seqPreempt, State.cutRun, State.cancelEdges, State.cutWindows, watchPart_setChans]

@[simp] theorem watchPart_seqRank1 : s.seqRank1.watchPart = s.watchPart :=
  watchPart_foldl _ _ _ fun x q => by simp

end Sys2Proof.Machine

/-!
PROOF. Watch comparators (R428 to R449): what the writes of their settings store, what a comparator that is judged leaves, and O31.
-/

namespace Sys2Proof.Machine

/-! ### Settings as they are written (R429, R432, R437) -/

/-- The rows of WCH_CFG and WCH_THR. -/
abbrev wchCfgRow : RegRow := ⟨0x100, 8, 16, 0, 1, 0, 0, false, 0x33F3F07, 0, 0, 0⟩
abbrev wchThrRow : RegRow := ⟨0x104, 8, 16, 0, 1, 0xFFF, 0, false, 0xFFF0FFF, 0, 0, 0⟩

theorem regRow_wchCfg (c : Fin 16) : ∃ ij, regRow .wch (Off.wchCfg c) = some (wchCfgRow, ij) := by
  fin_cases c <;> exact ⟨_, rfl⟩

theorem regRow_wchThr (c : Fin 16) : ∃ ij, regRow .wch (Off.wchThr c) = some (wchThrRow, ij) := by
  fin_cases c <;> exact ⟨_, rfl⟩

/-- The offset is neither that of WCH_UNRES nor that of WCH_LIVE. -/
def offStates (o : Nat) : Prop := o % 0x1000 ≠ Off.wchUnres ∧ o % 0x1000 ≠ Off.wchLive

theorem offStates_cfg (c : Fin 16) : offStates (Off.wchCfg c) := by
  unfold offStates
  simp only [Off.wchCfg, Off.wchUnres, Off.wchLive]
  omega

theorem offStates_thr (c : Fin 16) : offStates (Off.wchThr c) := by
  unfold offStates
  simp only [Off.wchThr, Off.wchUnres, Off.wchLive]
  omega

section
variable (s : State) (st : Nat)

theorem regs_tripHold (t : Nat) : (s.tripHold st t).regs = s.regs := rfl

/-- WCH_UNRES and WCH_LIVE once the comparators of mask `m` are unresolved where they are enabled. -/
def State.unresWritten (s : State) (st m : Nat) : State :=
  let keep := fun (w n : Nat) => maskOf 32 fun i => if natBit m i then natBit n i else natBit w i
  (s.wr .wch st Off.wchUnres (word (keep (s.rd .wch st Off.wchUnres).toNat (s.watchEnabled st)))).wr .wch st Off.wchLive
    (word (keep (s.rd .wch st Off.wchLive).toNat 0))

theorem regs_watchUnres (m : Nat) : (s.watchUnres st m).regs = (s.unresWritten st m).regs := by
  unfold State.watchUnres State.unresWritten
  dsimp only
  split
  · rfl
  · rw [regs_tripHold]

/-- Comparators that become unresolved move WCH_UNRES and WCH_LIVE alone. -/
theorem rd_watchUnres (m : Nat) {i o : Nat} (h : offStates o) : (s.watchUnres st m).rd .wch i o = s.rd .wch i o := by
  rw [rd_of_regs (regs_watchUnres ..), State.unresWritten, rd_wr_offset _ _ _ _ _ _ _ h.2, rd_wr_offset _ _ _ _ _ _ _ h.1]

theorem rb_unres_watchUnres (m : Nat) {i : Nat} (hi : i < 32) :
    (s.watchUnres st m).rb .wch st Off.wchUnres i =
      if natBit m i then natBit (s.watchEnabled st) i else s.rb .wch st Off.wchUnres i := by
  rw [rb_of_rd (rd_of_regs (regs_watchUnres ..) ..), State.unresWritten, State.rb, rd_wr_offset _ _ _ _ _ _ _ (by decide), rd_wr_same,
    tbit_word_maskOf _ _ _ (by decide)]
  simp only [hi, decide_true, Bool.true_and]
  rfl

theorem mode_watchUnres (m : Nat) : (s.watchUnres st m).mode = s.mode := by
  exact (congrArg State.mode (watchFrame_watchUnres s st m).eq :)

/-- What a comparator is judged by is the same in both states: its settings, and the device mode. -/
structure State.JudgesAs (s t : State) (st : Nat) : Prop where
  rd : ∀ o, offStates o → t.rd .wch st o = s.rd .wch st o
  mode : t.mode = s.mode

end

section
variable {s t : State} {st : Nat}

theorem State.JudgesAs.watchEnabled (h : State.JudgesAs s t st) : t.watchEnabled st = s.watchEnabled st := by
  have cfg : ∀ i b, t.rb .wch st (Off.wchCfg (i % 16)) b = s.rb .wch st (Off.wchCfg (i % 16)) b := fun i b =>
    rb_of_rd (h.rd _ (offStates_cfg ⟨i % 16, Nat.mod_lt _ (by decide)⟩)) b
  have en : t.pageEn .wch st = s.pageEn .wch st := rb_of_rd (h.rd _ ⟨by decide, by decide⟩) 0
  unfold State.watchEnabled
  simp only [cfg, en]

theorem State.JudgesAs.watchSide (h : State.JudgesAs s t st) (i : Nat) (v : Int) : t.watchSide st i v = s.watchSide st i v := by
  have cfg := fun lo n => rf_of_rd (h.rd _ (offStates_cfg ⟨i % 16, Nat.mod_lt _ (by decide)⟩)) lo n
  have thr := fun lo n => rf_of_rd (h.rd _ (offStates_thr ⟨i % 16, Nat.mod_lt _ (by decide)⟩)) lo n
  dsimp only at cfg thr
  unfold State.watchSide State.watchHi State.watchLo State.watchHyst State.watchTest
  simp only [cfg, thr]

theorem State.JudgesAs.analogOn (h : State.JudgesAs s t st) : t.analogOn = s.analogOn := by
  unfold State.analogOn
  rw [h.mode]

/-- Thresholds that take effect leave the settings, and leave what is unresolved so. -/
theorem watchLatch_judges (s : State) (st : Nat) : State.JudgesAs s (s.watchLatch st) st := by
  unfold State.watchLatch
  split
  · exact ⟨fun o ho => rd_watchUnres _ st _ ho, mode_watchUnres _ st _⟩
  · exact ⟨fun _ _ => rfl, rfl⟩

theorem unres_watchLatch {i : Nat} (hi : i < 32) (hen : natBit (s.watchEnabled st) i = true)
    (hun : s.rb .wch st Off.wchUnres i = true) : (s.watchLatch st).rb .wch st Off.wchUnres i = true := by
  unfold State.watchLatch
  split
  · rw [rb_unres_watchUnres _ st _ hi]
    split
    · exact hen
    · exact hun
  · exact hun

/-! ### Judging a comparator (R430, R433, R446) -/

section
variable {i : Nat} {v : Int}

theorem watchJudge_eq (hon : s.analogOn = true) (hen : natBit (s.watchEnabled st) i = true) (t : Nat) (v : Int) (strobe : Bool) :
    s.watchJudge st i t v strobe =
      match s.watchSide st i v with
      | some true => if s.rb .wch st Off.wchUnres i || !s.rb .wch st Off.wchLive i then s.watchCross st i t strobe else s
      | some false => if s.rb .wch st Off.wchUnres i || s.rb .wch st Off.wchLive i then s.watchClear st i else s
      | none => s := by
  unfold State.watchJudge
  rw [if_neg (by simp [hon, hen])] <;> rfl

theorem regs_watchClear (s : State) (st i : Nat) :
    (s.watchClear st i).regs = ((s.wb .wch st Off.wchUnres i false).wb .wch st Off.wchLive i false).regs := by
  unfold State.watchClear
  dsimp only
  split
  · exact regs_tripHold ..
  · rfl

/-- A comparator that is released or resolves to CLEAR reads 0 in both registers (R433, R441). -/
theorem watchClear_clears (s : State) (st : Nat) {i : Nat} (hi : i < 32) :
    (s.watchClear st i).rb .wch st Off.wchUnres i = false ∧ (s.watchClear st i).rb .wch st Off.wchLive i = false := by
  rw [rb_of_rd (rd_of_regs (regs_watchClear s st i) ..), rb_of_rd (rd_of_regs (regs_watchClear s st i) ..), rb_wb_same _ _ _ _ _ _ hi]
  exact ⟨(rb_of_rd (rd_wr_offset _ _ _ _ _ _ _ (by decide)) i).trans (rb_wb_same _ _ _ _ _ _ hi), rfl⟩

end

end

/-! ### Crossings and trips (R430, R436 to R443) -/

section
variable (s : State) (st : Nat) {i : Nat}

/-- A crossing as its registers and its event show it. -/
def State.crossNoted (s : State) (st i : Nat) : State :=
  (((s.wb .wch st Off.wchUnres i false).wb .wch st Off.wchLive i true).wb .wch st Off.wchXing i true).event .wch st 1

/-- A crossing counted, and told to the blocks that follow it. -/
def State.crossTold (x : State) (st i t : Nat) (strobe : Bool) : State :=
  let c := i % 16
  let low := i / 16 == 1
  let s3 := x.sat .wch st Off.wchXingCnt 0 32 1
  let s4 := if s3.timSrc st c = 4 + bit low then s3.timTake st c t strobe else s3
  let s5 := (s4.cnvWatch (16 * st + c) low).acqWatch (16 * st + c) low
  if s5.rb .wch st (Off.wchCfg c) (20 + bit low) then s5.wake wakeWch 0 false else s5

theorem watchCross_eq (t : Nat) (strobe : Bool) :
    s.watchCross st i t strobe =
      if s.watchTest st (i % 16) ≠ 0 then s.crossNoted st i
      else if s.watchAct st i = 1 ∨ s.watchAct st i = 2 then ((s.crossNoted st i).crossTold st i t strobe).watchTrip st i t
      else (s.crossNoted st i).crossTold st i t strobe := rfl

theorem rd_crossNoted {o : Nat} (hs : offStates o) (hx : o % 0x1000 ≠ Off.wchXing) (he : o % 0x1000 ≠ Off.pgEvt) :
    (s.crossNoted st i).rd .wch st o = s.rd .wch st o := by
  rw [State.crossNoted, rd_event _ _ _ _ _ _ _ (by simp [postReg]) (.inr (.inr he))]
  exact (rd_wr_offset _ _ _ _ _ _ _ hx).trans ((rd_wr_offset _ _ _ _ _ _ _ hs.2).trans (rd_wr_offset _ _ _ _ _ _ _ hs.1))

theorem crossNoted_shows (hi : i < 32) :
    (s.crossNoted st i).rb .wch st Off.wchLive i = true ∧ (s.crossNoted st i).rb .wch st Off.wchXing i = true := by
  rw [State.crossNoted, rb_of_rd (rd_event _ _ _ _ _ _ _ (by simp [postReg]) (.inr (.inr (by decide)))),
    rb_of_rd (rd_event _ _ _ _ _ _ _ (by simp [postReg]) (.inr (.inr (by decide)))), rb_wb_same _ _ _ _ _ _ hi]
  exact ⟨(rb_of_rd (rd_wr_offset _ _ _ _ _ _ _ (by decide)) i).trans (rb_wb_same _ _ _ _ _ _ hi), rfl⟩

theorem watchPart_crossTold (x : State) (st i t : Nat) (strobe : Bool) :
    (x.crossTold st i t strobe).watchPart = (x.sat .wch st Off.wchXingCnt 0 32 1).watchPart := by
  simp only [State.crossTold, watchPart_ite, watchPart_wake, watchPart_acqWatch, watchPart_cnvWatch, watchPart_timTake, ite_self]

theorem rd_crossTold (x : State) (st i t : Nat) (strobe : Bool) {o : Nat} (h : o % 0x1000 ≠ Off.wchXingCnt) :
    (x.crossTold st i t strobe).rd .wch st o = x.rd .wch st o :=
  (rd_of_watchPart (watchPart_crossTold x st i t strobe) st o).trans (rd_wr_offset _ _ _ _ _ _ _ h)

/-- A crossing shows in WCH_LIVE and WCH_XING (R430, R436). -/
theorem watchCross_shows (hi : i < 32) (hact : s.watchAct st i = 0) (t : Nat) (strobe : Bool) :
    (s.watchCross st i t strobe).rb .wch st Off.wchLive i = true ∧ (s.watchCross st i t strobe).rb .wch st Off.wchXing i = true := by
  have shows := crossNoted_shows s st hi
  rw [watchCross_eq, hact, if_neg (by decide : ¬((0 : Nat) = 1 ∨ (0 : Nat) = 2))]
  split
  · exact shows
  · rw [rb_of_rd (rd_crossTold _ st i t strobe (by decide)), rb_of_rd (rd_crossTold _ st i t strobe (by decide))]
    exact shows

theorem watchAct_told (t : Nat) (strobe : Bool) :
    ((s.crossNoted st i).crossTold st i t strobe).watchAct st i = s.watchAct st i := by
  have cfg : Off.wchCfg (i % 16) % 0x1000 = 0x100 + i % 16 * 8 := by
    simp only [Off.wchCfg]
    omega
  refine rf_of_rd ((rd_crossTold _ st i t strobe ?_).trans
    (rd_crossNoted s st (offStates_cfg ⟨i % 16, Nat.mod_lt _ (by decide)⟩) ?_ ?_)) _ _
  all_goals
    simp only [cfg, Off.wchXingCnt, Off.wchXing, Off.pgEvt]
    omega

theorem trips_watchLog (t : Nat) : (s.watchLog st i t).trips = s.trips := by
  unfold State.watchLog
  simp only [apply_ite State.trips, State.logOffer_trips, ite_self]

theorem trips_with_pins (x : State) (p : Pins) : { x with pins := p }.trips = x.trips := rfl

/-- A trip that is held, counted and logged. -/
def State.tripNoted (s : State) (st i t : Nat) : State :=
  let x := ((s.tripHold st (Store.getD (fun _ => 0) s.trips st ||| 2 ^ i)).rank1 st (s.watchChans st i)).seqRank1
  ((x.sat .wch st Off.wchTripCnt 0 32 1).event .wch st 2).watchLog st i t

theorem trips_tripNoted (t : Nat) :
    (s.tripNoted st i t).trips = Store.setD (fun _ => 0) s.trips st (Store.getD (fun _ => 0) s.trips st ||| 2 ^ i) := by
  rw [State.tripNoted, trips_watchLog, State.event_trips, State.sat_trips, trips_of_watchPart (watchPart_seqRank1 _),
    trips_of_watchPart (watchPart_rank1 ..), State.tripHold, State.setStall_trips, State.setTrips]

theorem watchTrip_of_trip (hact : s.watchAct st i = 1) (t : Nat) :
    s.watchTrip st i t = { s.tripNoted st i t with pins := { (s.tripNoted st i t).pins with tripLow := true } } := by
  unfold State.watchTrip
  rw [hact]
  exact if_neg (by decide)

/-- A trip that does not go on to M11 pulls TRIP_N low and holds its trip condition (R437, R440, R443). -/
theorem watchTrip_holds (hact : s.watchAct st i = 1) (t : Nat) :
    (s.watchTrip st i t).pins.tripLow = true ∧ natBit (Store.getD (fun _ => 0) (s.watchTrip st i t).trips st) i = true := by
  rw [watchTrip_of_trip s st hact]
  refine ⟨rfl, ?_⟩
  rw [trips_with_pins, trips_tripNoted, Store.getD_setD_same, natBit, Nat.testBit_or, Nat.testBit_two_pow_self, Bool.or_true]

end

/-! ### The commands -/

section
variable {s : State} {r : Requester} {st : Fin 128}

theorem wchCfgWrite_stores {c : Fin 16} {v : Word} (hacc : s.accepts r .wch st (Off.wchCfg c) v = true)
    (hquad : tbit v 2 = false ∨ c.val % 4 = 0) (hhyst : fld v 8 6 ≤ 50) (hup : fld v 16 2 < 2) (hlow : fld v 18 2 < 2) :
    ∃ t, exec (.wchCfgWrite r st c v) s = .next t ∧ t.rb .wch st (Off.wchCfg c) 0 = tbit v 0 ∧
      t.rb .wch st (Off.wchCfg c) 1 = tbit v 1 ∧ t.rf .wch st (Off.wchCfg c) 8 6 = fld v 8 6 ∧
      t.rf .wch st (Off.wchCfg c) 16 2 = fld v 16 2 ∧ t.rf .wch st (Off.wchCfg c) 18 2 = fld v 18 2 := by
  obtain ⟨ij, hrow⟩ := regRow_wchCfg c
  have stored : ∃ m, wchCfgWrite st c v s = (s.plainWrite .wch st (Off.wchCfg c) v).watchUnres st m := by
    unfold wchCfgWrite
    dsimp only
    rw [if_neg (by
      rintro (⟨h1, h2⟩ | h | h | h)
      · rcases hquad with h | h
        · rw [h1] at h; cases h
        · exact h2 h
      all_goals omega), if_neg (by
      rintro ⟨h | h, -⟩ <;> simp at h <;> omega)]
    exact ⟨_, rfl⟩
  obtain ⟨m, hm⟩ := stored
  refine ⟨_, congrArg Host.Outcome.next (guarded_of_accepts hacc _), ?_⟩
  have hrd : (wchCfgWrite st c v s).rd .wch st (Off.wchCfg c) = mergeWrite wchCfgRow (s.rd .wch st (Off.wchCfg c)) v := by
    rw [hm, rd_watchUnres _ _ _ (offStates_cfg c), plainWrite_of_row hrow, rd_wr_same]
  simp only [State.rb, State.rf, hrd]
  exact ⟨tbit_mergeWrite rfl rfl (by decide) _ v, tbit_mergeWrite rfl rfl (by decide) _ v,
    fld_mergeWrite_field (by decide) rfl (by decide) _ v, fld_mergeWrite_field (by decide) rfl (by decide) _ v,
    fld_mergeWrite_field (by decide) rfl (by decide) _ v⟩

theorem wchThrWrite_stores {c : Fin 16} {v : Word} (hacc : s.accepts r .wch st (Off.wchThr c) v = true)
    (horder : fld v 16 12 < fld v 0 12) :
    ∃ t, exec (.wchThrWrite r st c v) s = .next t ∧ t.rf .wch st (Off.wchThr c) 0 12 = fld v 0 12 ∧
      t.rf .wch st (Off.wchThr c) 16 12 = fld v 16 12 := by
  obtain ⟨ij, hrow⟩ := regRow_wchThr c
  refine ⟨_, congrArg Host.Outcome.next (guarded_of_accepts hacc _), ?_⟩
  have hrd : (wchThrWrite st c v s).rd .wch st (Off.wchThr c) = mergeWrite wchThrRow (s.rd .wch st (Off.wchThr c)) v := by
    have plain : (s.plainWrite .wch st (Off.wchThr c) v).rd .wch st (Off.wchThr c) =
        mergeWrite wchThrRow (s.rd .wch st (Off.wchThr c)) v := by
      rw [plainWrite_of_row hrow, rd_wr_same]
    unfold wchThrWrite
    extract_lets o old m x
    clear_value m
    rw [if_neg (by omega)]
    split
    · exact plain
    · split
      · exact plain
      · exact (rd_watchUnres _ _ _ (offStates_thr c)).trans plain
  simp only [State.rf, hrd]
  exact ⟨fld_mergeWrite_field (by decide) rfl (by decide) _ v, fld_mergeWrite_field (by decide) rfl (by decide) _ v⟩

section
variable {i : Fin 32} {v : Int} (hcont : s.watchSampled st = false) (hon : s.analogOn = true)
  (hen : natBit (s.watchEnabled st) i = true)
include hcont hon hen

/-- An unresolved comparator whose input lies on the release side. -/
theorem wchResolve_clears (hun : s.rb .wch st Off.wchUnres i = true) (hside : s.watchSide st i v = some false) (n : BitVec 64)
    (b : Bool) :
    ∃ t, exec (.wchResolve st i v n b) s = .next t ∧ t.rb .wch st Off.wchUnres i = false ∧ t.rb .wch st Off.wchLive i = false := by
  have judges := watchLatch_judges s st
  have hlatched := unres_watchLatch i.isLt hen hun
  refine ⟨_, if_pos ⟨hcont, hlatched⟩, ?_⟩
  rw [watchJudge_eq (judges.analogOn.trans hon) (judges.watchEnabled ▸ hen), judges.watchSide, hside]
  dsimp only
  rw [hlatched, Bool.true_or, if_pos rfl]
  exact watchClear_clears _ st i.isLt

theorem wchRelease_clears (hlive : s.rb .wch st Off.wchLive i = true) (hside : s.watchSide st i v = some false) :
    ∃ t, exec (.wchRelease st i v) s = .next t ∧ t.rb .wch st Off.wchLive i = false := by
  refine ⟨_, if_pos ⟨hcont, hlive⟩, ?_⟩
  rw [watchJudge_eq hon hen, hside]
  dsimp only
  rw [hlive, Bool.or_true, if_pos rfl]
  exact (watchClear_clears _ st i.isLt).2

/-- A comparator in CLEAR whose input crosses. -/
theorem exec_wchCrossing (hun : s.rb .wch st Off.wchUnres i = false) (hlive : s.rb .wch st Off.wchLive i = false)
    (hside : s.watchSide st i v = some true) (n : BitVec 64) (b : Bool) :
    exec (.wchCrossing st i v n b) s = .next (s.watchCross st i n.toNat b) := by
  refine (if_pos ⟨hcont, hun, hlive⟩).trans (congrArg Host.Outcome.next ?_)
  rw [watchJudge_eq hon hen, hside]
  dsimp only
  rw [hlive, Bool.not_false, Bool.or_true, if_pos rfl]

end

/-- With no comparator enabled a sample judges none. -/
theorem watchJudges_none {x : State} (h : x.watchEnabled st = 0) (t : Nat) (v : Nat → Int) (strobe : Bool) (l : List Nat) :
    l.foldl (fun x i => x.watchJudge st i t (v i) strobe) x = x := by
  have none : ∀ i, x.watchJudge st i t (v i) strobe = x := fun i => by
    unfold State.watchJudge
    rw [if_pos (.inr (by rw [h, natBit, Nat.zero_testBit]))]
  induction l with
  | nil => rfl
  | cons i l ih => rw [List.foldl_cons, none, ih]

/-- At a sample tick the thresholds written since the last one take effect (R449). -/
theorem wchSampleTick_latches (hctrl : s.rb .wch st Off.wchCtrl 0 = true) (hnone : s.watchEnabled st = 0) (vs : List Int)
    (n : BitVec 64) (b : Bool) :
    ∃ t, exec (.wchSampleTick st vs n b) s = .next t ∧ t.watchSampled st = true ∧ Store.get? t.wchPend st = none ∧
      (Store.get? s.wchPend st = none → t.regs = s.regs) := by
  generalize hx : ({ s with sampling := Store.setD (fun _ => false) s.sampling st.val true } : State) = x
  have hen : x.watchEnabled st = 0 := by rw [← hx]; exact hnone
  have hpend : x.wchPend = s.wchPend := by rw [← hx]
  have hregs : x.regs = s.regs := by rw [← hx]
  have hsamp : Store.getD (fun _ => false) x.sampling st = true := by
    rw [← hx]
    exact Store.getD_setD_same (fun _ => false) s.sampling st true
  have hrun : exec (.wchSampleTick st vs n b) s = .next (x.watchLatch st) := by
    change execWchSampleTick st vs n b s = _
    unfold execWchSampleTick
    dsimp only
    rw [hctrl, if_pos (.inl rfl), hx]
    exact congrArg Host.Outcome.next
      (watchJudges_none ((watchLatch_judges x st).watchEnabled.trans hen) n.toNat (fun i => vs.getD (i % 16) 0) b (upto 32))
  refine ⟨_, hrun, ?_, ?_, fun h => ?_⟩
  · have : (x.watchLatch st).sampling = x.sampling := by
      unfold State.watchLatch
      split
      · exact (congrArg State.sampling (watchFrame_watchUnres _ st _).eq :)
      · rfl
    rw [State.watchSampled, this, hsamp, Bool.or_true]
  · unfold State.watchLatch
    split
    · rw [(congrArg State.wchPend (watchFrame_watchUnres _ st _).eq :)]
      exact (Store.get?_drop x.wchPend st st).trans (if_pos rfl)
    · assumption
  · unfold State.watchLatch
    rw [hpend, h]
    exact hregs

end

/-- Settles O31: each command by what it stores, and by what the comparator that it judges comes to. -/
theorem watchComparatorsWatch : Obligations.WatchComparatorsWatch := by
  refine ⟨fun r st c v s hacc hquad hhyst hup hlow => wchCfgWrite_stores hacc hquad hhyst hup hlow,
    fun r st c v s hacc horder => wchThrWrite_stores hacc horder,
    fun st i v n b s hcont hon hen hun hside => wchResolve_clears hcont hon hen hun hside n b,
    fun st i v n b s hcont hon hen hun hlive hside => ⟨fun hact => ?_, fun hact htest => ?_⟩,
    fun st i v s hcont hon hen hlive hside => wchRelease_clears hcont hon hen hlive hside,
    fun st vs n b s hctrl hnone => wchSampleTick_latches hctrl hnone vs n b, fun s hm => ⟨_, if_neg hm, rfl⟩⟩
  · exact ⟨_, exec_wchCrossing hcont hon hen hun hlive hside n b, watchCross_shows s st i.isLt hact _ _⟩
  · refine ⟨_, exec_wchCrossing hcont hon hen hun hlive hside n b, ?_⟩
    rw [watchCross_eq, if_neg (not_not.mpr htest), if_pos (.inl hact)]
    exact watchTrip_holds _ st ((watchAct_told s st _ _).trans hact) _

end Sys2Proof.Machine

/-!
PROOF. The farrier at its switchover (R462, R464); and O32.
-/

namespace Sys2Proof.Machine

/-- The state after reset, but for a farrier in SW_WAIT that has noted a temperature for a barn 1,020, which the part does not have. -/
def farrierMisnoted : State :=
  ({ State.reset with far := { State.reset.far with temps := [(1020, 0)] } } : State).setFarState fSwWait

/-- Refutes O32: its clause on the switchover holds of no state whose list of temperatures names a barn beyond the eight. In
`farrierMisnoted` the temperature of barn 1,020 is stored at TAK_TEMP[1020], which is the offset of TAK_STAT modulo the size of a
page, over the bank in force that the switchover has just stored there. The clause lacks the hypothesis that every entry of
`far.temps` is that of a barn below 8. -/
theorem not_farrierRunsAndSteps : ¬ Obligations.FarrierRunsAndSteps := by
  unfold Obligations.FarrierRunsAndSteps
  rintro ⟨-, -, -, -, -, switches, -⟩
  obtain ⟨t, hexec, hbank, -⟩ := switches 0 farrierMisnoted (by decide +kernel) (by decide +kernel)
  have hother : (match exec (.farrierSwitchover 0) farrierMisnoted with | .next t => t.bankB | _ => true) = false := by decide +kernel
  rw [hexec] at hother
  dsimp only at hother
  rw [hbank] at hother
  revert hother
  decide +kernel

end Sys2Proof.Machine

/-!
PROOF. The farrier's store, its windows and INDEX_N (R454, R458, R470, R473, R475); and O33.
-/

namespace Sys2Proof.Machine

/-! ### The store (R470, R595, R621) -/

section
variable (s : State)

/-- The code of a store that ends (R475). -/
def State.storeCode (s : State) (ok : Bool) : Nat := if s.noSpace then 2 else if ok then 0 else 1

/-- The flash as a store that ends with `code` leaves it. -/
def State.storeFlash (s : State) (code : Nat) : State := if code = 0 then s.storeWrite else if code = 1 then s.storeSpoil else s

/-- The result of the store in its registers. -/
def State.storeShown (x : State) (code : Nat) : State :=
  let s1 := x.storeResult .tak 0 Off.takStoreResult (code * 2 ^ 8)
  ((if code = 0 then s1.wb .tak 0 Off.takStat 8 true else s1).setFarState fIdle).event .far 0 4

theorem execFarrierStoreDone_eq (ok : Bool) (hstore : s.farState = fStore) :
    execFarrierStoreDone ok s = .next ((s.storeFlash (s.storeCode ok)).storeShown (s.storeCode ok)) :=
  if_neg (not_not.mpr hstore)

theorem farState_event (n : Nat) : (s.event .far 0 n).farState = s.farState :=
  rf_of_rd (rd_event _ _ _ _ _ _ _ (by simp [postReg]) (.inr (.inr (by decide)))) 0 3

theorem farState_setFarState {v : Nat} (hv : v < 8) : (s.setFarState v).farState = v := by
  rw [State.farState, State.setFarState, rf_wf_same _ _ _ _ _ _ _ (by decide)]
  exact Nat.mod_eq_of_lt hv

/-- The store's registers are apart from those of the farrier. -/
theorem rd_tak_shown (x : State) (o : Nat) : ((x.setFarState fIdle).event .far 0 4).rd .tak 0 o = x.rd .tak 0 o := by
  rw [rd_event _ _ _ _ _ _ _ (by simp [postReg]) (.inl (by decide)), State.setFarState]
  exact rd_wr_kind _ _ _ _ _ _ (by decide)

theorem storeShown_flash (x : State) (code : Nat) : (x.storeShown code).flash = x.flash := by
  unfold State.storeShown
  rw [State.event_flash, State.setFarState, State.wf_flash]
  split
  · rw [State.wb_flash, State.storeResult_flash]
  · rw [State.storeResult_flash]

theorem storeShown_shows (x : State) {code : Nat} (hc : code < 16) :
    (x.storeShown code).farState = fIdle ∧ (x.storeShown code).rb .tak 0 Off.takStoreResult 16 = true ∧
      (x.storeShown code).rf .tak 0 Off.takStoreResult 8 4 = code ∧ (x.storeShown code).rb .far 0 Off.pgEvt 4 = true ∧
      (code = 0 → (x.storeShown code).rb .tak 0 Off.takStat 8 = true) := by
  have result : (x.storeShown code).rd .tak 0 Off.takStoreResult =
      word ((x.rf .tak 0 Off.takStoreResult 0 8 + 1) % 256 + 65536 + code * 2 ^ 8) := by
    rw [State.storeShown, rd_tak_shown, ← storeResult_rd]
    split
    · exact rd_wr_offset _ _ _ _ _ _ _ (by decide)
    · rfl
  refine ⟨?_, ?_, ?_, rb_event_same _ _ _ _ (by decide), ?_⟩
  · exact (farState_event _ 4).trans (farState_setFarState _ (by decide))
  · rw [State.rb, result, tbit_eq_fld, fld_word _ _ _ (by decide), decide_eq_true_eq]
    omega
  · rw [State.rf, result, fld_word _ _ _ (by decide)]
    omega
  · rintro rfl
    refine (rb_of_rd (rd_tak_shown _ _) 8).trans ?_
    rw [if_pos rfl]
    exact rb_wb_same _ _ _ _ _ _ (by decide)

theorem farrierStore_starts {r : Requester} (hacc : s.accepts r .far 0 Off.farCtrl 4 = true) (hen : s.pageEn .far 0 = true)
    (hidle : s.farState = fIdle) :
    ∃ t, exec (.farrierStore r) s = .next t ∧ t.farState = fStore ∧ t.rb .tak 0 Off.takStoreResult 16 = false := by
  have hstart : farCtrlWrite 4 s = (s.startResult .tak 0 Off.takStoreResult).setFarState fStore := by
    change s.farStoreStart = _
    unfold State.farStoreStart
    rw [if_neg (by simp [hen]), if_neg (by rw [hidle]; decide), if_neg (not_not.mpr hidle)]
  refine ⟨_, congrArg Host.Outcome.next ((guarded_of_accepts hacc _).trans hstart), farState_setFarState _ (by decide), ?_⟩
  exact (rb_of_rd (rd_wr_kind _ _ _ _ _ _ (by decide)) 16).trans (rb_wb_same _ _ _ _ _ _ (by decide))

theorem farrierStoreDone_ends (ok : Bool) (hstore : s.farState = fStore) :
    ∃ t, exec (.farrierStoreDone ok) s = .next t ∧ t.farState = fIdle ∧ t.rb .tak 0 Off.takStoreResult 16 = true ∧
      t.rb .far 0 Off.pgEvt 4 = true ∧
      (s.noSpace = true → t.rf .tak 0 Off.takStoreResult 8 4 = 2 ∧ t.flash = s.flash) ∧
      (s.noSpace = false → ok = false → t.rf .tak 0 Off.takStoreResult 8 4 = 1) ∧
      (s.noSpace = false → ok = true → t.rf .tak 0 Off.takStoreResult 8 4 = 0 ∧ t.rb .tak 0 Off.takStat 8 = true ∧
        t.flash = s.storeWrite.flash) := by
  have hlt : s.storeCode ok < 16 := by
    unfold State.storeCode
    split_ifs <;> decide
  obtain ⟨hidle, hvalid, hcode, hevt, hok⟩ := storeShown_shows (s.storeFlash (s.storeCode ok)) hlt
  refine ⟨_, execFarrierStoreDone_eq s ok hstore, hidle, hvalid, hevt, fun hfull => ?_, fun hfits hbad => ?_, fun hfits hgood => ?_⟩
  · have hc : s.storeCode ok = 2 := if_pos hfull
    exact ⟨hcode.trans hc, (storeShown_flash ..).trans (by rw [hc]; rfl)⟩
  · have hc : s.storeCode ok = 1 := by simp [State.storeCode, hfits, hbad]
    exact hcode.trans hc
  · have hc : s.storeCode ok = 0 := by simp [State.storeCode, hfits, hgood]
    exact ⟨hcode.trans hc, hok hc, (storeShown_flash ..).trans (by rw [hc]; rfl)⟩

/-! ### Windows (R454, R473) -/

theorem regRow_farWinCfg : ∃ ij, regRow .far Off.farWinCfg = some (⟨0x68, 0, 1, 0, 1, 0, 0, false, 0x1FFFFFFF, 0, 0x80000000, 0⟩, ij) :=
  ⟨_, rfl⟩

theorem farrierWindowArm_arms {r : Requester} {v : Word} (hacc : s.accepts r .far 0 Off.farWinCfg (putBit v 31 true) = true)
    (hlo : 0 < fld v 0 20) (hhi : fld v 0 20 ≤ 1000000) (hwin : s.far.win = none) (hen : s.pageEn .far 0 = true) :
    ∃ t, exec (.farrierWindowArm r v) s = .next t ∧ t.rb .far 0 Off.farWinCfg 31 = true ∧
      t.far.win = some (s.rd2 .far 0 Off.farWinTickLo Off.farWinTickHi, fld v 0 20 * 3200, fld v 20 8, tbit v 28) := by
  have hlen : fld (putBit v 31 true) 0 20 = fld v 0 20 := fld_putFld_other _ _ _ _ _ _ (by decide) (by decide)
  have hbarns : fld (putBit v 31 true) 20 8 = fld v 20 8 := fld_putFld_other _ _ _ _ _ _ (by decide) (by decide)
  have hup : tbit (putBit v 31 true) 28 = tbit v 28 := tbit_putBit_other _ _ _ _ (by decide) (by decide)
  have harm : tbit (putBit v 31 true) 31 = true := tbit_putBit_same _ _ _ (by decide)
  have hwrite : farWinCfgWrite (putBit v 31 true) s =
      ((s.plainWrite .far 0 Off.farWinCfg (putBit v 31 true)).setFar
        { (s.plainWrite .far 0 Off.farWinCfg (putBit v 31 true)).far with
          win := some (s.rd2 .far 0 Off.farWinTickLo Off.farWinTickHi, fld v 0 20 * 3200, fld v 20 8, tbit v 28) }).wb .far 0
        Off.farWinCfg 31 true := by
    unfold farWinCfgWrite
    dsimp only
    rw [hlen, hbarns, hup, if_neg (by omega), harm, hwin, if_neg (by simp), if_neg (by simp [hen])]
  refine ⟨_, congrArg Host.Outcome.next ((guarded_of_accepts hacc _).trans hwrite), rb_wb_same _ _ _ _ _ _ (by decide), ?_⟩
  rw [State.wb_far]
  rfl

theorem farrierWindowOpen_opens (hwin : s.far.win ≠ none) :
    ∃ t, exec .farrierWindowOpen s = .next t ∧ t.winOpen = true := by
  obtain ⟨⟨t, n, barns, up⟩, hw⟩ := Option.ne_none_iff_exists'.mp hwin
  have hrun : exec .farrierWindowOpen s = if s.winOpen then .next s else .next ((s.atTick t).wb .far 0 Off.farStat 6 true) := by
    change execFarrierWindowOpen s = _
    unfold execFarrierWindowOpen
    rw [hw]
  rw [hrun]
  split
  · exact ⟨_, rfl, ‹_›⟩
  · exact ⟨_, rfl, rb_wb_same _ _ _ _ _ _ (by decide)⟩

theorem farrierWindowEnd_ends (hopen : s.winOpen = true) :
    ∃ t, exec .farrierWindowEnd s = .next t ∧ t.winOpen = false ∧ t.far.win = none ∧ t.far.steps = s.far.steps := by
  refine ⟨_, if_pos hopen, ?_, ?_, ?_⟩
  · exact (rb_of_rd (rd_wr_offset _ _ _ _ _ _ _ (by decide)) 6).trans (rb_wb_same _ _ _ _ _ _ (by decide))
  · rw [State.wb_far, State.wb_far]
    rfl
  · rw [State.wb_far, State.wb_far]
    rfl

end

/-! ### INDEX_N (R458, R459) -/

section
variable (s : State)

theorem far_foldl {α : Type} (f : State → α → State) (l : List α) (h : ∀ x a, (f x a).far = x.far) : (l.foldl f s).far = s.far :=
  view_foldl h s l

theorem far_pmuRelease (st u : Nat) : (s.pmuRelease st u).far = s.far := by
  unfold State.pmuRelease
  dsimp only
  split
  · exact far_foldl s _ _ fun x w => by rw [apply_ite State.far, State.wf_far, ite_self]
  · rfl

theorem far_farTimEnd (st : Nat) : (s.farTimEnd st).far = s.far :=
  far_foldl s _ _ fun x c => by
    rw [apply_ite State.far, State.timEnd, apply_ite State.far, State.setTimState, State.wf_far, State.setTim_far, ite_self, ite_self]

theorem far_seqUndefer (q : Nat) : (s.seqUndefer q).far = s.far := by
  rw [State.seqUndefer, apply_ite State.far, State.setSeq_far, ite_self]

/-- A step that is cut off leaves the steps of the other stalls. -/
theorem steps_stepRelease (e : FarStep) :
    (s.stepRelease e false).far.steps = s.far.steps.filter fun y => y.stall != e.stall := by
  unfold State.stepRelease
  extract_lets _ y z w
  have hz : z.far = y.far := by
    simp only [z, Bool.false_eq_true, if_false]
    split
    · rfl
    · exact State.setStall_far ..
  have hw : w.far = z.far := by
    simp only [w]
    split
    · exact far_pmuRelease ..
    · split
      · exact far_farTimEnd ..
      · rfl
  rw [far_foldl w _ _ far_seqUndefer, hw, hz]
  rfl

theorem steps_setFar (f : FarSt) : (s.setFar f).far.steps = f.steps := rfl

/-- A run whose result is stored (R461, R464). -/
def State.farEnded (s : State) (code : Nat) : State :=
  let x := (s.wr .far 0 Off.farResultHi (word s.farGroups)).storeResult .far 0 Off.farResultLo
    (code * 2 ^ 8 + s.overall * 2 ^ 18)
  let y := (x.wb .far 0 Off.farCtrl 1 false).setFarState fIdle
  (y.setFar { y.far with ending := none, steps := [] }).event .far 0 1

theorem farStore_eq (c : Nat) :
    s.farStore c =
      if (s.farEnded c).mode.dev = .m10 ∧ (s.farEnded c).mode.trans = none then (s.farEnded c).setTrans (some (.m4, false))
      else s.farEnded c := by
  unfold State.farStore State.farEnded
  dsimp only

theorem steps_farStore (c : Nat) : (s.farStore c).far.steps = [] := by
  have hended : (s.farEnded c).far.steps = [] := by rw [State.farEnded, State.event_far, steps_setFar]
  rw [farStore_eq]
  split
  · rw [State.setTrans_far, hended]
  · exact hended

/-- The end of a run has no step in progress; without it the steps stay. -/
theorem steps_farSettle {x : FarStep} (h : x ∈ s.farSettle.far.steps) : x ∈ s.far.steps := by
  unfold State.farSettle at h
  split at h
  · split at h
    · rw [steps_farStore] at h
      cases h
    · exact h
  · exact h

/-- Cutting off the steps of a list leaves those of other stalls. -/
theorem steps_cutOff (l : List FarStep) {x : FarStep}
    (h : x ∈ (l.foldl (fun y e => (y.stepRelease e false).sat .far 0 Off.farStepAbort 0 32 1) s).far.steps) :
    x ∈ s.far.steps ∧ ∀ e ∈ l, x.stall ≠ e.stall := by
  induction l generalizing s with
  | nil => exact ⟨h, nofun⟩
  | cons e l ih =>
    obtain ⟨hx, hl⟩ := ih _ h
    rw [State.sat_far, steps_stepRelease, List.mem_filter] at hx
    exact ⟨hx.1, List.forall_mem_cons.mpr ⟨by simpa using hx.2, hl⟩⟩

/-- The steps that `p` names end at once (R459). -/
theorem steps_farAbort (p : FarStep → Bool) {x : FarStep} (h : x ∈ (s.farAbort p).far.steps) : p x = false := by
  obtain ⟨hx, hl⟩ := steps_cutOff s _ (steps_farSettle _ h)
  by_contra hp
  exact hl x (List.mem_filter.mpr ⟨hx, by simpa using hp⟩) rfl

theorem indexNChange_follows (high : Bool) :
    ∃ t, exec (.indexNChange high) s = .next t ∧ t.pins.indexN = high ∧ (high = true → ∀ x ∈ t.far.steps, x.byIndex = false) := by
  refine ⟨_, rfl, ?_, ?_⟩
  · split
    · rw [pins_of_shell (shell_farAbort ..)]
    · rfl
  · rintro rfl x hx
    exact steps_farAbort _ _ hx

end

/-- Settles O33: the store by its code and what it shows, the windows one by one, INDEX_N by the steps that it cuts off. -/
theorem farrierStoresAndWindows : Obligations.FarrierStoresAndWindows :=
  ⟨fun _ s hacc hen hidle => farrierStore_starts s hacc hen hidle, fun ok s hstore => farrierStoreDone_ends s ok hstore,
    fun _ _ s hacc hlo hhi hwin hen => farrierWindowArm_arms s hacc hlo hhi hwin hen, fun s hwin => farrierWindowOpen_opens s hwin,
    fun s hopen => farrierWindowEnd_ends s hopen, fun high s => indexNChange_follows s high⟩

end Sys2Proof.Machine

/-!
PROOF. The end of a pause of the hayloft for which a hot reset has waited (R547, R556, R579); and O46.
-/

namespace Sys2Proof.Machine

/-- A pause for point 0, which is trained: a request for point 1 is held, and so is a hot reset of port B, whose function 9 acts
for pen 0. -/
def pauseWithHeldReset : State :=
  let y := (((State.reset.setHbm 4 true).setHbm 8 true).setHbm 10 true).wf .hlk 0 (Off.hlkFnmap 9) 0 4 0
  { y with hbm := { y.hbm with want := some 0, heldRate := some 1 }, rst := { y.rst with hotHeld := true } }

/-- Refutes O46: its clause on the end of a pause asks for the result OK of every pause for a trained point. In
`pauseWithHeldReset` the hot reset that waited for the pause is applied at its end; it resets a pen, and this ends the held request
with PREEMPTED (R556), which is the result that HBM_RATE_RESULT then shows. The clause lacks the hypothesis that no hot reset waits,
or that no request is held. -/
theorem not_hayloftControllerCommandsTakeEffect : ¬ Obligations.HayloftControllerCommandsTakeEffect := by
  unfold Obligations.HayloftControllerCommandsTakeEffect
  rintro ⟨-, -, -, switches, -⟩
  obtain ⟨t, hexec, -, -, -, -, hcode⟩ :=
    switches 0 pauseWithHeldReset (by decide +kernel) (by decide +kernel) (by decide +kernel)
  have hother : (match exec .rateSwitchDone pauseWithHeldReset with
      | .next t => t.rf .hbm 0 Off.hbmRateResult 8 4
      | _ => rateOk) = ratePreempted := by decide +kernel
  rw [hexec] at hother
  exact absurd (hcode.symm.trans hother) (by decide)

end Sys2Proof.Machine

/-!
PROOF. The halter port (R607 to R618): frames that are accepted, rejected and stale, commits and fetches, master transfers; and O52.
-/

namespace Sys2Proof.Machine

section
variable {s : State}

/-! ### Frames (R607, R608, R622) -/

/-- An accepted frame shifts out its words, is counted, and takes its effect. -/
theorem frame_accepted {rd busy : Bool} {idx n : Nat} {eff : State → State} (hp : s.halPowered = true)
    (hc : s.halter.conflict = false) (hcs : s.pins.csLow = false) (h0 : 0 < n) (h64 : n ≤ 64) (hb : busy = true → s.halBusy = false) :
    s.frame rd idx n false busy eff = eff (s.shiftOut rd idx n).frameAccept := by
  have hidle : (busy && s.halBusy) = false := by
    cases busy
    · rfl
    · exact hb rfl
  have hcause : s.frameCause n false busy = none := by
    simp [State.frameCause, hc, Nat.pos_iff_ne_zero.mp h0, Nat.not_lt.mpr h64, hidle]
  simp [State.frame, State.csStale, hp, hcs, hcause]

/-- What ends an HS_CS_N that is stale is no frame. -/
theorem frame_stale {rd bad busy : Bool} {idx n : Nat} {eff : State → State} (hp : s.halPowered = true) (hs : s.csStale = true) :
    s.frame rd idx n bad busy eff = { s with pins := { s.pins with csLow := false } } := by
  simp [State.frame, hp, hs]

theorem csStale_of_csLow (hc : s.halter.conflict = false) (hcs : s.pins.csLow = true) : s.csStale = true := by
  simp [State.csStale, hc, hcs]

theorem frameAccept_regs (rd : Bool) (idx n : Nat) :
    (s.shiftOut rd idx n).frameAccept.regs = (s.inc .hal 0 Off.halFrames 0 32 1).regs := rfl

theorem out_of_status (idx n : Nat) : (s.shiftOut false idx n).halter.out = List.replicate n s.halStatus := by
  simp [State.shiftOut, upto]

theorem frameReject_badframe (s : State) (cause : Nat) :
    (s.frameReject cause).rf .hal 0 Off.halBadframe 0 32 = satAdd (2 ^ 32 - 1) (s.rf .hal 0 Off.halBadframe 0 32) 1 := by
  have hev : ((s.sat .hal 0 Off.halBadframe 0 32 1).event .hal 0 2).rd .hal 0 Off.halBadframe =
      (s.sat .hal 0 Off.halBadframe 0 32 1).rd .hal 0 Off.halBadframe :=
    rd_event _ .hal 0 2 .hal 0 Off.halBadframe (by simp [postReg]) (by decide)
  exact (rf_of_rd hev 0 32).trans (rf_sat_same s .hal 0 Off.halBadframe 0 32 1 (by decide))

/-! ### Commits and fetches (R611 to R613) -/

@[simp] theorem wake_halter (src line : Nat) (req : Bool) : (s.wake src line req).halter = s.halter := by
  unfold State.wake
  dsimp only
  split
  · rfl
  · split
    · rfl
    · split <;> rfl

/-- A read of a FIFO takes its oldest entry, and leaves the port. -/
theorem timFifoPop_halter (r : Requester) (st c : Nat) : (timFifoPop r st c s).halter = s.halter := by
  unfold timFifoPop
  dsimp only
  split
  · rfl
  · split <;> rfl

theorem vernierFifoPop_halter (st : Nat) : (vernierFifoPop st s).halter = s.halter := by
  unfold vernierFifoPop
  dsimp only
  split
  · exact State.wb_halter ..
  · split <;> rfl

theorem wtAdvance_halter (st : Nat) : (s.wtAdvance st).halter = s.halter := by
  unfold State.wtAdvance
  split <;> rfl

theorem accessError_halter (r : Requester) : (s.accessError r).halter = s.halter := by
  unfold State.accessError
  split
  · split <;> rfl
  · rfl
  · rfl

/-- No read changes the slave port itself. -/
theorem readReg_halter (r : Requester) (k : PageKind) (i o : Nat) : (s.readReg r k i o).1.halter = s.halter := by
  unfold State.readReg
  have hsnap : ∀ lo n, (s.snapshot r k i lo n).halter = s.halter := fun _ _ => rfl
  have hfree : s.useFree.halter = s.halter := rfl
  have hfree2 : s.useFree.useFree.halter = s.halter := rfl
  rcases rsGroup k o with - | ⟨lo, n⟩ <;>
    simp only [apply_ite Prod.fst, apply_ite State.halter, timFifoPop_halter, vernierFifoPop_halter, wtAdvance_halter,
      State.wr_halter, hsnap, hfree, hfree2, ite_self]

theorem read32_halter (r : Requester) (a : Nat) : (s.read32 r a).1.halter = s.halter := by
  unfold State.read32
  split
  · split
    · rfl
    · exact accessError_halter r
  · split
    · exact accessError_halter r
    · dsimp only
      split
      · exact accessError_halter r
      · split
        · exact State.err_halter ..
        · exact readReg_halter ..

/-- An access of the slave leaves of the port what the access itself leaves, but for FERR. -/
theorem slaveAccess_halter (a : Nat) (f : State → State) (h : (f s).halter = s.halter) :
    (s.slaveAccess a f).halter = { s.halter with ferr := (s.slaveAccess a f).halter.ferr } := by
  unfold State.slaveAccess
  simp only [apply_ite State.halter, wake_halter, ite_self, h]
  split <;> rfl

/-- Outside the page of MOD_0 the registers are as the access leaves them. -/
theorem slaveAccess_regs {a : Nat} {f : State → State} (h : a / 0x1000 ≠ PageKind.mod0.base 0 / 0x1000) :
    (s.slaveAccess a f).regs = (f s).regs := by
  unfold State.slaveAccess
  rw [if_neg h]
  simp only [apply_ite State.regs, ite_self]

/-- Register `k` of a fetch from window register `i` is read into the read buffer (R611). -/
def State.fetchOne (i : Nat) (x : State) (k : Nat) : State :=
  let a := x.winAddr (i + k)
  let y := x.slaveAccess a fun z => (z.read32 .halter a).1
  let b := Store.setD (fun _ => 0) y.halter.rbuf ((i + k) % 64) (x.read32 .halter a).2
  { y with halter := { y.halter with rbuf := b } }

/-- The registers of a fetch of `n` words are read. -/
def State.fetchAll (s : State) (i n : Nat) : State :=
  (upto n).foldl (State.fetchOne i) { s with halter := { s.halter with ferr := false } }

theorem exec_fetchComplete {i n : Nat} (h : s.halter.fetch = some (i, n)) : ∃ t, exec .fetchComplete s = .next t ∧
    t.halter = { (s.fetchAll i n).halter with fetch := none, fseq := ((s.fetchAll i n).halter.fseq + 1) % 256 } := by
  have e : exec .fetchComplete s = execFetchComplete s := rfl
  rw [e]
  unfold execFetchComplete
  rw [h]
  exact ⟨_, rfl, rfl⟩

theorem fetchOne_fseq (i k : Nat) : (State.fetchOne i s k).halter.fseq = s.halter.fseq :=
  (congrArg HalterSt.fseq (slaveAccess_halter (s := s) (s.winAddr (i + k)) (fun z => (z.read32 .halter (s.winAddr (i + k))).1)
    (read32_halter ..)) :)

theorem fetchOne_rbuf (i k : Nat) : Store.getD (fun _ => 0) (State.fetchOne i s k).halter.rbuf ((i + k) % 64) =
    (s.read32 .halter (s.winAddr (i + k))).2 := Store.getD_setD_same _ _ _ _

/-- A fetch ends with its words in the read buffer, and FSEQ one further. -/
theorem fetchComplete_ends {i n : Nat} (h : s.halter.fetch = some (i, n)) :
    ∃ t, exec .fetchComplete s = .next t ∧ t.halter.fetch = none ∧ t.halter.fseq = (s.halter.fseq + 1) % 256 := by
  obtain ⟨t, hexec, ht⟩ := exec_fetchComplete h
  have hfseq : (s.fetchAll i n).halter.fseq = s.halter.fseq :=
    view_foldl (view := fun x : State => x.halter.fseq) (fun x k => fetchOne_fseq (s := x) i k) _ (upto n)
  refine ⟨t, hexec, ?_, ?_⟩
  · rw [ht]
  · rw [ht]
    exact congrArg (fun m => (m + 1) % 256) hfseq

theorem fetchComplete_reads {i : Nat} (h : s.halter.fetch = some (i, 1)) :
    ∃ t, exec .fetchComplete s = .next t ∧ Store.getD (fun _ => 0) t.halter.rbuf (i % 64) =
      (State.read32 { s with halter := { s.halter with ferr := false } } .halter (s.winAddr i)).2 := by
  obtain ⟨t, hexec, ht⟩ := exec_fetchComplete h
  exact ⟨t, hexec, by rw [ht]; exact fetchOne_rbuf i 0⟩

/-- A commit ends idle; that of one word outside MOD_0 makes its write. -/
theorem wrCommitComplete_ends {i : Nat} {ws : List Word} (h : s.halter.commit = some (i, ws)) :
    ∃ t, exec .wrCommitComplete s = .next t ∧ t.halter.commit = none ∧
      ∀ v, ws = [v] → s.winAddr i / 0x1000 ≠ PageKind.mod0.base 0 / 0x1000 →
        t.regs = (State.write32 { s with halter := { s.halter with ferr := false } } .halter (s.winAddr i) v).regs := by
  have e : exec .wrCommitComplete s = execWrCommitComplete s := rfl
  rw [e]
  unfold execWrCommitComplete
  rw [h]
  refine ⟨_, rfl, rfl, ?_⟩
  rintro v rfl hout
  exact slaveAccess_regs (s := { s with halter := { s.halter with ferr := false } }) hout

/-! ### Master transfers (R616 to R618) -/

section
variable (c : Nat)

theorem masterEnd_pins : (s.masterEnd c).pins = s.pins := by simp [State.masterEnd]
theorem masterEnd_halter : (s.masterEnd c).halter = s.halter := by simp [State.masterEnd]

theorem rd_masterEnd {o : Nat} (ho : o % 0x1000 ≠ Off.pgEvt) (hr : o % 0x1000 ≠ Off.halMresult) :
    (s.masterEnd c).rd .hal 0 o = s.rd .hal 0 o :=
  (rd_event _ .hal 0 1 .hal 0 o (by simp [postReg]) (.inr (.inr ho))).trans (rd_wr_offset s .hal 0 _ 0 o _ hr)

/-- A transfer ends with VALID and its code. -/
theorem masterEnd_result (hc : c < 16) :
    (s.masterEnd c).rb .hal 0 Off.halMresult 16 = true ∧ (s.masterEnd c).rf .hal 0 Off.halMresult 8 4 = c := by
  have hrd : (s.masterEnd c).rd .hal 0 Off.halMresult = word ((s.rf .hal 0 Off.halMresult 0 8 + 1) % 256 + 65536 + c * 2 ^ 8) :=
    (rd_event _ .hal 0 1 .hal 0 Off.halMresult (by simp [postReg]) (by decide)).trans (storeResult_rd ..)
  have hseq : (s.rf .hal 0 Off.halMresult 0 8 + 1) % 256 < 256 := Nat.mod_lt _ (by decide)
  generalize (s.rf .hal 0 Off.halMresult 0 8 + 1) % 256 = n at hseq hrd
  constructor
  · rw [State.rb, hrd, tbit_eq_fld, fld_word _ _ _ (by decide), decide_eq_true_eq]
    omega
  · rw [State.rf, hrd, fld_word _ _ _ (by decide)]
    omega

end

theorem rxStore_halter (rx : List Word) (n len : Nat) (cut : Bool) : (s.rxStore rx n len cut).halter = s.halter :=
  view_foldl (view := State.halter) (fun _ _ => State.wr_halter ..) _ _

/-- The part of the transfer that is over, of `n` bits, stands in the receive buffer, and GO reads 0 (R616). -/
def State.xferOver (s : State) (rx : List Word) (n len : Nat) (cut : Bool) : State :=
  ({ s with halter := { s.halter with xfer := none } }.rxStore rx n len cut).wb .hal 0 Off.halMctrl 0 false

theorem xferOver_halter (rx : List Word) (n len : Nat) (cut : Bool) :
    (s.xferOver rx n len cut).halter = { s.halter with xfer := none } := (State.wb_halter ..).trans (rxStore_halter ..)

theorem xferOver_go (rx : List Word) (n len : Nat) (cut : Bool) : (s.xferOver rx n len cut).rb .hal 0 Off.halMctrl 0 = false :=
  rb_wb_same _ .hal 0 Off.halMctrl 0 false (by decide)

theorem masterTransferDone_ends {x : Xfer} (rx : List Word) (h : s.halter.xfer = some x) :
    ∃ t, exec (.masterTransferDone rx) s = .next t ∧ t.halter.xfer = none ∧ t.rb .hal 0 Off.halMctrl 0 = false ∧
      t.rb .hal 0 Off.halMresult 16 = true ∧ t.rf .hal 0 Off.halMresult 8 4 = 0 ∧ (x.hold = false → t.pins.selLow = 0) := by
  let y := s.xferOver rx x.bits x.bits false
  let z := if x.hold then y else { y with pins := { y.pins with selLow := 0 } }
  have hexec : exec (.masterTransferDone rx) s = .next (z.masterEnd 0) := by
    have e : exec (.masterTransferDone rx) s = execMasterTransferDone rx s := rfl
    rw [e]
    unfold execMasterTransferDone
    rw [h]
    rfl
  have hz : z.halter = y.halter ∧ z.rd .hal 0 Off.halMctrl = y.rd .hal 0 Off.halMctrl := by
    simp only [z]
    split <;> exact ⟨rfl, rfl⟩
  obtain ⟨hhal, hrd⟩ := hz
  obtain ⟨hvalid, hcode⟩ := masterEnd_result (s := z) 0 (by decide)
  refine ⟨_, hexec, ?_, ?_, hvalid, hcode, fun hh => ?_⟩
  · rw [masterEnd_halter, hhal, xferOver_halter]
  · rw [rb_of_rd (rd_masterEnd 0 (by decide) (by decide)), rb_of_rd hrd]
    exact xferOver_go ..
  · rw [masterEnd_pins]
    simp only [z, hh, if_false, Bool.false_eq_true]

/-- A fall of HS_CS_N has been seen as a multi-master fault (R618). -/
def State.contested (s : State) : State :=
  ({ s with pins := { s.pins with csLow := true, selLow := 0 }, halter := { s.halter with conflict := true } }.sat
    .hal 0 Off.halMmfault 0 16 1).event .hal 0 3

theorem contested_pins : s.contested.pins = { s.pins with csLow := true, selLow := 0 } := by simp [State.contested]
theorem contested_halter : s.contested.halter = { s.halter with conflict := true } := by simp [State.contested]

theorem rd_contested {o : Nat} (ho : o % 0x1000 ≠ Off.pgEvt) (hf : o % 0x1000 ≠ Off.halMmfault) :
    s.contested.rd .hal 0 o = s.rd .hal 0 o :=
  (rd_event _ .hal 0 3 .hal 0 o (by simp [postReg]) (.inr (.inr ho))).trans (rd_sat_offset _ .hal 0 _ 0 o _ _ _ hf)

theorem multiMasterFault_ends {x : Xfer} (n : Fin 4097) (rx : List Word) (h : s.halter.xfer = some x) :
    ∃ t, exec (.multiMasterFault n rx) s = .next t ∧ t.halter.xfer = none ∧ t.halter.conflict = true ∧
      t.pins.selLow = 0 ∧ t.rb .hal 0 Off.halMctrl 0 = false ∧ t.rf .hal 0 Off.halMresult 8 4 = 1 := by
  let y := s.xferOver rx (min n.val x.bits) x.bits true
  have hexec : exec (.multiMasterFault n rx) s = .next (y.masterEnd 1).contested := by
    have e : exec (.multiMasterFault n rx) s = execMultiMasterFault n rx s := rfl
    rw [e]
    unfold execMultiMasterFault
    rw [h]
    rfl
  refine ⟨_, hexec, ?_, ?_, ?_, ?_, ?_⟩
  · rw [contested_halter, masterEnd_halter, xferOver_halter]
  · rw [contested_halter]
  · rw [contested_pins]
  · rw [rb_of_rd (rd_contested (by decide) (by decide)), rb_of_rd (rd_masterEnd 1 (by decide) (by decide))]
    exact xferOver_go ..
  · rw [rf_of_rd (rd_contested (by decide) (by decide))]
    exact (masterEnd_result 1 (by decide)).2

/-- The state in which a transfer begins, written with `v` (R616). -/
def State.xferBegun (s : State) (v : Word) : State :=
  let n := s.rf .hal 0 Off.halMlen 0 13
  let tx := (upto ((n + 31) / 32)).map fun w => s.rd .hal 0 (Off.halTxbuf w)
  let y := ((s.plainWrite .hal 0 Off.halMctrl v).wb .hal 0 Off.halMctrl 0 true).startResult .hal 0 Off.halMresult
  { y with pins := { y.pins with selLow := 2 ^ fld v 4 2 }
           halter := { y.halter with xfer := some ⟨n, tbit v 9, tx⟩, mosi := tx } }

/-- A write of HAL_MCTRL with GO = 1 that meets R617 begins the transfer. -/
theorem mctrlWrite_begins {v : Word} (hgo : tbit v 0 = true) (he : s.pageEn .hal 0 = true) (hg : s.gateHolds = false)
    (hi : s.rb .hal 0 Off.halMctrl 0 = false) (h0 : 0 < s.rf .hal 0 Off.halMlen 0 13) (hmax : s.rf .hal 0 Off.halMlen 0 13 ≤ 4096)
    (hcs : s.pins.csLow = false) : mctrlWrite v s = s.xferBegun v := by
  have hlen : ¬(s.rf .hal 0 Off.halMlen 0 13 = 0 ∨ 4096 < s.rf .hal 0 Off.halMlen 0 13) := by omega
  unfold mctrlWrite
  dsimp only
  rw [if_neg (by simp [hgo]), if_neg (by simp [he]), if_neg (by simp [hg, hi]), if_neg hlen, if_neg (by simp [hcs])]
  rfl

theorem xferBegun_go (v : Word) : (s.xferBegun v).rb .hal 0 Off.halMctrl 0 = true :=
  (rb_of_rd (s := (s.plainWrite .hal 0 Off.halMctrl v).wb .hal 0 Off.halMctrl 0 true)
    (rd_wb_offset _ .hal 0 Off.halMresult 0 Off.halMctrl 16 false (by decide)) 0).trans (rb_wb_same _ .hal 0 Off.halMctrl 0 true (by decide))

theorem xferBegun_valid (v : Word) : (s.xferBegun v).rb .hal 0 Off.halMresult 16 = false := startResult_valid _ .hal 0 Off.halMresult

theorem fld_putBit_above (v : Word) (b : Bool) (l m : Nat) (h : 1 ≤ l) : fld (putBit v 0 b) l m = fld v l m :=
  fld_putFld_above v 0 1 _ l m (by decide) h

theorem masterTransfer_starts {r : Requester} {v : Word} (ha : s.accepts r .hal 0 Off.halMctrl (putBit v 0 true) = true)
    (he : s.pageEn .hal 0 = true) (hg : s.gateHolds = false) (hi : s.rb .hal 0 Off.halMctrl 0 = false)
    (h0 : 0 < s.rf .hal 0 Off.halMlen 0 13) (hmax : s.rf .hal 0 Off.halMlen 0 13 ≤ 4096) (hcs : s.pins.csLow = false) :
    ∃ t x, exec (.masterTransfer r v) s = .next t ∧ t.halter.xfer = some x ∧ x.bits = s.rf .hal 0 Off.halMlen 0 13 ∧
      x.hold = tbit v 9 ∧ t.rb .hal 0 Off.halMctrl 0 = true ∧ t.pins.selLow = 2 ^ fld v 4 2 ∧ t.rb .hal 0 Off.halMresult 16 = false := by
  have hw := mctrlWrite_begins (v := putBit v 0 true) (tbit_putBit_same v 0 true (by decide)) he hg hi h0 hmax hcs
  refine ⟨_, _, congrArg Host.Outcome.next ((guarded_of_accepts ha _).trans hw), rfl, rfl, ?_, xferBegun_go _, ?_, xferBegun_valid _⟩
  · exact tbit_putBit_other v 0 9 true (by decide) (by decide)
  · exact congrArg (2 ^ ·) (fld_putBit_above v true 4 2 (by decide))

end

/-- Settles O52: a frame that meets no fault takes its effect, a commit and a fetch make their accesses in order, and a transfer
ends with its code. -/
theorem halterFramesTakeEffect : Obligations.HalterFramesTakeEffect := by
  unfold Obligations.HalterFramesTakeEffect
  refine ⟨fun idx n s hp hc hcs h0 => ⟨?_, fun hb => ?_⟩, fun idx ws s hp hc hcs hb => ⟨fun h0 h64 => ?_, ?_⟩,
    fun idx n ws count s hp hc hcs => ?_, fun count s hp hc hcs => ?_, fun i s => ⟨fun ws h => ?_, fun v h hout => ?_,
      fun n h => fetchComplete_ends h, fetchComplete_reads⟩, ?_, fun rx x s h => ⟨masterTransferDone_ends rx h, fun n => ?_⟩⟩
  · have hn := n.isLt
    refine ⟨_, congrArg Host.Outcome.next (frame_accepted hp hc hcs h0 (by omega) nofun), rfl, rfl, rfl, frameAccept_regs ..⟩
  · have hn := n.isLt
    exact ⟨_, congrArg Host.Outcome.next (frame_accepted hp hc hcs h0 (by omega) fun _ => hb), rfl, rfl, out_of_status .., 
      frameAccept_regs ..⟩
  · exact ⟨_, congrArg Host.Outcome.next (frame_accepted hp hc hcs h0 h64 fun _ => hb), rfl, rfl, out_of_status .., 
      frameAccept_regs ..⟩
  · rintro w rfl hidx h8 h26
    have hok : (([w] : List Word).length != 1 || idx.val != 0 || fld w 0 8 != 0 || fld w 26 6 != 0) = false := by
      simp [hidx, h8, h26]
    have hexec : exec (.win idx [w]) s = .next (s.frame false idx 1 ([w].length != 1 || idx.val != 0 || fld w 0 8 != 0 ||
        fld w 26 6 != 0) true fun x => x.wr .hal 0 Off.halSwin w) := rfl
    rw [hok, frame_accepted hp hc hcs (by decide) (by decide) fun _ => hb] at hexec
    exact ⟨_, hexec, rd_wr_same _ .hal 0 Off.halSwin w, rfl⟩
  · have hs := csStale_of_csLow hc hcs
    have hrej : exec (.frameReject count) s = .next { s with pins := { s.pins with csLow := false } } := by
      have e : exec (.frameReject count) s = execFrameReject count s := rfl
      rw [e, execFrameReject, hp, hs]
      rfl
    exact ⟨_, rfl, congrArg Host.Outcome.next (frame_stale hp hs), congrArg Host.Outcome.next (frame_stale hp hs),
      congrArg Host.Outcome.next (frame_stale hp hs), congrArg Host.Outcome.next (frame_stale hp hs), hrej⟩
  · have hrej : exec (.frameReject count) s = .next (s.frameReject (if count then rejCount else rejLength)) := by
      have e : exec (.frameReject count) s = execFrameReject count s := rfl
      rw [e, execFrameReject, hp, State.csStale, hcs, hc]
      rfl
    exact ⟨_, hrej, rfl, frameReject_badframe ..⟩
  · obtain ⟨t, hexec, hidle, -⟩ := wrCommitComplete_ends h
    exact ⟨t, hexec, hidle⟩
  · obtain ⟨t, hexec, -, hregs⟩ := wrCommitComplete_ends h
    exact ⟨t, hexec, hregs v rfl hout⟩
  · intro r v s w n ha he hg hi h0 hmax hcs
    exact masterTransfer_starts ha he hg hi h0 hmax hcs
  · exact multiMasterFault_ends n rx h

end Sys2Proof.Machine

/-!
PROOF. Grooms and their records (R477 to R502, R508, R510): taking the record at the head of a ring, the records that a check ends,
CANCEL, the watchdog, and the registers of the cluster; and O42.
-/

namespace Sys2Proof.Machine

/-! ### Taking the record at the head of a ring (R477, R494) -/

/-- A head entry has been consumed: what posting can move has moved, and every ring is its owner's still. -/
def State.Consumed (s t : State) : Prop := State.EntryFrame s t ∧ ∀ m, t.ringOwner m = s.ringOwner m

section
variable {s t u : State}

theorem State.Consumed.trans (h : s.Consumed t) (k : t.Consumed u) : s.Consumed u :=
  ⟨h.1.trans k.1, fun m => (k.2 m).trans (h.2 m)⟩

theorem State.Consumed.groom (h : s.Consumed t) (g : Nat) : t.groom g = s.groom g := by
  rw [h.1.eq]
  rfl

theorem State.Consumed.cluster (h : s.Consumed t) : t.cluster = s.cluster := by rw [h.1.eq]
theorem State.Consumed.mode (h : s.Consumed t) : t.mode = s.mode := by rw [h.1.eq]

/-- Rings keep their owners where their words of RNG_CTRL stay. -/
theorem consumed_of_word (hf : State.EntryFrame s t) (h : ∀ m, t.reg (ringAddr m Off.rngCtrl) = s.reg (ringAddr m Off.rngCtrl)) :
    s.Consumed t := ⟨hf, fun m => ringF_of_word (h m) 12 4⟩

theorem consumed_setRing (s : State) (n : Nat) (v : RingSt) : s.Consumed (s.setRing n v) :=
  consumed_of_word rfl fun _ => reg_setRing s n v _

theorem ctrl_ringSet (s : State) (n m o lo w v : Nat) (h : Off.rngCtrl % 0x20 ≠ o % 0x20) :
    (s.ringSet n o lo w v).reg (ringAddr m Off.rngCtrl) = s.reg (ringAddr m Off.rngCtrl) :=
  reg_setReg_ne s _ fun e => h (ringAddr_inj.mp e).2

theorem consumed_ringFlags (s : State) (n : Nat) : s.Consumed (s.ringFlags n) :=
  consumed_of_word (posted_ringFlags s n).frame fun m =>
    (ctrl_ringSet _ n m Off.rngStat 1 1 _ (by decide)).trans (ctrl_ringSet s n m Off.rngStat 0 1 _ (by decide))

theorem consumed_ringCount (s : State) (n k : Nat) : s.Consumed (s.ringCount n k) := by
  refine consumed_of_word (posted_ringCount s n k).frame fun m => ?_
  unfold State.ringCount
  dsimp only
  split
  · exact (word_of_descr (descr_sendMsg _ m _ _) Off.rngCtrl).trans (reg_setRing ..)
  · rfl

theorem consumed_consume (s : State) (n : Nat) : s.Consumed (s.consume n) := by
  have hcidx : s.Consumed (s.setReg (ringAddr n Off.rngCidx) (word (s.cidx n + 1))) :=
    consumed_of_word rfl fun m => reg_setReg_ne s _ fun e => absurd (ringAddr_inj.mp e).2 (by decide)
  exact (hcidx.trans (consumed_setRing ..)).trans ((consumed_ringFlags ..).trans (consumed_ringCount ..))

theorem consumed_passCancelled (s : State) (n k : Nat) : s.Consumed (s.passCancelled n k) := by
  induction k generalizing s with
  | zero => exact ⟨State.EntryFrame.refl s, fun _ => rfl⟩
  | succ k ih =>
    unfold State.passCancelled
    dsimp only
    split
    · exact ((consumed_consume s n).trans (consumed_setRing ..)).trans (ih _)
    · exact ⟨State.EntryFrame.refl s, fun _ => rfl⟩

theorem consumed_takeHead (s : State) (n : Nat) : s.Consumed (s.takeHead n) :=
  (consumed_consume s n).trans (consumed_passCancelled ..)

end

section
variable {s : State} {g : Fin 8} {n : Fin 32768} {r : Record}

/-- An idle groom has no context and no list of records. -/
theorem groomIdle_iff : s.groomIdle g = true ↔
    (s.groom g).ctx = none ∧ (s.groom g).chains = [] ∧ s.groomWaits g = false := by
  simp [State.groomIdle, and_assoc]

/-- A groom with no context has none to save. -/
theorem saveCtx_of_none (h : (s.groom g).ctx = none) : s.saveCtx g = s := by
  unfold State.saveCtx
  dsimp only
  rw [h]

theorem saveCtx_cluster (g : Nat) : (s.saveCtx g).cluster = s.cluster := by
  unfold State.saveCtx
  dsimp only
  split <;> rfl

/-- The record at the head of a ring is taken where the command wants it and the groom may. -/
theorem take_head (hhead : s.headRecord n = some r) {ok : Record → Bool} (hok : ok r = true) (hmay : s.mayTake g r = true)
    (ecc : Nat → Ecc) : s.take g ((some n).map Fin.val) ecc ok = .record ((s.takeHead n).saveCtx g) r := by
  have hhead' : s.headRecord n.val = some r := hhead
  simp only [State.take, Option.map_some, hhead', hok, hmay, and_self, if_true]

/-- An idle groom takes it with nothing to save. -/
theorem take_head_idle (hhead : s.headRecord n = some r) {ok : Record → Bool} (hok : ok r = true) (hmay : s.mayTake g r = true)
    (hidle : s.groomIdle g = true) (ecc : Nat → Ecc) : s.take g ((some n).map Fin.val) ecc ok = .record (s.takeHead n) r := by
  obtain ⟨hctx, -, -⟩ := groomIdle_iff.mp hidle
  rw [take_head hhead hok hmay, saveCtx_of_none (((congrArg GroomSt.ctx ((consumed_takeHead s n).groom g)).trans hctx))]

/-- The cluster is replaced. -/
def State.setCluster (s : State) (k : Cluster) : State := { s with cluster := k }

theorem ringOwner_setCluster (y : State) (k : Cluster) (m : Nat) : (y.setCluster k).ringOwner m = y.ringOwner m := rfl
theorem mode_setCluster (y : State) (k : Cluster) : (y.setCluster k).mode = y.mode := rfl
theorem groom_setCluster (y : State) (k : Cluster) (h : Nat) : (y.setCluster k).groom h = y.groom h := rfl

/-- The next serial number is given to the record that begins. -/
def State.serialUp (s : State) : State := s.setCluster { s.cluster with serial := s.cluster.serial + 1 }

/-- The routine of a record that begins. -/
def State.beginning (s : State) (r : Record) : Ctx := r.start (fld (s.dispatch r.op) 0 15) s.cluster.serial s.now

theorem beginRecord_pass {y : State} (g : Nat) (h : y.serialUp.check r = .pass) :
    y.beginRecord g r = y.serialUp.setGroom g { y.serialUp.groom g with ctx := some (y.beginning r) } := by
  unfold State.beginRecord
  dsimp only
  split
  · rfl
  · rename_i h'
    exact nomatch h.symm.trans h'
  · rename_i h'
    exact nomatch h.symm.trans h'

theorem beginRecord_status {y : State} (g : Nat) {st : Nat} (h : y.serialUp.check r = .status st) :
    y.beginRecord g r = y.serialUp.endRecord g (y.beginning r) st := by
  unfold State.beginRecord
  dsimp only
  split
  · rename_i h'
    exact nomatch h.symm.trans h'
  · rename_i h'
    exact nomatch h.symm.trans h'
  · rename_i h'
    obtain rfl := Checked.status.inj (h.symm.trans h')
    rfl

theorem romOp_patch (y : State) {op : Nat} (h : 0x50 ≤ op) : y.romOp op = false := by
  simp [State.romOp, Nat.not_lt.mpr h]

theorem dispatch_of_cluster {y : State} (h : y.cluster = s.cluster) (op : Nat) : y.dispatch op = s.dispatch op := by
  unfold State.dispatch
  rw [h]

/-- A command of SV_PATCH that takes a record begins it, and no more. -/
theorem exec_svPatch (p : Probe) (hhead : s.headRecord n = some r) (hcancel : r.cancel = false) (hmay : s.mayTake g r = true)
    (hlo : 0x50 ≤ r.op) (hhi : r.op < 0x60) :
    exec (.svPatch g (some n) p) s = .next (((s.takeHead n).saveCtx g).beginRecord g r) := by
  have e : exec (.svPatch g (some n) p) s = execSvPatch g (some n) p s := rfl
  rw [e]
  unfold execSvPatch State.service
  simp only [take_head hhead (ok := fun r => !r.cancel && (decide (0x50 ≤ r.op) && decide (r.op < 0x60)))
    (by simp [hcancel, hlo, hhi]) hmay, romOp_patch _ hlo, Bool.false_eq_true, if_false]

/-- A record of SV_PATCH that passes every check starts at its dispatch entry (R500). -/
theorem svPatch_starts (p : Probe) (hhead : s.headRecord n = some r) (hcancel : r.cancel = false) (hmay : s.mayTake g r = true)
    (hlo : 0x50 ≤ r.op) (hhi : r.op < 0x60)
    (hcheck : ({ (s.takeHead n).saveCtx g with cluster := { s.cluster with serial := s.cluster.serial + 1 } } : State).check r = .pass) :
    ∃ t d, exec (.svPatch g (some n) p) s = .next t ∧ (t.groom g).ctx = some d ∧ d.rcd = r ∧
      d.pc = fld (s.dispatch r.op) 0 15 ∧ d.stage = 0 := by
  have hk : ((s.takeHead n).saveCtx g).cluster = s.cluster := (saveCtx_cluster g).trans (consumed_takeHead s n).cluster
  have hexec := exec_svPatch p hhead hcancel hmay hlo hhi
  generalize (s.takeHead n).saveCtx g = y at hk hcheck hexec
  rw [← hk] at hcheck
  rw [beginRecord_pass _ hcheck] at hexec
  refine ⟨_, y.beginning r, hexec, ?_, rfl, congrArg (fld · 0 15) (dispatch_of_cluster hk r.op), rfl⟩
  rw [groom_setGroom_same]

end

/-! ### Records that a check ends (R479), and CANCEL (R494) -/

section
variable {s : State} {g : Nat}

theorem entryFrame_postJournal (c : Ctx) (n : Nat) (l : List Change) : State.EntryFrame s (s.postJournal g c n l) := by
  induction n generalizing s l with
  | zero => exact State.EntryFrame.refl s
  | succ n ih =>
    cases l with
    | nil => exact State.EntryFrame.refl s
    | cons e l => exact (entryFrame_offer s _ _ _ _ _).trans (ih _)

/-- The end of a record posts entries and stores its result; it leaves the grooms. -/
theorem groom_endOne (c : Ctx) (st h : Nat) : (s.endOne g c st).groom h = s.groom h := by
  have hj : ∀ b : Bool, (if b then s.postJournal g c 86 c.log else s).grooms = s.grooms := fun b => by
    split
    · exact (congrArg State.grooms (entryFrame_postJournal c 86 c.log).eq :)
    · rfl
  refine congrArg (Store.getD (fun _ => GroomSt.idle) · h) ?_
  exact (congrArg State.grooms (entryFrame_offer _ _ _ _ _ _).eq).trans (hj _)

end

section
variable {s : State} {g : Fin 8} {n : Fin 32768} {r : Record}

theorem exec_badOp (hhead : s.headRecord n = some r) (hcancel : r.cancel = false) (hmay : s.mayTake g r = true)
    (hop : 0x5F < r.op) (hidle : s.groomIdle g = true) :
    exec (.badOp g (some n)) s = .next ((s.takeHead n).beginRecord g r) := by
  have e : exec (.badOp g (some n)) s = execBadOp g (some n) s := rfl
  rw [e]
  unfold execBadOp
  simp only [take_head_idle hhead (ok := fun r => !r.cancel && decide (0x5F < r.op)) (by simp [hcancel, hop]) hmay hidle]

theorem badOp_ends (hhead : s.headRecord n = some r) (hcancel : r.cancel = false) (hmay : s.mayTake g r = true)
    (hop : 0x5F < r.op) (hidle : s.groomIdle g = true) (hring : s.ringOwner r.rring = r.owner) (hm11 : s.mode.dev ≠ .m11) :
    ∃ t, exec (.badOp g (some n)) s = .next t ∧ (t.groom g).ctx = none ∧ Store.get? t.cluster.results r.key = some svBadOp := by
  have hexec := exec_badOp hhead hcancel hmay hop hidle
  have htaken := consumed_takeHead s n
  generalize s.takeHead n = y at hexec htaken
  have hcheck : y.serialUp.check r = .status svBadOp := by
    unfold State.check
    dsimp only
    have hown : y.serialUp.ringOwner r.rring = r.owner := (ringOwner_setCluster ..).trans ((htaken.2 _).trans hring)
    have hdev : y.serialUp.mode.dev ≠ .m11 := by rwa [State.serialUp, mode_setCluster, htaken.mode]
    rw [if_neg (not_not.mpr hown), if_neg hdev, if_pos (Or.inl hop)]
  have hchains : (y.serialUp.groom g).chains = [] := by
    rw [State.serialUp, groom_setCluster, htaken.groom]
    exact (groomIdle_iff.mp hidle).2.1
  rw [beginRecord_status _ hcheck] at hexec
  exact ⟨_, hexec, groom_endRecord _ _ hchains, results_endRecord _ _ hchains⟩

/-- A groom with no list of records has none after a waiting record has been removed, after routines have been marked, and after the
removed records have been passed over. -/
theorem chains_cancelOne {x : State} (d : Record) : ((x.cancelOne g d).groom g).chains = (x.groom g).chains := by
  unfold State.cancelOne
  dsimp only
  split
  · rw [groom_endOne]
    rfl
  · rfl

theorem chains_abortTags {x : State} (o tag : Nat) (h : (x.groom g).chains = []) : ((x.abortTags o tag).groom g).chains = [] := by
  refine foldl_keeps (fun y : State => (y.groom g).chains = []) (fun y e hy => ?_) _ h
  by_cases he : e.1 = g.val
  · simp only [he, groom_setGroom_same, hy, List.map_nil]
  · rwa [groom_setGroom_ne _ _ _ (Ne.symm he)]

theorem cancel_ends (hhead : s.headRecord n = some r) (hcancel : r.cancel = true) (hmay : s.mayTake g r = true)
    (hidle : s.groomIdle g = true) (hring : s.ringOwner r.rring = r.owner) (hm11 : s.mode.dev ≠ .m11) :
    ∃ t st, exec (.cancelRecord g (some n)) s = .next t ∧ (t.groom g).ctx = none ∧
      Store.get? t.cluster.results r.key = some st ∧ (st = svOk ∨ st = svBadParam) := by
  have htaken := consumed_takeHead s n
  obtain ⟨y, c, st, hexec, hkey, hchains, hst⟩ : ∃ y c st, exec (.cancelRecord g (some n)) s = .next (State.endRecord y g c st) ∧
      c.rcd.key = r.key ∧ (y.groom g).chains = [] ∧ (st = svOk ∨ st = svBadParam) := by
    have e : exec (.cancelRecord g (some n)) s = execCancelRecord g (some n) s := rfl
    rw [e]
    unfold execCancelRecord
    rw [take_head_idle hhead hcancel hmay hidle]
    dsimp only
    generalize s.takeHead n = y at htaken
    rw [if_neg (by simp [htaken.2, hring]), if_neg (by simpa [htaken.mode] using hm11)]
    refine ⟨_, _, _, rfl, rfl, ?_, ?_⟩
    · refine foldl_keeps (fun z : State => (z.groom g).chains = []) (fun z m hz => ?_) _ (chains_abortTags _ _ ?_)
      · rwa [(consumed_passCancelled z m _).groom]
      · refine foldl_keeps (fun z : State => (z.groom g).chains = []) (fun z d hz => (chains_cancelOne d).trans hz) _ ?_
        rw [htaken.groom]
        exact (groomIdle_iff.mp hidle).2.1
    · split
      · exact .inr rfl
      · exact .inl rfl
  exact ⟨_, st, hexec, groom_endRecord _ _ hchains, by rw [← hkey]; exact results_endRecord _ _ hchains, hst⟩

end

/-! ### The watchdog (R497, R508) -/

section
variable {s : State}

/-- The record with key `k` has ended with WATCHDOG. -/
def State.watchdogged (s : State) (k : Nat) : Prop := Store.get? s.cluster.results k = some svWatchdog

/-- It stays so while others end so. -/
theorem watchdogged_endOne {k : Nat} (h : s.watchdogged k) (g : Nat) (d : Ctx) : (s.endOne g d svWatchdog).watchdogged k := by
  by_cases hk : k = d.rcd.key
  · rw [hk]
    exact results_endOne s g d svWatchdog
  · have hj : ∀ b : Bool, (if b then s.postJournal g d 86 d.log else s).cluster = s.cluster := fun b => by
      split
      · exact cluster_postJournal ..
      · rfl
    have hput : (s.endOne g d svWatchdog).cluster.results = Store.put s.cluster.results d.rcd.key svWatchdog := by
      unfold State.endOne
      change Store.put (State.post _ _ _ _ _ _).cluster.results _ _ = _
      rw [cluster_post]
      exact congrArg (fun c : Cluster => Store.put c.results d.rcd.key svWatchdog) (hj _)
    rw [State.watchdogged, hput, Store.get?_put, if_neg hk]
    exact h

theorem watchdogged_foldl {k : Nat} (h : s.watchdogged k) (g : Nat) (l : List Ctx) :
    (l.foldl (fun (y : State) d => y.endOne g d svWatchdog) s).watchdogged k :=
  foldl_keeps (fun y : State => y.watchdogged k) (fun _ d hy => watchdogged_endOne hy g d) l h

/-- The reset of a groom's page leaves the groom idle, and the cluster as it was. -/
theorem pageReset_groom (s : State) (g : Nat) :
    (s.pageReset .groom g).groom g = GroomSt.idle ∧ (s.pageReset .groom g).cluster = s.cluster := by
  have hdrop : Store.getD (fun _ => GroomSt.idle) (Store.drop s.grooms g) g = GroomSt.idle := by
    rw [Store.getD, Store.get?_drop, if_pos rfl]
    rfl
  exact ⟨hdrop, rfl⟩

theorem groomReset_ends {k : Nat} (h : s.watchdogged k) (g : Nat) :
    (s.groomReset g).groom g = GroomSt.idle ∧ (s.groomReset g).watchdogged k := by
  unfold State.groomReset
  obtain ⟨hidle, hk⟩ := pageReset_groom ((s.groom g).saved.foldl (fun (y : State) e =>
    (e.1 :: e.2.map Chain.ctx).foldl (fun (z : State) c => z.endOne g c svWatchdog) y) s) g
  refine ⟨hidle, ?_⟩
  rw [State.watchdogged, hk]
  exact foldl_keeps (fun y : State => y.watchdogged k) (fun _ e hy => watchdogged_foldl hy g _) _ h

/-- A commit leaves the record of its routine. -/
theorem rcd_commit (g : Fin 8) (c : Ctx) : (s.commit g c).2.rcd = c.rcd := by
  refine foldl_keeps (fun x : State × Ctx => x.2.rcd = c.rcd) (fun x e hx => ?_) _ rfl
  unfold commitOne
  dsimp only
  split
  · exact hx
  · split <;> exact hx

theorem groomWatchdog_ends {g : Fin 8} {c : Ctx} (h : (s.groom g).ctx = some c) :
    ∃ t, exec (.groomWatchdog g) s = .next t ∧ t.groom g = GroomSt.idle ∧ Store.get? t.cluster.results c.rcd.key = some svWatchdog := by
  obtain ⟨x, hrcd, hexec⟩ : ∃ x : State × Ctx, x.2.rcd = c.rcd ∧ exec (.groomWatchdog g) s = .next
      (State.groomReset (State.countReset (State.logOffer (State.event (State.sat
        ((x.2 :: (x.1.groom g).chains.map Chain.ctx).foldl (fun (y : State) d => y.endOne g d svWatchdog) x.1)
        .grm 0 Off.grmWdtCnt 0 32 1) .grm 0 2) logGroomWdt PageKind.groom.typeCode g (c.pc % 2 ^ 15)) rstGroomWdt) g) := by
    have e : exec (.groomWatchdog g) s = execGroomWatchdog g s := rfl
    rw [e]
    unfold execGroomWatchdog
    rw [h]
    refine ⟨_, ?_, rfl⟩
    split
    · exact rcd_commit g c
    · exact rcd_commit g c
    · exact rcd_commit g c
    · exact rcd_commit g c
    · rfl
  have hfirst : (x.1.endOne g x.2 svWatchdog).watchdogged c.rcd.key := by
    rw [← hrcd]
    exact results_endOne x.1 g x.2 svWatchdog
  obtain ⟨hidle, hres⟩ := groomReset_ends (k := c.rcd.key) (g := g) (s := State.countReset (State.logOffer (State.event (State.sat
        ((x.2 :: (x.1.groom g).chains.map Chain.ctx).foldl (fun (y : State) d => y.endOne g d svWatchdog) x.1)
        .grm 0 Off.grmWdtCnt 0 32 1) .grm 0 2) logGroomWdt PageKind.groom.typeCode g (c.pc % 2 ^ 15)) rstGroomWdt) (by
    rw [State.watchdogged, State.countReset, State.logOffer_cluster, State.event_cluster]
    exact watchdogged_foldl hfirst g _)
  exact ⟨_, hexec, hidle, hres⟩

end

/-! ### The registers of the cluster (R508, R510) -/

theorem groomEnable_stores {r : Requester} {g : Fin 8} {en : Bool} {s : State}
    (ha : s.accepts r .grm 0 Off.grmCtrl (putBit (s.rd .grm 0 Off.grmCtrl) g en) = true) :
    ∃ t, exec (.groomEnable r g en) s = .next t ∧ t.rb .grm 0 Off.grmCtrl g = en := by
  have hg := g.isLt
  have hrun : exec (.groomEnable r g en) s = .next (s.plainWrite .grm 0 Off.grmCtrl (putBit (s.rd .grm 0 Off.grmCtrl) g en)) := by
    have e : exec (.groomEnable r g en) s =
        .next (s.write32 r (PageKind.base .grm 0 + Off.grmCtrl) (putBit (s.rd .grm 0 Off.grmCtrl) g en)) := rfl
    rw [e, write32_page s r .grm (by decide) (by decide), State.pageWrite, guarded_of_accepts ha]
    rfl
  have hrw : ∀ b < 8, (0xFF : Nat).testBit b = true := by decide
  refine ⟨_, hrun, ?_⟩
  rw [plainWrite_of_row (k := .grm) (o := Off.grmCtrl) rfl, rb_wr_same, tbit_mergeWrite (hrw g hg) rfl (by omega),
    tbit_putBit_same _ _ _ (by omega)]

/-- The registers of use written one by one leave every other. -/
theorem used_foldl_other {l : List (Nat × Fin 101)} {s : State} {o : Nat} (h : ∀ x ∈ l, o % 0x1000 ≠ Off.grmUsed x.1 % 0x1000) :
    (l.foldl (fun x e => x.wf .grm 0 (Off.grmUsed e.1) 0 7 e.2.val) s).rd .grm 0 o = s.rd .grm 0 o := by
  induction l generalizing s with
  | nil => rfl
  | cons a l ih =>
    rw [List.foldl_cons, ih fun x hx => h x (List.mem_cons_of_mem _ hx), rd_wf_offset _ _ _ _ _ _ _ _ _ (h a List.mem_cons_self)]

/-- Each keeps its value. -/
theorem use_foldl {l : List (Nat × Fin 101)} {s : State} {e : Nat × Fin 101} (hnd : (l.map Prod.fst).Nodup)
    (hl : ∀ x ∈ l, x.1 < 9) (he : e ∈ l) :
    (l.foldl (fun x e => x.wf .grm 0 (Off.grmUsed e.1) 0 7 e.2.val) s).rf .grm 0 (Off.grmUsed e.1) 0 7 = e.2.val := by
  induction l generalizing s with
  | nil => cases he
  | cons a l ih =>
    obtain ⟨ha, hnd⟩ := List.nodup_cons.mp hnd
    have hl9 := fun x hx => hl x (List.mem_cons_of_mem _ hx)
    rw [List.foldl_cons]
    rcases List.mem_cons.mp he with rfl | he
    · refine (rf_of_rd (used_foldl_other fun x hx h => ha (List.mem_map.mpr ⟨x, hx, ?_⟩)) 0 7).trans ?_
      · have := hl9 x hx
        have := hl _ List.mem_cons_self
        simp only [Off.grmUsed] at h
        omega
      · rw [rf_wf_same _ _ _ _ _ _ _ (by decide)]
        exact Nat.mod_eq_of_lt (by have := e.2.isLt; omega)
    · exact ih hnd hl9 he

theorem grmUsedUpdate_shows {used : List (Fin 101)} (i : Fin 9) {s : State} (h : used.length = 9) :
    ∃ t, exec (.grmUsedUpdate used) s = .next t ∧ t.rf .grm 0 (Off.grmUsed i) 0 7 = (used.getD i 0).val := by
  have hlen : (used.take 9).length = 9 := by simp [h]
  have hfst : (enumerate (used.take 9)).map Prod.fst = upto 9 := by
    rw [enumerate, hlen]
    exact List.map_fst_zip (by simp [upto, hlen])
  have hmem : (i.val, used.getD i 0) ∈ enumerate (used.take 9) := by
    have hi := i.isLt
    rw [enumerate, List.mem_iff_getElem]
    exact ⟨i, by simp [upto, h], by simp [upto, h]⟩
  exact ⟨_, rfl, use_foldl (e := (i.val, used.getD i 0)) (hfst ▸ (by decide : (upto 9).Nodup))
    (fun x hx => by simpa [upto] using (hfst ▸ List.mem_map_of_mem hx : x.1 ∈ upto 9)) hmem⟩

/-- Settles O42: a record that ends frees its groom and stores its STATUS; the head record of a ring is taken and begun, or ended at
a check; the watchdog ends every record of its groom; and the registers of the cluster take what is written. -/
theorem groomsTakeAndEndRecords : Obligations.GroomsTakeAndEndRecords := by
  unfold Obligations.GroomsTakeAndEndRecords
  refine ⟨fun g c st s h => ⟨groom_endRecord s g h, results_endRecord s g h⟩, fun g n p r s hhead hcancel hmay => ⟨?_, ?_⟩, ?_, ?_, ?_, ?_⟩
  · exact svPatch_starts p hhead hcancel hmay
  · exact badOp_ends hhead hcancel hmay
  · exact fun g n r s => cancel_ends
  · exact fun g c s => groomWatchdog_ends
  · exact fun r g en s => groomEnable_stores
  · exact fun used i s => grmUsedUpdate_shows i

end Sys2Proof.Machine

/-!
PROOF. The data services (R484, R485): the one entry of INPUT, its value and its site, and the writes of a stage that stay within
one region.
-/

namespace Sys2Proof.Machine

/-! ### Ranges of the hayloft within others -/

section
variable {s : State} {o a b m n : Nat}

theorem inRegion_sub {kinds : List Nat} (hlo : a ≤ b) (hhi : b + m ≤ a + n) (h : s.inRegion o kinds a n = true) :
    s.inRegion o kinds b m = true := by
  simp only [State.inRegion, Bool.and_eq_true, decide_eq_true_eq, List.any_eq_true] at h ⊢
  obtain ⟨hend, e, he, ⟨hen, hbase⟩, hlast⟩ := h
  exact ⟨by omega, e, he, ⟨hen, hbase.trans hlo⟩, hhi.trans hlast⟩

theorem poisoned_sub (hlo : a ≤ b) (hhi : b + m ≤ a + n) (h : s.poisoned a n = false) : s.poisoned b m = false := by
  simp only [State.poisoned, List.any_eq_false, Bool.and_eq_true, decide_eq_true_eq, not_and] at h ⊢
  intro e he hfirst hend
  exact h e he ⟨hfirst.1, by omega⟩ (by omega)

theorem hayOk_sub (hlo : a ≤ b) (hhi : b + m ≤ a + n) (h : s.hayOk o a n = true) : s.hayOk o b m = true := by
  rw [State.hayOk, inRegion_sub hlo hhi (inRegion_of_hayOk h), poisoned_sub hlo hhi (poisoned_of_hayOk h)]
  rfl

end

/-! ### Writes within one region, one after another -/

/-- What decides where a service may write: the regions, and whether training holds the hayloft. -/
def State.writable (s : State) : List (Nat × Region) × Word × Bool := (s.regions, s.rd .hbm 0 Off.hbmStat, s.hbm.training)

section
variable {s t : State}

theorem inRegion_of_writable (h : t.writable = s.writable) (o : Nat) (kinds : List Nat) (a n : Nat) :
    t.inRegion o kinds a n = s.inRegion o kinds a n := by
  have hregions : t.regions = s.regions := congrArg Prod.fst h
  rw [State.inRegion, hregions, State.inRegion]

theorem trainPause_of_writable (h : t.writable = s.writable) : t.trainPause = s.trainPause := by
  have hstat : t.rd .hbm 0 Off.hbmStat = s.rd .hbm 0 Off.hbmStat := congrArg (·.2.1) h
  have htraining : t.hbm.training = s.hbm.training := congrArg (·.2.2) h
  rw [State.trainPause, rb_of_rd hstat, htraining, State.trainPause]

theorem writable_wr_hbm (s : State) {o : Nat} (v : Word) (h : o % 0x1000 ≠ Off.hbmStat % 0x1000) :
    (s.wr .hbm 0 o v).writable = s.writable := by
  simp only [State.writable, State.wr_regions, State.wr_hbm, rd_wr_off s .hbm .hbm v h.symm]

theorem writable_hbmUe (s : State) (a r : Nat) : (s.hbmUe a r).writable = s.writable := by
  have hlogged : ∀ x : State, ((x.event .hbm 0 3).logOffer logHbmUe PageKind.hbm.typeCode 0
      (s.bankOf a % 32 + 256 * r)).writable = x.writable := fun x => by
    simp only [State.writable, State.logOffer_regions, State.event_regions, State.logOffer_hbm, State.event_hbm,
      rd_of_regs (State.logOffer_regs ..), rd_event x .hbm 0 3 .hbm 0 Off.hbmStat (by simp [postReg]) (by decide)]
  exact (hlogged _).trans (((writable_wr_hbm _ _ (by decide)).trans (writable_wr_hbm _ _ (by decide))).trans
    (writable_wr_hbm s _ (by decide)))

theorem writable_poisonWrite (s : State) (a n : Nat) : (s.poisonWrite a n).writable = s.writable := by
  refine view_foldl (fun x e => ?_) s _
  dsimp only
  split
  · rfl
  · split
    · rfl
    · exact writable_wr_hbm x _ (by decide)

theorem writable_hayWriteBytes (s : State) (o a : Nat) (bs : List Byte) : (s.hayWriteBytes o a bs).writable = s.writable := by
  induction bs generalizing s a with
  | nil => rfl
  | cons b t ih => exact (ih (s.hayWrite o a b) (a + 1)).trans rfl

theorem writable_hayMerge (s : State) (o a : Nat) (bs : List Byte) (r : Nat) :
    (s.hayMerge o a bs r .clean).writable = s.writable := by
  have hmerged : ∀ l : List Nat, (l.foldl (fun x w => x.hbmUe (32 * w) r) (s.hayStore o a bs)).writable = s.writable := fun l =>
    (view_foldl (fun x w => writable_hbmUe x (32 * w) r) _ l).trans
      ((writable_hayWriteBytes ..).trans (writable_poisonWrite ..))
  unfold State.hayMerge
  dsimp only
  split
  · exact hmerged _
  · exact hmerged _
  · contradiction
  · contradiction

end

section
variable {x : State} {d : Ctx} {g : Fin 8} {p : Probe}

/-- A write within the owner's regions leaves the regions as they are. -/
theorem hayWr_writable (hpause : x.trainPause = false) (hp : p.hay = none) {a : Nat} {bs : List Byte}
    (h : x.inRegion d.rcd.owner anyKind a bs.length = true) :
    ∃ y e, (jobAt x d g p).hayWr a bs = jobAt y e g p ∧ e.rcd = d.rcd ∧ y.writable = x.writable := by
  unfold Job.hayWr
  split
  · exact ⟨x, d, rfl, rfl, rfl⟩
  · rw [bind_jobAt, if_neg (by simp [hpause]), if_neg (by simp [Job.o, h])]
    refine ⟨_, _, rfl, rfl, ?_⟩
    simp only [probeMeets, hp]
    exact writable_hayMerge ..

/-- So do writes of a list of ranges in turn. -/
theorem eachHayWr_inRegion {α : Type} (addr : α → Nat) (bytes : α → List Byte) (l : List α) (hpause : x.trainPause = false)
    (hp : p.hay = none) (h : ∀ e ∈ l, x.inRegion d.rcd.owner anyKind (addr e) (bytes e).length = true) :
    ∃ y e, ((jobAt x d g p).each l fun e z => z.hayWr (addr e) (bytes e)) = jobAt y e g p ∧ e.rcd = d.rcd := by
  induction l generalizing x d with
  | nil => exact ⟨x, d, rfl, rfl⟩
  | cons a l ih =>
    obtain ⟨y, e, hwr, hrcd, hkept⟩ := hayWr_writable (g := g) hpause hp (h a List.mem_cons_self)
    rw [each_jobAt_cons, hwr]
    obtain ⟨y', e', hrest, hrcd'⟩ := ih (x := y) (d := e) ((trainPause_of_writable hkept).trans hpause) fun b hb => by
      rw [inRegion_of_writable hkept, hrcd]
      exact h b (List.mem_cons_of_mem a hb)
    exact ⟨y', e', hrest, hrcd'.trans hrcd⟩

/-- Entries posted leave the routine running. -/
theorem postWords_jobAt (ty n : Nat) (l : List Nat) : ∃ y, (jobAt x d g p).postWords ty n l = jobAt y d g p := by
  induction n generalizing x l with
  | zero => exact ⟨x, by cases l <;> rfl⟩
  | succ n ih =>
    cases l with
    | nil => exact ⟨x, rfl⟩
    | cons v l => exact ih _

end

/-! ### The one entry of INPUT -/

section
variable {s : State} {g : Fin 8} {c : Ctx} {p : Probe} {op k : Nat}

/-- The address of the entry of INPUT at its first index. -/
def State.inputAddr (s : State) (c : Ctx) : Nat :=
  s.ringBase (c.rcd.f 0 0 15) + 32 * (c.rcd.p 1 % s.ringCap (c.rcd.f 0 0 15))

/-- INPUT names one entry, in a ring of the owner and readable. -/
structure State.OneEntry (s : State) (c : Ctx) (e : Nat) : Prop where
  owned : s.ringOwner (c.rcd.f 0 0 15) = c.rcd.owner
  count : c.rcd.f 0 16 16 = 1
  readable : s.hayOk c.rcd.owner (s.inputAddr c) 32 = true
  content : s.hayGet c.rcd.owner (s.inputAddr c) 32 = e

theorem inputAddr_reach15 (op a : Nat) : (s.reach15 op a).inputAddr c = s.inputAddr c := by
  rw [reach15_eq]
  rfl

theorem ringOwner_reach15 (op a n : Nat) : (s.reach15 op a).ringOwner n = s.ringOwner n := by
  rw [reach15_eq]
  rfl

variable {e : Nat}

theorem input_newJob (hrun : s.romRuns g c op k p = true) (hone : s.OneEntry c e) (ty : Nat) :
    (s.newJob g c p).input ty = (s.newJob g c p, [(c.rcd.p 1, e)].filter fun e => e.2 % 256 == ty) := by
  have hneed : (s.newJob g c p).need ((s.newJob g c p).s.ringOwner ((s.newJob g c p).f 0 0 15) == (s.newJob g c p).o) =
      s.newJob g c p := Job.need_true (beq_iff_eq.mpr ((ringOwner_reach15 ..).trans hone.owned))
  have hcount : (s.newJob g c p).f 0 16 16 = 1 := hone.count
  have hindex : ((s.newJob g c p).a 1 + 0) % 2 ^ 32 = c.rcd.p 1 := Nat.mod_eq_of_lt (c.rcd.ps.getD 1 0).isLt
  have hread : (s.newJob g c p).hayRd ((s.newJob g c p).s.ringBase ((s.newJob g c p).f 0 0 15) +
      32 * (c.rcd.p 1 % (s.newJob g c p).s.ringCap ((s.newJob g c p).f 0 0 15))) 32 =
      (s.newJob g c p, s.hayBytes c.rcd.owner (s.inputAddr c) 32) := by
    rw [← hayRd_newJob hrun (by decide) hone.readable, ← inputAddr_reach15 c.rcd.op p.addr.toNat]
    rfl
  unfold Job.input Job.rdEntries
  dsimp only
  rw [hneed, hcount, show upto 1 = [0] from rfl, List.map_cons, List.map_nil, hindex, List.foldl_cons, List.foldl_nil, hread,
    ← hone.content]
  rfl

/-- The value that FIELD selects of the one entry, where the entry is of its type. -/
theorem values_newJob (hrun : s.romRuns g c op k p = true) (hone : s.OneEntry c e) :
    ∃ V, (s.newJob g c p).values = (s.newJob g c p, V) ∧ V.length = if e % 256 = c.rcd.f 2 0 8 then 1 else 0 := by
  have hty : (s.newJob g c p).f 2 0 8 = c.rcd.f 2 0 8 := rfl
  unfold Job.values
  rw [input_newJob hrun hone, hty]
  refine ⟨_, rfl, ?_⟩
  by_cases h : e % 256 = c.rcd.f 2 0 8 <;> simp [h]

/-- The site of the one entry, where the entry is a FINAL SITE_RESULT. -/
theorem finals_newJob (hrun : s.romRuns g c op k p = true) (hone : s.OneEntry c e) :
    ∃ F, (s.newJob g c p).finals = (s.newJob g c p, F) ∧
      F.length = (if e % 256 = 0x01 ∧ e.testBit 44 = true then 1 else 0) ∧ ∀ f ∈ F, f.1 < 512 := by
  unfold Job.finals
  rw [input_newJob hrun hone]
  refine ⟨_, rfl, ?_⟩
  have hput : Store.put [] (nfld e 32 9) e = [(nfld e 32 9, e)] := rfl
  have hsite : nfld e 32 9 < 512 := Nat.mod_lt _ (by decide)
  by_cases hty : e % 256 = 1 <;> cases hfinal : e.testBit 44 <;> simp [hty, hfinal, hput, hsite]

/-- A stage that finishes with words of which the first is `n`. -/
theorem service_counts (h : s.romRuns g c op k p = true) {i : Instr} {is : Nat → Bool} {f : Job → Job}
    (hexec : exec i s = .next (s.service g none p is f)) (hop : is op = true) {n : Nat}
    (hf : ∃ y d vs, f (s.newJob g c p) = (jobAt y d g p).finish vs ∧ d.rcd = c.rcd ∧ vs.getD 0 0 = n) :
    ∃ t y vs, exec i s = .next t ∧ ServiceEnds t y g c vs ∧ vs.getD 0 0 = n := by
  obtain ⟨x, d, vs, hf, hrcd, hn⟩ := hf
  obtain ⟨t, ht, hserv⟩ := service_finishes_at h hexec hop hf hrcd
  exact ⟨t, _, vs, ht, hserv, hn⟩

/-! ### Reductions of the values -/

theorem svStats_ends (hone : s.OneEntry c e) (hrun : s.romRuns g c 0x30 0 p = true) :
    ∃ t y vs, exec (.svStats g none p) s = .next t ∧ ServiceEnds t y g c vs ∧
      vs.getD 0 0 = if e % 256 = c.rcd.f 2 0 8 then 1 else 0 := by
  obtain ⟨V, hV, hlen⟩ := values_newJob hrun hone
  refine service_counts hrun (f := svStats) rfl rfl ?_
  unfold svStats
  rw [hV]
  exact ⟨_, _, _, rfl, rfl, (List.length_map _).trans hlen⟩

theorem svHistogram_ends (hone : s.OneEntry c e) (hrun : s.romRuns g c 0x31 0 p = true) :
    ∃ t y vs, exec (.svHistogram g none p) s = .next t ∧ ServiceEnds t y g c vs ∧
      vs.getD 0 0 = if e % 256 = c.rcd.f 2 0 8 then 1 else 0 := by
  obtain ⟨V, hV, hlen⟩ := values_newJob hrun hone
  refine service_counts hrun (f := svHistogram) rfl rfl ?_
  unfold svHistogram
  rw [hV]
  dsimp only
  generalize (upto _).map _ = words
  obtain ⟨y, hpost⟩ := postWords_jobAt (x := s.reach15 c.rcd.op p.addr.toNat) (d := c) (g := g) (p := p) 0x81 37 words
  rw [newJob_eq, hpost]
  exact ⟨_, _, _, rfl, rfl, (List.length_map _).trans hlen⟩

theorem svLimits_ends (hone : s.OneEntry c e) (hrun : s.romRuns g c 0x32 0 p = true) :
    ∃ t y vs, exec (.svLimits g none p) s = .next t ∧ ServiceEnds t y g c vs ∧
      vs.getD 0 0 = if e % 256 = c.rcd.f 2 0 8 then 1 else 0 := by
  obtain ⟨V, hV, hlen⟩ := values_newJob hrun hone
  refine service_counts hrun (f := svLimits) rfl rfl ?_
  unfold svLimits
  rw [hV]
  exact ⟨_, _, _, rfl, rfl, hlen⟩

theorem svOutlier_ends (hone : s.OneEntry c e) (hrun : s.romRuns g c 0x37 0 p = true) :
    ∃ t y vs, exec (.svOutlier g none p) s = .next t ∧ ServiceEnds t y g c vs ∧
      vs.getD 0 0 = if e % 256 = c.rcd.f 2 0 8 then 1 else 0 := by
  obtain ⟨V, hV, hlen⟩ := values_newJob hrun hone
  refine service_counts hrun (f := svOutlier) rfl rfl ?_
  unfold svOutlier
  rw [hV]
  dsimp only
  generalize hwords : List.map Prod.fst (List.filter _ V) = words
  obtain ⟨y, hpost⟩ := postWords_jobAt (x := s.reach15 c.rcd.op p.addr.toNat) (d := c) (g := g) (p := p) 0x82 9363 words
  rw [newJob_eq, hpost]
  split
  · rename_i hempty
    refine ⟨_, _, _, rfl, rfl, ?_⟩
    rw [← hlen, ← List.length_map (as := V) Prod.snd, List.isEmpty_iff.mp hempty]
    rfl
  · exact ⟨_, _, _, rfl, rfl, (List.length_map _).trans hlen⟩

theorem length_insertValue (v : Nat × Int) (l : List (Nat × Int)) : (insertValue v l).length = l.length + 1 := by
  induction l with
  | nil => rfl
  | cons a l ih =>
    unfold insertValue
    split
    · rfl
    · rw [List.length_cons, ih, List.length_cons]

theorem length_foldl_insertValue (l m : List (Nat × Int)) :
    (l.foldl (fun a e => insertValue e a) m).length = m.length + l.length := by
  induction l generalizing m with
  | nil => rfl
  | cons a l ih => rw [List.foldl_cons, ih, length_insertValue, List.length_cons]; omega

theorem length_flatten_words {α : Type} (f : α → Nat) (l : List α) :
    ((l.map fun e => bytesOf 4 (f e)).flatten).length = 4 * l.length := by
  induction l with
  | nil => rfl
  | cons a l ih => rw [List.map_cons, List.flatten_cons, List.length_append, bytesOf_length, ih, List.length_cons]; omega

theorem svSort_ends (hone : s.OneEntry c e) (hrun : s.romRuns g c 0x3E 0 p = true)
    (hout : s.inRegion c.rcd.owner anyKind (c.rcd.hay 3) 4 = true) :
    ∃ t y, exec (.svSort g none p) s = .next t ∧ ServiceEnds t y g c [if e % 256 = c.rcd.f 2 0 8 then 1 else 0] := by
  obtain ⟨V, hV, hlen⟩ := values_newJob hrun hone
  have hsorted := (length_foldl_insertValue V []).trans (Nat.zero_add _)
  generalize hsort : V.foldl (fun a e => insertValue e a) [] = sorted at hsorted
  have hle : V.length ≤ 1 := by split at hlen <;> omega
  obtain ⟨y, d, hwr, hrcd⟩ := hayWr_newJob_inRegion hrun (a := c.rcd.hay 3) (bs := (sorted.map fun e => bytesOf 4 e.1).flatten)
    (inRegion_sub (Nat.le_refl _) (by rw [length_flatten_words]; omega) hout)
  obtain ⟨t, ht, hserv⟩ := service_finishes_at hrun (i := .svSort g none p) (f := svSort) rfl rfl (x := y) (d := d)
    (vs := [sorted.length]) (by
      unfold svSort
      rw [hV]
      dsimp only
      rw [hsort, ← hwr]
      rfl) hrcd
  rw [hsorted, hlen] at hserv
  exact ⟨t, _, ht, hserv⟩

/-! ### Site results -/

theorem svYield_ends (hone : s.OneEntry c e) (hrun : s.romRuns g c 0x3D 0 p = true) :
    ∃ t y vs, exec (.svYield g none p) s = .next t ∧ ServiceEnds t y g c vs ∧
      vs.getD 0 0 = if e % 256 = 0x01 ∧ e.testBit 44 = true then 1 else 0 := by
  obtain ⟨F, hF, hlen, -⟩ := finals_newJob hrun hone
  refine service_counts hrun (f := svYield) rfl rfl ?_
  unfold svYield
  rw [hF]
  exact ⟨_, _, _, rfl, rfl, hlen⟩

theorem svSiteSummary_ends (hone : s.OneEntry c e) (hrun : s.romRuns g c 0x35 0 p = true)
    (hout : s.inRegion c.rcd.owner anyKind (c.rcd.hay 2) 4096 = true) :
    ∃ t y vs, exec (.svSiteSummary g none p) s = .next t ∧ ServiceEnds t y g c vs ∧
      vs.getD 0 0 = if e % 256 = 0x01 ∧ e.testBit 44 = true then 1 else 0 := by
  obtain ⟨F, hF, hlen, hsite⟩ := finals_newJob hrun hone
  obtain ⟨y, d, hwr, hrcd⟩ := eachHayWr_inRegion (x := s.reach15 c.rcd.op p.addr.toNat) (d := c) (g := g) (p := p)
    (fun f => c.rcd.hay 2 + 8 * f.1) (fun f => bytesOf 8 (nfld f.2 64 32 + 2 ^ 32 * nfld f.2 32 32)) F
    (pause_reach15 hrun _ _) (romRuns_hay hrun) fun f hf => by
      rw [inRegion_reach15, bytesOf_length]
      have := hsite f hf
      exact inRegion_sub (Nat.le_add_right ..) (by omega) hout
  refine service_counts hrun (f := svSiteSummary) rfl rfl ?_
  unfold svSiteSummary
  rw [hF]
  exact ⟨y, d, _, congrArg (Job.finish · _) hwr, hrcd, hlen⟩

theorem svBin_ends (hone : s.OneEntry c e) (hrun : s.romRuns g c 0x33 0 p = true)
    (hout : s.hayOk c.rcd.owner (c.rcd.hay 2) 640 = true) :
    ∃ t y vs, exec (.svBin g none p) s = .next t ∧ ServiceEnds t y g c vs ∧
      vs.getD 0 0 = if e % 256 = 0x01 ∧ e.testBit 44 = true then 1 else 0 := by
  obtain ⟨F, hF, hlen, hsite⟩ := finals_newJob hrun hone
  have hrules : (s.newJob g c p).hayRd ((s.newJob g c p).haddr 2) 128 =
      (s.newJob g c p, s.hayBytes c.rcd.owner (c.rcd.hay 2) 128) :=
    hayRd_newJob hrun (by decide) (hayOk_sub (Nat.le_refl _) (by omega) hout)
  refine service_counts hrun (f := svBin) rfl rfl ?_
  unfold svBin
  rw [hF]
  dsimp only
  rw [hrules]
  dsimp only
  generalize hbinned : F.map _ = binned
  have hbin : binned.length = F.length := by rw [← hbinned, List.length_map]
  obtain ⟨y, d, hwr, hrcd⟩ := eachHayWr_inRegion (x := s.reach15 c.rcd.op p.addr.toNat) (d := c) (g := g) (p := p)
    (fun f : Nat × Option Nat => c.rcd.hay 2 + 128 + f.1) (fun f => [BitVec.ofNat 8 (f.2.getD (c.rcd.f 4 0 4))]) binned
    (pause_reach15 hrun _ _) (romRuns_hay hrun) fun f hf => by
      rw [inRegion_reach15]
      rw [← hbinned] at hf
      obtain ⟨b, hb, rfl⟩ := List.mem_map.mp hf
      have := hsite b hb
      exact inRegion_sub (by omega) (by simp only [List.length_singleton]; omega) (inRegion_of_hayOk hout)
  exact ⟨y, d, _, congrArg (Job.finish · _) hwr, hrcd, hbin.trans hlen⟩

end

end Sys2Proof.Machine

/-!
PROOF. The services on maps, fail counts, the capture buffer and repair (R485, R504, R505): the bits of a map, the one record of
a flushed buffer; and O40.
-/

namespace Sys2Proof.Machine

/-! ### Maps of bits -/

theorem popCount_maskOf (n : Nat) (q : Nat → Bool) : popCount (maskOf n q) n = ((upto n).filter q).length := by
  unfold popCount onesOf upto
  congr 1
  refine List.filter_congr fun i hi => ?_
  rw [testBit_maskOf, decide_eq_true (List.mem_range.mp hi), Bool.true_and]

theorem testBit_ofBytes (bs : List Byte) (i : Nat) {b : Nat} (hb : b < 8) :
    (ofBytes bs).testBit (8 * i + b) = (bs.getD i 0).getLsbD b := by
  induction bs generalizing i with
  | nil => simp [ofBytes]
  | cons v t ih =>
    have hsum : ofBytes (v :: t) = 2 ^ 8 * ofBytes t + v.toNat := by rw [ofBytes]; omega
    rw [hsum, Nat.testBit_two_pow_mul_add _ v.isLt]
    cases i with
    | zero => simp [hb, BitVec.getLsbD]
    | succ i => rw [if_neg (by omega), show 8 * (i + 1) + b - 8 = 8 * i + b by omega, ih, List.getD_cons_succ]

/-- The bytes of a map are made of its bits. -/
theorem getLsbD_bytesOf {n v i b : Nat} (hi : i < (bytesOf n v).length) (hb : b < 8) :
    (bytesOf n v)[i].getLsbD b = v.testBit (8 * i + b) := by
  rw [bytesOf_getElem, BitVec.getLsbD_ofNat, show 256 ^ i = 2 ^ (8 * i) by rw [Nat.pow_mul], Nat.testBit_div_two_pow,
    decide_eq_true hb, Bool.true_and, Nat.add_comm]

theorem getD_hayBytes (s : State) (o a : Nat) {n i : Nat} (h : i < n) : (s.hayBytes o a n).getD i 0 = s.hayRead o (a + i) := by
  have hlen : i < (s.hayBytes o a n).length := by rwa [hayBytes_length]
  rw [List.getD_eq_getElem _ _ hlen, hayBytes_getElem]

section
variable {s : State} {g : Fin 8} {c : Ctx} {p : Probe} {op k : Nat}

theorem svBinMap_ends (hrun : s.romRuns g c 0x34 0 p = true) (hin : s.hayOk c.rcd.owner (c.rcd.hay 0) 512 = true)
    (hout : s.inRegion c.rcd.owner anyKind (c.rcd.hay 3) 64 = true) :
    ∃ t y, exec (.svBinMap g none p) s = .next t ∧ ServiceEnds t y g c
      [((upto 512).filter fun i => (s.hayRead c.rcd.owner (c.rcd.hay 0 + i)).toNat == c.rcd.f 2 0 4).length] := by
  have hread : (s.newJob g c p).hayRd ((s.newJob g c p).haddr 0) 512 = (s.newJob g c p, s.hayBytes c.rcd.owner (c.rcd.hay 0) 512) :=
    hayRd_newJob hrun (by decide) hin
  generalize hmask : maskOf 512 (fun i => ((s.hayBytes c.rcd.owner (c.rcd.hay 0) 512).getD i 0).toNat == c.rcd.f 2 0 4) = mask
  have hcount : popCount mask 512 =
      ((upto 512).filter fun i => (s.hayRead c.rcd.owner (c.rcd.hay 0 + i)).toNat == c.rcd.f 2 0 4).length := by
    rw [← hmask, popCount_maskOf]
    refine congrArg List.length (List.filter_congr fun i hi => ?_)
    rw [getD_hayBytes _ _ _ (List.mem_range.mp hi)]
  obtain ⟨y, d, hwr, hrcd⟩ := hayWr_newJob_inRegion hrun (a := c.rcd.hay 3) (bs := bytesOf 64 mask)
    (by rw [bytesOf_length]; exact hout)
  obtain ⟨t, ht, hserv⟩ := service_finishes_at hrun (i := .svBinMap g none p) (f := svBinMap) rfl rfl (x := y) (d := d)
    (vs := [popCount mask 512]) (by
      unfold svBinMap
      rw [hread, ← hwr, ← hmask]
      rfl) hrcd
  rw [hcount] at hserv
  exact ⟨t, _, ht, hserv⟩

theorem svMerge_ends (hrun : s.romRuns g c 0x36 0 p = true) (ha : s.hayOk c.rcd.owner (c.rcd.hay 0) 64 = true)
    (hb : s.hayOk c.rcd.owner (c.rcd.hay 2) 64 = true) (hmode : c.rcd.f 4 0 2 = 0) :
    ∃ t y vs, exec (.svMerge g none p) s = .next t ∧ ServiceEnds t y g c vs ∧
      ∀ i < 64, y.hayRead c.rcd.owner (c.rcd.hay 0 + i) =
        s.hayRead c.rcd.owner (c.rcd.hay 0 + i) &&& s.hayRead c.rcd.owner (c.rcd.hay 2 + i) := by
  have hreadA : (s.newJob g c p).hayRd ((s.newJob g c p).haddr 0) 64 = (s.newJob g c p, s.hayBytes c.rcd.owner (c.rcd.hay 0) 64) :=
    hayRd_newJob hrun (by decide) ha
  have hreadB : (s.newJob g c p).hayRd ((s.newJob g c p).haddr 2) 64 = (s.newJob g c p, s.hayBytes c.rcd.owner (c.rcd.hay 2) 64) :=
    hayRd_newJob hrun (by decide) hb
  have hand : (s.newJob g c p).f 4 0 2 = 0 := hmode
  generalize hmap : maskOf 512 (fun i => natBit (ofBytes (s.hayBytes c.rcd.owner (c.rcd.hay 0) 64)) i &&
    natBit (ofBytes (s.hayBytes c.rcd.owner (c.rcd.hay 2) 64)) i) = map
  obtain ⟨t, y, ht, hserv, hbytes, -⟩ := hayWr_ends hrun (i := .svMerge g none p) (f := svMerge) rfl rfl (a := c.rcd.hay 0)
    (bs := bytesOf 64 map) (vs := [popCount map 512]) (by rw [bytesOf_length]; decide)
    (by rw [bytesOf_length]; exact ha) (by
      unfold svMerge
      simp only [hreadA, hreadB, hand]
      rw [← hmap]
      rfl)
  refine ⟨t, y, _, ht, hserv, fun i hi => ?_⟩
  rw [hbytes i (by rwa [bytesOf_length])]
  refine BitVec.eq_of_getLsbD_eq fun b hb => ?_
  rw [getLsbD_bytesOf _ hb, ← hmap, testBit_maskOf, natBit, natBit, testBit_ofBytes _ _ hb, testBit_ofBytes _ _ hb,
    getD_hayBytes _ _ _ hi, getD_hayBytes _ _ _ hi, decide_eq_true (by omega), Bool.true_and, BitVec.getLsbD_and]

theorem svWaferMap_ends (hrun : s.romRuns g c 0x3C 0 p = true) (hbins : s.hayOk c.rcd.owner (c.rcd.hay 0) 512 = true)
    (htable : s.hayOk c.rcd.owner (c.rcd.hay 2) 2048 = true) (hout : s.inRegion c.rcd.owner anyKind (c.rcd.hay 2) 67584 = true) :
    ∃ t y, exec (.svWaferMap g none p) s = .next t ∧ ServiceEnds t y g c [((upto 512).filter fun i =>
      nfld (s.hayGet c.rcd.owner (c.rcd.hay 2) 2048) (32 * i) 16 != 0xFFFF).length] := by
  have hreadA : (s.newJob g c p).hayRd ((s.newJob g c p).haddr 0) 512 =
      (s.newJob g c p, s.hayBytes c.rcd.owner (c.rcd.hay 0) 512) := hayRd_newJob hrun (by decide) hbins
  have hreadB : (s.newJob g c p).hayRd ((s.newJob g c p).haddr 2) 2048 =
      (s.newJob g c p, s.hayBytes c.rcd.owner (c.rcd.hay 2) 2048) := hayRd_newJob hrun (by decide) htable
  generalize hplaced : (upto 512).filter (fun i => nfld (s.hayGet c.rcd.owner (c.rcd.hay 2) 2048) (32 * i) 16 != 0xFFFF) = placed
  obtain ⟨y, d, hwr, hrcd⟩ := eachHayWr_inRegion (x := s.reach15 c.rcd.op p.addr.toNat) (d := c) (g := g) (p := p)
    (fun i => c.rcd.hay 2 + 2048 + nfld (s.hayGet c.rcd.owner (c.rcd.hay 2) 2048) (32 * i) 16)
    (fun i => [(s.hayBytes c.rcd.owner (c.rcd.hay 0) 512).getD i 0]) placed
    (pause_reach15 hrun _ _) (romRuns_hay hrun) fun i _ => by
      rw [inRegion_reach15]
      have hpos : nfld (s.hayGet c.rcd.owner (c.rcd.hay 2) 2048) (32 * i) 16 < 2 ^ 16 := Nat.mod_lt _ (by decide)
      exact inRegion_sub (by omega) (by simp only [List.length_singleton]; omega) hout
  obtain ⟨t, ht, hserv⟩ := service_finishes_at hrun (i := .svWaferMap g none p) (f := svWaferMap) rfl rfl (x := y) (d := d)
    (vs := [placed.length]) (by
      unfold svWaferMap
      rw [hreadA]
      dsimp only
      rw [hreadB, ← hwr, ← hplaced]
      rfl) hrcd
  exact ⟨t, _, ht, hserv⟩

theorem svFailCount_ends (hrun : s.romRuns g c 0x3F 0 p = true) (howner : s.ownerOf .seq (c.rcd.f 0 0 3) = c.rcd.owner)
    (hnone : s.enrollMask (c.rcd.f 0 0 3) = 0) :
    ∃ t y vs, exec (.svFailCount g none p) s = .next t ∧ ServiceEnds t y g c vs ∧ vs.getD 1 0 = 0 := by
  have hmask : (s.newJob g c p).s.enrollMask (c.rcd.f 0 0 3) = 0 := by
    refine Eq.trans ?_ hnone
    rw [State.enrollMask, State.enrollMask]
    simp only [newJob_eq, rd_reach15]
  have hones : onesOf 0 512 = [] := List.filter_eq_nil_iff.mpr fun i _ => by simp
  have hf : ∃ vs, svFailCount (s.newJob g c p) = (s.newJob g c p).finish vs ∧ vs.getD 1 0 = 0 := by
    unfold svFailCount
    rw [show (s.newJob g c p).f 0 0 3 = c.rcd.f 0 0 3 from rfl]
    dsimp only
    rw [hmask, hones, ownSeq_newJob howner]
    exact ⟨_, rfl, rfl⟩
  obtain ⟨vs, hf, hzero⟩ := hf
  obtain ⟨t, ht, hserv⟩ := service_finishes_at hrun (i := .svFailCount g none p) (f := svFailCount) rfl rfl hf rfl
  exact ⟨t, _, vs, ht, hserv, hzero⟩

/-! ### The capture buffer -/

/-- The capture buffer of sequencer `q` is flushed, has not wrapped and holds one record, which the owner may read. -/
structure State.OneRecord (s : State) (o q : Nat) : Prop where
  flushed : s.rb .site q Off.capStat 2 = true
  unwrapped : s.rb .site q Off.capStat 1 = false
  pointer : s.rd2 .site q Off.capWptrLo Off.capWptrHi = 16
  readable : s.hayOk o (s.seq q).cfg.capBase 16 = true

/-- The record of a buffer that holds one. -/
def State.firstRecord (s : State) (o q : Nat) : Nat := s.hayGet o (s.seq q).cfg.capBase 16

variable {q : Nat}

theorem seq_newJob : (s.newJob g c p).s.seq q = s.seq q := by
  rw [newJob_eq]
  dsimp only
  rw [reach15_eq]
  rfl

theorem flushed_newJob (hrun : s.romRuns g c op 1 p = true) (hone : s.OneRecord c.rcd.owner q) (f : Job → Job) :
    (s.newJob g c p).flushed q f = f (s.newJob g c p) := by
  unfold Job.flushed
  dsimp only
  rw [if_neg (by simp [newJob_stage hrun])]
  exact await_jobAt ((rb_reach15 ..).trans hone.flushed) 1000 f

theorem records_newJob (hrun : s.romRuns g c op k p = true) (hone : s.OneRecord c.rcd.owner q) :
    (s.newJob g c p).records q = (s.newJob g c p, [s.firstRecord c.rcd.owner q]) := by
  have hunwrapped : (s.newJob g c p).s.rb .site q Off.capStat 1 = false := (rb_reach15 ..).trans hone.unwrapped
  have hpointer : (s.newJob g c p).s.rd2 .site q Off.capWptrLo Off.capWptrHi = 16 := by
    rw [← hone.pointer, State.rd2, State.rd2]
    simp only [newJob_eq, rd_reach15]
  unfold Job.records
  rw [seq_newJob]
  dsimp only
  rw [hunwrapped, hpointer]
  simp only [show decide (16 = 0) = false from rfl, Bool.false_and, Bool.or_false, Bool.false_eq_true, if_false,
    show upto (16 / 16) = [0] from rfl, List.foldl_cons, List.foldl_nil, Nat.add_zero, Nat.zero_mod, Nat.mul_zero,
    hayRd_newJob hrun (by decide) hone.readable]
  rfl

theorem svCapScan_ends (hone : s.OneRecord c.rcd.owner (c.rcd.f 0 0 3)) (hrun : s.romRuns g c 0x38 1 p = true)
    (hout : s.inRegion c.rcd.owner anyKind (c.rcd.hay 2) 2048 = true) :
    ∃ t y vs, exec (.svCapScan g none p) s = .next t ∧ ServiceEnds t y g c vs ∧ vs.getD 0 0 = 1 := by
  refine service_counts hrun (f := svCapScan) rfl rfl ?_
  unfold svCapScan
  rw [show (s.newJob g c p).f 0 0 3 = c.rcd.f 0 0 3 from rfl]
  dsimp only
  rw [flushed_newJob hrun hone, records_newJob hrun hone]
  dsimp only
  generalize hcounts : (upto 512).map _ = counts
  have hlen : counts.length = 512 := by rw [← hcounts, List.length_map, upto, List.length_range]
  obtain ⟨y, d, hwr, hrcd⟩ := hayWr_newJob_inRegion hrun (a := c.rcd.hay 2)
    (bs := (counts.map fun n => bytesOf 4 n).flatten) (by
      rw [length_flatten_words, hlen]
      exact hout)
  refine ⟨y, d, _, congrArg (Job.finish · _) hwr, hrcd, ?_⟩
  rfl

theorem svBitmap_ends (hone : s.OneRecord c.rcd.owner (c.rcd.f 0 0 3)) (hrun : s.romRuns g c 0x39 1 p = true)
    (hout : s.inRegion c.rcd.owner anyKind (c.rcd.hay 2) ((2 ^ (c.rcd.f 4 0 5 + c.rcd.f 4 8 5) + 7) / 8) = true) :
    let r := s.firstRecord c.rcd.owner (c.rcd.f 0 0 3)
    ∃ t y vs, exec (.svBitmap g none p) s = .next t ∧ ServiceEnds t y g c vs ∧
      vs.getD 0 0 = if nfld r 48 9 = c.rcd.f 1 0 9 ∧ nfld r 40 8 = c.rcd.f 4 16 8 then 1 else 0 := by
  intro r
  refine service_counts hrun (f := svBitmap) rfl rfl ?_
  unfold svBitmap
  rw [show (s.newJob g c p).f 0 0 3 = c.rcd.f 0 0 3 from rfl]
  dsimp only
  rw [flushed_newJob hrun hone, records_newJob hrun hone]
  dsimp only
  generalize List.foldl _ 0 _ = mask
  obtain ⟨y, d, hwr, hrcd⟩ := hayWr_newJob_inRegion hrun (a := c.rcd.hay 2)
    (bs := bytesOf ((2 ^ (c.rcd.f 4 0 5 + c.rcd.f 4 8 5) + 7) / 8) mask) (by
    rw [bytesOf_length]
    exact hout)
  refine ⟨y, d, _, congrArg (Job.finish · _) hwr, hrcd, ?_⟩
  have hcount : ([r].filter fun r => recSite r == c.rcd.f 1 0 9 && recZ r == c.rcd.f 4 16 8).length =
      if nfld r 48 9 = c.rcd.f 1 0 9 ∧ nfld r 40 8 = c.rcd.f 4 16 8 then 1 else 0 := by
    by_cases h : nfld r 48 9 = c.rcd.f 1 0 9 ∧ nfld r 40 8 = c.rcd.f 4 16 8
    · simp [recSite, recZ, h]
    · rw [if_neg h, List.filter_cons_of_neg (by simpa [recSite, recZ] using h)]
      rfl
  exact hcount

/-- A range of sites without the site of the one record has no block. -/
theorem sites_away {lo hi r : Nat} (h : recSite r < lo ∨ hi < recSite r) (q : Nat → Nat → Bool) :
    ((List.range' lo (hi + 1 - lo)).filter fun i => (layersOf i [r]).any (q i)) = [] := by
  refine List.filter_eq_nil_iff.mpr fun i hi => ?_
  have hne : ¬recSite r = i := by
    rw [List.mem_range'_1] at hi
    omega
  have hlayers : layersOf i [r] = [] := List.filter_eq_nil_iff.mpr fun z _ => by simp [hne]
  rw [hlayers]
  simp

variable (haway : recSite (s.firstRecord c.rcd.owner (c.rcd.f 0 0 3)) < c.rcd.f 1 0 9 ∨
  c.rcd.f 1 16 9 < recSite (s.firstRecord c.rcd.owner (c.rcd.f 0 0 3)))
include haway

theorem svRepair_ends (hone : s.OneRecord c.rcd.owner (c.rcd.f 0 0 3)) (hrun : s.romRuns g c 0x3A 1 p = true) :
    ∃ t y, exec (.svRepair g none p) s = .next t ∧ ServiceEnds t y g c [c.t 1, c.t 2, c.t 3, 1] := by
  obtain ⟨t, ht, hserv⟩ := service_ends_at hrun (i := .svRepair g none p) (f := svRepair) rfl rfl
    (d := c.withVals [c.t 1, c.t 2, c.t 3, 1]) (vs := [c.t 1, c.t 2, c.t 3, 1]) (by
      unfold svRepair
      rw [show (s.newJob g c p).f 0 0 3 = c.rcd.f 0 0 3 from rfl]
      dsimp only
      rw [flushed_newJob hrun hone, records_newJob hrun hone]
      dsimp only
      rw [show (s.newJob g c p).f 1 0 9 = c.rcd.f 1 0 9 from rfl, show (s.newJob g c p).f 1 16 9 = c.rcd.f 1 16 9 from rfl,
        sites_away haway]
      rfl) (rcd_withVals ..) (vs_withVals ..)
  exact ⟨t, _, ht, hserv⟩

theorem svRepairVerify_ends (hone : s.OneRecord c.rcd.owner (c.rcd.f 0 0 3)) (hrun : s.romRuns g c 0x3B 1 p = true) :
    ∃ t y, exec (.svRepairVerify g none p) s = .next t ∧ ServiceEnds t y g c [0, 0, 0] := by
  obtain ⟨t, ht, hserv⟩ := service_finishes_at hrun (i := .svRepairVerify g none p) (f := svRepairVerify) rfl rfl
    (d := c) (vs := [0, 0, 0]) (by
      unfold svRepairVerify
      rw [show (s.newJob g c p).f 0 0 3 = c.rcd.f 0 0 3 from rfl]
      dsimp only
      rw [flushed_newJob hrun hone, records_newJob hrun hone]
      dsimp only
      rw [show (s.newJob g c p).f 1 0 9 = c.rcd.f 1 0 9 from rfl, show (s.newJob g c p).f 1 16 9 = c.rcd.f 1 16 9 from rfl,
        sites_away haway]
      rfl) rfl
  exact ⟨t, _, ht, hserv⟩

end

/-- Settles O40: each service by its own lemma above. -/
theorem dataAndCaptureServicesAnswer : Obligations.DataAndCaptureServicesAnswer := by
  unfold Obligations.DataAndCaptureServicesAnswer
  refine ⟨⟨?_, ?_⟩, ?_⟩
  · intro g p c s o n a e ofType sites howned hcount hok
    have hone : s.OneEntry c e := ⟨howned, hcount, hok, rfl⟩
    exact ⟨svStats_ends hone, svHistogram_ends hone, svLimits_ends hone, svOutlier_ends hone, svSort_ends hone, svBin_ends hone,
      svSiteSummary_ends hone, svYield_ends hone⟩
  · intro g p c s o
    exact ⟨svBinMap_ends, svMerge_ends, svWaferMap_ends, svFailCount_ends⟩
  · intro g p c s o q r away hflushed hwrap hptr hok
    have hone : s.OneRecord o q := ⟨hflushed, hwrap, hptr, hok⟩
    exact ⟨svCapScan_ends hone, svBitmap_ends hone, fun hrun haway => svRepair_ends haway hone hrun,
      fun hrun haway => svRepairVerify_ends haway hone hrun⟩

end Sys2Proof.Machine

/-!
PROOF. The core of the state: keys, the gatehouse, the option rows, the tamper flags, the readings of the weathervane, and the
registers of the pages of the part as a whole. What the blocks behind the pages do leaves them as they are.
-/

namespace Sys2Proof.Machine

/-- The pages of the part as a whole whose registers only commands of their own and device modes change. -/
def PageKind.core : PageKind → Bool
  | .pen | .gth | .wvn | .hlk | .mod0 => true
  | _ => false

/-- The pages of stalls, sequencers, barns and grooms, and those of the farrier and the hayloft, are none of them. -/
@[simp] theorem core_block : PageKind.core .stl = false ∧ PageKind.core .lvl = false ∧ PageKind.core .drv = false ∧
    PageKind.core .cmp = false ∧ PageKind.core .swm = false ∧ PageKind.core .tim = false ∧ PageKind.core .pmu = false ∧
    PageKind.core .cnv = false ∧ PageKind.core .wch = false ∧ PageKind.core .seq = false ∧ PageKind.core .apg = false ∧
    PageKind.core .tset = false ∧ PageKind.core .site = false ∧ PageKind.core .acq = false ∧ PageKind.core .brn = false ∧
    PageKind.core .tmb = false ∧ PageKind.core .far = false ∧ PageKind.core .hbm = false ∧ PageKind.core .grm = false ∧
    PageKind.core .modp = false ∧ PageKind.core .cat = false ∧ PageKind.core .tak = false ∧
    PageKind.core .hal = false := by decide

/-- Their registers beyond the common ones, but for the result of device requests and the count of messages lost. -/
def coreReg (k : PageKind) (o : Nat) : Bool :=
  k.core && decide (0x40 ≤ o % 0x1000) &&
    !(k == .hlk && o % 0x1000 == Off.hlkMsgDrop) && !(k == .mod0 && o % 0x1000 == Off.modResult)

structure Core where
  keys : List (Nat × Nat)
  keyGen : Nat
  gth : GthSt
  otp : Otp
  tamper : Nat
  weather : Weather
  regs : PageKind → Nat → Nat → Word

def State.core (s : State) : Core :=
  ⟨s.keys, s.keyGen, s.gth, s.otp, s.lan.tamper, s.weather, fun k i o => if coreReg k o then s.rd k i o else 0⟩

/-! ### Reading the core -/

section
variable {s t : State}

theorem keys_of_core (h : t.core = s.core) : t.keys = s.keys := congrArg Core.keys h
theorem keyGen_of_core (h : t.core = s.core) : t.keyGen = s.keyGen := congrArg Core.keyGen h
theorem gth_of_core (h : t.core = s.core) : t.gth = s.gth := congrArg Core.gth h
theorem otp_of_core (h : t.core = s.core) : t.otp = s.otp := congrArg Core.otp h
theorem tamper_of_core (h : t.core = s.core) : t.lan.tamper = s.lan.tamper := congrArg Core.tamper h
theorem weather_of_core (h : t.core = s.core) : t.weather = s.weather := congrArg Core.weather h

theorem rd_of_core (h : t.core = s.core) {k : PageKind} {i o : Nat} (ho : coreReg k o = true) : t.rd k i o = s.rd k i o := by
  have hregs : (if coreReg k o then t.rd k i o else 0) = if coreReg k o then s.rd k i o else 0 :=
    congrFun (congrFun (congrFun (congrArg Core.regs h) k) i) o
  rwa [if_pos ho, if_pos ho] at hregs

theorem core_eq (hkeys : t.keys = s.keys) (hgen : t.keyGen = s.keyGen) (hgth : t.gth = s.gth) (hotp : t.otp = s.otp)
    (htamper : t.lan.tamper = s.lan.tamper) (hweather : t.weather = s.weather)
    (hrd : ∀ k i o, coreReg k o = true → t.rd k i o = s.rd k i o) : t.core = s.core := by
  have hregs : (fun k i o => if coreReg k o then t.rd k i o else 0) = fun k i o => if coreReg k o then s.rd k i o else 0 := by
    funext k i o
    by_cases ho : coreReg k o = true
    · rw [if_pos ho, if_pos ho, hrd k i o ho]
    · rw [if_neg ho, if_neg ho]
  simp only [State.core, hkeys, hgen, hgth, hotp, htamper, hweather, hregs]

theorem core_parts {k : PageKind} {o : Nat} (h : coreReg k o = true) :
    k.core = true ∧ 0x40 ≤ o % 0x1000 ∧ ¬postReg k o ∧ ¬(k = .mod0 ∧ o % 0x1000 = Off.modResult) := by
  simp only [coreReg, Bool.and_eq_true, decide_eq_true_eq, Bool.not_eq_true', Bool.and_eq_false_iff, beq_eq_false_iff_ne] at h
  obtain ⟨⟨⟨hk, ho⟩, hpost⟩, hres⟩ := h
  exact ⟨hk, ho, fun hp => hpost.elim (· hp.1) (· hp.2), fun hm => hres.elim (· hm.1) (· hm.2)⟩

/-- An update of the registers keeps the core where it keeps those registers. -/
theorem core_of_regs (hrd : ∀ k i o, coreReg k o = true → ({ s with regs := t.regs } : State).rd k i o = s.rd k i o) :
    ({ s with regs := t.regs } : State).core = s.core := core_eq rfl rfl rfl rfl rfl rfl hrd

/-- Posting an entry keeps the core. -/
theorem core_of_posted (h : State.Posted s t) : t.core = s.core := by
  have hrd : ∀ k i o, coreReg k o = true → t.rd k i o = s.rd k i o := fun k i o ho =>
    h.rd k i o (by
      obtain ⟨-, -, hpost, -⟩ := core_parts ho
      by_cases hk : k = .hlk
      · exact Or.inr fun hd => hpost ⟨hk, hd⟩
      · exact Or.inl hk)
  refine core_eq ?_ ?_ ?_ ?_ ?_ ?_ hrd
  all_goals rw [h.frame.eq]

end

variable (s : State)

/-! ### Branches, folds and registers -/

/-- Within `State.core` only the outermost operation is rewritten: what it stores is of no account. -/
@[congr] theorem core_congr : s.core = s.core := rfl

@[simp] theorem core_ite (c : Prop) [Decidable c] (a b : State) :
    (if c then a else b).core = if c then a.core else b.core := apply_ite State.core c a b

/-- A fold of steps that keep the core keeps it. -/
@[simp] theorem core_foldl {α : Type} (f : State → α → State) (l : List α) (h : ∀ x a, (f x a).core = x.core) :
    (l.foldl f s).core = s.core := view_foldl h s l

section
variable {k : PageKind} (h : k.core = false)
include h

@[simp] theorem core_wr (i o : Nat) (v : Word) : (s.wr k i o v).core = s.core :=
  core_eq rfl rfl rfl rfl rfl rfl fun k' i' o' ho => rd_wr_kind s i o i' o' v fun hk => by
    obtain ⟨hcore, -⟩ := core_parts ho
    rw [hk, h] at hcore
    exact Bool.false_ne_true hcore

@[simp] theorem core_wf (i o lo n v : Nat) : (s.wf k i o lo n v).core = s.core := core_wr s h i o _
@[simp] theorem core_wb (i o b : Nat) (v : Bool) : (s.wb k i o b v).core = s.core := core_wr s h i o _
@[simp] theorem core_sat (i o lo n v : Nat) : (s.sat k i o lo n v).core = s.core := core_wr s h i o _
@[simp] theorem core_inc (i o lo n v : Nat) : (s.inc k i o lo n v).core = s.core := core_wr s h i o _
@[simp] theorem core_wr2 (i lo hi v : Nat) : (s.wr2 k i lo hi v).core = s.core := (core_wr _ h i hi _).trans (core_wr s h i lo _)
@[simp] theorem core_startResult (i o : Nat) : (s.startResult k i o).core = s.core := core_wr s h i o _
@[simp] theorem core_storeResult (i o v : Nat) : (s.storeResult k i o v).core = s.core := core_wr s h i o _

end

/-! ### Events, errors and entries -/

@[simp] theorem core_event (k : PageKind) (i n : Nat) : (s.event k i n).core = s.core :=
  core_eq (State.event_keys ..) (State.event_keyGen ..) (State.event_gth ..) (State.event_otp ..)
    (congrArg Lantern.tamper (State.event_lan ..)) (State.event_weather ..) fun k' i' o' ho => by
      obtain ⟨-, hlow, hpost, -⟩ := core_parts ho
      exact rd_event s k i n k' i' o' hpost (Or.inr (Or.inr fun he => by rw [he] at hlow; exact absurd hlow (by decide)))

@[simp] theorem core_err (k : PageKind) (i c off : Nat) : (s.err k i c off).core = s.core :=
  core_eq (State.err_keys ..) (State.err_keyGen ..) (State.err_gth ..) (State.err_otp ..)
    (congrArg Lantern.tamper (State.err_lan ..)) (State.err_weather ..) fun k' i' o' ho => by
      obtain ⟨-, hlow, hpost, -⟩ := core_parts ho
      refine rd_err s k i c off k' i' o' hpost (Or.inr (Or.inr ⟨fun he => ?_, fun he => ?_, fun he => ?_⟩)) <;>
        exact absurd (he ▸ hlow) (by decide)


/-- A reset of the registers of a page leaves those of every page of another kind. -/
theorem rd_resetPage_kind {k k' : PageKind} (i i' o : Nat) (keep : Nat → Bool) (h : k' ≠ k) :
    (s.resetPage k i keep).rd k' i' o = s.rd k' i' o := by
  have hne := PageKind.addr_ne h i' o i (k'.addr i' o - k.addr i 0)
  unfold State.rd State.reg State.resetPage
  dsimp only
  rw [Store.getD_keep, if_pos]
  simp only [Bool.or_eq_true, decide_eq_true_eq]
  by_contra hin
  simp only [not_or, Nat.not_lt, Nat.not_le] at hin
  refine hne ?_
  unfold PageKind.addr at hin ⊢
  omega

@[simp] theorem core_resetPage {k : PageKind} (h : k.core = false) (i : Nat) (keep : Nat → Bool) :
    (s.resetPage k i keep).core = s.core :=
  core_eq rfl rfl rfl rfl rfl rfl fun k' i' o' ho => rd_resetPage_kind s i i' o' keep fun hk => by
    obtain ⟨hcore, -⟩ := core_parts ho
    rw [hk, h] at hcore
    exact Bool.false_ne_true hcore

/-! ### Named updates -/

@[simp] theorem core_useFree : s.useFree.core = s.core := (rfl)
@[simp] theorem core_setStall (i : Nat) (v : StallSt) : (s.setStall i v).core = s.core := (rfl)
@[simp] theorem core_setRing (i : Nat) (v : RingSt) : (s.setRing i v).core = s.core := (rfl)
@[simp] theorem core_setGroom (i : Nat) (v : GroomSt) : (s.setGroom i v).core = s.core := (rfl)
@[simp] theorem core_setSeq (i : Nat) (v : SeqSt) : (s.setSeq i v).core = s.core := (rfl)
@[simp] theorem core_setChan (i : Nat) (v : ChanSt) : (s.setChan i v).core = s.core := (rfl)
@[simp] theorem core_setTim (i c : Nat) (v : TimUnit) : (s.setTim i c v).core = s.core := (rfl)
@[simp] theorem core_setPmu (i u : Nat) (v : PmuSt) : (s.setPmu i u v).core = s.core := (rfl)
@[simp] theorem core_setCnv (i u : Nat) (v : CnvUnit) : (s.setCnv i u v).core = s.core := (rfl)
@[simp] theorem core_setAcq (i : Nat) (v : AcqSt) : (s.setAcq i v).core = s.core := (rfl)
@[simp] theorem core_setFar (v : FarSt) : (s.setFar v).core = s.core := (rfl)
@[simp] theorem core_setHbmSt (v : HbmSt) : (s.setHbmSt v).core = s.core := (rfl)
@[simp] theorem core_setTrips (i t : Nat) : (s.setTrips i t).core = s.core := (rfl)
@[simp] theorem core_setPba (f v : Nat) (b : Bool) : (s.setPba f v b).core = s.core := (rfl)
@[simp] theorem core_emit (f v : Nat) : (s.emit f v).core = s.core := (rfl)
@[simp] theorem core_hayWrite (o a : Nat) (b : Byte) : (s.hayWrite o a b).core = s.core := (rfl)
@[simp] theorem core_forgetPage (k : PageKind) (i : Nat) : (s.forgetPage k i).core = s.core := (rfl)
@[simp] theorem core_logLose : s.logLose.core = s.core := (rfl)

/-! ### Updates of one field -/

@[simp] theorem core_with_hay (v : Hayloft) : { s with hay := v }.core = s.core := (rfl)
@[simp] theorem core_with_flash (v : List (Nat × Byte)) : { s with flash := v }.core = s.core := (rfl)
@[simp] theorem core_with_catBuf (v : List CapRec) : { s with catBuf := v }.core = s.core := (rfl)
@[simp] theorem core_with_caps (v : List (Nat × Nat)) : { s with caps := v }.core = s.core := (rfl)
@[simp] theorem core_with_grooms (v : List (Nat × GroomSt)) : { s with grooms := v }.core = s.core := (rfl)
@[simp] theorem core_with_follow (v : List (Nat × Word)) : { s with follow := v }.core = s.core := (rfl)

@[simp] theorem core_with_cluster (v : Cluster) : { s with cluster := v }.core = s.core := (rfl)
@[simp] theorem core_with_tims (v : List (Nat × TimUnit)) (w : List (Nat × Vernier)) :
    { s with tims := v, verniers := w }.core = s.core := (rfl)
@[simp] theorem core_with_pmus (v : List (Nat × PmuSt)) (w : List (Nat × Nat)) :
    { s with pmus := v, waves := w }.core = s.core := (rfl)
@[simp] theorem core_with_cnvs (v : List (Nat × CnvUnit)) : { s with cnvs := v }.core = s.core := (rfl)
@[simp] theorem core_with_acqs (v : List (Nat × AcqSt)) : { s with acqs := v }.core = s.core := (rfl)
@[simp] theorem core_with_line (v : Line) : { s with line := v }.core = s.core := (rfl)
@[simp] theorem core_with_sampling (v : List (Nat × Bool)) (w : List (Nat × Nat)) :
    { s with sampling := v, wchPend := w }.core = s.core := (rfl)

/-- An update of the lantern that leaves the tamper flags. -/
theorem core_with_lan (v : Lantern) (h : v.tamper = s.lan.tamper) : { s with lan := v }.core = s.core := by
  simp only [State.core, h]
  rfl


@[simp] theorem core_clusterForget (p : Nat) : (s.clusterForget p).core = s.core := (rfl)

/-! ### Rings and entries -/

@[simp] theorem core_logOffer (c ty i d : Nat) : (s.logOffer c ty i d).core = s.core := by
  unfold State.logOffer
  split <;> rfl
@[simp] theorem core_countLoss (p : Producer) : (s.countLoss p).core = s.core := by
  cases p <;> simp [State.countLoss]
@[simp] theorem core_ringSet (n o lo w v : Nat) : (s.ringSet n o lo w v).core = s.core :=
  core_of_posted (posted_ringSet s n o lo w v)
@[simp] theorem core_ringLose (n : Nat) : (s.ringLose n).core = s.core := core_of_posted (posted_ringLose s n)
@[simp] theorem core_ringFlags (n : Nat) : (s.ringFlags n).core = s.core := core_of_posted (posted_ringFlags s n)

/-- An offer, however it ends and whatever loss its producer counts. -/
@[simp] theorem core_offer (n : Nat) (p : Producer) (wait : Bool) (ty body : Nat) : (s.offer n p wait ty body).1.core = s.core := by
  have posted : ∀ {x y : State}, State.Posted x y → y.core = x.core := core_of_posted
  have lost : ((s.ringLose n).countLoss p).core = s.core := by simp
  unfold State.offer
  split
  · exact lost
  · split
    · split
      · split
        · exact posted ((posted_setRing s n _).trans (posted_ringFlags _ n))
        · exact lost
      · exact posted (((((posted_ringWord s n _ _).trans (posted_ringDrop _ n)).trans (posted_ringStore _ n p ty body true)).trans
          (posted_ringDropSignal _ n)).trans (posted_ringCount _ n 1))
      · exact lost
    · exact posted ((posted_ringStore s n p ty body _).trans (posted_ringCount _ n 1))

@[simp] theorem core_post (n : Nat) (p : Producer) (wait : Bool) (ty body : Nat) : (s.post n p wait ty body).core = s.core :=
  core_offer s n p wait ty body

@[simp] theorem core_ringDisable (n : Nat) : (s.ringDisable n).core = s.core := by
  unfold State.ringDisable
  simp

@[simp] theorem core_deviceMsg (c d : Nat) : (s.deviceMsg c d).core = s.core := by
  unfold State.deviceMsg
  split
  · rfl
  · exact core_foldl _ _ _ fun x ix => core_of_posted (posted_eventPost x ix .device _ _ rfl)

/-! ### Hayloft -/

@[simp] theorem core_hayWriteBytes (o a : Nat) (bs : List Byte) : (s.hayWriteBytes o a bs).core = s.core :=
  core_of_posted (posted_hayWriteBytes s o a bs)

@[simp] theorem core_poisonWrite (a n : Nat) : (s.poisonWrite a n).core = s.core := by
  refine core_foldl _ _ _ fun x e => ?_
  simp

@[simp] theorem core_hayStore (o a : Nat) (bs : List Byte) : (s.hayStore o a bs).core = s.core := by
  unfold State.hayStore
  simp

end Sys2Proof.Machine

/-!
PROOF. The core of the state under the operations of the blocks: sequencers, farrier, acquisition engines, converters, PMUs,
switches, hayloft controller and grooms.
-/

namespace Sys2Proof.Machine

variable (s : State)

/-! ### Capture and the end of a run -/

@[simp] theorem core_hbmErrAddr (a r : Nat) (ue : Bool) : (s.hbmErrAddr a r ue).core = s.core := by
  unfold State.hbmErrAddr
  simp
@[simp] theorem core_hbmUe (a r : Nat) : (s.hbmUe a r).core = s.core := by simp [State.hbmUe]
@[simp] theorem core_hbmCe (a r : Nat) : (s.hbmCe a r).core = s.core := by simp [State.hbmCe]

@[simp] theorem core_hayMerge (o a : Nat) (bs : List Byte) (r : Nat) (e : Ecc) : (s.hayMerge o a bs r e).core = s.core := by
  unfold State.hayMerge
  dsimp only
  split <;> simp

@[simp] theorem core_capWrite (c : CapRec) : (s.capWrite c).core = s.core := by simp [State.capWrite]
@[simp] theorem core_capFlush (q : Nat) : (s.capFlush q).core = s.core := by simp [State.capFlush]
@[simp] theorem core_capture (q : Nat) (v : VecRec) (i : Nat) : (s.capture q v i).core = s.core := by
  unfold State.capture
  simp only [core_ite, core_setSeq, core_event, core_sat, core_wr, core_with_catBuf, core_block, ite_self]

@[simp] theorem core_retire (q : Nat) (v : VecRec) : (s.retire q v).core = s.core := by
  unfold State.retire
  split <;> simp

@[simp] theorem core_retireAll (q : Nat) : (s.retireAll q).core = s.core := by simp [State.retireAll]
@[simp] theorem core_postSites (q : Nat) (l : List Nat) : (s.postSites q l).core = s.core := by simp [State.postSites]
@[simp] theorem core_setSeqState (q v : Nat) : (s.setSeqState q v).core = s.core := by
  unfold State.setSeqState
  simp
@[simp] theorem core_portCalm (b : Nat) : (s.portCalm b).core = s.core := by
  unfold State.portCalm
  simp
@[simp] theorem core_panicEnd (q : Nat) : (s.panicEnd q).core = s.core := by simp [State.panicEnd]
@[simp] theorem core_keepGranules (q : Nat) (w : List Nat) : (s.keepGranules q w).core = s.core := by
  unfold State.keepGranules
  simp

@[simp] theorem core_evictIdle (q : Nat) : (s.evictIdle q).core = s.core := by
  unfold State.evictIdle
  split <;> simp

@[simp] theorem core_setMstate (q v : Nat) : (s.setMstate q v).core = s.core := by simp [State.setMstate]
@[simp] theorem core_finishRun (q : Nat) (e : RunEnd) : (s.finishRun q e).core = s.core := by simp [State.finishRun]

/-! ### Farrier -/

@[simp] theorem core_setFarState (v : Nat) : (s.setFarState v).core = s.core := by
  unfold State.setFarState
  simp

@[simp] theorem core_setTrans (t : Option (DevMode × Bool)) : (s.setTrans t).core = s.core := (rfl)

@[simp] theorem core_farStore (c : Nat) : (s.farStore c).core = s.core := by
  unfold State.farStore
  dsimp only
  split <;> simp

@[simp] theorem core_farSettle : s.farSettle.core = s.core := by
  unfold State.farSettle
  split <;> simp

@[simp] theorem core_farEnd (c : Nat) : (s.farEnd c).core = s.core := by simp [State.farEnd]

@[simp] theorem core_wearCycle (st n : Nat) (hot : Bool) : (s.wearCycle st n hot).core = s.core := by
  unfold State.wearCycle
  simp only [core_ite, core_event, core_with_lan, ite_self]

@[simp] theorem core_pullUpdate (st : Nat) : (s.pullUpdate st).core = s.core := by
  unfold State.pullUpdate
  simp
@[simp] theorem core_busOpen (st m : Nat) : (s.busOpen st m).core = s.core := by simp [State.busOpen]
@[simp] theorem core_busOpening (st m : Nat) : (s.busOpening st m).core = s.core := by
  unfold State.busOpening
  simp
@[simp] theorem core_pmuRelease (st u : Nat) : (s.pmuRelease st u).core = s.core := by simp [State.pmuRelease]
@[simp] theorem core_setTimState (st c v : Nat) : (s.setTimState st c v).core = s.core := by
  unfold State.setTimState
  simp
@[simp] theorem core_timEnd (st c e : Nat) : (s.timEnd st c e).core = s.core := by simp [State.timEnd]
@[simp] theorem core_farTimEnd (st : Nat) : (s.farTimEnd st).core = s.core := by simp [State.farTimEnd]
@[simp] theorem core_seqUndefer (q : Nat) : (s.seqUndefer q).core = s.core := by simp [State.seqUndefer]
@[simp] theorem core_stepRelease (x : FarStep) (w : Bool) : (s.stepRelease x w).core = s.core := by simp [State.stepRelease]
@[simp] theorem core_farAbort (p : FarStep → Bool) : (s.farAbort p).core = s.core := by simp [State.farAbort]
@[simp] theorem core_farAbortChans (st m : Nat) : (s.farAbortChans st m).core = s.core := by simp [State.farAbortChans]
@[simp] theorem core_farPreempt : s.farPreempt.core = s.core := by simp [State.farPreempt]
@[simp] theorem core_storeSpoil : s.storeSpoil.core = s.core := by
  unfold State.storeSpoil
  split <;> rfl
@[simp] theorem core_storeCut : s.storeCut.core = s.core := by simp [State.storeCut]

/-! ### Sequencers -/

@[simp] theorem core_starveCount (q : Nat) : (s.starveCount q).core = s.core := by
  unfold State.starveCount
  simp
@[simp] theorem core_endRun (q : Nat) (e : RunEnd) : (s.endRun q e).core = s.core := by simp [State.endRun]
@[simp] theorem core_cutWindows (q t : Nat) : (s.cutWindows q t).core = s.core := by simp [State.cutWindows]
@[simp] theorem core_cancelEdges (q : Nat) : (s.cancelEdges q).core = s.core := by simp [State.cancelEdges]
@[simp] theorem core_cutRun (q c : Nat) (f : Bool) : (s.cutRun q c f).core = s.core := by simp [State.cutRun]
@[simp] theorem core_seqPreempt (q : Nat) : (s.seqPreempt q).core = s.core := by simp [State.seqPreempt]
@[simp] theorem core_primePreempt (q : Nat) : (s.primePreempt q).core = s.core := by simp [State.primePreempt]

@[simp] theorem core_seqClear (q : Nat) : (s.seqClear q).core = s.core := by
  unfold State.seqClear
  rw [core_setSeq]
  split <;> simp


/-! ### Acquisition engines -/

@[simp] theorem core_setAcqState (b v : Nat) : (s.setAcqState b v).core = s.core := by
  unfold State.setAcqState
  simp
@[simp] theorem core_portPanic (b : Nat) : (s.portPanic b).core = s.core := by simp [State.portPanic]
@[simp] theorem core_acqPort (b : Nat) : (s.acqPort b).core = s.core := by simp [State.acqPort]

@[simp] theorem core_acqRelease (b n : Nat) : (s.acqRelease b n).core = s.core := by
  unfold State.acqRelease
  split <;> simp

theorem core_acqOffer {b n : Nat} {force : Bool} {t : State} (h : s.acqOffer b n force = some t) : t.core = s.core := by
  unfold State.acqOffer at h
  dsimp only at h
  repeat' split at h
  all_goals cases h
  all_goals simp

@[simp] theorem core_acqPumpN (b n : Nat) (force : Bool) (fuel : Nat) : (s.acqPumpN b n force fuel).core = s.core := by
  induction fuel generalizing s with
  | zero => rfl
  | succ f ih =>
    rw [State.acqPumpN]
    split
    · rename_i x hx
      rw [ih, core_acqOffer s hx]
    · rfl

@[simp] theorem core_acqStore (b : Nat) (r : AcqRec) : (s.acqStore b r).core = s.core := by simp [State.acqStore]

@[simp] theorem core_acqPump (b : Nat) (force : Bool) : (s.acqPump b force).core = s.core := by
  unfold State.acqPump
  dsimp only
  repeat' split
  all_goals simp

@[simp] theorem core_acqClose (b n c : Nat) (trunc : Bool) : (s.acqClose b n c trunc).core = s.core := by
  unfold State.acqClose
  dsimp only
  split <;> simp

@[simp] theorem core_acqPostCheck (b : Nat) : (s.acqPostCheck b).core = s.core := by
  unfold State.acqPostCheck
  dsimp only
  split <;> simp

@[simp] theorem core_acqOverflow (b n : Nat) : (s.acqOverflow b n).core = s.core := by
  unfold State.acqOverflow
  split <;> simp

@[simp] theorem core_acqEvent (b t : Nat) : (s.acqEvent b t).core = s.core := by simp [State.acqEvent]
@[simp] theorem core_acqReach (b : Nat) : (s.acqReach b).core = s.core := by simp [State.acqReach]
@[simp] theorem core_acqDrained (b : Nat) : (s.acqDrained b).core = s.core := by simp [State.acqDrained]
@[simp] theorem core_acqIdle (b : Nat) : (s.acqIdle b).core = s.core := by simp [State.acqIdle]
@[simp] theorem core_acqEnd (st u : Nat) : (s.acqEnd st u).core = s.core := by simp [State.acqEnd]
@[simp] theorem core_acqPreempt (b : Nat) : (s.acqPreempt b).core = s.core := by simp [State.acqPreempt]

/-! ### Converters and PMUs -/

@[simp] theorem core_setCnvState (st u v : Nat) : (s.setCnvState st u v).core = s.core := by
  unfold State.setCnvState
  simp
@[simp] theorem core_cnvDisturb (st u : Nat) : (s.cnvDisturb st u).core = s.core := by simp [State.cnvDisturb]
@[simp] theorem core_cnvTrigger (st u t : Nat) : (s.cnvTrigger st u t).core = s.core := by simp [State.cnvTrigger]
@[simp] theorem core_cnvReach (st u : Nat) : (s.cnvReach st u).core = s.core := by simp [State.cnvReach]
@[simp] theorem core_cnvCut (st u c : Nat) : (s.cnvCut st u c).core = s.core := by simp [State.cnvCut]
@[simp] theorem core_cnvPreempt (st u : Nat) : (s.cnvPreempt st u).core = s.core := by simp [State.cnvPreempt]
@[simp] theorem core_cnvPower (st : Nat) (on : Bool) : (s.cnvPower st on).core = s.core := by simp [State.cnvPower]

/-- A step over every unit listed, each keeping the core. -/
@[simp] theorem core_cnvAll (f : State → Nat → Nat → State) (h : ∀ x i u, (f x i u).core = x.core) :
    (s.cnvAll f).core = s.core := core_foldl _ _ _ fun x _ => h x _ _

@[simp] theorem core_refOff (b : Nat) : (s.refOff b).core = s.core := by simp [State.refOff]

@[simp] theorem core_throttle (st u : Nat) : (s.throttle st u).core = s.core := by
  unfold State.throttle
  simp
@[simp] theorem core_pmuFlag (st u f : Nat) : (s.pmuFlag st u f).core = s.core := by simp [State.pmuFlag]
@[simp] theorem core_applyWave (st u : Nat) (p : PmuSt) : (s.applyWave st u p).core = s.core := by simp [State.applyWave]
@[simp] theorem core_setPmuState (st u v : Nat) : (s.setPmuState st u v).core = s.core := by
  unfold State.setPmuState
  simp
@[simp] theorem core_pmuOutOff (st u v : Nat) : (s.pmuOutOff st u v).core = s.core := by simp [State.pmuOutOff]
@[simp] theorem core_pmuPower (st : Nat) (on : Bool) : (s.pmuPower st on).core = s.core := by simp [State.pmuPower]
@[simp] theorem core_pmuClamp (st u : Nat) : (s.pmuClamp st u).core = s.core := by simp [State.pmuClamp]
@[simp] theorem core_pmuClampStall (st : Nat) : (s.pmuClampStall st).core = s.core := by simp [State.pmuClampStall]
@[simp] theorem core_pmuParked (st m : Nat) : (s.pmuParked st m).core = s.core := by simp [State.pmuParked]
@[simp] theorem core_setCaps (l : List (Nat × Nat)) : (s.setCaps l).core = s.core := by simp [State.setCaps]

/-! ### Switches and parking -/

@[simp] theorem core_openSwitches (st m : Nat) : (s.openSwitches st m).core = s.core := by
  unfold State.openSwitches
  simp
@[simp] theorem core_vernierStop (st : Nat) : (s.vernierStop st).core = s.core := by
  unfold State.vernierStop
  simp
@[simp] theorem core_timPreempt (st m : Nat) : (s.timPreempt st m).core = s.core := by simp [State.timPreempt]
@[simp] theorem core_batchEnd (st c : Nat) : (s.batchEnd st c).core = s.core := by simp [State.batchEnd]
@[simp] theorem core_batchClose (st : Nat) (b : Batch) (h : Nat) : (s.batchClose st b h).core = s.core := by
  unfold State.batchClose
  simp
@[simp] theorem core_batchOpen (st : Nat) (b : Batch) (h : Nat) : (s.batchOpen st b h).core = s.core := by
  simp [State.batchOpen]
@[simp] theorem core_batchMove (st : Nat) (b : Batch) (ho hc : Nat) (c : Bool) : (s.batchMove st b ho hc c).core = s.core := by
  simp [State.batchMove]

@[simp] theorem core_batchPreempt (st m : Nat) : (s.batchPreempt st m).core = s.core := by
  unfold State.batchPreempt
  split <;> simp

@[simp] theorem core_park (st m : Nat) : (s.park st m).core = s.core := by simp [State.park]
@[simp] theorem core_hwPark (st m : Nat) : (s.hwPark st m).core = s.core := by simp [State.hwPark]
@[simp] theorem core_stallsTripped : s.stallsTripped.core = s.core := by simp [State.stallsTripped]

@[simp] theorem core_breakAll : s.breakAll.core = s.core := by
  refine core_foldl _ _ _ fun x e => ?_
  split <;> simp

/-! ### Watch comparators, timing base, hayloft controller, grooms -/

@[simp] theorem core_setHbm (b : Nat) (v : Bool) : (s.setHbm b v).core = s.core := by
  unfold State.setHbm
  simp
@[simp] theorem core_reserve : s.reserve.core = s.core := by simp [State.reserve]
@[simp] theorem core_debtsClear : s.debtsClear.core = s.core := by
  unfold State.debtsClear
  simp
@[simp] theorem core_hayWake : s.hayWake.core = s.core := by simp [State.hayWake]
@[simp] theorem core_rateEnd (c p : Nat) : (s.rateEnd c p).core = s.core := by simp [State.rateEnd]

@[simp] theorem core_ratePreempt : s.ratePreempt.core = s.core := by
  unfold State.ratePreempt
  split <;> simp

@[simp] theorem core_groomAbort (p : Nat → Bool) : (s.groomAbort p).core = s.core := by simp [State.groomAbort]
/-- The result of a device request is not of the core. -/
@[simp] theorem core_modEnd (c t : Nat) : (s.modEnd c t).core = s.core :=
  core_eq rfl rfl rfl rfl rfl rfl fun k i o ho => by
    obtain ⟨-, -, -, hres⟩ := core_parts ho
    by_cases hk : k = .mod0
    · subst hk
      exact rd_wr_offset s .mod0 0 Off.modResult i o _ fun he => hres ⟨rfl, he⟩
    · exact rd_wr_kind s 0 Off.modResult i o _ hk

@[simp] theorem core_pmodEnd (d c t : Nat) : (s.pmodEnd d c t).core = s.core := by simp [State.pmodEnd]

@[simp] theorem core_transPreempt : s.transPreempt.core = s.core := by
  unfold State.transPreempt
  split <;> simp

end Sys2Proof.Machine

/-!
PROOF. The core of the state under the resets of pages and owners, and under the entry into M11.
-/

namespace Sys2Proof.Machine

variable (s : State)

/-! ### Resets of pages and owners -/

theorem core_blockClear (k : PageKind) (i : Nat) (hk : k.core = false) : (s.blockClear k i).core = s.core := by
  cases k
  case gth => cases hk
  case wvn => cases hk
  case stl => exact (core_with_follow _ _).trans (core_park s i allChans)
  case lvl => exact core_park s i allChans
  case cmp => exact core_park s i allChans
  case swm => exact core_park s i allChans
  case drv => exact (core_setStall _ i _).trans (core_park s i allChans)
  case tim => exact (core_with_tims _ _ _).trans (core_park s i allChans)
  case pmu =>
    refine (core_with_pmus _ _ _).trans ?_
    simp
  case cnv =>
    refine (core_with_cnvs _ _).trans ?_
    simp
  case wch => exact (core_with_sampling _ _ _).trans (core_setStall (s.setTrips i 0) i _)
  case seq => exact core_seqClear s i
  case apg => exact core_setSeq s i _
  case site => exact (core_setSeq _ i _).trans (core_capFlush s i)
  case acq => exact (core_with_acqs _ _).trans (core_acqPreempt s i)
  case brn =>
    simp only [State.blockClear]
    split
    · exact (core_with_line _ _).trans (core_refOff s i)
    · exact core_refOff s i
  case tmb =>
    simp only [State.blockClear]
    split <;> rfl
  case far =>
    refine (core_setFar _ _).trans ?_
    simp
  all_goals rfl

@[simp] theorem core_linePerUpdate : s.linePerUpdate.core = s.core := by simp [State.linePerUpdate]
@[simp] theorem core_lineShow : s.lineShow.core = s.core := by simp [State.lineShow]
@[simp] theorem core_repower (k : PageKind) (i : Nat) : (s.repower k i).core = s.core := by simp [State.repower]
theorem core_pageWipe (ref : State) (k : PageKind) (i : Nat) (hk : k.core = false) : (s.pageWipe ref k i).core = s.core := by
  simp [State.pageWipe, hk]

theorem core_pageReset (k : PageKind) (i : Nat) (hk : k.core = false) : (s.pageReset k i).core = s.core := by
  simp [State.pageReset, core_pageWipe _ _ k i hk, core_blockClear s k i hk]

theorem core_penPage (ref : State) (k : PageKind) (i : Nat) (hk : k.core = false) :
    (s.penPage ref k i).core = s.core := by
  simp [State.penPage, core_pageWipe _ ref k i hk, core_blockClear s k i hk]

/-- A fold of page resets over kinds that are none of the core's. -/
theorem core_penPages (ref : State) (l : List PageKind) (i : Nat) (hl : ∀ k ∈ l, k.core = false) :
    (l.foldl (fun x k => x.penPage ref k i) s).core = s.core := by
  induction l generalizing s with
  | nil => rfl
  | cons k t ih =>
    rw [List.foldl_cons, ih _ fun j hj => hl j (List.mem_cons_of_mem _ hj), core_penPage s ref k i (hl k List.mem_cons_self)]

@[simp] theorem core_stallReset (ref : State) (st : Nat) : (s.stallReset ref st).core = s.core :=
  core_penPages s ref stallPages st (by decide)
@[simp] theorem core_seqReset (ref : State) (q : Nat) : (s.seqReset ref q).core = s.core :=
  core_penPages s ref seqPages q (by decide)
@[simp] theorem core_ringsOff (o : Nat) : (s.ringsOff o).core = s.core := by simp [State.ringsOff]
@[simp] theorem core_ownerReset (o : Nat) (acqs : Bool) : (s.ownerReset o acqs).core = s.core := by
  have h : ∀ (x : State) (b : Nat), (x.penPage s .acq b).core = x.core := fun x b => core_penPage x s .acq b rfl
  simp [State.ownerReset, h]

/-! ### Device modes -/

@[simp] theorem core_enterDev (d : DevMode) : (s.enterDev d).core = s.core := (rfl)

@[simp] theorem core_with_pins_lan (p : Pins) (b : Bool) :
    { s with pins := p, lan := { s.lan with closed := b } }.core = s.core := (rfl)

@[simp] theorem core_goM11 : s.goM11.core = s.core := by
  unfold State.goM11
  simp

/-- The pins and the state of reset and boot after M11 has been entered. -/
theorem goM11_pins : s.goM11.pins = { s.pins with tripLow := true, wakeLow := false } := by
  obtain ⟨x, hx, l, h⟩ : ∃ x : State, x.shell = (s.transPreempt.enterDev .m11).shell ∧
      ∃ l, s.goM11 = { x with pins := { x.pins with tripLow := true, wakeLow := false }, lan := l } :=
    ⟨_, shell_goM11_blocks _, _, rfl⟩
  rw [h]
  change ({ x.pins with tripLow := true, wakeLow := false } : Pins) = _
  rw [pins_of_shell hx]
  exact congrArg (fun p : Pins => { p with tripLow := true, wakeLow := false }) (pins_of_shell (shell_transPreempt s))

theorem goM11_rst : s.goM11.rst = s.rst := by
  obtain ⟨x, hx, p, l, h⟩ : ∃ x : State, x.shell = (s.transPreempt.enterDev .m11).shell ∧
      ∃ p l, s.goM11 = { x with pins := p, lan := l } := ⟨_, shell_goM11_blocks _, _, _, rfl⟩
  rw [h]
  change x.rst = _
  rw [rst_of_shell hx]
  exact (rst_of_shell (shell_transPreempt s) :)

theorem goM11_dev : s.goM11.mode.dev = .m11 := by
  rw [goM11_mode]
  rfl

variable {s}

/-- A cause of M11 marks itself, and takes a part that is in M2 to M10 to M11. -/
theorem enterM11_eq (h : 2 ≤ s.mode.dev.num) (c : Nat) : s.enterM11 c =
    if s.mode.dev = .m11 then s.wb .mod0 0 Off.modM11Cause c true else (s.wb .mod0 0 Off.modM11Cause c true).goM11 := by
  unfold State.enterM11
  cases hd : s.mode.dev
  case m0 => rw [hd] at h; exact absurd h (by decide)
  case m1 => rw [hd] at h; exact absurd h (by decide)
  all_goals simp

theorem core_enterM11 (h : 2 ≤ s.mode.dev.num) (c : Nat) :
    (s.enterM11 c).core = (s.wb .mod0 0 Off.modM11Cause c true).core := by
  rw [enterM11_eq h]
  simp

theorem enterM11_dev (h : 2 ≤ s.mode.dev.num) (c : Nat) : (s.enterM11 c).mode.dev = .m11 := by
  rw [enterM11_eq h]
  split
  · assumption
  · exact goM11_dev _

theorem enterM11_rst (h : 2 ≤ s.mode.dev.num) (c : Nat) : (s.enterM11 c).rst = s.rst := by
  rw [enterM11_eq h]
  split
  · rfl
  · exact goM11_rst _

theorem enterM11_tripLow (h : 2 ≤ s.mode.dev.num) (c : Nat) :
    (s.enterM11 c).pins.tripLow = (s.pins.tripLow || decide (s.mode.dev ≠ .m11)) := by
  rw [enterM11_eq h]
  split
  · rename_i hd
    simp [hd]
  · rename_i hd
    simp [hd, goM11_pins]

/-- The cause is marked. -/
theorem enterM11_marks (h : 2 ≤ s.mode.dev.num) {c : Nat} (hc : c < 32) :
    (s.enterM11 c).rb .mod0 0 Off.modM11Cause c = true := by
  rw [rb_of_rd (rd_of_core (core_enterM11 h c) rfl)]
  exact rb_wb_same s .mod0 0 Off.modM11Cause c true hc

theorem weather_enterM11 (s : State) (c : Nat) : (s.enterM11 c).weather = s.weather := by
  unfold State.enterM11
  split
  · rfl
  · rfl
  · rfl
  · exact (weather_of_core (core_goM11 _) :)

end Sys2Proof.Machine

/-!
PROOF. The logbook of the lantern (R657 to R663, R672, R673), the weathervane (R641 to R656) and the loss of a clock (R666 to R668);
and O53.
-/

namespace Sys2Proof.Machine

section
variable {s : State}

/-! ### The logbook -/

theorem logDrain_with_lan (s : State) : s.logDrain = { s with lan := s.logDrain.lan } := by
  have hwritten : ∀ (l : List Nat) (x : State), l.foldl State.logWrite x = { x with lan := (l.foldl State.logWrite x).lan } := by
    intro l
    induction l with
    | nil => exact fun x => rfl
    | cons e l ih => exact fun x => (ih (x.logWrite e)).trans rfl
  unfold State.logDrain
  rw [hwritten]

/-- An entry offered moves neither the slots nor what has become of the logbook. -/
theorem logOffer_slots (s : State) (c ty i d : Nat) : (s.logOffer c ty i d).lan.slots = s.lan.slots ∧
    (s.logOffer c ty i d).lan.wptr = s.lan.wptr ∧ (s.logOffer c ty i d).lan.frozen = s.lan.frozen := by
  unfold State.logOffer
  split <;> exact ⟨rfl, rfl, rfl⟩

/-- An open logbook with room takes an entry. -/
theorem logOffer_open (hfrozen : s.lan.frozen = false) (hclosed : s.lan.closed = false) (hroom : s.lan.queue.length < 16)
    (c ty i d : Nat) : s.logOffer c ty i d = { s with lan := { s.lan with queue := s.lan.queue ++ [logBody c ty i d] } } := by
  unfold State.logOffer
  rw [if_neg (by simp [hfrozen, hclosed, hroom])]

theorem exec_logEntryWrite (n : BitVec 40) {e : Nat} {l : List Nat} (hq : s.lan.queue = e :: l) :
    ∃ t, exec (.logEntryWrite n) s = .next t ∧ t = { s with lan := t.lan } ∧ t.lan.queue = l ∧
      t.lan.wptr = (s.lan.wptr + 1) % 512 ∧
      Store.getD (fun _ => 0) t.lan.slots s.lan.wptr = BitVec.ofNat 64 (max s.lan.tick n.toNat % 2 ^ 24 + 2 ^ 24 * e) ∧
      (∀ i ≠ s.lan.wptr, Store.getD (fun _ => 0) t.lan.slots i = Store.getD (fun _ => 0) s.lan.slots i) := by
  have hexec : exec (.logEntryWrite n) s =
      .next ({ s.lanAt n.toNat with lan := { (s.lanAt n.toNat).lan with queue := l } }.logWrite e) := by
    change execLogEntryWrite n s = _
    unfold execLogEntryWrite
    rw [hq]
  exact ⟨_, hexec, rfl, rfl, rfl, Store.getD_setD_same .., fun i hi => Store.getD_setD_ne _ _ _ hi⟩

theorem exec_logFreeze (n : BitVec 40) (hclosed : s.lan.closed = true) (hfrozen : s.lan.frozen = false) :
    ∃ t, exec (.logFreeze n) s = .next t ∧ t = { s with lan := t.lan } ∧ t.lan.frozen = true ∧ t.lan.closed = false ∧
      t.lan.queue = [] := by
  have hfreeze : ∃ l : Lantern, (s.lanAt n.toNat).freeze = { s with lan := l } ∧ l.frozen = true ∧ l.closed = false ∧
      l.queue = [] := by
    unfold State.freeze
    rw [if_neg (by simp [State.lanAt, hclosed, hfrozen])]
    dsimp only
    rw [logDrain_with_lan]
    exact ⟨_, rfl, rfl, rfl, rfl⟩
  obtain ⟨l, hfreeze, hl⟩ := hfreeze
  exact ⟨_, congrArg Host.Outcome.next hfreeze, rfl, hl⟩

/-- The mark of a tick that stands at `k`. -/
theorem tickMark_at (hfrozen : s.lan.frozen = false) (hclosed : s.lan.closed = false) (hroom : s.lan.queue.length < 16)
    (k c ty i d : Nat) :
    ∃ t x, ({ s with lan := { s.lan with tick := k } } : State).logOffer c ty i d = t ∧ t = { s with lan := t.lan } ∧
      t.lan.tick = k ∧ t.lan.queue = s.lan.queue ++ [x] ∧ t.lan.slots = s.lan.slots :=
  ⟨_, _, logOffer_open (s := { s with lan := { s.lan with tick := k } }) hfrozen hclosed hroom c ty i d, rfl, rfl, rfl, rfl⟩

theorem exec_tickMark (hfrozen : s.lan.frozen = false) (hclosed : s.lan.closed = false) (hroom : s.lan.queue.length < 16) :
    ∃ t x, exec .tickMark s = .next t ∧ t = { s with lan := t.lan } ∧ t.lan.tick % 2 ^ 24 = 0 ∧
      t.lan.queue = s.lan.queue ++ [x] ∧ t.lan.slots = s.lan.slots := by
  obtain ⟨t, x, ht, hlan, htick, hkept⟩ := tickMark_at hfrozen hclosed hroom ((s.lan.tick / 2 ^ 24 + 1) * 2 ^ 24 % 2 ^ 40)
    logTickMark PageKind.lan.typeCode 0 ((s.lan.tick / 2 ^ 24 + 1) * 2 ^ 24 % 2 ^ 40 / 2 ^ 24)
  refine ⟨t, x, congrArg Host.Outcome.next ht, hlan, ?_, hkept⟩
  rw [htick]
  omega

theorem exec_oscFail_running (h : s.rst.choreLost = false) :
    exec .oscFail s = .next { s with lan := { s.lan with oscFail := true } } := by
  change execOscFail s = _
  unfold execOscFail
  rw [if_neg (by simp [h])]

theorem exec_oscFail_stopped (h : s.rst.choreLost = true) : exec .oscFail s = .next s := by
  change execOscFail s = _
  unfold execOscFail
  rw [if_pos h]

/-! ### The LOG page -/

section
variable {r : Requester} (hen : s.pageEn .log 0 = true)
include hen

theorem exec_thaw (hacc : s.accepts r .log 0 Off.logCtrl 0xC301 = true) (hm4 : s.mode.dev = .m4) :
    ∃ t, exec (.thaw r) s = .next t ∧ t = { s with lan := t.lan } ∧ t.lan.frozen = false ∧ t.lan.slots = s.lan.slots := by
  have hthaw : logCtrlWrite 0xC301 s =
      { s with lan := { s.lan with frozen := false } }.logOffer logThawed PageKind.log.typeCode 0 s.lan.frz := by
    unfold logCtrlWrite State.logThaw
    rw [if_neg (by decide), if_neg (by decide), if_neg (by simp [hen])]
    dsimp only
    rw [if_neg (by decide : ¬tbit 0xC301 1 = true), if_pos (by decide : tbit 0xC301 0 = true), if_neg (by simp [hm4])]
  obtain ⟨hslots, -, hfrozen⟩ := logOffer_slots { s with lan := { s.lan with frozen := false } } logThawed
    PageKind.log.typeCode 0 s.lan.frz
  refine ⟨_, congrArg Host.Outcome.next ((guarded_of_accepts hacc _).trans hthaw), ?_, hfrozen, hslots⟩
  exact logOffer_frame ..

theorem exec_clear (hacc : s.accepts r .log 0 Off.logCtrl 0xC302 = true) (hfrozen : s.lan.frozen = false) :
    ∃ t, exec (.clear r) s = .next t ∧ t = { s with lan := t.lan } ∧ t.lan.slots = [] ∧ t.lan.wptr = 0 := by
  have hclear : logCtrlWrite 0xC302 s =
      { s with lan := { s.lan with slots := [], wptr := 0, wrapped := false, lost := 0 } }.logOffer
        logCleared PageKind.log.typeCode 0 0 := by
    unfold logCtrlWrite State.logClear
    rw [if_neg (by decide), if_neg (by decide), if_neg (by simp [hen])]
    dsimp only
    rw [if_neg (by decide : ¬tbit 0xC302 0 = true), if_pos (by decide : tbit 0xC302 1 = true), if_neg (by simp [hfrozen])]
  obtain ⟨hslots, hwptr, -⟩ := logOffer_slots
    { s with lan := { s.lan with slots := [], wptr := 0, wrapped := false, lost := 0 } } logCleared PageKind.log.typeCode 0 0
  refine ⟨_, congrArg Host.Outcome.next ((guarded_of_accepts hacc _).trans hclear), ?_, hslots, hwptr⟩
  exact logOffer_frame ..

theorem exec_hostMark (data : BitVec 16) (hacc : s.accepts r .log 0 Off.logMark (word data.toNat) = true)
    (hfrozen : s.lan.frozen = false) (hclosed : s.lan.closed = false) (hroom : s.lan.queue.length < 16) :
    exec (.hostMark r data) s = .next { s with lan := { s.lan with
      queue := s.lan.queue ++ [logBody logHostMark PageKind.log.typeCode 0 data.toNat] } } := by
  refine congrArg Host.Outcome.next ((guarded_of_accepts hacc _).trans ?_)
  unfold logMarkWrite
  rw [if_neg (by simp [hen]), fld_word_toNat (by decide), logOffer_open hfrozen hclosed hroom]

end

/-! ### Slots of the weathervane -/

/-- The slot of the round and the raw readings. -/
def State.round (s : State) : Nat × List (Nat × Int) := (s.weather.slot, s.weather.raws)

theorem round_of_core {t : State} (h : t.core = s.core) : t.round = s.round := by
  rw [State.round, weather_of_core h, State.round]

@[simp] theorem core_wvnMsg (s : State) (c n : Nat) : (s.wvnMsg c n).core = s.core := by
  unfold State.wvnMsg
  simp

@[simp] theorem core_capsFollow (s : State) : s.capsFollow.core = s.core := by
  unfold State.capsFollow
  simp

theorem round_of_weather {t : State} (h : t.weather = s.weather) : t.round = s.round := by
  rw [State.round, h, State.round]

theorem round_with_grace (s : State) (p : Pins) (g : Option Nat) :
    ({ s with pins := p, weather := { s.weather with grace := g } } : State).round = s.round := rfl

theorem round_showTemps (s : State) : s.showTemps.round = s.round := by
  refine round_of_weather ?_
  unfold State.showTemps
  dsimp only
  rw [State.wf_weather]
  exact view_foldl (fun x b => State.wr_weather x .wvn 0 _ _) s (upto 8)

theorem round_judgeHeat (s : State) : s.judgeHeat.round = s.round := by
  unfold State.judgeHeat
  dsimp only
  split
  · split
    · exact (round_of_core ((core_wvnMsg _ _ _).trans (core_event _ _ _ _))).trans
        ((round_with_grace _ _ _).trans (round_of_weather (State.wf_weather ..)))
    · rfl
  · split
    · refine (round_of_core (core_wvnMsg _ _ _)).trans ?_
      generalize hx : List.foldl _ _ _ = x
      have hkept : x.round = s.round := by
        rw [← hx]
        refine (view_foldl (fun y q => ?_) _ _).trans
          ((round_of_core (core_setCaps _ _)).trans (round_of_weather (State.wf_weather ..)))
        exact round_of_core ((core_setSeq _ _ _).trans (core_wb _ (by decide) _ _ _ _))
      exact (round_with_grace x _ none).trans hkept
    · exact round_of_core (core_capsFollow s)

/-- The slot of a sensor stores its reading. -/
theorem round_sensorSlot (s : State) (n : Nat) (v : Int) :
    (s.sensorSlot n v).round = (s.weather.slot, Store.setD (fun _ => 0) s.weather.raws n v) := by
  unfold State.sensorSlot
  dsimp only
  split
  · rfl
  · split
    · rfl
    · split
      · refine (round_of_core ((core_wvnMsg _ _ _).trans ((core_logOffer ..).trans (core_event ..)))).trans rfl
      · rfl

/-- So does that of a supply channel. -/
theorem round_supplySlot (s : State) (n : Nat) (v : Int) :
    (s.supplySlot n v).round = (s.weather.slot, Store.setD (fun _ => 0) s.weather.raws (72 + n) v) := by
  have hentered : ∀ (x : State) (c : Nat), (x.enterM11 c).round = x.round := fun x c => by
    rw [State.round, weather_enterM11, State.round]
  have hoffered : ∀ (x : State) (c ty i d : Nat), (x.logOffer c ty i d).round = x.round := fun x c ty i d =>
    round_of_core (core_logOffer ..)
  have hevent : ∀ (x : State), (x.event .wvn 0 4).round = x.round := fun x => round_of_core (core_event ..)
  unfold State.supplySlot
  dsimp only
  split
  · rw [hentered, hoffered]
    split
    · exact (hevent _).trans rfl
    · rfl
  · split
    · exact (hevent _).trans rfl
    · rfl

theorem slotEnd_weather (h : s.weather.slot < 96) :
    s.slotEnd.weather.slot = (s.weather.slot + 1) % 96 ∧ s.slotEnd.weather.raws = s.weather.raws := by
  unfold State.slotEnd
  dsimp only
  split
  · have hnext : (s.weather.slot + 1) % 96 = s.weather.slot + 1 := Nat.mod_eq_of_lt (by omega)
    rw [hnext]
    exact ⟨rfl, rfl⟩
  · have hzero : (s.weather.slot + 1) % 96 = 0 := by omega
    rw [hzero]
    split <;> exact ⟨rfl, rfl⟩

/-- The end of a slot whose reading is stored. -/
theorem slotEnd_reads {x : State} {v : Int} (hslot : s.weather.slot < 96)
    (hx : x.round = (s.weather.slot, Store.setD (fun _ => 0) s.weather.raws s.weather.slot v)) :
    x.slotEnd.weather.slot = (s.weather.slot + 1) % 96 ∧ x.slotEnd.rawOf s.weather.slot = v := by
  have hnext : x.weather.slot = s.weather.slot := congrArg Prod.fst hx
  have hraws : x.weather.raws = Store.setD (fun _ => 0) s.weather.raws s.weather.slot v := congrArg Prod.snd hx
  obtain ⟨hend, hkept⟩ := slotEnd_weather (hnext.trans_lt hslot)
  refine ⟨hend.trans (by rw [hnext]), ?_⟩
  unfold State.rawOf
  rw [hkept, hraws]
  exact Store.getD_setD_same ..

theorem exec_wvnSlot (v : BitVec 16) (hvin : s.pins.vin = true) (hisl : natBit s.rst.isl 8 = true)
    (hchore : s.rst.choreLost = false) (hslot : s.weather.slot < 96) :
    ∃ t, exec (.wvnSlot v) s = .next t ∧ t.weather.slot = (s.weather.slot + 1) % 96 ∧
      t.rawOf s.weather.slot = signed 16 v.toNat := by
  change ∃ t, execWvnSlot v s = .next t ∧ _
  unfold execWvnSlot
  dsimp only
  rw [if_neg (by simp [hvin, hisl, hchore])]
  split
  · refine ⟨_, rfl, slotEnd_reads hslot ?_⟩
    have hjudged : (((s.thrSlot.sensorSlot s.weather.slot (signed 16 v.toNat)).showTemps).judgeHeat).round =
        (s.weather.slot, Store.setD (fun _ => 0) s.weather.raws s.weather.slot (signed 16 v.toNat)) := by
      rw [round_judgeHeat, round_showTemps, round_sensorSlot]
      rfl
    split
    · rw [State.round, weather_enterM11]
      exact hjudged
    · exact hjudged
  · refine ⟨_, rfl, slotEnd_reads hslot ?_⟩
    rw [round_judgeHeat, round_supplySlot, show 72 + (s.weather.slot - 72) = s.weather.slot by omega]
    rfl

/-! ### Enforcement -/

/-- A hold asked for at the next segment boundary touches the sequencer alone. -/
theorem core_thermCause (s : State) (q : Nat) : (s.thermCause q false).core = s.core := by
  unfold State.thermCause
  dsimp only
  split
  · rw [if_neg (by decide)]
    exact (core_wb _ (by decide) ..).trans (core_setSeq ..)
  · exact core_setSeq ..

/-- The state in which the grace time has ended, before its event and its message. -/
def State.enforcing (s : State) : State :=
  let s1 := (s.wf .wvn 0 Off.wvnStat 0 2 wEnforce).sat .wvn 0 Off.wvnEnfCnt 0 16 1
  { s1 with weather := { s1.weather with grace := none } }

theorem enforcing_wvnState (s : State) : s.enforcing.wvnState = wEnforce := by
  have hrd : s.enforcing.rd .wvn 0 Off.wvnStat = (s.wf .wvn 0 Off.wvnStat 0 2 wEnforce).rd .wvn 0 Off.wvnStat :=
    (rd_of_regs (s := (s.wf .wvn 0 Off.wvnStat 0 2 wEnforce).sat .wvn 0 Off.wvnEnfCnt 0 16 1) rfl ..).trans
      (rd_sat_offset _ .wvn 0 Off.wvnEnfCnt 0 Off.wvnStat 0 16 1 (by decide))
  exact (rf_of_rd hrd 0 2).trans (rf_wf_same s .wvn 0 Off.wvnStat 0 2 wEnforce (by decide))

theorem thermEnforce_core (h : s.wvnState = wWarn) : ∃ t, exec .thermEnforce s = .next t ∧ t.core = s.enforcing.core := by
  change ∃ t, execThermEnforce s = .next t ∧ _
  unfold execThermEnforce
  rw [if_neg (not_not_intro h)]
  refine ⟨_, rfl, (core_capsFollow _).trans ?_⟩
  refine (core_foldl _ _ _ fun x q => ?_).trans ((core_wvnMsg _ _ _).trans (core_event _ _ _ _))
  split
  · exact core_thermCause x q
  · rfl

theorem exec_thermEnforce (h : s.wvnState = wWarn) :
    ∃ t, exec .thermEnforce s = .next t ∧ t.wvnState = wEnforce ∧ t.weather.grace = none := by
  obtain ⟨t, ht, hcore⟩ := thermEnforce_core h
  have hrd : t.rd .wvn 0 Off.wvnStat = s.enforcing.rd .wvn 0 Off.wvnStat := rd_of_core hcore rfl
  exact ⟨t, ht, (rf_of_rd hrd 0 2).trans (enforcing_wvnState s), (congrArg Weather.grace (weather_of_core hcore)).trans rfl⟩

theorem exec_forcedHold {q : Nat} {hq : q < 8} (hen : s.wvnState = wEnforce) (hseg : (s.seq q).thermSeg = true) :
    exec (.forcedHold ⟨q, hq⟩) s = .next (s.thermCause q true) := by
  change execForcedHold ⟨q, hq⟩ s = _
  unfold execForcedHold
  rw [if_pos ⟨hen, hseg⟩]

/-- Outside HOLD the hold is asked for at the next vector. -/
theorem thermCause_running {q : Nat} (h : s.seqState q ≠ sHold) :
    s.thermCause q true = s.setSeq q { s.seq q with thermSeg := false, thermVec := true } := by
  unfold State.thermCause
  dsimp only
  rw [if_neg fun hc => h hc.1]
  rfl

/-- In HOLD it becomes a cause of the hold at once, and is counted. -/
theorem thermCause_held {q : Nat} (h : s.seqState q = sHold) :
    s.thermCause q true = ((s.setSeq q { s.seq q with thermSeg := false, thermVec := false }).wb .seq q Off.seqStat 5 true).sat
      .wvn 0 Off.wvnForcedHold 0 16 1 := by
  unfold State.thermCause
  dsimp only
  rw [if_pos ⟨h, Or.inl rfl⟩]
  rfl

/-! ### The loss of a clock -/

/-- What the loss of a clock marks before it takes the part to M11. -/
def State.clockMarked (s : State) (c : ClockLoss) : State :=
  match c with
  | .refclk => (upto 8).foldl (fun (x : State) b => x.wb .tmb b Off.tmbStat 0 false) s
  | .barnPll b => s.wb .tmb b Off.tmbStat 0 false
  | .yardPll => { s with rst := { s.rst with yardLost := true } }
  | .chore => if s.pins.vin then { s with rst := { s.rst with choreLost := true } } else s

theorem exec_clockLoss {c : ClockLoss} (hmode : 2 ≤ s.mode.dev.num)
    (hrun : s.rst.choreLost = false ∨ (c ≠ .chore ∧ c ≠ .refclk)) :
    exec (.clockLoss c) s = .next (((s.clockMarked c).logOffer logClock (clockEntry c).1 (clockEntry c).2.1
      (clockEntry c).2.2).enterM11 causeClock) := by
  have hgo : ¬(s.rst.choreLost = true ∧ (c = .chore ∨ c = .refclk)) := by
    rintro ⟨hlost, hc⟩
    rcases hrun with hrun | ⟨hchore, hrefclk⟩
    · exact Bool.false_ne_true (hrun.symm.trans hlost)
    · exact hc.elim hchore hrefclk
  have hstart : ∀ b : Prop, [Decidable b] →
      (if b then { s with rst := { s.rst with choreLost := true } } else s).mode = s.mode := fun b _ => by split <;> rfl
  change execClockLoss c s = _
  unfold execClockLoss
  dsimp only
  rw [hstart]
  cases hd : s.mode.dev
  case m0 => rw [hd] at hmode; exact absurd hmode (by decide)
  case m1 => rw [hd] at hmode; exact absurd hmode (by decide)
  all_goals
    dsimp only
    rw [if_neg hgo]
    cases c <;> simp [State.clockMarked]

theorem clockMarked_mode (s : State) (c : ClockLoss) : (s.clockMarked c).mode = s.mode := by
  cases c with
  | refclk => exact view_foldl (view := State.mode) (fun x b => State.wb_mode x .tmb b Off.tmbStat 0 false) s (upto 8)
  | barnPll b => exact State.wb_mode s .tmb b Off.tmbStat 0 false
  | yardPll => rfl
  | chore => unfold State.clockMarked; dsimp only; split <;> rfl

theorem clockMarked_pins (s : State) (c : ClockLoss) : (s.clockMarked c).pins = s.pins := by
  cases c with
  | refclk => exact view_foldl (view := State.pins) (fun x b => State.wb_pins x .tmb b Off.tmbStat 0 false) s (upto 8)
  | barnPll b => exact State.wb_pins s .tmb b Off.tmbStat 0 false
  | yardPll => rfl
  | chore => unfold State.clockMarked; dsimp only; split <;> rfl

/-- A clock that is lost from M2 on takes the part to M11 with CLOCK set. -/
theorem clockLoss_entersM11 {c : ClockLoss} (hmode : 2 ≤ s.mode.dev.num)
    (hrun : s.rst.choreLost = false ∨ (c ≠ .chore ∧ c ≠ .refclk)) :
    ∃ t, exec (.clockLoss c) s = .next t ∧ t.mode.dev = .m11 ∧ t.rb .mod0 0 Off.modM11Cause causeClock = true ∧
      t.pins.tripLow = (s.pins.tripLow || decide (s.mode.dev ≠ .m11)) ∧
      (c = .chore → s.pins.vin = true → t.rst.choreLost = true) ∧ (c = .yardPll → t.rst.yardLost = true) := by
  refine ⟨_, exec_clockLoss hmode hrun, ?_⟩
  generalize hx : (s.clockMarked c).logOffer logClock (clockEntry c).1 (clockEntry c).2.1 (clockEntry c).2.2 = x
  have hxmode : x.mode = s.mode := by rw [← hx, State.logOffer_mode, clockMarked_mode]
  have hxpins : x.pins = s.pins := by rw [← hx, State.logOffer_pins, clockMarked_pins]
  have hxrst : x.rst = (s.clockMarked c).rst := by rw [← hx, State.logOffer_rst]
  have hxin : 2 ≤ x.mode.dev.num := by rwa [hxmode]
  refine ⟨enterM11_dev hxin _, enterM11_marks hxin (by decide), ?_, ?_, ?_⟩
  · rw [enterM11_tripLow hxin, hxmode, hxpins]
  · rintro rfl hvin
    rw [enterM11_rst hxin, hxrst, State.clockMarked, if_pos hvin]
  · rintro rfl
    rw [enterM11_rst hxin, hxrst]
    rfl

/-- Without the chore oscillator neither its loss nor that of REFCLK is found (R668). -/
theorem clockLoss_unseen {c : ClockLoss} (hmode : 2 ≤ s.mode.dev.num) (hlost : s.rst.choreLost = true)
    (hc : c = .chore ∨ c = .refclk) : ∃ t, exec (.clockLoss c) s = .next t ∧ t.regs = s.regs ∧ t.mode = s.mode := by
  change ∃ t, execClockLoss c s = .next t ∧ _
  unfold execClockLoss
  generalize hx : (if c = .chore ∧ s.pins.vin = true then { s with rst := { s.rst with choreLost := true } } else s) = x
  have hkept : x.regs = s.regs ∧ x.mode = s.mode := by
    rw [← hx]
    split <;> exact ⟨rfl, rfl⟩
  refine ⟨x, ?_, hkept⟩
  dsimp only
  rw [hkept.2, if_pos ⟨hlost, hc⟩]
  cases hd : s.mode.dev
  case m0 => simp [hd, DevMode.num] at hmode
  case m1 => simp [hd, DevMode.num] at hmode
  all_goals rfl

end

/-- Settles O53: each command by its own lemma above. -/
theorem logbookAndWeathervaneCommandsTakeEffect : Obligations.LogbookAndWeathervaneCommandsTakeEffect := by
  unfold Obligations.LogbookAndWeathervaneCommandsTakeEffect
  refine ⟨fun n e l s hq _ => exec_logEntryWrite n hq, fun n s => exec_logFreeze n, fun s => exec_tickMark,
    fun s => ⟨exec_oscFail_running, exec_oscFail_stopped⟩,
    fun r s hen => ⟨exec_thaw hen, exec_clear hen, exec_hostMark hen⟩,
    fun v s => exec_wvnSlot v, fun s => exec_thermEnforce, fun q s hen hseg => ⟨fun hrun => ?_, fun hheld => ?_⟩,
    fun c s hmode => ⟨clockLoss_entersM11 hmode, clockLoss_unseen hmode⟩⟩
  · have hexec : exec (.forcedHold q) s = .next (s.thermCause q true) := exec_forcedHold (hq := q.isLt) hen hseg
    rw [thermCause_running hrun] at hexec
    refine ⟨_, hexec, ?_, ?_, rfl⟩ <;> rw [seq_setSeq_same]
  · have hexec : exec (.forcedHold q) s = .next (s.thermCause q true) := exec_forcedHold (hq := q.isLt) hen hseg
    rw [thermCause_held hheld] at hexec
    generalize hx : s.setSeq q { s.seq q with thermSeg := false, thermVec := false } = x at hexec
    have hseq : ((x.wb .seq q Off.seqStat 5 true).sat .wvn 0 Off.wvnForcedHold 0 16 1).seq q =
        { s.seq q with thermSeg := false, thermVec := false } := by
      refine (seq_of_seqs ((State.sat_seqs ..).trans (State.wb_seqs ..)) q).trans ?_
      rw [← hx, seq_setSeq_same]
    have hcount : (x.wb .seq q Off.seqStat 5 true).rf .wvn 0 Off.wvnForcedHold 0 16 = s.rf .wvn 0 Off.wvnForcedHold 0 16 := by
      refine (rf_of_rd (rd_wb_kind x q Off.seqStat 0 Off.wvnForcedHold 5 true (by decide)) 0 16).trans ?_
      rw [← hx]
      rfl
    refine ⟨_, hexec, ?_, ?_, ?_, ?_⟩
    · rw [rb_of_rd (rd_sat_kind _ 0 Off.wvnForcedHold q Off.seqStat 0 16 1 (by decide))]
      exact rb_wb_same x .seq q Off.seqStat 5 true (by decide)
    · rw [hseq]
    · rw [hseq]
    · rw [rf_sat_same _ _ _ _ _ _ _ (by decide), hcount, satAdd_eq_min, show (2 : Nat) ^ 16 - 1 = 0xFFFF from rfl]

end Sys2Proof.Machine

/-!
PROOF. New keys (R592), the entry into M11 and the reset of a pen (R577, R625) as the core of the state shows them.
-/

namespace Sys2Proof.Machine

variable {s : State}

/-! ### The core after M11 has been entered -/

section
variable (s) (c : Nat)

theorem enterM11_core_cases :
    (s.enterM11 c).core = s.core ∨ (s.enterM11 c).core = (s.wb .mod0 0 Off.modM11Cause c true).core := by
  unfold State.enterM11
  split
  · exact Or.inl rfl
  · exact Or.inl rfl
  · exact Or.inr rfl
  · exact Or.inr (core_goM11 _)

@[simp] theorem gth_enterM11 : (s.enterM11 c).gth = s.gth :=
  (enterM11_core_cases s c).elim gth_of_core fun h => (gth_of_core h :)

@[simp] theorem otp_enterM11 : (s.enterM11 c).otp = s.otp :=
  (enterM11_core_cases s c).elim otp_of_core fun h => (otp_of_core h :)

@[simp] theorem keys_enterM11 : (s.enterM11 c).keys = s.keys :=
  (enterM11_core_cases s c).elim keys_of_core fun h => (keys_of_core h :)

@[simp] theorem keyGen_enterM11 : (s.enterM11 c).keyGen = s.keyGen :=
  (enterM11_core_cases s c).elim keyGen_of_core fun h => (keyGen_of_core h :)

@[simp] theorem tamper_enterM11 : (s.enterM11 c).lan.tamper = s.lan.tamper :=
  (enterM11_core_cases s c).elim tamper_of_core fun h => (tamper_of_core h :)

theorem rd_enterM11 {k : PageKind} {i o : Nat} (ho : coreReg k o = true) (hk : k ≠ .mod0) :
    (s.enterM11 c).rd k i o = s.rd k i o :=
  (enterM11_core_cases s c).elim (rd_of_core · ho) fun h =>
    (rd_of_core h ho).trans (rd_wb_kind s 0 Off.modM11Cause i o c true hk)

end

/-! ### Keys -/

/-- Owner index `ix` has a key that was drawn at `n` or later. -/
def State.Rekeyed (s : State) (n ix : Nat) : Prop := n ≤ s.keyGen ∧ n ≤ s.key ix

section
variable {n ix : Nat}

theorem rekeyed_congr {t : State} (hk : t.keys = s.keys) (hg : t.keyGen = s.keyGen) (h : s.Rekeyed n ix) : t.Rekeyed n ix := by
  unfold State.Rekeyed State.key
  rw [hk, hg]
  exact h

theorem rekeyed_of_core {t : State} (h : t.core = s.core) : s.Rekeyed n ix → t.Rekeyed n ix :=
  rekeyed_congr (keys_of_core h) (keyGen_of_core h)

/-- A key that is drawn is later than what came before. -/
theorem rekeyed_newKey_same (h : n ≤ s.keyGen) : (s.newKey ix).Rekeyed n ix :=
  ⟨Nat.le_succ_of_le h, by rwa [key_newKey, if_pos rfl]⟩

theorem rekeyed_newKey (h : s.Rekeyed n ix) (j : Nat) : (s.newKey j).Rekeyed n ix := by
  obtain ⟨hgen, hkey⟩ := h
  refine ⟨Nat.le_succ_of_le hgen, ?_⟩
  rw [key_newKey]
  split
  · exact hgen
  · exact hkey

/-- Owner indices of a list draw their keys, and the others keep theirs. -/
theorem rekeyed_newKeyList {l : List Nat} (hn : n ≤ s.keyGen) (h : ix ∈ l ∨ s.Rekeyed n ix) :
    (l.foldl State.newKey s).Rekeyed n ix :=
  ⟨foldl_keeps (fun x : State => n ≤ x.keyGen) (fun _ _ hx => Nat.le_succ_of_le hx) l hn,
    le_key_newKeys l hn (h.imp_right And.right)⟩

/-- The key of an owner, by its index. -/
theorem keyOf_of_rekeyed {o : Nat} (h : s.Rekeyed n (ownerIx o)) : n ≤ s.keyOf o := h.2

end

/-- New keys of a list of owner indices leave whatever one new key leaves. -/
theorem newKeyList_field {α : Type} (f : State → α) (hf : ∀ x o, f (State.newKey x o) = f x) (s : State) (l : List Nat) :
    f (l.foldl State.newKey s) = f s := view_foldl hf s l

theorem rd_newKey_pen (s : State) (ix : Nat) {o : Nat} (i : Nat) (h : o % 0x1000 ≠ Off.penKeyEpoch ix % 0x1000) :
    (s.newKey ix).rd .pen i o = s.rd .pen i o :=
  rd_wr_offset { s with keys := Store.put s.keys ix s.keyGen, keyGen := s.keyGen + 1 } .pen 0 (Off.penKeyEpoch ix) i o _ h

/-! ### The reset of a pen -/

section
variable (s) (p : Nat)

theorem core_domainHome : (s.domainHome p).core = s.core := by
  unfold State.domainHome
  dsimp only
  split
  · exact (show _ = (s.pmodEnd p modPreempted _).core from rfl).trans (core_pmodEnd s p _ _)
  · rfl

theorem rst_domainHome : (s.domainHome p).rst = s.rst := by
  unfold State.domainHome
  dsimp only
  split
  · exact rst_of_shell (shell_pmodEnd s p _ _)
  · rfl

/-- What a pen reset does before its pen reads busy. -/
def State.penHalted (s : State) (p : Nat) : State :=
  ((((s.groomAbort fun o => o == p).ratePreempt.ownerReset p true).pageReset .modp p).clusterForget p).domainHome p

theorem penApply_eq : s.penApply p =
    ((s.penHalted p).stallsOf p).foldl (fun x st => x.pmuPower st false) ((s.penHalted p).setPenBusy p true) := rfl

theorem core_penHalted : (s.penHalted p).core = s.core := by
  unfold State.penHalted
  rw [core_domainHome, core_clusterForget, core_pageReset _ .modp p (by decide)]
  simp

theorem rst_penHalted : (s.penHalted p).rst = s.rst := by
  unfold State.penHalted
  rw [rst_domainHome]
  refine rst_of_shell ((shell_clusterForget _ p).trans ((shell_pageReset _ .modp p rfl).trans ?_))
  simp

/-- A reset of a pen changes of the core only that the pen reads busy. -/
theorem core_penApply : (s.penApply p).core = ((s.penHalted p).setPenBusy p true).core := by
  rw [penApply_eq]
  exact core_foldl _ _ _ fun x st => core_pmuPower x st false

theorem rst_penApply : (s.penApply p).rst = ((s.penHalted p).setPenBusy p true).rst := by
  rw [penApply_eq]
  exact rst_of_shell (shell_foldl _ _ _ fun x st => shell_pmuPower x st false)

end

section
variable {p q n : Nat}

theorem penBusy_setPenBusy (s : State) (p : Nat) (v : Bool) (hq : q < 8) :
    (s.setPenBusy p v).penBusy q = if q = p then v else s.penBusy q := by
  change natBit (maskOf 8 fun i => if i = p then v else natBit s.rst.penBusy i) q = _
  rw [natBit_maskOf, decide_eq_true hq, Bool.true_and]
  rfl

theorem penBusy_of_rst {t : State} (h : t.rst = s.rst) (q : Nat) : t.penBusy q = s.penBusy q := by
  rw [State.penBusy, h, State.penBusy]

theorem penBusy_penApply (s : State) (p : Nat) (hq : q < 8) : (s.penApply p).penBusy q = if q = p then true else s.penBusy q := by
  rw [penBusy_of_rst (rst_penApply s p), penBusy_setPenBusy _ p true hq, penBusy_of_rst (rst_penHalted s p)]

theorem rd_penApply (s : State) (p : Nat) {k : PageKind} {i o : Nat} (ho : coreReg k o = true)
    (h : k ≠ .pen ∨ o % 0x1000 ≠ Off.penStat) : (s.penApply p).rd k i o = s.rd k i o := by
  refine (rd_of_core (core_penApply s p) ho).trans (Eq.trans ?_ (rd_of_core (core_penHalted s p) ho))
  by_cases hk : k = .pen
  · subst hk
    exact rd_wb_offset _ .pen 0 Off.penStat i o p true (h.resolve_left (not_not_intro rfl))
  · exact rd_wb_kind _ 0 Off.penStat i o p true hk

theorem rb_penApply_stat (s : State) (p : Nat) (hp : p < 8) :
    (s.penApply p).rb .pen 0 Off.penStat q = if q = p then true else s.rb .pen 0 Off.penStat q := by
  rw [rb_of_rd (rd_of_core (core_penApply s p) rfl)]
  split
  · rename_i h
    subst h
    exact rb_wb_same _ .pen 0 Off.penStat q true (by omega)
  · rename_i h
    exact (rb_wb_other _ .pen 0 Off.penStat p q true (by omega) h).trans (rb_of_rd (rd_of_core (core_penHalted s p) rfl) q)

/-- A pen that already resets is left to it. -/
theorem penReset_busy (h : s.penBusy p = true) : s.penReset p = s := by
  rw [State.penReset, if_pos h]

/-- Another pen takes the reset, and its key is replaced. -/
theorem penReset_idle (h : s.penBusy p = false) : ∃ m, s.penReset p =
    { ((s.countReset rstPen).penApply p).newKey p with
      rst := { (((s.countReset rstPen).penApply p).newKey p).rst with pens := m } } := by
  rw [State.penReset, if_neg (by simp [h])]
  exact ⟨_, rfl⟩

theorem penBusy_penReset (s : State) (p : Nat) (hq : q < 8) : (s.penReset p).penBusy q = if q = p then true else s.penBusy q := by
  cases hb : s.penBusy p
  · obtain ⟨m, hm⟩ := penReset_idle hb
    rw [hm]
    exact penBusy_penApply (s.countReset rstPen) p hq
  · rw [penReset_busy hb]
    split
    · rename_i h
      rw [h, hb]
    · rfl

theorem rd_penReset (s : State) (p : Nat) {k : PageKind} {i o : Nat} (ho : coreReg k o = true) (h : k ≠ .pen) :
    (s.penReset p).rd k i o = s.rd k i o := by
  cases hb : s.penBusy p
  · obtain ⟨m, hm⟩ := penReset_idle hb
    rw [hm]
    exact (rd_newKey _ p i o h).trans (rd_penApply (s.countReset rstPen) p ho (Or.inl h))
  · rw [penReset_busy hb]

theorem rb_penReset_stat (s : State) {p : Nat} (hp : p < 8) (h : s.penBusy p = false) :
    (s.penReset p).rb .pen 0 Off.penStat q = if q = p then true else s.rb .pen 0 Off.penStat q := by
  obtain ⟨m, hm⟩ := penReset_idle h
  rw [hm]
  have hepoch : Off.penStat % 0x1000 ≠ Off.penKeyEpoch p % 0x1000 := by simp only [Off.penStat, Off.penKeyEpoch]; omega
  exact (rb_of_rd (rd_newKey_pen ((s.countReset rstPen).penApply p) p 0 hepoch) q).trans
    (rb_penApply_stat (s.countReset rstPen) p hp)

theorem gth_penReset (s : State) (p : Nat) : (s.penReset p).gth = s.gth := by
  cases hb : s.penBusy p
  · obtain ⟨m, hm⟩ := penReset_idle hb
    rw [hm]
    have happlied : ((s.countReset rstPen).penApply p).gth = (((s.countReset rstPen).penHalted p).setPenBusy p true).gth :=
      gth_of_core (core_penApply (s.countReset rstPen) p)
    exact happlied.trans (gth_of_core (core_penHalted (s.countReset rstPen) p) :)
  · rw [penReset_busy hb]

theorem keys_penApply (s : State) (p : Nat) : (s.penApply p).keys = s.keys ∧ (s.penApply p).keyGen = s.keyGen := by
  have hkeys : (s.penApply p).keys = ((s.penHalted p).setPenBusy p true).keys := keys_of_core (core_penApply s p)
  have hgen : (s.penApply p).keyGen = ((s.penHalted p).setPenBusy p true).keyGen := keyGen_of_core (core_penApply s p)
  exact ⟨hkeys.trans (keys_of_core (core_penHalted s p) :), hgen.trans (keyGen_of_core (core_penHalted s p) :)⟩

theorem keyGen_penReset (p : Nat) (h : n ≤ s.keyGen) : n ≤ (s.penReset p).keyGen := by
  cases hb : s.penBusy p
  · obtain ⟨m, hm⟩ := penReset_idle hb
    rw [hm]
    change n ≤ ((s.countReset rstPen).penApply p).keyGen + 1
    rw [(keys_penApply (s.countReset rstPen) p).2]
    exact Nat.le_succ_of_le h
  · rwa [penReset_busy hb]

theorem rekeyed_penReset (p : Nat) (h : s.Rekeyed n q) : (s.penReset p).Rekeyed n q := by
  cases hb : s.penBusy p
  · obtain ⟨m, hm⟩ := penReset_idle hb
    obtain ⟨hkeys, hgen⟩ := keys_penApply (s.countReset rstPen) p
    rw [hm]
    have happlied : ((s.countReset rstPen).penApply p).Rekeyed n q := rekeyed_congr (s := s) hkeys hgen h
    exact rekeyed_newKey happlied p
  · rwa [penReset_busy hb]

theorem rekeyed_penReset_same (hb : s.penBusy p = false) (h : n ≤ s.keyGen) : (s.penReset p).Rekeyed n p := by
  obtain ⟨m, hm⟩ := penReset_idle hb
  obtain ⟨-, hgen⟩ := keys_penApply (s.countReset rstPen) p
  rw [hm]
  have hle : n ≤ ((s.countReset rstPen).penApply p).keyGen := by rw [hgen]; exact h
  exact rekeyed_newKey_same hle

/-! ### Resets of several pens -/

/-- Pen `q` resets, as PEN_STAT shows, and has a key drawn at `n` or later. -/
def State.PenReset (s : State) (n q : Nat) : Prop := s.penBusy q = true ∧ s.rb .pen 0 Off.penStat q = true ∧ s.Rekeyed n q

theorem penReset_takes (hq : q < 8) (hb : s.penBusy q = false) (h : n ≤ s.keyGen) : (s.penReset q).PenReset n q :=
  ⟨by rw [penBusy_penReset s q hq, if_pos rfl], by rw [rb_penReset_stat s hq hb, if_pos rfl], rekeyed_penReset_same hb h⟩

theorem penReset_keeps (hq : q < 8) (hp : p < 8) (h : s.PenReset n q) : (s.penReset p).PenReset n q := by
  obtain ⟨hbusy, hstat, hkey⟩ := h
  refine ⟨?_, ?_, rekeyed_penReset p hkey⟩
  · rw [penBusy_penReset s p hq, hbusy, ite_self]
  · cases hb : s.penBusy p
    · rw [rb_penReset_stat s hp hb, hstat, ite_self]
    · rwa [penReset_busy hb]

/-- Every pen of a list that did not reset yet does so after it. -/
theorem penResets_take (l : List Nat) (hl : ∀ p ∈ l, p < 8) (hmem : q ∈ l) (hb : s.penBusy q = false) (h : n ≤ s.keyGen) :
    (l.foldl State.penReset s).PenReset n q := by
  have hq := hl q hmem
  have hkeep : ∀ (l : List Nat) (x : State), (∀ p ∈ l, p < 8) → x.PenReset n q →
      (l.foldl State.penReset x).PenReset n q := by
    intro l
    induction l with
    | nil => exact fun x _ hx => hx
    | cons p l ih =>
      exact fun x hlt hx => ih (x.penReset p) (fun a ha => hlt a (List.mem_cons_of_mem p ha))
        (penReset_keeps hq (hlt p List.mem_cons_self) hx)
  induction l generalizing s with
  | nil => cases hmem
  | cons p l ih =>
    have hrest : ∀ a ∈ l, a < 8 := fun a ha => hl a (List.mem_cons_of_mem p ha)
    by_cases hpq : q = p
    · subst hpq
      exact hkeep l _ hrest (penReset_takes hq hb h)
    · refine ih hrest ((List.mem_cons.mp hmem).resolve_left hpq) ?_ (keyGen_penReset p h)
      rw [penBusy_penReset s p hq, if_neg hpq, hb]

theorem penBusy_penResets (l : List Nat) (hq : q < 8) (h : s.penBusy q = true) : (l.foldl State.penReset s).penBusy q = true :=
  foldl_keeps (fun x : State => x.penBusy q = true) (fun x p hx => by rw [penBusy_penReset x p hq, hx, ite_self]) l h

theorem gth_penResets (s : State) (l : List Nat) : (l.foldl State.penReset s).gth = s.gth :=
  view_foldl (view := State.gth) gth_penReset s l

theorem keyGen_penResets (l : List Nat) (h : n ≤ s.keyGen) : n ≤ (l.foldl State.penReset s).keyGen :=
  foldl_keeps (fun x : State => n ≤ x.keyGen) (fun _ p hx => keyGen_penReset p hx) l h

end

end Sys2Proof.Machine

/-!
PROOF. The gatehouse and the pens: regions (R591), pen resets (R577), the anti-rollback counter (R587, R588), the debug lock (R596
to R598) and tamper events (R599 to R602); and O51.
-/

namespace Sys2Proof.Machine

section
variable {s : State}

/-! ### Regions -/

/-- What a write of PEN_RGN_CFG makes of the selected entry. -/
def State.newRegion (s : State) (v : Word) : Region :=
  ⟨s.rf .pen 0 Off.penRgnBase 0 15, s.rf .pen 0 Off.penRgnLast 0 15, fld v 0 4, fld v 4 2, tbit v 31⟩

/-- A write that meets R591, of an entry that is not enabled yet. -/
theorem rgnCfgWrite_takes {v : Word} (hold : (s.region (s.rf .pen 0 Off.penRgnIdx 0 6)).en = false)
    (hcode : ownerCode (s.newRegion v).owner = true) (hkind : (s.newRegion v).kind < 3)
    (horder : (s.newRegion v).base ≤ (s.newRegion v).last) (hend : (s.newRegion v).last < 0x6000)
    (hrestOld : s.ownerInM4 (s.region (s.rf .pen 0 Off.penRgnIdx 0 6)).owner = true)
    (hrestNew : s.ownerInM4 (s.newRegion v).owner = true)
    (hapart : ∀ e ∈ s.regions, e.1 ≠ s.rf .pen 0 Off.penRgnIdx 0 6 → e.2.en = true →
      e.2.last < (s.newRegion v).base ∨ (s.newRegion v).last < e.2.base) :
    rgnCfgWrite v s = { s with
      regions := Store.setD (fun _ => ⟨0, 0, 15, 0, false⟩) s.regions (s.rf .pen 0 Off.penRgnIdx 0 6) (s.newRegion v) } := by
  have hclash : (s.regions.any fun e => e.1 != s.rf .pen 0 Off.penRgnIdx 0 6 && e.2.en &&
      decide (e.2.base ≤ (s.newRegion v).last) && decide ((s.newRegion v).base ≤ e.2.last)) = false := by
    refine List.any_eq_false.mpr fun e he => ?_
    simp only [Bool.and_eq_true, bne_iff_ne, decide_eq_true_eq, not_and]
    rintro ⟨⟨hne, hen⟩, hfirst⟩ hlast
    have := hapart e he hne hen
    omega
  unfold rgnCfgWrite
  extract_lets off i old new clash kept lost
  have hnoclash : clash = false := by
    simp only [clash, Bool.and_eq_false_iff]
    exact Or.inr hclash
  have hbad : ¬(ownerCode new.owner = false ∨ new.kind = 3 ∨ new.last < new.base ∨ 0x6000 ≤ new.last ∨
      clash = true) := by
    rintro (h | h | h | h | h)
    · exact Bool.false_ne_true (h.symm.trans hcode)
    · exact absurd h (Nat.ne_of_lt hkind)
    · exact absurd h (Nat.not_lt.mpr horder)
    · exact absurd h (Nat.not_le.mpr hend)
    · exact Bool.false_ne_true (hnoclash.symm.trans h)
  have hrest : (s.ownerInM4 old.owner && s.ownerInM4 new.owner) = true := Bool.and_eq_true_iff.mpr ⟨hrestOld, hrestNew⟩
  have hlost : lost = false := by
    simp only [lost, Bool.and_eq_false_iff]
    exact Or.inl hold
  rw [if_neg hbad, if_neg (by simp [hrest]), if_neg (by simp [hlost])]
  rfl

/-! ### Pen resets -/

theorem exec_penReset {r : Requester} {pens : BitVec 8} (hacc : s.accepts r .pen 0 Off.penRst (word pens.toNat) = true)
    (hen : s.pageEn .pen 0 = true) : exec (.penReset r pens) s = .next ((onesOf pens.toNat 8).foldl State.penReset s) := by
  refine congrArg Host.Outcome.next ((guarded_of_accepts hacc _).trans ?_)
  unfold penRstWrite
  rw [fld_word_toNat (by decide)]
  split
  · rename_i hzero
    have hnone : onesOf 0 8 = [] := List.filter_eq_nil_iff.mpr fun i _ => by simp
    rw [hzero, hnone]
    rfl
  · rw [if_neg (by simp [hen])]

theorem penReset_shown {r : Requester} {pens : BitVec 8} (hacc : s.accepts r .pen 0 Off.penRst (word pens.toNat) = true)
    (hen : s.pageEn .pen 0 = true) : ∃ t, exec (.penReset r pens) s = .next t ∧ ∀ p < 8, natBit pens.toNat p = true →
      t.penBusy p = true ∧ (s.penBusy p = false → t.rb .pen 0 Off.penStat p = true) ∧
      (s.penBusy p = false → s.keyGen ≤ t.keyOf p) := by
  refine ⟨_, exec_penReset hacc hen, fun p hp hbit => ?_⟩
  have hmem : p ∈ onesOf pens.toNat 8 := mem_onesOf.mpr ⟨hp, hbit⟩
  have hlt : ∀ q ∈ onesOf pens.toNat 8, q < 8 := fun q hq => (mem_onesOf.mp hq).1
  have htake : s.penBusy p = false → ((onesOf pens.toNat 8).foldl State.penReset s).PenReset s.keyGen p := fun hb =>
    penResets_take _ hlt hmem hb (Nat.le_refl _)
  refine ⟨?_, fun hb => ?_, fun hb => ?_⟩
  · cases hb : s.penBusy p
    · exact (htake hb).1
    · exact penBusy_penResets _ hp hb
  · obtain ⟨-, hstat, -⟩ := htake hb
    exact hstat
  · obtain ⟨-, -, hkey⟩ := htake hb
    exact keyOf_of_rekeyed (by rwa [ownerIx, if_pos hp])

/-- The release of soft resets moves PG_CTRL alone. -/
theorem rb_srstRelease (s : State) (ok : PageKind → Nat → Bool) {k : PageKind} (i b : Nat) {o : Nat}
    (h : o % 0x1000 ≠ Off.pgCtrl) : (s.srstRelease ok).rb k i o b = s.rb k i o b := by
  refine rb_of_rd (view_foldl (view := fun x => x.rd k i o) (fun x e => ?_) s _) b
  split
  · exact rd_wr_off x _ k _ h
  · rfl

theorem exec_penResetDone {p : Fin 8} (hperst : s.pins.perstN = false) :
    ∃ t, exec (.penResetDone p) s = .next t ∧ t.penBusy p = false ∧ t.rb .pen 0 Off.penStat p = false := by
  refine ⟨_, if_neg (by simp [hperst]), ?_, ?_⟩
  · change ((s.setPenBusy p false).srstRelease _).penBusy p = false
    rw [penBusy_of_rst (srstRelease_field State.rst (fun x k i o b v => State.wb_rst x k i o b v) _ _) p,
      penBusy_setPenBusy s p false p.isLt, if_pos rfl]
  · change ((s.setPenBusy p false).srstRelease _).rb .pen 0 Off.penStat p = false
    rw [rb_srstRelease _ _ _ _ (by decide)]
    exact rb_wb_same _ .pen 0 Off.penStat p false (by omega)

/-! ### The anti-rollback counter -/

theorem exec_svnAdvance {r : Requester} {n : BitVec 7}
    (hacc : s.accepts r .gth 0 Off.gthSvnCmd (word (n.toNat + 2 ^ 8 * 0xC3)) = true) (hfar : s.farState ≠ fStore)
    (hidle : s.gth.programming = none) (hsup : s.isSup r = true) (hm4 : s.mode.dev = .m4) (habove : s.otp.svn < n.toNat)
    (hboot : n.toNat ≤ s.gth.bootSvn) (hpatch : ∀ m, s.gth.patchSvn = some m → n.toNat ≤ m) (hen : s.pageEn .gth 0 = true) :
    exec (.svnAdvance r n 0xC3) s = .next ({ s with gth := { s.gth with programming := some n.toNat } }.startResult
      .gth 0 Off.gthSvnResult) := by
  have htarget : fld (word (n.toNat + 2 ^ 8 * 0xC3)) 0 7 = n.toNat := by
    rw [fld_word _ _ _ (by decide)]
    have := n.isLt
    omega
  have hconfirm : fld (word (n.toNat + 2 ^ 8 * 0xC3)) 8 8 = 0xC3 := by
    rw [fld_word _ _ _ (by decide)]
    have := n.isLt
    omega
  have hpatched : s.gth.patchSvn.any (fun m => decide (m < n.toNat)) = false := by
    cases hp : s.gth.patchSvn with
    | none => rfl
    | some m => simpa using hpatch m hp
  refine congrArg Host.Outcome.next ((guarded_of_accepts hacc _).trans ?_)
  change svnCmdWrite r (word (n.toNat + 2 ^ 8 * 0xC3)) s = _
  unfold svnCmdWrite
  dsimp only
  rw [htarget, hconfirm, if_neg (by simp [hfar, hidle]), if_neg, if_neg (by simp [hen])]
  rintro (h | h | h | h | h | h)
  · exact Bool.false_ne_true (h.symm.trans hsup)
  · exact h hm4
  · exact h rfl
  · omega
  · omega
  · exact Bool.false_ne_true (hpatched.symm.trans h)

/-- The end of a programming, before the tamper events that have waited for it. -/
def State.programmed (s : State) (n : Nat) : State :=
  ({ s.useFree with otp := { s.otp with svn := n }, gth := { s.gth with programming := none } } : State).storeResult
    .gth 0 Off.gthSvnResult 0

theorem exec_svnAdvanceDone {n : Nat} (h : s.gth.programming = some n) :
    exec (.svnAdvanceDone true) s = .next ((s.programmed n).heldTampers) := by
  change execSvnAdvanceDone true s = _
  unfold execSvnAdvanceDone
  rw [h]
  rfl

/-! ### Tamper events -/

/-- The debug lock closes, and a record that waits for its check will be rejected. -/
def State.relocked (s : State) : State :=
  let s1 := s.wf .gth 0 Off.gthStat 2 3 0
  { s1 with gth := { s1.gth with nonce := false, submit := s1.gth.submit.map fun (x : Bool × Nat) => (false, x.2) } }

/-- A tamper event of a source other than LANTERN, before M11 is entered. -/
def State.tampered (s : State) (src : Nat) : State := s.newKeys.relocked.tamperMark src

theorem tamper_eq {src : Nat} (h : src ≠ 4) : s.tamper src = (s.tampered src).enterM11 causeTamper := by
  unfold State.tamper
  rw [if_neg h]
  rfl

theorem gth_relocked (s : State) : s.relocked.gth =
    { s.gth with nonce := false, submit := s.gth.submit.map fun (x : Bool × Nat) => (false, x.2) } := rfl

/-- A mark of a tamper event sets its flag. -/
theorem core_tamperMark (s : State) (src : Nat) :
    (s.tamperMark src).core = ({ s with lan := { s.lan with tamper := s.lan.tamper ||| 2 ^ src } } : State).core :=
  (core_event _ _ _ _).trans (core_logOffer _ _ _ _ _)

section
variable (s) (src : Nat)

theorem gth_tamperMark : (s.tamperMark src).gth = s.gth := (gth_of_core (core_tamperMark s src) :)
theorem otp_tamperMark : (s.tamperMark src).otp = s.otp := (otp_of_core (core_tamperMark s src) :)

theorem mode_tamperMark : (s.tamperMark src).mode = s.mode :=
  (State.event_mode _ _ _ _).trans (State.logOffer_mode _ _ _ _ _)

theorem rd_tamperMark {k : PageKind} {o : Nat} (i : Nat) (ho : coreReg k o = true) : (s.tamperMark src).rd k i o = s.rd k i o :=
  rd_of_core (core_tamperMark s src) ho

theorem rekeyed_tamperMark {n ix : Nat} (h : s.Rekeyed n ix) : (s.tamperMark src).Rekeyed n ix :=
  rekeyed_of_core (core_tamperMark s src) h

theorem natBit_tamperMark : natBit (s.tamperMark src).lan.tamper src = true := by
  have hflags : (s.tamperMark src).lan.tamper = s.lan.tamper ||| 2 ^ src := tamper_of_core (core_tamperMark s src)
  rw [hflags, natBit, Nat.testBit_or, Nat.testBit_two_pow_self, Bool.or_true]

/-! ### What a tamper event leaves -/

theorem gth_tampered : (s.tampered src).gth =
    { s.gth with nonce := false, submit := s.gth.submit.map fun (x : Bool × Nat) => (false, x.2) } := by
  rw [State.tampered, gth_tamperMark, gth_relocked, newKeys_field State.gth fun _ _ => rfl]

theorem otp_tampered : (s.tampered src).otp = s.otp := by
  have hlocked : ∀ x : State, x.relocked.otp = x.otp := fun _ => rfl
  rw [State.tampered, otp_tamperMark, hlocked, newKeys_field State.otp fun _ _ => rfl]

theorem mode_tampered : (s.tampered src).mode = s.mode := by
  have hlocked : ∀ x : State, x.relocked.mode = x.mode := fun _ => rfl
  rw [State.tampered, mode_tamperMark, hlocked, newKeys_field State.mode fun _ _ => rfl]

theorem rekeyed_tampered {o : Nat} (ho : o < 9) : (s.tampered src).Rekeyed s.keyGen o := by
  have hlocked : ∀ x : State, x.Rekeyed s.keyGen o → x.relocked.Rekeyed s.keyGen o := fun _ h => h
  exact rekeyed_tamperMark _ _ (hlocked _ (rekeyed_newKeyList (Nat.le_refl _) (Or.inl (List.mem_range.mpr ho))))

theorem rd_tampered {o : Nat} (ho : coreReg .gth o = true) (hstat : o % 0x1000 ≠ Off.gthStat) :
    (s.tampered src).rd .gth 0 o = s.rd .gth 0 o := by
  have hlocked : ∀ x : State, x.relocked.rd .gth 0 o = x.rd .gth 0 o := fun x =>
    (rd_of_regs (s := x.wf .gth 0 Off.gthStat 2 3 0) rfl ..).trans (rd_wf_offset x .gth 0 Off.gthStat 0 o 2 3 0 hstat)
  rw [State.tampered, rd_tamperMark _ _ _ ho, hlocked,
    newKeys_field (fun x => x.rd .gth 0 o) fun x p => rd_newKey x p 0 o (by decide)]

end

/-! ### A tamper event -/

variable {src : Nat}

theorem gth_tamper (h : src ≠ 4) : (s.tamper src).gth =
    { s.gth with nonce := false, submit := s.gth.submit.map fun (x : Bool × Nat) => (false, x.2) } := by
  rw [tamper_eq h, gth_enterM11, gth_tampered]

theorem otp_tamper (h : src ≠ 4) : (s.tamper src).otp = s.otp := by
  rw [tamper_eq h, otp_enterM11, otp_tampered]

theorem rd_tamper (h : src ≠ 4) {o : Nat} (ho : coreReg .gth o = true) (hstat : o % 0x1000 ≠ Off.gthStat) :
    (s.tamper src).rd .gth 0 o = s.rd .gth 0 o := by
  rw [tamper_eq h, rd_enterM11 _ _ ho (by decide), rd_tampered s src ho hstat]

theorem natBit_tamper (s : State) (src : Nat) : natBit (s.tamper src).lan.tamper src = true := by
  by_cases h : src = 4
  · rw [State.tamper, if_pos h, h, natBit_tamperMark]
  · rw [tamper_eq h, tamper_enterM11, State.tampered, natBit_tamperMark]

theorem dev_tamper (h : src ≠ 4) (hmode : 2 ≤ s.mode.dev.num) : (s.tamper src).mode.dev = .m11 := by
  rw [tamper_eq h]
  exact enterM11_dev (by rwa [mode_tampered]) _

theorem keyOf_tamper (h : src ≠ 4) {o : Nat} (ho : o < 9) : s.keyGen ≤ (s.tamper src).keyOf (if o = 8 then 15 else o) := by
  have hix : ownerIx (if o = 8 then 15 else o) = o := by
    unfold ownerIx
    split <;> split <;> omega
  rw [tamper_eq h]
  refine keyOf_of_rekeyed ?_
  rw [hix]
  exact rekeyed_congr (keys_enterM11 _ _) (keyGen_enterM11 _ _) (rekeyed_tampered s src ho)

end

section
variable {s : State}

/-! ### The end of a programming -/

theorem gth_programmed (s : State) (n : Nat) : (s.programmed n).gth = { s.gth with programming := none } := State.storeResult_gth ..

theorem otp_programmed (s : State) (n : Nat) : (s.programmed n).otp = { s.otp with svn := n } := State.storeResult_otp ..

theorem mode_programmed (s : State) (n : Nat) : (s.programmed n).mode = s.mode := State.storeResult_mode ..

theorem heldTampers_none (h : s.gth.heldTamper = 0) : s.heldTampers = { s with gth := { s.gth with heldTamper := 0 } } := by
  have hnone : onesOf 0 5 = [] := List.filter_eq_nil_iff.mpr fun i _ => by simp
  rw [State.heldTampers, h, hnone]
  rfl

theorem onesOf_single (src : Fin 4) : onesOf (2 ^ src.val) 5 = [src.val] := by
  fin_cases src <;> decide

theorem heldTampers_one {src : Fin 4} (h : s.gth.heldTamper = 2 ^ src.val) :
    s.heldTampers = ({ s with gth := { s.gth with heldTamper := 0 } } : State).tamper src := by
  rw [State.heldTampers, h, onesOf_single]
  rfl

theorem svnAdvanceDone_stores {n : Nat} (h : s.gth.programming = some n) (hheld : s.gth.heldTamper = 0) :
    ∃ t, exec (.svnAdvanceDone true) s = .next t ∧ t.otp.svn = n ∧ t.gth.programming = none ∧
      t.rb .gth 0 Off.gthSvnResult 16 = true ∧ t.rf .gth 0 Off.gthSvnResult 8 4 = 0 := by
  have hnone : (s.programmed n).gth.heldTamper = 0 := by rw [gth_programmed]; exact hheld
  have hexec := exec_svnAdvanceDone h
  rw [heldTampers_none hnone] at hexec
  obtain ⟨hcode, hvalid⟩ : (s.programmed n).rf .gth 0 Off.gthSvnResult 8 4 = 0 ∧
    (s.programmed n).rb .gth 0 Off.gthSvnResult 16 = true := by
    unfold State.programmed
    exact storeResult_ok _ _ _ _
  have hotp : (s.programmed n).otp.svn = n := by rw [otp_programmed]
  have hdone : (s.programmed n).gth.programming = none := by rw [gth_programmed]
  generalize s.programmed n = x at hexec hcode hvalid hotp hdone
  exact ⟨_, hexec, hotp, hdone, hvalid, hcode⟩

theorem svnAdvanceDone_tampers {n : Nat} {src : Fin 4} (h : s.gth.programming = some n) (hheld : s.gth.heldTamper = 2 ^ src.val)
    (hmode : 2 ≤ s.mode.dev.num) : ∃ t, exec (.svnAdvanceDone true) s = .next t ∧ t.otp.svn = n ∧ t.gth.heldTamper = 0 ∧
      t.mode.dev = .m11 ∧ natBit t.lan.tamper src = true := by
  have hone : (s.programmed n).gth.heldTamper = 2 ^ src.val := by rw [gth_programmed]; exact hheld
  have hexec := exec_svnAdvanceDone h
  rw [heldTampers_one hone] at hexec
  have hsrc : src.val ≠ 4 := by omega
  generalize hx : ({ s.programmed n with gth := { (s.programmed n).gth with heldTamper := 0 } } : State) = x at hexec
  have hotp : x.otp.svn = n := by
    rw [← hx]
    exact congrArg Otp.svn (otp_programmed s n)
  have hdev : x.mode = s.mode := by
    rw [← hx]
    exact mode_programmed s n
  refine ⟨_, hexec, ?_, ?_, ?_, natBit_tamper x src⟩
  · rw [otp_tamper hsrc, hotp]
  · have hzero : x.gth.heldTamper = 0 := by rw [← hx]
    rw [gth_tamper hsrc]
    exact hzero
  · exact dev_tamper hsrc (by rwa [hdev])

/-! ### The debug lock -/

theorem exec_debugNonce {r : Requester} (hen : s.pageEn .gth 0 = true) (hacc : s.accepts r .gth 0 Off.gthDbgCmd 1 = true) :
    ∃ t, exec (.debugNonce r) s = .next t ∧ t.gth.nonce = true := by
  have hdone : ∃ t, dbgCmdWrite 1 s = t ∧ t.gth.nonce = true := by
    unfold dbgCmdWrite
    rw [if_neg (by decide), if_neg (by simp [hen])]
    dsimp only
    rw [if_pos (by decide : tbit 1 0 = true), if_pos (Or.inl (by decide))]
    exact ⟨_, rfl, rfl⟩
  obtain ⟨t, ht, hnonce⟩ := hdone
  exact ⟨t, congrArg Host.Outcome.next ((guarded_of_accepts hacc _).trans ht), hnonce⟩

/-- SUBMIT takes the record and the nonce, and starts the check. -/
def State.submitted (s : State) : State :=
  (({ s with gth := { s.gth with nonce := false, submit := some (s.recordFits && s.recordSigned, fld (s.dbgRec 6) 0 3) } }.wb
    .gth 0 Off.gthDbgCmd 1 true)).startResult .gth 0 Off.gthDbgResult

theorem exec_debugSubmit {r : Requester} (hen : s.pageEn .gth 0 = true) (hacc : s.accepts r .gth 0 Off.gthDbgCmd 2 = true)
    (hidle : s.rb .gth 0 Off.gthDbgCmd 1 = false) : exec (.debugSubmit r) s = .next s.submitted := by
  refine congrArg Host.Outcome.next ((guarded_of_accepts hacc _).trans ?_)
  unfold dbgCmdWrite State.submitted
  rw [if_neg (by decide), if_neg (by simp [hen])]
  dsimp only
  rw [if_neg (by decide : ¬tbit 2 0 = true), if_neg (by simp [hidle]; decide)]

theorem debugSubmit_takes {r : Requester} (hen : s.pageEn .gth 0 = true) (hacc : s.accepts r .gth 0 Off.gthDbgCmd 2 = true)
    (hidle : s.rb .gth 0 Off.gthDbgCmd 1 = false) : ∃ t, exec (.debugSubmit r) s = .next t ∧
      t.rb .gth 0 Off.gthDbgCmd 1 = true ∧ t.rb .gth 0 Off.gthDbgResult 16 = false ∧
      t.gth = { s.gth with nonce := false, submit := some (s.recordFits && s.recordSigned, fld (s.dbgRec 6) 0 3) } := by
  refine ⟨_, exec_debugSubmit hen hacc hidle, ?_, startResult_valid .., rfl⟩
  exact (rb_of_rd (rd_wb_offset _ .gth 0 Off.gthDbgResult 0 Off.gthDbgCmd 16 false (by decide)) 1).trans
    (rb_wb_same _ .gth 0 Off.gthDbgCmd 1 true (by decide))

/-- The check is over: the record is gone and SUBMIT reads 0. -/
def State.checked (s : State) : State := { s with gth := { s.gth with submit := none } }.wb .gth 0 Off.gthDbgCmd 1 false

/-- Every pen resets, and the pens whose reset already runs and the supervisor draw new keys. -/
def State.pensReset (s : State) : State :=
  ((upto 8).filter s.penBusy ++ [8]).foldl State.newKey ((upto 8).foldl State.penReset s)

theorem gth_pensReset (s : State) : s.pensReset.gth = s.gth := by
  unfold State.pensReset
  rw [newKeyList_field State.gth fun _ _ => rfl]
  exact gth_penResets s _

theorem rekeyed_pensReset (s : State) {o : Nat} (ho : o < 9) : s.pensReset.Rekeyed s.keyGen o := by
  refine rekeyed_newKeyList (keyGen_penResets _ (Nat.le_refl _)) ?_
  by_cases h8 : o = 8
  · exact Or.inl (List.mem_append_right _ (List.mem_singleton.mpr h8))
  · have hpen : o ∈ upto 8 := List.mem_range.mpr (by omega)
    cases hb : s.penBusy o
    · obtain ⟨-, -, hkey⟩ := penResets_take (upto 8) (fun p hp => List.mem_range.mp hp) hpen hb (Nat.le_refl s.keyGen)
      exact Or.inr hkey
    · exact Or.inl (List.mem_append_left _ (List.mem_filter.mpr ⟨hpen, hb⟩))

/-- The scope opens. -/
def State.unlock (s : State) (scope : Nat) : State :=
  let s1 := ({ s with gth := { s.gth with unlocked := true } }.wf .gth 0 Off.gthStat 2 3 scope)
  ((s1.logOffer logUnlock PageKind.gth.typeCode 0 scope).storeResult .gth 0 Off.gthDbgResult 0).event .gth 0 2

theorem gth_unlock (s : State) (scope : Nat) : (s.unlock scope).gth = { s.gth with unlocked := true } :=
  (State.event_gth _ .gth 0 2).trans ((State.storeResult_gth _ .gth 0 _ _).trans ((State.logOffer_gth ..).trans
    (State.wf_gth _ .gth 0 _ _ _ _)))

theorem rekeyed_unlock {n o : Nat} (scope : Nat) (h : s.Rekeyed n o) : (s.unlock scope).Rekeyed n o := by
  have hkeys : ∀ x : State, (((x.wf .gth 0 Off.gthStat 2 3 scope).logOffer logUnlock PageKind.gth.typeCode 0 scope).storeResult
      .gth 0 Off.gthDbgResult 0).keys = x.keys := fun x => by
    rw [State.storeResult_keys, State.logOffer_keys, State.wf_keys]
  have hgen : ∀ x : State, (((x.wf .gth 0 Off.gthStat 2 3 scope).logOffer logUnlock PageKind.gth.typeCode 0 scope).storeResult
      .gth 0 Off.gthDbgResult 0).keyGen = x.keyGen := fun x => by
    rw [State.storeResult_keyGen, State.logOffer_keyGen, State.wf_keyGen]
  exact rekeyed_congr ((State.event_keys _ .gth 0 2).trans (hkeys _)) ((State.event_keyGen _ .gth 0 2).trans (hgen _)) h

theorem scope_unlock (s : State) (scope : Nat) : (s.unlock scope).rf .gth 0 Off.gthStat 2 3 = scope % 8 := by
  unfold State.unlock
  dsimp only
  generalize ({ s with gth := { s.gth with unlocked := true } } : State) = x
  have hstored : ∀ y : State, (y.storeResult .gth 0 Off.gthDbgResult 0).rd .gth 0 Off.gthStat =
      y.rd .gth 0 Off.gthStat := fun y => rd_wr_offset y .gth 0 Off.gthDbgResult 0 Off.gthStat _ (by decide)
  rw [rf_of_rd (rd_event _ .gth 0 2 .gth 0 Off.gthStat (by simp [postReg]) (by decide)),
    rf_of_rd (hstored _), rf_of_rd (rd_of_regs (State.logOffer_regs ..) ..)]
  exact rf_wf_same x .gth 0 Off.gthStat 2 3 scope (by decide)

section
variable {good : Bool} {scope : Nat} (hbusy : s.rb .gth 0 Off.gthDbgCmd 1 = true) (hsub : s.gth.submit = some (good, scope))
include hbusy

theorem exec_debugResult_error :
    exec (.debugResult false) s = .next (s.checked.storeResult .gth 0 Off.gthDbgResult (2 * 2 ^ 8)) := by
  change execDebugResult false s = _
  unfold execDebugResult
  dsimp only
  rw [if_neg (by simp [hbusy]), if_pos rfl]
  rfl

include hsub

theorem exec_debugResult_good (hgood : good = true) : exec (.debugResult true) s = .next (s.checked.pensReset.unlock scope) := by
  have hpens : (upto 8).filter s.checked.penBusy = (upto 8).filter s.penBusy := rfl
  change execDebugResult true s = _
  unfold execDebugResult State.pensReset
  rw [hsub, hpens]
  dsimp only
  rw [if_neg (by simp [hbusy]), if_neg (by decide)]
  exact if_pos hgood

theorem exec_debugResult_bad (hbad : good = false) :
    let x := ({ s.checked with gth := { s.checked.gth with rejected := s.gth.rejected + 1 } } : State).storeResult
      .gth 0 Off.gthDbgResult (1 * 2 ^ 8)
    exec (.debugResult true) s = .next (if s.gth.rejected + 1 = 8 then x.tamperFound 3 else x) := by
  intro x
  change execDebugResult true s = _
  unfold execDebugResult
  rw [hsub]
  dsimp only
  rw [if_neg (by simp [hbusy]), if_neg (by decide)]
  exact if_neg (by simp [hbad])

end

/-- A tamper event of AUTH that is found leaves the debug result, the count of rejections and the scope's state. -/
theorem tamperFound_auth (s : State) (hsub : s.gth.submit = none) : (s.tamperFound 3).gth.unlocked = s.gth.unlocked ∧
    (s.tamperFound 3).gth.submit = none ∧ (s.tamperFound 3).gth.rejected = s.gth.rejected ∧
    (s.tamperFound 3).rd .gth 0 Off.gthDbgResult = s.rd .gth 0 Off.gthDbgResult := by
  unfold State.tamperFound
  split
  · exact ⟨rfl, hsub, rfl, rfl⟩
  · split
    · exact ⟨rfl, hsub, rfl, rfl⟩
    · rw [gth_tamper (by decide), rd_tamper (by decide) rfl (by decide)]
      exact ⟨rfl, by rw [hsub]; rfl, rfl, rfl⟩

theorem exec_tamperEvent {src : Fin 5} (hmode : 2 ≤ s.mode.dev.num) : exec (.tamperEvent src) s = .next (s.tamperFound src) :=
  if_neg (by omega)

theorem tamperFound_now {src : Nat} (hen : s.rb .gth 0 Off.gthTamperEn src = true) (hidle : s.gth.programming = none) :
    s.tamperFound src = s.tamper src := by
  rw [State.tamperFound, if_neg (by simp [hen]), if_neg (by simp [hidle])]

theorem tamperFound_later {src n : Nat} (hen : s.rb .gth 0 Off.gthTamperEn src = true) (hbusy : s.gth.programming = some n) :
    s.tamperFound src = { s with gth := { s.gth with heldTamper := s.gth.heldTamper ||| 2 ^ src } } := by
  rw [State.tamperFound, if_neg (by simp [hen]), if_pos (by simp [hbusy])]

/-- Codes of a result whose other fields are 0. -/
theorem storeResult_code (s : State) (k : PageKind) (i o : Nat) {code : Nat} (h : code < 16) :
    (s.storeResult k i o (code * 2 ^ 8)).rf k i o 8 4 = code := by
  rw [State.rf, storeResult_rd, fld_word _ _ _ (by decide)]
  omega

/-- The results of the check of an unlock record (R598). -/
theorem debugResult_answers {good : Bool} {scope : Nat} (hbusy : s.rb .gth 0 Off.gthDbgCmd 1 = true)
    (hsub : s.gth.submit = some (good, scope)) :
    (good = true → ∃ t, exec (.debugResult true) s = .next t ∧ t.gth.unlocked = true ∧ t.gth.submit = none ∧
      t.rf .gth 0 Off.gthStat 2 3 = scope % 8 ∧ ∀ o < 9, s.keyGen ≤ t.keyOf (if o = 8 then 15 else o)) ∧
    (∃ t, exec (.debugResult false) s = .next t ∧ t.gth = { s.gth with submit := none } ∧
      t.rb .gth 0 Off.gthDbgCmd 1 = false ∧ t.rf .gth 0 Off.gthDbgResult 8 4 = 2) ∧
    (good = false → ∃ t, exec (.debugResult true) s = .next t ∧ t.gth.unlocked = s.gth.unlocked ∧ t.gth.submit = none ∧
      t.gth.rejected = s.gth.rejected + 1 ∧ t.rf .gth 0 Off.gthDbgResult 8 4 = 1) := by
  have hchecked : s.checked.gth = { s.gth with submit := none } := State.wb_gth ..
  refine ⟨fun hgood => ?_, ?_, fun hbad => ?_⟩
  · have hgth : (s.checked.pensReset.unlock scope).gth = { s.gth with submit := none, unlocked := true } := by
      rw [gth_unlock, gth_pensReset, hchecked]
    refine ⟨_, exec_debugResult_good hbusy hsub hgood, ?_, ?_, scope_unlock _ scope, fun o ho => ?_⟩
    · rw [hgth]
    · rw [hgth]
    · refine keyOf_of_rekeyed ?_
      have hix : ownerIx (if o = 8 then 15 else o) = o := by
        unfold ownerIx
        split <;> split <;> omega
      rw [hix]
      exact rekeyed_unlock scope (rekeyed_pensReset s.checked ho)
  · refine ⟨_, exec_debugResult_error hbusy, (State.storeResult_gth ..).trans hchecked, ?_,
      storeResult_code _ _ _ _ (by decide)⟩
    exact (rb_of_rd (rd_wr_offset s.checked .gth 0 Off.gthDbgResult 0 Off.gthDbgCmd _ (by decide)) 1).trans
      (rb_wb_same _ .gth 0 Off.gthDbgCmd 1 false (by decide))
  · have hexec := exec_debugResult_bad hbusy hsub hbad
    dsimp only at hexec
    generalize hx : State.storeResult _ .gth 0 Off.gthDbgResult (1 * 2 ^ 8) = x at hexec
    have hxgth : x.gth = { s.gth with submit := none, rejected := s.gth.rejected + 1 } := by
      rw [← hx, State.storeResult_gth, hchecked]
    have hcode : x.rf .gth 0 Off.gthDbgResult 8 4 = 1 := by
      rw [← hx]
      exact storeResult_code _ _ _ _ (by decide)
    obtain ⟨hunlocked, hnone, hrejected, hresult⟩ := tamperFound_auth x (by rw [hxgth])
    refine ⟨_, hexec, ?_⟩
    split
    · rw [hunlocked, hnone, hrejected, rf_of_rd hresult, hcode, hxgth]
      exact ⟨rfl, rfl, rfl, rfl⟩
    · rw [hcode, hxgth]
      exact ⟨rfl, rfl, rfl, rfl⟩

end

/-- Settles O51: each command by its own lemma above. -/
theorem gatehouseCommandsTakeEffect : Obligations.GatehouseCommandsTakeEffect := by
  unfold Obligations.GatehouseCommandsTakeEffect
  refine ⟨?_, fun r pens s => penReset_shown, fun p s => exec_penResetDone, ?_, ?_, fun r s hen => ⟨exec_debugNonce hen,
    debugSubmit_takes hen⟩, fun good scope s => debugResult_answers, ?_⟩
  · intro r v s i new hacc hold hcode hkind horder hend hrestOld hrestNew hapart
    have hwrite := rgnCfgWrite_takes hold hcode hkind horder hend hrestOld hrestNew hapart
    refine ⟨_, congrArg Host.Outcome.next ((guarded_of_accepts hacc _).trans hwrite), Store.getD_setD_same .., fun j hj => ?_,
      rfl⟩
    exact Store.getD_setD_ne _ _ _ hj
  · intro r n s hacc hfar hidle hsup hm4 habove hboot hpatch hen
    exact ⟨_, exec_svnAdvance hacc hfar hidle hsup hm4 habove hboot hpatch hen, rfl, rfl, startResult_valid ..⟩
  · exact fun n s h => ⟨svnAdvanceDone_stores h, fun src hheld hmode => svnAdvanceDone_tampers h hheld hmode⟩
  · intro src s hmode hen
    refine ⟨fun hidle => ?_, fun n hbusy => ?_⟩
    · have hexec : exec (.tamperEvent src) s = .next (s.tamper src) := by
        rw [exec_tamperEvent hmode, tamperFound_now hen hidle]
      exact ⟨_, hexec, natBit_tamper s src, fun h => ⟨dev_tamper h hmode, fun o ho => keyOf_tamper h ho⟩⟩
    · have hexec := exec_tamperEvent (src := src) hmode
      rw [tamperFound_later hen hbusy] at hexec
      refine ⟨_, hexec, ?_, rfl⟩
      change (s.gth.heldTamper ||| 2 ^ src.val).testBit src.val = true
      rw [Nat.testBit_or, Nat.testBit_two_pow_self, Bool.or_true]

end Sys2Proof.Machine

/-!
PROOF. Requests of the hosts (R553, R559 to R579): what a request to configuration space, to BAR4 and to the MSI-X table leaves,
and what a hot reset, a link down and an FLR do to the functions.
-/

namespace Sys2Proof.Machine

/-! ### Configuration space -/

section
variable {f : Fin 18} {q : CfgRequest} {s : State}

theorem fnCfg_setFnCfg (f : Nat) (c : FnCfg) : (s.setFnCfg f c).fnCfg f = c := Store.getD_setD_same ..

theorem exec_configRequest_yardLost (h : s.rst.yardLost = true) : exec (.configRequest f q) s = .next s :=
  if_pos (.inr h)

theorem exec_configRequest_unserved (hl : s.linkUp (portOf f) = true) (hy : s.rst.yardLost = false) (hm : s.mode.served = false) :
    exec (.configRequest f q) s = .next (s.complete .retry []) := by
  change execConfigRequest f q s = _
  rw [execConfigRequest, if_neg (by simp [hl, hy]), if_pos hm]

theorem exec_configRequest (hl : s.linkUp (portOf f) = true) (hy : s.rst.yardLost = false) (hm : s.mode.served = true)
    (ha : s.fnAnswers f = true) : exec (.configRequest f q) s = .next (s.config f q) := by
  change execConfigRequest f q s = _
  rw [execConfigRequest, if_neg (by simp [hl, hy]), if_neg (by simp [hm]), if_neg (by simp [ha])]

theorem configCommand_takes (mse bme : Bool) (hl : s.linkUp (portOf f) = true) (hy : s.rst.yardLost = false)
    (hm : s.mode.served = true) (ha : s.fnAnswers f = true) :
    ∃ t, exec (.configRequest f (.command mse bme)) s = .next t ∧ t.cpl = some .success ∧
      (t.fnCfg f).mse = (isPf f && mse) ∧ (t.fnCfg f).bme = bme ∧ (t.fnCfg f).msixEn = (s.fnCfg f).msixEn ∧ t.regs = s.regs := by
  let c : FnCfg := { s.fnCfg f with mse := isPf f && mse, bme := bme }
  have hc : ((s.setFnCfg f c).complete .success []).fnCfg f = c := fnCfg_setFnCfg f c
  exact ⟨_, exec_configRequest hl hy hm ha, rfl, congrArg FnCfg.mse hc, congrArg FnCfg.bme hc,
    (congrArg FnCfg.msixEn hc).trans rfl, rfl⟩

end

/-! ### BAR4 -/

section
variable {f : Fin 18} {a : BitVec 35} {o : Nat} {s : State}

/-- A function that acts for an owner takes memory requests. -/
theorem memServed_of_acting (h : s.acting (.fn f) = some o) : s.memServed f = true := by
  by_contra hm
  have hnone : s.acting (.fn f) = none := if_neg (by simp [hm])
  exact absurd (h.symm.trans hnone) (by simp)

/-- What lets an access of a function to the bytes of its owner through, up to the region (R553, R570). -/
structure State.Bar4Open (s : State) (f : Fin 18) (o : Nat) : Prop where
  dev : s.mode.dev ≠ .m5
  pause : s.trainPause = false
  acting : s.acting (.fn f) = some o
  free : s.fnBlocked f = false

theorem exec_bar4Write (n : Fin 513) {bs : List Byte} (hopen : s.Bar4Open f o) (h : s.hayOk o a.toNat bs.length = true) :
    exec (.bar4Access f a (some bs) n .clean) s = .next (s.hayWriteBytes o a.toNat bs) := by
  obtain ⟨hdev, hpause, hact, hfree⟩ := hopen
  change execBar4Access f a (some bs) n .clean s = _
  unfold execBar4Access
  dsimp only
  rw [if_neg (by simp [memServed_of_acting hact]), if_neg (by simp [hdev, hpause]), hact]
  dsimp only
  rw [if_neg (by simp [hfree, inRegion_of_hayOk h]), hayMerge_clean reqHost (poisoned_of_hayOk h)]

theorem exec_bar4Read {n : Fin 513} (hopen : s.Bar4Open f o) (h : s.hayOk o a.toNat n = true) :
    exec (.bar4Access f a none n .clean) s = .next (s.complete .success (wordsOf (s.hayBytes o a.toNat n))) := by
  obtain ⟨hdev, hpause, hact, hfree⟩ := hopen
  change execBar4Access f a none n .clean s = _
  unfold execBar4Access
  dsimp only
  rw [if_neg (by simp [memServed_of_acting hact]), if_neg (by simp [hdev, hpause]), hact]
  dsimp only
  rw [if_neg (by simp [hfree, inRegion_of_hayOk h]), eccRead_clean reqHost (poisoned_of_hayOk h)]
  exact if_neg (by simp)

end

/-! ### The MSI-X table -/

section
variable {f : Fin 18} {v : Fin 4096} {s : State}

@[simp] theorem sendPending_vmask (f v : Nat) : (s.sendPending f v).vmask = s.vmask := by
  unfold State.sendPending
  dsimp only
  split
  · rfl
  · split <;> rfl

theorem exec_msixMask (on : Bool) (hm : s.memServed f = true) (hv : v.val < s.rf .hlk 0 (Off.hlkVec f) 0 13)
    (hf : s.fnBlocked f = false) : exec (.msixUnmask f v (.mask on)) s =
      .next ({ s with vmask := Store.setD (fun _ => true) s.vmask (4096 * f.val + v.val) on }.sendPending f v) :=
  if_neg (by simp [hm, hv, hf])

theorem msixMask_takes (on : Bool) (hm : s.memServed f = true) (hv : v.val < s.rf .hlk 0 (Off.hlkVec f) 0 13)
    (hf : s.fnBlocked f = false) : ∃ t, exec (.msixUnmask f v (.mask on)) s = .next t ∧ t.vecMasked f v = on := by
  refine ⟨_, exec_msixMask on hm hv hf, ?_⟩
  rw [State.vecMasked, sendPending_vmask, Store.getD_setD_same]

theorem msixWrite_takes (w : Fin 3) (x : Word) (hm : s.memServed f = true) (hv : v.val < s.rf .hlk 0 (Off.hlkVec f) 0 13)
    (hf : s.fnBlocked f = false) : ∃ t, exec (.msixUnmask f v (.write w x)) s = .next t ∧ t.msixWord f v w = x ∧
      t.vmask = s.vmask ∧ t.pba = s.pba ∧ t.sent = s.sent ∧ t.regs = s.regs :=
  ⟨_, if_neg (by simp [hm, hv, hf]), Store.getD_setD_same .., rfl, rfl, rfl, rfl⟩

theorem exec_msixRead (w : Fin 4) (hm : s.memServed f = true) (hv : v.val < s.rf .hlk 0 (Off.hlkVec f) 0 13)
    (hf : s.fnBlocked f = false) : exec (.msixUnmask f v (.read w)) s =
      .next { s with resp := [if w.val = 3 then word (bit (s.vecMasked f v)) else s.msixWord f v w], cpl := some .success } :=
  if_neg (by simp [hm, hv, hf])

end

/-! ### HLK_FNMAP and HLK_VEC -/

section
variable {r : Requester} {f : Fin 18} {v : Word} {s : State}

theorem fnmapWrite_takes (hacc : s.accepts r .hlk 0 (Off.hlkFnmap f) v = true) (hf : f.val ≠ 0)
    (ho : fld v 0 4 < 8 ∨ fld v 0 4 = 14) (hm : s.memMapped f = false) :
    ∃ t, exec (.fnmapWrite r f v) s = .next t ∧ t.rf .hlk 0 (Off.hlkFnmap f) 0 4 = fld v 0 4 := by
  refine ⟨_, congrArg Host.Outcome.next (guarded_of_accepts hacc _), ?_⟩
  unfold fnmapWrite
  dsimp only
  rw [if_neg hf, if_neg (by omega), if_neg (by simp [hm]), rf_wf_same _ _ _ _ _ _ _ (by decide)]
  exact Nat.mod_eq_of_lt (fld_lt _ _ _)

/-- The vectors of the other functions of the port, as the check of a write of HLK_VEC adds them up. -/
theorem foldl_vectors (l : List Nat) (n : Nat) : l.foldl (fun x g => x + s.rf .hlk 0 (Off.hlkVec g) 0 13) n =
    n + (l.map fun g => s.rf .hlk 0 (Off.hlkVec g) 0 13).sum := by
  induction l generalizing n with
  | nil => rfl
  | cons g l ih => rw [List.foldl_cons, ih, List.map_cons, List.sum_cons, Nat.add_assoc]

theorem vecWrite_takes (hacc : s.accepts r .hlk 0 (Off.hlkVec f) v = true) (he : (s.fnCfg f).msixEn = false)
    (hvf : isPf f = false → (s.fnCfg (pfOf f)).vfEn = false) (hpos : 0 < fld v 0 13)
    (hsum : fld v 0 13 +
      (((portFns (portOf f)).filter fun g => g != f.val).map fun g => s.rf .hlk 0 (Off.hlkVec g) 0 13).sum ≤ 4096) :
    ∃ t, exec (.vecWrite r f v) s = .next t ∧ t.rf .hlk 0 (Off.hlkVec f) 0 13 = fld v 0 13 := by
  have hstate : ¬((s.fnCfg f).msixEn = true ∨ (isPf f = false ∧ (s.fnCfg (pfOf f)).vfEn = true)) := by
    rintro (h | ⟨hp, h⟩)
    · simp [he] at h
    · simp [hvf hp] at h
  refine ⟨_, congrArg Host.Outcome.next (guarded_of_accepts hacc _), ?_⟩
  unfold vecWrite
  dsimp only
  rw [if_neg hstate, foldl_vectors, if_neg (by omega), rf_wf_same _ _ _ _ _ _ _ (by decide)]
  exact Nat.mod_eq_of_lt (fld_lt _ _ _)

end

/-! ### Resets of functions -/

section
variable {s : State}

/-- What of the links a pen's reset may move: nothing but the counters of the resets. -/
theorem fns_links_penReset (s : State) (p : Nat) : (s.penReset p).fns = s.fns ∧ (s.penReset p).rst.links = s.rst.links := by
  cases hb : s.penBusy p
  · obtain ⟨m, hm⟩ := penReset_idle hb
    have hv : ((s.countReset rstPen).penApply p).linkView = (s.countReset rstPen).linkView := linkView_penApply _ p
    rw [hm]
    exact ⟨congrArg LinkView.fns hv, congrArg LinkView.links hv⟩
  · rw [penReset_busy hb]
    exact ⟨rfl, rfl⟩

theorem fnCfg_of_fns {s t : State} (h : t.fns = s.fns) (f : Nat) : t.fnCfg f = s.fnCfg f := by
  rw [State.fnCfg, State.fnCfg, h]

@[simp] theorem fnCfg_penReset (p f : Nat) : (s.penReset p).fnCfg f = s.fnCfg f := fnCfg_of_fns (fns_links_penReset s p).1 f

@[simp] theorem linkUp_penReset (p k : Nat) : (s.penReset p).linkUp k = s.linkUp k :=
  congrArg (natBit · k) (fns_links_penReset s p).2

/-- A hot reset or a link down resets the functions of its port and no other. -/
theorem fnCfg_portDown (k down f : Nat) : (s.portDown k down).fnCfg f = if f ∈ portFns k then FnCfg.reset else s.fnCfg f := by
  unfold State.portDown
  dsimp only
  rw [fnCfg_of_fns (fns_of_shell (shell_logOffer ..)), view_foldl (view := fun x : State => x.fnCfg f)
    (f := State.penReset) (fun x p => fnCfg_penReset p f), fnCfg_fnResets]

theorem linkUp_portDown (k down i : Nat) : (s.portDown k down).linkUp i = s.linkUp i := by
  unfold State.portDown
  dsimp only
  rw [linkUp_of_linkView (linkView_of_shell (shell_logOffer ..)), view_foldl (view := fun x : State => x.linkUp i)
    (f := State.penReset) (fun x p => linkUp_penReset p i), fnResets_field _ (fun x => x.linkUp i) (fun _ _ => rfl)]

theorem portDown_resets (k down : Nat) {t : State} (h : t.fns = s.fns) :
    (∀ f ∈ portFns k, (t.portDown k down).fnCfg f = FnCfg.reset) ∧
      ∀ f, f ∉ portFns k → (t.portDown k down).fnCfg f = s.fnCfg f :=
  ⟨fun f hf => by rw [fnCfg_portDown, if_pos hf], fun f hf => by rw [fnCfg_portDown, if_neg hf, fnCfg_of_fns h]⟩

theorem exec_hotReset {k : Fin 2} (hl : s.linkUp k = true) (hk : k.val = 0 ∨ s.hbmBit 10 = false) :
    exec (.hotReset k) s = .next ((s.sat .hlk 0 Off.hlkHotrstCnt (16 * k) 16 1).portDown k 0) := by
  change execHotReset k s = _
  rw [execHotReset, if_neg (by simp [hl])]
  refine if_neg fun h => ?_
  rcases hk with h0 | hp
  · omega
  · simp [hp] at h

theorem hotReset_waits {k : Fin 2} (hl : s.linkUp k = true) (hk : k.val = 1) (hp : s.hbmBit 10 = true) :
    ∃ t, exec (.hotReset k) s = .next t ∧ t.rst.hotHeld = true ∧ t.fns = s.fns := by
  let x : State := s.sat .hlk 0 Off.hlkHotrstCnt (16 * k) 16 1
  have he : exec (.hotReset k) s = .next { x with rst := { x.rst with hotHeld := true } } := by
    change execHotReset k s = _
    rw [execHotReset, if_neg (by simp [hl])]
    exact if_pos ⟨hk, hp⟩
  exact ⟨_, he, rfl, rfl⟩

theorem linkDown_takes {k : Fin 2} (hl : s.linkUp k = true) : ∃ t, exec (.linkDown k) s = .next t ∧ t.linkUp k = false ∧
    (∀ f ∈ portFns k, t.fnCfg f = FnCfg.reset) ∧ ∀ f, f ∉ portFns k → t.fnCfg f = s.fnCfg f := by
  let w : Word := word (0x200 + 0x400 * bit (s.rb .hlk 0 (Off.hlkLstat k) 10))
  have hw : tbit w 8 = false := by
    simp only [w]
    cases s.rb .hlk 0 (Off.hlkLstat k) 10 <;> decide
  obtain ⟨x, he, hx, hfns⟩ : ∃ x : State, exec (.linkDown k) s = .next (x.portDown k 1) ∧ x.linkUp k = false ∧ x.fns = s.fns :=
    ⟨(s.setLink k w).sat .hlk 0 Off.hlkDownCnt (16 * k) 16 1, if_neg (by simp [hl]),
      (linkUp_setLink s k k w k.isLt).trans ((if_pos rfl).trans hw), setLink_fns ..⟩
  exact ⟨_, he, (linkUp_portDown k 1 k).trans hx, portDown_resets k 1 hfns⟩

end

/-! ### FLR -/

section
variable {s : State}

/-- The function is reset, its FLR counted and shown. -/
def State.flrNoted (s : State) (f : Nat) : State :=
  ((s.sat .hlk 0 Off.hlkFlrCnt (16 * portOf f) 16 1).event .hlk 0 2).fnReset f

theorem flr_eq {f : Nat} (hf : f ≠ 0) (he : s.fnExists f = true) : s.flr f =
    if s.rf .hlk 0 (Off.hlkFnmap f) 0 4 < 8 then (s.flrNoted f).penReset (s.rf .hlk 0 (Off.hlkFnmap f) 0 4) else s.flrNoted f := by
  rw [State.flr, if_neg (by simp [hf, he])]
  rfl

theorem fnCfg_flrNoted (f g : Nat) : (s.flrNoted f).fnCfg g = if g = f then FnCfg.reset else s.fnCfg g := by
  rw [State.flrNoted, fnCfg_fnReset, fnCfg_of_fns (fns_of_shell (shell_event ..))]
  rfl

theorem fnCfg_flr {f : Nat} (hf : f ≠ 0) (he : s.fnExists f = true) (g : Nat) :
    (s.flr f).fnCfg g = if g = f then FnCfg.reset else s.fnCfg g := by
  rw [flr_eq hf he]
  split
  · rw [fnCfg_penReset, fnCfg_flrNoted]
  · rw [fnCfg_flrNoted]

theorem penBusy_flr {f : Nat} (hf : f ≠ 0) (he : s.fnExists f = true) (ho : s.rf .hlk 0 (Off.hlkFnmap f) 0 4 < 8) :
    (s.flr f).penBusy (s.rf .hlk 0 (Off.hlkFnmap f) 0 4) = true := by
  rw [flr_eq hf he, if_pos ho, penBusy_penReset _ _ ho, if_pos rfl]

/-- HLK_FNMAP lies outside what a posted entry and the count of an FLR write. -/
theorem hlkFnmap_apart : ∀ g : Fin 18, coreReg .hlk (Off.hlkFnmap g) = true ∧
    Off.hlkFnmap g % 0x1000 ≠ Off.hlkFlrCnt % 0x1000 := by decide

theorem rd_flrNoted_fnmap (f : Nat) (g : Fin 18) : (s.flrNoted f).rd .hlk 0 (Off.hlkFnmap g) = s.rd .hlk 0 (Off.hlkFnmap g) := by
  obtain ⟨hcore, hoff⟩ := hlkFnmap_apart g
  exact (rd_of_core (core_event (s.sat .hlk 0 Off.hlkFlrCnt (16 * portOf f) 16 1) .hlk 0 2) hcore).trans
    (rd_sat_offset s .hlk 0 Off.hlkFlrCnt 0 (Off.hlkFnmap g) (16 * portOf f) 16 1 hoff)

/-- An FLR leaves the map of the functions alone. -/
theorem rf_flr_fnmap (s : State) (f : Nat) (g : Fin 18) :
    (s.flr f).rf .hlk 0 (Off.hlkFnmap g) 0 4 = s.rf .hlk 0 (Off.hlkFnmap g) 0 4 := by
  refine rf_of_rd ?_ 0 4
  by_cases h : f = 0 ∨ s.fnExists f = false
  · rw [State.flr, if_pos h]
  · simp only [not_or, Bool.not_eq_false] at h
    rw [flr_eq h.1 h.2]
    split
    · exact (rd_penReset _ _ (hlkFnmap_apart g).1 (by decide)).trans (rd_flrNoted_fnmap f g)
    · exact rd_flrNoted_fnmap f g

theorem split_penApply (s : State) (p : Nat) : (s.penApply p).rst.split = s.rst.split := by
  have hbusy : ((s.penHalted p).setPenBusy p true).rst.split = (s.penHalted p).rst.split := rfl
  rw [rst_penApply, hbusy, rst_penHalted]

theorem split_penReset (s : State) (p : Nat) : (s.penReset p).rst.split = s.rst.split := by
  cases hb : s.penBusy p
  · obtain ⟨m, hm⟩ := penReset_idle hb
    rw [hm]
    exact split_penApply (s.countReset rstPen) p
  · rw [penReset_busy hb]

theorem fnExists_of_split {t : State} (h : t.rst.split = s.rst.split) (f : Nat) : t.fnExists f = s.fnExists f := by
  rw [State.fnExists, h, State.fnExists]

theorem fnExists_flr (s : State) (f g : Nat) : (s.flr f).fnExists g = s.fnExists g := by
  have hn : (s.flrNoted f).rst.split = s.rst.split := congrArg RstSt.split (State.event_rst ..)
  by_cases h : f = 0 ∨ s.fnExists f = false
  · rw [State.flr, if_pos h]
  · simp only [not_or, Bool.not_eq_false] at h
    rw [flr_eq h.1 h.2]
    split
    · exact fnExists_of_split ((split_penReset _ _).trans hn) g
    · exact fnExists_of_split hn g

theorem fnExists_flrs (l : List Nat) (g : Nat) : (l.foldr (fun f x => x.flr f) s).fnExists g = s.fnExists g := by
  induction l with
  | nil => rfl
  | cons f l ih => rw [List.foldr_cons, fnExists_flr, ih]

theorem rf_flrs_fnmap (l : List Nat) (g : Fin 18) :
    (l.foldr (fun f x => x.flr f) s).rf .hlk 0 (Off.hlkFnmap g) 0 4 = s.rf .hlk 0 (Off.hlkFnmap g) 0 4 := by
  induction l with
  | nil => rfl
  | cons f l ih => rw [List.foldr_cons, rf_flr_fnmap, ih]

/-- FLRs in turn reset each function named, the last named first. -/
theorem fnCfg_flrs {l : List Nat} (hl : ∀ f ∈ l, f ≠ 0 ∧ s.fnExists f = true) (g : Nat) :
    (l.foldr (fun f x => x.flr f) s).fnCfg g = if g ∈ l then FnCfg.reset else s.fnCfg g := by
  induction l with
  | nil => rfl
  | cons f l ih =>
    obtain ⟨hf, he⟩ := hl f List.mem_cons_self
    rw [List.foldr_cons, fnCfg_flr hf, ih fun h hh => hl h (List.mem_cons_of_mem _ hh)]
    · by_cases hg : g = f <;> simp [hg]
    · rw [fnExists_flrs, he]

theorem exec_flr {f : Fin 18} (h : f.val ≠ 9 ∨ (s.fnCfg 9).vfEn = false) : exec (.flr f) s = .next (s.flr f) := by
  refine if_neg fun hc => ?_
  rcases h with hf | hv
  · exact hf hc.1
  · simp [hv] at hc

theorem exec_flr_vfs {f : Fin 18} (hf : f.val = 9) (hv : (s.fnCfg 9).vfEn = true) :
    exec (.flr f) s = .next ((portFns 1).foldr (fun g x => x.flr g) s) := if_pos ⟨hf, hv⟩

/-- Port B's functions exist together. -/
theorem fnExists_portB {f : Nat} (h9 : s.fnExists 9 = true) (hf : f ∈ portFns 1) : f ≠ 0 ∧ s.fnExists f = true := by
  have hs : s.rst.split = true := by simpa [State.fnExists] using h9
  refine ⟨fun h0 => absurd (h0 ▸ hf) (by decide), ?_⟩
  rw [State.fnExists, hs, Bool.or_true]

theorem flr_takes_one {f : Fin 18} (hf : f.val ≠ 0) (he : s.fnExists f = true) (hone : f.val ≠ 9 ∨ (s.fnCfg 9).vfEn = false) :
    ∃ t, exec (.flr f) s = .next t ∧ t.fnCfg f = FnCfg.reset ∧ (∀ g ≠ f.val, t.fnCfg g = s.fnCfg g) ∧
      (s.rf .hlk 0 (Off.hlkFnmap f) 0 4 < 8 → t.penBusy (s.rf .hlk 0 (Off.hlkFnmap f) 0 4) = true) :=
  ⟨_, exec_flr hone, by rw [fnCfg_flr hf he, if_pos rfl], fun g hg => by rw [fnCfg_flr hf he, if_neg hg], penBusy_flr hf he⟩

theorem flr_takes_vfs (h9 : s.fnExists 9 = true) (hv : (s.fnCfg 9).vfEn = true) :
    ∃ t, exec (.flr 9) s = .next t ∧ (∀ g ∈ portFns 1, t.fnCfg g = FnCfg.reset) ∧
      (s.rf .hlk 0 (Off.hlkFnmap 9) 0 4 < 8 → t.penBusy (s.rf .hlk 0 (Off.hlkFnmap 9) 0 4) = true) := by
  refine ⟨_, exec_flr_vfs rfl hv, fun g hg => ?_, fun ho => ?_⟩
  · rw [fnCfg_flrs (fun f hf => fnExists_portB h9 hf), if_pos hg]
  · have hmap := rf_flrs_fnmap (s := s) (List.range' 10 8) 9
    have hlast := penBusy_flr (s := (List.range' 10 8).foldr (fun g x => x.flr g) s) (f := 9) (by decide)
      ((fnExists_flrs _ 9).trans h9) (hmap.trans_lt ho)
    exact (congrArg (State.penBusy _) hmap.symm).trans hlast

theorem flr_takes {f : Fin 18} (hf : f.val ≠ 0) (he : s.fnExists f = true) : ∃ t, exec (.flr f) s = .next t ∧
    t.fnCfg f = FnCfg.reset ∧ ((f.val ≠ 9 ∨ (s.fnCfg 9).vfEn = false) → ∀ g ≠ f.val, t.fnCfg g = s.fnCfg g) ∧
    (f.val = 9 → (s.fnCfg 9).vfEn = true → ∀ g ∈ portFns 1, t.fnCfg g = FnCfg.reset) ∧
    (s.rf .hlk 0 (Off.hlkFnmap f) 0 4 < 8 → t.penBusy (s.rf .hlk 0 (Off.hlkFnmap f) 0 4) = true) := by
  by_cases hone : f.val ≠ 9 ∨ (s.fnCfg 9).vfEn = false
  · obtain ⟨t, ht, hreset, hrest, hpen⟩ := flr_takes_one hf he hone
    exact ⟨t, ht, hreset, fun _ => hrest, fun h9 hv => absurd hone (by simp [h9, hv]), hpen⟩
  · simp only [not_or, not_not, Bool.not_eq_false] at hone
    obtain ⟨h9, hv⟩ := hone
    obtain rfl : f = 9 := Fin.ext h9
    obtain ⟨t, ht, hreset, hpen⟩ := flr_takes_vfs he hv
    exact ⟨t, ht, hreset 9 (by decide), fun h => absurd h (by simp [hv]), fun _ _ => hreset, hpen⟩

end

/-- Settles O49: each request is followed through the checks of its command to the one write that it makes; the resets are
folds of function resets and pen resets, and a pen reset moves no function and no link. -/
theorem hostRequestsAreServed : Obligations.HostRequestsAreServed := by
  unfold Obligations.HostRequestsAreServed
  refine ⟨fun f q s hl => ⟨exec_configRequest_yardLost, exec_configRequest_unserved hl, fun mse bme hy hm ha hq => ?_⟩,
    fun s => ⟨_, rfl, rfl⟩, fun f a n o s hdev hpause hact hfree => ⟨fun bs h => ?_, fun h => ?_⟩,
    fun f v s hm hv hf => ⟨fun on => msixMask_takes on hm hv hf, fun w x => msixWrite_takes w x hm hv hf,
      fun w => exec_msixRead w hm hv hf⟩,
    fun r f v s => ⟨fnmapWrite_takes, vecWrite_takes⟩,
    fun k s hl => ⟨fun hk => ⟨_, exec_hotReset hl hk, portDown_resets k 0 rfl⟩, hotReset_waits hl, linkDown_takes hl⟩,
    fun f s hf he => flr_takes hf he⟩
  · rw [hq]
    exact configCommand_takes mse bme hl hy hm ha
  · exact ⟨_, exec_bar4Write n ⟨hdev, hpause, hact, hfree⟩ h, fun i hi => hayRead_hayWriteBytes hi rfl,
      fun b hb => cells_hayWriteBytes_outside hb⟩
  · exact ⟨_, exec_bar4Read ⟨hdev, hpause, hact, hfree⟩ h, rfl, rfl, rfl, rfl⟩

end Sys2Proof.Machine
